-- ==== Sys2Proof/Word.lean ====
section
/-! DEFINITION. The words of the device: register words are 64 bits (R13), memory cells are bytes (R80). -/
namespace Sys2Proof

/-- A register word, 64 bits (R13). -/
abbrev Word := BitVec 64

/-- A byte of memory. -/
abbrev Byte := BitVec 8

end Sys2Proof
end

