-- ==== Sys2Proof/Payload.lean ====
section
/-! DEFINITION. Operands of the commands that are more than a number: instruction words without their operation, engine
phases, units. -/
namespace Sys2Proof

/-- Logical core, 0 to 383. -/
abbrev CoreId := Fin 384

/-- Cluster, 0 to 15. -/
abbrev ClusterId := Fin 16

/-- Tile, 0 to 3. -/
abbrev TileId := Fin 4

/-- Partition, 0 to 3. -/
abbrev PartId := Fin 4

/-- Darvo port, 0 to 23. -/
abbrev PortId := Fin 24

/-- Neano context, 0 to 7. -/
abbrev CtxId := Fin 8

/-- A Pysis instruction word without CLASS and OP, which its command gives (R219): PRED, PNEG, operand bits. -/
structure IWord where
  pred : BitVec 3
  pneg : Bool
  opnd : BitVec 50
  deriving DecidableEq, Repr

/-- Moments of an engine instruction's life: its issue by the sequencer, its beginning at the head of the engine's
queue, and each of its further rows, requests or systems (95, R216, R250). -/
inductive Phase where
  | issue
  | begin
  | row
  deriving DecidableEq, Repr

/-- A scratchpad or a grove memory. -/
inductive SramId where
  | spd (c : CoreId)
  | grv (g : ClusterId)
  deriving DecidableEq, Repr

/-- A block with clock enables (R570): a core or a cluster. -/
inductive ClkUnit where
  | core (c : CoreId)
  | cluster (g : ClusterId)
  deriving DecidableEq, Repr

/-- A check-value unit (R513, R522): u of a cluster, or a port's. -/
inductive CvuId where
  | cluster (g : ClusterId) (u : Fin 2)
  | port (q : PortId)
  deriving DecidableEq, Repr

/-- Who makes a register or memory access (R13, R14, R223, R611): the hosting software, the sequencer of a core, or the hosting
software's logical hart h. -/
inductive Agent where
  | host
  | core (c : CoreId)
  | hart (h : Fin 14)
  deriving DecidableEq, Repr

/-- What a transfer of one HBM sector, or of one 4 KiB unit of the slow tier, brings beside what is stored.

HBM (R352, R353): `syms` are the values XORed onto the transmitted symbols, 0 to 67 (0 to 63 data, 64 to 67 check), and `away`
is the written address XOR the address that was asked for, as the address symbols pack it: the codeword that arrives is that
of the sector `away` names.

Slow tier (R377): `fixed` corrections by on-die or link ECC, `dead` when the package reports an uncorrectable error, and
`flips`, the values XORed onto the unit's bytes (0 to 4,095) and onto its check value (4,096 to 4,099). -/
structure ReadErr where
  syms : List (Fin 68 × BitVec 8) := []
  away : BitVec 32 := 0
  fixed : Nat := 0
  dead : Bool := false
  flips : List (Fin 4100 × BitVec 8) := []
  deriving DecidableEq, Repr

/-- An undisturbed transfer. -/
def ReadErr.clean : ReadErr := {}

/-- Errors of a transfer's sectors or units, by their index in the transfer; an index not named is clean. -/
abbrev ReadErrs := List (Nat × ReadErr)

/-- The error of sector or unit i of a transfer. -/
def ReadErrs.at (es : ReadErrs) (i : Nat) : ReadErr :=
  match es with
  | [] => .clean
  | (j, e) :: r => if j = i then e else ReadErrs.at r i

/-- What a message of a mirror says (R395, R398, R399): a unit of the slot, that the sender abandons the stream, or that it
releases the context, so that its region is to be zero. -/
inductive MirrorAct where
  | unit | abandon | clear
  deriving DecidableEq, Repr

/-- A message of a mirror (R398): sending device and context, ring, units in all, this unit's number, its bytes and its check
value. -/
structure MirrorPkt where
  dev : Nat
  ctx : CtxId
  ring : Nat
  total : Nat
  unit : Nat
  bytes : List (BitVec 8)
  check : Nat
  act : MirrorAct := .unit
  deriving DecidableEq, Repr

/-- A stop of a tile mesh (R437): a port, an HBM interface by its channel, a cluster, a die-to-die link (tiles 0 to 3, 4 the Hub,
5 Neano). -/
inductive MeshStop where
  | port (q : PortId)
  | hbm (ch : Fin 48)
  | cluster (g : ClusterId)
  | die (k : Fin 6)
  deriving DecidableEq, Repr

/-- What a port's partner tells in IDENT (R421). -/
structure Ident where
  dev : Nat
  port : Nat
  link : Nat
  member : Nat
  role : Nat
  deriving DecidableEq, Repr

/-- A synchronisation message as a port delivers it (R42): the message's Tempo number, king, the king's PRIO (log entry
30), period in force, pending period with its Tempo (0 without one), hop count; and the local arrival timestamp, the
message's edge time and its correction field in 1/32 ns. -/
structure SyncMsg where
  tempo : Nat
  king : Nat
  prio : Nat
  period : Nat
  next : Nat
  at_ : Nat
  hops : Nat
  arrival : Int
  edge : Int
  corr : Int
  deriving DecidableEq, Repr

/-- What the power/thermal controller latches at a seal (R566): the hottest sensor of each of the 16 clusters in °C, the
package power in W and the current of each cluster's regulator in A. -/
structure Measure where
  temps : List Int
  watts : Nat
  amps : List Nat
  deriving DecidableEq, Repr

/-- What an image declares for a core: its code, entry index, restart entry, scratchpad bytes, unused engines (bit 0 ME, 1 VE, 2 FTE;
R490, R539, R570). -/
structure ImgCore where
  core : Nat
  code : List Word
  entry : Nat := 0
  restart : Option Nat := none
  spd : Nat := 0
  gate : BitVec 3 := 0
  deriving DecidableEq, Repr

/-- What an image declares for its reductions (R457, R458, R478, R479): stages of eight words, the input table of pairs of words,
the first edge, period, key, scale table and the first ring. -/
structure ImgRed where
  stages : List (List Nat)
  inputs : List (Nat × Nat) := []
  first : Nat := 0
  period : Nat := 0
  key : Word := 0
  scale : Nat := 0
  tensors : Nat := 0
  ring0 : Nat := 0
  deriving DecidableEq, Repr

/-- What an image declares for its Neano context (R378, R379): parameters, fall-back buffer, seed, commit schedule,
groups and kernels. -/
structure ImgNea where
  params : Nat
  fbMode : Bool := false
  fbAddr : Nat := 0
  seed : Word := 0
  commit : Nat := 0
  period : Nat := 0
  /-- Groups: number, then the words of NEA_GRP_CFG and NEA_GRP_HYP1 to 3. -/
  groups : List (Nat × Word × Word × Word × Word) := []
  /-- Words of NEA_KERNEL by position. -/
  kernels : List (Nat × Word) := []
  deriving DecidableEq, Repr

/-- A submission ring of an image (R617, R628). -/
structure ImgRing where
  ring : Nat
  base : Nat
  log2n : Nat
  sem : Nat
  en : Bool
  head : Nat
  deriving DecidableEq, Repr

/-- A program image as the loader reads it (R490, R491, R534). `valid`: it is well formed with every reserved field zero;
`len`: the bytes that its declarations need. A semaphore is (number, initial value, producer); a generation stage is
(first page, pages) of slot 0 and of slot 1. -/
structure Image where
  valid : Bool := true
  len : Nat := 0
  job : Nat := 0
  period : Nat := 16
  mhz : Nat := 2700
  budget : Nat := 0
  tempos : Nat := 0
  serving : Bool := false
  cores : List ImgCore := []
  fb : Option (Nat × List ImgCore) := none
  grove : List (Nat × Nat) := []
  hbm : List (Nat × Nat) := []
  sems : List (Nat × Nat × Option Nat) := []
  stages : List ((Nat × Nat) × Nat × Nat) := []
  red : Option ImgRed := none
  nea : Option ImgNea := none
  rings : List ImgRing := []
  tenant : List (BitVec 8) := []
  deriving DecidableEq, Repr

/-- An entry of a manifest's image table (R586), with the image that the flash holds at its offset. The kinds have no numbers in
the manual; here they are FS1 0, power/thermal 1, training 2, Neano 3, configuration block 4, operating system 5 (log entry
149). -/
structure FlashImage where
  kind : Nat
  offset : Nat := 0
  len : Nat := 0
  svn : Nat := 0
  digest : List (BitVec 8) := []
  bytes : List (BitVec 8) := []
  deriving DecidableEq, Repr

/-- A manifest with its images (R586): the public key, the image table, the signature over everything before it. -/
structure Manifest where
  key : List (BitVec 8) := []
  images : List FlashImage := []
  sig : List (BitVec 8) := []
  deriving DecidableEq, Repr

/-- A service frame of the management port (R622): sender, operation, flag bit 0, sequence number, address, data words
or length. -/
structure SvcFrame where
  mac : Nat
  flag : Bool := false
  seq : Nat
  addr : Nat := 0
  len : Nat := 0
  data : List Word := []
  deriving DecidableEq, Repr

end Sys2Proof

namespace Sys2Proof.Machine

/-- A Darvo packet (R423): the header's fields and the payload. `bad` names the 8-byte words of the payload that travel
poisoned (R317, R336); `want` is the number of bytes that a READ asks for, which no header field is named for (log
entry 26). -/
structure Packet where
  dst : Nat
  src : Nat
  addr : Nat
  vc : Nat
  type : Nat
  len : Nat
  spart : Nat := 0
  hops : Nat := 0
  dl : Bool := false
  tag : Nat := 0
  code : Nat := 0
  payload : List (BitVec 8) := []
  bad : List Nat := []
  want : Nat := 0
  deriving DecidableEq, Repr

end Sys2Proof.Machine
end

