-- ==== Sys2Proof/Syntax.lean ====
section
/-! DEFINITION. The commands: one constructor per row of spec/opcode_table.json. An instruction row of a core carries its
core and its word without CLASS and OP; one of an engine carries the moment of its life too. The bracketed rule is the row's. The rows
without operands stand after the others, and seven rows last, because compiled code builds no constructor with fields beyond
the 245th; the order says nothing. -/
namespace Sys2Proof

/-- A command. -/
inductive Instr where
  /-- TEMPO_SEAL (R49): the temperatures and power latched at the seal. -/
  | tempoSeal (m : Measure)
  /-- TEMPO_WAIT_RELEASE (R232): core. -/
  | tempoWaitRelease (c : CoreId)
  /-- SYNC_RECEIVE (R42): port; message. -/
  | syncReceive (q : PortId) (msg : SyncMsg)
  /-- DELAY_REQ_RECEIVE (R43): port; timestamps T1 to T3, T3 the sending time of the response. -/
  | delayReqReceive (q : PortId) (t1 : Nat) (t2 : Nat) (t3 : Nat)
  /-- DELAY_RESP_RECEIVE (R43): port; the four timestamps. -/
  | delayRespReceive (q : PortId) (t1 : Int) (t2 : Int) (t3 : Int) (t4 : Int)
  /-- ANNOUNCE_RECEIVE (R40): port; PRIO and ID of the candidate. -/
  | announceReceive (q : PortId) (prio : Fin 256) (dev : Fin 262144)
  /-- RWT_WRITE (R50): who writes; address, bytes (4 or 8), value. -/
  | rwtWrite (ag : Agent) (a : Nat) (n : Nat) (v : Word)
  /-- STAGE_DISCARD (R54): staged set. -/
  | stageDiscard (k : Fin 5)
  /-- REGISTER_WRITE (R14): who writes; address, bytes (4 or 8), value. -/
  | registerWrite (ag : Agent) (a : Nat) (n : Nat) (v : Word)
  /-- ME_LOAD (R256): core; word; moment. -/
  | meLoad (c : CoreId) (i : IWord) (ph : Phase)
  /-- ME_STREAM (R121): core; word; moment. -/
  | meStream (c : CoreId) (i : IWord) (ph : Phase)
  /-- ME_STREAM_ROW_UPDATE (R130): core; the column whose residue does not match, if one does not. -/
  | meStreamRowUpdate (c : CoreId) (mismatch : Option (Fin 17))
  /-- ME_DRAIN (R125): core; word; moment. -/
  | meDrain (c : CoreId) (i : IWord) (ph : Phase)
  /-- ME_DRAIN_ROW_WRITE (R130): core. -/
  | meDrainRowWrite (c : CoreId)
  /-- ME_ADDW (R127): core; word; moment. -/
  | meAddw (c : CoreId) (i : IWord) (ph : Phase)
  /-- ME_CLEAR (R260): core; word; moment. -/
  | meClear (c : CoreId) (i : IWord) (ph : Phase)
  /-- ME_RESUME (R134): who writes; core. -/
  | meResume (ag : Agent) (c : CoreId)
  /-- ME_FLUSH (R134): who writes; core. -/
  | meFlush (ag : Agent) (c : CoreId)
  /-- ME_COL_TEST (R138): who writes; core. -/
  | meColTest (ag : Agent) (c : CoreId)
  /-- ME_COL_TEST_DONE (R138): physical core; the lowest failing column, if one fails. -/
  | meColTestDone (k : Fin 448) (fail : Option (Fin 17))
  /-- FADD (R263): core; word; moment. -/
  | fadd (c : CoreId) (i : IWord) (ph : Phase)
  /-- FSUB (R263): core; word; moment. -/
  | fsub (c : CoreId) (i : IWord) (ph : Phase)
  /-- FMUL (R263): core; word; moment. -/
  | fmul (c : CoreId) (i : IWord) (ph : Phase)
  /-- FMA (R263): core; word; moment. -/
  | fma (c : CoreId) (i : IWord) (ph : Phase)
  /-- FMAX (R152): core; word; moment. -/
  | fmax (c : CoreId) (i : IWord) (ph : Phase)
  /-- FMIN (R152): core; word; moment. -/
  | fmin (c : CoreId) (i : IWord) (ph : Phase)
  /-- FCMP (R152): core; word; moment. -/
  | fcmp (c : CoreId) (i : IWord) (ph : Phase)
  /-- FABS (R263): core; word; moment. -/
  | fabs (c : CoreId) (i : IWord) (ph : Phase)
  /-- FNEG (R263): core; word; moment. -/
  | fneg (c : CoreId) (i : IWord) (ph : Phase)
  /-- SEL (R263): core; word; moment. -/
  | sel (c : CoreId) (i : IWord) (ph : Phase)
  /-- IADD (R263): core; word; moment. -/
  | iadd (c : CoreId) (i : IWord) (ph : Phase)
  /-- ISUB (R263): core; word; moment. -/
  | isub (c : CoreId) (i : IWord) (ph : Phase)
  /-- IMUL (R263): core; word; moment. -/
  | imul (c : CoreId) (i : IWord) (ph : Phase)
  /-- VE_SLL (R263): core; word; moment. -/
  | veSll (c : CoreId) (i : IWord) (ph : Phase)
  /-- VE_SRL (R263): core; word; moment. -/
  | veSrl (c : CoreId) (i : IWord) (ph : Phase)
  /-- VE_SRA (R263): core; word; moment. -/
  | veSra (c : CoreId) (i : IWord) (ph : Phase)
  /-- VE_AND (R263): core; word; moment. -/
  | veAnd (c : CoreId) (i : IWord) (ph : Phase)
  /-- VE_OR (R263): core; word; moment. -/
  | veOr (c : CoreId) (i : IWord) (ph : Phase)
  /-- VE_XOR (R263): core; word; moment. -/
  | veXor (c : CoreId) (i : IWord) (ph : Phase)
  /-- ICMP (R263): core; word; moment. -/
  | icmp (c : CoreId) (i : IWord) (ph : Phase)
  /-- PERM (R263): core; word; moment. -/
  | perm (c : CoreId) (i : IWord) (ph : Phase)
  /-- BCAST (R263): core; word; moment. -/
  | bcast (c : CoreId) (i : IWord) (ph : Phase)
  /-- LSHIFT (R263): core; word; moment. -/
  | lshift (c : CoreId) (i : IWord) (ph : Phase)
  /-- EXP (R151): core; word; moment. -/
  | exp (c : CoreId) (i : IWord) (ph : Phase)
  /-- EXP2 (R151): core; word; moment. -/
  | exp2 (c : CoreId) (i : IWord) (ph : Phase)
  /-- LOG (R151): core; word; moment. -/
  | log (c : CoreId) (i : IWord) (ph : Phase)
  /-- LOG2 (R151): core; word; moment. -/
  | log2 (c : CoreId) (i : IWord) (ph : Phase)
  /-- RCP (R151): core; word; moment. -/
  | rcp (c : CoreId) (i : IWord) (ph : Phase)
  /-- RSQRT (R151): core; word; moment. -/
  | rsqrt (c : CoreId) (i : IWord) (ph : Phase)
  /-- TANH (R151): core; word; moment. -/
  | tanh (c : CoreId) (i : IWord) (ph : Phase)
  /-- SIGMOID (R151): core; word; moment. -/
  | sigmoid (c : CoreId) (i : IWord) (ph : Phase)
  /-- ERF (R151): core; word; moment. -/
  | erf (c : CoreId) (i : IWord) (ph : Phase)
  /-- SINPI (R151): core; word; moment. -/
  | sinpi (c : CoreId) (i : IWord) (ph : Phase)
  /-- COSPI (R151): core; word; moment. -/
  | cospi (c : CoreId) (i : IWord) (ph : Phase)
  /-- DIV (R150): core; word; moment. -/
  | div (c : CoreId) (i : IWord) (ph : Phase)
  /-- SQRT (R150): core; word; moment. -/
  | sqrt (c : CoreId) (i : IWord) (ph : Phase)
  /-- RSUM (R158): core; word; moment. -/
  | rsum (c : CoreId) (i : IWord) (ph : Phase)
  /-- RMAX (R158): core; word; moment. -/
  | rmax (c : CoreId) (i : IWord) (ph : Phase)
  /-- RMIN (R158): core; word; moment. -/
  | rmin (c : CoreId) (i : IWord) (ph : Phase)
  /-- IRSUM (R158): core; word; moment. -/
  | irsum (c : CoreId) (i : IWord) (ph : Phase)
  /-- RSUMX (R159): core; word; moment. -/
  | rsumx (c : CoreId) (i : IWord) (ph : Phase)
  /-- OSMX (R161): core; word; moment. -/
  | osmx (c : CoreId) (i : IWord) (ph : Phase)
  /-- CVT_R (R264): core; word; moment. -/
  | cvtR (c : CoreId) (i : IWord) (ph : Phase)
  /-- VLD (R265): core; word; moment. -/
  | vld (c : CoreId) (i : IWord) (ph : Phase)
  /-- VST (R265): core; word; moment. -/
  | vst (c : CoreId) (i : IWord) (ph : Phase)
  /-- CVT_LD (R266): core; word; moment. -/
  | cvtLd (c : CoreId) (i : IWord) (ph : Phase)
  /-- CVT_ST (R267): core; word; moment. -/
  | cvtSt (c : CoreId) (i : IWord) (ph : Phase)
  /-- CVT_EXP (R268): core; word; moment. -/
  | cvtExp (c : CoreId) (i : IWord) (ph : Phase)
  /-- RAND (R163): core; word; moment. -/
  | rand (c : CoreId) (i : IWord) (ph : Phase)
  /-- RANDU (R163): core; word; moment. -/
  | randu (c : CoreId) (i : IWord) (ph : Phase)
  /-- DROP (R163): core; word; moment. -/
  | drop (c : CoreId) (i : IWord) (ph : Phase)
  /-- RANDN (R163): core; word; moment. -/
  | randn (c : CoreId) (i : IWord) (ph : Phase)
  /-- SOLVE (R165): core; word; moment. -/
  | solve (c : CoreId) (i : IWord) (ph : Phase)
  /-- VE_RESUME (R172): who writes; core. -/
  | veResume (ag : Agent) (c : CoreId)
  /-- VE_FLUSH (R172): who writes; core. -/
  | veFlush (ag : Agent) (c : CoreId)
  /-- NOP (R221): core; word. -/
  | nop (c : CoreId) (i : IWord)
  /-- ADD (R222): core; word. -/
  | add (c : CoreId) (i : IWord)
  /-- SUB (R222): core; word. -/
  | sub (c : CoreId) (i : IWord)
  /-- AND (R222): core; word. -/
  | and (c : CoreId) (i : IWord)
  /-- OR (R222): core; word. -/
  | or (c : CoreId) (i : IWord)
  /-- XOR (R222): core; word. -/
  | xor (c : CoreId) (i : IWord)
  /-- SLL (R222): core; word. -/
  | sll (c : CoreId) (i : IWord)
  /-- SRL (R222): core; word. -/
  | srl (c : CoreId) (i : IWord)
  /-- SRA (R222): core; word. -/
  | sra (c : CoreId) (i : IWord)
  /-- MUL (R222): core; word. -/
  | mul (c : CoreId) (i : IWord)
  /-- MULHU (R222): core; word. -/
  | mulhu (c : CoreId) (i : IWord)
  /-- DIVU (R222): core; word. -/
  | divu (c : CoreId) (i : IWord)
  /-- REMU (R222): core; word. -/
  | remu (c : CoreId) (i : IWord)
  /-- MIN (R222): core; word. -/
  | min (c : CoreId) (i : IWord)
  /-- MAX (R222): core; word. -/
  | max (c : CoreId) (i : IWord)
  /-- ADDI (R222): core; word. -/
  | addi (c : CoreId) (i : IWord)
  /-- ANDI (R222): core; word. -/
  | andi (c : CoreId) (i : IWord)
  /-- ORI (R222): core; word. -/
  | ori (c : CoreId) (i : IWord)
  /-- XORI (R222): core; word. -/
  | xori (c : CoreId) (i : IWord)
  /-- SLLI (R222): core; word. -/
  | slli (c : CoreId) (i : IWord)
  /-- SRLI (R222): core; word. -/
  | srli (c : CoreId) (i : IWord)
  /-- SRAI (R222): core; word. -/
  | srai (c : CoreId) (i : IWord)
  /-- LI (R221): core; word. -/
  | li (c : CoreId) (i : IWord)
  /-- LIH (R221): core; word. -/
  | lih (c : CoreId) (i : IWord)
  /-- CMP (R221): core; word. -/
  | cmp (c : CoreId) (i : IWord)
  /-- CMPI (R221): core; word. -/
  | cmpi (c : CoreId) (i : IWord)
  /-- PLOG (R221): core; word. -/
  | plog (c : CoreId) (i : IWord)
  /-- PGET (R221): core; word. -/
  | pget (c : CoreId) (i : IWord)
  /-- PPUT (R221): core; word. -/
  | pput (c : CoreId) (i : IWord)
  /-- BR (R221): core; word. -/
  | br (c : CoreId) (i : IWord)
  /-- CALL (R225): core; word. -/
  | call (c : CoreId) (i : IWord)
  /-- RET (R225): core; word. -/
  | ret (c : CoreId) (i : IWord)
  /-- JR (R221): core; word. -/
  | jr (c : CoreId) (i : IWord)
  /-- LOOP (R226): core; word. -/
  | loop (c : CoreId) (i : IWord)
  /-- LIDX (R221): core; word. -/
  | lidx (c : CoreId) (i : IWord)
  /-- LD (R223): core; word. -/
  | ld (c : CoreId) (i : IWord)
  /-- ST (R223): core; word. -/
  | st (c : CoreId) (i : IWord)
  /-- MOVA (R221): core; word. -/
  | mova (c : CoreId) (i : IWord)
  /-- RDA (R221): core; word. -/
  | rda (c : CoreId) (i : IWord)
  /-- MOVD (R221): core; word. -/
  | movd (c : CoreId) (i : IWord)
  /-- RDD (R221): core; word. -/
  | rdd (c : CoreId) (i : IWord)
  /-- VSET (R221): core; word. -/
  | vset (c : CoreId) (i : IWord)
  /-- VGET (R221): core; word. -/
  | vget (c : CoreId) (i : IWord)
  /-- SEM_WAIT (R228): core; word; moment. -/
  | semWait (c : CoreId) (i : IWord) (ph : Phase)
  /-- SEM_SIG (R228): core; word; moment. -/
  | semSig (c : CoreId) (i : IWord) (ph : Phase)
  /-- SEM_REQUEST_ARRIVAL (R230): cluster; numbers of the requests that arrive in this clk; clk since the last such command. -/
  | semRequestArrival (g : ClusterId) (ids : List Nat) (elapsed : Nat)
  /-- SEM_WAIT_RESUME (R230): number of the wait. -/
  | semWaitResume (id : Nat)
  /-- TWAIT (R232): core; word. -/
  | twait (c : CoreId) (i : IWord)
  /-- TNOW (R234): core; word. -/
  | tnow (c : CoreId) (i : IWord)
  /-- FENCE (R221): core; word. -/
  | fence (c : CoreId) (i : IWord)
  /-- FENCE_RELEASE (R221): core. -/
  | fenceRelease (c : CoreId)
  /-- GEN_ACQ (R195): core; word. -/
  | genAcq (c : CoreId) (i : IWord)
  /-- GEN_REL (R196): core; word. -/
  | genRel (c : CoreId) (i : IWord)
  /-- GEN_CLAIM (R197): core; word. -/
  | genClaim (c : CoreId) (i : IWord)
  /-- GEN_CLAIM_COMPLETE (R197): partition; stage; slot. -/
  | genClaimComplete (p : PartId) (st : Fin 64) (slot : Fin 2)
  /-- GEN_READY (R198): core; word. -/
  | genReady (c : CoreId) (i : IWord)
  /-- FAULT (R237): core; word. -/
  | fault (c : CoreId) (i : IWord)
  /-- HALT (R221): core; word. -/
  | halt (c : CoreId) (i : IWord)
  /-- SQ_RESUME (R239): core. -/
  | sqResume (c : CoreId)
  /-- SQ_STOP (R239): core. -/
  | sqStop (c : CoreId)
  /-- FTE_COPY (R273): core; word; moment. -/
  | fteCopy (c : CoreId) (i : IWord) (ph : Phase)
  /-- FTE_GATHER (R275): core; word; moment. -/
  | fteGather (c : CoreId) (i : IWord) (ph : Phase)
  /-- FTE_ZERO (R276): core; word; moment. -/
  | fteZero (c : CoreId) (i : IWord) (ph : Phase)
  /-- FTE_CANCEL (R277): core; word. -/
  | fteCancel (c : CoreId) (i : IWord)
  /-- FTE_REQUEST_RETURN (R317): core; place of the request among those sent; errors of the HBM sectors read. -/
  | fteRequestReturn (c : CoreId) (k : Nat) (es : ReadErrs)
  /-- FTE_RESUME (R338): who writes; core. -/
  | fteResume (ag : Agent) (c : CoreId)
  /-- FTE_FLUSH (R338): who writes; core. -/
  | fteFlush (ag : Agent) (c : CoreId)
  /-- ECC_WRITEBACK (R289): 8-byte word: its address over 8. -/
  | eccWriteback (w : Nat)
  /-- PATROL_SCRUB_READ (R292): memory; bank; a word of the row and the bits that have flipped in it. -/
  | patrolScrubRead (u : SramId) (b : Nat) (upset : Option (Nat × BitVec 80))
  /-- BANK_POWER_REQUEST (R298): who writes; memory; bank; REQ. -/
  | bankPowerRequest (ag : Agent) (u : SramId) (b : Nat) (req : BitVec 2)
  /-- BANK_ENTER_RET_DONE (R298): memory; bank. -/
  | bankEnterRetDone (u : SramId) (b : Nat)
  /-- BANK_WAKE_DONE (R298): memory; bank. -/
  | bankWakeDone (u : SramId) (b : Nat)
  /-- BANK_DOWN_DONE (R298): memory; bank. -/
  | bankDownDone (u : SramId) (b : Nat)
  /-- BANK_UP_DONE (R298): memory; bank. -/
  | bankUpDone (u : SramId) (b : Nat)
  /-- DMA_BATCH_START (R329): cluster. -/
  | dmaBatchStart (g : ClusterId)
  /-- DMA_BURST_RETURN (R330): cluster; errors of the HBM sectors read. -/
  | dmaBurstReturn (g : ClusterId) (es : ReadErrs)
  /-- DMA_DESCRIPTOR_END (R331): cluster. -/
  | dmaDescriptorEnd (g : ClusterId)
  /-- DMA_ABORT (R333): who writes; cluster; channel; bursts in flight that still land. -/
  | dmaAbort (ag : Agent) (g : ClusterId) (ch : Fin 16) (k : Nat)
  /-- DMA_ABORT_COMPLETE (R333): cluster; channel. -/
  | dmaAbortComplete (g : ClusterId) (ch : Fin 16)
  /-- REMOTE_REQUEST (R336): port, none from this device; packet; errors of the HBM sectors read. -/
  | remoteRequest (q : Option PortId) (pkt : Machine.Packet) (es : ReadErrs)
  /-- READ_DATA_RECEIVE (R330): packet. -/
  | readDataReceive (pkt : Machine.Packet)
  /-- WRITE_ACK_RECEIVE (R332): packet. -/
  | writeAckReceive (pkt : Machine.Packet)
  /-- NAK_RECEIVE (R434): packet. -/
  | nakReceive (pkt : Machine.Packet)
  /-- DMA_INWIN_ENABLE (R348): who writes; partition; window; the other fields of DMA_INWIN_CFG. -/
  | dmaInwinEnable (ag : Agent) (p : PartId) (w : Fin 64) (cfg : Word)
  /-- HBM_READ (R353): address of a sector; what the transfer carries. -/
  | hbmRead (a : Nat) (err : ReadErr)
  /-- HBM_WRITE (R355): address and bytes of one sector; poison with the data; what the read of a partial write carries. -/
  | hbmWrite (a : Nat) (bs : List (BitVec 8)) (poison : Bool) (err : ReadErr)
  /-- HBM_GATHER (R358): address of a granule; what the transfer carries. -/
  | hbmGather (a : Nat) (err : ReadErr)
  /-- HBM_PATROL_SCRUB (R356): tile; pseudo-channel; what the transfer carries. -/
  | hbmPatrolScrub (t : TileId) (q : Fin 96) (err : ReadErr)
  /-- HBM_TEMP_SAMPLE (R357): tile; stack; temperature in °C. -/
  | hbmTempSample (t : TileId) (k : Fin 3) (temp : Int)
  /-- HBM_REMEDY_DONE (R360): tile; errors of the copied row’s sectors. -/
  | hbmRemedyDone (t : TileId) (es : ReadErrs)
  /-- HBM_RETRAIN_DONE (R364): tile; channel; success. -/
  | hbmRetrainDone (t : TileId) (ch : Fin 48) (ok : Bool)
  /-- NEANO_GROUP_UPDATE (R386): context; group; errors of the slow tier’s reads. -/
  | neanoGroupUpdate (c : CtxId) (g : Fin 256) (es : ReadErrs)
  /-- NEA_UNIT_REPAIR_DONE (R400): context. -/
  | neaUnitRepairDone (c : CtxId)
  /-- NEA_IMPORT (R382): context. -/
  | neaImport (c : CtxId)
  /-- NEA_COMMIT_IMPORT (R382): context. -/
  | neaCommitImport (c : CtxId)
  /-- NEA_RESUME (R392): context. -/
  | neaResume (c : CtxId)
  /-- NEA_RELEASE (R395): context. -/
  | neaRelease (c : CtxId)
  /-- NEA_RELEASE_DONE (R395): context. -/
  | neaReleaseDone (c : CtxId)
  /-- SLOW_WINDOW_ACCESS (R380): partition of the accessing agent, none for the hosting software; address; bytes to read, or the data to write; errors of the units read. -/
  | slowWindowAccess (who : Option PartId) (a : Nat) (n : Nat) (data : Option (List (BitVec 8))) (es : ReadErrs)
  /-- MIRROR_RECEIVE (R398): packet. -/
  | mirrorReceive (pkt : MirrorPkt)
  /-- MIRROR_ACK_RECEIVE (R399): context; ring; whether the partner holds it. -/
  | mirrorAckReceive (c : CtxId) (ring : Nat) (ok : Bool)
  /-- NEA_PKG_FAIL (R377): physical package. -/
  | neaPkgFail (k : Fin 10)
  /-- PORT_SIGNAL_DETECT (R421): port. -/
  | portSignalDetect (q : PortId)
  /-- PORT_TRAIN_DONE (R421): port. -/
  | portTrainDone (q : PortId)
  /-- PORT_TRAIN_TIMEOUT (R421): port. -/
  | portTrainTimeout (q : PortId)
  /-- PORT_ALIGN_DONE (R421): port. -/
  | portAlignDone (q : PortId)
  /-- IDENT_RECEIVE (R421): port; the partner’s IDENT. -/
  | identReceive (q : PortId) (id : Ident)
  /-- CREDIT_EXCHANGE (R431): port; cells the partner gives, by 2·VC + DL. -/
  | creditExchange (q : PortId) (caps : List Nat)
  /-- PORT_LOSS_OF_LOCK (R421): port. -/
  | portLossOfLock (q : PortId)
  /-- PORT_RETRAIN_DONE (R421): port. -/
  | portRetrainDone (q : PortId)
  /-- DVO_RETRAIN (R447): port. -/
  | dvoRetrain (q : PortId)
  /-- DVO_RELEASE (R435): port. -/
  | dvoRelease (q : PortId)
  /-- DVO_FORCE_DOWN (R447): port. -/
  | dvoForceDown (q : PortId)
  /-- PACKET_TRANSMIT (R431): port, none within the device; VC; errors of the HBM sectors that a local request reads. -/
  | packetTransmit (q : Option PortId) (vc : Fin 4) (es : ReadErrs)
  /-- PACKET_RECEIVE (R427): port; link sequence number; packet; errors of the HBM sectors that a request reads; corrected codewords. -/
  | packetReceive (q : PortId) (seq : Nat) (pkt : Machine.Packet) (es : ReadErrs) (corr : Nat)
  /-- LINK_ACK_SEND (R419): link. -/
  | linkAckSend (l : Fin 24)
  /-- LINK_ACK_RECEIVE (R419): port; acknowledged sequence number. -/
  | linkAckReceive (q : PortId) (seq : Nat)
  /-- FEC_UNCORRECTABLE (R419): port. -/
  | fecUncorrectable (q : PortId)
  /-- LINK_NAK_RECEIVE (R419): port; first sequence number to replay. -/
  | linkNakReceive (q : PortId) (seq : Nat)
  /-- CREDIT_RETURN_RECEIVE (R431): port; VC; dateline; cells. -/
  | creditReturnReceive (q : PortId) (vc : Fin 4) (dl : Bool) (n : Nat)
  /-- RECOUNT_RECEIVE (R432): port; the counts of the recount word by 2·VC + DL. -/
  | recountReceive (q : PortId) (freed : List Nat) (caps : List Nat)
  /-- DVO_ROUTER_FAIL (R437): tile; physical column and row of the router; stops that attach to it, with their logical columns and rows. -/
  | dvoRouterFail (t : TileId) (col : Fin 9) (r : Fin 8) (stops : List (MeshStop × Fin 8 × Fin 8))
  /-- REDUCE_LOCAL_READY (R462): partition; stage; chunks to read; errors of the HBM sectors read. -/
  | reduceLocalReady (p : PartId) (n : Nat) (cnt : Nat) (es : ReadErrs)
  /-- REDUCE_RECEIVE (R463): port, none from this device; packet; an adder error: element and size. -/
  | reduceReceive (q : Option PortId) (pkt : Machine.Packet) (upset : Option (Nat × Int))
  /-- GSEND_CHUNK_READ (R473): partition; stage; errors of the slow tier’s reads. -/
  | gsendChunkRead (p : PartId) (n : Nat)
  /-- GATHER_RECEIVE (R474): port, none from this device; packet. -/
  | gatherReceive (q : Option PortId) (pkt : Machine.Packet)
  /-- PRT_LOAD (R489): partition; what the loader reads at PRT_LOAD. -/
  | prtLoad (p : PartId) (img : Option Image)
  /-- LOAD_COMPLETE (R491): partition. -/
  | loadComplete (p : PartId)
  /-- PRT_KILL (R495): partition. -/
  | prtKill (p : PartId)
  /-- PRT_CASTLE (R495): partition. -/
  | prtCastle (p : PartId)
  /-- REVOCATION_COMPLETE (R499): partition. -/
  | revocationComplete (p : PartId)
  /-- PRT_PRUNE_GO (R546): logical core. -/
  | prtPruneGo (c : CoreId)
  /-- PRUNE_COMPLETE (R535): logical core. -/
  | pruneComplete (c : CoreId)
  /-- SPARE_ZERO_FILL_DONE (R537): physical core. -/
  | spareZeroFillDone (k : Fin 448)
  /-- HUB_CORE_FAIL (R545): logical hart. -/
  | hubCoreFail (h : Fin 14)
  /-- HUB_CORE_GRAFT (R545): logical hart. -/
  | hubCoreGraft (h : Fin 14)
  /-- CVU_FEED_START (R516): who writes; unit; LEN. -/
  | cvuFeedStart (ag : Agent) (u : CvuId) (len : Fin 1099511627776)
  /-- CVU_FEED_DONE (R516): unit. -/
  | cvuFeedDone (u : CvuId)
  /-- CVU_INIT (R522): who writes; unit. -/
  | cvuInit (ag : Agent) (u : CvuId)
  /-- CVU_ABORT (R517): who writes; unit; steps of 256 B processed. -/
  | cvuAbort (ag : Agent) (u : CvuId) (steps : Nat)
  /-- CG_EVALUATE (R527): CTR1. -/
  | cgEvaluate (v : Word)
  /-- CLK_PLL_UNLOCK (R560): clock domain. -/
  | clkPllUnlock (k : Fin 34)
  /-- PLL_RELOCK (R560): clock domain. -/
  | pllRelock (k : Fin 34)
  /-- PLL_RELOCK_TIMEOUT (R560): clock domain. -/
  | pllRelockTimeout (k : Fin 34)
  /-- VOLTAGE_STEP_DONE (R564): tile. -/
  | voltageStepDone (t : TileId)
  /-- PWR_OVERCURRENT (R568): cluster. -/
  | pwrOvercurrent (g : ClusterId)
  /-- PWR_THERMAL_TRIP (R569): location of the sensor: tile with its stacks, 4 the Hub, 5 the Neano die. -/
  | pwrThermalTrip (loc : Fin 6)
  /-- CLOCK_ENABLE_WRITE (R571): core or cluster; the enables. -/
  | clockEnableWrite (b : ClkUnit) (v : BitVec 3)
  /-- CLOCK_ENABLE_UP_DONE (R571): core or cluster; block. -/
  | clockEnableUpDone (b : ClkUnit) (k : Fin 3)
  /-- CLOCK_ENABLE_STOP_DONE (R571): core or cluster; block. -/
  | clockEnableStopDone (b : ClkUnit) (k : Fin 3)
  /-- POWER_TRANSITION_DONE (R574): tile. -/
  | powerTransitionDone (t : TileId)
  /-- ROM_VERIFY (R587): what the flash holds in slots A and B. -/
  | romVerify (a : Manifest) (b : Manifest)
  /-- FS1_STAGE_DONE (R582): the owner's manifest with its images; words of the configuration block. -/
  | fs1StageDone (m : Manifest) (o : Manifest) (cfg : List (Nat × Word))
  /-- MEMORY_STAGE_DONE (R585): pseudo-channels and packages that failed training. -/
  | memoryStageDone (pcs : List (TileId × Fin 96)) (pkgs : List (Fin 10))
  /-- SEC_END_GRANT (R598): partition. -/
  | secEndGrant (p : PartId)
  /-- SEC_LOCK_SET (R605): bits of SET. -/
  | secLockSet (m : BitVec 6)
  /-- JTAG_DBG_ACCESS (R600): address; write or read; value. -/
  | jtagDbgAccess (a : Nat) (write : Bool) (v : Word)
  /-- EVENT_RECORD_WRITE (R613): events raised in one clk. -/
  | eventRecordWrite (n : Nat)
  /-- MBOX_UP_PUSH (R616): who writes; partition; entry. -/
  | mboxUpPush (ag : Agent) (p : PartId) (v : Word)
  /-- MBOX_UP_POP (R616): who reads; partition. -/
  | mboxUpPop (ag : Agent) (p : PartId)
  /-- MBOX_DOWN_PUSH (R616): who writes; partition; entry. -/
  | mboxDownPush (ag : Agent) (p : PartId) (v : Word)
  /-- MBOX_DOWN_POP (R616): who reads; partition. -/
  | mboxDownPop (ag : Agent) (p : PartId)
  /-- HUB_WDOG_KICK (R619): logical hart. -/
  | hubWdogKick (h : Fin 14)
  /-- MGT_LINK_UP (R620): FEC in use. -/
  | mgtLinkUp (fec : Fin 3)
  /-- SERVICE_READ (R622): frame. -/
  | serviceRead (f : SvcFrame)
  /-- SERVICE_WRITE (R622): frame. -/
  | serviceWrite (f : SvcFrame)
  /-- SERVICE_TOKEN (R622): frame. -/
  | serviceToken (f : SvcFrame)
  /-- SERVICE_OPEN (R622): frame. -/
  | serviceOpen (f : SvcFrame)
  /-- SERVICE_CLOSE (R622): frame. -/
  | serviceClose (f : SvcFrame)
  /-- CONTROL_CORE_ACCESS (R611): logical hart; address; bytes; write or read; value. -/
  | controlCoreAccess (h : Fin 14) (a : Nat) (n : Nat) (write : Bool) (v : Word)
  /-- DEADLINE_SAMPLE (R58). -/
  | deadlineSample
  /-- TEMPO_EDGE (R49). -/
  | tempoEdge
  /-- STALLED_WRITES_LAND (R50). -/
  | stalledWritesLand
  /-- ANNOUNCE_SEND (R41). -/
  | announceSend
  /-- KING_ELECTION_WIN (R41). -/
  | kingElectionWin
  /-- ACQ_FINE_REACHED (R45). -/
  | acqFineReached
  /-- ACQ_LOCKED_REACHED (R45). -/
  | acqLockedReached
  /-- ALIGN_LOST (R45). -/
  | alignLost
  /-- HOLDOVER_ENTRY (R45). -/
  | holdoverEntry
  /-- MASTER_LOST (R45). -/
  | masterLost
  /-- FAILOVER (R46). -/
  | failover
  /-- HOLDOVER_ANNOUNCE_RESUME (R47). -/
  | holdoverAnnounceResume
  /-- PERIOD_CHANGE (R39). -/
  | periodChange
  /-- HBM_REFRESH (R349). -/
  | hbmRefresh
  /-- NEA_PKG_COPY_DONE (R401). -/
  | neaPkgCopyDone
  /-- NEA_REBUILD_DONE (R401). -/
  | neaRebuildDone
  /-- REFCLK_LOSS (R558). -/
  | refclkLoss
  /-- RESET_N_ASSERT (R581). -/
  | resetNAssert
  /-- RESET_N_RELEASE (R635). -/
  | resetNRelease
  /-- POWER_GOOD_RISE (R581). -/
  | powerGoodRise
  /-- POWER_GOOD_FALL (R634). -/
  | powerGoodFall
  /-- SEC_RESET (R581). -/
  | secReset
  /-- LINKS_STAGE_DONE (R582). -/
  | linksStageDone
  /-- TEMPO_STAGE_DONE (R582). -/
  | tempoStageDone
  /-- SELFTEST_DONE (R582). -/
  | selftestDone
  /-- SEC_ATTEST (R593). -/
  | secAttest
  /-- ATTEST_DONE (R593). -/
  | attestDone
  /-- SEC_NONCE (R598). -/
  | secNonce
  /-- SEC_SUBMIT (R598). -/
  | secSubmit
  /-- TOKEN_CHECK_DONE (R598). -/
  | tokenCheckDone
  /-- DEBUG_SCRUB_DONE (R596). -/
  | debugScrubDone
  /-- SEC_OWNER_ENROL (R604). -/
  | secOwnerEnrol
  /-- SEC_SVN_COMMIT (R588). -/
  | secSvnCommit
  /-- JTAG_BYPASS (R599). -/
  | jtagBypass
  /-- JTAG_IDCODE (R599). -/
  | jtagIdcode
  /-- JTAG_SAMPLE_PRELOAD (R599): what is shifted into the cells of the chain. -/
  | jtagSamplePreload
  /-- JTAG_EXTEST (R599). -/
  | jtagExtest
  /-- MGT_LINK_DOWN (R620). -/
  | mgtLinkDown
  /-- MGT_FRAME_TRANSMIT (R621). -/
  | mgtFrameTransmit
  /-- MGT_SESSION_TIMEOUT (R622). -/
  | mgtSessionTimeout
  /-- JTAG_TRST (R599). -/
  | jtagTrst
  /-- HBM_CA_PARITY_ERROR (R364): tile; pseudo-channel. -/
  | hbmCaParityError (t : TileId) (q : Fin 96)
  /-- PORT_RETRAIN_TIMEOUT (R421): port. -/
  | portRetrainTimeout (q : PortId)
  /-- TILE_BRINGUP_TIMEOUT (R583): tile; the PLL that did not lock, none for a regulator; cluster of the regulator. -/
  | tileBringupTimeout (t : TileId) (pll : Option (Fin 2)) (g : Fin 4)
  /-- JTAG_DBG_TOKEN (R599): word of the token buffer; value. -/
  | jtagDbgToken (k : Fin 1024) (v : Word)
  /-- MGT_FRAME_RECEIVE (R621): bytes of the frame; a check that fails. -/
  | mgtFrameReceive (bs : List (BitVec 8)) (bad : Bool)
  /-- SERVICE_RECOVERY (R622): frame. -/
  | serviceRecovery (f : SvcFrame) (m : Manifest)
  /-- SLOW_TIER_REFRESH (R374): physical package; temperature readout in °C. -/
  | slowTierRefresh (k : Fin 10) (temp : Int)
  deriving DecidableEq, Repr

end Sys2Proof
end

