-- ==== Sys2Proof/Decode.lean ====
section
/-! DEFINITION. Commands from table words. -/
namespace Sys2Proof

/-- The command that a word spells by the table's bits: no row of spec/opcode_table.json gives bits. -/
def decodeTableWord (_nbits _w : Nat) : Option Instr := none

end Sys2Proof
end

