-- ==== Sys2Proof/Machine/Bits.lean ====
section
/-! DEFINITION. Bit fields, sign extension and byte order, written once and used by every unit. -/
namespace Sys2Proof.Machine

/-- Field [hi:lo] of a number. -/
def bits (hi lo : Nat) (n : Nat) : Nat := (n >>> lo) % 2 ^ (hi + 1 - lo)

/-- Field [hi:lo] of a bit vector, as a number. -/
def fld {w : Nat} (hi lo : Nat) (x : BitVec w) : Nat := bits hi lo x.toNat

/-- Bit i of a bit vector. -/
def bit {w : Nat} (i : Nat) (x : BitVec w) : Bool := x.getLsbD i

/-- A word with v in field [hi:lo] and zeros elsewhere. -/
def put (hi lo v : Nat) : Word := BitVec.ofNat 64 ((v % 2 ^ (hi + 1 - lo)) <<< lo)

/-- A word with one bit given. -/
def putBit (i : Nat) (b : Bool) : Word := put i i (if b then 1 else 0)

/-- The ones of field [hi:lo]. -/
def maskOf (hi lo : Nat) : Word := BitVec.ofNat 64 ((2 ^ (hi + 1 - lo) - 1) <<< lo)

/-- `x` with field [hi:lo] replaced by `v`. -/
def setFld (hi lo : Nat) (v : Nat) (x : Word) : Word := (x &&& ~~~(maskOf hi lo)) ||| put hi lo v

/-- `x` with bit i replaced. -/
def setBitTo (i : Nat) (b : Bool) (x : Word) : Word := setFld i i (if b then 1 else 0) x

/-- The two's complement reading of the w low bits of a number. -/
def sext (w : Nat) (n : Nat) : Int :=
  let k := n % 2 ^ w
  if k < 2 ^ (w - 1) then k else (k : Int) - 2 ^ w

/-- The w low bits of an integer, as a number. -/
def low (w : Nat) (i : Int) : Nat := (i % 2 ^ w).toNat

/-- An integer modulo 2^64 as a word. -/
def wordOfInt (i : Int) : Word := BitVec.ofInt 64 i

/-- Bytes, least significant first (little-endian everywhere: R80, R100, R324, R613). -/
def bytesOf : (n : Nat) → Nat → List Byte
  | 0, _ => []
  | n + 1, v => BitVec.ofNat 8 v :: bytesOf n (v >>> 8)

/-- The number that little-endian bytes spell. -/
def natOfBytes : List Byte → Nat
  | [] => 0
  | b :: bs => b.toNat + (natOfBytes bs) <<< 8

/-- Elements of `w` bits cut from a little-endian bit string (R80: 4-, 6-, 8-, 16-, 32-, 64-bit elements alike). -/
def unpackElems (w : Nat) : (n : Nat) → Nat → List Nat
  | 0, _ => []
  | n + 1, v => v % 2 ^ w :: unpackElems w n (v >>> w)

/-- The little-endian bit string of elements of `w` bits (R80). -/
def packElems (w : Nat) : List Nat → Nat
  | [] => 0
  | x :: xs => x % 2 ^ w + (packElems w xs) <<< w

/-- Round up a division. -/
def cdiv (a b : Nat) : Nat := (a + b - 1) / b

/-- The list 0, 1, …, n − 1. -/
def upTo (n : Nat) : List Nat := List.range n

/-- Saturating increment of a counter of `w` bits by `k`. -/
def satAdd (w : Nat) (x k : Nat) : Nat := min (x + k) (2 ^ w - 1)

/-- `f` applied n times. -/
def iter {α : Type} (f : α → α) : Nat → α → α
  | 0, a => a
  | n + 1, a => iter f n (f a)

/-- The elements of a list in ascending order of a key, equal keys in their order in the list. -/
def insertBy {α : Type} (key : α → Nat) (x : α) : List α → List α
  | [] => [x]
  | y :: ys => if key x < key y then x :: y :: ys else y :: insertBy key x ys

/-- Insertion sort by a key (stable). -/
def sortBy {α : Type} (key : α → Nat) : List α → List α
  | [] => []
  | x :: xs => insertBack key x (sortBy key xs)
where
  /-- Puts an earlier element before later ones of an equal key. -/
  insertBack (key : α → Nat) (x : α) : List α → List α
    | [] => [x]
    | y :: ys => if key y < key x then y :: insertBack key x ys else x :: y :: ys

end Sys2Proof.Machine
end

