-- ==== Sys2Proof/Machine/Keccak.lean ====
section
/-! DEFINITION. SHAKE128 and SHAKE256 of FIPS 202; the digest of the security chapter (19) is SHAKE256 with 64 B. -/
namespace Sys2Proof.Machine

/-- Where π takes lane i = x + 5y: to (y, 2x + 3y). -/
def piNext (i : Nat) : Nat := i / 5 + 5 * ((2 * (i % 5) + 3 * (i / 5)) % 5)

/-- ρ and π together: the walk of π from lane 1 through all 24 moved lanes, its step t turning the lane by (t + 1)(t + 2) / 2. -/
def rhoPi (a : List Word) : List Word :=
  ((upTo 24).foldl (fun (s : Nat × List Word) t =>
    (piNext s.1, s.2.set (piNext s.1) ((a.getD s.1 0).rotateLeft ((t + 1) * (t + 2) / 2 % 64)))) (1, a)).2

/-- θ: every lane takes the parities of the column before it and, turned by 1, of the one after it. -/
def theta (a : List Word) : List Word :=
  let parity := (upTo 5).map (fun x => (upTo 5).foldl (fun (v : Word) y => v ^^^ a.getD (x + 5 * y) 0) 0)
  (upTo 25).map (fun i => a.getD i 0 ^^^ parity.getD ((i + 4) % 5) 0 ^^^ (parity.getD ((i + 1) % 5) 0).rotateLeft 1)

/-- χ, along each row. -/
def chi (a : List Word) : List Word :=
  (upTo 25).map (fun i =>
    let at_ := fun (k : Nat) => a.getD (i / 5 * 5 + (i + k) % 5) 0
    at_ 0 ^^^ (~~~at_ 1 &&& at_ 2))

/-- ι's constant from the register r of its generator x⁸ + x⁶ + x⁵ + x⁴ + 1: seven bits, to the places 2^j − 1; with the register
after them. -/
def iotaNext (r : Nat) : Word × Nat :=
  (upTo 7).foldl (fun (s : Word × Nat) j =>
    (s.1 ||| putBit (2 ^ j - 1) (s.2.testBit 0), if s.2 < 128 then 2 * s.2 else (2 * s.2) ^^^ 0x171)) (0, r)

/-- Keccak-f[1600]: 24 rounds, the generator of ι going on through them. -/
def keccakF (a : List Word) : List Word :=
  ((upTo 24).foldl (fun (s : List Word × Nat) _ =>
    let k := iotaNext s.2
    let b := chi (rhoPi (theta s.1))
    (b.set 0 (b.getD 0 0 ^^^ k.1), k.2)) (a, 1)).1

/-- Absorb blocks of `rate` bytes. -/
def keccakAbsorb (rate : Nat) : (n : Nat) → List Word → List Byte → List Word
  | 0, a, _ => a
  | n + 1, a, bs =>
    let b := bs.take rate
    let a1 := (upTo 25).map (fun i =>
      a.getD i 0 ^^^ BitVec.ofNat 64 (if i < rate / 8 then natOfBytes ((b.drop (8 * i)).take 8) else 0))
    keccakAbsorb rate n (keccakF a1) (bs.drop rate)

/-- Squeeze n blocks of `rate` bytes. -/
def keccakSqueeze (rate : Nat) : (n : Nat) → List Word → List Byte
  | 0, _ => []
  | n + 1, a => (a.take (rate / 8)).flatMap (fun w => bytesOf 8 w.toNat) ++ keccakSqueeze rate n (keccakF a)

/-- The sponge of SHAKE with blocks of `rate` bytes: `out` bytes. -/
def shake (rate out : Nat) (bs : List Byte) : List Byte :=
  let r := bs.length % rate
  let pad : List Byte := if r = rate - 1 then [0x9F] else 0x1F :: (List.replicate (rate - 2 - r) 0 ++ [0x80])
  let m := bs ++ pad
  (keccakSqueeze rate (cdiv out rate) (keccakAbsorb rate (m.length / rate) (List.replicate 25 0) m)).take out

/-- SHAKE128 and SHAKE256 with an output of `out` bytes. -/
def shake128N (out : Nat) (bs : List Byte) : List Byte := shake 168 out bs
@[inherit_doc shake128N] def shake256N (out : Nat) (bs : List Byte) : List Byte := shake 136 out bs

/-- SHAKE256 with a 64-B output, the digest of the security chapter. -/
def shake256 (bs : List Byte) : List Byte := shake256N 64 bs

end Sys2Proof.Machine
end

