-- ==== Sys2Proof/Machine/Rs.lean ====
section
/-! DEFINITION. The burst code of an HBM sector: Reed-Solomon over GF(2^8) with four check symbols, its encoder and its
decoder (R352 to R354, R362). Position k of the 72-symbol codeword stands for the power 71 - k of the polynomial: 0 to 3 the
address symbols, 4 to 67 the data symbols, 68 to 71 the check symbols (PRESUMED, log entry 122). -/
namespace Sys2Proof.Machine

/-! ## The field (R352) -/

/-- Multiplication by α, the root x of x^8 + x^4 + x^3 + x^2 + 1. -/
def gfX (a : Byte) : Byte := (a <<< 1) ^^^ (if a.msb then 0x1D else 0)

/-- Multiplication. -/
def gfMul (a b : Byte) : Byte :=
  ((upTo 8).foldl (fun (s : Byte × Byte) i => (if b.getLsbD i then s.1 ^^^ s.2 else s.1, gfX s.2)) (0, a)).1

/-- a^(2^n − 2) by squaring: for n = 8 the inverse of a ≠ 0. -/
def gfInvN (a : Byte) : Nat → Byte
  | 0 => 1
  | 1 => 1
  | n + 1 => let x := gfMul (gfInvN a n) a; gfMul x x

/-- The inverse of a ≠ 0. -/
def gfInv (a : Byte) : Byte := gfInvN a 8

/-- α^n. -/
def alpha (n : Nat) : Byte := iter gfX n 1

/-! ## The code (R352) -/

/-- A polynomial's value at α^j, from its highest coefficient down. -/
def rsEval (j : Nat) (w : List Byte) : Byte := w.foldl (fun s c => iter gfX j s ^^^ c) 0

/-- The syndromes of a word: its values at the generator roots α^0 to α^3. -/
def rsSyn (w : List Byte) : List Byte := (upTo 4).map (fun j => rsEval j w)

/-- The generator's coefficients below its leading 1, highest first: the product of x + α^j for j from 0 to 3. -/
def rsGen : List Byte :=
  ((upTo 4).foldl (fun (g : List Byte) j => ((g ++ [0]).zip (0 :: g)).map (fun (x : Byte × Byte) => x.1 ^^^ iter gfX j x.2)) [1]).drop 1

/-- The check symbols of 68 address and data symbols: the remainder by the generator of the word moved up by four
places. -/
def rsCheck (w : List Byte) : List Byte :=
  w.foldl (fun (r : List Byte) c =>
    let q := r.headD 0 ^^^ c
    ((r.drop 1 ++ [0]).zip rsGen).map (fun (x : Byte × Byte) => x.1 ^^^ gfMul q x.2)) [0, 0, 0, 0]

/-- The address symbols of a sector (R352): q in bits 6:0, bank in 12:7, row in 27:13, sector in 31:28, least significant
byte first. -/
def rsAddr (q bank row sector : Nat) : BitVec 32 :=
  BitVec.ofNat 32 (q % 128 + 128 * (bank % 64) + 2 ^ 13 * (row % 32768) + 2 ^ 28 * (sector % 16))

/-- The four bytes of an address word. -/
def addrSyms (a : BitVec 32) : List Byte := (upTo 4).map (fun i => (a >>> (8 * i)).setWidth 8)

/-- The data symbols of a sector's 64 bytes (R352): symbol 2p + h holds pin p's bits of burst h. Beat b of a burst brings
bytes 4b to 4b + 3, byte 4b + p / 8 bit p % 8 on pin p (PRESUMED, log entry 122). -/
def dataSyms (bs : List Byte) : List Byte :=
  (upTo 64).map (fun s => (upTo 8).foldl (fun (v : Byte) b =>
    if (bs.getD (32 * (s % 2) + 4 * b + s / 16) 0).getLsbD (s / 2 % 8) then v ||| (1 <<< b) else v) 0)

/-- The codeword of a sector at an address, with the check symbols of a poisoned sector where `bad` (R352, R354). -/
def rsCodeword (a : BitVec 32) (bs : List Byte) (bad : Bool) : List Byte :=
  let m := addrSyms a ++ dataSyms bs
  m ++ (rsCheck m).map (fun c => if bad then c ^^^ 0x5A else c)

/-- XOR a value onto the data bytes that symbol s carries. -/
def symFlip (bs : List Byte) (s : Nat) (v : Byte) : List Byte :=
  (upTo 8).foldl (fun (bs : List Byte) b =>
    if v.getLsbD b then bs.modify (32 * (s % 2) + 4 * b + s / 16) (· ^^^ (1 <<< (s / 2 % 8))) else bs) bs

/-! ## The decoder (R353, R354, R362) -/

/-- What the decoder finds: wrong symbols by position of the codeword, the poison pattern, or nothing it can decode. -/
inductive RsFound where
  | errs (l : List (Nat × Byte))
  | poison
  | bad
  deriving DecidableEq, Repr

/-- The syndromes of the poison pattern. -/
def rsPoison : List Byte := rsSyn [0x5A, 0x5A, 0x5A, 0x5A]

/-- Positions of the codeword. -/
def rsPlaces : List Nat := upTo 72

/-- The locator of a position. -/
def rsLoc (k : Nat) : Byte := alpha (71 - k)

/-- One wrong symbol, from four syndromes. -/
def rsOne (s : List Byte) : Option (Nat × Byte) :=
  let g := fun j => s.getD j 0
  if g 0 = 0 then none
  else (rsPlaces.find? (fun k =>
    let x := rsLoc k
    decide (gfMul (g 0) x = g 1) && decide (gfMul (g 1) x = g 2) && decide (gfMul (g 2) x = g 3))).map (fun k => (k, g 0))

/-- Two wrong symbols: their locators are the roots of the quadratic that the syndromes give. -/
def rsTwo (s : List Byte) : Option (List (Nat × Byte)) :=
  let g := fun j => s.getD j 0
  let d := gfMul (g 0) (g 2) ^^^ gfMul (g 1) (g 1)
  let a := gfMul (g 0) (g 3) ^^^ gfMul (g 1) (g 2)
  let b := gfMul (g 1) (g 3) ^^^ gfMul (g 2) (g 2)
  if d = 0 then none
  else
    match rsPlaces.filter (fun k => let x := rsLoc k; gfMul (gfMul d x ^^^ a) x ^^^ b = 0) with
    | [i, j] =>
      let e := gfMul (g 1 ^^^ gfMul (g 0) (rsLoc j)) (gfInv (rsLoc i ^^^ rsLoc j))
      some [(i, e), (j, g 0 ^^^ e)]
    | _ => none

/-- Decode with no pin erased. -/
def rsDecode (s : List Byte) : RsFound :=
  if s = [0, 0, 0, 0] then .errs []
  else
    match rsOne s, rsTwo s with
    | some e, _ => .errs [e]
    | none, some es => .errs es
    | none, none =>
      let t := (s.zip rsPoison).map (fun x => x.1 ^^^ x.2)
      if t = [0, 0, 0, 0] ∨ (rsOne t).isSome then .poison else .bad

/-- What is left of four syndromes when two positions may hold anything. -/
def rsLess (i j : Nat) (s : List Byte) : Byte × Byte :=
  let x := rsLoc i
  let y := rsLoc j
  let g := fun k => s.getD k 0
  let f := fun k => g (k + 2) ^^^ gfMul (x ^^^ y) (g (k + 1)) ^^^ gfMul (gfMul x y) (g k)
  (f 0, f 1)

/-- The values at two erased positions once the rest of the word is right. -/
def rsFill (i j : Nat) (s0 s1 : Byte) : List (Nat × Byte) :=
  let f := gfMul (s1 ^^^ gfMul s0 (rsLoc i)) (gfInv (rsLoc i ^^^ rsLoc j))
  [(i, s0 ^^^ f), (j, f)].filter (fun e => e.2 ≠ 0)

/-- Decode with one pin erased, its positions i and j: one further wrong symbol is corrected (R362). -/
def rsDecodeErased (i j : Nat) (s : List Byte) : RsFound :=
  let t := rsLess i j s
  let s0 := s.getD 0 0
  let s1 := s.getD 1 0
  if t = (0, 0) then .errs (rsFill i j s0 s1)
  else
    match rsPlaces.find? (fun k => k ≠ i ∧ k ≠ j ∧ t.1 ≠ 0 ∧ gfMul t.1 (rsLoc k) = t.2) with
    | some k =>
      let x := rsLoc k
      let v := gfMul t.1 (gfInv (gfMul (x ^^^ rsLoc i) (x ^^^ rsLoc j)))
      .errs ((k, v) :: rsFill i j (s0 ^^^ v) (s1 ^^^ gfMul v x))
    | none => if t = rsLess i j rsPoison then .poison else .bad

end Sys2Proof.Machine
end

