-- ==== Sys2Proof/Config.lean ====
section
/-! DEFINITION. Free values: what the manual leaves open. Each is a constant without a body, so that nothing can be
proved of its value. -/
namespace Sys2Proof

/-- A free 64-bit value, taken at a counter of the device (log entry 2). -/
opaque Config.freeWord : Nat → BitVec 64

/-- The share of a contribution's VALUE when one of its products is an infinity or NaN: R97 says that VALUE keeps
counting and does not say by how much; it is a function of the finite products' sum (log entry 10). -/
opaque Config.specialShare : Int → Int

/-- The second scale byte of a drained MX row of 32 elements (R258): it belongs to no block, and R258 writes it without
saying what it holds. A function of the row's scale and element codes, so that R184 holds on any core (log entry 112). -/
opaque Config.emptyScale : Nat → List Nat → BitVec 8

/-- A sub-exponent of an NB block that holds a NaN or an Inf, by the block's values and its position (R85; log entry 141). -/
opaque Config.nanSub : List (Nat × Nat × Int) → Nat → BitVec 3

/-- Whether the instruction with this number (counted per core) issues in the same clk as the one before it, where R215
allows a pair: how many clk pass between two issues is timing (log entry 116). -/
opaque Config.pairedIssue : Nat → Nat → Bool

/-- The m (false) or l (true) of an OSMX segment whose lanes differ, against R160: a function of the lanes (log entry 17). -/
opaque Config.mixedState : Bool → List (BitVec 32) → BitVec 32

/-- What a kernel reads from t30 (false) or t31 (true) before it has written the register, by t0 to t9 and the kernel's words
(R388, R391; log entry 21). -/
opaque Config.kernelFree : Bool → List (BitVec 32) → List Nat → BitVec 32

/-- Size of a partner's receive area in GiB (R404), by its device ID: the manual does not say how a sender learns it (log
entry 127). -/
opaque Config.partnerGib : Nat → Nat

/-- How far the copy or rebuild onto a package has come (R403), by the package and the Tempo number: it runs in time (log
entry 128). -/
opaque Config.copyProgress : Nat → Nat → BitVec 8

/-- Bytes that a unit of weight is worth in the deficit round robin of R425, above the 528 of a full packet (log entry 83). -/
opaque Config.arbQuantum : Nat

/-- A first digit of R106 that does not fit in INT8, which R106 excludes for an exponent word that CVT.EXP wrote (log
entry 11). -/
opaque Config.wideDigit : Int → BitVec 8

/-- Errors that the units read for a GSEND's chunk meet (R377): GSEND_CHUNK_READ carries none (log entry 125). -/
opaque Config.unitErrs : Nat → ReadErrs

/-- A byte of an SRAM or HBM whose contents an event lost (R558, R573), by the event and the address (log entry 5). -/
opaque Config.lostByte : Nat → Nat → BitVec 8

/-- CVU_RESULT while WIDTH is 0 or above 64, for which R513 computes nothing: by CVU_CFG, POLY and STATE (log entry 86). -/
opaque Config.cvuResult : BitVec 64 → BitVec 64 → BitVec 64 → BitVec 64

/-- The payload bytes of a port's own VC0 message (R424), by its TYPE and its fields: no chapter gives their layout (log entry
139). -/
opaque Config.vc0Payload : Nat → List Int → List (BitVec 8)

/-- Whether the start-up self-test's image uses the vector engine (false) or the fetch engine (true) of a core (R570, R582; log
entry 27). -/
opaque Config.selftestUses : Nat → Bool → Bool

/-- Whether a stack reports a repair resource left for a bank (R360), by the bank (of the device) and the number of
soft repairs made in it. -/
opaque Config.softLeft : Nat → Nat → Bool

/-- How the loader reads an image's bytes: no chapter gives the format of an image (log entry 31). -/
opaque Config.parseImage : List (BitVec 8) → Option Image

/-- Entropy of the security root (R598), by a counter. -/
opaque Config.entropy : Nat → BitVec 64

/-- The device-unique secret (R590, R591). -/
opaque Config.deviceSecret : List (BitVec 8)

/-- Whether an address without a register is a location of the device's secrets (R590): the manual gives no address. -/
opaque Config.secretAt : Nat → Bool

/-- Digest of the vendor key that is fused in slot 0 at manufacture (R587; log entry 4). -/
opaque Config.vendorDigest : List (BitVec 8)

/-- The bytes of a manifest's image table, which the signature covers (R586): kind, offset, length, SVN and digest of each entry, in
a layout that no chapter gives (log entry 149). -/
opaque Config.imageTable : List (Nat × Nat × Nat × Nat × List (BitVec 8)) → List (BitVec 8)

/-- The manifest and images that the bytes of a recovery transfer spell (R622; log entry 149). -/
opaque Config.parseManifest : List (BitVec 8) → Option Manifest

/-- Where start-up writes the operating system in the Hub memory (R610; log entry 149). -/
opaque Config.osBase : Nat

/-- Digest of the start-up self-test's image (R582; log entry 27). -/
opaque Config.selftestDigest : List (BitVec 8)

/-- Digest of the Hub ROM (R592). -/
opaque Config.romDigest : List (BitVec 8)

/-- Digest of a security state, the fused SVN minima and the active vendor key slot (R592): how they are written as
bytes is open. -/
opaque Config.stateDigest : Nat → List Nat → Nat → List (BitVec 8)

/-- Digest of (state, path, partition, token digest) (R592): how they are written as bytes is open. -/
opaque Config.grantDigest : Nat → Nat → Nat → List (BitVec 8) → List (BitVec 8)

end Sys2Proof
end

