-- ==== Sys2Proof/Machine/FMap.lean ====
section
/-! DEFINITION. Sparse maps from numbers to values, in one canonical form: keys strictly rising, no entry that equals
what an unlisted key holds. Equal maps are equal data. -/
namespace Sys2Proof.Machine

/-- A sparse map: (key, value) pairs, keys strictly rising. -/
abbrev FMap (α : Type) := List (Nat × α)

variable {α : Type}

/-- The value at key `k`; `d` where `k` is not listed. -/
def FMap.getD (m : FMap α) (k : Nat) (d : α) : α :=
  match m with
  | [] => d
  | (j, v) :: r => if j = k then v else FMap.getD r k d

/-- The listed value at key `k`. -/
def FMap.find? (m : FMap α) (k : Nat) : Option α :=
  match m with
  | [] => none
  | (j, v) :: r => if j = k then some v else FMap.find? r k

/-- `m` without an entry at `k`. -/
def FMap.remove (m : FMap α) (k : Nat) : FMap α :=
  match m with
  | [] => []
  | (j, v) :: r => if j = k then FMap.remove r k else (j, v) :: FMap.remove r k

/-- `m` with the entry (k, v). -/
def FMap.insert (m : FMap α) (k : Nat) (v : α) : FMap α :=
  match m with
  | [] => [(k, v)]
  | (j, w) :: r => if j < k then (j, w) :: FMap.insert r k v else if j = k then (k, v) :: r else (k, v) :: (j, w) :: r

/-- Write `v` at `k`, where an unlisted `k` holds `d`: writing `d` removes the entry. -/
def FMap.set [DecidableEq α] (m : FMap α) (d : α) (k : Nat) (v : α) : FMap α :=
  if v = d then m.remove k else m.insert k v

/-- Keys strictly rising, all at least `lo`. -/
def FMap.sorted (lo : Nat) : FMap α → Bool
  | [] => true
  | (j, _) :: r => decide (lo ≤ j) && FMap.sorted (j + 1) r

/-- The canonical form, where an unlisted key `k` holds `d k`. -/
def FMap.wf [DecidableEq α] (d : Nat → α) (m : FMap α) : Bool :=
  FMap.sorted 0 m && m.all (fun e => !decide (e.2 = d e.1))

/-- A sorted set of numbers, as a map to Unit. -/
abbrev NSet := FMap Unit

/-- Membership. -/
def NSet.has (s : NSet) (k : Nat) : Bool := (FMap.find? s k).isSome

/-- Put `k` in. -/
def NSet.add (s : NSet) (k : Nat) : NSet := FMap.insert s k ()

/-- Take `k` out. -/
def NSet.del (s : NSet) (k : Nat) : NSet := FMap.remove s k

/-- Take out the keys from lo to hi − 1. -/
def FMap.dropRange (m : FMap α) (lo hi : Nat) : FMap α := m.filter (fun e => e.1 < lo || hi ≤ e.1)

end Sys2Proof.Machine
end

