-- ==== Sys2Proof/Machine/Formats.lean ====
section
/-! DEFINITION. Element formats, rounding and block scaling: 03_number_formats.md. Every conversion works on exact
values and rounds once. -/
namespace Sys2Proof.Machine

/-! ## Flags (R109) -/

/-- The sticky flags of R109, bits 0 to 6. -/
abbrev Flags := BitVec 7

/-- NV, OF, UF, NX, ACC, SAT, DZ of R109. -/
def fNV : Flags := 1
@[inherit_doc fNV] def fOF : Flags := 2
@[inherit_doc fNV] def fUF : Flags := 4
@[inherit_doc fNV] def fNX : Flags := 8
@[inherit_doc fNV] def fACC : Flags := 16
@[inherit_doc fNV] def fSAT : Flags := 32
@[inherit_doc fNV] def fDZ : Flags := 64

/-- A flag when a condition holds. -/
def flagIf (b : Bool) (f : Flags) : Flags := if b then f else 0

/-! ## Values -/

/-- A value: NaN, an infinity, or a finite number ± m · 2^e (exact). -/
inductive FVal where
  | nan
  | inf (neg : Bool)
  | fin (neg : Bool) (m : Nat) (e : Int)
  deriving DecidableEq, Repr

/-- A magnitude: m · 2^e, or (with `more`) a number strictly between m · 2^e and (m + 1) · 2^e. -/
structure Mag where
  m : Nat
  e : Int
  more : Bool := false
  deriving DecidableEq, Repr

/-- The floor of the base-2 logarithm of m · 2^e, m ≠ 0 (R85's flog2). -/
def flog2 (m : Nat) (e : Int) : Int := (m.log2 : Int) + e

/-- Rounding modes of R87. -/
inductive Rnd where
  | rne | rtz | sr
  deriving DecidableEq, Repr

/-- RND code (R87); 3 is reserved. -/
def Rnd.ofCode (n : Nat) : Option Rnd :=
  match n with
  | 0 => some .rne
  | 1 => some .rtz
  | 2 => some .sr
  | _ => none

/-! ## Floating-point formats (R76, R78) -/

/-- Which special codes a format has (R78). -/
inductive Specials where
  | ieee      -- infinities and NaN
  | nanOnly   -- E4M3: S.1111.111 is NaN
  | none      -- every code is finite
  deriving DecidableEq, Repr

/-- A floating-point element format: exponent bits, mantissa bits, bias, special codes. -/
structure FpFmt where
  eb : Nat
  mb : Nat
  bias : Nat
  sp : Specials
  deriving DecidableEq, Repr

def fp32F : FpFmt := ⟨8, 23, 127, .ieee⟩
def bf16F : FpFmt := ⟨8, 7, 127, .ieee⟩
def fp16F : FpFmt := ⟨5, 10, 15, .ieee⟩
def e4m3F : FpFmt := ⟨4, 3, 7, .nanOnly⟩
def e5m2F : FpFmt := ⟨5, 2, 15, .ieee⟩
def e3m2F : FpFmt := ⟨3, 2, 3, .none⟩
def e2m3F : FpFmt := ⟨2, 3, 1, .none⟩
def e2m1F : FpFmt := ⟨2, 1, 1, .none⟩
def fp64F : FpFmt := ⟨11, 52, 1023, .ieee⟩

/-- Width of a code. -/
def FpFmt.width (f : FpFmt) : Nat := 1 + f.eb + f.mb

/-- Weight exponent of the smallest subnormal. -/
def FpFmt.base (f : FpFmt) : Int := 1 - (f.bias : Int) - f.mb

/-- The magnitude code of the largest finite value. -/
def FpFmt.maxCode (f : FpFmt) : Nat :=
  match f.sp with
  | .ieee => (2 ^ f.eb - 1) * 2 ^ f.mb - 1
  | .nanOnly => 2 ^ (f.eb + f.mb) - 2
  | .none => 2 ^ (f.eb + f.mb) - 1

/-- The canonical NaN (R79); 0 in a format without NaN (R91). -/
def FpFmt.nanCode (f : FpFmt) : Nat :=
  match f.sp with
  | .ieee => (2 ^ f.eb - 1) * 2 ^ f.mb + (if f.mb = 2 then 3 else 2 ^ (f.mb - 1))
  | .nanOnly => 2 ^ (f.eb + f.mb) - 1
  | .none => 0

/-- The code of +Inf of an IEEE format. -/
def FpFmt.infCode (f : FpFmt) : Nat := (2 ^ f.eb - 1) * 2 ^ f.mb

/-- A magnitude code with a sign. -/
def FpFmt.signed (f : FpFmt) (neg : Bool) (c : Nat) : Nat := if neg then c + 2 ^ (f.eb + f.mb) else c

/-- The value of a code (R78). -/
def FpFmt.decode (f : FpFmt) (code : Nat) : FVal :=
  let neg := code.testBit (f.eb + f.mb)
  let c := code % 2 ^ (f.eb + f.mb)
  let ex := c >>> f.mb
  let m := c % 2 ^ f.mb
  if f.sp = .ieee ∧ ex = 2 ^ f.eb - 1 then (if m = 0 then .inf neg else .nan)
  else if f.sp = .nanOnly ∧ c = 2 ^ (f.eb + f.mb) - 1 then .nan
  else if ex = 0 then .fin neg m f.base
  else .fin neg (2 ^ f.mb + m) (f.base + ex - 1)

/-! ## Rounding (R87 to R92) -/

/-- lo and "round up?" of a magnitude on the grid of spacing 2^q, with whether it is inexact (R87, R88). `r16` are the
element's 16 random bits. -/
def roundGrid (rnd : Rnd) (r16 : Nat) (x : Mag) (q : Int) : Nat × Bool × Bool :=
  let d := q - x.e
  if d ≤ 0 then (x.m <<< (-d).toNat, false, x.more)
  else
    let k := d.toNat
    let lo := x.m >>> k
    let rem := x.m % 2 ^ k
    let half := 2 ^ (k - 1)
    let inexact := decide (rem ≠ 0) || x.more
    let up := inexact && (match rnd with
      | .rne => decide (half < rem) || (decide (rem = half) && (x.more || decide (lo % 2 = 1)))
      | .rtz => false
      | .sr => decide (2 ^ 16 ≤ (rem <<< 16) >>> k + r16 % 2 ^ 16))
    (lo, up, inexact)

/-- Round a finite magnitude to a floating-point format: code (with sign) and flags (R87, R88, R90, R99). -/
def FpFmt.round (f : FpFmt) (rnd : Rnd) (nonsat : Bool) (r16 : Nat) (neg : Bool) (x : Mag) : Nat × Flags :=
  if x.m = 0 ∧ x.more = false then (f.signed neg 0, 0)
  else
    let q := max f.base (flog2 x.m x.e - f.mb)
    let g := roundGrid rnd r16 x q
    let c0 := (q - f.base).toNat * 2 ^ f.mb + g.1
    if f.maxCode < c0 + (if g.2.1 then 1 else 0) then
      -- a result beyond the largest finite (R90)
      if rnd = .rtz || !nonsat || f.sp = .none then (f.signed neg f.maxCode, fOF ||| fNX)
      else if f.sp = .nanOnly then (f.nanCode, fOF ||| fNV ||| fNX)
      else (f.signed neg f.infCode, fOF ||| fNX)
    else
      let c := c0 + (if g.2.1 then 1 else 0)
      let tiny := decide (c < 2 ^ f.mb)
      (f.signed neg c, flagIf g.2.2 fNX ||| flagIf (g.2.2 && tiny) fUF)

/-- Round to a two's complement integer of `w` bits: the integer and flags (R90 to R92). -/
def roundInt (w : Nat) (rnd : Rnd) (r16 : Nat) (neg : Bool) (x : Mag) : Int × Flags :=
  let g := roundGrid rnd r16 x 0
  let k := g.1 + (if g.2.1 then 1 else 0)
  let lim := if neg then 2 ^ (w - 1) else 2 ^ (w - 1) - 1
  if lim < k then (if neg then -(lim : Int) else lim, fOF ||| fNX)
  else (if neg then -(k : Int) else k, flagIf g.2.2 fNX ||| flagIf (g.2.2 && k == 0) fUF)

/-- Element formats that are not block-scaled (R76). -/
inductive Elem where
  | fp (f : FpFmt)
  | int (w : Nat)
  deriving DecidableEq, Repr

/-- Bits of an element. -/
def Elem.width : Elem → Nat
  | .fp f => f.width
  | .int w => w

/-- The value of an element's code; an input −0 is zero (R79), which callers that keep signed zeros read off the code. -/
def Elem.decode (el : Elem) (code : Nat) : FVal :=
  match el with
  | .fp f => f.decode code
  | .int w => let i := sext w code; .fin (decide (i < 0)) i.natAbs 0

/-- Convert a value into an element format: the code and the flags (R79, R87 to R92). -/
def Elem.encode (el : Elem) (rnd : Rnd) (nonsat : Bool) (r16 : Nat) (v : FVal) : Nat × Flags :=
  match el, v with
  | .fp f, .nan => (f.nanCode, fNV)
  | .fp f, .inf neg =>
      match f.sp with
      | .ieee => (f.signed neg f.infCode, 0)
      | .nanOnly => if nonsat then (f.nanCode, fNV) else (f.signed neg f.maxCode, fOF)
      | .none => (f.signed neg f.maxCode, fOF)
  | .fp f, .fin neg m e => f.round rnd nonsat r16 neg ⟨m, e, false⟩
  | .int _, .nan => (0, fNV)
  | .int w, .inf neg => (if neg then 2 ^ (w - 1) else 2 ^ (w - 1) - 1, fOF)
  | .int w, .fin neg m e => let r := roundInt w rnd r16 neg ⟨m, e, false⟩; (low w r.1, r.2)

/-- Whether an element code is a zero of a floating-point format, either sign. -/
def Elem.isZeroCode (el : Elem) (code : Nat) : Bool :=
  match el with
  | .fp f => decide (code % 2 ^ (f.eb + f.mb) = 0)
  | .int _ => decide (code = 0)

/-- A zero result written as +0 (R79, for the matrix array). -/
def Elem.plusZero (el : Elem) (code : Nat) : Nat := if el.isZeroCode code then 0 else code

/-! ## The format codes of R76 -/

/-- Array classes of R76. -/
inductive ArrClass where
  | c16 | c8 | c4
  deriving DecidableEq, Repr

/-- Scaling schemes (R77). -/
inductive Scheme where
  | unscaled | mx | nb | split | slice
  deriving DecidableEq, Repr

/-- One row of R76's table, by its code. -/
structure Fmt where
  el : Elem
  scheme : Scheme
  /-- The array class; `none` for the formats that are no array operand. -/
  cls : Option ArrClass
  /-- INT8 and INT4 (R77). -/
  isInt : Bool := false
  deriving DecidableEq, Repr

/-- The table of R76. -/
def Fmt.ofCode (n : Nat) : Option Fmt :=
  match n with
  | 0x00 => some ⟨.fp fp32F, .unscaled, none, false⟩
  | 0x01 => some ⟨.fp bf16F, .unscaled, some .c16, false⟩
  | 0x02 => some ⟨.fp fp16F, .unscaled, some .c16, false⟩
  | 0x03 => some ⟨.fp e4m3F, .unscaled, some .c8, false⟩
  | 0x04 => some ⟨.fp e5m2F, .unscaled, some .c8, false⟩
  | 0x05 => some ⟨.fp e3m2F, .unscaled, some .c8, false⟩
  | 0x06 => some ⟨.fp e2m3F, .unscaled, some .c8, false⟩
  | 0x07 => some ⟨.fp e2m1F, .unscaled, some .c4, false⟩
  | 0x08 => some ⟨.int 8, .unscaled, some .c8, true⟩
  | 0x09 => some ⟨.int 4, .unscaled, some .c4, true⟩
  | 0x0A => some ⟨.int 32, .unscaled, none, true⟩
  | 0x0B => some ⟨.fp fp64F, .unscaled, none, false⟩
  | 0x10 => some ⟨.fp e4m3F, .mx, some .c8, false⟩
  | 0x11 => some ⟨.fp e5m2F, .mx, some .c8, false⟩
  | 0x12 => some ⟨.fp e3m2F, .mx, some .c8, false⟩
  | 0x13 => some ⟨.fp e2m3F, .mx, some .c8, false⟩
  | 0x14 => some ⟨.fp e2m1F, .mx, some .c4, false⟩
  | 0x18 => some ⟨.fp e4m3F, .nb, some .c8, false⟩
  | 0x19 => some ⟨.fp e2m3F, .nb, some .c8, false⟩
  | 0x1A => some ⟨.fp e2m1F, .nb, some .c4, false⟩
  | 0x1C => some ⟨.fp fp16F, .split, some .c16, false⟩
  | 0x1D => some ⟨.int 8, .slice, some .c8, true⟩
  | _ => none

/-- The pairing rule of R77: same scheme, same class, with its exceptions. -/
def Fmt.pairs (a b : Fmt) : Bool :=
  match a.cls, b.cls with
  | some ca, some cb =>
    decide (a.scheme = b.scheme) &&
    (match a.scheme with
     | .split | .slice => true
     | _ => (decide (a.isInt = b.isInt)) && (decide (ca = cb) || (decide (ca ≠ .c16) && decide (cb ≠ .c16))))
  | _, _ => false

/-- Block length of the scheme: 32 for MX, 128 for NB (R81, R82); 1 otherwise. -/
def Scheme.block : Scheme → Nat
  | .mx => 32
  | .nb => 128
  | _ => 1

/-- Bytes of a scale-plane entry (R81, R83). -/
def Scheme.scaleBytes : Scheme → Nat
  | .mx => 1
  | .nb => 4
  | _ => 0

/-- Elements a row must be a multiple of by packing (R80). -/
def Elem.rowMultiple (el : Elem) : Nat :=
  if el.width = 6 then 4 else if el.width = 4 then 2 else 1

/-- The smallest-subnormal exponents of R96's element anchor. -/
def Elem.anchor : Elem → Int
  | .fp f => f.base
  | .int _ => 0

/-! ## Block quantisation (R85) -/

/-- emax of R85. -/
def FpFmt.emax (f : FpFmt) : Int := ((f.maxCode >>> f.mb : Nat) : Int) - f.bias

/-- Is a value NaN or an infinity? -/
def FVal.special : FVal → Bool
  | .fin .. => false
  | _ => true

def FVal.isNan : FVal → Bool
  | .nan => true
  | _ => false

/-- Multiply a value by 2^k, exactly. -/
def FVal.scale (k : Int) : FVal → FVal
  | .fin n m e => .fin n m (e + k)
  | v => v

/-- flog2 of a finite non-zero value's magnitude. -/
def FVal.log? : FVal → Option Int
  | .fin _ m e => if m = 0 then none else some (flog2 m e)
  | _ => none

/-- The larger of two optional logarithms (flog2 is monotone, so flog2 of a maximum is the maximum of flog2). -/
def maxLog (a b : Option Int) : Option Int :=
  match a, b with
  | none, b => b
  | a, none => a
  | some x, some y => some (max x y)

/-- flog2 of the largest magnitude of finite non-zero values; none if there is none. -/
def maxFlog (vs : List FVal) : Option Int := vs.foldl (fun a v => maxLog a v.log?) none

/-- A quantised block: scale code, sub-exponents (NB), element codes, flags. -/
structure QBlock where
  c : Nat
  subs : List Nat
  codes : List Nat
  flags : Flags
  deriving DecidableEq, Repr

/-- Split a list into pieces of n (fuel: its length). -/
def chunksOf {α : Type} (n : Nat) : (fuel : Nat) → List α → List (List α)
  | 0, _ => []
  | k + 1, l => match l with
    | [] => []
    | l => l.take n :: chunksOf n k (l.drop n)

/-- Clamp. -/
def clampI (x lo hi : Int) : Int := max lo (min x hi)

/-- One element of R85: round v / 2^(x − sub), clipping at the largest finite. -/
def quantElem (f : FpFmt) (rnd : Rnd) (sh : Int) (r16 : Nat) (v : FVal) : Nat × Flags :=
  match v with
  | .fin neg m e =>
    let r := f.round rnd false r16 neg ⟨m, e - sh, false⟩
    -- an element clip always saturates and raises SAT and NX in place of OF (R85)
    if r.2 &&& fOF ≠ 0 then (r.1, fSAT ||| fNX) else r
  | _ => (0, 0)

/-- A value as plain numbers, to which a free value is applied. -/
def FVal.key : FVal → Nat × Nat × Int
  | .nan => (2, 0, 0)
  | .inf n => (if n then 4 else 3, 0, 0)
  | .fin n m e => (if n then 1 else 0, m, e)

/-- Quantise one block (R85), in sub-blocks of 16 for NB. The sub-exponents of an NB block with a NaN or an Inf, of which R85
gives only c and the elements, are free (DESIGN CHOICE, log entry 141). -/
def quantBlock (f : FpFmt) (nb : Bool) (rnd : Rnd) (r16 : Nat → Nat) (vs : List FVal) : QBlock :=
  if vs.any FVal.special then
    ⟨0xFF, (upTo 8).map (fun k => if nb then (Config.nanSub (vs.map FVal.key) k).toNat else 0), vs.map (fun _ => 0),
      if vs.any FVal.isNan then fNV else fOF⟩
  else
    let top := maxFlog vs
    let x : Int := match top with
      | none => -127
      | some t => clampI (t - f.emax) (-127) 127
    let pieces := chunksOf (if nb then 16 else vs.length) vs.length vs
    let subs : List Nat := pieces.map (fun p =>
      if nb then (match maxFlog p, top with
        | some k, some t => min 7 (t - k).toNat
        | _, _ => 7) else 0)
    let es := (vs.zip (upTo vs.length)).map (fun vj =>
      let sub := subs.getD (if nb then vj.2 / 16 else 0) 0
      quantElem f rnd (x - (sub : Int)) (r16 vj.2) vj.1)
    ⟨(x + 127).toNat, subs, es.map Prod.fst, (es.map Prod.snd).foldl (· ||| ·) 0⟩

/-- The NB metadata word of R83. -/
def nbMeta (c : Nat) (subs : List Nat) : Nat := c + (packElems 3 subs) <<< 8

/-- Scale code of a metadata word (R83). -/
def nbScale (w : Nat) : Nat := w % 256

/-- Sub-exponent k of a metadata word (R83). -/
def nbSub (w k : Nat) : Nat := (w >>> (8 + 3 * k)) % 8

/-! ## SPLIT16 and SLICE8 conversions (R104, R106) -/

/-- Exact difference of a finite value and a finite code's value, both as integers over 2^e. -/
def subExact (a b : FVal) : FVal :=
  match a, b with
  | .fin na ma ea, .fin nb mb eb =>
    let e := min ea eb
    let x : Int := (if na then -1 else 1) * ((ma <<< (ea - e).toNat : Nat) : Int)
    let y : Int := (if nb then -1 else 1) * ((mb <<< (eb - e).toNat : Nat) : Int)
    let d := x - y
    .fin (decide (d < 0)) d.natAbs e
  | _, _ => .nan

/-- Round to nearest even into a format: the code. -/
def FpFmt.rne (f : FpFmt) (v : FVal) : Nat := ((Elem.fp f).encode .rne true 0 v).1

/-- Element `v` of a SPLIT16 row whose exponent word is `ew`: the hi and lo codes and the flags (R104, R259). Zeros keep
their sign: R79's +0 is a rule of the matrix array's results, and this conversion is the vector engine's (R150). An Inf of a
row that also holds a NaN raises OF where it is converted, as in a row without one (DESIGN CHOICE, log entry 142: R104 names
OF for the latter only). -/
def splitElem (ew : Nat) (rnd : Rnd) (nonsat : Bool) (v : FVal) : Nat × Nat × Flags :=
  let el := Elem.fp fp16F
  if ew = 0x7FFF ∨ ew = 0x7FFE then
    match v with
    | .nan => (fp16F.maxCode, 0, fNV)
    | .inf n => (fp16F.signed n fp16F.maxCode, 0, fOF)
    | .fin .. => (0, 0, 0)
  else
    let x := v.scale (-(sext 16 ew))
    let h := el.encode rnd nonsat 0 x
    let l := el.encode rnd nonsat 0 ((subExact x (fp16F.decode h.1)).scale 11)
    -- every rounding that changes a value raises NX (R109), the one of hi among them
    (h.1, l.1, h.2 ||| l.2)

/-- Nearest integer, ties to even. -/
def rneInt : FVal → Int × Bool
  | .fin neg m e =>
    let g := roundGrid .rne 0 ⟨m, e, false⟩ 0
    let k : Int := ((g.1 + (if g.2.1 then 1 else 0) : Nat) : Int)
    (if neg then -k else k, g.2.2)
  | _ => (0, false)

/-- Digits d[s], …, d[2], then d[1], of R106, most significant digit first in the result. -/
def sliceDigits : (s : Nat) → Int → List Int → List Int
  | 0, _, acc => acc
  | 1, nv, acc => nv :: acc
  | s + 1, nv, acc =>
    let d := ((nv + 128) % 256) - 128
    sliceDigits s ((nv - d) / 256) (d :: acc)

/-- Element `v` of a SLICE8 row with s slices whose exponent word is `ew`: digits d[1] to d[s] and the flags
(R106, R259). An Inf of a row with a NaN raises OF (DESIGN CHOICE, log entry 142). Under an exponent word that flags nothing,
a NaN is the integer 0 with NV (R91), and the digits of an Inf fit no INT8, so that they are free (log entry 11). -/
def sliceElem (s : Nat) (ew : Nat) (v : FVal) : List Int × Flags :=
  if ew = 0x7FFF ∨ ew = 0x7FFE then
    match v with
    | .nan => (127 :: List.replicate (s - 1) 0, fNV)
    | .inf n => ((if n then -128 else 127) :: List.replicate (s - 1) 0, fOF)
    | .fin .. => (List.replicate s 0, 0)
  else
    match v with
    | .nan => (List.replicate s 0, fNV)
    | .inf n => ((upTo s).map (fun (p : Nat) => (if n then (-1 : Int) else 1) * (2 ^ 80 + (p : Int))), fOF)
    | .fin _ m _ =>
      let q := rneInt (v.scale (8 * s - 2 - sext 16 ew))
      (sliceDigits s q.1 [], flagIf q.2 fNX ||| flagIf (decide (m ≠ 0) && decide (q.1 = 0)) fUF)

end Sys2Proof.Machine
end

