-- ==== Sys2Proof/Machine/Fp32.lean ====
section
/-! DEFINITION. The arithmetic of the vector engine's lanes: IEEE 754 binary32 (R150 to R152) and the correctly
rounded functions of R151. Sums, products, quotients and roots are exact before their one rounding. The transcendental
functions are evaluated in fixed point with 256 fractional bits, far past every binary32 case, and rounded once (log
entry 12). -/
namespace Sys2Proof.Machine

/-- A lane. -/
abbrev Lane := BitVec 32

/-- The value of an FP32 lane. -/
def Lane.val (x : Lane) : FVal := fp32F.decode x.toNat

/-- The canonical NaN (R79). -/
def laneNaN : Lane := 0x7FC00000

/-- +Inf. -/
def laneInf (neg : Bool) : Lane := if neg then 0xFF800000 else 0x7F800000

/-- A zero with a sign. -/
def laneZero (neg : Bool) : Lane := if neg then 0x80000000 else 0

/-- Round a magnitude to FP32 under RNE, overflow to infinity (R150). -/
def laneRound (neg : Bool) (x : Mag) : Lane × Flags :=
  let r := fp32F.round .rne true 0 neg x
  (BitVec.ofNat 32 r.1, r.2)

/-- An exact integer times a power of two as a lane; an exact zero takes the sign `z`. -/
def laneOfExact (m : Int) (e : Int) (z : Bool) : Lane × Flags :=
  if m = 0 then (laneZero z, 0) else laneRound (decide (m < 0)) ⟨m.natAbs, e, false⟩

/-- Sign bit. -/
def Lane.neg? (x : Lane) : Bool := bit 31 x

/-- The sum of two values with IEEE specials; `z1 z2` are the signs a zero sum is made from. -/
def addVals (a b : FVal) : Lane × Flags :=
  match a, b with
  | .nan, _ => (laneNaN, fNV)
  | _, .nan => (laneNaN, fNV)
  | .inf x, .inf y => if x = y then (laneInf x, 0) else (laneNaN, fNV)
  | .inf x, .fin .. => (laneInf x, 0)
  | .fin .., .inf y => (laneInf y, 0)
  | .fin x m e, .fin y n f =>
    let s := sumPair x m e y n f
    laneOfExact s.1 s.2 (x && y && decide (m = 0) && decide (n = 0))
where
  /-- Exact sum of two signed magnitudes. -/
  sumPair (x : Bool) (m : Nat) (e : Int) (y : Bool) (n : Nat) (f : Int) : Int × Int :=
    let g := min e f
    let p : Int := ((m <<< (e - g).toNat : Nat) : Int)
    let q : Int := ((n <<< (f - g).toNat : Nat) : Int)
    ((if x then -p else p) + (if y then -q else q), g)

/-- Exact product of two values, with IEEE specials. -/
def mulVals (a b : FVal) : FVal :=
  match a, b with
  | .nan, _ => .nan
  | _, .nan => .nan
  | .inf x, .inf y => .inf (x != y)
  | .inf x, .fin y m _ => if m = 0 then .nan else .inf (x != y)
  | .fin x m _, .inf y => if m = 0 then .nan else .inf (x != y)
  | .fin x m e, .fin y n f => .fin (x != y) (m * n) (e + f)

/-- FADD (R150). -/
def fadd (a b : Lane) : Lane × Flags := addVals a.val b.val

/-- FNEG. -/
def fneg (a : Lane) : Lane := a ^^^ 0x80000000

/-- FABS. -/
def fabs (a : Lane) : Lane := a &&& 0x7FFFFFFF

/-- FSUB (R150). -/
def fsub (a b : Lane) : Lane × Flags := fadd a (fneg b)

/-- A value as a lane, rounded once. -/
def laneOfVal (v : FVal) : Lane × Flags :=
  match v with
  | .nan => (laneNaN, fNV)
  | .inf n => (laneInf n, 0)
  | .fin n m e => if m = 0 then (laneZero n, 0) else laneRound n ⟨m, e, false⟩

/-- FMUL (R150). -/
def fmul (a b : Lane) : Lane × Flags := laneOfVal (mulVals a.val b.val)

/-- FMA with one rounding (R150). -/
def ffma (a b c : Lane) : Lane × Flags := addVals (mulVals a.val b.val) c.val

/-- DIV (R150, R151): DZ for a finite non-zero dividend over zero. -/
def fdiv (a b : Lane) : Lane × Flags :=
  match a.val, b.val with
  | .nan, _ => (laneNaN, fNV)
  | _, .nan => (laneNaN, fNV)
  | .inf _, .inf _ => (laneNaN, fNV)
  | .inf x, .fin y _ _ => (laneInf (x != y), 0)
  | .fin x _ _, .inf y => (laneZero (x != y), 0)
  | .fin x m e, .fin y n f =>
    if n = 0 then (if m = 0 then (laneNaN, fNV) else (laneInf (x != y), fDZ))
    else if m = 0 then (laneZero (x != y), 0)
    else
      let k := 64 + n.log2
      laneRound (x != y) ⟨(m <<< k) / n, e - f - k, decide ((m <<< k) % n ≠ 0)⟩

/-- The integer square root, one bit of the result per step, from bit `k` down. -/
def isqrtFrom (n : Nat) : (k : Nat) → (r : Nat) → Nat
  | 0, r => if (r + 1) * (r + 1) ≤ n then r + 1 else r
  | k + 1, r => let t := r + 2 ^ (k + 1); isqrtFrom n k (if t * t ≤ n then t else r)

/-- Floor of the square root. -/
def isqrt (n : Nat) : Nat := isqrtFrom n (n.log2 / 2) 0

/-- SQRT (R150). -/
def fsqrt (a : Lane) : Lane × Flags :=
  match a.val with
  | .nan => (laneNaN, fNV)
  | .inf n => if n then (laneNaN, fNV) else (laneInf false, 0)
  | .fin n m e =>
    if m = 0 then (laneZero n, 0)
    else if n then (laneNaN, fNV)
    else
      let odd := decide (e % 2 ≠ 0)
      let m2 := (if odd then m * 2 else m) <<< 128
      let e2 := (if odd then e - 1 else e) / 2 - 64
      let r := isqrt m2
      laneRound false ⟨r, e2, decide (r * r ≠ m2)⟩

/-- Total order used by MAX and MIN: −0 below +0 (R152). -/
def orderKey (a : Lane) : Int := if bit 31 a then -(fld 30 0 a : Int) - 1 else fld 30 0 a

/-- FMAX (R152). -/
def fmax (a b : Lane) : Lane × Flags :=
  if a.val.isNan || b.val.isNan then (laneNaN, fNV) else (if orderKey a < orderKey b then b else a, 0)

/-- FMIN (R152). -/
def fmin (a b : Lane) : Lane × Flags :=
  if a.val.isNan || b.val.isNan then (laneNaN, fNV) else (if orderKey b < orderKey a then b else a, 0)

/-- The order of two lanes that are no NaN, zeros equal. -/
def cmpKey (a : Lane) : Int := if bit 31 a then -(fld 30 0 a : Int) else fld 30 0 a

/-- FCMP (R152, R263): COND 0 EQ, 1 NE, 2 LT, 3 LE, 4 GT, 5 GE. Unordered is false, and NV only for the ordered four. -/
def fcmp (cond : Nat) (a b : Lane) : Lane × Flags :=
  let t : Lane := 0xFFFFFFFF
  if a.val.isNan || b.val.isNan then (0, if 2 ≤ cond then fNV else 0)
  else
    let x := cmpKey a
    let y := cmpKey b
    let r := match cond with
      | 0 => decide (x = y)
      | 1 => decide (x ≠ y)
      | 2 => decide (x < y)
      | 3 => decide (x ≤ y)
      | 4 => decide (y < x)
      | _ => decide (y ≤ x)
    (if r then t else 0, 0)

/-- ICMP (R263): COND 0 EQ, 1 NE, 2 LT, 3 GE, 4 LTU, 5 GEU. -/
def icmp (cond : Nat) (a b : Lane) : Lane :=
  let r := match cond with
    | 0 => decide (a = b)
    | 1 => decide (a ≠ b)
    | 2 => decide (a.toInt < b.toInt)
    | 3 => decide (b.toInt ≤ a.toInt)
    | 4 => decide (a.toNat < b.toNat)
    | _ => decide (b.toNat ≤ a.toNat)
  if r then 0xFFFFFFFF else 0

/-! ## Fixed point with 256 fractional bits -/

/-- Fractional bits. -/
def fxF : Nat := 256

/-- floor(2^256 × ln 2). -/
def fxLn2 : Int := 0xB17217F7D1CF79ABC9E3B39803F2F6AF40F343267298B62D8A0D175B8BAAFA2B

/-- floor(2^256 × π). -/
def fxPi : Int := 0x3243F6A8885A308D313198A2E03707344A4093822299F31D0082EFA98EC4E6C89

/-- floor(2^256 × 2 / √π). -/
def fxTwoRtPi : Int := 0x120DD750429B6D11AE3A914FED7FD8688281341D7587CEA2E7342B06199CC4161

/-- One. -/
def fxOne : Int := 2 ^ fxF

/-- Product of fixed-point numbers. -/
def fxMul (a b : Int) : Int := a * b / fxOne

/-- ± m · 2^e in fixed point. -/
def fxOf (neg : Bool) (m : Nat) (e : Int) : Int :=
  let k := e + fxF
  let x : Int := if 0 ≤ k then ((m <<< k.toNat : Nat) : Int) else ((m >>> (-k).toNat : Nat) : Int)
  if neg then -x else x

/-- Sum of r^i / i! for the next `n` terms, the last term being `t`, the index of the next `i`. -/
def expTerms (r : Int) : (n : Nat) → (i : Nat) → (t s : Int) → Int
  | 0, _, _, s => s
  | n + 1, i, t, s => let t' := fxMul t r / (i : Int); expTerms r n (i + 1) t' (s + t')

/-- e^r for |r| < 1. -/
def fxExp (r : Int) : Int := expTerms r 70 1 fxOne fxOne

/-- Sum of z^(2i+1) / (2i+1). -/
def atanhTerms (z2 : Int) : (n : Nat) → (i : Nat) → (t s : Int) → Int
  | 0, _, _, s => s
  | n + 1, i, t, s => let t' := fxMul t z2; atanhTerms z2 n (i + 1) t' (s + t' / (2 * (i : Int) + 1))

/-- Sum of (−u)^i / (2i+1)!. -/
def sinTerms (u : Int) : (n : Nat) → (i : Nat) → (t s : Int) → Int
  | 0, _, _, s => s
  | n + 1, i, t, s => let t' := -(fxMul t u) / (2 * (i : Int) * (2 * (i : Int) + 1)); sinTerms u n (i + 1) t' (s + t')

/-- Sum of (−u)^i / (i! (2i+1)). -/
def erfTerms (u : Int) : (n : Nat) → (i : Nat) → (t s : Int) → Int
  | 0, _, _, s => s
  | n + 1, i, t, s => let t' := -(fxMul t u) / (i : Int); erfTerms u n (i + 1) t' (s + t' / (2 * (i : Int) + 1))

/-- A positive irrational approximated by x · 2^e: its low 32 bits are dropped and replaced by "more". -/
def approx (x : Int) (e : Int) : Mag := ⟨x.toNat >>> 32, e + 32, true⟩

/-- e^x of a finite non-zero x. -/
def expMag (neg : Bool) (m : Nat) (e : Int) : Mag :=
  if 8 ≤ flog2 m e then (if neg then ⟨1, -1000, true⟩ else ⟨2 ^ 64, 1000, true⟩)
  else
    let x := fxOf neg m e
    let k := x / fxLn2
    approx (fxExp (x - k * fxLn2)) (k - fxF)

/-- 2^x of a finite x; whether it is exact. -/
def exp2Mag (neg : Bool) (m : Nat) (e : Int) : Mag :=
  if m ≠ 0 ∧ 8 ≤ flog2 m e then (if neg then ⟨1, -1000, true⟩ else ⟨2 ^ 64, 1000, true⟩)
  else
    let x := fxOf neg m e
    let k := x / fxOne
    let f := x - k * fxOne
    if f = 0 ∧ (m = 0 ∨ -(fxF : Int) ≤ e) then ⟨1, k, false⟩
    else approx (fxExp (fxMul f fxLn2)) (k - fxF)

/-- The natural logarithm of a positive finite number, in fixed point. -/
def fxLog (m : Nat) (e : Int) : Int :=
  let l := m.log2
  -- y = m / 2^l in [1, 2), or half of it in [1/2, 1) when m ≥ √2 · 2^l
  let big := decide (181 * 2 ^ l ≤ 128 * m)
  let y := fxOf false m (-(l : Int) - (if big then 1 else 0))
  let k : Int := e + l + (if big then 1 else 0)
  let z := (y - fxOne) * fxOne / (y + fxOne)
  2 * atanhTerms (fxMul z z) 60 1 z z + k * fxLn2

/-- sin(πt) of t = m · 2^e in (0, 1/2]. -/
def sinPiMag (m : Nat) (e : Int) : Mag :=
  let t := fxOf false m e
  let th := fxMul t fxPi
  let s := sinTerms (fxMul th th) 45 1 fxOne fxOne
  approx (fxMul fxPi s * m) (e - fxF)

/-- The functions of R151, on finite non-zero arguments that are in their domains. -/
inductive FnOp where
  | exp | exp2 | log | log2 | rcp | rsqrt | tanh | sigmoid | erf | sinpi | cospi
  deriving DecidableEq, Repr

/-- |x| mod 2 as an integer over 2^s, where x = m · 2^(−s). -/
def mod2 (m s : Nat) : Nat := m % 2 ^ (s + 1)

/-- sin(πx) of a finite x: sign and magnitude; none is a zero. -/
def sinPiVal (neg : Bool) (m : Nat) (e : Int) : Option (Bool × Mag) :=
  if m = 0 ∨ 0 ≤ e then none
  else
    let s := (-e).toNat
    let t := mod2 m s
    let ng := decide (2 ^ s ≤ t)
    let u := if ng then t - 2 ^ s else t
    let w := if 2 ^ s < 2 * u then 2 ^ s - u else u
    if w = 0 then none
    else if 2 * w = 2 ^ s then some (neg != ng, ⟨1, 0, false⟩)
    else some (neg != ng, sinPiMag w e)

/-- cos(πx) of a finite x: sign and magnitude; none is a zero. -/
def cosPiVal (m : Nat) (e : Int) : Option (Bool × Mag) :=
  if m = 0 then some (false, ⟨1, 0, false⟩)
  else if 0 ≤ e then some (decide (e = 0 ∧ m % 2 = 1), ⟨1, 0, false⟩)
  else
    let s := (-e).toNat
    let t0 := mod2 m s
    let t := if 2 ^ s < t0 then 2 ^ (s + 1) - t0 else t0
    -- cos(πt) = sin(π(1/2 − t)), over 2^(s+1)
    let h := 2 ^ s
    if 2 * t = h then none
    else if t = 0 then some (false, ⟨1, 0, false⟩)
    else if t = h then some (true, ⟨1, 0, false⟩)
    else if 2 * t < h then some (false, sinPiMag (h - 2 * t) (e - 1))
    else some (true, sinPiMag (2 * t - h) (e - 1))

/-- Just below 1. -/
def belowOne : Mag := ⟨2 ^ 64 - 1, -64, true⟩

/-- tanh of |x|, x ≠ 0. -/
def tanhMag (m : Nat) (e : Int) : Mag :=
  let l := flog2 m e
  if l < -30 then ⟨m * 2 ^ 64 - 1, e - 64, true⟩
  else if 4 ≤ l then belowOne
  else
    let x := fxOf false m (e + 1)
    let k := x / fxLn2
    let a := fxExp (x - k * fxLn2) * 2 ^ k.toNat
    approx ((a - fxOne) * fxOne / (a + fxOne)) (-(fxF : Int))

/-- 1 / (1 + e^−x), x ≠ 0. -/
def sigmoidMag (neg : Bool) (m : Nat) (e : Int) : Mag :=
  let l := flog2 m e
  if l < -40 then (if neg then ⟨2 ^ 64 - 1, -65, true⟩ else ⟨2 ^ 64, -65, true⟩)
  else if 6 ≤ l ∧ neg = false then belowOne
  else if 8 ≤ l then ⟨1, -1000, true⟩
  else
    -- E = e^x = M · 2^q; the result is E / (1 + E)
    let x := fxOf neg m e
    let k := x / fxLn2
    let mm := fxExp (x - k * fxLn2)
    let q := k - fxF
    -- 1 + E = (2^(−q) + M) · 2^q, q < 0 here
    let den := (2 : Int) ^ (-q).toNat + mm
    approx (mm * 2 ^ (512 : Nat) / den) (-512)

/-- erf of |x|, x ≠ 0. -/
def erfMag (m : Nat) (e : Int) : Mag :=
  if 2 ≤ flog2 m e then belowOne
  else
    let x := fxOf false m e
    let s := erfTerms (fxMul x x) 160 1 fxOne fxOne
    approx (fxMul fxTwoRtPi s * m) (e - fxF)

/-- A function of R151 with its special cases. -/
def fnLane (op : FnOp) (a : Lane) : Lane × Flags :=
  match a.val with
  | .nan => (laneNaN, fNV)
  | .inf n =>
    match op with
    | .exp | .exp2 | .sigmoid => if n then (laneZero false, 0)
        else (if op = .sigmoid then (0x3F800000 : Lane) else laneInf false, 0)
    | .log | .log2 => if n then (laneNaN, fNV) else (laneInf false, 0)
    | .rcp => (laneZero n, 0)
    | .rsqrt => if n then (laneNaN, fNV) else (laneZero false, 0)
    | .tanh | .erf => (if n then 0xBF800000 else 0x3F800000, 0)
    | .sinpi | .cospi => (laneNaN, fNV)
  | .fin n m e =>
    match op with
    | .exp => if m = 0 then (0x3F800000, 0) else laneRound false (expMag n m e)
    | .exp2 => laneRound false (exp2Mag n m e)
    | .log | .log2 =>
      if m = 0 then (laneInf true, fDZ)
      else if n then (laneNaN, fNV)
      else if m = 2 ^ m.log2 then
        -- a power of two: log2 is exact, and log is exact only at 1
        if op = .log2 then laneOfExact (e + m.log2) 0 false
        else if e + m.log2 = 0 then (laneZero false, 0)
        else let x := fxLog m e; laneRound (decide (x < 0)) (approx (x.natAbs : Int) (-(fxF : Int)))
      else
        let x := fxLog m e
        let y := if op = .log then x else x * fxOne / fxLn2
        laneRound (decide (y < 0)) (approx (y.natAbs : Int) (-(fxF : Int)))
    | .rcp => if m = 0 then (laneInf n, fDZ) else fdiv 0x3F800000 a
    | .rsqrt =>
      if m = 0 then (laneInf n, fDZ)
      else if n then (laneNaN, fNV)
      else
        let odd := decide (e % 2 ≠ 0)
        let m1 := if odd then m * 2 else m
        let e1 := if odd then e - 1 else e
        let big := 2 ^ 256
        let r := isqrt (big / m1)
        laneRound false ⟨r, -(e1 / 2) - 128, decide (r * r * m1 ≠ big)⟩
    | .tanh => if m = 0 then (laneZero n, 0) else laneRound n (tanhMag m e)
    | .sigmoid => if m = 0 then (0x3F000000, 0) else laneRound false (sigmoidMag n m e)
    | .erf => if m = 0 then (laneZero n, 0) else laneRound n (erfMag m e)
    | .sinpi => match sinPiVal n m e with
      | none => (laneZero n, 0)
      | some (s, x) => laneRound s x
    | .cospi => match cosPiVal m e with
      | none => (laneZero false, 0)
      | some (s, x) => laneRound s x

end Sys2Proof.Machine
end

