-- ==== Sys2Proof/Machine/MatArith.lean ====
section
/-! DEFINITION. The arithmetic of the matrix array: contributions, accumulators, records and writeback (R93 to R107,
R119, R126, R259). -/
namespace Sys2Proof.Machine

/-- SPECIAL of an accumulator (R93). -/
inductive Special where
  | finite | posInf | negInf | nan
  deriving DecidableEq, Repr

/-- The SPECIAL code of R93. -/
def Special.code : Special → Nat
  | .finite => 0
  | .posInf => 1
  | .negInf => 2
  | .nan => 3

/-- SPECIAL by its code. -/
def Special.ofCode (n : Nat) : Special :=
  match n % 4 with
  | 0 => .finite
  | 1 => .posInf
  | 2 => .negInf
  | _ => .nan

/-- The special part of a value. -/
def FVal.toSpecial : FVal → Special
  | .nan => .nan
  | .inf n => if n then .negInf else .posInf
  | .fin .. => .finite

/-- R97: combine an accumulator's SPECIAL with a contribution's; whether NV is raised. -/
def Special.combine (a c : Special) : Special × Bool :=
  match c with
  | .nan => (.nan, true)
  | .finite => (a, false)
  | .posInf => match a with
    | .nan => (.nan, false)
    | .negInf => (.nan, true)
    | _ => (.posInf, false)
  | .negInf => match a with
    | .nan => (.nan, false)
    | .posInf => (.nan, true)
    | _ => (.negInf, false)

/-- An accumulator (R93). -/
structure Acc where
  value : BitVec 96
  count : Nat
  special : Special
  ovf : Bool
  deriving DecidableEq, Repr

/-- A cleared accumulator. -/
def Acc.clear : Acc := ⟨0, 0, .finite, false⟩

/-- Operand modes of a row tag (R120). -/
inductive AccMode where
  | unscaled | mx | nb | split16 | slice8 (s : Nat)
  deriving DecidableEq, Repr

/-- The operand mode of a format code with slice count s (R127). -/
def AccMode.ofFmt (f : Fmt) (s : Nat) : AccMode :=
  match f.scheme with
  | .unscaled => .unscaled
  | .mx => .mx
  | .nb => .nb
  | .split => .split16
  | .slice => .slice8 s

/-- An accumulator row with its tag (R120): 64 accumulators. -/
structure AccRow where
  exp : Int
  mode : AccMode
  valid : Bool
  cells : List Acc
  deriving DecidableEq, Repr

/-- What a row holds when it was never set, or its VALID bit is 0 (R125). -/
def AccRow.invalid : AccRow := ⟨0, .unscaled, false, List.replicate 64 Acc.clear⟩

/-- Exact product of two values (R94, R97): Inf × 0 is NaN. -/
def FVal.mul (a b : FVal) : FVal :=
  match a, b with
  | .nan, _ => .nan
  | _, .nan => .nan
  | .inf x, .inf y => .inf (x != y)
  | .inf x, .fin y m _ => if m = 0 then .nan else .inf (x != y)
  | .fin x m _, .inf y => if m = 0 then .nan else .inf (x != y)
  | .fin x m e, .fin y n f => .fin (x != y) (m * n) (e + f)

/-- A finite value as a signed integer over 2^e; 0 for a special. -/
def FVal.toInt (e : Int) : FVal → Int
  | .fin n m f => let k : Int := ((m <<< (f - e).toNat : Nat) : Int); if n then -k else k
  | _ => 0

/-- The least exponent of the finite non-zero values of a list. -/
def minExp (vs : List FVal) : Int :=
  (vs.foldl (fun (a : Option Int) v => match v with
    | .fin _ m e => if m = 0 then a else some (match a with
      | none => e
      | some x => min x e)
    | _ => a) none).getD 0

/-- Exact sum of the finite values of a list: integer and exponent. -/
def sumExact (vs : List FVal) : Int × Int :=
  let e := minExp vs
  (vs.foldl (fun a v => a + v.toInt e) 0, e)

/-- An integer m · 2^e rounded RNE onto the grid 2^g, in units of the grid; whether it was inexact. -/
def toGrid (g : Int) (m : Int) (e : Int) : Int × Bool :=
  let r := roundGrid .rne 0 ⟨m.natAbs, e, false⟩ g
  let k : Int := ((r.1 + (if r.2.1 then 1 else 0) : Nat) : Int)
  (if m < 0 then -k else k, r.2.2)

/-- What one contribution adds (R94). -/
structure Contrib where
  value : Int
  special : Special
  nv : Bool
  nx : Bool
  ovf : Bool
  deriving DecidableEq, Repr

/-- The contribution of the products of one group (R94, R119, R105, R107). `each`: each product is rounded to the grid
first (16-bit class). The products already carry their scale factors and the pass weight. In the 8- and 4-bit classes the
exact sum is rounded once, to nearest even, where it does not lie on the grid (under a program anchor, ANCHOR = 1, R94's
table names no rounding for an unscaled contribution: log entry 114). -/
def contribution (each : Bool) (accExp : Int) (ps : List FVal) : Contrib :=
  let sp := ps.foldl (fun (a : Special × Bool) p => let r := a.1.combine p.toSpecial; (r.1, a.2 || r.2)) (.finite, false)
  let g : Int × Bool × Bool :=
    if each then
      let rs := ps.map (fun p => match p with
        | .fin n m e => toGrid accExp (if n then -(m : Int) else m) e
        | _ => (0, false))
      (rs.foldl (fun a r => a + r.1) 0, rs.any (fun r => r.2), rs.any (fun r => decide (2 ^ 78 ≤ r.1.natAbs)))
    else
      let s := sumExact ps
      let r := toGrid accExp s.1 s.2
      (r.1, r.2, false)
  let v := if sp.1 = .finite then g.1 else Config.specialShare g.1
  ⟨v, sp.1, sp.2, g.2.1, g.2.2 || decide (2 ^ 78 ≤ v.natAbs)⟩

/-- Add a contribution to an accumulator (R93, R95, R97): the accumulator and the flags. -/
def Acc.add (a : Acc) (c : Contrib) : Acc × Flags :=
  let sp := a.special.combine c.special
  ({ value := a.value + BitVec.ofInt 96 c.value
     count := min (a.count + 1) 65536
     special := sp.1
     ovf := a.ovf || c.ovf || decide (65536 < a.count + 1) },
   flagIf (sp.2 || c.nv) fNV ||| flagIf c.nx fNX)

/-! ## Tiles, streams and their scales -/

/-- A tile descriptor (R252). -/
structure Desc where
  base : Nat
  fmt : Nat
  s : Nat
  trd : Bool
  psh : Nat
  pitch : Nat
  klen : Nat
  nout : Nat
  korg : Nat
  sbase : Nat
  spitch : Nat
  m0 : Nat
  n0 : Nat
  /-- The fields shown as "—" (R252). -/
  zeros : Nat
  deriving DecidableEq, Repr

/-- The fields of a d register (R252). -/
def Desc.ofBits (d : BitVec 256) : Desc :=
  { base := fld 47 0 d, fmt := fld 52 48 d, s := fld 55 53 d, trd := bit 56 d, psh := fld 61 57 d
    pitch := fld 87 64 d, klen := fld 94 88 d, nout := fld 102 96 d, korg := fld 127 104 d
    sbase := fld 175 128 d, spitch := fld 191 176 d, m0 := fld 223 192 d, n0 := fld 255 224 d
    zeros := fld 63 62 d + fld 95 95 d + fld 103 103 d }

/-- The loaded stationary tile (R256): 64 stored rows of 64 element codes, and the scale entry of each stored row. -/
structure Tile where
  fmt : Nat
  s : Nat
  klen : Nat
  nout : Nat
  korg : Nat
  tr : Bool
  part : Nat
  half : Nat
  rows : List (List Nat)
  scales : List Nat
  deriving DecidableEq, Repr

/-- The scale exponent of element e of a row whose scale entry is w; none is a NaN block (R81 to R83, R117). -/
def scaleShift (sc : Scheme) (half w e : Nat) : Option Int :=
  match sc with
  | .mx => let c := bits (8 * (e / 32) + 7) (8 * (e / 32)) w; if c = 255 then none else some ((c : Int) - 127)
  | .nb => let c := nbScale w; if c = 255 then none else some ((c : Int) - 127 - nbSub w (4 * half + e / 16))
  | _ => some 0

/-- An element's value with its block scale (R81, R82). -/
def scaledElem (f : Fmt) (half w e code : Nat) : FVal :=
  match scaleShift f.scheme half w e with
  | none => .nan
  | some k => (f.el.decode code).scale k

/-- Element at reduction index k and output column n of the tile (R118). -/
def Tile.elem (t : Tile) (f : Fmt) (k n : Nat) : FVal :=
  let j := if t.tr then k else n
  let e := if t.tr then n else k
  scaledElem f t.half (t.scales.getD j 0) e ((t.rows.getD j []).getD e 0)

/-- The weight exponent of a pass (R105, R107, R124). -/
def passShift (f : Fmt) (s pass : Nat) : Int :=
  match f.scheme with
  | .split => if pass = 1 then 0 else -11
  | .slice => 8 * ((s : Int) + 1 - (bits 5 3 pass : Nat) - (bits 2 0 pass : Nat))
  | _ => 0

/-- All contributions of one stream row to one column, added to an accumulator (R123). -/
def addColumn (t : Tile) (tf : Fmt) (accExp : Int) (shift : Int) (row : List FVal) (n : Nat) (a : Acc) :
    Acc × Flags :=
  let each := decide (tf.cls = some .c16)
  (upTo 4).foldl (fun (r : Acc × Flags) g =>
    if 16 * g < t.klen then
      let ks := (upTo 16).filterMap (fun i => if 16 * g + i < t.klen then some (16 * g + i) else none)
      let ps := ks.map (fun k => ((row.getD k (.fin false 0 0)).mul (t.elem tf k n)).scale shift)
      let x := r.1.add (contribution each accExp ps)
      (x.1, r.2 ||| x.2)
    else r) (a, 0)

/-- A row set up as for CLR = 1 (R121). -/
def AccRow.cleared (exp : Int) (mode : AccMode) : AccRow := ⟨exp, mode, true, List.replicate 64 Acc.clear⟩

/-- The same row with every accumulator NaN (R121). -/
def AccRow.nanned (exp : Int) (mode : AccMode) : AccRow :=
  ⟨exp, mode, true, List.replicate 64 { Acc.clear with special := .nan }⟩

/-- The row as a stream or an add finds it (R121, R127): the row and the flags of setting it up. -/
def AccRow.setUp (r : AccRow) (clr : Bool) (exp : Int) (mode : AccMode) : AccRow × Flags :=
  if clr then (AccRow.cleared exp mode, 0)
  else if r.valid && decide (r.exp = exp) && decide (r.mode = mode) then (r, 0)
  else (AccRow.nanned exp mode, fNV)

/-- One stream row's whole update of its accumulator row (R121, R123). -/
def streamRow (t : Tile) (tf : Fmt) (clr : Bool) (accExp : Int) (mode : AccMode) (shift : Int) (row : List FVal)
    (r : AccRow) : AccRow × Flags :=
  let r0 := r.setUp clr accExp mode
  let cs := (r0.1.cells.zip (upTo 64)).map (fun cn =>
    if cn.2 < t.nout then addColumn t tf accExp shift row cn.2 cn.1 else (cn.1, 0))
  ({ r0.1 with cells := cs.map Prod.fst }, (cs.map Prod.snd).foldl (· ||| ·) r0.2)

/-! ## WIDE records (R100, R101) -/

/-- The 128-bit record of an accumulator under the anchor `exp` (R100). -/
def Acc.toRecord (a : Acc) (exp : Int) : Nat :=
  a.value.toNat + (a.count % 2 ^ 17) <<< 96 + a.special.code <<< 113 + (if a.ovf then 1 else 0) <<< 115 + (low 10 exp) <<< 116

/-- ACC_EXP of a record. -/
def recExp (r : Nat) : Int := sext 10 (bits 125 116 r)

/-- Add a record into an accumulator (R101): the accumulator and the flags. -/
def Acc.addRecord (a : Acc) (exp : Int) (r : Nat) : Acc × Flags :=
  if recExp r ≠ exp ∨ bits 127 126 r ≠ 0 then ({ a with special := .nan }, fNV)
  else
    let sp := a.special.combine (Special.ofCode (bits 114 113 r))
    let n := a.count + bits 112 96 r
    ({ value := a.value + BitVec.ofNat 96 r
       count := min n 65536
       special := sp.1
       ovf := a.ovf || r.testBit 115 || decide (65536 < n) }, flagIf sp.2 fNV)

/-! ## Writeback (R99, R126, R259) -/

/-- What R259's exponent words make of an output; none where they are plain. -/
def flaggedOut (em en : Nat) (v : Int) : Option Special :=
  if em = 0x7FFF ∨ en = 0x7FFF then some .nan
  else if em = 0x7FFE ∨ en = 0x7FFE then
    some (if 0 < v then .posInf else if v < 0 then .negInf else .nan)
  else none

/-- The special value as a value. -/
def Special.toVal : Special → FVal
  | .posInf => .inf false
  | .negInf => .inf true
  | _ => .nan

/-- The exact output of an accumulator at weight exponent `ex` (R99), joined with the destination element of an
accumulate-on-write (R126): the value and the flags so far. -/
def Acc.output (a : Acc) (ex : Int) (flagged : Option Special) (d : Option FVal) : FVal × Flags :=
  let v := a.value.toInt
  let sp0 := flagged.getD a.special
  let sp := match d with
    | some dv => sp0.combine dv.toSpecial
    | none => (sp0, false)
  let fl := flagIf a.ovf fACC ||| flagIf sp.2 fNV
  if sp.1 ≠ .finite then (sp.1.toVal, fl)
  else if a.ovf then (.nan, fl)
  else match d with
    | some (.fin n m e) =>
      let s := sumExact [.fin (decide (v < 0)) v.natAbs ex, .fin n m e]
      let off := decide (m ≠ 0 ∧ e < ex ∧ m % 2 ^ (ex - e).toNat ≠ 0)
      (.fin (decide (s.1 < 0)) s.1.natAbs s.2, fl ||| flagIf off fNX)
    | _ => (.fin (decide (v < 0)) v.natAbs ex, fl)

/-- Round one output into a narrow element (R99): code and flags; a NaN written is a NaN produced and raises NV (R109). -/
def Acc.writeback (a : Acc) (ex : Int) (flagged : Option Special) (d : Option FVal) (el : Elem) (rnd : Rnd)
    (nonsat : Bool) (r16 : Nat) : Nat × Flags :=
  let o := a.output ex flagged d
  let c := el.encode rnd nonsat r16 o.1
  (el.plusZero c.1, o.2 ||| c.2)

end Sys2Proof.Machine
end

