-- ==== Sys2Proof/Machine/CoreTypes.lean ====
section
/-! DEFINITION. The state of one core: sequencer, matrix, vector and fetch engines (07, 04, 05, 10), of the semaphores
(R227, R556) and of the generation table (R194). -/
namespace Sys2Proof.Machine

/-- SQ_STATUS.STATE (R242). -/
inductive SqState where
  | idle | run | stall | halted | done
  deriving DecidableEq, Repr

/-- What a stalled sequencer waits for (R242's WAIT, with what the wait needs). -/
inductive SqWait where
  | none
  /-- A SEM.WAIT in flight or at its semaphore: the request's number and PD (R228). -/
  | sem (id pd : Nat)
  /-- A TWAIT: target edge, engine mask, and whether it was reached at E − 16 clk of its target (R232). The implicit
  TWAIT of a load or restart (R231) has mask 0. -/
  | tempo (target mask : Nat) (onTime implicit : Bool)
  /-- A GEN.CLAIM (R197); the generation table holds it. -/
  | claim
  | queueFull
  | engineHalted
  /-- A VSET, VGET or PERM-class dependence on the vector engine (R217). -/
  | operand
  /-- A FENCE with its mask (R221). -/
  | fence (mask : Nat)
  deriving DecidableEq, Repr

/-- A frame of the loop stack (R226). -/
structure LoopFrame where
  start : Nat
  last : Nat
  left : Nat
  index : Nat
  deriving DecidableEq, Repr

/-- A vector register: 256 lanes. -/
abbrev VReg := List Lane

/-- An entry of an engine queue with the register files as they stood at issue (R212: an entry copies the s, a and d
registers that it names). -/
structure QEntry where
  word : Word
  s : FMap Word
  a : FMap (BitVec 128)
  d : FMap (BitVec 256)
  /-- A sequencer store issued before it has not yet written (R280). -/
  held : Bool := false
  deriving DecidableEq, Repr

/-- A begun SEM.SIG that waits for the engine's earlier entries (R229): the engine's entry count at its beginning, its
semaphore and its number. -/
structure PendSig where
  seq : Nat
  sem : Nat
  n : Nat
  deriving DecidableEq, Repr

/-- What every engine of a core has: its queue, its halt and its held wait (R216, R134, R172, R229). -/
structure Eng where
  queue : List QEntry := []
  /-- Entries begun so far. -/
  nextSeq : Nat := 0
  /-- Begun signals not yet applied. -/
  sigs : List PendSig := []
  halt : Bool := false
  /-- The halting instruction is the head of the queue (refused there), not one already begun. -/
  haltHead : Bool := false
  event : Nat := 0
  /-- The number of the semaphore request that a begun SEM.WAIT holds the engine with. -/
  waitReq : Option Nat := none
  deriving DecidableEq, Repr

/-- SQ_PERF_ISSUE with what pairing needs (R215, R247): pairs, single issues, issues in all, and the word of a last issue that
still stands alone. -/
structure IssueCount where
  pairs : Nat := 0
  singles : Nat := 0
  issues : Nat := 0
  lone : Option Word := none
  deriving DecidableEq, Repr

/-- The sequencer (R209 to R214, R225, R226, R231, R242 to R246). -/
structure Sq where
  s : FMap Word := []
  a : FMap (BitVec 128) := []
  d : FMap (BitVec 256) := []
  p : BitVec 8 := 1
  v : FMap VReg := []
  pc : Nat := 0
  store : FMap Word := []
  codeLen : Nat := 0
  /-- Entry index of the image (R214). -/
  entry : Nat := 0
  /-- Restart entry of the image (R539). -/
  restart : Option Nat := none
  loops : List LoopFrame := []
  calls : List Nat := []
  st : SqState := .idle
  wait : SqWait := .none
  engHalt : BitVec 3 := 0
  /-- Last released edge (R231). -/
  lastEdge : Nat := 0
  faultCode : Nat := 0
  faultPc : Nat := 0
  pcode : Nat := 0
  insn : Word := 0
  late : Nat := 0
  lateTempo : Nat := 0
  /-- Issue counters (R247). -/
  issue : IssueCount := {}
  /-- The core has no program because revocation or a prune stopped it (R240). -/
  pruned : Bool := false
  /-- It halted at an LD that read a poisoned word (R318, R538). -/
  poisonLd : Bool := false
  deriving DecidableEq, Repr

/-! ## Matrix engine -/

/-- The array's running instruction: an ME.STREAM or ME.ADDW with its next row. -/
structure ArrRun where
  seq : Nat
  word : Word
  addw : Bool
  desc : Desc
  clr : Bool
  accBase : Nat
  rows : Nat
  exp : Int
  mode : AccMode
  shift : Int
  part : Nat
  next : Nat
  flags : Flags := 0
  deriving DecidableEq, Repr

/-- A streaming row that has entered the array and not yet updated its accumulator row (R130). -/
structure FlightRow where
  seq : Nat
  row : Nat
  vals : List FVal
  tile : Tile
  clr : Bool
  exp : Int
  mode : AccMode
  shift : Int
  last : Bool
  deriving DecidableEq, Repr

/-- A running drain with its next row (R125). -/
structure DrainRun where
  seq : Nat
  word : Word
  u : Desc
  x : Desc
  aow : Bool
  accBase : Nat
  rows : Nat
  outExp : Int
  rnd : Rnd
  nonsat : Bool
  wide : Bool
  key : Word
  stream : Word
  next : Nat
  flags : Flags := 0
  deriving DecidableEq, Repr

/-- A drained row whose bytes have not landed (R130). -/
structure DrainWrite where
  seq : Nat
  writes : List (Nat × List Byte)
  flags : Flags
  /-- The flags of the whole drain, on its last row. -/
  done : Option Flags
  deriving DecidableEq, Repr

/-- The matrix engine of a core. -/
structure Me where
  eng : Eng := {}
  tile : Option Tile := none
  acc : FMap AccRow := []
  run : Option ArrRun := none
  flight : List FlightRow := []
  drains : List DrainRun := []
  writes : List DrainWrite := []
  flags : Flags := 0
  since : Flags := 0
  /-- Flags of the stream whose rows are updating, and its number. -/
  opFlags : Flags := 0
  opSeq : Nat := 0
  snap : Flags := 0
  snapTempo : Nat := 0
  deriving DecidableEq, Repr

/-! ## Vector engine -/

/-- A running SOLVE: fields of R270 and the next system (R165, R174). -/
structure SolveRun where
  seq : Nat
  word : Word
  aBase : Nat
  bBase : Nat
  xBase : Nat
  sBase : Nat
  aPitch : Nat
  bPitch : Nat
  xPitch : Nat
  n : Nat
  r : Nat
  count : Nat
  mode : Nat
  tau : Lane
  next : Nat
  flags : Flags := 0
  deriving DecidableEq, Repr

/-- The vector engine of a core. -/
structure Ve where
  eng : Eng := {}
  solve : Option SolveRun := none
  flags : Flags := 0
  since : Flags := 0
  snap : Flags := 0
  snapTempo : Nat := 0
  deriving DecidableEq, Repr

/-! ## Fetch engine -/

/-- Kinds of a begun fetch entry. -/
inductive FteKind where
  | copy | gather | zero
  deriving DecidableEq, Repr

/-- A begun fetch entry that has not completed (R278): what it still has to send and what is outstanding. -/
structure FteRun where
  id : Nat
  kind : FteKind
  entry : QEntry
  tag : Nat
  /-- Requests in all, and the next to send. -/
  total : Nat
  next : Nat
  /-- Sent and not returned. -/
  out : Nat
  cancelled : Bool := false
  /-- Destination words that it has written poisoned, by address / 8 (R317). -/
  pois : NSet := []
  deriving DecidableEq, Repr

/-- A sent request: `len` bytes from element `src` list to their destinations. Each pair is (source, destination) of one
run of bytes. -/
structure FteReq where
  run : Nat
  pieces : List (Nat × Nat × Nat)
  /-- Its index word read poisoned (R275): nothing is read, the destination is poisoned. -/
  poisoned : Bool := false
  /-- Places of R316 that it takes. -/
  places : Nat := 0
  discard : Bool := false
  /-- Its discard follows a halt, and is not counted (R341). -/
  silent : Bool := false
  /-- The granule, where the read of its sector for the other half has brought it (R358): its bytes, each poisoned or not. -/
  got : Option (List (BitVec 8 × Bool)) := none
  deriving DecidableEq, Repr

/-- The fetch engine of a core. -/
structure Fte where
  eng : Eng := {}
  runs : List FteRun := []
  reqs : List FteReq := []
  deriving DecidableEq, Repr

/-- The other model's program of a core of a serving partition (R56, R59). -/
structure AltProg where
  store : FMap Word := []
  codeLen : Nat := 0
  entry : Nat := 0
  restart : Option Nat := none
  deriving DecidableEq, Repr

/-- One logical core. -/
structure Core where
  alt : AltProg := {}
  sq : Sq := {}
  me : Me := {}
  ve : Ve := {}
  fte : Fte := {}
  deriving DecidableEq, Repr

/-! ## Semaphores -/

/-- Who sends a semaphore request (R230). -/
inductive Requester where
  | sq (c : Nat)
  | eng (c e : Nat)
  | dma (g ch : Nat)
  | port (q : Nat)
  | hub
  deriving DecidableEq, Repr

/-- The requester order of R230. -/
def Requester.rank : Requester → Nat
  | .sq c => 4 * c
  | .eng c e => 4 * c + e
  | .dma g ch => 10000 + 16 * g + ch
  | .port q => 20000 + q
  | .hub => 30000

/-- Kinds of semaphore requests; `poison` is a prune's (R230, R535). -/
inductive SemKind where
  | wait | sig | poison
  deriving DecidableEq, Repr

/-- A semaphore request that has left its requester: in flight, or (a wait) standing at its semaphore. -/
structure SemReq where
  id : Nat
  who : Requester
  kind : SemKind
  sem : Nat
  n : Nat := 0
  pd : Nat := 0
  arrived : Bool := false
  /-- Clk it has stalled at the semaphore (R320). -/
  stall : Nat := 0
  /-- The instruction of a sequencer's signal (R238). -/
  pc : Nat := 0
  insn : Word := 0
  deriving DecidableEq, Repr

/-- A wait that has completed at its semaphore and not yet resumed its requester (R230). -/
structure SemDone where
  id : Nat
  who : Requester
  pd : Nat
  poison : Bool
  deriving DecidableEq, Repr

/-- A semaphore (R227, R556). -/
structure Sem where
  value : Nat := 0
  poison : Bool := false
  owner : Nat := 0x1FF
  declared : Bool := false
  deriving DecidableEq, Repr

/-! ## Generation slots -/

/-- STATE of R194. -/
inductive GenState where
  | free | filling | ready
  deriving DecidableEq, Repr

/-- A generation slot (R194, R207, R208). -/
structure GenSlot where
  st : GenState := .free
  ring : Nat := 2 ^ 64 - 1
  refs : Nat := 0
  missed : Bool := false
  /-- A late all-gather of this ring met no slot (R199): the claim for it sets MISSED. -/
  page : Nat := 0
  pages : Nat := 0
  deriving DecidableEq, Repr

/-- A waiting GEN.CLAIM (R197). -/
structure GenClaim where
  core : Nat
  stage : Nat
  slot : Nat
  ring : Nat
  rd : Nat
  deriving DecidableEq, Repr

/-- The generation table of a partition (R205, R206). -/
structure GenTable where
  stages : Nat := 0
  slots : FMap GenSlot := []
  claims : List GenClaim := []
  lateCount : Nat := 0
  lateStage : Nat := 0
  /-- (stage, ring) whose incoming all-gather was discarded (R199). -/
  lateRings : List (Nat × Nat) := []
  events : BitVec 6 := 0
  deriving DecidableEq, Repr

end Sys2Proof.Machine
end

