-- ==== Sys2Proof/Machine/RegNames.lean ====
section
/-! DEFINITION. The registers the manual names, one constructor each (tables of the chapters, R13, R19). -/
namespace Sys2Proof.Machine

/-- The registers of the device. The pcvu registers are the check-value unit of a Darvo port (R522). -/
inductive RK where
  | tmpNow
  | tmpTime
  | tmpPeriod
  | tmpRole
  | tmpOffset
  | tmpEvent
  | tmpPortDelay
  | tmpStageCtrl
  | tmpStageTarget
  | tmpCommitStatus
  | tmpCommitAddr
  | tmpDmCtrl
  | tmpDmStatus
  | tmpBudget
  | tmpBudgetFb
  | meCtrl
  | meStatus
  | meFlags
  | meFlagsSnap
  | meColumn
  | mePerfBusy
  | mePerfLoad
  | mePerfRows
  | mePerfWait
  | veCtrl
  | veStatus
  | veFlags
  | veFlagsSnap
  | veSolveTol
  | veSolveStatus
  | vePerfBusy
  | vePerfWait
  | sqCtrl
  | sqStatus
  | sqPc
  | sqFault
  | sqFaultInsn
  | sqLate
  | sqPerfIssue
  | sqPerfStall
  | sqSreg
  | fteCtrl
  | fteStatus
  | ftePerfDeliv
  | ftePerfLoss
  | ftePerfLead
  | ftePerfWait
  | spdPwrReq
  | spdPwrState
  | spdEcc
  | spdEccInject
  | spdSpare
  | spdCfg
  | spdPerf
  | clkEnCore
  | grvPwrReq
  | grvPwrState
  | grvEcc
  | grvEccInject
  | grvSpare
  | grvCfg
  | grvPerf
  | grvFailing
  | dmaChRing
  | dmaChCtrl
  | dmaChStatus
  | dmaWinBase
  | dmaWinCfg
  | cvuCfg
  | cvuPoly
  | cvuInit
  | cvuState
  | cvuResult
  | cvuPos
  | cvuFoldBase
  | cvuSeq
  | cvuFeedAddr
  | cvuFeedLen
  | cvuCtrl
  | cvuStatus
  | semState
  | clkEnCluster
  | prtGenCtrl
  | prtGenEvent
  | prtGenRing
  | prtGenSlot
  | dmaInwinBase
  | dmaInwinCfg
  | dmaInwinStat
  | prtShape
  | prtRecovery
  | prtPrune
  | prtClusterSpare
  | prtCore
  | prtCtrl
  | prtCastleAt
  | prtStatus
  | prtLoad
  | prtLoadLen
  | prtHandover
  | prtHandoverRing
  | prtResume
  | prtRegHbm
  | prtRegGrv
  | prtRegStat
  | prtRegDvo
  | prtFault
  | cgKey
  | cgCtr0
  | cgCtr1
  | cgOut0
  | cgOut1
  | clkPll
  | pwrCfg
  | pwrPkg
  | pwrTile
  | pwrTemp
  | secState
  | secBoot
  | secCtrl
  | secLock
  | secTokenStatus
  | secNonce
  | secNonceIn
  | secOwner
  | secMeas
  | secTokenBuf
  | secReport
  | dbgStatus
  | hubHart
  | hubWdog
  | hubEvq
  | hubIrq
  | hubMboxUpPush
  | hubMboxUpPop
  | hubMboxDownPush
  | hubMboxDownPop
  | hubMboxStat
  | hubRingBase
  | hubRingCfg
  | mgtStatus
  | mgtTxq
  | mgtRxq
  | mgtStats
  | hbmCfg
  | hbmStatus
  | hbmErrLog
  | hbmPerfRd
  | hbmPerfWr
  | hbmPerfHold
  | hbmTherm
  | hbmPcStat
  | hbmPcCe
  | hbmRetired
  | neaSlowStatus
  | neaMirrorCfg
  | neaPkg
  | neaCtxCtrl
  | neaCtxStatus
  | neaCtxRing
  | neaCtxCommit
  | neaCtxPeriod
  | neaCtxArea
  | neaCtxSeed
  | neaCtxFb
  | neaCtxImportRing
  | neaCtxMirror
  | neaGrpCfg
  | neaGrpHyp1
  | neaGrpHyp2
  | neaGrpHyp3
  | neaGrpStat
  | neaKernel
  | dvoCoord
  | dvoArb
  | dvoMesh
  | dvoStats
  | dvoLink
  | dvoLinkStat
  | dvoOvr
  | dvoPortCfg
  | dvoPortCtrl
  | dvoPortStatus
  | dvoPortErr
  | dvoPortViol
  | dvoPeStatus
  | pcvuCfg
  | pcvuPoly
  | pcvuInit
  | pcvuState
  | pcvuResult
  | pcvuPos
  | pcvuFoldBase
  | pcvuSeq
  | pcvuFeedAddr
  | pcvuFeedLen
  | pcvuCtrl
  | pcvuStatus
  | dvoRedCfg
  | dvoRedFirst
  | dvoRedPeriod
  | dvoRedRing0
  | dvoRedKey
  | dvoRedScale
  | dvoRedStatus
  | dvoRedEvent
  | dvoRedCount
  | dvoRedCheck
  | dvoRedLast
  deriving DecidableEq, Repr

/-- Access types of R14. -/
inductive AccType where
  | rw | ro | wo | w1c | rwt | rwl
  deriving DecidableEq, Repr

/-- A register field: bits and access type (R14, R19). Bits that no field names are reserved (R18). -/
structure RegField where
  hi : Nat
  lo : Nat
  acc : AccType
  deriving DecidableEq, Repr

/-- One register's row: first address, dimensions (count, stride, first index), fields and reset value. -/
structure RegRow where
  base : Nat
  dims : List (Nat × Nat × Nat)
  fields : List RegField
  reset : Nat
  deriving DecidableEq, Repr

end Sys2Proof.Machine
end

