-- ==== Sys2Proof/Machine/Regs.lean ====
section
/-! DEFINITION. Where every register lies, its fields with their access types, and its reset value, from the register
tables of the chapters (R13, R14, R18, R19). -/
namespace Sys2Proof.Machine

/-- The register tables. Each arm: first address, dimensions, fields, reset value; its rule stands in INVENTORY.md. -/
def RK.row (k : RK) : RegRow :=
  match k with
  | .tmpNow => ⟨0xF0000100000, [], [⟨63, 0, .ro⟩], 0x0⟩  -- R61
  | .tmpTime => ⟨0xF0000100008, [], [⟨19, 0, .ro⟩], 0x0⟩  -- R62
  | .tmpPeriod => ⟨0xF0000100010, [], [⟨10, 0, .rwt⟩, ⟨26, 16, .ro⟩, ⟨63, 32, .ro⟩], 0x10⟩  -- R63
  | .tmpRole => ⟨0xF0000100018, [], [⟨7, 0, .rwl⟩, ⟨10, 8, .ro⟩, ⟨12, 11, .ro⟩, ⟨17, 13, .rw⟩, ⟨18, 18, .rw⟩, ⟨37, 20, .ro⟩, ⟨55, 38, .ro⟩, ⟨63, 56, .ro⟩], 0xFF⟩  -- R64
  | .tmpOffset => ⟨0xF0000100020, [], [⟨31, 0, .ro⟩, ⟨63, 32, .ro⟩], 0x0⟩  -- R65
  | .tmpEvent => ⟨0xF0000100028, [], [⟨0, 0, .w1c⟩, ⟨1, 1, .w1c⟩, ⟨2, 2, .w1c⟩, ⟨3, 3, .w1c⟩, ⟨4, 4, .w1c⟩, ⟨5, 5, .w1c⟩, ⟨6, 6, .w1c⟩], 0x0⟩  -- R66
  | .tmpPortDelay => ⟨0xF0000100100, [(24, 0x8, 0)], [⟨31, 0, .ro⟩, ⟨47, 32, .rw⟩, ⟨63, 63, .ro⟩], 0x0⟩  -- R67
  | .tmpStageCtrl => ⟨0xF0000100200, [(5, 0x20, 0)], [⟨0, 0, .wo⟩, ⟨28, 16, .ro⟩, ⟨29, 29, .ro⟩], 0x0⟩  -- R68
  | .tmpStageTarget => ⟨0xF0000100208, [(5, 0x20, 0)], [⟨63, 0, .rw⟩], 0x0⟩  -- R69
  | .tmpCommitStatus => ⟨0xF0000100210, [(5, 0x20, 0)], [⟨1, 0, .ro⟩, ⟨7, 4, .ro⟩, ⟨39, 8, .ro⟩], 0x0⟩  -- R70
  | .tmpCommitAddr => ⟨0xF0000100218, [(5, 0x20, 0)], [⟨47, 0, .ro⟩, ⟨53, 48, .ro⟩], 0x0⟩  -- R71
  | .tmpDmCtrl => ⟨0xF0000100300, [(4, 0x20, 0)], [⟨0, 0, .ro⟩, ⟨1, 1, .rw⟩, ⟨7, 4, .rw⟩, ⟨9, 8, .ro⟩, ⟨10, 10, .ro⟩, ⟨11, 11, .rwt⟩], 0x11⟩  -- R72
  | .tmpDmStatus => ⟨0xF0000100308, [(4, 0x20, 0)], [⟨31, 0, .ro⟩, ⟨47, 32, .ro⟩, ⟨56, 48, .ro⟩], 0x0⟩  -- R73
  | .tmpBudget => ⟨0xF0000100310, [(4, 0x20, 0)], [⟨31, 0, .ro⟩, ⟨42, 32, .ro⟩, ⟨55, 44, .ro⟩], 0x0⟩  -- R74
  | .tmpBudgetFb => ⟨0xF0000100318, [(4, 0x20, 0)], [⟨31, 0, .ro⟩, ⟨63, 32, .ro⟩], 0x0⟩  -- R75
  | .meCtrl => ⟨0xF0010000000, [(384, 0x10000, 0)], [⟨0, 0, .wo⟩, ⟨1, 1, .wo⟩, ⟨2, 2, .wo⟩], 0x0⟩  -- R140
  | .meStatus => ⟨0xF0010000008, [(384, 0x10000, 0)], [⟨0, 0, .ro⟩, ⟨1, 1, .ro⟩, ⟨2, 2, .ro⟩, ⟨3, 3, .ro⟩, ⟨12, 8, .ro⟩, ⟨19, 13, .ro⟩, ⟨26, 20, .ro⟩, ⟨37, 32, .ro⟩, ⟨63, 48, .ro⟩], 0x0⟩  -- R141
  | .meFlags => ⟨0xF0010000010, [(384, 0x10000, 0)], [⟨0, 0, .w1c⟩, ⟨1, 1, .w1c⟩, ⟨2, 2, .w1c⟩, ⟨3, 3, .w1c⟩, ⟨4, 4, .w1c⟩, ⟨5, 5, .w1c⟩], 0x0⟩  -- R142
  | .meFlagsSnap => ⟨0xF0010000018, [(384, 0x10000, 0)], [⟨5, 0, .ro⟩, ⟨63, 32, .ro⟩], 0x0⟩  -- R143
  | .meColumn => ⟨0xF0010000020, [(384, 0x10000, 0)], [⟨4, 0, .ro⟩, ⟨5, 5, .ro⟩, ⟨6, 6, .ro⟩, ⟨7, 7, .ro⟩, ⟨12, 8, .ro⟩, ⟨31, 16, .ro⟩, ⟨36, 32, .ro⟩], 0x1F00001F1F⟩  -- R144
  | .mePerfBusy => ⟨0xF0010000028, [(384, 0x10000, 0)], [⟨63, 0, .rw⟩], 0x0⟩  -- R145
  | .mePerfLoad => ⟨0xF0010000030, [(384, 0x10000, 0)], [⟨63, 0, .rw⟩], 0x0⟩  -- R146
  | .mePerfRows => ⟨0xF0010000038, [(384, 0x10000, 0)], [⟨63, 0, .rw⟩], 0x0⟩  -- R147
  | .mePerfWait => ⟨0xF0010000040, [(384, 0x10000, 0)], [⟨31, 0, .rw⟩, ⟨63, 32, .rw⟩], 0x0⟩  -- R148
  | .veCtrl => ⟨0xF0010000100, [(384, 0x10000, 0)], [⟨0, 0, .wo⟩, ⟨1, 1, .wo⟩], 0x0⟩  -- R173
  | .veStatus => ⟨0xF0010000108, [(384, 0x10000, 0)], [⟨0, 0, .ro⟩, ⟨1, 1, .ro⟩, ⟨2, 2, .ro⟩, ⟨13, 8, .ro⟩, ⟨28, 16, .ro⟩, ⟨63, 48, .ro⟩], 0x0⟩  -- R174
  | .veFlags => ⟨0xF0010000110, [(384, 0x10000, 0)], [⟨0, 0, .w1c⟩, ⟨1, 1, .w1c⟩, ⟨2, 2, .w1c⟩, ⟨3, 3, .w1c⟩, ⟨4, 4, .ro⟩, ⟨5, 5, .w1c⟩, ⟨6, 6, .w1c⟩], 0x0⟩  -- R175
  | .veFlagsSnap => ⟨0xF0010000118, [(384, 0x10000, 0)], [⟨6, 0, .ro⟩, ⟨63, 32, .ro⟩], 0x0⟩  -- R176
  | .veSolveTol => ⟨0xF0010000120, [(384, 0x10000, 0)], [⟨31, 0, .rw⟩], 0x0⟩  -- R177
  | .veSolveStatus => ⟨0xF0010000128, [(384, 0x10000, 0)], [⟨31, 0, .rw⟩, ⟨47, 32, .rw⟩, ⟨63, 48, .rw⟩], 0x0⟩  -- R178
  | .vePerfBusy => ⟨0xF0010000130, [(384, 0x10000, 0)], [⟨63, 0, .rw⟩], 0x0⟩  -- R179
  | .vePerfWait => ⟨0xF0010000138, [(384, 0x10000, 0)], [⟨31, 0, .rw⟩, ⟨63, 32, .rw⟩], 0x0⟩  -- R180
  | .sqCtrl => ⟨0xF0010000200, [(384, 0x10000, 0)], [⟨0, 0, .wo⟩, ⟨1, 1, .wo⟩], 0x0⟩  -- R241
  | .sqStatus => ⟨0xF0010000208, [(384, 0x10000, 0)], [⟨2, 0, .ro⟩, ⟨5, 3, .ro⟩, ⟨8, 6, .ro⟩, ⟨11, 9, .ro⟩, ⟨15, 12, .ro⟩, ⟨31, 24, .ro⟩, ⟨37, 32, .ro⟩, ⟨45, 40, .ro⟩, ⟨53, 48, .ro⟩], 0x1000000⟩  -- R242
  | .sqPc => ⟨0xF0010000210, [(384, 0x10000, 0)], [⟨13, 0, .rw⟩, ⟨45, 32, .ro⟩], 0x0⟩  -- R243
  | .sqFault => ⟨0xF0010000218, [(384, 0x10000, 0)], [⟨15, 0, .ro⟩, ⟨29, 16, .ro⟩, ⟨47, 32, .ro⟩], 0x0⟩  -- R244
  | .sqFaultInsn => ⟨0xF0010000220, [(384, 0x10000, 0)], [⟨63, 0, .ro⟩], 0x0⟩  -- R245
  | .sqLate => ⟨0xF0010000228, [(384, 0x10000, 0)], [⟨31, 0, .ro⟩, ⟨63, 32, .ro⟩], 0x0⟩  -- R246
  | .sqPerfIssue => ⟨0xF0010000230, [(384, 0x10000, 0)], [⟨31, 0, .rw⟩, ⟨63, 32, .rw⟩], 0x0⟩  -- R247
  | .sqPerfStall => ⟨0xF0010000238, [(384, 0x10000, 0)], [⟨31, 0, .rw⟩, ⟨63, 32, .rw⟩], 0x0⟩  -- R248
  | .sqSreg => ⟨0xF0010000800, [(384, 0x10000, 0), (32, 0x8, 0)], [⟨63, 0, .ro⟩], 0x0⟩  -- R249
  | .fteCtrl => ⟨0xF0010000300, [(384, 0x10000, 0)], [⟨0, 0, .wo⟩, ⟨1, 1, .wo⟩], 0x0⟩  -- R338
  | .fteStatus => ⟨0xF0010000308, [(384, 0x10000, 0)], [⟨0, 0, .ro⟩, ⟨1, 1, .ro⟩, ⟨13, 8, .ro⟩, ⟨25, 16, .ro⟩, ⟨63, 48, .ro⟩], 0x0⟩  -- R339
  | .ftePerfDeliv => ⟨0xF0010000310, [(384, 0x10000, 0)], [⟨63, 0, .rw⟩], 0x0⟩  -- R340
  | .ftePerfLoss => ⟨0xF0010000318, [(384, 0x10000, 0)], [⟨31, 0, .rw⟩, ⟨63, 32, .rw⟩], 0x0⟩  -- R341
  | .ftePerfLead => ⟨0xF0010000320, [(384, 0x10000, 0)], [⟨31, 0, .rw⟩, ⟨63, 32, .rw⟩], 0x0⟩  -- R342
  | .ftePerfWait => ⟨0xF0010000328, [(384, 0x10000, 0)], [⟨31, 0, .rw⟩, ⟨63, 32, .rw⟩], 0x0⟩  -- R343
  | .spdPwrReq => ⟨0xF0010000400, [(384, 0x10000, 0)], [⟨63, 0, .rw⟩], 0x0⟩  -- R307
  | .spdPwrState => ⟨0xF0010000408, [(384, 0x10000, 0), (2, 0x8, 0)], [⟨63, 0, .ro⟩], 0x0⟩  -- R308
  | .spdEcc => ⟨0xF0010000418, [(384, 0x10000, 0)], [⟨15, 0, .rw⟩, ⟨31, 16, .rw⟩, ⟨36, 32, .ro⟩, ⟨46, 37, .ro⟩, ⟨49, 47, .ro⟩, ⟨50, 50, .ro⟩], 0x0⟩  -- R309
  | .spdEccInject => ⟨0xF0010000420, [(384, 0x10000, 0)], [⟨0, 0, .rw⟩, ⟨5, 1, .rw⟩, ⟨15, 6, .rw⟩, ⟨18, 16, .rw⟩, ⟨20, 19, .rw⟩, ⟨27, 21, .rw⟩, ⟨34, 28, .rw⟩, ⟨41, 35, .rw⟩], 0x0⟩  -- R310
  | .spdSpare => ⟨0xF0010000428, [(384, 0x10000, 0)], [⟨2, 0, .ro⟩, ⟨13, 8, .ro⟩, ⟨19, 14, .ro⟩, ⟨25, 20, .ro⟩, ⟨31, 26, .ro⟩, ⟨63, 32, .ro⟩], 0xFFFFFF00⟩  -- R311
  | .spdCfg => ⟨0xF0010000430, [(384, 0x10000, 0)], [⟨7, 0, .rwl⟩, ⟨8, 8, .rw⟩], 0x140⟩  -- R312
  | .spdPerf => ⟨0xF0010000438, [(384, 0x10000, 0)], [⟨31, 0, .rw⟩, ⟨63, 32, .rw⟩], 0x0⟩  -- R313
  | .clkEnCore => ⟨0xF0010000500, [(384, 0x10000, 0)], [⟨0, 0, .rw⟩, ⟨1, 1, .rw⟩, ⟨2, 2, .rw⟩, ⟨9, 8, .ro⟩, ⟨11, 10, .ro⟩, ⟨13, 12, .ro⟩, ⟨18, 16, .ro⟩], 0x0⟩  -- R575
  | .grvPwrReq => ⟨0xF0018000000, [(16, 0x10000, 0), (3, 0x8, 0)], [⟨63, 0, .rw⟩], 0x0⟩  -- R314
  | .grvPwrState => ⟨0xF0018000018, [(16, 0x10000, 0), (5, 0x8, 0)], [⟨63, 0, .ro⟩], 0x0⟩  -- R314
  | .grvEcc => ⟨0xF0018000040, [(16, 0x10000, 0)], [⟨15, 0, .rw⟩, ⟨31, 16, .rw⟩, ⟨38, 32, .ro⟩, ⟨51, 39, .ro⟩, ⟨54, 52, .ro⟩, ⟨55, 55, .ro⟩], 0x0⟩  -- R314
  | .grvEccInject => ⟨0xF0018000048, [(16, 0x10000, 0)], [⟨0, 0, .rw⟩, ⟨7, 1, .rw⟩, ⟨20, 8, .rw⟩, ⟨23, 21, .rw⟩, ⟨25, 24, .rw⟩, ⟨32, 26, .rw⟩, ⟨39, 33, .rw⟩, ⟨46, 40, .rw⟩], 0x0⟩  -- R314
  | .grvSpare => ⟨0xF0018000050, [(16, 0x10000, 0)], [⟨2, 0, .ro⟩, ⟨14, 8, .ro⟩, ⟨21, 15, .ro⟩, ⟨28, 22, .ro⟩, ⟨35, 29, .ro⟩, ⟨42, 36, .ro⟩], 0x50FFFFFFF00⟩  -- R314
  | .grvCfg => ⟨0xF0018000068, [(16, 0x10000, 0)], [⟨7, 0, .rwl⟩, ⟨8, 8, .rw⟩], 0x140⟩  -- R314
  | .grvPerf => ⟨0xF0018000070, [(16, 0x10000, 0)], [⟨31, 0, .rw⟩, ⟨63, 32, .rw⟩], 0x0⟩  -- R314
  | .grvFailing => ⟨0xF0018000058, [(16, 0x10000, 0), (2, 0x8, 0)], [⟨63, 0, .ro⟩], 0x0⟩  -- R314
  | .dmaChRing => ⟨0xF0018008000, [(16, 0x10000, 0), (16, 0x20, 0)], [⟨47, 0, .rwt⟩, ⟨52, 48, .rwt⟩], 0x5000000000000⟩  -- R344
  | .dmaChCtrl => ⟨0xF0018008008, [(16, 0x10000, 0), (16, 0x20, 0)], [⟨0, 0, .rwt⟩, ⟨1, 1, .wo⟩, ⟨16, 8, .ro⟩, ⟨63, 32, .ro⟩], 0x1FF00⟩  -- R345
  | .dmaChStatus => ⟨0xF0018008010, [(16, 0x10000, 0), (16, 0x20, 0)], [⟨2, 0, .ro⟩, ⟨5, 3, .ro⟩, ⟨13, 8, .ro⟩, ⟨31, 16, .ro⟩, ⟨47, 32, .rw⟩, ⟨63, 48, .ro⟩], 0x0⟩  -- R346
  | .dmaWinBase => ⟨0xF0018008400, [(16, 0x10000, 0), (64, 0x10, 1)], [⟨47, 0, .rw⟩], 0x0⟩  -- R347
  | .dmaWinCfg => ⟨0xF0018008408, [(16, 0x10000, 0), (64, 0x10, 1)], [⟨17, 0, .rw⟩, ⟨18, 18, .rw⟩, ⟨19, 19, .rw⟩, ⟨63, 24, .rw⟩], 0x0⟩  -- R347
  | .cvuCfg => ⟨0xF001800A000, [(16, 0x10000, 0), (2, 0x100, 0)], [⟨6, 0, .rw⟩, ⟨7, 7, .rw⟩, ⟨8, 8, .rw⟩, ⟨9, 9, .rw⟩, ⟨11, 10, .rw⟩], 0x3A0⟩  -- R522
  | .cvuPoly => ⟨0xF001800A008, [(16, 0x10000, 0), (2, 0x100, 0)], [⟨63, 0, .rw⟩], 0x1EDC6F41⟩  -- R522
  | .cvuInit => ⟨0xF001800A010, [(16, 0x10000, 0), (2, 0x100, 0)], [⟨63, 0, .rw⟩], 0xFFFFFFFF⟩  -- R522
  | .cvuState => ⟨0xF001800A018, [(16, 0x10000, 0), (2, 0x100, 0)], [⟨63, 0, .rw⟩], 0xFFFFFFFF⟩  -- R522
  | .cvuResult => ⟨0xF001800A020, [(16, 0x10000, 0), (2, 0x100, 0)], [⟨63, 0, .ro⟩], 0x0⟩  -- R522
  | .cvuPos => ⟨0xF001800A028, [(16, 0x10000, 0), (2, 0x100, 0)], [⟨63, 0, .rw⟩], 0x0⟩  -- R522
  | .cvuFoldBase => ⟨0xF001800A030, [(16, 0x10000, 0), (2, 0x100, 0)], [⟨63, 0, .rw⟩], 0x0⟩  -- R522
  | .cvuSeq => ⟨0xF001800A038, [(16, 0x10000, 0), (2, 0x100, 0)], [⟨63, 0, .rw⟩], 0x0⟩  -- R522
  | .cvuFeedAddr => ⟨0xF001800A040, [(16, 0x10000, 0), (2, 0x100, 0)], [⟨47, 0, .rw⟩], 0x0⟩  -- R522
  | .cvuFeedLen => ⟨0xF001800A048, [(16, 0x10000, 0), (2, 0x100, 0)], [⟨39, 0, .rw⟩], 0x0⟩  -- R522
  | .cvuCtrl => ⟨0xF001800A050, [(16, 0x10000, 0), (2, 0x100, 0)], [⟨0, 0, .wo⟩, ⟨1, 1, .wo⟩], 0x0⟩  -- R522
  | .cvuStatus => ⟨0xF001800A058, [(16, 0x10000, 0), (2, 0x100, 0)], [⟨0, 0, .ro⟩, ⟨1, 1, .ro⟩, ⟨63, 48, .ro⟩], 0x0⟩  -- R522
  | .semState => ⟨0xF001800C000, [(16, 0x10000, 0), (1024, 0x8, 0)], [⟨15, 0, .rw⟩, ⟨16, 16, .w1c⟩, ⟨25, 17, .rw⟩, ⟨26, 26, .ro⟩], 0x3FE0000⟩  -- R556
  | .clkEnCluster => ⟨0xF001800E000, [(16, 0x10000, 0)], [⟨0, 0, .rw⟩, ⟨1, 1, .rw⟩, ⟨2, 2, .rw⟩, ⟨9, 8, .ro⟩, ⟨11, 10, .ro⟩, ⟨13, 12, .ro⟩, ⟨18, 16, .ro⟩], 0x0⟩  -- R575
  | .prtGenCtrl => ⟨0xF0000300000, [(4, 0x2000, 0)], [⟨6, 0, .ro⟩, ⟨7, 7, .ro⟩, ⟨13, 8, .ro⟩, ⟨47, 32, .ro⟩, ⟨53, 48, .ro⟩], 0x0⟩  -- R205
  | .prtGenEvent => ⟨0xF0000300008, [(4, 0x2000, 0)], [⟨0, 0, .w1c⟩, ⟨1, 1, .w1c⟩, ⟨2, 2, .w1c⟩, ⟨3, 3, .w1c⟩, ⟨4, 4, .w1c⟩, ⟨5, 5, .w1c⟩], 0x0⟩  -- R206
  | .prtGenRing => ⟨0xF0000300100, [(4, 0x2000, 0), (128, 0x20, 0)], [⟨63, 0, .ro⟩], 0xFFFFFFFFFFFFFFFF⟩  -- R207
  | .prtGenSlot => ⟨0xF0000300108, [(4, 0x2000, 0), (128, 0x20, 0)], [⟨15, 0, .ro⟩, ⟨17, 16, .ro⟩, ⟨18, 18, .ro⟩, ⟨19, 19, .ro⟩, ⟨49, 32, .ro⟩, ⟨63, 50, .ro⟩], 0x0⟩  -- R208
  | .dmaInwinBase => ⟨0xF0000400000, [(4, 0x1000, 0), (64, 0x10, 0)], [⟨47, 0, .rw⟩], 0x0⟩  -- R348
  | .dmaInwinCfg => ⟨0xF0000400008, [(4, 0x1000, 0), (64, 0x10, 0)], [⟨17, 0, .rw⟩, ⟨18, 18, .rw⟩, ⟨19, 19, .rw⟩, ⟨20, 20, .rw⟩, ⟨63, 24, .rw⟩], 0x0⟩  -- R348
  | .dmaInwinStat => ⟨0xF0000400800, [(4, 0x1000, 0)], [⟨31, 0, .rw⟩, ⟨49, 32, .ro⟩], 0x0⟩  -- R348
  | .prtShape => ⟨0xF0000500000, [], [⟨1, 0, .rwt⟩], 0x0⟩  -- R503
  | .prtRecovery => ⟨0xF0000500008, [], [⟨3, 0, .ro⟩, ⟨4, 4, .ro⟩, ⟨47, 16, .rw⟩, ⟨63, 48, .ro⟩], 0x0⟩  -- R551
  | .prtPrune => ⟨0xF0000500010, [], [⟨8, 0, .rw⟩, ⟨15, 15, .wo⟩], 0x1FF⟩  -- R552
  | .prtClusterSpare => ⟨0xF0000500100, [(16, 0x8, 0)], [⟨4, 0, .ro⟩, ⟨7, 5, .ro⟩, ⟨31, 8, .ro⟩], 0x98⟩  -- R553
  | .prtCore => ⟨0xF0000500200, [(448, 0x8, 0)], [⟨4, 0, .ro⟩, ⟨7, 5, .ro⟩, ⟨23, 8, .ro⟩, ⟨31, 24, .ro⟩], 0x0⟩  -- R554
  | .prtCtrl => ⟨0xF0000501000, [(4, 0x1000, 0)], [⟨0, 0, .wo⟩, ⟨1, 1, .wo⟩, ⟨2, 2, .wo⟩], 0x0⟩  -- R504
  | .prtCastleAt => ⟨0xF0000501008, [(4, 0x1000, 0)], [⟨63, 0, .rw⟩], 0x0⟩  -- R505
  | .prtStatus => ⟨0xF0000501010, [(4, 0x1000, 0)], [⟨2, 0, .ro⟩, ⟨3, 3, .ro⟩, ⟨4, 4, .ro⟩, ⟨11, 8, .ro⟩, ⟨47, 16, .ro⟩], 0x0⟩  -- R506
  | .prtLoad => ⟨0xF0000501018, [(4, 0x1000, 0)], [⟨47, 0, .rw⟩], 0x0⟩  -- R507
  | .prtLoadLen => ⟨0xF0000501020, [(4, 0x1000, 0)], [⟨31, 0, .rw⟩], 0x0⟩  -- R507
  | .prtHandover => ⟨0xF0000501028, [(4, 0x1000, 0)], [⟨31, 0, .ro⟩, ⟨32, 32, .ro⟩, ⟨63, 48, .ro⟩], 0x0⟩  -- R508
  | .prtHandoverRing => ⟨0xF0000501030, [(4, 0x1000, 0)], [⟨63, 0, .ro⟩], 0xFFFFFFFFFFFFFFFF⟩  -- R509
  | .prtResume => ⟨0xF0000501038, [(4, 0x1000, 0)], [⟨63, 0, .ro⟩], 0xFFFFFFFFFFFFFFFF⟩  -- R509
  | .prtRegHbm => ⟨0xF0000501100, [(4, 0x1000, 0)], [⟨15, 0, .rwt⟩, ⟨31, 16, .rwt⟩, ⟨32, 32, .rwt⟩], 0x1000000⟩  -- R510
  | .prtRegGrv => ⟨0xF0000501108, [(4, 0x1000, 0)], [⟨15, 0, .rwt⟩, ⟨31, 16, .rwt⟩, ⟨32, 32, .rwt⟩], 0x1000000⟩  -- R510
  | .prtRegStat => ⟨0xF0000501110, [(4, 0x1000, 0)], [⟨31, 0, .rw⟩, ⟨47, 32, .rw⟩, ⟨63, 48, .rw⟩], 0x0⟩  -- R511
  | .prtRegDvo => ⟨0xF0000501200, [(4, 0x1000, 0), (24, 0x8, 0)], [⟨15, 0, .rwt⟩, ⟨31, 16, .rwt⟩, ⟨32, 32, .rwt⟩], 0x1000000⟩  -- R510
  | .prtFault => ⟨0xF0000501300, [(4, 0x1000, 0)], [⟨8, 0, .ro⟩, ⟨31, 16, .ro⟩, ⟨63, 32, .ro⟩], 0x1FF⟩  -- R555
  | .cgKey => ⟨0xF0000600000, [], [⟨63, 0, .rw⟩], 0x0⟩  -- R527
  | .cgCtr0 => ⟨0xF0000600008, [], [⟨63, 0, .rw⟩], 0x0⟩  -- R527
  | .cgCtr1 => ⟨0xF0000600010, [], [⟨63, 0, .rw⟩], 0x0⟩  -- R527
  | .cgOut0 => ⟨0xF0000600018, [], [⟨63, 0, .ro⟩], 0x6956081DE5693B5C⟩  -- R527
  | .cgOut1 => ⟨0xF0000600020, [], [⟨63, 0, .ro⟩], 0x594B708F18009BAE⟩  -- R527
  | .clkPll => ⟨0xF0000700000, [(4, 0x8, 0)], [⟨0, 0, .ro⟩, ⟨1, 1, .ro⟩, ⟨2, 2, .ro⟩, ⟨15, 8, .ro⟩], 0x0⟩  -- R576
  | .pwrCfg => ⟨0xF0000800000, [], [⟨2, 0, .rwl⟩, ⟨11, 4, .rwl⟩, ⟨27, 12, .rwl⟩, ⟨35, 28, .rwl⟩], 0xC80BB8643⟩  -- R577
  | .pwrPkg => ⟨0xF0000800008, [], [⟨15, 0, .ro⟩, ⟨31, 16, .ro⟩], 0x0⟩  -- R578
  | .pwrTile => ⟨0xF0000800100, [(4, 0x8, 0)], [⟨2, 0, .rwt⟩, ⟨5, 3, .ro⟩, ⟨8, 6, .ro⟩, ⟨10, 9, .rwt⟩, ⟨12, 11, .ro⟩, ⟨13, 13, .ro⟩, ⟨14, 14, .ro⟩, ⟨15, 15, .ro⟩], 0x0⟩  -- R579
  | .pwrTemp => ⟨0xF0000800140, [(4, 0x8, 0)], [⟨7, 0, .ro⟩, ⟨9, 8, .ro⟩, ⟨23, 16, .ro⟩, ⟨29, 24, .ro⟩], 0x0⟩  -- R580
  | .secState => ⟨0xF0000900000, [], [⟨2, 0, .ro⟩, ⟨6, 3, .ro⟩, ⟨7, 7, .ro⟩, ⟨9, 8, .ro⟩], 0x0⟩  -- R602
  | .secBoot => ⟨0xF0000900008, [], [⟨2, 0, .ro⟩, ⟨3, 3, .ro⟩, ⟨6, 4, .ro⟩, ⟨63, 32, .ro⟩], 0x0⟩  -- R603
  | .secCtrl => ⟨0xF0000900010, [], [⟨0, 0, .wo⟩, ⟨1, 1, .wo⟩, ⟨2, 2, .wo⟩, ⟨3, 3, .wo⟩, ⟨4, 4, .wo⟩, ⟨5, 5, .wo⟩, ⟨7, 6, .wo⟩, ⟨8, 8, .wo⟩], 0x0⟩  -- R604
  | .secLock => ⟨0xF0000900018, [], [⟨5, 0, .ro⟩, ⟨13, 8, .wo⟩], 0x0⟩  -- R605
  | .secTokenStatus => ⟨0xF0000900020, [], [⟨1, 0, .ro⟩, ⟨7, 4, .ro⟩, ⟨47, 16, .ro⟩], 0x0⟩  -- R606
  | .secNonce => ⟨0xF0000900040, [(4, 0x8, 0)], [⟨63, 0, .ro⟩], 0x0⟩  -- R607
  | .secNonceIn => ⟨0xF0000900080, [(8, 0x8, 0)], [⟨63, 0, .rw⟩], 0x0⟩  -- R607
  | .secOwner => ⟨0xF00009000C0, [(8, 0x8, 0)], [⟨63, 0, .rw⟩], 0x0⟩  -- R607
  | .secMeas => ⟨0xF0000900100, [(8, 0x40, 0), (8, 0x8, 0)], [⟨63, 0, .ro⟩], 0x0⟩  -- R607
  | .secTokenBuf => ⟨0xF0000901000, [(1024, 0x8, 0)], [⟨63, 0, .wo⟩], 0x0⟩  -- R607
  | .secReport => ⟨0xF0000903000, [(1024, 0x8, 0)], [⟨63, 0, .ro⟩], 0x0⟩  -- R607
  | .dbgStatus => ⟨0xF0000A00000, [], [⟨0, 0, .ro⟩, ⟨1, 1, .ro⟩, ⟨4, 2, .ro⟩, ⟨23, 8, .rw⟩, ⟨63, 32, .ro⟩], 0x0⟩  -- R608
  | .hubHart => ⟨0xF0000B00000, [(16, 0x8, 0)], [⟨3, 0, .ro⟩, ⟨6, 4, .ro⟩, ⟨63, 32, .ro⟩], 0x0⟩  -- R623
  | .hubWdog => ⟨0xF0000B00080, [], [⟨0, 0, .wo⟩, ⟨31, 16, .rwl⟩, ⟨63, 32, .rwl⟩], 0x10000000⟩  -- R624
  | .hubEvq => ⟨0xF0000B00088, [], [⟨27, 0, .rw⟩, ⟨31, 28, .rw⟩, ⟨46, 32, .ro⟩, ⟨62, 48, .rw⟩], 0xC0000000⟩  -- R625
  | .hubIrq => ⟨0xF0000B00090, [], [⟨5, 0, .rw⟩, ⟨6, 6, .rw⟩, ⟨7, 7, .w1c⟩, ⟨21, 8, .rw⟩, ⟨63, 32, .rw⟩], 0x138⟩  -- R625
  | .hubMboxUpPush => ⟨0xF0000B01000, [(4, 0x1000, 0)], [⟨63, 0, .wo⟩], 0x0⟩  -- R626
  | .hubMboxUpPop => ⟨0xF0000B01008, [(4, 0x1000, 0)], [⟨63, 0, .ro⟩], 0x0⟩  -- R626
  | .hubMboxDownPush => ⟨0xF0000B01010, [(4, 0x1000, 0)], [⟨63, 0, .wo⟩], 0x0⟩  -- R626
  | .hubMboxDownPop => ⟨0xF0000B01018, [(4, 0x1000, 0)], [⟨63, 0, .ro⟩], 0x0⟩  -- R626
  | .hubMboxStat => ⟨0xF0000B01020, [(4, 0x1000, 0)], [⟨6, 0, .ro⟩, ⟨14, 8, .ro⟩, ⟨31, 16, .rw⟩], 0x0⟩  -- R627
  | .hubRingBase => ⟨0xF0000B01100, [(4, 0x1000, 0), (8, 0x10, 0)], [⟨47, 0, .rwt⟩, ⟨52, 48, .rwt⟩], 0x5000000000000⟩  -- R628
  | .hubRingCfg => ⟨0xF0000B01108, [(4, 0x1000, 0), (8, 0x10, 0)], [⟨13, 0, .rwt⟩, ⟨14, 14, .rwt⟩, ⟨31, 16, .rwt⟩, ⟨63, 32, .rw⟩], 0x0⟩  -- R628
  | .mgtStatus => ⟨0xF0000C00000, [], [⟨0, 0, .ro⟩, ⟨2, 1, .ro⟩, ⟨63, 16, .ro⟩], 0x0⟩  -- R629
  | .mgtTxq => ⟨0xF0000C00008, [], [⟨27, 0, .rw⟩, ⟨31, 28, .rw⟩, ⟨43, 32, .ro⟩, ⟨55, 44, .rw⟩], 0x80000000⟩  -- R629
  | .mgtRxq => ⟨0xF0000C00010, [], [⟨27, 0, .rw⟩, ⟨31, 28, .rw⟩, ⟨43, 32, .ro⟩, ⟨55, 44, .rw⟩], 0x80000000⟩  -- R629
  | .mgtStats => ⟨0xF0000C00018, [], [⟨31, 0, .rw⟩, ⟨63, 32, .rw⟩], 0x0⟩  -- R629
  | .hbmCfg => ⟨0xF0020000000, [(4, 0x100000, 0)], [⟨7, 0, .rwl⟩, ⟨23, 8, .rwl⟩, ⟨24, 24, .rw⟩], 0x1040008⟩  -- R366
  | .hbmStatus => ⟨0xF0020000008, [(4, 0x100000, 0)], [⟨6, 0, .ro⟩, ⟨7, 7, .ro⟩, ⟨23, 8, .ro⟩, ⟨35, 24, .ro⟩, ⟨42, 36, .ro⟩, ⟨43, 43, .ro⟩], 0x7F000D80060⟩  -- R367
  | .hbmErrLog => ⟨0xF0020000010, [(4, 0x100000, 0)], [⟨2, 0, .ro⟩, ⟨9, 3, .ro⟩, ⟨15, 10, .ro⟩, ⟨30, 16, .ro⟩, ⟨34, 31, .ro⟩, ⟨40, 35, .ro⟩], 0x1F800000000⟩  -- R368
  | .hbmPerfRd => ⟨0xF0020000018, [(4, 0x100000, 0)], [⟨63, 0, .rw⟩], 0x0⟩  -- R369
  | .hbmPerfWr => ⟨0xF0020000020, [(4, 0x100000, 0)], [⟨63, 0, .rw⟩], 0x0⟩  -- R369
  | .hbmPerfHold => ⟨0xF0020000028, [(4, 0x100000, 0)], [⟨31, 0, .rw⟩, ⟨63, 32, .rw⟩], 0x0⟩  -- R369
  | .hbmTherm => ⟨0xF0020000100, [(4, 0x100000, 0), (3, 0x8, 0)], [⟨7, 0, .ro⟩, ⟨10, 8, .ro⟩, ⟨14, 12, .ro⟩, ⟨23, 16, .ro⟩, ⟨63, 32, .ro⟩], 0x0⟩  -- R370
  | .hbmPcStat => ⟨0xF0020001000, [(4, 0x100000, 0), (96, 0x10, 0)], [⟨6, 0, .ro⟩, ⟨11, 8, .ro⟩, ⟨24, 12, .ro⟩, ⟨29, 25, .ro⟩, ⟨35, 30, .ro⟩, ⟨41, 36, .ro⟩, ⟨45, 42, .ro⟩], 0x3FFC0000000⟩  -- R371
  | .hbmPcCe => ⟨0xF0020001008, [(4, 0x100000, 0), (96, 0x10, 0)], [⟨31, 0, .rw⟩, ⟨47, 32, .rw⟩, ⟨63, 48, .rw⟩], 0x0⟩  -- R371
  | .hbmRetired => ⟨0xF0020004000, [(4, 0x100000, 0), (3072, 0x8, 0)], [⟨15, 0, .ro⟩, ⟨16, 16, .ro⟩], 0x0⟩  -- R372
  | .neaSlowStatus => ⟨0xF0028000000, [], [⟨3, 0, .ro⟩, ⟨5, 4, .ro⟩, ⟨6, 6, .ro⟩, ⟨15, 8, .ro⟩, ⟨25, 16, .ro⟩], 0x2000028⟩  -- R403
  | .neaMirrorCfg => ⟨0xF0028000008, [], [⟨17, 0, .rwt⟩, ⟨18, 18, .rwt⟩, ⟨47, 32, .rwt⟩, ⟨55, 48, .rwt⟩, ⟨63, 56, .rwt⟩], 0x10000100000000⟩  -- R404
  | .neaPkg => ⟨0xF0028000100, [(10, 0x8, 0)], [⟨2, 0, .ro⟩, ⟨7, 4, .ro⟩, ⟨15, 8, .rwl⟩, ⟨31, 16, .rw⟩, ⟨47, 32, .rw⟩, ⟨55, 48, .ro⟩], 0x4000⟩  -- R405
  | .neaCtxCtrl => ⟨0xF0028010000, [(8, 0x10000, 0)], [⟨1, 0, .rw⟩, ⟨2, 2, .rw⟩, ⟨3, 3, .rw⟩, ⟨4, 4, .wo⟩, ⟨5, 5, .wo⟩, ⟨6, 6, .wo⟩, ⟨7, 7, .wo⟩], 0x0⟩  -- R406
  | .neaCtxStatus => ⟨0xF0028010008, [(8, 0x10000, 0)], [⟨2, 0, .ro⟩, ⟨3, 3, .ro⟩, ⟨5, 4, .w1c⟩, ⟨6, 6, .ro⟩, ⟨15, 8, .ro⟩, ⟨47, 32, .ro⟩], 0x0⟩  -- R407
  | .neaCtxRing => ⟨0xF0028010010, [(8, 0x10000, 0)], [⟨63, 0, .ro⟩], 0xFFFFFFFFFFFFFFFF⟩  -- R408
  | .neaCtxCommit => ⟨0xF0028010018, [(8, 0x10000, 0)], [⟨63, 0, .rwt⟩], 0x0⟩  -- R408
  | .neaCtxPeriod => ⟨0xF0028010020, [(8, 0x10000, 0)], [⟨63, 0, .rwt⟩], 0x0⟩  -- R408
  | .neaCtxArea => ⟨0xF0028010028, [(8, 0x10000, 0)], [⟨63, 0, .rw⟩], 0x0⟩  -- R408
  | .neaCtxSeed => ⟨0xF0028010030, [(8, 0x10000, 0)], [⟨63, 0, .rwt⟩], 0x0⟩  -- R408
  | .neaCtxFb => ⟨0xF0028010038, [(8, 0x10000, 0)], [⟨63, 0, .rw⟩], 0x0⟩  -- R408
  | .neaCtxImportRing => ⟨0xF0028010040, [(8, 0x10000, 0)], [⟨63, 0, .rw⟩], 0x0⟩  -- R408
  | .neaCtxMirror => ⟨0xF0028010048, [(8, 0x10000, 0)], [⟨63, 0, .ro⟩], 0xFFFFFFFFFFFFFFFF⟩  -- R408
  | .neaGrpCfg => ⟨0xF0028011000, [(8, 0x10000, 0), (256, 0x20, 0)], [⟨21, 0, .rwt⟩, ⟨43, 22, .rwt⟩, ⟨45, 44, .rwt⟩, ⟨47, 46, .rwt⟩, ⟨48, 48, .rwt⟩, ⟨49, 49, .rwt⟩], 0x0⟩  -- R409
  | .neaGrpHyp1 => ⟨0xF0028011008, [(8, 0x10000, 0), (256, 0x20, 0)], [⟨31, 0, .rwt⟩, ⟨63, 32, .rwt⟩], 0x0⟩  -- R410
  | .neaGrpHyp2 => ⟨0xF0028011010, [(8, 0x10000, 0), (256, 0x20, 0)], [⟨31, 0, .rwt⟩, ⟨63, 32, .rwt⟩], 0x0⟩  -- R410
  | .neaGrpHyp3 => ⟨0xF0028011018, [(8, 0x10000, 0), (256, 0x20, 0)], [⟨31, 0, .rwt⟩, ⟨63, 32, .rwt⟩], 0x3F80000000000000⟩  -- R410
  | .neaGrpStat => ⟨0xF0028014000, [(8, 0x10000, 0), (256, 0x8, 0)], [⟨31, 0, .rw⟩, ⟨63, 32, .rw⟩], 0x0⟩  -- R411
  | .neaKernel => ⟨0xF0028016000, [(8, 0x10000, 0), (64, 0x8, 0)], [⟨63, 0, .rwt⟩], 0x0⟩  -- R412
  | .dvoCoord => ⟨0xF0030000000, [], [⟨17, 0, .rwt⟩, ⟨24, 18, .rwt⟩, ⟨31, 25, .rwt⟩, ⟨38, 32, .rwt⟩, ⟨39, 39, .rwt⟩, ⟨40, 40, .rwt⟩, ⟨41, 41, .rwt⟩], 0x38102040000⟩  -- R440
  | .dvoArb => ⟨0xF0030000008, [], [⟨7, 0, .rw⟩, ⟨15, 8, .rw⟩, ⟨23, 16, .rw⟩], 0x1040C⟩  -- R441
  | .dvoMesh => ⟨0xF0030000010, [(4, 0x8, 0)], [⟨3, 0, .ro⟩, ⟨7, 4, .ro⟩, ⟨10, 8, .ro⟩, ⟨14, 11, .ro⟩, ⟨15, 15, .ro⟩], 0xF8⟩  -- R442
  | .dvoStats => ⟨0xF0030000030, [], [⟨31, 0, .rw⟩], 0x0⟩  -- R443
  | .dvoLink => ⟨0xF0030000100, [(24, 0x10, 0)], [⟨2, 0, .rwt⟩, ⟨21, 4, .rwt⟩, ⟨24, 22, .ro⟩, ⟨27, 25, .ro⟩], 0x3FFFF0⟩  -- R444
  | .dvoLinkStat => ⟨0xF0030000108, [(24, 0x10, 0)], [⟨31, 0, .rw⟩, ⟨63, 32, .rw⟩], 0x0⟩  -- R444
  | .dvoOvr => ⟨0xF0030000400, [(64, 0x8, 0)], [⟨17, 0, .rwt⟩, ⟨35, 18, .rwt⟩, ⟨40, 36, .rwt⟩, ⟨41, 41, .rwt⟩], 0x0⟩  -- R445
  | .dvoPortCfg => ⟨0xF0030010000, [(24, 0x100, 0)], [⟨1, 0, .rwt⟩, ⟨6, 2, .rwt⟩, ⟨9, 7, .rwt⟩], 0x7C⟩  -- R446
  | .dvoPortCtrl => ⟨0xF0030010008, [(24, 0x100, 0)], [⟨0, 0, .wo⟩, ⟨1, 1, .wo⟩, ⟨2, 2, .wo⟩], 0x0⟩  -- R447
  | .dvoPortStatus => ⟨0xF0030010010, [(24, 0x100, 0)], [⟨3, 0, .ro⟩, ⟨4, 4, .ro⟩, ⟨25, 8, .ro⟩, ⟨30, 26, .ro⟩, ⟨35, 32, .ro⟩, ⟨37, 36, .ro⟩, ⟨45, 38, .ro⟩, ⟨63, 48, .ro⟩], 0x0⟩  -- R448
  | .dvoPortErr => ⟨0xF0030010018, [(24, 0x100, 0)], [⟨31, 0, .rw⟩, ⟨47, 32, .rw⟩, ⟨63, 48, .rw⟩], 0x0⟩  -- R449
  | .dvoPortViol => ⟨0xF0030010020, [(24, 0x100, 0)], [⟨15, 0, .rw⟩, ⟨31, 16, .rw⟩, ⟨39, 32, .rw⟩, ⟨43, 40, .ro⟩], 0x0⟩  -- R450
  | .dvoPeStatus => ⟨0xF0030010028, [(24, 0x100, 0)], [⟨10, 0, .ro⟩, ⟨25, 16, .ro⟩, ⟨42, 32, .ro⟩, ⟨43, 43, .ro⟩], 0x0⟩  -- R484
  | .pcvuCfg => ⟨0xF0030010040, [(24, 0x100, 0)], [⟨6, 0, .rw⟩, ⟨7, 7, .rw⟩, ⟨8, 8, .rw⟩, ⟨9, 9, .rw⟩, ⟨11, 10, .rw⟩, ⟨13, 12, .rw⟩, ⟨15, 14, .rw⟩], 0x3A0⟩  -- R522
  | .pcvuPoly => ⟨0xF0030010048, [(24, 0x100, 0)], [⟨63, 0, .rw⟩], 0x1EDC6F41⟩  -- R522
  | .pcvuInit => ⟨0xF0030010050, [(24, 0x100, 0)], [⟨63, 0, .rw⟩], 0xFFFFFFFF⟩  -- R522
  | .pcvuState => ⟨0xF0030010058, [(24, 0x100, 0)], [⟨63, 0, .rw⟩], 0xFFFFFFFF⟩  -- R522
  | .pcvuResult => ⟨0xF0030010060, [(24, 0x100, 0)], [⟨63, 0, .ro⟩], 0x0⟩  -- R522
  | .pcvuPos => ⟨0xF0030010068, [(24, 0x100, 0)], [⟨63, 0, .rw⟩], 0x0⟩  -- R522
  | .pcvuFoldBase => ⟨0xF0030010070, [(24, 0x100, 0)], [⟨63, 0, .rw⟩], 0x0⟩  -- R522
  | .pcvuSeq => ⟨0xF0030010078, [(24, 0x100, 0)], [⟨63, 0, .rw⟩], 0x0⟩  -- R522
  | .pcvuFeedAddr => ⟨0xF0030010080, [(24, 0x100, 0)], [⟨47, 0, .rw⟩], 0x0⟩  -- R522
  | .pcvuFeedLen => ⟨0xF0030010088, [(24, 0x100, 0)], [⟨39, 0, .rw⟩], 0x0⟩  -- R522
  | .pcvuCtrl => ⟨0xF0030010090, [(24, 0x100, 0)], [⟨0, 0, .wo⟩, ⟨1, 1, .wo⟩], 0x0⟩  -- R522
  | .pcvuStatus => ⟨0xF0030010098, [(24, 0x100, 0)], [⟨0, 0, .ro⟩, ⟨1, 1, .ro⟩, ⟨63, 48, .ro⟩], 0x0⟩  -- R522
  | .dvoRedCfg => ⟨0xF0030020000, [(4, 0x1000, 0)], [⟨12, 0, .ro⟩, ⟨31, 16, .ro⟩], 0x0⟩  -- R477
  | .dvoRedFirst => ⟨0xF0030020008, [(4, 0x1000, 0)], [⟨63, 0, .rwt⟩], 0x0⟩  -- R478
  | .dvoRedPeriod => ⟨0xF0030020010, [(4, 0x1000, 0)], [⟨63, 0, .rwt⟩], 0x0⟩  -- R478
  | .dvoRedRing0 => ⟨0xF0030020018, [(4, 0x1000, 0)], [⟨63, 0, .rw⟩], 0x0⟩  -- R478
  | .dvoRedKey => ⟨0xF0030020020, [(4, 0x1000, 0)], [⟨63, 0, .rwt⟩], 0x0⟩  -- R478
  | .dvoRedScale => ⟨0xF0030020028, [(4, 0x1000, 0)], [⟨47, 0, .rw⟩, ⟨63, 48, .rw⟩], 0x0⟩  -- R479
  | .dvoRedStatus => ⟨0xF0030020030, [(4, 0x1000, 0)], [⟨12, 0, .ro⟩, ⟨31, 16, .ro⟩, ⟨63, 32, .ro⟩], 0x0⟩  -- R480
  | .dvoRedEvent => ⟨0xF0030020038, [(4, 0x1000, 0)], [⟨0, 0, .w1c⟩, ⟨1, 1, .w1c⟩, ⟨2, 2, .w1c⟩, ⟨3, 3, .w1c⟩, ⟨4, 4, .w1c⟩, ⟨5, 5, .w1c⟩, ⟨6, 6, .w1c⟩, ⟨7, 7, .w1c⟩, ⟨8, 8, .w1c⟩, ⟨9, 9, .w1c⟩, ⟨10, 10, .w1c⟩], 0x0⟩  -- R481
  | .dvoRedCount => ⟨0xF0030020040, [(4, 0x1000, 0)], [⟨15, 0, .rw⟩, ⟨31, 16, .rw⟩, ⟨47, 32, .rw⟩, ⟨63, 48, .rw⟩], 0x0⟩  -- R482
  | .dvoRedCheck => ⟨0xF0030020048, [(4, 0x1000, 0)], [⟨15, 0, .rw⟩, ⟨31, 16, .rw⟩, ⟨47, 32, .rw⟩, ⟨63, 48, .rw⟩], 0x0⟩  -- R482
  | .dvoRedLast => ⟨0xF0030020050, [(4, 0x1000, 0)], [⟨11, 0, .ro⟩, ⟨35, 12, .ro⟩, ⟨53, 36, .ro⟩], 0x0⟩  -- R483

/-- Registers of the tables, part 1. -/
def regList1 : List RK := [.tmpNow, .tmpTime, .tmpPeriod, .tmpRole, .tmpOffset, .tmpEvent, .tmpPortDelay, .tmpStageCtrl, .tmpStageTarget, .tmpCommitStatus, .tmpCommitAddr, .tmpDmCtrl, .tmpDmStatus, .tmpBudget, .tmpBudgetFb, .meCtrl, .meStatus, .meFlags, .meFlagsSnap, .meColumn, .mePerfBusy, .mePerfLoad, .mePerfRows, .mePerfWait, .veCtrl, .veStatus, .veFlags, .veFlagsSnap, .veSolveTol, .veSolveStatus]

/-- Registers of the tables, part 2. -/
def regList2 : List RK := [.vePerfBusy, .vePerfWait, .sqCtrl, .sqStatus, .sqPc, .sqFault, .sqFaultInsn, .sqLate, .sqPerfIssue, .sqPerfStall, .sqSreg, .fteCtrl, .fteStatus, .ftePerfDeliv, .ftePerfLoss, .ftePerfLead, .ftePerfWait, .spdPwrReq, .spdPwrState, .spdEcc, .spdEccInject, .spdSpare, .spdCfg, .spdPerf, .clkEnCore, .grvPwrReq, .grvPwrState, .grvEcc, .grvEccInject, .grvSpare]

/-- Registers of the tables, part 3. -/
def regList3 : List RK := [.grvCfg, .grvPerf, .grvFailing, .dmaChRing, .dmaChCtrl, .dmaChStatus, .dmaWinBase, .dmaWinCfg, .cvuCfg, .cvuPoly, .cvuInit, .cvuState, .cvuResult, .cvuPos, .cvuFoldBase, .cvuSeq, .cvuFeedAddr, .cvuFeedLen, .cvuCtrl, .cvuStatus, .semState, .clkEnCluster, .prtGenCtrl, .prtGenEvent, .prtGenRing, .prtGenSlot, .dmaInwinBase, .dmaInwinCfg, .dmaInwinStat, .prtShape]

/-- Registers of the tables, part 4. -/
def regList4 : List RK := [.prtRecovery, .prtPrune, .prtClusterSpare, .prtCore, .prtCtrl, .prtCastleAt, .prtStatus, .prtLoad, .prtLoadLen, .prtHandover, .prtHandoverRing, .prtResume, .prtRegHbm, .prtRegGrv, .prtRegStat, .prtRegDvo, .prtFault, .cgKey, .cgCtr0, .cgCtr1, .cgOut0, .cgOut1, .clkPll, .pwrCfg, .pwrPkg, .pwrTile, .pwrTemp, .secState, .secBoot, .secCtrl]

/-- Registers of the tables, part 5. -/
def regList5 : List RK := [.secLock, .secTokenStatus, .secNonce, .secNonceIn, .secOwner, .secMeas, .secTokenBuf, .secReport, .dbgStatus, .hubHart, .hubWdog, .hubEvq, .hubIrq, .hubMboxUpPush, .hubMboxUpPop, .hubMboxDownPush, .hubMboxDownPop, .hubMboxStat, .hubRingBase, .hubRingCfg, .mgtStatus, .mgtTxq, .mgtRxq, .mgtStats, .hbmCfg, .hbmStatus, .hbmErrLog, .hbmPerfRd, .hbmPerfWr, .hbmPerfHold]

/-- Registers of the tables, part 6. -/
def regList6 : List RK := [.hbmTherm, .hbmPcStat, .hbmPcCe, .hbmRetired, .neaSlowStatus, .neaMirrorCfg, .neaPkg, .neaCtxCtrl, .neaCtxStatus, .neaCtxRing, .neaCtxCommit, .neaCtxPeriod, .neaCtxArea, .neaCtxSeed, .neaCtxFb, .neaCtxImportRing, .neaCtxMirror, .neaGrpCfg, .neaGrpHyp1, .neaGrpHyp2, .neaGrpHyp3, .neaGrpStat, .neaKernel, .dvoCoord, .dvoArb, .dvoMesh, .dvoStats, .dvoLink, .dvoLinkStat, .dvoOvr]

/-- Registers of the tables, part 7. -/
def regList7 : List RK := [.dvoPortCfg, .dvoPortCtrl, .dvoPortStatus, .dvoPortErr, .dvoPortViol, .dvoPeStatus, .pcvuCfg, .pcvuPoly, .pcvuInit, .pcvuState, .pcvuResult, .pcvuPos, .pcvuFoldBase, .pcvuSeq, .pcvuFeedAddr, .pcvuFeedLen, .pcvuCtrl, .pcvuStatus, .dvoRedCfg, .dvoRedFirst, .dvoRedPeriod, .dvoRedRing0, .dvoRedKey, .dvoRedScale, .dvoRedStatus, .dvoRedEvent, .dvoRedCount, .dvoRedCheck, .dvoRedLast]

/-- Every register. -/
def RK.all : List RK :=
  regList1 ++ regList2 ++ regList3 ++ regList4 ++ regList5 ++ regList6 ++ regList7

/-- Match an offset against dimensions: the indices, when it is a register's first byte. -/
def dimIndex : List (Nat × Nat × Nat) → Nat → Option (List Nat)
  | [], off => if off = 0 then some [] else none
  | (cnt, stride, first) :: ds, off =>
    -- the first index is not always 0; offsets count from index 0
    let i := off / stride
    if first ≤ i ∧ i < cnt then (dimIndex ds (off % stride)).map (fun l => i :: l) else none

/-- A register instance: which register, and its indices. -/
structure Reg where
  k : RK
  ix : List Nat
  deriving DecidableEq, Repr

/-- Index n of an instance. -/
def Reg.i (r : Reg) (n : Nat) : Nat := r.ix.getD n 0

/-- The register whose first byte stands at an address (R642: none names no register). -/
def regAt (addr : Nat) : Option Reg :=
  RK.all.findSome? (fun k =>
    let row := k.row
    if row.base ≤ addr then (dimIndex row.dims (addr - row.base)).map (fun ix => ⟨k, ix⟩) else none)

/-- The address of a register instance. -/
def Reg.addr (r : Reg) : Nat :=
  r.k.row.base + ((r.k.row.dims.zip r.ix).map (fun di => di.1.2.1 * di.2)).foldl (· + ·) 0

/-- The bits of a register that have an access type among `accs`. -/
def accMask (accs : List AccType) (k : RK) : Word :=
  (k.row.fields.filter (fun f => accs.contains f.acc)).foldl (fun m f => m ||| maskOf f.hi f.lo) 0

/-- The reset value of a register instance. A few depend on the index (R371, R405, R446, R554, R623). -/
def Reg.resetVal (r : Reg) : Word :=
  let d := BitVec.ofNat 64 r.k.row.reset
  match r.k with
  | .prtCore =>
    let k := r.i 0 % 28
    if k < 24 then put 4 0 k else put 4 0 0x1F ||| put 7 5 1
  | .hbmPcStat => d ||| put 6 0 (r.i 1)
  | .neaPkg => d ||| put 7 4 (if r.i 0 < 8 then r.i 0 else 0xF)
  | .dvoPortCfg => d ||| put 1 0 (if r.i 0 % 6 < 5 then 1 else 2)
  | .hubHart => if r.i 0 < 14 then put 3 0 (r.i 0) else put 3 0 0xF ||| put 6 4 1
  | _ => d

end Sys2Proof.Machine
end

