-- ==== Sys2Proof/Machine/Device.lean ====
section
/-! DEFINITION. The device's state: plain data, one home for every piece of state the chapters name. -/
namespace Sys2Proof.Machine

/-! ## Memory (09, 11, 20) -/

/-- Bank states of R298. -/
inductive BankState where
  | on | ret | off | enterRet | wake | down | up
  deriving DecidableEq, Repr

/-- The code of a bank state (R298). -/
def BankState.code : BankState → Nat
  | .on => 0
  | .ret => 1
  | .off => 2
  | .enterRet => 3
  | .wake => 4
  | .down => 5
  | .up => 6

/-- Requested states of a bank (R307). -/
inductive BankReq where
  | on | ret | off
  deriving DecidableEq, Repr

/-- The code of a request (R307). -/
def BankReq.code : BankReq → Nat
  | .on => 0
  | .ret => 1
  | .off => 2

/-- A bank of a scratchpad or grove memory (R298, R301, R302, R292). -/
structure Bank where
  st : BankState := .on
  req : BankReq := .on
  /-- Core that last wrote REQ, or 0x1FF. -/
  owner : Nat := 0x1FF
  pending : Bool := false
  /-- Corrected errors in the count window. -/
  ce : Nat := 0
  /-- Patrol scrubber position. -/
  pos : Nat := 0
  deriving DecidableEq, Repr

/-- Whether something is due at a step boundary, and whether the seal that R541 asks for has passed. A graft or map-out whose
fault came in NOTICED or REVOKING is `deferred`: it waits for the partition's next program (15). -/
inductive Due where
  | no | deferred | reported | sealed
  deriving DecidableEq, Repr

/-- A seal passes (R541). -/
def Due.seal : Due → Due
  | .reported => .sealed
  | x => x

/-- The partition's next program has been loaded (15). -/
def Due.release : Due → Due
  | .deferred => .reported
  | x => x

/-- One scratchpad's or grove memory's banks and spares (R283, R303, R304, R311). -/
structure Sram where
  banks : FMap Bank := []
  /-- FAILING bits: found failing since reset. -/
  failing : NSet := []
  /-- Banks whose graft or map-out is due, in the order of their failing: not yet replaced since they failed. -/
  due : List (Nat × Due) := []
  /-- Logical banks served by the spares, in the order of grafting. -/
  repl : List Nat := []
  deriving DecidableEq, Repr

/-- All byte memories but the slow tier: HBM, grove memories, scratchpads and Hub memory, by local address. -/
structure Mem where
  bytes : FMap Byte := []
  /-- Poisoned SRAM words, by address / 8 (R290). -/
  poison : NSet := []
  /-- Poisoned HBM sectors, by address / 64 (R354). -/
  hpoison : NSet := []
  /-- Inverted bits of SRAM words, by address / 8 (R288, R310). -/
  err : FMap (BitVec 80) := []
  /-- Corrected SRAM words waiting for their write-back (R289), by address / 8. -/
  wback : List Nat := []
  /-- For each tile, how its HBM contents were last lost; 0 is "zero words" (R585). -/
  hbmEra : FMap Nat := []
  /-- How the Hub memory's contents were last lost; 0 at State.reset. -/
  hubEra : Nat := 0
  /-- Grove banks mapped out, by cluster (R304), and how the contents of a bank (80g + b) were last lost; 0 is "zero". -/
  grvMapped : FMap Nat := []
  grvEra : FMap Nat := []
  deriving DecidableEq, Repr

/-- What the device keeps of an HBM row (R359 to R361). -/
structure HbmRow where
  /-- Corrected errors in the count window. -/
  ce : Nat := 0
  /-- Times it has become failing. -/
  fails : Nat := 0
  due : Due := .no
  /-- A pool row serves it. -/
  pooled : Bool := false
  retired : Bool := false
  /-- Its remedy has begun and has not yet taken effect (R359, R360). -/
  fixing : Bool := false
  deriving DecidableEq, Repr

/-- What the device keeps of a physical pseudo-channel (R362 to R365, R371). -/
structure HbmPc where
  ppr : Nat := 0
  pool : Nat := 0
  retired : Nat := 0
  /-- Erased data pins, in the order of their erasure. -/
  pins : List Nat := []
  /-- Corrections by data pin in the count window. -/
  pinCe : FMap Nat := []
  /-- Parity errors and address mismatches in the count window. -/
  ifErr : Nat := 0
  /-- They reached 4 in the window before this one. -/
  ifPrev : Bool := false
  retrains : Nat := 0
  /-- Map-out due at the next load (R365). -/
  mapDue : Bool := false
  mapped : Bool := false
  /-- Tempo at which HBM_ECC_CORR was last raised (R363). -/
  corrTempo : Option Nat := none
  ce : Nat := 0
  ue : Nat := 0
  addr : Nat := 0
  /-- Scrubber position: the sector within the pseudo-channel. -/
  scrub : Nat := 0
  deriving DecidableEq, Repr

/-- A stack's thermal record (R357, R370). -/
structure HbmStack where
  temp : Int := 0
  st : Nat := 0
  edge : Nat := 0
  peak : Option Int := none
  tempo : Nat := 0
  deriving DecidableEq, Repr

/-- A remedy under way: the row, and whether the replacement is a pool row (R360). -/
structure HbmFix where
  key : Nat
  pool : Bool
  deriving DecidableEq, Repr

/-- A tile's HBM memory system (11), but for the contents. -/
structure HbmTile where
  rows : FMap HbmRow := []
  pcs : FMap HbmPc := []
  /-- Soft repairs made, by bank (48q + bank). -/
  soft : FMap Nat := []
  /-- Pool rows taken, by bank. -/
  pool : FMap Nat := []
  /-- Remedies started and not finished, in their order. -/
  fixes : List HbmFix := []
  /-- The repair whose entry went into the HBM repair log last (R360, R634). -/
  lastLog : Option HbmFix := none
  /-- Channels due for retraining. -/
  retrain : FMap Due := []
  /-- Channels whose retraining runs. -/
  running : List Nat := []
  /-- Channels with a failed interface. -/
  failed : FMap Due := []
  hbmStacks : FMap HbmStack := []
  deriving DecidableEq, Repr

/-! ## Neano (12) -/

/-- Context states (R378). -/
inductive CtxState where
  | free | importing | active | suspended | halted | releasing
  deriving DecidableEq, Repr

/-- The code of a context state (R378). -/
def CtxState.code : CtxState → Nat
  | .free => 0
  | .importing => 1
  | .active => 2
  | .suspended => 3
  | .halted => 4
  | .releasing => 5

/-- Ring slot states (R382). -/
inductive SlotState where
  | free | building | import_ | committed | previous
  deriving DecidableEq, Repr

/-- A ring slot: its state, its ring, whether it is valid (R400), and the master words W and running averages a by
parameter (R379, R381). The HI plane holds W[31:16], the LO plane W[15:0]. -/
structure NeaSlot where
  st : SlotState := .free
  ring : Nat := 0
  valid : Bool := true
  w : FMap Lane := []
  a : FMap Lane := []
  deriving DecidableEq, Repr

/-- A group's settings as latched for a step, with the values computed at the latch (R384, R386). -/
structure NeaGroup where
  base : Nat := 0
  count : Nat := 0
  rule : Nat := 0
  freeze : Bool := false
  strict : Bool := false
  eta : Lane := 0
  k : Lane := 0
  beta : Lane := 0
  c : Lane := 0
  betaS : Lane := 0
  cs : Lane := 0
  eps : Lane := 0
  gscale : Lane := 0
  kernel : List Nat := []
  deriving DecidableEq, Repr

/-- A delivered run of gradients (R467): first parameter, ring, FP32 values. -/
structure NeaGrads where
  param0 : Nat
  ring : Nat
  vals : List Lane
  deriving DecidableEq, Repr

/-- Lost units of a slot: one unit, or all those of a logical package (R377, R400, R401). `dead`: not repaired. -/
structure NeaLost where
  slot : Nat
  unit : Option Nat
  pkg : Nat
  dead : Bool := false
  deriving DecidableEq, Repr

/-- When a context's next step is latched (R384, R392). -/
inductive LatchAt where
  | none | edge | schedule
  deriving DecidableEq, Repr

/-- A Neano context (R378 to R411). -/
structure NeaCtx where
  st : CtxState := .free
  /-- Parameters of the area; 0 without one. -/
  q : Nat := 0
  /-- Place of the area, in GiB (log entry 20). -/
  base : Nat := 0
  /-- Job named at its load, 0 for none. -/
  job : Nat := 0
  slots : FMap NeaSlot := []
  flags : BitVec 2 := 0
  event : Nat := 0
  latch : LatchAt := .none
  /-- Ring of the latched step. -/
  step : Option Nat := none
  groups : FMap NeaGroup := []
  /-- Updated parameters of the step: disjoint ranges in rising order. -/
  done : List (Nat × Nat) := []
  /-- Groups that have raised NEA_GRAD_NONFINITE in this step. -/
  nonfinite : NSet := []
  pend : List NeaGrads := []
  held : List NeaGrads := []
  /-- Commits whose scheduled edge has passed (R29). -/
  late : Nat := 0
  mirror : Nat := 0xFFFFFFFFFFFFFFFF
  sending : Option Nat := none
  lost : List NeaLost := []
  deriving DecidableEq, Repr

/-- Package states (R405). -/
inductive PkgState where
  | spare | service | failing | target | failed
  deriving DecidableEq, Repr

/-- The code of a package state. -/
def PkgState.code : PkgState → Nat
  | .spare => 0
  | .service => 1
  | .failing => 2
  | .target => 3
  | .failed => 4

/-- An LPDDR5X package (R401, R405). -/
structure NeaPkg where
  st : PkgState := .spare
  logical : Nat := 0xF
  ce : Nat := 0
  ue : Nat := 0
  temp : Int := 0
  /-- Corrections in the count window. -/
  winCe : Nat := 0
  /-- The copy onto a target has ended; it waits for a step boundary. -/
  copied : Due := .no
  /-- Of a copy target: the failing package that is copied onto it. -/
  src : Nat := 0xF
  /-- A rebuild runs. -/
  rebuild : Bool := false
  deriving DecidableEq, Repr

/-- A mirrored slot at its receiver: sender, ring, units in all, units by number (R398, R399). -/
structure MirrorCopy where
  dev : Nat
  ring : Nat
  total : Nat
  units : FMap (List Byte) := []
  bad : Bool := false
  deriving DecidableEq, Repr

/-- A region of the receive area (R398). -/
structure MirrorRegion where
  held : Option MirrorCopy := none
  recv : Option MirrorCopy := none
  deriving DecidableEq, Repr

/-! ## Events and recoveries (17) -/

/-- Event classes (R549). -/
inductive EvClass where
  | info | prog | corr | fault | spare | stop
  deriving DecidableEq, Repr

/-- A raised event that has not been written as a record (R613). -/
structure Raised where
  code : Nat
  cls : EvClass
  /-- Partition concerned; none is a device-level event. -/
  part : Option Nat
  unit : Nat
  detail : Nat
  tempo : Nat
  deriving DecidableEq, Repr

/-- What a fault's part of a recovery waits for (R530). -/
inductive Remedy where
  /-- The first edge whose seal follows the report; whether that seal has passed. -/
  | nextEdge (sealed : Bool)
  /-- LOCKED or KING again. -/
  | locked
  /-- The PLL domain relocks or its unit is answered. -/
  | pll (dom : Nat)
  /-- The divider of a tile is removed. -/
  | divider (tile : Nat)
  /-- A scratchpad or grove bank's graft or map-out: memory unit and bank. -/
  | bank (u b : Nat)
  /-- The graft or map-out answering the prune of a physical core. -/
  | core (phys : Nat)
  /-- A row of a tile's HBM. -/
  | row (tile key : Nat)
  /-- Retraining of a tile's channel, then a map-out if it fails. -/
  | retrain (tile ch : Nat)
  /-- A port's graft. -/
  | port (q : Nat)
  /-- A slow-tier package. -/
  | pkg (k : Nat)
  /-- A tile's mesh router. -/
  | router (tile : Nat)
  /-- A hart's graft. -/
  | hart (k : Nat)
  /-- The stages of a port engine move. -/
  | stages (q : Nat)
  deriving DecidableEq, Repr

/-- One fault's part of a recovery (R530, R543). `part` none concerns a device-level unit. -/
structure FaultPart where
  code : Nat
  part : Option Nat
  remedies : List Remedy
  deriving DecidableEq, Repr

/-- States of a physical core (R554). -/
inductive PhysState where
  | inService | spare | standIn | pruned | retired
  deriving DecidableEq, Repr

/-- The code of a physical core's state (R554). -/
def PhysState.code : PhysState → Nat
  | .inService => 0
  | .spare => 1
  | .standIn => 2
  | .pruned => 3
  | .retired => 4

/-- A physical core's persistent record: its state (R554), its scratchpad's banks while it has no logical index, and
its ME_COLUMN word (R144, R139). -/
structure PhysCore where
  st : PhysState
  logical : Nat
  cause : Nat := 0
  prunes : Nat := 0
  /-- The scratchpad of a physical core out of service. -/
  sram : Sram := {}
  /-- The ME_COLUMN word of a physical core without a logical index. -/
  column : Word := 0x0000001F00001F1F
  /-- Zero-fill of a chosen spare: 0 not chosen, 1 running, 2 ended (R537). -/
  fill : Nat := 0
  /-- Logical core it is to stand in for. -/
  forCore : Option Nat := none
  /-- The graft that a failing column of a core in service asks for (R139). -/
  columnDue : Due := .no
  deriving DecidableEq, Repr

/-- A prune under way (R535 to R540). -/
structure Prune where
  /-- Logical core. -/
  core : Nat
  phys : Nat
  code : Nat
  tempo : Nat
  /-- PRUNE_COMPLETE has happened. -/
  done : Bool := false
  /-- Stand-in physical core, once chosen. -/
  by_ : Option Nat := none
  /-- The stand-in has taken the index. -/
  standing : Bool := false
  /-- No SPARE was left: the logical core is mapped out at the next edge (R542). -/
  mapout : Bool := false
  /-- A seal has passed since its report (R541). -/
  sealed : Bool := false
  deriving DecidableEq, Repr

/-! ## DMA engines (10) -/

/-- Channel states (R346). -/
inductive ChState where
  | idle | queued | run | aborting | stopped
  deriving DecidableEq, Repr

/-- The code of a channel state (R346). -/
def ChState.code : ChState → Nat
  | .idle => 0
  | .queued => 1
  | .run => 2
  | .aborting => 3
  | .stopped => 4

/-- A taken descriptor: its address, its eight words as sampled, whether one of them read poisoned, and its ring index. -/
structure DmaDesc where
  addr : Nat
  words : List Nat
  bad : Bool := false
  idx : Nat := 0
  deriving DecidableEq, Repr

/-- A remote burst that has not been answered: its TAG, its device, its place in the transfer and its bytes. -/
structure DmaOut where
  tag : Nat
  dev : Nat
  off : Nat
  n : Nat
  deriving DecidableEq, Repr

/-- The running descriptor of a cluster's engine. -/
structure DmaRun where
  ch : Nat
  desc : DmaDesc
  /-- Place of the next burst. -/
  issued : Nat := 0
  /-- Bytes whose writes have landed or been acknowledged. -/
  moved : Nat := 0
  outst : List DmaOut := []
  /-- Bursts, by place, of slow-tier units that are not complete (R380). -/
  unit : List (Nat × List (Byte × Bool)) := []
  /-- A moved word was poisoned. -/
  poison : Bool := false
  /-- How it ends, once that is decided: STATUS and event. -/
  ends : Option (Nat × Nat) := none
  /-- Bursts in flight at an abort that still have to land (R333). -/
  inflight : Nat := 0
  /-- It has taken its check-value unit, and whether its fold has stopped at a poisoned word (R516). -/
  folding : Bool := false
  foldStopped : Bool := false
  /-- Remote bursts, by place, that returned before the ones that the fold takes first, and the place it has reached (R516). -/
  ahead : List (Nat × List (Byte × Bool)) := []
  foldAt : Nat := 0
  deriving DecidableEq, Repr

/-- Why a channel is aborting (R333). -/
inductive AbortCause where
  | software | prune | revoke | status
  deriving DecidableEq, Repr

/-- A DMA channel (R328, R333, R345, R346). -/
structure DmaCh where
  st : ChState := .idle
  last : Nat := 0
  head : Nat := 0
  event : Nat := 0
  owner : Nat := 0x1FF
  epoch : Nat := 0
  batch : List DmaDesc := []
  cause : Option AbortCause := none
  deriving DecidableEq, Repr

/-- A cluster's DMA engine: its channels, the queue of channels whose batches wait or run (R329), its running
descriptor. -/
structure DmaEng where
  chans : FMap DmaCh := []
  queue : List Nat := []
  run : Option DmaRun := none
  deriving DecidableEq, Repr

/-! ## Check-value units (16) -/

/-- A check-value unit's stream (R516, R517). Its registers stand in the register map. -/
structure Cvu where
  /-- Bytes left of a feed. -/
  left : Nat := 0
  feeding : Bool := false
  byDma : Bool := false
  /-- The next address of the feed. -/
  addr : Nat := 0
  /-- Core whose sequencer wrote the feed; 0x1FF for the hosting software. -/
  owner : Nat := 0x1FF
  event : Nat := 0
  deriving DecidableEq, Repr

/-! ## Darvo (13) -/

/-- Port states (R421). -/
inductive PortState where
  | off | detect | train | lock | ident | credit | up | standby | retrain | quarantine | failed
  deriving DecidableEq, Repr

/-- The code of a port state (R421). -/
def PortState.code : PortState → Nat
  | .off => 0
  | .detect => 1
  | .train => 2
  | .lock => 3
  | .ident => 4
  | .credit => 5
  | .up => 6
  | .standby => 7
  | .retrain => 8
  | .quarantine => 9
  | .failed => 10

/-- Where a port in RETRAIN stands: at its stored coefficients, in IDENT, in CREDIT, or past them (R421). -/
inductive RetrainPass where
  | coeffs | ident | credit | done
  deriving DecidableEq, Repr

/-- A port's deficit round robin of VC1 to VC3 (R425): the class whose turn it is, whether this visit has added its weight, and
the deficits by VC. -/
structure Arb where
  turn : Nat := 1
  visited : Bool := false
  deficit : List Nat := [0, 0, 0, 0]
  deriving DecidableEq, Repr

/-- A Darvo port (R413, R421, R422, R434, R448). ROLE, LINK and MEMBER stand in DVO_PORT_CFG. -/
structure Port where
  st : PortState := .off
  /-- In RETRAIN: the state before was UP, and how far it has passed LOCK, IDENT and CREDIT (R421). -/
  back : Bool := false
  pass : RetrainPass := .coeffs
  /-- After an uncorrectable codeword: the number that the NAK names; the member's packets are discarded until it arrives
  (R419). -/
  lost : Option Nat := none
  /-- The round of VC1 to VC3 (R425). -/
  arb : Arb := {}
  grafted : Bool := false
  /-- A grafted member that waits for the first edge after both ends have grafted (R422). -/
  hold : Bool := false
  /-- The partner has announced its graft. -/
  peerGraft : Bool := false
  peer : Nat := 0
  peerPort : Nat := 0
  qcause : Nat := 0
  fails : Nat := 0
  retrains : Nat := 0
  event : Nat := 0
  /-- Entries to RETRAIN, retrain-class violations and packets without a cell in the count window. -/
  winRetrain : Nat := 0
  winViol : Nat := 0
  winCell : Nat := 0
  /-- Tempo at which DVO_VIOLATION was last raised for a drop or a NAK. -/
  violTempo : Option Nat := none
  /-- Cells that the partner's member gave in CREDIT, by 2·VC + DL, and whether avail counts them. -/
  caps : List Nat := []
  counted : Bool := false
  /-- The graft that its failure asks for. -/
  due : Due := .no
  /-- The last 16 measured one-way delays since its link was trained, newest first, in 1/8 ps (R67). -/
  delays : List Int := []
  deriving DecidableEq, Repr

/-- A packet waiting to be sent: where its cells are held (link, class, cells), and the port it came by. -/
structure QPkt where
  pkt : Packet
  origin : Option (Nat × Nat × Nat) := none
  port : Option Nat := none
  deriving DecidableEq, Repr

/-- A packet with its link sequence number and its member: one sent and not acknowledged, or one received ahead. -/
structure SeqPkt where
  seq : Nat
  port : Nat
  pkt : Packet
  /-- Received ahead and discarded since (R433): its number still counts as delivered. -/
  gone : Bool := false
  deriving DecidableEq, Repr

/-- A link (R417 to R420, R431 to R433). Counts by 2·VC + DL. Key 24 of the links is the way through the tile mesh to the
device itself; key 25 holds packets for which there is no link. -/
structure Link where
  txq : List QPkt := []
  unacked : List SeqPkt := []
  resend : List Nat := []
  sendSeq : Nat := 0
  /-- The receiver's next sequence number, and whether it has delivered since it last acknowledged. -/
  expect : Nat := 0
  ackDue : Bool := false
  rx : List SeqPkt := []
  sent : FMap Nat := []
  freed : FMap Nat := []
  avail : FMap Int := []
  cap : FMap Nat := []
  used : FMap Nat := []
  /-- It has lost its last member; at the next edge what it holds is discarded (R430). -/
  dead : Bool := false
  deriving DecidableEq, Repr

/-- A tile's mesh (R437, R438, R442). -/
structure Mesh where
  shift : Nat := 8
  failCol : Nat := 0xF
  failRow : Nat := 0
  fails : Nat := 0
  /-- Failed routers, as physical column and row. -/
  failed : List (Nat × Nat) := []
  detour : Bool := false
  /-- A detour waits for the next edge. -/
  detourDue : Bool := false
  /-- Physical column of a shift that waits for a step boundary. -/
  shiftCol : Nat := 8
  shiftDue : Due := .no
  /-- Stops that have lost both attachments (R438). -/
  cut : List MeshStop := []
  deriving DecidableEq, Repr

/-! ## Reduction (14) -/

/-- An accepted copy of a chunk: its codes and what its trailer says (R452). -/
structure RedCopy where
  codes : List Int
  csum : Nat
  present : Nat
  maxe : Int
  sat : Bool
  deriving DecidableEq, Repr

/-- A chunk of an activation: accepted copies and backup holds by input, primaries that failed their check, CSUMs of the
primaries, a local chunk that read poisoned, errors of the adder by element. -/
structure RedChunk where
  got : FMap RedCopy := []
  hold : FMap RedCopy := []
  pfail : List Nat := []
  csums : FMap Nat := []
  lbad : Bool := false
  err : FMap Int := []
  deriving DecidableEq, Repr

/-- An activation of a stage (R459). Chunks count from the stage's first. -/
structure RedAct where
  k : Nat
  ring : Nat
  base : Nat
  /-- The wait on the ready semaphore, and whether it was granted. -/
  wait : Option Nat := none
  granted : Bool := false
  /-- Local chunks read. -/
  read : Nat := 0
  /-- The decision at the seal of the coming edge: the local input abstains there (R470). -/
  due : Bool := false
  /-- The local input abstains from this chunk on (R470). -/
  abst : Option Nat := none
  /-- Its input or gather deadline has passed. -/
  past : Bool := false
  /-- Chunks sent in order. -/
  next : Nat := 0
  /-- FINAL: delivered chunks. GRECV: received chunks. -/
  done : NSet := []
  chunks : FMap RedChunk := []
  /-- By input: the chunk from which the primary, or the backup, abstains. -/
  pab : FMap Nat := []
  bab : FMap Nat := []
  absentEv : Bool := false
  /-- GRECV: no slot takes the data (R475). -/
  discards : Bool := false
  complete : Bool := false
  deriving DecidableEq, Repr

/-- A stage: its eight words (R457), its inputs (R458), the engine that runs it now (R464), its activation. -/
structure RedStage where
  words : List Nat
  ins : List (Nat × Nat)
  port : Nat
  act : Option RedAct := none
  deriving DecidableEq, Repr

/-- A tensor's MAXE and SAT in a ring: of a shard, or of the chunks gathered with the exponent they start from. -/
structure RedTensor where
  ring : Nat
  maxe : Int := -128
  sat : Bool := false
  x : Option Int := none
  deriving DecidableEq, Repr

/-- A partition's reduction program. -/
structure RedPart where
  stages : FMap RedStage := []
  inputs : Nat := 0
  /-- The program's start edge (R459). -/
  start : Nat := 0
  /-- Current activation index (R480). -/
  k : Nat := 0
  shard : FMap RedTensor := []
  gather : FMap RedTensor := []
  deriving DecidableEq, Repr

/-! ## Tempo (02) -/

/-- Acquisition states (R45). -/
inductive Acq where
  | free | coarse | fine | locked | holdover | king
  deriving DecidableEq, Repr

/-- The code of an acquisition state (R45). -/
def Acq.code : Acq → Nat
  | .free => 0
  | .coarse => 1
  | .fine => 2
  | .locked => 3
  | .holdover => 4
  | .king => 5

/-- The time base (R40 to R48). -/
structure TempoUnit where
  acq : Acq := .free
  /-- Consecutive edges in the state. -/
  edges : Nat := 0
  /-- Consecutive edges whose offset lies within the bound that leads upward, and those at which LOCKED is violated. -/
  run : Nat := 0
  bad : Nat := 0
  /-- Consecutive edges without a valid message, and whether one has been heard since the last edge. -/
  missed : Nat := 0
  heard : Bool := false
  /-- The king in use: device ID and PRIO. -/
  king : Option (Nat × Nat) := none
  hops : Nat := 0
  parent : Option Nat := none
  /-- Last offset, in 1/32 ns. -/
  off : Int := 0
  /-- Candidates heard: PRIO by device ID. -/
  cands : FMap Nat := []
  /-- Intervals of R41 without a better announce. -/
  count : Nat := 0
  /-- A candidate in HOLDOVER has resumed announcing (R47). -/
  resumed : Bool := false
  /-- Elected in FREE: the Tempo number starts at 0 at the first edge (R41). -/
  first : Bool := false
  /-- Pending period and the Tempo at which it takes effect (R63). -/
  next : Nat := 0
  at_ : Nat := 0
  deriving DecidableEq, Repr

/-- A staged register: the written bits, their values, and the OWNER of the last writer (R50, R533). -/
structure StagedWrite where
  mask : Word
  val : Word
  owner : Nat
  deriving DecidableEq, Repr

/-- What the checker found at a seal (R55): REASON (0: it passed), register and bit. -/
structure Verdict where
  reason : Nat
  addr : Nat
  bit_ : Nat
  deriving DecidableEq, Repr

/-- A staged set (R52 to R54). -/
structure StagedSet where
  writes : FMap StagedWrite := []
  /-- First register that did not fit. -/
  excess : Option Nat := none
  /-- The outcome, from the seal to the edge. -/
  verdict : Option Verdict := none
  deriving DecidableEq, Repr

/-- A store that waits: a register write until E + 8 ns (R50), or a later store of the same sequencer or hart behind it (R224,
R611). `write`: who writes, over which path, the register, the bits that the write covers and their values; `discard`: of a
staged set; `mem`: bytes stored to memory. -/
inductive Stalled where
  | write (ag : Agent) (path addr : Nat) (mask val : Word)
  | discard (ag : Agent) (s : Nat)
  | mem (ag : Agent) (a : Nat) (bs : List Byte)
  deriving DecidableEq, Repr

/-- Whose store it is. -/
def Stalled.agent : Stalled → Agent
  | .write ag .. => ag
  | .discard ag _ => ag
  | .mem ag .. => ag

/-! ## Clocks and power (18) -/

/-- Tile power states (R573, R579): in `moving`, from one state to another. -/
inductive TilePower where
  | run | retain | off
  | moving (from_ dest_ : Nat)
  deriving DecidableEq, Repr

/-- The code of PWR_TILE.STATE. -/
def TilePower.code : TilePower → Nat
  | .run => 0
  | .retain => 1
  | .off => 2
  | .moving _ _ => 3

/-- A tile's clock and power (R563 to R574). -/
structure PwrTile where
  st : TilePower := .off
  /-- A request that waits for the end of a transition. -/
  wait : Option Nat := none
  /-- A completed RETAIN to RUN: the clock restarts at the next edge. -/
  restart : Bool := false
  cap : Nat := 0
  /-- CAP decided at the seal, and whether the decision is a limit. -/
  newCap : Option (Nat × Bool) := none
  opp : Nat := 0
  /-- The point whose voltage the regulators have reached, and whether a step runs. -/
  volt : Nat := 0
  stepping : Bool := false
  /-- The point whose voltage was asked for at the last edge, and the one that the running step reaches (R564). -/
  want : Nat := 0
  stepTo : Nat := 0
  /-- The point whose voltage had been reached at the last seal. -/
  voltSealed : Nat := 0
  /-- Consecutive seals with a stack in THROTTLE. -/
  thr : Nat := 0
  raise : Nat := 0
  divided : Bool := false
  tmax : Int := 0
  tcl : Nat := 0
  peak : Option Int := none
  deriving DecidableEq, Repr

/-- A PLL (R560, R576): losses of lock since reset and in the count window. Domain t: core clock of tile t; 4 + t: fabric
clock of tile t; 8 + q: port q; 32: Neano; 33: Hub. -/
structure Pll where
  lock : Bool := false
  failed : Bool := false
  unlocks : Nat := 0
  win : Nat := 0
  deriving DecidableEq, Repr

/-! ## Security, start-up, Hub, management (19, 20, 21) -/

/-- Fuses: kept over device reset (R581, R594, R587, R588). -/
structure Fuses where
  state : Nat := 1
  ownerSet : Bool := false
  owner : List Byte := []
  /-- Digests of the four vendor key slots; none is revoked or empty. -/
  vkeys : List (Option (List Byte)) := [some Config.vendorDigest, none, none, none]
  svnMin : List Nat := [0, 0, 0, 0, 0, 0, 0, 0]
  mac : Nat := 0
  deriving DecidableEq, Repr

/-- A tenant grant (R598). -/
structure Grant where
  perms : Nat
  expiry : Nat
  digest : List Byte
  /-- Path of its token: 0 hosting software, 1 JTAG, 2 management port. -/
  path : Nat := 0
  deriving DecidableEq, Repr

/-- JTAG instructions (R599), 5 bits in the instruction register: DBG_ACCESS is 0b1_0000, DBG_TOKEN 0b1_0001. -/
inductive JtagIr where
  | bypass | idcode | sample | extest | dbgAccess | dbgToken
  deriving DecidableEq, Repr

/-- The start-up and the security root (R581 to R608). -/
structure Sec where
  stage : Nat := 0
  slot : Nat := 0
  failStage : Nat := 0
  /-- Start-up stands stopped at its stage (R584). -/
  halted : Bool := false
  /-- Stages 3 and 4 have ended. -/
  memDone : Bool := false
  linksDone : Bool := false
  readyTempo : Nat := 0
  /-- Image SVNs and key slot of the booted slot; whether it holds the highest SVNs. -/
  svns : List Nat := []
  /-- The vendor key slot that the ROM's manifest matched. -/
  vkey : Option Nat := none
  /-- The manifest that the ROM accepted, whose firmware FS1 reads. -/
  boot : Option Manifest := none
  highest : Bool := true
  locks : Nat := 0
  /-- Locks that the configuration block asks for. -/
  cfgLocks : Nat := 0
  /-- VENDOR-DEBUG or RMA entered, and the scrub that leads to one. -/
  debug : Option Nat := none
  scrub : Option Nat := none
  nonceOk : Bool := false
  attest : Bool := false
  token : Bool := false
  result : Nat := 0
  reason : Nat := 0
  checked : Nat := 0
  grants : FMap Grant := []
  perms : Nat := 0
  expiry : Nat := 0
  /-- Path of the token under check: 0 hosting software, 1 JTAG, 2 management port. -/
  path : Nat := 0
  /-- Current JTAG instruction; IEEE 1149.1 resets it to IDCODE. -/
  ir : JtagIr := .idcode
  /-- The boundary-scan cells that PRELOAD loaded. -/
  cells : Nat := 0
  /-- A reset has ended VENDOR-DEBUG or TENANT-DEBUG, and its SEC_STATE_CHANGE is still to be raised. -/
  changed : Bool := false
  deriving DecidableEq, Repr

/-- Hart states (R623). -/
inductive HartState where
  | inService | spare | fenced | retired
  deriving DecidableEq, Repr

/-- The code of a hart's state. -/
def HartState.code : HartState → Nat
  | .inService => 0
  | .spare => 1
  | .fenced => 2
  | .retired => 3

/-- Privilege modes of a control core (R609). -/
inductive HartMode where
  | m | s | u
  deriving DecidableEq, Repr

/-- What RV64GCV gives a control core (R609): privilege mode, program counter, integer, floating-point and vector registers
(VLEN = 256), control and status registers (satp and the 16 PMP entries among them, by number), and mtimecmp. mhartid is the hart's
logical number, mtime the system time of TMP_TIME. No row of the table executes an instruction of a control core: only a graft
writes here (log entry 134). -/
structure HartArch where
  mode : HartMode := .m
  pc : Word := 0
  x : FMap Word := []
  f : FMap Word := []
  v : FMap (BitVec 256) := []
  csr : FMap Word := []
  mtimecmp : Word := 0
  deriving DecidableEq, Repr

/-- A physical control core (R609, R619, R623). -/
structure Hart where
  st : HartState
  logical : Nat
  kick : Nat := 0
  watched : Bool := false
  arch : HartArch := {}
  deriving DecidableEq, Repr

/-- A management debug session (R622): MAC, last SEQ and the reply to it, and the bytes of a RECOVERY transfer written so
far. -/
structure Session where
  mac : Nat
  seq : Option Nat := none
  reply : List Nat := []
  rec_ : Nat := 0
  deriving DecidableEq, Repr

/-- What a command gives out to its sender or to the wires (the model's own record of it; log entry 2). -/
inductive Out where
  /-- A value read or popped. -/
  | value (v : Nat)
  /-- The access took a bus error. -/
  | busError
  /-- The data was delivered poisoned. -/
  | poisoned
  /-- Bytes delivered. -/
  | bytes (bs : List Byte)
  /-- A packet leaves on a port with a link sequence number. -/
  | packet (port seq : Nat) (p : Packet)
  /-- A packet is delivered to the unit that its type and address name. -/
  | delivered (p : Packet)
  /-- A frame, link word or message sent: a kind and its fields. -/
  | sent (kind : Nat) (fields : List Nat)
  deriving DecidableEq, Repr

end Sys2Proof.Machine
end

