-- ==== Sys2Proof/Machine/Dev.lean ====
section
/-! DEFINITION. The whole device as one structure of plain data. -/
namespace Sys2Proof.Machine

/-- Partition states (R494). -/
inductive PartState where
  | free | loading | running | noticed | revoking | ended | halted
  deriving DecidableEq, Repr

/-- The code of a partition state (R494). -/
def PartState.code : PartState → Nat
  | .free => 0
  | .loading => 1
  | .running => 2
  | .noticed => 3
  | .revoking => 4
  | .ended => 5
  | .halted => 6

/-- A notice of castling (R495): AT, whether by KILL, whether a seal has followed its acceptance. -/
structure Notice where
  at_ : Nat
  killed : Bool
  sealed : Bool := false
  deriving DecidableEq, Repr

/-- A partition (R485 to R499). -/
structure Part where
  st : PartState := .free
  epoch : Nat := 0
  loadPending : Bool := false
  resumed : Bool := false
  reason : Nat := 0
  /-- Job named by the loaded image; SHAKE256 of the image; its tenant key digest. -/
  job : Nat := 0
  image : List Byte := []
  tenant : List Byte := []
  /-- HBM pages that the loader assigned to the loaded program, as runs: tile, first page of its range, pages (R490). -/
  pages : List (Nat × Nat × Nat) := []
  /-- The image under load, and the one of a pending LOAD. -/
  loading : Option Image := none
  pending : Option Image := none
  /-- A pending castling, and one held while LOADING. -/
  notice : Option Notice := none
  held : Option Notice := none
  /-- Commit edge of the revocation under way, whether from KILL, descriptors it aborted. -/
  edge : Nat := 0
  killed : Bool := false
  aborts : Nat := 0
  ring : Option Nat := none
  /-- Lowest core (within the partition) that missed the last sample; edges with a miss in the window of R59. -/
  miss : Option Nat := none
  /-- Sequencers and engines that stood halted when the recovery under way began, and when its first memory fault was reported
  (R538): core c's sequencer as c, its engine e as 1000e + c. -/
  before : List Nat := []
  beforeMem : Option (List Nat) := none
  window : List Nat := []
  /-- Descriptors that the running model has taken, and those presented again that wait for a sampling (R59): ring, address
  of word 7. -/
  taken : List (Nat × Nat) := []
  again : List (Nat × Nat) := []
  deriving DecidableEq, Repr

/-- The device. -/
structure Dev where
  /-- Register words that stand as written, by address; an unlisted register holds its reset value. -/
  regs : FMap Word := []
  mem : Mem := {}
  /-- Scratchpads by logical core c at key c; grove memories by cluster g at key 1000 + g. -/
  srams : FMap Sram := []
  hbm : FMap HbmTile := []
  nea : FMap NeaCtx := []
  /-- LPDDR5X packages by physical number. -/
  pkgs : FMap NeaPkg := []
  /-- Slow-tier packages in service: K of R375. -/
  slowK : Nat := 8
  /-- Receive area, by sender context (R398). -/
  mirrors : FMap MirrorRegion := []
  phys : FMap PhysCore := []
  cores : FMap Core := []
  sems : FMap Sem := []
  semReqs : List SemReq := []
  semDone : List SemDone := []
  nextReq : Nat := 0
  gens : FMap GenTable := []
  dma : FMap DmaEng := []
  /-- Check-value units: 2g + u of cluster g, 32 + q of port q. -/
  cvus : FMap Cvu := []
  ports : FMap Port := []
  links : FMap Link := []
  meshes : FMap Mesh := []
  reds : FMap RedPart := []
  /-- REDUCE and GATHER packets that stay in the link buffer (R460, R461). -/
  redHeld : List QPkt := []
  /-- Port engines whose stages have moved, and moves due at a step boundary (R464, R484). -/
  peFailed : NSet := []
  peMoves : FMap Due := []
  parts : FMap Part := []
  /-- Tempo number in force (R37). -/
  tempo : Nat := 0
  tmp : TempoUnit := {}
  /-- Staged sets 0 to 4 (R52). -/
  sets : FMap StagedSet := []
  /-- Between the seal and E + 8 ns, and the writes that wait (R50). -/
  stalling : Bool := false
  stalled : List Stalled := []
  pwr : FMap PwrTile := []
  plls : FMap Pll := []
  watts : Nat := 0
  wattsPeak : Nat := 0
  /-- Currents of the cluster regulators in A, latched at the last seal (R566). -/
  amps : List Nat := []
  /-- Gated blocks that have been accessed in this Tempo (R572). -/
  gated : List Nat := []
  fuses : Fuses := {}
  /-- Flash slot B as a recovery transfer wrote it (R622). -/
  flashB : Option Manifest := none
  sec : Sec := {}
  harts : FMap Hart := []
  /-- Mailboxes: 2p up, 2p + 1 down of partition p, oldest first (R616). -/
  mail : FMap (List Word) := []
  /-- Management link: up, FEC in use, session (R620, R622, R629). -/
  mgtUp : Bool := false
  mgtFec : Nat := 0
  session : Option Session := none
  /-- Pins: RESET_N, VIN above its threshold, THERMTRIP_N low; the device stands stopped (R558, R560, R569). -/
  resetN : Bool := false
  vin : Bool := true
  trip : Bool := false
  stopped : Bool := false
  raised : List Raised := []
  faults : List FaultPart := []
  prunes : List Prune := []
  /-- Cores whose prune has been reported and acts in the next clk: logical core and event (R535). -/
  pruneDue : List (Nat × Nat) := []
  /-- Outputs of the last command (model's own). -/
  outs : List Out := []
  /-- Counter that free values are taken at (model's own). -/
  fresh : Nat := 0
  deriving DecidableEq, Repr

end Sys2Proof.Machine
end

