-- ==== Sys2Proof/Machine/Events.lean ====
section
/-! DEFINITION. Register words, partitions and cores by number, which tiles run, events and recoveries (R485, R530, R543,
R549, R550, R573). -/
namespace Sys2Proof.Machine

/-! ## Registers as stored words -/

/-- The stored word of a register instance. -/
def Dev.reg (d : Dev) (r : Reg) : Word := FMap.getD d.regs r.addr r.resetVal

/-- Store a register word. -/
def Dev.setReg (d : Dev) (r : Reg) (v : Word) : Dev := { d with regs := FMap.set d.regs r.resetVal r.addr v }

/-- A field of a stored register. -/
def Dev.regFld (d : Dev) (r : Reg) (hi lo : Nat) : Nat := fld hi lo (d.reg r)

/-- A register returns to its reset value. -/
def Dev.regReset (d : Dev) (r : Reg) : Dev := d.setReg r r.resetVal

/-- Registers of one unit return to their reset values. -/
def Dev.regsReset (d : Dev) (ks : List RK) (is : List Nat) : Dev := ks.foldl (fun (d : Dev) k => d.regReset ⟨k, is⟩) d

/-- Replace a field of a stored register. -/
def Dev.setRegFld (d : Dev) (r : Reg) (hi lo v : Nat) : Dev := d.setReg r (setFld hi lo v (d.reg r))

/-- Add to a saturating counter field. -/
def Dev.count (d : Dev) (r : Reg) (hi lo k : Nat) : Dev :=
  d.setRegFld r hi lo (satAdd (hi + 1 - lo) (d.regFld r hi lo) k)

/-! ## Units -/

/-- Logical core c. -/
def Dev.core (d : Dev) (c : Nat) : Core := FMap.getD d.cores c {}

/-- Replace logical core c. -/
def Dev.setCore (d : Dev) (c : Nat) (x : Core) : Dev := { d with cores := FMap.set d.cores {} c x }

/-- Change logical core c. -/
def Dev.onCore (d : Dev) (c : Nat) (f : Core → Core) : Dev := d.setCore c (f (d.core c))

/-- Change the sequencer of core c. -/
def Dev.onSq (d : Dev) (c : Nat) (f : Sq → Sq) : Dev := d.onCore c (fun x => { x with sq := f x.sq })

/-- Change the matrix engine of core c. -/
def Dev.onMe (d : Dev) (c : Nat) (f : Me → Me) : Dev := d.onCore c (fun x => { x with me := f x.me })

/-- Change the vector engine of core c. -/
def Dev.onVe (d : Dev) (c : Nat) (f : Ve → Ve) : Dev := d.onCore c (fun x => { x with ve := f x.ve })

/-- Change the fetch engine of core c. -/
def Dev.onFte (d : Dev) (c : Nat) (f : Fte → Fte) : Dev := d.onCore c (fun x => { x with fte := f x.fte })

/-- Engine e of a core: 1 matrix, 2 vector, 3 fetch (R229). -/
def Core.eng (x : Core) (e : Nat) : Eng :=
  match e with
  | 1 => x.me.eng
  | 2 => x.ve.eng
  | _ => x.fte.eng

/-- Replace engine e of a core. -/
def Core.setEng (x : Core) (e : Nat) (g : Eng) : Core :=
  match e with
  | 1 => { x with me := { x.me with eng := g } }
  | 2 => { x with ve := { x.ve with eng := g } }
  | _ => { x with fte := { x.fte with eng := g } }

/-- Change engine e of core c. -/
def Dev.onEng (d : Dev) (c e : Nat) (f : Eng → Eng) : Dev := d.onCore c (fun x => x.setEng e (f (x.eng e)))

/-- Semaphore k (R227). -/
def Dev.sem (d : Dev) (k : Nat) : Sem := FMap.getD d.sems k {}

/-- Replace semaphore k. -/
def Dev.setSem (d : Dev) (k : Nat) (x : Sem) : Dev := { d with sems := FMap.set d.sems {} k x }

/-- Partition p. -/
def Dev.part (d : Dev) (p : Nat) : Part := FMap.getD d.parts p {}

/-- Change partition p. -/
def Dev.onPart (d : Dev) (p : Nat) (f : Part → Part) : Dev :=
  { d with parts := FMap.set d.parts {} p (f (d.part p)) }

/-- Generation table of partition p. -/
def Dev.gen (d : Dev) (p : Nat) : GenTable := FMap.getD d.gens p {}

/-- Replace a generation table. -/
def Dev.setGen (d : Dev) (p : Nat) (x : GenTable) : Dev := { d with gens := FMap.set d.gens {} p x }

/-- Scratchpad or grove memory by its key (core c, or 1000 + cluster). -/
def Dev.sram (d : Dev) (u : Nat) : Sram := FMap.getD d.srams u {}

/-- Change a scratchpad or grove memory. -/
def Dev.onSram (d : Dev) (u : Nat) (f : Sram → Sram) : Dev := { d with srams := FMap.set d.srams {} u (f (d.sram u)) }

/-- Bank b of a memory. -/
def Sram.bank (x : Sram) (b : Nat) : Bank := FMap.getD x.banks b {}

/-- Change bank b. -/
def Sram.onBank (x : Sram) (b : Nat) (f : Bank → Bank) : Sram := { x with banks := FMap.set x.banks {} b (f (x.bank b)) }

/-- What a physical core holds before anything happened to it (R554). -/
def PhysCore.init (i : Nat) : PhysCore :=
  if i % 28 < 24 then { st := .inService, logical := i % 28 } else { st := .spare, logical := 0x1F }

/-- Physical core i = 28g + k. -/
def Dev.physCore (d : Dev) (i : Nat) : PhysCore := FMap.getD d.phys i (PhysCore.init i)

/-- Change a physical core. -/
def Dev.onPhys (d : Dev) (i : Nat) (f : PhysCore → PhysCore) : Dev :=
  { d with phys := FMap.set d.phys (PhysCore.init i) i (f (d.physCore i)) }

/-- Cluster of a core. -/
def clusterOf (c : Nat) : Nat := c / 24

/-- Tile of a core. -/
def tileOf (c : Nat) : Nat := c / 96

/-- The physical core that serves logical core c (R554); none where it is mapped out. -/
def Dev.physOf (d : Dev) (c : Nat) : Option Nat :=
  (upTo 28).findSome? (fun k =>
    let i := 28 * clusterOf c + k
    let x := d.physCore i
    if x.logical = c % 24 ∧ (x.st = .inService ∨ x.st = .standIn ∨ x.st = .pruned) then some i else none)

/-- The cluster's IN_SERVICE count of R553 and the mapped-out logical cores: a logical core is in service while some
physical core serves it. -/
def Dev.inService (d : Dev) (c : Nat) : Bool := (d.physOf c).isSome

/-! ## Partitions and tiles (R485) -/

/-- SHAPE in force. -/
def Dev.shape (d : Dev) : Nat := d.regFld ⟨.prtShape, []⟩ 1 0

/-- Number of partitions of the shape. -/
def shapeParts (sh : Nat) : Nat :=
  match sh with
  | 0 => 1
  | 1 => 2
  | _ => 4

/-- Partition of a tile under a shape (R485). -/
def partOfTile (sh t : Nat) : Nat :=
  match sh with
  | 0 => 0
  | 1 => t / 2
  | _ => t

/-- Partition of tile t. -/
def Dev.tilePart (d : Dev) (t : Nat) : Nat := partOfTile d.shape t

/-- Partition of core c. -/
def Dev.corePart (d : Dev) (c : Nat) : Nat := d.tilePart (tileOf c)

/-- Partition of cluster g. -/
def Dev.clusterPart (d : Dev) (g : Nat) : Nat := d.tilePart (g / 4)

/-- Tiles of partition p. -/
def Dev.partTiles (d : Dev) (p : Nat) : List Nat := (upTo 4).filter (fun t => d.tilePart t = p)

/-- Logical cores of partition p. -/
def Dev.partCores (d : Dev) (p : Nat) : List Nat := (upTo 384).filter (fun c => d.corePart c = p)

/-- Clusters of partition p. -/
def Dev.partClusters (d : Dev) (p : Nat) : List Nat := (upTo 16).filter (fun g => d.clusterPart g = p)

/-! ## Power and clock of a tile -/

/-- Clock and power record of tile t. -/
def Dev.ptile (d : Dev) (t : Nat) : PwrTile := FMap.getD d.pwr t {}

/-- Change a tile's record. -/
def Dev.onTile (d : Dev) (t : Nat) (f : PwrTile → PwrTile) : Dev := { d with pwr := FMap.set d.pwr {} t (f (d.ptile t)) }

/-- PLL of a domain (R560): t core clock and 4 + t fabric clock of tile t, 8 + q port q, 32 Neano, 33 Hub. -/
def Dev.pll (d : Dev) (k : Nat) : Pll := FMap.getD d.plls k {}

/-- Change a PLL. -/
def Dev.onPll (d : Dev) (k : Nat) (f : Pll → Pll) : Dev := { d with plls := FMap.set d.plls {} k (f (d.pll k)) }

/-- PLL k has lost its lock and holds its domain's clock stopped (R560); a tile in P3 has no clocks to lose (R573). -/
def Dev.lost (d : Dev) (k : Nat) : Bool :=
  let x := d.pll k
  !x.lock && !x.failed && decide (x.unlocks ≠ 0) &&
    (decide (32 ≤ k) || decide ((d.ptile (if k < 8 then k % 4 else (k - 8) / 6)).st ≠ .off))

/-- Port q's lanes and its controller have their clocks (R559, R560). -/
def Dev.portRuns (d : Dev) (q : Nat) : Bool := !d.lost (8 + q) && !d.lost (4 + q / 6)

/-- The core clock of tile t runs (R560, R573, R574): the tile is in P0 or P1 and its PLL is locked. -/
def Dev.tileOn (d : Dev) (t : Nat) : Bool :=
  decide ((d.ptile t).st = .run) && !(d.ptile t).restart && (d.pll t).lock

/-- The fabric clock of tile t runs: not in P3, and its PLL is locked. -/
def Dev.fabricOn (d : Dev) (t : Nat) : Bool :=
  (match (d.ptile t).st with
   | .run | .retain => true
   | .off => false
   | .moving a b => decide (a ≠ 2) && decide (b ≠ 2)) && (d.pll (4 + t)).lock

/-! ## Events (R548 to R550) -/

/-- The class of an event code (R550). -/
def evClass (code : Nat) : EvClass :=
  if [0x0102, 0x010A, 0x0205, 0x0602, 0x0604, 0x0702, 0x0704, 0x0A03, 0x0A07, 0x0A08, 0x0A0D, 0x0B01, 0x0B03, 0x0C04,
      0x0C0A, 0x0C45, 0x0C46, 0x1001, 0x1105, 0x1401, 0x1404].contains code then .fault
  else if [0x0105, 0x0107, 0x010C, 0x0B05, 0x0B0D, 0x0B0E, 0x0F25, 0x1106, 0x1202].contains code then .stop
  else if [0x0206, 0x0207, 0x0605, 0x0705, 0x0707, 0x0A09, 0x0A0A, 0x0A0B, 0x0A0E, 0x0A0F, 0x0B04, 0x0C05, 0x0C0B,
      0x0F21, 0x0F22, 0x0F24, 0x1402, 0x1403].contains code then .spare
  else if [0x0101, 0x0103, 0x0104, 0x0109, 0x010B, 0x0601, 0x0701, 0x0A01, 0x0A02, 0x0A05, 0x0A06, 0x0A0C, 0x0B02,
      0x0B06, 0x0B0C, 0x0C01, 0x0C03, 0x0C07, 0x0C41, 0x0C42, 0x0C43, 0x0C44, 0x0C48, 0x0C49, 0x0C4A, 0x0F15, 0x1104,
      0x1501].contains code then .corr
  else if [0x0509, 0x050A, 0x050B, 0x0801, 0x0802, 0x0901, 0x0A04, 0x0B07, 0x0B0A, 0x0B0B, 0x0C4B, 0x0F01, 0x0F03,
      0x0F04, 0x0F20, 0x0F23, 0x0F26, 0x0F27, 0x1101, 0x1102, 0x1103, 0x1203, 0x1205, 0x1301, 0x1502].contains code then .info
  else .prog

/-- The class code of a record (R613). -/
def EvClass.code : EvClass → Nat
  | .info => 0
  | .prog => 1
  | .corr => 2
  | .fault => 3
  | .spare => 4
  | .stop => 5

/-- A record as its 128 bits (R613). -/
def Raised.bits (r : Raised) : Nat :=
  r.code % 2 ^ 16 + r.cls.code * 2 ^ 16 + ((r.part.getD 0) % 4) * 2 ^ 19 + (if r.part.isNone then 2 ^ 21 else 0) +
  (r.unit % 2 ^ 16) * 2 ^ 32 + (r.tempo % 2 ^ 32) * 2 ^ 64 + (r.detail % 2 ^ 32) * 2 ^ 96

/-- Raise an event: it waits to be written as a record (R613). -/
def Dev.raiseAs (d : Dev) (cls : EvClass) (code : Nat) (part : Option Nat) (unit detail : Nat) : Dev :=
  { d with raised := d.raised ++ [⟨code, cls, part, unit, detail, d.tempo⟩] }

/-- Raise an event of the class R550 gives it. -/
def Dev.raise (d : Dev) (code : Nat) (part : Option Nat) (unit : Nat) : Dev :=
  d.raiseAs (evClass code) code part unit 0

/-- DBG_DENIED: counted, raised (R590, R600). -/
def Dev.denied (d : Dev) : Dev := (d.count ⟨.dbgStatus, []⟩ 23 8 1).raise 0x1302 none 0

/-- Raise an event of a core (UNIT its logical index). -/
def Dev.raiseCore (d : Dev) (code c : Nat) : Dev := d.raise code (some (d.corePart c)) c

/-- Is a recovery of partition p in progress? -/
def Dev.recovering (d : Dev) (p : Nat) : Bool := d.faults.any (fun f => f.part = some p)

/-- What stands halted in partition p: core c's sequencer as c, its engine e as 1000e + c. -/
def Dev.haltedUnits (d : Dev) (p : Nat) : List Nat :=
  (d.partCores p).flatMap (fun c =>
    (if (d.core c).sq.st = .halted then [c] else []) ++
      ([1, 2, 3].filter (fun e => ((d.core c).eng e).halt)).map (fun e => 1000 * e + c))

/-- Memory faults (R538): uncorrectable words, failing banks and rows, failed interfaces. -/
def memFault (code : Nat) : Bool := [0x0602, 0x0604, 0x0702, 0x0704, 0x0A03, 0x0A07, 0x0A08, 0x0A0D].contains code

/-- When a graft or map-out that a fault of partition p schedules falls due (R541): after a fault in NOTICED or REVOKING it waits
for the partition's next program (15). -/
def Dev.dueOf (d : Dev) (p : Nat) : Due :=
  match (d.part p).st with
  | .noticed | .revoking => .deferred
  | _ => .reported

/-- What a partition notes of a fault for the restarts of R538. -/
def Dev.faultNote (d : Dev) (code p : Nat) : Dev :=
  let first := !d.recovering p
  let h := if first || memFault code then d.haltedUnits p else []
  d.onPart p (fun x => { x with
    before := if first then h else x.before
    beforeMem := if memFault code then some ((if first then none else x.beforeMem).getD h) else if first then none else x.beforeMem })

/-- A fault joins, or begins, the recovery of partition p (R530, R543). -/
def Dev.faultPart (d : Dev) (code p : Nat) (rs : List Remedy) : Dev :=
  let d0 := d.faultNote code p
  let d1 := if d.recovering p then d0.raise 0x0F26 (some p) 0x1FF
    else (d0.count ⟨.prtRecovery, []⟩ 47 16 1).setRegFld ⟨.prtRecovery, []⟩ 63 48 code
  { d1 with faults := d1.faults ++ [⟨code, some p, rs⟩] }

/-- Report a fault that concerns partition p: raise its event and begin a recovery (R530). -/
def Dev.faultIn (d : Dev) (code p unit : Nat) (rs : List Remedy) : Dev :=
  (d.raise code (some p) unit).faultPart code p rs

/-- Partitions that hold a program (any state but FREE). -/
def Dev.ownedParts (d : Dev) : List Nat :=
  (upTo (shapeParts d.shape)).filter (fun p => (d.part p).st ≠ .free)

/-- Report a fault of a device-level unit used by the partitions `ps` (R530). -/
def Dev.faultDevice (d : Dev) (code unit : Nat) (ps : List Nat) (rs : List Remedy) : Dev :=
  let d1 := d.raise code none unit
  let d2 := if ps.isEmpty && !d.faults.any (fun f => f.part = none) then (d1.count ⟨.prtRecovery, []⟩ 47 16 1).setRegFld ⟨.prtRecovery, []⟩ 63 48 code else d1
  ps.foldl (fun d p => d.faultPart code p rs) { d2 with faults := d2.faults ++ [⟨code, none, rs⟩] }

/-- A remedy takes effect: it leaves every fault that scheduled it (R530). The recovery itself ends at an edge. -/
def Dev.remedyDone (d : Dev) (r : Remedy) : Dev :=
  { d with faults := d.faults.map (fun f => { f with remedies := f.remedies.filter (fun x => x ≠ r) }) }

/-- Report that core c is to be pruned, with the event of the fault (R535): it acts in the next clk. -/
def Dev.duePrune (d : Dev) (c code : Nat) : Dev :=
  if d.pruneDue.any (fun x => x.1 = c) then d else { d with pruneDue := d.pruneDue ++ [(c, code)] }

/-- Give something out to the sender or the wires. -/
def Dev.out (d : Dev) (o : Out) : Dev := { d with outs := d.outs ++ [o] }

/-- Advance the counter of free values. -/
def Dev.tick (d : Dev) : Dev := { d with fresh := d.fresh + 1 }

end Sys2Proof.Machine
end

