-- ==== Sys2Proof/Machine/Route.lean ====
section
/-! DEFINITION. Ports, links and meshes by number, and the routes of packets (R426, R427). -/
namespace Sys2Proof.Machine

/-! ## Ports, links, meshes by number -/

/-- Port q. -/
def Dev.port (d : Dev) (q : Nat) : Port := FMap.getD d.ports q {}

/-- Change port q. -/
def Dev.onPort (d : Dev) (q : Nat) (f : Port → Port) : Dev := { d with ports := FMap.set d.ports {} q (f (d.port q)) }

/-- Link l; 24 is the tile mesh to the device itself, 25 holds packets without a link. -/
def Dev.link (d : Dev) (l : Nat) : Link := FMap.getD d.links l {}

/-- Change link l. -/
def Dev.onLink (d : Dev) (l : Nat) (f : Link → Link) : Dev := { d with links := FMap.set d.links {} l (f (d.link l)) }

/-- The mesh of tile t. -/
def Dev.mesh (d : Dev) (t : Nat) : Mesh := FMap.getD d.meshes t {}

/-- Change it. -/
def Dev.onMesh (d : Dev) (t : Nat) (f : Mesh → Mesh) : Dev := { d with meshes := FMap.set d.meshes {} t (f (d.mesh t)) }

/-- Own device ID (R440). -/
def Dev.ownId (d : Dev) : Nat := d.regFld ⟨.dvoCoord, []⟩ 17 0

/-- ROLE of a port (R446). -/
def Dev.portRole (d : Dev) (q : Nat) : Nat := d.regFld ⟨.dvoPortCfg, [q]⟩ 1 0

/-- LINK of a port; 24 and more: none. -/
def Dev.portLink (d : Dev) (q : Nat) : Nat := d.regFld ⟨.dvoPortCfg, [q]⟩ 6 2

/-- Does the port carry its link's traffic? -/
def Port.carries (x : Port) : Bool := decide (x.st = .up) && !x.hold

/-- The UP members of link l, in ascending port number. -/
def Dev.upMembers (d : Dev) (l : Nat) : List Nat :=
  (upTo 24).filter (fun q => (d.port q).carries && decide (d.portLink q = l))

/-- Record an event of port q and raise it (R448). -/
def Dev.portEvent (d : Dev) (q code : Nat) : Dev := (d.onPort q (fun x => { x with event := code })).raise code none q

/-! ## Routing (R426, R427) -/

/-- Where a packet goes. -/
inductive Route where
  | mesh
  | via (l : Nat) (dl : Bool)
  | nowhere
  deriving DecidableEq, Repr

/-- Coordinate i of an ID. -/
def coordOf (id i : Nat) : Nat := bits (6 * i + 5) (6 * i) id

/-- Positions of dimension i. -/
def Dev.dim (d : Dev) (i : Nat) : Nat := d.regFld ⟨.dvoCoord, []⟩ (24 + 7 * i) (18 + 7 * i)

/-- Does dimension i wrap? -/
def Dev.wraps (d : Dev) (i : Nat) : Bool := bit (39 + i) (d.reg ⟨.dvoCoord, []⟩)

/-- DIR of a link (R444). -/
def Dev.linkDir (d : Dev) (l : Nat) : Nat := d.regFld ⟨.dvoLink, [l]⟩ 2 0

/-- Dimension of a DIR. -/
def dirDim (dir : Nat) : Option Nat := if 1 ≤ dir ∧ dir ≤ 6 then some ((dir - 1) / 2) else none

/-- The override entry that matches a destination (R427). -/
def Dev.override (d : Dev) (dst : Nat) : Option Nat :=
  (upTo 64).findSome? (fun i =>
    let v := d.reg ⟨.dvoOvr, [i]⟩
    if bit 41 v ∧ dst &&& fld 35 18 v = fld 17 0 v then some (fld 40 36 v) else none)

/-- The direction of dimension-order routing: a DIR code, where own and destination coordinates differ. -/
def Dev.routeDir (d : Dev) (dst : Nat) : Option Nat :=
  match (upTo 3).find? (fun i => coordOf dst i ≠ coordOf d.ownId i) with
  | none => none
  | some i =>
    let n := max 1 (d.dim i)
    let own := coordOf d.ownId i
    let dest_ := coordOf dst i
    let dist := (dest_ + n - own % n) % n
    let plus := if d.wraps i then decide (dist ≤ n - dist) else decide (own < dest_)
    some (if plus then 2 * i + 1 else 2 * i + 2)

/-- The lowest-numbered link of a direction with an UP member; without one, the lowest-numbered of the direction, where
the packet waits (R427, R430). -/
def Dev.dirLink (d : Dev) (dir : Nat) : Option Nat :=
  let ls := (upTo 24).filter (fun l => d.linkDir l = dir)
  match ls.find? (fun l => !(d.upMembers l).isEmpty) with
  | some l => some l
  | none => ls.head?

/-- Does a hop over a link of direction dir wrap? -/
def Dev.hopWraps (d : Dev) (dir : Nat) : Bool :=
  match dirDim dir with
  | none => false
  | some i =>
    if dir % 2 = 1 then decide (coordOf d.ownId i + 1 = d.dim i) else decide (coordOf d.ownId i = 0)

/-- The route of a packet that came over a link of dimension `from_` (none: it starts here). -/
def Dev.route (d : Dev) (p : Packet) (from_ : Option Nat) : Route :=
  if p.dst = d.ownId then .mesh
  else
    let l := match d.override p.dst with
      | some l => some l
      | none =>
        match d.routeDir p.dst with
        | some dir => d.dirLink dir
        | none => none
    match l with
    | none => .nowhere
    | some l =>
      let dir := d.linkDir l
      let change := match from_, dirDim dir with
        | some a, some b => decide (a ≠ b)
        | _, _ => false
      .via l (if d.hopWraps dir then true else if change then false else p.dl)

/-- Queue a packet on its route. -/
def Dev.enqueue (d : Dev) (x : QPkt) (from_ : Option Nat) : Dev :=
  match d.route x.pkt from_ with
  | .mesh => d.onLink 24 (fun k => { k with txq := k.txq ++ [x] })
  | .via l dl => d.onLink l (fun k => { k with txq := k.txq ++ [{ x with pkt := { x.pkt with dl := dl } }] })
  | .nowhere => d.onLink 25 (fun k => { k with txq := k.txq ++ [x] })

/-- Send a packet of this device: SRC is its own ID. -/
def Dev.send (d : Dev) (p : Packet) : Dev :=
  d.enqueue { pkt := { p with src := d.ownId, hops := 0, dl := false } } none

/-- A packet can leave for device `dst`: it is this one, or its link has an UP member (R399, R430). -/
def Dev.reaches (d : Dev) (dst : Nat) : Bool :=
  match d.route { dst := dst, src := d.ownId, addr := 0, vc := 2, type := 0x12, len := 0 } none with
  | .nowhere => false
  | .mesh => true
  | .via l _ => !(d.upMembers l).isEmpty

end Sys2Proof.Machine
end

