-- ==== Sys2Proof/Machine/Sram.lean ====
section
/-! DEFINITION. Byte memories and the SRAM: addresses, word code, poison, injection, scrubbing, failing banks
(R283 to R292, R302, R309, R310). -/
namespace Sys2Proof.Machine

/-! ## Bytes -/

/-- HBM bytes of a tile's range: 108 GiB (R350). -/
def hbmTileBytes : Nat := 0x1B00000000

/-- What an unlisted byte reads as: zero, unless an event lost the contents (R299, R558, R573, R610). -/
def Mem.blank (m : Mem) (a : Nat) : Byte :=
  if a < 4 * hbmTileBytes then
    let e := FMap.getD m.hbmEra (a / hbmTileBytes) 0
    if e = 0 then 0 else Config.lostByte e a
  else if 0x0F0040000000 ≤ a ∧ a < 0x0F0050000000 then
    if m.hubEra = 0 then 0 else Config.lostByte m.hubEra a
  else if 0x020000000000 ≤ a ∧ a < 0x020028000000 then
    let g := (a - 0x020000000000) / 0x2800000
    let o := (a - 0x020000000000) % 0x2800000
    let n := 80 - FMap.getD m.grvMapped g 0
    if o < n * 0x80000 then
      let e := FMap.getD m.grvEra (80 * g + o / 64 % n) 0
      if e = 0 then 0 else Config.lostByte e a
    else 0
  else 0

/-- The byte at an address. -/
def Mem.get (m : Mem) (a : Nat) : Byte := FMap.getD m.bytes a (m.blank a)

/-- Store a byte, keeping the canonical form. -/
def Mem.put (m : Mem) (a : Nat) (v : Byte) : Mem := { m with bytes := FMap.set m.bytes (m.blank a) a v }

/-- Store bytes from an address upward. -/
def Mem.putAll (m : Mem) (a : Nat) : List Byte → Mem
  | [] => m
  | b :: bs => (m.put a b).putAll (a + 1) bs

/-- Read n bytes. -/
def Mem.getAll (m : Mem) (a : Nat) : (n : Nat) → List Byte
  | 0 => []
  | n + 1 => m.get a :: m.getAll (a + 1) n

/-- The canonical form of the byte map (the model's invariant). -/
def Mem.wf (m : Mem) : Bool := FMap.wf m.blank m.bytes

/-! ## SRAM addresses (R283 to R285) -/

/-- First address of scratchpad c (R283). -/
def spdBase (c : Nat) : Nat := 0x030000000000 + 0x180000 * c

/-- Bytes of a scratchpad. -/
def spdBytes : Nat := 0x180000

/-- First address of grove memory g (R283). -/
def grvBase (g : Nat) : Nat := 0x020000000000 + 0x2800000 * g

/-- Key of grove memory g among the SRAMs. -/
def grvKey (g : Nat) : Nat := 1000 + g

/-- Key of a memory. -/
def sramKey : SramId → Nat
  | .spd c => c.val
  | .grv g => grvKey g.val

/-- Banks in service of the memory with key u (R285, R304). -/
def Dev.bankCount (d : Dev) (u : Nat) : Nat := if u < 1000 then 32 else 80 - FMap.getD d.mem.grvMapped (u - 1000) 0

/-- The SRAM that holds an address, and the offset in it; none outside (R283, R304). -/
def Dev.sramAt (d : Dev) (a : Nat) : Option (Nat × Nat) :=
  if 0x030000000000 ≤ a ∧ a < spdBase 384 then
    some ((a - 0x030000000000) / spdBytes, (a - 0x030000000000) % spdBytes)
  else if 0x020000000000 ≤ a ∧ a < grvBase 16 then
    let g := (a - 0x020000000000) / 0x2800000
    let o := (a - 0x020000000000) % 0x2800000
    if o < d.bankCount (grvKey g) * 0x80000 then some (grvKey g, o) else none
  else none

/-- Logical bank and bank row of an offset (R284, R285). -/
def Dev.bankRow (d : Dev) (u o : Nat) : Nat × Nat :=
  if u < 1000 then ((bits 10 6 o) ^^^ (bits 15 11 o), o >>> 11)
  else ((o >>> 6) % d.bankCount u, (o >>> 6) / d.bankCount u)

/-- The offset of a bank row (the inverse of R284, R285). -/
def Dev.rowOffset (d : Dev) (u b row : Nat) : Nat :=
  if u < 1000 then (row <<< 11) + ((b ^^^ (row % 32)) <<< 6)
  else (row * d.bankCount u + b) <<< 6

/-- First address of an SRAM. -/
def sramBase (u : Nat) : Nat := if u < 1000 then spdBase u else grvBase (u - 1000)

/-- Tile of an SRAM. -/
def sramTile (u : Nat) : Nat := if u < 1000 then tileOf u else (u - 1000) / 4

/-- The state that a bank shows (R298, R301, R573): its own, or what the power state of its tile makes of it. A tile in P2 holds
its ON banks in RET, one in P3 holds every bank OFF, and on the way between these a bank is in the transition that R298
names. -/
def Dev.bankState (d : Dev) (u b : Nat) : BankState :=
  let k := ((d.sram u).bank b).st
  match (d.ptile (sramTile u)).st with
  | .run => k
  | .retain => if k = .on then .ret else k
  | .off => .off
  | .moving a b =>
    if b = 2 then (if k = .off then .off else .down)
    else if a = 2 then .up
    else if k = .on then (if b = 1 then .enterRet else .wake)
    else k

/-- The bank of an address is ON (R298, R300); false outside SRAM. -/
def Dev.bankOn (d : Dev) (a : Nat) : Bool :=
  match d.sramAt a with
  | some (u, o) => decide (d.bankState u (d.bankRow u o).1 = .on)
  | none => false

/-- Is cluster g behind a mesh stop that cannot be reached (R438)? -/
def Dev.clusterCut (d : Dev) (g : Nat) : Bool := (d.mesh (g / 4)).cut.any (fun x => match x with
  | .cluster k => decide (k.val = g)
  | _ => false)

/-- An address in the SRAM of a cluster behind a cut stop. -/
def Dev.sramCut (d : Dev) (a : Nat) : Bool :=
  match d.sramAt a with
  | some (u, _) => d.clusterCut (if u < 1000 then clusterOf u else u - 1000)
  | none => false

/-- An address that an agent in cluster g cannot reach (R438): it lies in the SRAM of another cluster, one of the two behind a cut
stop, or outside the clusters where g itself is cut off. -/
def Dev.cutFrom (d : Dev) (g a : Nat) : Bool :=
  match d.sramAt a with
  | some (u, _) =>
    let h := if u < 1000 then clusterOf u else u - 1000
    decide (h ≠ g) && (d.clusterCut h || d.clusterCut g)
  | none => d.clusterCut g

/-- Is the memory a scratchpad? -/
def isSpd (u : Nat) : Bool := decide (u < 1000)

/-- Partition of an SRAM. -/
def Dev.sramPart (d : Dev) (u : Nat) : Nat := if isSpd u then d.corePart u else d.clusterPart (u - 1000)

/-- The SPD register of a scratchpad, or the GRV register of a grove memory. -/
def sramReg (u : Nat) (s g : RK) : Reg := if isSpd u then ⟨s, [u]⟩ else ⟨g, [u - 1000]⟩

/-! ## Errors (R288 to R290, R302) -/

/-- Number of ones of an error mask. -/
def popcount80 (x : BitVec 80) : Nat := ((upTo 80).filter (fun i => x.getLsbD i)).length

/-- Record an error in SPD_ECC or GRV_ECC (R309, R314). -/
def Dev.eccRecord (d : Dev) (u b row word : Nat) (ue : Bool) : Dev :=
  let r := sramReg u .spdEcc .grvEcc
  let d1 := if ue then d.count r 31 16 1 else d.count r 15 0 1
  if isSpd u then
    (((d1.setRegFld r 36 32 b).setRegFld r 46 37 row).setRegFld r 49 47 word).setRegFld r 50 50 (if ue then 1 else 0)
  else
    (((d1.setRegFld r 38 32 b).setRegFld r 51 39 row).setRegFld r 54 52 word).setRegFld r 55 55 (if ue then 1 else 0)

/-- The banks of a list of records, in canonical form. -/
def banksOf (l : List (Nat × Bank)) : FMap Bank := l.foldl (fun (m : FMap Bank) e => FMap.set m {} e.1 e.2) []

/-- A count window ends (R302): no bank has a corrected error counted. -/
def Sram.window (x : Sram) : Sram := { x with banks := banksOf (x.banks.map (fun e => (e.1, { e.2 with ce := 0 }))) }

/-- A bank has failed and is not yet replaced. -/
def Sram.bankDue (x : Sram) (b : Nat) : Bool := x.due.any (fun e => e.1 = b)

/-- A bank is found failing (R302): its bit is set, the event raised, the fault reported, the core of a scratchpad
pruned (R531). `code` is the event that the prune records; `joined`: the uncorrectable read that made it failing is
already the report of this fault, so that it is no second one (R543, log entry 13). -/
def Dev.bankFail (d : Dev) (u b code : Nat) (joined : Bool) : Dev :=
  if (d.sram u).bankDue b then d
  else
    let d1 := d.onSram u (fun x => { x with failing := NSet.add x.failing b, due := x.due ++ [(b, d.dueOf (d.sramPart u))] })
    let unit := if isSpd u then u else u - 1000
    let ev := if isSpd u then 0x0604 else 0x0704
    let d2 := if joined then d1.raise ev (some (d.sramPart u)) unit else d1.faultIn ev (d.sramPart u) unit [.bank u b]
    if isSpd u then d2.duePrune u code else d2

/-- CE_THRESH of a memory; 0 acts as 1 (R312). -/
def Dev.ceThresh (d : Dev) (u : Nat) : Nat := max 1 (d.regFld (sramReg u .spdCfg .grvCfg) 7 0)

/-- A corrected error of bank b (R289, R302). -/
def Dev.eccCorr (d : Dev) (u b row word : Nat) : Dev :=
  let unit := if isSpd u then u else u - 1000
  let d1 := (d.eccRecord u b row word false).raise (if isSpd u then 0x0601 else 0x0701) (some (d.sramPart u)) unit
  let d2 := d1.onSram u (fun x => x.onBank b (fun k => { k with ce := k.ce + 1 }))
  if d2.ceThresh u ≤ ((d2.sram u).bank b).ce then d2.bankFail u b (if isSpd u then 0x0604 else 0x0704) false else d2

/-- An uncorrectable read of bank b (R289, R302). -/
def Dev.eccUncorr (d : Dev) (u b row word : Nat) : Dev :=
  let unit := if isSpd u then u else u - 1000
  let code := if isSpd u then 0x0602 else 0x0702
  ((d.eccRecord u b row word true).faultIn code (d.sramPart u) unit [.bank u b]).bankFail u b code true

/-- What a read finds in a word: poisoned or not, and the device after it (R289, R290). `scrub`: a scrub read (R292). -/
def Dev.readWord (d : Dev) (w : Nat) (scrub : Bool) : Bool × Dev :=
  match d.sramAt (8 * w) with
  | none => (true, d)
  | some (u, o) =>
    let br := d.bankRow u o
    let k := w % 8
    let n := popcount80 (FMap.getD d.mem.err w 0)
    let uncorr := fun (d : Dev) =>
      if scrub && (d.sram u).bankDue br.1 then d else d.eccUncorr u br.1 br.2 k
    if NSet.has d.mem.poison w then
      -- two or three further errors: poisoned, or an uncorrectable word; the manual leaves it open (R290)
      if n < 2 then (true, d)
      else if n < 4 then
        let pick := (Config.freeWord d.fresh).getLsbD 0
        (true, if pick then uncorr d.tick else d.tick)
      else (true, uncorr d)
    else if n = 0 then (false, d)
    else if n < 3 then
      let d1 := d.eccCorr u br.1 br.2 k
      let m := d1.mem
      (false, { d1 with mem := { m with wback := if m.wback.contains w then m.wback else m.wback ++ [w] } })
    else (true, uncorr d)

/-- Read the words from w upward: the poisoned ones, and the device. -/
def Dev.readWords (d : Dev) (w : Nat) : (n : Nat) → List Bool × Dev
  | 0 => ([], d)
  | n + 1 =>
    let r := d.readWord w false
    let s := r.2.readWords (w + 1) n
    (r.1 :: s.1, s.2)

/-- A byte with whether it is delivered poisoned. -/
abbrev PByte := Byte × Bool

/-- A read of SRAM: the bank was not ON, or the bytes. -/
inductive SramRead where
  | off
  | ok (bs : List PByte)
  deriving DecidableEq, Repr

/-- Read n bytes of SRAM from address a (R289, R300). -/
def Dev.sramRead (d : Dev) (a n : Nat) : SramRead × Dev :=
  let w0 := a / 8
  let cnt := (a + n + 7) / 8 - w0
  if n = 0 then (.ok [], d)
  else if (upTo cnt).all (fun i => d.bankOn (8 * (w0 + i))) then
    let r := d.readWords w0 cnt
    (.ok (((upTo n)).map (fun i => (d.mem.get (a + i), r.1.getD ((a + i) / 8 - w0) false))), r.2)
  else (.off, d)

/-- Conflicts of one clk of a strided read (R293): the bank rows that the most-loaded bank needs beyond its first, with the
memory that it reads. -/
def Dev.rowConflict (d : Dev) (as : List Nat) : Option (Nat × Nat) :=
  let rows := (as.filterMap (fun a => (d.sramAt a).map (fun x => (x.1, d.bankRow x.1 x.2)))).eraseDups
  match rows with
  | [] => none
  | r :: _ =>
    some (r.1, ((rows.map (fun x => (x.1, x.2.1))).map (fun b => (rows.filter (fun y => (y.1, y.2.1) = b)).length)).foldl max 1 - 1)

/-- The conflict clk of the elements gathered in one clk count in SPD_PERF or GRV_PERF: ENGINE for classes 1 and 2, OTHER
for the rest (R293, R295, R313). -/
def Dev.conflictCount (d : Dev) (engine : Bool) (l : List Nat) : Dev :=
  match d.rowConflict l with
  | some (u, k) => if engine then d.count (sramReg u .spdPerf .grvPerf) 31 0 k else d.count (sramReg u .spdPerf .grvPerf) 63 32 k
  | none => d

/-- Conflict clk of a strided access: 32 elements a clk (R293). -/
def Dev.stridedCount (d : Dev) (engine : Bool) (as : List Nat) : Dev :=
  ((upTo (as.length / 32 + 1)).map (fun g => (as.drop (32 * g)).take 32)).foldl (fun (d : Dev) l => d.conflictCount engine l) d

/-- Is any byte poisoned? -/
def anyPoison (bs : List PByte) : Bool := bs.any (fun b => b.2)

/-- Plain bytes. -/
def plain (bs : List PByte) : List Byte := bs.map Prod.fst

/-- The inverted bits that an armed injection stores with a write of word w (R310, R314), and the device with ARM
cleared. -/
def Dev.injectMask (d : Dev) (w : Nat) : BitVec 80 × Dev :=
  match d.sramAt (8 * w) with
  | none => (0, d)
  | some (u, o) =>
    let r := sramReg u .spdEccInject .grvEccInject
    let v := d.reg r
    let spd := isSpd u
    let br := d.bankRow u o
    let armed := bit 0 v
    let b := if spd then fld 5 1 v else fld 7 1 v
    let row := if spd then fld 15 6 v else fld 20 8 v
    let k := if spd then fld 18 16 v else fld 23 21 v
    let cnt := if spd then fld 20 19 v else fld 25 24 v
    let ps := if spd then [fld 27 21 v, fld 34 28 v, fld 41 35 v] else [fld 32 26 v, fld 39 33 v, fld 46 40 v]
    if armed && decide (cnt ≠ 0) && decide (b = br.1) && decide (row = br.2) && decide (k = w % 8) then
      ((ps.take cnt).foldl (fun (m : BitVec 80) p => if p < 80 then m ^^^ BitVec.ofNat 80 (2 ^ p) else m) 0,
       d.setReg r (setBitTo 0 false v))
    else (0, d)

/-- Store a word's state after a write: bytes, poison, errors from an injection, no pending write-back. -/
def Dev.storeWord (d : Dev) (w : Nat) (bs : List (Nat × Byte)) (poison : Bool) : Dev :=
  let im := d.injectMask w
  let d := im.2
  let m := bs.foldl (fun (m : Mem) b => m.put b.1 b.2) d.mem
  let m := { m with
    poison := if poison then NSet.add m.poison w else NSet.del m.poison w
    err := FMap.set m.err 0 w im.1
    wback := m.wback.filter (fun x => x ≠ w) }
  { d with mem := m }

/-- Write bytes into one word: whole, or read-modify-write (R290, R291, R317). `bs` are (address, byte, poisoned). -/
def Dev.writeWord (d : Dev) (w : Nat) (bs : List (Nat × Byte × Bool)) : Dev :=
  let dirty := bs.any (fun b => b.2.2)
  let vals := bs.map (fun b => (b.1, b.2.1))
  if bs.length = 8 then d.storeWord w (if dirty then [] else vals) dirty
  else
    let r := d.readWord w false
    let bad := r.1 || dirty
    r.2.storeWord w (if bad then [] else vals) bad

/-- Write bytes of SRAM from address a: false where a bank is not ON (R300), and then nothing is written. -/
def Dev.sramWrite (d : Dev) (a : Nat) (bs : List PByte) : Bool × Dev :=
  let w0 := a / 8
  let cnt := (a + bs.length + 7) / 8 - w0
  if bs.isEmpty then (true, d)
  else if (upTo cnt).all (fun i => d.bankOn (8 * (w0 + i))) then
    let items := (bs.zip (upTo bs.length)).map (fun x => (a + x.2, x.1.1, x.1.2))
    (true, (upTo cnt).foldl (fun d i => d.writeWord (w0 + i) (items.filter (fun x => x.1 / 8 = w0 + i))) d)
  else (false, d)

/-- Bytes without poison. -/
def clean (bs : List Byte) : List PByte := bs.map (fun b => (b, false))

/-- Make words of an address range zero, without poison or errors (R299): bytes from a to b − 1. -/
def Dev.zeroSram (d : Dev) (a b : Nat) : Dev :=
  let m := d.mem
  { d with mem := { m with
      bytes := FMap.dropRange m.bytes a b
      grvEra := m.grvEra.filter (fun e => grvBase (e.1 / 80) < a || b ≤ grvBase (e.1 / 80))
      poison := FMap.dropRange m.poison (a / 8) (b / 8)
      err := FMap.dropRange m.err (a / 8) (b / 8)
      wback := m.wback.filter (fun w => w < a / 8 || b / 8 ≤ w) } }

/-- Does an address lie in bank b of the memory u? -/
def Dev.inBank (d : Dev) (u b a : Nat) : Bool :=
  match d.sramAt a with
  | some (u', o) => decide (u' = u) && decide ((d.bankRow u o).1 = b)
  | none => false

/-- Make every word of one bank zero (R299, R303). -/
def Dev.zeroBank (d : Dev) (u b : Nat) : Dev :=
  let m := d.mem
  { d with mem := { m with
      bytes := m.bytes.filter (fun e => !d.inBank u b e.1)
      grvEra := if isSpd u then m.grvEra else m.grvEra.remove (80 * (u - 1000) + b)
      poison := m.poison.filter (fun e => !d.inBank u b (8 * e.1))
      err := m.err.filter (fun e => !d.inBank u b (8 * e.1))
      wback := m.wback.filter (fun w => !d.inBank u b (8 * w)) } }

/-! ## Scrubbing and write-back (R289, R292) -/

/-- ECC_WRITEBACK: a corrected word is written back (R289). -/
def Dev.eccWriteback (d : Dev) (w : Nat) : Dev :=
  if d.mem.wback.contains w then
    let m := d.mem
    { d with mem := { m with err := FMap.set m.err 0 w 0, wback := m.wback.filter (fun x => x ≠ w) } }
  else d

/-- Rows of a bank (R283). -/
def bankRows (u : Nat) : Nat := if isSpd u then 768 else 8192

/-- PATROL_SCRUB_READ: the scrubber of bank b reads the row at its position and advances (R292). `upset` names bits
that a physical upset has inverted in one word of that row before the read (word, mask). -/
def Dev.scrubRead (d : Dev) (u b : Nat) (upset : Option (Nat × BitVec 80)) : Dev :=
  let k := (d.sram u).bank b
  if (d.reg (sramReg u .spdCfg .grvCfg)).getLsbD 8 && decide (d.bankState u b = .on) && decide (b < d.bankCount u) then
    let w0 := (sramBase u + d.rowOffset u b k.pos) / 8
    let d1 := match upset with
      | some (i, ups) =>
        let w := w0 + i % 8
        { d with mem := { d.mem with err := FMap.set d.mem.err 0 w (FMap.getD d.mem.err w 0 ^^^ ups) } }
      | none => d
    let d2 := (upTo 8).foldl (fun (d : Dev) i => (d.readWord (w0 + i) true).2) d1
    d2.onSram u (fun x => x.onBank b (fun k => { k with pos := (k.pos + 1) % bankRows u }))
  else d

/-! ## Bank power (R298 to R301) -/

/-- One bank moves toward its request from a resting state (R298). -/
def Bank.settle (k : Bank) : Bank :=
  match k.st, k.req with
  | .on, .ret => { k with st := .enterRet, pending := false }
  | .on, .off => { k with st := .down, pending := false }
  | .ret, .on => { k with st := .wake, pending := false }
  | .ret, .off => { k with st := .down, pending := false }
  | .off, .on => { k with st := .up, pending := false }
  | .off, .ret => { k with st := .up, pending := false }
  | .on, .on => { k with pending := false }
  | .ret, .ret => { k with pending := false }
  | .off, .off => { k with pending := false }
  | _, _ => k

/-- A bank that has passed through OFF and moved to its REQ again (R299): its scrubber starts anew (R292). -/
def Bank.throughOff (k : Bank) : Bank :=
  { k with pending := false, pos := 0, st := match k.req with
      | .on => .on
      | .ret => .ret
      | .off => .off }

/-- A request arrives (R298, R299): in a transition it waits. -/
def Bank.request (k : Bank) (r : BankReq) (owner : Nat) : Bank :=
  let k1 := { k with req := r, owner := owner }
  match k.st with
  | .on | .ret | .off => k1.settle
  | _ => { k1 with pending := true }

/-- Request field code of R307; 3 leaves the field unchanged. -/
def reqOf (n : Nat) : Option BankReq :=
  match n with
  | 0 => some .on
  | 1 => some .ret
  | 2 => some .off
  | _ => none

/-- BANK_POWER_REQUEST for one bank (R298, R307). -/
def Dev.bankRequest (d : Dev) (u b : Nat) (code owner : Nat) : Dev :=
  match reqOf code with
  | none => d
  | some r => if b < d.bankCount u then d.onSram u (fun x => x.onBank b (fun k => k.request r owner)) else d

/-- A transition of a bank ends (R298): the state it was in, and the state it reaches. -/
def Dev.bankArrive (d : Dev) (u b : Nat) (wasIn : BankState) (dest_ : BankState) : Dev :=
  if ((d.sram u).bank b).st = wasIn then
    let d1 := if wasIn = .down ∨ wasIn = .up then d.zeroBank u b else d
    d1.onSram u (fun x => x.onBank b (fun k =>
      ({ k with st := dest_, pos := if wasIn = .up ∧ dest_ = .on then 0 else k.pos } : Bank).settle))
  else d

/-- BANK_UP_DONE: the bank enters ON, or RET when REQ = RET (R298). -/
def Dev.bankUpDone (d : Dev) (u b : Nat) : Dev :=
  d.bankArrive u b .up (if ((d.sram u).bank b).req = .ret then .ret else .on)

/-- Every request owned by core c returns to ON (R301, R535). -/
def Dev.releaseReqs (d : Dev) (c : Nat) : Dev :=
  { d with srams := d.srams.filterMap (fun e =>
      let x := { e.2 with banks := e.2.banks.filterMap (fun b =>
        let k := if b.2.owner = c then b.2.request .on 0x1FF else b.2
        if k = {} then none else some (b.1, k)) }
      if x = {} then none else some (e.1, x)) }

end Sys2Proof.Machine
end

