-- ==== Sys2Proof/Machine/Hbm.lean ====
section
/-! DEFINITION. The HBM memory system of a tile: addresses, the burst code's outcomes, poison, scrubbing, thermal states,
row remedies, pins, interfaces and map-out (R349 to R372). -/
namespace Sys2Proof.Machine

/-! ## Records -/

/-- Tile t's memory system. -/
def Dev.hbmTile (d : Dev) (t : Nat) : HbmTile := FMap.getD d.hbm t {}

/-- Change it. -/
def Dev.onHbm (d : Dev) (t : Nat) (f : HbmTile → HbmTile) : Dev :=
  { d with hbm := FMap.set d.hbm {} t (f (d.hbmTile t)) }

/-- Physical pseudo-channel q. -/
def HbmTile.pc (h : HbmTile) (q : Nat) : HbmPc := FMap.getD h.pcs q {}

/-- Change it. -/
def HbmTile.onPc (h : HbmTile) (q : Nat) (f : HbmPc → HbmPc) : HbmTile := { h with pcs := FMap.set h.pcs {} q (f (h.pc q)) }

/-- Row by its key. -/
def HbmTile.row (h : HbmTile) (k : Nat) : HbmRow := FMap.getD h.rows k {}

/-- Change it. -/
def HbmTile.onRow (h : HbmTile) (k : Nat) (f : HbmRow → HbmRow) : HbmTile := { h with rows := FMap.set h.rows {} k (f (h.row k)) }

/-- Stack s. -/
def HbmTile.stack (h : HbmTile) (s : Nat) : HbmStack := FMap.getD h.hbmStacks s {}

/-- Change it. -/
def HbmTile.onStack (h : HbmTile) (s : Nat) (f : HbmStack → HbmStack) : HbmTile :=
  { h with hbmStacks := FMap.set h.hbmStacks {} s (f (h.stack s)) }

/-! ## Addresses (R350, R351) -/

/-- Physical pseudo-channels in service, ascending: logical pseudo-channel l is the l-th (R351). -/
def HbmTile.service (h : HbmTile) : List Nat := (upTo 96).filter (fun q => !(h.pc q).mapped)

/-- P of R350. -/
def HbmTile.p (h : HbmTile) : Nat := h.service.length

/-- A sector's place (R350): physical pseudo-channel, bank, row and sector. -/
structure HbmLoc where
  tile : Nat
  q : Nat
  bank : Nat
  row : Nat
  sector : Nat
  deriving DecidableEq, Repr

/-- Bytes of a pseudo-channel: 1.125 GiB. -/
def hbmPcBytes : Nat := 0x48000000

/-- Where a byte offset of a tile lies; `sv` are the pseudo-channels in service (R350). -/
def hbmPlace (t : Nat) (sv : List Nat) (o : Nat) : Option HbmLoc :=
  let p := sv.length
  if p * hbmPcBytes ≤ o then none
  else
    let u := o >>> 8
    let w := u / p
    some ⟨t, sv.getD (u % p) 0, w / 4 % 48, w / 192, 4 * (w % 4) + (o >>> 6) % 4⟩

/-- The key of a row within its tile: ascending in pseudo-channel, bank and row. -/
def hbmKey (q bank row : Nat) : Nat := (48 * q + bank) * 24576 + row

/-- The pages of a row (R361): those of its four units under the assignment in force. -/
def hbmRowPages (sv : List Nat) (key : Nat) : List Nat :=
  let q := key / 24576 / 48
  match sv.findIdx? (fun x => x = q) with
  | none => []
  | some l => (upTo 4).map (fun ck => (((key % 24576) * 192 + (key / 24576 % 48) * 4 + ck) * sv.length + l) / 8192)

/-- Retired pages in ascending order (R361, R372). -/
def HbmTile.retiredPages (h : HbmTile) : NSet :=
  let sv := h.service
  (h.rows.filter (fun r => r.2.retired)).foldl
    (fun (s : NSet) r => (hbmRowPages sv r.1).foldl (fun (s : NSet) g => NSet.add s g) s) []

/-- Is an HBM address mapped: within the range in service and not in a retired page (R350, R361)? -/
def Dev.hbmMapped (d : Dev) (a : Nat) : Bool :=
  if a < 4 * hbmTileBytes then
    let h := d.hbmTile (a / hbmTileBytes)
    let o := a % hbmTileBytes
    decide (o < h.p * hbmPcBytes) && !NSet.has h.retiredPages (o / 0x200000)
  else false

/-- The place of an HBM address. -/
def Dev.hbmLoc (d : Dev) (a : Nat) : Option HbmLoc :=
  if a < 4 * hbmTileBytes then hbmPlace (a / hbmTileBytes) (d.hbmTile (a / hbmTileBytes)).service (a % hbmTileBytes)
  else none

/-- Is channel ch of tile t behind a mesh stop that cannot be reached (R438)? -/
def Dev.hbmCut (d : Dev) (t ch : Nat) : Bool := (d.mesh t).cut.any (fun x => match x with
  | .hbm k => decide (k.val = ch)
  | _ => false)

/-- A request to an address waits at the controller: its stack is CRITICAL (R357), its channel retrains (R364) or cannot be
reached (R438), the fabric clock stands (R560), or a remedy holds its bank (R360). -/
def Dev.hbmHeld (d : Dev) (a : Nat) : Bool :=
  match d.hbmLoc a with
  | none => false
  | some l =>
    let h := d.hbmTile l.tile
    decide ((h.stack (l.q / 32)).st = 4) || h.running.contains (l.q / 2) || d.hbmCut l.tile (l.q / 2) || d.lost (4 + l.tile) ||
    (match h.fixes with
     | [] => false
     | f :: _ => decide (f.key / 24576 = 48 * l.q + l.bank))

/-! ## Failing rows, pins and interfaces (R359, R362, R364, R365) -/

/-- HBM_CFG of a tile. -/
def Dev.hbmCfg (d : Dev) (t : Nat) : Word := d.reg ⟨.hbmCfg, [t]⟩

/-- A row becomes failing (R359): its event; `joined`: the uncorrectable read is already the report of this fault (R543,
log entry 13). A retired row has no further remedy, and one whose remedy has not yet taken effect is the fault that
is already reported. -/
def Dev.hbmRowFail (d : Dev) (t key : Nat) (joined : Bool) : Dev :=
  let r := (d.hbmTile t).row key
  if r.due ≠ .no ∨ r.retired ∨ r.fixing then d
  else
    let p := d.tilePart t
    let q := key / 24576 / 48
    let code := if r.fails = 0 then 0x0A07 else 0x0A08
    let d1 := d.onHbm t (fun h => h.onRow key (fun r => { r with due := .reported, fails := r.fails + 1 }))
    if joined then d1.raise code (some p) q else d1.faultIn code p q [.row t key]

/-- A pseudo-channel becomes due for map-out at the next load (R365). -/
def Dev.hbmMapDue (d : Dev) (t q : Nat) : Dev :=
  if ((d.hbmTile t).pc q).mapDue then d
  else (d.onHbm t (fun h => h.onPc q (fun x => { x with mapDue := true }))).raise 0x0A0E (some (d.tilePart t)) q

/-- Corrections of a data pin (R362): at the threshold it is erased; the second erasure makes the map-out due. -/
def Dev.hbmPinCount (d : Dev) (t q pin n : Nat) : Dev :=
  let x := (d.hbmTile t).pc q
  if n = 0 ∨ x.pins.contains pin then d
  else
    let c := FMap.getD x.pinCe pin 0 + n
    let d1 := d.onHbm t (fun h => h.onPc q (fun x => { x with pinCe := FMap.set x.pinCe 0 pin c }))
    if max 1 (fld 23 8 (d.hbmCfg t)) ≤ c ∧ x.pins.length < 2 then
      let d2 := (d1.onHbm t (fun h => h.onPc q (fun x => { x with pins := x.pins ++ [pin] }))).raise
        0x0A0B (some (d.tilePart t)) q
      if x.pins.length = 1 then d2.hbmMapDue t q else d2
    else d1

/-- A parity error or address mismatch counts toward the interface (R364): the fourth of a pseudo-channel in a window makes
the retraining of its channel due, or shows a failed interface when either pseudo-channel of the channel reached four in the
window before. -/
def Dev.hbmIfCount (d : Dev) (t q : Nat) : Dev :=
  let x := (d.hbmTile t).pc q
  let d1 := d.onHbm t (fun h => h.onPc q (fun x => { x with ifErr := x.ifErr + 1, addr := satAdd 16 x.addr 1 }))
  if x.ifErr + 1 = 4 then
    d1.onHbm t (fun h =>
      if (h.pc (q / 2 * 2)).ifPrev ∨ (h.pc (q / 2 * 2 + 1)).ifPrev then
        if (FMap.find? h.failed (q / 2)).isSome then h else { h with failed := FMap.insert h.failed (q / 2) (d.dueOf (d.tilePart t)) }
      else if (FMap.find? h.retrain (q / 2)).isSome then h
      else { h with retrain := FMap.insert h.retrain (q / 2) .reported })
  else d1

/-- Write HBM_ERR_LOG (R368). -/
def Dev.hbmLog (d : Dev) (l : HbmLoc) (kind pin : Nat) : Dev :=
  d.setReg ⟨.hbmErrLog, [l.tile]⟩
    (put 2 0 kind ||| put 9 3 l.q ||| put 15 10 l.bank ||| put 30 16 l.row ||| put 34 31 l.sector ||| put 40 35 pin)

/-! ## Reads (R353, R354) -/

/-- The data pin of a symbol; 32 and 33 are the ECC pins (R352). -/
def symPin (s : Nat) : Nat := s / 2

/-- A corrected read: event, counts, log, row and pins (R353, R359, R362, R363). -/
def Dev.hbmCorrected (d : Dev) (l : HbmLoc) (syms : List Nat) : Dev :=
  let x := (d.hbmTile l.tile).pc l.q
  let live := syms.filter (fun s => !x.pins.contains (symPin s))
  let pin := match syms with
    | [] => 0x3F
    | s :: r => if r.all (fun y => symPin y = symPin s) && decide (symPin s < 32) then symPin s else 0x3F
  let d1 := (d.hbmLog l 1 pin).onHbm l.tile (fun h => h.onPc l.q (fun x => { x with
    ce := satAdd 32 x.ce 1, corrTempo := some d.tempo }))
  let d2 := if x.corrTempo = some d.tempo then d1 else d1.raise 0x0A01 (some (d.tilePart l.tile)) l.q
  let key := hbmKey l.q l.bank l.row
  let d3 := (upTo 32).foldl (fun (d : Dev) p => d.hbmPinCount l.tile l.q p (live.filter (fun s => symPin s = p)).length) d2
  if live.isEmpty then d3
  else
    let d4 := d3.onHbm l.tile (fun h => h.onRow key (fun r => { r with ce := r.ce + 1 }))
    if max 1 (fld 7 0 (d.hbmCfg l.tile)) ≤ ((d4.hbmTile l.tile).row key).ce then d4.hbmRowFail l.tile key false else d4

/-- An uncorrectable read: event, counts, log and a failing row (R353, R359). A retired row has no further remedy, and the
recovery of such a read ends at the next edge (log entry 13). -/
def Dev.hbmUncorr (d : Dev) (l : HbmLoc) : Dev :=
  let key := hbmKey l.q l.bank l.row
  let d1 := (d.hbmLog l 2 0x3F).onHbm l.tile (fun h => h.onPc l.q (fun x => { x with ue := satAdd 16 x.ue 1 }))
  let left : Remedy := if ((d.hbmTile l.tile).row key).retired then .nextEdge false else .row l.tile key
  (d1.faultIn 0x0A03 (d.tilePart l.tile) l.q [left]).hbmRowFail l.tile key true

/-- A read that finds an error in the address positions (R353). -/
def Dev.hbmMismatch (d : Dev) (l : HbmLoc) : Dev :=
  ((d.hbmLog l 3 0x3F).raise 0x0A02 (some (d.tilePart l.tile)) l.q).hbmIfCount l.tile l.q

/-- The address word of a place (R352). -/
def HbmLoc.word (l : HbmLoc) : BitVec 32 := rsAddr l.q l.bank l.row l.sector

/-- The sector whose codeword arrives when a read of place l is led astray by `away`: its address, none where there is no
such sector in service. -/
def Dev.hbmAway (d : Dev) (l : HbmLoc) (away : BitVec 32) : Option Nat :=
  let w := (l.word ^^^ away).toNat
  let sv := (d.hbmTile l.tile).service
  let bank := w / 128 % 64
  let row := w / 2 ^ 13 % 32768
  let sec := w / 2 ^ 28
  match sv.findIdx? (fun q => q = w % 128) with
  | some i =>
    if bank < 48 ∧ row < 24576 then
      some (l.tile * hbmTileBytes + ((row * 192 + bank * 4 + sec / 4) * sv.length + i) * 256 + sec % 4 * 64)
    else none
  | none => none

/-- The decoder on a codeword stored poisoned or not, with the errors of its transfer and the pins erased (R353, R354, R362).
What a rule promises for the sector as it is stored comes before the syndromes, which two promises may share (log entry
123). -/
def hbmFound (pins : List Nat) (poisoned : Bool) (err : ReadErr) : RsFound :=
  let sent := (upTo 68).map (fun s => err.syms.foldl (fun (v : Byte) e => if e.1.val = s then v ^^^ e.2 else v) 0)
  let gone := pins.flatMap (fun p => [2 * p, 2 * p + 1])
  let wrong := (upTo 68).filter (fun s => sent.getD s 0 ≠ 0)
  let more := (wrong.filter (fun s => !gone.contains s)).length
  let w := addrSyms err.away ++ (if poisoned then (sent.zip (upTo 68)).map (fun x => if 64 ≤ x.2 then x.1 ^^^ 0x5A else x.1) else sent)
  match pins with
  | _ :: _ :: _ =>
    if 0 < more then .bad
    else if poisoned then .poison
    else .errs (wrong.map (fun s => (s + 4, sent.getD s 0)))
  | _ =>
    if poisoned ∧ err.away = 0 ∧ more ≤ 1 then .poison
    else if poisoned ∧ ((upTo 32).filter (fun i => err.away.getLsbD i)).length = 1 ∧ more + pins.length ≤ 1 then
      .errs ((upTo 4).filterMap (fun i =>
        let v := (addrSyms err.away).getD i 0
        if v = 0 then none else some (i, v)))
    else
      match pins with
      | p :: _ => rsDecodeErased (2 * p + 4) (2 * p + 5) (rsSyn w)
      | [] => rsDecode (rsSyn w)

/-- What a read of a sector delivers: poisoned or not, corrected or not, and its 64 bytes. -/
structure SectorRead where
  bad : Bool
  fixed : Bool
  data : List Byte
  deriving DecidableEq, Repr

/-- The decoder on the sector of address a, a multiple of 64 (R353, R354, R362). -/
def Dev.hbmDecode (d : Dev) (a : Nat) (err : ReadErr) : SectorRead × Dev :=
  match d.hbmLoc a with
  | none => (⟨true, false, d.mem.getAll a 64⟩, d)
  | some l =>
    if err.syms.isEmpty ∧ err.away = 0 then (⟨NSet.has d.mem.hpoison (a / 64), false, d.mem.getAll a 64⟩, d)
    else
      let src := if err.away = 0 then some a else d.hbmAway l err.away
      -- an address that names no sector brings free bytes
      let got : List Byte × Bool × Dev := match src with
        | some b => (d.mem.getAll b 64, NSet.has d.mem.hpoison (b / 64), d)
        | none => ((upTo 8).flatMap (fun i => bytesOf 8 (Config.freeWord (d.fresh + i)).toNat), false, { d with fresh := d.fresh + 8 })
      let d0 := got.2.2
      match hbmFound ((d0.hbmTile l.tile).pc l.q).pins got.2.1 err with
      | .poison => (⟨true, false, got.1⟩, d0)
      | .bad => (⟨true, false, got.1⟩, d0.hbmUncorr l)
      | .errs es =>
        if es.any (fun e => e.1 < 4) then (⟨true, false, got.1⟩, d0.hbmMismatch l)
        else
          let flips : List (Nat × Byte) := err.syms.map (fun e => (e.1.val, e.2)) ++ es.map (fun e => (e.1 - 4, e.2))
          let data := flips.foldl (fun bs e => if e.1 < 64 then symFlip bs e.1 e.2 else bs) got.1
          (⟨false, !es.isEmpty, data⟩, if es.isEmpty then d0 else d0.hbmCorrected l (es.map (fun e => e.1 - 4)))

/-- Read the sector of address a (R353, R369). -/
def Dev.hbmSector (d : Dev) (a : Nat) (err : ReadErr) : SectorRead × Dev :=
  (d.hbmDecode a err).map id (fun d => d.count ⟨.hbmPerfRd, [a / hbmTileBytes]⟩ 63 0 1)

/-- Read sectors from number s on; `i` is the index of the first in the transfer. -/
def Dev.hbmSectors (d : Dev) (s i : Nat) (es : ReadErrs) : (n : Nat) → List SectorRead × Dev
  | 0 => ([], d)
  | n + 1 =>
    let r := d.hbmSector (64 * s) (es.at i)
    let q := r.2.hbmSectors (s + 1) (i + 1) es n
    (r.1 :: q.1, q.2)

/-- Read n bytes of HBM from address a: each with whether it is delivered poisoned. -/
def Dev.hbmRead (d : Dev) (a n : Nat) (es : ReadErrs) : List PByte × Dev :=
  let s0 := a / 64
  let r := d.hbmSectors s0 0 es ((a + n + 63) / 64 - s0)
  ((upTo n).map (fun i =>
    let x := r.1.getD ((a + i) / 64 - s0) ⟨false, false, []⟩
    (x.data.getD ((a + i) % 64) 0, x.bad)), r.2)

/-! ## Writes (R354, R355) -/

/-- Store a sector's bytes, poisoned or not (R354): the data of a poisoned sector is not replaced. -/
def Dev.hbmStore (d : Dev) (s : Nat) (bs : List (Nat × Byte)) (bad : Bool) : Dev :=
  let m := if bad then d.mem else bs.foldl (fun (m : Mem) b => m.put b.1 b.2) d.mem
  { d.count ⟨.hbmPerfWr, [64 * s / hbmTileBytes]⟩ 63 0 1 with
    mem := { m with hpoison := if bad then NSet.add m.hpoison s else NSet.del m.hpoison s } }

/-- The bytes of sector s as a read delivered them, with their addresses. -/
def SectorRead.cells (x : SectorRead) (s : Nat) : List (Nat × Byte) := (upTo 64).zip x.data |>.map (fun e => (64 * s + e.1, e.2))

/-- Write bytes of one sector s; `bs` are (address, byte, poisoned). A partial write reads the sector first, and stores with
its own bytes what the read delivered (R355). -/
def Dev.hbmWriteSector (d : Dev) (s : Nat) (bs : List (Nat × PByte)) (err : ReadErr) : Dev :=
  let dirty := bs.any (fun b => b.2.2)
  let mine := bs.map (fun b => (b.1, b.2.1))
  if bs.length = 64 then d.hbmStore s mine dirty
  else
    let r := d.hbmSector (64 * s) err
    r.2.hbmStore s ((if err = .clean then [] else r.1.cells s) ++ mine) (r.1.bad || dirty)

/-- Write bytes of HBM from address a. -/
def Dev.hbmWrite (d : Dev) (a : Nat) (bs : List PByte) (es : ReadErrs) : Dev :=
  let s0 := a / 64
  let items := (bs.zip (upTo bs.length)).map (fun x => (a + x.2, x.1))
  (upTo ((a + bs.length + 63) / 64 - s0)).foldl
    (fun (d : Dev) i => d.hbmWriteSector (s0 + i) (items.filter (fun x => x.1 / 64 = s0 + i)) (es.at i)) d

/-- Bytes written by the hosting software or a command, all clean or all poisoned. -/
def withPoison (p : Bool) (bs : List Byte) : List PByte := bs.map (fun b => (b, p))

/-! ## Scrubbing (R356) -/

/-- HBM_PATROL_SCRUB: pseudo-channel q's scrubber reads the sector at its position, rewrites what it
corrected, and advances. -/
def Dev.hbmScrub (d : Dev) (t q : Nat) (err : ReadErr) : Dev :=
  let h := d.hbmTile t
  let sv := h.service
  match sv.findIdx? (fun x => x = q) with
  | none => d
  | some l =>
    let pos := (h.pc q).scrub
    let a := t * hbmTileBytes + (((pos / 4) * sv.length + l) <<< 8) + (pos % 4) * 64
    if bit 24 (d.hbmCfg t) && !d.hbmHeld a then
      let r := d.hbmSector a err
      (if r.1.fixed then r.2.hbmStore (a / 64) (r.1.cells (a / 64)) false else r.2).onHbm t
        (fun h => h.onPc q (fun x => { x with scrub := (x.scrub + 1) % 18874368 }))
    else d

/-! ## Temperature (R357, R370) -/

/-- Lower bound of a thermal state. -/
def thermBound (st : Nat) : Int :=
  match st with
  | 0 => -1000
  | 1 => 85
  | 2 => 95
  | 3 => 105
  | _ => 110

/-- The state that a temperature selects by the table. -/
def thermOf (t : Int) : Nat :=
  if t < 85 then 0 else if t < 95 then 1 else if t < 105 then 2 else if t < 110 then 3 else 4

/-- The state after a sample (R357): upward at a lower bound, downward 2 °C below the bound of the state held. -/
def thermNext (st : Nat) (t : Int) : Nat :=
  let s := thermOf t
  if st < s then s
  else if s < st ∧ t ≤ thermBound st - 2 then s
  else st

/-- HBM_TEMP_SAMPLE (R357, R370). -/
def Dev.hbmTemp (d : Dev) (t s : Nat) (temp : Int) : Dev :=
  let x := (d.hbmTile t).stack s
  let st := thermNext x.st temp
  let pk := match x.peak with
    | none => temp
    | some p => max p temp
  let d1 := d.onHbm t (fun h => h.onStack s (fun x => { x with
    temp := temp, peak := some pk, st := st, tempo := if st = x.st then x.tempo else d.tempo % 2 ^ 32 }))
  if st = x.st then d1
  else
    let p := some (d.tilePart t)
    let d2 := d1.raise 0x0A04 p t
    if st = 3 then d2.raise 0x0A05 p t else if st = 4 then d2.raise 0x0A06 p t else d2

/-- The latch of every stack's state at a seal (R358), and the seal's passing for what is due (R541). -/
def HbmTile.seal (h : HbmTile) : HbmTile :=
  { h with
    rows := h.rows.map (fun e => (e.1, { e.2 with due := e.2.due.seal }))
    retrain := h.retrain.map (fun e => (e.1, e.2.seal))
    failed := h.failed.map (fun e => (e.1, e.2.seal))
    hbmStacks := h.hbmStacks.map (fun e => (e.1, { e.2 with edge := e.2.st })) }

/-- A count window ends (R359, R362, R364). -/
def HbmTile.window (h : HbmTile) : HbmTile :=
  { h with
    rows := h.rows.filterMap (fun e =>
      let r := { e.2 with ce := 0 }
      if r = {} then none else some (e.1, r))
    pcs := h.pcs.filterMap (fun e =>
      let x := { e.2 with pinCe := [], ifErr := 0, ifPrev := decide (4 ≤ e.2.ifErr) }
      if x = {} then none else some (e.1, x)) }

/-! ## Parity and retraining (R364) -/

/-- HBM_CA_PARITY_ERROR: the command is retried once. No command goes out while the fabric clock stands (R560). -/
def Dev.hbmParity (d : Dev) (t q : Nat) : Dev :=
  if d.lost (4 + t) then d else
  let v := setFld 40 35 0x3F (setFld 9 3 q (setFld 2 0 4 (d.reg ⟨.hbmErrLog, [t]⟩)))
  ((d.setReg ⟨.hbmErrLog, [t]⟩ v).raise 0x0A0C (some (d.tilePart t)) q).hbmIfCount t q

/-- The retraining of a channel starts (R364). -/
def Dev.hbmRetrainStart (d : Dev) (t ch : Nat) : Dev :=
  let up := fun (x : HbmPc) => { x with retrains := satAdd 4 x.retrains 1 }
  (d.onHbm t (fun h => { (h.onPc (2 * ch) up).onPc (2 * ch + 1) up with
    retrain := h.retrain.remove ch, running := h.running ++ [ch] })).faultIn 0x0A0D (d.tilePart t) (2 * ch)
    [.retrain t ch]

/-- HBM_RETRAIN_DONE: the channel serves again, or its interface has failed (R364). -/
def Dev.hbmRetrainDone (d : Dev) (t ch : Nat) (ok : Bool) : Dev :=
  if (d.hbmTile t).running.contains ch ∧ !d.lost (4 + t) then
    let d1 := d.onHbm t (fun h => { h with running := h.running.filter (fun x => x ≠ ch) })
    if ok then d1.remedyDone (.retrain t ch)
    else d1.onHbm t (fun h => { h with failed := FMap.insert h.failed ch (d.dueOf (d.tilePart t)) })
  else d

/-! ## Remedies (R360, R361) -/

/-- A row is retired: its pages leave the map (R361); the sixteenth retirement makes the map-out due (R365). -/
def Dev.hbmRetire (d : Dev) (t key : Nat) : Dev :=
  let q := key / 24576 / 48
  let d1 := (d.onHbm t (fun h => (h.onRow key (fun r => { r with due := .no, retired := true, pooled := false })).onPc q
    (fun x => { x with retired := x.retired + 1 }))).raise 0x0A0A (some (d.tilePart t)) q
  let d2 := d1.remedyDone (.row t key)
  if ((d2.hbmTile t).pc q).retired = 16 then d2.hbmMapDue t q else d2

/-- The remedy that R360's table selects begins, or the row is retired at once. -/
def Dev.hbmRemedy (d : Dev) (t key : Nat) : Dev :=
  let h := d.hbmTile t
  let bank := key / 24576
  let r := h.row key
  let soft := decide (r.fails = 1) && Config.softLeft (4608 * t + bank) (FMap.getD h.soft bank 0)
  if soft then
    d.onHbm t (fun h => { h.onRow key (fun r => { r with due := .no, fixing := true }) with
      soft := FMap.insert h.soft bank (FMap.getD h.soft bank 0 + 1), fixes := h.fixes ++ [⟨key, false⟩] })
  else if r.fails ≤ 2 ∧ FMap.getD h.pool bank 0 < 98 then
    d.onHbm t (fun h => { (h.onRow key (fun r => { r with due := .no, pooled := true, fixing := true })).onPc (bank / 48)
        (fun x => { x with pool := x.pool + 1 }) with
      pool := FMap.insert h.pool bank (FMap.getD h.pool bank 0 + 1), fixes := h.fixes ++ [⟨key, true⟩] })
  else d.hbmRetire t key

/-- The remedies and retrainings due at a step boundary of the tile (R360, R364), in ascending order of their rows. -/
def Dev.hbmBoundary (d : Dev) (t : Nat) : Dev :=
  let h := d.hbmTile t
  let d1 := (h.rows.filter (fun e => e.2.due = .sealed)).foldl (fun (d : Dev) e => d.hbmRemedy t e.1) d
  (h.retrain.filter (fun e => e.2 = .sealed)).foldl (fun (d : Dev) e => d.hbmRetrainStart t e.1) d1

/-- Sectors of a row, as sector numbers of the address space. -/
def hbmRowSectors (t : Nat) (sv : List Nat) (key : Nat) : List Nat :=
  match sv.findIdx? (fun x => x = key / 24576 / 48) with
  | none => []
  | some l => (upTo 16).map (fun s =>
      (t * hbmTileBytes) / 64 + ((((key % 24576) * 192 + (key / 24576 % 48) * 4 + s / 4) * sv.length + l) * 4 + s % 4))

/-- HBM_REMEDY_DONE: the first remedy under way has copied its row, under R354, and takes effect (R360). -/
def Dev.hbmRemedyDone (d : Dev) (t : Nat) (es : ReadErrs) : Dev :=
  if d.lost (4 + t) then d
  else match (d.hbmTile t).fixes with
  | [] => d
  | f :: rest =>
    let q := f.key / 24576 / 48
    let d0 := d.onHbm t (fun h => { h with fixes := rest })
    let ss := hbmRowSectors t (d.hbmTile t).service f.key
    let d1 := (ss.zip (upTo 16)).foldl (fun (d : Dev) x =>
      let r := d.hbmSector (64 * x.1) (es.at x.2)
      r.2.hbmStore x.1 (r.1.cells x.1) r.1.bad) d0
    let d2 := if f.pool then d1 else d1.onHbm t (fun h => h.onPc q (fun x => { x with ppr := satAdd 4 x.ppr 1 }))
    let d3 := d2.onHbm t (fun h => { h.onRow f.key (fun r => { r with ce := 0, fixing := false }) with lastLog := some f })
    (d3.raise 0x0A09 (some (d.tilePart t)) q).remedyDone (.row t f.key)

/-! ## Map-out (R365) -/

/-- A tile's HBM contents are lost: an unlisted byte reads as an open value of this loss (log entry 5). -/
def Dev.hbmLose (d : Dev) (t : Nat) : Dev :=
  let m := d.mem
  let m1 : Mem := { m with
    bytes := FMap.dropRange m.bytes (t * hbmTileBytes) ((t + 1) * hbmTileBytes)
    hpoison := FMap.dropRange m.hpoison (t * hbmTileBytes / 64) ((t + 1) * hbmTileBytes / 64)
    hbmEra := FMap.insert m.hbmEra t (d.fresh + 1) }
  { d with mem := m1, fresh := d.fresh + 1 }

/-- A pseudo-channel is mapped out: that answers every row of it whose remedy is due or under way (R530). -/
def Dev.hbmMapOut (d : Dev) (t q : Nat) (cls : EvClass) : Dev :=
  let mine := fun (key : Nat) => decide (key / 24576 / 48 = q)
  let open_ := ((d.hbmTile t).rows.filter (fun e => mine e.1 && (decide (e.2.due ≠ .no) || e.2.fixing))).map Prod.fst
  let d1 := d.onHbm t (fun h => { h.onPc q (fun x => { x with mapped := true, mapDue := false }) with
    rows := h.rows.map (fun e => if mine e.1 then (e.1, { e.2 with due := .no, fixing := false }) else e)
    fixes := h.fixes.filter (fun f => !mine f.key) })
  open_.foldl (fun (d : Dev) key => d.remedyDone (.row t key)) ((d1.hbmLose t).raiseAs cls 0x0A0F (some (d.tilePart t)) q 0)

/-- The map-outs due at a load (R365), before the loader checks the program. -/
def Dev.hbmLoadMapOut (d : Dev) (t : Nat) : Dev :=
  ((d.hbmTile t).service.filter (fun q => ((d.hbmTile t).pc q).mapDue)).foldl
    (fun (d : Dev) q => d.hbmMapOut t q .spare) d

/-- Channels with a failed interface whose boundary has come. -/
def HbmTile.failedNow (h : HbmTile) : List Nat := (h.failed.filter (fun e => e.2 = .sealed)).map Prod.fst

/-- A failed interface's two pseudo-channels are mapped out (R365); the partition's stop is the caller's. -/
def Dev.hbmFailedOut (d : Dev) (t ch : Nat) : Dev :=
  let d1 := d.onHbm t (fun h => { h with failed := h.failed.remove ch, retrain := h.retrain.remove ch })
  ([2 * ch, 2 * ch + 1].filter (fun q => !((d.hbmTile t).pc q).mapped)).foldl
    (fun (d : Dev) q => d.hbmMapOut t q .stop) d1 |>.remedyDone (.retrain t ch)

/-! ## Registers (R367, R370 to R372) -/

/-- HBM_STATUS. -/
def Dev.hbmStatus (d : Dev) (t : Nat) : Word :=
  let h := d.hbmTile t
  let n := h.retiredPages.length
  let due := h.service.find? (fun q => (h.pc q).mapDue)
  put 6 0 h.p ||| putBit 7 due.isSome ||| put 23 8 (576 * h.p - n) ||| put 35 24 n ||| put 42 36 (due.getD 0x7F) |||
  putBit 43 (!h.running.isEmpty)

/-- HBM_THERM of stack s. -/
def Dev.hbmTherm (d : Dev) (t s : Nat) : Word :=
  let x := (d.hbmTile t).stack s
  put 7 0 (low 8 x.temp) ||| put 10 8 x.st ||| put 14 12 x.edge ||| put 23 16 (low 8 (x.peak.getD 0)) ||| put 63 32 x.tempo

/-- HBM_PC_STAT of logical pseudo-channel l. -/
def Dev.hbmPcStat (d : Dev) (t l : Nat) : Word :=
  let h := d.hbmTile t
  match h.service[l]? with
  | none => 0
  | some q =>
    let x := h.pc q
    put 6 0 q ||| put 11 8 (min 15 x.ppr) ||| put 24 12 x.pool ||| put 29 25 x.retired ||| put 35 30 (x.pins.getD 0 0x3F) |||
    put 41 36 (x.pins.getD 1 0x3F) ||| put 45 42 (min 15 x.retrains)

/-- HBM_PC_CE of logical pseudo-channel l. -/
def Dev.hbmPcCe (d : Dev) (t l : Nat) : Word :=
  let h := d.hbmTile t
  match h.service[l]? with
  | none => 0
  | some q => put 31 0 (h.pc q).ce ||| put 47 32 (h.pc q).ue ||| put 63 48 (h.pc q).addr

/-- A write of HBM_PC_CE. -/
def Dev.hbmPcCeWrite (d : Dev) (t l : Nat) (v : Word) : Dev :=
  match (d.hbmTile t).service[l]? with
  | none => d
  | some q => d.onHbm t (fun h => h.onPc q (fun x => { x with ce := fld 31 0 v, ue := fld 47 32 v, addr := fld 63 48 v }))

/-- HBM_RETIRED entry i. -/
def Dev.hbmRetired (d : Dev) (t i : Nat) : Word :=
  match ((d.hbmTile t).retiredPages)[i]? with
  | some e => put 15 0 e.1 ||| putBit 16 true
  | none => 0

end Sys2Proof.Machine
end

