-- ==== Sys2Proof/Machine/Rng.lean ====
section
/-! DEFINITION. The counter generator (R523, R524) and the check-value step (R513). -/
namespace Sys2Proof.Machine

/-- The multipliers M of R523. -/
def cgM : List Nat := [0xCA4B, 0xE2D3, 0xB5C7, 0x9A6D]

/-- The constants C of R523. -/
def cgC : List Nat := [0x9E37, 0x79B9, 0xBB67, 0xAE85]

/-- One round of R523 on the eight 16-bit words. -/
def cgRound (k r : Nat) (w : List Nat) : List Nat :=
  let p := (upTo 4).map (fun j => (cgM.getD j 0) * (w.getD (2 * j) 0))
  let h := p.map (fun x => bits 31 16 x)
  let l := p.map (fun x => x % 2 ^ 16)
  (upTo 4).flatMap (fun j =>
    let rk := (bits (16 * j + 15) (16 * j) k + r * cgC.getD j 0) % 2 ^ 16
    [(h.getD ((j + 1) % 4) 0) ^^^ (w.getD (2 * j + 1) 0) ^^^ rk, l.getD ((j + 3) % 4) 0])

/-- Rounds r, r + 1, …. -/
def cgRounds (k : Nat) : (n : Nat) → (r : Nat) → List Nat → List Nat
  | 0, _, w => w
  | n + 1, r, w => cgRounds k n (r + 1) (cgRound k r w)

/-- The generator: 128 output bits of counter c and key k (R523). -/
def cgEval (c k : Nat) : Nat := packElems 16 (cgRounds k 8 0 (unpackElems 16 8 c))

/-- A counter of R524. -/
def cgCounter (stream m q width : Nat) : Nat :=
  q % 2 ^ 32 + (m % 2 ^ 32) <<< 32 + (stream % 2 ^ 32) <<< 64 + width <<< 96

/-- The 16 random bits of element (m, n) for stochastic rounding (R89, R524). -/
def sr16 (key stream m n : Nat) : Nat :=
  bits (16 * (n % 8) + 15) (16 * (n % 8)) (cgEval (cgCounter stream m (n / 8) 1) key)

/-- The 32 random bits of element (m, n) of a random-bit instruction (R162, R524). -/
def rand32 (key stream m n : Nat) : Nat :=
  bits (32 * (n % 4) + 31) (32 * (n % 4)) (cgEval (cgCounter stream m (n / 4) 2) key)

/-! ## Check values (R513) -/

/-- The low w bits in reverse order. -/
def reflect : (w : Nat) → Nat → Nat
  | 0, _ => 0
  | w + 1, x => (x % 2) <<< w + reflect w (x / 2)

/-- A check-value setting: width, polynomial, input and output reflection, final inversion. -/
structure CrcCfg where
  w : Nat
  poly : Nat
  refin : Bool
  refout : Bool
  finv : Bool
  deriving DecidableEq, Repr

/-- One bit of R513. -/
def crcBit (c : CrcCfg) (st : Nat) (b : Bool) : Nat :=
  let fb := (st.testBit (c.w - 1)) != b
  let s := (st <<< 1) % 2 ^ c.w
  if fb then s ^^^ (c.poly % 2 ^ c.w) else s

/-- Bits 7 down to 0 of a byte, `n` of them left. -/
def crcBits (c : CrcCfg) : (n : Nat) → (b st : Nat) → Nat
  | 0, _, st => st
  | n + 1, b, st => crcBits c n b (crcBit c st (b.testBit n))

/-- One byte (R513). -/
def crcByte (c : CrcCfg) (st : Nat) (b : Nat) : Nat := crcBits c 8 (if c.refin then reflect 8 b else b) st

/-- Bytes. -/
def crcBytes (c : CrcCfg) (st : Nat) (bs : List Nat) : Nat := bs.foldl (crcByte c) st

/-- The result of a state (R513). -/
def crcResult (c : CrcCfg) (st : Nat) : Nat :=
  let r := if c.refout then reflect c.w st else st
  if c.finv then r ^^^ (2 ^ c.w - 1) else r

/-- The CRC-32C setting (R521). -/
def crc32cCfg : CrcCfg := ⟨32, 0x1EDC6F41, true, true, true⟩

/-- CRC-32C of bytes. -/
def crc32c (bs : List Nat) : Nat := crcResult crc32cCfg (crcBytes crc32cCfg (2 ^ 32 - 1) bs)

end Sys2Proof.Machine
end

