-- ==== Sys2Proof/Machine/Neano.lean ====
section
/-! DEFINITION. Neano and the slow tier: packages, contexts, windows, update rules and kernels, commits, repair and
mirrors (R373 to R412). -/
namespace Sys2Proof.Machine

/-! ## Records -/

/-- Context c. -/
def Dev.ctx (d : Dev) (c : Nat) : NeaCtx := FMap.getD d.nea c {}

/-- Change it. -/
def Dev.onCtx (d : Dev) (c : Nat) (f : NeaCtx → NeaCtx) : Dev := { d with nea := FMap.set d.nea {} c (f (d.ctx c)) }

/-- Slot k. -/
def NeaCtx.slot (x : NeaCtx) (k : Nat) : NeaSlot := FMap.getD x.slots k {}

/-- Change it. -/
def NeaCtx.onSlot (x : NeaCtx) (k : Nat) (f : NeaSlot → NeaSlot) : NeaCtx :=
  { x with slots := FMap.set x.slots {} k (f (x.slot k)) }

/-- The slot in a state. -/
def NeaCtx.find (x : NeaCtx) (st : SlotState) : Option Nat := (upTo 3).find? (fun k => (x.slot k).st = st)

/-- A package before anything happened to it (R405): packages 0 to 7 hold the logical numbers. -/
def NeaPkg.init (k : Nat) : NeaPkg := { logical := if k < 8 then k else 0xF }

/-- Physical package k. -/
def Dev.pkg (d : Dev) (k : Nat) : NeaPkg := FMap.getD d.pkgs k (NeaPkg.init k)

/-- Change it. -/
def Dev.onPkg (d : Dev) (k : Nat) (f : NeaPkg → NeaPkg) : Dev :=
  { d with pkgs := FMap.set d.pkgs (NeaPkg.init k) k (f (d.pkg k)) }

/-- The physical package with a logical number. -/
def Dev.pkgOf (d : Dev) (l : Nat) : Option Nat := (upTo 10).find? (fun k => (d.pkg k).logical = l)

/-- NEA_CTX_CTRL of context c. -/
def Dev.ctxCtrl (d : Dev) (c : Nat) : Word := d.reg ⟨.neaCtxCtrl, [c]⟩

/-- MODE = 1: fall-back (R396). -/
def Dev.ctxFb (d : Dev) (c : Nat) : Bool := bit 3 (d.ctxCtrl c)

/-- The partition a context is bound to (R406). -/
def Dev.ctxPart (d : Dev) (c : Nat) : Option Nat := if bit 2 (d.ctxCtrl c) then some (fld 1 0 (d.ctxCtrl c)) else none

/-- The context bound to a partition. -/
def Dev.ctxOf (d : Dev) (p : Nat) : Option Nat := (upTo 8).find? (fun c => d.ctxPart c = some p)

/-- Does the partition hold a training program: is a context bound to it (R378)? -/
def Dev.training (d : Dev) (p : Nat) : Bool := (d.ctxOf p).isSome

/-- An event of a context: recorded, and raised for its partition. -/
def Dev.neaEvent (d : Dev) (c code : Nat) : Dev :=
  (d.onCtx c (fun x => { x with event := code })).raise code (d.ctxPart c) c

/-! ## Places in the slow tier (R375, R379) -/

/-- Bytes of a slot: 8 B per parameter and 4 B of check value per 4 KiB. -/
def slotBytes (q : Nat) : Nat := 8 * q + q / 128

/-- GiB of an area, rounded up. -/
def areaGib (q : Nat) : Nat := cdiv (3 * slotBytes q) (2 ^ 30)

/-- GiB of the receive area (R404). -/
def Dev.recvGib (d : Dev) : Nat := 4 * d.regFld ⟨.neaMirrorCfg, []⟩ 63 56

/-- Areas held, as (first, end) in GiB. -/
def Dev.areas (d : Dev) : List (Nat × Nat) :=
  ((upTo 8).filter (fun c => decide ((d.ctx c).q ≠ 0) && !d.ctxFb c)).map
    (fun c => ((d.ctx c).base, (d.ctx c).base + areaGib (d.ctx c).q))

/-- FREE_GIB of R403. -/
def Dev.freeGib (d : Dev) : Nat := 64 * d.slowK - (d.areas.map (fun a => a.2 - a.1)).sum - d.recvGib

/-- The lowest place for g GiB below the receive area. -/
def Dev.placeArea (d : Dev) (g : Nat) : Option Nat :=
  (upTo (64 * d.slowK + 1 - d.recvGib - g)).find? (fun b => d.areas.all (fun a => b + g ≤ a.1 || a.2 ≤ b))

/-- Where byte `off` of a slot lies (R375): its logical package and the offset there. -/
def Dev.slowPlace (d : Dev) (c k off : Nat) : Nat × Nat :=
  let x := d.ctx c
  let o := x.base * 2 ^ 30 + k * slotBytes x.q + off
  ((o >>> 12) % d.slowK, (o >>> 12) / d.slowK * 4096 + o % 4096)

/-- Logical packages that hold a unit of a slot: two where the slot does not begin at a multiple of 4 KiB (R375, R379). -/
def Dev.unitPkgs (d : Dev) (c k unit : Nat) : List Nat :=
  let a := (d.slowPlace c k (4096 * unit)).1
  let b := (d.slowPlace c k (4096 * unit + 4095)).1
  if a = b then [a] else [a, b]

/-- Is a unit of a slot lost? -/
def Dev.unitLost (d : Dev) (c k unit : Nat) : Bool :=
  (d.ctx c).lost.any (fun l => decide (l.slot = k) &&
    (match l.unit with
     | some u => decide (u = unit)
     | none => (d.unitPkgs c k unit).contains l.pkg))

/-! ## Errors of the slow tier (R377, R401) -/

/-- Packages that can still stand in. -/
def Dev.pkgSpares (d : Dev) : List Nat := (upTo 10).filter (fun k => (d.pkg k).st = .spare ∧ (d.pkg k).logical = 0xF)

/-- Partitions that use the slow tier: those with a bound context that is not in fall-back mode (R396). -/
def Dev.slowParts (d : Dev) : List Nat := (upTo 4).filter (fun p => match d.ctxOf p with
  | some c => !d.ctxFb c
  | none => false)

/-- CE_THRESH of a package; 0 acts as 1. -/
def Dev.pkgThresh (d : Dev) (k : Nat) : Nat := max 1 (d.regFld ⟨.neaPkg, [k]⟩ 15 8)

/-- n corrections on physical package k: at the threshold it becomes FAILING and is copied to a spare (R377, R401). -/
def Dev.pkgCorr (d : Dev) (k n : Nat) : Dev :=
  let d1 := d.onPkg k (fun x => { x with ce := satAdd 16 x.ce n, winCe := x.winCe + n })
  if (d1.pkg k).st = .service ∧ d1.pkgThresh k ≤ (d1.pkg k).winCe then
    let d2 := d1.onPkg k (fun x => { x with st := .failing })
    match d2.pkgSpares with
    | [] => d2.faultDevice 0x0B01 k d2.slowParts []
    | t :: _ => (d2.onPkg t (fun x => { x with st := .target, src := k })).faultDevice 0x0B01 k d2.slowParts [.pkg k]
  else d1

/-- A unit is lost: counted on the package of its first byte, raised, and queued for repair (R377). -/
def Dev.unitLose (d : Dev) (c k unit : Nat) : Dev :=
  let l := (d.slowPlace c k (4096 * unit)).1
  let d1 := match d.pkgOf l with
    | some q => d.onPkg q (fun x => { x with ue := satAdd 16 x.ue 1 })
    | none => d
  if d.unitLost c k unit then d1
  else (d1.onCtx c (fun x => { x with lost := x.lost ++ [({ slot := k, unit := some unit, pkg := l } : NeaLost)] })).neaEvent c 0x0B02

/-- SLOW_TIER_REFRESH: a refresh of a package, at the rate of its temperature readout, which NEA_PKG shows (R374, R405). -/
def Dev.slowRefresh (d : Dev) (k : Nat) (temp : Int) : Dev := d.onPkg k (fun x => { x with temp := temp })

/-! ## Windows (R380) -/

/-- First address of a context's window. -/
def ctxWindow (c : Nat) : Nat := 0x10000000000 + 0x2000000000 * c

/-- The parameter and the part of a plane offset: HI, LO (two bytes each) or AVG (four), and the byte. -/
def planeAt (q off : Nat) : Nat × Nat × Nat :=
  if off < 2 * q then (off / 2, 2 + off % 2, 0)
  else if off < 4 * q then ((off - 2 * q) / 2, off % 2, 0)
  else ((off - 4 * q) / 4, off % 4, 1)

/-- The byte at a plane offset of a slot. -/
def NeaSlot.byte (s : NeaSlot) (q off : Nat) : Byte :=
  let x := planeAt q off
  let v := if x.2.2 = 0 then FMap.getD s.w x.1 0 else FMap.getD s.a x.1 0
  BitVec.ofNat 8 (v.toNat >>> (8 * x.2.1))

/-- Store a byte of a lane. -/
def laneByte (v : Lane) (k : Nat) (b : Byte) : Lane :=
  (v &&& ~~~(BitVec.ofNat 32 (0xFF <<< (8 * k)))) ||| BitVec.ofNat 32 (b.toNat <<< (8 * k))

/-- Store a byte at a plane offset. -/
def NeaSlot.setByte (s : NeaSlot) (q off : Nat) (b : Byte) : NeaSlot :=
  let x := planeAt q off
  if x.2.2 = 0 then { s with w := FMap.set s.w 0 x.1 (laneByte (FMap.getD s.w x.1 0) x.2.1 b) }
  else { s with a := FMap.set s.a 0 x.1 (laneByte (FMap.getD s.a x.1 0) x.2.1 b) }

/-- Store bytes from a plane offset upward. -/
def NeaSlot.setBytes (s : NeaSlot) (q off : Nat) : List Byte → NeaSlot
  | [] => s
  | b :: bs => (s.setByte q off b).setBytes q (off + 1) bs

/-- The bytes of unit u of a slot's planes. -/
def NeaSlot.unitBytes (s : NeaSlot) (q u : Nat) : List Byte := (upTo 4096).map (fun i => s.byte q (4096 * u + i))

/-- The check plane's value of unit u (R377, R379). Neano writes every unit whole with its check value, so the plane always
holds the CRC-32C of what the unit holds, and the model computes it from there. -/
def NeaSlot.check (s : NeaSlot) (q u : Nat) : Nat := crc32c ((s.unitBytes q u).map BitVec.toNat)

/-- Do the unit and the check value that arrive match (R377)? What arrives undisturbed does. -/
def NeaSlot.matches (s : NeaSlot) (q u : Nat) (err : ReadErr) : Bool :=
  if err.flips.isEmpty then true
  else
    let bs := err.flips.foldl (fun (bs : List Byte) e => if e.1.val < 4096 then bs.modify e.1.val (· ^^^ e.2) else bs)
      (s.unitBytes q u)
    let v := err.flips.foldl (fun (v : Nat) e => if e.1.val < 4096 then v else v ^^^ (e.2.toNat <<< (8 * (e.1.val - 4096))))
      (s.check q u)
    decide (crc32c (bs.map BitVec.toNat) = v)

/-- What a read of one unit finds (R377): lost or not. Its check value is computed over what arrives; corrections count on the
package of the unit's first byte (log entry 125). -/
def Dev.unitRead (d : Dev) (c k unit : Nat) (err : ReadErr) : Bool × Dev :=
  let lost := d.unitLost c k unit
  let d1 := match d.pkgOf (d.slowPlace c k (4096 * unit)).1 with
    | some q => if err.fixed = 0 then d else d.pkgCorr q err.fixed
    | none => d
  if err.dead || !(((d.ctx c).slot k).matches (d.ctx c).q unit err) then (true, d1.unitLose c k unit) else (lost, d1)

/-- Units of a slot are read for a use that waits while one of them is lost (R377, R400); `es` names errors by unit. The flag
says that one is lost. -/
def Dev.readUnits (d : Dev) (c k : Nat) (us : List Nat) (es : ReadErrs) : Bool × Dev :=
  if us.any (d.unitLost c k) then (true, d)
  else
    let d1 := (es.filter (fun e => us.contains e.1)).foldl (fun (d : Dev) e => (d.unitRead c k e.1 e.2).2) d
    (us.any (d1.unitLost c k), d1)

/-- Units that hold the bytes [lo, lo + n) of a slot. -/
def byteUnits (lo n : Nat) : List Nat := (upTo ((lo + n + 4095) / 4096 - lo / 4096)).map (lo / 4096 + ·)

/-- Is context c's window mapped for the hosting software (none) or for a partition (R380)? -/
def Dev.windowOpen (d : Dev) (who : Option Nat) (c : Nat) : Bool :=
  let x := d.ctx c
  decide (x.q ≠ 0) && !d.ctxFb c &&
  (match who with
   | none => decide (x.st ≠ .free) && decide (x.st ≠ .releasing)
   | some p => decide (d.ctxPart c = some p) &&
      (decide (x.st = .active) || decide (x.st = .importing) || decide (x.st = .halted)))

/-- Where an address of a window lies: context, slot, plane offset; none where it is unmapped (R380). -/
def Dev.slowAt (d : Dev) (who : Option Nat) (a : Nat) : Option (Nat × Nat × Nat) :=
  if 0x10000000000 ≤ a ∧ a < ctxWindow 8 then
    let c := (a - 0x10000000000) / 0x2000000000
    let o := (a - 0x10000000000) % 0x2000000000
    let x := d.ctx c
    if d.windowOpen who c then
      if o < 8 * x.q then (x.find .committed).map (fun k => (c, k, o))
      else if 0x1000000000 ≤ o ∧ o < 0x1000000000 + 8 * x.q then (x.find .import_).map (fun k => (c, k, o - 0x1000000000))
      else none
    else none
  else none

/-- One byte's contents and whether its unit is lost. -/
def Dev.slowByte (d : Dev) (p : Nat × Nat × Nat) : PByte :=
  ((((d.ctx p.1).slot p.2.1).byte (d.ctx p.1).q p.2.2), d.unitLost p.1 p.2.1 (p.2.2 / 4096))

/-- Read the units of a range: errors by unit in the order of the range. -/
def Dev.slowUnits (d : Dev) (who : Option Nat) (u : Nat) (i : Nat) (es : ReadErrs) : (n : Nat) → Dev
  | 0 => d
  | n + 1 =>
    let d1 := match d.slowAt who (4096 * u) with
      | some p => (d.unitRead p.1 p.2.1 (p.2.2 / 4096) (es.at i)).2
      | none => d
    d1.slowUnits who (u + 1) (i + 1) es n

/-- Read n bytes of the windows from a: each byte, or none where unmapped. -/
def Dev.slowRead (d : Dev) (who : Option Nat) (a n : Nat) (es : ReadErrs) : List (Option PByte) × Dev :=
  let u := a / 4096
  let d1 := d.slowUnits who u 0 es ((a + n + 4095) / 4096 - u)
  ((upTo n).map (fun i => (d1.slowAt who (a + i)).map d1.slowByte), d1)

/-- Write whole aligned 4 KiB units of an import view; false where that is refused as unmapped (R380). -/
def Dev.slowWrite (d : Dev) (who : Option Nat) (a : Nat) (bs : List Byte) : Bool × Dev :=
  let n := bs.length
  if a % 4096 = 0 ∧ n % 4096 = 0 ∧ 0 < n then
    match d.slowAt who a, d.slowAt who (a + n - 1) with
    | some p, some q =>
      if 0x1000000000 ≤ (a - 0x10000000000) % 0x2000000000 ∧ p.1 = q.1 then
        let lo := p.2.2 / 4096
        (true, d.onCtx p.1 (fun x => { x.onSlot p.2.1 (fun s => s.setBytes x.q p.2.2 bs) with
          lost := x.lost.filter (fun l => !(decide (l.slot = p.2.1) &&
            (match l.unit with
             | some u => decide (lo ≤ u) && decide (u < lo + n / 4096)
             | none => false))) }))
      else (false, d)
    | _, _ => (false, d)
  else (false, d)

/-! ## Update rules (R386 to R388) -/

/-- Sign of a lane (R386): −1, +0, +1, NaN. -/
def laneSign (x : Lane) : Lane :=
  match x.val with
  | .nan => laneNaN
  | .inf n => if n then 0xBF800000 else 0x3F800000
  | .fin n m _ => if m = 0 then 0 else if n then 0xBF800000 else 0x3F800000

/-- Is a lane finite? -/
def Lane.finite (x : Lane) : Bool :=
  match x.val with
  | .fin .. => true
  | _ => false

/-- A kernel operation of R390; FCMP, whose word has no COND, compares for equality (log entry 21). -/
def kernelOp (op : Nat) (a b c : Lane) : Option Lane :=
  match op with
  | 0x00 => some (fadd a b).1
  | 0x01 => some (fsub a b).1
  | 0x02 => some (fmul a b).1
  | 0x03 => some (ffma a b c).1
  | 0x04 => some (fmax a b).1
  | 0x05 => some (fmin a b).1
  | 0x06 => some (fcmp 0 a b).1
  | 0x07 => some (if a.val.isNan then laneNaN else fabs a)
  | 0x08 => some (if a.val.isNan then laneNaN else fneg a)
  | 0x09 => some (if c = 0 then b else a)
  | 0x28 => some (fnLane .exp a).1
  | 0x29 => some (fnLane .exp2 a).1
  | 0x2A => some (fnLane .log a).1
  | 0x2B => some (fnLane .log2 a).1
  | 0x2C => some (fnLane .rcp a).1
  | 0x2D => some (fnLane .rsqrt a).1
  | 0x2E => some (fnLane .tanh a).1
  | 0x2F => some (fnLane .sigmoid a).1
  | 0x30 => some (fnLane .erf a).1
  | 0x31 => some (fnLane .sinpi a).1
  | 0x32 => some (fnLane .cospi a).1
  | 0x34 => some (fdiv a b).1
  | 0x35 => some (fsqrt a).1
  | 0x3E => some (laneSign a)
  | _ => none

/-- Source registers that an operation reads. -/
def kernelReads (op a b c : Nat) : List Nat :=
  if op = 0x03 ∨ op = 0x09 then [a, b, c]
  else if op ≤ 0x06 ∨ op = 0x34 then [a, b]
  else [a]

/-- R391 on the words from a position on; `wr` are the registers written so far. -/
def kernelOkFrom (wr : List Nat) : List Nat → Bool
  | [] => false
  | w :: ws =>
    let op := bits 31 26 w
    if w % 64 ≠ 0 then false
    else if op = 0x3F then wr.contains 30 && wr.contains 31
    else
      let rs := kernelReads op (bits 20 16 w) (bits 15 11 w) (bits 10 6 w)
      (kernelOp op 0 0 0).isSome && decide (9 < bits 25 21 w) &&
      rs.all (fun r => r < 10 || 30 ≤ r || wr.contains r) && kernelOkFrom (bits 25 21 w :: wr) ws

/-- Is a kernel valid (R391)? -/
def kernelOk (ws : List Nat) : Bool := kernelOkFrom [] ws

/-- Run a kernel: the register file after it. -/
def kernelRun (t : List Lane) : List Nat → List Lane
  | [] => t
  | w :: ws =>
    if bits 31 26 w = 0x3F then t
    else
      let g := fun r => t.getD r 0
      match kernelOp (bits 31 26 w) (g (bits 20 16 w)) (g (bits 15 11 w)) (g (bits 10 6 w)) with
      | some v => kernelRun (t.set (bits 25 21 w) v) ws
      | none => t

/-- What the rule makes of one parameter. -/
structure NeaRes where
  w : Lane
  a : Lane
  flags : BitVec 2 := 0
  copied : Bool := false
  deriving DecidableEq, Repr

/-- NV for a NaN result, OF for an infinite one (R387). -/
def neaFlag (x : Lane) : BitVec 2 :=
  match x.val with
  | .nan => 1
  | .inf _ => 2
  | .fin .. => 0

/-- The rule on one parameter (R386, R387). What a kernel reads from t30 or t31 before writing it is a free value of its
operands (R388, log entry 21). -/
def neaRule (s : NeaGroup) (w a gin : Lane) : NeaRes :=
  let g := (fmul gin s.gscale).1
  if !g.finite then { w := w, a := a, copied := true }
  else
    let r : Lane × Lane :=
      match s.rule with
      | 0 =>
        let a1 := (ffma s.beta a g).1
        ((ffma w s.k (fneg (fmul s.eta a1).1)).1, a1)
      | 1 =>
        let a1 := (ffma s.beta a (fmul s.c (fmul g g).1).1).1
        ((ffma w s.k (fneg (fmul s.eta (fdiv g (fadd (fsqrt a1).1 s.eps).1).1).1)).1, a1)
      | 2 =>
        let u := laneSign (ffma s.betaS a (fmul s.cs g).1).1
        ((ffma w s.k (fneg (fmul s.eta u).1)).1, (ffma s.beta a (fmul s.c g).1).1)
      | _ =>
        let t0 := [g, w, a, s.eta, s.k, s.beta, s.c, s.betaS, s.cs, s.eps]
        let t := kernelRun (t0 ++ List.replicate 20 0 ++ [Config.kernelFree false t0 s.kernel, Config.kernelFree true t0 s.kernel])
          s.kernel
        (t.getD 30 0, t.getD 31 0)
    { w := r.1, a := r.2, flags := neaFlag r.1 ||| neaFlag r.2 }

/-! ## Settings and latch (R384 to R386) -/

/-- The words of kernel j of a context, as the registers stand. -/
def kernelWords (rd : Reg → Word) (c j : Nat) : List Nat :=
  (upTo 16).flatMap (fun i =>
    let v := rd ⟨.neaKernel, [c, 16 * j + i]⟩
    [fld 31 0 v, fld 63 32 v])

/-- A group's settings, from the registers read by `rd`. -/
def neaGroupOf (rd : Reg → Word) (c g : Nat) : NeaGroup :=
  let cfg := rd ⟨.neaGrpCfg, [c, g]⟩
  let h1 := rd ⟨.neaGrpHyp1, [c, g]⟩
  let h2 := rd ⟨.neaGrpHyp2, [c, g]⟩
  let h3 := rd ⟨.neaGrpHyp3, [c, g]⟩
  let lo := fun (x : Word) => (BitVec.ofNat 32 (fld 31 0 x) : Lane)
  let hi := fun (x : Word) => (BitVec.ofNat 32 (fld 63 32 x) : Lane)
  let one : Lane := 0x3F800000
  let rule := fld 45 44 cfg
  { base := fld 21 0 cfg * 2048, count := fld 43 22 cfg * 2048, rule := rule, freeze := bit 48 cfg, strict := bit 49 cfg
    eta := lo h1, k := (fsub one (fmul (lo h1) (hi h1)).1).1, beta := lo h2, c := (fsub one (lo h2)).1, betaS := hi h2
    cs := (fsub one (hi h2)).1, eps := lo h3, gscale := hi h3
    kernel := if rule = 3 then kernelWords rd c (fld 47 46 cfg) else [] }

/-- Ranges in rising order with one more range put in, neighbours joined. -/
def ivInsert (lo hi : Nat) : List (Nat × Nat) → List (Nat × Nat)
  | [] => if lo < hi then [(lo, hi)] else []
  | (a, b) :: r =>
    if hi ≤ lo then (a, b) :: r
    else if hi < a then (lo, hi) :: (a, b) :: r
    else if b < lo then (a, b) :: ivInsert lo hi r
    else ivInsert (min lo a) (max hi b) r

/-- Is a range covered? -/
def ivCovers (lo hi : Nat) (l : List (Nat × Nat)) : Bool := hi ≤ lo || l.any (fun x => x.1 ≤ lo && hi ≤ x.2)

/-- Groups of the latched step with parameters. -/
def NeaCtx.liveGroups (x : NeaCtx) : List (Nat × NeaGroup) := x.groups.filter (fun g => g.2.count ≠ 0)

/-- A latched group is complete (R383). -/
def NeaCtx.groupDone (x : NeaCtx) (g : NeaGroup) : Bool := ivCovers g.base (g.base + g.count) x.done

/-- The step is complete (R383): every group, and no lost unit of the slot being built (R400). -/
def NeaCtx.complete (x : NeaCtx) : Bool :=
  x.step.isSome && x.liveGroups.all (fun g => x.groupDone g.2) &&
  x.lost.all (fun l => (x.slot l.slot).st ≠ .building)

/-- The lowest FREE slot of the three, or of the two buffers of fall-back mode (R379, R396). -/
def NeaCtx.spare (x : NeaCtx) (fb : Bool) : Option Nat :=
  (upTo (if fb then 2 else 3)).find? (fun k => (x.slot k).st = .free)

/-- A slot returns to FREE: nothing of value is in it, so nothing of it is lost. -/
def NeaCtx.freed (x : NeaCtx) (k : Nat) : NeaCtx :=
  { x.onSlot k (fun s => { s with st := .free }) with lost := x.lost.filter (fun l => l.slot ≠ k) }

/-- The BUILDING slot: the open one, or a FREE slot that enters it (R382); none while every other slot is held. -/
def NeaCtx.build (x : NeaCtx) (fb : Bool) (ring : Nat) : Option Nat × NeaCtx :=
  match x.find .building with
  | some k => (some k, x)
  | none =>
    match x.spare fb with
    | some k => (some k, x.onSlot k (fun s => { s with st := .building, ring := ring, valid := true }))
    | none => (none, x)

/-- First byte of a fall-back buffer's parameter i: the BF16 weight, then the average (R396, log entry 22). -/
def Dev.fbAddr (d : Dev) (c k i : Nat) : Nat :=
  fld 47 0 (d.reg ⟨.neaCtxFb, [c]⟩) + 4 * (d.ctx c).q * k + 4 * i

/-- W and a of a parameter in a slot; in fall-back mode read from HBM, where a poisoned sector gives an open value. -/
def Dev.neaGet (d : Dev) (c k i : Nat) : Lane × Lane :=
  if d.ctxFb c then
    let b := d.fbAddr c k i
    if NSet.has d.mem.hpoison (b / 64) then
      (BitVec.ofNat 32 (fld 31 0 (Config.freeWord d.fresh)), BitVec.ofNat 32 (fld 63 32 (Config.freeWord d.fresh)))
    else (BitVec.ofNat 32 (natOfBytes (d.mem.getAll b 2) <<< 16), BitVec.ofNat 32 (natOfBytes (d.mem.getAll (b + 2) 2) <<< 16))
  else (FMap.getD ((d.ctx c).slot k).w i 0, FMap.getD ((d.ctx c).slot k).a i 0)

/-- BF16 of a lane by stochastic rounding (R396, R88). -/
def fbRound (r16 : Nat) (x : Lane) : Nat :=
  match x.val with
  | .nan => 0x7FC0
  | .inf n => if n then 0xFF80 else 0x7F80
  | .fin n m e => if m = 0 then (if n then 0x8000 else 0) else (bf16F.round .sr true r16 n ⟨m, e, false⟩).1

/-- Store W' and a' of a parameter of group g into slot k, ring n + 1 (R381, R396). -/
def Dev.neaPut (d : Dev) (c k i g ring : Nat) (w a : Lane) : Dev :=
  if d.ctxFb c then
    let key := (d.reg ⟨.neaCtxSeed, [c]⟩).toNat
    let v := fun (s : Nat) (x : Lane) => fbRound (sr16 key s (ring % 2 ^ 32) i) x
    d.hbmWrite (d.fbAddr c k i) (clean (bytesOf 2 (v (2 * g) w) ++ bytesOf 2 (v (2 * g + 1) a))) []
  else
    d.onCtx c (fun x => x.onSlot k (fun s => { s with w := FMap.set s.w 0 i w, a := FMap.set s.a 0 i a }))

/-- Copy parameters forward unchanged (R387, R392). -/
def Dev.neaCopy (d : Dev) (c from_ dest_ : Nat) (g ring lo n : Nat) : Dev :=
  (upTo n).foldl (fun (d : Dev) i =>
    let v := d.neaGet c from_ (lo + i)
    d.neaPut c dest_ (lo + i) g ring v.1 v.2) d

/-- Ring of the committed slot. -/
def NeaCtx.ring (x : NeaCtx) : Option Nat := (x.find .committed).map (fun k => (x.slot k).ring)

/-- Units that hold n parameters from lo on, of HI, LO and AVG (R379); none in fall-back mode. -/
def Dev.rangeUnits (d : Dev) (c lo n : Nat) : List Nat :=
  let q := (d.ctx c).q
  if d.ctxFb c then [] else byteUnits (2 * lo) (2 * n) ++ byteUnits (2 * q + 2 * lo) (2 * n) ++ byteUnits (4 * q + 4 * lo) (4 * n)

/-- A frozen group is copied forward into the BUILDING slot (R392). It waits while a unit that it reads is lost (R400) or no
slot is FREE. -/
def Dev.neaFreeze (d : Dev) (c g : Nat) (s : NeaGroup) (es : ReadErrs) : Dev :=
  let x := d.ctx c
  match x.find .committed, x.step with
  | some k0, some n =>
    match (x.build (d.ctxFb c) (n + 1)).1 with
    | some k =>
      let r := d.readUnits c k0 (d.rangeUnits c s.base s.count) es
      if r.1 then r.2
      else
        ((r.2.onCtx c (fun x => (x.build (d.ctxFb c) (n + 1)).2)).neaCopy c k0 k g (n + 1) s.base s.count).onCtx c
          (fun x => { x with done := ivInsert s.base (s.base + s.count) x.done })
    | none => d
  | _, _ => d

/-- Frozen groups of the latched step are copied forward (R392); one that cannot be yet is copied by its NEANO_GROUP_UPDATE (log
entry 77). -/
def Dev.neaFrozen (d : Dev) (c : Nat) : Dev :=
  ((d.ctx c).liveGroups.filter (fun g => g.2.freeze)).foldl (fun (d : Dev) g => d.neaFreeze c g.1 g.2 []) d

/-- The context is stopped: the BUILDING slot returns to FREE (R382, R392, R400). -/
def NeaCtx.halt (x : NeaCtx) : NeaCtx :=
  let y : NeaCtx := match x.find .building with
    | some k => x.freed k
    | none => x
  { y with st := .halted, step := none, pend := [], held := [], done := [], groups := [], late := 0, latch := .none }

/-! ## Deliveries and updates (R386, R387, R392) -/

/-- A frozen group's delivery (R392): counted, or with STRICT the context halts. -/
def Dev.neaFrozenHit (d : Dev) (c g : Nat) (strict : Bool) : Dev :=
  if strict then (d.neaEvent c 0x0B08).onCtx c NeaCtx.halt
  else d.count ⟨.neaGrpStat, [c, g]⟩ 31 0 1

/-- Gradients of the latched step (R392): what they bring for a frozen group is discarded, the rest is pending for its group's
update. -/
def Dev.neaTake (d : Dev) (c : Nat) (gr : NeaGrads) : Dev :=
  let hit := (d.ctx c).liveGroups.filter (fun g =>
    g.2.base < gr.param0 + gr.vals.length ∧ gr.param0 < g.2.base + g.2.count)
  let d1 := (hit.filter (fun g => g.2.freeze)).foldl (fun (d : Dev) g =>
    if (d.ctx c).st = .active then d.neaFrozenHit c g.1 g.2.strict else d) d
  if (d1.ctx c).st = .active then d1.onCtx c (fun x => { x with pend := x.pend ++ [gr] }) else d1

/-- Gradients held for the step that has just been latched enter it as deliveries (12, "Against the step's timing"). -/
def Dev.neaPromote (d : Dev) (c : Nat) : Dev :=
  match (d.ctx c).step with
  | some n =>
    let mine := (d.ctx c).held.filter (fun h => h.ring = n)
    mine.foldl (fun (d : Dev) h => if (d.ctx c).st = .active then d.neaTake c h else d)
      (d.onCtx c (fun x => { x with held := x.held.filter (fun h => h.ring ≠ n) }))
  | none => d

/-- The next step is latched (R384): groups, then frozen copies, then held gradients. `owed`: commits whose scheduled edge has
passed, its own the first (R29). -/
def Dev.neaLatch (d : Dev) (c owed : Nat) : Dev :=
  let gs := (upTo 256).filterMap (fun g =>
    let s := neaGroupOf d.reg c g
    if s.count = 0 then none else some (g, s))
  let d1 := d.onCtx c (fun x => ({ x with
    step := x.ring, groups := gs, done := [], nonfinite := [], pend := [], late := owed, latch := .none } : NeaCtx))
  (d1.neaFrozen c).neaPromote c

/-- Gradients delivered for partition p (R467): held for a later ring, or taken for the step. -/
def Dev.neaDeliver (d : Dev) (p : Nat) (gr : NeaGrads) : Dev :=
  match d.ctxOf p with
  | none => d
  | some c =>
    let x := d.ctx c
    if x.st ≠ .active then d
    else if x.step = some gr.ring then d.neaTake c gr
    else if x.step.isNone ∨ x.step = some (gr.ring - 1) ∧ 0 < gr.ring then
      d.onCtx c (fun x => { x with held := x.held ++ [gr] })
    else d

/-- The update of one parameter. -/
def Dev.neaParam (d : Dev) (c g : Nat) (s : NeaGroup) (from_ dest_ ring i : Nat) (gin : Lane) : Dev :=
  let v := d.neaGet c from_ i
  let r := neaRule s v.1 v.2 gin
  let d1 := (d.neaPut c dest_ i g ring r.w r.a).onCtx c (fun x => { x with flags := x.flags ||| r.flags })
  if r.copied then
    let d2 := d1.count ⟨.neaGrpStat, [c, g]⟩ 63 32 1
    if NSet.has (d2.ctx c).nonfinite g then d2
    else (d2.onCtx c (fun x => { x with nonfinite := NSet.add x.nonfinite g })).neaEvent c 0x0B07
  else d1

/-- The part of a delivery that lies in [lo, hi), as (parameter, gradient). -/
def NeaGrads.within (x : NeaGrads) (lo hi : Nat) : List (Nat × Lane) :=
  ((upTo x.vals.length).zip x.vals).filterMap (fun e =>
    if lo ≤ x.param0 + e.1 ∧ x.param0 + e.1 < hi then some (x.param0 + e.1, e.2) else none)

/-- Units that hold a parameter: of HI, LO and AVG (R379). -/
def paramUnits (q i : Nat) : List Nat := [2 * i / 4096, (2 * q + 2 * i) / 4096, (4 * q + 4 * i) / 4096]

/-- Units of a slot that an update of these parameters reads; none in fall-back mode. -/
def Dev.unitsRead (d : Dev) (c : Nat) (is : List Nat) : List Nat :=
  if d.ctxFb c then []
  else (is.foldl (fun (s : NSet) i => (paramUnits (d.ctx c).q i).foldl (fun (s : NSet) u => NSet.add s u) s) []).map Prod.fst

/-- A lost unit holds every update that reads it (R400). -/
def Dev.updateHeld (d : Dev) (c k : Nat) (is : List Nat) : Bool := (d.unitsRead c is).any (d.unitLost c k)

/-- NEANO_GROUP_UPDATE: the pending gradients of group g of context c (R386 to R389), or the copy of a frozen group that waits
(R392). `es` names errors by unit of the committed slot; an update that finds a unit lost waits for its repair. -/
def Dev.neaUpdate (d : Dev) (c g : Nat) (es : ReadErrs) : Dev :=
  let x := d.ctx c
  if x.st = .active ∧ !d.lost 32 then
    match FMap.find? x.groups g, x.find .committed, x.step with
    | some s, some k0, some n =>
      let b := x.build (d.ctxFb c) (n + 1)
      let mine := x.pend.flatMap (fun p => p.within s.base (s.base + s.count))
      let is := mine.map Prod.fst
      match b.1 with
      | some k =>
        if s.freeze then if x.groupDone s then d else d.neaFreeze c g s es
        else if mine.isEmpty then d
        else
          let r := d.readUnits c k0 (d.unitsRead c is) es
          if r.1 then r.2
          else
            let d2 := r.2.onCtx c (fun x => (x.build (d.ctxFb c) (n + 1)).2)
            let d3 := mine.foldl (fun (d : Dev) e => d.neaParam c g s k0 k (n + 1) e.1 e.2) d2
            (d3.tick).onCtx c (fun x => { x with
              done := mine.foldl (fun l e => ivInsert e.1 (e.1 + 1) l) x.done
              pend := x.pend.flatMap (fun p =>
                let lo := min s.base (p.param0 + p.vals.length) - p.param0
                let hi := (s.base + s.count) - p.param0
                [({ p with vals := p.vals.take lo } : NeaGrads),
                 ({ p with param0 := p.param0 + hi, vals := p.vals.drop hi } : NeaGrads)].filter (fun y => !y.vals.isEmpty)) })
      | none => d
    | _, _, _ => d
  else d

/-- The slot that holds parameters i to i + n − 1 of ring r complete: the one being built, or the committed one. -/
def NeaCtx.holder (x : NeaCtx) (r i n : Nat) : Option Nat :=
  let old := if x.ring = some r then x.find .committed else none
  match x.find .building with
  | some k => if (x.slot k).ring = r ∧ ivCovers i (i + n) x.done then some k else old
  | none => old

/-- High halves of ring r for n parameters from i on, once they are complete (R473) and no unit read for them is lost; `es` names
errors by unit. -/
def Dev.neaHigh (d : Dev) (c r i n : Nat) (es : ReadErrs) : Option (List Nat) × Dev :=
  match (d.ctx c).holder r i n with
  | some k =>
    let x := d.readUnits c k (if d.ctxFb c then [] else byteUnits (2 * i) (2 * n)) es
    (if x.1 then none else some ((upTo n).map (fun j => (x.2.neaGet c k (i + j)).1.toNat >>> 16)), x.2)
  | none => (none, d)

/-! ## Commits (R28, R29, R382, R383, R398) -/

/-- The slots move together (R382): `k` becomes COMMITTED with ring r. In fall-back mode the buffers flip, and the one that was
committed is FREE (R396). -/
def NeaCtx.rotate (x : NeaCtx) (fb : Bool) (k r : Nat) : NeaCtx :=
  let x1 := match x.find .previous with
    | some j => x.freed j
    | none => x
  let x2 := match x.find .committed with
    | some j => if fb then x1.freed j else x1.onSlot j (fun s => { s with st := .previous, valid := true })
    | none => x1
  x2.onSlot k (fun s => { s with st := .committed, ring := r, valid := true })

/-- A commit edge of the schedule (R383). -/
def Dev.neaSched (d : Dev) (c e : Nat) : Bool :=
  let f := (d.reg ⟨.neaCtxCommit, [c]⟩).toNat
  let p := (d.reg ⟨.neaCtxPeriod, [c]⟩).toNat
  decide (p ≠ 0) && decide (f ≤ e) && decide ((e - f) % p = 0)

/-- Is edge e a step boundary for units of partition p (R529, 15)? -/
def Dev.boundary (d : Dev) (p e : Nat) : Bool :=
  match d.ctxOf p with
  | some c => d.neaSched c e
  | none => true

/-- Is edge e a step boundary of every training partition among `ps` (R529)? -/
def Dev.boundaryAll (d : Dev) (ps : List Nat) (e : Nat) : Bool :=
  (ps.filter (fun p => d.training p)).all (fun p => d.boundary p e)

/-- Units of a context's slot as a mirror sends it: HI, LO and AVG, or the BF16 buffer (R398). -/
def Dev.mirrorUnits (d : Dev) (c : Nat) : Nat := (if d.ctxFb c then 4 else 8) * (d.ctx c).q / 4096

/-- Unit u of slot k as a mirror sends it, its check value at its end (R377, R398). -/
def Dev.mirrorUnit (d : Dev) (c k u : Nat) : List Byte :=
  if d.ctxFb c then
    let bs := d.mem.getAll (d.fbAddr c k 0 + 4096 * u) 4096
    bs ++ bytesOf 4 (crc32c (bs.map BitVec.toNat))
  else
    let s := (d.ctx c).slot k
    s.unitBytes (d.ctx c).q u ++ bytesOf 4 (s.check (d.ctx c).q u)

/-- A MIRROR packet of context c to device `dst` on VC2; where a stream's packets lie in ADDR is the model's choice (log entry
126): the context in bits 47:45, the unit in 44:4, the piece in 3:0. -/
def Dev.mirrorSend (d : Dev) (c dst unit piece : Nat) (bs : List Byte) : Dev :=
  d.send { dst := dst, src := d.ownId, addr := 2 ^ 45 * c + 16 * unit + piece, vc := 2, type := 0x12, len := bs.length,
           spart := (d.ctxPart c).getD 0, payload := bs }

/-- A stream's units in pieces of at most 512 B; the last piece of a unit ends with the ring and the number of units. -/
def Dev.mirrorStream (d : Dev) (c dst k ring : Nat) : Dev :=
  (upTo (d.mirrorUnits c)).foldl (fun (d : Dev) u =>
    let bs := d.mirrorUnit c k u ++ bytesOf 8 ring ++ bytesOf 4 (d.mirrorUnits c)
    (upTo 9).foldl (fun (d : Dev) i => d.mirrorSend c dst u i ((bs.drop (512 * i)).take 512)) d) d

/-- Packets of context c's stream that wait to be sent are dropped. -/
def Dev.mirrorUnqueue (d : Dev) (c : Nat) : Dev :=
  { d with links := d.links.map (fun e => (e.1, { e.2 with txq := e.2.txq.filter (fun x =>
      !(decide (x.pkt.type = 0x12) && decide (x.pkt.src = d.ownId) && x.origin.isNone && decide (x.pkt.addr / 2 ^ 45 = c))) })) }

/-- Bytes that a context's slot takes in the partner's region: with its check plane, or the BF16 buffer (R379, R398). -/
def Dev.mirrorBytes (d : Dev) (c : Nat) : Nat := if d.ctxFb c then 4 * (d.ctx c).q else slotBytes (d.ctx c).q

/-- Has slot k of a context lost a unit that its mirror would send? -/
def Dev.slotHurt (d : Dev) (c k : Nat) : Bool := !d.ctxFb c && (upTo (d.mirrorUnits c)).any (d.unitLost c k)

/-- A mirror falls due after a commit (R398, R399). `cfg`: NEA_MIRROR_CFG in force before the edge (R51). A slot with a lost unit
is not sent and fails (DESIGN CHOICE, log entry 78). -/
def Dev.mirrorStart (d : Dev) (c ring : Nat) (cfg : Word) : Dev :=
  let dst := fld 17 0 cfg
  if bit 18 cfg && decide (ring % max 1 (fld 47 32 cfg) = 0) && decide ((d.ctx c).st = .active) then
    if (d.ctx c).sending.isSome then d.neaEvent c 0x0B0B
    else
      match (d.ctx c).find .committed with
      | some k =>
        if d.reaches dst ∧ !d.slotHurt c k ∧ d.mirrorBytes c ≤ Config.partnerGib dst * 2 ^ 30 / 8 / 2 then
          (d.onCtx c (fun x => { x with sending := some ring })).mirrorStream c dst k ring
        else d.neaEvent c 0x0B0C
      | none => d
  else d

/-- A stream under way ends (R394, R399): what waits of it is dropped and its receiver is told; `clear`: its region is to be
zero (R395). -/
def Dev.mirrorStop (d : Dev) (c : Nat) (clear : Bool) : Dev :=
  let x := d.ctx c
  let d1 := (d.mirrorUnqueue c).onCtx c (fun x => { x with sending := none })
  let d2 := if x.sending.isSome then d1.neaEvent c 0x0B0C else d1
  if clear ∨ x.sending.isSome then
    d2.mirrorSend c (d.regFld ⟨.neaMirrorCfg, []⟩ 17 0) (2 ^ 41 - 1) (if clear then 1 else 0) []
  else d2

/-- The ring commit of context c at an edge (R28, R29, R31), and the latch of its next step with the settings in force after the
staged commit (R384, R393). `sched`: the schedule in force before the edge names it, `cfg`: NEA_MIRROR_CFG before it (R51). Each
scheduled edge asks for one commit; one that does not take place there is late, with its event, and takes place at the first
edge after the step's last update, so a step that is late makes its successor late where it takes the successor's edge (12). A
step that is complete while no slot is FREE for it, since it updates no group and IMPORT holds the third slot, is late in the
same way (DESIGN CHOICE, log entry 77). -/
def Dev.neaEdge (d : Dev) (c : Nat) (sched : Bool) (cfg : Word) : Dev :=
  let x := d.ctx c
  if x.st ≠ .active then d
  else
    match x.step with
    | some n =>
      let owed := x.late + (if sched then 1 else 0)
      let b := x.build (d.ctxFb c) (n + 1)
      match (if 0 < owed ∧ x.complete then b.1 else none) with
      | some k =>
        let d1 := d.onCtx c (fun _ => b.2.rotate (d.ctxFb c) k (n + 1))
        let d2 := (d1.mirrorStart c (n + 1) cfg).neaLatch c (owed - 1)
        if sched ∧ 1 < owed then d2.neaEvent c 0x0B06 else d2
      | none =>
        let d1 := d.onCtx c (fun x => { x with late := owed })
        if sched then d1.neaEvent c 0x0B06 else d1
    | none =>
      match x.latch with
      | .edge => d.neaLatch c 0
      | .schedule => if sched then d.neaLatch c 0 else d
      | .none => d

/-! ## Imports, resume, release (R378, R382, R392, R395) -/

/-- Q of NEA_CTX_AREA is a valid parameter count (R379). -/
def areaValid (q : Nat) : Bool := decide (0 < q) && decide (q % 2048 = 0) && decide (q ≤ 2 ^ 33)

/-- NEA_IMPORT: a FREE slot enters IMPORT; a context without an area receives the one NEA_CTX_AREA names (log entry
23). -/
def Dev.neaImport (d : Dev) (c : Nat) : Dev :=
  let x := d.ctx c
  let q := (d.reg ⟨.neaCtxArea, [c]⟩).toNat
  match x.st with
  | .free =>
    if areaValid q ∧ areaGib q ≤ d.freeGib ∧ !d.ctxFb c then
      match d.placeArea (areaGib q) with
      | some b => d.onCtx c (fun x => { (x.onSlot 0 (fun s => { s with st := .import_, valid := true })) with
          st := .importing, q := q, base := b })
      | none => d
    else d
  | .active | .suspended | .halted | .importing =>
    match x.spare (d.ctxFb c), x.find .import_ with
    | some k, none => d.onCtx c (fun x => { (x.onSlot k (fun s => { s with st := .import_, valid := true })) with
        st := if x.st = .suspended then .importing else x.st })
    | _, _ => d
  | .releasing => d

/-- NEA_COMMIT_IMPORT (R382); an import commit of an ACTIVE context is mirrored as any commit (R398). R21 and R382 do not say what
becomes of a step whose BUILDING slot is open: it goes on, its remaining groups read the imported ring, and it commits ring
n + 1, which may lie below the imported one (DESIGN CHOICE, log entry 77). -/
def Dev.neaCommitImport (d : Dev) (c : Nat) : Dev :=
  let x := d.ctx c
  match x.find .import_ with
  | some k =>
    let r := (d.reg ⟨.neaCtxImportRing, [c]⟩).toNat
    let ok := match x.ring with
      | some n => decide (n < r)
      | none => true
    if ok then
      let d1 := d.onCtx c (fun x => { (x.rotate (d.ctxFb c) k r) with
        st := if x.st = .importing then (if (d.ctxPart c).isSome then .active else .suspended) else x.st })
      -- without an open slot the next step reads the imported ring
      let d2 := d1.mirrorStart c r (d1.reg ⟨.neaMirrorCfg, []⟩)
      if (d2.ctx c).st = .active ∧ (x.find .building).isNone then d2.neaLatch c 0 else d2
    else d.neaEvent c 0x0B09
  | none => d

/-- NEA_RESUME: HALTED to ACTIVE; the step is latched at the next edge of the commit schedule (R392). -/
def Dev.neaResume (d : Dev) (c : Nat) : Dev :=
  if (d.ctx c).st = .halted then d.onCtx c (fun x => { x with st := .active, latch := .schedule, step := none })
  else d

/-- NEA_RELEASE (R395): the area is zero-filled, and the partner is told to zero the mirror region. -/
def Dev.neaRelease (d : Dev) (c : Nat) : Dev :=
  let x := d.ctx c
  if x.st = .suspended ∨ x.st = .halted then
    (d.onCtx c (fun x => { x with st := .releasing, step := none, pend := [], held := [] })).mirrorStop c true
  else d

/-- NEA_RELEASE_DONE: the area is zero and the context FREE. -/
def Dev.neaReleaseDone (d : Dev) (c : Nat) : Dev :=
  if (d.ctx c).st = .releasing ∧ !d.lost 32 then
    (d.onCtx c (fun x => { event := x.event, flags := x.flags })).setRegFld ⟨.neaCtxCtrl, [c]⟩ 2 2 0
  else d

/-- Revocation of the partition bound to context c (R394, R396). A context under release stays so and becomes FREE when its area
is zero (R395). -/
def Dev.neaSuspend (d : Dev) (c : Nat) : Dev :=
  let x := d.ctx c
  let fb := d.ctxFb c
  let d1 := if x.st = .releasing then d
    else (d.mirrorStop c false).onCtx c (fun x =>
      let y := x.halt
      if fb then { event := y.event, flags := y.flags, mirror := y.mirror } else { y with st := .suspended })
  d1.setRegFld ⟨.neaCtxCtrl, [c]⟩ 2 2 0

/-! ## Lost units and packages (R400 to R402) -/

/-- NEA_UNIT_REPAIR_DONE: the first lost unit of context c that is not yet answered (R400). -/
def Dev.neaRepair (d : Dev) (c : Nat) : Dev :=
  let x := d.ctx c
  match (if d.lost 32 then none else x.lost.find? (fun l => !l.dead)) with
  | none => d
  | some l =>
    let drop := fun (x : NeaCtx) => { x with lost := x.lost.filter (fun y => y ≠ l) }
    let kill := fun (x : NeaCtx) => { x with lost := x.lost.map (fun y => if y = l then { y with dead := true } else y) }
    match (x.slot l.slot).st with
    | .committed =>
      if x.ring = some x.mirror then d.onCtx c drop
      else
        match x.find .previous with
        | some k =>
          if (x.slot k).ring = x.mirror ∧ !d.ctxFb c then
            let d1 := d.onCtx c (fun x =>
              let y := ((drop x).halt.freed l.slot).onSlot k (fun s => { s with st := .committed, valid := true })
              { y with lost := y.lost.filter (fun z => z.slot ≠ k ∧ z.slot ≠ l.slot) })
            d1.neaEvent c 0x0B0D
          else (d.onCtx c (fun x => (kill x).halt)).neaEvent c 0x0B0E
        | none => (d.onCtx c (fun x => (kill x).halt)).neaEvent c 0x0B0E
    | .previous =>
      if (x.slot l.slot).ring = x.mirror then d.onCtx c drop
      else d.onCtx c (fun x => (kill x).onSlot l.slot (fun s => { s with valid := false }))
    | .import_ => d.onCtx c kill
    -- a unit of the slot being built is written again as its group is run again
    | _ => d.onCtx c drop

/-- Every context is lost, in fall-back mode too; bound ones halt (R402). -/
def Dev.neaLoseAll (d : Dev) : Dev :=
  (upTo 8).foldl (fun (d : Dev) c =>
    if (d.ctx c).q = 0 then d
    else if (d.ctxPart c).isSome then
      (d.onCtx c (fun x => { q := x.q, base := x.base, job := x.job, flags := x.flags, st := .halted })).neaEvent c 0x0B0E
    else d.onCtx c (fun x => { event := x.event, flags := x.flags })) { d with mirrors := [] }

/-- NEA_PKG_FAIL: package k stops answering (R377, R401, R402). -/
def Dev.pkgFail (d : Dev) (k : Nat) : Dev :=
  let x := d.pkg k
  if x.st = .failed then d
  else if x.logical = 0xF then
    -- a spare, or the target of a copy
    let d1 := (d.onPkg k (fun x => { x with st := .failed })).faultDevice 0x0B03 k d.slowParts []
    if x.st = .target then
      match d1.pkgSpares with
      | t :: _ => d1.onPkg t (fun y => { y with st := .target, src := x.src })
      | [] => d1.remedyDone (.pkg x.src)
    else d1
  else
    let target := (upTo 10).find? (fun j => (d.pkg j).st = .target ∧ (d.pkg j).src = k)
    let d1 := (d.onPkg k (fun x => { x with st := .failed, logical := 0xF, copied := .no })).remedyDone (.pkg k)
    match target.orElse (fun _ => d1.pkgSpares.head?) with
    | some t =>
      let d2 := (d1.onPkg t (fun y => { y with st := .service, logical := x.logical, rebuild := true, copied := .no })).faultDevice
        0x0B03 k d.slowParts [.pkg t]
      (upTo 8).foldl (fun (d : Dev) c =>
        let z := d.ctx c
        if z.q = 0 ∨ d.ctxFb c then d
        else d.onCtx c (fun z => { z with
          lost := z.lost ++ ((upTo 3).filter (fun s => (z.slot s).st ≠ .free)).map
            (fun s => ({ slot := s, unit := none, pkg := x.logical } : NeaLost)) })) d2
    | none =>
      let d2 := d1.faultDevice 0x0B03 k d.slowParts []
      -- the logical numbers are given anew to the packages left (R375)
      let left := (upTo 10).filter (fun j => (d2.pkg j).logical ≠ 0xF)
      let d3 := (left.zip (upTo left.length)).foldl (fun (d : Dev) e => d.onPkg e.1 (fun x => { x with logical := e.2 }))
        { d2 with slowK := left.length }
      d3.neaLoseAll.raise 0x0B05 none k

/-- Every package with a logical number that has not failed is in service: the memory stage is done (R405, R582). -/
def Dev.pkgsServe (d : Dev) : Dev :=
  (upTo 10).foldl (fun (d : Dev) k =>
    if (d.pkg k).logical ≠ 0xF ∧ (d.pkg k).st = .spare then d.onPkg k (fun x => { x with st := .service }) else d) d

/-- NEA_PKG_COPY_DONE: the spare has the failing package's contents; it takes its number at a step boundary (R401). -/
def Dev.pkgCopyDone (d : Dev) : Dev :=
  match (upTo 10).find? (fun j => !d.lost 32 ∧ (d.pkg j).st = .target ∧ (d.pkg j).copied = .no) with
  | some t => d.onPkg t (fun x => { x with copied := .reported })
  | none => d

/-- The grafts of copied packages at a boundary: each takes the number of the package that was copied onto it (R401). -/
def Dev.pkgGraft (d : Dev) : Dev :=
  ((upTo 10).filter (fun j => (d.pkg j).copied = .sealed)).foldl (fun (d : Dev) t =>
    let k := (d.pkg t).src
    let l := (d.pkg k).logical
    (((d.onPkg t (fun x => { x with st := .service, logical := l, copied := .no, src := 0xF })).onPkg k
      (fun x => { x with st := .failed, logical := 0xF })).raise 0x0B04 none t).remedyDone (.pkg k)) d

/-- NEA_REBUILD_DONE: the rebuild onto a spare ends (R401). -/
def Dev.pkgRebuildDone (d : Dev) : Dev :=
  match (upTo 10).find? (fun j => !d.lost 32 && (d.pkg j).rebuild) with
  | some t => ((d.onPkg t (fun x => { x with rebuild := false })).raise 0x0B04 none t).remedyDone (.pkg t)
  | none => d

/-- A count window ends (R377). -/
def Dev.pkgWindow (d : Dev) : Dev := (upTo 10).foldl (fun (d : Dev) k => d.onPkg k (fun x => { x with winCe := 0 })) d

/-! ## Mirrors received (R398, R399) -/

/-- Bytes of one region. -/
def Dev.regionBytes (d : Dev) : Nat := d.recvGib * 2 ^ 30 / 8

/-- RECV of region c is discarded and its sender told (R399). -/
def Dev.mirrorDrop (d : Dev) (c dev ring : Nat) (r : MirrorRegion) : Dev :=
  (({ d with mirrors := FMap.set d.mirrors {} c r } : Dev).raise 0x0B0C none c).out (.sent 0x212 [dev, c, ring, 0])

/-- MIRROR_RECEIVE (R395, R398, R399): a unit is written into the sender's RECV copy; an abandoned stream's RECV is discarded;
the region of a released context is zero. -/
def Dev.mirrorReceive (d : Dev) (m : MirrorPkt) : Dev :=
  let c := m.ctx.val
  let r := FMap.getD d.mirrors c {}
  match m.act with
  | .clear =>
    let kept : MirrorRegion := ⟨r.held.filter (fun x => x.dev ≠ m.dev), r.recv.filter (fun x => x.dev ≠ m.dev)⟩
    { d with mirrors := FMap.set d.mirrors {} c kept }
  | .abandon =>
    match r.recv with
    | some x => if x.dev = m.dev then ({ d with mirrors := FMap.set d.mirrors {} c { r with recv := none } } : Dev).raise 0x0B0C none c else d
    | none => d
  | .unit =>
    if m.total ≤ m.unit then d
    else if d.regionBytes / 2 < m.total * 4096 then d.mirrorDrop c m.dev m.ring { r with recv := none }
    else
      let cur : MirrorCopy := match r.recv with
        | some x => if x.dev = m.dev ∧ x.ring = m.ring then x else ⟨m.dev, m.ring, m.total, [], false⟩
        | none => ⟨m.dev, m.ring, m.total, [], false⟩
      if cur.bad then d
      else if crc32c (m.bytes.map BitVec.toNat) = m.check then
        { d with mirrors := FMap.set d.mirrors {} c { r with recv := some { cur with units := FMap.insert cur.units m.unit m.bytes } } }
      else d.mirrorDrop c m.dev m.ring { r with recv := some { cur with units := [], bad := true } }

/-- Complete mirrors are swapped in and acknowledged (R399). -/
def Dev.mirrorSwap (d : Dev) : Dev :=
  (upTo 8).foldl (fun (d : Dev) c =>
    let r := FMap.getD d.mirrors c {}
    match r.recv with
    | some x =>
      if !x.bad ∧ x.units.length = x.total then
        let r1 : MirrorRegion := ⟨some x, none⟩
        ({ d with mirrors := FMap.set d.mirrors {} c r1 } : Dev).out (.sent 0x212 [x.dev, c, x.ring, 1])
      else d
    | none => d) d

/-- Loss of a partner in the middle of a stream (R399): the RECV copies of senders that are out of reach are discarded, and
streams to a partner that is out of reach fail. -/
def Dev.mirrorLost (d : Dev) : Dev :=
  (upTo 8).foldl (fun (d : Dev) c =>
    let r := FMap.getD d.mirrors c {}
    let d1 := match r.recv with
      | some x =>
        if d.reaches x.dev then d
        else ({ d with mirrors := FMap.set d.mirrors {} c { r with recv := none } } : Dev).raise 0x0B0C none c
      | none => d
    if (d1.ctx c).sending.isSome ∧ !d1.reaches (d1.regFld ⟨.neaMirrorCfg, []⟩ 17 0) then
      ((d1.mirrorUnqueue c).onCtx c (fun x => { x with sending := none })).neaEvent c 0x0B0C
    else d1) d

/-- MIRROR_ACK_RECEIVE: the partner holds ring r, or has discarded the stream (R399). -/
def Dev.mirrorAck (d : Dev) (c ring : Nat) (ok : Bool) : Dev :=
  if (d.ctx c).sending = some ring then
    let d1 := d.onCtx c (fun x => { x with sending := none, mirror := if ok then ring else x.mirror })
    d1.neaEvent c (if ok then 0x0B0A else 0x0B0C)
  else d

/-! ## Registers (R403, R405, R407, R408) -/

/-- NEA_SLOW_STATUS; PROGRESS is a free value while a copy or a rebuild runs (log entry 128). -/
def Dev.neaSlowStatus (d : Dev) : Word :=
  put 3 0 d.slowK ||| put 5 4 (min 3 d.pkgSpares.length) ||| putBit 6 ((upTo 10).any (fun k => (d.pkg k).st = .target)) |||
  put 15 8 (match (upTo 10).find? (fun k => (d.pkg k).st = .target ∨ (d.pkg k).rebuild) with
    | some k => (Config.copyProgress k d.tempo).toNat
    | none => 0) ||| put 25 16 d.freeGib

/-- NEA_PKG of package k, over its stored CE_THRESH. -/
def Dev.neaPkgWord (d : Dev) (k : Nat) : Word :=
  let x := d.pkg k
  put 2 0 x.st.code ||| put 7 4 x.logical ||| put 15 8 (d.regFld ⟨.neaPkg, [k]⟩ 15 8) ||| put 31 16 x.ce |||
  put 47 32 x.ue ||| put 55 48 (low 8 x.temp)

/-- NEA_CTX_STATUS of context c. -/
def Dev.neaCtxStatus (d : Dev) (c : Nat) : Word :=
  let x := d.ctx c
  let prev := match x.find .previous with
    | some k => (x.slot k).valid
    | none => false
  put 2 0 x.st.code ||| putBit 3 prev ||| put 5 4 x.flags.toNat ||| putBit 6 (!x.held.isEmpty) |||
  put 15 8 ((x.liveGroups.filter (fun g => x.groupDone g.2)).length) ||| put 47 32 x.event

/-- NEA_CTX_RING of context c. -/
def Dev.neaCtxRing (d : Dev) (c : Nat) : Word :=
  match (d.ctx c).ring with
  | some n => BitVec.ofNat 64 n
  | none => BitVec.allOnes 64

end Sys2Proof.Machine
end

