-- ==== Sys2Proof/Machine/Sequencer.lean ====
section
/-! DEFINITION. The sequencer: issue, refusals, the flow of control, scalar instructions (R209 to R226, R234, R236 to
R240). -/
namespace Sys2Proof

open Machine

/-! ## Words -/

/-- The instruction word of a command: CLASS and OP are the command's (R219). -/
def IWord.word (i : IWord) (cls op : Nat) : Word :=
  put 63 62 cls ||| put 61 59 i.pred.toNat ||| putBit 58 i.pneg ||| put 57 50 op ||| BitVec.ofNat 64 i.opnd.toNat

/-- Operand field [hi:lo] of an instruction. -/
def IWord.f (i : IWord) (hi lo : Nat) : Nat := fld hi lo i.opnd

/-- The sign-extended IMM or OFF field [31:0] (R220). -/
def IWord.imm (i : IWord) : Int := sext 32 (i.f 31 0)

/-- RD of formats R and I. -/
def IWord.rd (i : IWord) : Nat := i.f 49 45

/-- RS1 of formats R and I. -/
def IWord.rs1 (i : IWord) : Nat := i.f 44 40

/-- RS2 of format R. -/
def IWord.rs2 (i : IWord) : Nat := i.f 39 35

/-- Owner field of an agent: its core, or 0x1FF (R533). -/
def Agent.owner : Agent → Nat
  | .host => 0x1FF
  | .core c => c.val
  | .hart _ => 0x1FF

/-- Is it the hosting software? -/
def Agent.isHost : Agent → Bool
  | .host => true
  | .core _ => false
  | .hart _ => true

/-- Are its stores kept in order: those of one sequencer and of one hart are (R224, R611)? -/
def Agent.ordered : Agent → Bool
  | .host => false
  | .core _ => true
  | .hart _ => true

end Sys2Proof

namespace Sys2Proof.Machine

/-! ## Register files (R209) -/

/-- s[r]; s0 reads as zero. -/
def Sq.getS (q : Sq) (r : Nat) : Word := if r = 0 then 0 else FMap.getD q.s r 0

/-- Write s[r]; a write to s0 is discarded. -/
def Sq.setS (q : Sq) (r : Nat) (v : Word) : Sq := if r = 0 then q else { q with s := FMap.set q.s 0 r v }

/-- a[r]. -/
def Sq.getA (q : Sq) (r : Nat) : BitVec 128 := FMap.getD q.a r 0

/-- Write a[r]. -/
def Sq.setA (q : Sq) (r : Nat) (v : BitVec 128) : Sq := { q with a := FMap.set q.a 0 r v }

/-- d[r]. -/
def Sq.getD' (q : Sq) (r : Nat) : BitVec 256 := FMap.getD q.d r 0

/-- Write d[r]. -/
def Sq.setD (q : Sq) (r : Nat) (v : BitVec 256) : Sq := { q with d := FMap.set q.d 0 r v }

/-- A vector register of zeros. -/
def vzero : VReg := List.replicate 256 0

/-- v[r]. -/
def Sq.getV (q : Sq) (r : Nat) : VReg := FMap.getD q.v r vzero

/-- Write v[r]. -/
def Sq.setV (q : Sq) (r : Nat) (v : VReg) : Sq := { q with v := FMap.set q.v vzero r v }

/-- p[i]; p0 reads as 1. -/
def Sq.getP (q : Sq) (i : Nat) : Bool := i = 0 || q.p.getLsbD i

/-- Write p[i]; a write to p0 is discarded. -/
def Sq.setP (q : Sq) (i : Nat) (b : Bool) : Sq :=
  if i = 0 then q
  else { q with p := if b then q.p ||| BitVec.ofNat 8 (2 ^ i) else q.p &&& ~~~(BitVec.ofNat 8 (2 ^ i)) }

/-- Write p[i] by an instruction other than PLOG and PPUT: p7 may be set and is not cleared (R210). -/
def Sq.setPKeep (q : Sq) (i : Nat) (b : Bool) : Sq := if i = 7 && !b then q else q.setP i b

/-- Replace 64-bit word k of a wider register. -/
def setWord {w : Nat} (k : Nat) (v : Word) (x : BitVec w) : BitVec w :=
  (x &&& ~~~(BitVec.ofNat w ((2 ^ 64 - 1) <<< (64 * k)))) ||| BitVec.ofNat w (v.toNat <<< (64 * k))

/-- 64-bit word k of a wider register. -/
def getWord {w : Nat} (k : Nat) (x : BitVec w) : Word := BitVec.ofNat 64 (x.toNat >>> (64 * k))

/-! ## Refusals (R236, R238) -/

/-- The instruction word at PC. -/
def Sq.atPc (q : Sq) : Word := FMap.getD q.store q.pc 0

/-- The sequencer refuses the instruction `w` at index `at_` (R238, R239): the record, the event, HALTED, and PC at the
refused instruction. -/
def Dev.sqRefuseAt (d : Dev) (c code at_ : Nat) (w : Word) : Dev :=
  (d.onSq c (fun q => { q with
    faultCode := code, faultPc := at_, insn := w, st := .halted, wait := .none, pc := at_ })).raiseCore code c

/-- The sequencer refuses the instruction at PC. -/
def Dev.sqRefuse (d : Dev) (c code : Nat) : Dev :=
  let q := (d.core c).sq
  d.sqRefuseAt c code q.pc q.atPc

/-- SQ_PC_RANGE: the record names the transferring instruction, and PC then holds the failing target (R225, R238). -/
def Dev.sqPcRange (d : Dev) (c target : Nat) : Dev :=
  (d.sqRefuse c 0x0502).onSq c (fun q => { q with pc := target })

/-! ## Flow of control (R225, R226) -/

/-- Leave loops that end at this index: the remaining stack and where the flow goes back to, if anywhere. -/
def loopEnd (pc : Nat) : List LoopFrame → List LoopFrame × Option Nat
  | [] => ([], none)
  | f :: fs =>
    if f.last = pc then
      if 1 < f.left then ({ f with left := f.left - 1, index := f.index + 1 } :: fs, some f.start)
      else loopEnd pc fs
    else (f :: fs, none)

/-- The sequencer runs again. -/
def Sq.running (q : Sq) : Sq := { q with st := .run, wait := .none, poisonLd := false }

/-- lo ≤ x ≤ hi. -/
def inR (lo hi x : Nat) : Bool := decide (lo ≤ x) && decide (x ≤ hi)

/-- Is a word an engine instruction, as R215 counts them: one of an engine's class, or a queued semaphore instruction? -/
def engineWord (w : Word) : Bool :=
  decide (fld 63 62 w ≠ 0) || (inR 0x40 0x41 (fld 57 50 w) && decide (fld 46 45 w ≠ 0))

/-! ## Registers of an instruction word (R215, R220, R255, R262, R263, R272)

A register is a number here: s[r] is r, a[r] 100 + r, d[r] 200 + r, p[r] 300 + r, v[r] 400 + r. -/

/-- The mask register of a vector instruction. -/
def veMaskReg (w : Word) (mk hi lo : Nat) : List Nat := if bit mk w then [fld hi lo w] else []

/-- Vector operations with one vector source. -/
def veOneSource (op : Nat) : Bool :=
  [0x07, 0x08, 0x21, 0x22, 0x28, 0x29, 0x2A, 0x2B, 0x2C, 0x2D, 0x2E, 0x2F, 0x30, 0x31, 0x32, 0x35, 0x38, 0x39, 0x3A,
    0x3B, 0x3C, 0x40].contains op

/-- The v registers that a vector instruction word reads or writes; a queued semaphore instruction uses none. -/
def veUses (w : Word) : List Nat :=
  let op := fld 57 50 w
  let x := fld 49 45 w
  if fld 63 62 w ≠ 2 then []
  else if op = 0x3D then
    [fld 44 40 w, fld 39 35 w, fld 39 35 w + 1, x, x + 1, x + 2, x + 3] ++ veMaskReg w 28 27 23
  else if op ≤ 0x40 then
    [x, fld 44 40 w] ++ (if veOneSource op || bit 29 w then [] else [fld 39 35 w]) ++
      (if op = 0x03 ∨ op = 0x09 then [fld 34 30 w] else []) ++ veMaskReg w 28 27 23
  else if op ≤ 0x49 then x :: veMaskReg w 30 29 25
  else if op = 0x4C then [x, x + 1] ++ veMaskReg w 22 21 17
  else if op ≤ 0x4C then x :: veMaskReg w 22 21 17
  else if op ≤ 0x53 then [x] ++ (if op = 0x52 then [fld 44 40 w] else []) ++ veMaskReg w 29 28 24
  else []

/-- Registers that a control word writes, and those that it reads. -/
def ctlRegs (w : Word) : List Nat × List Nat :=
  let op := fld 57 50 w
  let x := fld 49 45 w
  let y := fld 44 40 w
  let z := fld 39 35 w
  let pd := 300 + fld 49 47 w
  if inR 0x01 0x0E op || inR 0x50 0x53 op then ([x], [y, z])
  else if inR 0x11 0x18 op || op = 0x1A then ([x], [y])
  else if op = 0x19 ∨ op = 0x2D ∨ op = 0x49 then ([x], [])
  else if op = 0x20 then ([pd], [y, z])
  else if op = 0x21 then ([pd], [y])
  else if op = 0x22 then ([pd], [300 + fld 46 44 w, 300 + fld 43 41 w])
  else if op = 0x23 then ([x], (upTo 8).map (300 + ·))
  else if op = 0x24 then ((upTo 8).map (300 + ·), [x])
  else if op = 0x2B then ([], [y])
  else if op = 0x2C then ([], if bit 44 w then [] else [x])
  else if op = 0x30 then ([x], [100 + fld 44 41 w, fld 40 36 w])
  else if op = 0x31 then ([], [x, 100 + fld 44 41 w, fld 40 36 w])
  else if op = 0x38 then ([100 + y], [x])
  else if op = 0x39 then ([x], [100 + y])
  else if op = 0x3A then ([200 + y], [x])
  else if op = 0x3B then ([x], [200 + y])
  else if op = 0x3C then ([400 + y], [x])
  else if op = 0x3D then ([x], [400 + y])
  else if op = 0x40 then (if fld 46 45 w = 0 then [pd] else [], [y])
  else if op = 0x41 then ([], [y])
  else if op = 0x48 then ([307], if bit 44 w then [x] else [])
  else ([], [])

/-- Registers that a word of the vector class writes, and those that it reads. -/
def veRegs (w : Word) : List Nat × List Nat :=
  let op := fld 57 50 w
  let x := fld 49 45 w
  let vs := (veUses w).map (400 + ·)
  let sr := fun (on : Bool) (n : Nat) => if on then (upTo n).map (fld 27 23 w + ·) else []
  let rs : List Nat :=
    if op = 0x3D then [fld 34 30 w]
    else if op ≤ 0x40 then (if bit 29 w then [fld 39 35 w] else [])
    else if op ≤ 0x49 then [100 + fld 44 41 w, fld 40 36 w, fld 35 31 w]
    else if op ≤ 0x4B then [200 + fld 44 41 w, fld 40 36 w, fld 35 31 w] ++ sr (decide (fld 30 29 w = 2)) 2
    else if op = 0x4C then [200 + fld 44 41 w, fld 35 31 w]
    else if op ≤ 0x53 then (upTo 4).map (fld 39 35 w + ·) ++ (if op = 0x52 then [fld 34 30 w, fld 34 30 w + 1] else [])
    else [200 + fld 49 46 w, 200 + (fld 49 46 w ^^^ 1)]
  let ws : List Nat :=
    if op = 0x3D then [x, x + 1, x + 2, x + 3]
    else if op = 0x49 ∨ op = 0x4B ∨ op = 0x58 then []
    else [x]
  (ws.map (400 + ·), vs ++ rs)

/-- Registers that a matrix or fetch word reads; it writes none. -/
def engReads (w : Word) : List Nat :=
  let op := fld 57 50 w
  if fld 63 62 w = 1 then
    if op = 0x05 then []
    else if op = 0x03 then
      [200 + fld 49 46 w, 200 + (fld 49 46 w ^^^ 1)] ++ (if fld 11 10 w = 2 then [fld 7 3 w, fld 7 3 w + 1] else [])
    else [200 + fld 49 46 w]
  else if op = 0x01 then [100 + fld 49 46 w, 100 + fld 45 42 w, fld 41 37 w, fld 36 32 w, 200 + fld 31 28 w]
  else if op = 0x02 then
    [100 + fld 49 46 w, 100 + fld 45 42 w, 100 + fld 41 38 w, fld 37 33 w, fld 32 28 w, fld 27 23 w]
  else if op = 0x03 then [100 + fld 45 42 w, fld 36 32 w, fld 27 23 w]
  else []

/-- Registers that an instruction word writes, without s0 and p0, and those that it reads or writes, its predicate among
them. -/
def wordRegs (w : Word) : List Nat × List Nat :=
  let x := match fld 63 62 w with
    | 0 => ctlRegs w
    | 2 => veRegs w
    | _ => ([], engReads w)
  (x.1.filter (fun r => r ≠ 0 ∧ r ≠ 300), (300 + fld 61 59 w) :: (x.1 ++ x.2))

/-- May word w1 issue in the clk of word w0, by R215: one is an engine's and the other a control instruction, and w1 reads and
writes no register that w0 writes. -/
def mayPair (w0 w1 : Word) : Bool :=
  (engineWord w0 != engineWord w1) && !(wordRegs w0).1.any (fun r => (wordRegs w1).2.contains r)

/-- An instruction issues (R215, R247): in a pair with the one before it, or alone. -/
def IssueCount.add (n : IssueCount) (c : Nat) (w : Word) (transfer : Bool) : IssueCount :=
  let joins := match n.lone with
    | some w0 => mayPair w0 w && Config.pairedIssue c n.issues
    | none => false
  if joins then { pairs := n.pairs + 1, singles := n.singles - 1, issues := n.issues + 1, lone := none }
  else { n with singles := n.singles + 1, issues := n.issues + 1, lone := if transfer then none else some w }

/-- SQ_PERF_ISSUE (R247). -/
def IssueCount.word (n : IssueCount) : Word := put 31 0 (min n.pairs (2 ^ 32 - 1)) ||| put 63 32 (min n.singles (2 ^ 32 - 1))

/-- A write sets the counters (R247). -/
def IssueCount.write (n : IssueCount) (v : Word) : IssueCount :=
  { n with pairs := fld 31 0 v, singles := fld 63 32 v, lone := none }

/-- The instruction at PC of core c issues. -/
def Sq.counted (q : Sq) (c : Nat) (transfer : Bool) : Sq :=
  { q with issue := q.issue.add c q.atPc transfer }

/-- An instruction issued without transferring control: the next index (R226). An index at CODE_LEN or beyond is
SQ_PC_RANGE at the index reached (log entry 14). -/
def Dev.sqNext (d : Dev) (c : Nat) : Dev :=
  let q := (d.core c).sq
  let le := loopEnd q.pc q.loops
  let nxt := le.2.getD (q.pc + 1)
  let d1 := d.onSq c (fun q => ({ q.counted c false with loops := le.1 } : Sq).running)
  if nxt < q.codeLen then d1.onSq c (fun q => { q with pc := nxt }) else d1.sqPcRange c (nxt % 16384)

/-- Loops left by a transfer to `t`: those whose body does not hold it, and every loop inside one (R226). -/
def dropLoops (t : Nat) : List LoopFrame → List LoopFrame
  | [] => []
  | f :: fs =>
    let r := dropLoops t fs
    if r.length < fs.length then r
    else if f.start ≤ t ∧ t ≤ f.last then f :: fs else fs

/-- A control transfer to `t` (R225); `pops`: it leaves loops (BR and JR). -/
def Dev.sqJump (d : Dev) (c : Nat) (t : Int) (pops : Bool) : Dev :=
  let q := (d.core c).sq
  if t < 0 ∨ (q.codeLen : Int) ≤ t then d.sqPcRange c (low 14 t)
  else
    let n := t.toNat
    d.onSq c (fun q => ({ q.counted c true with pc := n, loops := if pops then dropLoops n q.loops else q.loops } : Sq).running)

/-! ## Issue (R215, R218) -/

/-- The sequencer stands at an instruction it may issue: it runs, or it waits for room, an operand or an engine. -/
def Sq.canIssue (q : Sq) : Bool :=
  match q.st, q.wait with
  | .run, _ => true
  | .stall, .queueFull => true
  | .stall, .engineHalted => true
  | .stall, .operand => true
  | _, _ => false

/-- The predicate after negation (R218). -/
def Sq.enabled (q : Sq) (i : IWord) : Bool := (q.getP i.pred.toNat) != i.pneg

/-- CLASS and OP name an operation: of the control class, of the three engines (R221, R255, R263, R272). -/
def opNamed (cls op : Nat) : Bool :=
  match cls with
  | 0 => decide (op ≤ 0x0E) || decide (op = 0x11) || inR 0x13 0x1A op || inR 0x20 0x24 op || inR 0x28 0x2D op ||
    inR 0x30 0x31 op || inR 0x38 0x3D op || inR 0x40 0x41 op || inR 0x48 0x4A op || inR 0x50 0x53 op || inR 0x58 0x59 op
  | 1 => inR 0x01 0x05 op
  | 2 => decide (op ≤ 0x09) || inR 0x10 0x19 op || inR 0x20 0x22 op || inR 0x28 0x32 op || inR 0x34 0x35 op ||
    inR 0x38 0x3D op || decide (op = 0x40) || inR 0x48 0x4C op || inR 0x50 0x53 op || decide (op = 0x58)
  | _ => inR 0x01 0x04 op

/-- The word names no operation: SQ_ILLEGAL at its issue (R236). -/
def wordReserved (w : Word) : Bool := !opNamed (fld 63 62 w) (fld 57 50 w)

/-- Issue of a command's word: nothing happens unless it is the word at PC of a sequencer that may issue. `legal` is
checked whatever the predicate; a predicated-off instruction has no other effect (R218, `off`). No row is named for a word
without an operation: a sequencer that stands at one refuses it at the next issue commanded, whichever it is (R236, log
entry 33). -/
def Dev.sqIssue (d : Dev) (c cls op : Nat) (i : IWord) (legal : Sq → Bool) (off body : Dev → Dev) : Dev :=
  let q := (d.core c).sq
  if q.canIssue && decide (q.pc < q.codeLen) && wordReserved q.atPc then d.sqRefuse c 0x0501
  else if q.canIssue && decide (q.pc < q.codeLen) && decide (q.atPc = i.word cls op) then
    if !legal q then d.sqRefuse c 0x0501
    else if q.enabled i then body d
    else off d
  else d

/-- A control instruction that changes only the sequencer's registers and goes on. -/
def Dev.sqSimple (d : Dev) (c op : Nat) (i : IWord) (legal : Sq → Bool) (f : Sq → Sq) : Dev :=
  d.sqIssue c 0 op i legal (fun d => d.sqNext c) (fun d => (d.onSq c f).sqNext c)

/-! ## Formats (R220): which fields must be zero -/

/-- Format R with RD, RS1, RS2. -/
def legalR (i : IWord) (_ : Sq) : Bool := i.f 34 0 = 0

/-- Format I. -/
def legalI (i : IWord) (_ : Sq) : Bool := i.f 39 32 = 0

/-- Format I of a shift: the immediate is 0 to 63 (R221). -/
def legalShift (i : IWord) (q : Sq) : Bool := legalI i q && decide (i.f 31 0 < 64)

/-- An R-format scalar operation (R222). -/
def Dev.aluR (d : Dev) (c op : Nat) (i : IWord) (f : Word → Word → Word) : Dev :=
  d.sqSimple c op i (legalR i) (fun q => q.setS i.rd (f (q.getS i.rs1) (q.getS i.rs2)))

/-- An I-format scalar operation (R222): the sign-extended IMM in place of s[RS2]. -/
def Dev.aluI (d : Dev) (c op : Nat) (i : IWord) (legal : Sq → Bool) (f : Word → Word → Word) : Dev :=
  d.sqSimple c op i legal (fun q => q.setS i.rd (f (q.getS i.rs1) (wordOfInt i.imm)))

/-! ## Scalar operations (R222) -/

def opSll (a b : Word) : Word := a <<< (b.toNat % 64)
def opSrl (a b : Word) : Word := a >>> (b.toNat % 64)
def opSra (a b : Word) : Word := a.sshiftRight (b.toNat % 64)
def opMulhu (a b : Word) : Word := BitVec.ofNat 64 ((a.toNat * b.toNat) >>> 64)
def opDivu (a b : Word) : Word := if b = 0 then BitVec.allOnes 64 else a / b
def opRemu (a b : Word) : Word := if b = 0 then a else a % b
def opMin (a b : Word) : Word := if a.toInt < b.toInt then a else b
def opMax (a b : Word) : Word := if a.toInt < b.toInt then b else a

/-- COND of R220. -/
def condHolds (cond : Nat) (a b : Word) : Bool :=
  match cond with
  | 0 => decide (a = b)
  | 1 => decide (a ≠ b)
  | 2 => decide (a.toInt < b.toInt)
  | 3 => decide (b.toInt ≤ a.toInt)
  | 4 => decide (a.toNat < b.toNat)
  | _ => decide (b.toNat ≤ a.toNat)

/-! ## Engines as the sequencer sees them -/

/-- State code of a core engine's clock enable (R571, R575): 2 is ON. -/
def Dev.engClock (d : Dev) (c e : Nat) : Nat := d.regFld ⟨.clkEnCore, [c]⟩ (2 * e + 7) (2 * e + 6)

/-- Is engine e of a core idle with an empty queue (R221, R232)? -/
def Core.engIdle (x : Core) (e : Nat) : Bool :=
  let g := x.eng e
  g.queue.isEmpty && g.waitReq.isNone && g.sigs.isEmpty &&
  (match e with
   | 1 => x.me.run.isNone && x.me.flight.isEmpty && x.me.drains.isEmpty && x.me.writes.isEmpty
   | 2 => x.ve.solve.isNone
   | _ => x.fte.runs.isEmpty && x.fte.reqs.isEmpty)

/-- Every engine in a mask (bit 0 matrix, 1 vector, 2 fetch) is idle with an empty queue. -/
def Core.maskIdle (x : Core) (mask : Nat) : Bool :=
  (upTo 3).all (fun k => !mask.testBit k || x.engIdle (k + 1))

/-- Stall the sequencer. -/
def Dev.sqStall (d : Dev) (c : Nat) (w : SqWait) : Dev := d.onSq c (fun q => { q with st := .stall, wait := w })

/-- A sequencer store of core c waits on the register bus until E + 8 ns (R50, R280). -/
def Dev.storeStalled (d : Dev) (c : Nat) : Bool := d.stalled.any (fun w => match w.agent with
  | .core k => decide (k.val = c)
  | _ => false)

/-- An earlier store of the agent waits, and its stores are kept in order. -/
def Dev.behind (d : Dev) (ag : Agent) : Bool := ag.ordered && d.stalled.any (fun w => w.agent = ag)

/-- A store waits. -/
def Dev.park (d : Dev) (w : Stalled) : Dev := { d with stalled := d.stalled ++ [w] }

/-- Issue of an engine instruction into queue e (R216, R236, R240, R250). -/
def Dev.engIssue (d : Dev) (c cls op e : Nat) (i : IWord) (legal : Sq → Bool) : Dev :=
  d.sqIssue c cls op i legal (fun d => d.sqNext c) (fun d =>
    let q := (d.core c).sq
    let g := (d.core c).eng e
    if d.engClock c e ≠ 2 then d.sqRefuse c 0x0507
    else if q.engHalt.getLsbD (e - 1) then d.sqStall c .engineHalted
    else if 32 ≤ g.queue.length then d.sqStall c .queueFull
    else (d.onEng c e (fun g => { g with queue := g.queue ++ [⟨i.word cls op, q.s, q.a, q.d, d.storeStalled c⟩] })).sqNext c)

/-- An engine halts at the head of its queue or in the middle of an instruction (R134, R172, R240, R279). An instruction ahead of
a refused head that stops in its turn leaves that head where it is, for RESUME to discard. -/
def Dev.engHalts (d : Dev) (c e code : Nat) (atHead : Bool) : Dev :=
  let old := (d.core c).eng e
  let d1 := d.onEng c e (fun g => { g with halt := true, haltHead := atHead || (g.halt && g.haltHead), event := code })
  let d2 := d1.onSq c (fun q => { q with engHalt := q.engHalt ||| BitVec.ofNat 3 (2 ^ (e - 1)) })
  if old.halt then d2.raiseCore code c else (d2.raiseCore code c).raiseCore 0x050B c

/-- RESUME of an engine: the refused instruction is discarded and the engine goes on (R134). -/
def Dev.engResume (d : Dev) (c e : Nat) : Dev :=
  let g := (d.core c).eng e
  if g.halt then
    (d.onEng c e (fun g => { g with
      halt := false, haltHead := false, queue := if g.haltHead then g.queue.drop 1 else g.queue })).onSq c
      (fun q => { q with engHalt := q.engHalt &&& ~~~(BitVec.ofNat 3 (2 ^ (e - 1))) })
  else d

/-- FLUSH of an engine: every queued instruction is discarded and the halt cleared (R134). -/
def Dev.engFlush (d : Dev) (c e : Nat) : Dev :=
  (d.onEng c e (fun g => { g with halt := false, haltHead := false, queue := [] })).onSq c
    (fun q => { q with engHalt := q.engHalt &&& ~~~(BitVec.ofNat 3 (2 ^ (e - 1))) })

/-- Operand bits of a queued word. -/
def QEntry.f (x : QEntry) (hi lo : Nat) : Nat := fld hi lo x.word

/-- s[r] of a queued entry's copy. -/
def QEntry.getS (x : QEntry) (r : Nat) : Word := if r = 0 then 0 else FMap.getD x.s r 0

/-- a[r] of a queued entry's copy. -/
def QEntry.getA (x : QEntry) (r : Nat) : BitVec 128 := FMap.getD x.a r 0

/-- d[r] of a queued entry's copy. -/
def QEntry.getD' (x : QEntry) (r : Nat) : BitVec 256 := FMap.getD x.d r 0

/-- The engine takes the head of its queue when that is the command's word and nothing stops it: not halted, not held by
a wait (R216, R229), no earlier store of the sequencer still unwritten (R280). -/
def Dev.engHead (d : Dev) (c e : Nat) (w : Word) : Option QEntry :=
  let g := (d.core c).eng e
  if g.halt || g.waitReq.isSome then none
  else match g.queue with
    | [] => none
    | x :: _ => if x.word = w ∧ ¬(x.held ∧ d.storeStalled c) then some x else none

/-- The head leaves its queue (R216). -/
def Dev.engPop (d : Dev) (c e : Nat) : Dev := d.onEng c e (fun g => { g with queue := g.queue.drop 1 })

/-! ## Reset of a sequencer (R213, R240) -/

/-- The sequencer after revocation: registers, stacks and counters cleared, state IDLE (R213, R240). The number of its
issues, which only the free value of R247 is taken at, goes on. -/
def Sq.cleared (q : Sq) : Sq := { issue := { issues := q.issue.issues } }

end Sys2Proof.Machine
end

