-- ==== Sys2Proof/Machine/MatrixEngine.lean ====
section
/-! DEFINITION. The matrix engine's instructions, row by row (R112 to R139, R252 to R261, R318). -/
namespace Sys2Proof.Machine

/-! ## Ranges and reads -/

/-- [lo, lo + n) lies in core c's scratchpad. -/
def inSpd (c lo n : Nat) : Bool := decide (spdBase c ≤ lo) && decide (lo + n ≤ spdBase c + spdBytes)

/-- `count` rows of `size` bytes at a pitch lie in core c's scratchpad. -/
def rowsInSpd (c base count pitch size : Nat) : Bool := inSpd c base ((count - 1) * pitch + size)

/-- Do two ranges [a, a + n) and [b, b + m) meet? -/
def overlap (a n b m : Nat) : Bool := decide (a < b + m) && decide (b < a + n) && decide (0 < n) && decide (0 < m)

/-- Event of an access by an engine to a bank that is not ON (R300). -/
def offEvent (a : Nat) : Nat := if 0x030000000000 ≤ a then 0x0603 else 0x0703

/-- Event of a poisoned word consumed (R318). -/
def poisonEvent (a : Nat) : Nat := if 0x030000000000 ≤ a then 0x0606 else 0x0706

/-- Bytes that an engine consumes: the bytes, or the event that stops it (R300, R318). -/
def Dev.engRead (d : Dev) (a n : Nat) : Except Nat (List Byte) × Dev :=
  let r := d.sramRead a n
  match r.1 with
  | .off => (.error (offEvent a), r.2)
  | .ok bs => if anyPoison bs then (.error (poisonEvent a), r.2) else (.ok (plain bs), r.2)

/-- Several ranges in turn, up to the first that stops the engine. -/
def Dev.engReads (d : Dev) : List (Nat × Nat) → Except Nat (List (List Byte)) × Dev
  | [] => (.ok [], d)
  | (a, n) :: rs =>
    let x := d.engRead a n
    match x.1 with
    | .error e => (.error e, x.2)
    | .ok bs =>
      let y := x.2.engReads rs
      (match y.1 with
       | .error e => .error e
       | .ok l => .ok (bs :: l), y.2)

/-- Bytes of n elements of `w` bits (R80). -/
def elemBytes (w n : Nat) : Nat := cdiv (w * n) 8

/-- Bytes of the scale entries of a row of n elements (R253). -/
def scaleLen (sc : Scheme) (n : Nat) : Nat :=
  match sc with
  | .mx => cdiv n 32
  | .nb => 4 * cdiv n 128
  | _ => 0

/-! ## Descriptor conditions (R254) -/

/-- Formats with parts: SPLIT16 and SLICE8. -/
def Scheme.hasParts : Scheme → Bool
  | .split => true
  | .slice => true
  | _ => false

/-- Number of parts of a descriptor. -/
def Desc.parts (u : Desc) (f : Fmt) : Nat :=
  match f.scheme with
  | .split => 2
  | .slice => u.s
  | _ => 1

/-- First byte of part p of stored row j (R253). -/
def Desc.rowAddr (u : Desc) (p j : Nat) : Nat := u.base + (p - 1) * 2 ^ u.psh + j * u.pitch

/-- R254 and the slice count of R252, for `rows` stored rows of `len` elements. -/
def Desc.ok (u : Desc) (f : Fmt) (rows len : Nat) : Bool :=
  decide (u.zeros = 0) &&
  (if f.scheme.hasParts then
    decide (6 ≤ u.psh) && decide (u.psh ≤ 20) &&
    (if f.scheme = .slice then decide (3 ≤ u.s) && decide (u.s ≤ 7) else decide (u.s = 0)) &&
    (upTo (u.parts f)).all (fun p =>
      !overlap (u.rowAddr (p + 1) 0) ((rows - 1) * u.pitch + elemBytes f.el.width len) u.sbase (2 * rows))
   else decide (u.psh = 0) && decide (u.s = 0)) &&
  decide (u.pitch % (if f.el.width = 6 then 4 else if f.el.width = 16 then 2 else 1) = 0) &&
  (if f.scheme = .nb then decide (u.spitch % 4 = 0) else true)

/-! ## Refusals and stops -/

/-- The engine stops in the middle of an instruction (R134, R300, R318). -/
def Dev.meStops (d : Dev) (c ev : Nat) : Dev := d.engHalts c 1 ev false

/-- The head of the queue is refused (R133, R134): it stays there until RESUME or FLUSH. -/
def Dev.meRefuses (d : Dev) (c ev : Nat) : Dev := d.engHalts c 1 ev true

/-- The column test is running (R138). -/
def Dev.colTesting (d : Dev) (c : Nat) : Bool := bit 6 (d.reg ⟨.meColumn, [c]⟩)

/-- An instruction begins: it leaves the queue and takes the next number. -/
def Dev.engTake (d : Dev) (c e : Nat) : Dev :=
  d.onEng c e (fun g => { g with queue := g.queue.drop 1, nextSeq := g.nextSeq + 1 })

/-- Add to a 64-bit counter of rows or clk (R145 to R147, R179). -/
def Dev.clkCount (d : Dev) (r : Reg) (k : Nat) : Dev := d.setReg r (d.reg r + BitVec.ofNat 64 k)

/-- Streaming rows that enter the array per clk, by the classes of the stream and the tile (R114). -/
def rowsPerClk (f tf : Fmt) : Nat :=
  match f.cls, tf.cls with
  | some .c16, _ => 2
  | some .c4, some .c4 => 8
  | _, _ => 4

/-- A stream that stops before its last row (R111): the flags of the rows that it entered count when the last of them has
updated, or now if they all have. -/
def Me.runEnd (m : Me) (r : ArrRun) : Me :=
  match m.flight.reverse with
  | f :: rest =>
    if f.seq = r.seq then { m with run := none, flight := ({ f with last := true } :: rest).reverse }
    else { m with run := none }
  | [] => { m with run := none, since := if m.opSeq = r.seq then m.since ||| m.opFlags else m.since }

/-- A drain that stops before its last row (R111): the flags of the rows that it read count when the last of them has
landed, or now if they all have. -/
def Me.drainEnd (m : Me) (r : DrainRun) : Me :=
  match m.writes.reverse with
  | w :: rest =>
    if w.seq = r.seq then { m with writes := ({ w with done := some r.flags } :: rest).reverse }
    else { m with since := m.since ||| r.flags }
  | [] => { m with since := m.since ||| r.flags }

/-- Accumulator row k (R120). -/
def Me.row (m : Me) (k : Nat) : AccRow := FMap.getD m.acc k AccRow.invalid

/-- Replace accumulator row k. -/
def Me.setRow (m : Me) (k : Nat) (r : AccRow) : Me := { m with acc := FMap.set m.acc AccRow.invalid k r }

/-- A stream or add begun before number n will still change row k (R128). -/
def Me.rowBusy (m : Me) (n k : Nat) : Bool :=
  (match m.run with
   | some r => decide (r.seq < n) && decide (r.accBase + r.next ≤ k) && decide (k < r.accBase + r.rows)
   | none => false) ||
  m.flight.any (fun f => decide (f.seq < n) && decide (f.row = k))

/-- A drain begun before number n has still to read row k (R127, R128). -/
def Me.rowWanted (m : Me) (n k : Nat) : Bool :=
  m.drains.any (fun r => decide (r.seq < n) && decide (r.accBase + r.next ≤ k) && decide (k < r.accBase + r.rows))

/-- Bytes of a drain's destination row. -/
def DrainRun.rowBytes (r : DrainRun) : Nat :=
  if r.wide then 16 * r.u.nout
  else match Fmt.ofCode r.u.fmt with
    | some f => elemBytes f.el.width r.u.nout
    | none => 0

/-- Does the drain write scale bytes (R258)? -/
def DrainRun.scaled (r : DrainRun) : Bool :=
  !r.wide && (match Fmt.ofCode r.u.fmt with
    | some f => decide (f.scheme = .mx)
    | none => false)

/-- The bytes that drain writes still have to land in, rows not yet read included. -/
def Me.drainRanges (m : Me) : List (Nat × Nat) :=
  m.writes.flatMap (fun w => w.writes.map (fun x => (x.1, x.2.length))) ++
  m.drains.flatMap (fun r => (upTo (r.rows - r.next)).flatMap (fun i =>
    (r.u.base + (r.next + i) * r.u.pitch, r.rowBytes) ::
    (if r.scaled then [(r.u.sbase + (r.next + i) * r.u.spitch, 2)] else [])))

/-- A source range that no earlier drain has still to write (R127, R128). -/
def Me.sourceFree (m : Me) (rs : List (Nat × Nat)) : Bool :=
  let ws := m.drainRanges
  rs.all (fun r => ws.all (fun w => !overlap r.1 r.2 w.1 w.2))

/-- The accumulator range of an instruction is legal (R122, R133). -/
def accRangeOk (accBase rows : Nat) : Bool := decide (rows ≠ 0) && decide (accBase + rows ≤ 4096)

/-! ## ME.LOAD (R116 to R118, R256) -/

/-- Legal operand bits of ME.LOAD (R255). -/
def legalMeLoad (i : IWord) (_ : Sq) : Bool := i.f 41 0 = 0
/-- Legal operand bits of ME.STREAM and ME.DRAIN. -/
def legalMeRows (i : IWord) (_ : Sq) : Bool := i.f 2 0 = 0
/-- Legal operand bits of ME.ADDW. -/
def legalMeAddw (i : IWord) (_ : Sq) : Bool := i.f 19 0 = 0
/-- Legal operand bits of ME.CLEAR. -/
def legalMeClear (i : IWord) (_ : Sq) : Bool := i.f 49 45 = 0 && decide (i.f 19 0 = 0)

/-- Stored rows that carry data, and their elements (R256). -/
def loadExtent (u : Desc) (tr : Bool) : Nat × Nat := if tr then (u.klen, u.nout) else (u.nout, u.klen)

/-- Is PART one that ME.LOAD may name for the format (R256)? -/
def partOk (f : Fmt) (s part : Nat) : Bool :=
  match f.scheme with
  | .split => decide (part = 1) || decide (part = 2)
  | .slice => decide (1 ≤ part) && decide (part ≤ s)
  | _ => decide (part = 0)

/-- Is the length of a stored row legal: whole packing groups (R80) and, for MX, whole blocks (R84)? A row of an NB tile
is half a block (R82, R117), so no length is asked of it (log entry 111). -/
def rowLenOk (f : Fmt) (len : Nat) : Bool :=
  decide (len % f.el.rowMultiple = 0) && (decide (f.scheme ≠ .mx) || decide (len % 32 = 0))

/-- The event that refuses an ME.LOAD (R133). -/
def loadCheck (c : Nat) (u : Desc) (tr : Bool) (part : Nat) : Option Nat :=
  let x := loadExtent u tr
  match Fmt.ofCode u.fmt with
  | none => some 0x0201
  | some f =>
    let scaled := decide (f.scheme = .mx) || decide (f.scheme = .nb)
    if f.cls.isNone || u.trd || !u.ok f x.1 x.2 || !rowLenOk f x.2 || decide (u.klen = 0) || decide (64 < u.klen) || decide (u.nout = 0) ||
        decide (64 < u.nout) || decide (u.korg % 16 ≠ 0) || (scaled && decide (u.korg % 64 ≠ 0)) ||
        (scaled && tr && decide (u.n0 % 64 ≠ 0)) || !partOk f u.s part then some 0x0201
    else if !rowsInSpd c (u.rowAddr (max 1 part) 0) x.1 u.pitch (elemBytes f.el.width x.2) ||
        (scaled && !rowsInSpd c u.sbase x.1 u.spitch (scaleLen f.scheme x.2)) then some 0x0203
    else none

/-- The source ranges of a load: element bytes of each row, then scale entries of each row. -/
def loadRanges (u : Desc) (f : Fmt) (tr : Bool) (part : Nat) : List (Nat × Nat) :=
  let x := loadExtent u tr
  (upTo x.1).map (fun j => (u.rowAddr (max 1 part) j, elemBytes f.el.width x.2)) ++
  (if scaleLen f.scheme x.2 = 0 then []
   else (upTo x.1).map (fun j => (u.sbase + j * u.spitch, scaleLen f.scheme x.2)))

/-- The tile that the read bytes make (R256). -/
def tileOf' (u : Desc) (f : Fmt) (tr : Bool) (part : Nat) (bs : List (List Byte)) : Tile :=
  let x := loadExtent u tr
  let pad := fun (l : List Nat) => l ++ List.replicate (64 - l.length) 0
  let rows := (bs.take x.1).map (fun b => pad (unpackElems f.el.width x.2 (natOfBytes b)))
  { fmt := u.fmt, s := u.s, klen := u.klen, nout := u.nout, korg := u.korg, tr := tr, part := part
    half := ((if tr then u.n0 else u.korg) % 128) / 64
    rows := rows ++ List.replicate (64 - x.1) (List.replicate 64 0)
    scales := (bs.drop x.1).map natOfBytes ++ List.replicate (64 - (bs.length - x.1)) 0 }

/-- ME.LOAD: it begins when the array has taken the preceding stream's last row and every earlier drain write into its
source has landed (R128, R129). -/
def Dev.meLoad (d : Dev) (c : Nat) (i : IWord) (ph : Phase) : Dev :=
  match ph with
  | .issue => d.engIssue c 1 0x01 1 i (legalMeLoad i)
  | .row => d
  | .begin =>
    match d.engHead c 1 (i.word 1 0x01) with
    | none => d
    | some x =>
      let m := (d.core c).me
      let u := Desc.ofBits (x.getD' (i.f 49 46))
      let tr := decide (i.f 45 45 = 1)
      let part := i.f 44 42
      if m.run.isSome || d.colTesting c then d
      else match loadCheck c u tr part, Fmt.ofCode u.fmt with
        | some ev, _ => d.meRefuses c ev
        | none, none => d
        | none, some f =>
          let rs := loadRanges u f tr part
          if m.sourceFree rs then
            let r := ((d.engTake c 1).clkCount ⟨.mePerfLoad, [c]⟩ 64).engReads rs
            match r.1 with
            | .error ev => (r.2.onMe c (fun m => { m with tile := none })).meStops c ev
            | .ok bs => r.2.onMe c (fun m => { m with tile := some (tileOf' u f tr part bs) })
          else d

/-! ## ME.STREAM (R121 to R124, R257) -/

/-- Streaming part that a pass reads (R105, R257). -/
def streamPart (f : Fmt) (pass : Nat) : Nat :=
  match f.scheme with
  | .split => if pass = 2 then 2 else 1
  | .slice => bits 5 3 pass
  | _ => 1

/-- Is PASS legal beside the loaded tile (R105, R124, R257, R261)? -/
def passOk (f : Fmt) (t : Tile) (pass : Nat) : Bool :=
  match f.scheme with
  | .split => (pass = 1 && decide (t.part = 1)) || (pass = 2 && decide (t.part = 1)) || (pass = 3 && decide (t.part = 2))
  | .slice =>
    let i := bits 5 3 pass
    let j := bits 2 0 pass
    decide (1 ≤ i) && decide (i ≤ t.s) && decide (1 ≤ j) && decide (j ≤ t.s) && decide (i + j ≤ t.s + 1) &&
      decide (t.part = j)
  | _ => decide (pass = 0)

/-- The effective ACC_EXP of a stream (R96, R257); none where the anchor is not permitted. -/
def streamExp (f tf : Fmt) (anchor : Bool) (accExp : Int) : Option Int :=
  match f.scheme with
  | .split => some (-50)
  | .slice => some 0
  | .unscaled =>
    if anchor then some accExp
    else if f.cls = some .c16 then none
    else some (f.el.anchor + tf.el.anchor)
  | _ => if anchor then some accExp else none

/-- The source ranges of stream row r (R257): elements, then the scale entry. -/
def streamRanges (u : Desc) (f : Fmt) (t : Tile) (pass r : Nat) : List (Nat × Nat) :=
  let w := f.el.width
  if u.trd then (upTo t.klen).map (fun k => (u.base + k * u.pitch + r * (w / 8), w / 8))
  else
    (u.rowAddr (streamPart f pass) r, elemBytes w t.klen) ::
    (if scaleLen f.scheme t.klen = 0 then [] else [(u.sbase + r * u.spitch, scaleLen f.scheme t.klen)])

/-- The event that refuses an ME.STREAM beside a loaded tile (R133): its format or its ranges. -/
def streamCheck (c : Nat) (u : Desc) (t : Tile) (i : IWord) : Option Nat :=
  let rows := i.f 32 20
  let pass := i.f 8 3
  match Fmt.ofCode u.fmt, Fmt.ofCode t.fmt with
  | some f, some tf =>
    let w := f.el.width
    if !u.ok f rows t.klen || (!u.trd && !rowLenOk f t.klen) || (u.trd && !(decide (f.scheme = .unscaled) && (decide (w = 8) || decide (w = 16)))) ||
        !f.pairs tf || (decide (f.scheme = .slice) && decide (u.s ≠ t.s)) || !passOk f t pass ||
        (streamExp f tf (i.f 9 9 = 1) (sext 10 (i.f 19 10))).isNone then some 0x0201
    else if !accRangeOk (i.f 44 33) rows then some 0x0202
    else if u.trd then
      (if inSpd c u.base ((t.klen - 1) * u.pitch + rows * (w / 8)) then none else some 0x0203)
    else if !rowsInSpd c (u.rowAddr (streamPart f pass) 0) rows u.pitch (elemBytes w t.klen) ||
        (decide (scaleLen f.scheme t.klen ≠ 0) && !rowsInSpd c u.sbase rows u.spitch (scaleLen f.scheme t.klen)) then
      some 0x0203
    else none
  | _, _ => some 0x0201

/-- The values of a stream row (R257). -/
def streamVals (u : Desc) (f : Fmt) (t : Tile) (bs : List (List Byte)) : List FVal :=
  if u.trd then bs.map (fun b => f.el.decode (natOfBytes b))
  else
    let codes := unpackElems f.el.width t.klen (natOfBytes (bs.getD 0 []))
    let sc := natOfBytes (bs.getD 1 [])
    (codes.zip (upTo t.klen)).map (fun x => scaledElem f ((t.korg % 128) / 64) sc x.2 x.1)

/-- ME.STREAM: begun when the array is free and no earlier drain has still to write its source; `row` lets its next row
enter the array, once no earlier drain has still to read the row's accumulators (R127, R128). -/
def Dev.meStream (d : Dev) (c : Nat) (i : IWord) (ph : Phase) : Dev :=
  let w := i.word 1 0x02
  match ph with
  | .issue => d.engIssue c 1 0x02 1 i (legalMeRows i)
  | .begin =>
    match d.engHead c 1 w with
    | none => d
    | some x =>
      let m := (d.core c).me
      let u := Desc.ofBits (x.getD' (i.f 49 46))
      if m.run.isSome || d.colTesting c then d
      else match m.tile with
        | none => d.meRefuses c 0x0204
        | some t =>
          match streamCheck c u t i, Fmt.ofCode u.fmt, Fmt.ofCode t.fmt with
          | some ev, _, _ => d.meRefuses c ev
          | none, some f, some tf =>
            let pass := i.f 8 3
            if m.sourceFree ((upTo (i.f 32 20)).flatMap (streamRanges u f t pass)) then
              let seq := m.eng.nextSeq
              let run : ArrRun :=
                { seq := seq, word := w, addw := false, desc := u, clr := decide (i.f 45 45 = 1), accBase := i.f 44 33
                  rows := i.f 32 20
                  exp := (streamExp f tf (i.f 9 9 = 1) (sext 10 (i.f 19 10))).getD 0
                  mode := AccMode.ofFmt tf t.s, shift := passShift tf t.s pass, part := pass, next := 0 }
              (d.engTake c 1).onMe c (fun m => { m with run := some run })
            else d
          | none, _, _ => d
  | .row =>
    let m := (d.core c).me
    match m.run, m.tile with
    | some r, some t =>
      if r.word = w ∧ ¬r.addw ∧ ¬m.rowWanted r.seq (r.accBase + r.next) then
        match Fmt.ofCode r.desc.fmt with
        | none => d
        | some f =>
          let x := d.engReads (streamRanges r.desc f t r.part r.next)
          match x.1 with
          | .error ev => (x.2.onMe c (fun m => m.runEnd r)).meStops c ev
          | .ok bs =>
            let last := decide (r.rows ≤ r.next + 1)
            let row : FlightRow :=
              { seq := r.seq, row := r.accBase + r.next, vals := streamVals r.desc f t bs, tile := t, clr := r.clr
                exp := r.exp, mode := r.mode, shift := r.shift, last := last }
            let d1 := x.2.onMe c (fun m => { m with
              run := if last then none else some { r with next := r.next + 1 }
              flight := m.flight ++ [row] })
            let d2 := d1.clkCount ⟨.mePerfRows, [c]⟩ 1
            if r.next % rowsPerClk f ((Fmt.ofCode t.fmt).getD f) = 0 then d2.clkCount ⟨.mePerfBusy, [c]⟩ 1 else d2
      else d
    | _, _ => d

/-! ## Residue check and column test (R136 to R139) -/

/-- A physical core's ME_COLUMN word: in its logical core's register while it is in service. -/
def Dev.columnOf (d : Dev) (phys : Nat) : Word :=
  let x := d.physCore phys
  if x.logical < 24 then
    d.reg ⟨.meColumn, [24 * (phys / 28) + x.logical]⟩
  else x.column

/-- Change a physical core's ME_COLUMN word. -/
def Dev.onColumn (d : Dev) (phys : Nat) (f : Word → Word) : Dev :=
  let x := d.physCore phys
  if x.logical < 24 then
    let r : Reg := ⟨.meColumn, [24 * (phys / 28) + x.logical]⟩
    d.setReg r (f (d.reg r))
  else d.onPhys phys (fun p => { p with column := f p.column })

/-- A residue mismatch in physical column `col` of core c (R137): the engine stops, the fault is reported, the core is
pruned. No row that it reached is drained. -/
def Dev.residueError (d : Dev) (c col : Nat) : Dev :=
  let seq := match (d.core c).me.flight with
    | f :: _ => f.seq
    | [] => 0
  let d1 := d.onMe c (fun m => { m with
    run := none, flight := [], drains := m.drains.filter (fun r => r.seq < seq) })
  let r : Reg := ⟨.meColumn, [c]⟩
  let d2 := ((d1.setRegFld r 36 32 col).count r 31 16 1).engHalts c 1 0x0205 false
  (d2.faultPart 0x0205 (d2.corePart c) (match d2.physOf c with | some p => [.core p] | none => [])).duePrune c 0x0205

/-- ME_STREAM_ROW_UPDATE: the oldest row in the array updates its accumulators (R121, R123, R130), or the residue check
finds a mismatch in a physical column (R136). -/
def Dev.meRowUpdate (d : Dev) (c : Nat) (mismatch : Option Nat) : Dev :=
  let m := (d.core c).me
  match m.flight with
  | [] => d
  | f :: rest =>
    match mismatch with
    | some col => d.residueError c col
    | none =>
      match Fmt.ofCode f.tile.fmt with
      | none => d
      | some tf =>
        let r := streamRow f.tile tf f.clr f.exp f.mode f.shift f.vals (m.row f.row)
        let op := (if m.opSeq = f.seq then m.opFlags else 0) ||| r.2
        d.onMe c (fun m => { m.setRow f.row r.1 with
          flight := rest, flags := m.flags ||| r.2, opSeq := f.seq, opFlags := op
          since := if f.last then m.since ||| op else m.since })

/-- The array without a tile and with every accumulator row invalid (R138, R139); with them goes what a halted engine still has
in the array and the drains not yet read (log entry 115). -/
def Me.wiped (m : Me) : Me := { m with tile := none, acc := [], run := none, flight := [], drains := [] }

/-- ME_COL_TEST (R138): it starts while the engine is halted, or idle with an empty queue. The tile and the accumulator file
go. -/
def Dev.meColTest (d : Dev) (c : Nat) : Dev :=
  let x := d.core c
  if (x.me.eng.halt || x.engIdle 1) && !d.colTesting c then
    (d.onMe c Me.wiped).setRegFld ⟨.meColumn, [c]⟩ 6 6 1
  else d

/-- An ME_COLUMN word whose last test found a column failing (R138). -/
def columnBad (w : Word) : Bool := bit 7 w

/-- The spare column takes the place of TEST_COL (R139). -/
def columnGraft (w : Word) : Word := setFld 5 5 1 (setFld 4 0 (fld 12 8 w) w)

/-- ME_COLUMN_FAIL of a physical core (R139): a column fails and the spare is in use. A core in service is pruned, and so
retired in favour of a cluster spare (log entry 115). -/
def Dev.columnFail (d : Dev) (phys : Nat) : Dev :=
  let x := d.physCore phys
  let c := 24 * (phys / 28) + x.logical
  match d.prunes.find? (fun (y : Prune) => decide (y.phys = phys)) with
  | some y => d.raiseCore 0x0207 y.core
  | none =>
    if x.logical < 24 then ((d.raiseCore 0x0207 c).faultPart 0x0207 (d.corePart c) [.core phys]).duePrune c 0x0207 else d

/-- ME_COL_TEST_DONE on a physical core: a failing column, or none (R138). -/
def Dev.meColTestDone (d : Dev) (phys : Nat) (fail : Option Nat) : Dev :=
  if bit 6 (d.columnOf phys) then
    let d1 := d.onColumn phys (fun w =>
      let w1 := setFld 6 6 0 w
      match fail with
      | some col => setFld 12 8 col (setFld 7 7 1 w1)
      | none => setFld 12 8 0x1F (setFld 7 7 0 w1))
    let w := d1.columnOf phys
    if columnBad w && bit 5 w then d1.columnFail phys
    else
      -- the spare column of a core in service falls due with the first test that fails, and not after one that passes
      let c := 24 * (phys / 28) + (d1.physCore phys).logical
      let due := (d1.physCore phys).columnDue
      let mine : Due := if due = .no then d1.dueOf (d1.corePart c) else due
      d1.onPhys phys (fun x => { x with columnDue := if !columnBad w || decide (x.st ≠ .inService) then .no else mine })
  else d

/-! ## ME.DRAIN (R125, R126, R258, R259) -/

/-- The operand mode that row k will have when a drain begun now reads it (R120, R128). -/
def Me.modeAt (m : Me) (k : Nat) : AccMode :=
  match m.run with
  | some r =>
    if r.accBase + r.next ≤ k ∧ k < r.accBase + r.rows then r.mode
    else match m.flight.reverse.find? (fun f => f.row = k) with
      | some f => f.mode
      | none => if (m.row k).valid then (m.row k).mode else .unscaled
  | none =>
    match m.flight.reverse.find? (fun f => f.row = k) with
    | some f => f.mode
    | none => if (m.row k).valid then (m.row k).mode else .unscaled

/-- A row mode with exponent planes. -/
def AccMode.planes : AccMode → Bool
  | .split16 => true
  | .slice8 _ => true
  | _ => false

/-- Is it a SLICE8 mode? -/
def AccMode.isSlice : AccMode → Bool
  | .slice8 _ => true
  | _ => false

/-- The event that refuses an ME.DRAIN (R133, R258, R261). -/
def drainCheck (c : Nat) (m : Me) (u x : Desc) (i : IWord) : Option Nat :=
  let rows := i.f 32 20
  let acc := i.f 44 33
  let wide := decide (i.f 8 8 = 1)
  let aow := decide (i.f 45 45 = 1)
  let rnd := i.f 11 10
  let rk := i.f 7 3
  let modes := (upTo rows).map (fun k => m.modeAt (acc + k))
  let planes := modes.any AccMode.planes
  match Fmt.ofCode u.fmt with
  | none => some 0x0201
  | some f =>
    let mx := decide (f.scheme = .mx) && !wide
    let shapeBad :=
      if wide then decide (u.fmt ≠ 0) || decide (i.f 19 12 ≠ 0) || decide (rnd ≠ 0) || decide (i.f 9 9 ≠ 0)
      else decide (f.scheme = .nb) || f.scheme.hasParts || (decide (u.fmt = 0x0B) && !modes.all AccMode.isSlice) ||
        (mx && (aow || !(decide (u.nout = 32) || decide (u.nout = 64)))) || decide (u.nout % f.el.rowMultiple ≠ 0)
    let size := if wide then 16 * u.nout else elemBytes f.el.width u.nout
    if !u.ok f rows u.nout || u.trd || decide (u.nout = 0) || decide (64 < u.nout) || decide (rnd = 3) ||
        (if rnd = 2 then decide (30 < rk) else decide (rk ≠ 0)) || shapeBad ||
        (planes && !wide && decide (x.zeros ≠ 0)) then
      some 0x0201
    else if !accRangeOk acc rows then some 0x0202
    else if !rowsInSpd c u.base rows u.pitch size || (mx && !rowsInSpd c u.sbase rows u.spitch 2) ||
        (planes && !wide && (!inSpd c x.base (2 * rows) || !inSpd c x.sbase (2 * u.nout))) then some 0x0203
    else none

/-- ACC_EXP of a row as the drain reads it (R107). -/
def AccRow.drainExp (a : AccRow) : Int :=
  match a.mode with
  | .slice8 s => 4 - 8 * ((s : Int) + 1)
  | _ => a.exp

/-- The reads of a drained row: the exponent words of split and slice rows, then the destination of AOW. -/
def DrainRun.reads (r : DrainRun) (a : AccRow) : List (Nat × Nat) :=
  (if a.mode.planes && !r.wide then [(r.x.base + 2 * r.next, 2), (r.x.sbase, 2 * r.u.nout)] else [(0, 0), (0, 0)]) ++
  (if r.aow then [(r.u.base + r.next * r.u.pitch, r.rowBytes)] else [])

/-- One drained row's destination writes and flags (R99, R126, R258, R259); an accumulator with OVF raises
ACC in each of its writebacks (R100, R109). A WIDE drain of an invalid row gives records of
zeros (R125), so with AOW = 1 it adds under ACC_EXP 0: a destination record of another ACC_EXP becomes NaN and raises NV
(log entry 113). -/
def DrainRun.rowOut (r : DrainRun) (a : AccRow) (bs : List (List Byte)) : List (Nat × List Byte) × Flags :=
  let n := r.u.nout
  let dst := r.u.base + r.next * r.u.pitch
  let old := natOfBytes (bs.getD 2 [])
  if r.wide then
    let outs := (a.cells.take n).zip (upTo n) |>.map (fun x =>
      let y := if r.aow then x.1.addRecord a.exp (bits (128 * x.2 + 127) (128 * x.2) old) else (x.1, 0)
      (y.1.toRecord a.exp, y.2 ||| flagIf x.1.ovf fACC))
    ([(dst, bytesOf (16 * n) (packElems 128 (outs.map Prod.fst)))], (outs.map Prod.snd).foldl (· ||| ·) 0)
  else match Fmt.ofCode r.u.fmt with
    | none => ([], 0)
    | some f =>
      let planes := a.mode.planes
      let em := natOfBytes (bs.getD 0 [])
      let col := natOfBytes (bs.getD 1 [])
      let ex := fun (c : Nat) =>
        a.drainExp + r.outExp + (if planes then sext 16 em + sext 16 (bits (16 * c + 15) (16 * c) col) else 0)
      let flagged := fun (c : Nat) (acc : Acc) =>
        if planes then flaggedOut em (bits (16 * c + 15) (16 * c) col) acc.value.toInt else none
      let r16 := fun (c : Nat) =>
        if r.rnd = .sr then sr16 r.key.toNat r.stream.toNat (r.u.m0 + r.next) (r.u.n0 + c) else 0
      let cells := (a.cells.take n).zip (upTo n)
      if f.scheme = .mx then
        match f.el with
        | .int _ => ([], 0)
        | .fp ff =>
          let vals := cells.map (fun x => x.1.output (ex x.2) (flagged x.2 x.1) none)
          let fl := (vals.map (fun v => v.2)).foldl (· ||| ·) 0
          let qs := (chunksOf 32 n (vals.map (fun v => v.1))).zip (upTo 2) |>.map (fun b =>
            quantBlock ff false r.rnd (fun j => r16 (32 * b.2 + j)) b.1)
          let codes := qs.flatMap (fun q => q.codes.map f.el.plusZero)
          -- two scale bytes in every row; with NOUT = 32 the second stands for no block, and its value is free (log 112)
          let sb := r.u.sbase + r.next * r.u.spitch
          ([(sb, (qs.map (fun q => BitVec.ofNat 8 q.c) ++ [Config.emptyScale ((qs.map QBlock.c).headD 0) codes]).take 2),
            (dst, bytesOf (elemBytes f.el.width n) (packElems f.el.width codes))],
           (qs.map QBlock.flags).foldl (· ||| ·) fl)
      else
        let w := f.el.width
        let outs := cells.map (fun x =>
          let d := if r.aow then some (f.el.decode (bits (w * x.2 + (w - 1)) (w * x.2) old)) else none
          x.1.writeback (ex x.2) (flagged x.2 x.1) d f.el r.rnd r.nonsat (r16 x.2))
        ([(dst, bytesOf (elemBytes w n) (packElems w (outs.map Prod.fst)))], (outs.map Prod.snd).foldl (· ||| ·) 0)

/-- ME.DRAIN: it begins beside the array; `row` reads and rounds its next accumulator row, once every earlier stream and
add has made its last addition to it (R128). -/
def Dev.meDrain (d : Dev) (c : Nat) (i : IWord) (ph : Phase) : Dev :=
  let w := i.word 1 0x03
  match ph with
  | .issue => d.engIssue c 1 0x03 1 i (legalMeRows i)
  | .begin =>
    match d.engHead c 1 w with
    | none => d
    | some q =>
      let m := (d.core c).me
      let u := Desc.ofBits (q.getD' (i.f 49 46))
      let x := Desc.ofBits (q.getD' ((i.f 49 46) ^^^ 1))
      if d.colTesting c then d
      else match drainCheck c m u x i with
        | some ev => d.meRefuses c ev
        | none =>
          let seq := m.eng.nextSeq
          (d.engTake c 1).onMe c (fun m => { m with drains := m.drains ++ [
            { seq := seq, word := w, u := u, x := x, aow := decide (i.f 45 45 = 1), accBase := i.f 44 33
              rows := i.f 32 20, outExp := sext 8 (i.f 19 12), rnd := (Rnd.ofCode (i.f 11 10)).getD .rne
              nonsat := decide (i.f 9 9 = 1), wide := decide (i.f 8 8 = 1), key := q.getS (i.f 7 3)
              stream := q.getS (i.f 7 3 + 1), next := 0 }] })
  | .row =>
    let m := (d.core c).me
    match m.drains with
    | [] => d
    | r :: rest =>
      let k := r.accBase + r.next
      if r.word = w ∧ ¬m.rowBusy r.seq k then
        let a := if (m.row k).valid then m.row k else AccRow.invalid
        let x := d.engReads (r.reads a)
        match x.1 with
        | .error ev => (x.2.onMe c (fun m => { m with drains := rest }.drainEnd r)).meStops c ev
        | .ok bs =>
          let o := r.rowOut a bs
          let fl := r.flags ||| o.2
          let last := decide (r.rows ≤ r.next + 1)
          x.2.onMe c (fun m => { m with
            drains := if last then rest else { r with next := r.next + 1, flags := fl } :: rest
            writes := m.writes ++ [⟨r.seq, o.1, o.2, if last then some fl else none⟩] })
      else d

/-- Write ranges in turn; the event of a bank that is not ON. -/
def Dev.engWrites (d : Dev) : List (Nat × List Byte) → Option Nat × Dev
  | [] => (none, d)
  | (a, bs) :: rs =>
    let x := d.sramWrite a (clean bs)
    if x.1 then x.2.engWrites rs else (some (offEvent a), x.2)

/-- ME_DRAIN_ROW_WRITE: the oldest drained row's bytes land (R130). -/
def Dev.meRowWrite (d : Dev) (c : Nat) : Dev :=
  match (d.core c).me.writes with
  | [] => d
  | w :: rest =>
    let d1 := d.onMe c (fun m => { m with
      writes := rest, flags := m.flags ||| w.flags, since := m.since ||| w.done.getD 0 })
    let x := d1.engWrites w.writes
    match x.1 with
    | some ev => if ((x.2.core c).eng 1).halt then x.2 else x.2.meStops c ev
    | none => x.2

/-! ## ME.ADDW and ME.CLEAR (R127, R260) -/

/-- The event that refuses an ME.ADDW. -/
def addwCheck (c : Nat) (u : Desc) (i : IWord) : Option Nat :=
  match Fmt.ofCode u.fmt with
  | none => some 0x0201
  | some f =>
    let sOk := if f.scheme = .slice then decide (3 ≤ u.s) && decide (u.s ≤ 7) else decide (u.s = 0)
    if !sOk || decide (u.zeros ≠ 0) || decide (u.pitch % 16 ≠ 0) || decide (u.pitch < 1024) then some 0x0201
    else if !accRangeOk (i.f 44 33) (i.f 32 20) then some 0x0202
    else if !rowsInSpd c u.base (i.f 32 20) u.pitch 1024 then some 0x0203
    else none

/-- One record row added into its accumulator row (R101, R127). -/
def addwRow (clr : Bool) (mode : AccMode) (rec : Nat) (a : AccRow) : AccRow × Flags :=
  let e0 := recExp (bits 127 0 rec)
  let s : AccRow × Flags :=
    if clr then (AccRow.cleared e0 mode, 0)
    else if a.valid && decide (a.mode = mode) then (a, 0)
    else (AccRow.nanned e0 mode, fNV)
  let cs := (s.1.cells.zip (upTo 64)).map (fun x => x.1.addRecord s.1.exp (bits (128 * x.2 + 127) (128 * x.2) rec))
  ({ s.1 with cells := cs.map Prod.fst }, (cs.map Prod.snd).foldl (· ||| ·) s.2)

/-- ME.ADDW: `row` adds its next record row (R127). -/
def Dev.meAddw (d : Dev) (c : Nat) (i : IWord) (ph : Phase) : Dev :=
  let w := i.word 1 0x04
  match ph with
  | .issue => d.engIssue c 1 0x04 1 i (legalMeAddw i)
  | .begin =>
    match d.engHead c 1 w with
    | none => d
    | some q =>
      let m := (d.core c).me
      let u := Desc.ofBits (q.getD' (i.f 49 46))
      if m.run.isSome || d.colTesting c then d
      else match addwCheck c u i, Fmt.ofCode u.fmt with
        | some ev, _ => d.meRefuses c ev
        | none, none => d
        | none, some f =>
          if m.sourceFree ((upTo (i.f 32 20)).map (fun k => (u.base + k * u.pitch, 1024))) then
            let seq := m.eng.nextSeq
            let run : ArrRun :=
              { seq := seq, word := w, addw := true, desc := u, clr := decide (i.f 45 45 = 1), accBase := i.f 44 33
                rows := i.f 32 20, exp := 0, mode := AccMode.ofFmt f u.s, shift := 0, part := 0, next := 0 }
            (d.engTake c 1).onMe c (fun m => { m with run := some run })
          else d
  | .row =>
    let m := (d.core c).me
    match m.run with
    | none => d
    | some r =>
      let k := r.accBase + r.next
      if r.word = w ∧ r.addw ∧ ¬m.rowWanted r.seq k ∧ ¬m.flight.any (fun f => f.row = k) then
        let x := d.engRead (r.desc.base + r.next * r.desc.pitch) 1024
        match x.1 with
        | .error ev => (x.2.onMe c (fun m => { m with run := none, since := m.since ||| r.flags })).meStops c ev
        | .ok bs =>
          let o := addwRow r.clr r.mode (natOfBytes bs) (m.row k)
          let fl := r.flags ||| o.2
          let last := decide (r.rows ≤ r.next + 1)
          x.2.onMe c (fun m => { m.setRow k o.1 with
            run := if last then none else some { r with next := r.next + 1, flags := fl }
            flags := m.flags ||| o.2, since := if last then m.since ||| fl else m.since })
      else d

/-- ME.CLEAR: in its turn in the FIFO, it clears the VALID bits of its rows (R260). -/
def Dev.meClear (d : Dev) (c : Nat) (i : IWord) (ph : Phase) : Dev :=
  match ph with
  | .issue => d.engIssue c 1 0x05 1 i (legalMeClear i)
  | .row => d
  | .begin =>
    match d.engHead c 1 (i.word 1 0x05) with
    | none => d
    | some _ =>
      let m := (d.core c).me
      let acc := i.f 44 33
      let rows := i.f 32 20
      if m.run.isSome || d.colTesting c then d
      else if !accRangeOk acc rows then d.meRefuses c 0x0202
      else if (upTo rows).any (fun k => m.rowBusy m.eng.nextSeq (acc + k) || m.rowWanted m.eng.nextSeq (acc + k)) then d
      else (d.engTake c 1).onMe c (fun m => { m with acc := FMap.dropRange m.acc acc (acc + rows) })

/-! ## Stops and snapshots (R111, R134, R135) -/

/-- The matrix engine at a revocation or a prune (R135): drain rows already read still land. -/
def Me.stopped (m : Me) : Me :=
  { eng := { event := m.eng.event, nextSeq := m.eng.nextSeq }
    writes := m.writes.map (fun w => { w with flags := 0, done := none }) }

/-- The Tempo snapshot of the matrix engine at edge E (R111). -/
def Me.snapshot (m : Me) (e : Nat) : Me := { m with snap := m.since, since := 0, snapTempo := e % 2 ^ 32 }

end Sys2Proof.Machine
end

