-- ==== Sys2Proof/Machine/VectorEngine.lean ====
section
/-! DEFINITION. The vector engine's lane instructions: arithmetic, movement, functions, reductions, online softmax,
loads and stores, conversions and random bits (R149 to R163, R262 to R271). -/
namespace Sys2Proof.Machine

/-! ## Operands (R262, R263) -/

/-- Zero fields of format VR: MK and VM, COND where it has no meaning, the bits of X without a meaning. -/
def legalVr (xmask : Nat) (cond : Bool) (i : IWord) (_ : Sq) : Bool :=
  i.f 7 0 = 0 && (decide (i.f 28 28 = 1) || decide (i.f 27 23 = 0)) && (cond || decide (i.f 22 20 = 0)) &&
    decide (i.f 19 8 &&& (0xFFF - xmask) = 0)

/-- OSMX: VD to VD + 3, VB and VB + 1, no broadcast (R263). -/
def legalOsmx (i : IWord) (q : Sq) : Bool :=
  legalVr 0xF false i q && decide (i.f 49 45 ≤ 28) && decide (i.f 39 35 ≤ 30) && decide (i.f 29 29 = 0)

/-- Format VM. -/
def legalVm (i : IWord) (_ : Sq) : Bool := i.f 8 0 = 0 && (decide (i.f 30 30 = 1) || decide (i.f 29 25 = 0))

/-- Format VC. -/
def legalVc (i : IWord) (_ : Sq) : Bool :=
  i.f 16 14 = 0 && decide (i.f 11 0 = 0) && (decide (i.f 22 22 = 1) || decide (i.f 21 17 = 0))

/-- CVT.EXP: V at most 30 (R268). -/
def legalCvtExp (i : IWord) (q : Sq) : Bool := legalVc i q && decide (i.f 49 45 ≤ 30)

/-- Format VN. -/
def legalVn (i : IWord) (_ : Sq) : Bool := i.f 23 0 = 0 && (decide (i.f 29 29 = 1) || decide (i.f 28 24 = 0))

/-- Format VS. -/
def legalVs (i : IWord) (_ : Sq) : Bool := i.f 18 0 = 0

/-- Lane numbers. -/
def laneIds : List Nat := List.range 256

/-- Lane k of a register. -/
def VReg.lane (v : VReg) (k : Nat) : Lane := v.getD k 0

/-- The active lanes of an instruction (R153): all, or those whose mask lane is not zero. -/
def Sq.active (q : Sq) (mk : Bool) (vm : Nat) : List Bool :=
  if mk then laneIds.map (fun k => decide ((q.getV vm).lane k ≠ 0)) else List.replicate 256 true

/-- The VB operand of format VR: a register, or s[VB] broadcast (R263). -/
def vbOperand (q : Sq) (x : QEntry) (i : IWord) : VReg :=
  if i.f 29 29 = 1 then List.replicate 256 (BitVec.ofNat 32 (x.getS (i.f 39 35)).toNat) else q.getV (i.f 39 35)

/-- New register contents: active lanes take the result, others keep theirs (R153). -/
def mergeLanes (act : List Bool) (new old : VReg) : VReg :=
  laneIds.map (fun k => if act.getD k false then new.lane k else old.lane k)

/-! ## Beginning an instruction (R171, R172) -/

/-- Occupancy of a vector instruction in clk (R156). The clk that a register load or store takes on the scratchpad port
(R157) overlap with other instructions and do not count; a SOLVE counts by passes. -/
def veOccupancy (op : Nat) : Nat :=
  match op with
  | 0x28 | 0x29 | 0x2A | 0x2B | 0x2C | 0x2D | 0x2E | 0x2F | 0x30 | 0x31 | 0x32 | 0x3C | 0x3D | 0x53 => 4
  | 0x34 | 0x35 => 8
  | 0x48 | 0x49 | 0x58 => 0
  | _ => 1

/-- A vector instruction at the head of its queue: refused with an event, or executed. It waits while a SOLVE holds the
engine (R170). `check` gives the first condition of R171 and R271 that holds; `body` acts on the device with the
instruction already taken. -/
def Dev.veBegin (d : Dev) (c op : Nat) (i : IWord) (check : QEntry → Sq → Option Nat)
    (body : QEntry → Sq → Dev → Dev) : Dev :=
  match d.engHead c 2 (i.word 2 op) with
  | none => d
  | some x =>
    if (d.core c).ve.solve.isSome then d
    else match check x (d.core c).sq with
      | some ev => d.engHalts c 2 ev true
      | none => body x (d.core c).sq ((d.engTake c 2).clkCount ⟨.vePerfBusy, [c]⟩ (veOccupancy op))

/-- Flags of a completed instruction, and its register (R110, R111). -/
def Dev.veWrite (d : Dev) (c vd : Nat) (v : VReg) (fl : Flags) : Dev :=
  d.onCore c (fun x => { x with
    sq := x.sq.setV vd v, ve := { x.ve with flags := x.ve.flags ||| fl, since := x.ve.since ||| fl } })

/-- Flags only. -/
def Dev.veFlag (d : Dev) (c : Nat) (fl : Flags) : Dev :=
  d.onVe c (fun v => { v with flags := v.flags ||| fl, since := v.since ||| fl })

/-- An instruction with its two phases. -/
def Dev.veInstr (d : Dev) (c op : Nat) (i : IWord) (ph : Phase) (legal : Sq → Bool)
    (check : QEntry → Sq → Option Nat) (body : QEntry → Sq → Dev → Dev) : Dev :=
  match ph with
  | .issue => d.engIssue c 2 op 2 i legal
  | .begin => d.veBegin c op i check body
  | .row => d

/-! ## Lane-by-lane instructions -/

/-- A format VR instruction computed lane by lane from VA, VB, VC. -/
def Dev.veLanes (d : Dev) (c op : Nat) (i : IWord) (ph : Phase) (cond : Bool) (check : Option Nat)
    (f : Lane → Lane → Lane → Lane × Flags) : Dev :=
  d.veInstr c op i ph (legalVr 0 cond i) (fun _ _ => check) (fun x q d =>
    let act := q.active (i.f 28 28 = 1) (i.f 27 23)
    let a := q.getV (i.f 44 40)
    let b := vbOperand q x i
    let e := q.getV (i.f 34 30)
    let rs := laneIds.map (fun k =>
      if act.getD k false then f (a.lane k) (b.lane k) (e.lane k) else ((q.getV (i.f 49 45)).lane k, 0))
    d.veWrite c (i.f 49 45) (rs.map Prod.fst) ((rs.map Prod.snd).foldl (· ||| ·) 0))

/-- An instruction whose lanes raise no flag. -/
def noFlag (f : Lane → Lane → Lane) (a b : Lane) : Lane × Flags := (f a b, 0)

/-- FABS and FNEG: a NaN result is canonical and raises NV (R109, R150). -/
def signOp (f : Lane → Lane) (a : Lane) : Lane × Flags := if a.val.isNan then (laneNaN, fNV) else (f a, 0)

/-- A COND of 6 or 7 is a reserved value (R171, R263). -/
def condCheck (i : IWord) : Option Nat := if 5 < i.f 22 20 then some 0x0301 else none

/-- Integer shifts by the VB lane mod 32. -/
def laneSll (a b : Lane) : Lane := a <<< (b.toNat % 32)
@[inherit_doc laneSll] def laneSrl (a b : Lane) : Lane := a >>> (b.toNat % 32)
@[inherit_doc laneSll] def laneSra (a b : Lane) : Lane := a.sshiftRight (b.toNat % 32)

/-- A lane movement: the new register from VA and VB, active lanes only, no flag. -/
def Dev.veMove (d : Dev) (c op : Nat) (i : IWord) (ph : Phase) (xmask : Nat) (check : Option Nat)
    (f : VReg → VReg → VReg) : Dev :=
  d.veInstr c op i ph (legalVr xmask false i) (fun _ _ => check) (fun x q d =>
    let act := q.active (i.f 28 28 = 1) (i.f 27 23)
    d.veWrite c (i.f 49 45) (mergeLanes act (f (q.getV (i.f 44 40)) (vbOperand q x i)) (q.getV (i.f 49 45))) 0)

/-- PERM. -/
def permLanes (a b : VReg) : VReg := laneIds.map (fun k => a.lane ((b.lane k).toNat % 256))

/-- LSHIFT by a signed number of lanes. -/
def shiftLanes (n : Int) (a : VReg) : VReg :=
  laneIds.map (fun (k : Nat) => let j : Int := (k : Int) - n; if 0 ≤ j ∧ j < 256 then a.lane j.toNat else 0)

/-- LSHIFT's check: X from −255 to 255. -/
def lshiftCheck (i : IWord) : Option Nat := if (sext 12 (i.f 19 8)).natAbs ≤ 255 then none else some 0x0301

/-! ## Reductions (R158, R159) -/

/-- Segment exponents 2 to 8. -/
def segCheck (i : IWord) : Option Nat := if 2 ≤ i.f 11 8 ∧ i.f 11 8 ≤ 8 then none else some 0x0301

/-- One level of the tree. -/
def treeLevel (f : Lane → Lane → Lane × Flags) : List Lane → List (Lane × Flags)
  | a :: b :: r => f a b :: treeLevel f r
  | _ => []

/-- The fixed tree of R158 over 2^k lanes: the result and the flags. -/
def treeReduce (f : Lane → Lane → Lane × Flags) : (k : Nat) → List Lane → Lane × Flags
  | 0, l => (l.getD 0 0, 0)
  | k + 1, l =>
    let t := treeLevel f l
    let r := treeReduce f k (t.map Prod.fst)
    (r.1, (t.map Prod.snd).foldl (· ||| ·) r.2)

/-- The exact sum of R159 over the active lanes. -/
def exactSum (l : List Lane) : Lane × Flags :=
  let vs := l.map Lane.val
  let pinf := vs.any (fun v => decide (v = .inf false))
  let ninf := vs.any (fun v => decide (v = .inf true))
  if vs.any FVal.isNan || (pinf && ninf) then (laneNaN, fNV)
  else if pinf then (laneInf false, 0)
  else if ninf then (laneInf true, 0)
  else
    let s := sumExact vs
    laneOfExact s.1 s.2 (l.all (fun x => decide (x = 0x80000000)))

/-- A reduction: `g` takes a segment's lanes with their activity. -/
def Dev.veReduce (d : Dev) (c op : Nat) (i : IWord) (ph : Phase) (g : Nat → List (Lane × Bool) → Lane × Flags) : Dev :=
  d.veInstr c op i ph (legalVr 0xF false i) (fun _ _ => segCheck i) (fun _ q d =>
    let k := i.f 11 8
    let act := q.active (i.f 28 28 = 1) (i.f 27 23)
    let a := q.getV (i.f 44 40)
    let segs := chunksOf (2 ^ k) 256 (laneIds.map (fun j => (a.lane j, act.getD j false)))
    let rs := segs.map (g k)
    let new := rs.flatMap (fun r => List.replicate (2 ^ k) r.1)
    d.veWrite c (i.f 49 45) (mergeLanes act new (q.getV (i.f 49 45))) ((rs.map Prod.snd).foldl (· ||| ·) 0))

/-- A tree reduction with an identity for inactive lanes. -/
def treeSeg (f : Lane → Lane → Lane × Flags) (ident : Lane) (k : Nat) (l : List (Lane × Bool)) : Lane × Flags :=
  treeReduce f k (l.map (fun x => if x.2 then x.1 else ident))

/-- RSUMX of a segment. -/
def exactSeg (_ : Nat) (l : List (Lane × Bool)) : Lane × Flags := exactSum ((l.filter Prod.snd).map Prod.fst)

/-! ## Online softmax (R160, R161) -/

/-- What one segment of OSMX gives. -/
structure OsmxOut where
  p : List Lane
  m : Lane
  l : Lane
  alpha : Lane
  flags : Flags
  deriving DecidableEq, Repr

/-- −Inf. -/
def laneNegInf : Lane := laneInf true

/-- One segment (R161): the lanes of x with their activity, the state m and l, the scale. In a segment with a NaN, R161 says
both that every result is NaN and that inactive lanes receive p = +0: here they receive +0; and it names NV alone, so that no
other flag of the steps is raised (log entry 118). -/
def osmxSeg (k : Nat) (xs : List (Lane × Bool)) (m l c : Lane) : OsmxOut :=
  let bad := m.val.isNan || l.val.isNan || xs.any (fun x => x.2 && x.1.val.isNan)
  if bad then ⟨xs.map (fun x => if x.2 then laneNaN else 0), laneNaN, laneNaN, laneNaN, fNV⟩
  else
    let ys := xs.map (fun x => if x.2 then fmul x.1 c else (laneNegInf, 0))
    let mb := treeReduce fmax k (ys.map Prod.fst)
    let mn := fmax m mb.1
    let fl := (ys.map Prod.snd).foldl (· ||| ·) (mb.2 ||| mn.2)
    if mn.1 = laneNegInf then ⟨xs.map (fun _ => 0), laneNegInf, l, 0x3F800000, fl⟩
    else
      let ps := (ys.zip xs).map (fun y =>
        if y.2.2 then
          let s := fsub y.1.1 mn.1
          let e := fnLane .exp2 s.1
          (e.1, s.2 ||| e.2)
        else (0, 0))
      let dm := fsub m mn.1
      let al := fnLane .exp2 dm.1
      let s := treeReduce fadd k (ps.map Prod.fst)
      let l' := ffma l al.1 s.1
      ⟨ps.map Prod.fst, mn.1, l'.1, al.1, (ps.map Prod.snd).foldl (· ||| ·) (fl ||| dm.2 ||| al.2 ||| s.2 ||| l'.2)⟩

/-- The state of a segment: the value every lane holds. Where the lanes differ, R160's condition does not hold and the
manual states no result: a free value of the lanes (R149, log entry 17). -/
def segState (isL : Bool) (v : List Lane) : Lane :=
  let x := v.getD 0 0
  if v.all (fun y => decide (y = x)) then x else Config.mixedState isL v

/-- OSMX. -/
def Dev.veOsmx (d : Dev) (c : Nat) (i : IWord) (ph : Phase) : Dev :=
  d.veInstr c 0x3D i ph (legalOsmx i) (fun _ _ => segCheck i) (fun x q d =>
    let k := i.f 11 8
    let n := 2 ^ k
    let act := q.active (i.f 28 28 = 1) (i.f 27 23)
    let a := q.getV (i.f 44 40)
    let sc : Lane := BitVec.ofNat 32 (x.getS (i.f 34 30)).toNat
    let xs := chunksOf n 256 (laneIds.map (fun j => (a.lane j, act.getD j false)))
    let ms := chunksOf n 256 (q.getV (i.f 39 35))
    let ls := chunksOf n 256 (q.getV (i.f 39 35 + 1))
    let os := (upTo (256 / n)).map (fun j =>
      osmxSeg k (xs.getD j []) (segState false (ms.getD j [])) (segState true (ls.getD j [])) sc)
    let all := fun (f : OsmxOut → Lane) => os.flatMap (fun o => List.replicate n (f o))
    let vd := i.f 49 45
    let d2 := d.veWrite c vd (os.flatMap OsmxOut.p) ((os.map OsmxOut.flags).foldl (· ||| ·) 0)
    ((d2.veWrite c (vd + 1) (all OsmxOut.m) 0).veWrite c (vd + 2) (all OsmxOut.l) 0).veWrite c (vd + 3) (all OsmxOut.alpha) 0)

/-! ## CVT.R (R264) -/

/-- The targets of CVT.R. -/
def cvtTarget (code : Nat) : Option Elem :=
  if code = 0x0A then some (.int 32)
  else if 1 ≤ code ∧ code ≤ 7 then (Fmt.ofCode code).map Fmt.el
  else none

/-- The event that refuses a CVT.R. -/
def cvtRCheck (i : IWord) : Option Nat :=
  if (cvtTarget (i.f 12 8)).isNone || decide (2 ≤ i.f 14 13) || (decide (i.f 16 16 = 1) && decide (i.f 12 8 ≠ 0x0A)) then
    some 0x0301
  else none

/-- One lane of CVT.R. -/
def cvtRLane (i : IWord) (a : Lane) : Lane × Flags :=
  let rnd := (Rnd.ofCode (i.f 14 13)).getD .rne
  if i.f 16 16 = 1 then laneOfExact a.toInt 0 false
  else match cvtTarget (i.f 12 8) with
    | some (.int w) => let r := (Elem.int w).encode rnd (i.f 15 15 = 1) 0 a.val; (BitVec.ofNat 32 r.1, r.2)
    | some (.fp f) =>
      let r := (Elem.fp f).encode rnd (i.f 15 15 = 1) 0 a.val
      ((laneOfVal (f.decode r.1)).1, r.2)
    | none => (a, 0)

/-- CVT.R. -/
def Dev.veCvtR (d : Dev) (c : Nat) (i : IWord) (ph : Phase) : Dev :=
  d.veInstr c 0x40 i ph (legalVr 0x1FF false i) (fun _ _ => cvtRCheck i) (fun _ q d =>
    let act := q.active (i.f 28 28 = 1) (i.f 27 23)
    let a := q.getV (i.f 44 40)
    let rs := laneIds.map (fun k =>
      if act.getD k false then cvtRLane i (a.lane k) else ((q.getV (i.f 49 45)).lane k, 0))
    d.veWrite c (i.f 49 45) (rs.map Prod.fst) ((rs.map Prod.snd).foldl (· ||| ·) 0))

/-! ## VLD and VST (R265) -/

/-- BASE, LEN, REMOTE and WR of an a register (R211). -/
structure Win where
  base : Nat
  dev : Nat
  remote : Bool
  wr : Bool
  len : Nat
  deriving DecidableEq, Repr

/-- The fields of an a register (R211). -/
def Win.ofBits (a : BitVec 128) : Win := ⟨fld 47 0 a, fld 65 48 a, bit 66 a, bit 67 a, fld 119 72 a⟩

/-- [lo, hi) lies in the window. -/
def Win.holds (w : Win) (lo hi : Int) : Bool := decide ((w.base : Int) ≤ lo) && decide (hi ≤ (w.base : Int) + w.len)

/-- ea and the stride of R265. -/
def vmAddr (x : QEntry) (i : IWord) : Nat × Int :=
  let w := Win.ofBits (x.getA (i.f 44 41))
  (low 48 ((w.base : Int) + (x.getS (i.f 40 36)).toNat + sext 16 (i.f 24 9)),
   if i.f 35 31 = 0 then 4 else (x.getS (i.f 35 31)).toInt)

/-- Address of lane k. -/
def vmLane (x : QEntry) (i : IWord) (k : Nat) : Int := let a := vmAddr x i; (a.1 : Int) + k * a.2

/-- The event that refuses a VLD or VST (R265, R271). -/
def vmCheck (c : Nat) (store : Bool) (i : IWord) (x : QEntry) (_ : Sq) : Option Nat :=
  let w := Win.ofBits (x.getA (i.f 44 41))
  let a := vmAddr x i
  let ends := [vmLane x i 0, vmLane x i 255]
  if a.1 % 4 ≠ 0 ∨ a.2 % 4 ≠ 0 then some 0x0301
  else if w.remote || (store && !w.wr) || !ends.all (fun l => w.holds l (l + 4)) ||
      !ends.all (fun l => decide (0 ≤ l) && inSpd c l.toNat 4) then some 0x0302
  else none

/-- Runs of lanes at consecutive addresses: first address and number of lanes. -/
def laneRuns : List Nat → List (Nat × Nat)
  | [] => []
  | a :: r =>
    match laneRuns r with
    | (b, n) :: rest => if b = a + 4 then (a, n + 1) :: rest else (a, 1) :: (b, n) :: rest
    | [] => [(a, 1)]

/-- A VLD or VST stops the engine in its middle (R172, R300, R318). -/
def Dev.veStops (d : Dev) (c ev : Nat) : Dev := d.engHalts c 2 ev false

/-- The conflicts of a VLD or VST (R293, R313): a contiguous access takes 2 clk of 128 lanes, a strided one 8 clk of 32 lanes
(R265); an inactive lane touches nothing. -/
def Dev.laneConflicts (d : Dev) (contiguous : Bool) (lanes : List (Option Nat)) : Dev :=
  let n := if contiguous then 128 else 32
  (upTo (256 / n)).foldl (fun (d : Dev) g => d.conflictCount true (((lanes.drop (n * g)).take n).filterMap id)) d

/-- The address of each active lane of a VLD or VST. -/
def vmLanes (x : QEntry) (i : IWord) (act : List Bool) : List (Option Nat) :=
  laneIds.map (fun k => if act.getD k false then some (vmLane x i k).toNat else none)

/-- The writes of a VST: the lanes of one SRAM word make one write of it, and a write of both its halves is a write of the
whole word (R290, R291). A later lane of an address stands; the words go in the order in which the lanes touch them. -/
def laneWrites (l : List (Nat × List Byte)) : List (Nat × List Byte) :=
  ((l.map (fun x => x.1 / 8)).eraseDups).map (fun w =>
    let half := fun a => (l.reverse.find? (fun x => x.1 = a)).map Prod.snd
    match half (8 * w) with
    | some lo => (8 * w, lo ++ (half (8 * w + 4)).getD [])
    | none => (8 * w + 4, (half (8 * w + 4)).getD []))

/-- VLD. -/
def Dev.veVld (d : Dev) (c : Nat) (i : IWord) (ph : Phase) : Dev :=
  d.veInstr c 0x48 i ph (legalVm i) (vmCheck c false i) (fun x q d =>
    let act := q.active (i.f 30 30 = 1) (i.f 29 25)
    let lanes := laneIds.filter (fun k => act.getD k false)
    let r := (d.laneConflicts (i.f 35 31 = 0) (vmLanes x i act)).engReads ((laneRuns (lanes.map (fun k => (vmLane x i k).toNat))).map (fun a => (a.1, 4 * a.2)))
    match r.1 with
    | .error ev => r.2.veStops c ev
    | .ok bs =>
      let words := bs.flatMap (fun b => unpackElems 32 (b.length / 4) (natOfBytes b))
      let v := (lanes.zip words).foldl (fun (v : VReg) kw => v.set kw.1 (BitVec.ofNat 32 kw.2)) (q.getV (i.f 49 45))
      r.2.veWrite c (i.f 49 45) v 0)

/-- VST. -/
def Dev.veVst (d : Dev) (c : Nat) (i : IWord) (ph : Phase) : Dev :=
  d.veInstr c 0x49 i ph (legalVm i) (vmCheck c true i) (fun x q d =>
    let act := q.active (i.f 30 30 = 1) (i.f 29 25)
    let v := q.getV (i.f 49 45)
    let lanes := laneIds.filter (fun k => act.getD k false)
    let r := (d.laneConflicts (i.f 35 31 = 0) (vmLanes x i act)).engWrites
      (laneWrites (lanes.map (fun k => ((vmLane x i k).toNat, bytesOf 4 (v.lane k).toNat))))
    match r.1 with
    | some ev => r.2.veStops c ev
    | none => r.2)

/-! ## Conversions to and from descriptor rows (R266 to R268) -/

/-- First byte, first bit in it, and bytes of `n` elements of `w` bits from element e of a row at `row` (R80, R253). -/
def elemSpan (row w e n : Nat) : Nat × Nat × Nat := (row + e * w / 8, e * w % 8, cdiv (e * w % 8 + n * w) 8)

/-- Elements that a conversion of the format takes. -/
def cvtCount (f : Fmt) : Nat := if f.el.width = 64 ∨ f.scheme = .slice then 128 else 256

/-- Scale bytes of a 256-element conversion: address and length. -/
def cvtScale (u : Desc) (f : Fmt) (e j : Nat) : Nat × Nat :=
  match f.scheme with
  | .mx => (u.sbase + j * u.spitch + e / 32, 8)
  | .nb => (u.sbase + j * u.spitch + 4 * (e / 128), 8)
  | _ => (0, 0)

/-- Descriptor, e and j of a VC instruction. -/
def vcDesc (x : QEntry) (i : IWord) : Desc × Nat × Nat :=
  (Desc.ofBits (x.getD' (i.f 44 41)), (x.getS (i.f 40 36)).toNat, (x.getS (i.f 35 31)).toNat)

/-- The lanes of a CVT.LD element: FP32 or INT32. -/
def cvtLdLane (el : Elem) (v : FVal) (code : Nat) : Lane × Flags :=
  match el with
  | .int w => (BitVec.ofInt 32 (sext w code), 0)
  | .fp f => if f = fp32F then (BitVec.ofNat 32 code, 0) else laneOfVal v

/-- Value of an element of a converted row, with its block scale. -/
def cvtElem (f : Fmt) (sc e code : Nat) : FVal :=
  match f.scheme with
  | .mx => scaledElem f 0 sc e code
  | .nb => scaledElem f ((e % 128) / 64) (bits (32 * (e / 128) + 31) (32 * (e / 128)) sc) (e % 64) code
  | _ => f.el.decode code

/-- The event that refuses a CVT.LD (R266, R271). -/
def cvtLdCheck (c : Nat) (i : IWord) (x : QEntry) (_ : Sq) : Option Nat :=
  let dej := vcDesc x i
  let u := dej.1
  match Fmt.ofCode u.fmt with
  | none => some 0x0301
  | some f =>
    let sp := elemSpan (u.rowAddr 1 dej.2.2) f.el.width dej.2.1 (cvtCount f)
    let sc := cvtScale u f dej.2.1 dej.2.2
    if f.scheme.hasParts || !u.ok f 1 1 || (decide (sc.2 ≠ 0) && decide (dej.2.1 % 256 ≠ 0)) ||
        decide (i.f 30 23 ≠ 0) || decide (i.f 13 12 ≠ 0) then some 0x0301
    else if !inSpd c sp.1 sp.2.2 || (decide (sc.2 ≠ 0) && !inSpd c sc.1 sc.2) then some 0x0302
    else none

/-- CVT.LD. -/
def Dev.veCvtLd (d : Dev) (c : Nat) (i : IWord) (ph : Phase) : Dev :=
  d.veInstr c 0x4A i ph (legalVc i) (cvtLdCheck c i) (fun x q d =>
    let dej := vcDesc x i
    let u := dej.1
    match Fmt.ofCode u.fmt with
    | none => d
    | some f =>
      let w := f.el.width
      let n := cvtCount f
      let sp := elemSpan (u.rowAddr 1 dej.2.2) w dej.2.1 n
      let sc := cvtScale u f dej.2.1 dej.2.2
      let r := d.engReads [(sp.1, sp.2.2), sc]
      match r.1 with
      | .error ev => r.2.veStops c ev
      | .ok bs =>
        let codes := unpackElems w n (natOfBytes (bs.getD 0 []) >>> sp.2.1)
        let scale := natOfBytes (bs.getD 1 [])
        let rs : List (Lane × Flags) :=
          if w = 64 then codes.flatMap (fun x => [(BitVec.ofNat 32 x, 0), (BitVec.ofNat 32 (x >>> 32), 0)])
          else (codes.zip (upTo n)).map (fun x => cvtLdLane f.el (cvtElem f scale x.2 x.1) x.1)
        let act := q.active (i.f 22 22 = 1) (i.f 21 17)
        let fl := ((rs.zip act).map (fun x => if x.2 then x.1.2 else 0)).foldl (· ||| ·) 0
        r.2.veWrite c (i.f 49 45) (mergeLanes act (rs.map Prod.fst) (q.getV (i.f 49 45))) fl)

/-- The source elements of a CVT.ST or CVT.EXP: values with their activity. Both lanes of an FP64 pair must be active. -/
def cvtSource (pairs : Bool) (v : VReg) (act : List Bool) : List (FVal × Bool) :=
  if pairs then (upTo 128).map (fun k =>
    (fp64F.decode ((v.lane (2 * k)).toNat + (v.lane (2 * k + 1)).toNat <<< 32),
     act.getD (2 * k) false && act.getD (2 * k + 1) false))
  else laneIds.map (fun k => ((v.lane k).val, act.getD k false))

/-- The event that refuses a CVT.ST (R267, R271). -/
def cvtStCheck (c : Nat) (i : IWord) (x : QEntry) (_ : Sq) : Option Nat :=
  let dej := vcDesc x i
  let u := dej.1
  let e := dej.2.1
  let j := dej.2.2
  match Fmt.ofCode u.fmt with
  | none => some 0x0301
  | some f =>
    let n := cvtCount f
    let sc := cvtScale u f e j
    let rnd := i.f 30 29
    if decide (u.fmt = 0x00) || decide (u.fmt = 0x0B) || !u.ok f (j + 1) (e + n) || decide (rnd = 3) ||
        (decide (sc.2 ≠ 0) && (decide (e % 256 ≠ 0) || decide (u.spitch < cdiv (e + n) f.scheme.block * f.scheme.scaleBytes))) ||
        (decide (rnd = 2) && (decide (e % 8 ≠ 0) || decide (30 < i.f 27 23))) then
      some 0x0301
    else if !(upTo (u.parts f)).all (fun p =>
          let sp := elemSpan (u.rowAddr (p + 1) j) f.el.width e n
          inSpd c sp.1 sp.2.2) ||
        (decide (sc.2 ≠ 0) && !inSpd c sc.1 sc.2) || (f.scheme.hasParts && !inSpd c (u.sbase + 2 * j) 2) then some 0x0302
    else none

/-- The codes of a conversion, part by part, with the scale bytes and the flags (R85, R87 to R92, R104, R106, R259). -/
def cvtCodes (f : Fmt) (s : Nat) (rnd : Rnd) (nonsat : Bool) (ew : Nat) (r16 : Nat → Nat) (src : List (FVal × Bool)) :
    List (List Nat) × List Byte × Flags :=
  let vals := src.map (fun x => if x.2 then x.1 else .fin false 0 0)
  let idx := upTo src.length
  let orAll := fun (l : List Flags) => l.foldl (· ||| ·) 0
  match f.scheme, f.el with
  | .unscaled, el =>
    let rs := (vals.zip idx).map (fun x => el.encode rnd nonsat (r16 x.2) x.1)
    ([rs.map Prod.fst], [], orAll (rs.map Prod.snd))
  | .mx, .fp ff =>
    let qs := ((chunksOf 32 256 vals).zip idx).map (fun b => quantBlock ff false rnd (fun j => r16 (32 * b.2 + j)) b.1)
    ([qs.flatMap QBlock.codes], qs.map (fun q => BitVec.ofNat 8 q.c), orAll (qs.map QBlock.flags))
  | .nb, .fp ff =>
    let qs := ((chunksOf 128 256 vals).zip idx).map (fun b => quantBlock ff true rnd (fun j => r16 (128 * b.2 + j)) b.1)
    ([qs.flatMap QBlock.codes], qs.flatMap (fun q => bytesOf 4 (nbMeta q.c q.subs)), orAll (qs.map QBlock.flags))
  | .split, _ =>
    let rs := vals.map (splitElem ew .rne nonsat)
    ([rs.map Prod.fst, rs.map (fun r => r.2.1)], [], orAll (rs.map (fun r => r.2.2)))
  | .slice, _ =>
    let rs := vals.map (sliceElem s ew)
    let code := fun (d : Int) => if -128 ≤ d ∧ d ≤ 127 then low 8 d else (Config.wideDigit d).toNat
    ((upTo s).map (fun p => rs.map (fun r => code (r.1.getD p 0))), [], orAll (rs.map Prod.snd))
  | _, _ => ([], [], 0)

/-- Write bits into a span of bytes whose edge bytes may hold other elements: the bytes to write. -/
def mergeSpan (old : Nat) (off w n new : Nat) : Nat :=
  let mask := (2 ^ (n * w) - 1) <<< off
  (old - (old &&& mask)) + new <<< off

/-- CVT.ST: the exponent word is read first for SPLIT16 and SLICE8. -/
def Dev.veCvtSt (d : Dev) (c : Nat) (i : IWord) (ph : Phase) : Dev :=
  d.veInstr c 0x4B i ph (legalVc i) (cvtStCheck c i) (fun x q d =>
    let dej := vcDesc x i
    let u := dej.1
    let e := dej.2.1
    let j := dej.2.2
    match Fmt.ofCode u.fmt with
    | none => d
    | some f =>
      let w := f.el.width
      let n := cvtCount f
      let sp := fun (p : Nat) => elemSpan (u.rowAddr p j) w e n
      let edge := decide ((sp 1).2.1 ≠ 0) || decide ((e + n) * w % 8 ≠ 0)
      let r := d.engReads [if f.scheme.hasParts then (u.sbase + 2 * j, 2) else (0, 0),
        if edge then ((sp 1).1, (sp 1).2.2) else (0, 0)]
      match r.1 with
      | .error ev => r.2.veStops c ev
      | .ok bs =>
        let act := q.active (i.f 22 22 = 1) (i.f 21 17)
        let rnd := (Rnd.ofCode (i.f 30 29)).getD .rne
        let key := (x.getS (i.f 27 23)).toNat
        let strm := (x.getS (i.f 27 23 + 1)).toNat
        let r16 := fun (k : Nat) => if rnd = .sr then sr16 key strm (u.m0 + j) (u.n0 + e + k) else 0
        let o := cvtCodes f u.s rnd (i.f 28 28 = 1) (natOfBytes (bs.getD 0 [])) r16
          (cvtSource (decide (f.scheme = .slice)) (q.getV (i.f 49 45)) act)
        let old := natOfBytes (bs.getD 1 [])
        let ws := (o.1.zip (upTo o.1.length)).map (fun p =>
          let s := sp (p.2 + 1)
          (s.1, bytesOf s.2.2 (mergeSpan old s.2.1 w n (packElems w p.1))))
        let r2 := r.2.engWrites (ws ++ (if o.2.1.isEmpty then [] else [((cvtScale u f e j).1, o.2.1)]))
        match r2.1 with
        | some ev => r2.2.veStops c ev
        | none => r2.2.veFlag c o.2.2)

/-- The running state of CVT.EXP (R268). -/
structure ExpState where
  nan : Bool
  inf : Bool
  top : Option Int
  seen : Nat
  deriving DecidableEq, Repr

/-- The state that lanes 0 and 1 hold. -/
def ExpState.ofLanes (a b : Lane) : ExpState :=
  ⟨bit 31 a, bit 30 a, if bit 29 a then some (sext 16 a.toNat) else none, b.toNat⟩

/-- Lane 0 of a state. -/
def ExpState.lane0 (s : ExpState) : Lane :=
  BitVec.ofNat 32 ((if s.nan then 2 ^ 31 else 0) + (if s.inf then 2 ^ 30 else 0) +
    (match s.top with | some k => 2 ^ 29 + low 16 k | none => 0))

/-- Fold elements into a state: inactive ones take no part. -/
def ExpState.fold (s : ExpState) (src : List (FVal × Bool)) : ExpState :=
  let vs := (src.filter Prod.snd).map Prod.fst
  { nan := s.nan || vs.any FVal.isNan
    inf := s.inf || vs.any (fun v => v.special && !v.isNan)
    top := maxLog s.top (maxFlog vs)
    seen := s.seen + vs.length }

/-- The exponent word of a finished row (R268). -/
def ExpState.word (s : ExpState) (slice : Bool) : Nat :=
  if s.nan then 0x7FFF else if s.inf then 0x7FFE
  else match s.top with
    | some k => low 16 (if slice then k + 1 else k)
    | none => 0

/-- The state that a CVT.EXP leaves. -/
def cvtExpState (q : Sq) (i : IWord) (slice : Bool) : ExpState :=
  let v := q.getV (i.f 49 45)
  let s0 : ExpState := if i.f 13 13 = 1 then ⟨false, false, none, 0⟩ else ExpState.ofLanes (v.lane 0) (v.lane 1)
  s0.fold (cvtSource slice (q.getV (i.f 49 45 + 1)) (q.active (i.f 22 22 = 1) (i.f 21 17)))

/-- The event that refuses a CVT.EXP (R254, R268, R271): of the planes, the rows up to j and the elements seen in its row. -/
def cvtExpCheck (c : Nat) (i : IWord) (x : QEntry) (q : Sq) : Option Nat :=
  let dej := vcDesc x i
  let u := dej.1
  match Fmt.ofCode u.fmt with
  | none => some 0x0301
  | some f =>
    let seen := (cvtExpState q i (decide (f.scheme = .slice))).seen
    if !f.scheme.hasParts || !u.ok f (dej.2.2 + 1) (max 1 seen) || decide (i.f 40 36 ≠ 0) || decide (i.f 30 23 ≠ 0) ||
        decide (65536 < seen) then some 0x0301
    else if i.f 12 12 = 1 && !inSpd c (u.sbase + 2 * dej.2.2) 2 then some 0x0302
    else none

/-- CVT.EXP. -/
def Dev.veCvtExp (d : Dev) (c : Nat) (i : IWord) (ph : Phase) : Dev :=
  d.veInstr c 0x4C i ph (legalCvtExp i) (cvtExpCheck c i) (fun x q d =>
    let dej := vcDesc x i
    let u := dej.1
    let slice := decide (u.fmt = 0x1D)
    let st := cvtExpState q i slice
    let last := decide (i.f 12 12 = 1)
    let v := ((q.getV (i.f 49 45)).set 0 st.lane0).set 1 (BitVec.ofNat 32 st.seen)
    let src := cvtSource slice (q.getV (i.f 49 45 + 1)) (q.active (i.f 22 22 = 1) (i.f 21 17))
    let fl := flagIf (src.any (fun x => x.2 && x.1.isNan) || (last && st.nan)) fNV |||
      flagIf (last && st.inf && !st.nan) fOF
    let d1 := d.veWrite c (i.f 49 45) v fl
    if last then
      let r := d1.engWrites [(u.sbase + 2 * dej.2.2, bytesOf 2 (st.word slice))]
      match r.1 with
      | some ev => r.2.veStops c ev
      | none => r.2
    else d1)

/-! ## Random bits (R162, R163, R269) -/

/-- The 32 bits of lane k (R162); a scalar operand enters by its low 32 bits, n0 before the lane is added to it (R524). -/
def vnBits (x : QEntry) (i : IWord) (k : Nat) : Nat :=
  let rk := i.f 39 35
  rand32 (x.getS rk).toNat (x.getS (rk + 1)).toNat (x.getS (rk + 2)).toNat ((x.getS (rk + 3)).toNat % 2 ^ 32 + k)

/-- The event that refuses a random-bit instruction (R162, R163, R269). -/
def vnCheck (drop pairs : Bool) (i : IWord) (x : QEntry) (q : Sq) : Option Nat :=
  let act := q.active (i.f 29 29 = 1) (i.f 28 24)
  if 28 < i.f 39 35 ∨ (x.getS (i.f 39 35 + 3)).toNat % 4 ≠ 0 then some 0x0301
  else if drop then (if 30 < i.f 34 30 then some 0x0301 else none)
  else if i.f 34 30 ≠ 0 ∨ i.f 44 40 ≠ 0 then some 0x0301
  else if pairs && (upTo 128).any (fun j => act.getD (2 * j) false != act.getD (2 * j + 1) false) then some 0x0301
  else none

/-- A random-bit instruction: `f` gives lane k its result. -/
def Dev.veRandom (d : Dev) (c op : Nat) (i : IWord) (ph : Phase) (drop pairs : Bool)
    (f : QEntry → Sq → Nat → Lane × Flags) : Dev :=
  d.veInstr c op i ph (legalVn i) (vnCheck drop pairs i) (fun x q d =>
    let act := q.active (i.f 29 29 = 1) (i.f 28 24)
    let rs := laneIds.map (fun k => if act.getD k false then f x q k else ((q.getV (i.f 49 45)).lane k, 0))
    d.veWrite c (i.f 49 45) (rs.map Prod.fst) ((rs.map Prod.snd).foldl (· ||| ·) 0))

/-- RAND. -/
def randLane (i : IWord) (x : QEntry) (_ : Sq) (k : Nat) : Lane × Flags := (BitVec.ofNat 32 (vnBits x i k), 0)

/-- RANDU. -/
def randuLane (i : IWord) (x : QEntry) (_ : Sq) (k : Nat) : Lane × Flags := laneOfExact (vnBits x i k >>> 8) (-24) false

/-- DROP. -/
def dropLane (i : IWord) (x : QEntry) (q : Sq) (k : Nat) : Lane × Flags :=
  let t := (x.getS (i.f 34 30)).toNat % 2 ^ 32
  if vnBits x i k < t then (0, 0)
  else fmul ((q.getV (i.f 44 40)).lane k) (BitVec.ofNat 32 (x.getS (i.f 34 30 + 1)).toNat)

/-- RANDN. -/
def randnLane (i : IWord) (x : QEntry) (_ : Sq) (k : Nat) : Lane × Flags :=
  let j := k / 2
  let u1 := laneOfExact ((vnBits x i (2 * j) >>> 8) + 1) (-24) false
  let v2 := laneOfExact (vnBits x i (2 * j + 1) >>> 8) (-23) false
  let lg := fnLane .log u1.1
  let m := fmul 0xC0000000 lg.1
  let t := fsqrt m.1
  let s := fnLane (if k % 2 = 0 then .cospi else .sinpi) v2.1
  let r := fmul t.1 s.1
  (r.1, lg.2 ||| m.2 ||| t.2 ||| s.2 ||| r.2)

/-! ## Stops and snapshots (R111, R172) -/

/-- The vector engine at a revocation or a prune (R172). -/
def Ve.stopped (v : Ve) : Ve := { eng := { event := v.eng.event, nextSeq := v.eng.nextSeq } }

/-- The Tempo snapshot of the vector engine at edge E (R111). -/
def Ve.snapshot (v : Ve) (e : Nat) : Ve := { v with snap := v.since, since := 0, snapTempo := e % 2 ^ 32 }

end Sys2Proof.Machine
end

