-- ==== Sys2Proof/Machine/Fetch.lean ====
section
/-! DEFINITION. The fetch engine: copies, gathers, zeroing, cancellation, poisoned arrivals (R272 to R279, R315 to R320,
R338, R339). -/
namespace Sys2Proof.Machine

/-! ## Memory of a partition -/

/-- HBM, a grove memory or a scratchpad of partition p holds the address. -/
def Dev.sramOf (d : Dev) (p a : Nat) : Bool :=
  match d.sramAt a with
  | some (u, _) => decide (d.sramPart u = p)
  | none => false

/-- The address lies in a page of HBM that partition p's map holds (R317, R361). -/
def Dev.hbmOf (d : Dev) (p a : Nat) : Bool := d.hbmMapped a && decide (d.tilePart (a / hbmTileBytes) = p)

/-- A range [lo, hi) lies in the SRAM address ranges of partition p: grove memories or scratchpads. -/
def Dev.sramRange (d : Dev) (p : Nat) (lo hi : Int) : Bool :=
  let ts := d.partTiles p
  let inside := fun (base size : Nat) =>
    ts.any (fun t => decide (((base + size * t : Nat) : Int) ≤ lo) && decide (lo < ((base + size * (t + 1) : Nat) : Int))) &&
    ts.any (fun t => decide (((base + size * t : Nat) : Int) < hi) && decide (hi ≤ ((base + size * (t + 1) : Nat) : Int)))
  decide (lo < hi) && (inside 0x020000000000 0xA000000 || inside 0x030000000000 0x9000000)

/-- Bytes that [a, a + n) has in common with [base, base + size). -/
def commonBytes (a n base size : Nat) : Nat := min (a + n) (base + size) - max a base

/-- Every byte of [a, a + n) lies in a scratchpad or in the mapped part of a grove memory of partition p (R516). -/
def Dev.sramWhole (d : Dev) (p a n : Nat) : Bool :=
  decide (((d.partClusters p).map (fun g => commonBytes a n (grvBase g) (d.bankCount (grvKey g) * 0x80000))).sum +
    ((d.partCores p).map (fun c => commonBytes a n (spdBase c) spdBytes)).sum = n)

/-- Every byte of [lo, hi) lies in HBM pages that partition p's map holds. -/
def Dev.hbmWhole (d : Dev) (p lo hi : Nat) : Bool :=
  decide (lo < hi) && decide (hi ≤ 4 * hbmTileBytes) &&
  (upTo 4).all (fun t =>
    let a := max lo (hbmTileBytes * t) - hbmTileBytes * t
    let b := min hi (hbmTileBytes * (t + 1)) - hbmTileBytes * t
    let h := d.hbmTile t
    decide (b ≤ a) || (decide (d.tilePart t = p) && decide (b ≤ h.p * hbmPcBytes) &&
      (h.retiredPages : List (Nat × Unit)).all (fun g => decide ((g.1 + 1) * 0x200000 ≤ a) || decide (b ≤ g.1 * 0x200000))))

/-- A range [lo, hi) lies in the HBM address ranges of partition p's tiles. -/
def Dev.hbmRange (d : Dev) (p : Nat) (lo hi : Int) : Bool :=
  let ts := d.partTiles p
  decide (lo < hi) && decide (0 ≤ lo) &&
  ts.any (fun t => decide (((hbmTileBytes * t : Nat) : Int) ≤ lo) && decide (lo < ((hbmTileBytes * (t + 1) : Nat) : Int))) &&
  ts.any (fun t => decide (((hbmTileBytes * t : Nat) : Int) < hi) && decide (hi ≤ ((hbmTileBytes * (t + 1) : Nat) : Int)))

/-- Errors by sector with the first k dropped. -/
def shiftErrs (k : Nat) (es : ReadErrs) : ReadErrs := es.filterMap (fun e => if k ≤ e.1 then some (e.1 - k, e.2) else none)

/-- How many of n places at the front satisfy `ok`, and how many of the others at the end. -/
def bothEnds (ok : Nat → Bool) (n : Nat) : Nat × Nat :=
  let lead := ((upTo n).takeWhile ok).length
  (lead, if lead = n then 0 else ((upTo n).reverse.takeWhile ok).length)

/-- What an agent of partition p reads of n bytes at a, all in one region of the map (R317, R380): nothing where a bank is not
ON, else the bytes. Those of unmapped or foreign pages are not read, and arrive poisoned. -/
def Dev.regionRead (d : Dev) (p a n : Nat) (es : ReadErrs) : Option (List PByte) × Dev :=
  if a < 4 * hbmTileBytes then
    let k := bothEnds (fun i => d.hbmOf p (a + i)) n
    let b := a + (n - k.2)
    let r := if k.1 = 0 then ([], d) else d.hbmRead a k.1 es
    let s := if k.2 = 0 then ([], r.2) else r.2.hbmRead b k.2 (shiftErrs (b / 64 - a / 64) es)
    (some (r.1 ++ List.replicate (n - k.1 - k.2) (0, true) ++ s.1), s.2)
  else if 0x10000000000 ≤ a ∧ a < ctxWindow 8 then
    let r := d.slowRead (some p) a n es
    (some (r.1.map (fun x => x.getD (0, true))), r.2)
  else
    let k := bothEnds (fun i => d.sramOf p (a + i)) n
    let r := d.sramRead a k.1
    let s := r.2.sramRead (a + (n - k.2)) k.2
    match r.1, s.1 with
    | .ok x, .ok y => (some (x ++ List.replicate (n - k.1 - k.2) (0, true) ++ y), s.2)
    | _, _ => (none, s.2)

/-- What an agent of partition p reads of n bytes at a: a range that runs into or out of the slow-tier windows is read in its
two parts. -/
def Dev.partRead (d : Dev) (p a n : Nat) (es : ReadErrs) : Option (List PByte) × Dev :=
  match [0x10000000000, ctxWindow 8].find? (fun b => decide (a < b) && decide (b < a + n)) with
  | none => d.regionRead p a n es
  | some b =>
    let r := d.regionRead p a (b - a) es
    let s := r.2.regionRead p b (a + n - b) (shiftErrs (cdiv (b - a) 64) es)
    match r.1, s.1 with
    | some x, some y => (some (x ++ y), s.2)
    | _, _ => (none, s.2)

/-! ## Geometry (R272, R273) -/

/-- The copy geometry of d[DG]. -/
structure CopyGeo where
  w : Nat
  line : Nat
  lines : Nat
  ss : Int
  ds : Int
  es : Int
  trn : Bool
  str : Bool
  deriving DecidableEq, Repr

/-- The geometry of an FTE.COPY entry. -/
def CopyGeo.of (i : IWord) (x : QEntry) : CopyGeo :=
  let g := x.getD' (i.f 31 28)
  let w0 := getWord 0 g
  { w := 2 ^ i.f 27 26, line := fld 31 0 w0, lines := fld 63 32 w0, ss := (getWord 1 g).toInt, ds := (getWord 2 g).toInt
    es := (getWord 3 g).toInt, trn := i.f 25 25 = 1, str := i.f 24 24 = 1 }

/-- Elements of a line. -/
def CopyGeo.ne (g : CopyGeo) : Nat := g.line / g.w

/-- Source offset of element (l, e). -/
def CopyGeo.src (g : CopyGeo) (l e : Nat) : Int := l * g.ss + (if g.str then e * g.es else (e * g.w : Nat))

/-- Destination offset of element (l, e). -/
def CopyGeo.dst (g : CopyGeo) (l e : Nat) : Int :=
  if g.trn then e * g.ds + ((l * g.w : Nat) : Int) else l * g.ds + ((e * g.w : Nat) : Int)

/-- The corners of the pattern: an affine map takes its extremes there. -/
def CopyGeo.corners (g : CopyGeo) (f : Nat → Nat → Int) : List Int :=
  [f 0 0, f (g.lines - 1) 0, f 0 (g.ne - 1), f (g.lines - 1) (g.ne - 1)]

/-- Least and greatest of a list of offsets. -/
def lo4 (l : List Int) : Int := l.foldl min (l.headD 0)
/-- The greatest. -/
def hi4 (l : List Int) : Int := l.foldl max (l.headD 0)

/-- BASE + s[R], modulo 2^64. -/
def winStart (w : Win) (x : QEntry) (r : Nat) : Nat := (w.base + (x.getS r).toNat) % 2 ^ 64

/-- Is every offset a multiple of w? -/
def mult (w : Nat) (x : Int) : Bool := decide (x % (w : Int) = 0)

/-- The event that refuses an FTE.COPY (R273, R274, R279). -/
def Dev.copyCheck (d : Dev) (c : Nat) (i : IWord) (x : QEntry) : Option Nat :=
  let g := CopyGeo.of i x
  let ws := Win.ofBits (x.getA (i.f 49 46))
  let wd := Win.ofBits (x.getA (i.f 45 42))
  let s0 := winStart ws x (i.f 41 37)
  let d0 := winStart wd x (i.f 36 32)
  if g.line = 0 || g.lines = 0 || decide (g.line % g.w ≠ 0) || !mult g.w s0 || !mult g.w d0 || !mult g.w g.ss ||
      !mult g.w g.ds || (g.str && !mult g.w g.es) ||
      (if g.trn then decide (1 < g.ne) && decide (g.ds.natAbs < g.lines * g.w)
       else decide (1 < g.lines) && decide (g.ds.natAbs < g.line)) then some 0x0401
  else
    let sl := (s0 : Int) + lo4 (g.corners g.src)
    let sh := (s0 : Int) + hi4 (g.corners g.src) + g.w
    let dl := (d0 : Int) + lo4 (g.corners g.dst)
    let dh := (d0 : Int) + hi4 (g.corners g.dst) + g.w
    if ws.remote || wd.remote || !wd.wr || !ws.holds sl sh || !wd.holds dl dh ||
        decide ((0x0F0000000000 : Int) < sh) || !d.sramRange (d.corePart c) dl dh then some 0x0402
    else none

/-- The event that refuses an FTE.GATHER (R275, R279). -/
def Dev.gatherCheck (d : Dev) (c : Nat) (i : IWord) (x : QEntry) : Option Nat :=
  let ws := Win.ofBits (x.getA (i.f 49 46))
  let wd := Win.ofBits (x.getA (i.f 45 42))
  let wi := Win.ofBits (x.getA (i.f 41 38))
  let n := (x.getS (i.f 27 23)).toNat
  let i0 := winStart wi x (i.f 37 33)
  let d0 := winStart wd x (i.f 32 28)
  if n = 0 || decide (65536 < n) || decide ((x.getS (i.f 32 28)).toNat % 32 ≠ 0) then some 0x0401
  else if ws.remote || wd.remote || wi.remote || !wd.wr || decide (4 * hbmTileBytes < ws.base + ws.len) ||
      !wi.holds i0 (i0 + 4 * n) || !inSpd c i0 (4 * n) || !wd.holds d0 (d0 + 32 * n) ||
      !d.sramRange (d.corePart c) d0 (d0 + 32 * n) then some 0x0402
  else none

/-- The event that refuses an FTE.ZERO (R276, R279). -/
def Dev.zeroCheck (d : Dev) (c : Nat) (i : IWord) (x : QEntry) : Option Nat :=
  let wd := Win.ofBits (x.getA (i.f 45 42))
  let n := (x.getS (i.f 27 23)).toNat
  let d0 := winStart wd x (i.f 36 32)
  if n = 0 || decide (n % 64 ≠ 0) || decide (d0 % 64 ≠ 0) then some 0x0401
  else if wd.remote || !wd.wr || !wd.holds d0 (d0 + n) ||
      !(d.sramRange (d.corePart c) d0 (d0 + n) || d.hbmRange (d.corePart c) d0 (d0 + n)) then some 0x0402
  else none

/-! ## Legal operand bits (R272, R277) -/

/-- FTE.COPY. -/
def legalCopy (i : IWord) (_ : Sq) : Bool := i.f 15 0 = 0
/-- FTE.GATHER. -/
def legalGather (i : IWord) (_ : Sq) : Bool := i.f 14 0 = 0
/-- FTE.ZERO. -/
def legalZero (i : IWord) (_ : Sq) : Bool :=
  decide (i.f 49 46 = 0) && decide (i.f 41 37 = 0) && decide (i.f 31 28 = 0) && decide (i.f 22 0 = 0)
/-- FTE.CANCEL. -/
def legalCancel (i : IWord) (_ : Sq) : Bool :=
  decide (i.f 49 24 = 0) && decide (i.f 14 0 = 0) && (decide (i.f 15 15 = 0) || decide (i.f 23 16 = 0))

/-! ## Requests (R273, R275, R276, R316) -/

/-- Bytes of a request of a copy or a zeroing (log entry 24). -/
def reqBytes : Nat := 64

/-- The operand bits of a queued word as an instruction. -/
def QEntry.iword (x : QEntry) : IWord := ⟨BitVec.ofNat 3 (fld 61 59 x.word), bit 58 x.word, BitVec.ofNat 50 (fld 49 0 x.word)⟩

/-- Runs of bytes that are contiguous on both sides, joined. -/
def joinPieces : List (Nat × Nat × Nat) → List (Nat × Nat × Nat)
  | [] => []
  | (s, t, n) :: r =>
    match joinPieces r with
    | (s2, t2, m) :: rest => if s2 = s + n ∧ t2 = t + n then (s, t, n + m) :: rest else (s, t, n) :: (s2, t2, m) :: rest
    | [] => [(s, t, n)]

/-- Requests in all of an entry. -/
def FteRun.count (k : FteKind) (x : QEntry) : Nat :=
  let i := x.iword
  match k with
  | .copy => let g := CopyGeo.of i x; cdiv (g.line * g.lines) reqBytes
  | .gather => (x.getS (i.f 27 23)).toNat
  | .zero => (x.getS (i.f 27 23)).toNat / 64

/-- The pieces of request k of an entry; for a gather the index has been read. -/
def fteCopyPieces (x : QEntry) (k : Nat) : List (Nat × Nat × Nat) :=
  let i := x.iword
  let g := CopyGeo.of i x
  let s0 := winStart (Win.ofBits (x.getA (i.f 49 46))) x (i.f 41 37)
  let d0 := winStart (Win.ofBits (x.getA (i.f 45 42))) x (i.f 36 32)
  let per := reqBytes / g.w
  joinPieces (((upTo per).map (fun j => k * per + j)).filterMap (fun n =>
    if n < g.ne * g.lines then
      let l := n / g.ne
      let e := n % g.ne
      some (((s0 : Int) + g.src l e).toNat, ((d0 : Int) + g.dst l e).toNat, g.w)
    else none))

/-- Does an address lie outside the clusters of core c's tile (R316)? -/
def takesPlace (c a : Nat) : Bool :=
  !((decide (0x020000000000 + 0xA000000 * tileOf c ≤ a) && decide (a < 0x020000000000 + 0xA000000 * (tileOf c + 1))) ||
    (decide (0x030000000000 + 0x9000000 * tileOf c ≤ a) && decide (a < 0x030000000000 + 0x9000000 * (tileOf c + 1))))

/-- Places of R316 in use. -/
def Fte.places (f : Fte) : Nat := (f.reqs.map (fun r => r.places)).sum

/-- Places that a request of core c takes (R316): the 64-B sectors outside its tile's clusters that it reads, and those that
it writes; the 32-B granule of a gather takes one (log entry 119). -/
def ftePlaces (c : Nat) (kind : FteKind) (ps : List (Nat × Nat × Nat)) : Nat :=
  let sectors := fun (l : List (Nat × Nat)) =>
    ((l.flatMap (fun x => (upTo (x.2 / 64 + 2)).filterMap (fun i =>
      let s := x.1 / 64 + i
      if 64 * s < x.1 + x.2 then some s else none))).eraseDups.filter (fun s => takesPlace c (64 * s))).length
  let written := sectors (ps.map (fun p => (p.2.1, p.2.2)))
  match kind with
  | .copy => sectors (ps.map (fun p => (p.1, p.2.2))) + written
  | .gather => 1 + written
  | .zero => written

/-- The source ranges of an entry, as (first, end) (R278). -/
def fteSources (k : FteKind) (x : QEntry) : List (Int × Int) :=
  let i := x.iword
  match k with
  | .copy =>
    let g := CopyGeo.of i x
    let s0 : Int := winStart (Win.ofBits (x.getA (i.f 49 46))) x (i.f 41 37)
    [(s0 + lo4 (g.corners g.src), s0 + hi4 (g.corners g.src) + g.w)]
  | .gather =>
    let i0 : Int := winStart (Win.ofBits (x.getA (i.f 41 38))) x (i.f 37 33)
    let ws := Win.ofBits (x.getA (i.f 49 46))
    [(i0, i0 + 4 * (x.getS (i.f 27 23)).toNat), ((ws.base : Int), (ws.base : Int) + ws.len)]
  | .zero => []

/-- The destination range of an entry. -/
def fteDest (k : FteKind) (x : QEntry) : Int × Int :=
  let i := x.iword
  match k with
  | .copy =>
    let g := CopyGeo.of i x
    let d0 : Int := winStart (Win.ofBits (x.getA (i.f 45 42))) x (i.f 36 32)
    (d0 + lo4 (g.corners g.dst), d0 + hi4 (g.corners g.dst) + g.w)
  | .gather =>
    let d0 : Int := winStart (Win.ofBits (x.getA (i.f 45 42))) x (i.f 32 28)
    (d0, d0 + 32 * (x.getS (i.f 27 23)).toNat)
  | .zero =>
    let d0 : Int := winStart (Win.ofBits (x.getA (i.f 45 42))) x (i.f 36 32)
    (d0, d0 + (x.getS (i.f 27 23)).toNat)

/-- Do an entry's sources meet the destination of an earlier entry that has not completed (R278)? -/
def Fte.sourceHeld (f : Fte) (k : FteKind) (x : QEntry) : Bool :=
  (fteSources k x).any (fun s => f.runs.any (fun r =>
    let t := fteDest r.kind r.entry
    decide (s.1 < t.2) && decide (t.1 < s.2)))

/-- The previous entry has still to send requests (R278). -/
def Fte.sending (f : Fte) : Bool := f.runs.any (fun r => r.next < r.total)

/-- Runs that have sent and received everything leave. -/
def Fte.settle (f : Fte) : Fte := { f with runs := f.runs.filter (fun r => r.next < r.total ∨ 0 < r.out) }

/-! ## Instructions -/

/-- A halted engine ends the entry that it was running (R134, R279): what it has sent returns unused, and counts as no
discard (R341). -/
def Fte.abortRun (f : Fte) (id : Nat) : Fte :=
  ({ f with
    runs := f.runs.map (fun y => if y.id = id then { y with total := y.next, cancelled := true } else y)
    reqs := f.reqs.map (fun y => if y.run = id ∧ ¬y.discard then { y with discard := true, silent := true } else y) } : Fte).settle

/-- The conflicts of an element-strided copy at its source (R293, R315), of the groups of 32 elements that begin in request
k. -/
def Dev.copyConflicts (d : Dev) (x : QEntry) (k : Nat) : Dev :=
  let i := x.iword
  let g := CopyGeo.of i x
  let per := reqBytes / g.w
  let s0 := winStart (Win.ofBits (x.getA (i.f 49 46))) x (i.f 41 37)
  if g.str then
    ((upTo (cdiv per 32)).map (fun j => k * per + 32 * j)).foldl (fun (d : Dev) n =>
      if n % 32 = 0 then
        d.stridedCount false (((upTo 32).map (fun e => n + e)).filterMap (fun e =>
          if e < g.ne * g.lines then some (((s0 : Int) + g.src (e / g.ne) (e % g.ne)).toNat) else none))
      else d) d
  else d

/-- The next request of the running entry is sent, behind a refused head as well (R134, R279). One that finds the engine's places taken waits, and a clk in which it
waits counts in LIMIT (R316, R343): each command that tries to send it stands for one (log entry 119). -/
def Dev.fteSend (d : Dev) (c op : Nat) (i : IWord) (kind : FteKind) : Dev :=
  let f := (d.core c).fte
  match f.runs.find? (fun r => r.next < r.total) with
  | none => d
  | some r =>
    if (f.eng.halt && !f.eng.haltHead) || decide (r.entry.word ≠ i.word 3 op) || decide (r.kind ≠ kind) then d
    else
      let mk := fun (d : Dev) (q : FteReq) =>
        if q.places ≠ 0 ∧ 512 < f.places + q.places then d.count ⟨.ftePerfWait, [c]⟩ 63 32 1
        else (if kind = .copy then d.copyConflicts r.entry r.next else d).onFte c (fun f => { f with
          reqs := f.reqs ++ [q]
          runs := f.runs.map (fun y => if y.id = r.id then { y with next := y.next + 1, out := y.out + 1 } else y) })
      match kind with
      | .copy =>
        let ps := fteCopyPieces r.entry r.next
        mk d { run := r.id, pieces := ps, places := ftePlaces c .copy ps }
      | .gather =>
        let x := r.entry
        let i0 := winStart (Win.ofBits (x.getA (i.f 41 38))) x (i.f 37 33) + 4 * r.next
        let ws := Win.ofBits (x.getA (i.f 49 46))
        let dst := winStart (Win.ofBits (x.getA (i.f 45 42))) x (i.f 32 28) + 32 * r.next
        let q := d.sramRead i0 4
        match q.1 with
        | .off => (q.2.onFte c (fun f => f.abortRun r.id)).engHalts c 3 (offEvent i0) false
        | .ok bs =>
          let src := ws.base + 32 * natOfBytes (plain bs)
          if anyPoison bs || !ws.holds src (src + 32) then
            mk q.2 { run := r.id, pieces := [(0, dst, 32)], poisoned := true, places := ftePlaces c .zero [(0, dst, 32)] }
          else mk q.2 { run := r.id, pieces := [(src, dst, 32)], places := ftePlaces c .gather [(src, dst, 32)] }
      | .zero =>
        let x := r.entry
        let dst := winStart (Win.ofBits (x.getA (i.f 45 42))) x (i.f 36 32) + 64 * r.next
        mk d { run := r.id, pieces := [(0, dst, 64)], places := ftePlaces c .zero [(0, dst, 64)] }

/-- An instruction of the fetch queue: its issue, its beginning, the sending of its next request. -/
def Dev.fteInstr (d : Dev) (c op : Nat) (i : IWord) (ph : Phase) (kind : FteKind) (legal : Sq → Bool)
    (check : Dev → QEntry → Option Nat) (tag : Nat) : Dev :=
  match ph with
  | .issue => d.engIssue c 3 op 3 i legal
  | .begin =>
    match d.engHead c 3 (i.word 3 op) with
    | none => d
    | some x =>
      match check d x with
      | some ev => d.engHalts c 3 ev true
      | none =>
        let f := (d.core c).fte
        if f.sending || f.sourceHeld kind x then d
        else
          (d.onEng c 3 (fun g => { g with queue := g.queue.drop 1, nextSeq := g.nextSeq + 1 })).onFte c (fun f =>
            ({ f with runs := f.runs ++ [⟨f.eng.nextSeq - 1, kind, x, tag, FteRun.count kind x, 0, 0, false, []⟩] } : Fte))
  | .row => d.fteSend c op i kind

/-- FTE.COPY. -/
def Dev.fteCopy (d : Dev) (c : Nat) (i : IWord) (ph : Phase) : Dev :=
  d.fteInstr c 1 i ph .copy (legalCopy i) (fun d x => d.copyCheck c i x) (i.f 23 16)

/-- FTE.GATHER. -/
def Dev.fteGather (d : Dev) (c : Nat) (i : IWord) (ph : Phase) : Dev :=
  d.fteInstr c 2 i ph .gather (legalGather i) (fun d x => d.gatherCheck c i x) (i.f 22 15)

/-- FTE.ZERO. -/
def Dev.fteZero (d : Dev) (c : Nat) (i : IWord) (ph : Phase) : Dev :=
  d.fteInstr c 3 i ph .zero (legalZero i) (fun d x => d.zeroCheck c i x) 0

/-- Is a queued entry a COPY or GATHER that a cancellation takes (R277)? -/
def cancels (all : Bool) (tag : Nat) (x : QEntry) : Bool :=
  decide (fld 63 62 x.word = 3) &&
  ((decide (fld 57 50 x.word = 1) && (all || decide (fld 23 16 x.word = tag))) ||
   (decide (fld 57 50 x.word = 2) && (all || decide (fld 22 15 x.word = tag))))

/-- Cancel (R277): queued entries leave, unsent requests are dropped, sent ones will be discarded. -/
def Fte.cancel (f : Fte) (all : Bool) (tag : Nat) : Fte :=
  let hit := fun (r : FteRun) => decide (r.kind ≠ .zero) && (all || decide (r.tag = tag))
  let ids := (f.runs.filter hit).map (fun r => r.id)
  let lead := match f.eng.queue with
    | x :: _ => cancels all tag x
    | [] => false
  ({ f with
    eng := { f.eng with
      queue := f.eng.queue.filter (fun x => !cancels all tag x), haltHead := f.eng.haltHead && !lead }
    runs := f.runs.map (fun r => if hit r then { r with total := r.next, cancelled := true } else r)
    reqs := f.reqs.map (fun q => if ids.contains q.run then { q with discard := true } else q) } : Fte).settle

/-- FTE.CANCEL: it acts at its issue and takes no queue entry (R277). -/
def Dev.fteCancel (d : Dev) (c : Nat) (i : IWord) : Dev :=
  d.sqIssue c 3 4 i (legalCancel i) (fun d => d.sqNext c) (fun d =>
    if d.engClock c 3 ≠ 2 then d.sqRefuse c 0x0507
    else (d.onFte c (fun f => f.cancel (i.f 15 15 = 1) (i.f 23 16))).sqNext c)

/-! ## Returns (R317, R318) -/

/-- What a request's pieces bring (R317): the destination bytes in the order of the pieces, or the event of a bank that is not
ON. Errors are named by 16 × piece + sector. -/
def Dev.fteFetch (d : Dev) (p : Nat) (es : ReadErrs) : List (Nat × Nat × Nat) → Except Nat (List (Nat × PByte)) × Dev
  | [] => (.ok [], d)
  | pc :: rest =>
    let r := d.partRead p pc.1 pc.2.2 es
    match r.1 with
    | none => (.error (offEvent pc.1), r.2)
    | some bs =>
      let x := r.2.fteFetch p (shiftErrs 16 es) rest
      (match x.1 with
       | .error e => .error e
       | .ok l => .ok ((upTo bs.length).zip bs |>.map (fun y => (pc.2.1 + y.1, y.2)) |>.append l), x.2)

/-- The first outstanding gather request of partition p's cores for the granule at `src`: its core and place. -/
def Dev.granuleWanted (d : Dev) (p src : Nat) : Option (Nat × Nat) :=
  (upTo 384).findSome? (fun c =>
    let f := (d.core c).fte
    if d.corePart c = p then
      (f.reqs.findIdx? (fun q => !q.discard && !q.poisoned && q.got.isNone && (q.pieces.map (fun x => (x.1, x.2.2)) == [(src, 32)]) &&
        f.runs.any (fun r => decide (r.id = q.run) && decide (r.kind = .gather)))).map (fun k => (c, k))
    else none)

/-- What the gather path brings of a granule (R275, R358): the sector is read whole, and serves an outstanding request for its
other half as well (log entry 124). A request that such a read has served reads nothing. -/
def Dev.granuleFetch (d : Dev) (p : Nat) (es : ReadErrs) (q : FteReq) : Except Nat (List (Nat × PByte)) × Dev :=
  match q.got, q.pieces with
  | some bs, [pc] => (.ok ((upTo 32).zip bs |>.map (fun y => (pc.2.1 + y.1, y.2))), d)
  | none, [pc] =>
    if pc.1 % 32 = 0 ∧ d.hbmOf p pc.1 then
      let r := d.hbmRead (pc.1 / 64 * 64) 64 es
      let half := fun (a : Nat) => (r.1.drop (a % 64)).take 32
      let other := pc.1 / 64 * 64 + (32 - pc.1 % 64)
      let d1 := match r.2.granuleWanted p other with
        | some (c, k) => r.2.onFte c (fun f => { f with reqs := f.reqs.modify k (fun q => { q with got := some (half other) }) })
        | none => r.2
      (.ok ((upTo 32).zip (half pc.1) |>.map (fun y => (pc.2.1 + y.1, y.2))), d1)
    else d.fteFetch p es q.pieces
  | _, _ => d.fteFetch p es q.pieces

/-- Destination bytes as runs at consecutive addresses. -/
def byteRuns : List (Nat × PByte) → List (Nat × List PByte)
  | [] => []
  | (a, b) :: r =>
    match byteRuns r with
    | (t, bs) :: rest => if t = a + 1 then (a, b :: bs) :: rest else (a, [b]) :: (t, bs) :: rest
    | [] => [(a, [b])]

/-- Destination bytes land run by run: those of an HBM page that the map no longer holds are not written. The bytes written,
with their addresses, and the event of a bank that is not ON. -/
def Dev.fteWrite (d : Dev) : List (Nat × List PByte) → List (Nat × PByte) × Option Nat × Dev
  | [] => ([], none, d)
  | (a, bs) :: rest =>
    let here := (upTo bs.length).zip bs |>.map (fun x => (a + x.1, x.2))
    if a < 4 * hbmTileBytes then
      let x := (if d.hbmMapped a then d.hbmWrite a bs [] else d).fteWrite rest
      ((if d.hbmMapped a then here else []) ++ x.1, x.2)
    else
      let w := d.sramWrite a bs
      if w.1 then
        let x := w.2.fteWrite rest
        (here ++ x.1, x.2)
      else ([], some (offEvent a), w.2)

/-- The bytes of a request land (R317, R340, R341): a destination word counts as poisoned once for its entry. -/
def Dev.fteLand (d : Dev) (c run : Nat) (bs : List (Nat × PByte)) : Option Nat × Dev :=
  let w := d.fteWrite (byteRuns (sortBy (fun x => x.1) bs))
  let old := match (d.core c).fte.runs.find? (fun r => r.id = run) with
    | some r => r.pois
    | none => []
  let bad := ((w.1.filter (fun x => x.2.2)).map (fun x => x.1 / 8)).eraseDups.filter (fun k => !NSet.has old k)
  let d1 := w.2.2.count ⟨.ftePerfDeliv, [c]⟩ 63 0 w.1.length
  (w.2.1, (d1.onFte c (fun f => { f with runs := f.runs.map (fun r =>
    if r.id = run then { r with pois := bad.foldl NSet.add r.pois } else r) })).count ⟨.ftePerfLoss, [c]⟩ 63 32 bad.length)

/-- An earlier request still has to write a byte of this one's destination (R278). -/
def fteOrdered (earlier : List FteReq) (q : FteReq) : Bool :=
  q.pieces.all (fun p => earlier.all (fun r => r.run = q.run || r.discard ||
    r.pieces.all (fun s => !overlap p.2.1 p.2.2 s.2.1 s.2.2)))

/-- A request to an address waits: at its HBM controller, or while Neano's clock stands at a slow-tier window (R560). -/
def Dev.memHeld (d : Dev) (a : Nat) : Bool :=
  d.hbmHeld a || (decide (0x10000000000 ≤ a) && decide (a < ctxWindow 8) && d.lost 32)

/-- FTE_REQUEST_RETURN: request k of those outstanding returns and lands, or is discarded. One that waits at its memory, or
that meets a mesh stop that cannot be reached (R438, log entry 82), does not return. -/
def Dev.fteReturn (d : Dev) (c k : Nat) (es : ReadErrs) : Dev :=
  let f := (d.core c).fte
  match f.reqs[k]? with
  | none => d
  | some q =>
    let kind := match f.runs.find? (fun r => r.id = q.run) with
      | some r => r.kind
      | none => .copy
    let far := fun (a : Nat) => d.memHeld a || d.cutFrom (clusterOf c) a
    let hold := q.pieces.any (fun p => (decide (kind ≠ .zero) && !q.poisoned && q.got.isNone && far p.1) || far p.2.1)
    if !q.discard && (hold || !fteOrdered (f.reqs.take k) q) then d
    else
      let taken := fun (d : Dev) => d.onFte c (fun f => ({ f with
        reqs := f.reqs.take k ++ f.reqs.drop (k + 1)
        runs := f.runs.map (fun r => if r.id = q.run then { r with out := r.out - 1 } else r) } : Fte).settle)
      if q.discard then
        let d1 := taken d
        if q.silent then d1 else d1.count ⟨.ftePerfLoss, [c]⟩ 31 0 (cdiv ((q.pieces.map (fun p => p.2.2)).sum) 32)
      else
        let fill := fun (b : Bool) => q.pieces.flatMap (fun p => (upTo p.2.2).map (fun i => (p.2.1 + i, ((0, b) : PByte))))
        let r : Except Nat (List (Nat × PByte)) × Dev :=
          if q.poisoned then (.ok (fill true), d)
          else if kind = .zero then (.ok (fill false), d)
          else if kind = .gather then d.granuleFetch (d.corePart c) es q
          else d.fteFetch (d.corePart c) es q.pieces
        let l : Option Nat × Dev := match r.1 with
          | .error ev => (some ev, r.2)
          | .ok bs => r.2.fteLand c q.run bs
        match l.1 with
        | none => taken l.2
        | some ev => ((taken l.2).onFte c (fun f => f.abortRun q.run)).engHalts c 3 ev false

/-- The fetch engine at a prune, a stop of the core or a revocation: the queue is discarded, sent requests return and are
discarded (R319). -/
def Fte.stopped (f : Fte) : Fte :=
  ({ f with
    eng := { event := f.eng.event, nextSeq := f.eng.nextSeq }
    runs := f.runs.map (fun r => { r with total := r.next, cancelled := true })
    reqs := f.reqs.map (fun q => { q with discard := true }) } : Fte).settle

/-- FTE_STATUS (R339). -/
def Fte.status (f : Fte) : Word :=
  putBit 0 (!f.runs.isEmpty || !f.reqs.isEmpty || f.eng.waitReq.isSome || !f.eng.sigs.isEmpty) ||| putBit 1 f.eng.halt ||| put 13 8 f.eng.queue.length |||
  put 25 16 f.places ||| put 63 48 f.eng.event

end Sys2Proof.Machine
end

