-- ==== Sys2Proof/Machine/Cvu.lean ====
section
/-! DEFINITION. Check-value units and the Hub's counter generator (R512 to R527). Unit n is 2g + u for unit u of cluster g,
and 32 + q for the unit of port q. -/
namespace Sys2Proof.Machine

/-- A register of unit n: `k` of a cluster unit, `p` of a port unit (R522). -/
def cvuReg (n : Nat) (k p : RK) : Reg := if n < 32 then ⟨k, [n / 2, n % 2]⟩ else ⟨p, [n - 32]⟩

/-- Unit n's stream. -/
def Dev.cvu (d : Dev) (n : Nat) : Cvu := FMap.getD d.cvus n {}

/-- Change it. -/
def Dev.onCvu (d : Dev) (n : Nat) (f : Cvu → Cvu) : Dev :=
  { d with cvus := FMap.set d.cvus {} n (f (d.cvu n)) }

/-- CVU_CFG of unit n. -/
def Dev.cvuCfgWord (d : Dev) (n : Nat) : Word := d.reg (cvuReg n .cvuCfg .pcvuCfg)

/-- The step's setting (R513). -/
def Dev.cvuSetting (d : Dev) (n : Nat) : CrcCfg :=
  let v := d.cvuCfgWord n
  ⟨fld 6 0 v, (d.reg (cvuReg n .cvuPoly .pcvuPoly)).toNat, bit 7 v, bit 8 v, bit 9 v⟩

/-- WIDTH or FOLD is not usable (R514, R515). -/
def Dev.cvuBad (d : Dev) (n : Nat) : Bool :=
  let v := d.cvuCfgWord n
  decide (fld 6 0 v = 0) || decide (64 < fld 6 0 v) || decide (fld 11 10 v = 3)

/-- A stream holds the unit; a port unit is busy while SRC selects a direction (R517, R519). -/
def Dev.cvuBusy (d : Dev) (n : Nat) : Bool :=
  (d.cvu n).feeding || (d.cvu n).byDma ||
  (decide (32 ≤ n) && (decide (fld 13 12 (d.cvuCfgWord n) = 1) || decide (fld 13 12 (d.cvuCfgWord n) = 2)))

/-- An event of unit n: recorded and raised for the cluster's partition. -/
def Dev.cvuEvent (d : Dev) (n code : Nat) : Dev :=
  (d.onCvu n (fun x => { x with event := code })).raise code
    (if n < 32 then some (d.clusterPart (n / 2)) else none) (if n < 32 then n / 2 else n - 32)

/-- The low W bits of a word (R513); all of it while WIDTH is 0 or above 64. -/
def Dev.cvuMask (d : Dev) (n : Nat) (v : Word) : Word :=
  let w := (d.cvuSetting n).w
  if w = 0 ∨ 64 < w then v else BitVec.ofNat 64 (v.toNat % 2 ^ w)

/-- The state masked to its width. -/
def Dev.cvuState (d : Dev) (n : Nat) : Nat :=
  (d.reg (cvuReg n .cvuState .pcvuState)).toNat % 2 ^ (d.cvuSetting n).w

/-- CVU_RESULT (R513); free while WIDTH is 0 or above 64 (log entry 86). -/
def Dev.cvuResult (d : Dev) (n : Nat) : Word :=
  let w := (d.cvuSetting n).w
  if w = 0 ∨ 64 < w then
    Config.cvuResult (d.cvuCfgWord n) (d.reg (cvuReg n .cvuPoly .pcvuPoly)) (d.reg (cvuReg n .cvuState .pcvuState))
  else BitVec.ofNat 64 (crcResult (d.cvuSetting n) (d.cvuState n))

/-- Data bytes with the fold words of mode 1 before each byte whose position is a multiple of 64 (R515). -/
def foldStream (fold base : Nat) (pos : Nat) : List Byte → List Nat
  | [] => []
  | b :: bs =>
    (if fold = 1 ∧ pos % 64 = 0 then (bytesOf 8 ((base + pos) % 2 ^ 64)).map BitVec.toNat else []) ++
    b.toNat :: foldStream fold base ((pos + 1) % 2 ^ 64) bs

/-- Process data bytes (R513, R515). -/
def Dev.cvuBytes (d : Dev) (n : Nat) (bs : List Byte) : Dev :=
  let pr := cvuReg n .cvuPos .pcvuPos
  let pos := (d.reg pr).toNat
  let st := crcBytes (d.cvuSetting n) (d.cvuState n)
    (foldStream (fld 11 10 (d.cvuCfgWord n)) (d.reg (cvuReg n .cvuFoldBase .pcvuFoldBase)).toNat pos bs)
  (d.setReg (cvuReg n .cvuState .pcvuState) (BitVec.ofNat 64 st)).setReg pr (BitVec.ofNat 64 (pos + bs.length))

/-- The start of a feed or of a DMA descriptor: mode 2 processes SEQ and advances it (R515). A packet is neither. -/
def Dev.cvuBegin (d : Dev) (n : Nat) : Dev :=
  if fld 11 10 (d.cvuCfgWord n) = 2 then
    let sr := cvuReg n .cvuSeq .pcvuSeq
    let s := (d.reg sr).toNat
    let st := crcBytes (d.cvuSetting n) (d.cvuState n) ((bytesOf 8 s).map BitVec.toNat)
    (d.setReg (cvuReg n .cvuState .pcvuState) (BitVec.ofNat 64 st)).setReg sr (BitVec.ofNat 64 (s + 1))
  else d

/-- CVU_FEED_START: a write of CVU_FEED_LEN of a cluster unit (R516, R517). -/
def Dev.cvuFeedStart (d : Dev) (ag : Agent) (n len : Nat) : Dev :=
  if 32 ≤ n then d
  else if d.cvuBusy n then d.cvuEvent n 0x0D04
  else if d.cvuBad n then d.cvuEvent n 0x0D01
  else
    let a := d.regFld (cvuReg n .cvuFeedAddr .pcvuFeedAddr) 47 0
    let p := d.clusterPart (n / 2)
    if !d.sramWhole p a len then d.cvuEvent n 0x0D02
    else (d.cvuBegin n).onCvu n (fun x => { x with feeding := true, left := len, addr := a, owner := ag.owner })

/-- Bytes before the first poisoned word of a range that begins at a. -/
def beforePoison (a : Nat) (bs : List PByte) : List Byte :=
  match bs.findIdx? (fun b => b.2) with
  | none => plain bs
  | some i => plain (bs.take ((a + i) / 8 * 8 - a))

/-- The feed processes up to k further bytes; whether it met a poisoned word (R516). A word in a bank that is not ON ends it
like a poisoned one (log entry 25). -/
def Dev.cvuRun (d : Dev) (n k : Nat) : Bool × Dev :=
  let x := d.cvu n
  let m := min k x.left
  let r := d.sramRead x.addr m
  match r.1 with
  | .off =>
    let good := ((upTo m).takeWhile (fun i => d.bankOn (x.addr + i))).length
    let bs := beforePoison x.addr (match (d.sramRead x.addr good).1 with | .ok b => b | .off => [])
    (true, (r.2.cvuBytes n bs).onCvu n (fun y => { y with left := y.left - bs.length, addr := y.addr + bs.length }))
  | .ok bs =>
    let good := beforePoison x.addr bs
    (decide (good.length < m), (r.2.cvuBytes n good).onCvu n (fun y =>
      { y with left := y.left - good.length, addr := y.addr + good.length }))

/-- The unit is released. -/
def Dev.cvuFree (d : Dev) (n : Nat) : Dev :=
  d.onCvu n (fun y => { y with feeding := false, byDma := false, left := 0, addr := 0, owner := 0x1FF })

/-- CVU_FEED_DONE: the rest of the feed is processed, to its last byte or to a poisoned word. -/
def Dev.cvuFeedDone (d : Dev) (n : Nat) : Dev :=
  if (d.cvu n).feeding then
    let r := d.cvuRun n (d.cvu n).left
    let d1 := r.2.cvuFree n
    if r.1 then d1.cvuEvent n 0x0D03 else d1
  else d

/-- CVU_ABORT: a feed ends after the 256-B step in progress; `steps` have been processed (R517). -/
def Dev.cvuAbort (d : Dev) (n steps : Nat) : Dev :=
  if (d.cvu n).feeding then
    let r := d.cvuRun n (256 * steps)
    let d1 := r.2.cvuFree n
    if r.1 then d1.cvuEvent n 0x0D03 else d1
  else d

/-- A prune of core c, or a revocation, ends a feed as CTRL.ABORT does; how many of its steps, the last one shorter where 256
does not divide the rest, it has processed is open. -/
def Dev.cvuStop (d : Dev) (n : Nat) : Dev :=
  if (d.cvu n).feeding then d.tick.cvuAbort n ((Config.freeWord d.fresh).toNat % (cdiv (d.cvu n).left 256 + 1)) else d

/-- Feeds written by core c are aborted (R517). -/
def Dev.cvuPrune (d : Dev) (c : Nat) : Dev :=
  (upTo 32).foldl (fun (d : Dev) n => if (d.cvu n).owner = c then d.cvuStop n else d) d

/-- CVU_INIT: STATE := INIT, POS := 0, refused while busy (R517). The bits of INIT at or above W are ignored (R513); a WIDTH that
gives no W takes them all. -/
def Dev.cvuInit (d : Dev) (n : Nat) : Dev :=
  if d.cvuBusy n then d.cvuEvent n 0x0D04
  else (d.setReg (cvuReg n .cvuState .pcvuState) (d.cvuMask n (d.reg (cvuReg n .cvuInit .pcvuInit)))).setReg (cvuReg n .cvuPos .pcvuPos) 0

/-- Every register of a cluster unit returns to its reset value (R520). -/
def Dev.cvuReset (d : Dev) (n : Nat) : Dev :=
  let rs : List RK := [.cvuCfg, .cvuPoly, .cvuInit, .cvuState, .cvuPos, .cvuFoldBase, .cvuSeq, .cvuFeedAddr]
  { rs.foldl (fun (d : Dev) k => let r : Reg := ⟨k, [n / 2, n % 2]⟩; d.setReg r r.resetVal) d with
    cvus := FMap.remove d.cvus n }

/-- CVU_FEED_LEN as read: the bytes remaining. -/
def Dev.cvuFeedLen (d : Dev) (n : Nat) : Word := put 39 0 (d.cvu n).left

/-- CVU_STATUS. -/
def Dev.cvuStatus (d : Dev) (n : Nat) : Word :=
  putBit 0 (d.cvuBusy n) ||| putBit 1 (d.cvu n).byDma ||| put 63 48 (d.cvu n).event

/-- A port unit folds the payload of a packet (R519). `dir`: 1 transmitted, 2 received. -/
def Dev.cvuPacket (d : Dev) (q dir vc : Nat) (payload : List Byte) : Dev :=
  let n := 32 + q
  let v := d.cvuCfgWord n
  if fld 13 12 v = dir ∧ fld 15 14 v = vc then
    if d.cvuBad n then d.cvuEvent n 0x0D01 else d.cvuBytes n payload
  else d

/-! ## Folds of DMA descriptors (R515 to R517) -/

/-- A descriptor takes the unit. -/
def Dev.cvuDmaStart (d : Dev) (n : Nat) : Dev := (d.cvuBegin n).onCvu n (fun x => { x with byDma := true })

/-- Moved bytes are folded up to the first poisoned one; whether one was met. -/
def Dev.cvuDmaFold (d : Dev) (n : Nat) (bs : List PByte) : Bool × Dev :=
  let good := bs.takeWhile (fun b => !b.2)
  let d1 := d.cvuBytes n (plain good)
  if good.length < bs.length then (true, d1.cvuEvent n 0x0D03) else (false, d1)

/-! ## The Hub's counter generator (R527) -/

/-- CG_EVALUATE: a write of CG_CTR1 starts an evaluation of KEY, CTR0 and the value written. -/
def Dev.cgWrite (d : Dev) (v : Word) : Dev :=
  let o := cgEval ((d.reg ⟨.cgCtr0, []⟩).toNat + v.toNat <<< 64) (d.reg ⟨.cgKey, []⟩).toNat
  ((d.setReg ⟨.cgCtr1, []⟩ v).setReg ⟨.cgOut0, []⟩ (BitVec.ofNat 64 o)).setReg ⟨.cgOut1, []⟩ (BitVec.ofNat 64 (o >>> 64))

end Sys2Proof.Machine
end

