-- ==== Sys2Proof/Machine/Dvo.lean ====
section
/-! DEFINITION. Darvo ports, links, routing, credits and the tile meshes (R413 to R450). Packets for the device itself are
handed to their units in Net.lean. -/
namespace Sys2Proof.Machine

/-! ## Cells (R424, R427, R431) -/

/-- Cells of one member for a VC (R424). -/
def vcCells (vc : Nat) : Nat :=
  match vc with
  | 0 => 64
  | 3 => 128
  | _ => 3072

/-- Key of a VC and class. -/
def clsKey (vc : Nat) (dl : Bool) : Nat := 2 * (vc % 4) + (if dl then 1 else 0)

/-- Key of a packet. -/
def Packet.key (p : Packet) : Nat := clsKey p.vc p.dl

/-- Cells of a packet (R431). -/
def Packet.cells (p : Packet) : Nat := cdiv (16 + p.payload.length) 64

/-- What one class may hold of n cells: all but the eighth that is reserved to the other class (R427). -/
def classCap (n : Nat) : Nat := n - n / 8

/-- Our own capacity for a key on link l (R431). -/
def Dev.ownCap (d : Dev) (l key : Nat) : Nat := classCap ((d.upMembers l).length * vcCells (key / 2))

/-- Is there a free cell for a packet in the receive buffer of link l? -/
def Dev.rxFits (d : Dev) (l : Nat) (p : Packet) : Bool :=
  let u := (d.link l).used
  let total := (d.upMembers l).length * vcCells (p.vc % 4)
  let k := p.key
  decide (FMap.getD u k 0 + p.cells ≤ classCap total) &&
  decide (FMap.getD u (2 * (k / 2)) 0 + FMap.getD u (2 * (k / 2) + 1) 0 + p.cells ≤ total)

/-- Cells leave the receive buffer of link l: FREED counts them and a credit return travels on the lowest-numbered UP member
(R431). -/
def Dev.cellsFree (d : Dev) (l key n : Nat) : Dev :=
  let d1 := d.onLink l (fun x => { x with
    used := FMap.set x.used 0 key (FMap.getD x.used key 0 - n)
    freed := FMap.set x.freed 0 key ((FMap.getD x.freed key 0 + n) % 2 ^ 32) })
  match d.upMembers l with
  | [] => d1
  | q :: _ => d1.out (.sent 0x201 [q, l, key / 2, key % 2, n])

/-- Free the cells that a queued packet holds. -/
def Dev.originFree (d : Dev) (x : QPkt) : Dev :=
  match x.origin with
  | some (l, key, n) => d.cellsFree l key n
  | none => d

/-! ## States of a port (R420 to R422, R434, R435) -/

/-- A packet that holds cells of link l holds none any more. -/
def QPkt.written (l : Nat) (x : QPkt) : QPkt :=
  match x.origin with
  | some (k, _, _) => if k = l then { x with origin := none } else x
  | none => x

/-- A link that lost its last UP member clears its credits (R433); packets of its receive buffer, wherever they wait, are
written off. -/
def Dev.linkLost (d : Dev) (l : Nat) : Dev :=
  let d1 := d.onLink l (fun x => { x with sent := [], freed := [], avail := [], cap := [], used := [], dead := true })
  let d2 : Dev := { d1 with
    links := d1.links.map (fun e => (e.1, { e.2 with txq := e.2.txq.map (QPkt.written l) }))
    redHeld := d1.redHeld.map (QPkt.written l) }
  (upTo 24).foldl (fun (d : Dev) q => if d.portLink q = l then d.onPort q (fun x => { x with counted := false }) else d) d2

/-- A member has left UP: its unacknowledged packets are replayed on the others (R420); one that carried and was the last ends
the link. -/
def Dev.memberDown (d : Dev) (q : Nat) (carried : Bool) : Dev :=
  let l := d.portLink q
  let d1 := d.portEvent q 0x0C01
  if 24 ≤ l then d1
  else
    let d2 := d1.onLink l (fun x => { x with
      resend := (x.unacked.filter (fun u => u.port = q || x.resend.contains u.seq)).map (fun u => u.seq) })
    if carried ∧ (d2.upMembers l).isEmpty then (d2.linkLost l).mirrorLost else d2

/-- The delay measurements of a port start again: VALID counts those since its link was trained (R67). -/
def Dev.delaysClear (d : Dev) (q : Nat) : Dev :=
  (d.onPort q (fun x => { x with delays := [] })).setRegFld ⟨.tmpPortDelay, [q]⟩ 63 63 0

/-- A port changes to a state other than UP. A graft that waits for its partner goes on waiting while the port trains (R422). -/
def Dev.portLeave (d : Dev) (q : Nat) (st : PortState) : Dev :=
  let was := d.port q
  let d0 := d.onPort q (fun x => { x with
    st := st, lost := none
    hold := x.hold && !(st = .off || st = .failed || st = .quarantine)
    peerGraft := x.peerGraft && !(st = .off || st = .failed || st = .quarantine) })
  let d1 := if st = .lock ∨ st = .detect ∨ st = .off then d0.delaysClear q else d0
  if was.st = .up then d1.memberDown q was.carries else d1

/-- A port becomes FAILED and the fault is reported (R422). -/
def Dev.portFail (d : Dev) (q : Nat) : Dev :=
  let d1 := (d.portLeave q .failed).onPort q (fun x => { x with event := 0x0C04, due := .reported })
  d1.faultDevice 0x0C04 q d1.ownedParts [.port q]

/-- Training or a retrain took too long (R421, R422). -/
def Dev.trainFail (d : Dev) (q : Nat) : Dev :=
  let d1 := d.onPort q (fun x => { x with fails := x.fails + 1 })
  if 2 ≤ (d1.port q).fails then d1.portFail q else d1.portLeave q .detect

/-- A port enters RETRAIN; the fourth entry in a count window fails it (R421, R422). -/
def Dev.portRetrain (d : Dev) (q : Nat) : Dev :=
  let d1 := (d.onPort q (fun x => { x with
    back := decide (x.st = .up), pass := .coeffs, retrains := satAdd 8 x.retrains 1, winRetrain := x.winRetrain + 1 })).portEvent q 0x0C03
  let d2 := d1.portLeave q .retrain
  if 4 ≤ (d2.port q).winRetrain then d2.portFail q else d2

/-- A port is quarantined (R434). -/
def Dev.portQuarantine (d : Dev) (q code : Nat) : Dev :=
  let d1 := ((d.setRegFld ⟨.dvoPortViol, [q]⟩ 43 40 code).onPort q (fun x => { x with qcause := code })).portEvent q 0x0C07
  let d2 := if code = 10 then d1.portEvent q 0x0C08 else if code = 11 then d1.portEvent q 0x0C09 else d1
  d2.portLeave q .quarantine

/-- A violation of a partner (R434, R450). -/
def Dev.violate (d : Dev) (q code : Nat) : Dev :=
  let r : Reg := ⟨.dvoPortViol, [q]⟩
  let d1 := d.setRegFld r 43 40 code
  if code ≤ 6 then
    let d2 := if code ≤ 4 then d1.count r 15 0 1 else d1.count r 31 16 1
    if (d2.port q).violTempo = some d2.tempo then d2
    else (d2.portEvent q 0x0C07).onPort q (fun x => { x with violTempo := some d.tempo })
  else if code ≤ 9 then
    let d2 := (d1.count r 39 32 1).onPort q (fun x => { x with
      winViol := x.winViol + 1, winCell := if code = 9 then x.winCell + 1 else x.winCell })
    if 4 ≤ (d2.port q).winViol then d2.portQuarantine q 12
    else if code = 9 ∧ 2 ≤ (d2.port q).winCell then d2.portQuarantine q 9
    else (d2.portEvent q 0x0C07).portRetrain q
  else d1.portQuarantine q code

/-- A port enters UP or STANDBY: TRAIN_FAILS returns to 0; an UP member's cells come in (R421, R431). -/
def Dev.portEnter (d : Dev) (q : Nat) (up : Bool) : Dev :=
  let x := d.port q
  let l := d.portLink q
  let d1 := d.onPort q (fun x => { x with st := if up then .up else .standby, fails := 0 })
  if up ∧ l < 24 ∧ !x.counted ∧ !x.hold then
    let add := fun (m : FMap Int) => (upTo 8).foldl (fun (m : FMap Int) k =>
      FMap.set m 0 k (FMap.getD m k 0 + (x.caps.getD k 0 : Nat))) m
    let addN := fun (m : FMap Nat) => (upTo 8).foldl (fun (m : FMap Nat) k =>
      FMap.set m 0 k (FMap.getD m k 0 + x.caps.getD k 0)) m
    (d1.onPort q (fun x => { x with counted := true })).onLink l (fun k => { k with
      avail := add k.avail, cap := addN k.cap, dead := false })
  else d1

/-- A transition from one state to another; in any other state, and while the port's clock stands (R560), the command finds nothing
to do. -/
def Dev.portStep (d : Dev) (q : Nat) (st : PortState) (f : Dev → Dev) : Dev :=
  if d.portRuns q ∧ (d.port q).st = st then f d else d

/-- PORT_SIGNAL_DETECT (R421). -/
def Dev.portSignal (d : Dev) (q : Nat) : Dev := d.portStep q .detect (fun d => d.portLeave q .train)

/-- PORT_TRAIN_DONE (R421). -/
def Dev.portTrained (d : Dev) (q : Nat) : Dev := d.portStep q .train (fun d => d.portLeave q .lock)

/-- PORT_TRAIN_TIMEOUT (R421). -/
def Dev.portTrainTimeout (d : Dev) (q : Nat) : Dev := d.portStep q .train (fun d => d.trainFail q)

/-- The port tells its identity (R421). -/
def Dev.identSend (d : Dev) (q : Nat) : Dev :=
  d.out (.sent 0x205 [d.ownId, q, d.portLink q, d.regFld ⟨.dvoPortCfg, [q]⟩ 9 7, d.portRole q])

/-- PORT_ALIGN_DONE (R421): the port enters IDENT and sends its identity; a port in RETRAIN passes LOCK and does the same. -/
def Dev.portAligned (d : Dev) (q : Nat) : Dev :=
  if !d.portRuns q then d
  else match (d.port q).st, (d.port q).pass with
  | .lock, _ => (d.portLeave q .ident).identSend q
  | .retrain, .coeffs => ((d.delaysClear q).onPort q (fun x => { x with pass := .ident })).identSend q
  | _, _ => d

/-- The partner of the other members of a port's link, when one has told it (R434 code 11). -/
def Dev.linkPeer (d : Dev) (q : Nat) : Option Nat :=
  ((upTo 24).find? (fun r => r ≠ q && decide (d.portLink r = d.portLink q) &&
    [PortState.credit, .up, .standby, .retrain].contains (d.port r).st)).map (fun r => (d.port r).peer)

/-- The identity that a partner tells is taken and checked (R421, R434); `go`: what an acceptable one leads to. -/
def Dev.identCheck (d : Dev) (q : Nat) (i : Ident) (go : Dev → Dev) : Dev :=
  let d1 := d.onPort q (fun x => { x with
    peer := i.dev % 2 ^ 18, peerPort := i.port % 32, peerGraft := x.peerGraft || decide (i.role = 1) })
  let l := d.portLink q
  if i.dev = d.ownId then d1.violate q 10
  else if 24 ≤ l then d1
  else
    let want := d.regFld ⟨.dvoLink, [l]⟩ 21 4
    let bad := (decide (want ≠ 0x3FFFF) && decide (want ≠ i.dev)) ||
      (match d.linkPeer q with | some w => decide (w ≠ i.dev) | none => false)
    if bad then d1.violate q 11 else go d1

/-- IDENT_RECEIVE (R421, R434): in IDENT, and in the IDENT that a retrain passes. On a trained port that names ROLE 1 it is also
the partner's word that it has grafted (R422). -/
def Dev.identReceive (d : Dev) (q : Nat) (i : Ident) : Dev :=
  if !d.portRuns q then d
  else match (d.port q).st, (d.port q).pass with
  | .ident, _ => d.identCheck q i (fun d => d.portLeave q .credit)
  | .retrain, .ident => d.identCheck q i (fun d => d.onPort q (fun x => { x with pass := .credit }))
  | .standby, _ | .up, _ => if i.role = 1 then d.onPort q (fun x => { x with peerGraft := true }) else d
  | _, _ => d

/-- The one-way delay of a port, in ps (R67). -/
def Dev.portDelay (d : Dev) (q : Nat) : Nat := d.regFld ⟨.tmpPortDelay, [q]⟩ 31 0

/-- The delay of a port has been measured since its link was trained (R67). -/
def Dev.delayValid (d : Dev) (q : Nat) : Bool := decide (d.regFld ⟨.tmpPortDelay, [q]⟩ 63 63 = 1)

/-- Delay more than 500 ns above the shortest of the link's members (R417). A delay that is not VALID is none, and neither holds
the member back nor is compared with (log entry 81). -/
def Dev.skewed (d : Dev) (q : Nat) : Bool :=
  d.delayValid q && (upTo 24).any (fun r => decide (d.portLink r = d.portLink q) && d.delayValid r &&
    decide (d.portDelay r + 500000 < d.portDelay q))

/-- CREDIT_EXCHANGE (R417, R421, R431): the cells that the partner's member gives, by 2·VC + DL; a port in RETRAIN takes them in
the CREDIT that it passes. -/
def Dev.creditExchange (d : Dev) (q : Nat) (caps : List Nat) : Dev :=
  let d1 := d.onPort q (fun x => { x with caps := caps })
  if !d.portRuns q then d
  else match (d.port q).st, (d.port q).pass with
  | .credit, _ =>
    match d.portRole q with
    | 1 => if d.skewed q then (d1.portEvent q 0x0C02).portEnter q false else d1.portEnter q true
    | 2 => d1.portEnter q false
    | _ => d1
  | .retrain, .credit => d1.onPort q (fun x => { x with pass := .done })
  | _, _ => d

/-- PORT_LOSS_OF_LOCK (R421). -/
def Dev.portLoss (d : Dev) (q : Nat) : Dev :=
  if !d.portRuns q then d
  else match (d.port q).st with
  | .up | .standby => d.portRetrain q
  | _ => d

/-- PORT_RETRAIN_DONE (R421): a port that has passed LOCK, IDENT and CREDIT returns to its previous state. -/
def Dev.portRetrained (d : Dev) (q : Nat) : Dev :=
  d.portStep q .retrain (fun d => if (d.port q).pass = .done then d.portEnter q (d.port q).back else d)

/-- PORT_RETRAIN_TIMEOUT (R421). -/
def Dev.portRetrainTimeout (d : Dev) (q : Nat) : Dev := d.portStep q .retrain (fun d => d.trainFail q)

/-- DVO_RELEASE (R421, R435): TRAIN_FAILS starts at 0. -/
def Dev.portRelease (d : Dev) (q : Nat) : Dev :=
  match (d.port q).st with
  | .quarantine | .failed => (d.onPort q (fun x => { x with fails := 0, qcause := 0 })).portLeave q .detect
  | _ => d

/-- DVO_FORCE_DOWN (R421). -/
def Dev.portForceDown (d : Dev) (q : Nat) : Dev := d.portLeave q .detect

/-- A commit of DVO_PORT_CFG at an edge (R421): a port that takes ROLE 0 leaves the link that it has served (R420, R433). -/
def Dev.portCommit (d : Dev) (q : Nat) (v : Word) : Dev :=
  let d1 := (if fld 1 0 v = 0 ∧ (d.port q).st ≠ .off then d.portLeave q .off else d).setReg ⟨.dvoPortCfg, [q]⟩ v
  if fld 1 0 v ≠ 0 ∧ (d1.port q).st = .off then d1.portLeave q .detect else d1

/-! ## Grafts, count windows, edges (R422, R430, R432, R437) -/

/-- The graft of a failed port, or one member fewer (R422). -/
def Dev.portGraft (d : Dev) (f : Nat) : Dev :=
  let l := d.portLink f
  let d0 := (d.onPort f (fun x => { x with due := .no })).remedyDone (.port f)
  match (upTo 24).find? (fun s => (d.port s).st = .standby && decide (d.portLink s = l) && decide (l < 24) && decide (s ≠ f)) with
  | none => d0
  | some s =>
    let m := d.regFld ⟨.dvoPortCfg, [f]⟩ 9 7
    let d1 := ((d0.setRegFld ⟨.dvoPortCfg, [s]⟩ 9 7 m).setRegFld ⟨.dvoPortCfg, [s]⟩ 1 0 1).setRegFld ⟨.dvoPortCfg, [f]⟩ 1 0 0
    let d2 := d1.onPort s (fun x => { x with st := .up, grafted := true, hold := true })
    (d2.portEvent s 0x0C05).out (.sent 0x206 [s, m])

/-- The ports and meshes note the seal of an edge (R541). -/
def Dev.dvoSeal (d : Dev) : Dev :=
  { d with
    ports := d.ports.map (fun e => (e.1, { e.2 with due := e.2.due.seal }))
    meshes := d.meshes.map (fun e => (e.1, { e.2 with shiftDue := e.2.shiftDue.seal })) }

/-- A step boundary of the device: port grafts (R422). -/
def Dev.portBoundary (d : Dev) : Dev :=
  (upTo 24).foldl (fun (d : Dev) q => if (d.port q).due = .sealed then d.portGraft q else d) d

/-- Physical column of a logical one (R437). -/
def Mesh.column (x : Mesh) (c : Nat) : Nat := if x.shift ≤ c then c + 1 else c

/-- Routers that a stop at logical column c and row r attaches to, its own column's and that of the column to its right, as
physical columns; it uses the one that `Mesh.column` names (R437). -/
def stopRouters (c r : Nat) : List (Nat × Nat) := [(c, r), (c + 1, r)]

/-- Has the stop lost both its attachments (R438)? -/
def Mesh.cutOff (x : Mesh) (c r : Nat) : Bool := (stopRouters c r).all (fun k => x.failed.contains k)

/-- A step boundary of tile t's partition: the mesh shifts (R437). -/
def Dev.meshBoundary (d : Dev) (t : Nat) : Dev :=
  let m := d.mesh t
  if m.shiftDue = .sealed then
    ((d.onMesh t (fun x => { x with shift := m.shiftCol, shiftDue := .no, detour := decide (2 ≤ x.fails) })).raise
      0x0C0B none t).remedyDone (.router t)
  else d

/-- Detour tables of the next edge (R437, R438). -/
def Dev.meshEdge (d : Dev) (t : Nat) : Dev :=
  let m := d.mesh t
  if m.detourDue then
    let d1 := d.onMesh t (fun x => { x with detour := true, detourDue := false })
    if m.shiftDue = .no then d1.remedyDone (.router t) else d1
  else d

/-- The unit behind a stop that has lost both attachments is reported and is reached no more (R438): a port fails, an HBM interface
is mapped out at the step boundary (R365) and its requests wait until then. For a cluster and a die-to-die link no chapter
sets an answer: what an access to the cluster meets is the model's choice (DESIGN CHOICE, log entry 82). -/
def Dev.stopCut (d0 : Dev) (t : Nat) (x : MeshStop) : Dev :=
  let d := d0.onMesh t (fun m => { m with cut := m.cut ++ [x] })
  match x with
  | .port q => d.portFail q.val
  | .hbm ch => d.onHbm t (fun h =>
      if (FMap.find? h.failed ch.val).isSome then h else { h with failed := FMap.insert h.failed ch.val (d.dueOf (d.tilePart t)) })
  | .cluster g => d.out (.sent 0x207 [t, 0, g.val])
  | .die k => d.out (.sent 0x207 [t, 1, k.val])

/-- DVO_ROUTER_FAIL (R437, R438). `stops`: stops at the failed router with their logical columns and rows; the manual places no
stop, so the sender names them. One that has lost both its attachments is reported. -/
def Dev.routerFail (d : Dev) (t col row : Nat) (stops : List (MeshStop × Fin 8 × Fin 8)) : Dev :=
  let spare := decide ((d.mesh t).shift = 8) && decide ((d.mesh t).shiftDue = .no)
  let d1 := d.onMesh t (fun x => { x with
    failCol := col, failRow := row, fails := min 15 (x.fails + 1), detourDue := true, failed := x.failed ++ [(col, row)]
    shiftCol := if spare then col else x.shiftCol
    shiftDue := if spare then d.dueOf (d.tilePart t) else x.shiftDue })
  let d2 := d1.faultDevice 0x0C0A t (d1.ownedParts.filter (fun p => p = d1.tilePart t)) [.router t]
  (stops.filter (fun x => (d2.mesh t).cutOff x.2.1.val x.2.2.val)).foldl (fun (d : Dev) x => d.stopCut t x.1) d2

/-- The end of a count window (R422, R434). -/
def Dev.dvoWindow (d : Dev) : Dev :=
  (upTo 24).foldl (fun (d : Dev) q => d.onPort q (fun x => { x with winRetrain := 0, winViol := 0, winCell := 0 })) d

/-- A NAK of a request (R434): to its SRC, on its VC, with its TAG and ADDR. -/
def Packet.nak (p : Packet) (code spart : Nat) : Packet :=
  { dst := p.src, src := 0, addr := p.addr, vc := p.vc, type := 0x05, len := 0, spart := spart, tag := p.tag, code := code }

/-- Answer a packet with a NAK; `q`: the port it came by, none on the tile mesh. -/
def Dev.answerNak (d : Dev) (q : Option Nat) (p : Packet) (code spart : Nat) : Dev :=
  let d1 := match q with
    | some q => d.violate q code
    | none => d
  d1.send (p.nak code spart)

/-- Is the packet a request (R424, R430)? -/
def Packet.isRequest (p : Packet) : Bool := p.type = 0x01 || p.type = 0x02

/-- Discard a waiting packet at an edge (R430). -/
def Dev.discardPkt (d : Dev) (x : QPkt) : Dev :=
  let d1 := d.originFree x
  if x.pkt.isRequest then d1.answerNak x.port x.pkt 6 0 else d1

/-- What link l discards at an edge (R430), taken out of its queues; `l` 25: packets without a link. -/
def Dev.linkDiscard (d : Dev) (l : Nat) : List QPkt × Dev :=
  let k := d.link l
  if l < 24 ∧ !(d.upMembers l).isEmpty then ([], d)
  else
    let all := k.unacked.map (fun u => ({ pkt := u.pkt } : QPkt)) ++ k.txq
    let clear := fun (x : Link) => { x with
      txq := [], unacked := [], resend := []
      sendSeq := if x.dead then 0 else x.sendSeq, expect := if x.dead then 0 else x.expect
      rx := if x.dead then [] else x.rx, ackDue := false }
    let d1 := d.onLink l clear
    (all, if l = 25 then d1.count ⟨.dvoStats, []⟩ 31 0 all.length
      else if all.isEmpty then d1 else d1.count ⟨.dvoLinkStat, [l]⟩ 63 32 all.length)

/-- R430 at an edge: what waited is discarded, then its requests are answered, so that an answer waits for the next edge where it
finds no link; DVO_UNREACHABLE at most once. -/
def Dev.dvoDiscards (d : Dev) : Dev :=
  let r := ((upTo 24) ++ [25]).foldl (fun (a : List QPkt × Dev) l =>
    let b := a.2.linkDiscard l
    (a.1 ++ b.1, b.2)) ([], d)
  let d1 := r.1.foldl (fun (d : Dev) x => d.discardPkt x) r.2
  if r.1.isEmpty then d1 else d1.raise 0x0C06 none 0

/-- Members that both ends had grafted before this edge carry traffic from it (R422). -/
def Dev.dvoHolds (d : Dev) : Dev :=
  (upTo 24).foldl (fun (d : Dev) q =>
    if (d.port q).hold ∧ (d.port q).peerGraft ∧ (d.port q).st = .up then
      (d.onPort q (fun x => { x with hold := false, peerGraft := false })).portEnter q true
    else d) d

/-- The recount words of an edge, each on its link's lowest-numbered UP member (R432): FREED and CAP by key. -/
def Dev.dvoRecounts (d : Dev) : Dev :=
  (upTo 24).foldl (fun (d : Dev) l =>
    match d.upMembers l with
    | [] => d
    | q :: _ => d.out (.sent 0x202 (q :: l :: ((upTo 8).map (fun k => FMap.getD (d.link l).freed k 0) ++ (upTo 8).map (fun k => d.ownCap l k))))) d

/-! ## Link words (R419, R431, R432) -/

/-- Does port q carry a link's traffic, and has it its clocks? Its link, if so. -/
def Dev.carrying (d : Dev) (q : Nat) : Option Nat :=
  if d.portRuns q ∧ (d.port q).carries ∧ d.portLink q < 24 then some (d.portLink q) else none

/-- LINK_ACK_SEND: the receiver of link l acknowledges the last packet delivered in order. -/
def Dev.ackSend (d : Dev) (l : Nat) : Dev :=
  if (d.link l).ackDue ∧ (d.upMembers l).any d.portRuns then
    (d.onLink l (fun x => { x with ackDue := false })).out (.sent 0x203 [l, ((d.link l).expect + 65535) % 65536])
  else d

/-- LINK_ACK_RECEIVE: packets up to `seq` leave the retry storage; an unknown number is violation 7. -/
def Dev.ackReceive (d : Dev) (q seq : Nat) : Dev :=
  match d.carrying q with
  | none => d
  | some l =>
    match (d.link l).unacked.findIdx? (fun u => u.seq = seq) with
    | none => d.violate q 7
    | some i => d.onLink l (fun x =>
        let gone := (x.unacked.take (i + 1)).map (fun u => u.seq)
        { x with unacked := x.unacked.drop (i + 1), resend := x.resend.filter (fun s => !gone.contains s) })

/-- LINK_NAK_RECEIVE: the sender replays from `seq` (R419). -/
def Dev.nakReceive (d : Dev) (q seq : Nat) : Dev :=
  match d.carrying q with
  | none => d
  | some l =>
    match (d.link l).unacked.findIdx? (fun u => u.seq = seq) with
    | none => d.violate q 7
    | some i => (d.onLink l (fun x => { x with resend := (x.unacked.filter (fun u =>
        x.resend.contains u.seq || (x.unacked.drop i).any (fun w => w.seq = u.seq))).map (fun u => u.seq) })).count
          ⟨.dvoPortErr, [q]⟩ 63 48 1

/-- FEC_UNCORRECTABLE (R419): the member's packets from the codeword on are discarded until the packet that the NAK names arrives
(log entry 129); the NAK names the first missing number. -/
def Dev.fecUncorr (d : Dev) (q : Nat) : Dev :=
  match d.carrying q with
  | none => d.count ⟨.dvoPortErr, [q]⟩ 47 32 1
  | some l => ((d.count ⟨.dvoPortErr, [q]⟩ 47 32 1).onPort q (fun x => { x with lost := some (d.link l).expect })).out
      (.sent 0x204 [l, (d.link l).expect])

/-- CREDIT_RETURN_RECEIVE (R431, R434 code 8). -/
def Dev.creditReturn (d : Dev) (q vc : Nat) (dl : Bool) (n : Nat) : Dev :=
  match d.carrying q with
  | none => d
  | some l =>
    let k := clsKey vc dl
    let a := FMap.getD (d.link l).avail k 0 + (n : Nat)
    if (FMap.getD (d.link l).cap k 0 : Nat) < a then d.violate q 8
    else d.onLink l (fun x => { x with avail := FMap.set x.avail 0 k a })

/-- What a recount word sets for a key: avail (R432). -/
def recountAvail (cap sent freed : Nat) : Int := cap - ((sent + 2 ^ 32 - freed % 2 ^ 32) % 2 ^ 32 : Nat)

/-- RECOUNT_RECEIVE: FREED and CAP of the receiver, by key (R432). -/
def Dev.recountReceive (d : Dev) (q : Nat) (freed caps : List Nat) : Dev :=
  match d.carrying q with
  | none => d
  | some l =>
    let d1 := (upTo 8).foldl (fun (d : Dev) k =>
      let x := d.link l
      let new := recountAvail (caps.getD k 0) (FMap.getD x.sent k 0) (freed.getD k 0)
      let adj := (new - FMap.getD x.avail k 0).natAbs
      (d.onLink l (fun x => { x with
        avail := FMap.set x.avail 0 k new, cap := FMap.set x.cap 0 k (caps.getD k 0) })).count ⟨.dvoLinkStat, [l]⟩ 31 0 adj) d
    (upTo 24).foldl (fun (d : Dev) r =>
      if d.portLink r = l ∧ !(d.port r).carries then d.onPort r (fun x => { x with counted := false }) else d) d1

/-! ## Sending (R419, R425, R431) -/

/-- May the packet go out on link l: its cells are available and the retry storage has room? -/
def Dev.sendable (d : Dev) (l : Nat) (p : Packet) : Bool :=
  let x := d.link l
  let k := p.key
  let k0 := 2 * (k / 2)
  let out := fun (k : Nat) => ((FMap.getD x.cap k 0 : Nat) : Int) - FMap.getD x.avail k 0
  let total : Int := ((FMap.getD x.cap k0 0 + FMap.getD x.cap (k0 + 1) 0) * 4 / 7 : Nat)
  let held := (x.unacked.map (fun u => 16 + u.pkt.payload.length)).sum
  decide ((p.cells : Int) ≤ FMap.getD x.avail k 0) && decide (out k0 + out (k0 + 1) + p.cells ≤ total) &&
  decide (held + 16 + p.payload.length ≤ 196608 * (d.upMembers l).length)

/-- The next packet of a VC on link l, by its place in the queue: the first of either class that may go. -/
def Dev.nextOf (d : Dev) (l vc : Nat) : Option Nat :=
  let q := (d.link l).txq
  let first := fun (dl : Bool) => q.findIdx? (fun x => x.pkt.vc % 4 = vc && x.pkt.dl == dl)
  let ok := fun (i : Option Nat) => match i with
    | some i => (match q[i]? with | some x => if d.sendable l x.pkt then some i else none | none => none)
    | none => none
  match ok (first false), ok (first true) with
  | some i, some j => some (min i j)
  | some i, none => some i
  | none, j => j

/-- Classes of VC1 to VC3 with a packet that may go out on link l. -/
def Dev.arbReady (d : Dev) (l : Nat) : List Nat := [1, 2, 3].filter (fun v => (d.nextOf l v).isSome)

/-- Weight of a class (R441): 0 acts as 1. -/
def Dev.arbWeight (d : Dev) (vc : Nat) : Nat := max 1 (d.regFld ⟨.dvoArb, []⟩ (8 * vc - 1) (8 * vc - 8))

/-- Bytes of the next packet of a class on link l, header and payload. -/
def Dev.arbSize (d : Dev) (l vc : Nat) : Nat :=
  match (d.nextOf l vc).bind (fun i => (d.link l).txq[i]?) with
  | some e => 16 + e.pkt.payload.length
  | none => 0

/-- Deficit round robin in bytes (R425): from class to class, a visit adds the class's weight in units of the quantum, and the
class sends while its deficit covers its next packet; a class with nothing to send loses its deficit. The class that sends
next and the round after it; six visits reach every class twice, and a quantum covers any packet. -/
def Dev.arbNext (d : Dev) (l : Nat) (ready : List Nat) (a : Arb) : (n : Nat) → Option (Nat × Arb)
  | 0 => none
  | n + 1 =>
    let v := a.turn
    let after := v % 3 + 1
    if ready.contains v then
      let have_ := a.deficit.getD v 0 + (if a.visited then 0 else d.arbWeight v * (528 + Config.arbQuantum))
      if d.arbSize l v ≤ have_ then some (v, ⟨v, true, a.deficit.set v (have_ - d.arbSize l v)⟩)
      else d.arbNext l ready ⟨after, false, a.deficit.set v have_⟩ n
    else d.arbNext l ready ⟨after, false, a.deficit.set v 0⟩ n

/-- Whose turn it is on port q among VC1 to VC3 (R425): a class alone has the whole share. -/
def Dev.arbTurn (d : Dev) (q l : Nat) : Option (Nat × Arb) :=
  match d.arbReady l with
  | [] => none
  | [v] => some (v, { turn := v })
  | ready => d.arbNext l ready (d.port q).arb 6

/-- Send packet s of link l's retry storage again on port q. -/
def Dev.replay (d : Dev) (q l s : Nat) : Dev :=
  let d1 := d.onLink l (fun x => { x with
    resend := x.resend.erase s, unacked := x.unacked.map (fun w => if w.seq = s then { w with port := q } else w) })
  match (d.link l).unacked.find? (fun u => u.seq = s) with
  | some u => d1.out (.packet q s u.pkt)
  | none => d1

/-- Send the next packet of a VC on port q of link l, where there is one. -/
def Dev.transmitNext (d : Dev) (q l vc : Nat) : Dev :=
  let x := d.link l
  match (d.nextOf l vc).bind (fun i => x.txq[i]?.map (fun e => (i, e))) with
  | none => d
  | some (i, e) =>
    let k := e.pkt.key
    let d1 := d.onLink l (fun x => { x with
      txq := x.txq.eraseIdx i
      unacked := x.unacked ++ [{ seq := x.sendSeq, port := q, pkt := e.pkt }]
      sendSeq := (x.sendSeq + 1) % 65536
      sent := FMap.set x.sent 0 k ((FMap.getD x.sent k 0 + e.pkt.cells) % 2 ^ 32)
      avail := FMap.set x.avail 0 k (FMap.getD x.avail k 0 - (e.pkt.cells : Nat)) })
    ((d1.originFree e).cvuPacket q 1 vc e.pkt.payload).out (.packet q x.sendSeq e.pkt)

/-- PACKET_TRANSMIT on port q (R419, R425): VC0 before every other, replays before new packets of the rest, and VC1 to VC3 by
deficit round robin. A VC whose turn it is not sends nothing. -/
def Dev.packetTransmit (d : Dev) (q vc : Nat) : Dev :=
  match d.carrying q with
  | none => d
  | some l =>
    let x := d.link l
    let zero := fun (s : Nat) => x.unacked.any (fun u => decide (u.seq = s) && decide (u.pkt.vc % 4 = 0))
    match x.resend.find? zero with
    | some s => d.replay q l s
    | none =>
      if (d.nextOf l 0).isSome then (if vc = 0 then d.transmitNext q l 0 else d)
      else
        match x.resend with
        | s :: _ => d.replay q l s
        | [] =>
          match d.arbTurn q l with
          | some (v, a) => if v = vc then (d.onPort q (fun x => { x with arb := a })).transmitNext q l vc else d
          | none => d

/-! ## Receiving (R417, R419, R423, R424, R428, R434) -/

/-- The VC of a type; none for a reserved type and for a NAK (R424). -/
def typeVc (t : Nat) : Option Nat :=
  if 0x08 ≤ t ∧ t ≤ 0x0D then some 0
  else if t = 0x10 ∨ t = 0x11 then some 1
  else if (1 ≤ t ∧ t ≤ 4) ∨ t = 0x12 then some 2
  else if t = 0x18 then some 3
  else none

/-- The drop-class violation of an arriving packet, 0 for none (R434). -/
def Packet.violation (p : Packet) : Nat :=
  let red := p.type = 0x10 ∨ p.type = 0x11
  if p.type ≠ 5 ∧ ((typeVc p.type).isNone ∨ p.code ≠ 0 ∨ (red ∧ (p.tag ≠ 0 ∨ p.addr >>> 38 ≠ 0))) then 1
  else if p.type ≠ 5 ∧ typeVc p.type ≠ some p.vc then 2
  else if 512 < p.len ∨ p.len ≠ p.payload.length then 3
  else if 127 ≤ p.hops then 4
  else 0

/-- A packet header as 128 bits (R423). -/
def Packet.header (p : Packet) : BitVec 128 :=
  BitVec.ofNat 128 (p.dst % 2 ^ 18 + p.src % 2 ^ 18 * 2 ^ 18 + p.addr % 2 ^ 48 * 2 ^ 36 + p.vc % 4 * 2 ^ 84 +
    p.type % 2 ^ 6 * 2 ^ 86 + p.len % 2 ^ 10 * 2 ^ 92 + p.spart % 4 * 2 ^ 102 + p.hops % 2 ^ 7 * 2 ^ 104 +
    (if p.dl then 1 else 0) * 2 ^ 111 + p.tag % 2 ^ 8 * 2 ^ 112 + p.code % 2 ^ 8 * 2 ^ 120)

/-- The 16 header bytes, little-endian (R423). -/
def Packet.headerBytes (p : Packet) : List Byte := bytesOf 16 p.header.toNat

/-- The packet that a header and a payload make. -/
def Packet.ofHeader (h : BitVec 128) (payload : List Byte) : Packet :=
  let f := fun (hi lo : Nat) => bits hi lo h.toNat
  { dst := f 17 0, src := f 35 18, addr := f 83 36, vc := f 85 84, type := f 91 86, len := f 101 92, spart := f 103 102
    hops := f 110 104, dl := decide (f 111 111 = 1), tag := f 119 112, code := f 127 120, payload := payload }

/-- The packets of link l that follow on its sequence number, in order; the link after them. -/
def Link.release (x : Link) : (n : Nat) → List SeqPkt × Link
  | 0 => ([], x)
  | n + 1 =>
    match x.rx.find? (fun u => u.seq = x.expect) with
    | none => ([], x)
    | some u =>
      let y := { x with rx := x.rx.filter (fun w => w.seq ≠ u.seq), expect := (x.expect + 1) % 65536, ackDue := true }
      let r := y.release n
      (u :: r.1, r.2)

/-- A numbered packet arrives on a member of link l: what follows a codeword that could not be corrected is discarded until the
number that its NAK names arrives (R419), a copy is discarded without a count, a packet without a cell is violation 9, any
other waits for its turn. The packets whose turn has come. -/
def Dev.linkAccept (d : Dev) (q l seq : Nat) (p : Packet) : List SeqPkt × Dev :=
  let x := d.link l
  let ahead := (seq + 65536 - x.expect) % 65536
  let gap : Bool := match (d.port q).lost with
    | some n => decide (seq ≠ n)
    | none => false
  if gap ∨ 32768 ≤ ahead ∨ x.rx.any (fun u => u.seq = seq) then ([], d)
  else if !d.rxFits l p then ([], d.violate q 9)
  else
    let y : Link := { x with
      rx := x.rx ++ [{ seq := seq, port := q, pkt := p }]
      used := FMap.set x.used 0 p.key (FMap.getD x.used p.key 0 + p.cells) }
    let r := y.release (y.rx.length)
    let d1 : Dev := { d with ports := d.ports.map (fun e => (e.1, if e.2.lost = some seq then { e.2 with lost := none } else e.2)) }
    (r.1, (d1.onLink l (fun _ => r.2)).cvuPacket q 2 (p.vc % 4) p.payload)

/-- A packet in its turn: dropped, forwarded, or for this device (then given back with the cells that it holds). -/
def Dev.takePacket (d : Dev) (l : Nat) (u : SeqPkt) : Option QPkt × Dev :=
  let p := u.pkt
  if u.gone then (none, d)
  else
    let v := p.violation
    if v ≠ 0 then (none, (d.cellsFree l p.key p.cells).violate u.port v)
    else if p.dst = d.ownId then
      (some { pkt := p, origin := some (l, p.key, p.cells), port := some u.port }, d)
    else
      (none, d.enqueue { pkt := { p with hops := p.hops + 1 }, origin := some (l, p.key, p.cells), port := some u.port }
        (dirDim (d.linkDir l)))

/-- Messages of a port itself (R424): no sequence number, never forwarded. -/
def Packet.portOwn (p : Packet) : Bool := decide (0x08 ≤ p.type) && decide (p.type ≤ 0x0B)

/-! ## Revocation (R433) -/

/-- Packets of a revoked partition are discarded: those queued with its SPART, and those received whose ADDR lies in it. -/
def Dev.dvoRevoke (d : Dev) (p : Nat) (within : Packet → Bool) : Dev :=
  let own := d.ownId
  let mine := fun (x : QPkt) => decide (x.pkt.src = own) && decide (x.pkt.spart = p)
  let hit := fun (u : SeqPkt) => !u.gone && decide (u.pkt.dst = own) && within u.pkt
  (upTo 26).foldl (fun (d : Dev) l =>
    let x := d.link l
    let d1 := (x.rx.filter hit).foldl (fun (d : Dev) u => d.cellsFree l u.pkt.key u.pkt.cells) d
    d1.onLink l (fun x => { x with
      txq := x.txq.filter (fun e => !mine e)
      rx := x.rx.map (fun u => if hit u then { u with gone := true } else u) })) d

/-! ## Register words -/

/-- DVO_PORT_STATUS (R448). -/
def Dev.portStatus (d : Dev) (q : Nat) : Word :=
  let x := d.port q
  put 3 0 x.st.code ||| putBit 4 x.grafted ||| put 25 8 x.peer ||| put 30 26 x.peerPort ||| put 35 32 x.qcause |||
  put 37 36 x.fails ||| put 45 38 x.retrains ||| put 63 48 x.event

/-- DVO_MESH (R442). -/
def Dev.meshWord (d : Dev) (t : Nat) : Word :=
  let x := d.mesh t
  put 3 0 x.shift ||| put 7 4 x.failCol ||| put 10 8 x.failRow ||| put 14 11 x.fails ||| putBit 15 x.detour

/-- The read-only fields of DVO_LINK (R444). -/
def Dev.linkWord (d : Dev) (l : Nat) : Word :=
  setFld 27 25 ((upTo 24).filter (fun q => d.portLink q = l ∧ d.portRole q = 1)).length
    (setFld 24 22 ((upTo 24).filter (fun q => d.portLink q = l ∧ (d.port q).st = .up)).length (d.reg ⟨.dvoLink, [l]⟩))

end Sys2Proof.Machine
end

