-- ==== Sys2Proof/Machine/Control.lean ====
section
/-! DEFINITION. Control instructions of the sequencer but for loads, stores, semaphores and generations (R221 to R226,
R231 to R239). -/
namespace Sys2Proof.Machine

/-! ## Vector registers that a queued vector instruction uses (R217, R262, R263) -/

/-- A vector register that no queued vector instruction reads or writes (R217). -/
def Core.vFree (x : Core) (r : Nat) : Bool := !x.ve.eng.queue.any (fun e => (veUses e.word).contains r)

/-! ## Legality by format (R220, R221) -/

/-- No operand bit set: NOP and HALT. -/
def legalNone (i : IWord) (_ : Sq) : Bool := i.opnd = 0

/-- Format F with a CODE; RET, whose CODE has no meaning. -/
def legalF (i : IWord) (_ : Sq) : Bool := i.f 49 16 = 0

/-- LI: format I with RS1 zero. -/
def legalLi (i : IWord) (_ : Sq) : Bool := i.f 44 32 = 0

/-- LIH: format I with RS1 = RD. -/
def legalLih (i : IWord) (q : Sq) : Bool := legalI i q && decide (i.rs1 = i.rd)

/-- CMP: format C, IMM zero, COND 0 to 5. -/
def legalCmp (i : IWord) (_ : Sq) : Bool := i.f 46 45 = 0 && decide (i.f 34 32 ≤ 5) && decide (i.f 31 0 = 0)

/-- CMPI: format C, COND 0 to 5. -/
def legalCmpi (i : IWord) (_ : Sq) : Bool := i.f 46 45 = 0 && decide (i.f 34 32 ≤ 5)

/-- PLOG: format P. -/
def legalP (i : IWord) (_ : Sq) : Bool := i.f 37 0 = 0

/-- Format X with register indices up to `r` and IDX up to `n`. -/
def legalX (r n : Nat) (i : IWord) (_ : Sq) : Bool := i.f 31 0 = 0 && decide (i.f 44 40 ≤ r) && decide (i.f 39 32 ≤ n)

/-- PGET: R and IDX zero. -/
def legalPget (i : IWord) (_ : Sq) : Bool := i.f 44 0 = 0

/-- PPUT: the low 32 bits zero. -/
def legalPput (i : IWord) (_ : Sq) : Bool := i.f 31 0 = 0

/-- LIDX: the loop level is below the current depth. -/
def legalLidx (i : IWord) (q : Sq) : Bool := i.f 31 0 = 0 && decide (i.f 39 32 < q.loops.length)

/-- Format J. -/
def legalJ (i : IWord) (_ : Sq) : Bool := i.f 49 32 = 0

/-- JR: RS1 only. -/
def legalJr (i : IWord) (_ : Sq) : Bool := i.f 49 45 = 0 && decide (i.f 39 0 = 0)

/-- LOOP (R226): a body that is not empty and lies inside the code and inside the innermost active body. -/
def legalLoop (i : IWord) (q : Sq) : Bool :=
  let last := q.pc + i.f 23 0
  i.f 43 40 = 0 && decide (i.f 23 0 ≠ 0) && decide (last < q.codeLen) &&
  (match q.loops with
   | [] => true
   | f :: _ => decide (last ≤ f.last))

/-- TWAIT (R232): a non-zero absolute target and K = 0, or K from 1. -/
def legalTwait (i : IWord) (q : Sq) : Bool :=
  i.f 40 32 = 0 && decide (i.f 31 16 = 0) &&
  (if i.f 44 44 = 1 then decide (i.f 15 0 = 0) && decide (q.getS (i.f 49 45) ≠ 0) else decide (i.f 15 0 ≠ 0))

/-- TNOW: RD only. -/
def legalTnow (i : IWord) (_ : Sq) : Bool := i.f 44 0 = 0

/-- FENCE: MASK only. -/
def legalFence (i : IWord) (_ : Sq) : Bool := i.f 49 44 = 0 && decide (i.f 40 0 = 0)

/-! ## Operations (R221) -/

/-- CMP and CMPI. -/
def Dev.ctlCmp (d : Dev) (c op : Nat) (i : IWord) (legal : Sq → Bool) (b : Sq → Word) : Dev :=
  d.sqSimple c op i legal (fun q => q.setPKeep (i.f 49 47) (condHolds (i.f 34 32) (q.getS i.rs1) (b q)))

/-- FUNC of PLOG. -/
def plogFn (f : Nat) (a b : Bool) : Bool :=
  match f with
  | 0 => a && b
  | 1 => a || b
  | 2 => a != b
  | _ => a && !b

/-- PLOG. -/
def Dev.ctlPlog (d : Dev) (c : Nat) (i : IWord) : Dev :=
  d.sqSimple c 0x22 i (legalP i) (fun q =>
    q.setP (i.f 49 47) (plogFn (i.f 40 39) (q.getP (i.f 46 44) != decide (i.f 38 38 = 1)) (q.getP (i.f 43 41))))

/-- p7..p0 as a byte. -/
def Sq.preds (q : Sq) : BitVec 8 := q.p ||| 1

/-- PGET. -/
def Dev.ctlPget (d : Dev) (c : Nat) (i : IWord) : Dev :=
  d.sqSimple c 0x23 i (legalPget i) (fun q => q.setS (i.f 49 45) (BitVec.ofNat 64 q.preds.toNat))

/-- PPUT: bit 0 is ignored; p0 stays 1. -/
def Dev.ctlPput (d : Dev) (c : Nat) (i : IWord) : Dev :=
  d.sqSimple c 0x24 i (legalPput i) (fun q => { q with p := BitVec.ofNat 8 (q.getS (i.f 49 45)).toNat ||| 1 })

/-- LIH. -/
def Dev.ctlLih (d : Dev) (c : Nat) (i : IWord) : Dev :=
  d.sqSimple c 0x1A i (legalLih i) (fun q => q.setS i.rd (setFld 63 32 (i.f 31 0) (q.getS i.rd)))

/-- BR. -/
def Dev.ctlBr (d : Dev) (c : Nat) (i : IWord) : Dev :=
  d.sqIssue c 0 0x28 i (legalJ i) (fun d => d.sqNext c) (fun d => d.sqJump c ((d.core c).sq.pc + i.imm) true)

/-- CALL: the return index is pushed when the transfer is made (R225). -/
def Dev.ctlCall (d : Dev) (c : Nat) (i : IWord) : Dev :=
  d.sqIssue c 0 0x29 i (legalJ i) (fun d => d.sqNext c) (fun d =>
    let q := (d.core c).sq
    let t : Int := q.pc + i.imm
    if 8 ≤ q.calls.length then d.sqRefuse c 0x0503
    else if t < 0 ∨ (q.codeLen : Int) ≤ t then d.sqJump c t false
    else (d.sqJump c t false).onSq c (fun q' => { q' with calls := (q.pc + 1) :: q'.calls }))

/-- RET (R225). -/
def Dev.ctlRet (d : Dev) (c : Nat) (i : IWord) : Dev :=
  d.sqIssue c 0 0x2A i (legalF i) (fun d => d.sqNext c) (fun d =>
    let q := (d.core c).sq
    match q.calls with
    | [] => d.sqRefuse c 0x0503
    | t :: ts =>
      if q.codeLen ≤ t then d.sqJump c t false
      else (d.sqJump c t false).onSq c (fun q' => { q' with calls := ts }))

/-- JR. -/
def Dev.ctlJr (d : Dev) (c : Nat) (i : IWord) : Dev :=
  d.sqIssue c 0 0x2B i (legalJr i) (fun d => d.sqNext c) (fun d =>
    d.sqJump c (fld 13 0 ((d.core c).sq.getS i.rs1)) true)

/-- A LOOP that skips its body, by count 0 or by its predicate (R218, R226). -/
def Dev.loopSkip (d : Dev) (c : Nat) (i : IWord) : Dev :=
  let t := (d.core c).sq.pc + 1 + i.f 23 0
  let d1 := d.onSq c (fun q => (q.counted c true).running)
  if t < (d.core c).sq.codeLen then d1.onSq c (fun q => { q with pc := t }) else d1.sqPcRange c (t % 16384)

/-- LOOP (R226). -/
def Dev.ctlLoop (d : Dev) (c : Nat) (i : IWord) : Dev :=
  d.sqIssue c 0 0x2C i (legalLoop i) (fun d => d.loopSkip c i) (fun d =>
    let q := (d.core c).sq
    let n := if i.f 44 44 = 1 then i.f 39 24 else (q.getS (i.f 49 45)).toNat
    if 4 ≤ q.loops.length then d.sqRefuse c 0x0503
    else if n = 0 then d.loopSkip c i
    else (d.onSq c (fun q => ({ q.counted c false with
      loops := ⟨q.pc + 1, q.pc + i.f 23 0, n, 0⟩ :: q.loops, pc := q.pc + 1 } : Sq).running)))

/-- LIDX. -/
def Dev.ctlLidx (d : Dev) (c : Nat) (i : IWord) : Dev :=
  d.sqSimple c 0x2D i (legalLidx i) (fun q =>
    match q.loops[i.f 39 32]? with
    | some f => q.setS (i.f 49 45) (BitVec.ofNat 64 f.index)
    | none => q)

/-- MOVA. -/
def Dev.ctlMova (d : Dev) (c : Nat) (i : IWord) : Dev :=
  d.sqSimple c 0x38 i (legalX 15 1 i) (fun q =>
    q.setA (i.f 44 40) (setWord (i.f 39 32) (q.getS (i.f 49 45)) (q.getA (i.f 44 40))))

/-- RDA. -/
def Dev.ctlRda (d : Dev) (c : Nat) (i : IWord) : Dev :=
  d.sqSimple c 0x39 i (legalX 15 1 i) (fun q => q.setS (i.f 49 45) (getWord (i.f 39 32) (q.getA (i.f 44 40))))

/-- MOVD. -/
def Dev.ctlMovd (d : Dev) (c : Nat) (i : IWord) : Dev :=
  d.sqSimple c 0x3A i (legalX 15 3 i) (fun q =>
    q.setD (i.f 44 40) (setWord (i.f 39 32) (q.getS (i.f 49 45)) (q.getD' (i.f 44 40))))

/-- RDD. -/
def Dev.ctlRdd (d : Dev) (c : Nat) (i : IWord) : Dev :=
  d.sqSimple c 0x3B i (legalX 15 3 i) (fun q => q.setS (i.f 49 45) (getWord (i.f 39 32) (q.getD' (i.f 44 40))))

/-- VSET: it waits while a queued vector instruction uses the register (R217). -/
def Dev.ctlVset (d : Dev) (c : Nat) (i : IWord) : Dev :=
  d.sqIssue c 0 0x3C i (legalX 31 255 i) (fun d => d.sqNext c) (fun d =>
    if (d.core c).vFree (i.f 44 40) then
      (d.onSq c (fun q => q.setV (i.f 44 40) ((q.getV (i.f 44 40)).set (i.f 39 32)
        (BitVec.ofNat 32 (q.getS (i.f 49 45)).toNat)))).sqNext c
    else d.sqStall c .operand)

/-- VGET. -/
def Dev.ctlVget (d : Dev) (c : Nat) (i : IWord) : Dev :=
  d.sqIssue c 0 0x3D i (legalX 31 255 i) (fun d => d.sqNext c) (fun d =>
    if (d.core c).vFree (i.f 44 40) then
      (d.onSq c (fun q => q.setS (i.f 49 45)
        (BitVec.ofNat 64 ((q.getV (i.f 44 40)).getD (i.f 39 32) 0).toNat))).sqNext c
    else d.sqStall c .operand)

/-- TNOW (R234). -/
def Dev.ctlTnow (d : Dev) (c : Nat) (i : IWord) : Dev :=
  d.sqSimple c 0x49 i (legalTnow i) (fun q => q.setS i.rd (BitVec.ofNat 64 d.tempo))

/-- FENCE (R221): it completes at once when its engines are idle, and otherwise waits. -/
def Dev.ctlFence (d : Dev) (c : Nat) (i : IWord) : Dev :=
  d.sqIssue c 0 0x4A i (legalFence i) (fun d => d.sqNext c) (fun d =>
    if (d.core c).maskIdle (i.f 43 41) then d.sqNext c else d.sqStall c (.fence (i.f 43 41)))

/-- FENCE_RELEASE (R221). -/
def Dev.fenceRelease (d : Dev) (c : Nat) : Dev :=
  let x := d.core c
  match x.sq.st, x.sq.wait with
  | .stall, .fence mask => if x.maskIdle mask then d.sqNext c else d
  | _, _ => d

/-- TWAIT (R232): the sequencer stands at it. -/
def Dev.ctlTwait (d : Dev) (c : Nat) (i : IWord) : Dev :=
  d.sqIssue c 0 0x48 i (legalTwait i) (fun d => d.sqNext c) (fun d =>
    let q := (d.core c).sq
    let target := if i.f 44 44 = 1 then (q.getS (i.f 49 45)).toNat else q.lastEdge + i.f 15 0
    d.sqStall c (.tempo target (i.f 43 41) false false))

/-- Is the Tempo wait of a core reached: it stands there with its engines idle (R232)? -/
def Core.twaitReached (x : Core) : Bool :=
  match x.sq.st, x.sq.wait with
  | .stall, .tempo _ mask _ implicit => implicit || x.maskIdle mask
  | _, _ => false

/-- TEMPO_WAIT_RELEASE (R49, R231, R232): a reached TWAIT whose edge has come is released; p7 and SQ_LATE when it was
not reached by E − 16 clk. -/
def Dev.tempoWaitRelease (d : Dev) (c : Nat) : Dev :=
  let x := d.core c
  match x.sq.st, x.sq.wait with
  | .stall, .tempo target _ onTime implicit =>
    if x.twaitReached && decide (target ≤ d.tempo) then
      let d1 := d.onSq c (fun q => { q with lastEdge := target })
      -- an entry index at CODE_LEN or beyond (log entry 117)
      if implicit then if x.sq.pc < x.sq.codeLen then d1.onSq c Sq.running else d1.sqPcRange c (x.sq.pc % 16384)
      else if onTime then d1.sqNext c
      else (d1.onSq c (fun q =>
        { q.setP 7 true with late := satAdd 32 q.late 1, lateTempo := target % 2 ^ 32 })).sqNext c
    else d
  | _, _ => d

/-- FAULT (R237). -/
def Dev.ctlFault (d : Dev) (c : Nat) (i : IWord) : Dev :=
  d.sqIssue c 0 0x58 i (legalF i) (fun d => d.sqNext c) (fun d =>
    (d.onSq c (fun q => { q with pcode := i.f 15 0 })).sqRefuse c 0x0508)

/-- HALT (R221): DONE and SQ_DONE. -/
def Dev.ctlHalt (d : Dev) (c : Nat) (i : IWord) : Dev :=
  d.sqIssue c 0 0x59 i (legalNone i) (fun d => d.sqNext c) (fun d =>
    (d.onSq c (fun q => { q.counted c true with st := .done, wait := .none })).raiseCore 0x0509 c)

/-- SQ_RESUME (R239): a halted sequencer issues from PC; another state discards it. -/
def Dev.sqResume (d : Dev) (c : Nat) : Dev :=
  if (d.core c).sq.st = .halted ∧ ¬(d.core c).sq.pruned then d.onSq c Sq.running else d

end Sys2Proof.Machine
end

