-- ==== Sys2Proof/Machine/Sem.lean ====
section
/-! DEFINITION. Semaphores and generation claims: requests, arrival, grants, resumption (R194 to R203, R227 to R230,
R235, R320, R533, R534). -/
namespace Sys2Proof.Machine

/-! ## Requests -/

/-- Send a semaphore request. -/
def Dev.semSend (d : Dev) (r : SemReq) : Dev :=
  { d with semReqs := d.semReqs ++ [{ r with id := d.nextReq }], nextReq := d.nextReq + 1 }

/-- Is semaphore k in a tile of partition p (R227)? -/
def Dev.semIn (d : Dev) (k p : Nat) : Bool := d.tilePart (k / 4096) = p

/-- Cluster of a semaphore number. -/
def semCluster (k : Nat) : Nat := k / 1024

/-- Waits of core c's sequencer at a STOP (R239), or of all of core c at a revocation (R240), are abandoned. Signals travel
on. -/
def Dev.semDrop (d : Dev) (c : Nat) (engines : Bool) : Dev :=
  let mine := fun (w : Requester) => match w with
    | .sq c' => decide (c' = c)
    | .eng c' _ => engines && decide (c' = c)
    | _ => false
  { d with
    semReqs := d.semReqs.filter (fun r => !(mine r.who && decide (r.kind = .wait)))
    semDone := d.semDone.filter (fun r => !mine r.who) }

/-- A stopped core's waiting claims are discarded (R239, R240). -/
def Dev.genDrop (d : Dev) (c : Nat) : Dev :=
  { d with gens := d.gens.map (fun e => (e.1, { e.2 with claims := e.2.claims.filter (fun x => x.core ≠ c) })) }

/-- SQ_STOP (R239): a running or stalled sequencer halts; a pending wait is abandoned without effect. -/
def Dev.sqStop (d : Dev) (c : Nat) : Dev :=
  match (d.core c).sq.st with
  | .run | .stall =>
    (((d.semDrop c false).genDrop c).onSq c (fun q =>
      { q with faultCode := 0x050A, st := .halted, wait := .none })).raiseCore 0x050A c
  | _ => d

/-! ## The instructions (R227 to R229) -/

/-- Format S: N not zero; PD zero for a queued instruction. -/
def legalSem (i : IWord) (_ : Sq) : Bool :=
  i.f 25 16 = 0 && decide (i.f 15 0 ≠ 0) && (decide (i.f 46 45 = 0) || decide (i.f 49 47 = 0))

/-- The semaphore number of a format S instruction, from its SEM and s[RS1]. -/
def semIndex (sem : Nat) (rs1 : Word) : Nat := (sem + rs1.toNat) % 2 ^ 14

/-- The issue of a queued semaphore instruction: the checks, then as any engine instruction. -/
def Dev.semQueue (d : Dev) (c op : Nat) (i : IWord) : Dev :=
  let e := i.f 46 45
  let q := (d.core c).sq
  let k := semIndex (i.f 39 26) (q.getS i.rs1)
  if q.canIssue && decide (q.atPc = i.word 0 op) && legalSem i q && q.enabled i && decide (d.engClock c e = 2) &&
      !d.semIn k (d.corePart c) then
    d.sqIssue c 0 op i (legalSem i) (fun d => d) (fun d => d.sqRefuse c 0x0506)
  else d.engIssue c 0 op e i (legalSem i)

/-- The fetch engine begins no entry while the previous one has still to send requests (R278). -/
def Dev.fetchSending (d : Dev) (c e : Nat) : Bool := decide (e = 3) && (d.core c).fte.runs.any (fun r => r.next < r.total)

/-- SEM.WAIT of a sequencer or at its issue into a queue; `begin` at the head of the queue. -/
def Dev.semWait (d : Dev) (c : Nat) (i : IWord) (ph : Phase) : Dev :=
  let e := i.f 46 45
  match ph with
  | .issue =>
    if e = 0 then
      d.sqIssue c 0 0x40 i (legalSem i) (fun d => d.sqNext c) (fun d =>
        let k := semIndex (i.f 39 26) ((d.core c).sq.getS i.rs1)
        if d.semIn k (d.corePart c) then
          (d.sqStall c (.sem d.nextReq (i.f 49 47))).semSend
            { id := 0, who := .sq c, kind := .wait, sem := k, n := i.f 15 0, pd := i.f 49 47 }
        else d.sqRefuse c 0x0506)
    else d.semQueue c 0x40 i
  | .begin =>
    match d.engHead c e (i.word 0 0x40) with
    | some x =>
      if e = 0 ∨ d.fetchSending c e then d
      else
        ((d.engPop c e).onEng c e (fun g => { g with waitReq := some d.nextReq, nextSeq := g.nextSeq + 1 })).semSend
          { id := 0, who := .eng c e, kind := .wait, sem := semIndex (i.f 39 26) (x.getS i.rs1), n := i.f 15 0 }
    | none => d
  | .row => d

/-- Every entry of engine e that was begun before number n has completed, with its writes landed (R229). -/
def Core.clearBefore (x : Core) (e n : Nat) : Bool :=
  match e with
  | 1 =>
    !(match x.me.run with | some r => decide (r.seq < n) | none => false) &&
    x.me.flight.all (fun r => n ≤ r.seq) && x.me.drains.all (fun r => n ≤ r.seq) &&
    x.me.writes.all (fun r => n ≤ r.seq)
  | 2 => !(match x.ve.solve with | some r => decide (r.seq < n) | none => false)
  | _ => x.fte.runs.all (fun r => n ≤ r.id)

/-- SEM.SIG: of a sequencer it is sent at once, when every earlier store has written (R280; until then it does not issue, log
entry 120); queued, it begins, and is sent (phase `row`) when every earlier entry has
completed (R229). -/
def Dev.semSig (d : Dev) (c : Nat) (i : IWord) (ph : Phase) : Dev :=
  let e := i.f 46 45
  match ph with
  | .issue =>
    if e = 0 then
      d.sqIssue c 0 0x41 i (legalSem i) (fun d => d.sqNext c) (fun d =>
        let q := (d.core c).sq
        let k := semIndex (i.f 39 26) (q.getS i.rs1)
        if d.storeStalled c then d
        else if d.semIn k (d.corePart c) then
          (d.semSend { id := 0, who := .sq c, kind := .sig, sem := k, n := i.f 15 0, pc := q.pc, insn := q.atPc }).sqNext c
        else d.sqRefuse c 0x0506)
    else d.semQueue c 0x41 i
  | .begin =>
    match d.engHead c e (i.word 0 0x41) with
    | some x =>
      if e = 0 ∨ d.fetchSending c e then d
      else (d.engPop c e).onEng c e (fun g => { g with
        nextSeq := g.nextSeq + 1
        sigs := g.sigs ++ [⟨g.nextSeq, semIndex (i.f 39 26) (x.getS i.rs1), i.f 15 0⟩] })
    | none => d
  | .row =>
    match ((d.core c).eng e).sigs with
    | s :: rest =>
      if e ≠ 0 ∧ (d.core c).clearBefore e s.seq then
        (d.onEng c e (fun g => { g with sigs := rest })).semSend
          { id := 0, who := .eng c e, kind := .sig, sem := s.sem, n := s.n }
      else d
    | [] => d

/-! ## Arrival (R228, R230, R534, R320) -/

/-- SEM_OVERFLOW at the requester (R228, R229); a wait that it has sent travels on (R230). -/
def Dev.semOverflow (d : Dev) (r : SemReq) : Dev :=
  match r.who with
  | .sq c =>
    match (d.core c).sq.st with
    | .run | .stall => (d.genDrop c).sqRefuseAt c 0x0902 r.pc r.insn
    | _ => d.raiseCore 0x0902 c
  | .eng c e => d.engHalts c e 0x0902 false
  | _ => d.raise 0x0902 (some (d.tilePart (r.sem / 4096))) (semCluster r.sem)

/-- Owner that a signal gives an undeclared semaphore (R534). -/
def Dev.sigOwner (d : Dev) (w : Requester) (old : Nat) : Nat :=
  match w with
  | .sq c => c
  | .eng c _ => c
  | .dma g ch => (FMap.getD (FMap.getD d.dma g {}).chans ch {}).owner
  | _ => old

/-- A signal is applied. The flag says whether it was. -/
def Dev.semApply (d : Dev) (r : SemReq) : Bool × Dev :=
  let x := d.sem r.sem
  if 65535 < x.value + r.n then (false, d.semOverflow r)
  else
    let d1 := d.setSem r.sem { x with
      value := x.value + r.n, owner := if x.declared then x.owner else d.sigOwner r.who x.owner }
    (true, match r.who with
      | .eng c 3 => d1.count ⟨.ftePerfLead, [c]⟩ 31 0 1
      | _ => d1)

/-- A standing wait is tried: some (poisoned?) when it completes. -/
def Dev.semTry (d : Dev) (r : SemReq) : Option Bool × Dev :=
  let x := d.sem r.sem
  if x.poison then (some true, d)
  else if r.n ≤ x.value then (some false, d.setSem r.sem { x with value := x.value - r.n })
  else (none, d)

/-- The signals of a clk, in requester order: the device, and the fetch signals applied (core, semaphore). -/
def Dev.semSignals (d : Dev) : List SemReq → List (Nat × Nat) × Dev
  | [] => ([], d)
  | r :: rs =>
    let a := d.semApply r
    let b := a.2.semSignals rs
    (match a.1, r.who with
     | true, .eng c 3 => (c, r.sem) :: b.1
     | _, _ => b.1, b.2)

/-- The standing waits of a clk, in requester order: the device, and the grants (semaphore, stall). -/
def Dev.semGrants (d : Dev) : List SemReq → List (Nat × Nat) × Dev
  | [] => ([], d)
  | r :: rs =>
    let a := d.semTry r
    match a.1 with
    | none => a.2.semGrants rs
    | some bad =>
      let d1 : Dev := { a.2 with
        semReqs := a.2.semReqs.filter (fun x => x.id ≠ r.id)
        semDone := a.2.semDone ++ [({ id := r.id, who := r.who, pd := r.pd, poison := bad } : SemDone)] }
      let b := d1.semGrants rs
      (if bad then b.1 else (r.sem, r.stall) :: b.1, b.2)

/-- One applied fetch signal with the grants of its clk (R320). -/
def Dev.semLate (d : Dev) (c k : Nat) (grants : List (Nat × Nat)) : Dev :=
  let ss := (grants.filter (fun g => g.1 = k ∧ 0 < g.2)).map Prod.snd
  if ss.isEmpty then d
  else (d.count ⟨.ftePerfLead, [c]⟩ 63 32 1).count ⟨.ftePerfWait, [c]⟩ 31 0 ss.sum

/-- SEM_REQUEST_ARRIVAL: a clk of the semaphore block of cluster g, `elapsed` clk after its last, in which the requests
`ids` arrive (R230). -/
def Dev.semClk (d : Dev) (g : Nat) (ids : List Nat) (elapsed : Nat) : Dev :=
  let here := fun (r : SemReq) => decide (semCluster r.sem = g)
  let now := fun (r : SemReq) => here r && !r.arrived && ids.contains r.id
  let arr := d.semReqs.filter now
  let age := fun (r : SemReq) =>
    if here r && r.arrived then { r with stall := r.stall + elapsed }
    else if now r && decide (r.kind = .wait) then { r with arrived := true } else r
  let left := d.semReqs.filter (fun r => !(now r && decide (r.kind ≠ .wait)))
  let d1 := { d with semReqs := left.map age }
  let d2 := (arr.filter (fun r => r.kind = .poison)).foldl
    (fun (d : Dev) r => d.setSem r.sem { d.sem r.sem with poison := true }) d1
  let sg := d2.semSignals (sortBy (fun r => r.who.rank) (arr.filter (fun r => r.kind = .sig)))
  let gr := sg.2.semGrants (sortBy (fun r => r.who.rank)
    (sg.2.semReqs.filter (fun r => here r && r.arrived && decide (r.kind = .wait))))
  sg.1.foldl (fun (d : Dev) x => d.semLate x.1 x.2 gr.1) gr.2

/-- SEM_WAIT_RESUME: a completed wait resumes its requester (R228, R230). The wait of a port engine's stage stays for
REDUCE_LOCAL_READY (R462). -/
def Dev.semResume (d : Dev) (id : Nat) : Dev :=
  match d.semDone.find? (fun r => r.id = id) with
  | none => d
  | some r =>
    let d1 := { d with semDone := d.semDone.filter (fun x => x.id ≠ id) }
    match r.who with
    | .port _ => d
    | .sq c =>
      if (d1.core c).sq.wait = .sem id r.pd then
        if r.poison && decide (r.pd = 0) then d1.sqRefuse c 0x0901
        else (d1.onSq c (fun q => q.setPKeep r.pd r.poison)).sqNext c
      else d1
    | .eng c e =>
      if ((d1.core c).eng e).waitReq = some id then
        let d2 := d1.onEng c e (fun g => { g with waitReq := none })
        if r.poison then d2.engHalts c e 0x0901 false else d2
      else d1
    | _ => d1

/-! ## Generations (R194 to R200, R235) -/

/-- Slot g of a stage. -/
def GenTable.slot (t : GenTable) (stage g : Nat) : GenSlot := FMap.getD t.slots (2 * stage + g) {}

/-- Change a slot. -/
def GenTable.onSlot (t : GenTable) (stage g : Nat) (f : GenSlot → GenSlot) : GenTable :=
  { t with slots := FMap.set t.slots {} (2 * stage + g) (f (t.slot stage g)) }

/-- The first waiting claim of a slot. -/
def GenTable.claimOf (t : GenTable) (stage g : Nat) : Option GenClaim :=
  t.claims.find? (fun x => x.stage = stage ∧ x.slot = g)

/-- The tag that a claim compares: the ring of the last claim that waits on a slot stands as its tag (R200). -/
def GenTable.tag (t : GenTable) (stage g : Nat) : Option Nat :=
  match t.claims.reverse.find? (fun x => x.stage = stage ∧ x.slot = g) with
  | some x => some x.ring
  | none => if (t.slot stage g).st = .free then none else some (t.slot stage g).ring

/-- The target slot enters FILLING (R197, R199). -/
def GenTable.fill (t : GenTable) (stage g ring : Nat) : GenTable :=
  let late := t.lateRings.contains (stage, ring)
  { t.onSlot stage g (fun x => { x with st := .filling, ring := ring, missed := late }) with
    lateRings := t.lateRings.filter (fun x => x ≠ (stage, ring)) }

/-- Outcomes of a generation instruction: a value for s[RD], a refusal by its event bit, or a wait. -/
inductive GenRes where
  | ok (v : Nat)
  | refused (bit : Nat)
  | waits
  deriving DecidableEq, Repr

/-- GEN.ACQ (R195). -/
def GenTable.acq (t : GenTable) (stage ring : Nat) : GenRes × GenTable :=
  let hit := (upTo 2).find? (fun g => decide ((t.slot stage g).st ≠ .free) && decide ((t.slot stage g).ring = ring))
  match hit with
  | none => (.refused 0, t)
  | some g =>
    if (t.claimOf stage g).isSome then (.refused 1, t)
    else if 65535 ≤ (t.slot stage g).refs then (.refused 2, t)
    else (.ok g, t.onSlot stage g (fun x => { x with refs := x.refs + 1 }))

/-- GEN.REL (R196); a waiting claim can complete once REFS is 0 (R200). -/
def GenTable.rel (t : GenTable) (stage g : Nat) : GenRes × GenTable :=
  let r := (t.slot stage g).refs
  if r = 0 then (.refused 3, t)
  else
    (.ok (r - 1), t.onSlot stage g (fun x => { x with refs := r - 1 }))

/-- GEN.CLAIM (R197): of two FREE slots slot 0; a claim whose target another claim waits on waits behind it (log entry
15). -/
def GenTable.claim (t : GenTable) (core stage ring rd : Nat) : GenRes × GenTable :=
  let t0 := t.tag stage 0
  let t1 := t.tag stage 1
  let low := fun (x : Option Nat) => match x with | some n => decide (ring ≤ n) | none => false
  if low t0 || low t1 then (.refused 4, t)
  else
    let g := match t0, t1 with
      | none, _ => 0
      | _, none => 1
      | some a, some b => if a ≤ b then 0 else 1
    if (t.claimOf stage g).isNone ∧ (t.slot stage g).refs = 0 then (.ok g, t.fill stage g ring)
    else (.waits, { t with claims := t.claims ++ [⟨core, stage, g, ring, rd⟩] })

/-- GEN.READY (R198). -/
def GenTable.ready (t : GenTable) (stage g : Nat) : GenRes × GenTable :=
  if (t.slot stage g).st = .filling then (.ok g, t.onSlot stage g (fun x => { x with st := .ready, missed := false }))
  else (.refused 4, t)

/-- Event code of a PRT_GEN_EVENT bit (R206). -/
def genEvent (bit : Nat) : Nat := 0x0F10 + bit

/-- Set a PRT_GEN_EVENT bit and raise its event; DETAIL is the core (R613). -/
def Dev.genRaise (d : Dev) (p bit core : Nat) : Dev :=
  let t := d.gen p
  (d.setGen p { t with events := t.events ||| BitVec.ofNat 6 (2 ^ bit) }).raiseAs (evClass (genEvent bit)) (genEvent bit) (some p) p core

/-- A generation instruction: the stage is s[RS1]; `slotArg`: s[RS2] names a slot (R235). -/
def Dev.genOp (d : Dev) (c op : Nat) (i : IWord) (slotArg : Bool)
    (f : GenTable → Nat → Nat → GenRes × GenTable) : Dev :=
  d.sqIssue c 0 op i (legalR i) (fun d => d.sqNext c) (fun d =>
    let q := (d.core c).sq
    let p := d.corePart c
    let t := d.gen p
    let stage := (q.getS i.rs1).toNat
    let arg := (q.getS i.rs2).toNat
    let r := if t.stages ≤ stage ∨ (slotArg ∧ 1 < arg) then (GenRes.refused 0, t) else f t stage arg
    match r.1 with
    | .ok v => ((d.setGen p r.2).onSq c (fun q => q.setS i.rd (BitVec.ofNat 64 v))).sqNext c
    | .refused b => ((d.genRaise p b c).onSq c (fun q => q.setS i.rd (BitVec.allOnes 64))).sqNext c
    | .waits => (d.setGen p r.2).sqStall c .claim)

/-- GEN_CLAIM_COMPLETE (R197, R200): the first claim that waits on a slot whose REFS is 0 completes. -/
def Dev.genClaimComplete (d : Dev) (p stage g : Nat) : Dev :=
  let t := d.gen p
  match t.claimOf stage g with
  | some x =>
    if (t.slot stage g).refs = 0 then
      let t1 := { t with claims := t.claims.erase x }
      let d1 := d.setGen p (t1.fill stage g x.ring)
      if (d1.core x.core).sq.wait = .claim then
        (d1.onSq x.core (fun q => q.setS x.rd (BitVec.ofNat 64 g))).sqNext x.core
      else d1
    else d
  | none => d

/-- The all-gather of `ring` launches for a stage (R199): the slot that takes it, or its discard. DETAIL of its
PRT_GEN_CLAIM_LATE is 0: no core raises it, and R613 gives DETAIL a logical core (DESIGN CHOICE, log entry 147). -/
def Dev.gatherLaunch (d : Dev) (p stage ring : Nat) : Option Nat × Dev :=
  let t := d.gen p
  match (upTo 2).find? (fun g =>
      decide (stage < t.stages) && decide ((t.slot stage g).st = .filling) && decide ((t.slot stage g).ring = ring)) with
  | some g => (some g, d)
  | none =>
    let t1 := { t with
      lateCount := satAdd 16 t.lateCount 1, lateStage := stage % 64
      lateRings := if t.lateRings.contains (stage, ring) then t.lateRings else t.lateRings ++ [(stage, ring)] }
    (none, (d.setGen p t1).genRaise p 5 0)

/-- Revocation (R203): every slot FREE; positions stay. -/
def GenTable.revoked (t : GenTable) : GenTable :=
  { t with
    slots := t.slots.filterMap (fun e =>
      let x : GenSlot := { page := e.2.page, pages := e.2.pages }
      if x = {} then none else some (e.1, x))
    claims := [], lateRings := [], events := 0 }

end Sys2Proof.Machine
end

