-- ==== Sys2Proof/Machine/Dma.lean ====
section
/-! DEFINITION. The DMA engines of the clusters, and the remote windows (R324 to R337, R344 to R348). -/
namespace Sys2Proof.Machine

/-! ## Engines, channels, descriptors -/

/-- The engine of cluster g. -/
def Dev.dmaEng (d : Dev) (g : Nat) : DmaEng := FMap.getD d.dma g {}

/-- Change it. -/
def Dev.onDma (d : Dev) (g : Nat) (f : DmaEng → DmaEng) : Dev := { d with dma := FMap.set d.dma {} g (f (d.dmaEng g)) }

/-- Channel ch of an engine. -/
def DmaEng.chan (x : DmaEng) (ch : Nat) : DmaCh := FMap.getD x.chans ch {}

/-- Change a channel. -/
def Dev.onCh (d : Dev) (g ch : Nat) (f : DmaCh → DmaCh) : Dev :=
  d.onDma g (fun x => { x with chans := FMap.set x.chans {} ch (f (x.chan ch)) })

/-- Change the running descriptor. -/
def Dev.onRun (d : Dev) (g : Nat) (f : DmaRun → DmaRun) : Dev := d.onDma g (fun x => { x with run := x.run.map f })

/-- State of a cluster's clock enables: 0 DMA, 1 CVU0, 2 CVU1 (R571, R575). -/
def Dev.clusterClock (d : Dev) (g k : Nat) : Nat := d.regFld ⟨.clkEnCluster, [g]⟩ (2 * k + 9) (2 * k + 8)

/-- Word i of a descriptor. -/
def DmaDesc.w (x : DmaDesc) (i : Nat) : Nat := x.words.getD i 0

/-- Geometry of a descriptor (R324). -/
def DmaDesc.sline (x : DmaDesc) : Nat := bits 31 0 (x.w 2)
/-- Source lines. -/
def DmaDesc.slines (x : DmaDesc) : Nat := bits 63 32 (x.w 2)
/-- Bytes per destination line. -/
def DmaDesc.dline (x : DmaDesc) : Nat := bits 31 0 (x.w 4)
/-- Destination lines. -/
def DmaDesc.dlines (x : DmaDesc) : Nat := bits 63 32 (x.w 4)
/-- Source window, 0 local. -/
def DmaDesc.swin (x : DmaDesc) : Nat := bits 53 48 (x.w 0)
/-- Destination window, 0 local. -/
def DmaDesc.dwin (x : DmaDesc) : Nat := bits 53 48 (x.w 1)
/-- Semaphore, amount, IRQ, check-value unit. -/
def DmaDesc.sem (x : DmaDesc) : Nat := bits 13 0 (x.w 6)
/-- Signal amount. -/
def DmaDesc.n (x : DmaDesc) : Nat := bits 29 14 (x.w 6)
/-- IRQ. -/
def DmaDesc.irq (x : DmaDesc) : Bool := bits 30 30 (x.w 6) = 1
/-- Unit folded into: 0 none, 1 or 2 (R324). -/
def DmaDesc.cvu (x : DmaDesc) : Nat := bits 32 31 (x.w 6)
/-- Bytes of the transfer (R325). -/
def DmaDesc.total (x : DmaDesc) : Nat := x.sline * x.slines

/-- Place of source byte b, relative to the side's base (R325). -/
def DmaDesc.src (x : DmaDesc) (b : Nat) : Int := (b / x.sline : Nat) * sext 64 (x.w 3) + (b % x.sline : Nat)

/-- Place of destination byte b. -/
def DmaDesc.dst (x : DmaDesc) (b : Nat) : Int := (b / x.dline : Nat) * sext 64 (x.w 5) + (b % x.dline : Nat)

/-- Least and greatest place of a side, the greatest exclusive. -/
def sideExtent (base line lines : Nat) (stride : Int) : Int × Int :=
  let last := ((lines - 1 : Nat) : Int) * stride
  ((base : Int) + min 0 last, (base : Int) + max 0 last + line)

/-- Source extremes. -/
def DmaDesc.srcExt (x : DmaDesc) : Int × Int := sideExtent (bits 47 0 (x.w 0)) x.sline x.slines (sext 64 (x.w 3))

/-- Destination extremes. -/
def DmaDesc.dstExt (x : DmaDesc) : Int × Int := sideExtent (bits 47 0 (x.w 1)) x.dline x.dlines (sext 64 (x.w 5))

/-! ## Windows (R335) -/

/-- An outbound window of cluster g: base, device, WR, VALID, length (R347). -/
structure OutWin where
  base : Nat
  dev : Nat
  wr : Bool
  valid : Bool
  len : Nat
  deriving DecidableEq, Repr

/-- Window w of cluster g. -/
def Dev.outWin (d : Dev) (g w : Nat) : OutWin :=
  let v := d.reg ⟨.dmaWinCfg, [g, w]⟩
  ⟨d.regFld ⟨.dmaWinBase, [g, w]⟩ 47 0, fld 17 0 v, bit 18 v, bit 19 v, fld 63 24 v⟩

/-- Does a side with window w lie within it? -/
def OutWin.holds (w : OutWin) (lo hi : Int) : Bool := w.valid && decide (0 ≤ lo) && decide (hi ≤ (w.len : Int))

/-! ## Checks before the first byte (R324 to R326, R331) -/

/-- The field rules that a descriptor breaks (DESC_INVALID). -/
def Dev.dmaFieldsBad (d : Dev) (g : Nat) (x : DmaDesc) : Bool :=
  let own := fun (w : Nat) => decide (w ≠ 0) && decide ((d.outWin g w).dev = d.ownId)
  x.bad || decide (bits 63 54 (x.w 0) ≠ 0) || decide (bits 63 54 (x.w 1) ≠ 0) || decide (bits 63 33 (x.w 6) ≠ 0) ||
  decide (bits 7 5 (x.w 7) ≠ 0) || decide (x.cvu = 3) ||
  decide (x.sline = 0) || decide (x.slines = 0) || decide (x.dline = 0) || decide (x.dlines = 0) ||
  decide (x.total ≠ x.dline * x.dlines) || decide (2 ^ 40 - 1 < x.total) ||
  (decide (1 < x.dlines) && decide ((sext 64 (x.w 5)).natAbs < x.dline)) ||
  (decide (x.swin ≠ 0) && decide (x.dwin ≠ 0)) || own x.swin || own x.dwin ||
  !d.semIn x.sem (d.clusterPart g) ||
  (decide (x.cvu ≠ 0) && d.cvuBad (2 * g + x.cvu - 1))

/-- An extreme byte is reachable for partition p (R326). -/
def Dev.dmaByte (d : Dev) (p : Nat) (a : Int) : Bool :=
  decide (0 ≤ a) && (d.sramOf p a.toNat || d.hbmOf p a.toNat || (d.slowAt (some p) a.toNat).isSome)

/-- Does a side's base lie in the slow-tier windows? -/
def isSlow (a : Nat) : Bool := decide (0x10000000000 ≤ a) && decide (a < ctxWindow 8)

/-- A slow-tier destination takes whole aligned 4 KiB units only (R380). -/
def DmaDesc.slowOk (x : DmaDesc) : Bool :=
  decide (bits 47 0 (x.w 1) % 4096 = 0) && decide (x.dline % 4096 = 0) &&
  (decide (x.dlines = 1) || decide (sext 64 (x.w 5) % 4096 = 0))

/-- A side's extreme bytes lie where they may (else ADDR); the COMMITTED view of a slow-tier window is read-only (R380). -/
def Dev.dmaSideOk (d : Dev) (g : Nat) (win : Nat) (ext : Int × Int) (write : Bool) : Bool :=
  let p := d.clusterPart g
  if win = 0 then
    d.dmaByte p ext.1 && d.dmaByte p (ext.2 - 1) &&
    (d.sramRange p ext.1 ext.2 || d.hbmRange p ext.1 ext.2 ||
      (isSlow ext.1.toNat && isSlow (ext.2 - 1).toNat && decide ((ext.1.toNat - 0x10000000000) / 0x2000000000 =
        ((ext.2 - 1).toNat - 0x10000000000) / 0x2000000000) &&
        (!write || decide (0x1000000000 ≤ (ext.1.toNat - 0x10000000000) % 0x2000000000))))
  else (d.outWin g win).holds ext.1 ext.2 && (!write || (d.outWin g win).wr)

/-- How a descriptor ends before it moves a byte, if it does: STATUS and event (R331, R514, R572). -/
def Dev.dmaCheck (d : Dev) (g : Nat) (x : DmaDesc) : Option (Nat × Nat) :=
  if d.dmaFieldsBad g x then some (4, 0x0803)
  else if !(d.dmaSideOk g x.swin x.srcExt false && d.dmaSideOk g x.dwin x.dstExt true &&
      (decide (x.dwin ≠ 0) || !isSlow (bits 47 0 (x.w 1)) || x.slowOk)) then some (5, 0x0804)
  else if x.cvu ≠ 0 ∧ d.clusterClock g x.cvu ≠ 2 then some (6, 0x0805)
  else none

/-! ## Sampling (R328) -/

/-- EN of a channel (R345). -/
def Dev.dmaEn (d : Dev) (g ch : Nat) : Bool := bit 0 (d.reg ⟨.dmaChCtrl, [g, ch]⟩)

/-- Ring base and size of a channel (R344). -/
def Dev.dmaRing (d : Dev) (g ch : Nat) : Nat × Nat :=
  let v := d.reg ⟨.dmaChRing, [g, ch]⟩
  (fld 47 0 v, 2 ^ fld 52 48 v)

/-- The eight words of a descriptor's bytes. -/
def descWords (bs : List Byte) : List Nat := unpackElems 64 8 (natOfBytes bs)

/-- Read the run of valid descriptors from ring index i, at most n. -/
def Dev.dmaTake (d : Dev) (base size i : Nat) : (n : Nat) → List DmaDesc × Dev
  | 0 => ([], d)
  | n + 1 =>
    let a := base + 64 * (i % size)
    let r := d.sramRead a 64
    match r.1 with
    | .off => ([], r.2)
    | .ok bs =>
      let ws := descWords (plain bs)
      if (ws.getD 7 0) % 2 = 1 ∧ !anyPoison (bs.drop 56) then
        let s := r.2.dmaTake base size (i + 1) n
        (⟨a, ws, anyPoison bs, i % size⟩ :: s.1, s.2)
      else ([], r.2)

/-- The channel holds a batch (R328). -/
def DmaCh.holds (x : DmaCh) : Bool :=
  match x.st with
  | .queued | .run | .aborting => true
  | .idle | .stopped => false

/-- One channel at E + 0 of an edge: one that holds a batch skips, whatever its EN. -/
def Dev.dmaSample (d : Dev) (g ch : Nat) : Dev :=
  let x := (d.dmaEng g).chan ch
  if d.clusterClock g 0 ≠ 2 then d
  else if x.holds then d.count ⟨.dmaChStatus, [g, ch]⟩ 47 32 1
  else if !d.dmaEn g ch || decide (x.st = .stopped) then d
  else
    let rg := d.dmaRing g ch
    let r := d.dmaTake rg.1 rg.2 x.head 32
    if r.1.isEmpty then r.2
    else
      (r.2.onCh g ch (fun c => { c with st := .queued, batch := r.1, head := (c.head + r.1.length) % rg.2 })).onDma g
        (fun e => { e with queue := e.queue ++ [ch] })

/-- Every channel at E + 0. -/
def Dev.dmaEdge (d : Dev) : Dev :=
  (upTo 16).foldl (fun (d : Dev) g => (upTo 16).foldl (fun (d : Dev) ch => d.dmaSample g ch) d) d

/-- A commit of DMA_CH_RING returns HEAD to 0 (R327). -/
def Dev.dmaRingCommit (d : Dev) (g ch : Nat) : Dev := d.onCh g ch (fun c => { c with head := 0 })

/-- A commit of EN = 1 lets a stopped channel sample again (R345). -/
def Dev.dmaEnCommit (d : Dev) (g ch : Nat) : Dev :=
  d.onCh g ch (fun c => if c.st = .stopped ∧ d.dmaEn g ch then { c with st := .idle } else c)

/-! ## Ends of descriptors (R331 to R333) -/

/-- The status word 7 of a descriptor. -/
def dmaWord7 (status : Nat) (poison : Bool) (residue event : Nat) : Word :=
  put 3 1 status ||| putBit 4 poison ||| put 47 8 residue ||| put 63 48 event

/-- Write word 7 of a descriptor. -/
def Dev.dmaReport (d : Dev) (x : DmaDesc) (v : Word) : Dev := (d.sramWrite (x.addr + 56) (clean (bytesOf 8 v.toNat))).2

/-- An event of a channel, about the descriptor at a ring index (R613). -/
def Dev.dmaEvent (d : Dev) (g ch idx code : Nat) : Dev :=
  (d.onCh g ch (fun c => { c with event := code })).raiseAs (evClass code) code (some (d.clusterPart g)) g (ch + 16 * idx)

/-- The poison of an aborted descriptor's semaphore at a prune (R333). -/
def Dev.dmaPoison (d : Dev) (g ch : Nat) (x : DmaDesc) : Dev :=
  d.semSend { id := 0, who := .dma g ch, kind := .poison, sem := x.sem }

/-- Cancel the descriptors of a batch that have not begun (R333 step 4). -/
def Dev.dmaCancel (d : Dev) (g ch : Nat) (prune : Bool) (l : List DmaDesc) : Dev :=
  l.foldl (fun (d : Dev) x =>
    let d1 := (d.dmaReport x (dmaWord7 3 false x.total 0)).onCh g ch (fun c => { c with last := 3 })
    if prune then d1.dmaPoison g ch x else d1) d

/-- Steps 4 to 6: the channel stops with an event about ring index `idx`; a revocation returns its registers to reset. -/
def Dev.dmaStop (d : Dev) (g ch idx code : Nat) (rest : List DmaDesc) : Dev :=
  let cause := ((d.dmaEng g).chan ch).cause
  let d1 := d.dmaCancel g ch (decide (cause = some .prune)) rest
  let d2 := (d1.setRegFld ⟨.dmaChCtrl, [g, ch]⟩ 0 0 0).onCh g ch (fun c => { c with st := .stopped, batch := [], cause := none })
  let d3 := (d2.onDma g (fun e => { e with queue := e.queue.filter (fun k => k ≠ ch) })).dmaEvent g ch idx code
  if cause = some .revoke then
    let clear := fun (d : Dev) (r : Reg) => d.setReg r r.resetVal
    (clear (clear (clear d3 ⟨.dmaChRing, [g, ch]⟩) ⟨.dmaChCtrl, [g, ch]⟩) ⟨.dmaChStatus, [g, ch]⟩).onCh g ch (fun _ => {})
  else d3

/-- The check-value unit of a descriptor, if it holds one. -/
def Dev.dmaFreeCvu (d : Dev) (g : Nat) (r : DmaRun) : Dev :=
  if r.folding then d.cvuFree (2 * g + r.desc.cvu - 1) else d

/-- The channel of a descriptor that ends with a status of 4 to 7 aborts (R333). -/
def DmaCh.faulted (c : DmaCh) : DmaCh := if c.st = .run then { c with st := .aborting, cause := some .status } else c

/-- The unit that a descriptor names raises CVU_CFG_INVALID where its setting is not usable (R514, R515). -/
def Dev.dmaCvuBad (d : Dev) (g : Nat) (x : DmaDesc) : Dev :=
  if (x.cvu = 1 ∨ x.cvu = 2) ∧ d.cvuBad (2 * g + x.cvu - 1) then d.cvuEvent (2 * g + x.cvu - 1) 0x0D01 else d

/-- Begin the next descriptor of the batch at the head of the queue; after the last, the channel is idle. -/
def Dev.dmaNext (d : Dev) (g ch : Nat) : Dev :=
  match ((d.dmaEng g).chan ch).batch with
  | [] => (d.onCh g ch (fun c => { c with st := .idle })).onDma g (fun e => { e with run := none, queue := e.queue.filter (fun k => k ≠ ch) })
  | x :: rest =>
    let e := d.dmaCheck g x
    ((d.onCh g ch (fun c =>
      let y : DmaCh := { c with batch := rest }
      if e.isSome then y.faulted else y)).onDma g (fun y => { y with run := some { ch := ch, desc := x, ends := e } })).dmaCvuBad g x

/-- DMA_BATCH_START (R329). -/
def Dev.dmaBatchStart (d : Dev) (g : Nat) : Dev :=
  let e := d.dmaEng g
  match e.run, e.queue with
  | none, ch :: _ => if d.clusterClock g 0 = 2 then (d.onCh g ch (fun c => { c with st := .run })).dmaNext g ch else d
  | _, _ => d

/-- The running descriptor ends with a status and an event: word 7, LAST, the rest of the batch (R331, R333). -/
def Dev.dmaEndWith (d : Dev) (g : Nat) (r : DmaRun) (status code : Nat) : Dev :=
  let ch := r.ch
  let d1 := (d.dmaFreeCvu g r).dmaReport r.desc (dmaWord7 status r.poison
    (if status = 4 ∨ status = 5 then r.desc.total else r.desc.total - r.moved) code)
  let d2 := if ((d1.dmaEng g).chan ch).cause = some .prune then d1.dmaPoison g ch r.desc else d1
  let rest := ((d2.dmaEng g).chan ch).batch
  ((d2.onCh g ch (fun c => { c with last := status })).onDma g (fun e => { e with run := none })).dmaStop g ch r.desc.idx code rest

/-- DMA_DESCRIPTOR_END (R331, R332). -/
def Dev.dmaEnd (d : Dev) (g : Nat) : Dev :=
  match (d.dmaEng g).run with
  | none => d
  | some r =>
    if !r.outst.isEmpty || decide (r.inflight ≠ 0) then d
    else
      match r.ends with
      | some (s, ev) => if s = 2 then d else d.dmaEndWith g r s ev
      | none =>
        if r.moved < r.desc.total then d
        else
          let d1 := d.dmaFreeCvu g r
          let d2 := if r.desc.n = 0 then d1
            else d1.semSend { id := 0, who := .dma g r.ch, kind := .sig, sem := r.desc.sem, n := r.desc.n }
          let d3 := (d2.dmaReport r.desc (dmaWord7 1 r.poison 0 0)).onCh g r.ch (fun c => { c with last := 1 })
          let d4 := if r.desc.irq then d3.dmaEvent g r.ch r.desc.idx 0x0801 else d3
          d4.dmaNext g r.ch

/-- Bytes of the burst at place b: within one source and one destination line, at most 512 B (R330). -/
def DmaDesc.burst (x : DmaDesc) (b : Nat) : Nat := min 512 (min (x.sline - b % x.sline) (x.dline - b % x.dline))

/-- Places of R316 that the burst at place b of a local source takes in cluster g's engine: the sectors that it reads outside
the tile's clusters. -/
def DmaDesc.burstPlaces (x : DmaDesc) (g b : Nat) : Nat :=
  let lo := (((bits 47 0 (x.w 0) : Nat) : Int) + x.src b).toNat
  ((upTo (cdiv (lo + x.burst b) 64 - lo / 64)).filter (fun i => takesPlace (24 * g) (64 * (lo / 64 + i)))).length

/-- How many of k bursts from place b on can be in flight together with `free` places (R316). -/
def DmaDesc.inFlight (x : DmaDesc) (g : Nat) : (k b free : Nat) → Nat
  | 0, _, _ => 0
  | k + 1, b, free =>
    if x.total ≤ b ∨ free < x.burstPlaces g b then 0
    else x.inFlight g k (b + x.burst b) (free - x.burstPlaces g b) + 1

/-- An abort takes effect (R333): `k` bursts are in flight and will still land, as many of them as the engine's 4,096 places of
R316 allow (log entry 119). Of a channel whose batch has not begun the event names the first descriptor (R613). A revocation that meets the abort of a prune
takes it over: the poison that is still to be sent would carry the outgoing epoch, and is discarded (R498). -/
def Dev.dmaAbortBy (d : Dev) (g ch : Nat) (cause : AbortCause) (k : Nat) : Dev :=
  let x := (d.dmaEng g).chan ch
  match x.st with
  | .run =>
    (d.onCh g ch (fun c => { c with st := .aborting, cause := some cause })).onRun g (fun r =>
      let idle := r.ends.isSome || decide (r.desc.swin ≠ 0) || decide (r.desc.dwin ≠ 0) || (decide (r.desc.cvu ≠ 0) && !r.folding)
      { r with ends := some (r.ends.getD (2, 0x0802)), inflight := if idle then 0 else r.desc.inFlight g k r.issued 4096 })
  | .queued => (d.onCh g ch (fun c => { c with cause := some cause })).dmaStop g ch
      ((x.batch.head?.map (fun y => y.idx)).getD 0) 0x0802 x.batch
  | .aborting => d.onCh g ch (fun c => { c with
      cause := if cause = .software ∨ c.cause = some .revoke then c.cause else some cause })
  | _ =>
    let d1 := d.setRegFld ⟨.dmaChCtrl, [g, ch]⟩ 0 0 0
    if cause = .revoke then
      let clear := fun (d : Dev) (r : Reg) => d.setReg r r.resetVal
      (clear (clear (clear d1 ⟨.dmaChRing, [g, ch]⟩) ⟨.dmaChCtrl, [g, ch]⟩) ⟨.dmaChStatus, [g, ch]⟩).onCh g ch (fun _ => {})
    else d1

/-- DMA_ABORT: a write of DMA_CH_CTRL.ABORT. -/
def Dev.dmaAbort (d : Dev) (g ch k : Nat) : Dev := d.dmaAbortBy g ch .software k

/-- DMA_ABORT_COMPLETE (R333). -/
def Dev.dmaAbortComplete (d : Dev) (g ch : Nat) : Dev :=
  match (d.dmaEng g).run with
  | some r =>
    if r.ch = ch ∧ ((d.dmaEng g).chan ch).st = .aborting ∧ r.outst.isEmpty ∧ (r.inflight = 0 ∨ r.desc.total ≤ r.issued) then
      let e := r.ends.getD (2, 0x0802)
      d.dmaEndWith g r e.1 e.2
    else d
  | none => d

/-! ## Bursts (R330) -/

/-- Write bytes at a local destination; false where a bank is not ON or the slow tier refuses. -/
def Dev.localWrite (d : Dev) (p a : Nat) (bs : List PByte) : Bool × Dev :=
  if a < 4 * hbmTileBytes then (true, if d.hbmOf p a then d.hbmWrite a bs [] else d)
  else if isSlow a then d.slowWrite (some p) a (plain bs)
  else d.sramWrite a bs

/-- A local destination in the slow tier takes whole units (R380): bursts gather in the engine until their unit is complete. -/
def DmaDesc.bySlow (x : DmaDesc) : Bool := decide (x.dwin = 0) && isSlow (bits 47 0 (x.w 1))

/-- First place of the unit of place b. -/
def unitOf (b : Nat) : Nat := 4096 * (b / 4096)

/-- n bytes at place b have arrived for a local destination (R330): they land, or join their slow-tier unit, which lands when
its 4,096 bytes are there. False where the destination refuses. -/
def Dev.dmaLand (d : Dev) (g : Nat) (r : DmaRun) (b : Nat) (bs : List PByte) : Bool × Dev :=
  let x := r.desc
  let p := d.clusterPart g
  let at' := fun (b : Nat) => (((bits 47 0 (x.w 1) : Nat) : Int) + x.dst b).toNat
  let moved := fun (d : Dev) (n : Nat) => d.onRun g (fun r => { r with moved := r.moved + n })
  if x.bySlow then
    let here := sortBy (fun y => y.1) ((b, bs) :: r.unit.filter (fun y => unitOf y.1 = unitOf b))
    let rest := r.unit.filter (fun y => unitOf y.1 ≠ unitOf b)
    let all := here.flatMap (fun y => y.2)
    if all.length < 4096 then (true, d.onRun g (fun r => { r with unit := here ++ rest }))
    else
      let w := d.localWrite p (at' (unitOf b)) all
      (w.1, if w.1 then moved (w.2.onRun g (fun r => { r with unit := rest })) 4096 else w.2)
  else
    let w := d.localWrite p (at' b) bs
    (w.1, if w.1 then moved w.2 bs.length else w.2)

/-- A TAG that no outstanding remote burst holds (log entry 26). -/
def Dev.freeTag (d : Dev) : Option Nat :=
  let used := (d.dma.map (fun e => match e.2.run with
    | some r => r.outst.map (fun o => o.tag)
    | none => [])).flatten
  (upTo 256).find? (fun t => !used.contains t)

/-- The running descriptor ends, once its bursts have returned; its channel aborts (R333). No later burst of the transfer lands:
the bytes not written are its tail (R331). -/
def Dev.dmaFault (d : Dev) (g status code : Nat) : Dev :=
  match (d.dmaEng g).run with
  | none => d
  | some r => (d.onCh g r.ch DmaCh.faulted).onRun g (fun r => { r with ends := some (r.ends.getD (status, code)), inflight := 0 })

/-- The descriptor's check-value unit is not ON (R571, R572). -/
def Dev.dmaCvuOff (d : Dev) (g : Nat) (x : DmaDesc) : Bool := decide (x.cvu ≠ 0) && decide (d.clusterClock g x.cvu ≠ 2)

/-- The bytes at place b follow on what the unit has folded: as many of those waiting as follow on them are folded too. The rest,
the place reached, and whether a poisoned word has stopped the fold. -/
def Dev.foldNext (d : Dev) (n : Nat) (wait : List (Nat × List PByte)) (place : Nat) :
    (k : Nat) → List (Nat × List PByte) × Nat × Bool × Dev
  | 0 => (wait, place, false, d)
  | k + 1 =>
    match wait.find? (fun y => y.1 = place) with
    | none => (wait, place, false, d)
    | some y =>
      let f := d.cvuDmaFold n y.2
      if f.1 then ([], place, true, f.2) else f.2.foldNext n (wait.filter (fun z => z.1 ≠ place)) (place + y.2.length) k

/-- Fold the bytes moved at place b into the descriptor's check-value unit, in the pattern order (R516). -/
def Dev.dmaFold (d : Dev) (g : Nat) (r : DmaRun) (b : Nat) (bs : List PByte) : Dev :=
  if r.desc.cvu = 0 ∨ r.foldStopped ∨ d.dmaCvuOff g r.desc then d
  else
    let l := (b, bs) :: r.ahead
    let f := d.foldNext (2 * g + r.desc.cvu - 1) l r.foldAt l.length
    f.2.2.2.onRun g (fun r => { r with ahead := f.1, foldAt := f.2.1, foldStopped := f.2.2.1 })

/-- The words of a payload that are poisoned. -/
def poisonedWords (bs : List PByte) : List Nat :=
  (upTo (cdiv bs.length 8)).filter (fun k => anyPoison ((bs.drop (8 * k)).take 8))

/-- A payload with its poisoned words marked. -/
def markPoison (bs : List Byte) (bad : List Nat) : List PByte :=
  (bs.zip (upTo bs.length)).map (fun x => (x.1, bad.contains (x.2 / 8)))

/-- Send the request of a remote burst. -/
def Dev.dmaRequest (d : Dev) (g : Nat) (w : OutWin) (place : Int) (type b n : Nat) (bs : List PByte) : Dev :=
  match d.freeTag with
  | none => d
  | some t =>
    (d.onRun g (fun r => { r with issued := b + n, outst := r.outst ++ [⟨t, w.dev, b, n⟩] })).send
      { dst := w.dev, src := 0, addr := ((w.base : Int) + place).toNat, vc := 2, type := type, len := bs.length
        spart := d.clusterPart g, tag := t, payload := plain bs, bad := poisonedWords bs, want := if type = 0x02 then n else 0 }

/-- DMA_BURST_RETURN (R330; a local burst is read and lands in one command, and at most 256 remote ones are outstanding, so
that the engine's 4,096 places of R316 never fill, log entry 119): the next burst of the running descriptor; a local one lands whole, a remote one sends its request.
A check-value unit that is not ON ends the descriptor (R572), and so does a mesh stop that cannot be reached (R438, log entry 82); a unit whose setting is not usable does so before the first burst
(R514). What is in flight while the engine is STOPPING still lands (R571). -/
def Dev.dmaBurst (d : Dev) (g : Nat) (es : ReadErrs) : Dev :=
  match (d.dmaEng g).run with
  | none => d
  | some r =>
    let x := r.desc
    let b := r.issued
    let n := x.burst b
    let p := d.clusterPart g
    let held := decide (x.cvu ≠ 0) && !r.folding && (d.cvu (2 * g + x.cvu - 1)).feeding
    let sbase := bits 47 0 (x.w 0)
    let dplace := ((bits 47 0 (x.w 1) : Nat) : Int) + x.dst b
    let hot := (decide (x.swin = 0) && d.memHeld ((sbase : Int) + x.src b).toNat) ||
      (decide (x.dwin = 0) && d.memHeld dplace.toNat)
    let first := decide (x.cvu ≠ 0) && !r.folding && !r.foldStopped
    if decide (d.clusterClock g 0 < 2) || decide (x.total ≤ b) || (r.ends.isSome && decide (r.inflight = 0)) || held || hot then d
    else if (r.ends.isNone && d.dmaCvuOff g x) || (decide (x.swin = 0) && d.cutFrom g ((sbase : Int) + x.src b).toNat) ||
        (decide (x.dwin = 0) && d.cutFrom g dplace.toNat) then d.dmaFault g 6 0x0805
    else if first && d.cvuBad (2 * g + x.cvu - 1) then (d.dmaCvuBad g x).dmaFault g 4 0x0803
    else
      let d1 := if first then
          (d.cvuDmaStart (2 * g + x.cvu - 1)).onRun g (fun r => { r with folding := true }) else d
      if x.swin ≠ 0 then
        if r.ends.isSome then d
        else
          let w := d.outWin g x.swin
          let lo := (sbase : Int) + x.src b
          if w.holds lo (lo + n) then d1.dmaRequest g w lo 0x02 b n [] else d1.dmaFault g 5 0x0804
      else
        let rd := d1.partRead p ((sbase : Int) + x.src b).toNat n es
        match rd.1 with
        | none => rd.2.dmaFault g 6 0x0805
        | some bs =>
          let d2 := (rd.2.dmaFold g r b bs).onRun g (fun r => { r with poison := r.poison || anyPoison bs })
          if x.dwin ≠ 0 then
            if r.ends.isSome ∨ d.freeTag.isNone then d
            else
              let w := d.outWin g x.dwin
              if w.holds dplace (dplace + n) && w.wr then d2.dmaRequest g w dplace 0x01 b n bs else d2.dmaFault g 5 0x0804
          else
            let wr := d2.dmaLand g r b bs
            if wr.1 then wr.2.onRun g (fun r => { r with issued := b + n, inflight := r.inflight - 1 })
            else wr.2.dmaFault g 6 0x0805

/-! ## Answers of remote devices (R330, R332, R336, R434) -/

/-- The cluster whose running descriptor waits for an answer. -/
def Dev.dmaWaiting (d : Dev) (p : Packet) : Option (Nat × DmaRun × DmaOut) :=
  (upTo 16).findSome? (fun g =>
    match (d.dmaEng g).run with
    | some r => (r.outst.find? (fun o => o.tag = p.tag ∧ o.dev = p.src)).map (fun o => (g, r, o))
    | none => none)

/-- A burst is answered: it leaves the outstanding ones. -/
def DmaRun.answered (r : DmaRun) (o : DmaOut) (landed : Nat) : DmaRun :=
  { r with outst := r.outst.filter (fun y => y.tag ≠ o.tag), moved := r.moved + landed }

/-- READ_DATA_RECEIVE (R330). -/
def Dev.readData (d : Dev) (p : Packet) : Dev :=
  match d.dmaWaiting p with
  | none => d
  | some (g, r, o) =>
    let bs := markPoison (p.payload.take o.n) p.bad
    let d1 := (d.dmaFold g r o.off bs).onRun g (fun r => { r with poison := r.poison || anyPoison bs })
    let w := d1.dmaLand g r o.off bs
    let d2 := w.2.onRun g (fun r => r.answered o 0)
    if w.1 && !d.dmaCvuOff g r.desc then d2 else d2.dmaFault g 6 0x0805

/-- WRITE_ACK_RECEIVE (R332). -/
def Dev.writeAck (d : Dev) (p : Packet) : Dev :=
  match d.dmaWaiting p with
  | none => d
  | some (g, _, o) => d.onRun g (fun r => r.answered o o.n)

/-- A NAK of a bulk request: the descriptor ends REMOTE_DENIED (R331, R336). -/
def Dev.dmaNak (d : Dev) (p : Packet) : Dev :=
  match d.dmaWaiting p with
  | none => d
  | some (g, _, o) => (d.onRun g (fun r => r.answered o 0)).dmaFault g 7 0x0806

/-! ## Remote requests at their target (R336, R348) -/

/-- The partition whose memories hold an address (R336). -/
def Dev.addrPart (d : Dev) (a : Nat) : Option Nat :=
  if a < 4 * hbmTileBytes then some (d.tilePart (a / hbmTileBytes))
  else match d.sramAt a with
    | some (u, _) => some (d.sramPart u)
    | none => if isSlow a then d.ctxPart ((a - 0x10000000000) / 0x2000000000) else none

/-- Does every byte of a range lie in partition p's memories: scratchpads and the mapped part of grove memories, HBM pages that
its map holds, one view of its context's windows? -/
def Dev.rangeOf (d : Dev) (p lo hi : Nat) : Bool :=
  decide (hi ≤ lo) || d.sramWhole p lo (hi - lo) || d.hbmWhole p lo hi ||
  (match d.slowAt (some p) lo, d.slowAt (some p) (hi - 1) with
   | some x, some y => decide (x.1 = y.1) && decide (x.2.1 = y.2.1) && decide (x.2.2 + (hi - 1 - lo) = y.2.2)
   | _, _ => false)

/-- Does inbound window i of partition p accept n bytes at a from a device? -/
def Dev.inWin (d : Dev) (p i a n dev : Nat) (write : Bool) : Bool :=
  let v := d.reg ⟨.dmaInwinCfg, [p, i]⟩
  let base := d.regFld ⟨.dmaInwinBase, [p, i]⟩ 47 0
  bit 20 v && bit (if write then 19 else 18) v && (decide (fld 17 0 v = dev) || decide (fld 17 0 v = 0x3FFFF)) &&
  decide (base ≤ a) && decide (a + n ≤ base + fld 63 24 v) && d.rangeOf p base (base + fld 63 24 v)

/-- A request is refused (R336). -/
def Dev.remoteDenied (d : Dev) (q : Option Nat) (p : Nat) (pkt : Packet) : Dev :=
  let r : Reg := ⟨.dmaInwinStat, [p]⟩
  (((d.count r 31 0 1).setRegFld r 49 32 pkt.src).raise 0x0807 (some p) p).answerNak q pkt 5 p

/-- REMOTE_REQUEST: a WRITE or a READ at its target. `q`: the port it came by. -/
def Dev.remoteRequest (d : Dev) (q : Option Nat) (pkt : Packet) (es : ReadErrs) : Dev :=
  let write := decide (pkt.type = 0x01)
  let n := if write then pkt.payload.length else pkt.want
  match d.addrPart pkt.addr with
  | none => d.answerNak q pkt 6 0
  | some p =>
    if !(upTo 64).any (fun i => d.inWin p i pkt.addr n pkt.src write) then d.remoteDenied q p pkt
    else
      let answer : Packet := { dst := pkt.src, src := 0, addr := pkt.addr, vc := 2, type := if write then 0x04 else 0x03
                               len := 0, spart := p, tag := pkt.tag }
      if write then
        let w := d.localWrite p pkt.addr (markPoison pkt.payload pkt.bad)
        if w.1 then w.2.send answer else w.2.remoteDenied q p pkt
      else
        let r := d.partRead p pkt.addr n es
        match r.1 with
        | none => r.2.remoteDenied q p pkt
        | some bs => r.2.send { answer with len := bs.length, payload := plain bs, bad := poisonedWords bs }

/-- A write of DMA_INWIN_CFG (R348): one that enables a window out of the partition is discarded. -/
def Dev.inWinWrite (d : Dev) (p i : Nat) (v : Word) : Dev :=
  let base := d.regFld ⟨.dmaInwinBase, [p, i]⟩ 47 0
  if bit 20 v ∧ !d.rangeOf p base (base + fld 63 24 v) then d.raise 0x0807 (some p) p
  else d.setReg ⟨.dmaInwinCfg, [p, i]⟩ (v &&& ~~~(maskOf 23 21))

/-- The bulk requests of partition p that wait to be transmitted: TAG and device. -/
def Dev.requestsOf (d : Dev) (p : Nat) : List (Nat × Nat) :=
  (upTo 26).flatMap (fun l => ((d.link l).txq.filter (fun e =>
    decide (e.pkt.src = d.ownId) && decide (e.pkt.spart = p) && (decide (e.pkt.type = 0x01) || decide (e.pkt.type = 0x02)))).map
      (fun e => (e.pkt.tag, e.pkt.dst)))

/-- Requests that a revocation has discarded unsent (R433) are outstanding no more. -/
def Dev.dmaForget (d : Dev) (l : List (Nat × Nat)) : Dev :=
  (upTo 16).foldl (fun (d : Dev) g => d.onRun g (fun r => { r with outst := r.outst.filter (fun o => !l.contains (o.tag, o.dev)) })) d

/-! ## Prune and revocation (R333, R337, R533) -/

/-- Bursts in flight at an abort that no command names: any number that the transfer has left. -/
def Dev.dmaFree (d : Dev) (g : Nat) : Nat :=
  match (d.dmaEng g).run with
  | some r => (Config.freeWord d.fresh).toNat % (r.desc.total - r.issued + 1)
  | none => 0

/-- Every channel of cluster g that `hit` names aborts. -/
def Dev.dmaAbortAll (d : Dev) (g : Nat) (cause : AbortCause) (hit : DmaCh → Bool) : Dev :=
  (upTo 16).foldl (fun (d : Dev) ch =>
    if hit ((d.dmaEng g).chan ch) then (d.dmaAbortBy g ch cause (d.dmaFree g)).tick else d) d

/-- A prune of core c aborts the channels that it owns (R533). -/
def Dev.dmaPrune (d : Dev) (c : Nat) : Dev :=
  (upTo 16).foldl (fun (d : Dev) g => d.dmaAbortAll g .prune (fun x => decide (x.owner = c))) d

/-- Revocation of partition p (R337): windows close, every channel aborts. -/
def Dev.dmaRevoke (d : Dev) (p : Nat) : Dev :=
  let d1 := (upTo 64).foldl (fun (d : Dev) i => d.setRegFld ⟨.dmaInwinCfg, [p, i]⟩ 20 20 0) d
  (d1.partClusters p).foldl (fun (d : Dev) g =>
    let d2 := (upTo 63).foldl (fun (d : Dev) w =>
      (d.setReg ⟨.dmaWinBase, [g, w + 1]⟩ 0).setReg ⟨.dmaWinCfg, [g, w + 1]⟩ 0) d
    d2.dmaAbortAll g .revoke (fun _ => true)) d1

/-- Revocation of partition p (R520): its cluster units end any feed and return to reset; the fold of a descriptor that still
has bursts in flight ends with its unit. -/
def Dev.cvuRevoke (d : Dev) (p : Nat) : Dev :=
  (d.partClusters p).foldl (fun (d : Dev) g =>
    let d1 := ((d.cvuStop (2 * g)).cvuStop (2 * g + 1)).onRun g (fun r =>
      if r.desc.cvu = 0 then r else { r with folding := false, foldStopped := true })
    (d1.cvuReset (2 * g)).cvuReset (2 * g + 1)) d

/-- Is a channel of cluster g still aborting? -/
def Dev.dmaAborting (d : Dev) (g : Nat) : Bool := (upTo 16).any (fun ch => ((d.dmaEng g).chan ch).st = .aborting)

/-- Is a channel that core c owns still aborting? -/
def Dev.dmaAbortingOf (d : Dev) (c : Nat) : Bool :=
  (upTo 16).any (fun g => (upTo 16).any (fun ch =>
    let x := (d.dmaEng g).chan ch
    decide (x.st = .aborting) && decide (x.owner = c)))

/-! ## Register words -/

/-- DMA_CH_CTRL (R345). -/
def Dev.dmaCtrlWord (d : Dev) (g ch : Nat) : Word :=
  let x := (d.dmaEng g).chan ch
  putBit 0 (d.dmaEn g ch) ||| put 16 8 x.owner ||| put 63 32 x.epoch

/-- DMA_CH_STATUS (R346). -/
def Dev.dmaStatusWord (d : Dev) (g ch : Nat) : Word :=
  let e := d.dmaEng g
  let x := e.chan ch
  let running := match e.run with
    | some r => if r.ch = ch then 1 else 0
    | none => 0
  put 2 0 x.st.code ||| put 5 3 x.last ||| put 13 8 (x.batch.length + running) ||| put 31 16 x.head |||
  put 47 32 (d.regFld ⟨.dmaChStatus, [g, ch]⟩ 47 32) ||| put 63 48 x.event

end Sys2Proof.Machine
end

