-- ==== Sys2Proof/Machine/Red.lean ====
section
/-! DEFINITION. The port engines: stage tables, sums, deadlines, promotion, abstain, the all-gather (R451 to R484). -/
namespace Sys2Proof.Machine

/-! ## Stage and input fields (R457, R458) -/

/-- Word i of a stage. -/
def RedStage.w (s : RedStage) (i : Nat) : Nat := s.words.getD i 0
/-- Stage number. -/
def RedStage.num (s : RedStage) : Nat := bits 11 0 (s.w 0)
/-- KIND: 0 LEAF, 1 HOP, 2 FINAL, 3 GSEND, 4 GRECV. -/
def RedStage.kind (s : RedStage) : Nat := bits 15 12 (s.w 0)
/-- Output exponent offset, or FINAL's reference. -/
def RedStage.off (s : RedStage) : Nat := bits 24 21 (s.w 0)
/-- Remote inputs. -/
def RedStage.nin (s : RedStage) : Nat := bits 27 25 (s.w 0)
/-- Has a local contribution. -/
def RedStage.loc (s : RedStage) : Bool := bits 28 28 (s.w 0) = 1
/-- Tensor. -/
def RedStage.tensor (s : RedStage) : Nat := bits 47 32 (s.w 0)
/-- Pipeline stage of a GRECV's slot. -/
def RedStage.pstage (s : RedStage) : Nat := bits 53 48 (s.w 0)
/-- First chunk. -/
def RedStage.ch0 (s : RedStage) : Nat := bits 23 0 (s.w 1)
/-- Chunks. -/
def RedStage.nch (s : RedStage) : Nat := bits 47 24 (s.w 1)
/-- Launch offset. -/
def RedStage.launch (s : RedStage) : Nat := bits 15 0 (s.w 2)
/-- Input deadline. -/
def RedStage.dead (s : RedStage) : Nat := bits 31 16 (s.w 2)
/-- Deadline of the destination's inputs. -/
def RedStage.odead (s : RedStage) : Nat := bits 47 32 (s.w 2)
/-- Local bytes per Tempo under THROTTLE, in 4 KiB. -/
def RedStage.thrb (s : RedStage) : Nat := bits 63 48 (s.w 2)
/-- Destinations (device, stage, partition) that take output. -/
def RedStage.outs (s : RedStage) : List (Nat × Nat × Nat) :=
  let a := (bits 17 0 (s.w 3), bits 29 18 (s.w 3), bits 31 30 (s.w 3))
  let b := (bits 49 32 (s.w 3), bits 61 50 (s.w 3), bits 63 62 (s.w 3))
  (if s.kind = 3 ∨ s.kind = 4 then [a, b] else [a]).filter (fun x => x.2.1 ≠ 0xFFF)
/-- BASE. -/
def RedStage.base (s : RedStage) : Nat := bits 47 0 (s.w 4)
/-- Semaphore. -/
def RedStage.sem (s : RedStage) : Nat := bits 61 48 (s.w 4)
/-- First parameter. -/
def RedStage.param0 (s : RedStage) : Nat := bits 33 0 (s.w 5)
/-- Completion word. -/
def RedStage.cword (s : RedStage) : Nat := bits 47 0 (s.w 6)

/-- PRIMARY of input j. -/
def RedStage.primary (s : RedStage) (j : Nat) : Nat := bits 17 0 (s.ins.getD j (0, 0)).1
/-- BACKUP of input j, where it is used. -/
def RedStage.backup (s : RedStage) (j : Nat) : Option Nat :=
  let w := (s.ins.getD j (0, 0)).1
  if bits 36 36 w = 1 then some (bits 35 18 w) else none
/-- Offset of input j; the local contribution (j = NIN) enters at 0 (R456). -/
def RedStage.soff (s : RedStage) (j : Nat) : Nat := if j < s.nin then bits 52 49 (s.ins.getD j (0, 0)).1 else 0
/-- Contributions that input j stands for. -/
def RedStage.nom (s : RedStage) (j : Nat) : Nat := if j < s.nin then bits 19 0 (s.ins.getD j (0, 0)).2 else 1

/-- The inputs: remote ones 0 to NIN − 1, the local one NIN. -/
def RedStage.inputs (s : RedStage) : List Nat := upTo (s.nin + if s.loc then 1 else 0)

/-- The least offset among a chunk's inputs (R464). -/
def RedStage.offMin (s : RedStage) : Nat :=
  match s.inputs.map s.soff with
  | [] => 0
  | x :: xs => xs.foldl min x

/-! ## Access -/

/-- Partition p's reduction program. -/
def Dev.red (d : Dev) (p : Nat) : RedPart := FMap.getD d.reds p {}

/-- Change it. -/
def Dev.onRed (d : Dev) (p : Nat) (f : RedPart → RedPart) : Dev := { d with reds := FMap.set d.reds {} p (f (d.red p)) }

/-- Stage n of partition p. -/
def Dev.redStage (d : Dev) (p n : Nat) : Option RedStage := FMap.find? (d.red p).stages n

/-- Change the activation of stage n. -/
def Dev.onAct (d : Dev) (p n : Nat) (f : RedAct → RedAct) : Dev :=
  d.onRed p (fun r => { r with stages := r.stages.map (fun e =>
    if e.1 = n then (e.1, { e.2 with act := e.2.act.map f }) else e) })

/-- Chunk i of an activation. -/
def RedAct.chunk (a : RedAct) (i : Nat) : RedChunk := FMap.getD a.chunks i {}

/-- Change chunk i. -/
def RedAct.onChunk (a : RedAct) (i : Nat) (f : RedChunk → RedChunk) : RedAct :=
  { a with chunks := FMap.set a.chunks {} i (f (a.chunk i)) }

/-- An event of a stage: its bit, LAST, the event (R481, R483). UNIT is the port engine. -/
def Dev.redEvent (d : Dev) (p : Nat) (s : RedStage) (i src bit_ code : Nat) : Dev :=
  let d1 := d.setRegFld ⟨.dvoRedEvent, [p]⟩ bit_ bit_ 1
  (d1.setReg ⟨.dvoRedLast, [p]⟩ (put 11 0 s.num ||| put 35 12 (s.ch0 + i) ||| put 53 36 src)).raise code (some p) s.port

/-- Count in DVO_RED_COUNT: field k of 16 bits. -/
def Dev.redCount (d : Dev) (p k n : Nat) : Dev := d.count ⟨.dvoRedCount, [p]⟩ (16 * k + 15) (16 * k) n

/-- Count in DVO_RED_CHECK. -/
def Dev.redCheck (d : Dev) (p k : Nat) : Dev := d.count ⟨.dvoRedCheck, [p]⟩ (16 * k + 15) (16 * k) 1

/-- Absent input chunks: counted, and the event once per stage and activation (R469); `src` is the device that chunk i should have
come from (R483). -/
def Dev.redAbsent (d : Dev) (p n i src cnt : Nat) : Dev :=
  if cnt = 0 then d
  else
    let d1 := d.redCount p 1 cnt
    match d1.redStage p n with
    | some s =>
      match s.act with
      | some a => if a.absentEv then d1
        else (d1.onAct p n (fun a => { a with absentEv := true })).redEvent p s i src 1 0x0C42
      | none => d1
    | none => d1

/-! ## Chunks on the wire (R452, R453) -/

/-- The checksum of codes (R453). -/
def redSum (cs : List Int) : Nat := low 32 (((upTo cs.length).zip cs).foldl (fun (a : Int) x => a + (2 * x.1 + 1 : Nat) * x.2) 0)

/-- A trailer. -/
structure Trailer where
  csum : Nat
  present : Nat
  nominal : Nat
  maxe : Int
  sat : Bool
  abstain : Bool
  zero : Bool
  ring : Nat
  deriving DecidableEq, Repr

/-- The trailer of a payload's first 16 bytes. -/
def Trailer.of (bs : List Byte) : Trailer :=
  let v := natOfBytes (bs.take 16)
  ⟨bits 31 0 v, bits 51 32 v, bits 71 52 v, sext 8 (bits 79 72 v), v.testBit 80, v.testBit 81, decide (bits 95 82 v = 0), bits 127 96 v⟩

/-- Its bytes. -/
def Trailer.bytes (t : Trailer) : List Byte :=
  bytesOf 16 (t.csum % 2 ^ 32 + (t.present % 2 ^ 20) <<< 32 + (t.nominal % 2 ^ 20) <<< 52 + (low 8 t.maxe) <<< 72 +
    (if t.sat then 2 ^ 80 else 0) + (if t.abstain then 2 ^ 81 else 0) + (t.ring % 2 ^ 32) <<< 96)

/-- Codes of bytes. -/
def codesOf (bs : List Byte) : List Int := bs.map (fun b => b.toInt)

/-- 16-bit halves of bytes. -/
def halvesOf (bs : List Byte) : List Nat := unpackElems 16 (bs.length / 2) (natOfBytes bs)

/-- The relative exponent of n units of 2^e, e relative to the reference (R455); none for zero. -/
def relExp (n : Int) (e : Int) : Option Int := if n = 0 then none else some (flog2 n.natAbs e)

/-- The largest relative exponent of values, −128 when all are zero. -/
def maxRel (ns : List Int) (e : Int) : Int :=
  (ns.filterMap (fun n => relExp n e)).foldl max (-128)

/-- Send a chunk to the stage's destinations. -/
def Dev.redSend (d : Dev) (p : Nat) (s : RedStage) (i type : Nat) (body : List Byte) : Dev :=
  s.outs.foldl (fun (d : Dev) o =>
    d.send { dst := o.1, src := 0, addr := o.2.1 + ((s.ch0 + i) % 2 ^ 24) <<< 12 + o.2.2 <<< 36, vc := 1, type := type
             len := body.length, spart := p, payload := body }) d

/-! ## Settling (R464 to R469) -/

/-- Is input j of chunk i absent? -/
def RedStage.absent (s : RedStage) (a : RedAct) (i j : Nat) : Bool :=
  a.past ||
  (if j < s.nin then
    (s.backup j).isNone && (match FMap.find? a.pab j with | some k => decide (k ≤ i) | none => false)
   else (a.chunk i).lbad || (match a.abst with | some k => decide (k ≤ i) | none => false))

/-- Is it present? -/
def RedAct.present (a : RedAct) (i j : Nat) : Bool := (FMap.find? (a.chunk i).got j).isSome

/-- Every input is present or absent. -/
def RedStage.settled (s : RedStage) (a : RedAct) (i : Nat) : Bool :=
  s.inputs.all (fun j => a.present i j || s.absent a i j)

/-- The exact sums, with what the adder got wrong (R464). -/
def RedStage.sums (s : RedStage) (c : RedChunk) : List Int :=
  let add := s.inputs.foldl (fun (acc : List Int) j =>
    match FMap.find? c.got j with
    | some g => acc.zipWith (fun x y => x + y * 2 ^ (s.soff j - s.offMin)) g.codes
    | none => acc) (List.replicate 256 0)
  ((upTo 256).zip add).map (fun x => x.2 + FMap.getD c.err x.1 0)

/-- The sum of the entered checksums. -/
def RedStage.entered (s : RedStage) (c : RedChunk) : Nat :=
  (s.inputs.foldl (fun (acc : Nat) j =>
    match FMap.find? c.got j with
    | some g => acc + g.csum * 2 ^ (s.soff j - s.offMin)
    | none => acc) 0) % 2 ^ 32

/-- Address of a tensor's scale entry (R456). -/
def Dev.scaleAddr (d : Dev) (p t : Nat) : Nat := d.regFld ⟨.dvoRedScale, [p]⟩ 47 0 + 8 * t

/-- The agreed exponent of a tensor; of an entry that does not read, a free value. -/
def Dev.scaleX (d : Dev) (p t : Nat) : Int × Dev :=
  let r := d.sramRead (d.scaleAddr p t) 8
  match r.1 with
  | .ok bs => if anyPoison bs then (sext 8 (Config.freeWord r.2.fresh).toNat, r.2.tick) else (sext 8 (natOfBytes (plain bs)), r.2)
  | .off => (sext 8 (Config.freeWord r.2.fresh).toNat, r.2.tick)

/-- A gradient (R467): s · 2^e · nominal / present, correctly rounded. -/
def redGrad (s : Int) (e : Int) (nominal present : Nat) : Lane :=
  let n := s.natAbs * nominal
  if n = 0 then 0
  else
    let k := 64 + present.log2
    (laneRound (decide (s < 0)) ⟨(n <<< k) / present, e - k, decide ((n <<< k) % present ≠ 0)⟩).1

/-- A HOP's requantised codes and whether one was clipped (R465). -/
def requantise (key stream row ch : Nat) (e : Int) (ss : List Int) : List Int × Bool :=
  let os := ((upTo ss.length).zip ss).map (fun x =>
    let r := roundInt 40 .sr (sr16 key stream row (256 * ch + x.1)) (decide (x.2 < 0)) ⟨x.2.natAbs, e, false⟩
    r.1)
  (os.map (fun o => if 127 < o then 127 else if o < -127 then -127 else o), os.any (fun o => decide (127 < o.natAbs)))

/-- A tensor's record for a ring, fresh where it holds another. -/
def redTensor (m : FMap RedTensor) (t ring : Nat) : RedTensor :=
  match FMap.find? m t with
  | some x => if x.ring = ring then x else { ring := ring }
  | none => { ring := ring }

/-- The report of a port-engine fault (R464). -/
def Dev.peFault (d : Dev) (q : Nat) : Dev :=
  let ps := (upTo 4).filter (fun p => (d.red p).stages.any (fun e => e.2.port = q))
  let d1 := ps.foldl (fun (d : Dev) p => d.faultPart 0x0C45 p [.stages q]) d
  if (FMap.find? d1.peMoves q).isSome then d1 else { d1 with peMoves := FMap.insert d1.peMoves q .reported }

/-- A settled chunk goes out: to the destination, or to Neano. -/
def Dev.redEmit (d : Dev) (p n i : Nat) : Dev :=
  match d.redStage p n with
  | none => d
  | some s =>
    match s.act with
    | none => d
    | some a =>
      let c := a.chunk i
      let gs := s.inputs.filterMap (fun j => FMap.find? c.got j)
      let sums0 := s.sums c
      let ok := decide (s.entered c = redSum sums0)
      let nominal := (s.inputs.map s.nom).sum
      let present := if ok then (gs.map (fun g => g.present)).sum else 0
      let sums := if ok then sums0 else List.replicate 256 0
      let sat := gs.any (fun g => g.sat)
      let heard := (gs.map (fun g => g.maxe)).foldl max (-128)
      let maxe := if !ok ∨ s.kind = 0 then heard else max heard (maxRel sums ((s.offMin : Int) - s.off))
      let d1 := if ok then d
        else ((d.redEvent p s i d.ownId 4 0x0C45).redCheck p 1).peFault s.port
      let d2 := d1.onAct p n (fun a => ({ a with next := if s.kind = 2 then a.next else i + 1 } : RedAct).onChunk i (fun c =>
        { c with got := [], hold := [], err := [] }))
      if s.kind = 2 then
        let x := d2.scaleX p s.tensor
        let d3 := if present = 0 then x.2.redEvent p s i d.ownId 8 0x0C49 else x.2
        let vals := if present = 0 then List.replicate 256 laneNaN
          else sums.map (fun v => redGrad v (x.1 + s.offMin) nominal present)
        let t := redTensor (d3.red p).shard s.tensor a.ring
        ((d3.onAct p n (fun a => { a with done := NSet.add a.done i })).onRed p (fun r => { r with
          shard := FMap.insert r.shard s.tensor { t with maxe := max t.maxe maxe, sat := t.sat || sat } })).neaDeliver p
            ⟨s.param0 + 256 * i, a.ring, vals⟩
      else
        let rq := if s.kind = 1 then
            requantise (d.reg ⟨.dvoRedKey, [p]⟩).toNat (2 ^ 31 + 256 * s.tensor + s.num % 256) (a.ring % 2 ^ 32) (s.ch0 + i)
              ((s.offMin : Int) - s.off) sums
          else (sums, false)
        let d3 := if rq.2 then d2.redEvent p s i d.ownId 7 0x0C48 else d2
        d3.redSend p s i 0x10 ((Trailer.bytes ⟨redSum rq.1, present, nominal, maxe, sat || rq.2, false, true, a.ring⟩) ++
          rq.1.map (fun o => BitVec.ofInt 8 o))

/-- A LEAF or HOP sends its settled chunks in order (R465). -/
def Dev.redAdvance (d : Dev) (p n : Nat) : (fuel : Nat) → Dev
  | 0 => d
  | fuel + 1 =>
    match d.redStage p n with
    | some s =>
      match s.act with
      | some a => if a.next < s.nch ∧ s.settled a a.next then (d.redEmit p n a.next).redAdvance p n fuel else d
      | none => d
    | none => d

/-- What has settled goes out: in order, or, for a FINAL, any of the chunks named (R465, R467). -/
def Dev.redSettle (d : Dev) (p n : Nat) (cands : List Nat) : Dev :=
  match d.redStage p n with
  | none => d
  | some s =>
    match s.act with
    | none => d
    | some a =>
      if s.kind = 2 then
        cands.foldl (fun (d : Dev) i =>
          match d.redStage p n with
          | some s' => (match s'.act with
            | some a' => if i < s.nch ∧ !NSet.has a'.done i ∧ s'.settled a' i then d.redEmit p n i else d
            | none => d)
          | none => d) d
      else if s.kind ≤ 1 then d.redAdvance p n (s.nch - a.next)
      else d

/-- A chunk of the activation that has not gone out. -/
def RedStage.open_ (s : RedStage) (a : RedAct) (i : Nat) : Bool :=
  if s.kind = 2 then !NSet.has a.done i else decide (a.next ≤ i)

/-! ## Room in an engine (R461, R484) -/

/-- Chunk accumulators that an activation uses. -/
def RedStage.accs (s : RedStage) : Nat :=
  match s.act with
  | some a => (a.chunks.filter (fun e => s.open_ a e.1 && e.2.got.any (fun g => decide (g.1 < s.nin)))).length
  | none => 0

/-- Backup holds that it uses. -/
def RedStage.holds (s : RedStage) : Nat :=
  match s.act with
  | some a => (a.chunks.map (fun e => e.2.hold.length)).sum
  | none => 0

/-- The stages of engine q. -/
def Dev.peStages (d : Dev) (q : Nat) : List RedStage :=
  (d.reds.map (fun e => (e.2.stages.map Prod.snd).filter (fun s => s.port = q))).flatten

/-- Accumulators in use. -/
def Dev.peAccs (d : Dev) (q : Nat) : Nat := ((d.peStages q).map RedStage.accs).sum

/-- Holds in use. -/
def Dev.peHolds (d : Dev) (q : Nat) : Nat := ((d.peStages q).map RedStage.holds).sum

/-! ## Arrivals (R460, R463, R468, R471) -/

/-- Accumulators that stage s lacks in its engine when the held copies of input j take the primary's place in the chunks `is` (R461,
R468): a chunk with a remote copy has its own already. -/
def Dev.redLacks (d : Dev) (s : RedStage) (a : RedAct) (j : Nat) (is : Nat → Bool) : Bool :=
  decide (1024 < d.peAccs s.port + (a.chunks.filter (fun e => is e.1 && (FMap.find? e.2.hold j).isSome && s.open_ a e.1 &&
    !e.2.got.any (fun g => decide (g.1 < s.nin)))).length)

/-- A held backup copy is added in the primary's place (R468). -/
def Dev.redPromote (d : Dev) (p n j i : Nat) : Dev :=
  match d.redStage p n with
  | some s =>
    match s.act with
    | some a =>
      match FMap.find? (a.chunk i).hold j with
      | some g =>
        let d1 := d.onAct p n (fun a => a.onChunk i (fun c =>
          { c with got := FMap.insert c.got j g, hold := FMap.remove c.hold j }))
        (d1.redEvent p s i ((s.backup j).getD 0) 0 0x0C41).redCount p 0 1
      | none => d
    | none => d
  | none => d

/-- A difference between the copies of a primary and its backup (R468). -/
def Dev.redMismatch (d : Dev) (p : Nat) (s : RedStage) (i src : Nat) : Dev :=
  ((d.redEvent p s i src 5 0x0C46).redCheck p 2).faultPart 0x0C46 p [.nextEdge false]

/-- An abstain from input j for chunk i on (R471). -/
def Dev.redAbstainIn (d : Dev) (p n j i : Nat) (primary : Bool) : Dev :=
  match d.redStage p n with
  | none => d
  | some s =>
    match s.act with
    | none => d
    | some a =>
      let from_ := fun (m : FMap Nat) => FMap.insert m j (min i (FMap.getD m j i))
      if primary then
        let d1 := d.onAct p n (fun a => { a with pab := from_ a.pab })
        let d2 := if (s.backup j).isSome then
            ((a.chunks.filter (fun e => i ≤ e.1 ∧ (FMap.find? e.2.hold j).isSome)).map Prod.fst).foldl
              (fun (d : Dev) k => d.redPromote p n j k) d1
          else
            let cnt := ((upTo s.nch).filter (fun k => i ≤ k && s.open_ a k && !a.present k j && !s.absent a k j)).length
            d1.redAbsent p n i (s.primary j) cnt
        d2.redSettle p n ((upTo s.nch).filter (fun k => i ≤ k))
      else
        d.onAct p n (fun a => { a with
          bab := from_ a.bab
          chunks := a.chunks.map (fun e => if i ≤ e.1 then (e.1, { e.2 with hold := FMap.remove e.2.hold j }) else e) })

/-- An arriving REDUCE chunk of a running activation; false where it finds no accumulator or hold (R461). -/
def Dev.redChunkIn (d : Dev) (p n j i src : Nat) (primary : Bool) (t : Trailer) (codes : List Int) (good : Bool)
    (upset : Option (Nat × Int)) : Bool × Dev :=
  match d.redStage p n with
  | none => (true, d)
  | some s =>
    match s.act with
    | none => (true, d)
    | some a =>
      let c := a.chunk i
      let copy : RedCopy := ⟨codes, t.csum, t.present, t.maxe, t.sat⟩
      let full := !c.got.any (fun g => decide (g.1 < s.nin)) && decide (1024 ≤ d.peAccs s.port)
      let err := fun (c : RedChunk) => match upset with
        | some (e, v) => { c with err := FMap.set c.err 0 e (FMap.getD c.err e 0 + v) }
        | none => c
      let add := fun (d : Dev) => (d.onAct p n (fun a => a.onChunk i (fun c =>
        err { c with got := FMap.insert c.got j copy }))).redSettle p n [i]
      if primary && (!good || t.abstain) && d.redLacks s a j (fun k => if good then decide (i ≤ k) else decide (k = i)) then (false, d)
      else if !good then
        let d1 := (d.redEvent p s i src 3 0x0C44).redCheck p 0
        if primary then
          let d2 := d1.onAct p n (fun a => a.onChunk i (fun c => { c with pfail := if c.pfail.contains j then c.pfail else c.pfail ++ [j] }))
          (true, (d2.redPromote p n j i).redSettle p n [i])
        else (true, d1)
      else if t.abstain then (true, d.redAbstainIn p n j i primary)
      else if primary then
        if a.present i j || !s.open_ a i || decide ((FMap.getD a.pab j s.nch) ≤ i) then (true, d)
        else if full then (false, d)
        else
          let d1 := match FMap.find? c.hold j with
            | some h => if h.csum ≠ t.csum then d.redMismatch p s i src else d
            | none => d
          (true, add (d1.onAct p n (fun a => a.onChunk i (fun c =>
            { c with hold := FMap.remove c.hold j, csums := FMap.insert c.csums j t.csum }))))
      else
        match FMap.find? c.csums j with
        | some x => (true, if x ≠ t.csum then d.redMismatch p s i src else d)
        | none =>
          if decide ((FMap.getD a.bab j s.nch) ≤ i) || a.present i j || !s.open_ a i || (FMap.find? c.hold j).isSome then (true, d)
          else if c.pfail.contains j || decide ((FMap.getD a.pab j s.nch) ≤ i) then
            if full then (false, d)
            else
              let d1 := d.onAct p n (fun a => a.onChunk i (fun c => err { c with hold := FMap.insert c.hold j copy }))
              (true, (d1.redPromote p n j i).redSettle p n [i])
          else if 512 ≤ d.peHolds s.port then (false, d)
          else (true, d.onAct p n (fun a => a.onChunk i (fun c => err { c with hold := FMap.insert c.hold j copy })))

/-! ## Gathered chunks (R455, R473 to R475) -/

/-- The slot that takes a ring's chunks: FILLING with it (R199). -/
def GenTable.filling (t : GenTable) (stage ring : Nat) : Option Nat :=
  (upTo 2).find? (fun g => decide ((t.slot stage g).st = .filling) && decide ((t.slot stage g).ring = ring))

/-- The next agreed exponent (R455). -/
def nextX (x m : Int) : Int := if m = -128 then x else max (-128) (min 112 (x + m - 4))

/-- Write bytes of a port engine to HBM or a grove memory of partition p. -/
def Dev.redWrite (d : Dev) (p a : Nat) (bs : List Byte) : Dev := (d.localWrite p a (clean bs)).2

/-- All chunks of a GRECV have been written: completion word, slot, signal, scale entry (R474). -/
def Dev.gatherComplete (d : Dev) (p n : Nat) : Dev :=
  match d.redStage p n with
  | none => d
  | some s =>
    match s.act with
    | none => d
    | some a =>
      let ring := a.ring + 1
      let d1 := (d.onAct p n (fun a => { a with complete := true })).redWrite p s.cword (bytesOf 8 (ring % 2 ^ 32))
      let all := (d1.red p).stages.all (fun e => e.2.kind ≠ 4 || e.2.pstage ≠ s.pstage ||
        (match e.2.act with | some b => decide (b.ring = a.ring) && b.complete | none => false))
      let t := d1.gen p
      let d2 := match t.filling s.pstage ring with
        | some g => if all ∧ !(t.slot s.pstage g).missed then d1.setGen p (t.ready s.pstage g).2 else d1
        | none => d1
      let d3 := d2.semSend { id := 0, who := .port s.port, kind := .sig, sem := s.sem, n := 1 }
      let m := redTensor (d3.red p).gather s.tensor a.ring
      let x := match m.x with
        | some x => (x, d3)
        | none => d3.scaleX p s.tensor
      let d4 := x.2.onRed p (fun r => { r with gather := FMap.insert r.gather s.tensor { m with x := some x.1 } })
      d4.redWrite p (d4.scaleAddr p s.tensor) (bytesOf 8
        (low 8 (nextX x.1 m.maxe) + (low 8 m.maxe) <<< 8 + (if m.sat then 2 ^ 16 else 0) + (ring % 2 ^ 32) <<< 32))

/-- An arriving GATHER chunk of a running activation (R474). -/
def Dev.gatherIn (d : Dev) (p n i src : Nat) (t : Trailer) (body : List Byte) (good : Bool) : Dev :=
  match d.redStage p n with
  | none => d
  | some s =>
    match s.act with
    | none => d
    | some a =>
      if !good then (d.redEvent p s i src 3 0x0C44).redCheck p 0
      else if NSet.has a.done i then d
      else
        let m := redTensor (d.red p).gather s.tensor a.ring
        let d1 := (d.onAct p n (fun a => { a with done := NSet.add a.done i })).onRed p (fun r => { r with
          gather := FMap.insert r.gather s.tensor { m with maxe := max m.maxe t.maxe, sat := m.sat || t.sat } })
        let g := if a.discards then none else (d1.gen p).filling s.pstage (a.ring + 1)
        let d2 := match g with
          | some g => d1.redWrite p (((d1.gen p).slot s.pstage g).page * 0x200000 + s.base + 256 * i) (body.drop 16)
          | none => d1.onAct p n (fun a => { a with discards := true })
        let d3 := d2.redSend p s i 0x11 body
        if a.done.length + 1 = s.nch ∧ g.isSome then d3.gatherComplete p n else d3

/-! ## The receiving engine -/

/-- The ring that a stage's inputs carry now: the last launched, or the one before the first (R460). -/
def Dev.redRing (d : Dev) (p : Nat) (s : RedStage) : Int :=
  match s.act with
  | some a => a.ring
  | none => (d.reg ⟨.dvoRedRing0, [p]⟩).toNat - 1

/-- A REDUCE or GATHER packet at its engine (R454, R460, R463); false where it stays in the link buffer. -/
def Dev.redTry (d : Dev) (x : QPkt) (upset : Option (Nat × Int)) : Bool × Dev :=
  let k := x.pkt
  let n := bits 11 0 k.addr
  let p := bits 37 36 k.addr
  let gather := decide (k.type = 0x11)
  match d.redStage p n with
  | none => (true, d.answerNak x.port k 6 p)
  | some s =>
    let ch := bits 35 12 k.addr
    let i := ch - s.ch0
    if ch < s.ch0 ∨ s.nch ≤ i ∨ (gather ∧ (s.kind = 1 ∨ s.kind = 2)) ∨ (!gather ∧ s.kind = 4) then (true, d.answerNak x.port k 6 p)
    else
      let roles := (upTo s.nin).filterMap (fun j =>
        if s.primary j = k.src then some (j, true) else if s.backup j = some k.src then some (j, false) else none)
      match roles with
      -- a LEAF or a GSEND has no input, so that every chunk for it fails the check of its source (R463)
      | [] => (true, (d.redCheck p 0).answerNak x.port k 6 p)
      | (j, primary) :: _ =>
        let t := Trailer.of k.payload
        let now := d.redRing p s + (if gather then 1 else 0)
        if (t.ring : Int) = (now + 1) % 2 ^ 32 then (false, d)
        else if (t.ring : Int) ≠ now % 2 ^ 32 ∨ s.act.isNone then
          (true, (d.redEvent p s i k.src 6 0x0C47).redCheck p 3)
        else if (s.act.map (fun a => a.past)).getD false then (true, d.redCount p 2 1)
        else
          let body := k.payload.drop 16
          if gather then
            let good := decide (k.payload.length = 272) && t.zero && !t.abstain && k.bad.isEmpty &&
              decide (redSum ((halvesOf body).map Int.ofNat) = t.csum)
            (true, d.gatherIn p n i k.src t k.payload good)
          else
            let codes := codesOf body
            let good := t.zero && k.bad.isEmpty &&
              (if t.abstain then decide (k.payload.length = 16)
               else decide (k.payload.length = 272) && !codes.contains (-128) && decide (redSum codes = t.csum))
            d.redChunkIn p n j i k.src primary t codes good upset

/-- Packets in the link buffer try again, in their order. -/
def Dev.redRetry (d : Dev) : (passes : Nat) → Dev
  | 0 => d
  | passes + 1 =>
    let hs := d.redHeld
    let d1 := hs.foldl (fun (d : Dev) x =>
      let r := d.redTry x none
      if r.1 then r.2.originFree x else { r.2 with redHeld := r.2.redHeld ++ [x] }) { d with redHeld := [] }
    if d1.redHeld.length = hs.length then d1 else d1.redRetry passes

/-- After something has gone out or launched, what waits in the link buffer tries again. -/
def Dev.redAgain (d : Dev) : Dev := d.redRetry d.redHeld.length

/-- REDUCE_RECEIVE, GATHER_RECEIVE: a packet reaches its engine; its cells are freed unless it stays in the link buffer. -/
def Dev.redReceive (d : Dev) (x : QPkt) (upset : Option (Nat × Int)) : Dev :=
  let r := d.redTry x upset
  if r.1 then (r.2.originFree x).redAgain else { r.2 with redHeld := r.2.redHeld ++ [x] }

/-- An output was refused with a NAK of code 6 (R472). -/
def Dev.redNak (d : Dev) (k : Packet) : Dev :=
  let key := (k.src, bits 11 0 k.addr, bits 37 36 k.addr)
  match (upTo 4).findSome? (fun p => ((d.red p).stages.filter (fun e => e.2.outs.contains key)).head?.map (fun e => (p, e.2))) with
  | some (p, s) => if k.code = 6 then (d.redEvent p s (bits 35 12 k.addr - s.ch0) d.ownId 10 0x0C4B).redCount p 3 1 else d
  | none => d

/-! ## The local contribution (R462, R470) -/

/-- An abandoned wait on a ready semaphore is withdrawn. -/
def Dev.redUnwait (d : Dev) (id : Option Nat) : Dev :=
  match id with
  | some k => { d with semReqs := d.semReqs.filter (fun (r : SemReq) => r.id ≠ k), semDone := d.semDone.filter (fun (r : SemDone) => r.id ≠ k) }
  | none => d

/-- Read one local chunk. -/
def Dev.redLocal (d : Dev) (p n : Nat) (es : ReadErrs) : Dev :=
  match d.redStage p n with
  | none => d
  | some s =>
    match s.act with
    | none => d
    | some a =>
      let i := a.read
      let r := d.partRead p (s.base + 256 * i) 256 es
      let d1 := r.2.onAct p n (fun a => { a with read := i + 1 })
      let bs := r.1.getD [(0, true)]
      if !s.open_ a i then d1
      else if anyPoison bs then
        (((d1.onAct p n (fun a => a.onChunk i (fun c => { c with lbad := true }))).redAbsent p n i d.ownId 1)).redSettle p n [i]
      else
        let codes := codesOf (plain bs)
        (d1.onAct p n (fun a => a.onChunk i (fun c => { c with
          got := FMap.insert c.got s.nin ⟨codes, redSum codes, 1, maxRel codes 0, false⟩ }))).redSettle p n [i]

/-- Read local chunks in turn; errors are named by 16 × chunk + sector. -/
def Dev.redLocals (d : Dev) (p n : Nat) (es : ReadErrs) : (cnt : Nat) → Dev
  | 0 => d
  | cnt + 1 => (d.redLocal p n es).redLocals p n (shiftErrs 16 es) cnt

/-- REDUCE_LOCAL_READY: the ready semaphore has been granted; `cnt` further chunks are read and sent (R462). -/
def Dev.reduceLocalReady (d : Dev) (p n cnt : Nat) (es : ReadErrs) : Dev :=
  match d.redStage p n with
  | none => d
  | some s =>
    match s.act with
    | none => d
    | some a =>
      if a.abst.isSome || a.past then d
      else
        let d1 := match a.wait with
          | some id =>
            match d.semDone.find? (fun (r : SemDone) => r.id = id) with
            | some r => ({ d with semDone := d.semDone.filter (fun (x : SemDone) => x.id ≠ id) } : Dev).onAct p n (fun a =>
                { a with wait := none, granted := !r.poison })
            | none => d
          | none => d
        match (d1.redStage p n).bind (fun s => s.act) with
        | some b => if b.granted then (d1.redLocals p n es (min cnt (s.nch - b.read))).redAgain else d1
        | none => d1

/-- A stack that holds an unsent local chunk has one of the states (R470). -/
def Dev.redStack (d : Dev) (s : RedStage) (a : RedAct) (st : Nat) : Bool :=
  (upTo s.nch).any (fun i => decide (a.next ≤ i) &&
    [s.base + 256 * i, s.base + 256 * i + 255].any (fun x =>
      match d.hbmLoc x with
      | some l => decide (((d.hbmTile l.tile).stack (l.q / 32)).edge = st)
      | none => false))

/-- Has the ready semaphore been granted, taken up by REDUCE_LOCAL_READY or not (R470)? -/
def Dev.redGranted (d : Dev) (a : RedAct) : Bool :=
  a.granted || d.semDone.any (fun (r : SemDone) => decide (some r.id = a.wait) && !r.poison)

/-- The decision that edge e's seal takes for an activation: does its local contribution abstain (R470)? -/
def Dev.redDecides (d : Dev) (s : RedStage) (a : RedAct) (e : Nat) : Bool :=
  let u := s.nch - a.next
  let last := a.base + s.odead - 1
  s.loc && a.abst.isNone && decide (a.base + s.launch ≤ e) && decide (e ≤ last) && !a.past && decide (u ≠ 0) &&
  (d.redStack s a 4 || (d.redStack s a 3 && decide (s.thrb * 4096 * (a.base + s.odead - e) < 256 * u)) ||
    (decide (e = last) && !d.redGranted a))

/-- The seal of edge e: what each running activation decides (R470). -/
def Dev.redSeal (d : Dev) (e : Nat) : Dev :=
  { d with reds := d.reds.map (fun x => (x.1, { x.2 with stages := x.2.stages.map (fun y =>
      (y.1, { y.2 with act := y.2.act.map (fun a => { a with due := d.redDecides y.2 a e }) })) })) }

/-- The local contribution abstains from its first unsent chunk on (R470). -/
def Dev.redDecide (d : Dev) (p n : Nat) : Dev :=
  match d.redStage p n with
  | none => d
  | some s =>
    match s.act with
    | none => d
    | some a =>
      let u := s.nch - a.next
      if a.due && !a.past && a.abst.isNone && decide (u ≠ 0) then
        let i := a.next
        let d0 := (d.redUnwait a.wait).onAct p n (fun a => { a with abst := some i, wait := none })
        let d1 := (d0.redEvent p s i d.ownId 2 0x0C43).redCount p 1 u
        if s.kind = 0 then
          (d1.redSend p s i 0x10 (Trailer.bytes ⟨0, 0, 1, -128, false, true, true, a.ring⟩)).onAct p n (fun a => { a with next := s.nch })
        else (d1.onAct p n (fun a => { a with chunks := a.chunks.map (fun x =>
            if i ≤ x.1 then (x.1, { x.2 with got := FMap.remove x.2.got s.nin }) else x) })).redSettle p n (upTo s.nch)
      else d

/-! ## Edges (R459, R468 to R475) -/

/-- Every stage of every partition. -/
def Dev.redAll (d : Dev) : List (Nat × Nat) := (d.reds.map (fun e => e.2.stages.map (fun s => (e.1, s.1)))).flatten

/-- The input deadline of a stage at edge e (R468, R469). -/
def Dev.redDeadline (d : Dev) (p n e : Nat) : Dev :=
  match d.redStage p n with
  | none => d
  | some s =>
    match s.act with
    | none => d
    | some a =>
      if a.past ∨ a.base + s.dead ≠ e ∨ 2 < s.kind then d
      else
        let holds := (a.chunks.map (fun c => c.2.hold.map (fun h => (h.1, c.1)))).flatten
        let d1 := holds.foldl (fun (d : Dev) x => d.redPromote p n x.1 x.2) d
        match (d1.redStage p n).bind (fun s => s.act) with
        | none => d1
        | some b =>
          let lost := (upTo s.nch).map (fun i =>
            if s.open_ b i then (s.inputs.filter (fun j => !b.present i j && !s.absent b i j)).length else 0)
          let i := lost.findIdx (fun x => x ≠ 0)
          let src := match s.inputs.find? (fun j => !b.present i j && !s.absent b i j) with
            | some j => if j < s.nin then s.primary j else d.ownId
            | none => d.ownId
          ((d1.redAbsent p n i src lost.sum).onAct p n (fun a => { a with past := true })).redSettle p n
            (upTo s.nch)

/-- A GRECV's deadline: the gather misses a group (R474). -/
def Dev.gatherDeadline (d : Dev) (p n e : Nat) : Dev :=
  match d.redStage p n with
  | none => d
  | some s =>
    match s.act with
    | none => d
    | some a =>
      if a.past ∨ a.base + s.dead ≠ e ∨ s.kind ≠ 4 then d
      else
        let d1 := d.onAct p n (fun a => { a with past := true })
        if a.complete then d1
        else
          let ring := a.ring + 1
          let d2 := d1.redWrite p s.cword (bytesOf 8 (ring % 2 ^ 32 + 2 ^ 63))
          let t := d2.gen p
          let d3 := match t.filling s.pstage ring with
            | some g => d2.setGen p (t.onSlot s.pstage g (fun x => { x with missed := true }))
            | none => d2
          (d3.redEvent p s 0 d.ownId 9 0x0C4A).count ⟨.dvoRedStatus, [p]⟩ 31 16 1

/-- The activation of a stage that launches at edge e: its index and base (R459). -/
def Dev.redDue (d : Dev) (p : Nat) (s : RedStage) (e : Nat) : Option (Nat × Nat) :=
  let per := (d.reg ⟨.dvoRedPeriod, [p]⟩).toNat
  let f0 := (d.reg ⟨.dvoRedFirst, [p]⟩).toNat
  let st := (d.red p).start
  let first := if per ≠ 0 ∧ f0 < st then f0 + cdiv (st - f0) per * per else f0
  if per = 0 ∨ e < first + s.launch ∨ (e - first - s.launch) % per ≠ 0 then none
  else some ((e - first - s.launch) / per, e - s.launch)

/-- A stage launches (R459, R462, R475). -/
def Dev.redLaunch (d : Dev) (p n e : Nat) : Dev :=
  match d.redStage p n with
  | none => d
  | some s =>
    match d.redDue p s e with
    | none => d
    | some (k, base) =>
      let ring := (d.reg ⟨.dvoRedRing0, [p]⟩).toNat + k
      let d0 := d.redUnwait (s.act.bind (fun a => a.wait))
      let act : RedAct := { k := k, ring := ring, base := base }
      let act1 : RedAct := { act with due := d0.redDecides s act e }
      let d1 := (d0.onRed p (fun r => { r with k := k, stages := r.stages.map (fun x =>
        if x.1 = n then (x.1, { x.2 with act := some act1 }) else x) })).redDecide p n
      let abst := (((d1.redStage p n).bind (fun s => s.act)).bind (fun a => a.abst)).isSome
      if s.loc ∧ !abst then
        (d1.onAct p n (fun a => { a with wait := some d1.nextReq })).semSend
          { id := 0, who := .port s.port, kind := .wait, sem := s.sem, n := 1 }
      else if s.kind = 4 then
        let g := d1.gatherLaunch p s.pstage (ring + 1)
        if g.1.isNone then g.2.onAct p n (fun a => { a with discards := true }) else g.2
      else d1

/-- Steps 2 to 5 of R472 at edge e. -/
def Dev.redEdge (d : Dev) (e : Nat) : Dev :=
  let ss := d.redAll
  let d1 := ss.foldl (fun (d : Dev) x => d.redDeadline x.1 x.2 e) d
  let d2 := ss.foldl (fun (d : Dev) x => d.gatherDeadline x.1 x.2 e) d1
  let d3 := ss.foldl (fun (d : Dev) x => d.redDecide x.1 x.2) d2
  (ss.foldl (fun (d : Dev) x => d.redLaunch x.1 x.2 e) d3).redAgain

/-- GSEND_CHUNK_READ: the next chunk, once Neano has updated its parameters (R473). The errors that its read meets in the slot's
units are free, since the row carries none (log entry 125). -/
def Dev.gsendRead (d : Dev) (p n : Nat) : Dev :=
  match d.redStage p n, d.ctxOf p with
  | some s, some c =>
    match s.act with
    | some a =>
      if s.kind = 3 ∧ a.next < s.nch then
        let r := d.neaHigh c (a.ring + 1) (s.param0 + 128 * a.next) 128 (Config.unitErrs d.fresh)
        match r.1 with
        | some hs =>
          let t := redTensor (d.red p).shard s.tensor a.ring
          let body := (hs.map (fun h => bytesOf 2 h)).flatten
          (r.2.tick.redSend p s a.next 0x11 ((Trailer.bytes ⟨redSum (hs.map Int.ofNat), 0, 0, t.maxe, t.sat, false, true, a.ring + 1⟩) ++
            body)).onAct p n (fun a => { a with next := a.next + 1 })
        | none => r.2.tick
      else d
    | none => d
  | _, _ => d

/-! ## Moves, load, revocation (R459, R464, R476) -/

/-- The seal passes for moves that are due (R541). -/
def Dev.peSeal (d : Dev) : Dev := { d with peMoves := d.peMoves.map (fun e => (e.1, e.2.seal)) }

/-- Edge e, where it is a step boundary of every training partition with stages on a faulty engine (R529): its stages move to
the lowest-numbered engine of its tile with room (R464). -/
def Dev.peBoundary (d : Dev) (e : Nat) : Dev :=
  d.peMoves.foldl (fun (d : Dev) m =>
    let q := m.1
    let users := (upTo 4).filter (fun p => (d.red p).stages.any (fun x => x.2.port = q))
    if m.2 = .sealed ∧ d.boundaryAll users e then
      let cnt := fun (p r : Nat) => ((d.red p).stages.filter (fun x => x.2.port = r)).length
      let dest_ := ((upTo 6).map (fun k => 6 * (q / 6) + k)).find? (fun r =>
        decide (r ≠ q) && !NSet.has d.peFailed r && (upTo 4).all (fun p => cnt p r + cnt p q ≤ 256) &&
        decide (d.peAccs r + d.peAccs q ≤ 1024) && decide (d.peHolds r + d.peHolds q ≤ 512))
      let d1 : Dev := { d with peMoves := FMap.remove d.peMoves q }
      let d2 : Dev := match dest_ with
        | some r => { d1 with
            peFailed := NSet.add d1.peFailed q
            reds := d1.reds.map (fun x => (x.1, { x.2 with stages := x.2.stages.map (fun s =>
              if s.2.port = q then (s.1, { s.2 with port := r }) else s) })) }
        | none => d1
      d2.remedyDone (.stages q)
    else d) d

/-- Does a stage descriptor keep R457's zero fields and its kind's fields? -/
def RedStage.fieldsOk (s : RedStage) : Bool :=
  decide (s.kind ≤ 4) && decide (s.num ≠ 0xFFF) && decide (bits 20 16 (s.w 0) < 24) && decide (bits 31 29 (s.w 0) = 0) &&
  decide (bits 63 54 (s.w 0) = 0) && decide (bits 63 62 (s.w 4) = 0) && decide (bits 63 34 (s.w 5) = 0) &&
  decide (bits 63 48 (s.w 6) = 0) && decide (s.w 7 = 0) && decide (1 ≤ s.nch) && decide (s.launch < s.dead) &&
  (decide (s.kind = 2) || s.outs.isEmpty || decide (s.dead ≤ s.odead)) &&
  (match s.kind with
   | 0 => s.loc && decide (s.nin = 0) && !s.outs.isEmpty
   | 1 => !s.inputs.isEmpty && !s.outs.isEmpty
   | 2 => !s.inputs.isEmpty && decide (s.base = 0)
   | 3 => decide (s.nin = 0) && !s.loc && !s.outs.isEmpty && decide (s.base = 0)
   | _ => decide (1 ≤ s.nin) && !s.loc) &&
  decide (s.ins.length = s.nin) && s.ins.all (fun x => decide (bits 63 53 x.1 = 0) && decide (bits 63 20 x.2 = 0))

/-- Does the loader accept a stage table (R459)? `per`: PERIOD. -/
def redTableOk (per : Nat) (ss : List RedStage) : Bool :=
  ss.all (fun s => s.fieldsOk && decide (max s.dead s.odead < per)) &&
  decide ((ss.map RedStage.num).eraseDups.length = ss.length) &&
  (upTo 24).all (fun q => decide ((ss.filter (fun s => s.port = q)).length ≤ 256))

/-- Install a stage table; `start` is the program's start edge. -/
def Dev.redLoad (d : Dev) (p start inputs : Nat) (ss : List RedStage) : Dev :=
  d.onRed p (fun _ => { stages := ss.foldl (fun m s => FMap.insert m s.num s) [], inputs := inputs, start := start })

/-- Revocation: activations end, the table goes, what waits in the link buffer is discarded (R433, R476). -/
def Dev.redRevoke (d : Dev) (p : Nat) : Dev :=
  let d1 := (d.red p).stages.foldl (fun (d : Dev) e => d.redUnwait (e.2.act.bind (fun a => a.wait))) d
  let d2 : Dev := { d1 with reds := FMap.remove d1.reds p }
  let mine := fun (x : QPkt) => decide (bits 37 36 x.pkt.addr = p)
  let d3 := (d2.redHeld.filter mine).foldl (fun (d : Dev) x => d.originFree x) d2
  ({ d3 with redHeld := d3.redHeld.filter (fun x => !mine x) } : Dev).redAgain

/-! ## Register words -/

/-- DVO_RED_CFG (R477). -/
def Dev.redCfgWord (d : Dev) (p : Nat) : Word := put 12 0 (d.red p).stages.length ||| put 31 16 (d.red p).inputs

/-- DVO_RED_STATUS (R480). -/
def Dev.redStatusWord (d : Dev) (p : Nat) : Word :=
  let run := ((d.red p).stages.filter (fun e => match e.2.act with
    | some a => decide (d.tempo < a.base + e.2.dead)
    | none => false)).length
  put 12 0 run ||| put 31 16 (d.regFld ⟨.dvoRedStatus, [p]⟩ 31 16) ||| put 63 32 (d.red p).k

/-- DVO_PE_STATUS (R484). -/
def Dev.peStatus (d : Dev) (q : Nat) : Word :=
  put 10 0 (d.peAccs q) ||| put 25 16 (d.peHolds q) ||| put 42 32 (d.peStages q).length ||| putBit 43 (NSet.has d.peFailed q)

end Sys2Proof.Machine
end

