-- ==== Sys2Proof/Machine/Stops.lean ====
section
/-! DEFINITION. Stopping cores and partitions (R39, R213, R240, R498, R535). -/
namespace Sys2Proof.Machine

/-! ## Cores -/

/-- The three engines of a core stop as at a revocation (R135, R172, R319, R571): queues go, requests return unused. -/
def Dev.enginesStop (d : Dev) (c : Nat) : Dev :=
  (d.onCore c (fun x => { x with me := x.me.stopped, ve := x.ve.stopped, fte := x.fte.stopped })).onSq c
    (fun q => { q with engHalt := 0 })

/-- The counters of a fetch engine (R340 to R343) become zero. -/
def Dev.ftePerfClear (d : Dev) (c : Nat) : Dev :=
  d.regsReset [.ftePerfDeliv, .ftePerfLoss, .ftePerfLead, .ftePerfWait] [c]

/-- The counters that read zero after a revocation or a prune (R135, R172, R240, R319), with VE_SOLVE_STATUS and
VE_SOLVE_TOL (R172). -/
def Dev.perfClear (d : Dev) (c : Nat) : Dev :=
  (d.regsReset [.mePerfBusy, .mePerfLoad, .mePerfRows, .mePerfWait, .veSolveTol, .veSolveStatus, .vePerfBusy, .vePerfWait,
    .sqPerfStall] [c]).ftePerfClear c

/-- A core stops and stands HALTED until a program is loaded (R39): a core that is DONE or has no program keeps its state.
Its claims go; waits that stand or travel are taken without it (R230). -/
def Dev.coreHalt (d : Dev) (c : Nat) : Dev :=
  ((d.genDrop c).enginesStop c).onSq c (fun q =>
    match q.st with
    | .idle | .done => q
    | _ => { q with st := .halted, wait := .none, pruned := true })

/-- A core at a revocation (R213, R240): waits and claims go, registers, stacks and counters are cleared, state IDLE. -/
def Dev.coreRevoke (d : Dev) (c : Nat) : Dev :=
  (((d.semDrop c true).genDrop c).enginesStop c |>.perfClear c).onCore c (fun x => { x with sq := x.sq.cleared, alt := {} })

/-! ## Partitions -/

/-- The device stops partition p with MODEL = 2 (R39): the step is abandoned, the resources stay. Only a partition that
runs a program changes. -/
def Dev.stopPart (d : Dev) (p : Nat) : Dev :=
  match (d.part p).st with
  | .running | .noticed =>
    let d1 := d.onPart p (fun x => { x with st := if x.st = .running then .halted else x.st })
    (d1.partCores p).foldl (fun d c => d.coreHalt c) (d1.setRegFld ⟨.tmpDmCtrl, [p]⟩ 9 8 2)
  | _ => d

/-- Every partition that runs a program and has tile t stops (R560, R569). -/
def Dev.stopTile (d : Dev) (t : Nat) : Dev := d.stopPart (d.tilePart t)

/-- Every core of a RUNNING partition is DONE: ENDED, with PRT_PROGRAM_END (R494). A core that is not in service, or that
the image gives no code, does not count. -/
def Dev.programEnd (d : Dev) (p : Nat) : Dev :=
  if (d.part p).st = .running ∧
      (d.partCores p).all (fun c => decide ((d.core c).sq.st = .done) || !d.inService c) then
    (d.onPart p (fun x => { x with st := .ended })).raise 0x0F03 (some p) p
  else d

end Sys2Proof.Machine
end

