-- ==== Sys2Proof/Machine/Power.lean ====
section
/-! DEFINITION. Clocks, voltage and power states (18): clock enables, PLLs, operating points, the control loop, tile power
states (R557 to R580). -/
namespace Sys2Proof.Machine

/-! ## Clock enables (R570, R571) -/

/-- Block k (1 to 3) stops as at a revocation: an engine of core i, or the DMA engine, CVU 0, CVU 1 of cluster i. -/
def Dev.blockStop (d : Dev) (core : Bool) (i k : Nat) : Dev :=
  if core then
    let d1 := match k with
      | 1 => d.onMe i Me.stopped
      | 2 => d.onVe i Ve.stopped
      | _ => d.onFte i Fte.stopped
    let d2 : Dev := { d1 with
      semReqs := d1.semReqs.filter (fun r => !(decide (r.who = .eng i k) && decide (r.kind = .wait)))
      semDone := d1.semDone.filter (fun r => !decide (r.who = .eng i k)) }
    d2.onSq i (fun q => { q with engHalt := q.engHalt &&& ~~~(BitVec.ofNat 3 (2 ^ (k - 1))) })
  else if k = 1 then d.dmaAbortAll i .software (fun _ => true)
  else (d.cvuStop (2 * i + k - 2)).onRun i (fun r =>
    if r.folding ∧ r.desc.cvu = k - 1 then { r with foldStopped := true } else r)

/-- Block k takes its reset values (R571). ME_COLUMN belongs to the physical core and stays. -/
def Dev.blockReset (d : Dev) (core : Bool) (i k : Nat) : Dev :=
  if core then
    match k with
    | 1 =>
      (d.onMe i (fun _ => {})).regsReset [.meFlagsSnap, .mePerfBusy, .mePerfLoad, .mePerfRows, .mePerfWait] [i]
    | 2 =>
      (d.onVe i (fun _ => {})).regsReset [.veFlagsSnap, .veSolveTol, .veSolveStatus, .vePerfBusy, .vePerfWait] [i]
    | _ =>
      (d.onFte i (fun _ => {})).regsReset [.ftePerfDeliv, .ftePerfLoss, .ftePerfLead, .ftePerfWait] [i]
  else if k = 1 then
    let d1 := (upTo 16).foldl (fun d ch =>
      ((d.regReset ⟨.dmaChRing, [i, ch]⟩).regReset ⟨.dmaChCtrl, [i, ch]⟩).regReset ⟨.dmaChStatus, [i, ch]⟩)
      (d.onDma i (fun _ => {}))
    (upTo 63).foldl (fun d w => (d.regReset ⟨.dmaWinBase, [i, w + 1]⟩).regReset ⟨.dmaWinCfg, [i, w + 1]⟩) d1
  else d.cvuReset (2 * i + k - 2)

/-- The enable register of a core or cluster. -/
def clkReg (core : Bool) (i : Nat) : Reg := if core then ⟨.clkEnCore, [i]⟩ else ⟨.clkEnCluster, [i]⟩

/-- State of block k (R571). -/
def Dev.clkState (d : Dev) (core : Bool) (i k : Nat) : Nat := d.regFld (clkReg core i) (2 * k + 7) (2 * k + 6)

/-- Set the state of block k. -/
def Dev.setClkState (d : Dev) (core : Bool) (i k st : Nat) : Dev := d.setRegFld (clkReg core i) (2 * k + 7) (2 * k + 6) st

/-- Partition of a core's or cluster's blocks. -/
def Dev.clkPart (d : Dev) (core : Bool) (i : Nat) : Nat := if core then d.corePart i else d.clusterPart i

/-- A resting block moves toward its enable (R571). -/
def Dev.clkMove (d : Dev) (core : Bool) (i k : Nat) : Dev :=
  let en := d.regFld (clkReg core i) (k - 1) (k - 1)
  let d0 := d.setRegFld (clkReg core i) (15 + k) (15 + k) 0
  match d.clkState core i k, en with
  | 0, 1 => d0.setClkState core i k 1
  | 2, 0 => (d0.blockStop core i k).setClkState core i k 3
  | _, _ => d0

/-- The enable of block k is written (R571): a write that reverses a transition waits, with PENDING and PWR_PENDING. -/
def Dev.clkEnable (d : Dev) (core : Bool) (i k : Nat) (v : Nat) : Dev :=
  let r := clkReg core i
  if d.regFld r (k - 1) (k - 1) = v then d
  else
    let d1 := d.setRegFld r (k - 1) (k - 1) v
    match d.clkState core i k, v with
    | 1, 0 => (d1.setRegFld r (15 + k) (15 + k) 1).raise 0x1103 (some (d.clkPart core i)) i
    | 3, 1 => (d1.setRegFld r (15 + k) (15 + k) 1).raise 0x1103 (some (d.clkPart core i)) i
    | 0, _ => d1.clkMove core i k
    | 2, _ => d1.clkMove core i k
    | _, _ => d1.setRegFld r (15 + k) (15 + k) 0

/-- CLOCK_ENABLE_WRITE: bits [2:0] of an enable register. -/
def Dev.clkWrite (d : Dev) (core : Bool) (i : Nat) (v : Nat) : Dev :=
  [1, 2, 3].foldl (fun d k => d.clkEnable core i k (bits (k - 1) (k - 1) v)) d

/-- CLOCK_ENABLE_UP_DONE: after 1 µs the block is ON with its reset values. -/
def Dev.clkUpDone (d : Dev) (core : Bool) (i k : Nat) : Dev :=
  if d.clkState core i k = 1 then ((d.blockReset core i k).setClkState core i k 2).clkMove core i k else d

/-- CLOCK_ENABLE_STOP_DONE: after 2 µs the block is OFF and has lost its contents. A DMA engine stops only when the aborts of its
channels have ended (R333). -/
def Dev.clkStopDone (d : Dev) (core : Bool) (i k : Nat) : Dev :=
  if d.clkState core i k = 3 ∧ (core ∨ k ≠ 1 ∨ d.dmaAborting i = false) then
    ((d.blockReset core i k).setClkState core i k 0).clkMove core i k
  else d

/-! ## Operating points (R561 to R565) -/

/-- Point of a declared MHz (R561). -/
def oppOf (mhz : Nat) : Option Nat :=
  match mhz with
  | 2700 => some 0
  | 2400 => some 1
  | 2100 => some 2
  | 1800 => some 3
  | 1500 => some 4
  | 1200 => some 5
  | _ => none

/-- MHz of a point (R561). -/
def oppMhz (o : Nat) : Nat := 2700 - 300 * o

/-- TARGET of tile t. -/
def Dev.target (d : Dev) (t : Nat) : Nat := d.regFld ⟨.pwrTile, [t]⟩ 2 0

/-- RECOVERY_OPP; 6 and 7 act as 5 (R577). -/
def Dev.recoveryOpp (d : Dev) : Nat := min 5 (d.regFld ⟨.pwrCfg, []⟩ 2 0)

/-- RECOVERY_OPP is in force for tile t (R563). -/
def Dev.inRecovery (d : Dev) (t : Nat) : Bool := decide (d.sec.stage < 7) || d.recovering (d.tilePart t)

/-- The effective point that the limits of tile t give (R563). -/
def Dev.effOpp (d : Dev) (t : Nat) : Nat :=
  let m := max (d.target t) (d.ptile t).cap
  if d.inRecovery t then max m d.recoveryOpp else m

/-- The point whose voltage tile t asks for: RECOVERY_OPP leaves it alone (R564). -/
def Dev.voltOpp (d : Dev) (t : Nat) : Nat := max (d.target t) (d.ptile t).cap

/-- PWR_VF_STEP. -/
def Dev.vfStep (d : Dev) (t : Nat) : Dev := d.raise 0x1101 (some (d.tilePart t)) t

/-- A step of one point toward the voltage asked for begins, where it has not been reached (R564). -/
def PwrTile.steer (x : PwrTile) : PwrTile :=
  { x with stepping := decide (x.volt ≠ x.want), stepTo := if x.volt < x.want then x.volt + 1 else x.volt - 1 }

/-- The voltage-frequency sequencer of tile t at E + 0 (R564): the request is passed to it; a step once begun goes on. -/
def Dev.oppEdge (d : Dev) (t : Nat) : Dev :=
  let x := d.ptile t
  let e := d.effOpp t
  let d1 :=
    if x.opp < e ∨ (e < x.opp ∧ x.voltSealed ≤ e ∧ x.volt ≤ e) then (d.onTile t (fun x => { x with opp := e })).vfStep t
    else d
  let w := d.voltOpp t
  d1.onTile t (fun x =>
    let y : PwrTile := { x with want := w }
    if x.stepping then y else y.steer)

/-- VOLTAGE_STEP_DONE: one step of 1 µs has completed; the next steers toward the voltage asked for at this moment (R564). -/
def Dev.voltageStep (d : Dev) (t : Nat) : Dev :=
  if (d.ptile t).stepping then (d.onTile t (fun x => ({ x with volt := x.stepTo } : PwrTile).steer)).vfStep t else d

/-! ## Tile power states (R573, R574) -/

/-- Change every bank of a tile's scratchpads and grove memories. -/
def Dev.tileBanks (d : Dev) (t : Nat) (f : Bank → Bank) : Dev :=
  let us := (upTo 96).map (fun i => 96 * t + i) ++ (upTo 4).map (fun i => grvKey (4 * t + i))
  us.foldl (fun d u => (upTo (d.bankCount u)).foldl (fun d b => d.onSram u (fun x => x.onBank b f)) d) d

/-- A bank as it comes up after P3: zero, in the state that its REQ names (R299, R301). While the tile is in P3, and on its way out
of it, `Dev.bankState` shows OFF and UP. -/
def Bank.p3Left (k : Bank) : Bank :=
  { k.throughOff with ce := 0 }

/-- What a tile's engines and sequencers keep in the register map is lost (R573): their counters, VE_SOLVE_TOL, their flag
snapshots, and the states of their clock enables, which stand OFF. -/
def Dev.coreLost (d : Dev) (c : Nat) : Dev :=
  d.regsReset [.meFlagsSnap, .mePerfBusy, .mePerfLoad, .mePerfRows, .mePerfWait, .veFlagsSnap, .veSolveTol, .veSolveStatus,
    .vePerfBusy, .vePerfWait, .ftePerfDeliv, .ftePerfLoss, .ftePerfLead, .ftePerfWait, .sqPerfStall, .clkEnCore] [c]

/-- A tile enters P3 (R573): SRAM banks OFF, HBM contents lost, engines and sequencers lost, routers and ports off. -/
def Dev.enterOff (d : Dev) (t : Nat) : Dev :=
  let d1 := (d.tileBanks t Bank.p3Left).zeroSram (spdBase (96 * t)) (spdBase (96 * (t + 1)))
  let d2 := (d1.zeroSram (grvBase (4 * t)) (grvBase (4 * (t + 1)))).hbmLose t
  let d3 := (upTo 96).foldl (fun d i => ((d.genDrop (96 * t + i)).setCore (96 * t + i) {}).coreLost (96 * t + i)) d2
  let d4 := (upTo 4).foldl (fun d i => ((d.onDma (4 * t + i) (fun _ => {})).blockReset false (4 * t + i) 1).regReset
    ⟨.clkEnCluster, [4 * t + i]⟩) d3
  let d5 := (upTo 8).foldl (fun d i => d.cvuReset (8 * t + i)) d4
  let d6 := (upTo 6).foldl (fun d i => d.portLeave (6 * t + i) .off) d5
  let d7 := (d6.onPll t (fun x => { x with lock := false })).onPll (4 + t) (fun x => { x with lock := false })
  (upTo 6).foldl (fun d i => d.onPll (8 + 6 * t + i) (fun x => { x with lock := false }))
    (d7.onTile t (fun x => { x with st := .off, wait := none, stepping := false, divided := false }))

/-- A tile reaches RUN from P3 (R574): regulators and PLLs are up, banks have come up zero, HBM has been retrained, the clock
starts at the effective point; ports then train. -/
def Dev.leaveOff (d : Dev) (t : Nat) : Dev :=
  let d1 := (d.onPll t (fun x => { x with lock := !x.failed })).onPll (4 + t)
    (fun x => { x with lock := !x.failed })
  (upTo 6).foldl (fun d i =>
    let q := 6 * t + i
    (d.onPll (8 + q) (fun x => { x with lock := !x.failed })).portCommit q (d.reg ⟨.dvoPortCfg, [q]⟩))
    (d1.onTile t (fun x => { x with opp := d1.effOpp t, volt := d1.voltOpp t, voltSealed := d1.voltOpp t, want := d1.voltOpp t }))

/-- A request of tile t begins, or waits for the end of a transition (R574). -/
def Dev.powerRequest (d : Dev) (t req : Nat) : Dev :=
  match (d.ptile t).st with
  | .moving _ b =>
    if b = req then d.onTile t (fun x => { x with wait := none })
    else (d.onTile t (fun x => { x with wait := some req })).raise 0x1103 (some (d.tilePart t)) t
  | .run => if req = 0 then d else d.onTile t (fun x => { x with st := .moving 0 req })
  | .retain => if req = 1 then d else d.onTile t (fun x => { x with st := .moving 1 req })
  | .off => if req = 0 then d.onTile t (fun x => { x with st := .moving 2 0 }) else d

/-- POWER_TRANSITION_DONE (R574): the tile reaches its state, PWR_STATE is raised, and a waiting request begins. What P2 makes of
the banks follows from the tile's state (`Dev.bankState`). -/
def Dev.powerDone (d : Dev) (t : Nat) : Dev :=
  match (d.ptile t).st with
  | .moving a b =>
    let w := (d.ptile t).wait
    let d1 := match b with
      | 0 =>
        let d2 := d.onTile t (fun x => { x with st := .run, restart := decide (a = 1), wait := none })
        if a = 2 then d2.leaveOff t else d2
      | 1 => d.onTile t (fun x => { x with st := .retain, wait := none })
      | _ => d.enterOff t
    let d3 := d1.raise 0x1102 (some (d.tilePart t)) t
    match w with
    | some r => d3.powerRequest t r
    | none => d3
  | _ => d

/-- A tile is put into P3 at once (R560, R569). -/
def Dev.tileTrip (d : Dev) (t : Nat) : Dev :=
  if (d.ptile t).st = .off then d
  else ((d.stopTile t).enterOff t).raise 0x1102 (some (d.tilePart t)) t

/-! ## PLLs (R558, R560) -/

/-- The whole device stops silently (R558). HBM contents are open values from then on; no command reads an SRAM before the device
reset whose UP leaves it zero (R301; log entry 5). -/
def Dev.halt (d : Dev) : Dev := { (upTo 4).foldl (fun (d : Dev) t => d.hbmLose t) d with stopped := true }

/-- Partitions that use a PLL's domain. -/
def Dev.pllParts (d : Dev) (k : Nat) : List Nat :=
  if k < 8 then d.ownedParts.filter (fun p => d.tilePart (k % 4) = p)
  else if k = 32 then d.ownedParts.filter (fun p => d.training p)
  else d.ownedParts

/-- A clock domain that partition p uses stands still (R560). -/
def Dev.domainDown (d : Dev) (p : Nat) : Bool := (upTo 34).any (fun k => d.lost k && (d.pllParts k).contains p)

/-- A PLL fails (R560). -/
def Dev.pllFail (d : Dev) (k : Nat) : Dev :=
  let d1 := (d.onPll k (fun x => { x with failed := true, lock := false })).remedyDone (.pll k)
  if k < 8 then d1.tileTrip (k % 4)
  else if k < 32 then d1.portFail (k - 8)
  else d1.halt

/-- CLK_PLL_UNLOCK: a loss of lock stops the domain and begins a recovery; the second in a count window fails the PLL. -/
def Dev.pllUnlock (d : Dev) (k : Nat) : Dev :=
  let x := d.pll k
  if x.lock ∧ ¬x.failed then
    let d1 := d.onPll k (fun x => { x with lock := false, unlocks := satAdd 8 x.unlocks 1, win := x.win + 1 })
    let unit := if k < 8 then k % 4 else if k < 32 then k - 8 else 0
    let d2 := match d.pllParts k with
      | [p] => if k < 8 then d1.faultIn 0x1001 p unit [.pll k] else d1.faultDevice 0x1001 unit [p] [.pll k]
      | ps => d1.faultDevice 0x1001 unit ps [.pll k]
    if 2 ≤ x.win + 1 then d2.pllFail k else d2
  else d

/-- PLL_RELOCK: the domain resumes where it stopped. Its part of the recovery ends at the next edge (R530). -/
def Dev.pllRelock (d : Dev) (k : Nat) : Dev :=
  if d.lost k then d.onPll k (fun x => { x with lock := true }) else d

/-- PLL_RELOCK_TIMEOUT: 100 µs without lock. -/
def Dev.pllTimeout (d : Dev) (k : Nat) : Dev :=
  if d.lost k then d.pllFail k else d

/-- The parts of recoveries that wait for a relocked PLL end at an edge (R530). -/
def Dev.pllEdge (d : Dev) : Dev :=
  (upTo 34).foldl (fun d k => if (d.pll k).lock then d.remedyDone (.pll k) else d) d

/-! ## The control loop (R566 to R569) -/

/-- A stack of the tile in this thermal state. -/
def Dev.stackIn (d : Dev) (t st : Nat) : Bool := (upTo 3).any (fun s => decide (((d.hbmTile t).stack s).st = st))

/-- The measurements of tile t latched at a seal (R566, R580): hottest sensor and its cluster. -/
def hottest (l : List Int) : Int × Nat :=
  (l.zip (upTo 4)).foldl (fun (m : Int × Nat) x => if m.1 < x.1 then x else m) (l.headD 0, 0)

/-- The decision of R567 for tile t at a seal: a row of the table that lowers raises its event at each seal that finds it, the third
at each step. -/
def Dev.capSeal (d : Dev) (m : Measure) (t : Nat) : Dev :=
  let x := d.ptile t
  let ts := (m.temps.drop (4 * t)).take 4
  let tj : Int := d.regFld ⟨.pwrCfg, []⟩ 11 4
  let pkg := d.regFld ⟨.pwrCfg, []⟩ 27 12
  let below := min 5 (max (d.target t) x.cap + 1)
  let thr := if d.stackIn t 3 then x.thr + 1 else 0
  let hot := ts.any (fun v => decide (tj ≤ v)) || (decide (pkg < m.watts) && decide (x.st = .run))
  let cool := ts.all (fun v => decide (v ≤ tj - 5)) && !d.stackIn t 3 && !d.stackIn t 4 && decide (100 * m.watts ≤ 95 * pkg)
  let raise := if cool then x.raise + 1 else 0
  let h := hottest ts
  let new :=
    if d.stackIn t 4 then some (5, true)
    else if hot then some (below, true)
    else if d.stackIn t 3 ∧ thr % 64 = 1 ∧ x.cap < below then some (below, true)
    else if raise = 16 ∧ 0 < x.cap then some (x.cap - 1, false)
    else none
  d.onTile t (fun x => { x with
    thr := thr, raise := if raise = 16 then 0 else raise, newCap := new, voltSealed := x.volt
    tmax := h.1, tcl := h.2, peak := some (match x.peak with
      | none => h.1
      | some p => max p h.1) })

/-- The controller's part of a seal (R566, R578), on the Hub's clock (R559, R560). -/
def Dev.powerSeal (d : Dev) (m : Measure) : Dev :=
  let w := min m.watts 0xFFFF
  if d.lost 33 then d
  else (upTo 4).foldl (fun d t => d.capSeal m t) { d with watts := w, wattsPeak := max d.wattsPeak w, amps := m.amps }

/-- CAP is passed to the sequencer at E + 0 (R567, R568): after an overcurrent CAP becomes OPP 5 and the divider goes. -/
def Dev.capEdge (d : Dev) (t : Nat) : Dev :=
  let x := d.ptile t
  let c := if x.divided then some 5 else x.newCap.map Prod.fst
  let d0 := match c with
    | some c => d.onTile t (fun x => { x with cap := c, raise := if x.cap = c then x.raise else 0 })
    | none => d
  let d1 := if x.divided then (d0.onTile t (fun x => { x with divided := false })).remedyDone (.divider t) else d0
  let d2 := match x.newCap with
    | some (_, true) => d1.raise 0x1104 (some (d.tilePart t)) t
    | _ => d1
  d2.onTile t (fun x => { x with newCap := none, restart := false })

/-- PWR_OVERCURRENT of a cluster's regulator (R568): the tile's clock is halved until the next edge. -/
def Dev.overcurrent (d : Dev) (g : Nat) : Dev :=
  let t := g / 4
  if (d.ptile t).st = .run then
    (d.onTile t (fun x => { x with divided := true })).faultIn 0x1105 (d.tilePart t) g [.divider t]
  else d

/-- PWR_THERMAL_TRIP (R569): locations 0 to 3 are the tiles with their stacks; any other is the Hub or the Neano die, whose
trip removes power from every die. -/
def Dev.thermalTrip (d : Dev) (loc : Nat) : Dev :=
  if loc < 4 then (d.raise 0x1106 (some (d.tilePart loc)) loc).tileTrip loc
  else
    let d1 := d.raise 0x1106 none loc
    -- NOTICE on the management port, with the event's record as two words of data (R622)
    let r := (⟨0x1106, evClass 0x1106, none, loc, 0, d.tempo⟩ : Raised).bits
    let d2 := if d.mgtUp then d1.out (.sent 0x88B5 [7, r % 2 ^ 64, r / 2 ^ 64]) else d1
    { d2 with stopped := true, trip := true }

/-! ## Register words -/

/-- CLK_PLL (R576). -/
def Dev.pllWord (d : Dev) (t : Nat) : Word :=
  putBit 0 (d.pll t).lock ||| putBit 1 (d.pll (4 + t)).lock ||| putBit 2 ((d.pll t).failed || (d.pll (4 + t)).failed) |||
  put 15 8 (satAdd 8 (d.pll t).unlocks (d.pll (4 + t)).unlocks)

/-- PWR_TILE (R579): STATE and RECOVERY hold their reset values until start-up begins. -/
def Dev.pwrWord (d : Dev) (t : Nat) : Word :=
  let x := d.ptile t
  put 2 0 (d.target t) ||| put 5 3 x.cap ||| put 8 6 x.opp ||| put 10 9 (d.regFld ⟨.pwrTile, [t]⟩ 10 9) |||
  put 12 11 (if d.sec.stage = 0 then 0 else x.st.code) ||| putBit 13 x.wait.isSome |||
  putBit 14 (decide (d.sec.stage ≠ 0) && d.inRecovery t) ||| putBit 15 x.divided

/-- PWR_TEMP (R580). -/
def Dev.tempWord (d : Dev) (t : Nat) : Word :=
  let x := d.ptile t
  put 7 0 (low 8 x.tmax) ||| put 9 8 x.tcl ||| put 23 16 (low 8 (x.peak.getD 0)) ||| put 29 24 x.raise

/-- PWR_PKG (R578). -/
def Dev.pkgWord (d : Dev) : Word := put 15 0 d.watts ||| put 31 16 d.wattsPeak

end Sys2Proof.Machine
end

