-- ==== Sys2Proof/Machine/Tempo.lean ====
section
/-! DEFINITION. The time base: synchronisation, link delay, acquisition, election, period (R36 to R48). -/
namespace Sys2Proof.Machine

/-- Change the time base. -/
def Dev.onTmp (d : Dev) (f : TempoUnit → TempoUnit) : Dev := { d with tmp := f d.tmp }

/-- Own PRIO (R64). -/
def Dev.prio (d : Dev) : Nat := d.regFld ⟨.tmpRole, []⟩ 7 0

/-- This device is a candidate (R40). -/
def Dev.candidate (d : Dev) : Bool := decide (d.prio < 255)

/-- The order of R40 on pairs (PRIO, device ID). -/
def better (p1 i1 p2 i2 : Nat) : Bool := decide (p1 < p2) || (decide (p1 = p2) && decide (i1 < i2))

/-- Device ID of the king in use; 0 without one. -/
def TempoUnit.kingId (x : TempoUnit) : Nat :=
  match x.king with
  | some (i, _) => i
  | none => 0

/-- The standby (R40): the best candidate but the king, of those heard and this device. -/
def Dev.standby (d : Dev) : Option Nat :=
  let own := if d.candidate then [(d.ownId, d.prio)] else []
  let cs := (own ++ d.tmp.cands).filter (fun c => d.tmp.king.isNone || c.1 ≠ d.tmp.kingId)
  (cs.foldl (fun (m : Option (Nat × Nat)) (c : Nat × Nat) =>
    match m with
    | none => some c
    | some x => if better c.2 c.1 x.2 x.1 then some c else some x) none).map Prod.fst

/-- ROLE of R64. -/
def Dev.tmpRole (d : Dev) : Nat :=
  if d.tmp.acq = .king then 1
  else if d.candidate ∧ d.tmp.king.isSome ∧ d.standby = some d.ownId then 2 else 0

/-- The device is LOCKED or KING (R46). -/
def Dev.synced (d : Dev) : Bool := decide (d.tmp.acq = .locked) || decide (d.tmp.acq = .king)

/-- Enter an acquisition state (R45, R65). -/
def Dev.acqEnter (d : Dev) (a : Acq) : Dev := d.onTmp (fun x => { x with acq := a, edges := 0, run := 0, bad := 0 })

/-- A Tempo event: its bit of TMP_EVENT and its record (R66). -/
def Dev.tmpEvent (d : Dev) (b code : Nat) : Dev := (d.setRegFld ⟨.tmpEvent, []⟩ b b 1).raise code none 0

/-- The period in force (R63). -/
def Dev.period (d : Dev) : Nat := d.regFld ⟨.tmpPeriod, []⟩ 10 0

/-- A RUNNING or NOTICED partition whose program was compiled for another period is stopped (R39), also one that stands
stopped in NOTICED already. -/
def Dev.periodCheck (d : Dev) (p : Nat) : Dev :=
  match (d.part p).st with
  | .running | .noticed =>
    if d.regFld ⟨.tmpBudget, [p]⟩ 42 32 ≠ d.period then
      ((d.setRegFld ⟨.tmpEvent, []⟩ 6 6 1).raise 0x0107 (some p) p).stopPart p
    else d
  | _ => d

/-- The device adopts a period (R39). -/
def Dev.adoptPeriod (d : Dev) (us : Nat) : Dev :=
  if us = d.period then d
  else (upTo 4).foldl (fun d p => d.periodCheck p) (d.setRegFld ⟨.tmpPeriod, []⟩ 10 0 us)

/-- PERIOD_CHANGE: at the edge AT the pending period is adopted (R39, R643). -/
def Dev.periodChange (d : Dev) : Dev :=
  let x := d.tmp
  if x.next ≠ 0 ∧ x.at_ ≤ d.tempo then (d.onTmp (fun x => { x with next := 0, at_ := 0 })).adoptPeriod x.next else d

/-- A commit of TMP_PERIOD at edge c on the king (R39, R643). -/
def Dev.periodCommit (d : Dev) (us c : Nat) : Dev :=
  if us = d.period then d else d.onTmp (fun x => { x with next := us, at_ := c + 256 })

/-- A time step (R48): every loaded partition stops with MODEL = 2. -/
def Dev.timeStep (d : Dev) : Dev := (upTo 4).foldl (fun d p => d.stopPart p) (d.tmpEvent 4 0x0105)

/-- Ports over which VC0 messages pass. -/
def Dev.trainedPorts (d : Dev) : List Nat :=
  (upTo 24).filter (fun q => d.portRuns q ∧ ((d.port q).st = .up ∨ (d.port q).st = .standby))

/-- Ports at which the delay is measured: from LOCK on (R421). -/
def Dev.delayPorts (d : Dev) : List Nat :=
  (upTo 24).filter (fun q => d.portRuns q && [PortState.lock, .ident, .credit, .up, .standby].contains (d.port q).st)

/-- Port q sends a VC0 message of its own; its check-value unit folds it (R519). -/
def Dev.portSend (d : Dev) (q type : Nat) (fields : List Nat) : Dev :=
  (d.cvuPacket q 1 0 (Config.vc0Payload type (fields.map Int.ofNat))).out (.sent type (q :: fields))

/-- A VC0 message arrives at port q; its check-value unit folds it (R519). -/
def Dev.portHear (d : Dev) (q type : Nat) (fields : List Int) : Dev := d.cvuPacket q 2 0 (Config.vc0Payload type fields)

/-- Synchronisation message m leaves on every trained port but `from_`; its correction field, with the residence that the
device measures, is an open value. -/
def Dev.sendSync (d : Dev) (from_ : Option Nat) (m : SyncMsg) : Dev :=
  (d.trainedPorts.filter (fun q => from_ ≠ some q)).foldl (fun d q =>
    (d.portSend q 0x08 [m.tempo, m.king, m.prio, m.period, m.next, m.at_, m.hops, (Config.freeWord d.fresh).toNat]).tick) d

/-- The king's message for the Tempo that begins: at the edge AT it carries the new period, before PERIOD_CHANGE has made it the
one in force (R36, R39). -/
def Dev.kingSync (d : Dev) : SyncMsg :=
  { tempo := d.tempo, king := d.ownId, prio := d.prio
    period := if d.tmp.next ≠ 0 ∧ d.tmp.at_ ≤ d.tempo then d.tmp.next else d.period
    next := d.tmp.next, at_ := d.tmp.at_, hops := 1, arrival := 0, edge := 0, corr := 0 }

/-- Does a message come by the parent port, or by one that becomes it (R42)? With PARENT_PIN set a message on another port
is ignored in every state, FREE too, and does not begin the count of R41 again (DESIGN CHOICE, log entry 107). -/
def Dev.fromParent (d : Dev) (q hops : Nat) : Bool :=
  let r : Reg := ⟨.tmpRole, []⟩
  if d.regFld r 18 18 = 1 then decide (d.regFld r 17 13 = q)
  else match d.tmp.parent with
    | none => true
    | some p => decide (q = p) || decide (hops < d.tmp.hops) || (decide (hops = d.tmp.hops) && decide (q < p)) ||
        decide (1 ≤ d.tmp.missed)

/-- A message's king is the one in use or a better one, or the king in use has fallen silent (R40, R47). -/
def Dev.kingTaken (d : Dev) (m : SyncMsg) : Bool :=
  match d.tmp.king with
  | none => true
  | some (i, p) => decide (m.king = i) || better m.prio m.king p i || decide (1 ≤ d.tmp.missed)

/-- The Tempo number that the king's time gives at time `at_`, by a message for edge m.edge (R37, R48): a message that arrives
before its edge, or after the next one, names another Tempo than the one it arrives in. -/
def tempoAt (m : SyncMsg) (at_ : Int) : Nat := ((m.tempo : Int) + (at_ - m.edge) / (32000 * m.period : Nat)).toNat

/-- The king's period is adopted from a message (R36): on stepping to its time; else where the message names another period
for this Tempo or a coming one, and that is no pending change which the device makes at its own edge AT (R39). -/
def Dev.periodTaken (d : Dev) (m : SyncMsg) : Bool :=
  decide (d.tempo ≤ m.tempo) && decide (m.period ≠ d.period) && decide (d.tmp.next ≠ m.period)

/-- A follower takes an accepted message (R36, R42, R45, R47, R48). It steps when its Tempo number is not the one that its
own time of arrival gives by the king's edges, or when its phase is off by more than 1 µs. -/
def Dev.syncTake (d : Dev) (q : Nat) (m : SyncMsg) : Dev :=
  let x := d.tmp
  let off := m.arrival - m.edge - m.corr
  let fresh := decide (x.acq = .free) || decide (x.acq = .king)
  -- a change of king without a step comes only from the standby of record
  let other := x.king.isSome && decide (m.king ≠ x.kingId) && decide (some m.king ≠ d.standby)
  let step := decide (tempoAt m m.arrival ≠ d.tempo) || decide (32000 < off.natAbs)
  let d1 := if x.acq = .king then d.tmpEvent 3 0x0104 else d
  let d2 := if fresh || other || step then d1.acqEnter .coarse
    else if x.acq = .holdover then d1.acqEnter .fine else d1
  let d3 := if step then ({ d2 with tempo := tempoAt m (m.edge + m.corr) } : Dev).timeStep else d2
  -- an announced change that the device has already made is pending no more
  let made := decide (m.at_ ≤ m.tempo) && decide (m.next = d3.period)
  let d4 := d3.onTmp (fun y => { y with
    heard := true, missed := 0, off := off, king := some (m.king, m.prio), hops := m.hops, parent := some q
    next := if made then 0 else m.next, at_ := if made then 0 else m.at_, count := 0, resumed := false, first := false
    cands := y.cands.remove m.king })
  let d5 := if fresh || other || step || d.periodTaken m then d4.adoptPeriod m.period else d4
  d5.sendSync (some q) { m with hops := m.hops + 1 }

/-- A synchronisation message at a port that hears one. -/
def Dev.syncHeard (d : Dev) (q : Nat) (m : SyncMsg) : Dev :=
  if 96 < m.hops then d.tmpEvent 5 0x0106
  else if d.tmp.acq = .king then
    if better m.prio m.king d.prio d.ownId then d.syncTake q m else d
  else if d.kingTaken m && d.fromParent q m.hops then d.syncTake q m
  else d

/-- SYNC_RECEIVE. -/
def Dev.syncReceive (d : Dev) (q : Nat) (m : SyncMsg) : Dev :=
  if d.sec.stage < 5 ∨ ¬d.trainedPorts.contains q then d
  else (d.portHear q 0x08 [m.tempo, m.king, m.prio, m.period, m.next, m.at_, m.hops, m.corr]).syncHeard q m

/-- DELAY_REQ_RECEIVE: the request, sent at t1 and arrived at t2, is answered at t3 (R43). -/
def Dev.delayReq (d : Dev) (q t1 t2 t3 : Nat) : Dev :=
  if d.delayPorts.contains q then (d.portHear q 0x09 [(t1 : Int)]).portSend q 0x0A [t1, t2, t3] else d

/-- DELAY_RESP_RECEIVE: timestamps in 1/32 ns; the mean of the last 16 delays (R43, R67), kept in 1/8 ps. DELAY_PS shows the
whole ps below it (DESIGN CHOICE, log entry 108). -/
def Dev.delayResp (d : Dev) (q : Nat) (t1 t2 t3 t4 : Int) : Dev :=
  if d.delayPorts.contains q then
    let r : Reg := ⟨.tmpPortDelay, [q]⟩
    let v : Int := ((t4 - t1) - (t3 - t2)) * 125 + 8 * sext 16 (d.regFld r 47 32)
    let l := (v :: (d.port q).delays).take 16
    let d1 := (d.portHear q 0x0A [t1, t2, t3]).onPort q (fun x => { x with delays := l })
    (d1.setRegFld r 31 0 (low 32 (l.sum / (8 * l.length)))).setRegFld r 63 63 (if l.length = 16 then 1 else 0)
  else d

/-! ## Election (R40, R41, R47) -/

/-- ANNOUNCE_SEND: once every 16 µs of a candidate in FREE, or in HOLDOVER when it has resumed. -/
def Dev.announceSend (d : Dev) : Dev :=
  if 5 ≤ d.sec.stage ∧ d.candidate ∧ (d.tmp.acq = .free ∨ (d.tmp.acq = .holdover ∧ d.tmp.resumed)) then
    (d.trainedPorts.foldl (fun d q => d.portSend q 0x0B [d.prio, d.ownId]) d).onTmp
      (fun x => { x with count := x.count + 1 })
  else d

/-- An announce that arrives: a better one begins the count again. -/
def Dev.announceHeard (d : Dev) (prio id : Nat) : Dev :=
  if prio < 255 ∧ id ≠ d.ownId then
    d.onTmp (fun x => { x with
      cands := if some id = x.king.map Prod.fst then x.cands else FMap.insert x.cands id prio
      count := if better prio id d.prio d.ownId then 0 else x.count })
  else d

/-- ANNOUNCE_RECEIVE. -/
def Dev.announceReceive (d : Dev) (q prio id : Nat) : Dev :=
  if d.trainedPorts.contains q then (d.portHear q 0x0B [(prio : Int), (id : Int)]).announceHeard prio id else d

/-- This device becomes king. -/
def Dev.becomeKing (d : Dev) (first : Bool) : Dev :=
  (d.acqEnter .king).onTmp (fun x => { x with
    king := some (d.ownId, d.prio), hops := 0, parent := none, count := 0, resumed := false, missed := 0, off := 0
    first := first, cands := x.cands.remove d.ownId })

/-- KING_ELECTION_WIN. -/
def Dev.electionWin (d : Dev) : Dev :=
  if d.candidate ∧ d.tmp.acq = .free ∧ 256 ≤ d.tmp.count then d.becomeKing true
  else if d.candidate ∧ d.tmp.acq = .holdover ∧ d.tmp.resumed ∧ 1 ≤ d.tmp.count then d.becomeKing false
  else d

/-- HOLDOVER_ANNOUNCE_RESUME. -/
def Dev.announceResume (d : Dev) : Dev :=
  if d.candidate ∧ d.tmp.acq = .holdover ∧ 16 ≤ d.tmp.edges ∧ ¬d.tmp.resumed then
    d.onTmp (fun x => { x with resumed := true, count := 0 })
  else d

/-! ## Acquisition (R45, R46) -/

/-- ACQ_FINE_REACHED. -/
def Dev.acqFine (d : Dev) : Dev := if d.tmp.acq = .coarse ∧ 16 ≤ d.tmp.run then d.acqEnter .fine else d

/-- ACQ_LOCKED_REACHED. -/
def Dev.acqLocked (d : Dev) : Dev := if d.tmp.acq = .fine ∧ 64 ≤ d.tmp.run then d.acqEnter .locked else d

/-- ALIGN_LOST. -/
def Dev.alignLost (d : Dev) : Dev :=
  if d.tmp.acq = .locked ∧ 4 ≤ d.tmp.bad then (d.acqEnter .fine).tmpEvent 0 0x0101 else d

/-- HOLDOVER_ENTRY. -/
def Dev.holdoverEntry (d : Dev) : Dev := if d.tmp.acq = .locked ∧ 2 ≤ d.tmp.missed then d.acqEnter .holdover else d

/-- MASTER_LOST: a fault of every partition that holds a program; its part of the recovery ends when the device is LOCKED
or KING again (R530). -/
def Dev.masterLost (d : Dev) : Dev :=
  if d.tmp.acq = .holdover ∧ 256 ≤ d.tmp.edges then
    let d1 := (d.acqEnter .free).onTmp (fun x => { x with king := none, parent := none, hops := 0, count := 0, resumed := false })
    (d1.setRegFld ⟨.tmpEvent, []⟩ 1 1 1).faultDevice 0x0102 0 d1.ownedParts [.locked]
  else d

/-- FAILOVER: the standby becomes king and goes on counting. -/
def Dev.failover (d : Dev) : Dev :=
  if d.tmp.acq = .holdover ∧ 3 ≤ d.tmp.missed ∧ d.tmpRole = 2 then (d.becomeKing false).tmpEvent 2 0x0103 else d

/-- The time base at an edge: counts of R45, and the king's messages and the delay requests that leave at it. -/
def Dev.tmpEdge (d : Dev) : Dev :=
  let x := d.tmp
  let in_ := fun (bound : Nat) => x.heard && decide (x.off.natAbs < bound)
  let good := match x.acq with
    | .coarse => in_ 3200
    | .fine => in_ 256
    | _ => false
  let d1 := d.onTmp (fun x => { x with
    edges := satAdd 32 x.edges 1
    run := if good then x.run + 1 else 0
    bad := if x.acq = .locked ∧ x.heard ∧ ¬in_ 256 then x.bad + 1 else 0
    missed := if x.heard ∨ x.acq = .king ∨ x.acq = .free then 0 else x.missed + 1
    heard := false })
  let d2 := if x.acq = .king then d1.sendSync none d1.kingSync else d1
  d2.delayPorts.foldl (fun d q => d.portSend q 0x09 []) d2

/-! ## Register words -/

/-- TMP_ROLE (R64). -/
def Dev.roleWord (d : Dev) : Word :=
  let r := d.reg ⟨.tmpRole, []⟩
  let pin := fld 18 18 r = 1
  put 7 0 d.prio ||| put 10 8 d.tmp.acq.code ||| put 12 11 d.tmpRole |||
  put 17 13 (if pin then fld 17 13 r else d.tmp.parent.getD (fld 17 13 r)) ||| putBit 18 pin |||
  put 37 20 d.tmp.kingId ||| put 55 38 (d.standby.getD 0) ||| put 63 56 d.tmp.hops

/-- TMP_OFFSET (R65): the whole ps below the offset (DESIGN CHOICE, log entry 108). -/
def Dev.offsetWord (d : Dev) : Word := put 31 0 (low 32 (d.tmp.off * 125 / 4)) ||| put 63 32 d.tmp.edges

/-- TMP_PERIOD (R63). -/
def Dev.periodWord (d : Dev) : Word := put 10 0 d.period ||| put 26 16 d.tmp.next ||| put 63 32 d.tmp.at_

end Sys2Proof.Machine
end

