-- ==== Sys2Proof/Machine/Rings.lean ====
section
/-! DEFINITION. Submission rings (R34, R59, R617, R618, R628). -/
namespace Sys2Proof.Machine

/-- Ring r of partition p: base, number of descriptors, HEAD. -/
def Dev.hubRing (d : Dev) (p r : Nat) : Nat × Nat × Nat :=
  let b := d.reg ⟨.hubRingBase, [p, r]⟩
  let n := 2 ^ fld 52 48 b
  (fld 47 0 b, n, d.regFld ⟨.hubRingCfg, [p, r]⟩ 31 16 % n)

/-- Address of word 7 of descriptor i of a ring. -/
def ringWord7 (base n i : Nat) : Nat := base + 64 * (i % n) + 56

/-- The run of valid descriptors from `i` on, at most n of them: how many, and the device after the reads. A poisoned
word, or one of a bank that is not ON, is not valid. -/
def Dev.ringRun (d : Dev) (base size i : Nat) : (n : Nat) → Nat × Dev
  | 0 => (0, d)
  | n + 1 =>
    match d.sramRead (ringWord7 base size i) 8 with
    | (.ok bs, d1) =>
      if anyPoison bs ∨ ¬(natOfBytes (plain bs)).testBit 0 then (0, d1)
      else
        let r := d1.ringRun base size (i + 1) n
        (r.1 + 1, r.2)
    | (_, d1) => (0, d1)

/-- Word 7 of a taken descriptor at edge E (R617). -/
def Dev.ringMark (d : Dev) (a e : Nat) : Dev := (d.sramWrite a (clean (bytesOf 8 (2 + (e % 2 ^ 32) * 2 ^ 32)))).2

/-- The sampling of one ring at edge E (R617): the descriptors that are presented again (R59), then the run from HEAD. A SEM
outside the partition is not signalled. -/
def Dev.ringSample (d : Dev) (p r e : Nat) : Dev :=
  let cfg : Reg := ⟨.hubRingCfg, [p, r]⟩
  if d.regFld cfg 14 14 = 0 then d
  else
    let g := d.hubRing p r
    let again := ((d.part p).again.filter (fun x => x.1 = r)).map Prod.snd
    let d0 := again.foldl (fun (d : Dev) a => d.ringMark a e) d
    let x := d0.ringRun g.1 g.2.1 g.2.2 32
    let run := (upTo x.1).map (fun i => ringWord7 g.1 g.2.1 (g.2.2 + i))
    let d1 := run.foldl (fun (d : Dev) a => d.ringMark a e) x.2
    let got := (again ++ run).map (fun a => (r, a))
    let d2 := (((d1.setRegFld cfg 31 16 ((g.2.2 + x.1) % g.2.1)).count cfg 63 32 got.length).onPart p (fun y => { y with
      again := y.again.filter (fun z => z.1 ≠ r), taken := y.taken.filter (fun z => !got.contains z) ++ got }))
    let k := d.regFld cfg 13 0
    if got ≠ [] ∧ d.semIn k p then d2.semSend { id := 0, who := .hub, kind := .sig, sem := k, n := got.length } else d2

/-- The sampling of an edge (R34, R51). -/
def Dev.ringsEdge (d : Dev) (e : Nat) : Dev :=
  (upTo (shapeParts d.shape)).foldl (fun d p => (upTo 8).foldl (fun d r => d.ringSample p r e) d) d

/-- Every descriptor that the stopping model has taken and that has no written completion is presented again (R59, R60): its
word 7 is valid again, and the sampling of this edge takes it. A completion is a write of the program's own (01, Serving), so
which descriptors have none is a free value of each (DESIGN CHOICE, log entry 45). -/
def Dev.ringsAgain (d : Dev) (p : Nat) : Dev :=
  let ts := (d.part p).taken
  let open_ := ((upTo ts.length).zip ts).filterMap (fun x =>
    if (Config.freeWord (d.fresh + x.1)).getLsbD 0 then some x.2 else none)
  let d1 := open_.foldl (fun (d : Dev) x => (d.sramWrite x.2 (clean (bytesOf 8 1))).2) d
  ({ d1 with fresh := d1.fresh + ts.length } : Dev).onPart p (fun y => { y with
    taken := [], again := y.again.filter (fun z => !open_.contains z) ++ open_ })

/-- Revocation: what was taken is forgotten; rings are no longer sampled until the loader writes them again (R498, R618). -/
def Dev.ringsRevoke (d : Dev) (p : Nat) : Dev :=
  ((upTo 8).foldl (fun (d : Dev) r => d.setRegFld ⟨.hubRingCfg, [p, r]⟩ 14 14 0) d).onPart p
    (fun x => { x with taken := [], again := [] })

end Sys2Proof.Machine
end

