-- ==== Sys2Proof/Machine/Deadline.lean ====
section
/-! DEFINITION. The deadline monitor and the switch of models (R57 to R60, R72, R73). -/
namespace Sys2Proof.Machine

/-- MODEL of partition p. -/
def Dev.model (d : Dev) (p : Nat) : Nat := d.regFld ⟨.tmpDmCtrl, [p]⟩ 9 8

/-- A tile of partition p runs below the declared operating point (R58). -/
def Dev.belowDeclared (d : Dev) (p : Nat) : Bool :=
  match oppOf (d.regFld ⟨.tmpBudget, [p]⟩ 55 44) with
  | some o => decide ((d.part p).st ≠ .free) &&
      (d.partTiles p).any (fun t => decide (o < (d.ptile t).opp) || (d.ptile t).divided)
  | none => false

/-- The monitor is armed for partition p (R58). -/
def Dev.armed (d : Dev) (p : Nat) : Bool :=
  decide (d.sec.stage < 7) || d.recovering p || d.belowDeclared p || decide (d.regFld ⟨.tmpDmCtrl, [p]⟩ 1 1 = 1)

/-- At the sample of edge E, a core waits at a Tempo wait for E or a later edge, or is DONE (R58); a core of a stopped clock
domain does not (R560). The cores of the start-up self-test, whose program no chapter gives, keep their Tempos (log entry 27). -/
def Dev.coreWaits (d : Dev) (c e : Nat) : Bool :=
  let x := d.core c
  match x.sq.st, x.sq.wait with
  | .done, _ => true
  | .idle, _ => decide (d.sec.stage = 6)
  | .stall, .tempo target _ _ _ => x.twaitReached && decide (e ≤ target) && (d.pll (tileOf c)).lock
  | _, _ => false

/-- A Tempo wait of edge E that is reached at the sample is on time (R232). -/
def Sq.onTimeAt (q : Sq) (e : Nat) : Sq :=
  match q.wait with
  | .tempo target mask _ imp => if target = e then { q with wait := .tempo target mask true imp } else q
  | _ => q

/-- The coming edge: Tempo 0 after an election from FREE (R41). -/
def Dev.nextEdge (d : Dev) : Nat := if d.tmp.first then 0 else d.tempo + 1

/-- DEADLINE_SAMPLE: at E − 16 clk every core of every partition is sampled (R58). An edge that passes while a clock domain of the
partition stands is a miss (R560). -/
def Dev.deadlineSample (d : Dev) : Dev :=
  let e := d.nextEdge
  (upTo (shapeParts d.shape)).foldl (fun (d : Dev) p =>
    let cs := (d.partCores p).filter d.inService
    let down := d.domainDown p
    let bad := cs.filter (fun c => down || !d.coreWaits c e)
    let base := (d.partCores p).headD 0
    let d1 := cs.foldl (fun (d : Dev) c => if d.coreWaits c e then d.onSq c (fun q => q.onTimeAt e) else d) d
    d1.onPart p (fun x => { x with miss := bad.head?.map (fun c => c - base) })) d

/-- Lag of a core at edge E in Tempos (R73). A core that stands at no reached Tempo-wait lags by the edges since the last one that
released it (DESIGN CHOICE, log entry 138: R73 does not say how its lag is measured). -/
def Dev.coreLag (d : Dev) (c e : Nat) : Nat :=
  let q := (d.core c).sq
  match q.st, q.wait with
  | .done, _ => 0
  | .idle, _ => 0
  | .stall, .tempo target _ _ _ => if (d.core c).twaitReached then e - target else e - q.lastEdge
  | _, _ => e - q.lastEdge

/-- A sequencer with a program that waits for edge E, at the entry index that the loader wrote (R213, R214, R231); without
code it is DONE. -/
def Sq.start (store : FMap Word) (codeLen entry : Nat) (restart : Option Nat) (e : Nat) : Sq :=
  { store := store, codeLen := codeLen, entry := entry, restart := restart, lastEdge := e, pc := entry
    st := if codeLen = 0 then .done else .stall
    wait := if codeLen = 0 then .none else .tempo e 0 false true }

/-- The other model of a core starts at edge E (R59). -/
def Dev.coreSwitch (d : Dev) (c e : Nat) : Dev :=
  ((d.genDrop c).enginesStop c).onCore c (fun x => { x with
    sq := { Sq.start x.alt.store x.alt.codeLen x.alt.entry x.alt.restart e with issue := x.sq.issue }
    alt := { store := x.sq.store, codeLen := x.sq.codeLen, entry := x.sq.entry, restart := x.sq.restart } })

/-- The partition changes its model at edge E (R59, R60). -/
def Dev.switchModel (d : Dev) (p model e : Nat) : Dev :=
  (((d.partCores p).foldl (fun d c => d.coreSwitch c e) d).setRegFld ⟨.tmpDmCtrl, [p]⟩ 9 8 model).ringsAgain p

/-- The monitor acts on partition p at edge E (R59). -/
def Dev.monitorAct (d : Dev) (p e : Nat) : Dev :=
  if d.regFld ⟨.tmpDmCtrl, [p]⟩ 10 10 = 1 then
    if d.model p = 0 then (d.switchModel p 1 e).raise 0x010B (some p) p
    else (d.raise 0x010C (some p) p).stopPart p
  else d

/-- The monitor's work for partition p at edge E, on the sample taken before it (R58, R59, R73). Only a RUNNING or NOTICED
partition whose MODEL is not 2 has misses: one that is HALTED, ENDED or FREE runs no program (DESIGN CHOICE, log entry 109). -/
def Dev.monitorEdge (d : Dev) (p e : Nat) : Dev :=
  let x := d.part p
  if (x.st = .running ∨ x.st = .noticed) ∧ d.model p ≠ 2 then
    let lag := ((d.partCores p).filter d.inService).foldl (fun m c => max m (d.coreLag c e)) 0
    let st : Reg := ⟨.tmpDmStatus, [p]⟩
    match x.miss with
    | none => (d.setRegFld st 47 32 (min lag 0xFFFF)).onPart p (fun y => { y with window := y.window.filter (fun w => e < w + 16) })
    | some k =>
      let d1 := ((d.count st 31 0 1).setRegFld st 56 48 k).setRegFld st 47 32 (min lag 0xFFFF)
      let d2 := if d1.armed p then d1.raise 0x0109 (some p) p else d1.faultIn 0x010A p p [.nextEdge false]
      let w := e :: x.window.filter (fun w => e < w + 16)
      if max 1 (d.regFld ⟨.tmpDmCtrl, [p]⟩ 7 4) ≤ w.length then
        (d2.onPart p (fun y => { y with window := [], miss := none })).monitorAct p e
      else d2.onPart p (fun y => { y with window := w, miss := none })
  else d

/-- At the commit edge of a staged RETURN (R60). -/
def Dev.returnCommit (d : Dev) (p e : Nat) : Dev := if d.model p = 1 then d.switchModel p 0 e else d

/-- Revocation of partition p (R498): MODEL 0, FORCE 0, THRESH 1, status zero. -/
def Dev.monitorRevoke (d : Dev) (p : Nat) : Dev :=
  ((d.setReg ⟨.tmpDmCtrl, [p]⟩ (Reg.resetVal ⟨.tmpDmCtrl, [p]⟩)).setReg ⟨.tmpDmStatus, [p]⟩ 0).onPart p
    (fun x => { x with miss := none, window := [] })

/-- TMP_DM_CTRL (R72): RETURN reads 0. -/
def Dev.dmWord (d : Dev) (p : Nat) : Word :=
  let r := d.reg ⟨.tmpDmCtrl, [p]⟩
  putBit 0 (d.armed p) ||| put 1 1 (fld 1 1 r) ||| put 7 4 (fld 7 4 r) ||| put 10 8 (fld 10 8 r)

end Sys2Proof.Machine
end

