-- ==== Sys2Proof/Machine/Recovery.lean ====
section
/-! DEFINITION. Prunes, stand-ins, restarts, grafts of cores and banks, the end of a recovery (R303, R304, R528 to R546,
R551 to R555). -/
namespace Sys2Proof.Machine

/-- A PRT event of logical core c (R613: UNIT and DETAIL are the core; DEDUCED, log entry 46). -/
def Dev.prtCore (d : Dev) (code c : Nat) : Dev :=
  d.raiseAs (evClass code) code (some (d.corePart c)) c c

/-- Is a prune of the core that now serves c under way? -/
def Dev.pruning (d : Dev) (c : Nat) : Bool := d.prunes.any (fun x => decide (x.core = c) && decide (some x.phys = d.physOf c))

/-- An access to logical core c takes a bus error: it is mapped out (R542); or its physical core is being pruned or PRUNED and
the access is a program's, whose accesses take the bus error of a stopped core until the stand-in's edge (R537). -/
def Dev.coreDown (d : Dev) (host : Bool) (c : Nat) : Bool :=
  match d.physOf c with
  | some k => !host && (decide ((d.physCore k).st = .pruned) || d.pruning c)
  | none => true

/-! ## Pruning (R535, R546) -/

/-- Parts of a recovery that wait for a bank of core c wait for its physical core k once it is pruned (R540). -/
def Dev.bankToCore (d : Dev) (c k : Nat) : Dev :=
  { d with faults := d.faults.map (fun f => { f with remedies := f.remedies.map (fun r => match r with
      | .bank u _ => if u = c then .core k else r
      | _ => r) }) }

/-- A pruned core's sequencer (R240, R535): cleared as at a revocation, HALTED, with SQ_FAULT's record kept; the program
stays for the stand-in (R539). -/
def Sq.prunedState (q : Sq) : Sq :=
  { q.cleared with
    st := .halted, pruned := true, store := q.store, codeLen := q.codeLen, entry := q.entry, restart := q.restart
    faultCode := q.faultCode, faultPc := q.faultPc, pcode := q.pcode, insn := q.insn }

/-- Clk r + 1 of a prune of core c (R535): the core stops, what it owns is released, poisoned or aborted. Its waits that
stand or travel are taken without it (R230, R536). -/
def Dev.pruneAct (d : Dev) (c code : Nat) : Dev :=
  match d.physOf c with
  | none => d
  | some k =>
    -- a core that is already being pruned: what failed since joins that prune (R540)
    if d.pruning c then d.bankToCore c k else
    let d1 := (((d.genDrop c).enginesStop c).perfClear c).onSq c Sq.prunedState
    let d2 := (d1.releaseReqs c).cvuPrune c
    let d3 := (d2.sems.filter (fun e => e.2.owner = c)).foldl
      (fun (d : Dev) e => d.semSend { id := 0, who := .hub, kind := .poison, sem := e.1 }) d2
    let d4 := d3.dmaPrune c
    let pr : Prune := { core := c, phys := k, code := code, tempo := d.tempo }
    { d4.bankToCore c k with prunes := d4.prunes ++ [pr] }

/-- The prunes reported in the last clk act (R535): on cores, memories, engines, packets and recoveries. The time base, the
clocks, the security root, the Hub and the packages of the slow tier stand as they are. -/
def Dev.settle (d : Dev) : Dev :=
  let x := d.pruneDue.foldl (fun (d : Dev) x => d.pruneAct x.1 x.2) { d with pruneDue := [] }
  { x with
    tempo := d.tempo, tmp := d.tmp, stalling := d.stalling, pwr := d.pwr, plls := d.plls, fuses := d.fuses, sec := d.sec
    harts := d.harts, session := d.session, phys := d.phys, pkgs := d.pkgs, meshes := d.meshes, mirrors := d.mirrors }

/-- PRT_PRUNE.GO (R546): discarded when the core is not in service. The prune's cause is no event: code 0. -/
def Dev.hostPrune (d : Dev) (c : Nat) : Dev :=
  match d.physOf c with
  | none => d
  | some k =>
    if 384 ≤ c ∨ (d.physCore k).st = .pruned ∨ d.pruning c then d
    else (d.faultPart 0 (d.corePart c) [.core k]).duePrune c 0

/-- The check pass of the scratchpad banks of a pruned core (R289, R302, R540): it reads every word as a scrub does; what it
finds joins the recovery, and the core is not pruned again. -/
def Dev.checkPass (d : Dev) (c k : Nat) : Dev :=
  let ws := d.mem.err.filter (fun e => decide (spdBase c ≤ 8 * e.1) && decide (8 * e.1 < spdBase c + spdBytes))
  let x := ws.foldl (fun (d : Dev) e => (d.readWord e.1 true).2) d
  ({ x with pruneDue := d.pruneDue } : Dev).bankToCore c k

/-- A bank as it stands after it has passed through OFF (R299): its count of corrected errors belongs to the physical bank,
its REQ to the logical one (R301). -/
def Bank.swapped (phys logical : Bank) : Bank :=
  ({ ce := phys.ce } : Bank).request logical.req logical.owner

/-- Lowest-numbered SPARE core of a cluster that is not chosen yet (R537). -/
def Dev.spareOf (d : Dev) (g : Nat) : Option Nat :=
  ((upTo 28).map (fun k => 28 * g + k)).find? (fun i => decide ((d.physCore i).st = .spare) && decide ((d.physCore i).fill = 0))

/-- Change the prunes of physical core k. -/
def Dev.onPrune (d : Dev) (k : Nat) (f : Prune → Prune) : Dev :=
  { d with prunes := d.prunes.map (fun x => if x.phys = k then f x else x) }

/-- A prune that has completed looks for a stand-in (R537, R542); none in NOTICED, REVOKING and FREE (R544). -/
def Dev.chooseSpare (d : Dev) (c k : Nat) : Dev :=
  match (d.part (d.corePart c)).st with
  | .noticed | .revoking | .free => d
  | _ =>
    match d.spareOf (clusterOf c) with
    | some s => (d.onPhys s (fun x => { x with fill := 1, forCore := some c })).onPrune k (fun x => { x with by_ := some s })
    | none => d.onPrune k (fun x => { x with mapout := true })

/-- PRUNE_COMPLETE of core c (R319, R535 to R537): after its last abort and return. Its column test and check pass begin. -/
def Dev.pruneComplete (d : Dev) (c : Nat) : Dev :=
  match d.prunes.find? (fun (x : Prune) => decide (x.core = c) && !x.done && decide (some x.phys = d.physOf c)) with
  | none => d
  | some pr =>
    if d.dmaAbortingOf c ∨ ¬(d.core c).fte.reqs.isEmpty then d
    else
      let k := pr.phys
      let d0 := d.checkPass c k
      let s := d0.sram c
      let d1 := d0.onPhys k (fun x => { x with
        st := .pruned, cause := pr.code, prunes := satAdd 8 x.prunes 1
        sram := { s with banks := banksOf (s.banks.map (fun e => (e.1, { ce := e.2.ce }))) } }) |>.onColumn k (setFld 6 6 1)
      let d2 := d1.onSram c (fun s => { s with
        banks := banksOf ((upTo 32).map (fun b => (b, { st := .off, req := (s.bank b).req, owner := (s.bank b).owner })))
        due := [] })
      let d3 := d2.setReg ⟨.prtFault, [d.corePart c]⟩ (put 8 0 c ||| put 31 16 pr.code ||| put 63 32 (low 32 pr.tempo))
      (((d3.ftePerfClear c).onPrune k (fun x => { x with done := true })).prtCore 0x0F20 c).chooseSpare c k

/-- SPARE_ZERO_FILL_DONE of physical core k (R537). -/
def Dev.zeroFillDone (d : Dev) (k : Nat) : Dev :=
  if (d.physCore k).fill = 1 then d.onPhys k (fun x => { x with fill := 2 }) else d

/-- A seal passes for chosen spares whose zero-fill has ended (R537). -/
def Dev.spareSeal (d : Dev) : Dev :=
  { d with phys := d.phys.map (fun e => if e.2.fill = 2 then (e.1, { e.2 with fill := 3 }) else e) }

/-! ## Stand-ins and restarts (R537 to R539) -/

/-- Core c begins at its restart entry at edge e (R213, R539); without one its partition stops. -/
def Dev.restart (d : Dev) (c e : Nat) (s2 s3 s4 : Word) : Dev :=
  let q := (d.core c).sq
  match q.restart with
  | none => d.stopPart (d.corePart c)
  | some r =>
    let q1 : Sq := { Sq.start q.store q.codeLen q.entry q.restart e with pc := r, issue := q.issue }
    d.onSq c (fun _ => (((q1.setS 1 (BitVec.ofNat 64 e)).setS 2 s2).setS 3 s3).setS 4 s4)

/-- Physical core k takes logical core c's index, addresses and register block (R4, R537). -/
def Dev.swapIn (d : Dev) (k c : Nat) : Dev :=
  let x := d.physCore k
  let s : Sram := { x.sram with
    banks := banksOf ((upTo 32).map (fun b => (b, (x.sram.bank b).swapped ((d.sram c).bank b)))) }
  let d1 := match d.physOf c with
    | some o => d.onPhys o (fun y => { y with logical := 0x1F, column := d.columnOf o })
    | none => d
  let d2 := d1.onPhys k (fun y => { y with st := .standIn, logical := c % 24, fill := 0, forCore := none, sram := {}, column := 0x0000001F00001F1F })
  ((d2.onSram c (fun _ => s)).zeroSram (spdBase c) (spdBase c + spdBytes)).setReg ⟨.meColumn, [c]⟩ x.column

/-- A stand-in of edge e: the prune that it answers (R537). Its program starts only in a running partition; during the start-up
self-test it is itself tested instead (R584). -/
def Dev.standIn (d : Dev) (k e : Nat) : Dev :=
  match (d.physCore k).forCore, d.prunes.find? (fun (x : Prune) => decide (x.by_ = some k)) with
  | some c, some pr =>
    match (d.part (d.corePart c)).st with
    | .noticed | .revoking | .free =>
      (d.onPhys k (fun x => { x with fill := 0, forCore := none })).onPrune pr.phys (fun x => { x with by_ := none })
    | .running =>
      let d1 := ((d.swapIn k c).onPrune pr.phys (fun x => { x with standing := true })).prtCore 0x0F21 c
      if d.sec.stage = 6 then d1.meColTest c else d1.restart c e (BitVec.ofNat 64 pr.code) 1 (BitVec.ofNat 64 c)
    | _ => ((d.swapIn k c).onPrune pr.phys (fun x => { x with standing := true })).prtCore 0x0F21 c
  | _, _ => d

/-- Core c has halted with one of the events `codes` since the units `old` stood halted (R538): its sequencer, or one of its
engines under a program that has neither ended nor been stopped. That an engine's halt is its core's is DEDUCED (log entry
136). -/
def Dev.haltedBy (d : Dev) (c : Nat) (old : List Nat) (sq : Sq → Bool) (codes : List Nat) : Bool :=
  let x := d.core c
  let live := match x.sq.st with
    | .run | .stall | .halted => !x.sq.pruned
    | .idle | .done => false
  live && ((decide (x.sq.st = .halted) && sq x.sq && !old.contains c) ||
    [1, 2, 3].any (fun e => (x.eng e).halt && codes.contains (x.eng e).event && !old.contains (1000 * e + c)))

/-- Core c halted on a poison read that followed a memory fault of the recovery under way (R538). -/
def Dev.poisonHalted (d : Dev) (p c : Nat) : Bool :=
  match (d.part p).beforeMem with
  | some l => d.recovering p && d.haltedBy c l (fun q => q.poisonLd) [0x0606, 0x0706]
  | none => false

/-- Core c halted with SEM_POISONED since the recovery began (R538). -/
def Dev.semHalted (d : Dev) (p c : Nat) : Bool :=
  d.recovering p && d.haltedBy c (d.part p).before (fun q => decide (q.faultCode = 0x0901)) [0x0901]

/-- The stand-ins and restarts of partition p at edge e (R537, R538), for as long as the partition runs (R539). Without a prune the manual names no event and no
core for s2 and s4, which are free values. -/
def Dev.standInEdge (d : Dev) (p e : Nat) : Dev :=
  let ks := (upTo 448).filter (fun k => decide ((d.physCore k).fill = 3) && decide (d.tilePart (k / 112) = p))
  let again := fun (d : Dev) (c : Nat) (s2 s4 : Word) => if (d.part p).st = .running then d.restart c e s2 0 s4 else d
  let sem := (d.partCores p).filter (fun c => d.semHalted p c)
  let poi := (d.partCores p).filter (fun c => d.poisonHalted p c)
  match ks.filterMap (fun k => d.prunes.find? (fun (x : Prune) => decide (x.by_ = some k))) with
  | pr :: _ =>
    (sem ++ poi).eraseDups.foldl (fun (d : Dev) c => again d c (BitVec.ofNat 64 pr.code) (BitVec.ofNat 64 pr.core))
      (ks.foldl (fun (d : Dev) k => d.standIn k e) d)
  | [] =>
    if d.prunes.any (fun x => decide (d.corePart x.core = p) && !x.standing) then d
    else poi.foldl (fun (d : Dev) c => again d.tick.tick c (Config.freeWord d.fresh) (Config.freeWord (d.fresh + 1))) d

/-- A prune without a SPARE core maps the logical core out at the next edge (R542). -/
def Dev.mapoutCore (d : Dev) (pr : Prune) : Dev :=
  let d1 := ((d.stopPart (d.corePart pr.core)).onPhys pr.phys (fun x => { x with
    logical := 0x1F, column := d.columnOf pr.phys })).onPrune pr.phys (fun x => { x with mapout := false })
  (d1.prtCore 0x0F25 pr.core).remedyDone (.core pr.phys)

/-- The map-outs of an edge. -/
def Dev.mapoutEdge (d : Dev) : Dev := (d.prunes.filter (fun x => x.mapout)).foldl (fun (d : Dev) x => d.mapoutCore x) d

/-- A core still PRUNED when a program is next loaded is replaced before the start edge (R544), or mapped out. -/
def Dev.standInLoad (d : Dev) (p : Nat) : Dev :=
  (d.partCores p).foldl (fun (d : Dev) c =>
    match d.prunes.find? (fun (x : Prune) => decide (x.core = c) && x.done && decide (some x.phys = d.physOf c)) with
    | none => d
    | some pr =>
      match d.spareOf (clusterOf c) with
      | some s => ((d.swapIn s c).onPrune pr.phys (fun x => { x with by_ := some s, standing := true })).prtCore 0x0F21 c
      | none => d.mapoutCore pr) d

/-! ## Grafts (R303, R304, R540) -/

/-- The spare banks of a scratchpad take the places of its failing ones (R303); each comes up with no corrected error counted
(R302). -/
def Sram.grafted (x : Sram) : Sram :=
  { x with
    banks := banksOf (x.banks.map (fun e => (e.1, if x.bankDue e.1 then { e.2 with ce := 0 } else e.2)))
    repl := x.repl ++ x.due.map Prod.fst, due := [] }

/-- What becomes of the physical core of a prune at its step boundary (R540). ME_COLUMN_FAIL was raised when the column
failed its test (R139). -/
def Dev.judge (d : Dev) (pr : Prune) : Dev :=
  let k := pr.phys
  let x := d.physCore k
  let w := x.column
  let colBad := columnBad w
  let colOut := colBad && bit 5 w
  let bankOut := decide (4 < x.sram.repl.length + x.sram.due.length)
  let d0 : Dev := { d.remedyDone (.core k) with prunes := d.prunes.filter (fun y => y.phys ≠ k) }
  if colOut || bankOut then (d0.onPhys k (fun x => { x with st := .retired, columnDue := .no })).prtCore 0x0F24 pr.core
  else
    let w1 := if colBad then columnGraft w else w
    let d2 := if colBad then d0.raiseCore 0x0206 pr.core else d0
    let d3 := x.sram.due.foldl (fun (d : Dev) _ => d.raiseCore 0x0605 pr.core) d2
    (d3.onPhys k (fun x => { x with
      st := .spare, column := w1, columnDue := .no, sram := x.sram.grafted })).prtCore 0x0F23 pr.core

/-- The spare column of a core in service whose program ran the column test (R139): grafted at the step boundary, with no
tile loaded and every accumulator row invalid (log entry 115). -/
def Dev.columnBoundary (d : Dev) (c : Nat) : Dev :=
  let r : Reg := ⟨.meColumn, [c]⟩
  let w := d.reg r
  match d.physOf c with
  | some k =>
    if (d.physCore k).st = .inService ∧ (d.physCore k).columnDue = .sealed then
      (((d.onPhys k (fun x => { x with columnDue := .no })).setReg r (columnGraft w)).onMe c Me.wiped).raiseCore 0x0206 c
    else d
  | none => d

/-- The grafts of cores at a step boundary of partition p (R139, R540, R541): a partition under load has none, its prunes are
answered at the boundaries of the program that it loads (R544). The core of a prune is judged when its column test has ended
(log entry 115). -/
def Dev.coreBoundary (d : Dev) (p : Nat) : Dev :=
  if (d.part p).st = .loading then d else
  let ks := (upTo 448).filter (fun k => decide ((d.physCore k).st = .standIn) && decide (d.tilePart (k / 112) = p))
  let d1 := ks.foldl (fun (d : Dev) k =>
    (d.onPhys k (fun x => { x with st := .inService })).prtCore 0x0F22 (24 * (k / 28) + (d.physCore k).logical)) d
  let d2 := (d1.partCores p).foldl (fun (d : Dev) c => d.columnBoundary c) d1
  (d2.prunes.filter (fun x => x.done && x.sealed && decide (d2.corePart x.core = p) && !bit 6 (d2.columnOf x.phys) &&
      (match d2.physOf x.core with
       | some k => decide (k ≠ x.phys) && decide ((d2.physCore k).st = .inService)
       | none => true))).foldl (fun (d : Dev) x => d.judge x) d2

/-- Bank b of a memory is mapped out and n stay (R304): the physical banks above it serve the logical numbers below theirs,
and take the REQ of those; FAILING stays as it is until device reset (R311, R314; log entry 121). -/
def Sram.mapOut (x : Sram) (b n : Nat) : Sram :=
  let down := fun (y : Nat) => if b < y then y - 1 else y
  { banks := banksOf ((upTo n).map (fun i => (i, (x.bank (if b ≤ i then i + 1 else i)).request (x.bank i).req (x.bank i).owner)))
    failing := x.failing
    due := (x.due.filter (fun y => y.1 ≠ b)).map (fun y => (down y.1, y.2))
    repl := x.repl.map down }

/-- The graft or map-out of a failing grove bank (R303, R304). -/
def Dev.groveGraft (d : Dev) (g b : Nat) : Dev :=
  let u := grvKey g
  let p := some (d.clusterPart g)
  if (d.sram u).repl.length < 4 then
    ((((d.zeroBank u b).onSram u (fun x => { (x.onBank b (fun k => { k with st := .up, pos := 0, ce := 0, pending := false })) with
      repl := x.repl ++ [b], due := x.due.filter (fun y => y.1 ≠ b) })).raise 0x0705 p g).remedyDone (.bank u b))
  else
    let d1 := d.zeroSram (grvBase g) (grvBase (g + 1))
    let d2 := (d1.remedyDone (.bank u b)).onSram u (fun x => x.mapOut b (d.bankCount u - 1))
    let m := d2.mem
    let n := FMap.getD m.grvMapped g 0 + 1
    let d3 : Dev := { d2 with
      fresh := d2.fresh + 1
      faults := d2.faults.map (fun f => { f with remedies := f.remedies.map (fun r => match r with
        | .bank v y => if v = u ∧ b < y then .bank v (y - 1) else r
        | _ => r) })
      mem := { m with
        grvMapped := FMap.set m.grvMapped 0 g n
        grvEra := (upTo (80 - n)).foldl (fun e i => FMap.set e 0 (80 * g + i) (d2.fresh + 1)) m.grvEra } }
    d3.raise 0x0707 p g

/-- The grafts of grove banks of cluster g at a step boundary: those reported before the seal (R541). -/
def Dev.groveBoundary (d : Dev) (g : Nat) : Dev :=
  let due := fun (d : Dev) => (d.sram (grvKey g)).due.find? (fun e => e.2 = .sealed)
  (d.sram (grvKey g)).due.foldl (fun (d : Dev) _ => match due d with
    | some e => d.groveGraft g e.1
    | none => d) d

/-- The seal passes for failing banks (R541). -/
def Dev.sramSeal (d : Dev) : Dev :=
  { d with srams := d.srams.map (fun e =>
      if e.2.due.isEmpty then e else (e.1, { e.2 with due := e.2.due.map (fun y => (y.1, y.2.seal)) })) }

/-- Partition p's next program has been loaded: the grafts and map-outs that faults of NOTICED and REVOKING scheduled are due
at its boundaries (R541, 15). -/
def Dev.dueRelease (d : Dev) (p : Nat) : Dev :=
  let d1 : Dev := { d with
    srams := d.srams.map (fun e => if d.sramPart e.1 = p then
      (e.1, { e.2 with due := e.2.due.map (fun y => (y.1, y.2.release)) }) else e)
    phys := d.phys.map (fun e => if d.tilePart (e.1 / 112) = p then
      (e.1, { e.2 with columnDue := e.2.columnDue.release, sram := { e.2.sram with due := e.2.sram.due.map (fun y => (y.1, y.2.release)) } })
      else e)
    meshes := d.meshes.map (fun e => if d.tilePart e.1 = p then (e.1, { e.2 with shiftDue := e.2.shiftDue.release }) else e) }
  (d.partTiles p).foldl (fun (d : Dev) t => d.onHbm t (fun h => { h with
    failed := h.failed.map (fun e => (e.1, e.2.release)) })) d1

/-! ## The end of a recovery (R530) -/

/-- The seal passes for faults that schedule no remedy (R530), for prunes and for failing columns (R541). -/
def Dev.faultsSeal (d : Dev) : Dev :=
  { d with
    prunes := d.prunes.map (fun x => { x with sealed := true })
    phys := d.phys.map (fun e => (e.1, { e.2 with columnDue := e.2.columnDue.seal }))
    faults := d.faults.map (fun f => { f with remedies := f.remedies.map (fun r => match r with
      | .nextEdge _ => .nextEdge true
      | r => r) }) }

/-- Parts that end at an edge: of sealed reports, of a device that is LOCKED or KING, of PLLs that have relocked. -/
def Dev.faultsEdge (d : Dev) : Dev :=
  let d1 := (d.remedyDone (.nextEdge true)).pllEdge
  match d.tmp.acq with
  | .locked | .king => d1.remedyDone .locked
  | _ => d1

/-- Recoveries whose every part has ended end at this edge, with PRT_RECOVERY_END. -/
def Dev.recoveryEnd (d : Dev) : Dev :=
  (upTo 4).foldl (fun (d : Dev) p =>
    let fs := d.faults.filter (fun f => f.part = some p)
    if fs.isEmpty ∨ fs.any (fun f => !f.remedies.isEmpty) then d
    else ({ d with faults := d.faults.filter (fun f => f.part ≠ some p) } : Dev).raise 0x0F27 (some p) p)
    { d with faults := d.faults.filter (fun f => f.part ≠ none ∨ !f.remedies.isEmpty) }

/-! ## Register words (R551 to R554) -/

/-- PRT_RECOVERY. -/
def Dev.recoveryWord (d : Dev) : Word :=
  put 3 0 (((upTo 4).map (fun p => if d.recovering p then 2 ^ p else 0)).sum) ||| putBit 4 (d.faults.any (fun f => f.part = none)) |||
  (d.reg ⟨.prtRecovery, []⟩ &&& ~~~(0xFFFF : Word))

/-- PRT_CLUSTER_SPARE of cluster g. -/
def Dev.clusterSpare (d : Dev) (g : Nat) : Word :=
  let out := (upTo 24).filter (fun i => !d.inService (24 * g + i))
  put 4 0 (24 - out.length) ||| put 7 5 ((upTo 28).filter (fun k => (d.physCore (28 * g + k)).st = .spare)).length |||
  put 31 8 (out.map (fun i => 2 ^ i)).sum

/-- PRT_CORE of physical core k (28g + k of the cluster). -/
def Dev.coreWord (d : Dev) (k : Nat) : Word :=
  let x := d.physCore k
  put 4 0 x.logical ||| put 7 5 x.st.code ||| put 23 8 x.cause ||| put 31 24 x.prunes

end Sys2Proof.Machine
end

