-- ==== Sys2Proof/Machine/Staged.lean ====
section
/-! DEFINITION. Staged commit: sets, stall, consistency checker, commit (R17, R49 to R55, and each block's rules). -/
namespace Sys2Proof.Machine

/-- Staged set s. -/
def Dev.set_ (d : Dev) (s : Nat) : StagedSet := FMap.getD d.sets s {}

/-- Change a staged set. -/
def Dev.onSet (d : Dev) (s : Nat) (f : StagedSet → StagedSet) : Dev := { d with sets := FMap.set d.sets {} s (f (d.set_ s)) }

/-- Partition whose set holds the RWT fields of a register, under a shape; none: the device's set 0 (R52). The fields of a
context stand in the set of the partition that its BIND field names, bound or not (log entry 32). -/
def regPart (sh : Nat) (d : Dev) (r : Reg) : Option Nat :=
  match r.k with
  | .tmpDmCtrl | .prtRegHbm | .prtRegGrv | .prtRegDvo | .hubRingBase | .hubRingCfg => some (r.i 0)
  | .dvoRedFirst | .dvoRedPeriod | .dvoRedKey => some (r.i 0)
  | .dmaChRing | .dmaChCtrl => some (partOfTile sh (r.i 0 / 4))
  | .pwrTile => some (partOfTile sh (r.i 0))
  | .neaCtxCommit | .neaCtxPeriod | .neaCtxSeed | .neaGrpCfg | .neaGrpHyp1 | .neaGrpHyp2 | .neaGrpHyp3 | .neaKernel =>
    some (d.regFld ⟨.neaCtxCtrl, [r.i 0]⟩ 1 0)
  | _ => none

/-- The staged set of a register. -/
def Dev.setOf (d : Dev) (r : Reg) : Nat :=
  match regPart d.shape d r with
  | none => 0
  | some p => p + 1

/-- The bits of a register that are RWT now: TMP_PERIOD only on the king (R63). -/
def Dev.rwtMask (d : Dev) (r : Reg) : Word :=
  if r.k = .tmpPeriod ∧ d.tmp.acq ≠ .king then 0 else accMask [.rwt] r.k

/-- A staged write completes (R17, R50, R54); of a DMA channel it also sets OWNER and the epoch (R345, R533). Of several registers
that do not fit, TMP_COMMIT_ADDR will name the first in time (DESIGN CHOICE, log entry 138: R55 does not say which). -/
def Dev.stage (d : Dev) (r : Reg) (w : StagedWrite) : Dev :=
  let s := d.setOf r
  let d1 := d.onSet s (fun x =>
    match FMap.find? x.writes r.addr with
    | some o =>
      let n : StagedWrite := ⟨o.mask ||| w.mask, (o.val &&& ~~~w.mask) ||| (w.val &&& w.mask), w.owner⟩
      { x with writes := FMap.insert x.writes r.addr n }
    | none =>
      let n : StagedWrite := ⟨w.mask, w.val &&& w.mask, w.owner⟩
      if 4096 ≤ x.writes.length then { x with excess := some (x.excess.getD r.addr) }
      else { x with writes := FMap.insert x.writes r.addr n })
  if r.k = .dmaChRing ∨ r.k = .dmaChCtrl then
    d1.onCh (r.i 0) (r.i 1) (fun c => { c with owner := w.owner, epoch := (d.part (d.clusterPart (r.i 0))).epoch % 2 ^ 32 })
  else d1

/-- The RWT fields that an accepted write covers are staged (R17, R50). -/
def Dev.rwtWrite (d : Dev) (r : Reg) (mask val : Word) (owner : Nat) : Dev :=
  let m := mask &&& d.rwtMask r
  if m = 0 then d else d.stage r ⟨m, val, owner⟩

/-- A set is emptied and OVERFLOW cleared (R54). -/
def Dev.setEmpty (d : Dev) (s : Nat) : Dev := d.onSet s (fun x => { x with writes := [], excess := none })

/-- STAGE_DISCARD: at once, or at E + 8 ns (R50, R54). -/
def Dev.stageDiscard (d : Dev) (ag : Agent) (s : Nat) : Dev :=
  if d.stalling then d.park (.discard ag s) else d.setEmpty s

/-! ## The checker (R52, R53, R55) -/

/-- A register as staged writes will leave it. -/
def overlay (ms : List (FMap StagedWrite)) (a : Nat) (v : Word) : Word :=
  ms.foldl (fun v m =>
    match FMap.find? m a with
    | some w => (v &&& ~~~w.mask) ||| (w.val &&& w.mask)
    | none => v) v

/-- The registers in force under staged writes. -/
def Dev.view (d : Dev) (ms : List (FMap StagedWrite)) (r : Reg) : Word := overlay ms r.addr (d.reg r)

/-- A ring of 2^log2n descriptors of 64 B from base lies in the grove memory of cluster g, as far as
it is mapped (R304), at a multiple of 2 KiB. -/
def Dev.ringIn (d : Dev) (g base log2n : Nat) : Bool :=
  decide (base % 2048 = 0) && decide (grvBase g ≤ base) &&
  decide (base + 64 * 2 ^ log2n ≤ grvBase g + d.bankCount (grvKey g) * 0x80000)

/-- Tiles of partition p under a shape. -/
def tilesUnder (sh p : Nat) : List Nat := (upTo 4).filter (fun t => partOfTile sh t = p)

/-- A rate above its limit (R487). -/
def rateBad (v : Word) (limit : Nat) : Option (Nat × Nat) := if limit < fld 15 0 v then some (1, 0) else none

/-- FP32 not negative and finite (R385); −0 is not negative. -/
def nonNegative (x : Lane) : Bool := x.finite && decide (x.toNat < 0x80000000 ∨ x = 0x80000000)

/-- FP32 in [0, 1) (R385). -/
def inUnit (x : Lane) : Bool := decide (x.toNat < 0x3F800000) || decide (x = 0x80000000)

/-- The rules of R385 for the group registers of context c, under staged writes: the registers that break one. -/
def Dev.groupsBad (d : Dev) (ms : List (FMap StagedWrite)) (c : Nat) : List (Nat × Nat) :=
  let rd := d.view ms
  let gs := (upTo 256).map (fun g => (g, neaGroupOf rd c g))
  let at_ := fun (k : RK) (g : Nat) => (Reg.addr ⟨k, [c, g]⟩)
  let lo := fun (k : RK) (g : Nat) => (BitVec.ofNat 32 (fld 31 0 (rd ⟨k, [c, g]⟩)) : Lane)
  gs.flatMap (fun x =>
    let g := x.1
    let s := x.2
    (if s.count ≠ 0 ∧ (d.ctx c).q < s.base + s.count then [(at_ .neaGrpCfg g, 0)] else []) ++
    (if s.count ≠ 0 ∧ gs.any (fun y => decide (y.1 ≠ g) && decide (y.2.count ≠ 0) && decide (s.base < y.2.base + y.2.count) &&
        decide (y.2.base < s.base + s.count)) then [(at_ .neaGrpCfg g, 0)] else []) ++
    (if s.rule = 3 ∧ ¬kernelOk s.kernel then [(at_ .neaGrpCfg g, 44)] else []) ++
    (if nonNegative s.eta then [] else [(at_ .neaGrpHyp1 g, 0)]) ++
    (if inUnit (lo .neaGrpHyp2 g) then [] else [(at_ .neaGrpHyp2 g, 0)]) ++
    (if inUnit s.betaS then [] else [(at_ .neaGrpHyp2 g, 32)]) ++
    (if s.rule = 1 ∧ ¬(nonNegative s.eps ∧ s.eps.toNat % 2 ^ 31 ≠ 0) then [(at_ .neaGrpHyp3 g, 0)] else []) ++
    (if s.gscale.finite then [] else [(at_ .neaGrpHyp3 g, 32)]))

/-- Is the block of a register gated, in P2 or P3, or PENDING (R55)? -/
def Dev.blockOut (d : Dev) (r : Reg) : Bool :=
  match r.k with
  | .dmaChRing | .dmaChCtrl =>
    let g := r.i 0
    decide (d.clkState false g 1 ≠ 2) || decide (d.regFld ⟨.clkEnCluster, [g]⟩ 16 16 = 1) ||
      decide ((d.ptile (g / 4)).st ≠ .run)
  | .dvoPortCfg => decide ((d.ptile (r.i 0 / 6)).st ≠ .run) || !d.fabricOn (r.i 0 / 6)
  | _ => false

/-- The rules for one staged register: reason and low bit of the field, or nothing. `sh` is the shape that will stand. Where a
register breaks several rules, STATE goes before the others (DESIGN CHOICE, log entry 42). -/
def Dev.fieldBad (d : Dev) (ms : List (FMap StagedWrite)) (sh : Nat) (r : Reg) (w : StagedWrite) : Option (Nat × Nat) :=
  let v := d.view ms r
  if d.blockOut r then some (6, 0)
  else match r.k with
  | .tmpPeriod =>
    let us := fld 10 0 v
    if us < 4 ∨ 1024 < us then some (1, 0) else if d.tmp.next ≠ 0 then some (7, 0) else none
  | .prtShape =>
    let n := fld 1 0 v
    if n = 3 then some (1, 0)
    else if (upTo (max (shapeParts n) (shapeParts d.shape))).all (fun p => decide ((d.part p).st = .free)) then none
    else some (2, 0)
  | .dvoCoord =>
    let id := fld 17 0 v
    let dimBad := fun (lo hi k : Nat) => fld hi lo v = 0 || decide (64 < fld hi lo v) || decide (fld hi lo v ≤ coordOf id k)
    if id = 0x3FFFF then some (1, 0)
    else if dimBad 18 24 0 then some (1, 18) else if dimBad 25 31 1 then some (1, 25)
    else if dimBad 32 38 2 then some (1, 32) else none
  | .dvoPortCfg =>
    let l := fld 6 2 v
    if fld 1 0 v = 3 then some (1, 0)
    else if 24 ≤ l ∧ l ≤ 30 then some (1, 2)
    else if 5 < fld 9 7 v then some (1, 7)
    else if 20 < ((upTo 24).filter (fun q => fld 1 0 (d.view ms ⟨.dvoPortCfg, [q]⟩) = 1)).length then some (2, 0)
    else none
  | .dvoOvr => if 23 < fld 40 36 v then some (1, 36) else none
  | .prtRegHbm => rateBad v (3763 * (tilesUnder sh (r.i 0)).length)
  | .prtRegGrv => rateBad v 4000
  | .prtRegDvo => rateBad v 200
  | .dmaChRing =>
    let n := fld 52 48 v
    if n < 5 ∨ 16 < n then some (1, 48) else if d.ringIn (r.i 0) (fld 47 0 v) n then none else some (1, 0)
  | .hubRingBase =>
    let n := fld 52 48 v
    let cs := (tilesUnder sh (r.i 0)).flatMap (fun t => [4 * t, 4 * t + 1, 4 * t + 2, 4 * t + 3])
    if n < 5 ∨ 16 < n then some (1, 48) else if cs.any (fun g => d.ringIn g (fld 47 0 v) n) then none else some (1, 0)
  | .pwrTile =>
    let t := r.i 0
    let o := fld 2 0 v
    let q := fld 10 9 v
    let cur := d.target t
    let st := (d.part (partOfTile sh t)).st
    if bit 0 w.mask ∧ 5 < o then some (1, 0)
    else if q = 3 then some (1, 9)
    else if bit 0 w.mask ∧ (cur + 1 < o ∨ o + 1 < cur) then some (4, 0)
    else if q = 1 ∧ (d.ptile t).st ≠ .retain ∧ ¬(st = .free ∨ st = .ended ∨ st = .halted) then some (2, 9)
    else if q = 2 ∧ (d.ptile t).st ≠ .off ∧ st ≠ .free then some (2, 9)
    else none
  | .tmpDmCtrl => if bit 11 (w.val &&& w.mask) ∧ d.armed (r.i 0) then some (6, 11) else none
  | _ => none

/-- The first failing register of a list of staged writes, in ascending address order. -/
def Dev.firstBad (d : Dev) (ms : List (FMap StagedWrite)) (sh : Nat) (ws : FMap StagedWrite) : Option Verdict :=
  let one := ws.findSome? (fun e =>
    match regAt e.1 with
    | some r => (d.fieldBad ms sh r e.2).map (fun b => (⟨b.1, e.1, b.2⟩ : Verdict))
    | none => none)
  let ctxs := (upTo 8).filter (fun c => ws.any (fun e =>
    match regAt e.1 with
    | some r =>
      (match r.k with
       | .neaGrpCfg | .neaGrpHyp1 | .neaGrpHyp2 | .neaGrpHyp3 | .neaKernel => true
       | _ => false) && decide (r.i 0 = c)
    | none => false))
  let gb := ctxs.flatMap (fun c => d.groupsBad ms c)
  let grp := gb.foldl (fun (m : Option (Nat × Nat)) x =>
    match m with
    | none => some x
    | some y => if x.1 < y.1 then some x else some y) none
  match one, grp with
  | some a, some b => if b.1 < a.addr then some ⟨2, b.1, b.2⟩ else some a
  | some a, none => some a
  | none, some b => some ⟨2, b.1, b.2⟩
  | none, none => none

/-- Is set s due at edge E (R53)? -/
def Dev.setDue (d : Dev) (s e : Nat) : Bool :=
  let t := (d.reg ⟨.tmpStageTarget, [s]⟩).toNat
  (!(d.set_ s).writes.isEmpty || (d.set_ s).excess.isSome) && (decide (t = 0) || decide (t ≤ e))

/-- The verdict on set s, checked over `base` (what set 0 will leave) under the shape that will stand. -/
def Dev.setVerdict (d : Dev) (base : List (FMap StagedWrite)) (sh s : Nat) : Verdict :=
  let x := d.set_ s
  match x.excess with
  | some a => ⟨3, a, 0⟩
  | none => (d.firstBad (base ++ [x.writes]) sh x.writes).getD ⟨0, 0, 0⟩

/-- TEMPO_SEAL's checking: set 0 first, then each partition's set over set 0 as it will stand (R52). A partition set that
would pass with a refused set 0 is refused with reason DEVICE_SET. -/
def Dev.setsSeal (d : Dev) (e : Nat) : Dev :=
  let w0 := (d.set_ 0).writes
  let due0 := d.setDue 0 e
  let v0 := d.setVerdict [] d.shape 0
  let ok0 := due0 && decide (v0.reason = 0)
  let shNew := fld 1 0 (d.view [w0] ⟨.prtShape, []⟩)
  let base := if ok0 then [w0] else []
  let sh := if ok0 then shNew else d.shape
  let d1 := d.onSet 0 (fun x => { x with verdict := if due0 then some v0 else none })
  [1, 2, 3, 4].foldl (fun (d' : Dev) s =>
    let v := d.setVerdict base sh s
    let v' := if due0 ∧ ¬ok0 ∧ v.reason ≠ 0 ∧ (d.setVerdict [w0] shNew s).reason = 0 then { v with reason := 5 } else v
    d'.onSet s (fun x => { x with verdict := if d.setDue s e then some v' else none })) d1

/-! ## The commit (R49, R51, R70, R71) -/

/-- What the commit of one register does beside setting it. A TMP_PERIOD staged by a king that has stepped down since sets NEXT and
AT all the same (DESIGN CHOICE, log entry 138: R63 does not say). A REQ moves a tile from stage 7 on (R574). -/
def Dev.commitReg (d : Dev) (r : Reg) (w : StagedWrite) (e : Nat) : Dev :=
  let v := overlay [[(r.addr, w)]] r.addr (d.reg r)
  match r.k with
  | .tmpPeriod => d.periodCommit (fld 10 0 v) e
  | .tmpDmCtrl => if bit 11 (w.val &&& w.mask) then d.returnCommit (r.i 0) e else d
  | .dvoPortCfg => d.portCommit (r.i 0) v
  | .dmaChRing => (d.setReg r v).dmaRingCommit (r.i 0) (r.i 1)
  | .dmaChCtrl => (d.setReg r v).dmaEnCommit (r.i 0) (r.i 1)
  | .pwrTile => if bit 9 w.mask && decide (d.sec.stage = 7) then (d.setReg r v).powerRequest (r.i 0) (fld 10 9 v) else d.setReg r v
  | _ => d.setReg r v

/-- The outcome of set s at edge E (R54, R55, R70, R71). TMP_COMMIT_ADDR reads 0 after a set was applied (DESIGN CHOICE, log
entry 110). -/
def Dev.setCommit (d : Dev) (s e : Nat) : Dev :=
  let x := d.set_ s
  match x.verdict with
  | none => d
  | some v =>
    let ok := decide (v.reason = 0)
    let d1 := (d.onSet s (fun x => { x with verdict := none })).setEmpty s
    let d2 := if ok then x.writes.foldl (fun (d : Dev) wv =>
        match regAt wv.1 with
        | some r => d.commitReg r wv.2 e
        | none => d) d1
      else d1.raise 0x0108 (if s = 0 then none else some (s - 1)) s
    (d2.setReg ⟨.tmpCommitStatus, [s]⟩ (put 1 0 (if ok then 1 else 2) ||| put 7 4 v.reason ||| put 39 8 e)).setReg
      ⟨.tmpCommitAddr, [s]⟩ (put 47 0 v.addr ||| put 53 48 v.bit_)

/-- The staged commit of edge E: set 0, then the partitions' sets. -/
def Dev.setsCommit (d : Dev) (e : Nat) : Dev := (upTo 5).foldl (fun d s => d.setCommit s e) d

/-- TMP_STAGE_CTRL (R68). -/
def Dev.stageWord (d : Dev) (s : Nat) : Word := put 28 16 (d.set_ s).writes.length ||| putBit 29 (d.set_ s).excess.isSome

end Sys2Proof.Machine
end

