-- ==== Sys2Proof/Machine/Load.lean ====
section
/-! DEFINITION. Loading, castling and revocation (R489 to R502, R612). -/
namespace Sys2Proof.Machine

/-! ## The checks of R490 -/

/-- Every core that an image names, with either model. -/
def imgAllCores (x : Image) : List ImgCore := x.cores ++ (match x.fb with
  | some f => f.2
  | none => [])


/-- Stages of an image's reduction table: the inputs of each stand in the input table from its INP on (R457, R458). -/
def imgStages (x : ImgRed) : List RedStage :=
  x.stages.map (fun s => { words := s, ins := (x.inputs.drop (bits 63 48 (s.getD 1 0))).take (bits 27 25 (s.getD 0 0))
                           port := bits 20 16 (s.getD 0 0) })

/-- Where an image may lie (R612): the Hub memory, or the HBM of the partition. -/
def Dev.imageAt (d : Dev) (p a n : Nat) : Bool :=
  decide (a % 4096 = 0) &&
  ((decide (0x0F0040000000 ≤ a) && decide (a + n ≤ 0x0F0050000000)) || d.hbmRange p a (a + n))

/-- Runs of the `n` lowest pages at or after page `cur` that are not among `out`, ascending: first page and length. -/
def pageRuns (cur n : Nat) : (out : List Nat) → List (Nat × Nat)
  | [] => if n = 0 then [] else [(cur, n)]
  | r :: rs =>
    let k := min n (r - cur)
    (if k = 0 then [] else [(cur, k)]) ++ pageRuns (max cur (r + 1)) (n - k) rs

/-- The pages that the loader assigns for the HBM that an image declares, never a retired one (R490; the choice among the
others is log entry 131). -/
def Dev.loaderPages (d : Dev) (hbm : List (Nat × Nat)) : List (Nat × Nat × Nat) :=
  (upTo 4).flatMap (fun t =>
    (pageRuns 0 (cdiv ((hbm.filter (fun k => k.1 = t)).map Prod.snd).sum 0x200000) ((d.hbmTile t).retiredPages.map Prod.fst)).map (fun r => (t, r)))

/-- Does a run of pages, `s.2` from page `s.1` of the HBM addresses, miss every page that is out of the map (R361, R365)? -/
def Dev.pagesIn (d : Dev) (s : Nat × Nat) : Bool :=
  (upTo 4).all (fun t =>
    let h := d.hbmTile t
    let b := 55296 * t
    (decide (s.1 + s.2 ≤ b + 576 * h.p) || decide (b + 55296 ≤ s.1)) &&
    (h.retiredPages.map Prod.fst).all (fun g => decide (b + g < s.1) || decide (s.1 + s.2 ≤ b + g)))

/-- The generation slots of an image are at most 64 stages, disjoint, in the mapped HBM of the partition (R490, R194; log
entry 131). -/
def Dev.genOk (d : Dev) (p : Nat) (st : List ((Nat × Nat) × Nat × Nat)) : Bool :=
  let sl := (st.flatMap (fun s => [s.1, s.2])).filter (fun s => s.2 ≠ 0)
  decide (st.length ≤ 64) &&
  sl.all (fun s => d.hbmRange p (s.1 * 0x200000) ((s.1 + s.2) * 0x200000) && d.pagesIn s) &&
  (sl.zip (upTo sl.length)).all (fun x => (sl.drop (x.2 + 1)).all (fun y => decide (y.1 + y.2 ≤ x.1.1) || decide (x.1.1 + x.1.2 ≤ y.1)))

/-- The context that a load binds (R378): a SUSPENDED one of the job, or the first FREE one. -/
def Dev.ctxFor (d : Dev) (job : Nat) (n : ImgNea) : Option Nat :=
  match (upTo 8).find? (fun (c : Nat) => decide ((d.ctx c).st = CtxState.suspended) && decide ((d.ctx c).job = job) && decide (job ≠ 0) && !n.fbMode) with
  | some c => some c
  | none => (upTo 8).find? (fun (c : Nat) => decide ((d.ctx c).st = CtxState.free))

/-- The first check of R490 that fails: its REASON; 0 when the program is accepted. -/
def Dev.loadReason (d : Dev) (p : Nat) (img : Option Image) : Nat :=
  if ¬d.synced ∨ d.sec.stage < 7 ∨ ¬(d.partTiles p).all (fun t => decide ((d.ptile t).st = .run)) then 1
  else match img with
  | none => 2
  | some x =>
    let spd := fun (c : Nat) => (((imgAllCores x).filter (fun k => k.core = c)).map ImgCore.spd).sum
    let grv := fun (g : Nat) => ((x.grove.filter (fun k => k.1 = g)).map Prod.snd).sum
    let hbm := fun (t : Nat) => ((x.hbm.filter (fun k => k.1 = t)).map Prod.snd).sum
    let len := d.regFld ⟨.prtLoadLen, [p]⟩ 31 0
    if ¬x.valid ∨ len < x.len ∨ ¬d.imageAt p (d.regFld ⟨.prtLoad, [p]⟩ 47 0) len ∨ oppOf x.mhz = none then 2
    else if (imgAllCores x).any (fun k => decide (16384 < k.code.length) || !(d.partCores p).contains k.core || !d.inService k.core) then 3
    else if x.period ≠ d.period then 4
    else if x.period * x.mhz < x.budget + 64 then 5
    else if x.serving && !(match x.fb with
      | some f => decide (f.1 + 64 ≤ x.period * 1200)
      | none => false) then 6
    else if (imgAllCores x).any (fun k => decide (spdBytes < spd k.core)) then 7
    else if x.grove.any (fun k => !(d.partClusters p).contains k.1 || decide (d.bankCount (grvKey k.1) * 0x80000 < grv k.1)) then 8
    else if x.hbm.any (fun k => !(d.partTiles p).contains k.1 || decide (0x200000 * fld 23 8 (d.hbmStatus k.1) < hbm k.1)) then 9
    else if x.sems.any (fun s => decide (16384 ≤ s.1) || !d.semIn s.1 p || decide (65535 < s.2.1)) ∨
        (x.sems.map Prod.fst).eraseDups.length ≠ x.sems.length then 10
    else if ¬d.genOk p x.stages then 11
    else if !(match x.red with
      | some r => redTableOk r.period (imgStages r)
      | none => true) then 12
    else match x.nea with
    | none => 0
    | some n =>
      match d.ctxFor x.job n with
      | none => 13
      | some c =>
        if (d.ctx c).st = .suspended ∨ n.fbMode then 0
        else if areaValid n.params ∧ areaGib n.params ≤ d.freeGib ∧ (d.placeArea (areaGib n.params)).isSome then 0 else 14

/-! ## Start and completion (R489, R491) -/

/-- A load starts: map-outs; the checks, on the cores as the replacements of R544 leave them; then these replacements, and
TARGET from the declared MHz (R490, R563). Or it is refused, and nothing but the map-outs stays. -/
def Dev.loadStart (d : Dev) (p : Nat) (img : Option Image) : Dev :=
  let d1 := (d.partTiles p).foldl (fun d t => d.hbmLoadMapOut t) d
  let d1a := d1.standInLoad p
  let why := d1a.loadReason p img
  match why, img with
  | 0, some x =>
    let d2 := d1a.onPart p (fun y => { y with st := .loading, loading := some x })
    (d2.partTiles p).foldl (fun d t => d.setRegFld ⟨.pwrTile, [t]⟩ 2 0 ((oppOf x.mhz).getD 0)) d2
  | _, _ => (d1.onPart p (fun y => { y with st := .free, loading := none, reason := why, held := none })).raise 0x0F02 (some p) p

/-- PRT_LOAD: a write of PRT_CTRL.LOAD (R489); discarded for a partition that the shape lacks, and during a scrub (R596). -/
def Dev.prtLoad (d : Dev) (p : Nat) (img : Option Image) : Dev :=
  if shapeParts d.shape ≤ p ∨ d.sec.scrub.isSome then d
  else match (d.part p).st with
  | .free => d.loadStart p img
  | .noticed | .revoking => d.onPart p (fun x => { x with loadPending := true, pending := img })
  | _ => d

/-- The code of a core as its instruction store. -/
def codeStore (l : List Word) : FMap Word := ((upTo l.length).zip l).foldl (fun m x => FMap.set m 0 x.1 x.2) []

/-- A core as the loader leaves it (R213, R491): the program starts at edge e. -/
def Dev.coreLoad (d : Dev) (x : Image) (c e : Nat) : Dev :=
  let of_ := fun (l : List ImgCore) => (l.find? (fun (k : ImgCore) => k.core = c)).getD { core := c, code := [] }
  let a := of_ x.cores
  let f := of_ (match x.fb with
    | some f => f.2
    | none => [])
  d.onCore c (fun y => { y with
    sq := { Sq.start (codeStore a.code) a.code.length a.entry a.restart e with issue := y.sq.issue }
    alt := { store := codeStore f.code, codeLen := f.code.length, entry := f.entry, restart := f.restart } })

/-- The clock enables that a load sets (R570). -/
def Dev.enablesLoad (d : Dev) (p : Nat) (x : Image) : Dev :=
  let d1 := (d.partCores p).foldl (fun (d : Dev) c =>
    let gate := match x.cores.find? (fun (k : ImgCore) => k.core = c) with
      | some k => k.gate.toNat
      | none => 0
    d.clkWrite true c (7 - gate)) d
  (d1.partClusters p).foldl (fun (d : Dev) g => d.clkWrite false g 7) d1

/-- The declared semaphores (R491, R534). -/
def Dev.semsLoad (d : Dev) (l : List (Nat × Nat × Option Nat)) : Dev :=
  l.foldl (fun (d : Dev) s => d.setSem s.1 { value := s.2.1, owner := s.2.2.getD 0x1FF, declared := s.2.2.isSome }) d

/-- The context's binding (R378, R379, R397, R491): of a SUSPENDED context that is taken over its committed ring, all ones
where it has none (R493); and the device. -/
def Dev.ctxBind (d : Dev) (p job : Nat) (n : ImgNea) : Option Nat × Dev :=
  match d.ctxFor job n with
  | none => (none, d)
  | some c =>
    let x := d.ctx c
    let excess := decide (x.st = .suspended)
    let ctl : Reg := ⟨.neaCtxCtrl, [c]⟩
    let d1 := d.setReg ctl (put 1 0 p ||| putBit 2 true ||| putBit 3 n.fbMode)
    let d2 := if excess then d1.onCtx c (fun x => { x with st := .active, latch := .edge })
      else
        let b := if n.fbMode then 0 else (d.placeArea (areaGib n.params)).getD 0
        d1.onCtx c (fun x => { st := .active, q := n.params, base := b, job := job, latch := .edge, event := x.event, flags := x.flags })
    let d3 := ((d2.setReg ⟨.neaCtxArea, [c]⟩ (BitVec.ofNat 64 (d2.ctx c).q)).setReg ⟨.neaCtxCommit, [c]⟩ (BitVec.ofNat 64 n.commit)).setReg
      ⟨.neaCtxPeriod, [c]⟩ (BitVec.ofNat 64 n.period)
    let d4 := (d3.setReg ⟨.neaCtxSeed, [c]⟩ n.seed).setReg ⟨.neaCtxFb, [c]⟩ (BitVec.ofNat 64 n.fbAddr)
    let d5 := (upTo 256).foldl (fun (d : Dev) g =>
      ([.neaGrpCfg, .neaGrpHyp1, .neaGrpHyp2, .neaGrpHyp3, .neaGrpStat] : List RK).foldl (fun (d : Dev) k => d.regReset ⟨k, [c, g]⟩) d) d4
    let d6 := n.groups.foldl (fun (d : Dev) g =>
      (((d.setReg ⟨.neaGrpCfg, [c, g.1]⟩ g.2.1).setReg ⟨.neaGrpHyp1, [c, g.1]⟩ g.2.2.1).setReg ⟨.neaGrpHyp2, [c, g.1]⟩ g.2.2.2.1).setReg
        ⟨.neaGrpHyp3, [c, g.1]⟩ g.2.2.2.2) d5
    let d7 := n.kernels.foldl (fun (d : Dev) k => d.setReg ⟨.neaKernel, [c, k.1]⟩ k.2) d6
    (if excess then some (x.ring.getD (2 ^ 64 - 1)) else none, d7)

/-- The submission rings (R617). -/
def Dev.hubRingsLoad (d : Dev) (p : Nat) (l : List ImgRing) : Dev :=
  let d1 := (upTo 8).foldl (fun (d : Dev) r => (d.regReset ⟨.hubRingBase, [p, r]⟩).regReset ⟨.hubRingCfg, [p, r]⟩) d
  l.foldl (fun (d : Dev) x =>
    (d.setReg ⟨.hubRingBase, [p, x.ring]⟩ (put 47 0 x.base ||| put 52 48 x.log2n)).setReg ⟨.hubRingCfg, [p, x.ring]⟩
      (put 13 0 x.sem ||| putBit 14 x.en ||| put 31 16 x.head)) d1

/-- The reduction table with its registers (R457, R478, R479). -/
def Dev.redTableLoad (d : Dev) (p e : Nat) (r : ImgRed) : Dev :=
  let w := fun (n : Nat) => (BitVec.ofNat 64 n : Word)
  let d1 := ((d.setReg ⟨.dvoRedFirst, [p]⟩ (w r.first)).setReg ⟨.dvoRedPeriod, [p]⟩ (w r.period)).setReg ⟨.dvoRedKey, [p]⟩ r.key
  ((d1.setReg ⟨.dvoRedRing0, [p]⟩ (w r.ring0)).setReg ⟨.dvoRedScale, [p]⟩ (put 47 0 r.scale ||| put 63 48 r.tensors)).redLoad
    p e r.inputs.length (imgStages r)

/-- A notice of castling is taken (R495, R496): `at_` with 0 for any edge. Of two notices the earlier edge stands, unless
the seal of the pending one has passed. -/
def Dev.castle (d : Dev) (p at_ : Nat) (killed : Bool) : Dev :=
  let n : Notice := ⟨at_, killed, false⟩
  let first := fun (x : Notice) => if max at_ d.nextEdge < max x.at_ d.nextEdge then n else x
  if shapeParts d.shape ≤ p ∨ d.sec.scrub.isSome then d
  else match (d.part p).st with
  | .running | .ended | .halted => d.onPart p (fun x => { x with st := .noticed, notice := some n })
  | .noticed => d.onPart p (fun x => { x with notice := match x.notice with
      | some m => some (if m.sealed then m else first m)
      | none => some n })
  | .loading => d.onPart p (fun x => { x with held := match x.held with
      | some m => some (first m)
      | none => some n })
  | _ => d

/-- Steps 1 to 6 of R491 for image x, with the pages assigned to it; the program's start edge is e. MISSED counts from here
(R480). A load makes the generation tables anew, LATE_STAGE with them (DESIGN CHOICE, log entry 146: R205 does not say that it
outlives a load). -/
def Dev.loadWrite (d : Dev) (p e : Nat) (x : Image) : Dev :=
  let w := fun (n : Nat) => (BitVec.ofNat 64 n : Word)
  let d1 := d.onPart p (fun y => { y with epoch := (y.epoch + 1) % 2 ^ 32, job := x.job, tenant := x.tenant, loading := none, pages := d.loaderPages x.hbm })
  let d2 := (d1.partCores p).foldl (fun (d : Dev) c => if d.inService c then d.coreLoad x c e else d) d1
  let d3 := (d2.setReg ⟨.tmpBudget, [p]⟩ (put 31 0 x.budget ||| put 42 32 x.period ||| put 55 44 x.mhz)).setReg ⟨.tmpBudgetFb, [p]⟩
    (put 31 0 (match x.serving, x.fb with
      | true, some f => f.1
      | _, _ => 0) ||| put 63 32 x.tempos)
  let d4 := ((d3.setRegFld ⟨.tmpDmCtrl, [p]⟩ 10 10 (if x.serving then 1 else 0)).setRegFld ⟨.tmpDmCtrl, [p]⟩ 9 8 0).setReg ⟨.tmpDmStatus, [p]⟩ (w 0)
  let tab : GenTable := { stages := x.stages.length, events := (d4.gen p).events }
  let d5 := d4.setGen p (((upTo x.stages.length).zip x.stages).foldl (fun (t : GenTable) s =>
    (t.onSlot s.1 0 (fun y => { y with page := s.2.1.1, pages := s.2.1.2 })).onSlot s.1 1 (fun y => { y with page := s.2.2.1, pages := s.2.2.2 })) tab)
  let d6 := match x.red with
    | some r => d5.redTableLoad p e r
    | none => d5
  let d7 := (d6.setRegFld ⟨.dvoRedStatus, [p]⟩ 31 16 0).semsLoad x.sems
  let b := match x.nea with
    | some n => d7.ctxBind p x.job n
    | none => (none, d7)
  let d8 := (b.2.setReg ⟨.prtResume, [p]⟩ (w (b.1.getD (2 ^ 64 - 1)))).onPart p (fun y => { y with resumed := b.1.isSome })
  ((d8.enablesLoad p x).hubRingsLoad p x.rings).dueRelease p

/-- LOAD_COMPLETE (R491): the program starts at the next edge, unless its period is no longer in force (R39). -/
def Dev.loadComplete (d : Dev) (p : Nat) : Dev :=
  match (d.part p).st, (d.part p).loading with
  | .loading, some x =>
    let len := d.regFld ⟨.prtLoadLen, [p]⟩ 31 0
    let bytes := d.mem.getAll (d.regFld ⟨.prtLoad, [p]⟩ 47 0) len
    let d1 := (d.loadWrite p d.nextEdge x).onPart p (fun y => { y with st := .running, image := shake256 bytes, notice := none })
    let d2 := ((d1.raise 0x0F01 (some p) p).periodCheck p).programEnd p
    match (d2.part p).held with
    | some n => (d2.onPart p (fun y => { y with held := none })).castle p n.at_ n.killed
    | none => d2
  | _, _ => d

/-! ## Castling and revocation (R495 to R499) -/

/-- The seal of the coming edge e fixes it as the commit edge of a notice whose AT it reaches (R495). -/
def Dev.castleSeal (d : Dev) (e : Nat) : Dev :=
  (upTo 4).foldl (fun (d : Dev) p => d.onPart p (fun x => { x with notice := x.notice.map (fun n => { n with sealed := n.sealed || decide (n.at_ ≤ e) }) })) d

/-- Descriptors that a revocation aborts or cancels in a cluster (R508): none of a channel that stops already, by an abort or
because its running descriptor has met an error. -/
def Dev.dmaTaken (d : Dev) (g : Nat) : Nat :=
  let e := d.dmaEng g
  ((upTo 16).map (fun ch =>
    let x := e.chan ch
    match x.st with
    | .queued => x.batch.length
    | .run => match e.run with
      | some r => if r.ch = ch ∧ r.ends.isNone then x.batch.length + 1 else 0
      | none => x.batch.length
    | _ => 0)).sum

/-- Every semaphore of the partition takes its reset value, and requests of the outgoing epoch go (R498). -/
def Dev.semsRevoke (d : Dev) (p : Nat) : Dev :=
  { d with
    sems := d.sems.filter (fun e => !d.semIn e.1 p)
    semReqs := d.semReqs.filter (fun r => !d.semIn r.sem p)
    semDone := d.semDone.filter (fun r => match r.who with
      | .sq c => decide (d.corePart c ≠ p)
      | .eng c _ => decide (d.corePart c ≠ p)
      | _ => true) }

/-- Every REQ of the partition returns to ON (R301). -/
def Dev.banksRevoke (d : Dev) (p : Nat) : Dev :=
  { d with srams := d.srams.filterMap (fun e =>
      if d.sramPart e.1 = p then
        let x := { e.2 with banks := e.2.banks.filterMap (fun b =>
          let k := b.2.request .on 0x1FF
          if k = {} then none else some (b.1, k)) }
        if x = {} then none else some (e.1, x)
      else some e) }

/-- Staged writes of the outgoing program that still stall go with its set. -/
def Dev.stalledRevoke (d : Dev) (p : Nat) : Dev :=
  { d.setEmpty (p + 1) with stalled := d.stalled.filter (fun w => match w.agent with
      | .core c => decide (d.corePart c.val ≠ p)
      | _ => true) }

/-- End of a tenant grant (R598) with the extension of M7, given by the caller of revocation. -/
def Dev.dropMail (d : Dev) (p : Nat) : Dev := { d with mail := (d.mail.remove (2 * p)).remove (2 * p + 1) }

/-- The revocation clk of edge e (R498). -/
def Dev.revoke (d : Dev) (p e : Nat) (killed : Bool) : Dev :=
  let n := ((d.partClusters p).map (fun g => d.dmaTaken g)).sum
  let ring := match d.ctxOf p with
    | some c => if d.ctxFb c then none else (d.ctx c).ring
    | none => none
  let d1 := d.onPart p (fun x => { x with st := .revoking, notice := none, edge := e, killed := killed, aborts := n, ring := ring })
  let d2 := (d1.partCores p).foldl (fun d c => d.coreRevoke c) d1
  let d3 := ((d2.semsRevoke p).dmaRevoke p).cvuRevoke p
  let d4 := ((d3.dvoRevoke p (fun k =>
    if k.type = 0x10 ∨ k.type = 0x11 then decide (bits 37 36 k.addr = p) else decide (d3.addrPart k.addr = some p))).dmaForget
      (d3.requestsOf p)).stalledRevoke p
  let d5 := (d4.setGen p (d4.gen p).revoked).redRevoke p
  let d6 := match d5.ctxOf p with
    | some c => d5.neaSuspend c
    | none => d5
  ((((d6.banksRevoke p).monitorRevoke p).ringsRevoke p).dropMail p).semsRevoke p

/-- A partition's castlings at edge e, after every other action of the edge (R393, R472, R497). -/
def Dev.castleEdge (d : Dev) (e : Nat) : Dev :=
  (upTo 4).foldl (fun (d : Dev) p =>
    match (d.part p).st, (d.part p).notice with
    | .noticed, some n => if n.sealed then d.revoke p e n.killed else d
    | _, _ => d) d

/-- Every abort and fetch return of the partition has ended (R499). -/
def Dev.revoked (d : Dev) (p : Nat) : Bool :=
  (d.partClusters p).all (fun g => !d.dmaAborting g && (d.dmaEng g).run.isNone) &&
  (d.partCores p).all (fun c => (d.core c).fte.reqs.isEmpty)

/-- REVOCATION_COMPLETE (R499, R563): handover, FREE, PRT_REVOKED; a pending load starts. -/
def Dev.revocationComplete (d : Dev) (p : Nat) : Dev :=
  let x := d.part p
  if x.st = .revoking ∧ d.revoked p then
    let d1 := (d.setReg ⟨.prtHandover, [p]⟩ (put 31 0 x.edge ||| putBit 32 x.killed ||| put 63 48 (min x.aborts 0xFFFF))).setReg
      ⟨.prtHandoverRing, [p]⟩ (BitVec.ofNat 64 (x.ring.getD (2 ^ 64 - 1)))
    let d2 := (d1.partTiles p).foldl (fun (d : Dev) t => d.setRegFld ⟨.pwrTile, [t]⟩ 2 0 0)
      ((d1.partCores p).foldl (fun (d : Dev) c => d.ftePerfClear c) d1)
    let d3 := (d2.onPart p (fun y => { y with
      st := .free, job := 0, image := [], tenant := [], pages := [], loadPending := false, pending := none })).raise 0x0F04 (some p) p
    if x.loadPending then d3.loadStart p x.pending else d3
  else d

/-! ## Register words -/

/-- PRT_STATUS (R506). -/
def Dev.prtStatus (d : Dev) (p : Nat) : Word :=
  let x := d.part p
  put 2 0 x.st.code ||| putBit 3 x.loadPending ||| putBit 4 x.resumed ||| put 11 8 x.reason ||| put 47 16 x.epoch

end Sys2Proof.Machine
end

