-- ==== Sys2Proof/Machine/Hub.lean ====
section
/-! DEFINITION. Hub: control cores and their watchdog, event queue, interrupts, mailboxes, management port (R545, R609 to
R629), pins (R632, R637). -/
namespace Sys2Proof.Machine

/-! ## Control cores (R545, R619, R623) -/

/-- Hart k before anything happened to it (R623). -/
def Hart.init (k : Nat) : Hart := if k < 14 then { st := .inService, logical := k } else { st := .spare, logical := 0xF }

/-- Physical hart k. -/
def Dev.hart (d : Dev) (k : Nat) : Hart := FMap.getD d.harts k (Hart.init k)

/-- Change physical hart k. -/
def Dev.onHart (d : Dev) (k : Nat) (f : Hart → Hart) : Dev := { d with harts := FMap.set d.harts (Hart.init k) k (f (d.hart k)) }

/-- The physical hart in service as logical hart h. -/
def Dev.hartOf (d : Dev) (h : Nat) : Option Nat :=
  (upTo 16).find? (fun k => decide ((d.hart k).st = .inService) && decide ((d.hart k).logical = h))

/-- Control core of logical hart h is fenced (R545). Without a spare it is out of service for good. -/
def Dev.hartFail (d : Dev) (h : Nat) : Dev :=
  match d.hartOf h with
  | none => d
  | some k =>
    if (upTo 16).any (fun j => decide ((d.hart j).st = .spare)) then
      (d.onHart k (fun x => { x with st := .fenced, watched := false })).faultDevice 0x1401 h [] [.hart k]
    else ((d.onHart k (fun x => { x with st := .retired, logical := 0xF, watched := false })).faultDevice 0x1401 h [] []).raise
      0x1403 none h

/-- First address of the Hub memory (R610). -/
def hubBase : Nat := 0x0F0040000000

/-- HUB_CORE_GRAFT: a spare takes the identity of a fenced hart (R545) and starts in M-mode at RESTART; its watch begins at its
first kick (R619). -/
def Dev.hartGraft (d : Dev) (h : Nat) : Dev :=
  match (upTo 16).find? (fun k => decide ((d.hart k).st = .fenced) && decide ((d.hart k).logical = h)),
      (upTo 16).find? (fun k => decide ((d.hart k).st = .spare)) with
  | some k, some s =>
    let d1 := (d.onHart s (fun x => { x with
        st := .inService, logical := h, kick := 0, watched := false
        arch := { x.arch with mode := .m, pc := BitVec.ofNat 64 (hubBase + d.regFld ⟨.hubWdog, []⟩ 63 32) } })).onHart k
      (fun x => { x with logical := 0xF })
    (d1.raise 0x1402 none h).remedyDone (.hart k)
  | _, _ => d

/-- A logical hart kicks (R619, R624). -/
def Dev.wdogKick (d : Dev) (h : Nat) : Dev :=
  if d.lost 33 then d
  else match d.hartOf h with
  | some k => d.onHart k (fun x => { x with kick := d.tempo, watched := true })
  | none => d

/-- The watchdog at an edge (R619); it runs on the Hub's clock (R558, R560). -/
def Dev.wdogEdge (d : Dev) : Dev :=
  if d.lost 33 then d
  else
  let t := max 1 (d.regFld ⟨.hubWdog, []⟩ 31 16)
  (upTo 16).foldl (fun (d : Dev) k =>
    let x := d.hart k
    if x.watched ∧ x.st = .inService ∧ x.kick + t ≤ d.tempo then (d.raise 0x1404 none x.logical).hartFail x.logical else d) d

/-- HUB_HART (R623). -/
def Dev.hartWord (d : Dev) (k : Nat) : Word :=
  put 3 0 (d.hart k).logical ||| put 6 4 (d.hart k).st.code ||| put 63 32 (low 32 (d.hart k).kick)

/-! ## Event queue and interrupts (R613 to R615) -/

/-- Address of offset o in the Hub memory. -/
def hubAt (o : Nat) : Nat := hubBase + o % 2 ^ 28

/-- Whether an address lies in the Hub memory. -/
def inHub (a : Nat) : Bool := decide (hubBase ≤ a) && decide (a < hubBase + 2 ^ 28)

/-- Records in the queue: 2^LOG2N (R625). -/
def evqSize (v : Word) : Nat := if 4 ≤ fld 31 28 v ∧ fld 31 28 v ≤ 15 then 2 ^ fld 31 28 v else 4096

/-- A record is written, or lost in a full queue (R614, R615). -/
def Dev.recordWrite (d : Dev) (r : Raised) : Dev :=
  let q : Reg := ⟨.hubEvq, []⟩
  let v := d.reg q
  let n := evqSize v
  let h := fld 46 32 v % n
  if (h + 1) % n = fld 62 48 v % n then d.count ⟨.hubIrq, []⟩ 63 32 1
  else
    let a := hubAt (fld 27 4 v * 16 + 16 * h)
    let d1 := ({ d with mem := d.mem.putAll a (bytesOf 16 r.bits) } : Dev).setRegFld q 46 32 ((h + 1) % n)
    if bit r.cls.code (d.reg ⟨.hubIrq, []⟩) then d1.setRegFld ⟨.hubIrq, []⟩ 7 7 1 else d1

/-- EVENT_RECORD_WRITE: the n oldest raised events, of one clk, in ascending CODE and then UNIT order (R614). -/
def Dev.recordsWrite (d : Dev) (n0 : Nat) : Dev :=
  let n := if d.lost 33 then 0 else n0
  let now := sortBy (fun (r : Raised) => r.code * 65536 + r.unit) (d.raised.take n)
  now.foldl (fun (d : Dev) r => d.recordWrite r) { d with raised := d.raised.drop n }

/-- Logical hart h sees a pending supervisor external interrupt (R615). -/
def Dev.hartIrq (d : Dev) (h : Nat) : Bool :=
  let v := d.reg ⟨.hubIrq, []⟩
  bit (8 + h) v && (bit 7 v || (bit 6 v && (upTo 4).any (fun p => !(FMap.getD d.mail (2 * p) []).isEmpty)))

/-! ## Mailboxes (R616, R626, R627) -/

/-- A push to mailbox k: 2p up, 2p + 1 down of partition p. -/
def Dev.mboxPush (d : Dev) (k : Nat) (v : Word) : Dev :=
  let l := FMap.getD d.mail k []
  if 64 ≤ l.length then (d.count ⟨.hubMboxStat, [k / 2]⟩ 31 16 1).raise 0x1405 (some (k / 2)) (k / 2)
  else { d with mail := FMap.set d.mail [] k (l ++ [v]) }

/-- A pop: the value, 0 on an empty mailbox. -/
def Dev.mboxPop (d : Dev) (k : Nat) : Word × Dev :=
  match FMap.getD d.mail k [] with
  | [] => (0, d)
  | v :: r => (v, { d with mail := FMap.set d.mail [] k r })

/-- HUB_MBOX_STAT. -/
def Dev.mboxWord (d : Dev) (p : Nat) : Word :=
  put 6 0 (FMap.getD d.mail (2 * p) []).length ||| put 14 8 (FMap.getD d.mail (2 * p + 1) []).length |||
  put 31 16 (d.regFld ⟨.hubMboxStat, [p]⟩ 31 16)

/-! ## Management port (R620, R621, R629) -/

/-- MGT_LINK_UP, with the FEC that negotiation selected (R620). -/
def Dev.mgtLinkUp (d : Dev) (fec : Nat) : Dev :=
  if d.mgtUp then d else ({ d with mgtUp := true, mgtFec := fec } : Dev).raise 0x1502 none 0

/-- MGT_LINK_DOWN: a session ends (R622). -/
def Dev.mgtLinkDown (d : Dev) : Dev :=
  if d.mgtUp then ({ d with mgtUp := false, mgtFec := 0, session := none } : Dev).raise 0x1501 none 0 else d

/-- The port carries frames: its link is up and the Hub's clock runs (R560). -/
def Dev.mgtRuns (d : Dev) : Bool := d.mgtUp && !d.lost 33

/-- A length that the MAC carries (R620). -/
def frameSize (n : Nat) : Bool := decide (64 ≤ n) && decide (n ≤ 9216)

/-- A frame for this port (R620): to its fused address, the first byte on the wire the highest of MGT_STATUS.MAC, or to all (log entry
140). -/
def Dev.frameMine (d : Dev) (bs : List Byte) : Bool :=
  let to_ := bs.take 6
  decide (to_ = (bytesOf 6 d.fuses.mac).reverse) || decide (to_ = List.replicate 6 0xFF)

/-- A management ring: base offset, descriptors, HEAD, TAIL (R629). -/
def mgtRing (v : Word) : Nat × Nat × Nat × Nat :=
  let n := if 4 ≤ fld 31 28 v ∧ fld 31 28 v ≤ 12 then 2 ^ fld 31 28 v else 256
  (fld 27 4 v * 16, n, fld 43 32 v % n, fld 55 44 v % n)

/-- The descriptor at HEAD, when the port owns it: its address and first word (R621). -/
def Dev.mgtDesc (d : Dev) (k : RK) : Option (Nat × Nat) :=
  let g := mgtRing (d.reg ⟨k, []⟩)
  let a := hubAt (g.1 + 16 * g.2.2.1)
  let w := natOfBytes (d.mem.getAll a 8)
  if g.2.2.1 ≠ g.2.2.2 ∧ w.testBit 62 then some (a, w) else none

/-- A descriptor goes back to the operating system, and HEAD advances (R621). -/
def Dev.mgtReturn (d : Dev) (k : RK) (a w : Nat) : Dev :=
  let g := mgtRing (d.reg ⟨k, []⟩)
  ({ d with mem := d.mem.putAll a (bytesOf 8 w) } : Dev).setRegFld ⟨k, []⟩ 43 32 ((g.2.2.1 + 1) % g.2.1)

/-- A frame with the EtherType of service frames, which the security root answers itself (R622). -/
def serviceFrame (bs : List Byte) : Bool := decide ((bs.drop 12).take 2 = [0x88, 0xB5])

/-- MGT_FRAME_RECEIVE: a frame of the operating system's, and whether its check failed (R621). A service frame acts by its own
row and reaches no ring; one that the MAC does not carry, or that is not for this port, does nothing (R620). -/
def Dev.frameReceive (d : Dev) (bs : List Byte) (bad : Bool) : Dev :=
  if !d.mgtRuns || serviceFrame bs || !frameSize bs.length || !d.frameMine bs then d
  else match d.mgtDesc .mgtRxq with
  | none => d.count ⟨.mgtStats, []⟩ 31 0 1
  | some (a, w) =>
    let size := bits 61 48 w
    let err := bad || decide (size < bs.length)
    let part := bs.take size
    let d1 : Dev := { d with mem := ((upTo part.length).zip part).foldl (fun (m : Mem) x => m.put (hubAt (bits 47 0 w - hubBase + x.1)) x.2) d.mem }
    let w1 := bits 47 0 w + part.length * 2 ^ 48 + (if err then 2 ^ 63 else 0)
    let d2 := d1.mgtReturn .mgtRxq a w1
    if err then d2.count ⟨.mgtStats, []⟩ 63 32 1 else d2

/-- MGT_FRAME_TRANSMIT (R621). A descriptor whose LEN the MAC does not carry (R620) goes back and nothing is sent (DESIGN CHOICE, log
entry 140). -/
def Dev.frameTransmit (d : Dev) : Dev :=
  if !d.mgtRuns then d
  else match d.mgtDesc .mgtTxq with
  | none => d
  | some (a, w) =>
    let d1 := d.mgtReturn .mgtTxq a (w % 2 ^ 62)
    if frameSize (bits 61 48 w) then
      d1.out (.bytes (d.mem.getAll (hubAt (bits 47 0 w - hubBase)) (bits 61 48 w)))
    else d1

/-- MGT_STATUS (R629). -/
def Dev.mgtWord (d : Dev) : Word := putBit 0 d.mgtUp ||| put 2 1 d.mgtFec ||| put 63 16 d.fuses.mac

/-! ## Pins (R632, R637) -/

/-- READY is high. -/
def Dev.pinReady (d : Dev) : Bool := decide (d.sec.stage = 7) && d.vin && d.resetN

/-- ALERT_N is low. -/
def Dev.pinAlert (d : Dev) : Bool := bit 7 (d.reg ⟨.hubIrq, []⟩) && d.vin

/-- THERMTRIP_N is low. -/
def Dev.pinThermtrip (d : Dev) : Bool := d.trip && d.vin

end Sys2Proof.Machine
end

