-- ==== Sys2Proof/Machine/MlDsa.lean ====
section
/-! DEFINITION. ML-DSA-65 of FIPS 204, pure and with an empty context: key generation, signature and its verification (R586,
R587, R591, R593, R598). The manual names the standard and does not repeat it (PRESUMED, log entry 148). -/
namespace Sys2Proof.Machine

/-- A polynomial of 256 coefficients, each in 0 to q − 1. -/
abbrev Poly := List Nat

/-- The modulus. -/
def dsaQ : Nat := 8380417

/-- γ2 = (q − 1) / 32. -/
def dsaGamma2 : Nat := 261888

/-- γ1 = 2^19. -/
def dsaGamma1 : Nat := 524288

/-! ## Arithmetic modulo q -/

/-- Powers of 1753, the 512th root of unity. -/
def dsaZeta : (n : Nat) → Nat
  | 0 => 1
  | n + 1 => dsaZeta n * 1753 % dsaQ

/-- The eight bits of k in reverse order. -/
def bitRev8 (k : Nat) : Nat := (upTo 8).foldl (fun s i => 2 * s + (k >>> i) % 2) 0

/-- Sum of two polynomials. -/
def Poly.add (a b : Poly) : Poly := List.zipWith (fun x y => (x + y) % dsaQ) a b

/-- Difference of two polynomials. -/
def Poly.sub (a b : Poly) : Poly := List.zipWith (fun x y => (x + dsaQ - y) % dsaQ) a b

/-- Product, coefficient by coefficient: of transformed polynomials. -/
def Poly.dot (a b : Poly) : Poly := List.zipWith (fun x y => x * y % dsaQ) a b

/-- Every coefficient times c. -/
def Poly.times (c : Nat) (a : Poly) : Poly := a.map (fun x => x * c % dsaQ)

/-- The number-theoretic transform of 2^n coefficients at node k of its tree. -/
def nttAt : (n : Nat) → (k : Nat) → Poly → Poly
  | 0, _, w => w
  | n + 1, k, w =>
    let lo := w.take (2 ^ n)
    let t := Poly.times (dsaZeta (bitRev8 k)) (w.drop (2 ^ n))
    nttAt n (2 * k) (Poly.add lo t) ++ nttAt n (2 * k + 1) (Poly.sub lo t)

/-- Its inverse, without the factor of 256. -/
def nttInvAt : (n : Nat) → (k : Nat) → Poly → Poly
  | 0, _, w => w
  | n + 1, k, w =>
    let a := nttInvAt n (2 * k) (w.take (2 ^ n))
    let b := nttInvAt n (2 * k + 1) (w.drop (2 ^ n))
    Poly.add a b ++ Poly.times (dsaZeta (512 - bitRev8 k)) (Poly.sub a b)

/-- The transform. -/
def ntt (w : Poly) : Poly := nttAt 8 1 w

/-- The inverse transform: 8347681 is 1 / 256. -/
def nttInv (w : Poly) : Poly := Poly.times 8347681 (nttInvAt 8 1 w)

/-- A matrix of transformed polynomials times a vector of them. -/
def dsaMatVec (a : List (List Poly)) (v : List Poly) : List Poly :=
  a.map (fun row => (List.zipWith Poly.dot row v).foldl Poly.add (List.replicate 256 0))

/-- Distance of a coefficient from 0. -/
def dsaAbs (x : Nat) : Nat := min x (dsaQ - x)

/-- Is every coefficient nearer to 0 than `bound`? -/
def dsaSmall (bound : Nat) (v : List Poly) : Bool := v.all (fun p => p.all (fun x => decide (dsaAbs x < bound)))

/-! ## Sampling -/

/-- A transformed polynomial from SHAKE128: three bytes a candidate, taken below q. -/
def rejNtt (seed : List Byte) : Poly :=
  let c := (unpackElems 24 336 (natOfBytes (shake128N 1008 seed))).map (fun x => x % 2 ^ 23)
  ((c.filter (fun x => decide (x < dsaQ))) ++ List.replicate 256 0).take 256

/-- A polynomial of coefficients −4 to 4 from SHAKE256: four bits a candidate, taken below 9. -/
def rejBounded (seed : List Byte) : Poly :=
  let c := unpackElems 4 1360 (natOfBytes (shake256N 680 seed))
  (((c.filter (fun x => decide (x < 9))).map (fun x => (dsaQ + 4 - x) % dsaQ)) ++ List.replicate 256 0).take 256

/-- The matrix A, of 6 rows of 5. -/
def expandA (rho : List Byte) : List (List Poly) :=
  (upTo 6).map (fun r => (upTo 5).map (fun s => rejNtt (rho ++ bytesOf 1 s ++ bytesOf 1 r)))

/-- The challenge: 49 coefficients of ±1. -/
def sampleInBall (seed : List Byte) : Poly :=
  let bs := shake256N 272 seed
  let signs := natOfBytes (bs.take 8)
  ((upTo 49).foldl (fun (s : Poly × List Byte) k =>
    let i := 207 + k
    let rest := s.2.dropWhile (fun b => decide (i < b.toNat))
    let j := (rest.headD 0).toNat
    (((s.1.set i (s.1.getD j 0)).set j (if signs.testBit k then dsaQ - 1 else 1)), rest.drop 1))
    (List.replicate 256 0, bs.drop 8)).1

/-- The mask of a try: five polynomials of 20-bit coefficients. -/
def expandMask (seed : List Byte) (kappa : Nat) : List Poly :=
  (upTo 5).map (fun r => (unpackElems 20 256 (natOfBytes (shake256N 640 (seed ++ bytesOf 2 (kappa + r))))).map
    (fun x => (dsaGamma1 + dsaQ - x) % dsaQ))

/-! ## Rounding and hints -/

/-- High part of Power2Round: bits above 13. -/
def dsaHigh13 (x : Nat) : Nat := (x + 4095) / 8192

/-- Decompose: the high part, in 0 to 15, and the low part as an integer. -/
def dsaDecompose (x : Nat) : Nat × Int :=
  let m := x % (2 * dsaGamma2)
  let lo : Int := if dsaGamma2 < m then (m : Int) - 2 * dsaGamma2 else m
  if (x : Int) - lo = dsaQ - 1 then (0, lo - 1) else ((((x : Int) - lo) / (2 * dsaGamma2)).toNat, lo)

/-- High parts of a polynomial, and its low parts modulo q. -/
def Poly.high (p : Poly) : Poly := p.map (fun x => (dsaDecompose x).1)
@[inherit_doc Poly.high] def Poly.low (p : Poly) : Poly := p.map (fun x => ((dsaDecompose x).2 % (dsaQ : Int)).toNat)

/-- UseHint of one coefficient. -/
def dsaUseHint (h x : Nat) : Nat :=
  let d := dsaDecompose x
  if h = 0 then d.1 else if 0 < d.2 then (d.1 + 1) % 16 else (d.1 + 15) % 16

/-! ## Encodings -/

/-- Polynomials as bytes, `w` bits a coefficient. -/
def packPolys (w : Nat) (v : List Poly) : List Byte := v.flatMap (fun p => bytesOf (32 * w) (packElems w p))

/-- n polynomials from bytes, `w` bits a coefficient. -/
def unpackPolys (w n : Nat) (bs : List Byte) : List Poly :=
  (upTo n).map (fun i => unpackElems w 256 (natOfBytes ((bs.drop (32 * w * i)).take (32 * w))))

/-- The hint as 61 bytes: the places of its ones, row by row, then how many places are used after each row. -/
def packHint (h : List Poly) : List Byte :=
  let places := h.map (fun p => (upTo 256).filter (fun j => decide (p.getD j 0 ≠ 0)))
  let ends := (upTo h.length).map (fun i => ((places.take (i + 1)).map List.length).sum)
  (((places.flatten) ++ List.replicate 55 0).take 55 ++ ends).map (fun x => BitVec.ofNat 8 x)

/-- Do places rise? -/
def rising : List Nat → Bool
  | a :: b :: l => decide (a < b) && rising (b :: l)
  | _ => true

/-- The hint of 61 bytes; none where they are not the one encoding of a hint. -/
def unpackHint (bs : List Byte) : Option (List Poly) :=
  let y := bs.map BitVec.toNat
  let ends := 0 :: y.drop 55
  let rows := (upTo 6).map (fun i => ((y.take 55).take (ends.getD (i + 1) 0)).drop (ends.getD i 0))
  if (upTo 6).all (fun i => decide (ends.getD i 0 ≤ ends.getD (i + 1) 0) && decide (ends.getD (i + 1) 0 ≤ 55)) &&
      rows.all rising && ((y.take 55).drop (ends.getD 6 0)).all (fun x => decide (x = 0)) then
    some (rows.map (fun r => (upTo 256).map (fun j => if r.contains j then 1 else 0)))
  else none

/-! ## Keys, signatures (FIPS 204, algorithms 6 to 8) -/

/-- A private key: ρ, K, tr, s1, s2 and t0. -/
structure DsaKey where
  rho : List Byte
  k : List Byte
  tr : List Byte
  s1 : List Poly
  s2 : List Poly
  t0 : List Poly
  deriving DecidableEq, Repr

/-- Key generation from a seed of 32 B: the public key and the private one. -/
def mlDsaKeygen (seed : List Byte) : List Byte × DsaKey :=
  let e := shake256N 128 (seed ++ [6, 5])
  let rho := e.take 32
  let s := (upTo 11).map (fun r => rejBounded ((e.drop 32).take 64 ++ bytesOf 2 r))
  let s1 := s.take 5
  let s2 := s.drop 5
  let t := List.zipWith Poly.add ((dsaMatVec (expandA rho) (s1.map ntt)).map nttInv) s2
  let pk := rho ++ packPolys 10 (t.map (fun p => p.map dsaHigh13))
  (pk, { rho := rho, k := e.drop 96, tr := shake256 pk, s1 := s1, s2 := s2
         t0 := t.map (fun p => p.map (fun x => (x + dsaQ - 8192 * dsaHigh13 x % dsaQ) % dsaQ)) })

/-- What is signed of a message: an empty context goes before it. -/
def dsaMu (tr msg : List Byte) : List Byte := shake256 (tr ++ [0, 0] ++ msg)

/-- One try of a signature; none where it is rejected. -/
def mlDsaTry (sk : DsaKey) (a : List (List Poly)) (mu seed : List Byte) (kappa : Nat) : Option (List Byte) :=
  let y := expandMask seed kappa
  let w := (dsaMatVec a (y.map ntt)).map nttInv
  let ct := shake256N 48 (mu ++ packPolys 4 (w.map Poly.high))
  let c := ntt (sampleInBall ct)
  let by_ := fun (v : List Poly) => v.map (fun p => nttInv (Poly.dot c (ntt p)))
  let z := List.zipWith Poly.add y (by_ sk.s1)
  let r := List.zipWith Poly.sub w (by_ sk.s2)
  let ct0 := by_ sk.t0
  let h := List.zipWith (fun p q => List.zipWith (fun x y => if x = y then 0 else 1) (Poly.high p) (Poly.high q))
    (List.zipWith Poly.add r ct0) r
  if dsaSmall (dsaGamma1 - 196) z && dsaSmall (dsaGamma2 - 196) (r.map Poly.low) && dsaSmall dsaGamma2 ct0 &&
      decide ((h.map List.sum).sum ≤ 55) then
    some (ct ++ packPolys 20 (z.map (fun p => p.map (fun x => (dsaGamma1 + dsaQ - x) % dsaQ))) ++ packHint h)
  else none

/-- The first of n tries that is not rejected. -/
def mlDsaTries (sk : DsaKey) (a : List (List Poly)) (mu seed : List Byte) : (n : Nat) → (kappa : Nat) → List Byte
  | 0, _ => List.replicate 3309 0
  | n + 1, kappa =>
    match mlDsaTry sk a mu seed kappa with
    | some s => s
    | none => mlDsaTries sk a mu seed n (kappa + 5)

/-- The signature of a message with 32 random bytes. FIPS 204 lets an implementation give up after 814 tries, which does not come
to pass. -/
def mlDsaSign (sk : DsaKey) (rnd msg : List Byte) : List Byte :=
  let mu := dsaMu sk.tr msg
  mlDsaTries sk (expandA sk.rho) mu (shake256 (sk.k ++ rnd ++ mu)) 814 0

/-- Does a signature of a message verify under a public key? -/
def mlDsaVerify (pk msg sig : List Byte) : Bool :=
  if pk.length ≠ 1952 ∨ sig.length ≠ 3309 then false
  else
    match unpackHint (sig.drop 3248) with
    | none => false
    | some h =>
      let ct := sig.take 48
      let z := (unpackPolys 20 5 ((sig.drop 48).take 3200)).map (fun p => p.map (fun x => (dsaGamma1 + dsaQ - x) % dsaQ))
      let c := ntt (sampleInBall ct)
      let t1 := (unpackPolys 10 6 (pk.drop 32)).map (fun p => Poly.dot c (ntt (Poly.times 8192 p)))
      let w := (List.zipWith Poly.sub (dsaMatVec (expandA (pk.take 32)) (z.map ntt)) t1).map nttInv
      let w1 := List.zipWith (fun hp wp => List.zipWith dsaUseHint hp wp) h w
      dsaSmall (dsaGamma1 - 196) z && decide (shake256N 48 (dsaMu (shake256 pk) msg ++ packPolys 4 w1) = ct)

end Sys2Proof.Machine
end

