-- ==== Sys2Proof/Machine/Security.lean ====
section
/-! DEFINITION. Device reset, start-up, measurement, attestation, debug tokens and grants, locks, power input (R581 to R608,
R634 to R637). -/
namespace Sys2Proof.Machine

/-! ## Device reset (R581, R585, R610, R634) -/

/-- A repair that the HBM repair log does not hold is no repair after a reset: its resource is free again (R360). -/
def HbmTile.unfix (h : HbmTile) (f : HbmFix) : HbmTile :=
  let bank := f.key / 24576
  if f.pool then
    { (h.onRow f.key (fun r => { r with pooled := false })).onPc (bank / 48) (fun x => { x with pool := x.pool - 1 }) with
      pool := FMap.set h.pool 0 bank (FMap.getD h.pool bank 0 - 1) }
  else { h with soft := FMap.set h.soft 0 bank (FMap.getD h.soft bank 0 - 1) }

/-- The write of the last entry was torn by the loss of VIN: its check value fails, and it is discarded with its repair
(R634). -/
def HbmTile.torn (h : HbmTile) : HbmTile :=
  match h.lastLog with
  | none => h
  | some f =>
    let h1 := (h.unfix f).onRow f.key (fun r => { r with fails := r.fails - 1 })
    { (if f.pool then h1 else h1.onPc (f.key / 24576 / 48) (fun x => { x with ppr := x.ppr - 1 })) with lastLog := none }

/-- What the HBM repair log rebuilds of a tile (R360, R585): repairs with their rows' failures, retirements, erasures and
map-outs. -/
def HbmTile.repaired (h0 : HbmTile) : HbmTile :=
  let h := h0.fixes.foldl HbmTile.unfix h0
  { rows := h.rows.filterMap (fun e =>
      let r : HbmRow := { fails := if e.2.due ≠ .no ∨ e.2.fixing then e.2.fails - 1 else e.2.fails, pooled := e.2.pooled, retired := e.2.retired }
      if r = {} then none else some (e.1, r))
    pcs := h.pcs.filterMap (fun e =>
      let x : HbmPc := { ppr := e.2.ppr, pool := e.2.pool, retired := e.2.retired, pins := e.2.pins, mapped := e.2.mapped }
      if x = {} then none else some (e.1, x))
    soft := h.soft
    pool := h.pool }

/-- SEC_STATE.STATE (R594). -/
def Dev.secState (d : Dev) : Nat :=
  if d.fuses.state ≠ 1 then d.fuses.state
  else if d.sec.debug = some 3 then 3
  else if d.sec.grants.isEmpty then 1 else 2

/-- Device reset: every register at its reset value; fuses and the flash stay. The Hub memory's contents are undefined; every other
memory is zero once start-up has ended. A debug state ends (R595). -/
def Dev.deviceReset (d : Dev) : Dev :=
  { fuses := d.fuses, flashB := d.flashB
    hbm := d.hbm.filterMap (fun e =>
      let h := e.2.repaired
      if h = {} then none else some (e.1, h))
    mem := { hubEra := d.fresh + 1 }
    sec := { changed := d.sec.changed || decide (d.secState ≠ d.fuses.state) }
    resetN := d.resetN, vin := d.vin, trip := d.trip
    outs := d.outs, fresh := d.fresh + 1 }

/-- Start-up begins: stage 1, with the Hub and Neano out of reset (R582). A change of the security state by the reset is raised now,
since a device that is held in reset records nothing (R595; log entry 150). -/
def Dev.bootStart (d : Dev) : Dev :=
  let d1 := d.deviceReset
  let d2 := ({ d1 with sec := { stage := 1 } }.onPll 32 (fun x => { x with lock := true })).onPll 33 (fun x => { x with lock := true })
  if d1.sec.changed then d2.raise 0x1203 none 0 else d2

/-- RESET_N falls (R581, R637). -/
def Dev.resetAssert (d : Dev) : Dev := ({ d with resetN := false, trip := false } : Dev).deviceReset

/-- RESET_N rises; below the rising threshold of VIN the rise is held (R635). -/
def Dev.resetRelease (d : Dev) : Dev :=
  if d.resetN then d
  else
    let d1 : Dev := { d with resetN := true }
    if d.vin then d1.bootStart else d1

/-- VIN rises through 10.8 V (R581, R635). -/
def Dev.powerRise (d : Dev) : Dev :=
  if d.vin then d
  else
    let d1 : Dev := { d with vin := true }
    if d.resetN then d1.bootStart else d1.deviceReset

/-- VIN falls below 10.2 V (R634): no event. The reset that holds every die leaves nothing of the contents. Whether the fall
tears the entry that a tile's repair log got last is free (log entry 135). -/
def Dev.powerFall (d : Dev) : Dev :=
  let tear := (upTo 4).filter (fun t => d.vin && (Config.freeWord d.fresh).getLsbD t)
  let d1 := tear.foldl (fun (d : Dev) t => d.onHbm t HbmTile.torn) d.tick
  let d2 := ({ d1 with vin := false, trip := false } : Dev).deviceReset
  { d2 with sec := {} }

/-! ## Security state and measurements (R592, R594, R595) -/

/-- Measurement register i, as bytes. -/
def Dev.meas (d : Dev) (i : Nat) : List Byte := (upTo 8).flatMap (fun w => bytesOf 8 (d.reg ⟨.secMeas, [i, w]⟩).toNat)

/-- Store bytes into a run of register words. -/
def Dev.setRegBytes (d : Dev) (mk : Nat → Reg) (bs : List Byte) : Dev :=
  (upTo ((bs.length + 7) / 8)).foldl (fun (d : Dev) w => d.setReg (mk w) (BitVec.ofNat 64 (natOfBytes ((bs.drop (8 * w)).take 8)))) d

/-- M := SHAKE256(M ∥ d) (R592). -/
def Dev.extend (d : Dev) (i : Nat) (dig : List Byte) : Dev := d.setRegBytes (fun w => ⟨.secMeas, [i, w]⟩) (shake256 (d.meas i ++ dig))

/-- M7 records a change of state, a grant, or its end, with the path of its token (R592). -/
def Dev.extendGrant (d : Dev) (path part : Nat) (tok : List Byte) : Dev :=
  d.extend 7 (Config.grantDigest d.secState path part tok)

/-- Change the security root. -/
def Dev.onSec (d : Dev) (f : Sec → Sec) : Dev := { d with sec := f d.sec }

/-! ## Start-up (R582 to R589) -/

/-- Start-up stops at a stage (R584, R589). -/
def Dev.bootStop (d : Dev) (stage : Nat) : Dev := d.onSec (fun x => { x with failStage := stage, halted := true })

/-- The image of a kind in a manifest. -/
def imageOf (m : Manifest) (k : Nat) : Option FlashImage := m.images.find? (fun x => x.kind = k)

/-- SVNs of a manifest's images by kind; 0 for a kind that it does not list. -/
def manifestSvns (m : Manifest) : List Nat :=
  (upTo 8).map (fun k => ((m.images.filter (fun x => x.kind = k)).map FlashImage.svn).foldl max 0)

/-- What the signature of a manifest covers: everything before it (R586). -/
def signedBytes (m : Manifest) : List Byte :=
  m.key ++ Config.imageTable (m.images.map (fun x => (x.kind, x.offset, x.len, x.svn, x.digest)))

/-- An image is accepted when its digest equals its entry (R587). -/
def imageOk (x : FlashImage) : Bool := decide (shake256 x.bytes = x.digest)

/-- The vendor key slot, unrevoked, whose digest is that of a manifest's key (R587). -/
def Dev.keySlot (d : Dev) (m : Manifest) : Option Nat :=
  if m.key.length = 1952 then (upTo 4).find? (fun k => (d.fuses.vkeys.getD k none) = some (shake256 m.key)) else none

/-- No image of a manifest is older than the fused minimum of its kind, and the signature verifies (R587). -/
def Dev.signedOk (d : Dev) (m : Manifest) : Bool :=
  m.images.all (fun x => decide (d.fuses.svnMin.getD x.kind 0 ≤ x.svn)) && mlDsaVerify m.key (signedBytes m) m.sig

/-- Does the ROM accept a slot: its manifest under an unrevoked vendor key, and FS1 (R587)? -/
def Dev.slotOk (d : Dev) (m : Manifest) : Bool :=
  (d.keySlot m).isSome && d.signedOk m && (match imageOf m 0 with
    | some x => imageOk x
    | none => false)

/-- Images of a manifest are read in the order of `l`, pairs of a kind and its measurement register: each that is accepted is
measured, the first that is rejected or missing ends the reading (R587, R589, R592). Unless `check`, none is rejected. -/
def Dev.readImages (d : Dev) (m : Manifest) (check : Bool) : List (Nat × Nat) → Bool × Dev
  | [] => (true, d)
  | (k, r) :: l =>
    match imageOf m k with
    | some x => if check && !imageOk x then (false, d) else (d.extend r (shake256 x.bytes)).readImages m check l
    | none => if check then (false, d) else d.readImages m check l

/-- A slot's SVNs are not below another's. -/
def svnsAtLeast (a b : List Nat) : Bool := (upTo 8).all (fun i => decide (b.getD i 0 ≤ a.getD i 0))

/-- Slot B as the flash holds it: what a recovery transfer wrote there, else `b` (R622). -/
def Dev.slotB (d : Dev) (b : Manifest) : Manifest := d.flashB.getD b

/-- The vendor key slot in use: the manifest's, before the ROM has accepted one the first unrevoked slot of the fuses (R602; log
entry 149). -/
def Dev.vkeySlot (d : Dev) : Nat := d.sec.vkey.getD (((upTo 4).find? (fun k => (d.fuses.vkeys.getD k none).isSome)).getD 0)

/-- M0 at the start of the ROM, under vendor key slot k (R592). -/
def Dev.extendRom (d : Dev) (k : Nat) : Dev :=
  (d.extend 0 Config.romDigest).extend 0 (Config.stateDigest d.secState d.fuses.svnMin k)

/-- ROM_VERIFY: slot A, or slot B when slot A fails (R587); FS1 is measured and starts (R592). -/
def Dev.romVerify (d : Dev) (a b : Manifest) : Dev :=
  if d.sec.stage ≠ 1 ∨ d.sec.halted then d
  else
    let b1 := d.slotB b
    let go := fun (m other : Manifest) (slot : Nat) =>
      let k := (d.keySlot m).getD 0
      ((d.extendRom k).readImages m true [(0, 1)]).2.onSec (fun x => { x with
        stage := 2, slot := slot, svns := manifestSvns m, vkey := some k, boot := some m, highest := svnsAtLeast (manifestSvns m) (manifestSvns other) })
    if d.slotOk a then go a b1 0
    else if d.slotOk b1 then go b1 a 1
    else ((d.extendRom d.vkeySlot).raise 0x1202 none 1).bootStop 1

/-- A word of the configuration block is applied (R582): TMP_ROLE, DVO_COORD, DVO_PORT_CFG, DVO_LINK, TMP_PERIOD and the RWL
fields; any other field is left. -/
def Dev.configWord (d : Dev) (a : Nat) (v : Word) : Dev :=
  match regAt a with
  | none => d
  | some r =>
    let m := match r.k with
      | .tmpRole | .dvoCoord | .dvoPortCfg | .dvoLink | .tmpPeriod => accMask [.rw, .rwt, .rwl] r.k
      | _ => accMask [.rwl] r.k
    d.setReg r ((d.reg r &&& ~~~m) ||| (v &&& m))

/-- The locks that the configuration block asks for: LOCKED bits of its word for SEC_LOCK. -/
def cfgLocksOf (cfg : List (Nat × Word)) : Nat :=
  ((cfg.filter (fun e => decide (e.1 = (⟨.secLock, []⟩ : Reg).addr))).map (fun e => fld 5 0 e.2)).foldl (· ||| ·) 0

/-- Does FS1 accept an owner manifest: under the owner key, in the same way (R587)? -/
def Dev.ownerOk (d : Dev) (o : Manifest) : Bool :=
  decide (o.key.length = 1952) && decide (shake256 o.key = d.fuses.owner) && d.signedOk o

/-- The operating system is written into the Hub memory (R610; where: log entry 149). -/
def Dev.osWrite (d : Dev) (o : Manifest) : Dev :=
  match imageOf o 5 with
  | some x =>
    let put_ := fun (m : Mem) (e : Nat × Byte) => m.put (hubAt (Config.osBase + e.1)) e.2
    { d with mem := ((upTo x.bytes.length).zip x.bytes).foldl put_ d.mem }
  | none => d

/-- A manifest with the bytes that a later read of its images in the flash finds. -/
def rereadImages (m read : Manifest) : Manifest :=
  { m with images := m.images.map (fun x => { x with bytes := ((imageOf read x.kind).map FlashImage.bytes).getD [] }) }

/-- FS1_STAGE_DONE: the firmware of the manifest that booted (power, training, Neano), with the bytes that FS1 reads in `m`; then the owner's manifest `o` with the
configuration block and the operating system, unverified while no owner key is fused; `cfg` are the words of the configuration
block (R582, R587, R592). The SVNs of the images that boot are the ones that SVN_COMMIT takes (R588). Every tile then starts from
P3 (R583). -/
def Dev.fs1Done (d : Dev) (m : Manifest) (o : Manifest) (cfg : List (Nat × Word)) : Dev :=
  if d.sec.stage ≠ 2 ∨ d.sec.halted then d
  else
    let r := d.readImages (rereadImages (d.sec.boot.getD {}) m) true [(1, 2), (2, 3), (3, 4)]
    if !r.1 ∨ (d.fuses.ownerSet ∧ !d.ownerOk o) then (r.2.raise 0x1202 none 2).bootStop 2
    else
      let q := r.2.readImages o d.fuses.ownerSet [(4, 6), (5, 5)]
      if !q.1 then (q.2.raise 0x1202 none 2).bootStop 2
      else
        let d3 := (cfg.foldl (fun (d : Dev) e => d.configWord e.1 e.2) (q.2.osWrite o)).onSec (fun x => { x with
          cfgLocks := cfgLocksOf cfg, stage := 3
          svns := (upTo 8).map (fun k => max (x.svns.getD k 0) ((manifestSvns o).getD k 0)) })
        (upTo 4).foldl (fun (d : Dev) t => d.powerRequest t 0) d3

/-- TILE_BRINGUP_TIMEOUT of tile t (R583): a PLL that did not lock (0 core, 1 fabric clock), or a cluster's regulator. -/
def Dev.bringupTimeout (d : Dev) (t : Nat) (pll : Option Nat) (g : Nat) : Dev :=
  if d.sec.stage ≠ 3 ∨ d.sec.halted ∨ (d.ptile t).st = .run then d
  else
    let d1 := match pll with
      | some k => (d.onPll (if k = 0 then t else 4 + t) (fun x => { x with failed := true, lock := false })).raise 0x1001
          (some (d.tilePart t)) t
      | none => d.raise 0x1105 (some (d.tilePart t)) (4 * t + g % 4)
    d1.bootStop 3

/-- Stage 5 begins when stages 3 and 4 have ended (R582). While only stage 4 runs, STAGE shows it. -/
def Dev.stage34 (d : Dev) : Dev :=
  d.onSec (fun x =>
    if x.memDone ∧ x.linksDone then { x with stage := 5 }
    else if x.memDone then { x with stage := 4 } else x)

/-- MEMORY_STAGE_DONE: pseudo-channels (tile, number) and packages that failed training (R584, R585). -/
def Dev.memoryDone (d : Dev) (pcs : List (Nat × Nat)) (pkgs : List Nat) : Dev :=
  if d.sec.stage ≠ 3 ∨ d.sec.halted ∨ d.sec.memDone ∨ ¬(upTo 4).all (fun t => decide ((d.ptile t).st = .run)) then d
  else
    let d1 := pcs.foldl (fun (d : Dev) x => if ((d.hbmTile x.1).pc x.2).mapped then d else d.hbmMapOut x.1 x.2 .spare) d
    let d2 := (pkgs.foldl (fun (d : Dev) k => d.pkgFail k) d1).pkgsServe
    let d3 : Dev := { d2 with
      pkgs := d2.pkgs.map (fun e => (e.1, { e.2 with rebuild := false }))
      faults := d2.faults.map (fun f => { f with remedies := f.remedies.filter (fun r => match r with
        | .pkg _ => false
        | _ => true) })
      mem := { d2.mem with
        bytes := FMap.dropRange d2.mem.bytes 0 (4 * hbmTileBytes)
        hpoison := [], hbmEra := [] } }
    (d3.onSec (fun x => { x with memDone := true })).stage34

/-- LINKS_STAGE_DONE (R582). -/
def Dev.linksDone (d : Dev) : Dev :=
  if (d.sec.stage = 3 ∨ d.sec.stage = 4) ∧ ¬d.sec.halted then (d.onSec (fun x => { x with linksDone := true })).stage34 else d

/-- CLK_EN of a core or cluster whose enables are those of `en`, each block ON or OFF as its enable says (R575). -/
def enablesWord (en : Nat) : Word := put 2 0 en ||| putBit 9 (en.testBit 0) ||| putBit 11 (en.testBit 1) ||| putBit 13 (en.testBit 2)

/-- FS1 loads its self-test image into partition 0 (R582): every enable of the device is written as the image declares (R570), its
budget stands (R74, R75), and it runs. The column test begins on every engine, and the check pass reads every SRAM bank. What the
manual does not say of the image is free (log entry 27). -/
def Dev.selftestLoad (d : Dev) : Dev :=
  let w := fun (i : Nat) => (Config.freeWord (d.fresh + i)).toNat
  let core := fun (c : Nat) => 1 + (if Config.selftestUses c false then 2 else 0) + (if Config.selftestUses c true then 4 else 0)
  let d1 := (upTo 384).foldl (fun (d : Dev) c => (d.setReg ⟨.clkEnCore, [c]⟩ (enablesWord (core c))).meColTest c) d
  let d2 := (upTo 16).foldl (fun (d : Dev) g => d.setReg ⟨.clkEnCluster, [g]⟩ (enablesWord 7)) d1
  let d3 := (d2.setReg ⟨.tmpBudget, [0]⟩ (put 31 0 (w 0) ||| put 42 32 d.period ||| put 55 44 (oppMhz (w 1 % 6)))).setReg
    ⟨.tmpBudgetFb, [0]⟩ (BitVec.ofNat 64 (w 2))
  let d4 := (({ d3 with fresh := d3.fresh + 3 } : Dev).onPart 0 (fun x => { x with
    epoch := (x.epoch + 1) % 2 ^ 32, st := .running, image := Config.selftestDigest })).raise 0x0F01 (some 0) 0
  (d4.mem.err.filter (fun e => d4.bankOn (8 * e.1))).foldl (fun (d : Dev) e => (d.readWord e.1 false).2) d4

/-- The kill of the self-test's image (R582): partition 0 is FREE again, and the revocation is recorded (R508). -/
def Dev.selftestKill (d : Dev) : Dev :=
  let w := fun (i : Nat) => (Config.freeWord (d.fresh + i)).toNat
  let d1 := d.setReg ⟨.prtHandover, [0]⟩ (put 31 0 (w 0) ||| putBit 32 true ||| put 63 48 (w 1))
  let d2 := ({ d1 with fresh := d1.fresh + 2 } : Dev).monitorRevoke 0
  (d2.onPart 0 (fun x => { x with st := .free, image := [], notice := none })).raise 0x0F04 (some 0) 0

/-- TEMPO_STAGE_DONE: LOCKED or KING; the self-test begins (R582). -/
def Dev.tempoDone (d : Dev) : Dev :=
  if d.sec.stage = 5 ∧ d.synced then (d.onSec (fun x => { x with stage := 6 })).selftestLoad else d

/-- SELFTEST_DONE on a device that has kept its time base (R46), once no engine tests its columns: the locks of the configuration
block are written and the device is READY (R582). The self-test's pattern pass leaves HBM contents that the manual does not give;
the slow tier is zero, since a FREE area holds no earlier data (R395). -/
def Dev.selftestDone (d : Dev) : Dev :=
  if d.sec.stage ≠ 6 ∨ ¬d.synced ∨ (upTo 384).any (fun c => d.inService c && d.colTesting c) then d
  else
    let d1 := (upTo 4).foldl (fun (d : Dev) t => d.hbmLose t) d
    d1.selftestKill.onSec (fun x => { x with
      stage := 7, readyTempo := d.tempo, locks := x.locks ||| x.cfgLocks })

/-! ## Fuses and locks (R588, R604, R605) -/

/-- SEC_CTRL.SVN_COMMIT. -/
def Dev.svnCommit (d : Dev) : Dev :=
  if d.sec.stage = 7 ∧ d.sec.highest then
    { d with fuses := { d.fuses with svnMin := (upTo 8).map (fun i => max (d.fuses.svnMin.getD i 0) (d.sec.svns.getD i 0)) } }
  else d

/-- SEC_CTRL.OWNER_ENROL. -/
def Dev.ownerEnrol (d : Dev) : Dev :=
  if d.fuses.ownerSet ∨ d.secState ≠ 1 then d
  else { d with fuses := { d.fuses with
    ownerSet := true, owner := (upTo 8).flatMap (fun w => bytesOf 8 (d.reg ⟨.secOwner, [w]⟩).toNat) } }

/-- SEC_LOCK.SET. -/
def Dev.lockSet (d : Dev) (m : Nat) : Dev := d.onSec (fun x => { x with locks := x.locks ||| (m % 64) })

/-- The lock bit of a register's block (R605); blocks without one are never locked. -/
def lockBit (k : RK) : Option Nat :=
  match k with
  | .tmpRole => some 0
  | .spdCfg => some 1
  | .grvCfg => some 2
  | .hbmCfg => some 3
  | .neaPkg => some 4
  | .pwrCfg => some 5
  | _ => none

/-- Are the RWL fields of a register locked? -/
def Dev.locked (d : Dev) (k : RK) : Bool :=
  match lockBit k with
  | some i => d.sec.locks.testBit i
  | none => false

/-! ## Attestation (R593) -/

/-- SEC_CTRL.ATTEST. -/
def Dev.attestStart (d : Dev) : Dev := d.onSec (fun x => { x with attest := true })

/-- The partition record of a report. -/
def Dev.partRecord (d : Dev) (p : Nat) : List Byte :=
  let x := d.part p
  let ring := match d.ctxOf p with
    | some c => d.neaCtxRing c
    | none => BitVec.allOnes 64
  [BitVec.ofNat 8 x.st.code, BitVec.ofNat 8 d.shape, BitVec.ofNat 8 (match FMap.find? d.sec.grants p with
    | some g => g.perms
    | none => 0)] ++
  bytesOf 5 0 ++ bytesOf 8 x.epoch ++ (x.image ++ bytesOf 64 0).take 64 ++ (x.tenant ++ bytesOf 64 0).take 64 ++
  bytesOf 8 ring.toNat ++ bytesOf 8 0

/-- The identity key pair (R591): its seed is the first 32 B of SHAKE256 over the device-unique secret and "ID", in RMA "RMA". -/
def Dev.identity (d : Dev) : List Byte × DsaKey :=
  let label : List Byte := if d.fuses.state = 4 then [0x52, 0x4D, 0x41] else [0x49, 0x44]
  mlDsaKeygen (shake256N 32 (Config.deviceSecret ++ label))

/-- 32 B of the security root's entropy. -/
def Dev.entropy32 (d : Dev) : List Byte := (upTo 4).flatMap (fun w => bytesOf 8 (Config.entropy (4 * d.fresh + w)).toNat)

/-- ATTEST_DONE: the signed report (R593). The random bytes of the signature come from the entropy source (log entry 148). -/
def Dev.attestDone (d : Dev) : Dev :=
  if d.sec.attest ∧ !d.lost 33 then
    let id := d.identity
    let nonce := (upTo 8).flatMap (fun w => bytesOf 8 (d.reg ⟨.secNonceIn, [w]⟩).toNat)
    let flags := (if d.fuses.ownerSet then 1 else 0) + 2 * d.vkeySlot + (if d.sec.grants.isEmpty then 0 else 8)
    let body := bytesOf 4 1 ++ bytesOf 4 4637 ++ bytesOf 1 d.secState ++ bytesOf 1 flags ++ bytesOf 6 0 ++ bytesOf 8 d.ownId ++
      bytesOf 8 d.tempo ++ nonce ++ shake256 id.1 ++ (upTo 8).flatMap (fun i => d.meas i) ++
      (upTo 8).flatMap (fun i => bytesOf 2 (d.fuses.svnMin.getD i 0)) ++ (upTo 4).flatMap (fun p => d.partRecord p)
    let sig := mlDsaSign id.2 d.entropy32 body
    ((d.tick.setRegBytes (fun w => ⟨.secReport, [w]⟩) (body ++ sig)).onSec (fun x => { x with attest := false })).raise 0x1205 none 0
  else d

/-! ## Tokens and grants (R596 to R598) -/

/-- SEC_CTRL.NONCE: 32 B of entropy. -/
def Dev.nonceDraw (d : Dev) : Dev :=
  let d1 := (upTo 4).foldl (fun (d : Dev) w => d.setReg ⟨.secNonce, [w]⟩ (Config.entropy (4 * d.fresh + w))) d
  d1.tick.onSec (fun x => { x with nonceOk := true })

/-- SEC_CTRL.SUBMIT, from a path; discarded while a token is busy. -/
def Dev.tokenSubmit (d : Dev) (path : Nat) : Dev :=
  if d.sec.token ∨ d.sec.scrub.isSome then d
  else d.onSec (fun x => { x with token := true, result := 3, path := path })

/-- The token buffer's bytes (R597). -/
def Dev.tokenBytes (d : Dev) : List Byte := (upTo 667).flatMap (fun w => bytesOf 8 (d.reg ⟨.secTokenBuf, [w]⟩).toNat)

/-- The partitions of the shape are all FREE. -/
def Dev.allFree (d : Dev) : Bool := (upTo 4).all (fun p => decide ((d.part p).st = .free))

/-- The first condition of R598 that fails, and whether the check reached the nonce; 0: every one holds. -/
def Dev.tokenReason (d : Dev) (t : List Byte) : Nat × Bool :=
  let num := fun (o n : Nat) => natOfBytes ((t.drop o).take n)
  let kind := num 2 1
  let p := num 16 8
  let tenant := decide (kind = 1)
  let nonce := (upTo 4).flatMap (fun w => bytesOf 8 (d.reg ⟨.secNonce, [w]⟩).toNat)
  let key := (t.drop 72).take 1952
  let dig := shake256 key
  if num 0 2 ≠ 1 ∨ kind = 0 ∨ 3 < kind ∨ 8 ≤ num 3 1 ∨ num 4 4 ≠ 0 ∨ 4 ≤ p ∨
      (!tenant ∧ (p ≠ 0 ∨ num 24 8 ≠ 0 ∨ num 64 8 ≠ 0)) then (1, false)
  else if num 8 8 ≠ d.ownId then (2, false)
  else if tenant && !((decide ((d.part p).st = .running) || decide ((d.part p).st = .ended) || decide ((d.part p).st = .halted)) &&
      decide (num 24 8 = (d.part p).epoch)) then (3, false)
  else if !d.sec.nonceOk || decide (nonce ≠ (t.drop 32).take 32) then (4, true)
  else if tenant && decide (num 64 8 ≤ d.tempo) then (5, true)
  else if !(if tenant then decide (dig = (d.part p).tenant) && dig.any (fun b => decide (b ≠ 0)) else d.fuses.vkeys.contains (some dig))
    then (6, true)
  else if !mlDsaVerify key (t.take 2024) ((t.drop 2024).take 3309) then (7, true)
  else
    let s := d.secState
    if (kind = 2 ∧ ¬(s = 1 ∨ s = 2)) ∨ (kind = 3 ∧ ¬(s = 1 ∨ s = 3)) ∨ (!tenant ∧ !d.allFree) then (8, true) else (0, true)

/-- TOKEN_CHECK_DONE (R598). -/
def Dev.tokenDone (d : Dev) : Dev :=
  if d.sec.token ∧ !d.lost 33 then
    let t := d.tokenBytes.take 5333
    let r := d.tokenReason t
    let d1 := d.onSec (fun x => { x with
      token := false, checked := satAdd 32 x.checked 1, nonceOk := x.nonceOk && !r.2, reason := r.1, result := if r.1 = 0 then 1 else 2 })
    let num := fun (o n : Nat) => natOfBytes ((t.drop o).take n)
    if r.1 ≠ 0 then d1.raise 0x1204 none 0
    else if num 2 1 = 1 then
      let p := num 16 8
      let dig := shake256 t
      let d2 := (d1.onSec (fun x => { x with
        grants := FMap.insert x.grants p ⟨num 3 1, num 64 8, dig, x.path⟩, perms := num 3 1, expiry := num 64 8 })).extendGrant d.sec.path p dig
      let d3 := d2.raise 0x1301 (some p) p
      if d2.secState ≠ d.secState then d3.raise 0x1203 none 0 else d3
    else d1.onSec (fun x => { x with scrub := some (num 2 1 + 1), result := 3 })
  else d

/-- The grant of partition p ends (R598). -/
def Dev.grantEnd (d : Dev) (p : Nat) : Dev :=
  match FMap.find? d.sec.grants p with
  | none => d
  | some g =>
    let d1 := d.onSec (fun x => { x with grants := FMap.remove x.grants p })
    let d2 := d1.extendGrant g.path p g.digest
    if d1.secState ≠ d.secState then d2.raise 0x1203 none 0 else d2

/-- Grants that expire at E + 0 of edge e. -/
def Dev.grantsEdge (d : Dev) (e : Nat) : Dev :=
  (d.sec.grants.filter (fun g => decide (g.2.expiry ≤ e))).foldl (fun (d : Dev) g => d.grantEnd g.1) d

/-- DEBUG_SCRUB_DONE (R596): every bank has passed through OFF, memories are zero, contexts released, with their mirror regions
on the partner (R395); the state changes. -/
def Dev.scrubDone (d : Dev) : Dev :=
  match d.sec.scrub with
  | none => d
  | some s =>
    let d0 := (upTo 4).foldl (fun (d : Dev) t => d.tileBanks t Bank.throughOff) d
    let dm := (upTo 8).foldl (fun (d : Dev) c => if (d.ctx c).st = .free then d else d.mirrorStop c true) d0
    let d1 := (dm.zeroSram (spdBase 0) (spdBase 384)).zeroSram (grvBase 0) (grvBase 16)
    let d2 : Dev := { d1 with
      mem := { d1.mem with bytes := FMap.dropRange d1.mem.bytes 0 (4 * hbmTileBytes), hpoison := [], hbmEra := [] }
      nea := d1.nea.filterMap (fun e =>
        let x : NeaCtx := { event := e.2.event, flags := e.2.flags }
        if x = {} then none else some (e.1, x))
      mirrors := []
      fuses := if s = 4 then { d1.fuses with state := 4 } else d1.fuses }
    let d3 := d2.onSec (fun x => { x with scrub := none, result := 1, debug := if s = 4 then none else some 3 })
    (d3.extendGrant d.sec.path 0 (shake256 (d.tokenBytes.take 5333))).raise 0x1203 none 0

/-! ## Register words (R602, R603, R605, R606, R608) -/

/-- SEC_STATE. -/
def Dev.secStateWord (d : Dev) : Word :=
  put 2 0 d.secState ||| put 6 3 ((d.sec.grants.map (fun g => 2 ^ g.1)).sum) ||| putBit 7 d.fuses.ownerSet ||| put 9 8 d.vkeySlot

/-- SEC_BOOT. -/
def Dev.bootWord (d : Dev) : Word :=
  put 2 0 d.sec.stage ||| put 3 3 d.sec.slot ||| put 6 4 d.sec.failStage ||| put 63 32 (low 32 d.sec.readyTempo)

/-- SEC_TOKEN_STATUS. -/
def Dev.tokenWord (d : Dev) : Word := put 1 0 d.sec.result ||| put 7 4 d.sec.reason ||| put 47 16 d.sec.checked

/-- DBG_STATUS. -/
def Dev.dbgWord (d : Dev) : Word :=
  putBit 0 (decide (d.sec.ir = .dbgAccess)) ||| putBit 1 d.session.isSome ||| put 4 2 d.sec.perms |||
  put 23 8 (d.regFld ⟨.dbgStatus, []⟩ 23 8) ||| put 63 32 (low 32 d.sec.expiry)

end Sys2Proof.Machine
end

