-- ==== Sys2Proof/Machine/Edge.lean ====
section
/-! DEFINITION. The seal and the edge of a Tempo: what every unit does at them, in the manual's order (R30, R49, R51, R497,
R529, R541, R566, R583, R598, R619). -/
namespace Sys2Proof.Machine

/-- TEMPO_SEAL (R49, R50, R541, R566): sets are sealed and checked, staged writes stall, measurements are latched, what is
due at the edge is noted. There is no edge before stage 5 (R583). -/
def Dev.tempoSeal (d : Dev) (m : Measure) : Dev :=
  if d.sec.stage < 5 ∨ d.stalling then d
  else
    let e := d.nextEdge
    let d1 := (({ d with stalling := true } : Dev).setsSeal e).castleSeal e
    let d2 := ((d1.powerSeal m).faultsSeal).sramSeal
    let d3 := (upTo 4).foldl (fun (d : Dev) t => d.onHbm t HbmTile.seal) d2
    let d4 : Dev := { d3 with pkgs := d3.pkgs.map (fun e => (e.1, { e.2 with copied := e.2.copied.seal })) }
    { ((d4.dvoSeal.peSeal).spareSeal).redSeal e with stalling := true }

/-- Neano at an edge: every context's commit and latch, and the mirrors' swap (R28, R29, R393, R398); `sched` names the contexts
whose schedule in force before the edge names it, `cfg` is NEA_MIRROR_CFG before the edge (R51). Neano misses an edge at which
its clock stands (R560). -/
def Dev.neaEdges (d : Dev) (sched : List Nat) (cfg : Word) : Dev :=
  if d.lost 32 then d
  else ((upTo 8).foldl (fun (d : Dev) c => d.neaEdge c (sched.contains c) cfg) d).mirrorSwap

/-- The grafts of tile t at edge e, when it is a step boundary of its partition (R303, R304, R360, R364, R365, R437). -/
def Dev.tileBoundary (d : Dev) (t e : Nat) : Dev :=
  if d.boundary (d.tilePart t) e then
    let d1 := d.hbmBoundary t
    let d2 := ((d1.hbmTile t).failedNow).foldl (fun (d : Dev) ch => (d.hbmFailedOut t ch).stopTile t) d1
    let d3 := d2.meshBoundary t
    (upTo 4).foldl (fun (d : Dev) i => d.groveBoundary (4 * t + i)) d3
  else d

/-- The grafts at edge e (R529, R540, R541): of cores and tiles by partition, of device-level units where e is a boundary
of every training partition. -/
def Dev.grafts (d : Dev) (e : Nat) : Dev :=
  let all := d.boundaryAll (upTo 4) e
  let slow := d.boundaryAll d.slowParts e
  let bs := (upTo 4).filter (fun p => d.boundary p e)
  let d1 := (upTo 4).foldl (fun (d : Dev) t => d.tileBoundary t e) d
  let d2 := bs.foldl (fun (d : Dev) p => d.coreBoundary p) d1
  let d3 := if all then d2.portBoundary else d2
  (if slow then d3.pkgGraft else d3).peBoundary e

/-- Count windows end at edges whose Tempo number is a multiple of 65,536 (R302, R359, R422, R434, R560). -/
def Dev.windowEdge (d : Dev) (e : Nat) : Dev :=
  if e % 65536 = 0 then
    let d1 : Dev := { d with
      srams := d.srams.map (fun x => (x.1, x.2.window))
      phys := d.phys.map (fun x => (x.1, { x.2 with sram := x.2.sram.window }))
      plls := d.plls.map (fun x => (x.1, { x.2 with win := 0 })) }
    ((upTo 4).foldl (fun (d : Dev) t => d.onHbm t HbmTile.window) d1).pkgWindow.dvoWindow
  else d

/-- The flag snapshots of the engines whose clock runs (R111, R143, R176). -/
def Dev.snapEdge (d : Dev) (e : Nat) : Dev :=
  (upTo 384).foldl (fun (d : Dev) c =>
    if d.tileOn (tileOf c) then
      let d1 := if d.engClock c 1 = 2 then d.onMe c (fun m => m.snapshot e) else d
      if d1.engClock c 2 = 2 then d1.onVe c (fun v => v.snapshot e) else d1
    else d) d

/-- The revocations of edge e, and the tenant grants that they end (R497, R498, R598). -/
def Dev.castleGrants (d : Dev) (e : Nat) : Dev :=
  let d1 := d.castleEdge e
  (upTo 4).foldl (fun (d' : Dev) p =>
    if (d.part p).st ≠ .revoking ∧ (d1.part p).st = .revoking then d'.grantEnd p else d') d1

/-- TEMPO_EDGE (R49, R51). What acts on values in force before the edge comes first; then the staged commit and the ring commits;
then sampling and launches; then revocations (R393, R472, R497). -/
def Dev.tempoEdge (d : Dev) : Dev :=
  if d.sec.stage < 5 ∨ ¬d.stalling then d
  else
    let e := d.nextEdge
    let d1 : Dev := ({ d with tempo := e, gated := [], tmp := { d.tmp with first := false } } : Dev).tmpEdge
    let d2 := (upTo (shapeParts d.shape)).foldl (fun (d : Dev) p => d.monitorEdge p e) d1
    let sched := (upTo 8).filter (fun c => d2.neaSched c e)
    let d4 := (upTo 4).foldl (fun (d : Dev) p => d.standInEdge p e) d2
    let d4a := (upTo 4).foldl (fun (d : Dev) t => d.meshEdge t) d4.dvoHolds
    let d5 := (d4a.mapoutEdge).grafts e
    let d6 := (upTo 4).foldl (fun (d : Dev) t => d.capEdge t) (d5.faultsEdge)
    let d7 := (upTo 4).foldl (fun (d : Dev) t => d.oppEdge t) d6.recoveryEnd
    let d8 := d7.dvoDiscards
    let d9 := (((((d8.dvoRecounts).windowEdge e).snapEdge e).wdogEdge).grantsEdge e)
    let d10 := d9.setsCommit e
    let d11 := (((d10.neaEdges sched (d9.reg ⟨.neaMirrorCfg, []⟩)).dmaEdge).ringsEdge e).redEdge e
    { d11.castleGrants e with tempo := e }

end Sys2Proof.Machine
end

