-- ==== Sys2Proof/Machine/Bus.lean ====
section
/-! DEFINITION. The register bus: register words, accesses by the hosting software and by sequencers (R13 to R18, R223, R485,
R572, R573, R642, and the access rules of each chapter's registers). -/
namespace Sys2Proof.Machine

/-! ## Register words whose fields stand in units -/

/-- SQ_STATUS.WAIT (R242). -/
def SqWait.code : SqWait → Nat
  | .none => 0
  | .sem _ _ => 1
  | .tempo _ _ _ _ => 2
  | .claim => 3
  | .queueFull => 4
  | .engineHalted => 5
  | .fence _ => 6
  | .operand => 7

/-- SQ_STATUS.STATE (R242). -/
def SqState.code : SqState → Nat
  | .idle => 0
  | .run => 1
  | .stall => 2
  | .halted => 3
  | .done => 4

/-- ME_STATUS (R141). -/
def Core.meStatus (x : Core) : Word :=
  let m := x.me
  let busy := m.run.isSome || !m.flight.isEmpty || !m.drains.isEmpty || !m.writes.isEmpty || m.eng.waitReq.isSome ||
    !m.eng.sigs.isEmpty
  let t := match m.tile with
    | some t => putBit 2 true ||| putBit 3 t.tr ||| put 12 8 t.fmt ||| put 19 13 t.nout ||| put 26 20 t.klen
    | none => 0
  putBit 0 busy ||| putBit 1 m.eng.halt ||| t ||| put 37 32 m.eng.queue.length ||| put 63 48 m.eng.event

/-- VE_STATUS (R174). -/
def Core.veStatus (x : Core) : Word :=
  let v := x.ve
  let nxt := match v.solve with
    | some s => s.next
    | none => 0
  putBit 0 (v.solve.isSome || v.eng.waitReq.isSome || !v.eng.sigs.isEmpty) ||| putBit 1 v.eng.halt ||| putBit 2 v.solve.isSome |||
  put 13 8 v.eng.queue.length ||| put 28 16 nxt ||| put 63 48 v.eng.event

/-- SQ_STATUS (R242). -/
def Core.sqStatus (x : Core) : Word :=
  let q := x.sq
  put 2 0 q.st.code ||| put 5 3 q.wait.code ||| put 8 6 q.engHalt.toNat ||| put 11 9 q.loops.length |||
  put 15 12 q.calls.length ||| put 31 24 q.preds.toNat ||| put 37 32 x.me.eng.queue.length |||
  put 45 40 x.ve.eng.queue.length ||| put 53 48 x.fte.eng.queue.length

/-- SQ_PC, SQ_FAULT and SQ_LATE (R243, R244, R246). -/
def Sq.pcWord (q : Sq) : Word := put 13 0 q.pc ||| put 45 32 q.codeLen
@[inherit_doc Sq.pcWord] def Sq.faultWord (q : Sq) : Word := put 15 0 q.faultCode ||| put 29 16 q.faultPc ||| put 47 32 q.pcode
@[inherit_doc Sq.pcWord] def Sq.lateWord (q : Sq) : Word := put 31 0 q.late ||| put 63 32 q.lateTempo

/-- A PWR_REQ word: the requests of banks b0 to b0 + 31 (R307). -/
def Dev.reqWord (d : Dev) (u b0 : Nat) : Word :=
  (upTo 32).foldl (fun (v : Word) i =>
    if b0 + i < d.bankCount u then v ||| put (2 * i + 1) (2 * i) ((d.sram u).bank (b0 + i)).req.code else v) 0

/-- A PWR_STATE word: states of banks b0 to b0 + 15 (R308). -/
def Dev.bankWord (d : Dev) (u b0 : Nat) : Word :=
  (upTo 16).foldl (fun (v : Word) i =>
    if b0 + i < d.bankCount u then
      v ||| put (4 * i + 2) (4 * i) (d.bankState u (b0 + i)).code ||| putBit (4 * i + 3) ((d.sram u).bank (b0 + i)).pending
    else v) 0

/-- Bits of a set of numbers from lo to lo + 63. -/
def setWordOf (s : NSet) (lo : Nat) : Word :=
  s.foldl (fun (v : Word) e => if lo ≤ e.1 ∧ e.1 < lo + 64 then v ||| putBit (e.1 - lo) true else v) 0

/-- SPD_SPARE (R311). -/
def Dev.spdSpare (d : Dev) (c : Nat) : Word :=
  let x := d.sram c
  (upTo 4).foldl (fun (v : Word) i => v ||| put (6 * i + 13) (6 * i + 8) (x.repl.getD i 0x3F))
    (put 2 0 x.repl.length ||| (setWordOf x.failing 0 <<< 32))

/-- GRV_SPARE (R314). -/
def Dev.grvSpare (d : Dev) (g : Nat) : Word :=
  let x := d.sram (grvKey g)
  (upTo 4).foldl (fun (v : Word) i => v ||| put (7 * i + 14) (7 * i + 8) (x.repl.getD i 0x7F))
    (put 2 0 x.repl.length ||| put 42 36 (d.bankCount (grvKey g)))

/-- SEM_STATE (R556). -/
def Sem.word (x : Sem) : Word := put 15 0 x.value ||| putBit 16 x.poison ||| put 25 17 x.owner ||| putBit 26 x.declared

/-- PRT_GEN_CTRL (R205). -/
def GenTable.ctrlWord (t : GenTable) : Word :=
  let low := (t.claims.map (fun c => c.stage)).foldl min 63
  put 6 0 t.stages ||| putBit 7 (!t.claims.isEmpty) ||| put 13 8 (if t.claims.isEmpty then 0 else low) |||
  put 47 32 t.lateCount ||| put 53 48 t.lateStage

/-- PRT_GEN_SLOT of slot i = 2s + g (R208). -/
def GenTable.slotWord (t : GenTable) (i : Nat) : Word :=
  let x := t.slot (i / 2) (i % 2)
  let st := match x.st with
    | .free => 0
    | .filling => 1
    | .ready => 2
  put 15 0 x.refs ||| put 17 16 st ||| putBit 18 x.missed ||| putBit 19 (t.claimOf (i / 2) (i % 2)).isSome |||
  put 49 32 x.page ||| put 63 50 x.pages

/-- Number of a check-value unit from its register. -/
def cvuOf (r : Reg) : Nat :=
  match r.k with
  | .cvuCfg | .cvuPoly | .cvuInit | .cvuState | .cvuResult | .cvuPos | .cvuFoldBase | .cvuSeq | .cvuFeedAddr | .cvuFeedLen
  | .cvuCtrl | .cvuStatus => 2 * r.i 0 + r.i 1
  | _ => 32 + r.i 0

/-- The word that a register shows, before write-only bits are masked. -/
def Dev.rawWord (d : Dev) (r : Reg) : Word :=
  let c := d.core (r.i 0)
  match r.k with
  | .tmpNow => BitVec.ofNat 64 d.tempo
  | .tmpPeriod => d.periodWord
  | .tmpRole => d.roleWord
  | .tmpOffset => d.offsetWord
  | .tmpStageCtrl => d.stageWord (r.i 0)
  | .tmpDmCtrl => d.dmWord (r.i 0)
  | .meStatus => c.meStatus
  | .meFlags => put 5 0 c.me.flags.toNat
  | .meFlagsSnap => put 5 0 c.me.snap.toNat ||| put 63 32 c.me.snapTempo
  | .veStatus => c.veStatus
  | .veFlags => put 6 0 c.ve.flags.toNat
  | .veFlagsSnap => put 6 0 c.ve.snap.toNat ||| put 63 32 c.ve.snapTempo
  | .sqStatus => c.sqStatus
  | .sqPc => c.sq.pcWord
  | .sqFault => c.sq.faultWord
  | .sqFaultInsn => c.sq.insn
  | .sqLate => c.sq.lateWord
  | .sqPerfIssue => c.sq.issue.word
  | .sqSreg => match c.sq.st with
    | .halted | .done => c.sq.getS (r.i 1)
    | _ => 0
  | .fteStatus => c.fte.status
  | .spdPwrReq => d.reqWord (r.i 0) 0
  | .spdPwrState => d.bankWord (r.i 0) (16 * r.i 1)
  | .spdSpare => d.spdSpare (r.i 0)
  | .grvPwrReq => d.reqWord (grvKey (r.i 0)) (32 * r.i 1)
  | .grvPwrState => d.bankWord (grvKey (r.i 0)) (16 * r.i 1)
  | .grvSpare => d.grvSpare (r.i 0)
  | .grvFailing => setWordOf (d.sram (grvKey (r.i 0))).failing (64 * r.i 1)
  | .dmaChCtrl => d.dmaCtrlWord (r.i 0) (r.i 1)
  | .dmaChStatus => d.dmaStatusWord (r.i 0) (r.i 1)
  | .cvuResult | .pcvuResult => d.cvuResult (cvuOf r)
  | .cvuFeedLen | .pcvuFeedLen => d.cvuFeedLen (cvuOf r)
  | .cvuStatus | .pcvuStatus => d.cvuStatus (cvuOf r)
  | .semState => (d.sem (1024 * r.i 0 + r.i 1)).word
  | .prtGenCtrl => (d.gen (r.i 0)).ctrlWord
  | .prtGenEvent => put 5 0 (d.gen (r.i 0)).events.toNat
  | .prtGenRing => BitVec.ofNat 64 ((d.gen (r.i 0)).slot (r.i 1 / 2) (r.i 1 % 2)).ring
  | .prtGenSlot => (d.gen (r.i 0)).slotWord (r.i 1)
  | .prtRecovery => d.recoveryWord
  | .prtClusterSpare => d.clusterSpare (r.i 0)
  | .prtCore => d.coreWord (r.i 0)
  | .prtStatus => d.prtStatus (r.i 0)
  | .clkPll => d.pllWord (r.i 0)
  | .pwrPkg => d.pkgWord
  | .pwrTile => d.pwrWord (r.i 0)
  | .pwrTemp => d.tempWord (r.i 0)
  | .secState => d.secStateWord
  | .secBoot => d.bootWord
  | .secLock => put 5 0 d.sec.locks
  | .secTokenStatus => d.tokenWord
  | .dbgStatus => d.dbgWord
  | .hubHart => d.hartWord (r.i 0)
  | .hubMboxUpPop => (FMap.getD d.mail (2 * r.i 0) []).headD 0
  | .hubMboxDownPop => (FMap.getD d.mail (2 * r.i 0 + 1) []).headD 0
  | .hubMboxStat => d.mboxWord (r.i 0)
  | .mgtStatus => d.mgtWord
  | .hbmStatus => d.hbmStatus (r.i 0)
  | .hbmTherm => d.hbmTherm (r.i 0) (r.i 1)
  | .hbmPcStat => d.hbmPcStat (r.i 0) (r.i 1)
  | .hbmPcCe => d.hbmPcCe (r.i 0) (r.i 1)
  | .hbmRetired => d.hbmRetired (r.i 0) (r.i 1)
  | .neaSlowStatus => d.neaSlowStatus
  | .neaPkg => d.neaPkgWord (r.i 0)
  | .neaCtxStatus => d.neaCtxStatus (r.i 0)
  | .neaCtxRing => d.neaCtxRing (r.i 0)
  | .neaCtxMirror => BitVec.ofNat 64 (d.ctx (r.i 0)).mirror
  | .dvoMesh => d.meshWord (r.i 0)
  | .dvoLink => d.linkWord (r.i 0)
  | .dvoPortStatus => d.portStatus (r.i 0)
  | .dvoPeStatus => d.peStatus (r.i 0)
  | .dvoRedCfg => d.redCfgWord (r.i 0)
  | .dvoRedStatus => d.redStatusWord (r.i 0)
  | _ => d.reg r

/-- Partition of a register of a partition (R485). -/
def partReg (r : Reg) : Option Nat :=
  match r.k with
  | .tmpDmCtrl | .tmpDmStatus | .tmpBudget | .tmpBudgetFb | .prtGenCtrl | .prtGenEvent | .prtGenRing | .prtGenSlot
  | .dmaInwinBase | .dmaInwinCfg | .dmaInwinStat | .prtCtrl | .prtCastleAt | .prtStatus | .prtLoad | .prtLoadLen
  | .prtHandover | .prtHandoverRing | .prtResume | .prtRegHbm | .prtRegGrv | .prtRegStat | .prtRegDvo | .prtFault
  | .hubMboxUpPush | .hubMboxUpPop | .hubMboxDownPush | .hubMboxDownPop | .hubMboxStat | .hubRingBase | .hubRingCfg
  | .dvoRedCfg | .dvoRedFirst | .dvoRedPeriod | .dvoRedRing0 | .dvoRedKey | .dvoRedScale | .dvoRedStatus | .dvoRedEvent
  | .dvoRedCount | .dvoRedCheck | .dvoRedLast => some (r.i 0)
  | _ => none

/-- A register of a partition that the shape does not have (R485). -/
def Dev.absent (d : Dev) (r : Reg) : Bool :=
  match partReg r with
  | some p => decide (shapeParts d.shape ≤ p)
  | none => false

/-- The word that a read of a register returns: write-only fields read 0 (R14), reserved ones 0 (R18). -/
def Dev.regWord (d : Dev) (r : Reg) : Word :=
  if d.absent r then 0 else d.rawWord r &&& accMask [.rw, .ro, .w1c, .rwt, .rwl] r.k

/-! ## Which accesses take a bus error (R13, R537, R542, R572, R573, R642) -/

/-- Where a register's block stands. -/
inductive RegBlock where
  /-- Core c's block, with the number of the clock enable that gates it (1 ME, 2 VE, 3 FTE), 0 none. -/
  | core (c k : Nat)
  /-- Cluster g's block: 1 DMA, 2 and 3 its check-value units, 0 none. -/
  | cluster (g k : Nat)
  /-- The enables of a core or a cluster, which are never gated (R570). -/
  | enable (core : Bool) (i : Nat)
  /-- Fabric-clock registers of a tile. -/
  | tile (t : Nat)
  | hub
  deriving DecidableEq, Repr

/-- The block of a register. -/
def Reg.block (r : Reg) : RegBlock :=
  match r.k with
  | .meCtrl | .meStatus | .meFlags | .meFlagsSnap | .meColumn | .mePerfBusy | .mePerfLoad | .mePerfRows | .mePerfWait =>
    .core (r.i 0) 1
  | .veCtrl | .veStatus | .veFlags | .veFlagsSnap | .veSolveTol | .veSolveStatus | .vePerfBusy | .vePerfWait => .core (r.i 0) 2
  | .fteCtrl | .fteStatus | .ftePerfDeliv | .ftePerfLoss | .ftePerfLead | .ftePerfWait => .core (r.i 0) 3
  | .sqCtrl | .sqStatus | .sqPc | .sqFault | .sqFaultInsn | .sqLate | .sqPerfIssue | .sqPerfStall | .sqSreg
  | .spdPwrReq | .spdPwrState | .spdEcc | .spdEccInject | .spdSpare | .spdCfg | .spdPerf => .core (r.i 0) 0
  | .clkEnCore => .enable true (r.i 0)
  | .clkEnCluster => .enable false (r.i 0)
  | .grvPwrReq | .grvPwrState | .grvEcc | .grvEccInject | .grvSpare | .grvCfg | .grvPerf | .grvFailing | .semState =>
    .cluster (r.i 0) 0
  | .dmaChRing | .dmaChCtrl | .dmaChStatus | .dmaWinBase | .dmaWinCfg => .cluster (r.i 0) 1
  | .cvuCfg | .cvuPoly | .cvuInit | .cvuState | .cvuResult | .cvuPos | .cvuFoldBase | .cvuSeq | .cvuFeedAddr | .cvuFeedLen
  | .cvuCtrl | .cvuStatus => .cluster (r.i 0) (2 + r.i 1)
  | .hbmCfg | .hbmStatus | .hbmErrLog | .hbmPerfRd | .hbmPerfWr | .hbmPerfHold | .hbmTherm | .hbmPcStat | .hbmPcCe
  | .hbmRetired => .tile (r.i 0)
  | .dvoPortCfg | .dvoPortCtrl | .dvoPortStatus | .dvoPortErr | .dvoPortViol | .dvoPeStatus | .pcvuCfg | .pcvuPoly
  | .pcvuInit | .pcvuState | .pcvuResult | .pcvuPos | .pcvuFoldBase | .pcvuSeq | .pcvuFeedAddr | .pcvuFeedLen | .pcvuCtrl
  | .pcvuStatus => .tile (r.i 0 / 6)
  | _ => .hub

/-- The fabric-clock registers of a tile take a bus error in P3 and on the way to or from it (R573). -/
def Dev.tileDark (d : Dev) (t : Nat) : Bool :=
  match (d.ptile t).st with
  | .run | .retain => false
  | .off => true
  | .moving a b => decide (a = 2) || decide (b = 2)

/-- Its core-clock registers do so in P2 too (R573). -/
def Dev.tileStill (d : Dev) (t : Nat) : Bool := decide ((d.ptile t).st ≠ .run)

/-- A gated block's number in `gated`. -/
def gateId (core : Bool) (i k : Nat) : Nat := if core then 4 * i + k else 10000 + 4 * i + k

/-- Does an access to a register take a bus error; with the gated block that refuses it, if one does (R537, R542, R572,
R573). From outside a cluster behind a cut mesh stop it does too (R438, log entry 82). -/
def Dev.busRefuses (d : Dev) (host : Bool) (r : Reg) : Bool × Option (Bool × Nat × Nat) :=
  let gate := fun (core : Bool) (i k : Nat) =>
    if k ≠ 0 ∧ d.clkState core i k ≠ 2 then (true, some (core, i, k)) else (false, none)
  match r.block with
  | .core c k =>
    if d.coreDown host c || d.tileStill (tileOf c) || (host && d.clusterCut (clusterOf c)) then (true, none) else gate true c k
  | .cluster g k => if d.tileStill (g / 4) || (host && d.clusterCut g) then (true, none) else gate false g k
  | .enable core i => (if core then d.coreDown host i || d.tileDark (tileOf i) else d.tileDark (i / 4), none)
  | .tile t => (d.tileDark t, none)
  | .hub => (false, none)

/-- CLK_GATED_ACCESS, at most once per Tempo per block (R572). -/
def Dev.gateEvent (d : Dev) (core : Bool) (i k : Nat) : Dev :=
  let id := gateId core i k
  if d.gated.contains id then d
  else ({ d with gated := id :: d.gated } : Dev).raise 0x1002 (some (d.clkPart core i)) i

/-- Where an access lands (R13, R642): the register, the bits it covers and their place; none is a bus error. -/
def busPlace (a size : Nat) : Option (Reg × Word × Nat) :=
  match regAt (a - a % 8) with
  | none => none
  | some r =>
    if size = 8 ∧ a % 8 = 0 then some (r, BitVec.allOnes 64, 0)
    else if size = 4 ∧ a % 4 = 0 then some (r, maskOf (8 * (a % 8) + 31) (8 * (a % 8)), 8 * (a % 8))
    else none

/-! ## Reads -/

/-- A permitted read of a register: TMP_TIME is a free value within the Tempo (R62), a POP removes its entry (R616). -/
def Dev.regRead (d : Dev) (r : Reg) : Word × Dev :=
  match r.k with
  | .tmpTime => (put 19 0 ((Config.freeWord d.fresh).toNat % (1000 * max 1 d.period)), d.tick)
  | .hubMboxUpPop => if d.absent r then (0, d) else d.mboxPop (2 * r.i 0)
  | .hubMboxDownPop => if d.absent r then (0, d) else d.mboxPop (2 * r.i 0 + 1)
  | _ => (d.regWord r, d)

/-- A read on the register bus: the value, or none for a bus error. -/
def Dev.busRead (d : Dev) (host : Bool) (a size : Nat) : Option Word × Dev :=
  match busPlace a size with
  | none => if (regAt (a - a % 8)).isNone && Config.secretAt a then (some 0, d.denied) else (none, d)
  | some (r, m, sh) =>
    match d.busRefuses host r with
    | (true, some (core, i, k)) => (none, d.gateEvent core i k)
    | (true, none) => (none, d)
    | (false, _) =>
      let x := d.regRead r
      (some ((x.1 &&& m) >>> sh), x.2)

/-! ## Writes -/

/-- Old bits with those of a mask replaced. -/
def mix (old mask v : Word) : Word := (old &&& ~~~mask) ||| (v &&& mask)

/-- A write to a register whose fields stand as written, by access type (R14, R15). -/
def Dev.plainWrite (d : Dev) (r : Reg) (mask v : Word) (owner : Nat) : Dev :=
  let d1 := d.rwtWrite r mask v owner
  let rw := mask &&& accMask [.rw] r.k
  let d2 := if rw = 0 then d1 else d1.setReg r (mix (d1.reg r) rw v)
  let clr := mask &&& v &&& accMask [.w1c] r.k
  let d3 := if clr = 0 then d2 else d2.setReg r (d2.reg r &&& ~~~clr)
  let rl := mask &&& accMask [.rwl] r.k
  if rl = 0 then d3
  else if d3.locked r.k then d3.raise 0x1201 none 0
  else d3.setReg r (mix (d3.reg r) rl v)

/-- A write of an engine's CTRL register: RESUME, FLUSH (R134, R172, R274). -/
def Dev.engCtrl (d : Dev) (c e : Nat) (v : Word) : Dev :=
  let d1 := if bit 0 v then d.engResume c e else d
  if bit 1 v then d1.engFlush c e else d1

/-- A write of REQ fields that the mask covers, banks b0 to b0 + 31 (R301, R307). -/
def Dev.reqWrite (d : Dev) (u b0 : Nat) (mask v : Word) (owner : Nat) : Dev :=
  (upTo 32).foldl (fun (d : Dev) i =>
    if bit (2 * i) mask then d.bankRequest u (b0 + i) (fld (2 * i + 1) (2 * i) v) owner else d) d

/-- A write of a check-value unit's setting: refused while BUSY, but a CFG of a port unit that selects no direction
(R517, R519). -/
def Dev.cvuWrite (d : Dev) (r : Reg) (mask v : Word) (owner : Nat) : Dev :=
  let n := cvuOf r
  let src := fld 13 12 (mix (d.reg r) mask v)
  let off := decide (r.k = .pcvuCfg) && (decide (src = 0) || decide (src = 3))
  if d.cvuBusy n && !off then d.cvuEvent n 0x0D04 else d.plainWrite r mask v owner

/-- CVU_CTRL: INIT, ABORT (R517, R522). How far the step in progress has come is open. -/
def Dev.cvuCtrl (d : Dev) (n : Nat) (v : Word) : Dev :=
  let d1 := if bit 0 v then d.cvuInit n else d
  if bit 1 v then d1.cvuStop n else d1

/-- A write of SEM_STATE (R556). -/
def Dev.semWrite (d : Dev) (k : Nat) (mask v : Word) : Dev :=
  let x := d.sem k
  let w := mix x.word (mask &&& (maskOf 15 0 ||| maskOf 25 17)) v
  d.setSem k { x with
    value := fld 15 0 w, owner := fld 25 17 w, poison := x.poison && !(bit 16 mask && bit 16 v) }

/-- PRT_CTRL: LOAD, KILL, CASTLE (R489, R495, R504), discarded during a debug scrub (R596). -/
def Dev.prtCtrl (d : Dev) (p : Nat) (v : Word) : Dev :=
  let a := d.regFld ⟨.prtLoad, [p]⟩ 47 0
  let n := d.regFld ⟨.prtLoadLen, [p]⟩ 31 0
  let d1 := if bit 0 v then d.prtLoad p (Config.parseImage (d.mem.getAll a n)) else d
  let d2 := if bit 1 v then d1.castle p 0 true else d1
  if bit 2 v then d2.castle p (d.reg ⟨.prtCastleAt, [p]⟩).toNat false else d2

/-- SEC_CTRL (R604), written over a path: 0 the register bus, 1 JTAG, 2 the management port. -/
def Dev.secCtrl (d : Dev) (path : Nat) (v : Word) : Dev :=
  let on := fun (i : Nat) (f : Dev → Dev) (d : Dev) => if bit i v then f d else d
  let d1 := on 3 Dev.ownerEnrol (on 2 (fun d => d.tokenSubmit path) (on 1 Dev.nonceDraw (on 0 Dev.attestStart d)))
  on 8 Dev.bootStart (on 5 (fun d => d.grantEnd (fld 7 6 v)) (on 4 Dev.svnCommit d1))

/-- NEA_CTX_CTRL: the fields, then the commands in the order of their bits (R406). -/
def Dev.ctxWrite (d : Dev) (r : Reg) (mask v : Word) (owner : Nat) : Dev :=
  let c := r.i 0
  let w := v &&& mask
  let on := fun (i : Nat) (f : Dev → Dev) (d : Dev) => if bit i w then f d else d
  on 7 (fun d => d.neaRelease c) (on 6 (fun d => d.neaResume c) (on 5 (fun d => d.neaCommitImport c)
    (on 4 (fun d => d.neaImport c) (d.plainWrite r mask v owner))))

/-- DVO_PORT_CTRL (R447). -/
def Dev.portCtrl (d : Dev) (q : Nat) (w : Word) : Dev :=
  let retrain := fun (d : Dev) => match (d.port q).st with
    | .up | .standby => d.portRetrain q
    | _ => d
  let d1 := if bit 0 w then retrain d else d
  let d2 := if bit 1 w then d1.portRelease q else d1
  if bit 2 w then d2.portForceDown q else d2

/-- What a permitted write of a register does when it completes. `owner` is the writing core or 0x1FF; `path` as in SEC_CTRL. -/
def Dev.regDo (d : Dev) (ag : Agent) (path : Nat) (r : Reg) (mask v : Word) : Dev :=
  let o := ag.owner
  let w := v &&& mask
  let i := r.i 0
  let plain := d.plainWrite r mask v o
  match r.k with
  | .tmpStageCtrl => if bit 0 w then d.stageDiscard ag i else d
  | .meCtrl => let d1 := d.engCtrl i 1 w; if bit 2 w then d1.meColTest i else d1
  | .veCtrl => d.engCtrl i 2 w
  | .fteCtrl => d.engCtrl i 3 w
  | .meFlags => d.onMe i (fun m => { m with flags := m.flags &&& ~~~(BitVec.ofNat 7 (fld 5 0 w)) })
  | .veFlags => d.onVe i (fun m => { m with flags := m.flags &&& ~~~(BitVec.ofNat 7 (fld 6 0 w)) })
  | .sqCtrl => let d1 := if bit 0 w then d.sqResume i else d; if bit 1 w then d1.sqStop i else d1
  | .sqPc => if bit 0 mask && decide ((d.core i).sq.st = .halted) then d.onSq i (fun q => { q with pc := fld 13 0 v }) else d
  | .sqPerfIssue => d.onSq i (fun q => { q with issue := q.issue.write (mix q.issue.word mask v) })
  | .spdPwrReq => d.reqWrite i 0 mask v o
  | .grvPwrReq => d.reqWrite (grvKey i) (32 * r.i 1) mask v o
  | .clkEnCore => if bit 0 mask then d.clkWrite true i v.toNat else d
  | .clkEnCluster => if bit 0 mask then d.clkWrite false i v.toNat else d
  | .dmaChCtrl => if bit 1 w then plain.tick.dmaAbort i (r.i 1) (plain.dmaFree i) else plain
  | .dmaInwinCfg => d.inWinWrite i (r.i 1) (mix (d.reg r) mask v)
  | .cvuCfg | .cvuPoly | .cvuInit | .cvuState | .cvuPos | .cvuFoldBase | .cvuSeq
  | .pcvuCfg | .pcvuPoly | .pcvuInit | .pcvuState | .pcvuPos | .pcvuFoldBase | .pcvuSeq => d.cvuWrite r mask v o
  | .cvuFeedLen => d.cvuFeedStart ag (cvuOf r) (fld 39 0 w)
  | .pcvuFeedAddr | .pcvuFeedLen => d
  | .cvuCtrl | .pcvuCtrl => d.cvuCtrl (cvuOf r) w
  | .semState => d.semWrite (1024 * i + r.i 1) mask v
  | .prtGenEvent =>
    let t := d.gen i
    d.setGen i { t with events := t.events &&& ~~~(BitVec.ofNat 6 (fld 5 0 w)) }
  | .prtPrune => if bit 15 w then plain.hostPrune (plain.regFld r 8 0) else plain
  | .prtCtrl => d.prtCtrl i w
  | .cgCtr1 => d.cgWrite (mix (d.reg r) mask v)
  | .secCtrl => d.secCtrl path w
  | .secLock => d.lockSet (fld 13 8 w)
  | .secTokenBuf => d.setReg r (mix (d.reg r) mask v)
  | .hubWdog =>
    if bit 0 w then match ag with
      | .hart h => plain.wdogKick h.val
      | _ => plain.tick.wdogKick ((Config.freeWord plain.fresh).toNat % 14)
    else plain
  | .hubMboxUpPush => d.mboxPush (2 * i) w
  | .hubMboxDownPush => d.mboxPush (2 * i + 1) w
  | .hbmPcCe => d.hbmPcCeWrite i (r.i 1) (mix (d.hbmPcCe i (r.i 1)) mask v)
  | .neaPkg =>
    let x := mix (d.neaPkgWord i) mask v
    let d1 := d.onPkg i (fun y => { y with ce := fld 31 16 x, ue := fld 47 32 x })
    if mask &&& maskOf 15 8 = 0 then d1
    else if d1.locked .neaPkg then d1.raise 0x1201 none 0
    else d1.setRegFld r 15 8 (fld 15 8 x)
  | .neaCtxCtrl => d.ctxWrite r mask v o
  | .neaCtxStatus => d.onCtx i (fun x => { x with flags := x.flags &&& ~~~(BitVec.ofNat 2 (fld 5 4 w)) })
  | .dvoPortCtrl => d.portCtrl i w
  | _ => plain

/-- A permitted write of a register: one that covers RWT fields waits, with all its fields, from the seal to E + 8 ns (R50), and
so do the later stores of the same sequencer or hart (R224, R611). -/
def Dev.regStore (d : Dev) (ag : Agent) (path : Nat) (r : Reg) (mask v : Word) : Dev :=
  if d.behind ag ∨ (d.stalling ∧ mask &&& d.rwtMask r ≠ 0) then d.park (.write ag path r.addr mask v)
  else d.regDo ag path r mask v

/-- The entries of an engine's queue no longer wait for stores (R280). -/
def Eng.release (g : Eng) : Eng := { g with queue := g.queue.map (fun x => { x with held := false }) }

/-- The same for the three engines of a core. -/
def Core.release (x : Core) : Core :=
  { x with
    me := { x.me with eng := x.me.eng.release }, ve := { x.ve with eng := x.ve.eng.release }
    fte := { x.fte with eng := x.fte.eng.release } }

/-- HBM of a tile that is in P2 or P3 takes a bus error (R573, R600). -/
def Dev.hbmOpen (d : Dev) (a : Nat) : Bool := d.hbmMapped a && !d.tileStill (a / hbmTileBytes)

/-- A store that waits lands. One to memory that no longer takes it has no effect, but for a sequencer's SQ_BUS_ERROR (log entry
137). -/
def Dev.landOne (d : Dev) (w : Stalled) : Dev :=
  match w with
  | .write ag path a m v =>
    match regAt a with
    | some r => d.regDo ag path r m v
    | none => d
  | .discard _ s => d.setEmpty s
  | .mem ag a bs =>
    if (d.sramAt a).isSome then
      match d.sramWrite a (clean bs), ag with
      | (true, d1), _ => d1
      | (false, d1), .core c => d1.raiseCore 0x0505 c.val
      | (false, d1), _ => d1
    else if d.hbmOpen a then d.hbmWrite a (clean bs) []
    else d

/-- A store to an HBM bank that is held goes on waiting (R357, R360, R364). -/
def Dev.landHeld (d : Dev) (w : Stalled) : Bool :=
  match w with
  | .mem _ a _ => d.hbmOpen a && d.hbmHeld a
  | _ => false

/-- STALLED_WRITES_LAND: at E + 8 ns, in order of arrival; staged values go into the sets due next (R50). A store to a held HBM
bank waits on, with the later ones of its hart (R611). -/
def Dev.stalledLand (d : Dev) : Dev :=
  d.stalled.foldl (fun (d : Dev) w => if d.landHeld w || d.behind w.agent then d.park w else d.landOne w)
    (d.stalled.foldl (fun (d : Dev) w => match w.agent with
      | .core c => d.onCore c.val Core.release
      | _ => d) { d with stalling := false, stalled := [] })

/-- A write on the register bus; false is a bus error. Writes to an absent partition's registers are discarded (R485). -/
def Dev.busWrite (d : Dev) (ag : Agent) (path a size : Nat) (v : Word) : Bool × Dev :=
  match busPlace a size with
  | none => (false, d)
  | some (r, m, sh) =>
    match d.busRefuses ag.isHost r with
    | (true, some (core, i, k)) => (false, d.gateEvent core i k)
    | (true, none) => (false, d)
    | (false, _) => (true, if d.absent r then d else d.regStore ag path r m (v <<< sh))

/-! ## What a program may reach (R223 and the chapters' register sections) -/

/-- May core c's program read (or write) a register? -/
def Dev.programMay (d : Dev) (c : Nat) (r : Reg) (write : Bool) : Bool :=
  let p := d.corePart c
  let i := r.i 0
  let ofCore := decide (d.corePart i = p)
  let ofCluster := decide (d.clusterPart i = p)
  let ofTile := decide (d.tilePart i = p)
  let ofCtx := decide (d.ctxPart i = some p)
  let own := decide (i = p)
  match r.k with
  | .tmpNow | .tmpTime | .tmpPeriod | .dvoCoord => !write
  | .tmpDmCtrl | .tmpDmStatus | .tmpBudget | .tmpBudgetFb => !write && own
  | .tmpStageCtrl | .tmpStageTarget | .tmpCommitStatus | .tmpCommitAddr => !write && decide (i = p + 1)
  | .meCtrl | .meStatus | .meFlags | .meFlagsSnap | .meColumn | .mePerfBusy | .mePerfLoad | .mePerfRows | .mePerfWait
  | .veCtrl | .veStatus | .veFlags | .veFlagsSnap | .veSolveTol | .veSolveStatus | .vePerfBusy | .vePerfWait
  | .fteCtrl | .fteStatus | .ftePerfDeliv | .ftePerfLoss | .ftePerfLead | .ftePerfWait => ofCore
  | .sqCtrl | .sqStatus | .sqPc | .sqFault | .sqFaultInsn | .sqLate | .sqPerfIssue | .sqPerfStall | .sqSreg
  | .spdPwrState | .spdEcc | .spdEccInject | .spdSpare | .spdCfg | .spdPerf => !write && ofCore
  | .spdPwrReq => ofCore
  | .grvPwrState | .grvEcc | .grvEccInject | .grvSpare | .grvCfg | .grvPerf | .grvFailing => !write && ofCluster
  | .grvPwrReq | .dmaChRing | .dmaChCtrl | .dmaChStatus | .dmaWinBase | .dmaWinCfg | .semState
  | .cvuCfg | .cvuPoly | .cvuInit | .cvuState | .cvuResult | .cvuPos | .cvuFoldBase | .cvuSeq | .cvuFeedAddr | .cvuFeedLen
  | .cvuCtrl | .cvuStatus => ofCluster
  | .prtGenCtrl | .prtGenEvent | .prtGenRing | .prtGenSlot => !write && own
  | .dmaInwinBase | .dmaInwinCfg | .dmaInwinStat => own
  | .hbmCfg | .hbmStatus | .hbmErrLog | .hbmPerfRd | .hbmPerfWr | .hbmPerfHold | .hbmTherm | .hbmPcStat | .hbmPcCe
  | .hbmRetired | .pwrTile | .pwrTemp => !write && ofTile
  | .neaCtxCtrl | .neaCtxStatus | .neaCtxRing | .neaCtxCommit | .neaCtxPeriod | .neaCtxArea | .neaCtxSeed | .neaCtxFb
  | .neaCtxImportRing | .neaCtxMirror | .neaGrpStat | .neaKernel => !write && ofCtx
  | .neaGrpCfg | .neaGrpHyp1 | .neaGrpHyp2 | .neaGrpHyp3 => ofCtx
  | .dvoRedFirst | .dvoRedPeriod | .dvoRedKey => own
  | .dvoRedCfg | .dvoRedRing0 | .dvoRedScale | .dvoRedStatus | .dvoRedEvent | .dvoRedCount | .dvoRedCheck | .dvoRedLast =>
    !write && own
  | .prtStatus | .prtResume | .prtHandover | .prtHandoverRing | .prtFault | .hubRingBase | .hubRingCfg => !write && own
  | .prtRegHbm | .prtRegGrv | .prtRegDvo => write && own
  | .prtCore => !write && decide (d.clusterPart (i / 28) = p)
  | .hubMboxUpPush | .hubMboxUpPop | .hubMboxDownPush | .hubMboxDownPop | .hubMboxStat => own
  | _ => false

/-! ## LD and ST (R223) -/

/-- Format M: [32] zero; SX zero on ST. -/
def legalM (store : Bool) (i : IWord) (_ : Sq) : Bool := i.f 32 32 = 0 && !(store && decide (i.f 33 33 = 1))

/-- The address of an LD or ST and its bytes, or the fault SQ_ADDR_RANGE (R223). -/
def Sq.memAddr (q : Sq) (i : IWord) (store : Bool) : Option (Nat × Nat) :=
  let w := Win.ofBits (q.getA (i.f 44 41))
  let n := 2 ^ i.f 35 34
  let ea := low 48 ((w.base + (q.getS (i.f 40 36)).toNat : Nat) + sext 32 (i.f 31 0))
  if w.remote ∨ ea < w.base ∨ w.base + w.len < ea + n ∨ ea % n ≠ 0 ∨ (store ∧ ¬w.wr) then none else some (ea, n)

/-- Is an address in core c's scratchpad or its cluster's grove memory? -/
def Dev.ownSram (d : Dev) (c a : Nat) : Bool :=
  match d.sramAt a with
  | some (u, _) => decide (u = c) || decide (u = grvKey (clusterOf c))
  | none => false

/-- Is an address a register's (R12, R610: the Hub memory is none)? R12 gives the region's start and leaves its end to the
blocks: here it takes every address from its start up, so that an LD or ST beyond the last block takes a bus error (DESIGN
CHOICE, log entry 87). -/
def inRegion (a : Nat) : Bool := decide (0x0F0000000000 ≤ a) && !inHub a

/-- An address of the register region that an LD or ST may go to: no register there is for the bus to refuse (R642). -/
def Dev.regReach (d : Dev) (c a : Nat) (store : Bool) : Bool :=
  inRegion a && (match regAt (a - a % 8) with
    | some r => d.programMay c r store
    | none => true)

/-- The value that an LD puts in its register: sign- or zero-extended. -/
def loadValue (i : IWord) (n : Nat) (v : Nat) : Word := if i.f 33 33 = 1 then wordOfInt (sext (8 * n) v) else BitVec.ofNat 64 v

/-- LD (R223, R300, R318). It does not issue while an earlier store of the sequencer waits (R224, log entry 137). A poisoned word
marks the halt for the restart of R538. -/
def Dev.ctlLd (d : Dev) (c : Nat) (i : IWord) : Dev :=
  d.sqIssue c 0 0x30 i (legalM false i) (fun d => d.sqNext c) (fun d =>
    if d.storeStalled c then d else
    match (d.core c).sq.memAddr i false with
    | none => d.sqRefuse c 0x0504
    | some (ea, n) =>
      let done := fun (d : Dev) (v : Nat) => (d.onSq c (fun q => q.setS (i.f 49 45) (loadValue i n v))).sqNext c
      if d.ownSram c ea then
        match d.sramRead ea n with
        | (.off, d1) => d1.sqRefuse c 0x0505
        | (.ok bs, d1) =>
          if anyPoison bs then
            let d2 := (d1.sqRefuse c 0x0505).onSq c (fun q => { q with poisonLd := true })
            if ea < spdBase 0 then d2.raiseCore 0x0706 c else d2
          else done d1 (natOfBytes (plain bs))
      else if d.regReach c ea false then
        match d.busRead false ea n with
        | (some v, d1) => done d1 v.toNat
        | (none, d1) => d1.sqRefuse c 0x0505
      else d.sqRefuse c 0x0504)

/-- ST (R223, R300); behind an earlier store of the sequencer that waits, it waits too (R217, R224). -/
def Dev.ctlSt (d : Dev) (c : Nat) (i : IWord) : Dev :=
  d.sqIssue c 0 0x31 i (legalM true i) (fun d => d.sqNext c) (fun d =>
    match (d.core c).sq.memAddr i true with
    | none => d.sqRefuse c 0x0504
    | some (ea, n) =>
      let v := (d.core c).sq.getS (i.f 49 45)
      if d.ownSram c ea then
        match d.sramWrite ea (clean (bytesOf n v.toNat)) with
        | (true, d1) =>
          if h : c < 384 then
            (if d.storeStalled c then d.park (.mem (.core ⟨c, h⟩) ea (bytesOf n v.toNat)) else d1).sqNext c
          else d
        | (false, d1) => d1.sqRefuse c 0x0505
      else if d.regReach c ea true then
        if h : c < 384 then
          match d.busWrite (.core ⟨c, h⟩) 0 ea n (BitVec.ofNat 64 (v.toNat % 2 ^ (8 * n))) with
          | (true, d1) => d1.sqNext c
          | (false, d1) => d1.sqRefuse c 0x0505
        else d
      else d.sqRefuse c 0x0504)

/-! ## Accesses of the hosting software (R305, R610, R611) -/

/-- What a read returns. -/
inductive HostRead where
  | value (v : Word)
  | busError
  | poisoned
  /-- The access still waits at a controller: nothing has happened. -/
  | waits
  deriving DecidableEq, Repr

/-- Bytes read by the hosting software. -/
def hostBytes (bs : List PByte) : HostRead := if anyPoison bs then .poisoned else .value (BitVec.ofNat 64 (natOfBytes (plain bs)))

/-- A naturally aligned read of 1, 2, 4 or 8 bytes. -/
def Dev.hostRead (d : Dev) (a n : Nat) : HostRead × Dev :=
  if ¬(n = 1 ∨ n = 2 ∨ n = 4 ∨ n = 8) ∨ a % n ≠ 0 then (.busError, d)
  else if inHub a then (.value (BitVec.ofNat 64 (natOfBytes (d.mem.getAll a n))), d)
  else if inRegion a then
    match d.busRead true a n with
    | (some v, d1) => (.value v, d1)
    | (none, d1) => (.busError, d1)
  else if d.sramCut a then (.busError, d)
  else if (d.sramAt a).isSome then
    match d.sramRead a n with
    | (.ok bs, d1) => (hostBytes bs, d1)
    | (.off, d1) => (.busError, d1)
  else if d.hbmOpen a then
    if d.hbmHeld a then (.waits, d) else let r := d.hbmRead a n []; (hostBytes r.1, r.2)
  else if isSlow a then
    if d.lost 32 then (.waits, d) else
    let r := d.slowRead none a n []
    if r.1.all Option.isSome then (hostBytes (r.1.filterMap id), r.2) else (.busError, d)
  else (.busError, d)

/-- A naturally aligned write of 1, 2, 4 or 8 bytes, by the hosting software or one of its harts. A hart's store to memory waits
behind an earlier one of it that waits, and while its HBM bank is held (R611). -/
def Dev.hostWrite (d : Dev) (ag : Agent) (path a n : Nat) (v : Word) : HostRead × Dev :=
  let bs := clean (bytesOf n v.toNat)
  let late := fun (x : HostRead × Dev) => match x.1 with
    | .busError => x
    | _ => (HostRead.value 0, d.park (.mem ag a (bytesOf n v.toNat)))
  let done := fun (x : Bool × Dev) => ((if x.1 then HostRead.value 0 else .busError), x.2)
  if ¬(n = 1 ∨ n = 2 ∨ n = 4 ∨ n = 8) ∨ a % n ≠ 0 then (.busError, d)
  else if inHub a then (.value 0, { d with mem := d.mem.putAll a (plain bs) })
  else if inRegion a then done (d.busWrite ag path a n v)
  else if d.sramCut a then (.busError, d)
  else if (d.sramAt a).isSome then
    let x := done (d.sramWrite a bs)
    if d.behind ag then late x else x
  else if d.hbmOpen a then
    if d.behind ag || (ag.ordered && d.hbmHeld a) then late (.waits, d)
    else if d.hbmHeld a then (.waits, d) else (.value 0, d.hbmWrite a bs [])
  else (.busError, d)

/-- What an access gives out. -/
def Dev.outRead (d : Dev) (r : HostRead) : Dev :=
  match r with
  | .value v => d.out (.value v.toNat)
  | .busError => d.out .busError
  | .poisoned => d.out .poisoned
  | .waits => d

/-- What a write gives out: only an error. -/
def Dev.outWrite (d : Dev) (r : HostRead) : Dev :=
  match r with
  | .busError => d.out .busError
  | _ => d

/-- CONTROL_CORE_ACCESS by logical hart h (R611); a hart that no control core serves makes none. A read beyond the Hub memory waits
while a store of the hart does (log entry 137). -/
def Dev.controlAccess (d : Dev) (h : Fin 14) (a n : Nat) (write : Bool) (v : Word) : Dev :=
  if (d.hartOf h.val).isNone ∨ d.lost 33 then d
  else if write then let r := d.hostWrite (.hart h) 0 a n v; r.2.outWrite r.1
  else if !inHub a && d.behind (.hart h) then d
  else let r := d.hostRead a n; r.2.outRead r.1

/-- A register write by an agent, as its command gives it, none by a control core while the Hub's clock stands (R560): the hosting software sees a bus error, a core's own ST is a
sequencer instruction, so a core's write here is one that its program may make (R223). -/
def Dev.registerWrite (d : Dev) (ag : Agent) (a n : Nat) (v : Word) : Dev :=
  let go := fun (d : Dev) =>
    let r := d.busWrite ag 0 a n v
    if r.1 then r.2 else r.2.out .busError
  if ag.isHost && d.lost 33 then d
  else match ag with
  | .host => go d
  | .core c => match regAt (a - a % 8) with
    | some r => if d.programMay c r true then go d else d.out .busError
    | none => go d
  | .hart _ => go d

/-! ## Rows that are an access to one named register -/

/-- An access by an agent to a register: the control cores make none while the Hub's clock stands (R560); a program reaches what `programMay` gives it, a block that is stopped or gated takes a
bus error, a register of a partition that the shape does not have acts on nothing; else `act`. -/
def Dev.busDo (d : Dev) (ag : Agent) (r : Reg) (write : Bool) (act : Dev → Dev) : Dev :=
  let may := match ag with
    | .host => true
    | .core c => d.programMay c r write
    | .hart _ => true
  if ag.isHost && d.lost 33 then d
  else if !may then d.out .busError
  else match d.busRefuses ag.isHost r with
    | (true, some (core, i, k)) => (d.gateEvent core i k).out .busError
    | (true, none) => d.out .busError
    | (false, _) => if d.absent r then d else act d

/-- A row that is the write of a value to a register. -/
def Dev.ctrlWrite (d : Dev) (ag : Agent) (r : Reg) (v : Word) : Dev :=
  d.busDo ag r true (fun d => d.regStore ag 0 r (BitVec.allOnes 64) v)

/-- A row that is the read of a register: the value goes out. -/
def Dev.popBy (d : Dev) (ag : Agent) (r : Reg) : Dev :=
  d.busDo ag r false (fun d => let x := d.regRead r; x.2.out (.value x.1.toNat))

/-- RWT_WRITE: a register write that covers a staged field (R50); of a register without one the row says nothing. -/
def Dev.rwtBusWrite (d : Dev) (ag : Agent) (a n : Nat) (v : Word) : Dev :=
  match busPlace a n with
  | none => d.out .busError
  | some (r, m, _) => if accMask [.rwt] r.k &&& m = 0 then d else d.registerWrite ag a n v

/-- BANK_POWER_REQUEST: a write of one REQ field (R301, R307, R314). -/
def Dev.bankPowerRequest (d : Dev) (ag : Agent) (u : SramId) (b : Nat) (req : BitVec 2) : Dev :=
  let r : Reg := match u with
    | .spd c => ⟨.spdPwrReq, [c]⟩
    | .grv g => ⟨.grvPwrReq, [g, b / 32]⟩
  let lo := 2 * (b % 32)
  d.busDo ag r true (fun d =>
    if d.behind ag then d.park (.write ag 0 r.addr (maskOf (lo + 1) lo) (put (lo + 1) lo req.toNat))
    else d.bankRequest (sramKey u) b req.toNat ag.owner)

/-- DMA_ABORT: a write of ABORT; `k` bursts are in flight (R333). Its word covers the RWT field EN, so it stalls with the writes
of R50. -/
def Dev.dmaAbortWrite (d : Dev) (ag : Agent) (g ch k : Nat) : Dev :=
  let r : Reg := ⟨.dmaChCtrl, [g, ch]⟩
  d.busDo ag r true (fun d =>
    if d.behind ag || d.stalling then d.park (.write ag 0 r.addr (maskOf 1 1) (maskOf 1 1)) else d.dmaAbort g ch k)

/-- CVU_ABORT: a write of ABORT; the unit has processed `steps` steps of the feed (R517). -/
def Dev.cvuAbortWrite (d : Dev) (ag : Agent) (n steps : Nat) : Dev :=
  let r := cvuReg n .cvuCtrl .pcvuCtrl
  d.busDo ag r true (fun d =>
    if d.behind ag then d.park (.write ag 0 r.addr (maskOf 1 1) (maskOf 1 1)) else d.cvuAbort n steps)

/-- HALT (R221): when it was the last running core of its partition, the program has ended (R494). -/
def Dev.haltCore (d : Dev) (c : Nat) (i : IWord) : Dev :=
  let d1 := d.ctlHalt c i
  if (d.core c).sq.st ≠ .done ∧ (d1.core c).sq.st = .done then d1.programEnd (d.corePart c) else d1

/-! ## HBM and slow-tier transfers as rows of their own -/

/-- HBM_READ and HBM_GATHER: n bytes of one sector (64, or a granule of 32), delivered or poisoned (R353, R354, R358). A sector
that is not there, or whose bank is held (R357, R360), delivers nothing. -/
def Dev.hbmReadRow (d : Dev) (a n : Nat) (err : ReadErr) : Dev :=
  if d.hbmOpen a && decide (a % n = 0) && !d.hbmHeld a then
    let r := d.hbmRead a n [(0, err)]
    if anyPoison r.1 then r.2.out .poisoned else r.2.out (.bytes (plain r.1))
  else d

/-- HBM_WRITE: bytes within one sector (R355). -/
def Dev.hbmWriteRow (d : Dev) (a : Nat) (bs : List PByte) (err : ReadErr) : Dev :=
  if d.hbmOpen a && decide (0 < bs.length) && decide (a % 64 + bs.length ≤ 64) && !d.hbmHeld a then d.hbmWrite a bs [(0, err)] else d

/-- HBM_REFRESH (R349): a refresh keeps what the bank holds; its rate is timing. -/
def Dev.hbmRefresh (d : Dev) : Dev := d

/-- SLOW_WINDOW_ACCESS (R380): a read of n bytes, or a write of data, by an agent of partition `who` (none: the hosting
software); bytes that are unmapped for the agent give a bus error. -/
def Dev.slowAccess (d : Dev) (who : Option Nat) (a n : Nat) (data : Option (List Byte)) (es : ReadErrs) : Dev :=
  if d.lost 32 then d
  else match data with
  | some bs => let r := d.slowWrite who a bs; if r.1 then r.2 else r.2.out .busError
  | none =>
    let r := d.slowRead who a n es
    if r.1.all Option.isSome then
      let bs := r.1.filterMap id
      if anyPoison bs then r.2.out .poisoned else r.2.out (.bytes (plain bs))
    else r.2.out .busError

/-- NEA_IMPORT to NEA_RELEASE: a write of one command bit of NEA_CTX_CTRL that leaves its fields (R406). -/
def Dev.ctxCommand (d : Dev) (c b : Nat) : Dev :=
  d.ctrlWrite .host ⟨.neaCtxCtrl, [c]⟩ ((d.ctxCtrl c &&& 0xF) ||| BitVec.ofNat 64 (2 ^ b))

end Sys2Proof.Machine
end

