-- ==== Sys2Proof/Machine/Net.lean ====
section
/-! DEFINITION. Packets that reach this device: link acceptance, routing, and the unit that each type names (R417 to R427,
R434). -/
namespace Sys2Proof.Machine

/-- A packet for this device is handed to its unit (R424). What the manual gives no unit of this device for is delivered as
it is: MIRROR, management, control and barrier packets. `es`: errors of the HBM sectors that a request reads. -/
def Dev.deliver (d : Dev) (x : QPkt) (es : ReadErrs) : Dev :=
  let k := x.pkt
  match k.type with
  | 0x01 => (d.originFree x).remoteRequest x.port k es
  | 0x02 => (d.originFree x).remoteRequest x.port k es
  | 0x03 => (d.originFree x).readData k
  | 0x04 => (d.originFree x).writeAck k
  | 0x05 => if k.vc % 4 = 1 then (d.originFree x).redNak k else (d.originFree x).dmaNak k
  | 0x10 => d.redReceive x none
  | 0x11 => d.redReceive x none
  | _ => (d.originFree x).out (.delivered k)

/-- Packets in their turn, in order (R419). -/
def Dev.takeAll (d : Dev) (l : Nat) (us : List SeqPkt) (es : ReadErrs) : Dev :=
  us.foldl (fun (d : Dev) u =>
    let r := d.takePacket l u
    match r.1 with
    | some x => r.2.deliver x es
    | none => r.2) d

/-- PACKET_RECEIVE on port q: link sequence number, packet, corrected codewords (R419, R449). A port's own messages are
checked as any packet; a port that carries no link takes nothing else (R421, R434). -/
def Dev.packetReceive (d : Dev) (q seq : Nat) (p : Packet) (es : ReadErrs) (corr : Nat) : Dev :=
  let d1 := if corr = 0 ∨ !d.portRuns q then d else d.count ⟨.dvoPortErr, [q]⟩ 31 0 corr
  if p.portOwn then
    if d.portRuns q ∧ p.violation ≠ 0 ∧ ((d.port q).st = .up ∨ (d.port q).st = .standby) then d1.violate q p.violation else d1
  else
    match d.carrying q with
    | none => d1
    | some l =>
      let r := d1.linkAccept q l seq p
      r.2.takeAll l r.1 es

/-- A packet for this device passes through its tile mesh: the next of a VC (R425, R427). -/
def Dev.meshTransmit (d : Dev) (vc : Nat) (es : ReadErrs) : Dev :=
  let q := (d.link 24).txq
  match q.findIdx? (fun x => decide (x.pkt.vc % 4 = vc)) with
  | none => d
  | some i =>
    match q[i]? with
    | none => d
    | some x => (d.onLink 24 (fun k => { k with txq := k.txq.eraseIdx i })).deliver x es

end Sys2Proof.Machine
end

