-- ==== Sys2Proof/Machine/State.lean ====
section
/-! DEFINITION. The machine: the queue of commands and the device; the outcomes that are no next state; reset. -/
namespace Sys2Proof.Machine

/-- The machine's state: plain data. -/
structure State where
  /-- Commands that wait, first in first out (the block's queue). -/
  pending : List Instr
  /-- The device. -/
  dev : Dev
  deriving DecidableEq, Repr

/-- Faults. The manual gives every command an effect, an event or a wait, so no meaning ends in one: the type has no
constructor. -/
inductive Fault where
  deriving DecidableEq, Repr

/-- Refusals. -/
inductive Refusal where
  /-- The command has no meaning in the model. Raised by arms of `exec` only; no arm raises it now. Safe. -/
  | notModelled (mnemonic : String)
  deriving DecidableEq, Repr

/-- Device reset: RESET_N low, VIN good, the start-up at stage RESET, every register at its reset value, every memory
reading zero, nothing queued (R581, R582; log entries 1, 3, 4). -/
def State.reset : State := { pending := [], dev := {} }

end Sys2Proof.Machine
end

