-- ==== Sys2Proof/Machine/Ops.lean ====
section
/-! DEFINITION. How a command acts: what holds the device still, what runs with which clock, what the model's own output
record does. -/
namespace Sys2Proof.Machine

/-- The device acts: powered, out of reset, with its reference clock (R558, R581, R634). -/
def Dev.live (d : Dev) : Bool := d.vin && d.resetN && !d.stopped

/-- The output record of the last command is emptied before a command acts. -/
def Dev.silent (d : Dev) : Dev := { d with outs := [] }

/-- A command acts on the device: the queue is not its concern. -/
def State.with_ (s : State) (d : Dev) : State := { s with dev := d }

/-- The levels of the input pins RESET_N and VIN are the board's: what a command does leaves them as `p` has them. Only the
rows of the pins themselves change them (R581, R634, R635). -/
def Dev.withPins (d p : Dev) : Dev := { d with resetN := p.resetN, vin := p.vin }

/-- A command of a device that acts; while it does not, the command has no effect. -/
def run (s : State) (f : Dev → Dev) : Host.Outcome State Fault Refusal :=
  .next (s.with_ (if s.dev.live then (f s.dev.silent).withPins s.dev else s.dev.silent))

/-- A command after which the prunes that it reported act, as they do in the next clk (R535). -/
def runF (s : State) (f : Dev → Dev) : Host.Outcome State Fault Refusal := run s (fun d => (f d).settle)

/-- A command of a core: its tile's core clock must run (R560, R573). -/
def coreRun (s : State) (c : Nat) (f : Dev → Dev) : Host.Outcome State Fault Refusal :=
  run s (fun d => if d.tileOn (tileOf c) then f d else d)

/-- A command of a core that may report faults. -/
def coreRunF (s : State) (c : Nat) (f : Dev → Dev) : Host.Outcome State Fault Refusal :=
  coreRun s c (fun d => (f d).settle)

/-- A command of a cluster's logic in the core clock. -/
def clusterRunF (s : State) (g : Nat) (f : Dev → Dev) : Host.Outcome State Fault Refusal :=
  runF s (fun d => if d.tileOn (g / 4) then f d else d)

/-- Reset and power inputs act always. -/
def runAlways (s : State) (f : Dev → Dev) : Host.Outcome State Fault Refusal := .next (s.with_ (f s.dev.silent))

/-- The JTAG port acts while the device is powered. -/
def runVin (s : State) (f : Dev → Dev) : Host.Outcome State Fault Refusal :=
  .next (s.with_ (if s.dev.vin then (f s.dev.silent).withPins s.dev else s.dev.silent))

/-! ## Operands -/

/-- Is a block of clock enables a core's? -/
def clkIsCore : ClkUnit → Bool
  | .core _ => true
  | .cluster _ => false

/-- Its number. -/
def clkNum : ClkUnit → Nat
  | .core c => c.val
  | .cluster g => g.val

/-- A check-value unit's number: 2g + u, or 32 + q. -/
def cvuNum : CvuId → Nat
  | .cluster g u => 2 * g.val + u.val
  | .port q => 32 + q.val

end Sys2Proof.Machine
end

