-- ==== Sys2Proof/Machine/ExecDarvo.lean ====
section
/-! DEFINITION. Meanings of the rows of ports, links and packets (13). -/
namespace Sys2Proof.Machine

/-- PORT_SIGNAL_DETECT (R421). -/
def execPortSignalDetect (q : PortId) (s : State) : Host.Outcome State Fault Refusal :=
  runF s (fun d => d.portSignal q.val)

/-- PORT_TRAIN_DONE (R421). -/
def execPortTrainDone (q : PortId) (s : State) : Host.Outcome State Fault Refusal :=
  runF s (fun d => d.portTrained q.val)

/-- PORT_TRAIN_TIMEOUT (R421). -/
def execPortTrainTimeout (q : PortId) (s : State) : Host.Outcome State Fault Refusal :=
  runF s (fun d => d.portTrainTimeout q.val)

/-- PORT_ALIGN_DONE (R421). -/
def execPortAlignDone (q : PortId) (s : State) : Host.Outcome State Fault Refusal :=
  runF s (fun d => d.portAligned q.val)

/-- IDENT_RECEIVE (R421). -/
def execIdentReceive (q : PortId) (id : Ident) (s : State) : Host.Outcome State Fault Refusal :=
  runF s (fun d => d.identReceive q.val id)

/-- CREDIT_EXCHANGE (R431). -/
def execCreditExchange (q : PortId) (caps : List Nat) (s : State) : Host.Outcome State Fault Refusal :=
  runF s (fun d => d.creditExchange q.val caps)

/-- PORT_LOSS_OF_LOCK (R421). -/
def execPortLossOfLock (q : PortId) (s : State) : Host.Outcome State Fault Refusal :=
  runF s (fun d => d.portLoss q.val)

/-- PORT_RETRAIN_DONE (R421). -/
def execPortRetrainDone (q : PortId) (s : State) : Host.Outcome State Fault Refusal :=
  runF s (fun d => d.portRetrained q.val)

/-- PORT_RETRAIN_TIMEOUT (R421). -/
def execPortRetrainTimeout (q : PortId) (s : State) : Host.Outcome State Fault Refusal :=
  runF s (fun d => d.portRetrainTimeout q.val)

/-- DVO_RETRAIN (R447). -/
def execDvoRetrain (q : PortId) (s : State) : Host.Outcome State Fault Refusal :=
  runF s (fun d => d.ctrlWrite .host ⟨.dvoPortCtrl, [q.val]⟩ 1)

/-- DVO_RELEASE (R435). -/
def execDvoRelease (q : PortId) (s : State) : Host.Outcome State Fault Refusal :=
  runF s (fun d => d.ctrlWrite .host ⟨.dvoPortCtrl, [q.val]⟩ 2)

/-- DVO_FORCE_DOWN (R447). -/
def execDvoForceDown (q : PortId) (s : State) : Host.Outcome State Fault Refusal :=
  runF s (fun d => d.ctrlWrite .host ⟨.dvoPortCtrl, [q.val]⟩ 4)

/-- PACKET_TRANSMIT (R431). -/
def execPacketTransmit (q : Option PortId) (vc : Fin 4) (es : ReadErrs) (s : State) : Host.Outcome State Fault Refusal :=
  runF s (fun d => match q with
    | some q => d.packetTransmit q.val vc.val
    | none => d.meshTransmit vc.val es)

/-- PACKET_RECEIVE (R427). -/
def execPacketReceive (q : PortId) (seq : Nat) (pkt : Machine.Packet) (es : ReadErrs) (corr : Nat) (s : State) : Host.Outcome State Fault Refusal :=
  runF s (fun d => d.packetReceive q.val seq pkt es corr)

/-- LINK_ACK_SEND (R419). -/
def execLinkAckSend (l : Fin 24) (s : State) : Host.Outcome State Fault Refusal :=
  runF s (fun d => d.ackSend l.val)

/-- LINK_ACK_RECEIVE (R419). -/
def execLinkAckReceive (q : PortId) (seq : Nat) (s : State) : Host.Outcome State Fault Refusal :=
  runF s (fun d => d.ackReceive q.val seq)

/-- FEC_UNCORRECTABLE (R419). -/
def execFecUncorrectable (q : PortId) (s : State) : Host.Outcome State Fault Refusal :=
  runF s (fun d => d.fecUncorr q.val)

/-- LINK_NAK_RECEIVE (R419). -/
def execLinkNakReceive (q : PortId) (seq : Nat) (s : State) : Host.Outcome State Fault Refusal :=
  runF s (fun d => d.nakReceive q.val seq)

/-- CREDIT_RETURN_RECEIVE (R431). -/
def execCreditReturnReceive (q : PortId) (vc : Fin 4) (dl : Bool) (n : Nat) (s : State) : Host.Outcome State Fault Refusal :=
  runF s (fun d => d.creditReturn q.val vc.val dl n)

/-- RECOUNT_RECEIVE (R432). -/
def execRecountReceive (q : PortId) (freed : List Nat) (caps : List Nat) (s : State) : Host.Outcome State Fault Refusal :=
  runF s (fun d => d.recountReceive q.val freed caps)

/-- DVO_ROUTER_FAIL (R437). -/
def execDvoRouterFail (t : TileId) (col : Fin 9) (r : Fin 8) (stops : List (MeshStop × Fin 8 × Fin 8)) (s : State) : Host.Outcome State Fault Refusal :=
  runF s (fun d => d.routerFail t.val col.val r.val stops)

end Sys2Proof.Machine
end

