-- ==== Sys2Proof/Machine/ExecDma.lean ====
section
/-! DEFINITION. Meanings of the rows of the DMA engines (10). -/
namespace Sys2Proof.Machine

/-- DMA_BATCH_START (R329). -/
def execDmaBatchStart (g : ClusterId) (s : State) : Host.Outcome State Fault Refusal :=
  clusterRunF s g.val (fun d => d.dmaBatchStart g.val)

/-- DMA_BURST_RETURN (R330). -/
def execDmaBurstReturn (g : ClusterId) (es : ReadErrs) (s : State) : Host.Outcome State Fault Refusal :=
  clusterRunF s g.val (fun d => d.dmaBurst g.val es)

/-- DMA_DESCRIPTOR_END (R331). -/
def execDmaDescriptorEnd (g : ClusterId) (s : State) : Host.Outcome State Fault Refusal :=
  clusterRunF s g.val (fun d => d.dmaEnd g.val)

/-- DMA_ABORT (R333). -/
def execDmaAbort (ag : Agent) (g : ClusterId) (ch : Fin 16) (k : Nat) (s : State) : Host.Outcome State Fault Refusal :=
  runF s (fun d => d.dmaAbortWrite ag g.val ch.val k)

/-- DMA_ABORT_COMPLETE (R333). -/
def execDmaAbortComplete (g : ClusterId) (ch : Fin 16) (s : State) : Host.Outcome State Fault Refusal :=
  clusterRunF s g.val (fun d => d.dmaAbortComplete g.val ch.val)

/-- REMOTE_REQUEST (R336). -/
def execRemoteRequest (q : Option PortId) (pkt : Machine.Packet) (es : ReadErrs) (s : State) : Host.Outcome State Fault Refusal :=
  runF s (fun d => d.remoteRequest (q.map Fin.val) pkt es)

/-- READ_DATA_RECEIVE (R330). -/
def execReadDataReceive (pkt : Machine.Packet) (s : State) : Host.Outcome State Fault Refusal :=
  runF s (fun d => d.readData pkt)

/-- WRITE_ACK_RECEIVE (R332). -/
def execWriteAckReceive (pkt : Machine.Packet) (s : State) : Host.Outcome State Fault Refusal :=
  runF s (fun d => d.writeAck pkt)

/-- NAK_RECEIVE (R434). -/
def execNakReceive (pkt : Machine.Packet) (s : State) : Host.Outcome State Fault Refusal :=
  runF s (fun d => if pkt.vc % 4 = 1 then d.redNak pkt else d.dmaNak pkt)

/-- DMA_INWIN_ENABLE (R348). -/
def execDmaInwinEnable (ag : Agent) (p : PartId) (w : Fin 64) (cfg : Word) (s : State) : Host.Outcome State Fault Refusal :=
  runF s (fun d => d.ctrlWrite ag ⟨.dmaInwinCfg, [p.val, w.val]⟩ (cfg ||| 0x100000))

end Sys2Proof.Machine
end

