-- ==== Sys2Proof/Machine/ExecFetch.lean ====
section
/-! DEFINITION. Meanings of the rows of the fetch engine (10, R272 to R280). -/
namespace Sys2Proof.Machine

/-- FTE_COPY (R273). -/
def execFteCopy (c : CoreId) (i : IWord) (ph : Phase) (s : State) : Host.Outcome State Fault Refusal :=
  coreRunF s c.val (fun d => d.fteCopy c.val i ph)

/-- FTE_GATHER (R275). -/
def execFteGather (c : CoreId) (i : IWord) (ph : Phase) (s : State) : Host.Outcome State Fault Refusal :=
  coreRunF s c.val (fun d => d.fteGather c.val i ph)

/-- FTE_ZERO (R276). -/
def execFteZero (c : CoreId) (i : IWord) (ph : Phase) (s : State) : Host.Outcome State Fault Refusal :=
  coreRunF s c.val (fun d => d.fteZero c.val i ph)

/-- FTE_CANCEL (R277). -/
def execFteCancel (c : CoreId) (i : IWord) (s : State) : Host.Outcome State Fault Refusal :=
  coreRunF s c.val (fun d => d.fteCancel c.val i)

/-- FTE_REQUEST_RETURN (R317). -/
def execFteRequestReturn (c : CoreId) (k : Nat) (es : ReadErrs) (s : State) : Host.Outcome State Fault Refusal :=
  coreRunF s c.val (fun d => d.fteReturn c.val k es)

/-- FTE_RESUME (R338). -/
def execFteResume (ag : Agent) (c : CoreId) (s : State) : Host.Outcome State Fault Refusal :=
  runF s (fun d => d.ctrlWrite ag ⟨.fteCtrl, [c.val]⟩ 1)

/-- FTE_FLUSH (R338). -/
def execFteFlush (ag : Agent) (c : CoreId) (s : State) : Host.Outcome State Fault Refusal :=
  runF s (fun d => d.ctrlWrite ag ⟨.fteCtrl, [c.val]⟩ 2)

end Sys2Proof.Machine
end

