-- ==== Sys2Proof/Machine/ExecHbm.lean ====
section
/-! DEFINITION. Meanings of the rows of the HBM memory system (11). -/
namespace Sys2Proof.Machine

/-- HBM_READ (R353). -/
def execHbmRead (a : Nat) (err : ReadErr) (s : State) : Host.Outcome State Fault Refusal :=
  runF s (fun d => d.hbmReadRow a 64 err)

/-- HBM_WRITE (R355). -/
def execHbmWrite (a : Nat) (bs : List (BitVec 8)) (poison : Bool) (err : ReadErr) (s : State) : Host.Outcome State Fault Refusal :=
  runF s (fun d => d.hbmWriteRow a (withPoison poison bs) err)

/-- HBM_GATHER (R358). -/
def execHbmGather (a : Nat) (err : ReadErr) (s : State) : Host.Outcome State Fault Refusal :=
  runF s (fun d => d.hbmReadRow a 32 err)

/-- HBM_PATROL_SCRUB (R356). -/
def execHbmPatrolScrub (t : TileId) (q : Fin 96) (err : ReadErr) (s : State) : Host.Outcome State Fault Refusal :=
  runF s (fun d => d.hbmScrub t.val q.val err)

/-- HBM_TEMP_SAMPLE (R357). -/
def execHbmTempSample (t : TileId) (k : Fin 3) (temp : Int) (s : State) : Host.Outcome State Fault Refusal :=
  runF s (fun d => d.hbmTemp t.val k.val temp)

/-- HBM_REFRESH (R349). -/
def execHbmRefresh (s : State) : Host.Outcome State Fault Refusal :=
  run s (fun d => d.hbmRefresh)

/-- HBM_CA_PARITY_ERROR (R364). -/
def execHbmCaParityError (t : TileId) (q : Fin 96) (s : State) : Host.Outcome State Fault Refusal :=
  runF s (fun d => d.hbmParity t.val q.val)

/-- HBM_REMEDY_DONE (R360). -/
def execHbmRemedyDone (t : TileId) (es : ReadErrs) (s : State) : Host.Outcome State Fault Refusal :=
  runF s (fun d => d.hbmRemedyDone t.val es)

/-- HBM_RETRAIN_DONE (R364). -/
def execHbmRetrainDone (t : TileId) (ch : Fin 48) (ok : Bool) (s : State) : Host.Outcome State Fault Refusal :=
  runF s (fun d => d.hbmRetrainDone t.val ch.val ok)

end Sys2Proof.Machine
end

