-- ==== Sys2Proof/Machine/Debug.lean ====
section
/-! DEFINITION. Debug access over JTAG and the management port, service frames (R590, R599 to R601, R622). -/
namespace Sys2Proof.Machine

/-- A debug path (R599, R622). -/
inductive DbgPath where
  | jtag | mgt
  deriving DecidableEq, Repr

/-- The number of a path as SEC_CTRL.SUBMIT and M7 record it. -/
def DbgPath.code : DbgPath → Nat
  | .jtag => 1
  | .mgt => 2

/-! ## Reach (R600) -/

/-- Set S: SEC_STATE, SEC_BOOT, SEC_NONCE, the token buffer and SUBMIT, attestation requests (with the nonce and the report that
they go by). A draw of a nonce is not in it. -/
def inStatus (k : RK) (write : Bool) (w : Word) : Bool :=
  match k with
  | .secState | .secBoot | .secNonce | .secReport => !write
  | .secTokenBuf | .secNonceIn => true
  | .secCtrl => write && decide (w &&& ~~~(5 : Word) = 0)
  | _ => false

/-- The tile whose registers a register belongs to, or that of its cluster, for set Tp. -/
def Reg.tile (r : Reg) : Option Nat :=
  match r.block with
  | .core c _ => some (tileOf c)
  | .cluster g _ => some (g / 4)
  | .enable core i => some (if core then tileOf i else i / 4)
  | .tile t => some t
  | .hub => match r.k with
    | .pwrTile | .pwrTemp | .clkPll | .dvoMesh => some (r.i 0)
    | _ => none

/-- The partition whose set Tp a register is in: that of its tile, or of its Neano context window. -/
def Dev.regPart (d : Dev) (r : Reg) : Option Nat :=
  match r.tile with
  | some t => some (d.tilePart t)
  | none =>
    match r.k with
    | .neaCtxCtrl | .neaCtxStatus | .neaCtxRing | .neaCtxCommit | .neaCtxPeriod | .neaCtxArea | .neaCtxSeed | .neaCtxFb
    | .neaCtxImportRing | .neaCtxMirror | .neaGrpCfg | .neaGrpHyp1 | .neaGrpHyp2 | .neaGrpHyp3 | .neaGrpStat | .neaKernel =>
      d.ctxPart (r.i 0)
    | _ => none

/-- PERMS of partition p's grant: bit 0 READ, 1 WRITE, 2 HALT; 0 without a grant (R597, R598). -/
def Dev.perms (d : Dev) (p : Nat) : Nat :=
  match FMap.find? d.sec.grants p with
  | some g => g.perms
  | none => 0

/-- Set Tp of a granted partition, within PERMS. -/
def Dev.inTenant (d : Dev) (a : Nat) (write : Bool) : Bool :=
  let may := fun (p : Nat) (halt : Bool) => (d.perms p).testBit (if halt then 2 else if write then 1 else 0)
  if inRegion a then
    match regAt (a - a % 8) with
    | some r => match d.regPart r with
      | some p => may p (write && decide (r.k = .sqCtrl))
      | none => false
    | none => false
  else match d.addrPart a with
    | some p => may p false
    | none => false

/-- Is an access within the reach of a path (R600)? The states 0, 3 and 4 reach everything. -/
def Dev.reach (d : Dev) (path : DbgPath) (a : Nat) (write : Bool) (w : Word) : Bool :=
  let s := d.secState
  if s = 0 ∨ s = 3 ∨ s = 4 then true
  else
    (inRegion a && (match regAt (a - a % 8) with
      | some r => inStatus r.k write w
      | none => false)) ||
    (decide (path = .mgt) && decide (s = 2) && d.inTenant a write)

/-- Outcome of a debug access: outside the reach, or what the bus or memory answers. -/
inductive DbgRead where
  | denied
  | done (r : HostRead)
  deriving DecidableEq, Repr

/-- A debug access of eight bytes. One outside the reach has no effect and returns zero (R600). -/
def Dev.dbgAccess (d : Dev) (path : DbgPath) (a : Nat) (write : Bool) (w : Word) : DbgRead × Dev :=
  if !d.reach path a write w then (.denied, d.denied)
  else if write then let r := d.hostWrite .host path.code a 8 w; (.done r.1, r.2)
  else let r := d.hostRead a 8; (.done r.1, r.2)

/-! ## JTAG (R599) -/

/-- BYPASS, IDCODE, SAMPLE/PRELOAD. -/
def Dev.jtagSet (d : Dev) (i : JtagIr) : Dev := d.onSec (fun x => { x with ir := i })

/-- IDCODE gives out 0x1481_2777. -/
def Dev.jtagIdcode (d : Dev) : Dev := (d.jtagSet .idcode).out (.value 0x14812777)

/-- The levels at the lands of the chain (R599, R632), in the order RESET_N, READY, ALERT_N, THERMTRIP_N, the twelve of xSPI, the
five of JTAG, STRAP0, STRAP1 (log entry 151). What stands at xSPI and JTAG is free; the straps are tied to GND. Under EXTEST the
output lands stand as the cells say. -/
def Dev.pins (d : Dev) : List Nat :=
  let own := [d.resetN, d.pinReady, !d.pinAlert, !d.pinThermtrip] ++
    (upTo 17).map (fun i => (Config.freeWord d.fresh).getLsbD i) ++ [false, false]
  let driven := fun (i : Nat) => decide (d.sec.ir = .extest) && [1, 2, 3, 4, 5, 7].contains i
  (own.zip (upTo 23)).map (fun x => if (if driven x.2 then d.sec.cells.testBit x.2 else x.1) then 1 else 0)

/-- SAMPLE/PRELOAD captures the pins of the chain and loads its cells. What is shifted in is the sender's, and the row does not
carry it: the cells are free (log entry 151). -/
def Dev.jtagSample (d : Dev) : Dev :=
  let d1 := d.jtagSet .sample
  (d1.tick.onSec (fun x => { x with cells := fld 63 41 (Config.freeWord d.fresh) })).out (.sent 0x1149 d1.pins)

/-- EXTEST is accepted only in MANUFACTURE and RMA with every tile in P3; otherwise it acts as BYPASS. A device held in
reset records no event (R581; log entry 60). The pins of the chain are given out as they then stand. -/
def Dev.jtagExtest (d : Dev) (live : Bool) : Dev :=
  if (d.fuses.state = 0 ∨ d.fuses.state = 4) ∧ (upTo 4).all (fun t => decide ((d.ptile t).st = .off)) then
    let d1 := d.jtagSet .extest
    d1.tick.out (.sent 0x1149 d1.pins)
  else if live then (d.jtagSet .bypass).denied else d.jtagSet .bypass

/-- DBG_ACCESS: the instruction, and an access through its 64-bit window where the bus runs. -/
def Dev.jtagAccess (d : Dev) (live : Bool) (a : Nat) (write : Bool) (w : Word) : Dev :=
  let d0 := d.jtagSet .dbgAccess
  if !live then d0
  else match d0.dbgAccess .jtag a write w with
    | (.denied, d1) => d1.out (.value 0)
    | (.done r, d1) => if write then d1.outWrite r else d1.outRead r

/-- Bytes put into the token buffer at an offset (R597). -/
def Dev.tokenPut (d : Dev) (off : Nat) (ws : List Word) : Dev :=
  ((upTo ws.length).zip ws).foldl (fun (d : Dev) x => d.setReg ⟨.secTokenBuf, [off / 8 + x.1]⟩ x.2) d

/-- DBG_TOKEN: the instruction, and a word of the token buffer. -/
def Dev.jtagToken (d : Dev) (live : Bool) (k : Nat) (w : Word) : Dev :=
  let d0 := d.jtagSet .dbgToken
  if live && decide (k < 1024) then d0.tokenPut (8 * k) [w] else d0

/-! ## Service frames (R622) -/

/-- The reply to a frame: OP with bit 7, STATUS, SEQ, data. -/
def Dev.svcReply (d : Dev) (op status seq : Nat) (data : List Nat) : Dev :=
  let r := (128 + op) :: status :: seq :: data
  ({ d with session := d.session.map (fun s => { s with seq := some seq, reply := r }) } : Dev).out (.sent 0x88B5 r)

/-- A reply that no session keeps. -/
def Dev.svcRefuse (d : Dev) (op seq : Nat) : Dev := d.out (.sent 0x88B5 [128 + op, 1, seq])

/-- A frame of an operation other than OPEN: from the session's sender only; one that repeats the last SEQ is answered again. -/
def Dev.svcFrame (d : Dev) (op : Nat) (f : SvcFrame) (act : Dev → Dev) : Dev :=
  if !d.mgtRuns then d
  else match d.session with
    | none => d.svcRefuse op f.seq
    | some s =>
      if s.mac ≠ f.mac then d.svcRefuse op f.seq
      else if s.seq = some f.seq then d.out (.sent 0x88B5 s.reply)
      else act d

/-- OPEN begins a session; one is open at a time. -/
def Dev.svcOpen (d : Dev) (f : SvcFrame) : Dev :=
  if !d.mgtRuns then d
  else match d.session with
    | none => ({ d with session := some { mac := f.mac } } : Dev).svcReply 4 0 f.seq []
    | some _ => d.svcFrame 4 f (fun d => d.svcReply 4 0 f.seq [])

/-- CLOSE ends the session. -/
def Dev.svcClose (d : Dev) (f : SvcFrame) : Dev :=
  d.svcFrame 5 f (fun d => ({ d.svcReply 5 0 f.seq [] with session := none } : Dev))

/-- A frame of n words at a reads or writes an HBM bank that is held (R357, R360, R364), or reads the slow tier while Neano's clock
stands (R560): it waits at the controller, and nothing of it has happened. -/
def Dev.svcHeld (d : Dev) (a n : Nat) (write : Bool) : Bool :=
  (upTo n).any (fun i => d.reach .mgt (a + 8 * i) write 0 && d.memHeld (a + 8 * i) &&
    (if isSlow (a + 8 * i) then !write else d.hbmOpen (a + 8 * i)))

/-- The words from a: the status at the first that fails, and the words read (R600, R622). -/
def Dev.svcReads (d : Dev) (a : Nat) : (n : Nat) → Nat × List Nat × Dev
  | 0 => (0, [], d)
  | n + 1 =>
    match d.dbgAccess .mgt a false 0 with
    | (.denied, d1) => (1, [], d1)
    | (.done (.value v), d1) =>
      let r := d1.svcReads (a + 8) n
      (r.1, v.toNat :: r.2.1, r.2.2)
    | (.done .waits, d1) | (.done .busError, d1) | (.done .poisoned, d1) => (2, [], d1)

/-- READ of LEN words. -/
def Dev.svcRead (d : Dev) (f : SvcFrame) : Dev :=
  d.svcFrame 1 f (fun d =>
    if f.len = 0 ∨ 1024 < f.len ∨ f.addr % 8 ≠ 0 then d.svcReply 1 3 f.seq []
    else if d.svcHeld f.addr f.len false then d
    else
      let r := d.svcReads f.addr f.len
      r.2.2.svcReply 1 r.1 f.seq (if r.1 = 0 then r.2.1 else []))

/-- Words written from a, up to the first that fails. -/
def Dev.svcWrites (d : Dev) (a : Nat) : List Word → Nat × Dev
  | [] => (0, d)
  | w :: ws =>
    match d.dbgAccess .mgt a true w with
    | (.denied, d1) => (1, d1)
    | (.done (.value _), d1) => d1.svcWrites (a + 8) ws
    | (.done .waits, d1) | (.done .busError, d1) | (.done .poisoned, d1) => (2, d1)

/-- LEN of a frame with data: malformed unless it names 1 to 1,024 words and they are there. -/
def svcOk (f : SvcFrame) : Bool := decide (0 < f.len) && decide (f.len ≤ 1024) && decide (f.data.length = f.len)

/-- WRITE of LEN words. A write of SEC_CTRL.RESET ends the session before its reply is kept. -/
def Dev.svcWrite (d : Dev) (f : SvcFrame) : Dev :=
  d.svcFrame 2 f (fun d =>
    if !svcOk f ∨ f.addr % 8 ≠ 0 then d.svcReply 2 3 f.seq []
    else if d.svcHeld f.addr f.len true then d
    else
      let r := d.svcWrites f.addr f.data
      r.2.svcReply 2 r.1 f.seq [])

/-- TOKEN writes the token buffer at an offset. -/
def Dev.svcToken (d : Dev) (f : SvcFrame) : Dev :=
  d.svcFrame 3 f (fun d =>
    if !svcOk f ∨ f.addr % 8 ≠ 0 ∨ 8192 < f.addr + 8 * f.len then d.svcReply 3 3 f.seq []
    else (d.tokenPut f.addr f.data).svcReply 3 0 f.seq [])

/-- RECOVERY: accepted only while start-up is stopped at stage 1; it writes the Hub memory from its base. After the frame with
flag bit 0, the ROM verifies the manifest and images that the transfer brought (R587): on success they go to flash slot B and the
device is reset, on failure SEC_FW_REJECTED is raised and the port keeps listening. `m` is what the transfer spells; bytes that
spell anything else are rejected (log entry 149). -/
def Dev.svcRecovery (d : Dev) (f : SvcFrame) (m : Manifest) : Dev :=
  d.svcFrame 6 f (fun d =>
    if ¬(d.sec.stage = 1 ∧ d.sec.halted) then d.svcReply 6 1 f.seq []
    else if !svcOk f then d.svcReply 6 3 f.seq []
    else
      let at_ := match d.session with
        | some s => s.rec_
        | none => 0
      let step := fun (mm : Mem) (x : Nat × Byte) => mm.put (hubAt (at_ + x.1)) x.2
      let bs := f.data.flatMap (fun w => bytesOf 8 w.toNat)
      let d1 : Dev := { d with
        mem := ((upTo bs.length).zip bs).foldl step d.mem
        session := d.session.map (fun s => { s with rec_ := if f.flag then 0 else at_ + bs.length }) }
      let d2 := d1.svcReply 6 0 f.seq []
      if !f.flag then d2
      else
        if decide (Config.parseManifest (d1.mem.getAll hubBase (at_ + bs.length)) = some m) && d2.slotOk m &&
            (d2.readImages m true [(1, 2), (2, 3), (3, 4)]).1 then ({ d2 with flashB := some m } : Dev).bootStart
        else d2.raise 0x1202 none 1)

/-- MGT_SESSION_TIMEOUT: 10 s without a frame. -/
def Dev.svcTimeout (d : Dev) : Dev := { d with session := none }

end Sys2Proof.Machine
end

