-- ==== Sys2Proof/Machine/ExecHub.lean ====
section
/-! DEFINITION. Meanings of the rows of events, mailboxes, control cores and the management port (17, 20). -/
namespace Sys2Proof.Machine

/-- EVENT_RECORD_WRITE (R613). -/
def execEventRecordWrite (n : Nat) (s : State) : Host.Outcome State Fault Refusal :=
  runF s (fun d => d.recordsWrite n)

/-- MBOX_UP_PUSH (R616). -/
def execMboxUpPush (ag : Agent) (p : PartId) (v : Word) (s : State) : Host.Outcome State Fault Refusal :=
  runF s (fun d => d.ctrlWrite ag ⟨.hubMboxUpPush, [p.val]⟩ v)

/-- MBOX_UP_POP (R616). -/
def execMboxUpPop (ag : Agent) (p : PartId) (s : State) : Host.Outcome State Fault Refusal :=
  runF s (fun d => d.popBy ag ⟨.hubMboxUpPop, [p.val]⟩)

/-- MBOX_DOWN_PUSH (R616). -/
def execMboxDownPush (ag : Agent) (p : PartId) (v : Word) (s : State) : Host.Outcome State Fault Refusal :=
  runF s (fun d => d.ctrlWrite ag ⟨.hubMboxDownPush, [p.val]⟩ v)

/-- MBOX_DOWN_POP (R616). -/
def execMboxDownPop (ag : Agent) (p : PartId) (s : State) : Host.Outcome State Fault Refusal :=
  runF s (fun d => d.popBy ag ⟨.hubMboxDownPop, [p.val]⟩)

/-- HUB_WDOG_KICK (R619). -/
def execHubWdogKick (h : Fin 14) (s : State) : Host.Outcome State Fault Refusal :=
  runF s (fun d => d.wdogKick h.val)

/-- MGT_LINK_UP (R620). -/
def execMgtLinkUp (fec : Fin 3) (s : State) : Host.Outcome State Fault Refusal :=
  runF s (fun d => d.mgtLinkUp fec.val)

/-- MGT_LINK_DOWN (R620). -/
def execMgtLinkDown (s : State) : Host.Outcome State Fault Refusal :=
  runF s (fun d => d.mgtLinkDown)

/-- MGT_FRAME_RECEIVE (R621). -/
def execMgtFrameReceive (bs : List (BitVec 8)) (bad : Bool) (s : State) : Host.Outcome State Fault Refusal :=
  runF s (fun d => d.frameReceive bs bad)

/-- MGT_FRAME_TRANSMIT (R621). -/
def execMgtFrameTransmit (s : State) : Host.Outcome State Fault Refusal :=
  runF s (fun d => d.frameTransmit)

/-- SERVICE_READ (R622). -/
def execServiceRead (f : SvcFrame) (s : State) : Host.Outcome State Fault Refusal :=
  runF s (fun d => d.svcRead f)

/-- SERVICE_WRITE (R622). -/
def execServiceWrite (f : SvcFrame) (s : State) : Host.Outcome State Fault Refusal :=
  runF s (fun d => d.svcWrite f)

/-- SERVICE_TOKEN (R622). -/
def execServiceToken (f : SvcFrame) (s : State) : Host.Outcome State Fault Refusal :=
  runF s (fun d => d.svcToken f)

/-- SERVICE_OPEN (R622). -/
def execServiceOpen (f : SvcFrame) (s : State) : Host.Outcome State Fault Refusal :=
  runF s (fun d => d.svcOpen f)

/-- SERVICE_CLOSE (R622). -/
def execServiceClose (f : SvcFrame) (s : State) : Host.Outcome State Fault Refusal :=
  runF s (fun d => d.svcClose f)

/-- SERVICE_RECOVERY (R622). -/
def execServiceRecovery (f : SvcFrame) (m : Manifest) (s : State) : Host.Outcome State Fault Refusal :=
  runF s (fun d => d.svcRecovery f m)

/-- MGT_SESSION_TIMEOUT (R622). -/
def execMgtSessionTimeout (s : State) : Host.Outcome State Fault Refusal :=
  runF s (fun d => d.svcTimeout)

/-- CONTROL_CORE_ACCESS (R611). -/
def execControlCoreAccess (h : Fin 14) (a : Nat) (n : Nat) (write : Bool) (v : Word) (s : State) : Host.Outcome State Fault Refusal :=
  runF s (fun d => d.controlAccess h a n write v)

/-- SLOW_TIER_REFRESH (R374). -/
def execSlowTierRefresh (k : Fin 10) (temp : Int) (s : State) : Host.Outcome State Fault Refusal :=
  runF s (fun d => d.slowRefresh k.val temp)

/-- JTAG_TRST (R599). -/
def execJtagTrst (s : State) : Host.Outcome State Fault Refusal :=
  runVin s (fun d => d.jtagSet .idcode)

end Sys2Proof.Machine
end

