-- ==== Sys2Proof/Machine/ExecMatrix.lean ====
section
/-! DEFINITION. Meanings of the rows of the matrix engine (04, R250 to R261). -/
namespace Sys2Proof.Machine

/-- ME_LOAD (R256). -/
def execMeLoad (c : CoreId) (i : IWord) (ph : Phase) (s : State) : Host.Outcome State Fault Refusal :=
  coreRunF s c.val (fun d => d.meLoad c.val i ph)

/-- ME_STREAM (R121). -/
def execMeStream (c : CoreId) (i : IWord) (ph : Phase) (s : State) : Host.Outcome State Fault Refusal :=
  coreRunF s c.val (fun d => d.meStream c.val i ph)

/-- ME_STREAM_ROW_UPDATE (R130). -/
def execMeStreamRowUpdate (c : CoreId) (mismatch : Option (Fin 17)) (s : State) : Host.Outcome State Fault Refusal :=
  coreRunF s c.val (fun d => d.meRowUpdate c.val (mismatch.map Fin.val))

/-- ME_DRAIN (R125). -/
def execMeDrain (c : CoreId) (i : IWord) (ph : Phase) (s : State) : Host.Outcome State Fault Refusal :=
  coreRunF s c.val (fun d => d.meDrain c.val i ph)

/-- ME_DRAIN_ROW_WRITE (R130). -/
def execMeDrainRowWrite (c : CoreId) (s : State) : Host.Outcome State Fault Refusal :=
  coreRunF s c.val (fun d => d.meRowWrite c.val)

/-- ME_ADDW (R127). -/
def execMeAddw (c : CoreId) (i : IWord) (ph : Phase) (s : State) : Host.Outcome State Fault Refusal :=
  coreRunF s c.val (fun d => d.meAddw c.val i ph)

/-- ME_CLEAR (R260). -/
def execMeClear (c : CoreId) (i : IWord) (ph : Phase) (s : State) : Host.Outcome State Fault Refusal :=
  coreRunF s c.val (fun d => d.meClear c.val i ph)

/-- ME_RESUME (R134). -/
def execMeResume (ag : Agent) (c : CoreId) (s : State) : Host.Outcome State Fault Refusal :=
  runF s (fun d => d.ctrlWrite ag ⟨.meCtrl, [c.val]⟩ 1)

/-- ME_FLUSH (R134). -/
def execMeFlush (ag : Agent) (c : CoreId) (s : State) : Host.Outcome State Fault Refusal :=
  runF s (fun d => d.ctrlWrite ag ⟨.meCtrl, [c.val]⟩ 2)

/-- ME_COL_TEST (R138). -/
def execMeColTest (ag : Agent) (c : CoreId) (s : State) : Host.Outcome State Fault Refusal :=
  runF s (fun d => d.ctrlWrite ag ⟨.meCtrl, [c.val]⟩ 4)

/-- ME_COL_TEST_DONE (R138). -/
def execMeColTestDone (k : Fin 448) (fail : Option (Fin 17)) (s : State) : Host.Outcome State Fault Refusal :=
  runF s (fun d => d.meColTestDone k.val (fail.map Fin.val))

end Sys2Proof.Machine
end

