-- ==== Sys2Proof/Machine/ExecNeano.lean ====
section
/-! DEFINITION. Meanings of the rows of Neano and the slow tier (12). -/
namespace Sys2Proof.Machine

/-- NEANO_GROUP_UPDATE (R386). -/
def execNeanoGroupUpdate (c : CtxId) (g : Fin 256) (es : ReadErrs) (s : State) : Host.Outcome State Fault Refusal :=
  runF s (fun d => d.neaUpdate c.val g.val es)

/-- NEA_UNIT_REPAIR_DONE (R400). -/
def execNeaUnitRepairDone (c : CtxId) (s : State) : Host.Outcome State Fault Refusal :=
  runF s (fun d => d.neaRepair c.val)

/-- NEA_IMPORT (R382). -/
def execNeaImport (c : CtxId) (s : State) : Host.Outcome State Fault Refusal :=
  runF s (fun d => d.ctxCommand c.val 4)

/-- NEA_COMMIT_IMPORT (R382). -/
def execNeaCommitImport (c : CtxId) (s : State) : Host.Outcome State Fault Refusal :=
  runF s (fun d => d.ctxCommand c.val 5)

/-- NEA_RESUME (R392). -/
def execNeaResume (c : CtxId) (s : State) : Host.Outcome State Fault Refusal :=
  runF s (fun d => d.ctxCommand c.val 6)

/-- NEA_RELEASE (R395). -/
def execNeaRelease (c : CtxId) (s : State) : Host.Outcome State Fault Refusal :=
  runF s (fun d => d.ctxCommand c.val 7)

/-- NEA_RELEASE_DONE (R395). -/
def execNeaReleaseDone (c : CtxId) (s : State) : Host.Outcome State Fault Refusal :=
  runF s (fun d => d.neaReleaseDone c.val)

/-- SLOW_WINDOW_ACCESS (R380). -/
def execSlowWindowAccess (who : Option PartId) (a : Nat) (n : Nat) (data : Option (List (BitVec 8))) (es : ReadErrs) (s : State) : Host.Outcome State Fault Refusal :=
  runF s (fun d => d.slowAccess (who.map Fin.val) a n data es)

/-- MIRROR_RECEIVE (R398). -/
def execMirrorReceive (pkt : MirrorPkt) (s : State) : Host.Outcome State Fault Refusal :=
  runF s (fun d => d.mirrorReceive pkt)

/-- MIRROR_ACK_RECEIVE (R399). -/
def execMirrorAckReceive (c : CtxId) (ring : Nat) (ok : Bool) (s : State) : Host.Outcome State Fault Refusal :=
  runF s (fun d => d.mirrorAck c.val ring ok)

/-- NEA_PKG_FAIL (R377). -/
def execNeaPkgFail (k : Fin 10) (s : State) : Host.Outcome State Fault Refusal :=
  runF s (fun d => d.pkgFail k.val)

/-- NEA_PKG_COPY_DONE (R401). -/
def execNeaPkgCopyDone (s : State) : Host.Outcome State Fault Refusal :=
  runF s (fun d => d.pkgCopyDone)

/-- NEA_REBUILD_DONE (R401). -/
def execNeaRebuildDone (s : State) : Host.Outcome State Fault Refusal :=
  runF s (fun d => d.pkgRebuildDone)

end Sys2Proof.Machine
end

