-- ==== Sys2Proof/Machine/ExecPartition.lean ====
section
/-! DEFINITION. Meanings of the rows of partitions, prunes, check-value units and the counter generator (15, 16, 17). -/
namespace Sys2Proof.Machine

/-- PRT_LOAD (R489). -/
def execPrtLoad (p : PartId) (img : Option Image) (s : State) : Host.Outcome State Fault Refusal :=
  runF s (fun d => d.busDo .host ⟨.prtCtrl, [p.val]⟩ true (fun d => d.prtLoad p.val img))

/-- LOAD_COMPLETE (R491). -/
def execLoadComplete (p : PartId) (s : State) : Host.Outcome State Fault Refusal :=
  runF s (fun d => d.loadComplete p.val)

/-- PRT_KILL (R495). -/
def execPrtKill (p : PartId) (s : State) : Host.Outcome State Fault Refusal :=
  runF s (fun d => d.ctrlWrite .host ⟨.prtCtrl, [p.val]⟩ 2)

/-- PRT_CASTLE (R495). -/
def execPrtCastle (p : PartId) (s : State) : Host.Outcome State Fault Refusal :=
  runF s (fun d => d.ctrlWrite .host ⟨.prtCtrl, [p.val]⟩ 4)

/-- REVOCATION_COMPLETE (R499). -/
def execRevocationComplete (p : PartId) (s : State) : Host.Outcome State Fault Refusal :=
  runF s (fun d => d.revocationComplete p.val)

/-- PRT_PRUNE_GO (R546). -/
def execPrtPruneGo (c : CoreId) (s : State) : Host.Outcome State Fault Refusal :=
  runF s (fun d => d.ctrlWrite .host ⟨.prtPrune, []⟩ (BitVec.ofNat 64 (2 ^ 15 + c.val)))

/-- PRUNE_COMPLETE (R535). -/
def execPruneComplete (c : CoreId) (s : State) : Host.Outcome State Fault Refusal :=
  runF s (fun d => d.pruneComplete c.val)

/-- SPARE_ZERO_FILL_DONE (R537). -/
def execSpareZeroFillDone (k : Fin 448) (s : State) : Host.Outcome State Fault Refusal :=
  runF s (fun d => d.zeroFillDone k.val)

/-- HUB_CORE_FAIL (R545). -/
def execHubCoreFail (h : Fin 14) (s : State) : Host.Outcome State Fault Refusal :=
  runF s (fun d => d.hartFail h.val)

/-- HUB_CORE_GRAFT (R545). -/
def execHubCoreGraft (h : Fin 14) (s : State) : Host.Outcome State Fault Refusal :=
  runF s (fun d => d.hartGraft h.val)

/-- CVU_FEED_START (R516). -/
def execCvuFeedStart (ag : Agent) (u : CvuId) (len : Fin 1099511627776) (s : State) : Host.Outcome State Fault Refusal :=
  runF s (fun d => d.ctrlWrite ag (cvuReg (cvuNum u) .cvuFeedLen .pcvuFeedLen) (BitVec.ofNat 64 len.val))

/-- CVU_FEED_DONE (R516). Only a cluster unit has a feed, and it runs in its tile's core clock (R559, R560). -/
def execCvuFeedDone (u : CvuId) (s : State) : Host.Outcome State Fault Refusal :=
  clusterRunF s (cvuNum u / 2) (fun d => d.cvuFeedDone (cvuNum u))

/-- CVU_INIT (R522). -/
def execCvuInit (ag : Agent) (u : CvuId) (s : State) : Host.Outcome State Fault Refusal :=
  runF s (fun d => d.ctrlWrite ag (cvuReg (cvuNum u) .cvuCtrl .pcvuCtrl) 1)

/-- CVU_ABORT (R517). -/
def execCvuAbort (ag : Agent) (u : CvuId) (steps : Nat) (s : State) : Host.Outcome State Fault Refusal :=
  runF s (fun d => d.cvuAbortWrite ag (cvuNum u) steps)

/-- CG_EVALUATE (R527). -/
def execCgEvaluate (v : Word) (s : State) : Host.Outcome State Fault Refusal :=
  runF s (fun d => d.ctrlWrite .host ⟨.cgCtr1, []⟩ v)

end Sys2Proof.Machine
end

