-- ==== Sys2Proof/Machine/ExecPower.lean ====
section
/-! DEFINITION. Meanings of the rows of clocks, voltages, temperatures and power states (18). -/
namespace Sys2Proof.Machine

/-- REFCLK_LOSS (R558). -/
def execRefclkLoss (s : State) : Host.Outcome State Fault Refusal :=
  runF s (fun d => d.halt)

/-- CLK_PLL_UNLOCK (R560). -/
def execClkPllUnlock (k : Fin 34) (s : State) : Host.Outcome State Fault Refusal :=
  runF s (fun d => d.pllUnlock k.val)

/-- PLL_RELOCK (R560). -/
def execPllRelock (k : Fin 34) (s : State) : Host.Outcome State Fault Refusal :=
  runF s (fun d => d.pllRelock k.val)

/-- PLL_RELOCK_TIMEOUT (R560). -/
def execPllRelockTimeout (k : Fin 34) (s : State) : Host.Outcome State Fault Refusal :=
  runF s (fun d => d.pllTimeout k.val)

/-- VOLTAGE_STEP_DONE (R564). -/
def execVoltageStepDone (t : TileId) (s : State) : Host.Outcome State Fault Refusal :=
  runF s (fun d => d.voltageStep t.val)

/-- PWR_OVERCURRENT (R568). -/
def execPwrOvercurrent (g : ClusterId) (s : State) : Host.Outcome State Fault Refusal :=
  runF s (fun d => d.overcurrent g.val)

/-- PWR_THERMAL_TRIP (R569). -/
def execPwrThermalTrip (loc : Fin 6) (s : State) : Host.Outcome State Fault Refusal :=
  runF s (fun d => d.thermalTrip loc.val)

/-- CLOCK_ENABLE_WRITE (R571). -/
def execClockEnableWrite (b : ClkUnit) (v : BitVec 3) (s : State) : Host.Outcome State Fault Refusal :=
  runF s (fun d => d.ctrlWrite .host (clkReg (clkIsCore b) (clkNum b)) (BitVec.ofNat 64 v.toNat))

/-- CLOCK_ENABLE_UP_DONE (R571). -/
def execClockEnableUpDone (b : ClkUnit) (k : Fin 3) (s : State) : Host.Outcome State Fault Refusal :=
  runF s (fun d => d.clkUpDone (clkIsCore b) (clkNum b) (k.val + 1))

/-- CLOCK_ENABLE_STOP_DONE (R571). -/
def execClockEnableStopDone (b : ClkUnit) (k : Fin 3) (s : State) : Host.Outcome State Fault Refusal :=
  runF s (fun d => d.clkStopDone (clkIsCore b) (clkNum b) (k.val + 1))

/-- POWER_TRANSITION_DONE (R574). -/
def execPowerTransitionDone (t : TileId) (s : State) : Host.Outcome State Fault Refusal :=
  runF s (fun d => d.powerDone t.val)

/-- RESET_N_ASSERT (R581). -/
def execResetNAssert (s : State) : Host.Outcome State Fault Refusal :=
  runAlways s (fun d => d.resetAssert)

/-- RESET_N_RELEASE (R635). -/
def execResetNRelease (s : State) : Host.Outcome State Fault Refusal :=
  runAlways s (fun d => d.resetRelease)

/-- POWER_GOOD_RISE (R581). -/
def execPowerGoodRise (s : State) : Host.Outcome State Fault Refusal :=
  runAlways s (fun d => d.powerRise)

/-- POWER_GOOD_FALL (R634). -/
def execPowerGoodFall (s : State) : Host.Outcome State Fault Refusal :=
  runAlways s (fun d => d.powerFall)

end Sys2Proof.Machine
end

