-- ==== Sys2Proof/Machine/ExecReduction.lean ====
section
/-! DEFINITION. Meanings of the rows of the reduction engines (14). -/
namespace Sys2Proof.Machine

/-- REDUCE_LOCAL_READY (R462). -/
def execReduceLocalReady (p : PartId) (n : Nat) (cnt : Nat) (es : ReadErrs) (s : State) : Host.Outcome State Fault Refusal :=
  runF s (fun d => d.reduceLocalReady p.val n cnt es)

/-- REDUCE_RECEIVE (R463). -/
def execReduceReceive (q : Option PortId) (pkt : Machine.Packet) (upset : Option (Nat × Int)) (s : State) : Host.Outcome State Fault Refusal :=
  runF s (fun d => d.redReceive ⟨pkt, none, q.map Fin.val⟩ upset)

/-- GSEND_CHUNK_READ (R473). -/
def execGsendChunkRead (p : PartId) (n : Nat) (s : State) : Host.Outcome State Fault Refusal :=
  runF s (fun d => d.gsendRead p.val n)

/-- GATHER_RECEIVE (R474). -/
def execGatherReceive (q : Option PortId) (pkt : Machine.Packet) (s : State) : Host.Outcome State Fault Refusal :=
  runF s (fun d => d.redReceive ⟨pkt, none, q.map Fin.val⟩ none)

end Sys2Proof.Machine
end

