-- ==== Sys2Proof/Machine/ExecScalar.lean ====
section
/-! DEFINITION. Meanings of the rows of scalar instructions of the sequencer (R221, R222). -/
namespace Sys2Proof.Machine

/-- NOP (R221). -/
def execNop (c : CoreId) (i : IWord) (s : State) : Host.Outcome State Fault Refusal :=
  coreRun s c.val (fun d => d.sqSimple c.val 0x00 i (legalNone i) (fun q => q))

/-- ADD (R222). -/
def execAdd (c : CoreId) (i : IWord) (s : State) : Host.Outcome State Fault Refusal :=
  coreRun s c.val (fun d => d.aluR c.val 0x01 i (fun a b => a + b))

/-- SUB (R222). -/
def execSub (c : CoreId) (i : IWord) (s : State) : Host.Outcome State Fault Refusal :=
  coreRun s c.val (fun d => d.aluR c.val 0x02 i (fun a b => a - b))

/-- AND (R222). -/
def execAnd (c : CoreId) (i : IWord) (s : State) : Host.Outcome State Fault Refusal :=
  coreRun s c.val (fun d => d.aluR c.val 0x03 i (fun a b => a &&& b))

/-- OR (R222). -/
def execOr (c : CoreId) (i : IWord) (s : State) : Host.Outcome State Fault Refusal :=
  coreRun s c.val (fun d => d.aluR c.val 0x04 i (fun a b => a ||| b))

/-- XOR (R222). -/
def execXor (c : CoreId) (i : IWord) (s : State) : Host.Outcome State Fault Refusal :=
  coreRun s c.val (fun d => d.aluR c.val 0x05 i (fun a b => a ^^^ b))

/-- SLL (R222). -/
def execSll (c : CoreId) (i : IWord) (s : State) : Host.Outcome State Fault Refusal :=
  coreRun s c.val (fun d => d.aluR c.val 0x06 i opSll)

/-- SRL (R222). -/
def execSrl (c : CoreId) (i : IWord) (s : State) : Host.Outcome State Fault Refusal :=
  coreRun s c.val (fun d => d.aluR c.val 0x07 i opSrl)

/-- SRA (R222). -/
def execSra (c : CoreId) (i : IWord) (s : State) : Host.Outcome State Fault Refusal :=
  coreRun s c.val (fun d => d.aluR c.val 0x08 i opSra)

/-- MUL (R222). -/
def execMul (c : CoreId) (i : IWord) (s : State) : Host.Outcome State Fault Refusal :=
  coreRun s c.val (fun d => d.aluR c.val 0x09 i (fun a b => a * b))

/-- MULHU (R222). -/
def execMulhu (c : CoreId) (i : IWord) (s : State) : Host.Outcome State Fault Refusal :=
  coreRun s c.val (fun d => d.aluR c.val 0x0A i opMulhu)

/-- DIVU (R222). -/
def execDivu (c : CoreId) (i : IWord) (s : State) : Host.Outcome State Fault Refusal :=
  coreRun s c.val (fun d => d.aluR c.val 0x0B i opDivu)

/-- REMU (R222). -/
def execRemu (c : CoreId) (i : IWord) (s : State) : Host.Outcome State Fault Refusal :=
  coreRun s c.val (fun d => d.aluR c.val 0x0C i opRemu)

/-- MIN (R222). -/
def execMin (c : CoreId) (i : IWord) (s : State) : Host.Outcome State Fault Refusal :=
  coreRun s c.val (fun d => d.aluR c.val 0x0D i opMin)

/-- MAX (R222). -/
def execMax (c : CoreId) (i : IWord) (s : State) : Host.Outcome State Fault Refusal :=
  coreRun s c.val (fun d => d.aluR c.val 0x0E i opMax)

/-- ADDI (R222). -/
def execAddi (c : CoreId) (i : IWord) (s : State) : Host.Outcome State Fault Refusal :=
  coreRun s c.val (fun d => d.aluI c.val 0x11 i (legalI i) (fun a b => a + b))

/-- ANDI (R222). -/
def execAndi (c : CoreId) (i : IWord) (s : State) : Host.Outcome State Fault Refusal :=
  coreRun s c.val (fun d => d.aluI c.val 0x13 i (legalI i) (fun a b => a &&& b))

/-- ORI (R222). -/
def execOri (c : CoreId) (i : IWord) (s : State) : Host.Outcome State Fault Refusal :=
  coreRun s c.val (fun d => d.aluI c.val 0x14 i (legalI i) (fun a b => a ||| b))

/-- XORI (R222). -/
def execXori (c : CoreId) (i : IWord) (s : State) : Host.Outcome State Fault Refusal :=
  coreRun s c.val (fun d => d.aluI c.val 0x15 i (legalI i) (fun a b => a ^^^ b))

/-- SLLI (R222). -/
def execSlli (c : CoreId) (i : IWord) (s : State) : Host.Outcome State Fault Refusal :=
  coreRun s c.val (fun d => d.aluI c.val 0x16 i (legalShift i) opSll)

/-- SRLI (R222). -/
def execSrli (c : CoreId) (i : IWord) (s : State) : Host.Outcome State Fault Refusal :=
  coreRun s c.val (fun d => d.aluI c.val 0x17 i (legalShift i) opSrl)

/-- SRAI (R222). -/
def execSrai (c : CoreId) (i : IWord) (s : State) : Host.Outcome State Fault Refusal :=
  coreRun s c.val (fun d => d.aluI c.val 0x18 i (legalShift i) opSra)

/-- LI (R221). -/
def execLi (c : CoreId) (i : IWord) (s : State) : Host.Outcome State Fault Refusal :=
  coreRun s c.val (fun d => d.sqSimple c.val 0x19 i (legalLi i) (fun q => q.setS i.rd (wordOfInt i.imm)))

/-- LIH (R221). -/
def execLih (c : CoreId) (i : IWord) (s : State) : Host.Outcome State Fault Refusal :=
  coreRun s c.val (fun d => d.ctlLih c.val i)

/-- CMP (R221). -/
def execCmp (c : CoreId) (i : IWord) (s : State) : Host.Outcome State Fault Refusal :=
  coreRun s c.val (fun d => d.ctlCmp c.val 0x20 i (legalCmp i) (fun q => q.getS i.rs2))

/-- CMPI (R221). -/
def execCmpi (c : CoreId) (i : IWord) (s : State) : Host.Outcome State Fault Refusal :=
  coreRun s c.val (fun d => d.ctlCmp c.val 0x21 i (legalCmpi i) (fun _ => wordOfInt i.imm))

/-- PLOG (R221). -/
def execPlog (c : CoreId) (i : IWord) (s : State) : Host.Outcome State Fault Refusal :=
  coreRun s c.val (fun d => d.ctlPlog c.val i)

/-- PGET (R221). -/
def execPget (c : CoreId) (i : IWord) (s : State) : Host.Outcome State Fault Refusal :=
  coreRun s c.val (fun d => d.ctlPget c.val i)

/-- PPUT (R221). -/
def execPput (c : CoreId) (i : IWord) (s : State) : Host.Outcome State Fault Refusal :=
  coreRun s c.val (fun d => d.ctlPput c.val i)

end Sys2Proof.Machine
end

