-- ==== Sys2Proof/Machine/ExecSecurity.lean ====
section
/-! DEFINITION. Meanings of the rows of start-up, the security root and debug (19). -/
namespace Sys2Proof.Machine

/-- SEC_RESET (R581). -/
def execSecReset (s : State) : Host.Outcome State Fault Refusal :=
  runF s (fun d => d.ctrlWrite .host ⟨.secCtrl, []⟩ 0x100)

/-- ROM_VERIFY (R587). -/
def execRomVerify (a : Manifest) (b : Manifest) (s : State) : Host.Outcome State Fault Refusal :=
  runF s (fun d => d.romVerify a b)

/-- FS1_STAGE_DONE (R582). -/
def execFs1StageDone (m : Manifest) (o : Manifest) (cfg : List (Nat × Word)) (s : State) : Host.Outcome State Fault Refusal :=
  runF s (fun d => d.fs1Done m o cfg)

/-- TILE_BRINGUP_TIMEOUT (R583). -/
def execTileBringupTimeout (t : TileId) (pll : Option (Fin 2)) (g : Fin 4) (s : State) : Host.Outcome State Fault Refusal :=
  runF s (fun d => d.bringupTimeout t.val (pll.map Fin.val) g.val)

/-- MEMORY_STAGE_DONE (R585). -/
def execMemoryStageDone (pcs : List (TileId × Fin 96)) (pkgs : List (Fin 10)) (s : State) : Host.Outcome State Fault Refusal :=
  runF s (fun d => d.memoryDone (pcs.map (fun x => (x.1.val, x.2.val))) (pkgs.map Fin.val))

/-- LINKS_STAGE_DONE (R582). -/
def execLinksStageDone (s : State) : Host.Outcome State Fault Refusal :=
  runF s (fun d => d.linksDone)

/-- TEMPO_STAGE_DONE (R582). -/
def execTempoStageDone (s : State) : Host.Outcome State Fault Refusal :=
  runF s (fun d => d.tempoDone)

/-- SELFTEST_DONE (R582). -/
def execSelftestDone (s : State) : Host.Outcome State Fault Refusal :=
  runF s (fun d => d.selftestDone)

/-- SEC_ATTEST (R593). -/
def execSecAttest (s : State) : Host.Outcome State Fault Refusal :=
  runF s (fun d => d.ctrlWrite .host ⟨.secCtrl, []⟩ 1)

/-- ATTEST_DONE (R593). -/
def execAttestDone (s : State) : Host.Outcome State Fault Refusal :=
  runF s (fun d => d.attestDone)

/-- SEC_NONCE (R598). -/
def execSecNonce (s : State) : Host.Outcome State Fault Refusal :=
  runF s (fun d => d.ctrlWrite .host ⟨.secCtrl, []⟩ 2)

/-- SEC_SUBMIT (R598). -/
def execSecSubmit (s : State) : Host.Outcome State Fault Refusal :=
  runF s (fun d => d.ctrlWrite .host ⟨.secCtrl, []⟩ 4)

/-- TOKEN_CHECK_DONE (R598). -/
def execTokenCheckDone (s : State) : Host.Outcome State Fault Refusal :=
  runF s (fun d => d.tokenDone)

/-- DEBUG_SCRUB_DONE (R596). -/
def execDebugScrubDone (s : State) : Host.Outcome State Fault Refusal :=
  runF s (fun d => d.scrubDone)

/-- SEC_OWNER_ENROL (R604). -/
def execSecOwnerEnrol (s : State) : Host.Outcome State Fault Refusal :=
  runF s (fun d => d.ctrlWrite .host ⟨.secCtrl, []⟩ 8)

/-- SEC_SVN_COMMIT (R588). -/
def execSecSvnCommit (s : State) : Host.Outcome State Fault Refusal :=
  runF s (fun d => d.ctrlWrite .host ⟨.secCtrl, []⟩ 0x10)

/-- SEC_END_GRANT (R598). -/
def execSecEndGrant (p : PartId) (s : State) : Host.Outcome State Fault Refusal :=
  runF s (fun d => d.ctrlWrite .host ⟨.secCtrl, []⟩ (BitVec.ofNat 64 (0x20 + 64 * p.val)))

/-- SEC_LOCK_SET (R605). -/
def execSecLockSet (m : BitVec 6) (s : State) : Host.Outcome State Fault Refusal :=
  runF s (fun d => d.ctrlWrite .host ⟨.secLock, []⟩ (BitVec.ofNat 64 (256 * m.toNat)))

/-- JTAG_BYPASS (R599). -/
def execJtagBypass (s : State) : Host.Outcome State Fault Refusal :=
  runVin s (fun d => d.jtagSet .bypass)

/-- JTAG_IDCODE (R599). -/
def execJtagIdcode (s : State) : Host.Outcome State Fault Refusal :=
  runVin s (fun d => d.jtagIdcode)

/-- JTAG_SAMPLE_PRELOAD (R599). -/
def execJtagSamplePreload (s : State) : Host.Outcome State Fault Refusal :=
  runVin s (fun d => d.jtagSample)

/-- JTAG_EXTEST (R599). -/
def execJtagExtest (s : State) : Host.Outcome State Fault Refusal :=
  runVin s (fun d => d.jtagExtest d.live)

/-- JTAG_DBG_ACCESS (R600). -/
def execJtagDbgAccess (a : Nat) (write : Bool) (v : Word) (s : State) : Host.Outcome State Fault Refusal :=
  runVin s (fun d => d.jtagAccess d.live a write v)

/-- JTAG_DBG_TOKEN (R599). -/
def execJtagDbgToken (k : Fin 1024) (v : Word) (s : State) : Host.Outcome State Fault Refusal :=
  runVin s (fun d => d.jtagToken d.live k.val v)

end Sys2Proof.Machine
end

