-- ==== Sys2Proof/Machine/ExecSequencer.lean ====
section
/-! DEFINITION. Meanings of the rows of control flow, accesses, register files, semaphores, Tempo-waits, fences and generation slots (07, 06). -/
namespace Sys2Proof.Machine

/-- BR (R221). -/
def execBr (c : CoreId) (i : IWord) (s : State) : Host.Outcome State Fault Refusal :=
  coreRun s c.val (fun d => d.ctlBr c.val i)

/-- CALL (R225). -/
def execCall (c : CoreId) (i : IWord) (s : State) : Host.Outcome State Fault Refusal :=
  coreRun s c.val (fun d => d.ctlCall c.val i)

/-- RET (R225). -/
def execRet (c : CoreId) (i : IWord) (s : State) : Host.Outcome State Fault Refusal :=
  coreRun s c.val (fun d => d.ctlRet c.val i)

/-- JR (R221). -/
def execJr (c : CoreId) (i : IWord) (s : State) : Host.Outcome State Fault Refusal :=
  coreRun s c.val (fun d => d.ctlJr c.val i)

/-- LOOP (R226). -/
def execLoop (c : CoreId) (i : IWord) (s : State) : Host.Outcome State Fault Refusal :=
  coreRun s c.val (fun d => d.ctlLoop c.val i)

/-- LIDX (R221). -/
def execLidx (c : CoreId) (i : IWord) (s : State) : Host.Outcome State Fault Refusal :=
  coreRun s c.val (fun d => d.ctlLidx c.val i)

/-- LD (R223). -/
def execLd (c : CoreId) (i : IWord) (s : State) : Host.Outcome State Fault Refusal :=
  coreRunF s c.val (fun d => d.ctlLd c.val i)

/-- ST (R223). -/
def execSt (c : CoreId) (i : IWord) (s : State) : Host.Outcome State Fault Refusal :=
  coreRunF s c.val (fun d => d.ctlSt c.val i)

/-- MOVA (R221). -/
def execMova (c : CoreId) (i : IWord) (s : State) : Host.Outcome State Fault Refusal :=
  coreRun s c.val (fun d => d.ctlMova c.val i)

/-- RDA (R221). -/
def execRda (c : CoreId) (i : IWord) (s : State) : Host.Outcome State Fault Refusal :=
  coreRun s c.val (fun d => d.ctlRda c.val i)

/-- MOVD (R221). -/
def execMovd (c : CoreId) (i : IWord) (s : State) : Host.Outcome State Fault Refusal :=
  coreRun s c.val (fun d => d.ctlMovd c.val i)

/-- RDD (R221). -/
def execRdd (c : CoreId) (i : IWord) (s : State) : Host.Outcome State Fault Refusal :=
  coreRun s c.val (fun d => d.ctlRdd c.val i)

/-- VSET (R221). -/
def execVset (c : CoreId) (i : IWord) (s : State) : Host.Outcome State Fault Refusal :=
  coreRun s c.val (fun d => d.ctlVset c.val i)

/-- VGET (R221). -/
def execVget (c : CoreId) (i : IWord) (s : State) : Host.Outcome State Fault Refusal :=
  coreRun s c.val (fun d => d.ctlVget c.val i)

/-- SEM_WAIT (R228). -/
def execSemWait (c : CoreId) (i : IWord) (ph : Phase) (s : State) : Host.Outcome State Fault Refusal :=
  coreRunF s c.val (fun d => d.semWait c.val i ph)

/-- SEM_SIG (R228). -/
def execSemSig (c : CoreId) (i : IWord) (ph : Phase) (s : State) : Host.Outcome State Fault Refusal :=
  coreRunF s c.val (fun d => d.semSig c.val i ph)

/-- SEM_REQUEST_ARRIVAL (R230). -/
def execSemRequestArrival (g : ClusterId) (ids : List Nat) (elapsed : Nat) (s : State) : Host.Outcome State Fault Refusal :=
  clusterRunF s g.val (fun d => d.semClk g.val ids elapsed)

/-- SEM_WAIT_RESUME (R230). -/
def execSemWaitResume (id : Nat) (s : State) : Host.Outcome State Fault Refusal :=
  runF s (fun d => d.semResume id)

/-- TWAIT (R232). -/
def execTwait (c : CoreId) (i : IWord) (s : State) : Host.Outcome State Fault Refusal :=
  coreRunF s c.val (fun d => d.ctlTwait c.val i)

/-- TNOW (R234). -/
def execTnow (c : CoreId) (i : IWord) (s : State) : Host.Outcome State Fault Refusal :=
  coreRun s c.val (fun d => d.ctlTnow c.val i)

/-- FENCE (R221). -/
def execFence (c : CoreId) (i : IWord) (s : State) : Host.Outcome State Fault Refusal :=
  coreRun s c.val (fun d => d.ctlFence c.val i)

/-- FENCE_RELEASE (R221). -/
def execFenceRelease (c : CoreId) (s : State) : Host.Outcome State Fault Refusal :=
  coreRun s c.val (fun d => d.fenceRelease c.val)

/-- GEN_ACQ (R195). -/
def execGenAcq (c : CoreId) (i : IWord) (s : State) : Host.Outcome State Fault Refusal :=
  coreRunF s c.val (fun d => d.genOp c.val 0x50 i false GenTable.acq)

/-- GEN_REL (R196). -/
def execGenRel (c : CoreId) (i : IWord) (s : State) : Host.Outcome State Fault Refusal :=
  coreRunF s c.val (fun d => d.genOp c.val 0x51 i true GenTable.rel)

/-- GEN_CLAIM (R197). -/
def execGenClaim (c : CoreId) (i : IWord) (s : State) : Host.Outcome State Fault Refusal :=
  coreRunF s c.val (fun d => d.genOp c.val 0x52 i false (fun t st ring => t.claim c.val st ring i.rd))

/-- GEN_CLAIM_COMPLETE (R197). -/
def execGenClaimComplete (p : PartId) (st : Fin 64) (slot : Fin 2) (s : State) : Host.Outcome State Fault Refusal :=
  runF s (fun d => d.genClaimComplete p.val st.val slot.val)

/-- GEN_READY (R198). -/
def execGenReady (c : CoreId) (i : IWord) (s : State) : Host.Outcome State Fault Refusal :=
  coreRunF s c.val (fun d => d.genOp c.val 0x53 i true GenTable.ready)

/-- FAULT (R237). -/
def execFault (c : CoreId) (i : IWord) (s : State) : Host.Outcome State Fault Refusal :=
  coreRunF s c.val (fun d => d.ctlFault c.val i)

/-- HALT (R221). -/
def execHalt (c : CoreId) (i : IWord) (s : State) : Host.Outcome State Fault Refusal :=
  coreRunF s c.val (fun d => d.haltCore c.val i)

/-- SQ_RESUME (R239). -/
def execSqResume (c : CoreId) (s : State) : Host.Outcome State Fault Refusal :=
  runF s (fun d => d.ctrlWrite .host ⟨.sqCtrl, [c.val]⟩ 1)

/-- SQ_STOP (R239). -/
def execSqStop (c : CoreId) (s : State) : Host.Outcome State Fault Refusal :=
  runF s (fun d => d.ctrlWrite .host ⟨.sqCtrl, [c.val]⟩ 2)

end Sys2Proof.Machine
end

