-- ==== Sys2Proof/Machine/ExecSram.lean ====
section
/-! DEFINITION. Meanings of the rows of scratchpads and grove memories (09). -/
namespace Sys2Proof.Machine

/-- ECC_WRITEBACK (R289). -/
def execEccWriteback (w : Nat) (s : State) : Host.Outcome State Fault Refusal :=
  runF s (fun d => d.eccWriteback w)

/-- PATROL_SCRUB_READ (R292). -/
def execPatrolScrubRead (u : SramId) (b : Nat) (upset : Option (Nat × BitVec 80)) (s : State) : Host.Outcome State Fault Refusal :=
  runF s (fun d => d.scrubRead (sramKey u) b upset)

/-- BANK_POWER_REQUEST (R298). -/
def execBankPowerRequest (ag : Agent) (u : SramId) (b : Nat) (req : BitVec 2) (s : State) : Host.Outcome State Fault Refusal :=
  runF s (fun d => d.bankPowerRequest ag u b req)

/-- BANK_ENTER_RET_DONE (R298). -/
def execBankEnterRetDone (u : SramId) (b : Nat) (s : State) : Host.Outcome State Fault Refusal :=
  runF s (fun d => d.bankArrive (sramKey u) b .enterRet .ret)

/-- BANK_WAKE_DONE (R298). -/
def execBankWakeDone (u : SramId) (b : Nat) (s : State) : Host.Outcome State Fault Refusal :=
  runF s (fun d => d.bankArrive (sramKey u) b .wake .on)

/-- BANK_DOWN_DONE (R298). -/
def execBankDownDone (u : SramId) (b : Nat) (s : State) : Host.Outcome State Fault Refusal :=
  runF s (fun d => d.bankArrive (sramKey u) b .down .off)

/-- BANK_UP_DONE (R298). -/
def execBankUpDone (u : SramId) (b : Nat) (s : State) : Host.Outcome State Fault Refusal :=
  runF s (fun d => d.bankUpDone (sramKey u) b)

end Sys2Proof.Machine
end

