-- ==== Sys2Proof/Machine/ExecTempo.lean ====
section
/-! DEFINITION. Meanings of the rows of the time base, staged sets and register writes (02, 03). -/
namespace Sys2Proof.Machine

/-- TEMPO_SEAL (R49). -/
def execTempoSeal (m : Measure) (s : State) : Host.Outcome State Fault Refusal :=
  runF s (fun d => d.tempoSeal m)

/-- DEADLINE_SAMPLE (R58). -/
def execDeadlineSample (s : State) : Host.Outcome State Fault Refusal :=
  runF s (fun d => d.deadlineSample)

/-- TEMPO_EDGE (R49). -/
def execTempoEdge (s : State) : Host.Outcome State Fault Refusal :=
  runF s (fun d => d.tempoEdge)

/-- STALLED_WRITES_LAND (R50). -/
def execStalledWritesLand (s : State) : Host.Outcome State Fault Refusal :=
  runF s (fun d => d.stalledLand)

/-- TEMPO_WAIT_RELEASE (R232). -/
def execTempoWaitRelease (c : CoreId) (s : State) : Host.Outcome State Fault Refusal :=
  coreRunF s c.val (fun d => d.tempoWaitRelease c.val)

/-- SYNC_RECEIVE (R42). -/
def execSyncReceive (q : PortId) (msg : SyncMsg) (s : State) : Host.Outcome State Fault Refusal :=
  runF s (fun d => d.syncReceive q.val msg)

/-- DELAY_REQ_RECEIVE (R43). -/
def execDelayReqReceive (q : PortId) (t1 : Nat) (t2 : Nat) (t3 : Nat) (s : State) : Host.Outcome State Fault Refusal :=
  runF s (fun d => d.delayReq q.val t1 t2 t3)

/-- DELAY_RESP_RECEIVE (R43). -/
def execDelayRespReceive (q : PortId) (t1 : Int) (t2 : Int) (t3 : Int) (t4 : Int) (s : State) : Host.Outcome State Fault Refusal :=
  runF s (fun d => d.delayResp q.val t1 t2 t3 t4)

/-- ANNOUNCE_SEND (R41). -/
def execAnnounceSend (s : State) : Host.Outcome State Fault Refusal :=
  runF s (fun d => d.announceSend)

/-- ANNOUNCE_RECEIVE (R40). -/
def execAnnounceReceive (q : PortId) (prio : Fin 256) (dev : Fin 262144) (s : State) : Host.Outcome State Fault Refusal :=
  runF s (fun d => d.announceReceive q.val prio.val dev.val)

/-- KING_ELECTION_WIN (R41). -/
def execKingElectionWin (s : State) : Host.Outcome State Fault Refusal :=
  runF s (fun d => d.electionWin)

/-- ACQ_FINE_REACHED (R45). -/
def execAcqFineReached (s : State) : Host.Outcome State Fault Refusal :=
  runF s (fun d => d.acqFine)

/-- ACQ_LOCKED_REACHED (R45). -/
def execAcqLockedReached (s : State) : Host.Outcome State Fault Refusal :=
  runF s (fun d => d.acqLocked)

/-- ALIGN_LOST (R45). -/
def execAlignLost (s : State) : Host.Outcome State Fault Refusal :=
  runF s (fun d => d.alignLost)

/-- HOLDOVER_ENTRY (R45). -/
def execHoldoverEntry (s : State) : Host.Outcome State Fault Refusal :=
  runF s (fun d => d.holdoverEntry)

/-- MASTER_LOST (R45). -/
def execMasterLost (s : State) : Host.Outcome State Fault Refusal :=
  runF s (fun d => d.masterLost)

/-- FAILOVER (R46). -/
def execFailover (s : State) : Host.Outcome State Fault Refusal :=
  runF s (fun d => d.failover)

/-- HOLDOVER_ANNOUNCE_RESUME (R47). -/
def execHoldoverAnnounceResume (s : State) : Host.Outcome State Fault Refusal :=
  runF s (fun d => d.announceResume)

/-- PERIOD_CHANGE (R39). -/
def execPeriodChange (s : State) : Host.Outcome State Fault Refusal :=
  runF s (fun d => d.periodChange)

/-- RWT_WRITE (R50). -/
def execRwtWrite (ag : Agent) (a : Nat) (n : Nat) (v : Word) (s : State) : Host.Outcome State Fault Refusal :=
  runF s (fun d => d.rwtBusWrite ag a n v)

/-- STAGE_DISCARD (R54). -/
def execStageDiscard (k : Fin 5) (s : State) : Host.Outcome State Fault Refusal :=
  runF s (fun d => d.ctrlWrite .host ⟨.tmpStageCtrl, [k.val]⟩ 1)

/-- REGISTER_WRITE (R14). -/
def execRegisterWrite (ag : Agent) (a : Nat) (n : Nat) (v : Word) (s : State) : Host.Outcome State Fault Refusal :=
  runF s (fun d => d.registerWrite ag a n v)

end Sys2Proof.Machine
end

