-- ==== Sys2Proof/Machine/VeSolve.lean ====
section
/-! DEFINITION. SOLVE: small dense systems by Gaussian elimination with partial pivoting (R164 to R170, R270). -/
namespace Sys2Proof.Machine

/-- A matrix of lanes, by rows. -/
abbrev Mat := List (List Lane)

/-- Element (i, j). -/
def Mat.at' (m : Mat) (i j : Nat) : Lane := (m.getD i []).getD j 0

/-- Replace element (i, j). -/
def Mat.put (m : Mat) (i j : Nat) (x : Lane) : Mat := m.set i ((m.getD i []).set j x)

/-- Swap two rows. -/
def Mat.swap (m : Mat) (i j : Nat) : Mat := (m.set i (m.getD j [])).set j (m.getD i [])

/-- What elimination carries: A, B, the reciprocals, the flags, and the small pivots met. -/
structure SolveState where
  a : Mat
  b : Mat
  rp : List Lane
  fl : Flags
  /-- Column of the first small pivot, and the pivots replaced. -/
  col : Option Nat
  count : Nat
  /-- Elimination stopped at a small pivot (modes 0 and 2). -/
  stop : Bool
  deriving DecidableEq, Repr

/-- The order of pivot candidates: a NaN is largest. -/
def pivotKey (x : Lane) : Nat := if x.val.isNan then 2 ^ 32 else (fabs x).toNat

/-- The row of the largest pivot candidate at or below k; a tie goes to the lowest (R165). -/
def pivotRow (a : Mat) (n k : Nat) : Nat :=
  ((upTo n).drop k).foldl (fun q i => if pivotKey (a.at' q k) < pivotKey (a.at' i k) then i else q) k

/-- max |A[i,j]| (R165, R152). -/
def amax (a : Mat) : Lane × Flags :=
  match a.flatten with
  | [] => (0, 0)
  | x :: xs => xs.foldl (fun r y => let z := fmax r.1 (fabs y); (z.1, r.2 ||| z.2))
      (signOp fabs x)

/-- Subtract l times row k from row i over the columns `js` (R165). -/
def elimRow (m : Mat) (i k : Nat) (l : Lane) (js : List Nat) : Mat × Flags :=
  js.foldl (fun (r : Mat × Flags) j =>
    let x := ffma (fneg l) (r.1.at' k j) (r.1.at' i j)
    (r.1.put i j x.1, r.2 ||| x.2)) (m, 0)

/-- The replacement pivot of mode 1 (R166). -/
def perturbed (thr old : Lane) : Lane :=
  let d : Lane := match thr.val with
    | .fin _ m _ => if m = 0 then 0x00800000 else thr
    | _ => 0x00800000
  if old.neg? && !old.val.isNan then d ||| 0x80000000 else d

/-- One column of forward elimination (R165, R166). -/
def elimCol (n r mode : Nat) (thr : Lane) (s : SolveState) (k : Nat) : SolveState :=
  if s.stop then s
  else
    let q := pivotRow s.a n k
    let a0 := s.a.swap k q
    let b0 := s.b.swap k q
    let gt := fcmp 4 (fabs (a0.at' k k)) thr
    let small := decide (gt.1 = 0)
    let s0 := { s with a := a0, b := b0, fl := s.fl ||| gt.2 }
    if small && decide (mode ≠ 1) then { s0 with col := some k, stop := true }
    else
      let a1 := if small then a0.put k k (perturbed thr (a0.at' k k)) else a0
      let rp := fnLane .rcp (a1.at' k k)
      let s1 := { s0 with
        a := a1, rp := s.rp ++ [rp.1], fl := s0.fl ||| rp.2
        col := if small && s.col.isNone then some k else s.col
        count := if small then s.count + 1 else s.count }
      ((upTo n).drop (k + 1)).foldl (fun (t : SolveState) i =>
        let l := fmul (t.a.at' i k) rp.1
        let ea := elimRow t.a i k l.1 ((upTo n).drop (k + 1))
        let eb := elimRow t.b i k l.1 (upTo r)
        { t with a := ea.1, b := eb.1, fl := t.fl ||| l.2 ||| ea.2 ||| eb.2 }) s1

/-- One row of back substitution, from the last (R165): X so far in `x`. -/
def backRow (n r : Nat) (s : SolveState) (x : Mat × Mat × Flags) (k : Nat) : Mat × Mat × Flags :=
  let xs := (upTo r).map (fun j => fmul (x.2.1.at' k j) (s.rp.getD k 0))
  let row := xs.map Prod.fst
  let fl := (xs.map Prod.snd).foldl (· ||| ·) x.2.2
  let b := (upTo (min k n)).foldl (fun (t : Mat × Flags) i =>
    (upTo r).foldl (fun (t : Mat × Flags) j =>
      let y := ffma (fneg (s.a.at' i k)) (row.getD j 0) (t.1.at' i j)
      (t.1.put i j y.1, t.2 ||| y.2)) t) (x.2.1, fl)
  (x.1.set k row, b.1, b.2)

/-- A solved system: X (none where it is not written), its status word, the flags, singular?, perturbed? -/
structure SolveOut where
  x : Option Mat
  status : Nat
  fl : Flags
  singular : Bool
  pert : Bool
  deriving DecidableEq, Repr

/-- Does a matrix hold a NaN or an infinity? -/
def Mat.nonfinite (m : Mat) : Bool := m.flatten.any (fun x => x.val.special)

/-- One system (R165 to R167), by R165's own lines: with tau = +0 and an Inf or a NaN in A, thr is a NaN and every pivot is
small, although R165's closing sentence names only a zero and a NaN pivot (DESIGN CHOICE, log entry 143). NONFINITE_OUT of a
system that KEEP stopped is 0, since no X of it is written (DESIGN CHOICE, log entry 144). -/
def solveOne (n r mode : Nat) (tau : Lane) (a b : Mat) : SolveOut :=
  let am := amax a
  let thr := fmul tau am.1
  let s := (upTo n).foldl (elimCol n r mode thr.1) ⟨a, b, [], am.2 ||| thr.2, none, 0, false⟩
  let nin := a.nonfinite || b.nonfinite
  let zero : Mat := List.replicate n (List.replicate r 0)
  let word := fun (sing pert nout : Bool) =>
    1 + (if sing then 2 else 0) + (if pert then 4 else 0) + (if nin then 8 else 0) + (if nout then 16 else 0) +
      (s.col.getD 0) <<< 8 + s.count <<< 16
  if s.stop then
    if mode = 0 then
      ⟨some (List.replicate n (List.replicate r laneNaN)), word true false true, s.fl ||| fNV, true, false⟩
    else ⟨none, word true false false, s.fl, true, false⟩
  else
    let o := (upTo n).reverse.foldl (backRow n r s) (zero, s.b, s.fl)
    ⟨some o.1, word false (decide (0 < s.count)) o.1.nonfinite, o.2.2, false, decide (0 < s.count)⟩

/-! ## The instruction (R164, R170, R270, R271) -/

/-- Byte ranges of the systems of one array. -/
def sysRanges (base pitch size count : Nat) : List (Nat × Nat) := (upTo count).map (fun t => (base + t * pitch, size))

/-- Do two lists of ranges meet anywhere? -/
def rangesMeet (xs ys : List (Nat × Nat)) : Bool := xs.any (fun x => ys.any (fun y => overlap x.1 x.2 y.1 y.2))

/-- The fields of a SOLVE. -/
def solveRunOf (x : QEntry) (i : IWord) (tau : Lane) (seq : Nat) : SolveRun :=
  let p := x.getD' (i.f 49 46)
  let q := x.getD' ((i.f 49 46) ^^^ 1)
  { seq := seq, word := x.word, aBase := fld 47 0 p, bBase := fld 111 64 p, xBase := fld 175 128 p, sBase := fld 239 192 p
    aPitch := fld 31 0 q, bPitch := fld 95 64 q, xPitch := fld 159 128 q, n := i.f 45 40, r := i.f 39 34
    count := i.f 33 21, mode := i.f 20 19, tau := tau, next := 0 }

/-- Non-zero zero bits of the d pair (R270). -/
def solveZeros (x : QEntry) (i : IWord) : Bool :=
  let p := x.getD' (i.f 49 46)
  let q := x.getD' ((i.f 49 46) ^^^ 1)
  decide (fld 63 48 p ≠ 0) || decide (fld 127 112 p ≠ 0) || decide (fld 191 176 p ≠ 0) || decide (fld 255 240 p ≠ 0) ||
    decide (fld 255 192 q ≠ 0)

/-- The event that refuses a SOLVE (R164, R171, R271). Systems of one array may overlap each other through a small pitch:
R164 speaks of the ranges of different arrays only (DESIGN CHOICE, log entry 145). -/
def solveCheck (c : Nat) (i : IWord) (x : QEntry) (_ : Sq) : Option Nat :=
  let s := solveRunOf x i 0 0
  let as := sysRanges s.aBase s.aPitch (4 * s.n * s.n) s.count
  let bs := sysRanges s.bBase s.bPitch (4 * s.n * s.r) s.count
  let xs := sysRanges s.xBase s.xPitch (4 * s.n * s.r) s.count
  let ss := sysRanges s.sBase 4 4 s.count
  let same := decide (s.xBase = s.bBase) && (decide (s.xPitch = s.bPitch) || decide (s.count = 1))
  if s.n = 0 ∨ 32 < s.n ∨ s.r = 0 ∨ 32 < s.r ∨ s.count = 0 ∨ 4096 < s.count ∨ s.mode = 3 ∨ solveZeros x i then some 0x0303
  else if rangesMeet xs as || rangesMeet xs ss || (!same && rangesMeet xs bs) || rangesMeet ss as || rangesMeet ss bs ||
      rangesMeet as bs then
    some 0x0303
  else if !rowsInSpd c s.aBase s.count s.aPitch (4 * s.n * s.n) || !rowsInSpd c s.bBase s.count s.bPitch (4 * s.n * s.r) ||
      !rowsInSpd c s.xBase s.count s.xPitch (4 * s.n * s.r) || !rowsInSpd c s.sBase s.count 4 4 then some 0x0302
  else none

/-- TAU in force: a negative value or a NaN acts as +0 (R177). -/
def Dev.solveTau (d : Dev) (c : Nat) : Lane :=
  let t : Lane := BitVec.ofNat 32 (d.regFld ⟨.veSolveTol, [c]⟩ 31 0)
  if t.neg? || t.val.isNan then 0 else t

/-- Rows of lanes from bytes. -/
def matOfBytes (n r : Nat) (bs : List Byte) : Mat :=
  chunksOf r n ((unpackElems 32 (n * r) (natOfBytes bs)).map (fun x => BitVec.ofNat 32 x))

/-- Bytes of a matrix. -/
def matBytes (n r : Nat) (m : Mat) : List Byte := bytesOf (4 * n * r) (packElems 32 (m.flatten.map BitVec.toNat))

/-- Systems of a pass (R169). -/
def solveLanes (n : Nat) : Nat := 256 / (if n ≤ 4 then 4 else if n ≤ 8 then 8 else if n ≤ 16 then 16 else 32)

/-- clk for which the start of system t occupies the engine (R157, R170): of the first system of a pass, T_pass, with the
loads of the first pass and the stores of the last. -/
def solveClk (s : SolveRun) (t : Nat) : Nat :=
  let k := solveLanes s.n
  if t % k ≠ 0 then 0
  else
    let pass := 12 * s.n + s.n * (s.n - 1) / 2 + s.n * s.r + s.n * (4 + 2 * s.r)
    let load := if t = 0 then cdiv (min k s.count * 4 * s.n * (s.n + s.r)) 512 else 0
    let store := if s.count ≤ t + k then cdiv ((s.count - t) * (4 * s.n * s.r + 4)) 512 else 0
    load + pass + store

/-- The next system of a running solve (R165 to R168). A stop leaves the flags of the systems completed to the snapshot
(R111, R176). -/
def Dev.solveNext (d : Dev) (c : Nat) (s : SolveRun) : Dev :=
  let t := s.next
  let r := (d.clkCount ⟨.vePerfBusy, [c]⟩ (solveClk s t)).engReads [(s.aBase + t * s.aPitch, 4 * s.n * s.n), (s.bBase + t * s.bPitch, 4 * s.n * s.r)]
  match r.1 with
  | .error ev => (r.2.onVe c (fun v => { v with solve := none, since := v.since ||| s.flags })).veStops c ev
  | .ok bs =>
    let o := solveOne s.n s.r s.mode s.tau (matOfBytes s.n s.n (bs.getD 0 [])) (matOfBytes s.n s.r (bs.getD 1 []))
    let w := r.2.engWrites ((match o.x with
      | some m => [(s.xBase + t * s.xPitch, matBytes s.n s.r m)]
      | none => []) ++ [(s.sBase + 4 * t, bytesOf 4 o.status)])
    match w.1 with
    | some ev => (w.2.onVe c (fun v => { v with solve := none, since := v.since ||| s.flags })).veStops c ev
    | none =>
      let fl := s.flags ||| o.fl
      let last := decide (s.count ≤ t + 1)
      let d1 := w.2.onVe c (fun v => { v with
        solve := if last then none else some { s with next := t + 1, flags := fl }
        flags := v.flags ||| o.fl, since := if last then v.since ||| fl else v.since })
      let k : Reg := ⟨.veSolveStatus, [c]⟩
      let d2 := d1.count k 31 0 1
      let d3 := if o.singular then d2.count k 47 32 1 else d2
      if o.pert then d3.count k 63 48 1 else d3

/-- SOLVE: `row` solves the next system of the batch. -/
def Dev.veSolve (d : Dev) (c : Nat) (i : IWord) (ph : Phase) : Dev :=
  match ph with
  | .issue => d.engIssue c 2 0x58 2 i (legalVs i)
  | .begin => d.veBegin c 0x58 i (solveCheck c i) (fun x _ d' =>
      let run := solveRunOf x i (d'.solveTau c) (d.core c).ve.eng.nextSeq
      d'.onVe c (fun v => { v with solve := some run }))
  | .row =>
    match (d.core c).ve.solve with
    | some s => if s.word = i.word 2 0x58 then d.solveNext c s else d
    | none => d

end Sys2Proof.Machine
end

