-- ==== Sys2Proof/Machine/ExecVector.lean ====
section
/-! DEFINITION. Meanings of the rows of the vector engine (05, R262 to R271). -/
namespace Sys2Proof.Machine

/-- FADD (R263). -/
def execFadd (c : CoreId) (i : IWord) (ph : Phase) (s : State) : Host.Outcome State Fault Refusal :=
  coreRunF s c.val (fun d => d.veLanes c.val 0x00 i ph false none (fun a b _ => fadd a b))

/-- FSUB (R263). -/
def execFsub (c : CoreId) (i : IWord) (ph : Phase) (s : State) : Host.Outcome State Fault Refusal :=
  coreRunF s c.val (fun d => d.veLanes c.val 0x01 i ph false none (fun a b _ => fsub a b))

/-- FMUL (R263). -/
def execFmul (c : CoreId) (i : IWord) (ph : Phase) (s : State) : Host.Outcome State Fault Refusal :=
  coreRunF s c.val (fun d => d.veLanes c.val 0x02 i ph false none (fun a b _ => fmul a b))

/-- FMA (R263). -/
def execFma (c : CoreId) (i : IWord) (ph : Phase) (s : State) : Host.Outcome State Fault Refusal :=
  coreRunF s c.val (fun d => d.veLanes c.val 0x03 i ph false none (fun a b e => ffma a b e))

/-- FMAX (R152). -/
def execFmax (c : CoreId) (i : IWord) (ph : Phase) (s : State) : Host.Outcome State Fault Refusal :=
  coreRunF s c.val (fun d => d.veLanes c.val 0x04 i ph false none (fun a b _ => fmax a b))

/-- FMIN (R152). -/
def execFmin (c : CoreId) (i : IWord) (ph : Phase) (s : State) : Host.Outcome State Fault Refusal :=
  coreRunF s c.val (fun d => d.veLanes c.val 0x05 i ph false none (fun a b _ => fmin a b))

/-- FCMP (R152). -/
def execFcmp (c : CoreId) (i : IWord) (ph : Phase) (s : State) : Host.Outcome State Fault Refusal :=
  coreRunF s c.val (fun d => d.veLanes c.val 0x06 i ph true (condCheck i) (fun a b _ => fcmp (i.f 22 20) a b))

/-- FABS (R263). -/
def execFabs (c : CoreId) (i : IWord) (ph : Phase) (s : State) : Host.Outcome State Fault Refusal :=
  coreRunF s c.val (fun d => d.veLanes c.val 0x07 i ph false none (fun a _ _ => signOp fabs a))

/-- FNEG (R263). -/
def execFneg (c : CoreId) (i : IWord) (ph : Phase) (s : State) : Host.Outcome State Fault Refusal :=
  coreRunF s c.val (fun d => d.veLanes c.val 0x08 i ph false none (fun a _ _ => signOp fneg a))

/-- SEL (R263). -/
def execSel (c : CoreId) (i : IWord) (ph : Phase) (s : State) : Host.Outcome State Fault Refusal :=
  coreRunF s c.val (fun d => d.veLanes c.val 0x09 i ph false none (fun a b e => (if e ≠ 0 then a else b, 0)))

/-- IADD (R263). -/
def execIadd (c : CoreId) (i : IWord) (ph : Phase) (s : State) : Host.Outcome State Fault Refusal :=
  coreRunF s c.val (fun d => d.veLanes c.val 0x10 i ph false none (fun a b _ => noFlag (fun x y => x + y) a b))

/-- ISUB (R263). -/
def execIsub (c : CoreId) (i : IWord) (ph : Phase) (s : State) : Host.Outcome State Fault Refusal :=
  coreRunF s c.val (fun d => d.veLanes c.val 0x11 i ph false none (fun a b _ => noFlag (fun x y => x - y) a b))

/-- IMUL (R263). -/
def execImul (c : CoreId) (i : IWord) (ph : Phase) (s : State) : Host.Outcome State Fault Refusal :=
  coreRunF s c.val (fun d => d.veLanes c.val 0x12 i ph false none (fun a b _ => noFlag (fun x y => x * y) a b))

/-- VE_SLL (R263). -/
def execVeSll (c : CoreId) (i : IWord) (ph : Phase) (s : State) : Host.Outcome State Fault Refusal :=
  coreRunF s c.val (fun d => d.veLanes c.val 0x13 i ph false none (fun a b _ => noFlag laneSll a b))

/-- VE_SRL (R263). -/
def execVeSrl (c : CoreId) (i : IWord) (ph : Phase) (s : State) : Host.Outcome State Fault Refusal :=
  coreRunF s c.val (fun d => d.veLanes c.val 0x14 i ph false none (fun a b _ => noFlag laneSrl a b))

/-- VE_SRA (R263). -/
def execVeSra (c : CoreId) (i : IWord) (ph : Phase) (s : State) : Host.Outcome State Fault Refusal :=
  coreRunF s c.val (fun d => d.veLanes c.val 0x15 i ph false none (fun a b _ => noFlag laneSra a b))

/-- VE_AND (R263). -/
def execVeAnd (c : CoreId) (i : IWord) (ph : Phase) (s : State) : Host.Outcome State Fault Refusal :=
  coreRunF s c.val (fun d => d.veLanes c.val 0x16 i ph false none (fun a b _ => noFlag (fun x y => x &&& y) a b))

/-- VE_OR (R263). -/
def execVeOr (c : CoreId) (i : IWord) (ph : Phase) (s : State) : Host.Outcome State Fault Refusal :=
  coreRunF s c.val (fun d => d.veLanes c.val 0x17 i ph false none (fun a b _ => noFlag (fun x y => x ||| y) a b))

/-- VE_XOR (R263). -/
def execVeXor (c : CoreId) (i : IWord) (ph : Phase) (s : State) : Host.Outcome State Fault Refusal :=
  coreRunF s c.val (fun d => d.veLanes c.val 0x18 i ph false none (fun a b _ => noFlag (fun x y => x ^^^ y) a b))

/-- ICMP (R263). -/
def execIcmp (c : CoreId) (i : IWord) (ph : Phase) (s : State) : Host.Outcome State Fault Refusal :=
  coreRunF s c.val (fun d => d.veLanes c.val 0x19 i ph true (condCheck i) (fun a b _ => noFlag (icmp (i.f 22 20)) a b))

/-- PERM (R263). -/
def execPerm (c : CoreId) (i : IWord) (ph : Phase) (s : State) : Host.Outcome State Fault Refusal :=
  coreRunF s c.val (fun d => d.veMove c.val 0x20 i ph 0 none permLanes)

/-- BCAST (R263). -/
def execBcast (c : CoreId) (i : IWord) (ph : Phase) (s : State) : Host.Outcome State Fault Refusal :=
  coreRunF s c.val (fun d => d.veMove c.val 0x21 i ph 0xFF none (fun a _ => List.replicate 256 (a.lane (i.f 15 8))))

/-- LSHIFT (R263). -/
def execLshift (c : CoreId) (i : IWord) (ph : Phase) (s : State) : Host.Outcome State Fault Refusal :=
  coreRunF s c.val (fun d => d.veMove c.val 0x22 i ph 0xFFF (lshiftCheck i) (fun a _ => shiftLanes (sext 12 (i.f 19 8)) a))

/-- EXP (R151). -/
def execExp (c : CoreId) (i : IWord) (ph : Phase) (s : State) : Host.Outcome State Fault Refusal :=
  coreRunF s c.val (fun d => d.veLanes c.val 0x28 i ph false none (fun a _ _ => fnLane .exp a))

/-- EXP2 (R151). -/
def execExp2 (c : CoreId) (i : IWord) (ph : Phase) (s : State) : Host.Outcome State Fault Refusal :=
  coreRunF s c.val (fun d => d.veLanes c.val 0x29 i ph false none (fun a _ _ => fnLane .exp2 a))

/-- LOG (R151). -/
def execLog (c : CoreId) (i : IWord) (ph : Phase) (s : State) : Host.Outcome State Fault Refusal :=
  coreRunF s c.val (fun d => d.veLanes c.val 0x2A i ph false none (fun a _ _ => fnLane .log a))

/-- LOG2 (R151). -/
def execLog2 (c : CoreId) (i : IWord) (ph : Phase) (s : State) : Host.Outcome State Fault Refusal :=
  coreRunF s c.val (fun d => d.veLanes c.val 0x2B i ph false none (fun a _ _ => fnLane .log2 a))

/-- RCP (R151). -/
def execRcp (c : CoreId) (i : IWord) (ph : Phase) (s : State) : Host.Outcome State Fault Refusal :=
  coreRunF s c.val (fun d => d.veLanes c.val 0x2C i ph false none (fun a _ _ => fnLane .rcp a))

/-- RSQRT (R151). -/
def execRsqrt (c : CoreId) (i : IWord) (ph : Phase) (s : State) : Host.Outcome State Fault Refusal :=
  coreRunF s c.val (fun d => d.veLanes c.val 0x2D i ph false none (fun a _ _ => fnLane .rsqrt a))

/-- TANH (R151). -/
def execTanh (c : CoreId) (i : IWord) (ph : Phase) (s : State) : Host.Outcome State Fault Refusal :=
  coreRunF s c.val (fun d => d.veLanes c.val 0x2E i ph false none (fun a _ _ => fnLane .tanh a))

/-- SIGMOID (R151). -/
def execSigmoid (c : CoreId) (i : IWord) (ph : Phase) (s : State) : Host.Outcome State Fault Refusal :=
  coreRunF s c.val (fun d => d.veLanes c.val 0x2F i ph false none (fun a _ _ => fnLane .sigmoid a))

/-- ERF (R151). -/
def execErf (c : CoreId) (i : IWord) (ph : Phase) (s : State) : Host.Outcome State Fault Refusal :=
  coreRunF s c.val (fun d => d.veLanes c.val 0x30 i ph false none (fun a _ _ => fnLane .erf a))

/-- SINPI (R151). -/
def execSinpi (c : CoreId) (i : IWord) (ph : Phase) (s : State) : Host.Outcome State Fault Refusal :=
  coreRunF s c.val (fun d => d.veLanes c.val 0x31 i ph false none (fun a _ _ => fnLane .sinpi a))

/-- COSPI (R151). -/
def execCospi (c : CoreId) (i : IWord) (ph : Phase) (s : State) : Host.Outcome State Fault Refusal :=
  coreRunF s c.val (fun d => d.veLanes c.val 0x32 i ph false none (fun a _ _ => fnLane .cospi a))

/-- DIV (R150). -/
def execDiv (c : CoreId) (i : IWord) (ph : Phase) (s : State) : Host.Outcome State Fault Refusal :=
  coreRunF s c.val (fun d => d.veLanes c.val 0x34 i ph false none (fun a b _ => fdiv a b))

/-- SQRT (R150). -/
def execSqrt (c : CoreId) (i : IWord) (ph : Phase) (s : State) : Host.Outcome State Fault Refusal :=
  coreRunF s c.val (fun d => d.veLanes c.val 0x35 i ph false none (fun a _ _ => fsqrt a))

/-- RSUM (R158). -/
def execRsum (c : CoreId) (i : IWord) (ph : Phase) (s : State) : Host.Outcome State Fault Refusal :=
  coreRunF s c.val (fun d => d.veReduce c.val 0x38 i ph (treeSeg fadd 0x80000000))

/-- RMAX (R158). -/
def execRmax (c : CoreId) (i : IWord) (ph : Phase) (s : State) : Host.Outcome State Fault Refusal :=
  coreRunF s c.val (fun d => d.veReduce c.val 0x39 i ph (treeSeg fmax 0xFF800000))

/-- RMIN (R158). -/
def execRmin (c : CoreId) (i : IWord) (ph : Phase) (s : State) : Host.Outcome State Fault Refusal :=
  coreRunF s c.val (fun d => d.veReduce c.val 0x3A i ph (treeSeg fmin 0x7F800000))

/-- IRSUM (R158). -/
def execIrsum (c : CoreId) (i : IWord) (ph : Phase) (s : State) : Host.Outcome State Fault Refusal :=
  coreRunF s c.val (fun d => d.veReduce c.val 0x3B i ph (treeSeg (noFlag (fun x y => x + y)) 0))

/-- RSUMX (R159). -/
def execRsumx (c : CoreId) (i : IWord) (ph : Phase) (s : State) : Host.Outcome State Fault Refusal :=
  coreRunF s c.val (fun d => d.veReduce c.val 0x3C i ph exactSeg)

/-- OSMX (R161). -/
def execOsmx (c : CoreId) (i : IWord) (ph : Phase) (s : State) : Host.Outcome State Fault Refusal :=
  coreRunF s c.val (fun d => d.veOsmx c.val i ph)

/-- CVT_R (R264). -/
def execCvtR (c : CoreId) (i : IWord) (ph : Phase) (s : State) : Host.Outcome State Fault Refusal :=
  coreRunF s c.val (fun d => d.veCvtR c.val i ph)

/-- VLD (R265). -/
def execVld (c : CoreId) (i : IWord) (ph : Phase) (s : State) : Host.Outcome State Fault Refusal :=
  coreRunF s c.val (fun d => d.veVld c.val i ph)

/-- VST (R265). -/
def execVst (c : CoreId) (i : IWord) (ph : Phase) (s : State) : Host.Outcome State Fault Refusal :=
  coreRunF s c.val (fun d => d.veVst c.val i ph)

/-- CVT_LD (R266). -/
def execCvtLd (c : CoreId) (i : IWord) (ph : Phase) (s : State) : Host.Outcome State Fault Refusal :=
  coreRunF s c.val (fun d => d.veCvtLd c.val i ph)

/-- CVT_ST (R267). -/
def execCvtSt (c : CoreId) (i : IWord) (ph : Phase) (s : State) : Host.Outcome State Fault Refusal :=
  coreRunF s c.val (fun d => d.veCvtSt c.val i ph)

/-- CVT_EXP (R268). -/
def execCvtExp (c : CoreId) (i : IWord) (ph : Phase) (s : State) : Host.Outcome State Fault Refusal :=
  coreRunF s c.val (fun d => d.veCvtExp c.val i ph)

/-- RAND (R163). -/
def execRand (c : CoreId) (i : IWord) (ph : Phase) (s : State) : Host.Outcome State Fault Refusal :=
  coreRunF s c.val (fun d => d.veRandom c.val 0x50 i ph false false (randLane i))

/-- RANDU (R163). -/
def execRandu (c : CoreId) (i : IWord) (ph : Phase) (s : State) : Host.Outcome State Fault Refusal :=
  coreRunF s c.val (fun d => d.veRandom c.val 0x51 i ph false false (randuLane i))

/-- DROP (R163). -/
def execDrop (c : CoreId) (i : IWord) (ph : Phase) (s : State) : Host.Outcome State Fault Refusal :=
  coreRunF s c.val (fun d => d.veRandom c.val 0x52 i ph true false (dropLane i))

/-- RANDN (R163). -/
def execRandn (c : CoreId) (i : IWord) (ph : Phase) (s : State) : Host.Outcome State Fault Refusal :=
  coreRunF s c.val (fun d => d.veRandom c.val 0x53 i ph false true (randnLane i))

/-- SOLVE (R165). -/
def execSolve (c : CoreId) (i : IWord) (ph : Phase) (s : State) : Host.Outcome State Fault Refusal :=
  coreRunF s c.val (fun d => d.veSolve c.val i ph)

/-- VE_RESUME (R172). -/
def execVeResume (ag : Agent) (c : CoreId) (s : State) : Host.Outcome State Fault Refusal :=
  runF s (fun d => d.ctrlWrite ag ⟨.veCtrl, [c.val]⟩ 1)

/-- VE_FLUSH (R172). -/
def execVeFlush (ag : Agent) (c : CoreId) (s : State) : Host.Outcome State Fault Refusal :=
  runF s (fun d => d.ctrlWrite ag ⟨.veCtrl, [c.val]⟩ 2)

end Sys2Proof.Machine
end

