-- ==== Sys2Proof/Machine/Dispatch.lean ====
section
/-! DEFINITION. The effect of a command on everything but the queue: one arm per row of spec/opcode_table.json. -/
namespace Sys2Proof.Machine

/-- The meaning of a command. -/
def exec (i : Instr) (s : State) : Host.Outcome State Fault Refusal :=
  match i with
  -- ExecTempo
  | .tempoSeal m => Sys2Proof.Machine.execTempoSeal m s
  | .deadlineSample => Sys2Proof.Machine.execDeadlineSample s
  | .tempoEdge => Sys2Proof.Machine.execTempoEdge s
  | .stalledWritesLand => Sys2Proof.Machine.execStalledWritesLand s
  | .tempoWaitRelease c => Sys2Proof.Machine.execTempoWaitRelease c s
  | .syncReceive q msg => Sys2Proof.Machine.execSyncReceive q msg s
  | .delayReqReceive q t1 t2 t3 => Sys2Proof.Machine.execDelayReqReceive q t1 t2 t3 s
  | .delayRespReceive q t1 t2 t3 t4 => Sys2Proof.Machine.execDelayRespReceive q t1 t2 t3 t4 s
  | .announceSend => Sys2Proof.Machine.execAnnounceSend s
  | .announceReceive q prio dev => Sys2Proof.Machine.execAnnounceReceive q prio dev s
  | .kingElectionWin => Sys2Proof.Machine.execKingElectionWin s
  | .acqFineReached => Sys2Proof.Machine.execAcqFineReached s
  | .acqLockedReached => Sys2Proof.Machine.execAcqLockedReached s
  | .alignLost => Sys2Proof.Machine.execAlignLost s
  | .holdoverEntry => Sys2Proof.Machine.execHoldoverEntry s
  | .masterLost => Sys2Proof.Machine.execMasterLost s
  | .failover => Sys2Proof.Machine.execFailover s
  | .holdoverAnnounceResume => Sys2Proof.Machine.execHoldoverAnnounceResume s
  | .periodChange => Sys2Proof.Machine.execPeriodChange s
  | .rwtWrite ag a n v => Sys2Proof.Machine.execRwtWrite ag a n v s
  | .stageDiscard k => Sys2Proof.Machine.execStageDiscard k s
  | .registerWrite ag a n v => Sys2Proof.Machine.execRegisterWrite ag a n v s
  -- ExecMatrix
  | .meLoad c w ph => Sys2Proof.Machine.execMeLoad c w ph s
  | .meStream c w ph => Sys2Proof.Machine.execMeStream c w ph s
  | .meStreamRowUpdate c mismatch => Sys2Proof.Machine.execMeStreamRowUpdate c mismatch s
  | .meDrain c w ph => Sys2Proof.Machine.execMeDrain c w ph s
  | .meDrainRowWrite c => Sys2Proof.Machine.execMeDrainRowWrite c s
  | .meAddw c w ph => Sys2Proof.Machine.execMeAddw c w ph s
  | .meClear c w ph => Sys2Proof.Machine.execMeClear c w ph s
  | .meResume ag c => Sys2Proof.Machine.execMeResume ag c s
  | .meFlush ag c => Sys2Proof.Machine.execMeFlush ag c s
  | .meColTest ag c => Sys2Proof.Machine.execMeColTest ag c s
  | .meColTestDone k fail => Sys2Proof.Machine.execMeColTestDone k fail s
  -- ExecVector
  | .fadd c w ph => Sys2Proof.Machine.execFadd c w ph s
  | .fsub c w ph => Sys2Proof.Machine.execFsub c w ph s
  | .fmul c w ph => Sys2Proof.Machine.execFmul c w ph s
  | .fma c w ph => Sys2Proof.Machine.execFma c w ph s
  | .fmax c w ph => Sys2Proof.Machine.execFmax c w ph s
  | .fmin c w ph => Sys2Proof.Machine.execFmin c w ph s
  | .fcmp c w ph => Sys2Proof.Machine.execFcmp c w ph s
  | .fabs c w ph => Sys2Proof.Machine.execFabs c w ph s
  | .fneg c w ph => Sys2Proof.Machine.execFneg c w ph s
  | .sel c w ph => Sys2Proof.Machine.execSel c w ph s
  | .iadd c w ph => Sys2Proof.Machine.execIadd c w ph s
  | .isub c w ph => Sys2Proof.Machine.execIsub c w ph s
  | .imul c w ph => Sys2Proof.Machine.execImul c w ph s
  | .veSll c w ph => Sys2Proof.Machine.execVeSll c w ph s
  | .veSrl c w ph => Sys2Proof.Machine.execVeSrl c w ph s
  | .veSra c w ph => Sys2Proof.Machine.execVeSra c w ph s
  | .veAnd c w ph => Sys2Proof.Machine.execVeAnd c w ph s
  | .veOr c w ph => Sys2Proof.Machine.execVeOr c w ph s
  | .veXor c w ph => Sys2Proof.Machine.execVeXor c w ph s
  | .icmp c w ph => Sys2Proof.Machine.execIcmp c w ph s
  | .perm c w ph => Sys2Proof.Machine.execPerm c w ph s
  | .bcast c w ph => Sys2Proof.Machine.execBcast c w ph s
  | .lshift c w ph => Sys2Proof.Machine.execLshift c w ph s
  | .exp c w ph => Sys2Proof.Machine.execExp c w ph s
  | .exp2 c w ph => Sys2Proof.Machine.execExp2 c w ph s
  | .log c w ph => Sys2Proof.Machine.execLog c w ph s
  | .log2 c w ph => Sys2Proof.Machine.execLog2 c w ph s
  | .rcp c w ph => Sys2Proof.Machine.execRcp c w ph s
  | .rsqrt c w ph => Sys2Proof.Machine.execRsqrt c w ph s
  | .tanh c w ph => Sys2Proof.Machine.execTanh c w ph s
  | .sigmoid c w ph => Sys2Proof.Machine.execSigmoid c w ph s
  | .erf c w ph => Sys2Proof.Machine.execErf c w ph s
  | .sinpi c w ph => Sys2Proof.Machine.execSinpi c w ph s
  | .cospi c w ph => Sys2Proof.Machine.execCospi c w ph s
  | .div c w ph => Sys2Proof.Machine.execDiv c w ph s
  | .sqrt c w ph => Sys2Proof.Machine.execSqrt c w ph s
  | .rsum c w ph => Sys2Proof.Machine.execRsum c w ph s
  | .rmax c w ph => Sys2Proof.Machine.execRmax c w ph s
  | .rmin c w ph => Sys2Proof.Machine.execRmin c w ph s
  | .irsum c w ph => Sys2Proof.Machine.execIrsum c w ph s
  | .rsumx c w ph => Sys2Proof.Machine.execRsumx c w ph s
  | .osmx c w ph => Sys2Proof.Machine.execOsmx c w ph s
  | .cvtR c w ph => Sys2Proof.Machine.execCvtR c w ph s
  | .vld c w ph => Sys2Proof.Machine.execVld c w ph s
  | .vst c w ph => Sys2Proof.Machine.execVst c w ph s
  | .cvtLd c w ph => Sys2Proof.Machine.execCvtLd c w ph s
  | .cvtSt c w ph => Sys2Proof.Machine.execCvtSt c w ph s
  | .cvtExp c w ph => Sys2Proof.Machine.execCvtExp c w ph s
  | .rand c w ph => Sys2Proof.Machine.execRand c w ph s
  | .randu c w ph => Sys2Proof.Machine.execRandu c w ph s
  | .drop c w ph => Sys2Proof.Machine.execDrop c w ph s
  | .randn c w ph => Sys2Proof.Machine.execRandn c w ph s
  | .solve c w ph => Sys2Proof.Machine.execSolve c w ph s
  | .veResume ag c => Sys2Proof.Machine.execVeResume ag c s
  | .veFlush ag c => Sys2Proof.Machine.execVeFlush ag c s
  -- ExecScalar
  | .nop c w => Sys2Proof.Machine.execNop c w s
  | .add c w => Sys2Proof.Machine.execAdd c w s
  | .sub c w => Sys2Proof.Machine.execSub c w s
  | .and c w => Sys2Proof.Machine.execAnd c w s
  | .or c w => Sys2Proof.Machine.execOr c w s
  | .xor c w => Sys2Proof.Machine.execXor c w s
  | .sll c w => Sys2Proof.Machine.execSll c w s
  | .srl c w => Sys2Proof.Machine.execSrl c w s
  | .sra c w => Sys2Proof.Machine.execSra c w s
  | .mul c w => Sys2Proof.Machine.execMul c w s
  | .mulhu c w => Sys2Proof.Machine.execMulhu c w s
  | .divu c w => Sys2Proof.Machine.execDivu c w s
  | .remu c w => Sys2Proof.Machine.execRemu c w s
  | .min c w => Sys2Proof.Machine.execMin c w s
  | .max c w => Sys2Proof.Machine.execMax c w s
  | .addi c w => Sys2Proof.Machine.execAddi c w s
  | .andi c w => Sys2Proof.Machine.execAndi c w s
  | .ori c w => Sys2Proof.Machine.execOri c w s
  | .xori c w => Sys2Proof.Machine.execXori c w s
  | .slli c w => Sys2Proof.Machine.execSlli c w s
  | .srli c w => Sys2Proof.Machine.execSrli c w s
  | .srai c w => Sys2Proof.Machine.execSrai c w s
  | .li c w => Sys2Proof.Machine.execLi c w s
  | .lih c w => Sys2Proof.Machine.execLih c w s
  | .cmp c w => Sys2Proof.Machine.execCmp c w s
  | .cmpi c w => Sys2Proof.Machine.execCmpi c w s
  | .plog c w => Sys2Proof.Machine.execPlog c w s
  | .pget c w => Sys2Proof.Machine.execPget c w s
  | .pput c w => Sys2Proof.Machine.execPput c w s
  -- ExecSequencer
  | .br c w => Sys2Proof.Machine.execBr c w s
  | .call c w => Sys2Proof.Machine.execCall c w s
  | .ret c w => Sys2Proof.Machine.execRet c w s
  | .jr c w => Sys2Proof.Machine.execJr c w s
  | .loop c w => Sys2Proof.Machine.execLoop c w s
  | .lidx c w => Sys2Proof.Machine.execLidx c w s
  | .ld c w => Sys2Proof.Machine.execLd c w s
  | .st c w => Sys2Proof.Machine.execSt c w s
  | .mova c w => Sys2Proof.Machine.execMova c w s
  | .rda c w => Sys2Proof.Machine.execRda c w s
  | .movd c w => Sys2Proof.Machine.execMovd c w s
  | .rdd c w => Sys2Proof.Machine.execRdd c w s
  | .vset c w => Sys2Proof.Machine.execVset c w s
  | .vget c w => Sys2Proof.Machine.execVget c w s
  | .semWait c w ph => Sys2Proof.Machine.execSemWait c w ph s
  | .semSig c w ph => Sys2Proof.Machine.execSemSig c w ph s
  | .semRequestArrival g ids elapsed => Sys2Proof.Machine.execSemRequestArrival g ids elapsed s
  | .semWaitResume id => Sys2Proof.Machine.execSemWaitResume id s
  | .twait c w => Sys2Proof.Machine.execTwait c w s
  | .tnow c w => Sys2Proof.Machine.execTnow c w s
  | .fence c w => Sys2Proof.Machine.execFence c w s
  | .fenceRelease c => Sys2Proof.Machine.execFenceRelease c s
  | .genAcq c w => Sys2Proof.Machine.execGenAcq c w s
  | .genRel c w => Sys2Proof.Machine.execGenRel c w s
  | .genClaim c w => Sys2Proof.Machine.execGenClaim c w s
  | .genClaimComplete p st slot => Sys2Proof.Machine.execGenClaimComplete p st slot s
  | .genReady c w => Sys2Proof.Machine.execGenReady c w s
  | .fault c w => Sys2Proof.Machine.execFault c w s
  | .halt c w => Sys2Proof.Machine.execHalt c w s
  | .sqResume c => Sys2Proof.Machine.execSqResume c s
  | .sqStop c => Sys2Proof.Machine.execSqStop c s
  -- ExecFetch
  | .fteCopy c w ph => Sys2Proof.Machine.execFteCopy c w ph s
  | .fteGather c w ph => Sys2Proof.Machine.execFteGather c w ph s
  | .fteZero c w ph => Sys2Proof.Machine.execFteZero c w ph s
  | .fteCancel c w => Sys2Proof.Machine.execFteCancel c w s
  | .fteRequestReturn c k es => Sys2Proof.Machine.execFteRequestReturn c k es s
  | .fteResume ag c => Sys2Proof.Machine.execFteResume ag c s
  | .fteFlush ag c => Sys2Proof.Machine.execFteFlush ag c s
  -- ExecSram
  | .eccWriteback w => Sys2Proof.Machine.execEccWriteback w s
  | .patrolScrubRead u b upset => Sys2Proof.Machine.execPatrolScrubRead u b upset s
  | .bankPowerRequest ag u b req => Sys2Proof.Machine.execBankPowerRequest ag u b req s
  | .bankEnterRetDone u b => Sys2Proof.Machine.execBankEnterRetDone u b s
  | .bankWakeDone u b => Sys2Proof.Machine.execBankWakeDone u b s
  | .bankDownDone u b => Sys2Proof.Machine.execBankDownDone u b s
  | .bankUpDone u b => Sys2Proof.Machine.execBankUpDone u b s
  -- ExecDma
  | .dmaBatchStart g => Sys2Proof.Machine.execDmaBatchStart g s
  | .dmaBurstReturn g es => Sys2Proof.Machine.execDmaBurstReturn g es s
  | .dmaDescriptorEnd g => Sys2Proof.Machine.execDmaDescriptorEnd g s
  | .dmaAbort ag g ch k => Sys2Proof.Machine.execDmaAbort ag g ch k s
  | .dmaAbortComplete g ch => Sys2Proof.Machine.execDmaAbortComplete g ch s
  | .remoteRequest q pkt es => Sys2Proof.Machine.execRemoteRequest q pkt es s
  | .readDataReceive pkt => Sys2Proof.Machine.execReadDataReceive pkt s
  | .writeAckReceive pkt => Sys2Proof.Machine.execWriteAckReceive pkt s
  | .nakReceive pkt => Sys2Proof.Machine.execNakReceive pkt s
  | .dmaInwinEnable ag p w cfg => Sys2Proof.Machine.execDmaInwinEnable ag p w cfg s
  -- ExecHbm
  | .hbmRead a err => Sys2Proof.Machine.execHbmRead a err s
  | .hbmWrite a bs poison err => Sys2Proof.Machine.execHbmWrite a bs poison err s
  | .hbmGather a err => Sys2Proof.Machine.execHbmGather a err s
  | .hbmPatrolScrub t q err => Sys2Proof.Machine.execHbmPatrolScrub t q err s
  | .hbmTempSample t k temp => Sys2Proof.Machine.execHbmTempSample t k temp s
  | .hbmRefresh => Sys2Proof.Machine.execHbmRefresh s
  | .hbmCaParityError t q => Sys2Proof.Machine.execHbmCaParityError t q s
  | .hbmRemedyDone t es => Sys2Proof.Machine.execHbmRemedyDone t es s
  | .hbmRetrainDone t ch ok => Sys2Proof.Machine.execHbmRetrainDone t ch ok s
  -- ExecNeano
  | .neanoGroupUpdate c g es => Sys2Proof.Machine.execNeanoGroupUpdate c g es s
  | .neaUnitRepairDone c => Sys2Proof.Machine.execNeaUnitRepairDone c s
  | .neaImport c => Sys2Proof.Machine.execNeaImport c s
  | .neaCommitImport c => Sys2Proof.Machine.execNeaCommitImport c s
  | .neaResume c => Sys2Proof.Machine.execNeaResume c s
  | .neaRelease c => Sys2Proof.Machine.execNeaRelease c s
  | .neaReleaseDone c => Sys2Proof.Machine.execNeaReleaseDone c s
  | .slowWindowAccess who a n data es => Sys2Proof.Machine.execSlowWindowAccess who a n data es s
  | .mirrorReceive pkt => Sys2Proof.Machine.execMirrorReceive pkt s
  | .mirrorAckReceive c ring ok => Sys2Proof.Machine.execMirrorAckReceive c ring ok s
  | .neaPkgFail k => Sys2Proof.Machine.execNeaPkgFail k s
  | .neaPkgCopyDone => Sys2Proof.Machine.execNeaPkgCopyDone s
  | .neaRebuildDone => Sys2Proof.Machine.execNeaRebuildDone s
  -- ExecDarvo
  | .portSignalDetect q => Sys2Proof.Machine.execPortSignalDetect q s
  | .portTrainDone q => Sys2Proof.Machine.execPortTrainDone q s
  | .portTrainTimeout q => Sys2Proof.Machine.execPortTrainTimeout q s
  | .portAlignDone q => Sys2Proof.Machine.execPortAlignDone q s
  | .identReceive q id => Sys2Proof.Machine.execIdentReceive q id s
  | .creditExchange q caps => Sys2Proof.Machine.execCreditExchange q caps s
  | .portLossOfLock q => Sys2Proof.Machine.execPortLossOfLock q s
  | .portRetrainDone q => Sys2Proof.Machine.execPortRetrainDone q s
  | .portRetrainTimeout q => Sys2Proof.Machine.execPortRetrainTimeout q s
  | .dvoRetrain q => Sys2Proof.Machine.execDvoRetrain q s
  | .dvoRelease q => Sys2Proof.Machine.execDvoRelease q s
  | .dvoForceDown q => Sys2Proof.Machine.execDvoForceDown q s
  | .packetTransmit q vc es => Sys2Proof.Machine.execPacketTransmit q vc es s
  | .packetReceive q seq pkt es corr => Sys2Proof.Machine.execPacketReceive q seq pkt es corr s
  | .linkAckSend l => Sys2Proof.Machine.execLinkAckSend l s
  | .linkAckReceive q seq => Sys2Proof.Machine.execLinkAckReceive q seq s
  | .fecUncorrectable q => Sys2Proof.Machine.execFecUncorrectable q s
  | .linkNakReceive q seq => Sys2Proof.Machine.execLinkNakReceive q seq s
  | .creditReturnReceive q vc dl n => Sys2Proof.Machine.execCreditReturnReceive q vc dl n s
  | .recountReceive q freed caps => Sys2Proof.Machine.execRecountReceive q freed caps s
  | .dvoRouterFail t col r ports => Sys2Proof.Machine.execDvoRouterFail t col r ports s
  -- ExecReduction
  | .reduceLocalReady p n cnt es => Sys2Proof.Machine.execReduceLocalReady p n cnt es s
  | .reduceReceive q pkt upset => Sys2Proof.Machine.execReduceReceive q pkt upset s
  | .gsendChunkRead p n => Sys2Proof.Machine.execGsendChunkRead p n s
  | .gatherReceive q pkt => Sys2Proof.Machine.execGatherReceive q pkt s
  -- ExecPartition
  | .prtLoad p img => Sys2Proof.Machine.execPrtLoad p img s
  | .loadComplete p => Sys2Proof.Machine.execLoadComplete p s
  | .prtKill p => Sys2Proof.Machine.execPrtKill p s
  | .prtCastle p => Sys2Proof.Machine.execPrtCastle p s
  | .revocationComplete p => Sys2Proof.Machine.execRevocationComplete p s
  | .prtPruneGo c => Sys2Proof.Machine.execPrtPruneGo c s
  | .pruneComplete c => Sys2Proof.Machine.execPruneComplete c s
  | .spareZeroFillDone k => Sys2Proof.Machine.execSpareZeroFillDone k s
  | .hubCoreFail h => Sys2Proof.Machine.execHubCoreFail h s
  | .hubCoreGraft h => Sys2Proof.Machine.execHubCoreGraft h s
  | .cvuFeedStart ag u len => Sys2Proof.Machine.execCvuFeedStart ag u len s
  | .cvuFeedDone u => Sys2Proof.Machine.execCvuFeedDone u s
  | .cvuInit ag u => Sys2Proof.Machine.execCvuInit ag u s
  | .cvuAbort ag u steps => Sys2Proof.Machine.execCvuAbort ag u steps s
  | .cgEvaluate v => Sys2Proof.Machine.execCgEvaluate v s
  -- ExecPower
  | .refclkLoss => Sys2Proof.Machine.execRefclkLoss s
  | .clkPllUnlock k => Sys2Proof.Machine.execClkPllUnlock k s
  | .pllRelock k => Sys2Proof.Machine.execPllRelock k s
  | .pllRelockTimeout k => Sys2Proof.Machine.execPllRelockTimeout k s
  | .voltageStepDone t => Sys2Proof.Machine.execVoltageStepDone t s
  | .pwrOvercurrent g => Sys2Proof.Machine.execPwrOvercurrent g s
  | .pwrThermalTrip loc => Sys2Proof.Machine.execPwrThermalTrip loc s
  | .clockEnableWrite b v => Sys2Proof.Machine.execClockEnableWrite b v s
  | .clockEnableUpDone b k => Sys2Proof.Machine.execClockEnableUpDone b k s
  | .clockEnableStopDone b k => Sys2Proof.Machine.execClockEnableStopDone b k s
  | .powerTransitionDone t => Sys2Proof.Machine.execPowerTransitionDone t s
  | .resetNAssert => Sys2Proof.Machine.execResetNAssert s
  | .resetNRelease => Sys2Proof.Machine.execResetNRelease s
  | .powerGoodRise => Sys2Proof.Machine.execPowerGoodRise s
  | .powerGoodFall => Sys2Proof.Machine.execPowerGoodFall s
  -- ExecSecurity
  | .secReset => Sys2Proof.Machine.execSecReset s
  | .romVerify a b => Sys2Proof.Machine.execRomVerify a b s
  | .fs1StageDone m o cfg => Sys2Proof.Machine.execFs1StageDone m o cfg s
  | .tileBringupTimeout t pll g => Sys2Proof.Machine.execTileBringupTimeout t pll g s
  | .memoryStageDone pcs pkgs => Sys2Proof.Machine.execMemoryStageDone pcs pkgs s
  | .linksStageDone => Sys2Proof.Machine.execLinksStageDone s
  | .tempoStageDone => Sys2Proof.Machine.execTempoStageDone s
  | .selftestDone => Sys2Proof.Machine.execSelftestDone s
  | .secAttest => Sys2Proof.Machine.execSecAttest s
  | .attestDone => Sys2Proof.Machine.execAttestDone s
  | .secNonce => Sys2Proof.Machine.execSecNonce s
  | .secSubmit => Sys2Proof.Machine.execSecSubmit s
  | .tokenCheckDone => Sys2Proof.Machine.execTokenCheckDone s
  | .debugScrubDone => Sys2Proof.Machine.execDebugScrubDone s
  | .secOwnerEnrol => Sys2Proof.Machine.execSecOwnerEnrol s
  | .secSvnCommit => Sys2Proof.Machine.execSecSvnCommit s
  | .secEndGrant p => Sys2Proof.Machine.execSecEndGrant p s
  | .secLockSet m => Sys2Proof.Machine.execSecLockSet m s
  | .jtagBypass => Sys2Proof.Machine.execJtagBypass s
  | .jtagIdcode => Sys2Proof.Machine.execJtagIdcode s
  | .jtagSamplePreload => Sys2Proof.Machine.execJtagSamplePreload s
  | .jtagExtest => Sys2Proof.Machine.execJtagExtest s
  | .jtagDbgAccess a write v => Sys2Proof.Machine.execJtagDbgAccess a write v s
  | .jtagDbgToken k v => Sys2Proof.Machine.execJtagDbgToken k v s
  -- ExecHub
  | .eventRecordWrite n => Sys2Proof.Machine.execEventRecordWrite n s
  | .mboxUpPush ag p v => Sys2Proof.Machine.execMboxUpPush ag p v s
  | .mboxUpPop ag p => Sys2Proof.Machine.execMboxUpPop ag p s
  | .mboxDownPush ag p v => Sys2Proof.Machine.execMboxDownPush ag p v s
  | .mboxDownPop ag p => Sys2Proof.Machine.execMboxDownPop ag p s
  | .hubWdogKick h => Sys2Proof.Machine.execHubWdogKick h s
  | .mgtLinkUp fec => Sys2Proof.Machine.execMgtLinkUp fec s
  | .mgtLinkDown => Sys2Proof.Machine.execMgtLinkDown s
  | .mgtFrameReceive bs bad => Sys2Proof.Machine.execMgtFrameReceive bs bad s
  | .mgtFrameTransmit => Sys2Proof.Machine.execMgtFrameTransmit s
  | .serviceRead f => Sys2Proof.Machine.execServiceRead f s
  | .serviceWrite f => Sys2Proof.Machine.execServiceWrite f s
  | .serviceToken f => Sys2Proof.Machine.execServiceToken f s
  | .serviceOpen f => Sys2Proof.Machine.execServiceOpen f s
  | .serviceClose f => Sys2Proof.Machine.execServiceClose f s
  | .serviceRecovery f m => Sys2Proof.Machine.execServiceRecovery f m s
  | .mgtSessionTimeout => Sys2Proof.Machine.execMgtSessionTimeout s
  | .controlCoreAccess h a n write v => Sys2Proof.Machine.execControlCoreAccess h a n write v s
  | .slowTierRefresh k temp => Sys2Proof.Machine.execSlowTierRefresh k temp s
  | .jtagTrst => Sys2Proof.Machine.execJtagTrst s

end Sys2Proof.Machine
end

