-- ==== Sys2Proof/Safety.lean ====
section
/-! DEFINITION. The words that the statements use: a command that completes, a core that runs, an instruction at PC, what
an instruction leaves alone, a device held in reset. -/
namespace Sys2Proof.Safety

open Machine

/-! ## Completion -/

/-- Command c answers a next state; the queue stays, and `P` holds of the device. -/
def Completes (c : Instr) (s : State) (P : Dev → Prop) : Prop :=
  ∃ t, exec c s = .next t ∧ t.pending = s.pending ∧ P t.dev

/-- The device acts (it is powered, out of reset and has its reference) and no prune is about to act. -/
def Acts (s : State) : Prop := s.dev.live = true ∧ s.dev.pruneDue = []

/-- The device acts and the clock of core c's tile runs (R560, R573). -/
def CoreRuns (s : State) (c : Nat) : Prop := Acts s ∧ s.dev.tileOn (tileOf c) = true

/-! ## Instructions of a sequencer -/

/-- Core c may issue, and the word at its PC is the instruction of class `cls` and operation `op` with operands `i` (R215,
R219). -/
def AtPc (d : Dev) (c cls op : Nat) (i : IWord) : Prop :=
  (d.core c).sq.canIssue = true ∧ (d.core c).sq.pc < (d.core c).sq.codeLen ∧ (d.core c).sq.atPc = i.word cls op

/-- The instruction's predicate enables it (R218). -/
def Enabled (d : Dev) (c : Nat) (i : IWord) : Prop := (d.core c).sq.enabled i = true

/-- The instruction at PC is not the last of a loop's body, and another follows it (R225, R226). -/
def Plain (d : Dev) (c : Nat) : Prop :=
  (d.core c).sq.loops.head?.map LoopFrame.last ≠ some (d.core c).sq.pc ∧ (d.core c).sq.pc + 1 < (d.core c).sq.codeLen

/-- What an instruction of core c's sequencer leaves alone: every byte of memory, every register word, semaphores,
partitions, generation tables, every other core, and of its own core the engines, the code and the call stack. -/
def CoreFrame (d d' : Dev) (c : Nat) : Prop :=
  d'.mem = d.mem ∧ d'.regs = d.regs ∧ d'.sems = d.sems ∧ d'.parts = d.parts ∧ d'.gens = d.gens ∧
  (∀ j, j ≠ c → d'.core j = d.core j) ∧
  (d'.core c).me = (d.core c).me ∧ (d'.core c).ve = (d.core c).ve ∧ (d'.core c).fte = (d.core c).fte ∧
  (d'.core c).sq.store = (d.core c).sq.store ∧ (d'.core c).sq.codeLen = (d.core c).sq.codeLen

/-- s[k] receives v; s0 reads zero and discards writes (R209). -/
def OnlyS (q q' : Sq) (k : Nat) (v : Word) : Prop :=
  (∀ r, q'.getS r = if r = 0 then 0 else if k = r then v else q.getS r) ∧
  q'.a = q.a ∧ q'.d = q.d ∧ q'.v = q.v ∧ q'.p = q.p

/-- p[k] receives b; p0 reads 1 and discards writes (R210). -/
def OnlyP (q q' : Sq) (k : Nat) (b : Bool) : Prop :=
  (∀ r, r < 8 → q'.getP r = if r = 0 then true else if k = r then b else q.getP r) ∧
  q'.s = q.s ∧ q'.a = q.a ∧ q'.d = q.d ∧ q'.v = q.v

/-- a[k] receives v. -/
def OnlyA (q q' : Sq) (k : Nat) (v : BitVec 128) : Prop :=
  (∀ r, q'.getA r = if k = r then v else q.getA r) ∧ q'.s = q.s ∧ q'.d = q.d ∧ q'.v = q.v ∧ q'.p = q.p

/-- d[k] receives v. -/
def OnlyD (q q' : Sq) (k : Nat) (v : BitVec 256) : Prop :=
  (∀ r, q'.getD' r = if k = r then v else q.getD' r) ∧ q'.s = q.s ∧ q'.a = q.a ∧ q'.v = q.v ∧ q'.p = q.p

/-- v[k] receives x. -/
def OnlyV (q q' : Sq) (k : Nat) (x : VReg) : Prop :=
  (∀ r, q'.getV r = if k = r then x else q.getV r) ∧ q'.s = q.s ∧ q'.a = q.a ∧ q'.d = q.d ∧ q'.p = q.p

/-- No register file changes. -/
def SameFiles (q q' : Sq) : Prop := q'.s = q.s ∧ q'.a = q.a ∧ q'.d = q.d ∧ q'.v = q.v ∧ q'.p = q.p

/-- An instruction of core c's sequencer that transfers no control: its register files as P says, the stack of calls and
everything of `CoreFrame` unchanged; inside the code and outside a loop's end, PC goes to the next index. -/
def GoesOn (s : State) (c : Nat) (P : Sq → Sq → Prop) (d : Dev) : Prop :=
  P (s.dev.core c).sq (d.core c).sq ∧ (d.core c).sq.calls = (s.dev.core c).sq.calls ∧ CoreFrame s.dev d c ∧
  (Plain s.dev c → (d.core c).sq.pc = (s.dev.core c).sq.pc + 1 ∧ (d.core c).sq.st = .run ∧
    (d.core c).sq.loops = (s.dev.core c).sq.loops)

/-- Control goes from core c's instruction to index t, with the stacks of calls and loops given (R225): nothing else
changes. -/
def JumpsTo (s : State) (c t : Nat) (calls : List Nat) (loops : List LoopFrame) (d : Dev) : Prop :=
  (d.core c).sq.pc = t ∧ (d.core c).sq.st = .run ∧ (d.core c).sq.calls = calls ∧ (d.core c).sq.loops = loops ∧
  SameFiles (s.dev.core c).sq (d.core c).sq ∧ CoreFrame s.dev d c

/-- The sequencer of core c refuses its instruction with an event (R238): HALTED, the record, PC at `pc`; no register file
changes. -/
def Refuses (s : State) (c code pc : Nat) (d : Dev) : Prop :=
  (d.core c).sq.st = .halted ∧ (d.core c).sq.faultCode = code ∧ (d.core c).sq.faultPc = (s.dev.core c).sq.pc ∧
  (d.core c).sq.insn = (s.dev.core c).sq.atPc ∧ (d.core c).sq.pc = pc ∧
  d.raised = s.dev.raised ++ [⟨code, evClass code, some (s.dev.corePart c), c, 0, s.dev.tempo⟩] ∧
  SameFiles (s.dev.core c).sq (d.core c).sq ∧ CoreFrame s.dev d c

/-- The sequencer of core c stands at its instruction and waits for w; nothing else of it changes. -/
def Stands (s : State) (c : Nat) (w : SqWait) (d : Dev) : Prop :=
  (d.core c).sq = { (s.dev.core c).sq with st := .stall, wait := w } ∧ CoreFrame s.dev d c

/-- The hosting software's accesses reach a register: the device and the Hub's clock run, no clock, power state or prune
refuses the access, and the shape has the register (R13, R485, R537, R560, R572, R573). -/
def HostReaches (s : State) (r : Reg) : Prop :=
  Acts s ∧ s.dev.lost 33 = false ∧ (s.dev.busRefuses true r).1 = false ∧ s.dev.absent r = false

/-- An agent's write (or read) reaches a register: the device acts, and for the hosting software the Hub's clock runs; the
register is one that the agent may write (or read), no clock, power state or prune refuses the access, the shape has the
register, and no earlier store of the agent waits before a write (R13, R217, R223, R485, R537, R560, R572, R573, R611). -/
def Reaches (s : State) (ag : Agent) (r : Reg) (write : Bool := true) : Prop :=
  Acts s ∧ (ag.isHost = true → s.dev.lost 33 = false) ∧ (∀ c, ag = .core c → s.dev.programMay c.val r write = true) ∧
  (s.dev.busRefuses ag.isHost r).1 = false ∧ s.dev.absent r = false ∧ (write = true → s.dev.behind ag = false)

/-- Memory, cores, banks, semaphores, generation tables, DMA engines, partitions, ports and links stand as before. -/
def Calm (d d' : Dev) : Prop :=
  d'.mem = d.mem ∧ d'.cores = d.cores ∧ d'.srams = d.srams ∧ d'.sems = d.sems ∧ d'.gens = d.gens ∧ d'.dma = d.dma ∧
  d'.parts = d.parts ∧ d'.ports = d.ports ∧ d'.links = d.links

/-- One event of no partition is raised, at this Tempo, with the class of its code. -/
def Records (d d' : Dev) (code unit : Nat) : Prop :=
  d'.raised = d.raised ++ [⟨code, evClass code, none, unit, 0, d.tempo⟩]

/-- Register kinds whose writes do no more than their fields' access types say (R14, R15). -/
def PlainKind (k : RK) : Bool :=
  [RK.tmpRole, .tmpPortDelay, .tmpEvent, .tmpStageTarget, .tmpBudget, .tmpBudgetFb, .veSolveTol, .spdCfg, .grvCfg,
    .spdEccInject, .grvEccInject, .dmaWinBase, .dmaWinCfg, .dmaInwinBase, .cvuFeedAddr, .prtCastleAt, .prtLoad,
    .prtLoadLen, .prtHandover, .prtResume, .hbmCfg, .neaCtxArea, .neaCtxImportRing, .dvoRedCfg, .dvoRedScale,
    .dvoRedEvent].contains k

/-- Instructions that only change register files: constructor, OP and the operands that the formats allow (R220, R221). -/
def Moves : List ((CoreId → IWord → Instr) × Nat × (IWord → Sq → Prop)) :=
  [(.nop, 0x00, fun i _ => i.opnd = 0),
    (.add, 0x01, fun i _ => i.f 34 0 = 0), (.sub, 0x02, fun i _ => i.f 34 0 = 0), (.and, 0x03, fun i _ => i.f 34 0 = 0),
    (.or, 0x04, fun i _ => i.f 34 0 = 0), (.xor, 0x05, fun i _ => i.f 34 0 = 0), (.sll, 0x06, fun i _ => i.f 34 0 = 0),
    (.srl, 0x07, fun i _ => i.f 34 0 = 0), (.sra, 0x08, fun i _ => i.f 34 0 = 0), (.mul, 0x09, fun i _ => i.f 34 0 = 0),
    (.mulhu, 0x0A, fun i _ => i.f 34 0 = 0), (.divu, 0x0B, fun i _ => i.f 34 0 = 0),
    (.remu, 0x0C, fun i _ => i.f 34 0 = 0), (.min, 0x0D, fun i _ => i.f 34 0 = 0), (.max, 0x0E, fun i _ => i.f 34 0 = 0),
    (.addi, 0x11, fun i _ => i.f 39 32 = 0), (.andi, 0x13, fun i _ => i.f 39 32 = 0), (.ori, 0x14, fun i _ => i.f 39 32 = 0),
    (.xori, 0x15, fun i _ => i.f 39 32 = 0)] ++
  [(.slli, 0x16, fun i _ => i.f 39 32 = 0 ∧ i.f 31 0 < 64), (.srli, 0x17, fun i _ => i.f 39 32 = 0 ∧ i.f 31 0 < 64),
    (.srai, 0x18, fun i _ => i.f 39 32 = 0 ∧ i.f 31 0 < 64), (.li, 0x19, fun i _ => i.f 44 32 = 0),
    (.lih, 0x1A, fun i _ => i.f 39 32 = 0 ∧ i.rs1 = i.rd),
    (.cmp, 0x20, fun i _ => i.f 46 45 = 0 ∧ i.f 34 32 ≤ 5 ∧ i.f 31 0 = 0),
    (.cmpi, 0x21, fun i _ => i.f 46 45 = 0 ∧ i.f 34 32 ≤ 5), (.plog, 0x22, fun i _ => i.f 37 0 = 0),
    (.pget, 0x23, fun i _ => i.f 44 0 = 0), (.pput, 0x24, fun i _ => i.f 31 0 = 0),
    (.lidx, 0x2D, fun i q => i.f 31 0 = 0 ∧ i.f 39 32 < q.loops.length),
    (.mova, 0x38, fun i _ => i.f 31 0 = 0 ∧ i.f 44 40 ≤ 15 ∧ i.f 39 32 ≤ 1),
    (.rda, 0x39, fun i _ => i.f 31 0 = 0 ∧ i.f 44 40 ≤ 15 ∧ i.f 39 32 ≤ 1),
    (.movd, 0x3A, fun i _ => i.f 31 0 = 0 ∧ i.f 44 40 ≤ 15 ∧ i.f 39 32 ≤ 3),
    (.rdd, 0x3B, fun i _ => i.f 31 0 = 0 ∧ i.f 44 40 ≤ 15 ∧ i.f 39 32 ≤ 3),
    (.tnow, 0x49, fun i _ => i.f 44 0 = 0)]

/-! ## Memory and engines -/

/-- Word w of SRAM lies in a bank that is ON, with neither poison nor errors, and no armed injection names it. -/
def CleanWord (d : Dev) (w : Nat) : Prop :=
  d.bankOn (8 * w) = true ∧ NSet.has d.mem.poison w = false ∧ FMap.getD d.mem.err w 0 = 0 ∧ d.injectMask w = (0, d)

/-- Every word of the n bytes at a is clean. -/
def Clean (d : Dev) (a n : Nat) : Prop := ∀ w, a / 8 ≤ w → w < (a + n + 7) / 8 → CleanWord d w

/-- Memory outside the n bytes at a is as before. -/
def KeptOutside (s : State) (d : Dev) (a n : Nat) : Prop :=
  ∀ b, b < a ∨ a + n ≤ b → d.mem.get b = s.dev.mem.get b

/-- Entry x of word w stands at the head of engine e's queue of core c, `rest` behind it, and nothing holds the engine: no
halt, no wait, no store of the sequencer that was issued before it and has not yet written (R134, R216, R229, R280). -/
def AtHead (d : Dev) (c e : Nat) (w : Word) (x : QEntry) (rest : List QEntry) : Prop :=
  ((d.core c).eng e).queue = x :: rest ∧ x.word = w ∧ ((d.core c).eng e).halt = false ∧
  ((d.core c).eng e).waitReq = none ∧ (x.held && d.storeStalled c) = false

/-- What an instruction of one engine of core c leaves alone: memory, semaphores, partitions, generation tables, every
other core, its own sequencer's scalar, descriptor and predicate registers, its program and its PC. -/
def EngineFrame (d d' : Dev) (c : Nat) : Prop :=
  d'.sems = d.sems ∧ d'.parts = d.parts ∧ d'.gens = d.gens ∧ (∀ j, j ≠ c → d'.core j = d.core j) ∧
  (d'.core c).sq.s = (d.core c).sq.s ∧ (d'.core c).sq.a = (d.core c).sq.a ∧ (d'.core c).sq.d = (d.core c).sq.d ∧
  (d'.core c).sq.p = (d.core c).sq.p ∧ (d'.core c).sq.pc = (d.core c).sq.pc ∧ (d'.core c).sq.st = (d.core c).sq.st ∧
  (d'.core c).sq.store = (d.core c).sq.store

/-- A vector instruction of core c that is taken from the head of its queue (R171): the lanes of v[vd] as `lane` says, of
every other register none; the flags of `fl` added to VE_FLAGS; everything of `EngineFrame`, memory, the matrix and
fetch engines unchanged. -/
def LanesDone (s : State) (c vd : Nat) (rest : List QEntry) (lane : Nat → Lane) (fl : Nat → Prop) (d : Dev) : Prop :=
  (∀ k, k < 256 → ((d.core c).sq.getV vd).getD k 0 = lane k) ∧
  (∀ r, r ≠ vd → (d.core c).sq.getV r = (s.dev.core c).sq.getV r) ∧
  (∀ n, n < 7 → ((d.core c).ve.flags.getLsbD n = true ↔ (s.dev.core c).ve.flags.getLsbD n = true ∨ fl n)) ∧
  (d.core c).ve.eng.queue = rest ∧ (d.core c).me = (s.dev.core c).me ∧ (d.core c).fte = (s.dev.core c).fte ∧
  d.mem = s.dev.mem ∧ EngineFrame s.dev d c

/-- Is lane k of a vector instruction active: MK is 0, or lane k of v[VM] is not zero (R153)? -/
def LaneOn (q : Sq) (mk vm k : Nat) : Prop := mk = 0 ∨ (q.getV vm).getD k 0 ≠ 0

/-- Lane k of the second operand of format VR: of v[VB], or the low half of the entry's s[VB] (R263). -/
def laneB (q : Sq) (x : QEntry) (i : IWord) (k : Nat) : Lane :=
  if i.f 29 29 = 1 then (x.getS (i.f 39 35)).setWidth 32 else (q.getV (i.f 39 35)).getD k 0

/-- The engines' instructions: constructor, CLASS, OP, engine, and the operand bits that the formats allow (R255, R263,
R272). -/
def EngineOps : List ((CoreId → IWord → Phase → Instr) × Nat × Nat × Nat × (IWord → Sq → Bool)) :=
  [(.meLoad, 1, 0x01, 1, legalMeLoad), (.meStream, 1, 0x02, 1, legalMeRows), (.meDrain, 1, 0x03, 1, legalMeRows),
    (.meAddw, 1, 0x04, 1, legalMeAddw), (.meClear, 1, 0x05, 1, legalMeClear), (.fadd, 2, 0x00, 2, legalVr 0 false),
    (.fsub, 2, 0x01, 2, legalVr 0 false), (.fmul, 2, 0x02, 2, legalVr 0 false), (.fma, 2, 0x03, 2, legalVr 0 false),
    (.fmax, 2, 0x04, 2, legalVr 0 false), (.fmin, 2, 0x05, 2, legalVr 0 false), (.fcmp, 2, 0x06, 2, legalVr 0 true),
    (.fabs, 2, 0x07, 2, legalVr 0 false), (.fneg, 2, 0x08, 2, legalVr 0 false), (.sel, 2, 0x09, 2, legalVr 0 false),
    (.iadd, 2, 0x10, 2, legalVr 0 false), (.isub, 2, 0x11, 2, legalVr 0 false), (.imul, 2, 0x12, 2, legalVr 0
    false), (.veSll, 2, 0x13, 2, legalVr 0 false), (.veSrl, 2, 0x14, 2, legalVr 0 false)] ++
  [(.veSra, 2, 0x15, 2, legalVr 0 false), (.veAnd, 2, 0x16, 2, legalVr 0 false), (.veOr, 2, 0x17, 2, legalVr 0 false),
    (.veXor, 2, 0x18, 2, legalVr 0 false), (.icmp, 2, 0x19, 2, legalVr 0 true), (.perm, 2, 0x20, 2, legalVr 0
    false), (.bcast, 2, 0x21, 2, legalVr 0xFF false), (.lshift, 2, 0x22, 2, legalVr 0xFFF false), (.exp, 2, 0x28, 2,
    legalVr 0 false), (.exp2, 2, 0x29, 2, legalVr 0 false), (.log, 2, 0x2A, 2, legalVr 0 false), (.log2, 2, 0x2B, 2,
    legalVr 0 false), (.rcp, 2, 0x2C, 2, legalVr 0 false), (.rsqrt, 2, 0x2D, 2, legalVr 0 false), (.tanh, 2, 0x2E,
    2, legalVr 0 false), (.sigmoid, 2, 0x2F, 2, legalVr 0 false), (.erf, 2, 0x30, 2, legalVr 0 false), (.sinpi, 2,
    0x31, 2, legalVr 0 false), (.cospi, 2, 0x32, 2, legalVr 0 false), (.div, 2, 0x34, 2, legalVr 0 false)] ++
  [(.sqrt, 2, 0x35, 2, legalVr 0 false), (.rsum, 2, 0x38, 2, legalVr 0xF false), (.rmax, 2, 0x39, 2, legalVr 0xF
    false), (.rmin, 2, 0x3A, 2, legalVr 0xF false), (.irsum, 2, 0x3B, 2, legalVr 0xF false), (.rsumx, 2, 0x3C, 2,
    legalVr 0xF false), (.osmx, 2, 0x3D, 2, legalOsmx), (.cvtR, 2, 0x40, 2, legalVr 0x1FF false), (.vld, 2, 0x48, 2,
    legalVm), (.vst, 2, 0x49, 2, legalVm), (.cvtLd, 2, 0x4A, 2, legalVc), (.cvtSt, 2, 0x4B, 2, legalVc), (.cvtExp,
    2, 0x4C, 2, legalCvtExp), (.rand, 2, 0x50, 2, legalVn), (.randu, 2, 0x51, 2, legalVn), (.drop, 2, 0x52, 2,
    legalVn), (.randn, 2, 0x53, 2, legalVn), (.solve, 2, 0x58, 2, legalVs), (.fteCopy, 3, 0x01, 3, legalCopy),
    (.fteGather, 3, 0x02, 3, legalGather)] ++
  [(.fteZero, 3, 0x03, 3, legalZero)]

/-- An event of this code stands among those that wait to be recorded. -/
def Raises (d : Dev) (code : Nat) : Prop := ∃ x ∈ d.raised, x.code = code

/-- A packet of this device stands in the queue of a link, with its own ID as SRC (R424, R427). -/
def Queued (d : Dev) (p : Packet) : Prop :=
  ∃ l, ∃ x ∈ (d.link l).txq, x.pkt = { p with src := d.ownId, hops := 0, dl := x.pkt.dl }

/-! ## Device reset -/

/-- A device at its reset values (R581, R594), but for what is no register of it: the fuses, the boot flash, the HBM repair
log, the input pins, the JTAG port's instruction and boundary cells, whether the reset changed SEC_STATE (log entry 150);
the Hub memory's contents are those of the last loss. -/
def resetImage (d : Dev) : Dev :=
  { fuses := d.fuses, flashB := d.flashB, hbm := d.hbm, mem := { hubEra := d.mem.hubEra }
    sec := { ir := d.sec.ir, cells := d.sec.cells, changed := d.sec.changed }
    resetN := d.resetN, vin := d.vin, trip := d.trip, outs := d.outs, fresh := d.fresh }

/-- A device whose RESET_N is low, or whose VIN is, stands at its reset values (R581, R634). -/
def HeldInReset (s : State) : Prop :=
  (s.dev.resetN = false ∨ s.dev.vin = false) → s.dev = resetImage s.dev

/-- The rows that act while a device stands still: the pins, the power input, and the JTAG port (R581, R599, R634,
R635). -/
def ActsInReset : Instr → Bool
  | .resetNAssert => true
  | .resetNRelease => true
  | .powerGoodRise => true
  | .powerGoodFall => true
  | .jtagBypass => true
  | .jtagIdcode => true
  | .jtagSamplePreload => true
  | .jtagExtest => true
  | .jtagDbgAccess .. => true
  | .jtagDbgToken .. => true
  | .jtagTrst => true
  | _ => false

end Sys2Proof.Safety
end

