-- ==== Sys2Proof/Certificates/Slice0/Obligations.lean ====
section
/-! DEFINITION. The statements about the model, for the provers. -/

open Sys2Proof Sys2Proof.Machine Sys2Proof.Safety

/-- A step runs the command at the front of the queue, with the rest of the queue; an empty queue idles (log entry 6). -/
def Obligations.StepRunsFront : Prop :=
  (∀ (c : Instr) (r : List Instr) (s : State), s.pending = c :: r → step s = exec c { s with pending := r }) ∧
  (∀ s : State, s.pending = [] → step s = .next s)

/-- Every command answers a next state and leaves the queue to the step: the model never stops. -/
def Obligations.EveryCommandAnswers : Prop :=
  ∀ (c : Instr) (s : State), ∃ t, exec c s = .next t ∧ t.pending = s.pending

/-- While RESET_N or VIN is low, or the device is stopped, nothing but the pins, the power input and the JTAG port acts:
the device stands as it is (R558, R569, R581, R634). -/
def Obligations.StillDeviceStands : Prop :=
  ∀ (c : Instr) (s : State), s.dev.live = false → ActsInReset c = false →
    exec c s = .next { s with dev := { s.dev with outs := [] } }

/-- A device held in reset, or without VIN, stands at its reset values, and every step keeps that, whatever is
commanded (R581, R634). -/
def Obligations.HeldInResetStep : Prop :=
  ∀ s t : State, HeldInReset s → step s = .next t → HeldInReset t

/-- The state right after reset: nothing waits, every register reads the value of its table, the device stands at its
reset values. -/
def Obligations.ResetState : Prop :=
  State.reset.pending = [] ∧ (∀ r : Reg, State.reset.dev.reg r = r.resetVal) ∧ HeldInReset State.reset ∧
  State.reset.dev.mem.wf = true ∧ State.reset.dev.live = false

/-- Scalar operations on two registers (R222): s[RD] receives the result, s0 reads zero, every other register file, flag,
memory byte and core stays, and PC goes to the next index.
Scalar operations with an immediate (R222): the sign-extended IMM takes the place of s[RS2]. -/
def Obligations.ScalarArithmetic : Prop :=
  (∀ e ∈ ([(.add, 0x01, fun a b => a + b), (.sub, 0x02, fun a b => a - b), (.and, 0x03, fun a b => a &&& b),
      (.or, 0x04, fun a b => a ||| b), (.xor, 0x05, fun a b => a ^^^ b),
      (.sll, 0x06, fun a b => a <<< (b.toNat % 64)), (.srl, 0x07, fun a b => a >>> (b.toNat % 64)),
      (.sra, 0x08, fun a b => a.sshiftRight (b.toNat % 64)), (.mul, 0x09, fun a b => a * b),
      (.mulhu, 0x0A, fun a b => BitVec.ofNat 64 (a.toNat * b.toNat / 2 ^ 64)),
      (.divu, 0x0B, fun a b => if b = 0 then BitVec.allOnes 64 else a / b),
      (.remu, 0x0C, fun a b => if b = 0 then a else a % b),
      (.min, 0x0D, fun a b => if a.slt b then a else b), (.max, 0x0E, fun a b => if a.slt b then b else a)] :
      List ((CoreId → IWord → Instr) × Nat × (Word → Word → Word))),
  ∀ (c : CoreId) (i : IWord) (s : State),
    CoreRuns s c.val → AtPc s.dev c.val 0 e.2.1 i → i.f 34 0 = 0 → Enabled s.dev c.val i →
    Completes (e.1 c i) s (GoesOn s c.val (fun q q' =>
      OnlyS q q' i.rd (e.2.2 (q.getS i.rs1) (q.getS i.rs2))))) ∧
  (∀ e ∈ ([(.addi, 0x11, fun a b => a + b), (.andi, 0x13, fun a b => a &&& b), (.ori, 0x14, fun a b => a ||| b),
      (.xori, 0x15, fun a b => a ^^^ b), (.slli, 0x16, fun a b => a <<< (b.toNat % 64)),
      (.srli, 0x17, fun a b => a >>> (b.toNat % 64)), (.srai, 0x18, fun a b => a.sshiftRight (b.toNat % 64))] :
      List ((CoreId → IWord → Instr) × Nat × (Word → Word → Word))),
  ∀ (c : CoreId) (i : IWord) (s : State),
    CoreRuns s c.val → AtPc s.dev c.val 0 e.2.1 i → i.f 39 32 = 0 → (0x16 ≤ e.2.1 → i.f 31 0 < 64) →
    Enabled s.dev c.val i →
    Completes (e.1 c i) s (GoesOn s c.val (fun q q' =>
      OnlyS q q' i.rd (e.2.2 (q.getS i.rs1) (BitVec.ofInt 64 i.imm)))))

/-- Instructions that put a value into s[RD]: LI, LIH, PGET, LIDX, RDA, RDD, TNOW (R221, R234).
CMP, CMPI and PLOG put a bit into p[PD] (R221): a comparison does not clear p7 (R210). PPUT writes p1 to p7.
MOVA and MOVD replace one 64-bit word of a descriptor register; VSET and VGET move one lane of a vector register that
no queued vector instruction uses (R217, R221). -/
def Obligations.RegisterMoves : Prop :=
  (∀ e ∈ ([(.li, 0x19, fun i _ => i.f 44 32 = 0, fun i _ _ => BitVec.ofInt 64 i.imm),
      (.lih, 0x1A, fun i _ => i.f 39 32 = 0 ∧ i.rs1 = i.rd,
        fun i q _ => BitVec.ofNat 32 (i.f 31 0) ++ (q.getS i.rd).extractLsb' 0 32),
      (.pget, 0x23, fun i _ => i.f 44 0 = 0, fun _ q _ => (q.p ||| 1).setWidth 64),
      (.lidx, 0x2D, fun i q => i.f 31 0 = 0 ∧ i.f 39 32 < q.loops.length,
        fun i q _ => BitVec.ofNat 64 ((q.loops.map LoopFrame.index).getD (i.f 39 32) 0)),
      (.rda, 0x39, fun i _ => i.f 31 0 = 0 ∧ i.f 44 40 ≤ 15 ∧ i.f 39 32 ≤ 1,
        fun i q _ => (q.getA (i.f 44 40)).extractLsb' (64 * i.f 39 32) 64),
      (.rdd, 0x3B, fun i _ => i.f 31 0 = 0 ∧ i.f 44 40 ≤ 15 ∧ i.f 39 32 ≤ 3,
        fun i q _ => (q.getD' (i.f 44 40)).extractLsb' (64 * i.f 39 32) 64),
      (.tnow, 0x49, fun i _ => i.f 44 0 = 0, fun _ _ d => BitVec.ofNat 64 d.tempo)] :
      List ((CoreId → IWord → Instr) × Nat × (IWord → Sq → Prop) × (IWord → Sq → Dev → Word))),
  ∀ (c : CoreId) (i : IWord) (s : State),
    CoreRuns s c.val → AtPc s.dev c.val 0 e.2.1 i → e.2.2.1 i (s.dev.core c.val).sq → Enabled s.dev c.val i →
    Completes (e.1 c i) s (GoesOn s c.val (fun q q' => OnlyS q q' i.rd (e.2.2.2 i q s.dev)))) ∧
  (∀ (c : CoreId) (i : IWord) (s : State), CoreRuns s c.val → Enabled s.dev c.val i →
    let holds := fun (a b : Word) => match i.f 34 32 with
      | 0 => a == b
      | 1 => a != b
      | 2 => a.slt b
      | 3 => !a.slt b
      | 4 => a.ult b
      | _ => !a.ult b
    let comparison := fun (b : Sq → Word) => GoesOn s c.val (fun q q' =>
      OnlyP q q' (i.f 49 47) (holds (q.getS i.rs1) (b q) || (decide (i.f 49 47 = 7) && q.getP 7)))
    (AtPc s.dev c.val 0 0x20 i → i.f 46 45 = 0 → i.f 34 32 ≤ 5 → i.f 31 0 = 0 →
      Completes (.cmp c i) s (comparison (fun q => q.getS i.rs2))) ∧
    (AtPc s.dev c.val 0 0x21 i → i.f 46 45 = 0 → i.f 34 32 ≤ 5 →
      Completes (.cmpi c i) s (comparison (fun _ => BitVec.ofInt 64 i.imm))) ∧
    (AtPc s.dev c.val 0 0x22 i → i.f 37 0 = 0 →
      Completes (.plog c i) s (GoesOn s c.val (fun q q' =>
        let a := q.getP (i.f 46 44) ^^ decide (i.f 38 38 = 1)
        let b := q.getP (i.f 43 41)
        OnlyP q q' (i.f 49 47) (match i.f 40 39 with
          | 0 => a && b
          | 1 => a || b
          | 2 => a ^^ b
          | _ => a && !b)))) ∧
    (AtPc s.dev c.val 0 0x24 i → i.f 31 0 = 0 →
      Completes (.pput c i) s (GoesOn s c.val (fun q q' =>
        (∀ r, r < 8 → q'.getP r = if r = 0 then true else (q.getS (i.f 49 45)).getLsbD r) ∧
        q'.s = q.s ∧ q'.a = q.a ∧ q'.d = q.d ∧ q'.v = q.v)))) ∧
  (∀ (c : CoreId) (i : IWord) (s : State), CoreRuns s c.val → Enabled s.dev c.val i → i.f 31 0 = 0 →
    let k := i.f 44 40
    let n := i.f 39 32
    (AtPc s.dev c.val 0 0x38 i → k ≤ 15 → n ≤ 1 →
      Completes (.mova c i) s (GoesOn s c.val (fun q q' => ∃ x : BitVec 128, OnlyA q q' k x ∧
        ∀ w, w < 2 → x.extractLsb' (64 * w) 64 =
          if w = n then q.getS (i.f 49 45) else (q.getA k).extractLsb' (64 * w) 64))) ∧
    (AtPc s.dev c.val 0 0x3A i → k ≤ 15 → n ≤ 3 →
      Completes (.movd c i) s (GoesOn s c.val (fun q q' => ∃ x : BitVec 256, OnlyD q q' k x ∧
        ∀ w, w < 4 → x.extractLsb' (64 * w) 64 =
          if w = n then q.getS (i.f 49 45) else (q.getD' k).extractLsb' (64 * w) 64))) ∧
    (AtPc s.dev c.val 0 0x3C i → (s.dev.core c.val).vFree k = true →
      Completes (.vset c i) s (GoesOn s c.val (fun q q' =>
        OnlyV q q' k ((q.getV k).set n ((q.getS (i.f 49 45)).setWidth 32))))) ∧
    (AtPc s.dev c.val 0 0x3D i → (s.dev.core c.val).vFree k = true →
      Completes (.vget c i) s (GoesOn s c.val (fun q q' =>
        OnlyS q q' (i.f 49 45) (((q.getV k).getD n 0).setWidth 64)))) ∧
    ((s.dev.core c.val).vFree k = false →
      (AtPc s.dev c.val 0 0x3C i → Completes (.vset c i) s (Stands s c.val .operand)) ∧
      (AtPc s.dev c.val 0 0x3D i → Completes (.vget c i) s (Stands s c.val .operand))))

/-- An instruction that its predicate turns off changes no register file and goes on to the next index (R218). NOP does
the same when it is on. -/
def Obligations.PredicatedOff : Prop :=
  ∀ e ∈ Moves, ∀ (c : CoreId) (i : IWord) (s : State),
    CoreRuns s c.val → AtPc s.dev c.val 0 e.2.1 i → e.2.2 i (s.dev.core c.val).sq →
    (s.dev.core c.val).sq.enabled i = false ∨ e.2.1 = 0 →
    Completes (e.1 c i) s (GoesOn s c.val SameFiles)

/-- LOOP (R226): a frame on the stack and on to its body; a count of zero skips the body; a fifth level is SQ_STACK.
At the last index of a loop's body the flow goes back to its first while iterations are left, and out of it after the
last (R226); past the code it is refused (R225, log entry 14). -/
def Obligations.Loops : Prop :=
  (∀ (c : CoreId) (i : IWord) (s : State), CoreRuns s c.val → Enabled s.dev c.val i → AtPc s.dev c.val 0 0x2C i →
    let q := (s.dev.core c.val).sq
    let last := q.pc + i.f 23 0
    let n := if i.f 44 44 = 1 then i.f 39 24 else (q.getS (i.f 49 45)).toNat
    i.f 43 40 = 0 → i.f 23 0 ≠ 0 → last < q.codeLen → (∀ f ∈ q.loops.head?, last ≤ f.last) →
    (q.loops.length < 4 → n ≠ 0 →
      Completes (.loop c i) s (JumpsTo s c.val (q.pc + 1) q.calls (⟨q.pc + 1, last, n, 0⟩ :: q.loops))) ∧
    (q.loops.length < 4 → n = 0 → last + 1 < q.codeLen →
      Completes (.loop c i) s (JumpsTo s c.val (last + 1) q.calls q.loops)) ∧
    (4 ≤ q.loops.length → Completes (.loop c i) s (Refuses s c.val 0x0503 q.pc))) ∧
  (∀ e ∈ Moves, ∀ (c : CoreId) (i : IWord) (s : State),
    CoreRuns s c.val → AtPc s.dev c.val 0 e.2.1 i → e.2.2 i (s.dev.core c.val).sq →
    let q := (s.dev.core c.val).sq
    (∀ f fs, q.loops = f :: fs → f.last = q.pc → 1 < f.left → f.start < q.codeLen →
      Completes (e.1 c i) s (fun d => (d.core c.val).sq.pc = f.start ∧
        (d.core c.val).sq.loops = { f with left := f.left - 1, index := f.index + 1 } :: fs)) ∧
    (∀ f fs, q.loops = f :: fs → f.last = q.pc → f.left ≤ 1 → (∀ g ∈ fs.head?, g.last ≠ q.pc) →
      q.pc + 1 < q.codeLen →
      Completes (e.1 c i) s (fun d => (d.core c.val).sq.pc = q.pc + 1 ∧ (d.core c.val).sq.loops = fs)) ∧
    (q.loops = [] → q.pc + 1 = q.codeLen → q.codeLen ≤ 16384 →
      Completes (e.1 c i) s (fun d => (d.core c.val).sq.st = .halted ∧ (d.core c.val).sq.faultCode = 0x0502)))

/-- BR, CALL, RET and JR (R221, R225): a target inside the code, and the stacks that each leaves.
A transfer out of the code is SQ_PC_RANGE at the transferring instruction, with PC at the target (R225, R238); a call
beyond 8 levels, and a return without one, is SQ_STACK. -/
def Obligations.ControlTransfers : Prop :=
  (∀ (c : CoreId) (i : IWord) (s : State), CoreRuns s c.val → Enabled s.dev c.val i →
    let q := (s.dev.core c.val).sq
    let t := (q.pc : Int) + i.imm
    (AtPc s.dev c.val 0 0x28 i → i.f 49 32 = 0 → 0 ≤ t → t < q.codeLen →
      Completes (.br c i) s (JumpsTo s c.val t.toNat q.calls (dropLoops t.toNat q.loops))) ∧
    (AtPc s.dev c.val 0 0x29 i → i.f 49 32 = 0 → 0 ≤ t → t < q.codeLen → q.calls.length < 8 →
      Completes (.call c i) s (JumpsTo s c.val t.toNat ((q.pc + 1) :: q.calls) q.loops)) ∧
    (∀ r rs, AtPc s.dev c.val 0 0x2A i → i.f 49 16 = 0 → q.calls = r :: rs → r < q.codeLen →
      Completes (.ret c i) s (JumpsTo s c.val r rs q.loops)) ∧
    (AtPc s.dev c.val 0 0x2B i → i.f 49 45 = 0 → i.f 39 0 = 0 → (q.getS i.rs1).toNat % 16384 < q.codeLen →
      Completes (.jr c i) s (JumpsTo s c.val ((q.getS i.rs1).toNat % 16384) q.calls
        (dropLoops ((q.getS i.rs1).toNat % 16384) q.loops)))) ∧
  (∀ (c : CoreId) (i : IWord) (s : State), CoreRuns s c.val → Enabled s.dev c.val i →
    let q := (s.dev.core c.val).sq
    let t := (q.pc : Int) + i.imm
    (AtPc s.dev c.val 0 0x28 i → i.f 49 32 = 0 → (t < 0 ∨ q.codeLen ≤ t) →
      Completes (.br c i) s (Refuses s c.val 0x0502 (t % 16384).toNat)) ∧
    (AtPc s.dev c.val 0 0x29 i → i.f 49 32 = 0 → 8 ≤ q.calls.length →
      Completes (.call c i) s (Refuses s c.val 0x0503 q.pc)) ∧
    (AtPc s.dev c.val 0 0x2A i → i.f 49 16 = 0 → q.calls = [] →
      Completes (.ret c i) s (Refuses s c.val 0x0503 q.pc)))

/-- FENCE goes on when the engines of its mask are idle with empty queues and waits otherwise; FENCE_RELEASE ends the wait
when they are (R221).
TWAIT stands at its target edge: s[RS1], or the last released edge plus K. A release at or after the edge goes on,
with the edge as the last released one; a late one sets p7 and counts (R49, R231, R232). -/
def Obligations.Waits : Prop :=
  (∀ (c : CoreId) (s : State), CoreRuns s c.val →
    (∀ i : IWord, AtPc s.dev c.val 0 0x4A i → Enabled s.dev c.val i → i.f 49 44 = 0 → i.f 40 0 = 0 →
      ((s.dev.core c.val).maskIdle (i.f 43 41) = true → Completes (.fence c i) s (GoesOn s c.val SameFiles)) ∧
      ((s.dev.core c.val).maskIdle (i.f 43 41) = false →
        Completes (.fence c i) s (Stands s c.val (.fence (i.f 43 41))))) ∧
    (∀ mask, (s.dev.core c.val).sq.st = .stall → (s.dev.core c.val).sq.wait = .fence mask →
      (s.dev.core c.val).maskIdle mask = true → Completes (.fenceRelease c) s (GoesOn s c.val SameFiles))) ∧
  (∀ (c : CoreId) (s : State), CoreRuns s c.val →
    let q := (s.dev.core c.val).sq
    (∀ i : IWord, AtPc s.dev c.val 0 0x48 i → Enabled s.dev c.val i → i.f 40 32 = 0 → i.f 31 16 = 0 →
      (i.f 44 44 = 1 → i.f 15 0 = 0 → q.getS (i.f 49 45) ≠ 0 →
        Completes (.twait c i) s (Stands s c.val (.tempo (q.getS (i.f 49 45)).toNat (i.f 43 41) false false))) ∧
      (i.f 44 44 = 0 → i.f 15 0 ≠ 0 →
        Completes (.twait c i) s (Stands s c.val (.tempo (q.lastEdge + i.f 15 0) (i.f 43 41) false false)))) ∧
    (∀ target mask onTime, q.st = .stall → q.wait = .tempo target mask onTime false →
      (s.dev.core c.val).maskIdle mask = true → target ≤ s.dev.tempo →
      Completes (.tempoWaitRelease c) s (fun d =>
        (d.core c.val).sq.lastEdge = target ∧
        (onTime = true → GoesOn s c.val SameFiles d ∧ (d.core c.val).sq.late = q.late) ∧
        (onTime = false → GoesOn s c.val (fun q q' => OnlyP q q' 7 true) d ∧
          (d.core c.val).sq.late = min (q.late + 1) (2 ^ 32 - 1) ∧ (d.core c.val).sq.lateTempo = target % 2 ^ 32))) ∧
    (∀ target mask onTime, q.st = .stall → q.wait = .tempo target mask onTime true → target ≤ s.dev.tempo →
      q.pc < q.codeLen → Completes (.tempoWaitRelease c) s (fun d =>
        (d.core c.val).sq = { q with lastEdge := target, st := .run, wait := .none, poisonLd := false } ∧
        CoreFrame s.dev d c.val)))

/-- A sequencer's SEM.SIG sends its request and goes on; its SEM.WAIT sends one and waits (R228, R229, R230); a semaphore
outside the partition is refused (R227). While an earlier store of the sequencer waits for a Tempo edge's stall, a SEM.SIG
does not issue: nothing of its core changes and no request leaves (R50, R280, log entry 120). -/
def Obligations.SemaphoreRequests : Prop :=
  ∀ (c : CoreId) (i : IWord) (s : State), CoreRuns s c.val → Enabled s.dev c.val i →
    i.f 25 16 = 0 → i.f 15 0 ≠ 0 → i.f 46 45 = 0 →
    let q := (s.dev.core c.val).sq
    let k := (i.f 39 26 + (q.getS i.rs1).toNat) % 2 ^ 14
    let own := s.dev.tilePart (k / 4096) = s.dev.corePart c.val
    (AtPc s.dev c.val 0 0x41 i → s.dev.storeStalled c.val = false → own → Completes (.semSig c i .issue) s (fun d =>
      d.semReqs = s.dev.semReqs ++ [{ id := s.dev.nextReq, who := .sq c.val, kind := .sig, sem := k, n := i.f 15 0
                                      pc := q.pc, insn := q.atPc }] ∧
      d.nextReq = s.dev.nextReq + 1 ∧ GoesOn s c.val SameFiles d)) ∧
    (AtPc s.dev c.val 0 0x40 i → own → Completes (.semWait c i .issue) s (fun d =>
      d.semReqs = s.dev.semReqs ++ [{ id := s.dev.nextReq, who := .sq c.val, kind := .wait, sem := k, n := i.f 15 0
                                      pd := i.f 49 47 }] ∧
      d.nextReq = s.dev.nextReq + 1 ∧ Stands s c.val (.sem s.dev.nextReq (i.f 49 47)) d)) ∧
    (AtPc s.dev c.val 0 0x41 i → s.dev.storeStalled c.val = true → Completes (.semSig c i .issue) s (fun d =>
      d.core c.val = s.dev.core c.val ∧ d.semReqs = s.dev.semReqs)) ∧
    (AtPc s.dev c.val 0 0x41 i → s.dev.storeStalled c.val = false → ¬own →
      Completes (.semSig c i .issue) s (Refuses s c.val 0x0506 q.pc)) ∧
    (AtPc s.dev c.val 0 0x40 i → ¬own → Completes (.semWait c i .issue) s (Refuses s c.val 0x0506 q.pc))

/-- Of the clk of a semaphore block in which one request arrives and no wait stands (R228, R230): a signal adds N, up to
65,535; a wait takes N when the value suffices, sees POISON first, and otherwise stands at the semaphore.
A completed wait resumes its sequencer: p[PD] shows whether the semaphore was poisoned, and with PD = 0 a poisoned
one faults (R228). -/
def Obligations.SemaphoreService : Prop :=
  (∀ (g : ClusterId) (n : Nat) (r : SemReq) (pre post : List SemReq) (s : State),
    Acts s → s.dev.tileOn (g.val / 4) = true → s.dev.semReqs = pre ++ r :: post → r.arrived = false →
    (∀ x ∈ pre ++ post, semCluster x.sem ≠ g.val ∧ x.id ≠ r.id) → semCluster r.sem = g.val →
    let x := s.dev.sem r.sem
    (∀ c, r.who = .sq c → r.kind = .sig → x.value + r.n ≤ 65535 →
      Completes (.semRequestArrival g [r.id] n) s (fun d =>
        d.sem r.sem = { x with value := x.value + r.n, owner := if x.declared then x.owner else c } ∧
        d.semReqs = pre ++ post ∧ (∀ k, k ≠ r.sem → d.sem k = s.dev.sem k))) ∧
    (r.kind = .wait → x.poison = false → r.n ≤ x.value →
      Completes (.semRequestArrival g [r.id] n) s (fun d =>
        d.sem r.sem = { x with value := x.value - r.n } ∧ d.semReqs = pre ++ post ∧
        d.semDone = s.dev.semDone ++ [⟨r.id, r.who, r.pd, false⟩] ∧ (∀ k, k ≠ r.sem → d.sem k = s.dev.sem k))) ∧
    (r.kind = .wait → x.poison = true →
      Completes (.semRequestArrival g [r.id] n) s (fun d =>
        d.sems = s.dev.sems ∧ d.semReqs = pre ++ post ∧
        d.semDone = s.dev.semDone ++ [⟨r.id, r.who, r.pd, true⟩])) ∧
    (r.kind = .wait → x.poison = false → x.value < r.n →
      Completes (.semRequestArrival g [r.id] n) s (fun d =>
        d.sems = s.dev.sems ∧ d.semDone = s.dev.semDone ∧ d.semReqs = pre ++ { r with arrived := true } :: post))) ∧
  (∀ (id : Nat) (c : Nat) (pd : Nat) (bad : Bool) (s : State), Acts s → pd < 8 →
    s.dev.semDone.find? (fun r => r.id = id) = some ⟨id, .sq c, pd, bad⟩ → (s.dev.core c).sq.wait = .sem id pd →
    (pd ≠ 0 ∨ bad = false →
      Completes (.semWaitResume id) s (fun d => GoesOn s c (fun q q' => OnlyP q q' pd (bad || (decide (pd = 7) && q.getP 7))) d ∧
        ∀ r ∈ d.semDone, r.id ≠ id)) ∧
    (pd = 0 → bad = true → Completes (.semWaitResume id) s (Refuses s c 0x0901 (s.dev.core c).sq.pc)))

/-- Generation instructions on a slot of a stage (R195 to R198, R235): ACQ and REL count references, CLAIM takes a slot
without references into FILLING, READY makes it READY; s[RD] receives the slot, or the references left. Of two FREE slots
a CLAIM takes slot 0 (log entry 15).
A CLAIM whose target slot holds references waits at the slot (R197).
A refused generation instruction gives −1 in s[RD], sets its event bit and raises the event; the sequencer goes on
(R206, R235): ABSENT for a ring that no slot holds, CLAIMED, REF_LIMIT, UNDERFLOW and ORDER; a stage that the table does
not have, and a slot above 1, are ABSENT (log entry 15).
A waiting claim completes when its slot has no references: the slot fills with the claim's ring, and the claiming
sequencer goes on with the slot in s[RD] (R197, R200). -/
def Obligations.GenerationClaims : Prop :=
  (∀ (c : CoreId) (i : IWord) (s : State), CoreRuns s c.val → Enabled s.dev c.val i → i.f 34 0 = 0 →
    let q := (s.dev.core c.val).sq
    let p := s.dev.corePart c.val
    let t := s.dev.gen p
    let stage := (q.getS i.rs1).toNat
    let arg := (q.getS i.rs2).toNat
    let other := fun (d : Dev) (g : Nat) =>
      (∀ k, k ≠ 2 * stage + g → FMap.getD (d.gen p).slots k {} = FMap.getD t.slots k {}) ∧
      (∀ p', p' ≠ p → d.gen p' = s.dev.gen p')
    let answers := fun (v : Nat) (d : Dev) =>
      GoesOn s c.val (fun q q' => OnlyS q q' i.rd (BitVec.ofNat 64 v)) { d with gens := s.dev.gens }
    let refused := fun (bit : Nat) (d : Dev) =>
      GoesOn s c.val (fun q q' => OnlyS q q' i.rd (BitVec.allOnes 64)) { d with gens := s.dev.gens } ∧
      d.gen p = { t with events := t.events ||| BitVec.ofNat 6 (2 ^ bit) } ∧
      ∃ x ∈ d.raised, x.code = 0x0F10 + bit ∧ x.part = some p
    let holds := fun (g : Nat) => (t.slot stage g).st ≠ .free ∧ (t.slot stage g).ring = arg
    stage < t.stages →
    (AtPc s.dev c.val 0 0x50 i → ¬holds 0 → ¬holds 1 → Completes (.genAcq c i) s (refused 0)) ∧
    (∀ g, g < 2 → AtPc s.dev c.val 0 0x50 i → (∀ g', g' ≤ g → (holds g' ↔ g' = g)) →
      (t.claimOf stage g ≠ none → Completes (.genAcq c i) s (refused 1)) ∧
      (t.claimOf stage g = none → 65535 ≤ (t.slot stage g).refs → Completes (.genAcq c i) s (refused 2))) ∧
    (AtPc s.dev c.val 0 0x51 i → arg < 2 → (t.slot stage arg).refs = 0 →
      Completes (.genRel c i) s (refused 3)) ∧
    (∀ g, g < 2 → AtPc s.dev c.val 0 0x52 i → (t.slot stage g).st ≠ .free →
      arg ≤ (t.slot stage g).ring → t.claims = [] → Completes (.genClaim c i) s (refused 4)) ∧
    (AtPc s.dev c.val 0 0x53 i → arg < 2 → (t.slot stage arg).st ≠ .filling →
      Completes (.genReady c i) s (refused 4)) ∧
    (∀ g, g < 2 → AtPc s.dev c.val 0 0x52 i → t.claims = [] → (∀ g', g' < 2 → (t.slot stage g').st ≠ .free ∧
        (t.slot stage g').ring < arg ∧ (g' ≠ g → (t.slot stage g).ring < (t.slot stage g').ring)) →
      (t.slot stage g).refs ≠ 0 → Completes (.genClaim c i) s (fun d =>
        d.gen p = { t with claims := [⟨c.val, stage, g, arg, i.rd⟩] } ∧ (∀ p', p' ≠ p → d.gen p' = s.dev.gen p') ∧
        Stands s c.val .claim { d with gens := s.dev.gens })) ∧
    (∀ g, g < 2 → AtPc s.dev c.val 0 0x50 i → (∀ g', g' ≤ g → (holds g' ↔ g' = g)) →
      t.claimOf stage g = none → (t.slot stage g).refs < 65535 →
      Completes (.genAcq c i) s (fun d =>
        (d.gen p).slot stage g = { t.slot stage g with refs := (t.slot stage g).refs + 1 } ∧ other d g ∧ answers g d)) ∧
    (AtPc s.dev c.val 0 0x51 i → arg < 2 → 0 < (t.slot stage arg).refs →
      Completes (.genRel c i) s (fun d =>
        (d.gen p).slot stage arg = { t.slot stage arg with refs := (t.slot stage arg).refs - 1 } ∧ other d arg ∧
        answers ((t.slot stage arg).refs - 1) d)) ∧
    (AtPc s.dev c.val 0 0x52 i → (t.slot stage 0).st = .free → (t.slot stage 1).st = .free →
      t.claimOf stage 0 = none → t.claimOf stage 1 = none → (t.slot stage 0).refs = 0 →
      Completes (.genClaim c i) s (fun d =>
        ((d.gen p).slot stage 0).st = .filling ∧ ((d.gen p).slot stage 0).ring = arg ∧ other d 0 ∧ answers 0 d)) ∧
    (AtPc s.dev c.val 0 0x53 i → arg < 2 → (t.slot stage arg).st = .filling →
      Completes (.genReady c i) s (fun d =>
        (d.gen p).slot stage arg = { t.slot stage arg with st := .ready, missed := false } ∧ other d arg ∧
        answers arg d))) ∧
  (∀ e ∈ ([(.genAcq, 0x50, false), (.genRel, 0x51, true), (.genClaim, 0x52, false), (.genReady, 0x53, true)] :
      List ((CoreId → IWord → Instr) × Nat × Bool)),
  ∀ (c : CoreId) (i : IWord) (s : State), CoreRuns s c.val → AtPc s.dev c.val 0 e.2.1 i → Enabled s.dev c.val i →
    i.f 34 0 = 0 →
    let q := (s.dev.core c.val).sq
    let p := s.dev.corePart c.val
    (s.dev.gen p).stages ≤ (q.getS i.rs1).toNat ∨ (e.2.2 = true ∧ 1 < (q.getS i.rs2).toNat) →
    Completes (e.1 c i) s (fun d =>
      GoesOn s c.val (fun q q' => OnlyS q q' i.rd (BitVec.allOnes 64)) { d with gens := s.dev.gens } ∧
      d.gen p = { s.dev.gen p with events := (s.dev.gen p).events ||| 1 } ∧
      ∃ x ∈ d.raised, x.code = 0x0F10 ∧ x.part = some p)) ∧
  (∀ (p : PartId) (st : Fin 64) (g : Fin 2) (x : GenClaim) (s : State), Acts s →
    (s.dev.gen p.val).claimOf st.val g.val = some x →
    ((s.dev.gen p.val).slot st.val g.val).refs = 0 → (s.dev.core x.core).sq.wait = .claim →
    Completes (.genClaimComplete p st g) s (fun d =>
      ((d.gen p.val).slot st.val g.val).st = .filling ∧ ((d.gen p.val).slot st.val g.val).ring = x.ring ∧
      (d.gen p.val).claims = (s.dev.gen p.val).claims.erase x ∧
      GoesOn s x.core (fun q q' => OnlyS q q' x.rd (BitVec.ofNat 64 g.val)) { d with gens := s.dev.gens }))

/-- FAULT refuses with its code (R237); HALT ends the program of its core with SQ_DONE (R221); the hosting software stops a
sequencer that runs or stalls, and resumes one that is halted and not pruned (R239). -/
def Obligations.SequencerStops : Prop :=
  ∀ (c : CoreId) (s : State),
    let q := (s.dev.core c.val).sq
    (∀ i : IWord, CoreRuns s c.val → AtPc s.dev c.val 0 0x58 i → Enabled s.dev c.val i → i.f 49 16 = 0 →
      Completes (.fault c i) s (fun d =>
        Refuses s c.val 0x0508 q.pc d ∧ (d.core c.val).sq.pcode = i.f 15 0)) ∧
    (∀ i : IWord, CoreRuns s c.val → AtPc s.dev c.val 0 0x59 i → Enabled s.dev c.val i → i.opnd = 0 →
      Completes (.halt c i) s (fun d =>
        (d.core c.val).sq = { q.counted c.val true with st := .done, wait := .none } ∧ d.mem = s.dev.mem ∧
        d.regs = s.dev.regs ∧
        ∃ x ∈ d.raised, x.code = 0x0509 ∧ x.unit = c.val)) ∧
    (HostReaches s ⟨.sqCtrl, [c.val]⟩ → q.st = .run ∨ q.st = .stall →
      Completes (.sqStop c) s (fun d =>
        (d.core c.val).sq = { q with st := .halted, wait := .none, faultCode := 0x050A } ∧ d.mem = s.dev.mem ∧
        ∃ x ∈ d.raised, x.code = 0x050A ∧ x.unit = c.val)) ∧
    (HostReaches s ⟨.sqCtrl, [c.val]⟩ → q.st = .halted → q.pruned = false →
      Completes (.sqResume c) s (fun d =>
        (d.core c.val).sq = { q with st := .run, wait := .none, poisonLd := false } ∧ CoreFrame s.dev d c.val))

/-- LD of bytes in the core's own SRAM (R223): the address is a[A].BASE + s[RI] + OFF modulo 2^48, inside the window and
naturally aligned; s[S] receives the bytes, little-endian, sign- or zero-extended. Outside the window it is SQ_ADDR_RANGE.
While an earlier store of the sequencer waits for a Tempo edge's stall, an LD does not issue and an ST waits behind it (R50,
R217, R224, log entry 137).
ST into the core's own SRAM (R223): the n bytes at the address receive the low bytes of s[S]; every other byte stays.
A window that may not be written is SQ_ADDR_RANGE. -/
def Obligations.MemoryAccess : Prop :=
  (∀ (c : CoreId) (i : IWord) (s : State), CoreRuns s c.val → AtPc s.dev c.val 0 0x30 i → Enabled s.dev c.val i →
    i.f 32 32 = 0 →
    let q := (s.dev.core c.val).sq
    let w := Win.ofBits (q.getA (i.f 44 41))
    let n := 2 ^ i.f 35 34
    let ea := (((w.base + (q.getS (i.f 40 36)).toNat : Nat) + i.imm) % 2 ^ 48).toNat
    (s.dev.storeStalled c.val = true → Completes (.ld c i) s (fun d =>
      d.core c.val = s.dev.core c.val ∧ CoreFrame s.dev d c.val)) ∧
    (s.dev.storeStalled c.val = false →
      w.remote = false → w.base ≤ ea → ea + n ≤ w.base + w.len → ea % n = 0 → s.dev.ownSram c.val ea = true →
      Clean s.dev ea n →
      Completes (.ld c i) s (GoesOn s c.val (fun q q' =>
        let v := BitVec.ofNat (8 * n) (natOfBytes (s.dev.mem.getAll ea n))
        OnlyS q q' (i.f 49 45) (if i.f 33 33 = 1 then v.signExtend 64 else v.setWidth 64)))) ∧
    (s.dev.storeStalled c.val = false → w.remote = true ∨ ea < w.base ∨ w.base + w.len < ea + n ∨ ea % n ≠ 0 →
      Completes (.ld c i) s (Refuses s c.val 0x0504 q.pc))) ∧
  (∀ (c : CoreId) (i : IWord) (s : State), CoreRuns s c.val → AtPc s.dev c.val 0 0x31 i → Enabled s.dev c.val i →
    i.f 33 32 = 0 →
    let q := (s.dev.core c.val).sq
    let w := Win.ofBits (q.getA (i.f 44 41))
    let n := 2 ^ i.f 35 34
    let ea := (((w.base + (q.getS (i.f 40 36)).toNat : Nat) + i.imm) % 2 ^ 48).toNat
    (w.remote = false → w.wr = true → w.base ≤ ea → ea + n ≤ w.base + w.len → ea % n = 0 →
      s.dev.ownSram c.val ea = true → Clean s.dev ea n →
      (s.dev.storeStalled c.val = false → Completes (.st c i) s (fun d =>
        d.mem.getAll ea n = bytesOf n (q.getS (i.f 49 45)).toNat ∧ KeptOutside s d ea n ∧
        GoesOn s c.val SameFiles { d with mem := s.dev.mem })) ∧
      (s.dev.storeStalled c.val = true → Completes (.st c i) s (fun d =>
        d.stalled = s.dev.stalled ++ [.mem (.core c) ea (bytesOf n (q.getS (i.f 49 45)).toNat)] ∧
        GoesOn s c.val SameFiles d))) ∧
    (w.wr = false ∨ w.remote = true ∨ ea < w.base ∨ w.base + w.len < ea + n ∨ ea % n ≠ 0 →
      Completes (.st c i) s (Refuses s c.val 0x0504 q.pc)))

/-- The issue of an engine instruction (R212, R216, R280): its word, with the registers as they stand and whether a store of
the sequencer has still to write, goes to the back of its engine's queue. With a full queue it waits; with the engine's clock off it is SQ_ENGINE_GATED (R236). -/
def Obligations.EngineIssue : Prop :=
  ∀ e ∈ EngineOps,
  ∀ (c : CoreId) (i : IWord) (s : State), CoreRuns s c.val → AtPc s.dev c.val e.2.1 e.2.2.1 i → Enabled s.dev c.val i →
    let q := (s.dev.core c.val).sq
    let g := (s.dev.core c.val).eng e.2.2.2.1
    e.2.2.2.2 i q = true →
    (s.dev.engClock c.val e.2.2.2.1 = 2 → q.engHalt.getLsbD (e.2.2.2.1 - 1) = false → g.queue.length < 32 →
      Completes (e.1 c i .issue) s (fun d =>
        (d.core c.val).eng e.2.2.2.1 =
          { g with queue := g.queue ++ [⟨i.word e.2.1 e.2.2.1, q.s, q.a, q.d, s.dev.storeStalled c.val⟩] } ∧
        SameFiles q (d.core c.val).sq ∧ d.mem = s.dev.mem ∧ d.regs = s.dev.regs ∧
        (∀ j, j ≠ c.val → d.core j = s.dev.core j) ∧
        (Plain s.dev c.val → (d.core c.val).sq.pc = q.pc + 1))) ∧
    (s.dev.engClock c.val e.2.2.2.1 = 2 → q.engHalt.getLsbD (e.2.2.2.1 - 1) = false → 32 ≤ g.queue.length →
      Completes (e.1 c i .issue) s (Stands s c.val .queueFull)) ∧
    (s.dev.engClock c.val e.2.2.2.1 ≠ 2 → Completes (e.1 c i .issue) s (Refuses s c.val 0x0507 q.pc))

/-- Lane-by-lane vector instructions (R150 to R155, R262 to R264, R269): every active lane receives the operation of its
three operands, every other keeps its contents; the flags are those of the active lanes. -/
def Obligations.VectorLanes : Prop :=
  ∀ e ∈ ([(.fadd, 0x00, fun _ => True, fun _ a b _ => fadd a b), (.fsub, 0x01, fun _ => True, fun _ a b _ => fsub a b),
      (.fmul, 0x02, fun _ => True, fun _ a b _ => fmul a b), (.fma, 0x03, fun _ => True, fun _ a b e => ffma a b e),
      (.fmax, 0x04, fun _ => True, fun _ a b _ => Machine.fmax a b),
      (.fmin, 0x05, fun _ => True, fun _ a b _ => Machine.fmin a b),
      (.fcmp, 0x06, fun i => i.f 22 20 ≤ 5, fun i a b _ => fcmp (i.f 22 20) a b),
      (.fabs, 0x07, fun _ => True, fun _ a _ _ => if a.val.isNan then (laneNaN, fNV) else (a &&& 0x7FFFFFFF, 0)),
      (.fneg, 0x08, fun _ => True, fun _ a _ _ => if a.val.isNan then (laneNaN, fNV) else (a ^^^ 0x80000000, 0)),
      (.sel, 0x09, fun _ => True, fun _ a b e => (if e ≠ 0 then a else b, 0)),
      (.iadd, 0x10, fun _ => True, fun _ a b _ => (a + b, 0)), (.isub, 0x11, fun _ => True, fun _ a b _ => (a - b, 0)),
      (.imul, 0x12, fun _ => True, fun _ a b _ => (a * b, 0)),
      (.veSll, 0x13, fun _ => True, fun _ a b _ => (a <<< (b.toNat % 32), 0)),
      (.veSrl, 0x14, fun _ => True, fun _ a b _ => (a >>> (b.toNat % 32), 0)),
      (.veSra, 0x15, fun _ => True, fun _ a b _ => (a.sshiftRight (b.toNat % 32), 0)),
      (.veAnd, 0x16, fun _ => True, fun _ a b _ => (a &&& b, 0)), (.veOr, 0x17, fun _ => True, fun _ a b _ => (a ||| b, 0)),
      (.veXor, 0x18, fun _ => True, fun _ a b _ => (a ^^^ b, 0)),
      (.icmp, 0x19, fun i => i.f 22 20 ≤ 5, fun i a b _ => (icmp (i.f 22 20) a b, 0))] ++
      [(.exp, 0x28, fun _ => True, fun _ a _ _ => fnLane .exp a), (.exp2, 0x29, fun _ => True, fun _ a _ _ => fnLane .exp2 a),
      (.log, 0x2A, fun _ => True, fun _ a _ _ => fnLane .log a), (.log2, 0x2B, fun _ => True, fun _ a _ _ => fnLane .log2 a),
      (.rcp, 0x2C, fun _ => True, fun _ a _ _ => fnLane .rcp a), (.rsqrt, 0x2D, fun _ => True, fun _ a _ _ => fnLane .rsqrt a),
      (.tanh, 0x2E, fun _ => True, fun _ a _ _ => fnLane .tanh a),
      (.sigmoid, 0x2F, fun _ => True, fun _ a _ _ => fnLane .sigmoid a),
      (.erf, 0x30, fun _ => True, fun _ a _ _ => fnLane .erf a), (.sinpi, 0x31, fun _ => True, fun _ a _ _ => fnLane .sinpi a),
      (.cospi, 0x32, fun _ => True, fun _ a _ _ => fnLane .cospi a), (.div, 0x34, fun _ => True, fun _ a b _ => fdiv a b),
      (.sqrt, 0x35, fun _ => True, fun _ a _ _ => fsqrt a)] :
      List ((CoreId → IWord → Phase → Instr) × Nat × (IWord → Prop) × (IWord → Lane → Lane → Lane → Lane × Flags))),
  ∀ (c : CoreId) (i : IWord) (x : QEntry) (rest : List QEntry) (s : State),
    CoreRuns s c.val → AtHead s.dev c.val 2 (i.word 2 e.2.1) x rest → (s.dev.core c.val).ve.solve = none → e.2.2.1 i →
    let q := (s.dev.core c.val).sq
    let on := LaneOn q (i.f 28 28) (i.f 27 23)
    let r := fun k => e.2.2.2 i ((q.getV (i.f 44 40)).getD k 0) (laneB q x i k) ((q.getV (i.f 34 30)).getD k 0)
    open Classical in
    Completes (e.1 c i .begin) s (LanesDone s c.val (i.f 49 45) rest
      (fun k => if on k then (r k).1 else (q.getV (i.f 49 45)).getD k 0)
      (fun n => ∃ k, k < 256 ∧ on k ∧ (r k).2.getLsbD n = true))

/-- Lane movements and register conversions (R262 to R264): PERM, BCAST, LSHIFT and CVT.R.
Reductions (R158, R159): every active lane of a segment of 2^K lanes receives the reduction of the segment's active
lanes, by the fixed tree with the operation's identity for the others, or exactly for RSUMX. -/
def Obligations.VectorPermutes : Prop :=
  (∀ e ∈ ([(.perm, 0x20, fun _ => True, fun _ va vb k => (va ((vb k).toNat % 256), 0)),
      (.bcast, 0x21, fun _ => True, fun i va _ _ => (va (i.f 15 8), 0)),
      (.lshift, 0x22, fun i => (sext 12 (i.f 19 8)).natAbs ≤ 255, fun i va _ k =>
        let j : Int := k - sext 12 (i.f 19 8)
        (if 0 ≤ j ∧ j < 256 then va j.toNat else 0, 0)),
      (.cvtR, 0x40, fun i => cvtRCheck i = none, fun i va _ k => cvtRLane i (va k))] :
      List ((CoreId → IWord → Phase → Instr) × Nat × (IWord → Prop) ×
        (IWord → (Nat → Lane) → (Nat → Lane) → Nat → Lane × Flags))),
  ∀ (c : CoreId) (i : IWord) (x : QEntry) (rest : List QEntry) (s : State),
    CoreRuns s c.val → AtHead s.dev c.val 2 (i.word 2 e.2.1) x rest → (s.dev.core c.val).ve.solve = none → e.2.2.1 i →
    let q := (s.dev.core c.val).sq
    let on := LaneOn q (i.f 28 28) (i.f 27 23)
    let r := e.2.2.2 i (fun k => (q.getV (i.f 44 40)).getD k 0) (laneB q x i)
    open Classical in
    Completes (e.1 c i .begin) s (LanesDone s c.val (i.f 49 45) rest
      (fun k => if on k then (r k).1 else (q.getV (i.f 49 45)).getD k 0)
      (fun n => ∃ k, k < 256 ∧ on k ∧ (r k).2.getLsbD n = true))) ∧
  (∀ e ∈ ([(.rsum, 0x38, treeSeg fadd 0x80000000), (.rmax, 0x39, treeSeg Machine.fmax 0xFF800000),
      (.rmin, 0x3A, treeSeg Machine.fmin 0x7F800000), (.irsum, 0x3B, treeSeg (fun a b => (a + b, 0)) 0),
      (.rsumx, 0x3C, exactSeg)] :
      List ((CoreId → IWord → Phase → Instr) × Nat × (Nat → List (Lane × Bool) → Lane × Flags))),
  ∀ (c : CoreId) (i : IWord) (x : QEntry) (rest : List QEntry) (s : State),
    CoreRuns s c.val → AtHead s.dev c.val 2 (i.word 2 e.2.1) x rest → (s.dev.core c.val).ve.solve = none →
    2 ≤ i.f 11 8 → i.f 11 8 ≤ 8 →
    let q := (s.dev.core c.val).sq
    let on := LaneOn q (i.f 28 28) (i.f 27 23)
    let n := 2 ^ i.f 11 8
    open Classical in
    let seg := fun j => (List.range n).map (fun m => ((q.getV (i.f 44 40)).getD (n * j + m) 0, decide (on (n * j + m))))
    let r := fun j => e.2.2 (i.f 11 8) (seg j)
    Completes (e.1 c i .begin) s (LanesDone s c.val (i.f 49 45) rest
      (fun k => if on k then (r (k / n)).1 else (q.getV (i.f 49 45)).getD k 0)
      (fun b => ∃ j, j < 256 / n ∧ (r j).2.getLsbD b = true)))

/-- Random bits (R162, R163, R269): lane k is made of the 32 bits that the key, the stream and the position s[RK] to
s[RK + 3] give it. -/
def Obligations.VectorRandom : Prop :=
  ∀ e ∈ ([(.rand, 0x50, false, false, fun i x _ k => (BitVec.ofNat 32 (vnBits x i k), 0)),
      (.randu, 0x51, false, false, fun i x _ k => laneOfExact (vnBits x i k / 256) (-24) false),
      (.drop, 0x52, true, false, fun i x va k =>
        if vnBits x i k < (x.getS (i.f 34 30)).toNat % 2 ^ 32 then (0, 0)
        else fmul va ((x.getS (i.f 34 30 + 1)).setWidth 32)),
      (.randn, 0x53, false, true, fun i x _ k => randnLane i x {} k)] :
      List ((CoreId → IWord → Phase → Instr) × Nat × Bool × Bool × (IWord → QEntry → Lane → Nat → Lane × Flags))),
  ∀ (c : CoreId) (i : IWord) (x : QEntry) (rest : List QEntry) (s : State),
    CoreRuns s c.val → AtHead s.dev c.val 2 (i.word 2 e.2.1) x rest → (s.dev.core c.val).ve.solve = none →
    vnCheck e.2.2.1 e.2.2.2.1 i x (s.dev.core c.val).sq = none →
    let q := (s.dev.core c.val).sq
    let on := LaneOn q (i.f 29 29) (i.f 28 24)
    let r := fun k => e.2.2.2.2 i x ((q.getV (i.f 44 40)).getD k 0) k
    open Classical in
    Completes (e.1 c i .begin) s (LanesDone s c.val (i.f 49 45) rest
      (fun k => if on k then (r k).1 else (q.getV (i.f 49 45)).getD k 0)
      (fun n => ∃ k, k < 256 ∧ on k ∧ (r k).2.getLsbD n = true))

/-- OSMX (R160, R161): of each segment whose state registers hold one value in every lane, the four destination registers
receive the probabilities, the new maximum, the new sum and the correction factor. -/
def Obligations.OnlineSoftmax : Prop :=
  ∀ (c : CoreId) (i : IWord) (x : QEntry) (rest : List QEntry) (s : State),
    CoreRuns s c.val → AtHead s.dev c.val 2 (i.word 2 0x3D) x rest → (s.dev.core c.val).ve.solve = none →
    2 ≤ i.f 11 8 → i.f 11 8 ≤ 8 →
    let q := (s.dev.core c.val).sq
    let on := LaneOn q (i.f 28 28) (i.f 27 23)
    let n := 2 ^ i.f 11 8
    let vd := i.f 49 45
    open Classical in
    let seg := fun j => (List.range n).map (fun m => ((q.getV (i.f 44 40)).getD (n * j + m) 0, decide (on (n * j + m))))
    Completes (.osmx c i .begin) s (fun d =>
      EngineFrame s.dev d c.val ∧ d.mem = s.dev.mem ∧ (d.core c.val).ve.eng.queue = rest ∧
      ∀ j m l, j < 256 / n →
        (∀ k, k < n → (q.getV (i.f 39 35)).getD (n * j + k) 0 = m ∧ (q.getV (i.f 39 35 + 1)).getD (n * j + k) 0 = l) →
        (q.getV (i.f 39 35)).length = 256 → (q.getV (i.f 39 35 + 1)).length = 256 →
        let o := osmxSeg (i.f 11 8) (seg j) m l ((x.getS (i.f 34 30)).setWidth 32)
        ∀ k, k < n →
          ((d.core c.val).sq.getV vd).getD (n * j + k) 0 = o.p.getD k 0 ∧
          ((d.core c.val).sq.getV (vd + 1)).getD (n * j + k) 0 = o.m ∧
          ((d.core c.val).sq.getV (vd + 2)).getD (n * j + k) 0 = o.l ∧
          ((d.core c.val).sq.getV (vd + 3)).getD (n * j + k) 0 = o.alpha)

/-- VLD (R265): active lane k receives the 4 bytes at ea + k·stride. CVT.LD (R266): it receives element e + k of the row,
converted; an FP64 element fills two lanes.
VST (R265): the 4 bytes at ea + k·stride receive active lane k, a later lane after an earlier one; every other byte
stays.
CVT.ST of an unscaled format (R267): the elements e to e + n − 1 of the row become the encoded lanes, an inactive one
as +0, and the other bits of the row's edge bytes stay. CVT.ST of any format (R259, R267): each plane of the row receives
the codes of the elements, the scale bytes of MX and NB the block exponents, where these ranges lie apart, and VE_FLAGS
the conversion's flags. CVT.EXP (R268) folds its elements into lanes 0 and 1, and with
LAST stores the exponent word. -/
def Obligations.VectorMemory : Prop :=
  (∀ (c : CoreId) (i : IWord) (x : QEntry) (rest : List QEntry) (s : State),
    CoreRuns s c.val → (s.dev.core c.val).ve.solve = none →
    let q := (s.dev.core c.val).sq
    open Classical in
    (AtHead s.dev c.val 2 (i.word 2 0x48) x rest → vmCheck c.val false i x q = none →
      let on := LaneOn q (i.f 30 30) (i.f 29 25)
      (∀ k, k < 256 → on k → Clean s.dev (vmLane x i k).toNat 4) →
      Completes (.vld c i .begin) s (LanesDone s c.val (i.f 49 45) rest
        (fun k => if on k then BitVec.ofNat 32 (natOfBytes (s.dev.mem.getAll (vmLane x i k).toNat 4))
          else (q.getV (i.f 49 45)).getD k 0)
        (fun _ => False))) ∧
    (∀ f, AtHead s.dev c.val 2 (i.word 2 0x4A) x rest → cvtLdCheck c.val i x q = none →
      let u := (vcDesc x i).1
      let e := (vcDesc x i).2.1
      let j := (vcDesc x i).2.2
      let sp := elemSpan (u.rowAddr 1 j) f.el.width e (cvtCount f)
      let sc := cvtScale u f e j
      let on := LaneOn q (i.f 22 22) (i.f 21 17)
      let code := fun k => (unpackElems f.el.width (cvtCount f)
        (natOfBytes (s.dev.mem.getAll sp.1 sp.2.2) >>> sp.2.1)).getD k 0
      let r := fun k =>
        if f.el.width = 64 then (BitVec.ofNat 32 (code (k / 2) / 2 ^ (32 * (k % 2))), 0)
        else cvtLdLane f.el (cvtElem f (natOfBytes (s.dev.mem.getAll sc.1 sc.2)) k (code k)) (code k)
      Fmt.ofCode u.fmt = some f → Clean s.dev sp.1 sp.2.2 → Clean s.dev sc.1 sc.2 →
      Completes (.cvtLd c i .begin) s (LanesDone s c.val (i.f 49 45) rest
        (fun k => if on k then (r k).1 else (q.getV (i.f 49 45)).getD k 0)
        (fun n => ∃ k, k < 256 ∧ on k ∧ (r k).2.getLsbD n = true)))) ∧
  (∀ (c : CoreId) (i : IWord) (x : QEntry) (rest : List QEntry) (s : State),
    CoreRuns s c.val → (s.dev.core c.val).ve.solve = none → AtHead s.dev c.val 2 (i.word 2 0x49) x rest →
    vmCheck c.val true i x (s.dev.core c.val).sq = none →
    let q := (s.dev.core c.val).sq
    let on := LaneOn q (i.f 30 30) (i.f 29 25)
    let a := fun (k : Nat) => (vmLane x i k).toNat
    (∀ k, k < 256 → on k → Clean s.dev (a k) 4) →
    Completes (.vst c i .begin) s (fun d =>
      (∀ k, k < 256 → on k → (∀ j, k < j → j < 256 → on j → a j ≠ a k) →
        d.mem.getAll (a k) 4 = bytesOf 4 ((q.getV (i.f 49 45)).getD k 0).toNat) ∧
      (∀ b, (∀ k, k < 256 → on k → b < a k ∨ a k + 4 ≤ b) → d.mem.get b = s.dev.mem.get b) ∧
      (d.core c.val).sq = q ∧ (d.core c.val).ve.eng.queue = rest ∧ EngineFrame s.dev d c.val)) ∧
  (∀ (c : CoreId) (i : IWord) (x : QEntry) (rest : List QEntry) (s : State),
    CoreRuns s c.val → (s.dev.core c.val).ve.solve = none →
    let q := (s.dev.core c.val).sq
    let u := (vcDesc x i).1
    let e := (vcDesc x i).2.1
    let j := (vcDesc x i).2.2
    let on := LaneOn q (i.f 22 22) (i.f 21 17)
    (∀ f, AtHead s.dev c.val 2 (i.word 2 0x4B) x rest → cvtStCheck c.val i x q = none → Fmt.ofCode u.fmt = some f →
      f.scheme = .unscaled →
      let sp := elemSpan (u.rowAddr 1 j) f.el.width e (cvtCount f)
      Clean s.dev sp.1 sp.2.2 →
      Completes (.cvtSt c i .begin) s (fun d =>
        KeptOutside s d sp.1 sp.2.2 ∧ (d.core c.val).sq = q ∧ (d.core c.val).ve.eng.queue = rest ∧
        EngineFrame s.dev d c.val ∧
        (i.f 30 29 ≠ 2 → ∃ codes : List Nat, codes.length = cvtCount f ∧
          (f.el.width ≠ 64 → ∀ k, k < 256 → ∀ v, (on k → v = ((q.getV (i.f 49 45)).getD k 0).val) →
            (¬on k → v = .fin false 0 0) →
            codes.getD k 0 = (f.el.encode ((Rnd.ofCode (i.f 30 29)).getD .rne) (i.f 28 28 = 1) 0 v).1) ∧
          d.mem.getAll sp.1 sp.2.2 = bytesOf sp.2.2 (mergeSpan (natOfBytes (s.dev.mem.getAll sp.1 sp.2.2)) sp.2.1
            f.el.width (cvtCount f) (packElems f.el.width codes))))) ∧
    (∀ f, AtHead s.dev c.val 2 (i.word 2 0x4B) x rest → cvtStCheck c.val i x q = none → Fmt.ofCode u.fmt = some f →
      let n := cvtCount f
      let sp := fun (p : Nat) => elemSpan (u.rowAddr (p + 1) j) f.el.width e n
      let sc := cvtScale u f e j
      let rnd := (Rnd.ofCode (i.f 30 29)).getD .rne
      let ew := if f.scheme.hasParts then natOfBytes (s.dev.mem.getAll (u.sbase + 2 * j) 2) else 0
      let r16 := fun (k : Nat) => if rnd = .sr then
        sr16 (x.getS (i.f 27 23)).toNat (x.getS (i.f 27 23 + 1)).toNat (u.m0 + j) (u.n0 + e + k) else 0
      let o := cvtCodes f u.s rnd (i.f 28 28 = 1) ew r16
        (cvtSource (f.scheme = .slice) (q.getV (i.f 49 45)) (q.active (i.f 22 22 = 1) (i.f 21 17)))
      let apart := fun (a b : Nat × Nat) => a.1 + a.2 ≤ b.1 ∨ b.1 + b.2 ≤ a.1
      let part := fun (p : Nat) => ((sp p).1, (sp p).2.2)
      (∀ p, p < u.parts f → Clean s.dev (sp p).1 (sp p).2.2) → Clean s.dev sc.1 sc.2 →
      (f.scheme.hasParts = true → Clean s.dev (u.sbase + 2 * j) 2) →
      (∀ p p', p < u.parts f → p' < u.parts f → p ≠ p' → apart (part p) (part p')) →
      (sc.2 ≠ 0 → ∀ p, p < u.parts f → apart (part p) sc) →
      o.1.length = u.parts f ∧ o.2.1.length = sc.2 ∧
      Completes (.cvtSt c i .begin) s (fun d =>
        (∀ p, p < u.parts f → d.mem.getAll (sp p).1 (sp p).2.2 =
          bytesOf (sp p).2.2 (mergeSpan (natOfBytes (s.dev.mem.getAll (sp p).1 (sp p).2.2)) (sp p).2.1 f.el.width n
            (packElems f.el.width (o.1.getD p [])))) ∧
        (sc.2 ≠ 0 → d.mem.getAll sc.1 sc.2 = o.2.1) ∧
        (∀ b, (∀ p, p < u.parts f → b < (sp p).1 ∨ (sp p).1 + (sp p).2.2 ≤ b) →
          (sc.2 = 0 ∨ b < sc.1 ∨ sc.1 + sc.2 ≤ b) → d.mem.get b = s.dev.mem.get b) ∧
        (d.core c.val).ve.flags = (s.dev.core c.val).ve.flags ||| o.2.2 ∧
        (d.core c.val).sq = q ∧ (d.core c.val).ve.eng.queue = rest ∧ EngineFrame s.dev d c.val)) ∧
    (AtHead s.dev c.val 2 (i.word 2 0x4C) x rest → cvtExpCheck c.val i x q = none →
      let st := cvtExpState q i (decide (u.fmt = 0x1D))
      (i.f 12 12 = 1 → Clean s.dev (u.sbase + 2 * j) 2) →
      Completes (.cvtExp c i .begin) s (fun d =>
        (d.core c.val).sq.getV (i.f 49 45) =
          ((q.getV (i.f 49 45)).set 0 st.lane0).set 1 (BitVec.ofNat 32 st.seen) ∧
        (∀ r, r ≠ i.f 49 45 → (d.core c.val).sq.getV r = q.getV r) ∧
        (i.f 12 12 = 0 → d.mem = s.dev.mem) ∧
        (i.f 12 12 = 1 → d.mem.getAll (u.sbase + 2 * j) 2 = bytesOf 2 (st.word (decide (u.fmt = 0x1D))) ∧
          KeptOutside s d (u.sbase + 2 * j) 2) ∧
        (d.core c.val).ve.eng.queue = rest ∧ EngineFrame s.dev d c.val)))

/-- SOLVE (R164 to R168, R270): it begins with the first system of its batch; each system is read, solved, and its X and
its status word stored. -/
def Obligations.Solves : Prop :=
  ∀ (c : CoreId) (i : IWord) (s : State), CoreRuns s c.val →
    (∀ x rest, AtHead s.dev c.val 2 (i.word 2 0x58) x rest → (s.dev.core c.val).ve.solve = none →
      solveCheck c.val i x (s.dev.core c.val).sq = none →
      Completes (.solve c i .begin) s (fun d =>
        (∃ tau, (d.core c.val).ve.solve = some (solveRunOf x i tau (s.dev.core c.val).ve.eng.nextSeq)) ∧
        (d.core c.val).ve.eng.queue = rest ∧ d.mem = s.dev.mem ∧ EngineFrame s.dev d c.val)) ∧
    (∀ r, (s.dev.core c.val).ve.solve = some r → r.word = i.word 2 0x58 →
      let a := r.aBase + r.next * r.aPitch
      let b := r.bBase + r.next * r.bPitch
      let xa := r.xBase + r.next * r.xPitch
      let sa := r.sBase + 4 * r.next
      let m := 4 * r.n * r.r
      let o := solveOne r.n r.r r.mode r.tau (matOfBytes r.n r.n (s.dev.mem.getAll a (4 * r.n * r.n)))
        (matOfBytes r.n r.r (s.dev.mem.getAll b m))
      Clean s.dev a (4 * r.n * r.n) → Clean s.dev b m → Clean s.dev xa m → Clean s.dev sa 4 →
      xa + m ≤ sa ∨ sa + 4 ≤ xa →
      Completes (.solve c i .row) s (fun d =>
        d.mem.getAll sa 4 = bytesOf 4 o.status ∧
        (∀ x, o.x = some x → d.mem.getAll xa m = matBytes r.n r.r x) ∧
        (∀ y, (y < sa ∨ sa + 4 ≤ y) → (y < xa ∨ xa + m ≤ y) → d.mem.get y = s.dev.mem.get y) ∧
        (r.next + 1 < r.count → (d.core c.val).ve.solve =
          some { r with next := r.next + 1, flags := r.flags ||| o.fl }) ∧
        (r.count ≤ r.next + 1 → (d.core c.val).ve.solve = none) ∧
        (d.core c.val).sq = (s.dev.core c.val).sq ∧ EngineFrame s.dev d c.val))

/-- ME.LOAD (R116, R117, R256): the tile register takes the tile that the source bytes make. ME.CLEAR (R260): the rows of
its range lose VALID, every other row stays.
ME.STREAM (R121, R257) begins with row 0 of its source; each row read enters the array with the values of its bytes,
and after the last the array is free. -/
def Obligations.MatrixWeights : Prop :=
  (∀ (c : CoreId) (i : IWord) (x : QEntry) (rest : List QEntry) (s : State), CoreRuns s c.val →
    s.dev.colTesting c.val = false → (s.dev.core c.val).me.run = none →
    let m := (s.dev.core c.val).me
    let u := Desc.ofBits (x.getD' (i.f 49 46))
    let tr := decide (i.f 45 45 = 1)
    (∀ f, AtHead s.dev c.val 1 (i.word 1 0x01) x rest → loadCheck c.val u tr (i.f 44 42) = none →
      Fmt.ofCode u.fmt = some f →
      let rs := loadRanges u f tr (i.f 44 42)
      m.sourceFree rs = true → (∀ r ∈ rs, Clean s.dev r.1 r.2) →
      Completes (.meLoad c i .begin) s (fun d =>
        (d.core c.val).me.tile = some (tileOf' u f tr (i.f 44 42) (rs.map (fun r => s.dev.mem.getAll r.1 r.2))) ∧
        (d.core c.val).me.eng.queue = rest ∧ (d.core c.val).me.acc = m.acc ∧ (d.core c.val).me.flags = m.flags ∧
        (d.core c.val).sq = (s.dev.core c.val).sq ∧ d.mem = s.dev.mem ∧ EngineFrame s.dev d c.val)) ∧
    (AtHead s.dev c.val 1 (i.word 1 0x05) x rest → 0 < i.f 32 20 → i.f 44 33 + i.f 32 20 ≤ 4096 →
      (∀ k, k < i.f 32 20 → m.rowBusy m.eng.nextSeq (i.f 44 33 + k) = false ∧
        m.rowWanted m.eng.nextSeq (i.f 44 33 + k) = false) →
      Completes (.meClear c i .begin) s (fun d =>
        (∀ k, (d.core c.val).me.row k =
          if i.f 44 33 ≤ k ∧ k < i.f 44 33 + i.f 32 20 then AccRow.invalid else m.row k) ∧
        (d.core c.val).me.eng.queue = rest ∧ (d.core c.val).me.tile = m.tile ∧ (d.core c.val).me.flags = m.flags ∧
        (d.core c.val).sq = (s.dev.core c.val).sq ∧ d.mem = s.dev.mem ∧ EngineFrame s.dev d c.val))) ∧
  (∀ (c : CoreId) (i : IWord) (s : State), CoreRuns s c.val →
    let m := (s.dev.core c.val).me
    (∀ x rest t f tf e, AtHead s.dev c.val 1 (i.word 1 0x02) x rest → s.dev.colTesting c.val = false → m.run = none →
      m.tile = some t →
      let u := Desc.ofBits (x.getD' (i.f 49 46))
      streamCheck c.val u t i = none → Fmt.ofCode u.fmt = some f → Fmt.ofCode t.fmt = some tf →
      streamExp f tf (i.f 9 9 = 1) (sext 10 (i.f 19 10)) = some e →
      m.sourceFree ((upTo (i.f 32 20)).flatMap (streamRanges u f t (i.f 8 3))) = true →
      Completes (.meStream c i .begin) s (fun d =>
        (∃ r, (d.core c.val).me.run = some r ∧ r.word = i.word 1 0x02 ∧ r.addw = false ∧ r.desc = u ∧ r.next = 0 ∧
          r.accBase = i.f 44 33 ∧ r.rows = i.f 32 20 ∧ r.exp = e ∧ r.clr = decide (i.f 45 45 = 1)) ∧
        (d.core c.val).me.eng.queue = rest ∧ (d.core c.val).me.acc = m.acc ∧ (d.core c.val).me.tile = m.tile ∧
        d.mem = s.dev.mem ∧ EngineFrame s.dev d c.val)) ∧
    (∀ r t f, m.run = some r → m.tile = some t → r.word = i.word 1 0x02 → r.addw = false →
      m.rowWanted r.seq (r.accBase + r.next) = false → Fmt.ofCode r.desc.fmt = some f →
      let rs := streamRanges r.desc f t r.part r.next
      (∀ x ∈ rs, Clean s.dev x.1 x.2) →
      Completes (.meStream c i .row) s (fun d =>
        (∃ row, (d.core c.val).me.flight = m.flight ++ [row] ∧ row.row = r.accBase + r.next ∧ row.tile = t ∧
          row.vals = streamVals r.desc f t (rs.map (fun x => s.dev.mem.getAll x.1 x.2)) ∧ row.exp = r.exp ∧
          row.clr = r.clr ∧ row.mode = r.mode ∧ row.shift = r.shift) ∧
        (d.core c.val).me.run = (if r.rows ≤ r.next + 1 then none else some { r with next := r.next + 1 }) ∧
        (d.core c.val).me.acc = m.acc ∧ d.mem = s.dev.mem ∧ EngineFrame s.dev d c.val)))

/-- ME_STREAM_ROW_UPDATE (R121 to R123, R130): the oldest row in the array updates its accumulator row with the products
of its values and the tile; every other row stays. ME.ADDW (R127, R101) adds record rows into its accumulator rows. -/
def Obligations.MatrixAccumulate : Prop :=
  ∀ (c : CoreId) (s : State), CoreRuns s c.val →
    let m := (s.dev.core c.val).me
    (∀ f rest tf, m.flight = f :: rest → Fmt.ofCode f.tile.fmt = some tf →
      let r := streamRow f.tile tf f.clr f.exp f.mode f.shift f.vals (m.row f.row)
      Completes (.meStreamRowUpdate c none) s (fun d =>
        (∀ k, (d.core c.val).me.row k = if f.row = k then r.1 else m.row k) ∧ (d.core c.val).me.flight = rest ∧
        (d.core c.val).me.flags = m.flags ||| r.2 ∧ (d.core c.val).me.tile = m.tile ∧
        d.mem = s.dev.mem ∧ EngineFrame s.dev d c.val)) ∧
    (∀ i x rest f, AtHead s.dev c.val 1 (i.word 1 0x04) x rest → s.dev.colTesting c.val = false → m.run = none →
      let u := Desc.ofBits (x.getD' (i.f 49 46))
      addwCheck c.val u i = none → Fmt.ofCode u.fmt = some f →
      m.sourceFree ((upTo (i.f 32 20)).map (fun k => (u.base + k * u.pitch, 1024))) = true →
      Completes (.meAddw c i .begin) s (fun d =>
        (∃ r, (d.core c.val).me.run = some r ∧ r.word = i.word 1 0x04 ∧ r.addw = true ∧ r.desc = u ∧ r.next = 0 ∧
          r.accBase = i.f 44 33 ∧ r.rows = i.f 32 20 ∧ r.clr = decide (i.f 45 45 = 1)) ∧
        (d.core c.val).me.eng.queue = rest ∧ (d.core c.val).me.acc = m.acc ∧ d.mem = s.dev.mem ∧
        EngineFrame s.dev d c.val)) ∧
    (∀ i r, m.run = some r → r.word = i.word 1 0x04 → r.addw = true →
      m.rowWanted r.seq (r.accBase + r.next) = false → (∀ f ∈ m.flight, f.row ≠ r.accBase + r.next) →
      let a := r.desc.base + r.next * r.desc.pitch
      Clean s.dev a 1024 →
      let o := addwRow r.clr r.mode (natOfBytes (s.dev.mem.getAll a 1024)) (m.row (r.accBase + r.next))
      Completes (.meAddw c i .row) s (fun d =>
        (∀ k, (d.core c.val).me.row k = if r.accBase + r.next = k then o.1 else m.row k) ∧
        ((d.core c.val).me.run = none ↔ r.rows ≤ r.next + 1) ∧ (d.core c.val).me.flags = m.flags ||| o.2 ∧
        d.mem = s.dev.mem ∧ EngineFrame s.dev d c.val))

/-- ME.DRAIN (R125, R126, R258, R259): it begins beside the array; each row is read and rounded from its accumulators,
which stay as they are, and its bytes land with ME_DRAIN_ROW_WRITE (R130).
The second scale byte of a half block is a free value (log entry 112). -/
def Obligations.MatrixDrain : Prop :=
  ∀ (c : CoreId) (s : State), CoreRuns s c.val →
    let m := (s.dev.core c.val).me
    (∀ i x rest, AtHead s.dev c.val 1 (i.word 1 0x03) x rest → s.dev.colTesting c.val = false →
      let u := Desc.ofBits (x.getD' (i.f 49 46))
      drainCheck c.val m u (Desc.ofBits (x.getD' (i.f 49 46 ^^^ 1))) i = none →
      Completes (.meDrain c i .begin) s (fun d =>
        (∃ r, (d.core c.val).me.drains = m.drains ++ [r] ∧ r.word = i.word 1 0x03 ∧ r.u = u ∧ r.next = 0 ∧
          r.accBase = i.f 44 33 ∧ r.rows = i.f 32 20 ∧ r.aow = decide (i.f 45 45 = 1) ∧ r.wide = decide (i.f 8 8 = 1) ∧
          r.outExp = sext 8 (i.f 19 12)) ∧
        (d.core c.val).me.eng.queue = rest ∧ (d.core c.val).me.acc = m.acc ∧ (d.core c.val).me.run = m.run ∧
        d.mem = s.dev.mem ∧ EngineFrame s.dev d c.val)) ∧
    (∀ i r rest, m.drains = r :: rest → r.word = i.word 1 0x03 → m.rowBusy r.seq (r.accBase + r.next) = false →
      let a := if (m.row (r.accBase + r.next)).valid = true then m.row (r.accBase + r.next) else AccRow.invalid
      (∀ x ∈ r.reads a, Clean s.dev x.1 x.2) →
      let o := r.rowOut a ((r.reads a).map (fun x => s.dev.mem.getAll x.1 x.2))
      Completes (.meDrain c i .row) s (fun d =>
        (∃ w, (d.core c.val).me.writes = m.writes ++ [w] ∧ w.seq = r.seq ∧ w.writes = o.1 ∧ w.flags = o.2) ∧
        (d.core c.val).me.drains =
          (if r.rows ≤ r.next + 1 then rest else { r with next := r.next + 1, flags := r.flags ||| o.2 } :: rest) ∧
        (d.core c.val).me.acc = m.acc ∧ d.mem = s.dev.mem ∧ EngineFrame s.dev d c.val)) ∧
    (∀ w rest, m.writes = w :: rest → (∀ x ∈ w.writes, Clean s.dev x.1 x.2.length) →
      Completes (.meDrainRowWrite c) s (fun d =>
        (∀ pre a bs post, w.writes = pre ++ (a, bs) :: post →
          (∀ x ∈ post, a + bs.length ≤ x.1 ∨ x.1 + x.2.length ≤ a) → d.mem.getAll a bs.length = bs) ∧
        (∀ b, (∀ x ∈ w.writes, b < x.1 ∨ x.1 + x.2.length ≤ b) → d.mem.get b = s.dev.mem.get b) ∧
        (d.core c.val).me.writes = rest ∧ (d.core c.val).me.flags = m.flags ||| w.flags ∧
        (d.core c.val).me.acc = m.acc ∧ EngineFrame s.dev d c.val))

/-- RESUME and FLUSH of a halted engine, by the hosting software (R134, R172, R274): the refused head leaves, or the whole
queue; the halt is cleared. The column test takes the tile and the accumulators, and its end reports the lowest failing
column (R138). When the spare column is in use and the failing column is another than the one it replaces, no spare is left:
ME_COLUMN_FAIL (R139).
What a column test does to the work of a halted engine is the model's reading (log entry 115). -/
def Obligations.EngineControls : Prop :=
  (∀ e ∈ ([(.meResume .host, false, .meCtrl, 1), (.veResume .host, false, .veCtrl, 2), (.fteResume .host, false, .fteCtrl, 3),
      (.meFlush .host, true, .meCtrl, 1), (.veFlush .host, true, .veCtrl, 2), (.fteFlush .host, true, .fteCtrl, 3)] :
      List ((CoreId → Instr) × Bool × RK × Nat)),
    ∀ (c : CoreId) (s : State), HostReaches s ⟨e.2.2.1, [c.val]⟩ →
      let g := (s.dev.core c.val).eng e.2.2.2
      g.halt = true →
      Completes (e.1 c) s (fun d =>
        (d.core c.val).eng e.2.2.2 = { g with halt := false, haltHead := false, queue :=
          if e.2.1 then [] else if g.haltHead then g.queue.drop 1 else g.queue } ∧
        (∀ k, k < 3 → (d.core c.val).sq.engHalt.getLsbD k =
          (decide (k ≠ e.2.2.2 - 1) && (s.dev.core c.val).sq.engHalt.getLsbD k)) ∧
        d.mem = s.dev.mem ∧ d.regs = s.dev.regs ∧ EngineFrame s.dev d c.val)) ∧
  (∀ (c : CoreId) (s : State), HostReaches s ⟨.meCtrl, [c.val]⟩ → s.dev.colTesting c.val = false →
    (s.dev.core c.val).engIdle 1 = true →
    Completes (.meColTest .host c) s (fun d =>
      d.colTesting c.val = true ∧ (d.core c.val).me.tile = none ∧ (∀ k, (d.core c.val).me.row k = AccRow.invalid) ∧
      d.mem = s.dev.mem ∧ EngineFrame s.dev d c.val)) ∧
  (∀ (k : Fin 448) (fail : Option (Fin 17)) (s : State), Acts s → (s.dev.columnOf k.val).getLsbD 6 = true →
    let w := s.dev.columnOf k.val
    let spent := w.getLsbD 5 = true ∧ ∃ col, fail = some col ∧ col.val ≠ fld 4 0 w
    Completes (.meColTestDone k fail) s (fun d =>
      (¬spent → (d.columnOf k.val).getLsbD 6 = false ∧ (d.columnOf k.val).getLsbD 7 = fail.isSome ∧
        fld 12 8 (d.columnOf k.val) = (match fail with | some col => col.val | none => 31) ∧ d.mem = s.dev.mem ∧
        d.cores = s.dev.cores ∧ d.raised = s.dev.raised) ∧
      (spent → (s.dev.physCore k.val).logical < 24 ∨ (∃ y ∈ s.dev.prunes, y.phys = k.val) → Raises d 0x0207)))

/-- A fetch instruction begins when the previous one has sent its requests and no earlier destination meets its source
(R278): it leaves the queue with its requests counted. FTE.CANCEL takes the queued copies and gathers of its tag, or of
all, and discards what is on its way (R277).
A copy's next request goes out while a place is free (R316), and a returned one lands in its order (R278, R317): a
request within the partition's SRAM moves its bytes; every other byte stays. FTE.ZERO's request makes them zero. -/
def Obligations.Fetches : Prop :=
  ((∀ e ∈ ([(.fteCopy, 1, .copy, fun d c i x => d.copyCheck c i x, fun i => i.f 23 16),
      (.fteGather, 2, .gather, fun d c i x => d.gatherCheck c i x, fun i => i.f 22 15),
      (.fteZero, 3, .zero, fun d c i x => d.zeroCheck c i x, fun _ => 0)] :
      List ((CoreId → IWord → Phase → Instr) × Nat × FteKind × (Dev → Nat → IWord → QEntry → Option Nat) ×
        (IWord → Nat))),
    ∀ (c : CoreId) (i : IWord) (x : QEntry) (rest : List QEntry) (s : State),
      CoreRuns s c.val → AtHead s.dev c.val 3 (i.word 3 e.2.1) x rest → e.2.2.2.1 s.dev c.val i x = none →
      let f := (s.dev.core c.val).fte
      f.sending = false → f.sourceHeld e.2.2.1 x = false →
      Completes (e.1 c i .begin) s (fun d =>
        (d.core c.val).fte.runs = f.runs ++ [⟨f.eng.nextSeq, e.2.2.1, x, e.2.2.2.2 i, FteRun.count e.2.2.1 x, 0, 0, false, []⟩] ∧
        (d.core c.val).fte.eng = { f.eng with queue := rest, nextSeq := f.eng.nextSeq + 1 } ∧
        (d.core c.val).fte.reqs = f.reqs ∧ (d.core c.val).sq = (s.dev.core c.val).sq ∧ d.mem = s.dev.mem ∧
        EngineFrame s.dev d c.val)) ∧
  (∀ (c : CoreId) (i : IWord) (s : State), CoreRuns s c.val → AtPc s.dev c.val 3 4 i → Enabled s.dev c.val i →
    i.f 49 24 = 0 → i.f 14 0 = 0 → (i.f 15 15 = 1 → i.f 23 16 = 0) → s.dev.engClock c.val 3 = 2 →
    let f := (s.dev.core c.val).fte
    let hit := fun (tag : Nat) => decide (i.f 15 15 = 1) || decide (tag = i.f 23 16)
    Completes (.fteCancel c i) s (fun d =>
      (∀ x, x ∈ (d.core c.val).fte.eng.queue ↔ x ∈ f.eng.queue ∧ cancels (decide (i.f 15 15 = 1)) (i.f 23 16) x = false) ∧
      (∀ q ∈ (d.core c.val).fte.reqs, ∀ r ∈ f.runs, r.kind ≠ .zero → hit r.tag = true → q.run = r.id → q.discard = true) ∧
      SameFiles (s.dev.core c.val).sq (d.core c.val).sq ∧ d.mem = s.dev.mem ∧
      (Plain s.dev c.val → (d.core c.val).sq.pc = (s.dev.core c.val).sq.pc + 1)))) ∧
  (∀ (c : CoreId) (s : State), CoreRuns s c.val →
    let f := (s.dev.core c.val).fte
    (∀ i r pre post, f.runs = pre ++ r :: post → (∀ y ∈ pre, y.total ≤ y.next) → (∀ y ∈ pre ++ post, y.id ≠ r.id) →
      r.next < r.total → r.kind = .copy → (f.eng.halt = false ∨ f.eng.haltHead = true) →
      r.entry.word = i.word 3 1 →
      (let n := ftePlaces c.val .copy (fteCopyPieces r.entry r.next); n = 0 ∨ f.places + n ≤ 512) →
      Completes (.fteCopy c i .row) s (fun d =>
        (∃ q, (d.core c.val).fte.reqs = f.reqs ++ [q] ∧ q.run = r.id ∧ q.pieces = fteCopyPieces r.entry r.next ∧
          q.discard = false ∧ q.poisoned = false) ∧
        (d.core c.val).fte.runs = pre ++ { r with next := r.next + 1, out := r.out + 1 } :: post ∧
        d.mem = s.dev.mem ∧ EngineFrame s.dev d c.val)) ∧
    (∀ q reqs r src dst n, f.reqs = q :: reqs → f.runs.find? (fun y => y.id = q.run) = some r → q.discard = false →
      q.poisoned = false → q.pieces = [(src, dst, n)] → 0 < n →
      (r.kind = .zero ∨ (r.kind = .copy ∧ s.dev.memHeld src = false ∧ s.dev.cutFrom (clusterOf c.val) src = false ∧
        4 * hbmTileBytes ≤ src ∧
        (∀ i, i < n → s.dev.sramOf (s.dev.corePart c.val) (src + i) = true) ∧ Clean s.dev src n)) →
      s.dev.memHeld dst = false → s.dev.cutFrom (clusterOf c.val) dst = false → 4 * hbmTileBytes ≤ dst →
      Clean s.dev dst n →
      Completes (.fteRequestReturn c 0 []) s (fun d =>
        d.mem.getAll dst n = (if r.kind = .copy then s.dev.mem.getAll src n else List.replicate n 0) ∧
        KeptOutside s d dst n ∧ (d.core c.val).fte.reqs = reqs ∧ (d.core c.val).sq = (s.dev.core c.val).sq ∧
        EngineFrame s.dev d c.val)))

/-- ECC_WRITEBACK clears the errors of a corrected word that waits for it (R289). The patrol scrubber reads the row at its
position, without errors, and goes to the next (R292).
A bank's power (R298 to R300, R307): a request starts a transition from a resting state; a transition ends in the
state asked for; a bank that was off or goes off reads zero, and one that keeps its contents keeps every byte. -/
def Obligations.SramBanks : Prop :=
  ((∀ (w : Nat) (s : State), Acts s → w ∈ s.dev.mem.wback →
    Completes (.eccWriteback w) s (fun d =>
      FMap.getD d.mem.err w 0 = 0 ∧ w ∉ d.mem.wback ∧ d.mem.bytes = s.dev.mem.bytes ∧ d.mem.poison = s.dev.mem.poison ∧
      (∀ v, v ≠ w → FMap.getD d.mem.err v 0 = FMap.getD s.dev.mem.err v 0) ∧ d.cores = s.dev.cores ∧
      d.regs = s.dev.regs)) ∧
  (∀ (u : SramId) (b : Nat) (s : State), Acts s →
    let k := (s.dev.sram (sramKey u)).bank b
    let cfg := s.dev.reg (sramReg (sramKey u) .spdCfg .grvCfg)
    let w0 := (sramBase (sramKey u) + s.dev.rowOffset (sramKey u) b k.pos) / 8
    cfg.getLsbD 8 = true → s.dev.bankState (sramKey u) b = .on → b < s.dev.bankCount (sramKey u) →
    (∀ j, j < 8 → FMap.getD s.dev.mem.err (w0 + j) 0 = 0 ∧ NSet.has s.dev.mem.poison (w0 + j) = false ∧
      s.dev.sramAt (8 * (w0 + j)) ≠ none) →
    Completes (.patrolScrubRead u b none) s (fun d =>
      (d.sram (sramKey u)).bank b = { k with pos := (k.pos + 1) % bankRows (sramKey u) } ∧
      (∀ c, c ≠ b → (d.sram (sramKey u)).bank c = (s.dev.sram (sramKey u)).bank c) ∧
      d.mem = s.dev.mem ∧ d.cores = s.dev.cores ∧ d.raised = s.dev.raised))) ∧
  ((∀ (u : SramId) (b : Nat) (req : BitVec 2) (s : State),
    HostReaches s (match u with | .spd c => ⟨.spdPwrReq, [c.val]⟩ | .grv g => ⟨.grvPwrReq, [g.val, b / 32]⟩) →
    b < s.dev.bankCount (sramKey u) →
    let k := (s.dev.sram (sramKey u)).bank b
    Completes (.bankPowerRequest .host u b req) s (fun d =>
      let k' := (d.sram (sramKey u)).bank b
      (req = 3 → k' = k) ∧
      (req = 0 → k'.req = .on ∧ (k.st = .on → k'.st = .on) ∧ (k.st = .ret → k'.st = .wake) ∧ (k.st = .off → k'.st = .up)) ∧
      (req = 1 → k'.req = .ret ∧ (k.st = .on → k'.st = .enterRet) ∧ (k.st = .ret → k'.st = .ret) ∧
        (k.st = .off → k'.st = .up)) ∧
      (req = 2 → k'.req = .off ∧ (k.st = .on ∨ k.st = .ret → k'.st = .down) ∧ (k.st = .off → k'.st = .off)) ∧
      (req ≠ 3 → k.st = .enterRet ∨ k.st = .wake ∨ k.st = .down ∨ k.st = .up → k'.st = k.st ∧ k'.pending = true) ∧
      (∀ c, c ≠ b → (d.sram (sramKey u)).bank c = (s.dev.sram (sramKey u)).bank c) ∧
      d.mem = s.dev.mem ∧ d.regs = s.dev.regs ∧ d.cores = s.dev.cores)) ∧
  (∀ e ∈ ([(.bankEnterRetDone, .enterRet, .ret, .ret, false), (.bankWakeDone, .wake, .on, .on, false),
      (.bankDownDone, .down, .off, .off, true), (.bankUpDone, .up, .on, .on, true)] :
      List ((SramId → Nat → Instr) × BankState × BankReq × BankState × Bool)),
    ∀ (u : SramId) (b : Nat) (s : State), Acts s → b < s.dev.bankCount (sramKey u) →
      ((s.dev.sram (sramKey u)).bank b).st = e.2.1 →
      ((s.dev.sram (sramKey u)).bank b).req = e.2.2.1 →
      Completes (e.1 u b) s (fun d =>
        ((d.sram (sramKey u)).bank b).st = e.2.2.2.1 ∧ ((d.sram (sramKey u)).bank b).pending = false ∧
        (∀ a, d.mem.get a = if e.2.2.2.2 && s.dev.inBank (sramKey u) b a then 0 else s.dev.mem.get a) ∧
        d.cores = s.dev.cores ∧ d.regs = s.dev.regs)))

/-- DMA_BATCH_START (R329): the channel at the head of the queue runs, with its first descriptor; one that is not to move a byte
lets it abort (R331, R333). A burst within the SRAM of
the partition moves up to 512 bytes of one line (R330); every other byte stays. -/
def Obligations.DmaBursts : Prop :=
  ∀ (g : ClusterId) (s : State), Acts s → s.dev.tileOn (g.val / 4) = true → s.dev.clusterClock g.val 0 = 2 →
    let e := s.dev.dmaEng g.val
    (∀ ch q x rest, e.run = none → e.queue = ch :: q → (e.chan ch).batch = x :: rest →
      Completes (.dmaBatchStart g) s (fun d =>
        (∃ r, (d.dmaEng g.val).run = some r ∧ r.ch = ch ∧ r.desc = x ∧ r.ends = s.dev.dmaCheck g.val x ∧ r.moved = 0) ∧
        ((d.dmaEng g.val).chan ch).st = (if s.dev.dmaCheck g.val x = none then .run else .aborting) ∧
        ((d.dmaEng g.val).chan ch).batch = rest ∧
        d.mem = s.dev.mem ∧ d.cores = s.dev.cores)) ∧
    (∀ r, e.run = some r → r.ends = none → r.desc.cvu = 0 → r.desc.swin = 0 → r.desc.dwin = 0 →
      r.issued < r.desc.total →
      let n := min 512 (min (r.desc.sline - r.issued % r.desc.sline) (r.desc.dline - r.issued % r.desc.dline))
      let src := (((bits 47 0 (r.desc.w 0) : Nat) : Int) + r.desc.src r.issued).toNat
      let dst := (((bits 47 0 (r.desc.w 1) : Nat) : Int) + r.desc.dst r.issued).toNat
      isSlow (bits 47 0 (r.desc.w 1)) = false → 0 < n → 4 * hbmTileBytes ≤ src → 4 * hbmTileBytes ≤ dst → isSlow dst = false →
      s.dev.memHeld src = false → s.dev.memHeld dst = false →
      s.dev.cutFrom g.val src = false → s.dev.cutFrom g.val dst = false →
      (∀ i, i < n → s.dev.sramOf (s.dev.clusterPart g.val) (src + i) = true) →
      Clean s.dev src n → Clean s.dev dst n →
      Completes (.dmaBurstReturn g []) s (fun d =>
        d.mem.getAll dst n = s.dev.mem.getAll src n ∧ KeptOutside s d dst n ∧
        (∃ r', (d.dmaEng g.val).run = some r' ∧ r'.issued = r.issued + n ∧ r'.moved = r.moved + n ∧ r'.ends = none) ∧
        d.cores = s.dev.cores ∧ d.regs = s.dev.regs))

/-- The end of a descriptor that has moved its bytes (R331, R332): word 7 reports it, its signal is sent, and after the last
descriptor of the batch the channel is idle.
An abort of a running channel (R333): it aborts, its descriptor ends with what is in flight, and then the channel is
stopped, with EN clear and DMA_ABORTED. In the stall of a Tempo edge the write of ABORT waits with the others: its register
holds the staged field EN (R50, R345). -/
def Obligations.DmaEndings : Prop :=
  (∀ (g : ClusterId) (r : DmaRun) (s : State), Acts s → s.dev.tileOn (g.val / 4) = true →
    let e := s.dev.dmaEng g.val
    e.run = some r → r.ends = none → r.outst = [] → r.inflight = 0 → r.folding = false → r.desc.total ≤ r.moved →
    (e.chan r.ch).batch = [] → r.desc.addr % 8 = 0 → Clean s.dev (r.desc.addr + 56) 8 →
    Completes (.dmaDescriptorEnd g) s (fun d =>
      d.mem.getAll (r.desc.addr + 56) 8 = bytesOf 8 (if r.poison then 18 else 2) ∧ KeptOutside s d (r.desc.addr + 56) 8 ∧
      (r.desc.n = 0 → d.semReqs = s.dev.semReqs) ∧
      (r.desc.n ≠ 0 → d.semReqs = s.dev.semReqs ++
        [{ id := s.dev.nextReq, who := .dma g.val r.ch, kind := .sig, sem := r.desc.sem, n := r.desc.n }]) ∧
      (r.desc.irq = true → Raises d 0x0801) ∧
      (d.dmaEng g.val).run = none ∧ ((d.dmaEng g.val).chan r.ch).st = .idle ∧ r.ch ∉ (d.dmaEng g.val).queue ∧
      d.cores = s.dev.cores)) ∧
  ((∀ (g : ClusterId) (ch : Fin 16) (k : Nat) (r : DmaRun) (s : State), HostReaches s ⟨.dmaChCtrl, [g.val, ch.val]⟩ →
    (s.dev.stalling = true → Completes (.dmaAbort .host g ch k) s (fun d =>
      d.stalled = s.dev.stalled ++ [.write .host 0 (Reg.addr ⟨.dmaChCtrl, [g.val, ch.val]⟩) 2 2] ∧ d.dma = s.dev.dma ∧
      d.mem = s.dev.mem ∧ d.cores = s.dev.cores ∧ d.regs = s.dev.regs)) ∧
    (s.dev.stalling = false → (s.dev.dmaEng g.val).run = some r → r.ch = ch.val → r.ends = none →
      ((s.dev.dmaEng g.val).chan ch.val).st = .run →
    Completes (.dmaAbort .host g ch k) s (fun d =>
      ((d.dmaEng g.val).chan ch.val).st = .aborting ∧ ((d.dmaEng g.val).chan ch.val).cause = some .software ∧
      (∃ r', (d.dmaEng g.val).run = some r' ∧ r'.ends = some (2, 0x0802) ∧ r'.moved = r.moved) ∧
      d.mem = s.dev.mem ∧ d.cores = s.dev.cores ∧ d.regs = s.dev.regs))) ∧
  (∀ (g : ClusterId) (ch : Fin 16) (r : DmaRun) (s : State), Acts s → s.dev.tileOn (g.val / 4) = true →
    let e := s.dev.dmaEng g.val
    e.run = some r → r.ch = ch.val → (e.chan ch.val).st = .aborting → (e.chan ch.val).cause = some .software →
    (e.chan ch.val).batch = [] → r.ends = some (2, 0x0802) → r.outst = [] → r.inflight = 0 → r.folding = false →
    r.desc.addr % 8 = 0 → Clean s.dev (r.desc.addr + 56) 8 →
    Completes (.dmaAbortComplete g ch) s (fun d =>
      ((d.dmaEng g.val).chan ch.val).st = .stopped ∧ (d.dmaEng g.val).run = none ∧ d.dmaEn g.val ch.val = false ∧
      Raises d 0x0802 ∧ KeptOutside s d (r.desc.addr + 56) 8 ∧ d.cores = s.dev.cores)))

/-- Remote transfers at their target (R336, R348): a WRITE that an inbound window accepts lands and is acknowledged, a READ
is answered with its bytes, a request without a window is refused with REMOTE_DENIED.
Answers to the remote bursts of a running descriptor (R330 to R332, R336): read data lands at its destination, an
acknowledgement counts its bytes, a NAK ends the descriptor as REMOTE_DENIED. A window opens only inside the partition
(R348). -/
def Obligations.RemoteTransfers : Prop :=
  (∀ (q : Option PortId) (pkt : Machine.Packet) (p : Nat) (s : State), Acts s → s.dev.addrPart pkt.addr = some p →
    4 * hbmTileBytes ≤ pkt.addr → isSlow pkt.addr = false →
    (∀ i, pkt.type = 0x01 → i < 64 → s.dev.inWin p i pkt.addr pkt.payload.length pkt.src true = true → pkt.bad = [] →
      Clean s.dev pkt.addr pkt.payload.length →
      Completes (.remoteRequest q pkt []) s (fun d =>
        d.mem.getAll pkt.addr pkt.payload.length = pkt.payload ∧ KeptOutside s d pkt.addr pkt.payload.length ∧
        Queued d { dst := pkt.src, src := 0, addr := pkt.addr, vc := 2, type := 0x04, len := 0, spart := p, tag := pkt.tag } ∧
        d.cores = s.dev.cores ∧ d.regs = s.dev.regs)) ∧
    (∀ i, pkt.type = 0x02 → i < 64 → s.dev.inWin p i pkt.addr pkt.want pkt.src false = true → 0 < pkt.want →
      (∀ i, i < pkt.want → s.dev.sramOf p (pkt.addr + i) = true) → Clean s.dev pkt.addr pkt.want →
      Completes (.remoteRequest q pkt []) s (fun d =>
        (∃ a, Queued d a ∧ a.dst = pkt.src ∧ a.type = 0x03 ∧ a.tag = pkt.tag ∧ a.bad = [] ∧
          a.payload = s.dev.mem.getAll pkt.addr pkt.want) ∧ d.mem = s.dev.mem ∧ d.cores = s.dev.cores)) ∧
    (pkt.type = 0x01 → (∀ i, i < 64 → s.dev.inWin p i pkt.addr pkt.payload.length pkt.src true = false) →
      Completes (.remoteRequest none pkt []) s (fun d =>
        Raises d 0x0807 ∧ (∃ a, Queued d a ∧ a.dst = pkt.src ∧ a.type = 0x05 ∧ a.code = 5 ∧ a.tag = pkt.tag) ∧
        d.mem = s.dev.mem ∧ d.cores = s.dev.cores))) ∧
  ((∀ (pkt : Machine.Packet) (g : Nat) (r : DmaRun) (o : DmaOut) (s : State), Acts s →
    s.dev.dmaWaiting pkt = some (g, r, o) →
    let dst := (((bits 47 0 (r.desc.w 1) : Nat) : Int) + r.desc.dst o.off).toNat
    (r.desc.cvu = 0 → pkt.bad = [] → pkt.payload.length = o.n → isSlow (bits 47 0 (r.desc.w 1)) = false →
      4 * hbmTileBytes ≤ dst → isSlow dst = false →
      Clean s.dev dst o.n →
      Completes (.readDataReceive pkt) s (fun d =>
        d.mem.getAll dst o.n = pkt.payload ∧ KeptOutside s d dst o.n ∧
        (∃ r', (d.dmaEng g).run = some r' ∧ r'.moved = r.moved + o.n ∧ ∀ y ∈ r'.outst, y.tag ≠ o.tag) ∧
        d.cores = s.dev.cores)) ∧
    Completes (.writeAckReceive pkt) s (fun d =>
      (∃ r', (d.dmaEng g).run = some r' ∧ r'.moved = r.moved + o.n ∧ ∀ y ∈ r'.outst, y.tag ≠ o.tag) ∧
      d.mem = s.dev.mem ∧ d.cores = s.dev.cores) ∧
    (pkt.vc % 4 ≠ 1 → r.ends = none →
      Completes (.nakReceive pkt) s (fun d =>
        (∃ r', (d.dmaEng g).run = some r' ∧ r'.ends = some (7, 0x0806) ∧ r'.moved = r.moved ∧
          ∀ y ∈ r'.outst, y.tag ≠ o.tag) ∧ d.mem = s.dev.mem ∧ d.cores = s.dev.cores))) ∧
  (∀ (p : PartId) (w : Fin 64) (cfg : Word) (s : State), HostReaches s ⟨.dmaInwinCfg, [p.val, w.val]⟩ →
    let base := s.dev.regFld ⟨.dmaInwinBase, [p.val, w.val]⟩ 47 0
    (s.dev.rangeOf p.val base (base + fld 63 24 cfg) = true →
      Completes (.dmaInwinEnable .host p w cfg) s (fun d =>
        (d.reg ⟨.dmaInwinCfg, [p.val, w.val]⟩).getLsbD 20 = true ∧
        fld 17 0 (d.reg ⟨.dmaInwinCfg, [p.val, w.val]⟩) = fld 17 0 cfg ∧ d.mem = s.dev.mem ∧
        d.cores = s.dev.cores)) ∧
    (s.dev.rangeOf p.val base (base + fld 63 24 cfg) = false →
      Completes (.dmaInwinEnable .host p w cfg) s (fun d =>
        Raises d 0x0807 ∧ d.regs = s.dev.regs ∧ d.mem = s.dev.mem ∧ d.cores = s.dev.cores))))

/-! ## The time base and staged commit -/

/-- The acquisition states (R45 to R47, R65, R66): each is entered at its count, with its counts begun anew; the losses
raise their events; a device without a master has no king. -/
def Obligations.Acquisition : Prop :=
  ∀ s : State, Acts s →
    let x := s.dev.tmp
    let enters := fun (a : Acq) (d : Dev) =>
      d.tmp = { x with acq := a, edges := 0, run := 0, bad := 0 } ∧ d.tempo = s.dev.tempo ∧ Calm s.dev d
    (x.acq = .coarse → 16 ≤ x.run → Completes .acqFineReached s (fun d =>
      enters .fine d ∧ d.regs = s.dev.regs ∧ d.raised = s.dev.raised)) ∧
    (x.acq = .fine → 64 ≤ x.run → Completes .acqLockedReached s (fun d =>
      enters .locked d ∧ d.regs = s.dev.regs ∧ d.raised = s.dev.raised)) ∧
    (x.acq = .locked → 4 ≤ x.bad → Completes .alignLost s (fun d =>
      enters .fine d ∧ Records s.dev d 0x0101 0 ∧ (d.reg ⟨.tmpEvent, []⟩).getLsbD 0 = true)) ∧
    (x.acq = .locked → 2 ≤ x.missed → Completes .holdoverEntry s (fun d =>
      enters .holdover d ∧ d.regs = s.dev.regs ∧ d.raised = s.dev.raised)) ∧
    (x.acq = .holdover → 256 ≤ x.edges → Completes .masterLost s (fun d =>
      d.tmp.acq = .free ∧ d.tmp.king = none ∧ d.tmp.edges = 0 ∧ d.tempo = s.dev.tempo ∧ Raises d 0x0102 ∧
      (d.reg ⟨.tmpEvent, []⟩).getLsbD 1 = true ∧ d.mem = s.dev.mem ∧ d.cores = s.dev.cores ∧ d.sems = s.dev.sems)) ∧
    (x.acq = .holdover → 3 ≤ x.missed → s.dev.tmpRole = 2 → Completes .failover s (fun d =>
      d.tmp.acq = .king ∧ d.tmp.king = some (s.dev.ownId, s.dev.prio) ∧ d.tmp.first = false ∧ d.tempo = s.dev.tempo ∧
      Calm s.dev d ∧ Records s.dev d 0x0103 0 ∧ (d.reg ⟨.tmpEvent, []⟩).getLsbD 2 = true)) ∧
    (s.dev.candidate = true → x.acq = .holdover → 16 ≤ x.edges → x.resumed = false →
      Completes .holdoverAnnounceResume s (fun d =>
        d = { s.dev with outs := [], tmp := { x with resumed := true, count := 0 } })) ∧
    (s.dev.candidate = true → x.acq = .free → 256 ≤ x.count → Completes .kingElectionWin s (fun d =>
      d.tmp.acq = .king ∧ d.tmp.king = some (s.dev.ownId, s.dev.prio) ∧ d.tmp.first = true ∧ d.tmp.parent = none ∧
      d.tempo = s.dev.tempo ∧ Calm s.dev d ∧ d.regs = s.dev.regs ∧ d.raised = s.dev.raised))

/-- Messages of the time base (R36, R40 to R43, R47, R48): a follower takes its offset from its parent's synchronisation
message and passes the message on; a message by which its Tempo number is not the one at the message's arrival, or its phase
is more than 1 µs off, is a time step; a message of this Tempo or a coming one that names another period than the one
followed or announced gives the king's period; a delay request is answered with its timestamps; candidates announce
themselves and note each other. A port's check-value unit that takes them folds what its port sends and hears (R519); nothing
else of the registers changes.
The mean of fewer than 16 delay samples, and rounding down to whole ps, are the model's choices (log entries 81, 108). -/
def Obligations.TimeMessages : Prop :=
  ∀ (q : PortId) (s : State), Acts s → q.val ∈ s.dev.trainedPorts →
    let x := s.dev.tmp
    let still := fun (d : Dev) => (∀ p, p < 24 → fld 13 12 (s.dev.cvuCfgWord (32 + p)) = 0) →
      d.regs = s.dev.regs ∧ d.raised = s.dev.raised
    (∀ m : SyncMsg, 5 ≤ s.dev.sec.stage → m.hops ≤ 96 → x.acq = .coarse ∨ x.acq = .fine ∨ x.acq = .locked →
      (∃ p, x.king = some (m.king, p)) → s.dev.regFld ⟨.tmpRole, []⟩ 18 18 = 0 → x.parent = some q.val →
      let off := m.arrival - m.edge - m.corr
      let step := tempoAt m m.arrival ≠ s.dev.tempo ∨ 32000 < off.natAbs
      (¬step → m.period = s.dev.period → Completes (.syncReceive q m) s (fun d =>
        d.tmp.acq = x.acq ∧ d.tmp.off = off ∧ d.tmp.heard = true ∧ d.tmp.missed = 0 ∧ d.tmp.hops = m.hops ∧
        d.tmp.king = some (m.king, m.prio) ∧ d.tempo = s.dev.tempo ∧ still d ∧ Calm s.dev d ∧
        (let made := m.at_ ≤ m.tempo ∧ m.next = s.dev.period
         d.tmp.next = (if made then 0 else m.next) ∧ d.tmp.at_ = (if made then 0 else m.at_)) ∧
        ∀ p ∈ s.dev.trainedPorts, p ≠ q.val → ∃ corr,
          Out.sent 0x08 [p, m.tempo, m.king, m.prio, m.period, m.next, m.at_, m.hops + 1, corr] ∈ d.outs)) ∧
      (¬step → m.period ≠ s.dev.period → m.period < 2048 → m.period ≠ x.next → s.dev.tempo ≤ m.tempo →
        Completes (.syncReceive q m) s (fun d =>
          d.period = m.period ∧ d.tempo = s.dev.tempo ∧ d.tmp.acq = x.acq ∧ d.tmp.off = off)) ∧
      (step → Completes (.syncReceive q m) s (fun d =>
        d.tempo = tempoAt m (m.edge + m.corr) ∧ d.tmp.acq = .coarse ∧ d.tmp.off = off ∧ Raises d 0x0105))) ∧
    (∀ t1 t2 t3, Completes (.delayReqReceive q t1 t2 t3) s (fun d =>
      d.outs = [.sent 0x0A [q.val, t1, t2, t3]] ∧ d.tmp = x ∧ d.tempo = s.dev.tempo ∧ still d ∧ Calm s.dev d)) ∧
    (∀ t1 t2 t3 t4 : Int,
      let r : Reg := ⟨.tmpPortDelay, [q.val]⟩
      let v := ((t4 - t1) - (t3 - t2)) * 125 + 8 * sext 16 (s.dev.regFld r 47 32)
      let l := (v :: (s.dev.port q.val).delays).take 16
      Completes (.delayRespReceive q t1 t2 t3 t4) s (fun d =>
        (d.port q.val).delays = l ∧ d.regFld r 31 0 = (l.sum / (8 * l.length) % 2 ^ 32).toNat ∧
        d.regFld r 47 32 = s.dev.regFld r 47 32 ∧ ((d.reg r).getLsbD 63 = true ↔ l.length = 16) ∧
        d.tmp = x ∧ d.mem = s.dev.mem ∧ d.cores = s.dev.cores)) ∧
    (5 ≤ s.dev.sec.stage → s.dev.candidate = true → x.acq = .free → Completes .announceSend s (fun d =>
      d.outs = s.dev.trainedPorts.map (fun p => Out.sent 0x0B [p, s.dev.prio, s.dev.ownId]) ∧
      d.tmp = { x with count := x.count + 1 } ∧ d.tempo = s.dev.tempo ∧ still d ∧ Calm s.dev d)) ∧
    (∀ (prio : Fin 256) (id : Fin 262144), prio.val < 255 → id.val ≠ s.dev.ownId → x.king.map Prod.fst ≠ some id.val →
      Completes (.announceReceive q prio id) s (fun d =>
        FMap.find? d.tmp.cands id.val = some prio.val ∧
        (∀ k, k ≠ id.val → FMap.find? d.tmp.cands k = FMap.find? x.cands k) ∧
        d.tmp.count = (if prio.val < s.dev.prio ∨ (prio.val = s.dev.prio ∧ id.val < s.dev.ownId) then 0 else x.count) ∧
        d.tmp.acq = x.acq ∧ still d ∧ Calm s.dev d))

/-- The Tempo (R37, R49, R50, R58): the seal opens the stall and gives every due set its verdict; the sample finds the first
core of each partition that does not wait, any core while a clock of the partition stands (R560, log entry 153); the edge advances the Tempo number; what waited lands after it. -/
def Obligations.TempoEdges : Prop :=
  ∀ s : State, Acts s →
    (∀ m : Measure, 5 ≤ s.dev.sec.stage → s.dev.stalling = false → Completes (.tempoSeal m) s (fun d =>
      d.stalling = true ∧ d.tempo = s.dev.tempo ∧ d.tmp = s.dev.tmp ∧
      ∀ k, k < 5 → (d.set_ k).writes = (s.dev.set_ k).writes ∧
        ((d.set_ k).verdict.isSome = true ↔ s.dev.setDue k s.dev.nextEdge = true))) ∧
    Completes .deadlineSample s (fun d =>
      (∀ p, p < shapeParts s.dev.shape → (d.part p).st = (s.dev.part p).st ∧ (d.part p).miss =
        (((s.dev.partCores p).filter s.dev.inService).find? (fun c => s.dev.domainDown p || !s.dev.coreWaits c s.dev.nextEdge)).map
          (fun c => c - (s.dev.partCores p).headD 0)) ∧
      d.tempo = s.dev.tempo ∧ d.mem = s.dev.mem ∧ d.regs = s.dev.regs ∧ d.raised = s.dev.raised) ∧
    (5 ≤ s.dev.sec.stage → s.dev.stalling = true → Completes .tempoEdge s (fun d =>
      d.tempo = if s.dev.tmp.first = true then 0 else s.dev.tempo + 1)) ∧
    (∀ ag path r m v, s.dev.stalled = [.write ag path r.addr m v] → regAt r.addr = some r → r.k ≠ .dmaChCtrl →
      m &&& s.dev.rwtMask r ≠ 0 →
      FMap.find? (s.dev.set_ (s.dev.setOf r)).writes r.addr = none → (s.dev.set_ (s.dev.setOf r)).writes.length < 4096 →
      Completes .stalledWritesLand s (fun d =>
        d.stalling = false ∧ d.stalled = [] ∧
        FMap.find? (d.set_ (s.dev.setOf r)).writes r.addr =
          some ⟨m &&& s.dev.rwtMask r, v &&& (m &&& s.dev.rwtMask r), ag.owner⟩ ∧
        (∀ a, a ≠ r.addr → FMap.find? (d.set_ (s.dev.setOf r)).writes a =
          FMap.find? (s.dev.set_ (s.dev.setOf r)).writes a) ∧
        (∀ k, k ≠ s.dev.setOf r → d.set_ k = s.dev.set_ k) ∧
        d.reg r &&& s.dev.rwtMask r = s.dev.reg r &&& s.dev.rwtMask r ∧ (∀ q : Reg, q.addr ≠ r.addr → d.reg q = s.dev.reg q) ∧
        d.mem = s.dev.mem ∧ (∀ c, d.core c = match ag with
          | .core k => if k.val = c then (s.dev.core c).release else s.dev.core c
          | .host => s.dev.core c
          | .hart _ => s.dev.core c))) ∧
    (∀ us, us = s.dev.tmp.next → us ≠ 0 → us < 2048 → s.dev.tmp.at_ ≤ s.dev.tempo → Completes .periodChange s (fun d =>
      d.regFld ⟨.tmpPeriod, []⟩ 10 0 = us ∧ d.tmp = { s.dev.tmp with next := 0, at_ := 0 } ∧ d.tempo = s.dev.tempo ∧
      (∀ p, p < 4 → s.dev.period ≠ us → (s.dev.part p).st = .running →
        s.dev.regFld ⟨.tmpBudget, [p]⟩ 42 32 ≠ us → (d.part p).st = .halted ∧ Raises d 0x0107)))

/-- A write to staged fields waits in its set, over what the set held, and the register in force stays (R17, R50, R54);
from the seal on it stalls. Discarding a set empties it (R54). -/
def Obligations.StagedWrites : Prop :=
  (∀ (ag : Agent) (r : Reg) (v : Word) (s : State), Reaches s ag r → r.addr % 8 = 0 → regAt r.addr = some r →
    let m := s.dev.rwtMask r
    let k := s.dev.setOf r
    m ≠ 0 → r.k ≠ .dmaChCtrl →
    (s.dev.stalling = true → Completes (.rwtWrite ag r.addr 8 v) s (fun d =>
      d.stalled = s.dev.stalled ++ [.write ag 0 r.addr (BitVec.allOnes 64) v] ∧ d.sets = s.dev.sets ∧ d.mem = s.dev.mem ∧
      d.cores = s.dev.cores ∧ d.regs = s.dev.regs)) ∧
    (s.dev.stalling = false → FMap.find? (s.dev.set_ k).writes r.addr = none → (s.dev.set_ k).writes.length < 4096 →
      Completes (.rwtWrite ag r.addr 8 v) s (fun d =>
        FMap.find? (d.set_ k).writes r.addr = some ⟨m, v &&& m, ag.owner⟩ ∧
        (∀ a, a ≠ r.addr → FMap.find? (d.set_ k).writes a = FMap.find? (s.dev.set_ k).writes a) ∧
        (∀ j, j ≠ k → d.set_ j = s.dev.set_ j) ∧ d.mem = s.dev.mem ∧ d.cores = s.dev.cores ∧
        d.reg r &&& m = s.dev.reg r &&& m)) ∧
    (∀ o, s.dev.stalling = false → FMap.find? (s.dev.set_ k).writes r.addr = some o →
      Completes (.rwtWrite ag r.addr 8 v) s (fun d =>
        FMap.find? (d.set_ k).writes r.addr = some ⟨o.mask ||| m, (o.val &&& ~~~m) ||| (v &&& m), ag.owner⟩))) ∧
  (∀ (k : Fin 5) (s : State), HostReaches s ⟨.tmpStageCtrl, [k.val]⟩ →
    (s.dev.stalling = false → Completes (.stageDiscard k) s (fun d =>
      d.set_ k.val = { s.dev.set_ k.val with writes := [], excess := none } ∧ (∀ j, j ≠ k.val → d.set_ j = s.dev.set_ j) ∧
      d.regs = s.dev.regs ∧ Calm s.dev d)) ∧
    (s.dev.stalling = true → Completes (.stageDiscard k) s (fun d =>
      d = { s.dev with outs := [], stalled := s.dev.stalled ++ [.discard .host k.val] })))

/-- The commit of a sealed set at edge e (R51, R54, R55, R70, R71): a set that passed puts its values into force, one that
did not reports its reason, register and bit, raises its event and changes nothing else; either is emptied.
TMP_COMMIT_ADDR after an applied commit is the model's choice (log entry 110). -/
def Obligations.SetCommit : Prop :=
  ∀ (d : Dev) (k e : Nat) (v : Verdict), k < 5 → (d.set_ k).verdict = some v → v.reason < 16 → v.addr < 2 ^ 48 → v.bit_ < 64 →
    let d' := d.setCommit k e
    let status : Reg := ⟨.tmpCommitStatus, [k]⟩
    let place : Reg := ⟨.tmpCommitAddr, [k]⟩
    let reports := d'.regFld status 1 0 = (if v.reason = 0 then 1 else 2) ∧ d'.regFld status 7 4 = v.reason ∧
      d'.regFld status 39 8 = e % 2 ^ 32 ∧ d'.regFld place 47 0 = v.addr ∧ d'.regFld place 53 48 = v.bit_ ∧
      (d'.set_ k).writes = [] ∧ (d'.set_ k).verdict = none ∧ (∀ j, j ≠ k → d'.set_ j = d.set_ j) ∧ Calm d d'
    (v.reason = 0 → FMap.sorted 0 (d.set_ k).writes = true →
      (∀ x ∈ (d.set_ k).writes, ∃ r, regAt x.1 = some r ∧ r.addr = x.1 ∧ accMask [.rwt] r.k ≠ 0 ∧
        r.k ∉ [RK.tmpPeriod, .tmpDmCtrl, .dvoPortCfg, .dmaChRing, .dmaChCtrl, .pwrTile]) →
      reports ∧ d'.raised = d.raised ∧
      (∀ x ∈ (d.set_ k).writes, ∀ r, regAt x.1 = some r → d'.reg r = mix (d.reg r) x.2.mask x.2.val) ∧
      (∀ r, r.addr ≠ status.addr → r.addr ≠ place.addr → (∀ x ∈ (d.set_ k).writes, x.1 ≠ r.addr) → d'.reg r = d.reg r)) ∧
    (v.reason ≠ 0 → reports ∧ Raises d' 0x0108 ∧
      (∀ r, r.addr ≠ status.addr → r.addr ≠ place.addr → d'.reg r = d.reg r))

/-- REGISTER_WRITE (R13 to R15): read/write bits take the written value, write-1-to-clear bits clear, lockable bits take it
while unlocked, every other bit and register stays. Where no register is, the access takes a bus error (R642). -/
def Obligations.RegisterWrites : Prop :=
  (∀ (ag : Agent) (r : Reg) (a n sh : Nat) (m v : Word) (s : State), Reaches s ag r → busPlace a n = some (r, m, sh) →
    PlainKind r.k = true →
    let u := v <<< sh
    let lock := m &&& accMask [.rwl] r.k
    let x := mix (s.dev.reg r) (m &&& accMask [.rw] r.k) u &&& ~~~(m &&& u &&& accMask [.w1c] r.k)
    (lock = 0 ∨ s.dev.locked r.k = false → Completes (.registerWrite ag a n v) s (fun d =>
      d.reg r = mix x lock u ∧ (∀ r', r'.addr ≠ r.addr → d.reg r' = s.dev.reg r') ∧ d.sets = s.dev.sets ∧
      d.raised = s.dev.raised ∧ Calm s.dev d)) ∧
    (lock ≠ 0 → s.dev.locked r.k = true → Completes (.registerWrite ag a n v) s (fun d =>
      d.reg r = x ∧ (∀ r', r'.addr ≠ r.addr → d.reg r' = s.dev.reg r') ∧ Records s.dev d 0x1201 0 ∧ Calm s.dev d))) ∧
  (∀ (a n : Nat) (v : Word) (s : State), Acts s → s.dev.lost 33 = false → busPlace a n = none →
    Completes (.registerWrite .host a n v) s (fun d => d = { s.dev with outs := [.busError] }))

/-! ## Clocks, power, reset -/

/-- Clock enables (R570, R571): a written enable starts its block's way up or down, a reversal waits as PENDING; up, the block
is ON with its reset values, and stopped it is OFF; a reversed one goes on to the other state. A DMA engine stops when the
aborts of its channels have ended (R333, R571). -/
def Obligations.ClockEnables : Prop :=
  ∀ (b : ClkUnit) (s : State),
    let core := clkIsCore b
    let i := clkNum b
    let r := clkReg core i
    let lost := fun (k : Fin 3) (d : Dev) =>
      (core = true → k.val = 0 → (d.core i).me = {}) ∧ (core = true → k.val = 1 → (d.core i).ve = {}) ∧
      (core = true → k.val = 2 → (d.core i).fte = {}) ∧ (core = false → k.val = 0 → d.dmaEng i = {}) ∧
      (∀ j, core = false ∨ j ≠ i → d.core j = s.dev.core j) ∧ d.mem = s.dev.mem
    (∀ v : BitVec 3, HostReaches s r → Completes (.clockEnableWrite b v) s (fun d => ∀ k : Fin 3,
      let old := (s.dev.reg r).getLsbD k.val
      let new := v.getLsbD k.val
      let st := s.dev.clkState core i (k.val + 1)
      (d.reg r).getLsbD k.val = new ∧ (old = new → d.clkState core i (k.val + 1) = st) ∧
      (old = false → new = true → st = 0 → d.clkState core i (k.val + 1) = 1) ∧
      (old = true → new = false → st = 2 → d.clkState core i (k.val + 1) = 3) ∧
      (old ≠ new → (st = 1 ∧ new = false) ∨ (st = 3 ∧ new = true) →
        d.clkState core i (k.val + 1) = st ∧ (d.reg r).getLsbD (16 + k.val) = true ∧ Raises d 0x1103))) ∧
    (∀ k : Fin 3, Acts s → s.dev.clkState core i (k.val + 1) = 1 →
      ((s.dev.reg r).getLsbD k.val = true → Completes (.clockEnableUpDone b k) s (fun d =>
        d.clkState core i (k.val + 1) = 2 ∧ (d.reg r).getLsbD (16 + k.val) = false ∧ lost k d)) ∧
      ((s.dev.reg r).getLsbD k.val = false → Completes (.clockEnableUpDone b k) s (fun d =>
        d.clkState core i (k.val + 1) = 3))) ∧
    (∀ k : Fin 3, Acts s → s.dev.clkState core i (k.val + 1) = 3 →
      (core = false → k.val = 0 → s.dev.dmaAborting i = false) →
      ((s.dev.reg r).getLsbD k.val = false → Completes (.clockEnableStopDone b k) s (fun d =>
        d.clkState core i (k.val + 1) = 0 ∧ (d.reg r).getLsbD (16 + k.val) = false ∧ lost k d)) ∧
      ((s.dev.reg r).getLsbD k.val = true → Completes (.clockEnableStopDone b k) s (fun d =>
        d.clkState core i (k.val + 1) = 1 ∧ lost k d)))

/-- PLLs (R558, R560): a loss of lock is counted and raised, and a relock ends it; the second loss in a count window, and a
relock that takes too long, fail the PLL with what it clocks; a PLL that is not locked loses no lock, and one that has lost none
gets none back. The loss of the reference stops the device silently: no event, no register and nothing outside the memories
changes, and HBM contents are open values from then on (log entry 5). -/
def Obligations.Plls : Prop :=
  ∀ (k : Fin 34) (s : State), Acts s →
    let x := s.dev.pll k.val
    let fails := fun (d : Dev) => (d.pll k.val).failed = true ∧ (d.pll k.val).lock = false ∧
      (k.val < 8 → (d.ptile (k.val % 4)).st = .off) ∧ (8 ≤ k.val → k.val < 32 → (d.port (k.val - 8)).st = .failed) ∧
      (32 ≤ k.val → d.stopped = true)
    let waits := s.dev.lost k.val = true
    let nothing := fun (d : Dev) => d = { s.dev with outs := [] }
    (x.lock = true → x.failed = false → x.win = 0 → Completes (.clkPllUnlock k) s (fun d =>
      d.pll k.val = { x with lock := false, unlocks := min (x.unlocks + 1) 255, win := 1 } ∧
      (∀ j, j ≠ k.val → d.pll j = s.dev.pll j) ∧ Raises d 0x1001 ∧ d.mem = s.dev.mem ∧ d.cores = s.dev.cores)) ∧
    (x.lock = true → x.failed = false → x.win ≠ 0 → Completes (.clkPllUnlock k) s (fun d => fails d ∧ Raises d 0x1001)) ∧
    (waits → Completes (.pllRelock k) s (fun d =>
      d.pll k.val = { x with lock := true } ∧ (∀ j, j ≠ k.val → d.pll j = s.dev.pll j) ∧ d.regs = s.dev.regs ∧
      d.raised = s.dev.raised ∧ Calm s.dev d)) ∧
    (waits → Completes (.pllRelockTimeout k) s fails) ∧
    (x.lock = false ∨ x.failed = true → Completes (.clkPllUnlock k) s nothing) ∧
    (¬waits → Completes (.pllRelock k) s nothing ∧ Completes (.pllRelockTimeout k) s nothing) ∧
    Completes .refclkLoss s (fun d =>
      d = { s.dev with outs := [], stopped := true, mem := d.mem, fresh := d.fresh } ∧
      ∀ a, a < 4 * hbmTileBytes → ∃ e, d.mem.get a = Config.lostByte e a)

/-- Tiles (R564, R568, R569, R573, R574): a voltage step ends at the point that it was begun for, and the next goes one point
toward the one asked for; a transition ends in its
state with PWR_STATE, and what waited begins; an overcurrent halves the clock; a thermal trip puts the tile into P3, or
stops the device.
The numbers of the locations of PWR_THERMAL_TRIP are the model's reading (log entry 74). -/
def Obligations.TilePower : Prop :=
  ∀ (t : TileId) (s : State), Acts s →
    let x := s.dev.ptile t.val
    let p := s.dev.tilePart t.val
    (x.stepping = true → Completes (.voltageStepDone t) s (fun d =>
      d.ptile t.val = { x with
        volt := x.stepTo, stepping := decide (x.stepTo ≠ x.want)
        stepTo := if x.stepTo < x.want then x.stepTo + 1 else x.stepTo - 1 } ∧
      (∀ j, j ≠ t.val → d.ptile j = s.dev.ptile j) ∧
      d.raised = s.dev.raised ++ [⟨0x1101, evClass 0x1101, some p, t.val, 0, s.dev.tempo⟩] ∧
      d.regs = s.dev.regs ∧ Calm s.dev d)) ∧
    (∀ a b, x.st = .moving a b → Completes (.powerTransitionDone t) s (fun d =>
      Raises d 0x1102 ∧
      (x.wait = none → (d.ptile t.val).st = (match b with | 0 => .run | 1 => .retain | _ => .off)) ∧
      (x.wait = none → a = 1 → b = 0 → (d.ptile t.val).restart = true ∧ d.mem = s.dev.mem ∧ d.cores = s.dev.cores) ∧
      (b = 1 → d.mem = s.dev.mem ∧ d.cores = s.dev.cores) ∧
      (b = 1 → x.wait = some 0 → (d.ptile t.val).st = .moving 1 0) ∧
      (2 ≤ b → ∀ y, spdBase (96 * t.val) ≤ y → y < spdBase (96 * (t.val + 1)) → d.mem.get y = 0) ∧
      (2 ≤ b → ∀ c, c < 384 → tileOf c = t.val → d.core c = {}))) ∧
    (∀ g : ClusterId, g.val / 4 = t.val → x.st = .run → Completes (.pwrOvercurrent g) s (fun d =>
      d.ptile t.val = { x with divided := true } ∧ Raises d 0x1105 ∧ d.mem = s.dev.mem ∧ d.cores = s.dev.cores)) ∧
    (∀ loc : Fin 6, loc.val = t.val → Completes (.pwrThermalTrip loc) s (fun d =>
      (d.ptile t.val).st = .off ∧ Raises d 0x1106 ∧ d.stopped = s.dev.stopped ∧
      (x.st ≠ .off → ∀ c, c < 384 → tileOf c = t.val → d.core c = {}))) ∧
    (∀ loc : Fin 6, 4 ≤ loc.val → Completes (.pwrThermalTrip loc) s (fun d =>
      d.stopped = true ∧ d.trip = true ∧ Records s.dev d 0x1106 loc.val ∧
      (s.dev.mgtUp = true → ∃ r : Raised, d.raised = s.dev.raised ++ [r] ∧ d.outs = [.sent 0x88B5 [7, r.bits % 2 ^ 64, r.bits / 2 ^ 64]]) ∧ d.regs = s.dev.regs ∧ Calm s.dev d))

/-- The reset and power inputs, whatever the device does (R581, R582, R634, R635): RESET_N low, or VIN low, puts every register
at its reset value and keeps the fuses; with both high start-up begins at stage 1, and with one still low nothing does. A start-up
whose reset has changed the security state raises SEC_STATE_CHANGE (log entry 150). -/
def Obligations.ResetInputs : Prop :=
  ∀ s : State,
    let cold := fun (d : Dev) => (∀ r : Reg, d.reg r = r.resetVal) ∧ d.fuses = s.dev.fuses ∧ d.cores = [] ∧ d.parts = [] ∧
      d.sems = [] ∧ d.tempo = 0 ∧ d.stopped = false ∧ d.mem.bytes = []
    let begins := fun (d : Dev) => cold d ∧ d.sec.stage = 1 ∧ (d.pll 32).lock = true ∧ (d.pll 33).lock = true ∧
      d.live = true ∧ (s.dev.secState = s.dev.fuses.state → s.dev.sec.changed = false → d.raised = []) ∧
      (s.dev.secState ≠ s.dev.fuses.state → Raises d 0x1203)
    Completes .resetNAssert s (fun d => cold d ∧ d.resetN = false ∧ d.vin = s.dev.vin ∧ d.sec.stage = 0) ∧
    Completes .powerGoodFall s (fun d => cold d ∧ d.vin = false ∧ d.resetN = s.dev.resetN ∧ d.sec.stage = 0) ∧
    (s.dev.resetN = false → s.dev.vin = true → Completes .resetNRelease s begins) ∧
    (s.dev.resetN = false → s.dev.vin = false → Completes .resetNRelease s (fun d =>
      d = { s.dev with outs := [], resetN := true })) ∧
    (s.dev.vin = false → s.dev.resetN = true → Completes .powerGoodRise s begins) ∧
    (s.dev.vin = false → s.dev.resetN = false → Completes .powerGoodRise s (fun d => cold d ∧ d.vin = true ∧ d.sec.stage = 0)) ∧
    (Acts s → s.dev.lost 33 = false → Completes .secReset s begins)

/-! ## Start-up, security root, debug -/

/-- Start-up (R582 to R589): slot A, or B where A fails, is the one whose manifest an unrevoked vendor key signs and whose FS1 is
intact; FS1 takes the vendor's firmware and, once an owner key is fused, the owner's manifest in the same way; each stage ends in
the next, the third and fourth meeting; a failure stops it at its stage. The self-test runs in partition 0 with the column
tests of every engine begun; after it, on a device that has kept its time base, partition 0 is FREE again, the locks of the
configuration block stand and READY rises.
What the self-test leaves, and the numbers of the image kinds, are the model's choices (log entries 27, 149). -/
def Obligations.StartUp : Prop :=
  ∀ s : State, Acts s → s.dev.sec.halted = false →
    let x := s.dev.sec
    let stops := fun (n : Nat) (d : Dev) => d.sec.failStage = n ∧ d.sec.halted = true ∧ d.sec.stage = x.stage
    let holds := fun (m : Manifest) (k : Nat) => (imageOf m k).any imageOk
    (∀ a b, x.stage = 1 → Completes (.romVerify a b) s (fun d =>
      let b' := s.dev.slotB b
      let boots := fun (m : Manifest) (n : Nat) => d.sec.stage = 2 ∧ d.sec.slot = n ∧ d.sec.svns = manifestSvns m ∧
        d.sec.vkey = s.dev.keySlot m ∧ d.sec.boot = some m ∧ d.raised = s.dev.raised
      Calm s.dev d ∧
      (if s.dev.slotOk a = true then boots a 0 else if s.dev.slotOk b' = true then boots b' 1
        else stops 1 d ∧ Records s.dev d 0x1202 1))) ∧
    (∀ m o cfg, x.stage = 2 → Completes (.fs1StageDone m o cfg) s (fun d =>
      let ok := (∀ k, k ∈ [1, 2, 3] → holds (rereadImages (x.boot.getD {}) m) k = true) ∧
        (s.dev.fuses.ownerSet = true → s.dev.ownerOk o = true ∧ ∀ k, k ∈ [4, 5] → holds o k = true)
      d.cores = s.dev.cores ∧ d.parts = s.dev.parts ∧
      (ok → d.sec.stage = 3 ∧ ∀ t, t < 4 → (s.dev.ptile t).st = .off → (d.ptile t).st = .moving 2 0) ∧
      (¬ok → stops 2 d ∧ Records s.dev d 0x1202 2 ∧ Calm s.dev d))) ∧
    (∀ (t : TileId) (g : Fin 4), x.stage = 3 → (s.dev.ptile t.val).st ≠ .run →
      (∀ k : Fin 2, Completes (.tileBringupTimeout t (some k) g) s (fun d =>
        stops 3 d ∧ Raises d 0x1001 ∧ (d.pll (t.val + 4 * k.val)).failed = true ∧ Calm s.dev d)) ∧
      Completes (.tileBringupTimeout t none g) s (fun d => stops 3 d ∧ Raises d 0x1105 ∧ Calm s.dev d)) ∧
    (∀ pcs pkgs, x.stage = 3 → x.memDone = false → (∀ t, t < 4 → (s.dev.ptile t).st = .run) →
      Completes (.memoryStageDone pcs pkgs) s (fun d =>
        d.sec.memDone = true ∧ d.sec.stage = (if x.linksDone = true then 5 else 4) ∧ d.cores = s.dev.cores)) ∧
    (x.stage = 3 ∨ x.stage = 4 → Completes .linksStageDone s (fun d =>
      d.sec = { x with linksDone := true, stage := if x.memDone = true then 5 else x.stage } ∧ d.regs = s.dev.regs ∧
      Calm s.dev d)) ∧
    (x.stage = 5 → s.dev.synced = true → Completes .tempoStageDone s (fun d =>
      d.sec = { x with stage := 6 } ∧ d.tempo = s.dev.tempo ∧
      (s.dev.mem.err = [] → (d.part 0).st = .running ∧ (d.part 0).image = Config.selftestDigest ∧ Raises d 0x0F01 ∧
        (∀ c, c < 384 → d.regFld ⟨.clkEnCore, [c]⟩ 9 8 = 2) ∧
        ∀ c, c < 384 → (s.dev.core c).engIdle 1 = true → d.colTesting c = true))) ∧
    (x.stage = 6 →
      let testing := ∃ c, c < 384 ∧ s.dev.inService c = true ∧ s.dev.colTesting c = true
      (s.dev.synced = true → ¬testing → Completes .selftestDone s (fun d =>
        d.sec = { x with stage := 7, readyTempo := s.dev.tempo, locks := x.locks ||| x.cfgLocks } ∧ d.pinReady = true ∧
        d.cores = s.dev.cores ∧ (d.part 0).st = .free ∧ (d.part 0).image = [] ∧ Raises d 0x0F04 ∧
        ∀ r : Reg, r.k ∉ [RK.prtHandover, .tmpDmCtrl, .tmpDmStatus] → d.reg r = s.dev.reg r)) ∧
      (s.dev.synced = false ∨ testing → Completes .selftestDone s (fun d => d = { s.dev with outs := [] })))

/-- The security root (R588, R593, R596 to R598, R604, R605): attestation, nonces, tokens, grants, fuses and locks. The nonce's
words are free values (log entry 93).
The order of the report's sampling and of a token's checks are readings (log entry 95). -/
def Obligations.SecurityRoot : Prop :=
  ∀ s : State, Acts s → s.dev.lost 33 = false →
    let x := s.dev.sec
    let t := s.dev.tokenBytes.take 5333
    let kind := natOfBytes ((t.drop 2).take 1)
    let part := natOfBytes ((t.drop 16).take 8)
    Completes .secAttest s (fun d => d = { s.dev with outs := [], sec := { x with attest := true } }) ∧
    (x.attest = true → Completes .attestDone s (fun d =>
      d.sec = { x with attest := false } ∧ Records s.dev d 0x1205 0 ∧ Calm s.dev d ∧
      d.reg ⟨.secReport, [0]⟩ = BitVec.ofNat 64 (1 + 4637 * 2 ^ 32) ∧
      d.reg ⟨.secReport, [2]⟩ = BitVec.ofNat 64 s.dev.ownId ∧ d.reg ⟨.secReport, [3]⟩ = BitVec.ofNat 64 s.dev.tempo)) ∧
    Completes .secNonce s (fun d =>
      d.sec = { x with nonceOk := true } ∧ (∀ w, w < 4 → d.reg ⟨.secNonce, [w]⟩ = Config.entropy (4 * s.dev.fresh + w)) ∧
      d.raised = s.dev.raised ∧ Calm s.dev d) ∧
    (x.token = false → x.scrub = none → Completes .secSubmit s (fun d =>
      d = { s.dev with outs := [], sec := { x with token := true, result := 3, path := 0 } })) ∧
    (x.token = true → Completes .tokenCheckDone s (fun d =>
      d.sec.token = false ∧ d.sec.checked = min (x.checked + 1) (2 ^ 32 - 1) ∧ d.sec.reason = (s.dev.tokenReason t).1 ∧
      Calm s.dev d ∧
      ((s.dev.tokenReason t).1 ≠ 0 → d.sec.result = 2 ∧ d.sec.grants = x.grants ∧ Records s.dev d 0x1204 0) ∧
      ((s.dev.tokenReason t).1 = 0 → kind = 1 → d.sec.result = 1 ∧ Raises d 0x1301 ∧
        (∃ g, FMap.find? d.sec.grants part = some g ∧ g.perms = natOfBytes ((t.drop 3).take 1) ∧
          g.expiry = natOfBytes ((t.drop 64).take 8)) ∧
        ∀ p, p ≠ part → FMap.find? d.sec.grants p = FMap.find? x.grants p) ∧
      ((s.dev.tokenReason t).1 = 0 → kind ≠ 1 → d.sec.scrub = some (kind + 1) ∧ d.sec.grants = x.grants))) ∧
    (∀ k, x.scrub = some k → Completes .debugScrubDone s (fun d =>
      d.sec.scrub = none ∧ d.sec.result = 1 ∧ d.sec.debug = (if k = 4 then none else some 3) ∧
      d.fuses.state = (if k = 4 then 4 else s.dev.fuses.state) ∧ Raises d 0x1203 ∧ d.mirrors = [] ∧
      (∀ a, spdBase 0 ≤ a → a < spdBase 384 → d.mem.get a = 0) ∧ d.cores = s.dev.cores)) ∧
    (s.dev.fuses.ownerSet = false → s.dev.secState = 1 → Completes .secOwnerEnrol s (fun d =>
      d = { s.dev with
        outs := []
        fuses := { s.dev.fuses with
          ownerSet := true, owner := (upTo 8).flatMap (fun w => bytesOf 8 (s.dev.reg ⟨.secOwner, [w]⟩).toNat) } })) ∧
    (x.stage = 7 → x.highest = true → Completes .secSvnCommit s (fun d =>
      (∀ i, i < 8 → d.fuses.svnMin.getD i 0 = max (s.dev.fuses.svnMin.getD i 0) (x.svns.getD i 0)) ∧
      d.fuses.state = s.dev.fuses.state ∧ d.sec = x ∧ d.regs = s.dev.regs ∧ Calm s.dev d)) ∧
    (x.stage ≠ 7 ∨ x.highest = false → Completes .secSvnCommit s (fun d => d = { s.dev with outs := [] })) ∧
    (∀ (p : PartId) (g : Grant), FMap.find? x.grants p.val = some g → Completes (.secEndGrant p) s (fun d =>
      FMap.find? d.sec.grants p.val = none ∧ (∀ j, j ≠ p.val → FMap.find? d.sec.grants j = FMap.find? x.grants j) ∧
      (d.secState ≠ s.dev.secState → Raises d 0x1203) ∧ Calm s.dev d)) ∧
    (∀ m : BitVec 6, Completes (.secLockSet m) s (fun d =>
      d = { s.dev with outs := [], sec := { x with locks := x.locks ||| m.toNat } }))

/-- The JTAG port (R599, R600), powered, in reset or out of it: each instruction; IDCODE's number; EXTEST only before or after
the device's life with every tile in P3, its output lands then at the levels of the cells; DBG_ACCESS within the reach of the security state, outside it with no effect.
IDCODE after TRST, the silence of a refused EXTEST in reset, and the order of the boundary cells are the model's choices (log
entries 60, 151). -/
def Obligations.JtagPort : Prop :=
  ∀ s : State, s.dev.vin = true →
    let as := fun (i : JtagIr) (o : List Out) => { s.dev with outs := o, sec := { s.dev.sec with ir := i } }
    let may := (s.dev.fuses.state = 0 ∨ s.dev.fuses.state = 4) ∧ ∀ t, t < 4 → (s.dev.ptile t).st = .off
    Completes .jtagBypass s (fun d => d = as .bypass []) ∧
    Completes .jtagIdcode s (fun d => d = as .idcode [.value 0x14812777]) ∧
    Completes .jtagSamplePreload s (fun d => ∃ cells : BitVec 23, d = { s.dev with
      outs := [.sent 0x1149 (as .sample []).pins], fresh := s.dev.fresh + 1
      sec := { s.dev.sec with ir := .sample, cells := cells.toNat } }) ∧
    Completes .jtagTrst s (fun d => d = as .idcode []) ∧
    (may → Completes .jtagExtest s (fun d => ∃ l : List Nat,
      d = { as .extest [.sent 0x1149 l] with fresh := s.dev.fresh + 1 } ∧
      ∀ i ∈ [1, 2, 3, 4, 5, 7], l.getD i 0 = if s.dev.sec.cells.testBit i then 1 else 0)) ∧
    (¬may → s.dev.live = false → Completes .jtagExtest s (fun d => d = as .bypass [])) ∧
    (¬may → s.dev.live = true → Completes .jtagExtest s (fun d =>
      d.sec.ir = .bypass ∧ Records s.dev d 0x1302 0 ∧ Calm s.dev d)) ∧
    (∀ a v w, s.dev.live = true → s.dev.secState = 1 → (inRegion a = false ∨ regAt (a - a % 8) = none) →
      Completes (.jtagDbgAccess a w v) s (fun d =>
        d.outs = [.value 0] ∧ d.sec.ir = .dbgAccess ∧ Records s.dev d 0x1302 0 ∧ Calm s.dev d)) ∧
    (∀ a v, s.dev.live = true → s.dev.secState = 0 ∨ s.dev.secState = 3 ∨ s.dev.secState = 4 → inHub a = true → a % 8 = 0 →
      Completes (.jtagDbgAccess a true v) s (fun d =>
        d.mem.getAll a 8 = bytesOf 8 v.toNat ∧ KeptOutside s d a 8 ∧ d.cores = s.dev.cores ∧ d.regs = s.dev.regs) ∧
      Completes (.jtagDbgAccess a false v) s (fun d =>
        d = as .dbgAccess [.value (natOfBytes (s.dev.mem.getAll a 8) % 2 ^ 64)])) ∧
    (∀ a w v, s.dev.live = false → Completes (.jtagDbgAccess a w v) s (fun d => d = as .dbgAccess [])) ∧
    (∀ (k : Fin 1024) (v : Word), s.dev.live = true → Completes (.jtagDbgToken k v) s (fun d =>
      d.reg ⟨.secTokenBuf, [k.val]⟩ = v ∧ d.sec.ir = .dbgToken ∧ d.raised = s.dev.raised ∧ Calm s.dev d ∧
      ∀ r, r.addr ≠ Reg.addr ⟨.secTokenBuf, [k.val]⟩ → d.reg r = s.dev.reg r))

/-! ## The Hub -/

/-- Events, mailboxes and control cores (R545, R611, R613 to R616, R619): a record stands in the Hub memory as R613 lays it out,
or is counted as lost; a mailbox holds 64 words in order; a fenced control core's identity goes to a spare.
LOGICAL of a fenced control core, RETIRED without a spare, and a BASE without its low 4 bits are readings (log entries 73,
98). -/
def Obligations.HubUnits : Prop :=
  ∀ s : State, Acts s → s.dev.lost 33 = false →
    (∀ r rest, s.dev.raised = r :: rest →
      let v := s.dev.reg ⟨.hubEvq, []⟩
      let n := evqSize v
      let h := fld 46 32 v % n
      let a := hubAt (fld 27 4 v * 16 + 16 * h)
      ((h + 1) % n ≠ fld 62 48 v % n → Completes (.eventRecordWrite 1) s (fun d =>
        d.mem.getAll a 16 = bytesOf 16 r.bits ∧ KeptOutside s d a 16 ∧ d.raised = rest ∧
        d.regFld ⟨.hubEvq, []⟩ 46 32 = (h + 1) % n ∧
        ((s.dev.reg ⟨.hubIrq, []⟩).getLsbD r.cls.code = true → (d.reg ⟨.hubIrq, []⟩).getLsbD 7 = true) ∧
        d.cores = s.dev.cores)) ∧
      ((h + 1) % n = fld 62 48 v % n → Completes (.eventRecordWrite 1) s (fun d =>
        d.mem = s.dev.mem ∧ d.raised = rest ∧
        d.regFld ⟨.hubIrq, []⟩ 63 32 = min (s.dev.regFld ⟨.hubIrq, []⟩ 63 32 + 1) (2 ^ 32 - 1) ∧ d.cores = s.dev.cores))) ∧
    (∀ e ∈ ([(.mboxUpPush, .mboxUpPop, .hubMboxUpPush, .hubMboxUpPop, 0),
        (.mboxDownPush, .mboxDownPop, .hubMboxDownPush, .hubMboxDownPop, 1)] :
        List ((Agent → PartId → Word → Instr) × (Agent → PartId → Instr) × RK × RK × Nat)),
      ∀ (ag : Agent) (p : PartId) (v : Word),
        let k := 2 * p.val + e.2.2.2.2
        let l := FMap.getD s.dev.mail k []
        let others := fun (d : Dev) => ∀ j, j ≠ k → FMap.getD d.mail j [] = FMap.getD s.dev.mail j []
        (Reaches s ag ⟨e.2.2.1, [p.val]⟩ → l.length < 64 → Completes (e.1 ag p v) s (fun d =>
          FMap.getD d.mail k [] = l ++ [v] ∧ others d ∧ d.regs = s.dev.regs ∧ d.raised = s.dev.raised ∧ Calm s.dev d)) ∧
        (Reaches s ag ⟨e.2.2.1, [p.val]⟩ → 64 ≤ l.length → Completes (e.1 ag p v) s (fun d =>
          d.mail = s.dev.mail ∧ Raises d 0x1405 ∧ Calm s.dev d)) ∧
        (Reaches s ag ⟨e.2.2.2.1, [p.val]⟩ false → Completes (e.2.1 ag p) s (fun d =>
          d.outs = [.value (l.headD 0).toNat] ∧ FMap.getD d.mail k [] = l.drop 1 ∧ others d ∧ d.regs = s.dev.regs ∧
          d.raised = s.dev.raised ∧ Calm s.dev d))) ∧
    (∀ (h : Fin 14) (k : Nat), s.dev.hartOf h.val = some k →
      let spare := ∃ j, j < 16 ∧ (s.dev.hart j).st = .spare
      Completes (.hubWdogKick h) s (fun d =>
        d.hart k = { s.dev.hart k with kick := s.dev.tempo, watched := true } ∧ (∀ j, j ≠ k → d.hart j = s.dev.hart j) ∧
        d.regs = s.dev.regs ∧ d.raised = s.dev.raised ∧ Calm s.dev d) ∧
      (spare → Completes (.hubCoreFail h) s (fun d =>
        d.hart k = { s.dev.hart k with st := .fenced, watched := false } ∧ (∀ j, j ≠ k → d.hart j = s.dev.hart j) ∧
        Records s.dev d 0x1401 h.val ∧ Calm s.dev d)) ∧
      (¬spare → Completes (.hubCoreFail h) s (fun d =>
        (d.hart k).st = .retired ∧ (∀ j, j ≠ k → d.hart j = s.dev.hart j) ∧ Raises d 0x1401 ∧ Raises d 0x1403 ∧
        Calm s.dev d)) ∧
      (∀ a n v, (n = 1 ∨ n = 2 ∨ n = 4 ∨ n = 8) → a % n = 0 → inHub a = true →
        Completes (.controlCoreAccess h a n true v) s (fun d =>
          d.mem.getAll a n = bytesOf n v.toNat ∧ KeptOutside s d a n ∧ d.cores = s.dev.cores ∧ d.regs = s.dev.regs) ∧
        Completes (.controlCoreAccess h a n false v) s (fun d =>
          d = { s.dev with outs := [.value (natOfBytes (s.dev.mem.getAll a n) % 2 ^ 64)] }))) ∧
    (∀ (h : Fin 14) (k j : Nat), k < 16 → j < 16 → (s.dev.hart k).st = .fenced → (s.dev.hart k).logical = h.val →
      (s.dev.hart j).st = .spare → (∀ i, i < k → (s.dev.hart i).st ≠ .fenced ∨ (s.dev.hart i).logical ≠ h.val) →
      (∀ i, i < j → (s.dev.hart i).st ≠ .spare) →
      Completes (.hubCoreGraft h) s (fun d =>
        (d.hart j).st = .inService ∧ (d.hart j).logical = h.val ∧
        (d.hart j).arch.mode = .m ∧ (d.hart j).arch.pc = BitVec.ofNat 64 (hubBase + s.dev.regFld ⟨.hubWdog, []⟩ 63 32) ∧
        (d.hart k).st = .fenced ∧ (d.hart k).logical = 0xF ∧
        (∀ i, i ≠ j → i ≠ k → d.hart i = s.dev.hart i) ∧ Records s.dev d 0x1402 h.val ∧ Calm s.dev d))

/-- The management port (R620 to R622): link, frames of a length that the MAC carries, for this port, through the descriptor
rings, and the service frames of the one session; a sender without the session is refused. A recovery transfer that holds an
accepted image goes to flash slot B, and the device starts anew (log entries 140, 149). -/
def Obligations.ManagementPort : Prop :=
  ∀ s : State, Acts s →
    (∀ fec : Fin 3, s.dev.mgtUp = false → Completes (.mgtLinkUp fec) s (fun d =>
      d.mgtUp = true ∧ d.mgtFec = fec.val ∧ Records s.dev d 0x1502 0 ∧ d.regs = s.dev.regs ∧ Calm s.dev d)) ∧
    (s.dev.mgtUp = true → Completes .mgtLinkDown s (fun d =>
      d.mgtUp = false ∧ d.session = none ∧ Records s.dev d 0x1501 0 ∧ d.regs = s.dev.regs ∧ Calm s.dev d)) ∧
    (s.dev.mgtRuns = true →
      (∀ a w bs, s.dev.mgtDesc .mgtRxq = some (a, w) → bs.length ≤ bits 61 48 w → serviceFrame bs = false →
        frameSize bs.length = true → s.dev.frameMine bs = true →
        Completes (.mgtFrameReceive bs false) s (fun d =>
          d.mem.getAll a 8 = bytesOf 8 (bits 47 0 w + bs.length * 2 ^ 48) ∧
          (∀ x, x < bs.length → let y := hubAt (bits 47 0 w - hubBase + x); (y < a ∨ a + 8 ≤ y) →
            d.mem.get y = bs.getD x 0) ∧
          (∀ y, (y < a ∨ a + 8 ≤ y) → (∀ x, x < bs.length → y ≠ hubAt (bits 47 0 w - hubBase + x)) →
            d.mem.get y = s.dev.mem.get y) ∧
          d.cores = s.dev.cores ∧ d.raised = s.dev.raised)) ∧
      (∀ bs bad, s.dev.mgtDesc .mgtRxq = none → serviceFrame bs = false → frameSize bs.length = true →
        s.dev.frameMine bs = true → Completes (.mgtFrameReceive bs bad) s (fun d =>
        d.regFld ⟨.mgtStats, []⟩ 31 0 = min (s.dev.regFld ⟨.mgtStats, []⟩ 31 0 + 1) (2 ^ 32 - 1) ∧ Calm s.dev d)) ∧
      (∀ bs bad, serviceFrame bs = true ∨ frameSize bs.length = false ∨ s.dev.frameMine bs = false →
        Completes (.mgtFrameReceive bs bad) s (fun d => d = { s.dev with outs := [] })) ∧
      (∀ a w, s.dev.mgtDesc .mgtTxq = some (a, w) → Completes .mgtFrameTransmit s (fun d =>
        d.outs = (if frameSize (bits 61 48 w) = true then
          [.bytes (s.dev.mem.getAll (hubAt (bits 47 0 w - hubBase)) (bits 61 48 w))] else []) ∧
        d.mem.getAll a 8 = bytesOf 8 (w % 2 ^ 62) ∧ KeptOutside s d a 8 ∧ d.cores = s.dev.cores)) ∧
      (∀ f : SvcFrame, s.dev.session = none →
        Completes (.serviceOpen f) s (fun d =>
          d = { s.dev with
            session := some { mac := f.mac, seq := some f.seq, reply := [132, 0, f.seq] }
            outs := [.sent 0x88B5 [132, 0, f.seq]] }) ∧
        ∀ e ∈ ([(.serviceRead f, 129), (.serviceWrite f, 130), (.serviceToken f, 131), (.serviceClose f, 133)] :
            List (Instr × Nat)),
          Completes e.1 s (fun d => d = { s.dev with outs := [.sent 0x88B5 [e.2, 1, f.seq]] })) ∧
      (∀ (f : SvcFrame) (x : Session), s.dev.session = some x → x.mac = f.mac → x.seq ≠ some f.seq →
        let all := s.dev.secState = 0 ∨ s.dev.secState = 3 ∨ s.dev.secState = 4
        let answers := fun (r : List Nat) (d : Dev) => d.outs = [.sent 0x88B5 r] ∧
          d.session = some { x with seq := some f.seq, reply := r } ∧ d.cores = s.dev.cores ∧ d.raised = s.dev.raised
        Completes (.serviceClose f) s (fun d => d.session = none ∧ d.outs = [.sent 0x88B5 [133, 0, f.seq]] ∧
          d.regs = s.dev.regs ∧ Calm s.dev d) ∧
        (all → f.len = 1 → f.addr % 8 = 0 → inHub f.addr = true → Completes (.serviceRead f) s (fun d =>
          answers [129, 0, f.seq, natOfBytes (s.dev.mem.getAll f.addr 8) % 2 ^ 64] d ∧ d.mem = s.dev.mem)) ∧
        (∀ v, all → f.len = 1 → f.data = [v] → f.addr % 8 = 0 → inHub f.addr = true →
          Completes (.serviceWrite f) s (fun d =>
            answers [130, 0, f.seq] d ∧ d.mem.getAll f.addr 8 = bytesOf 8 v.toNat ∧ KeptOutside s d f.addr 8)) ∧
        (∀ v, f.len = 1 → f.data = [v] → f.addr % 8 = 0 → f.addr + 8 ≤ 8192 → Completes (.serviceToken f) s (fun d =>
          answers [131, 0, f.seq] d ∧ d.mem = s.dev.mem ∧ d.reg ⟨.secTokenBuf, [f.addr / 8]⟩ = v)) ∧
        (∀ v m, s.dev.sec.stage = 1 → s.dev.sec.halted = true → f.len = 1 → f.data = [v] → f.flag = false →
          Completes (.serviceRecovery f m) s (fun d =>
            d.outs = [.sent 0x88B5 [134, 0, f.seq]] ∧
            (∃ y, d.session = some y ∧ y.rec_ = x.rec_ + 8 ∧ y.seq = some f.seq) ∧
            (∀ k, k < 8 → d.mem.get (hubAt (x.rec_ + k)) = BitVec.ofNat 8 (v.toNat / 2 ^ (8 * k))) ∧
            d.cores = s.dev.cores)) ∧
        (∀ v m, s.dev.sec.stage = 1 → s.dev.sec.halted = true → f.len = 1 → f.data = [v] → f.flag = true →
          Completes (.serviceRecovery f m) s (fun d => ∃ mem : Mem,
            (∀ k, k < 8 → mem.get (hubAt (x.rec_ + k)) = BitVec.ofNat 8 (v.toNat / 2 ^ (8 * k))) ∧
            (∀ b, (∀ k, k < 8 → b ≠ hubAt (x.rec_ + k)) → mem.get b = s.dev.mem.get b) ∧
            let good := Config.parseManifest (mem.getAll hubBase (x.rec_ + 8)) = some m ∧ s.dev.slotOk m = true ∧
              ∀ k, k ∈ [1, 2, 3] → (imageOf m k).any imageOk = true
            (good →
              d.sec.stage = 1 ∧ d.sec.halted = false ∧ d.flashB = some m ∧ ∀ r : Reg, d.reg r = r.resetVal) ∧
            (¬good →
              d.sec = s.dev.sec ∧ d.flashB = s.dev.flashB ∧ Records s.dev d 0x1202 1 ∧ d.cores = s.dev.cores)))) ∧
      Completes .mgtSessionTimeout s (fun d => d = { s.dev with outs := [], session := none }))

/-! ## Darvo -/

/-- Port states (R421, R422, R434, R435, R447): training and its failures, the partner's identity and its cells; RETRAIN, which
passes LOCK, IDENT and CREDIT, and the fourth entry in a window; quarantine and release. A router's failure shifts its column
at a step boundary and detours (R437); a stop that has lost both its attachments is reported (R438).
TRAIN_FAILS at a release, the samples cleared at LOCK, the role of an IDENT, the passes of RETRAIN and the report of a cut
stop are readings (log entries 81, 82, 130). -/
def Obligations.PortStates : Prop :=
  (∀ (q : PortId) (s : State),
    let x := s.dev.port q.val
    let l := s.dev.portLink q.val
    let rest := fun (d : Dev) => (∀ r, r ≠ q.val → (d.port r).st = (s.dev.port r).st) ∧ d.mem = s.dev.mem ∧
      d.cores = s.dev.cores
    let quiet := fun (d : Dev) => d.raised = s.dev.raised ∧ d.links = s.dev.links ∧ rest d
    (Acts s → s.dev.portRuns q.val = true →
      (x.st = .detect → Completes (.portSignalDetect q) s (fun d =>
        d.port q.val = { x with st := .train, lost := none } ∧ quiet d)) ∧
      (x.st = .train → Completes (.portTrainDone q) s (fun d =>
        d.port q.val = { x with st := .lock, lost := none, delays := [] } ∧
        (d.reg ⟨.tmpPortDelay, [q.val]⟩).getLsbD 63 = false ∧ quiet d)) ∧
      (x.st = .lock → Completes (.portAlignDone q) s (fun d =>
        (d.port q.val).st = .ident ∧ quiet d ∧
        d.outs = [.sent 0x205 [s.dev.ownId, q.val, l, s.dev.regFld ⟨.dvoPortCfg, [q.val]⟩ 9 7, s.dev.portRole q.val]])) ∧
      (∀ e ∈ ([(.portTrainTimeout q, .train), (.portRetrainTimeout q, .retrain)] : List (Instr × PortState)), x.st = e.2 →
        (x.fails = 0 → Completes e.1 s (fun d => (d.port q.val).st = .detect ∧ (d.port q.val).fails = 1 ∧ quiet d)) ∧
        (x.fails ≠ 0 → Completes e.1 s (fun d =>
          (d.port q.val).st = .failed ∧ (d.port q.val).fails = x.fails + 1 ∧ Raises d 0x0C04 ∧ rest d))) ∧
      (x.st = .retrain → x.pass = .coeffs → Completes (.portAlignDone q) s (fun d =>
        d.port q.val = { x with pass := .ident, delays := [] } ∧ quiet d ∧
        d.outs = [.sent 0x205 [s.dev.ownId, q.val, l, s.dev.regFld ⟨.dvoPortCfg, [q.val]⟩ 9 7, s.dev.portRole q.val]])) ∧
      (∀ i : Ident, x.st = .ident ∨ (x.st = .retrain ∧ x.pass = .ident) →
        let want := s.dev.regFld ⟨.dvoLink, [l]⟩ 21 4
        let ok := (want = 0x3FFFF ∨ want = i.dev) ∧ (s.dev.linkPeer q.val = none ∨ s.dev.linkPeer q.val = some i.dev)
        (i.dev ≠ s.dev.ownId → l < 24 → ok → Completes (.identReceive q i) s (fun d =>
          (x.st = .ident → d.port q.val = { x with
            st := .credit, lost := none, peer := i.dev % 2 ^ 18, peerPort := i.port % 32
            peerGraft := x.peerGraft || decide (i.role = 1) }) ∧
          (x.st = .retrain → d.port q.val = { x with
            pass := .credit, peer := i.dev % 2 ^ 18, peerPort := i.port % 32
            peerGraft := x.peerGraft || decide (i.role = 1) }) ∧ quiet d)) ∧
        (i.dev ≠ s.dev.ownId → l < 24 → ¬ok → Completes (.identReceive q i) s (fun d =>
          (d.port q.val).st = .quarantine ∧ (d.port q.val).qcause = 11 ∧ Raises d 0x0C09 ∧ d.links = s.dev.links ∧ rest d)) ∧
        (i.dev = s.dev.ownId → Completes (.identReceive q i) s (fun d =>
          (d.port q.val).st = .quarantine ∧ (d.port q.val).qcause = 10 ∧ Raises d 0x0C08 ∧ d.links = s.dev.links ∧ rest d))) ∧
      (∀ caps, x.st = .credit →
        let y := fun (d : Dev) => (d.port q.val).fails = 0 ∧ (d.port q.val).caps = caps ∧ d.regs = s.dev.regs ∧ rest d
        (s.dev.portRole q.val = 1 → s.dev.skewed q.val = false → Completes (.creditExchange q caps) s (fun d =>
          (d.port q.val).st = .up ∧ y d ∧ (∀ j, j ≠ l → d.link j = s.dev.link j) ∧
          (l < 24 → x.counted = false → x.hold = false → ∀ k, k < 8 →
            FMap.getD (d.link l).avail k 0 = FMap.getD (s.dev.link l).avail k 0 + ((caps.getD k 0 : Nat) : Int)))) ∧
        (s.dev.portRole q.val = 1 → s.dev.skewed q.val = true → Completes (.creditExchange q caps) s (fun d =>
          (d.port q.val).st = .standby ∧ y d ∧ Raises d 0x0C02 ∧ d.links = s.dev.links)) ∧
        (s.dev.portRole q.val = 2 → Completes (.creditExchange q caps) s (fun d =>
          (d.port q.val).st = .standby ∧ y d ∧ d.raised = s.dev.raised ∧ d.links = s.dev.links))) ∧
      (∀ caps, x.st = .retrain → x.pass = .credit → Completes (.creditExchange q caps) s (fun d =>
        d.port q.val = { x with pass := .done, caps := caps } ∧ quiet d)) ∧
      (x.st = .retrain → x.pass = .done → Completes (.portRetrainDone q) s (fun d =>
        (d.port q.val).st = (if x.back = true then .up else .standby) ∧ (d.port q.val).fails = 0 ∧
        d.raised = s.dev.raised ∧ rest d)) ∧
      (x.st = .retrain → x.pass ≠ .done → Completes (.portRetrainDone q) s (fun d => d = { s.dev with outs := [] }))) ∧
    (∀ e ∈ ([(.portLossOfLock q, Acts s ∧ s.dev.portRuns q.val = true), (.dvoRetrain q, HostReaches s ⟨.dvoPortCtrl, [q.val]⟩)] : List (Instr × Prop)),
      e.2 → x.st = .up ∨ x.st = .standby →
      (x.winRetrain < 3 → Completes e.1 s (fun d =>
        (d.port q.val).st = .retrain ∧ (d.port q.val).back = decide (x.st = .up) ∧ (d.port q.val).pass = .coeffs ∧
        (d.port q.val).retrains = min (x.retrains + 1) 255 ∧ Raises d 0x0C03 ∧ rest d)) ∧
      (3 ≤ x.winRetrain → Completes e.1 s (fun d =>
        (d.port q.val).st = .failed ∧ Raises d 0x0C03 ∧ Raises d 0x0C04 ∧ rest d))) ∧
    (HostReaches s ⟨.dvoPortCtrl, [q.val]⟩ →
      (x.st = .quarantine ∨ x.st = .failed → Completes (.dvoRelease q) s (fun d =>
        (d.port q.val).st = .detect ∧ (d.port q.val).fails = 0 ∧ (d.port q.val).qcause = 0 ∧ quiet d)) ∧
      Completes (.dvoForceDown q) s (fun d => (d.port q.val).st = .detect ∧ rest d))) ∧
  (∀ (t : TileId) (col : Fin 9) (r : Fin 8) (stops : List (MeshStop × Fin 8 × Fin 8)) (s : State), Acts s →
    let m := s.dev.mesh t.val
    let spare := m.shift = 8 ∧ m.shiftDue = .no
    Completes (.dvoRouterFail t col r stops) s (fun d =>
      let m' := d.mesh t.val
      m'.failCol = col.val ∧ m'.failRow = r.val ∧ m'.fails = min 15 (m.fails + 1) ∧ m'.detourDue = true ∧ m'.shift = m.shift ∧
      m'.failed = m.failed ++ [(col.val, r.val)] ∧
      (spare → m'.shiftCol = col.val ∧ m'.shiftDue = s.dev.dueOf (s.dev.tilePart t.val)) ∧
      (¬spare → m'.shiftCol = m.shiftCol ∧ m'.shiftDue = m.shiftDue) ∧ (∀ j, j ≠ t.val → d.mesh j = s.dev.mesh j) ∧
      Raises d 0x0C0A ∧
      (∀ x ∈ stops, m'.cutOff x.2.1.val x.2.2.val = true → match x.1 with
        | .port p => (d.port p.val).st = .failed
        | .hbm ch => (FMap.find? (d.hbmTile t.val).failed ch.val).isSome = true
        | .cluster g => Out.sent 0x207 [t.val, 0, g.val] ∈ d.outs
        | .die k => Out.sent 0x207 [t.val, 1, k.val] ∈ d.outs) ∧
      (∀ p : PortId, (∀ x ∈ stops, x.1 = .port p → m'.cutOff x.2.1.val x.2.2.val = false) →
        (d.port p.val).st = (s.dev.port p.val).st) ∧
      d.mem = s.dev.mem ∧ d.cores = s.dev.cores))

/-- Packets of a link (R417, R419, R420, R424 to R427): VC0 goes before every other, then replays, then the next packet of the
VC whose turn it is in the deficit round robin, with the link's next sequence number, and the cells that it uses leave what
is available; while a class has a packet to send, one of those that have has its turn (R425). A packet in its turn is
delivered or forwarded with one hop more; a copy is discarded, and so is what follows a codeword that could not be corrected,
until the number that its NAK names arrives.
The quantum and the start of the round, and the end of a discard, are the model's choices (log entries 83, 129). -/
def Obligations.Packets : Prop :=
  (∀ (q : PortId) (l : Nat) (es : ReadErrs) (s : State), Acts s → s.dev.carrying q.val = some l →
    let x := s.dev.link l
    let calm := fun (d : Dev) => d.mem = s.dev.mem ∧ d.cores = s.dev.cores ∧ d.ports = s.dev.ports
    (∀ (vc : Fin 4) (sq : Nat) (rest : List Nat) (u : SeqPkt), x.resend = sq :: rest →
      x.unacked.find? (fun u => u.seq = sq) = some u →
      u.pkt.vc % 4 = 0 ∨ (s.dev.nextOf l 0 = none ∧ ∀ w ∈ x.unacked, w.seq ∈ x.resend → w.pkt.vc % 4 ≠ 0) → Completes (.packetTransmit (some q) vc es) s (fun d =>
        d.outs = [.packet q.val sq u.pkt] ∧ (d.link l).resend = rest ∧ (d.link l).txq = x.txq ∧
        (d.link l).sendSeq = x.sendSeq ∧ (d.link l).avail = x.avail ∧ (∀ j, j ≠ l → d.link j = s.dev.link j) ∧ calm d)) ∧
    (∀ (vc : Fin 4) (i : Nat) (e : QPkt), x.resend = [] →
      vc = 0 ∨ (s.dev.nextOf l 0 = none ∧ (s.dev.arbTurn q.val l).map Prod.fst = some vc.val) → s.dev.nextOf l vc.val = some i →
      x.txq[i]? = some e → Completes (.packetTransmit (some q) vc es) s (fun d =>
        .packet q.val x.sendSeq e.pkt ∈ d.outs ∧ (d.link l).sendSeq = (x.sendSeq + 1) % 65536 ∧
        (d.link l).txq = x.txq.eraseIdx i ∧ (d.link l).unacked = x.unacked ++ [{ seq := x.sendSeq, port := q.val, pkt := e.pkt }] ∧
        FMap.getD (d.link l).avail e.pkt.key 0 = FMap.getD x.avail e.pkt.key 0 - ((e.pkt.cells : Nat) : Int) ∧
        d.mem = s.dev.mem ∧ d.cores = s.dev.cores ∧ ∀ r, (d.port r).st = (s.dev.port r).st)) ∧
    ((∀ e ∈ x.txq, e.pkt.payload.length ≤ 512) → s.dev.arbReady l ≠ [] →
      ∃ v a, s.dev.arbTurn q.val l = some (v, a) ∧ v ∈ s.dev.arbReady l) ∧
    (∀ (seq : Nat) (pkt : Machine.Packet) (corr : Nat), pkt.portOwn = false → seq = x.expect → x.rx = [] →
      s.dev.rxFits l pkt = true → pkt.violation = 0 → (∀ e ∈ s.dev.ports, e.2.lost = none) →
      let next := fun (d : Dev) => (d.link l).expect = (x.expect + 1) % 65536 ∧ (d.link l).ackDue = true ∧
        (d.link l).rx = [] ∧ calm d
      (pkt.dst = s.dev.ownId → pkt.type ∉ [0x01, 0x02, 0x03, 0x04, 0x05, 0x10, 0x11] →
        Completes (.packetReceive q seq pkt es corr) s (fun d => .delivered pkt ∈ d.outs ∧ next d)) ∧
      (pkt.dst ≠ s.dev.ownId → Completes (.packetReceive q seq pkt es corr) s (fun d =>
        (∃ j, ∃ y ∈ (d.link j).txq, y.pkt = { pkt with hops := pkt.hops + 1, dl := y.pkt.dl } ∧
          y.origin = some (l, pkt.key, pkt.cells)) ∧ next d))) ∧
    (∀ (seq : Nat) (pkt : Machine.Packet), pkt.portOwn = false →
      32768 ≤ (seq + 65536 - x.expect) % 65536 ∨ (∃ n, (s.dev.port q.val).lost = some n ∧ seq ≠ n) →
      Completes (.packetReceive q seq pkt es 0) s (fun d => d = { s.dev with outs := [] }))) ∧
  (∀ (vc : Fin 4) (es : ReadErrs) (y : QPkt) (rest : List QPkt) (s : State), Acts s → (s.dev.link 24).txq = y :: rest →
    y.pkt.vc % 4 = vc.val → y.pkt.type ∉ [0x01, 0x02, 0x03, 0x04, 0x05, 0x10, 0x11] →
    Completes (.packetTransmit none vc es) s (fun d =>
      .delivered y.pkt ∈ d.outs ∧ (d.link 24).txq = rest ∧ d.mem = s.dev.mem ∧ d.cores = s.dev.cores ∧
      d.ports = s.dev.ports))

/-- Words of a link (R419, R431, R432, R434): acknowledgements, NAKs of lost packets, the discard after a
codeword that could not be corrected, credit returns within CAP, and the recount of an edge; an unknown number, or a credit beyond CAP, is a violation of the partner.
How a discard ends is the model's reading (log entry 129). -/
def Obligations.LinkWords : Prop :=
  (∀ (l : Fin 24) (s : State), Acts s → (s.dev.link l.val).ackDue = true → (s.dev.upMembers l.val).any s.dev.portRuns = true →
    Completes (.linkAckSend l) s (fun d =>
      d.outs = [.sent 0x203 [l.val, ((s.dev.link l.val).expect + 65535) % 65536]] ∧
      d.link l.val = { s.dev.link l.val with ackDue := false } ∧ (∀ j, j ≠ l.val → d.link j = s.dev.link j) ∧
      d.regs = s.dev.regs ∧ d.mem = s.dev.mem ∧ d.cores = s.dev.cores ∧ d.ports = s.dev.ports)) ∧
  (∀ (q : PortId) (l : Nat) (s : State), Acts s → s.dev.carrying q.val = some l →
    let x := s.dev.link l
    let calm := fun (d : Dev) => (∀ j, j ≠ l → d.link j = s.dev.link j) ∧ d.mem = s.dev.mem ∧ d.cores = s.dev.cores
    let bad := fun (code : Nat) (d : Dev) => (s.dev.port q.val).winViol < 3 →
      Raises d 0x0C07 ∧ d.regFld ⟨.dvoPortViol, [q.val]⟩ 43 40 = code ∧ d.mem = s.dev.mem ∧ d.cores = s.dev.cores
    let errs := fun (hi lo : Nat) (d : Dev) => d.regFld ⟨.dvoPortErr, [q.val]⟩ hi lo =
      min (s.dev.regFld ⟨.dvoPortErr, [q.val]⟩ hi lo + 1) 65535
    (∀ seq i, x.unacked.findIdx? (fun u => u.seq = seq) = some i →
      Completes (.linkAckReceive q seq) s (fun d =>
        (d.link l).unacked = x.unacked.drop (i + 1) ∧ (d.link l).txq = x.txq ∧ (d.link l).avail = x.avail ∧
        (∀ n ∈ (d.link l).resend, n ∈ x.resend ∧ ∀ u ∈ x.unacked.take (i + 1), u.seq ≠ n) ∧
        d.raised = s.dev.raised ∧ d.ports = s.dev.ports ∧ calm d) ∧
      Completes (.linkNakReceive q seq) s (fun d =>
        (d.link l).unacked = x.unacked ∧ (∀ u ∈ x.unacked.drop i, u.seq ∈ (d.link l).resend) ∧ errs 63 48 d ∧
        d.raised = s.dev.raised ∧ d.ports = s.dev.ports ∧ calm d)) ∧
    (∀ seq, x.unacked.findIdx? (fun u => u.seq = seq) = none →
      Completes (.linkAckReceive q seq) s (bad 7) ∧ Completes (.linkNakReceive q seq) s (bad 7)) ∧
    Completes (.fecUncorrectable q) s (fun d =>
      d.outs = [.sent 0x204 [l, x.expect]] ∧ errs 47 32 d ∧ (d.port q.val).lost = some x.expect ∧ d.links = s.dev.links ∧
      d.mem = s.dev.mem ∧ d.cores = s.dev.cores) ∧
    (∀ (vc : Fin 4) (dl : Bool) (n : Nat),
      let k := clsKey vc.val dl
      let a := FMap.getD x.avail k 0 + ((n : Nat) : Int)
      (a ≤ ((FMap.getD x.cap k 0 : Nat) : Int) → Completes (.creditReturnReceive q vc dl n) s (fun d =>
        (∀ j, FMap.getD (d.link l).avail j 0 = if j = k then a else FMap.getD x.avail j 0) ∧ d.regs = s.dev.regs ∧
        d.raised = s.dev.raised ∧ calm d)) ∧
      (((FMap.getD x.cap k 0 : Nat) : Int) < a → Completes (.creditReturnReceive q vc dl n) s (bad 8))) ∧
    (∀ freed caps : List Nat, Completes (.recountReceive q freed caps) s (fun d =>
      (∀ k, k < 8 → FMap.getD (d.link l).cap k 0 = caps.getD k 0 ∧
        FMap.getD (d.link l).avail k 0 = recountAvail (caps.getD k 0) (FMap.getD x.sent k 0) (freed.getD k 0)) ∧
      d.raised = s.dev.raised ∧ calm d)))

/-! ## Reduction -/

/-- Reduction (R452 to R454, R460 to R465, R473, R474): a leaf sends its local chunk with its checksum; a stage keeps an
input's copy while another input is missing; a GSEND sends updated parameters, a GRECV writes and forwards what it
receives; a packet of a stage that is not there is answered with NAK 6. -/
def Obligations.Reduction : Prop :=
  ∀ s : State, Acts s → s.dev.redHeld = [] →
    (∀ (p : PartId) (n : Nat) (es : ReadErrs) (st : RedStage) (a : RedAct), s.dev.redStage p.val n = some st → st.act = some a →
      st.kind = 0 → st.nin = 0 → st.loc = true → a.granted = true → a.wait = none → a.abst = none → a.past = false →
      a.next = a.read → a.read < st.nch → (∀ i, a.read ≤ i → a.chunk i = {}) →
      let src := st.base + 256 * a.read
      4 * hbmTileBytes ≤ src → (∀ i, i < 256 → s.dev.sramOf p.val (src + i) = true) →
      Clean s.dev src 256 →
      Completes (.reduceLocalReady p n 1 es) s (fun d =>
        let bs := s.dev.mem.getAll src 256
        let cs := codesOf bs
        (∀ o ∈ st.outs, Queued d { dst := o.1, src := 0, addr := o.2.1 + (st.ch0 + a.read) % 2 ^ 24 * 2 ^ 12 + o.2.2 * 2 ^ 36
                                   vc := 1, type := 0x10, len := 272, spart := p.val
                                   payload := Trailer.bytes ⟨redSum cs, 1, 1, maxRel cs 0, false, false, true, a.ring⟩ ++ bs }) ∧
        (∃ y b, d.redStage p.val n = some y ∧ y.act = some b ∧ b.read = a.read + 1 ∧ b.next = a.next + 1) ∧
        d.mem = s.dev.mem ∧ d.cores = s.dev.cores ∧ d.raised = s.dev.raised)) ∧
    (∀ (q : Option PortId) (pkt : Machine.Packet) (st : RedStage) (a : RedAct) (i j : Nat),
      let n := bits 11 0 pkt.addr
      let p := bits 37 36 pkt.addr
      let t := Trailer.of pkt.payload
      s.dev.redStage p n = some st → st.act = some a → bits 35 12 pkt.addr = st.ch0 + i → i < st.nch → j < st.nin →
      st.primary j = pkt.src → (∀ k, k < j → st.primary k ≠ pkt.src ∧ st.backup k ≠ some pkt.src) → a.past = false →
      pkt.payload.length = 272 → t.zero = true → t.abstain = false → pkt.bad = [] →
      (pkt.type = 0x10 → st.kind = 1 ∨ st.kind = 2 → t.ring = a.ring % 2 ^ 32 →
        let cs := codesOf (pkt.payload.drop 16)
        (-128 : Int) ∉ cs → redSum cs = t.csum → a.present i j = false → st.open_ a i = true → FMap.find? a.pab j = none →
        FMap.find? (a.chunk i).hold j = none → s.dev.peAccs st.port < 1024 →
        (∀ k, k = i ∨ k = a.next → ∃ z ∈ st.inputs, z ≠ j ∧ a.present k z = false ∧ st.absent a k z = false) →
        Completes (.reduceReceive q pkt none) s (fun d =>
          (∃ y b, d.redStage p n = some y ∧ y.act = some b ∧ b.next = a.next ∧ (∀ k, k ≠ i → b.chunk k = a.chunk k) ∧
            FMap.find? (b.chunk i).got j = some ⟨cs, t.csum, t.present, t.maxe, t.sat⟩) ∧
          d.mem = s.dev.mem ∧ d.cores = s.dev.cores ∧ d.raised = s.dev.raised ∧ d.links = s.dev.links)) ∧
      (pkt.type = 0x11 → st.kind = 4 → t.ring = (a.ring + 1) % 2 ^ 32 →
        redSum ((halvesOf (pkt.payload.drop 16)).map Int.ofNat) = t.csum → NSet.has a.done i = false → a.discards = false →
        a.done.length + 1 ≠ st.nch → ∀ g, (s.dev.gen p).filling st.pstage (a.ring + 1) = some g →
        let dst := ((s.dev.gen p).slot st.pstage g).page * 0x200000 + st.base + 256 * i
        dst % 64 = 0 → dst < 4 * hbmTileBytes → s.dev.hbmOf p dst = true →
        Completes (.gatherReceive q pkt) s (fun d =>
          d.mem.getAll dst 256 = pkt.payload.drop 16 ∧ KeptOutside s d dst 256 ∧
          (∃ y b, d.redStage p n = some y ∧ y.act = some b ∧ NSet.has b.done i = true) ∧
          (∀ o ∈ st.outs, Queued d { dst := o.1, src := 0, addr := o.2.1 + (st.ch0 + i) % 2 ^ 24 * 2 ^ 12 + o.2.2 * 2 ^ 36
                                     vc := 1, type := 0x11, len := 272, spart := p, payload := pkt.payload }) ∧
          d.cores = s.dev.cores ∧ d.raised = s.dev.raised))) ∧
    (∀ pkt : Machine.Packet, s.dev.redStage (bits 37 36 pkt.addr) (bits 11 0 pkt.addr) = none →
      ∀ c ∈ ([.reduceReceive none pkt none, .gatherReceive none pkt] : List Instr), Completes c s (fun d =>
        Queued d { dst := pkt.src, src := 0, addr := pkt.addr, vc := pkt.vc, type := 0x05, len := 0
                   spart := bits 37 36 pkt.addr, tag := pkt.tag, code := 6 } ∧
        d.mem = s.dev.mem ∧ d.cores = s.dev.cores ∧ d.raised = s.dev.raised)) ∧
    (∀ (p : PartId) (n c : Nat) (st : RedStage) (a : RedAct) (hs : List Nat), s.dev.redStage p.val n = some st →
      s.dev.ctxOf p.val = some c → st.act = some a → st.kind = 3 → a.next < st.nch →
      (s.dev.neaHigh c (a.ring + 1) (st.param0 + 128 * a.next) 128 (Config.unitErrs s.dev.fresh)).1 = some hs →
      Completes (.gsendChunkRead p n) s (fun d =>
        let t := redTensor (s.dev.red p.val).shard st.tensor a.ring
        (∀ o ∈ st.outs, Queued d { dst := o.1, src := 0, addr := o.2.1 + (st.ch0 + a.next) % 2 ^ 24 * 2 ^ 12 + o.2.2 * 2 ^ 36
                                   vc := 1, type := 0x11, len := 272, spart := p.val
                                   payload := Trailer.bytes ⟨redSum (hs.map Int.ofNat), 0, 0, t.maxe, t.sat, false, true, a.ring + 1⟩ ++
                                     hs.flatMap (bytesOf 2) }) ∧
        (∃ y b, d.redStage p.val n = some y ∧ y.act = some b ∧ b.next = a.next + 1) ∧
        d.mem = s.dev.mem ∧ d.cores = s.dev.cores ∧ d.raised = s.dev.raised))

/-! ## Partitions, prunes, check values -/

/-- Loading and castling (R489 to R491, R494 to R496, R499, R506): a LOAD is checked and refused with its REASON or starts, and
then keeps the REASON of the last refusal; its completion starts every core at the next edge; KILL and CASTLE give notice; a revocation that has ended frees the partition. -/
def Obligations.Partitions : Prop :=
  ∀ (p : PartId) (s : State),
    let x := s.dev.part p.val
    let others := fun (d : Dev) => ∀ j, j ≠ p.val → d.part j = s.dev.part j
    (HostReaches s ⟨.prtCtrl, [p.val]⟩ → s.dev.sec.scrub = none →
      (∀ img, x.st = .free →
        let d0 := (s.dev.partTiles p.val).foldl (fun (d : Dev) t => d.hbmLoadMapOut t) s.dev.silent
        let d1 := d0.standInLoad p.val
        (d1.loadReason p.val img = 0 → Completes (.prtLoad p img) s (fun d =>
          (d.part p.val).st = .loading ∧ (d.part p.val).loading = img ∧ (d.part p.val).reason = x.reason ∧ d.mem = d1.mem)) ∧
        (d1.loadReason p.val img ≠ 0 → Completes (.prtLoad p img) s (fun d =>
          (d.part p.val).st = .free ∧ (d.part p.val).reason = d1.loadReason p.val img ∧ Raises d 0x0F02 ∧
          d.mem = d0.mem))) ∧
      (∀ img, x.st = .noticed ∨ x.st = .revoking → Completes (.prtLoad p img) s (fun d =>
        d.part p.val = { x with loadPending := true, pending := img } ∧ others d ∧ d.mem = s.dev.mem ∧
        d.cores = s.dev.cores)) ∧
      (∀ e ∈ ([(.prtKill p, ⟨0, true, false⟩), (.prtCastle p, ⟨(s.dev.reg ⟨.prtCastleAt, [p.val]⟩).toNat, false, false⟩)] :
          List (Instr × Notice)),
        (x.st = .running ∨ x.st = .ended ∨ x.st = .halted → Completes e.1 s (fun d =>
          d.part p.val = { x with st := .noticed, notice := some e.2 } ∧ others d ∧ d.mem = s.dev.mem ∧
          d.cores = s.dev.cores)) ∧
        (x.st = .loading → x.held = none → Completes e.1 s (fun d =>
          d.part p.val = { x with held := some e.2 } ∧ others d ∧ d.mem = s.dev.mem ∧ d.cores = s.dev.cores)))) ∧
    (Acts s → x.st = .revoking → s.dev.revoked p.val = true → x.loadPending = false →
      Completes (.revocationComplete p) s (fun d =>
        (d.part p.val).st = .free ∧ (d.part p.val).job = 0 ∧ others d ∧ Raises d 0x0F04 ∧
        d.regFld ⟨.prtHandover, [p.val]⟩ 31 0 = x.edge % 2 ^ 32 ∧
        (d.reg ⟨.prtHandover, [p.val]⟩).getLsbD 32 = x.killed ∧
        d.regFld ⟨.prtHandover, [p.val]⟩ 63 48 = min x.aborts 0xFFFF ∧
        d.reg ⟨.prtHandoverRing, [p.val]⟩ = BitVec.ofNat 64 (x.ring.getD (2 ^ 64 - 1)) ∧ d.mem = s.dev.mem ∧
        d.cores = s.dev.cores)) ∧
    (∀ (img : Image) (c : Nat) (k : ImgCore), Acts s → x.st = .loading → x.loading = some img → x.held = none →
      img.period = s.dev.period → (∀ r ∈ img.rings, r.ring < 8) →
      (∀ n, img.nea = some n → (∀ g ∈ n.groups, g.1 < 256) ∧ ∀ w ∈ n.kernels, w.1 < 64) →
      c < 384 → s.dev.corePart c = p.val → s.dev.inService c = true →
      img.cores.find? (fun (y : ImgCore) => y.core = c) = some k → k.code ≠ [] →
      Completes (.loadComplete p) s (fun d =>
        (d.part p.val).st = .running ∧ (d.part p.val).epoch = (x.epoch + 1) % 2 ^ 32 ∧ (d.part p.val).job = img.job ∧
        (d.core c).sq = { Sq.start (codeStore k.code) k.code.length k.entry k.restart s.dev.nextEdge with
          issue := (s.dev.core c).sq.issue } ∧
        (∀ j, s.dev.corePart j ≠ p.val → d.core j = s.dev.core j) ∧ others d ∧ Raises d 0x0F01 ∧ d.mem = s.dev.mem))

/-- Prunes (R535, R537, R546): the hosting software's prune of a core in service halts it; its completion leaves the physical
core PRUNED with the cause, its column test begun and its scratchpad read through, and chooses the lowest spare or a map-out;
a spare's zero-fill ends.
CAUSE 0 of a host's prune is the model's reading (log entry 71). -/
def Obligations.Prunes : Prop :=
  (∀ (c : CoreId) (k : Nat) (s : State), HostReaches s ⟨.prtPrune, []⟩ → s.dev.physOf c.val = some k →
    (s.dev.physCore k).st ≠ .pruned → s.dev.pruning c.val = false →
    Completes (.prtPruneGo c) s (fun d =>
      (d.core c.val).sq.st = .halted ∧ (d.core c.val).sq.pruned = true ∧
      (∃ y ∈ d.prunes, y.core = c.val ∧ y.phys = k ∧ y.code = 0 ∧ y.tempo = s.dev.tempo ∧ y.done = false) ∧
      d.phys = s.dev.phys ∧ ∀ j, j ≠ c.val → d.core j = s.dev.core j)) ∧
  (∀ (c : CoreId) (x : Prune) (s : State), Acts s →
    s.dev.prunes.find? (fun (x : Prune) => decide (x.core = c.val) && !x.done && decide (some x.phys = s.dev.physOf c.val)) =
      some x →
    s.dev.dmaAbortingOf c.val = false → (s.dev.core c.val).fte.reqs = [] →
    let run := (s.dev.part (s.dev.corePart c.val)).st = .running
    Completes (.pruneComplete c) s (fun d =>
      (d.physCore x.phys).st = .pruned ∧ (d.physCore x.phys).cause = x.code ∧
      (d.physCore x.phys).prunes = min ((s.dev.physCore x.phys).prunes + 1) 255 ∧
      (d.columnOf x.phys).getLsbD 6 = true ∧ Raises d 0x0F20 ∧
      (∀ k, run → s.dev.spareOf (clusterOf c.val) = some k →
        (d.physCore k).fill = 1 ∧ (d.physCore k).forCore = some c.val) ∧
      (run → s.dev.spareOf (clusterOf c.val) = none → ∃ y ∈ d.prunes, y.phys = x.phys ∧ y.mapout = true) ∧
      d.cores = s.dev.cores ∧ d.mem.bytes = s.dev.mem.bytes ∧ d.mem.poison = s.dev.mem.poison ∧
      d.mem.err = s.dev.mem.err)) ∧
  (∀ (k : Fin 448) (s : State), Acts s → (s.dev.physCore k.val).fill = 1 →
    Completes (.spareZeroFillDone k) s (fun d =>
      d.physCore k.val = { s.dev.physCore k.val with fill := 2 } ∧ (∀ j, j ≠ k.val → d.physCore j = s.dev.physCore j) ∧
      d.prunes = s.dev.prunes ∧ d.regs = s.dev.regs ∧ d.raised = s.dev.raised ∧ Calm s.dev d))

/-- Check values and the counter generator (R513, R515 to R517, R522, R527): a feed starts where its range is the
partition's, and its bytes enter STATE in order; INIT, whose bits at or above the width are ignored; an abort ends after its step; refusals raise their events.
When a width has no bits to mask, and where a feed may not start, are readings (log entry 86). -/
def Obligations.CheckValues : Prop :=
  ∀ s : State,
    (∀ (ag : Agent) (u : CvuId),
      let n := cvuNum u
      let ctl := cvuReg n .cvuCtrl .pcvuCtrl
      let calm := fun (d : Dev) => d.mem = s.dev.mem ∧ d.cores = s.dev.cores ∧ ∀ j, j ≠ n → d.cvu j = s.dev.cvu j
      let folds := fun (m : Nat) (d : Dev) =>
        let pos := (s.dev.reg (cvuReg n .cvuPos .pcvuPos)).toNat
        d.reg (cvuReg n .cvuState .pcvuState) = BitVec.ofNat 64 (crcBytes (s.dev.cvuSetting n) (s.dev.cvuState n)
          (foldStream (fld 11 10 (s.dev.cvuCfgWord n)) (s.dev.reg (cvuReg n .cvuFoldBase .pcvuFoldBase)).toNat pos
            (s.dev.mem.getAll (s.dev.cvu n).addr m))) ∧
        d.reg (cvuReg n .cvuPos .pcvuPos) = BitVec.ofNat 64 (pos + m) ∧ (d.cvu n).feeding = false ∧ (d.cvu n).left = 0 ∧
        d.raised = s.dev.raised ∧ calm d
      (∀ len : Fin 1099511627776, Reaches s ag (cvuReg n .cvuFeedLen .pcvuFeedLen) →
        let a := s.dev.regFld (cvuReg n .cvuFeedAddr .pcvuFeedAddr) 47 0
        let p := s.dev.clusterPart (n / 2)
        let ok := s.dev.sramWhole p a len.val = true
        (n < 32 → s.dev.cvuBusy n = false → s.dev.cvuBad n = false → ok → Completes (.cvuFeedStart ag u len) s (fun d =>
          d.cvu n = { s.dev.cvu n with feeding := true, left := len.val, addr := a, owner := ag.owner } ∧
          d.raised = s.dev.raised ∧ calm d)) ∧
        (n < 32 → s.dev.cvuBusy n = false → s.dev.cvuBad n = false → ¬ok → Completes (.cvuFeedStart ag u len) s (fun d =>
          Raises d 0x0D02 ∧ (d.cvu n).feeding = false ∧ d.regs = s.dev.regs ∧ calm d)) ∧
        (n < 32 → s.dev.cvuBusy n = false → s.dev.cvuBad n = true → Completes (.cvuFeedStart ag u len) s (fun d =>
          Raises d 0x0D01 ∧ (d.cvu n).feeding = false ∧ d.regs = s.dev.regs ∧ calm d)) ∧
        (n < 32 → s.dev.cvuBusy n = true → Completes (.cvuFeedStart ag u len) s (fun d =>
          Raises d 0x0D04 ∧ d.regs = s.dev.regs ∧ calm d)) ∧
        (32 ≤ n → Completes (.cvuFeedStart ag u len) s (fun d => d = { s.dev with outs := [] }))) ∧
      (Acts s → s.dev.tileOn (n / 2 / 4) = true → (s.dev.cvu n).feeding = true → Clean s.dev (s.dev.cvu n).addr (s.dev.cvu n).left →
        Completes (.cvuFeedDone u) s (folds (s.dev.cvu n).left)) ∧
      (∀ steps, Reaches s ag ctl → (s.dev.cvu n).feeding = true →
        Clean s.dev (s.dev.cvu n).addr (min (256 * steps) (s.dev.cvu n).left) →
        Completes (.cvuAbort ag u steps) s (folds (min (256 * steps) (s.dev.cvu n).left))) ∧
      (Reaches s ag ctl → s.dev.cvuBusy n = false → Completes (.cvuInit ag u) s (fun d =>
        d.reg (cvuReg n .cvuState .pcvuState) = s.dev.cvuMask n (s.dev.reg (cvuReg n .cvuInit .pcvuInit)) ∧
        d.reg (cvuReg n .cvuPos .pcvuPos) = 0 ∧ d.raised = s.dev.raised ∧ d.cvus = s.dev.cvus ∧ calm d)) ∧
      (Reaches s ag ctl → s.dev.cvuBusy n = true → Completes (.cvuInit ag u) s (fun d =>
        Raises d 0x0D04 ∧ d.regs = s.dev.regs ∧ calm d))) ∧
    (∀ v : Word, HostReaches s ⟨.cgCtr1, []⟩ → Completes (.cgEvaluate v) s (fun d =>
      let o := cgEval ((s.dev.reg ⟨.cgCtr0, []⟩).toNat + v.toNat * 2 ^ 64) (s.dev.reg ⟨.cgKey, []⟩).toNat
      d.reg ⟨.cgCtr1, []⟩ = v ∧ d.reg ⟨.cgOut0, []⟩ = BitVec.ofNat 64 o ∧
      d.reg ⟨.cgOut1, []⟩ = BitVec.ofNat 64 (o / 2 ^ 64) ∧ d.raised = s.dev.raised ∧ Calm s.dev d))

/-- The counter generator on counter 0 and key 0 (R526): the round keys, the words after each round, and the output. -/
def Obligations.GeneratorRounds : Prop :=
  let table : List (List Nat × List Nat) := [
    ([0x0000, 0x0000, 0x0000, 0x0000], [0x0000, 0x0000, 0x0000, 0x0000, 0x0000, 0x0000, 0x0000, 0x0000]),
    ([0x9E37, 0x79B9, 0xBB67, 0xAE85], [0x9E37, 0x0000, 0x79B9, 0x0000, 0xBB67, 0x0000, 0xAE85, 0x0000]),
    ([0x3C6E, 0xF372, 0x76CE, 0x5D0A], [0x57B7, 0x50A1, 0x7663, 0xC01D, 0x1F88, 0xA57B, 0x200F, 0x8011]),
    ([0xDAA5, 0x6D2B, 0x3235, 0x0B8F], [0xE2E0, 0xAC63, 0xBB55, 0x189D, 0x8418, 0xF999, 0xCECE, 0xAAB8]),
    ([0x78DC, 0xE6E4, 0xED9C, 0xBA14], [0x7144, 0xF9B6, 0xA3B2, 0x37A0, 0x68BA, 0x710F, 0xA3EB, 0xA6A8]),
    ([0x1713, 0x609D, 0xA903, 0x6899], [0x7FAF, 0x290F, 0x1D61, 0xD6EC, 0xBAED, 0x0FB6, 0x97B1, 0xEA96]),
    ([0xB54A, 0xDA56, 0x646A, 0x171E], [0x8642, 0x105D, 0x8800, 0x7E45, 0x305D, 0xD8F3, 0x996D, 0xDF3B]),
    ([0x5381, 0x540F, 0x1FD1, 0xC5A3], [0x3B5C, 0xE569, 0x081D, 0x6956, 0x9BAE, 0x1800, 0x708F, 0x594B])]
  (∀ r, r < 8 → ∀ e, table[r]? = some e →
    (∀ j, j < 4 → (r * cgC.getD j 0) % 2 ^ 16 = e.1.getD j 0) ∧ cgRounds 0 (r + 1) 0 (List.replicate 8 0) = e.2) ∧
  cgEval 0 0 = 0x594B708F18009BAE6956081DE5693B5C

/-! ## HBM and Neano -/

/-- HBM transfers (R353 to R355, R358): a sector or a granule is delivered, or poisoned with the event of what the decoder
finds; a write stores its bytes and clears the poison, or poisons its sector and stores nothing; a partial write of a
poisoned sector leaves it as it is. -/
def Obligations.HbmTransfers : Prop :=
  ∀ (a : Nat) (s : State), Acts s → s.dev.hbmOpen a = true → s.dev.hbmHeld a = false →
    let poisoned := NSet.has s.dev.mem.hpoison (a / 64)
    let calm := fun (d : Dev) => d.mem = s.dev.mem ∧ d.cores = s.dev.cores
    (∀ e ∈ ([(fun x => .hbmRead a x, 64), (fun x => .hbmGather a x, 32)] : List ((ReadErr → Instr) × Nat)), a % e.2 = 0 →
      (poisoned = false → Completes (e.1 .clean) s (fun d =>
        d.outs = [.bytes (s.dev.mem.getAll a e.2)] ∧ d.raised = s.dev.raised ∧ calm d)) ∧
      (poisoned = true → Completes (e.1 .clean) s (fun d =>
        d.outs = [.poisoned] ∧ d.raised = s.dev.raised ∧ calm d)) ∧
      (∀ err l b, s.dev.hbmLoc (64 * (a / 64)) = some l → err.syms ≠ [] ∨ err.away ≠ 0 →
        (if err.away = 0 then some (64 * (a / 64)) else s.dev.hbmAway l err.away) = some b →
        let found := hbmFound ((s.dev.hbmTile l.tile).pc l.q).pins (NSet.has s.dev.mem.hpoison (b / 64)) err
        (found = .bad → Completes (e.1 err) s (fun d => d.outs = [.poisoned] ∧ Raises d 0x0A03 ∧ calm d)) ∧
        (found = .poison → Completes (e.1 err) s (fun d => d.outs = [.poisoned] ∧ d.raised = s.dev.raised ∧ calm d)) ∧
        (∀ es, found = .errs es → (∃ x ∈ es, x.1 < 4) → Completes (e.1 err) s (fun d =>
          d.outs = [.poisoned] ∧ Raises d 0x0A02 ∧ calm d)))) ∧
    (∀ bs : List Byte, bs ≠ [] → a % 64 + bs.length ≤ 64 →
      (bs.length = 64 ∨ poisoned = false → Completes (.hbmWrite a bs false .clean) s (fun d =>
        d.mem.getAll a bs.length = bs ∧ KeptOutside s d a bs.length ∧ NSet.has d.mem.hpoison (a / 64) = false ∧
        d.raised = s.dev.raised ∧ d.cores = s.dev.cores)) ∧
      (bs.length < 64 → poisoned = true → Completes (.hbmWrite a bs false .clean) s (fun d =>
        (∀ b, d.mem.get b = s.dev.mem.get b) ∧ NSet.has d.mem.hpoison (a / 64) = true ∧ d.raised = s.dev.raised ∧
        d.cores = s.dev.cores)) ∧
      Completes (.hbmWrite a bs true .clean) s (fun d =>
        (∀ b, d.mem.get b = s.dev.mem.get b) ∧ NSet.has d.mem.hpoison (a / 64) = true ∧ d.raised = s.dev.raised ∧
        d.cores = s.dev.cores))

/-- The code of a sector (R352 to R354, R362): the check symbols make every syndrome of a codeword zero, or those of the poison
pattern. A read of a sound sector whose transfer changes up to two symbols, one once a pin is erased and none outside the
erased positions once two are, delivers the stored bytes; one that arrives from an address that differs in a single bit, with
at most one symbol changed or one pin erased, is reported as HBM_ADDR_MISMATCH and delivers poison. -/
def Obligations.SectorCode : Prop :=
  (∀ (w : BitVec 32) (bs : List Byte), bs.length = 64 →
    rsSyn (rsCodeword w bs false) = [0, 0, 0, 0] ∧ rsSyn (rsCodeword w bs true) = rsPoison) ∧
  (∀ (a : Nat) (l : HbmLoc) (err : ReadErr) (s : State), Acts s → s.dev.hbmOpen a = true → s.dev.hbmHeld a = false →
    a % 64 = 0 → s.dev.hbmLoc a = some l → (err.syms.map Prod.fst).Nodup → (∀ e ∈ err.syms, e.2 ≠ 0) →
    let pins := ((s.dev.hbmTile l.tile).pc l.q).pins
    let more := (err.syms.filter (fun e => !pins.contains (symPin e.1.val))).length
    (∀ p ∈ pins, p < 32) →
    (err.away = 0 → NSet.has s.dev.mem.hpoison (a / 64) = false → more ≤ 2 - pins.length →
      Completes (.hbmRead a err) s (fun d =>
        d.outs = [.bytes (s.dev.mem.getAll a 64)] ∧ d.mem = s.dev.mem ∧ d.cores = s.dev.cores)) ∧
    (∀ i, i < 32 → err.away = BitVec.twoPow 32 i → pins.length + more ≤ 1 →
      Completes (.hbmRead a err) s (fun d =>
        d.outs = [.poisoned] ∧ Raises d 0x0A02 ∧ d.mem = s.dev.mem ∧ d.cores = s.dev.cores)))

/-- The upkeep of HBM (R349, R356, R357, R360, R364, R369, R370): the scrubber advances, counts its reads and writes back what it
corrected; a sample selects the thermal state and raises a change; parity errors count toward a retraining; a remedy and a
retraining end. A refresh keeps everything. -/
def Obligations.HbmUpkeep : Prop :=
  ∀ s : State, Acts s →
    let kept := fun (d : Dev) => (∀ b, d.mem.get b = s.dev.mem.get b) ∧ d.cores = s.dev.cores
    Completes .hbmRefresh s (fun d => d = { s.dev with outs := [] }) ∧
    (∀ (t : TileId) (q : Fin 96) (l : Nat), (s.dev.hbmTile t.val).service.findIdx? (fun x => x = q.val) = some l →
      let pos := ((s.dev.hbmTile t.val).pc q.val).scrub
      let a := t.val * hbmTileBytes + (pos / 4 * (s.dev.hbmTile t.val).service.length + l) * 256 + pos % 4 * 64
      let on := (s.dev.hbmCfg t.val).getLsbD 24 = true ∧ s.dev.hbmHeld a = false
      (on → Completes (.hbmPatrolScrub t q .clean) s (fun d =>
        ((d.hbmTile t.val).pc q.val).scrub = (pos + 1) % 18874368 ∧ d.raised = s.dev.raised ∧ kept d)) ∧
      (on → pos < 18874368 → ∀ e, Completes (.hbmPatrolScrub t q e) s (fun d =>
        ((d.hbmTile t.val).pc q.val).scrub = (pos + 1) % 18874368 ∧ d.cores = s.dev.cores ∧
        d.regFld ⟨.hbmPerfRd, [t.val]⟩ 63 0 = min (s.dev.regFld ⟨.hbmPerfRd, [t.val]⟩ 63 0 + 1) (2 ^ 64 - 1) ∧
        d.regFld ⟨.hbmPerfWr, [t.val]⟩ 63 0 = min (s.dev.regFld ⟨.hbmPerfWr, [t.val]⟩ 63 0 +
          (if (s.dev.hbmDecode a e).1.fixed = true then 1 else 0)) (2 ^ 64 - 1))) ∧
      (¬on → ∀ e, Completes (.hbmPatrolScrub t q e) s (fun d => d = { s.dev with outs := [] }))) ∧
    (∀ (t : TileId) (k : Fin 3) (temp : Int),
      let x := (s.dev.hbmTile t.val).stack k.val
      let st := thermNext x.st temp
      Completes (.hbmTempSample t k temp) s (fun d =>
        let y := (d.hbmTile t.val).stack k.val
        y.temp = temp ∧ y.st = st ∧ y.peak = some (match x.peak with | none => temp | some p => max p temp) ∧ y.edge = x.edge ∧
        (st = x.st → d.raised = s.dev.raised) ∧ (st ≠ x.st → Raises d 0x0A04 ∧ y.tempo = s.dev.tempo % 2 ^ 32) ∧
        (st ≠ x.st → st = 3 → Raises d 0x0A05) ∧ (st ≠ x.st → st = 4 → Raises d 0x0A06) ∧
        (∀ j, j ≠ k.val → (d.hbmTile t.val).stack j = (s.dev.hbmTile t.val).stack j) ∧ d.regs = s.dev.regs ∧ kept d)) ∧
    (∀ (t : TileId) (q : Fin 96),
      let x := (s.dev.hbmTile t.val).pc q.val
      s.dev.lost (4 + t.val) = false → Completes (.hbmCaParityError t q) s (fun d =>
        ((d.hbmTile t.val).pc q.val).ifErr = x.ifErr + 1 ∧ Raises d 0x0A0C ∧
        d.regFld ⟨.hbmErrLog, [t.val]⟩ 2 0 = 4 ∧ d.regFld ⟨.hbmErrLog, [t.val]⟩ 9 3 = q.val ∧
        (x.ifErr = 3 →
          let h := s.dev.hbmTile t.val
          let again := (h.pc (q.val / 2 * 2)).ifPrev || (h.pc (q.val / 2 * 2 + 1)).ifPrev
          (again = false → FMap.find? (d.hbmTile t.val).retrain (q.val / 2) =
            some ((FMap.find? h.retrain (q.val / 2)).getD .reported)) ∧
          (again = true → FMap.find? (d.hbmTile t.val).failed (q.val / 2) =
            some ((FMap.find? h.failed (q.val / 2)).getD (s.dev.dueOf (s.dev.tilePart t.val))))) ∧ kept d)) ∧
    (∀ (t : TileId) (f : HbmFix) (rest : List HbmFix), s.dev.lost (4 + t.val) = false → (s.dev.hbmTile t.val).fixes = f :: rest →
      Completes (.hbmRemedyDone t []) s (fun d =>
        (d.hbmTile t.val).fixes = rest ∧ ((d.hbmTile t.val).row f.key).fixing = false ∧ ((d.hbmTile t.val).row f.key).ce = 0 ∧
        (f.pool = false → ((d.hbmTile t.val).pc (f.key / 24576 / 48)).ppr =
          min (((s.dev.hbmTile t.val).pc (f.key / 24576 / 48)).ppr + 1) 15) ∧
        (∀ x ∈ d.faults, .row t.val f.key ∉ x.remedies) ∧ Raises d 0x0A09 ∧ kept d)) ∧
    (∀ (t : TileId) (ch : Fin 48), s.dev.lost (4 + t.val) = false → ch.val ∈ (s.dev.hbmTile t.val).running →
      Completes (.hbmRetrainDone t ch true) s (fun d =>
        ch.val ∉ (d.hbmTile t.val).running ∧ (∀ x ∈ d.faults, .retrain t.val ch.val ∉ x.remedies) ∧
        (d.hbmTile t.val).failed = (s.dev.hbmTile t.val).failed ∧ d.regs = s.dev.regs ∧ kept d) ∧
      Completes (.hbmRetrainDone t ch false) s (fun d =>
        ch.val ∉ (d.hbmTile t.val).running ∧ FMap.find? (d.hbmTile t.val).failed ch.val = some (s.dev.dueOf (s.dev.tilePart t.val)) ∧
        d.regs = s.dev.regs ∧ kept d))

/-- Neano's contexts (R382, R386, R387, R392, R395, R400, R406): each gradient of a group enters the rule with the committed
words, and its result stands in the slot being built, unless a lost unit holds the update; imports, their commit, RESUME;
RELEASE, which sends the partner word to zero the mirror (its packet is the model's choice, log entry 126); repairs of lost
units, with the fall back to the previous ring that the partner mirrors. What a kernel reads before writing it is a free
value of its operands (log entry 21). -/
def Obligations.NeanoContexts : Prop :=
  ∀ (c : CtxId) (s : State),
    let x := s.dev.ctx c.val
    let others := fun (d : Dev) => (∀ j, j ≠ c.val → d.ctx j = s.dev.ctx j) ∧ d.cores = s.dev.cores
    let calm := fun (d : Dev) => others d ∧ d.mem = s.dev.mem ∧ ∀ r : Reg, d.reg r = s.dev.reg r
    (∀ (g : Fin 256) (sg : NeaGroup) (k0 k n : Nat) (y : NeaCtx), Acts s → s.dev.lost 32 = false → x.st = .active →
      s.dev.ctxFb c.val = false → FMap.find? x.groups g.val = some sg → sg.freeze = false → x.find .committed = some k0 →
      x.step = some n → x.build false (n + 1) = (some k, y) →
      let mine := x.pend.flatMap (fun p => p.within sg.base (sg.base + sg.count))
      mine ≠ [] → (mine.map Prod.fst).Nodup → s.dev.updateHeld c.val k0 (mine.map Prod.fst) = false →
      Completes (.neanoGroupUpdate c g []) s (fun d =>
        let z := (d.ctx c.val).slot k
        let res := fun (e : Nat × Lane) => neaRule sg (FMap.getD (x.slot k0).w e.1 0) (FMap.getD (x.slot k0).a e.1 0) e.2
        z.st = .building ∧ (∀ e ∈ mine, FMap.getD z.w e.1 0 = (res e).w ∧ FMap.getD z.a e.1 0 = (res e).a) ∧
        (∀ i, (∀ e ∈ mine, e.1 ≠ i) → FMap.getD z.w i 0 = FMap.getD (y.slot k).w i 0 ∧
          FMap.getD z.a i 0 = FMap.getD (y.slot k).a i 0) ∧
        (∀ j, j ≠ k → (d.ctx c.val).slot j = x.slot j) ∧
        ((∃ e ∈ mine, (res e).copied = true) → NSet.has x.nonfinite g.val = false → Raises d 0x0B07) ∧
        others d ∧ d.mem = s.dev.mem)) ∧
    (Acts s → s.dev.lost 32 = false → ∀ l, x.lost.find? (fun l => !l.dead) = some l →
      ((x.slot l.slot).st = .committed → x.ring = some x.mirror → Completes (.neaUnitRepairDone c) s (fun d =>
        d.ctx c.val = { x with lost := x.lost.filter (fun y => y ≠ l) } ∧ d.raised = s.dev.raised ∧ calm d)) ∧
      ((x.slot l.slot).st = .committed → x.ring ≠ some x.mirror → x.find .previous = none →
        Completes (.neaUnitRepairDone c) s (fun d =>
          (d.ctx c.val).st = .halted ∧ Raises d 0x0B0E ∧ (d.ctx c.val).step = none ∧ calm d)) ∧
      (∀ k, (x.slot l.slot).st = .committed → x.ring ≠ some x.mirror → x.find .previous = some k →
        (x.slot k).ring = x.mirror → s.dev.ctxFb c.val = false → k ≠ l.slot → Completes (.neaUnitRepairDone c) s (fun d =>
          (d.ctx c.val).st = .halted ∧ ((d.ctx c.val).slot k).st = .committed ∧
          ((d.ctx c.val).slot k).ring = x.mirror ∧ (∀ z ∈ (d.ctx c.val).lost, z.slot ≠ k ∧ z.slot ≠ l.slot) ∧
          Raises d 0x0B0D ∧ calm d)) ∧
      ((x.slot l.slot).st = .previous → (x.slot l.slot).ring ≠ x.mirror → Completes (.neaUnitRepairDone c) s (fun d =>
        ((d.ctx c.val).slot l.slot).valid = false ∧ (d.ctx c.val).st = x.st ∧ d.raised = s.dev.raised ∧ calm d))) ∧
    (HostReaches s ⟨.neaCtxCtrl, [c.val]⟩ →
      let q := (s.dev.reg ⟨.neaCtxArea, [c.val]⟩).toNat
      (∀ b, x.st = .free → areaValid q = true → areaGib q ≤ s.dev.freeGib → s.dev.ctxFb c.val = false →
        s.dev.placeArea (areaGib q) = some b → Completes (.neaImport c) s (fun d =>
          (d.ctx c.val).st = .importing ∧ (d.ctx c.val).q = q ∧ (d.ctx c.val).base = b ∧
          ((d.ctx c.val).slot 0).st = .import_ ∧ calm d)) ∧
      (∀ k, x.st = .active ∨ x.st = .suspended ∨ x.st = .halted ∨ x.st = .importing → x.spare (s.dev.ctxFb c.val) = some k →
        x.find .import_ = none → Completes (.neaImport c) s (fun d =>
          ((d.ctx c.val).slot k).st = .import_ ∧
          (d.ctx c.val).st = (if x.st = .suspended then .importing else x.st) ∧
          (∀ j, j ≠ k → (d.ctx c.val).slot j = x.slot j) ∧ calm d)) ∧
      (∀ k, x.find .import_ = some k →
        let r := (s.dev.reg ⟨.neaCtxImportRing, [c.val]⟩).toNat
        ((∀ n, x.ring = some n → n < r) → Completes (.neaCommitImport c) s (fun d =>
          ((d.ctx c.val).slot k).st = .committed ∧ ((d.ctx c.val).slot k).ring = r ∧
          (x.held = [] → (d.ctx c.val).st = (if x.st = .importing then (if (s.dev.ctxPart c.val).isSome then .active else .suspended)
            else x.st)) ∧ others d)) ∧
        (∀ n, x.ring = some n → r ≤ n → Completes (.neaCommitImport c) s (fun d =>
          Raises d 0x0B09 ∧ (d.ctx c.val).slots = x.slots ∧ (d.ctx c.val).st = x.st ∧ calm d))) ∧
      (x.st = .halted → Completes (.neaResume c) s (fun d =>
        d.ctx c.val = { x with st := .active, latch := .schedule, step := none } ∧ d.raised = s.dev.raised ∧ calm d)) ∧
      (x.st = .suspended ∨ x.st = .halted → Completes (.neaRelease c) s (fun d =>
        (d.ctx c.val).st = .releasing ∧ (d.ctx c.val).slots = x.slots ∧ (d.ctx c.val).sending = none ∧
        Queued d { dst := s.dev.regFld ⟨.neaMirrorCfg, []⟩ 17 0, src := 0, addr := 2 ^ 45 * c.val + 16 * (2 ^ 41 - 1) + 1
                   vc := 2, type := 0x12, len := 0, spart := (s.dev.ctxPart c.val).getD 0 } ∧ calm d))) ∧
    (Acts s → s.dev.lost 32 = false → x.st = .releasing → Completes (.neaReleaseDone c) s (fun d =>
      d.ctx c.val = { event := x.event, flags := x.flags } ∧ d.ctxPart c.val = none ∧ d.raised = s.dev.raised ∧ others d ∧
      d.mem = s.dev.mem))

/-- The slow tier (R374, R377, R380, R398, R399, R401, R402, R405): windows, mirrors, packages. -/
def Obligations.SlowTier : Prop :=
  ∀ s : State, Acts s →
    (∀ (w : Option PartId) (a : Nat) (es : ReadErrs), s.dev.lost 32 = false →
      let who := w.map Fin.val
      (∀ n, (∀ i, i < n → ∃ p, s.dev.slowAt who (a + i) = some p ∧ s.dev.unitLost p.1 p.2.1 (p.2.2 / 4096) = false) →
        Completes (.slowWindowAccess w a n none []) s (fun d =>
          d = { s.dev with outs := [.bytes ((upTo n).filterMap (fun i =>
            (s.dev.slowAt who (a + i)).map (fun p => (s.dev.slowByte p).1)))] })) ∧
      (∀ n i, i < n → s.dev.slowAt who (a + i) = none → Completes (.slowWindowAccess w a n none []) s (fun d =>
        d = { s.dev with outs := [.busError] })) ∧
      (∀ bs n, a % 4096 ≠ 0 ∨ bs.length % 4096 ≠ 0 ∨ bs = [] → Completes (.slowWindowAccess w a n (some bs) es) s (fun d =>
        d = { s.dev with outs := [.busError] })) ∧
      (∀ bs n p e, a % 4096 = 0 → bs.length % 4096 = 0 → bs ≠ [] → s.dev.slowAt who a = some p →
        s.dev.slowAt who (a + bs.length - 1) = some e → p.1 = e.1 → 0x1000000000 ≤ (a - 0x10000000000) % 0x2000000000 →
        Completes (.slowWindowAccess w a n (some bs) es) s (fun d =>
          (∀ i, i < bs.length →
            ((d.ctx p.1).slot p.2.1).byte (s.dev.ctx p.1).q (p.2.2 + i) = bs.getD i 0) ∧
          (∀ j, j ≠ p.2.1 → (d.ctx p.1).slot j = (s.dev.ctx p.1).slot j) ∧ (∀ j, j ≠ p.1 → d.ctx j = s.dev.ctx j) ∧
          d.outs = [] ∧ d.mem = s.dev.mem ∧ d.regs = s.dev.regs ∧ d.cores = s.dev.cores))) ∧
    (∀ (m : MirrorPkt) (cur : MirrorCopy),
      let r := FMap.getD s.dev.mirrors m.ctx.val {}
      (r.recv = some cur ∧ cur.dev = m.dev ∧ cur.ring = m.ring ∧ cur.bad = false) ∨
        (r.recv = none ∧ cur = ⟨m.dev, m.ring, m.total, [], false⟩) →
      m.act = .unit → m.total * 4096 ≤ s.dev.regionBytes / 2 → m.unit < m.total →
      let now := fun (d : Dev) => FMap.getD d.mirrors m.ctx.val {}
      (crc32c (m.bytes.map BitVec.toNat) = m.check → Completes (.mirrorReceive m) s (fun d =>
        (now d).recv = some { cur with units := FMap.insert cur.units m.unit m.bytes } ∧ (now d).held = r.held ∧
        d.nea = s.dev.nea ∧ d.raised = s.dev.raised ∧ Calm s.dev d)) ∧
      (crc32c (m.bytes.map BitVec.toNat) ≠ m.check → Completes (.mirrorReceive m) s (fun d =>
        (now d).recv = some { cur with units := [], bad := true } ∧ (now d).held = r.held ∧ d.nea = s.dev.nea ∧
        Raises d 0x0B0C ∧ Calm s.dev d))) ∧
    (∀ (c : CtxId) (ring : Nat), (s.dev.ctx c.val).sending = some ring →
      Completes (.mirrorAckReceive c ring true) s (fun d =>
        (d.ctx c.val).sending = none ∧ (d.ctx c.val).mirror = ring ∧ Raises d 0x0B0A ∧ Calm s.dev d) ∧
      Completes (.mirrorAckReceive c ring false) s (fun d =>
        (d.ctx c.val).sending = none ∧ (d.ctx c.val).mirror = (s.dev.ctx c.val).mirror ∧ Raises d 0x0B0C ∧
        Calm s.dev d)) ∧
    (∀ k : Fin 10,
      let x := s.dev.pkg k.val
      (∀ temp, Completes (.slowTierRefresh k temp) s (fun d =>
        d.pkg k.val = { x with temp := temp } ∧ (∀ j, j ≠ k.val → d.pkg j = s.dev.pkg j) ∧ d.regs = s.dev.regs ∧
        d.nea = s.dev.nea ∧ d.raised = s.dev.raised ∧ Calm s.dev d)) ∧
      let target := (upTo 10).find? (fun j => (s.dev.pkg j).st = .target ∧ (s.dev.pkg j).src = k.val)
      (∀ t, x.st = .service ∨ x.st = .failing → x.logical ≠ 0xF → target.orElse (fun _ => s.dev.pkgSpares.head?) = some t →
        Completes (.neaPkgFail k) s (fun d =>
        (d.pkg k.val).st = .failed ∧ (d.pkg k.val).logical = 0xF ∧ (d.pkg t).st = .service ∧
        (d.pkg t).logical = x.logical ∧ (d.pkg t).rebuild = true ∧ d.slowK = s.dev.slowK ∧ Raises d 0x0B03 ∧
        d.mem = s.dev.mem ∧ d.cores = s.dev.cores)) ∧
      (x.st = .service ∨ x.st = .failing → x.logical ≠ 0xF → target = none → s.dev.pkgSpares = [] → Completes (.neaPkgFail k) s (fun d =>
        (d.pkg k.val).st = .failed ∧ Raises d 0x0B03 ∧ Raises d 0x0B05 ∧ d.mirrors = [] ∧
        d.slowK = ((upTo 10).filter (fun j => j ≠ k.val ∧ (s.dev.pkg j).logical ≠ 0xF)).length ∧ d.mem = s.dev.mem ∧
        d.cores = s.dev.cores))) ∧
    (∀ t, s.dev.lost 32 = false → (upTo 10).find? (fun j => (s.dev.pkg j).st = .target ∧ (s.dev.pkg j).copied = .no) = some t →
      Completes .neaPkgCopyDone s (fun d =>
        d.pkg t = { s.dev.pkg t with copied := .reported } ∧ (∀ j, j ≠ t → d.pkg j = s.dev.pkg j) ∧ d.raised = s.dev.raised ∧
        Calm s.dev d)) ∧
    (∀ t, s.dev.lost 32 = false → (upTo 10).find? (fun j => (s.dev.pkg j).rebuild) = some t → Completes .neaRebuildDone s (fun d =>
      d.pkg t = { s.dev.pkg t with rebuild := false } ∧ (∀ j, j ≠ t → d.pkg j = s.dev.pkg j) ∧ Raises d 0x0B04 ∧
      Calm s.dev d))
end

