-- ==== Sys2Proof/Laws/Dispatch.lean ====
section
/-! SUPPORT. Laws of the dispatch: what each command runs, as the shared operations of Ops run it; one lemma a row. -/
namespace Sys2Proof.Machine

open Safety

/-- TEMPO_SEAL. -/
theorem exec_tempoSeal (m : Measure) (s : State) :
    exec (.tempoSeal m) s =
      run s (fun d => (d.tempoSeal m).settle) := rfl

/-- DEADLINE_SAMPLE. -/
theorem exec_deadlineSample (s : State) :
    exec (.deadlineSample) s =
      run s (fun d => (d.deadlineSample).settle) := rfl

/-- TEMPO_EDGE. -/
theorem exec_tempoEdge (s : State) :
    exec (.tempoEdge) s =
      run s (fun d => (d.tempoEdge).settle) := rfl

/-- STALLED_WRITES_LAND. -/
theorem exec_stalledWritesLand (s : State) :
    exec (.stalledWritesLand) s =
      run s (fun d => (d.stalledLand).settle) := rfl

/-- TEMPO_WAIT_RELEASE. -/
theorem exec_tempoWaitRelease (c : CoreId) (s : State) :
    exec (.tempoWaitRelease c) s =
      run s (fun d => if d.tileOn (tileOf c.val) = true then (d.tempoWaitRelease c.val).settle else d) := rfl

/-- SYNC_RECEIVE. -/
theorem exec_syncReceive (q : PortId) (msg : SyncMsg) (s : State) :
    exec (.syncReceive q msg) s =
      run s (fun d => (d.syncReceive q.val msg).settle) := rfl

/-- DELAY_REQ_RECEIVE. -/
theorem exec_delayReqReceive (q : PortId) (t1 : Nat) (t2 : Nat) (t3 : Nat) (s : State) :
    exec (.delayReqReceive q t1 t2 t3) s =
      run s (fun d => (d.delayReq q.val t1 t2 t3).settle) := rfl

/-- DELAY_RESP_RECEIVE. -/
theorem exec_delayRespReceive (q : PortId) (t1 : Int) (t2 : Int) (t3 : Int) (t4 : Int) (s : State) :
    exec (.delayRespReceive q t1 t2 t3 t4) s =
      run s (fun d => (d.delayResp q.val t1 t2 t3 t4).settle) := rfl

/-- ANNOUNCE_SEND. -/
theorem exec_announceSend (s : State) :
    exec (.announceSend) s =
      run s (fun d => (d.announceSend).settle) := rfl

/-- ANNOUNCE_RECEIVE. -/
theorem exec_announceReceive (q : PortId) (prio : Fin 256) (dev : Fin 262144) (s : State) :
    exec (.announceReceive q prio dev) s =
      run s (fun d => (d.announceReceive q.val prio.val dev.val).settle) := rfl

/-- KING_ELECTION_WIN. -/
theorem exec_kingElectionWin (s : State) :
    exec (.kingElectionWin) s =
      run s (fun d => (d.electionWin).settle) := rfl

/-- ACQ_FINE_REACHED. -/
theorem exec_acqFineReached (s : State) :
    exec (.acqFineReached) s =
      run s (fun d => (d.acqFine).settle) := rfl

/-- ACQ_LOCKED_REACHED. -/
theorem exec_acqLockedReached (s : State) :
    exec (.acqLockedReached) s =
      run s (fun d => (d.acqLocked).settle) := rfl

/-- ALIGN_LOST. -/
theorem exec_alignLost (s : State) :
    exec (.alignLost) s =
      run s (fun d => (d.alignLost).settle) := rfl

/-- HOLDOVER_ENTRY. -/
theorem exec_holdoverEntry (s : State) :
    exec (.holdoverEntry) s =
      run s (fun d => (d.holdoverEntry).settle) := rfl

/-- MASTER_LOST. -/
theorem exec_masterLost (s : State) :
    exec (.masterLost) s =
      run s (fun d => (d.masterLost).settle) := rfl

/-- FAILOVER. -/
theorem exec_failover (s : State) :
    exec (.failover) s =
      run s (fun d => (d.failover).settle) := rfl

/-- HOLDOVER_ANNOUNCE_RESUME. -/
theorem exec_holdoverAnnounceResume (s : State) :
    exec (.holdoverAnnounceResume) s =
      run s (fun d => (d.announceResume).settle) := rfl

/-- PERIOD_CHANGE. -/
theorem exec_periodChange (s : State) :
    exec (.periodChange) s =
      run s (fun d => (d.periodChange).settle) := rfl

/-- RWT_WRITE. -/
theorem exec_rwtWrite (ag : Agent) (a : Nat) (n : Nat) (v : Word) (s : State) :
    exec (.rwtWrite ag a n v) s =
      run s (fun d => (d.rwtBusWrite ag a n v).settle) := rfl

/-- STAGE_DISCARD. -/
theorem exec_stageDiscard (k : Fin 5) (s : State) :
    exec (.stageDiscard k) s =
      run s (fun d => (d.ctrlWrite .host ⟨.tmpStageCtrl, [k.val]⟩ 1).settle) := rfl

/-- REGISTER_WRITE. -/
theorem exec_registerWrite (ag : Agent) (a : Nat) (n : Nat) (v : Word) (s : State) :
    exec (.registerWrite ag a n v) s =
      run s (fun d => (d.registerWrite ag a n v).settle) := rfl

/-- ME_LOAD. -/
theorem exec_meLoad (c : CoreId) (i : IWord) (ph : Phase) (s : State) :
    exec (.meLoad c i ph) s =
      run s (fun d => if d.tileOn (tileOf c.val) = true then (d.meLoad c.val i ph).settle else d) := rfl

/-- ME_STREAM. -/
theorem exec_meStream (c : CoreId) (i : IWord) (ph : Phase) (s : State) :
    exec (.meStream c i ph) s =
      run s (fun d => if d.tileOn (tileOf c.val) = true then (d.meStream c.val i ph).settle else d) := rfl

/-- ME_STREAM_ROW_UPDATE. -/
theorem exec_meStreamRowUpdate (c : CoreId) (mismatch : Option (Fin 17)) (s : State) :
    exec (.meStreamRowUpdate c mismatch) s =
      run s (fun d => if d.tileOn (tileOf c.val) = true then (d.meRowUpdate c.val (mismatch.map Fin.val)).settle else d) := rfl

/-- ME_DRAIN. -/
theorem exec_meDrain (c : CoreId) (i : IWord) (ph : Phase) (s : State) :
    exec (.meDrain c i ph) s =
      run s (fun d => if d.tileOn (tileOf c.val) = true then (d.meDrain c.val i ph).settle else d) := rfl

/-- ME_DRAIN_ROW_WRITE. -/
theorem exec_meDrainRowWrite (c : CoreId) (s : State) :
    exec (.meDrainRowWrite c) s =
      run s (fun d => if d.tileOn (tileOf c.val) = true then (d.meRowWrite c.val).settle else d) := rfl

/-- ME_ADDW. -/
theorem exec_meAddw (c : CoreId) (i : IWord) (ph : Phase) (s : State) :
    exec (.meAddw c i ph) s =
      run s (fun d => if d.tileOn (tileOf c.val) = true then (d.meAddw c.val i ph).settle else d) := rfl

/-- ME_CLEAR. -/
theorem exec_meClear (c : CoreId) (i : IWord) (ph : Phase) (s : State) :
    exec (.meClear c i ph) s =
      run s (fun d => if d.tileOn (tileOf c.val) = true then (d.meClear c.val i ph).settle else d) := rfl

/-- ME_RESUME. -/
theorem exec_meResume (ag : Agent) (c : CoreId) (s : State) :
    exec (.meResume ag c) s =
      run s (fun d => (d.ctrlWrite ag ⟨.meCtrl, [c.val]⟩ 1).settle) := rfl

/-- ME_FLUSH. -/
theorem exec_meFlush (ag : Agent) (c : CoreId) (s : State) :
    exec (.meFlush ag c) s =
      run s (fun d => (d.ctrlWrite ag ⟨.meCtrl, [c.val]⟩ 2).settle) := rfl

/-- ME_COL_TEST. -/
theorem exec_meColTest (ag : Agent) (c : CoreId) (s : State) :
    exec (.meColTest ag c) s =
      run s (fun d => (d.ctrlWrite ag ⟨.meCtrl, [c.val]⟩ 4).settle) := rfl

/-- ME_COL_TEST_DONE. -/
theorem exec_meColTestDone (k : Fin 448) (fail : Option (Fin 17)) (s : State) :
    exec (.meColTestDone k fail) s =
      run s (fun d => (d.meColTestDone k.val (fail.map Fin.val)).settle) := rfl

/-- FADD. -/
theorem exec_fadd (c : CoreId) (i : IWord) (ph : Phase) (s : State) :
    exec (.fadd c i ph) s =
      run s (fun d => if d.tileOn (tileOf c.val) = true then (d.veLanes c.val 0x00 i ph false none (fun a b _ => fadd a b)).settle else d) := rfl

/-- FSUB. -/
theorem exec_fsub (c : CoreId) (i : IWord) (ph : Phase) (s : State) :
    exec (.fsub c i ph) s =
      run s (fun d => if d.tileOn (tileOf c.val) = true then (d.veLanes c.val 0x01 i ph false none (fun a b _ => fsub a b)).settle else d) := rfl

/-- FMUL. -/
theorem exec_fmul (c : CoreId) (i : IWord) (ph : Phase) (s : State) :
    exec (.fmul c i ph) s =
      run s (fun d => if d.tileOn (tileOf c.val) = true then (d.veLanes c.val 0x02 i ph false none (fun a b _ => fmul a b)).settle else d) := rfl

/-- FMA. -/
theorem exec_fma (c : CoreId) (i : IWord) (ph : Phase) (s : State) :
    exec (.fma c i ph) s =
      run s (fun d => if d.tileOn (tileOf c.val) = true then (d.veLanes c.val 0x03 i ph false none (fun a b e => ffma a b e)).settle else d) := rfl

/-- FMAX. -/
theorem exec_fmax (c : CoreId) (i : IWord) (ph : Phase) (s : State) :
    exec (.fmax c i ph) s =
      run s (fun d => if d.tileOn (tileOf c.val) = true then (d.veLanes c.val 0x04 i ph false none (fun a b _ => fmax a b)).settle else d) := rfl

/-- FMIN. -/
theorem exec_fmin (c : CoreId) (i : IWord) (ph : Phase) (s : State) :
    exec (.fmin c i ph) s =
      run s (fun d => if d.tileOn (tileOf c.val) = true then (d.veLanes c.val 0x05 i ph false none (fun a b _ => fmin a b)).settle else d) := rfl

/-- FCMP. -/
theorem exec_fcmp (c : CoreId) (i : IWord) (ph : Phase) (s : State) :
    exec (.fcmp c i ph) s =
      run s (fun d => if d.tileOn (tileOf c.val) = true then (d.veLanes c.val 0x06 i ph true (condCheck i) (fun a b _ => fcmp (i.f 22 20) a b)).settle else d) := rfl

/-- FABS. -/
theorem exec_fabs (c : CoreId) (i : IWord) (ph : Phase) (s : State) :
    exec (.fabs c i ph) s =
      run s (fun d => if d.tileOn (tileOf c.val) = true then (d.veLanes c.val 0x07 i ph false none (fun a _ _ => signOp fabs a)).settle else d) := rfl

/-- FNEG. -/
theorem exec_fneg (c : CoreId) (i : IWord) (ph : Phase) (s : State) :
    exec (.fneg c i ph) s =
      run s (fun d => if d.tileOn (tileOf c.val) = true then (d.veLanes c.val 0x08 i ph false none (fun a _ _ => signOp fneg a)).settle else d) := rfl

/-- SEL. -/
theorem exec_sel (c : CoreId) (i : IWord) (ph : Phase) (s : State) :
    exec (.sel c i ph) s =
      run s (fun d => if d.tileOn (tileOf c.val) = true then (d.veLanes c.val 0x09 i ph false none (fun a b e => (if e ≠ 0 then a else b, 0))).settle else d) := rfl

/-- IADD. -/
theorem exec_iadd (c : CoreId) (i : IWord) (ph : Phase) (s : State) :
    exec (.iadd c i ph) s =
      run s (fun d => if d.tileOn (tileOf c.val) = true then (d.veLanes c.val 0x10 i ph false none (fun a b _ => noFlag (fun x y => x + y) a b)).settle else d) := rfl

/-- ISUB. -/
theorem exec_isub (c : CoreId) (i : IWord) (ph : Phase) (s : State) :
    exec (.isub c i ph) s =
      run s (fun d => if d.tileOn (tileOf c.val) = true then (d.veLanes c.val 0x11 i ph false none (fun a b _ => noFlag (fun x y => x - y) a b)).settle else d) := rfl

/-- IMUL. -/
theorem exec_imul (c : CoreId) (i : IWord) (ph : Phase) (s : State) :
    exec (.imul c i ph) s =
      run s (fun d => if d.tileOn (tileOf c.val) = true then (d.veLanes c.val 0x12 i ph false none (fun a b _ => noFlag (fun x y => x * y) a b)).settle else d) := rfl

/-- VE_SLL. -/
theorem exec_veSll (c : CoreId) (i : IWord) (ph : Phase) (s : State) :
    exec (.veSll c i ph) s =
      run s (fun d => if d.tileOn (tileOf c.val) = true then (d.veLanes c.val 0x13 i ph false none (fun a b _ => noFlag laneSll a b)).settle else d) := rfl

/-- VE_SRL. -/
theorem exec_veSrl (c : CoreId) (i : IWord) (ph : Phase) (s : State) :
    exec (.veSrl c i ph) s =
      run s (fun d => if d.tileOn (tileOf c.val) = true then (d.veLanes c.val 0x14 i ph false none (fun a b _ => noFlag laneSrl a b)).settle else d) := rfl

/-- VE_SRA. -/
theorem exec_veSra (c : CoreId) (i : IWord) (ph : Phase) (s : State) :
    exec (.veSra c i ph) s =
      run s (fun d => if d.tileOn (tileOf c.val) = true then (d.veLanes c.val 0x15 i ph false none (fun a b _ => noFlag laneSra a b)).settle else d) := rfl

/-- VE_AND. -/
theorem exec_veAnd (c : CoreId) (i : IWord) (ph : Phase) (s : State) :
    exec (.veAnd c i ph) s =
      run s (fun d => if d.tileOn (tileOf c.val) = true then (d.veLanes c.val 0x16 i ph false none (fun a b _ => noFlag (fun x y => x &&& y) a b)).settle else d) := rfl

/-- VE_OR. -/
theorem exec_veOr (c : CoreId) (i : IWord) (ph : Phase) (s : State) :
    exec (.veOr c i ph) s =
      run s (fun d => if d.tileOn (tileOf c.val) = true then (d.veLanes c.val 0x17 i ph false none (fun a b _ => noFlag (fun x y => x ||| y) a b)).settle else d) := rfl

/-- VE_XOR. -/
theorem exec_veXor (c : CoreId) (i : IWord) (ph : Phase) (s : State) :
    exec (.veXor c i ph) s =
      run s (fun d => if d.tileOn (tileOf c.val) = true then (d.veLanes c.val 0x18 i ph false none (fun a b _ => noFlag (fun x y => x ^^^ y) a b)).settle else d) := rfl

/-- ICMP. -/
theorem exec_icmp (c : CoreId) (i : IWord) (ph : Phase) (s : State) :
    exec (.icmp c i ph) s =
      run s (fun d => if d.tileOn (tileOf c.val) = true then (d.veLanes c.val 0x19 i ph true (condCheck i) (fun a b _ => noFlag (icmp (i.f 22 20)) a b)).settle else d) := rfl

/-- PERM. -/
theorem exec_perm (c : CoreId) (i : IWord) (ph : Phase) (s : State) :
    exec (.perm c i ph) s =
      run s (fun d => if d.tileOn (tileOf c.val) = true then (d.veMove c.val 0x20 i ph 0 none permLanes).settle else d) := rfl

/-- BCAST. -/
theorem exec_bcast (c : CoreId) (i : IWord) (ph : Phase) (s : State) :
    exec (.bcast c i ph) s =
      run s (fun d => if d.tileOn (tileOf c.val) = true then (d.veMove c.val 0x21 i ph 0xFF none (fun a _ => List.replicate 256 (a.lane (i.f 15 8)))).settle else d) := rfl

/-- LSHIFT. -/
theorem exec_lshift (c : CoreId) (i : IWord) (ph : Phase) (s : State) :
    exec (.lshift c i ph) s =
      run s (fun d => if d.tileOn (tileOf c.val) = true then (d.veMove c.val 0x22 i ph 0xFFF (lshiftCheck i) (fun a _ => shiftLanes (sext 12 (i.f 19 8)) a)).settle else d) := rfl

/-- EXP. -/
theorem exec_exp (c : CoreId) (i : IWord) (ph : Phase) (s : State) :
    exec (.exp c i ph) s =
      run s (fun d => if d.tileOn (tileOf c.val) = true then (d.veLanes c.val 0x28 i ph false none (fun a _ _ => fnLane .exp a)).settle else d) := rfl

/-- EXP2. -/
theorem exec_exp2 (c : CoreId) (i : IWord) (ph : Phase) (s : State) :
    exec (.exp2 c i ph) s =
      run s (fun d => if d.tileOn (tileOf c.val) = true then (d.veLanes c.val 0x29 i ph false none (fun a _ _ => fnLane .exp2 a)).settle else d) := rfl

/-- LOG. -/
theorem exec_log (c : CoreId) (i : IWord) (ph : Phase) (s : State) :
    exec (.log c i ph) s =
      run s (fun d => if d.tileOn (tileOf c.val) = true then (d.veLanes c.val 0x2A i ph false none (fun a _ _ => fnLane .log a)).settle else d) := rfl

/-- LOG2. -/
theorem exec_log2 (c : CoreId) (i : IWord) (ph : Phase) (s : State) :
    exec (.log2 c i ph) s =
      run s (fun d => if d.tileOn (tileOf c.val) = true then (d.veLanes c.val 0x2B i ph false none (fun a _ _ => fnLane .log2 a)).settle else d) := rfl

/-- RCP. -/
theorem exec_rcp (c : CoreId) (i : IWord) (ph : Phase) (s : State) :
    exec (.rcp c i ph) s =
      run s (fun d => if d.tileOn (tileOf c.val) = true then (d.veLanes c.val 0x2C i ph false none (fun a _ _ => fnLane .rcp a)).settle else d) := rfl

/-- RSQRT. -/
theorem exec_rsqrt (c : CoreId) (i : IWord) (ph : Phase) (s : State) :
    exec (.rsqrt c i ph) s =
      run s (fun d => if d.tileOn (tileOf c.val) = true then (d.veLanes c.val 0x2D i ph false none (fun a _ _ => fnLane .rsqrt a)).settle else d) := rfl

/-- TANH. -/
theorem exec_tanh (c : CoreId) (i : IWord) (ph : Phase) (s : State) :
    exec (.tanh c i ph) s =
      run s (fun d => if d.tileOn (tileOf c.val) = true then (d.veLanes c.val 0x2E i ph false none (fun a _ _ => fnLane .tanh a)).settle else d) := rfl

/-- SIGMOID. -/
theorem exec_sigmoid (c : CoreId) (i : IWord) (ph : Phase) (s : State) :
    exec (.sigmoid c i ph) s =
      run s (fun d => if d.tileOn (tileOf c.val) = true then (d.veLanes c.val 0x2F i ph false none (fun a _ _ => fnLane .sigmoid a)).settle else d) := rfl

/-- ERF. -/
theorem exec_erf (c : CoreId) (i : IWord) (ph : Phase) (s : State) :
    exec (.erf c i ph) s =
      run s (fun d => if d.tileOn (tileOf c.val) = true then (d.veLanes c.val 0x30 i ph false none (fun a _ _ => fnLane .erf a)).settle else d) := rfl

/-- SINPI. -/
theorem exec_sinpi (c : CoreId) (i : IWord) (ph : Phase) (s : State) :
    exec (.sinpi c i ph) s =
      run s (fun d => if d.tileOn (tileOf c.val) = true then (d.veLanes c.val 0x31 i ph false none (fun a _ _ => fnLane .sinpi a)).settle else d) := rfl

/-- COSPI. -/
theorem exec_cospi (c : CoreId) (i : IWord) (ph : Phase) (s : State) :
    exec (.cospi c i ph) s =
      run s (fun d => if d.tileOn (tileOf c.val) = true then (d.veLanes c.val 0x32 i ph false none (fun a _ _ => fnLane .cospi a)).settle else d) := rfl

/-- DIV. -/
theorem exec_div (c : CoreId) (i : IWord) (ph : Phase) (s : State) :
    exec (.div c i ph) s =
      run s (fun d => if d.tileOn (tileOf c.val) = true then (d.veLanes c.val 0x34 i ph false none (fun a b _ => fdiv a b)).settle else d) := rfl

/-- SQRT. -/
theorem exec_sqrt (c : CoreId) (i : IWord) (ph : Phase) (s : State) :
    exec (.sqrt c i ph) s =
      run s (fun d => if d.tileOn (tileOf c.val) = true then (d.veLanes c.val 0x35 i ph false none (fun a _ _ => fsqrt a)).settle else d) := rfl

/-- RSUM. -/
theorem exec_rsum (c : CoreId) (i : IWord) (ph : Phase) (s : State) :
    exec (.rsum c i ph) s =
      run s (fun d => if d.tileOn (tileOf c.val) = true then (d.veReduce c.val 0x38 i ph (treeSeg fadd 0x80000000)).settle else d) := rfl

/-- RMAX. -/
theorem exec_rmax (c : CoreId) (i : IWord) (ph : Phase) (s : State) :
    exec (.rmax c i ph) s =
      run s (fun d => if d.tileOn (tileOf c.val) = true then (d.veReduce c.val 0x39 i ph (treeSeg fmax 0xFF800000)).settle else d) := rfl

/-- RMIN. -/
theorem exec_rmin (c : CoreId) (i : IWord) (ph : Phase) (s : State) :
    exec (.rmin c i ph) s =
      run s (fun d => if d.tileOn (tileOf c.val) = true then (d.veReduce c.val 0x3A i ph (treeSeg fmin 0x7F800000)).settle else d) := rfl

/-- IRSUM. -/
theorem exec_irsum (c : CoreId) (i : IWord) (ph : Phase) (s : State) :
    exec (.irsum c i ph) s =
      run s (fun d => if d.tileOn (tileOf c.val) = true then (d.veReduce c.val 0x3B i ph (treeSeg (noFlag (fun x y => x + y)) 0)).settle else d) := rfl

/-- RSUMX. -/
theorem exec_rsumx (c : CoreId) (i : IWord) (ph : Phase) (s : State) :
    exec (.rsumx c i ph) s =
      run s (fun d => if d.tileOn (tileOf c.val) = true then (d.veReduce c.val 0x3C i ph exactSeg).settle else d) := rfl

/-- OSMX. -/
theorem exec_osmx (c : CoreId) (i : IWord) (ph : Phase) (s : State) :
    exec (.osmx c i ph) s =
      run s (fun d => if d.tileOn (tileOf c.val) = true then (d.veOsmx c.val i ph).settle else d) := rfl

/-- CVT_R. -/
theorem exec_cvtR (c : CoreId) (i : IWord) (ph : Phase) (s : State) :
    exec (.cvtR c i ph) s =
      run s (fun d => if d.tileOn (tileOf c.val) = true then (d.veCvtR c.val i ph).settle else d) := rfl

/-- VLD. -/
theorem exec_vld (c : CoreId) (i : IWord) (ph : Phase) (s : State) :
    exec (.vld c i ph) s =
      run s (fun d => if d.tileOn (tileOf c.val) = true then (d.veVld c.val i ph).settle else d) := rfl

/-- VST. -/
theorem exec_vst (c : CoreId) (i : IWord) (ph : Phase) (s : State) :
    exec (.vst c i ph) s =
      run s (fun d => if d.tileOn (tileOf c.val) = true then (d.veVst c.val i ph).settle else d) := rfl

/-- CVT_LD. -/
theorem exec_cvtLd (c : CoreId) (i : IWord) (ph : Phase) (s : State) :
    exec (.cvtLd c i ph) s =
      run s (fun d => if d.tileOn (tileOf c.val) = true then (d.veCvtLd c.val i ph).settle else d) := rfl

/-- CVT_ST. -/
theorem exec_cvtSt (c : CoreId) (i : IWord) (ph : Phase) (s : State) :
    exec (.cvtSt c i ph) s =
      run s (fun d => if d.tileOn (tileOf c.val) = true then (d.veCvtSt c.val i ph).settle else d) := rfl

/-- CVT_EXP. -/
theorem exec_cvtExp (c : CoreId) (i : IWord) (ph : Phase) (s : State) :
    exec (.cvtExp c i ph) s =
      run s (fun d => if d.tileOn (tileOf c.val) = true then (d.veCvtExp c.val i ph).settle else d) := rfl

/-- RAND. -/
theorem exec_rand (c : CoreId) (i : IWord) (ph : Phase) (s : State) :
    exec (.rand c i ph) s =
      run s (fun d => if d.tileOn (tileOf c.val) = true then (d.veRandom c.val 0x50 i ph false false (randLane i)).settle else d) := rfl

/-- RANDU. -/
theorem exec_randu (c : CoreId) (i : IWord) (ph : Phase) (s : State) :
    exec (.randu c i ph) s =
      run s (fun d => if d.tileOn (tileOf c.val) = true then (d.veRandom c.val 0x51 i ph false false (randuLane i)).settle else d) := rfl

/-- DROP. -/
theorem exec_drop (c : CoreId) (i : IWord) (ph : Phase) (s : State) :
    exec (.drop c i ph) s =
      run s (fun d => if d.tileOn (tileOf c.val) = true then (d.veRandom c.val 0x52 i ph true false (dropLane i)).settle else d) := rfl

/-- RANDN. -/
theorem exec_randn (c : CoreId) (i : IWord) (ph : Phase) (s : State) :
    exec (.randn c i ph) s =
      run s (fun d => if d.tileOn (tileOf c.val) = true then (d.veRandom c.val 0x53 i ph false true (randnLane i)).settle else d) := rfl

/-- SOLVE. -/
theorem exec_solve (c : CoreId) (i : IWord) (ph : Phase) (s : State) :
    exec (.solve c i ph) s =
      run s (fun d => if d.tileOn (tileOf c.val) = true then (d.veSolve c.val i ph).settle else d) := rfl

/-- VE_RESUME. -/
theorem exec_veResume (ag : Agent) (c : CoreId) (s : State) :
    exec (.veResume ag c) s =
      run s (fun d => (d.ctrlWrite ag ⟨.veCtrl, [c.val]⟩ 1).settle) := rfl

/-- VE_FLUSH. -/
theorem exec_veFlush (ag : Agent) (c : CoreId) (s : State) :
    exec (.veFlush ag c) s =
      run s (fun d => (d.ctrlWrite ag ⟨.veCtrl, [c.val]⟩ 2).settle) := rfl

/-- NOP. -/
theorem exec_nop (c : CoreId) (i : IWord) (s : State) :
    exec (.nop c i) s =
      run s (fun d => if d.tileOn (tileOf c.val) = true then d.sqSimple c.val 0x00 i (legalNone i) (fun q => q) else d) := rfl

/-- ADD. -/
theorem exec_add (c : CoreId) (i : IWord) (s : State) :
    exec (.add c i) s =
      run s (fun d => if d.tileOn (tileOf c.val) = true then d.aluR c.val 0x01 i (fun a b => a + b) else d) := rfl

/-- SUB. -/
theorem exec_sub (c : CoreId) (i : IWord) (s : State) :
    exec (.sub c i) s =
      run s (fun d => if d.tileOn (tileOf c.val) = true then d.aluR c.val 0x02 i (fun a b => a - b) else d) := rfl

/-- AND. -/
theorem exec_and (c : CoreId) (i : IWord) (s : State) :
    exec (.and c i) s =
      run s (fun d => if d.tileOn (tileOf c.val) = true then d.aluR c.val 0x03 i (fun a b => a &&& b) else d) := rfl

/-- OR. -/
theorem exec_or (c : CoreId) (i : IWord) (s : State) :
    exec (.or c i) s =
      run s (fun d => if d.tileOn (tileOf c.val) = true then d.aluR c.val 0x04 i (fun a b => a ||| b) else d) := rfl

/-- XOR. -/
theorem exec_xor (c : CoreId) (i : IWord) (s : State) :
    exec (.xor c i) s =
      run s (fun d => if d.tileOn (tileOf c.val) = true then d.aluR c.val 0x05 i (fun a b => a ^^^ b) else d) := rfl

/-- SLL. -/
theorem exec_sll (c : CoreId) (i : IWord) (s : State) :
    exec (.sll c i) s =
      run s (fun d => if d.tileOn (tileOf c.val) = true then d.aluR c.val 0x06 i opSll else d) := rfl

/-- SRL. -/
theorem exec_srl (c : CoreId) (i : IWord) (s : State) :
    exec (.srl c i) s =
      run s (fun d => if d.tileOn (tileOf c.val) = true then d.aluR c.val 0x07 i opSrl else d) := rfl

/-- SRA. -/
theorem exec_sra (c : CoreId) (i : IWord) (s : State) :
    exec (.sra c i) s =
      run s (fun d => if d.tileOn (tileOf c.val) = true then d.aluR c.val 0x08 i opSra else d) := rfl

/-- MUL. -/
theorem exec_mul (c : CoreId) (i : IWord) (s : State) :
    exec (.mul c i) s =
      run s (fun d => if d.tileOn (tileOf c.val) = true then d.aluR c.val 0x09 i (fun a b => a * b) else d) := rfl

/-- MULHU. -/
theorem exec_mulhu (c : CoreId) (i : IWord) (s : State) :
    exec (.mulhu c i) s =
      run s (fun d => if d.tileOn (tileOf c.val) = true then d.aluR c.val 0x0A i opMulhu else d) := rfl

/-- DIVU. -/
theorem exec_divu (c : CoreId) (i : IWord) (s : State) :
    exec (.divu c i) s =
      run s (fun d => if d.tileOn (tileOf c.val) = true then d.aluR c.val 0x0B i opDivu else d) := rfl

/-- REMU. -/
theorem exec_remu (c : CoreId) (i : IWord) (s : State) :
    exec (.remu c i) s =
      run s (fun d => if d.tileOn (tileOf c.val) = true then d.aluR c.val 0x0C i opRemu else d) := rfl

/-- MIN. -/
theorem exec_min (c : CoreId) (i : IWord) (s : State) :
    exec (.min c i) s =
      run s (fun d => if d.tileOn (tileOf c.val) = true then d.aluR c.val 0x0D i opMin else d) := rfl

/-- MAX. -/
theorem exec_max (c : CoreId) (i : IWord) (s : State) :
    exec (.max c i) s =
      run s (fun d => if d.tileOn (tileOf c.val) = true then d.aluR c.val 0x0E i opMax else d) := rfl

/-- ADDI. -/
theorem exec_addi (c : CoreId) (i : IWord) (s : State) :
    exec (.addi c i) s =
      run s (fun d => if d.tileOn (tileOf c.val) = true then d.aluI c.val 0x11 i (legalI i) (fun a b => a + b) else d) := rfl

/-- ANDI. -/
theorem exec_andi (c : CoreId) (i : IWord) (s : State) :
    exec (.andi c i) s =
      run s (fun d => if d.tileOn (tileOf c.val) = true then d.aluI c.val 0x13 i (legalI i) (fun a b => a &&& b) else d) := rfl

/-- ORI. -/
theorem exec_ori (c : CoreId) (i : IWord) (s : State) :
    exec (.ori c i) s =
      run s (fun d => if d.tileOn (tileOf c.val) = true then d.aluI c.val 0x14 i (legalI i) (fun a b => a ||| b) else d) := rfl

/-- XORI. -/
theorem exec_xori (c : CoreId) (i : IWord) (s : State) :
    exec (.xori c i) s =
      run s (fun d => if d.tileOn (tileOf c.val) = true then d.aluI c.val 0x15 i (legalI i) (fun a b => a ^^^ b) else d) := rfl

/-- SLLI. -/
theorem exec_slli (c : CoreId) (i : IWord) (s : State) :
    exec (.slli c i) s =
      run s (fun d => if d.tileOn (tileOf c.val) = true then d.aluI c.val 0x16 i (legalShift i) opSll else d) := rfl

/-- SRLI. -/
theorem exec_srli (c : CoreId) (i : IWord) (s : State) :
    exec (.srli c i) s =
      run s (fun d => if d.tileOn (tileOf c.val) = true then d.aluI c.val 0x17 i (legalShift i) opSrl else d) := rfl

/-- SRAI. -/
theorem exec_srai (c : CoreId) (i : IWord) (s : State) :
    exec (.srai c i) s =
      run s (fun d => if d.tileOn (tileOf c.val) = true then d.aluI c.val 0x18 i (legalShift i) opSra else d) := rfl

/-- LI. -/
theorem exec_li (c : CoreId) (i : IWord) (s : State) :
    exec (.li c i) s =
      run s (fun d => if d.tileOn (tileOf c.val) = true then d.sqSimple c.val 0x19 i (legalLi i) (fun q => q.setS i.rd (wordOfInt i.imm)) else d) := rfl

/-- LIH. -/
theorem exec_lih (c : CoreId) (i : IWord) (s : State) :
    exec (.lih c i) s =
      run s (fun d => if d.tileOn (tileOf c.val) = true then d.ctlLih c.val i else d) := rfl

/-- CMP. -/
theorem exec_cmp (c : CoreId) (i : IWord) (s : State) :
    exec (.cmp c i) s =
      run s (fun d => if d.tileOn (tileOf c.val) = true then d.ctlCmp c.val 0x20 i (legalCmp i) (fun q => q.getS i.rs2) else d) := rfl

/-- CMPI. -/
theorem exec_cmpi (c : CoreId) (i : IWord) (s : State) :
    exec (.cmpi c i) s =
      run s (fun d => if d.tileOn (tileOf c.val) = true then d.ctlCmp c.val 0x21 i (legalCmpi i) (fun _ => wordOfInt i.imm) else d) := rfl

/-- PLOG. -/
theorem exec_plog (c : CoreId) (i : IWord) (s : State) :
    exec (.plog c i) s =
      run s (fun d => if d.tileOn (tileOf c.val) = true then d.ctlPlog c.val i else d) := rfl

/-- PGET. -/
theorem exec_pget (c : CoreId) (i : IWord) (s : State) :
    exec (.pget c i) s =
      run s (fun d => if d.tileOn (tileOf c.val) = true then d.ctlPget c.val i else d) := rfl

/-- PPUT. -/
theorem exec_pput (c : CoreId) (i : IWord) (s : State) :
    exec (.pput c i) s =
      run s (fun d => if d.tileOn (tileOf c.val) = true then d.ctlPput c.val i else d) := rfl

/-- BR. -/
theorem exec_br (c : CoreId) (i : IWord) (s : State) :
    exec (.br c i) s =
      run s (fun d => if d.tileOn (tileOf c.val) = true then d.ctlBr c.val i else d) := rfl

/-- CALL. -/
theorem exec_call (c : CoreId) (i : IWord) (s : State) :
    exec (.call c i) s =
      run s (fun d => if d.tileOn (tileOf c.val) = true then d.ctlCall c.val i else d) := rfl

/-- RET. -/
theorem exec_ret (c : CoreId) (i : IWord) (s : State) :
    exec (.ret c i) s =
      run s (fun d => if d.tileOn (tileOf c.val) = true then d.ctlRet c.val i else d) := rfl

/-- JR. -/
theorem exec_jr (c : CoreId) (i : IWord) (s : State) :
    exec (.jr c i) s =
      run s (fun d => if d.tileOn (tileOf c.val) = true then d.ctlJr c.val i else d) := rfl

/-- LOOP. -/
theorem exec_loop (c : CoreId) (i : IWord) (s : State) :
    exec (.loop c i) s =
      run s (fun d => if d.tileOn (tileOf c.val) = true then d.ctlLoop c.val i else d) := rfl

/-- LIDX. -/
theorem exec_lidx (c : CoreId) (i : IWord) (s : State) :
    exec (.lidx c i) s =
      run s (fun d => if d.tileOn (tileOf c.val) = true then d.ctlLidx c.val i else d) := rfl

/-- LD. -/
theorem exec_ld (c : CoreId) (i : IWord) (s : State) :
    exec (.ld c i) s =
      run s (fun d => if d.tileOn (tileOf c.val) = true then (d.ctlLd c.val i).settle else d) := rfl

/-- ST. -/
theorem exec_st (c : CoreId) (i : IWord) (s : State) :
    exec (.st c i) s =
      run s (fun d => if d.tileOn (tileOf c.val) = true then (d.ctlSt c.val i).settle else d) := rfl

/-- MOVA. -/
theorem exec_mova (c : CoreId) (i : IWord) (s : State) :
    exec (.mova c i) s =
      run s (fun d => if d.tileOn (tileOf c.val) = true then d.ctlMova c.val i else d) := rfl

/-- RDA. -/
theorem exec_rda (c : CoreId) (i : IWord) (s : State) :
    exec (.rda c i) s =
      run s (fun d => if d.tileOn (tileOf c.val) = true then d.ctlRda c.val i else d) := rfl

/-- MOVD. -/
theorem exec_movd (c : CoreId) (i : IWord) (s : State) :
    exec (.movd c i) s =
      run s (fun d => if d.tileOn (tileOf c.val) = true then d.ctlMovd c.val i else d) := rfl

/-- RDD. -/
theorem exec_rdd (c : CoreId) (i : IWord) (s : State) :
    exec (.rdd c i) s =
      run s (fun d => if d.tileOn (tileOf c.val) = true then d.ctlRdd c.val i else d) := rfl

/-- VSET. -/
theorem exec_vset (c : CoreId) (i : IWord) (s : State) :
    exec (.vset c i) s =
      run s (fun d => if d.tileOn (tileOf c.val) = true then d.ctlVset c.val i else d) := rfl

/-- VGET. -/
theorem exec_vget (c : CoreId) (i : IWord) (s : State) :
    exec (.vget c i) s =
      run s (fun d => if d.tileOn (tileOf c.val) = true then d.ctlVget c.val i else d) := rfl

/-- SEM_WAIT. -/
theorem exec_semWait (c : CoreId) (i : IWord) (ph : Phase) (s : State) :
    exec (.semWait c i ph) s =
      run s (fun d => if d.tileOn (tileOf c.val) = true then (d.semWait c.val i ph).settle else d) := rfl

/-- SEM_SIG. -/
theorem exec_semSig (c : CoreId) (i : IWord) (ph : Phase) (s : State) :
    exec (.semSig c i ph) s =
      run s (fun d => if d.tileOn (tileOf c.val) = true then (d.semSig c.val i ph).settle else d) := rfl

/-- SEM_REQUEST_ARRIVAL. -/
theorem exec_semRequestArrival (g : ClusterId) (ids : List Nat) (elapsed : Nat) (s : State) :
    exec (.semRequestArrival g ids elapsed) s =
      run s (fun d => (if d.tileOn (g.val / 4) = true then d.semClk g.val ids elapsed else d).settle) := rfl

/-- SEM_WAIT_RESUME. -/
theorem exec_semWaitResume (id : Nat) (s : State) :
    exec (.semWaitResume id) s =
      run s (fun d => (d.semResume id).settle) := rfl

/-- TWAIT. -/
theorem exec_twait (c : CoreId) (i : IWord) (s : State) :
    exec (.twait c i) s =
      run s (fun d => if d.tileOn (tileOf c.val) = true then (d.ctlTwait c.val i).settle else d) := rfl

/-- TNOW. -/
theorem exec_tnow (c : CoreId) (i : IWord) (s : State) :
    exec (.tnow c i) s =
      run s (fun d => if d.tileOn (tileOf c.val) = true then d.ctlTnow c.val i else d) := rfl

/-- FENCE. -/
theorem exec_fence (c : CoreId) (i : IWord) (s : State) :
    exec (.fence c i) s =
      run s (fun d => if d.tileOn (tileOf c.val) = true then d.ctlFence c.val i else d) := rfl

/-- FENCE_RELEASE. -/
theorem exec_fenceRelease (c : CoreId) (s : State) :
    exec (.fenceRelease c) s =
      run s (fun d => if d.tileOn (tileOf c.val) = true then d.fenceRelease c.val else d) := rfl

/-- GEN_ACQ. -/
theorem exec_genAcq (c : CoreId) (i : IWord) (s : State) :
    exec (.genAcq c i) s =
      run s (fun d => if d.tileOn (tileOf c.val) = true then (d.genOp c.val 0x50 i false GenTable.acq).settle else d) := rfl

/-- GEN_REL. -/
theorem exec_genRel (c : CoreId) (i : IWord) (s : State) :
    exec (.genRel c i) s =
      run s (fun d => if d.tileOn (tileOf c.val) = true then (d.genOp c.val 0x51 i true GenTable.rel).settle else d) := rfl

/-- GEN_CLAIM. -/
theorem exec_genClaim (c : CoreId) (i : IWord) (s : State) :
    exec (.genClaim c i) s =
      run s (fun d => if d.tileOn (tileOf c.val) = true then (d.genOp c.val 0x52 i false (fun t st ring => t.claim c.val st ring i.rd)).settle else d) := rfl

/-- GEN_CLAIM_COMPLETE. -/
theorem exec_genClaimComplete (p : PartId) (st : Fin 64) (slot : Fin 2) (s : State) :
    exec (.genClaimComplete p st slot) s =
      run s (fun d => (d.genClaimComplete p.val st.val slot.val).settle) := rfl

/-- GEN_READY. -/
theorem exec_genReady (c : CoreId) (i : IWord) (s : State) :
    exec (.genReady c i) s =
      run s (fun d => if d.tileOn (tileOf c.val) = true then (d.genOp c.val 0x53 i true GenTable.ready).settle else d) := rfl

/-- FAULT. -/
theorem exec_fault (c : CoreId) (i : IWord) (s : State) :
    exec (.fault c i) s =
      run s (fun d => if d.tileOn (tileOf c.val) = true then (d.ctlFault c.val i).settle else d) := rfl

/-- HALT. -/
theorem exec_halt (c : CoreId) (i : IWord) (s : State) :
    exec (.halt c i) s =
      run s (fun d => if d.tileOn (tileOf c.val) = true then (d.haltCore c.val i).settle else d) := rfl

/-- SQ_RESUME. -/
theorem exec_sqResume (c : CoreId) (s : State) :
    exec (.sqResume c) s =
      run s (fun d => (d.ctrlWrite .host ⟨.sqCtrl, [c.val]⟩ 1).settle) := rfl

/-- SQ_STOP. -/
theorem exec_sqStop (c : CoreId) (s : State) :
    exec (.sqStop c) s =
      run s (fun d => (d.ctrlWrite .host ⟨.sqCtrl, [c.val]⟩ 2).settle) := rfl

/-- FTE_COPY. -/
theorem exec_fteCopy (c : CoreId) (i : IWord) (ph : Phase) (s : State) :
    exec (.fteCopy c i ph) s =
      run s (fun d => if d.tileOn (tileOf c.val) = true then (d.fteCopy c.val i ph).settle else d) := rfl

/-- FTE_GATHER. -/
theorem exec_fteGather (c : CoreId) (i : IWord) (ph : Phase) (s : State) :
    exec (.fteGather c i ph) s =
      run s (fun d => if d.tileOn (tileOf c.val) = true then (d.fteGather c.val i ph).settle else d) := rfl

/-- FTE_ZERO. -/
theorem exec_fteZero (c : CoreId) (i : IWord) (ph : Phase) (s : State) :
    exec (.fteZero c i ph) s =
      run s (fun d => if d.tileOn (tileOf c.val) = true then (d.fteZero c.val i ph).settle else d) := rfl

/-- FTE_CANCEL. -/
theorem exec_fteCancel (c : CoreId) (i : IWord) (s : State) :
    exec (.fteCancel c i) s =
      run s (fun d => if d.tileOn (tileOf c.val) = true then (d.fteCancel c.val i).settle else d) := rfl

/-- FTE_REQUEST_RETURN. -/
theorem exec_fteRequestReturn (c : CoreId) (k : Nat) (es : ReadErrs) (s : State) :
    exec (.fteRequestReturn c k es) s =
      run s (fun d => if d.tileOn (tileOf c.val) = true then (d.fteReturn c.val k es).settle else d) := rfl

/-- FTE_RESUME. -/
theorem exec_fteResume (ag : Agent) (c : CoreId) (s : State) :
    exec (.fteResume ag c) s =
      run s (fun d => (d.ctrlWrite ag ⟨.fteCtrl, [c.val]⟩ 1).settle) := rfl

/-- FTE_FLUSH. -/
theorem exec_fteFlush (ag : Agent) (c : CoreId) (s : State) :
    exec (.fteFlush ag c) s =
      run s (fun d => (d.ctrlWrite ag ⟨.fteCtrl, [c.val]⟩ 2).settle) := rfl

/-- ECC_WRITEBACK. -/
theorem exec_eccWriteback (w : Nat) (s : State) :
    exec (.eccWriteback w) s =
      run s (fun d => (d.eccWriteback w).settle) := rfl

/-- PATROL_SCRUB_READ. -/
theorem exec_patrolScrubRead (u : SramId) (b : Nat) (upset : Option (Nat × BitVec 80)) (s : State) :
    exec (.patrolScrubRead u b upset) s =
      run s (fun d => (d.scrubRead (sramKey u) b upset).settle) := rfl

/-- BANK_POWER_REQUEST. -/
theorem exec_bankPowerRequest (ag : Agent) (u : SramId) (b : Nat) (req : BitVec 2) (s : State) :
    exec (.bankPowerRequest ag u b req) s =
      run s (fun d => (d.bankPowerRequest ag u b req).settle) := rfl

/-- BANK_ENTER_RET_DONE. -/
theorem exec_bankEnterRetDone (u : SramId) (b : Nat) (s : State) :
    exec (.bankEnterRetDone u b) s =
      run s (fun d => (d.bankArrive (sramKey u) b .enterRet .ret).settle) := rfl

/-- BANK_WAKE_DONE. -/
theorem exec_bankWakeDone (u : SramId) (b : Nat) (s : State) :
    exec (.bankWakeDone u b) s =
      run s (fun d => (d.bankArrive (sramKey u) b .wake .on).settle) := rfl

/-- BANK_DOWN_DONE. -/
theorem exec_bankDownDone (u : SramId) (b : Nat) (s : State) :
    exec (.bankDownDone u b) s =
      run s (fun d => (d.bankArrive (sramKey u) b .down .off).settle) := rfl

/-- BANK_UP_DONE. -/
theorem exec_bankUpDone (u : SramId) (b : Nat) (s : State) :
    exec (.bankUpDone u b) s =
      run s (fun d => (d.bankUpDone (sramKey u) b).settle) := rfl

/-- DMA_BATCH_START. -/
theorem exec_dmaBatchStart (g : ClusterId) (s : State) :
    exec (.dmaBatchStart g) s =
      run s (fun d => (if d.tileOn (g.val / 4) = true then d.dmaBatchStart g.val else d).settle) := rfl

/-- DMA_BURST_RETURN. -/
theorem exec_dmaBurstReturn (g : ClusterId) (es : ReadErrs) (s : State) :
    exec (.dmaBurstReturn g es) s =
      run s (fun d => (if d.tileOn (g.val / 4) = true then d.dmaBurst g.val es else d).settle) := rfl

/-- DMA_DESCRIPTOR_END. -/
theorem exec_dmaDescriptorEnd (g : ClusterId) (s : State) :
    exec (.dmaDescriptorEnd g) s =
      run s (fun d => (if d.tileOn (g.val / 4) = true then d.dmaEnd g.val else d).settle) := rfl

/-- DMA_ABORT. -/
theorem exec_dmaAbort (ag : Agent) (g : ClusterId) (ch : Fin 16) (k : Nat) (s : State) :
    exec (.dmaAbort ag g ch k) s =
      run s (fun d => (d.dmaAbortWrite ag g.val ch.val k).settle) := rfl

/-- DMA_ABORT_COMPLETE. -/
theorem exec_dmaAbortComplete (g : ClusterId) (ch : Fin 16) (s : State) :
    exec (.dmaAbortComplete g ch) s =
      run s (fun d => (if d.tileOn (g.val / 4) = true then d.dmaAbortComplete g.val ch.val else d).settle) := rfl

/-- REMOTE_REQUEST. -/
theorem exec_remoteRequest (q : Option PortId) (pkt : Machine.Packet) (es : ReadErrs) (s : State) :
    exec (.remoteRequest q pkt es) s =
      run s (fun d => (d.remoteRequest (q.map Fin.val) pkt es).settle) := rfl

/-- READ_DATA_RECEIVE. -/
theorem exec_readDataReceive (pkt : Machine.Packet) (s : State) :
    exec (.readDataReceive pkt) s =
      run s (fun d => (d.readData pkt).settle) := rfl

/-- WRITE_ACK_RECEIVE. -/
theorem exec_writeAckReceive (pkt : Machine.Packet) (s : State) :
    exec (.writeAckReceive pkt) s =
      run s (fun d => (d.writeAck pkt).settle) := rfl

/-- NAK_RECEIVE. -/
theorem exec_nakReceive (pkt : Machine.Packet) (s : State) :
    exec (.nakReceive pkt) s =
      run s (fun d => (if pkt.vc % 4 = 1 then d.redNak pkt else d.dmaNak pkt).settle) := rfl

/-- DMA_INWIN_ENABLE. -/
theorem exec_dmaInwinEnable (ag : Agent) (p : PartId) (w : Fin 64) (cfg : Word) (s : State) :
    exec (.dmaInwinEnable ag p w cfg) s =
      run s (fun d => (d.ctrlWrite ag ⟨.dmaInwinCfg, [p.val, w.val]⟩ (cfg ||| 0x100000)).settle) := rfl

/-- HBM_READ. -/
theorem exec_hbmRead (a : Nat) (err : ReadErr) (s : State) :
    exec (.hbmRead a err) s =
      run s (fun d => (d.hbmReadRow a 64 err).settle) := rfl

/-- HBM_WRITE. -/
theorem exec_hbmWrite (a : Nat) (bs : List (BitVec 8)) (poison : Bool) (err : ReadErr) (s : State) :
    exec (.hbmWrite a bs poison err) s =
      run s (fun d => (d.hbmWriteRow a (withPoison poison bs) err).settle) := rfl

/-- HBM_GATHER. -/
theorem exec_hbmGather (a : Nat) (err : ReadErr) (s : State) :
    exec (.hbmGather a err) s =
      run s (fun d => (d.hbmReadRow a 32 err).settle) := rfl

/-- HBM_PATROL_SCRUB. -/
theorem exec_hbmPatrolScrub (t : TileId) (q : Fin 96) (err : ReadErr) (s : State) :
    exec (.hbmPatrolScrub t q err) s =
      run s (fun d => (d.hbmScrub t.val q.val err).settle) := rfl

/-- HBM_TEMP_SAMPLE. -/
theorem exec_hbmTempSample (t : TileId) (k : Fin 3) (temp : Int) (s : State) :
    exec (.hbmTempSample t k temp) s =
      run s (fun d => (d.hbmTemp t.val k.val temp).settle) := rfl

/-- HBM_REFRESH. -/
theorem exec_hbmRefresh (s : State) :
    exec (.hbmRefresh) s =
      run s (fun d => d.hbmRefresh) := rfl

/-- HBM_CA_PARITY_ERROR. -/
theorem exec_hbmCaParityError (t : TileId) (q : Fin 96) (s : State) :
    exec (.hbmCaParityError t q) s =
      run s (fun d => (d.hbmParity t.val q.val).settle) := rfl

/-- HBM_REMEDY_DONE. -/
theorem exec_hbmRemedyDone (t : TileId) (es : ReadErrs) (s : State) :
    exec (.hbmRemedyDone t es) s =
      run s (fun d => (d.hbmRemedyDone t.val es).settle) := rfl

/-- HBM_RETRAIN_DONE. -/
theorem exec_hbmRetrainDone (t : TileId) (ch : Fin 48) (ok : Bool) (s : State) :
    exec (.hbmRetrainDone t ch ok) s =
      run s (fun d => (d.hbmRetrainDone t.val ch.val ok).settle) := rfl

/-- NEANO_GROUP_UPDATE. -/
theorem exec_neanoGroupUpdate (c : CtxId) (g : Fin 256) (es : ReadErrs) (s : State) :
    exec (.neanoGroupUpdate c g es) s =
      run s (fun d => (d.neaUpdate c.val g.val es).settle) := rfl

/-- NEA_UNIT_REPAIR_DONE. -/
theorem exec_neaUnitRepairDone (c : CtxId) (s : State) :
    exec (.neaUnitRepairDone c) s =
      run s (fun d => (d.neaRepair c.val).settle) := rfl

/-- NEA_IMPORT. -/
theorem exec_neaImport (c : CtxId) (s : State) :
    exec (.neaImport c) s =
      run s (fun d => (d.ctxCommand c.val 4).settle) := rfl

/-- NEA_COMMIT_IMPORT. -/
theorem exec_neaCommitImport (c : CtxId) (s : State) :
    exec (.neaCommitImport c) s =
      run s (fun d => (d.ctxCommand c.val 5).settle) := rfl

/-- NEA_RESUME. -/
theorem exec_neaResume (c : CtxId) (s : State) :
    exec (.neaResume c) s =
      run s (fun d => (d.ctxCommand c.val 6).settle) := rfl

/-- NEA_RELEASE. -/
theorem exec_neaRelease (c : CtxId) (s : State) :
    exec (.neaRelease c) s =
      run s (fun d => (d.ctxCommand c.val 7).settle) := rfl

/-- NEA_RELEASE_DONE. -/
theorem exec_neaReleaseDone (c : CtxId) (s : State) :
    exec (.neaReleaseDone c) s =
      run s (fun d => (d.neaReleaseDone c.val).settle) := rfl

/-- SLOW_WINDOW_ACCESS. -/
theorem exec_slowWindowAccess (who : Option PartId) (a : Nat) (n : Nat) (data : Option (List (BitVec 8))) (es : ReadErrs) (s : State) :
    exec (.slowWindowAccess who a n data es) s =
      run s (fun d => (d.slowAccess (who.map Fin.val) a n data es).settle) := rfl

/-- MIRROR_RECEIVE. -/
theorem exec_mirrorReceive (pkt : MirrorPkt) (s : State) :
    exec (.mirrorReceive pkt) s =
      run s (fun d => (d.mirrorReceive pkt).settle) := rfl

/-- MIRROR_ACK_RECEIVE. -/
theorem exec_mirrorAckReceive (c : CtxId) (ring : Nat) (ok : Bool) (s : State) :
    exec (.mirrorAckReceive c ring ok) s =
      run s (fun d => (d.mirrorAck c.val ring ok).settle) := rfl

/-- NEA_PKG_FAIL. -/
theorem exec_neaPkgFail (k : Fin 10) (s : State) :
    exec (.neaPkgFail k) s =
      run s (fun d => (d.pkgFail k.val).settle) := rfl

/-- NEA_PKG_COPY_DONE. -/
theorem exec_neaPkgCopyDone (s : State) :
    exec (.neaPkgCopyDone) s =
      run s (fun d => (d.pkgCopyDone).settle) := rfl

/-- NEA_REBUILD_DONE. -/
theorem exec_neaRebuildDone (s : State) :
    exec (.neaRebuildDone) s =
      run s (fun d => (d.pkgRebuildDone).settle) := rfl

/-- PORT_SIGNAL_DETECT. -/
theorem exec_portSignalDetect (q : PortId) (s : State) :
    exec (.portSignalDetect q) s =
      run s (fun d => (d.portSignal q.val).settle) := rfl

/-- PORT_TRAIN_DONE. -/
theorem exec_portTrainDone (q : PortId) (s : State) :
    exec (.portTrainDone q) s =
      run s (fun d => (d.portTrained q.val).settle) := rfl

/-- PORT_TRAIN_TIMEOUT. -/
theorem exec_portTrainTimeout (q : PortId) (s : State) :
    exec (.portTrainTimeout q) s =
      run s (fun d => (d.portTrainTimeout q.val).settle) := rfl

/-- PORT_ALIGN_DONE. -/
theorem exec_portAlignDone (q : PortId) (s : State) :
    exec (.portAlignDone q) s =
      run s (fun d => (d.portAligned q.val).settle) := rfl

/-- IDENT_RECEIVE. -/
theorem exec_identReceive (q : PortId) (id : Ident) (s : State) :
    exec (.identReceive q id) s =
      run s (fun d => (d.identReceive q.val id).settle) := rfl

/-- CREDIT_EXCHANGE. -/
theorem exec_creditExchange (q : PortId) (caps : List Nat) (s : State) :
    exec (.creditExchange q caps) s =
      run s (fun d => (d.creditExchange q.val caps).settle) := rfl

/-- PORT_LOSS_OF_LOCK. -/
theorem exec_portLossOfLock (q : PortId) (s : State) :
    exec (.portLossOfLock q) s =
      run s (fun d => (d.portLoss q.val).settle) := rfl

/-- PORT_RETRAIN_DONE. -/
theorem exec_portRetrainDone (q : PortId) (s : State) :
    exec (.portRetrainDone q) s =
      run s (fun d => (d.portRetrained q.val).settle) := rfl

/-- PORT_RETRAIN_TIMEOUT. -/
theorem exec_portRetrainTimeout (q : PortId) (s : State) :
    exec (.portRetrainTimeout q) s =
      run s (fun d => (d.portRetrainTimeout q.val).settle) := rfl

/-- DVO_RETRAIN. -/
theorem exec_dvoRetrain (q : PortId) (s : State) :
    exec (.dvoRetrain q) s =
      run s (fun d => (d.ctrlWrite .host ⟨.dvoPortCtrl, [q.val]⟩ 1).settle) := rfl

/-- DVO_RELEASE. -/
theorem exec_dvoRelease (q : PortId) (s : State) :
    exec (.dvoRelease q) s =
      run s (fun d => (d.ctrlWrite .host ⟨.dvoPortCtrl, [q.val]⟩ 2).settle) := rfl

/-- DVO_FORCE_DOWN. -/
theorem exec_dvoForceDown (q : PortId) (s : State) :
    exec (.dvoForceDown q) s =
      run s (fun d => (d.ctrlWrite .host ⟨.dvoPortCtrl, [q.val]⟩ 4).settle) := rfl

/-- PACKET_TRANSMIT. -/
theorem exec_packetTransmit (q : Option PortId) (vc : Fin 4) (es : ReadErrs) (s : State) :
    exec (.packetTransmit q vc es) s =
      run s (fun d => (match q with
    | some q => d.packetTransmit q.val vc.val
    | none => d.meshTransmit vc.val es).settle) := rfl

/-- PACKET_RECEIVE. -/
theorem exec_packetReceive (q : PortId) (seq : Nat) (pkt : Machine.Packet) (es : ReadErrs) (corr : Nat) (s : State) :
    exec (.packetReceive q seq pkt es corr) s =
      run s (fun d => (d.packetReceive q.val seq pkt es corr).settle) := rfl

/-- LINK_ACK_SEND. -/
theorem exec_linkAckSend (l : Fin 24) (s : State) :
    exec (.linkAckSend l) s =
      run s (fun d => (d.ackSend l.val).settle) := rfl

/-- LINK_ACK_RECEIVE. -/
theorem exec_linkAckReceive (q : PortId) (seq : Nat) (s : State) :
    exec (.linkAckReceive q seq) s =
      run s (fun d => (d.ackReceive q.val seq).settle) := rfl

/-- FEC_UNCORRECTABLE. -/
theorem exec_fecUncorrectable (q : PortId) (s : State) :
    exec (.fecUncorrectable q) s =
      run s (fun d => (d.fecUncorr q.val).settle) := rfl

/-- LINK_NAK_RECEIVE. -/
theorem exec_linkNakReceive (q : PortId) (seq : Nat) (s : State) :
    exec (.linkNakReceive q seq) s =
      run s (fun d => (d.nakReceive q.val seq).settle) := rfl

/-- CREDIT_RETURN_RECEIVE. -/
theorem exec_creditReturnReceive (q : PortId) (vc : Fin 4) (dl : Bool) (n : Nat) (s : State) :
    exec (.creditReturnReceive q vc dl n) s =
      run s (fun d => (d.creditReturn q.val vc.val dl n).settle) := rfl

/-- RECOUNT_RECEIVE. -/
theorem exec_recountReceive (q : PortId) (freed : List Nat) (caps : List Nat) (s : State) :
    exec (.recountReceive q freed caps) s =
      run s (fun d => (d.recountReceive q.val freed caps).settle) := rfl

/-- DVO_ROUTER_FAIL. -/
theorem exec_dvoRouterFail (t : TileId) (col : Fin 9) (r : Fin 8) (stops : List (MeshStop × Fin 8 × Fin 8)) (s : State) :
    exec (.dvoRouterFail t col r stops) s =
      run s (fun d => (d.routerFail t.val col.val r.val stops).settle) := rfl

/-- REDUCE_LOCAL_READY. -/
theorem exec_reduceLocalReady (p : PartId) (n : Nat) (cnt : Nat) (es : ReadErrs) (s : State) :
    exec (.reduceLocalReady p n cnt es) s =
      run s (fun d => (d.reduceLocalReady p.val n cnt es).settle) := rfl

/-- REDUCE_RECEIVE. -/
theorem exec_reduceReceive (q : Option PortId) (pkt : Machine.Packet) (upset : Option (Nat × Int)) (s : State) :
    exec (.reduceReceive q pkt upset) s =
      run s (fun d => (d.redReceive ⟨pkt, none, q.map Fin.val⟩ upset).settle) := rfl

/-- GSEND_CHUNK_READ. -/
theorem exec_gsendChunkRead (p : PartId) (n : Nat) (s : State) :
    exec (.gsendChunkRead p n) s =
      run s (fun d => (d.gsendRead p.val n).settle) := rfl

/-- GATHER_RECEIVE. -/
theorem exec_gatherReceive (q : Option PortId) (pkt : Machine.Packet) (s : State) :
    exec (.gatherReceive q pkt) s =
      run s (fun d => (d.redReceive ⟨pkt, none, q.map Fin.val⟩ none).settle) := rfl

/-- PRT_LOAD. -/
theorem exec_prtLoad (p : PartId) (img : Option Image) (s : State) :
    exec (.prtLoad p img) s =
      run s (fun d => (d.busDo .host ⟨.prtCtrl, [p.val]⟩ true (fun d => d.prtLoad p.val img)).settle) := rfl

/-- LOAD_COMPLETE. -/
theorem exec_loadComplete (p : PartId) (s : State) :
    exec (.loadComplete p) s =
      run s (fun d => (d.loadComplete p.val).settle) := rfl

/-- PRT_KILL. -/
theorem exec_prtKill (p : PartId) (s : State) :
    exec (.prtKill p) s =
      run s (fun d => (d.ctrlWrite .host ⟨.prtCtrl, [p.val]⟩ 2).settle) := rfl

/-- PRT_CASTLE. -/
theorem exec_prtCastle (p : PartId) (s : State) :
    exec (.prtCastle p) s =
      run s (fun d => (d.ctrlWrite .host ⟨.prtCtrl, [p.val]⟩ 4).settle) := rfl

/-- REVOCATION_COMPLETE. -/
theorem exec_revocationComplete (p : PartId) (s : State) :
    exec (.revocationComplete p) s =
      run s (fun d => (d.revocationComplete p.val).settle) := rfl

/-- PRT_PRUNE_GO. -/
theorem exec_prtPruneGo (c : CoreId) (s : State) :
    exec (.prtPruneGo c) s =
      run s (fun d => (d.ctrlWrite .host ⟨.prtPrune, []⟩ (BitVec.ofNat 64 (2 ^ 15 + c.val))).settle) := rfl

/-- PRUNE_COMPLETE. -/
theorem exec_pruneComplete (c : CoreId) (s : State) :
    exec (.pruneComplete c) s =
      run s (fun d => (d.pruneComplete c.val).settle) := rfl

/-- SPARE_ZERO_FILL_DONE. -/
theorem exec_spareZeroFillDone (k : Fin 448) (s : State) :
    exec (.spareZeroFillDone k) s =
      run s (fun d => (d.zeroFillDone k.val).settle) := rfl

/-- HUB_CORE_FAIL. -/
theorem exec_hubCoreFail (h : Fin 14) (s : State) :
    exec (.hubCoreFail h) s =
      run s (fun d => (d.hartFail h.val).settle) := rfl

/-- HUB_CORE_GRAFT. -/
theorem exec_hubCoreGraft (h : Fin 14) (s : State) :
    exec (.hubCoreGraft h) s =
      run s (fun d => (d.hartGraft h.val).settle) := rfl

/-- CVU_FEED_START. -/
theorem exec_cvuFeedStart (ag : Agent) (u : CvuId) (len : Fin 1099511627776) (s : State) :
    exec (.cvuFeedStart ag u len) s =
      run s (fun d => (d.ctrlWrite ag (cvuReg (cvuNum u) .cvuFeedLen .pcvuFeedLen) (BitVec.ofNat 64 len.val)).settle) := rfl

/-- CVU_FEED_DONE. -/
theorem exec_cvuFeedDone (u : CvuId) (s : State) :
    exec (.cvuFeedDone u) s =
      run s (fun d => (if d.tileOn (cvuNum u / 2 / 4) = true then d.cvuFeedDone (cvuNum u) else d).settle) := rfl

/-- CVU_INIT. -/
theorem exec_cvuInit (ag : Agent) (u : CvuId) (s : State) :
    exec (.cvuInit ag u) s =
      run s (fun d => (d.ctrlWrite ag (cvuReg (cvuNum u) .cvuCtrl .pcvuCtrl) 1).settle) := rfl

/-- CVU_ABORT. -/
theorem exec_cvuAbort (ag : Agent) (u : CvuId) (steps : Nat) (s : State) :
    exec (.cvuAbort ag u steps) s =
      run s (fun d => (d.cvuAbortWrite ag (cvuNum u) steps).settle) := rfl

/-- CG_EVALUATE. -/
theorem exec_cgEvaluate (v : Word) (s : State) :
    exec (.cgEvaluate v) s =
      run s (fun d => (d.ctrlWrite .host ⟨.cgCtr1, []⟩ v).settle) := rfl

/-- REFCLK_LOSS. -/
theorem exec_refclkLoss (s : State) :
    exec (.refclkLoss) s =
      run s (fun d => (d.halt).settle) := rfl

/-- CLK_PLL_UNLOCK. -/
theorem exec_clkPllUnlock (k : Fin 34) (s : State) :
    exec (.clkPllUnlock k) s =
      run s (fun d => (d.pllUnlock k.val).settle) := rfl

/-- PLL_RELOCK. -/
theorem exec_pllRelock (k : Fin 34) (s : State) :
    exec (.pllRelock k) s =
      run s (fun d => (d.pllRelock k.val).settle) := rfl

/-- PLL_RELOCK_TIMEOUT. -/
theorem exec_pllRelockTimeout (k : Fin 34) (s : State) :
    exec (.pllRelockTimeout k) s =
      run s (fun d => (d.pllTimeout k.val).settle) := rfl

/-- VOLTAGE_STEP_DONE. -/
theorem exec_voltageStepDone (t : TileId) (s : State) :
    exec (.voltageStepDone t) s =
      run s (fun d => (d.voltageStep t.val).settle) := rfl

/-- PWR_OVERCURRENT. -/
theorem exec_pwrOvercurrent (g : ClusterId) (s : State) :
    exec (.pwrOvercurrent g) s =
      run s (fun d => (d.overcurrent g.val).settle) := rfl

/-- PWR_THERMAL_TRIP. -/
theorem exec_pwrThermalTrip (loc : Fin 6) (s : State) :
    exec (.pwrThermalTrip loc) s =
      run s (fun d => (d.thermalTrip loc.val).settle) := rfl

/-- CLOCK_ENABLE_WRITE. -/
theorem exec_clockEnableWrite (b : ClkUnit) (v : BitVec 3) (s : State) :
    exec (.clockEnableWrite b v) s =
      run s (fun d => (d.ctrlWrite .host (clkReg (clkIsCore b) (clkNum b)) (BitVec.ofNat 64 v.toNat)).settle) := rfl

/-- CLOCK_ENABLE_UP_DONE. -/
theorem exec_clockEnableUpDone (b : ClkUnit) (k : Fin 3) (s : State) :
    exec (.clockEnableUpDone b k) s =
      run s (fun d => (d.clkUpDone (clkIsCore b) (clkNum b) (k.val + 1)).settle) := rfl

/-- CLOCK_ENABLE_STOP_DONE. -/
theorem exec_clockEnableStopDone (b : ClkUnit) (k : Fin 3) (s : State) :
    exec (.clockEnableStopDone b k) s =
      run s (fun d => (d.clkStopDone (clkIsCore b) (clkNum b) (k.val + 1)).settle) := rfl

/-- POWER_TRANSITION_DONE. -/
theorem exec_powerTransitionDone (t : TileId) (s : State) :
    exec (.powerTransitionDone t) s =
      run s (fun d => (d.powerDone t.val).settle) := rfl

/-- RESET_N_ASSERT. -/
theorem exec_resetNAssert (s : State) :
    exec (.resetNAssert) s =
      .next (s.with_ ((s.dev.silent.resetAssert))) := rfl

/-- RESET_N_RELEASE. -/
theorem exec_resetNRelease (s : State) :
    exec (.resetNRelease) s =
      .next (s.with_ ((s.dev.silent.resetRelease))) := rfl

/-- POWER_GOOD_RISE. -/
theorem exec_powerGoodRise (s : State) :
    exec (.powerGoodRise) s =
      .next (s.with_ ((s.dev.silent.powerRise))) := rfl

/-- POWER_GOOD_FALL. -/
theorem exec_powerGoodFall (s : State) :
    exec (.powerGoodFall) s =
      .next (s.with_ ((s.dev.silent.powerFall))) := rfl

/-- SEC_RESET. -/
theorem exec_secReset (s : State) :
    exec (.secReset) s =
      run s (fun d => (d.ctrlWrite .host ⟨.secCtrl, []⟩ 0x100).settle) := rfl

/-- ROM_VERIFY. -/
theorem exec_romVerify (a : Manifest) (b : Manifest) (s : State) :
    exec (.romVerify a b) s =
      run s (fun d => (d.romVerify a b).settle) := rfl

/-- FS1_STAGE_DONE. -/
theorem exec_fs1StageDone (m : Manifest) (o : Manifest) (cfg : List (Nat × Word)) (s : State) :
    exec (.fs1StageDone m o cfg) s =
      run s (fun d => (d.fs1Done m o cfg).settle) := rfl

/-- TILE_BRINGUP_TIMEOUT. -/
theorem exec_tileBringupTimeout (t : TileId) (pll : Option (Fin 2)) (g : Fin 4) (s : State) :
    exec (.tileBringupTimeout t pll g) s =
      run s (fun d => (d.bringupTimeout t.val (pll.map Fin.val) g.val).settle) := rfl

/-- MEMORY_STAGE_DONE. -/
theorem exec_memoryStageDone (pcs : List (TileId × Fin 96)) (pkgs : List (Fin 10)) (s : State) :
    exec (.memoryStageDone pcs pkgs) s =
      run s (fun d => (d.memoryDone (pcs.map (fun x => (x.1.val, x.2.val))) (pkgs.map Fin.val)).settle) := rfl

/-- LINKS_STAGE_DONE. -/
theorem exec_linksStageDone (s : State) :
    exec (.linksStageDone) s =
      run s (fun d => (d.linksDone).settle) := rfl

/-- TEMPO_STAGE_DONE. -/
theorem exec_tempoStageDone (s : State) :
    exec (.tempoStageDone) s =
      run s (fun d => (d.tempoDone).settle) := rfl

/-- SELFTEST_DONE. -/
theorem exec_selftestDone (s : State) :
    exec (.selftestDone) s =
      run s (fun d => (d.selftestDone).settle) := rfl

/-- SEC_ATTEST. -/
theorem exec_secAttest (s : State) :
    exec (.secAttest) s =
      run s (fun d => (d.ctrlWrite .host ⟨.secCtrl, []⟩ 1).settle) := rfl

/-- ATTEST_DONE. -/
theorem exec_attestDone (s : State) :
    exec (.attestDone) s =
      run s (fun d => (d.attestDone).settle) := rfl

/-- SEC_NONCE. -/
theorem exec_secNonce (s : State) :
    exec (.secNonce) s =
      run s (fun d => (d.ctrlWrite .host ⟨.secCtrl, []⟩ 2).settle) := rfl

/-- SEC_SUBMIT. -/
theorem exec_secSubmit (s : State) :
    exec (.secSubmit) s =
      run s (fun d => (d.ctrlWrite .host ⟨.secCtrl, []⟩ 4).settle) := rfl

/-- TOKEN_CHECK_DONE. -/
theorem exec_tokenCheckDone (s : State) :
    exec (.tokenCheckDone) s =
      run s (fun d => (d.tokenDone).settle) := rfl

/-- DEBUG_SCRUB_DONE. -/
theorem exec_debugScrubDone (s : State) :
    exec (.debugScrubDone) s =
      run s (fun d => (d.scrubDone).settle) := rfl

/-- SEC_OWNER_ENROL. -/
theorem exec_secOwnerEnrol (s : State) :
    exec (.secOwnerEnrol) s =
      run s (fun d => (d.ctrlWrite .host ⟨.secCtrl, []⟩ 8).settle) := rfl

/-- SEC_SVN_COMMIT. -/
theorem exec_secSvnCommit (s : State) :
    exec (.secSvnCommit) s =
      run s (fun d => (d.ctrlWrite .host ⟨.secCtrl, []⟩ 0x10).settle) := rfl

/-- SEC_END_GRANT. -/
theorem exec_secEndGrant (p : PartId) (s : State) :
    exec (.secEndGrant p) s =
      run s (fun d => (d.ctrlWrite .host ⟨.secCtrl, []⟩ (BitVec.ofNat 64 (0x20 + 64 * p.val))).settle) := rfl

/-- SEC_LOCK_SET. -/
theorem exec_secLockSet (m : BitVec 6) (s : State) :
    exec (.secLockSet m) s =
      run s (fun d => (d.ctrlWrite .host ⟨.secLock, []⟩ (BitVec.ofNat 64 (256 * m.toNat))).settle) := rfl

/-- JTAG_BYPASS. -/
theorem exec_jtagBypass (s : State) :
    exec (.jtagBypass) s =
      runVin s (fun d => d.jtagSet .bypass) := rfl

/-- JTAG_IDCODE. -/
theorem exec_jtagIdcode (s : State) :
    exec (.jtagIdcode) s =
      runVin s (fun d => d.jtagIdcode) := rfl

/-- JTAG_SAMPLE_PRELOAD. -/
theorem exec_jtagSamplePreload (s : State) :
    exec (.jtagSamplePreload) s =
      runVin s (fun d => d.jtagSample) := rfl

/-- JTAG_EXTEST. -/
theorem exec_jtagExtest (s : State) :
    exec (.jtagExtest) s =
      runVin s (fun d => d.jtagExtest d.live) := rfl

/-- JTAG_DBG_ACCESS. -/
theorem exec_jtagDbgAccess (a : Nat) (write : Bool) (v : Word) (s : State) :
    exec (.jtagDbgAccess a write v) s =
      runVin s (fun d => d.jtagAccess d.live a write v) := rfl

/-- JTAG_DBG_TOKEN. -/
theorem exec_jtagDbgToken (k : Fin 1024) (v : Word) (s : State) :
    exec (.jtagDbgToken k v) s =
      runVin s (fun d => d.jtagToken d.live k.val v) := rfl

/-- EVENT_RECORD_WRITE. -/
theorem exec_eventRecordWrite (n : Nat) (s : State) :
    exec (.eventRecordWrite n) s =
      run s (fun d => (d.recordsWrite n).settle) := rfl

/-- MBOX_UP_PUSH. -/
theorem exec_mboxUpPush (ag : Agent) (p : PartId) (v : Word) (s : State) :
    exec (.mboxUpPush ag p v) s =
      run s (fun d => (d.ctrlWrite ag ⟨.hubMboxUpPush, [p.val]⟩ v).settle) := rfl

/-- MBOX_UP_POP. -/
theorem exec_mboxUpPop (ag : Agent) (p : PartId) (s : State) :
    exec (.mboxUpPop ag p) s =
      run s (fun d => (d.popBy ag ⟨.hubMboxUpPop, [p.val]⟩).settle) := rfl

/-- MBOX_DOWN_PUSH. -/
theorem exec_mboxDownPush (ag : Agent) (p : PartId) (v : Word) (s : State) :
    exec (.mboxDownPush ag p v) s =
      run s (fun d => (d.ctrlWrite ag ⟨.hubMboxDownPush, [p.val]⟩ v).settle) := rfl

/-- MBOX_DOWN_POP. -/
theorem exec_mboxDownPop (ag : Agent) (p : PartId) (s : State) :
    exec (.mboxDownPop ag p) s =
      run s (fun d => (d.popBy ag ⟨.hubMboxDownPop, [p.val]⟩).settle) := rfl

/-- HUB_WDOG_KICK. -/
theorem exec_hubWdogKick (h : Fin 14) (s : State) :
    exec (.hubWdogKick h) s =
      run s (fun d => (d.wdogKick h.val).settle) := rfl

/-- MGT_LINK_UP. -/
theorem exec_mgtLinkUp (fec : Fin 3) (s : State) :
    exec (.mgtLinkUp fec) s =
      run s (fun d => (d.mgtLinkUp fec.val).settle) := rfl

/-- MGT_LINK_DOWN. -/
theorem exec_mgtLinkDown (s : State) :
    exec (.mgtLinkDown) s =
      run s (fun d => (d.mgtLinkDown).settle) := rfl

/-- MGT_FRAME_RECEIVE. -/
theorem exec_mgtFrameReceive (bs : List (BitVec 8)) (bad : Bool) (s : State) :
    exec (.mgtFrameReceive bs bad) s =
      run s (fun d => (d.frameReceive bs bad).settle) := rfl

/-- MGT_FRAME_TRANSMIT. -/
theorem exec_mgtFrameTransmit (s : State) :
    exec (.mgtFrameTransmit) s =
      run s (fun d => (d.frameTransmit).settle) := rfl

/-- SERVICE_READ. -/
theorem exec_serviceRead (f : SvcFrame) (s : State) :
    exec (.serviceRead f) s =
      run s (fun d => (d.svcRead f).settle) := rfl

/-- SERVICE_WRITE. -/
theorem exec_serviceWrite (f : SvcFrame) (s : State) :
    exec (.serviceWrite f) s =
      run s (fun d => (d.svcWrite f).settle) := rfl

/-- SERVICE_TOKEN. -/
theorem exec_serviceToken (f : SvcFrame) (s : State) :
    exec (.serviceToken f) s =
      run s (fun d => (d.svcToken f).settle) := rfl

/-- SERVICE_OPEN. -/
theorem exec_serviceOpen (f : SvcFrame) (s : State) :
    exec (.serviceOpen f) s =
      run s (fun d => (d.svcOpen f).settle) := rfl

/-- SERVICE_CLOSE. -/
theorem exec_serviceClose (f : SvcFrame) (s : State) :
    exec (.serviceClose f) s =
      run s (fun d => (d.svcClose f).settle) := rfl

/-- SERVICE_RECOVERY. -/
theorem exec_serviceRecovery (f : SvcFrame) (m : Manifest) (s : State) :
    exec (.serviceRecovery f m) s =
      run s (fun d => (d.svcRecovery f m).settle) := rfl

/-- MGT_SESSION_TIMEOUT. -/
theorem exec_mgtSessionTimeout (s : State) :
    exec (.mgtSessionTimeout) s =
      run s (fun d => (d.svcTimeout).settle) := rfl

/-- CONTROL_CORE_ACCESS. -/
theorem exec_controlCoreAccess (h : Fin 14) (a : Nat) (n : Nat) (write : Bool) (v : Word) (s : State) :
    exec (.controlCoreAccess h a n write v) s =
      run s (fun d => (d.controlAccess h a n write v).settle) := rfl

/-- SLOW_TIER_REFRESH. -/
theorem exec_slowTierRefresh (k : Fin 10) (temp : Int) (s : State) :
    exec (.slowTierRefresh k temp) s =
      run s (fun d => (d.slowRefresh k.val temp).settle) := rfl

/-- JTAG_TRST. -/
theorem exec_jtagTrst (s : State) :
    exec (.jtagTrst) s =
      runVin s (fun d => d.jtagSet .idcode) := rfl

/-- A command but those of the pins, the power input and the JTAG port acts through `run`. -/
theorem exec_ran (c : Instr) (s : State) (h : ActsInReset c = false) : ∃ f, exec c s = run s f := by
  match c, h with
  | .tempoSeal _, _ => exact ⟨_, exec_tempoSeal _ s⟩
  | .deadlineSample, _ => exact ⟨_, exec_deadlineSample s⟩
  | .tempoEdge, _ => exact ⟨_, exec_tempoEdge s⟩
  | .stalledWritesLand, _ => exact ⟨_, exec_stalledWritesLand s⟩
  | .tempoWaitRelease _, _ => exact ⟨_, exec_tempoWaitRelease _ s⟩
  | .syncReceive _ _, _ => exact ⟨_, exec_syncReceive _ _ s⟩
  | .delayReqReceive _ _ _ _, _ => exact ⟨_, exec_delayReqReceive _ _ _ _ s⟩
  | .delayRespReceive _ _ _ _ _, _ => exact ⟨_, exec_delayRespReceive _ _ _ _ _ s⟩
  | .announceSend, _ => exact ⟨_, exec_announceSend s⟩
  | .announceReceive _ _ _, _ => exact ⟨_, exec_announceReceive _ _ _ s⟩
  | .kingElectionWin, _ => exact ⟨_, exec_kingElectionWin s⟩
  | .acqFineReached, _ => exact ⟨_, exec_acqFineReached s⟩
  | .acqLockedReached, _ => exact ⟨_, exec_acqLockedReached s⟩
  | .alignLost, _ => exact ⟨_, exec_alignLost s⟩
  | .holdoverEntry, _ => exact ⟨_, exec_holdoverEntry s⟩
  | .masterLost, _ => exact ⟨_, exec_masterLost s⟩
  | .failover, _ => exact ⟨_, exec_failover s⟩
  | .holdoverAnnounceResume, _ => exact ⟨_, exec_holdoverAnnounceResume s⟩
  | .periodChange, _ => exact ⟨_, exec_periodChange s⟩
  | .rwtWrite _ _ _ _, _ => exact ⟨_, exec_rwtWrite _ _ _ _ s⟩
  | .stageDiscard _, _ => exact ⟨_, exec_stageDiscard _ s⟩
  | .registerWrite _ _ _ _, _ => exact ⟨_, exec_registerWrite _ _ _ _ s⟩
  | .meLoad _ _ _, _ => exact ⟨_, exec_meLoad _ _ _ s⟩
  | .meStream _ _ _, _ => exact ⟨_, exec_meStream _ _ _ s⟩
  | .meStreamRowUpdate _ _, _ => exact ⟨_, exec_meStreamRowUpdate _ _ s⟩
  | .meDrain _ _ _, _ => exact ⟨_, exec_meDrain _ _ _ s⟩
  | .meDrainRowWrite _, _ => exact ⟨_, exec_meDrainRowWrite _ s⟩
  | .meAddw _ _ _, _ => exact ⟨_, exec_meAddw _ _ _ s⟩
  | .meClear _ _ _, _ => exact ⟨_, exec_meClear _ _ _ s⟩
  | .meResume _ _, _ => exact ⟨_, exec_meResume _ _ s⟩
  | .meFlush _ _, _ => exact ⟨_, exec_meFlush _ _ s⟩
  | .meColTest _ _, _ => exact ⟨_, exec_meColTest _ _ s⟩
  | .meColTestDone _ _, _ => exact ⟨_, exec_meColTestDone _ _ s⟩
  | .fadd _ _ _, _ => exact ⟨_, exec_fadd _ _ _ s⟩
  | .fsub _ _ _, _ => exact ⟨_, exec_fsub _ _ _ s⟩
  | .fmul _ _ _, _ => exact ⟨_, exec_fmul _ _ _ s⟩
  | .fma _ _ _, _ => exact ⟨_, exec_fma _ _ _ s⟩
  | .fmax _ _ _, _ => exact ⟨_, exec_fmax _ _ _ s⟩
  | .fmin _ _ _, _ => exact ⟨_, exec_fmin _ _ _ s⟩
  | .fcmp _ _ _, _ => exact ⟨_, exec_fcmp _ _ _ s⟩
  | .fabs _ _ _, _ => exact ⟨_, exec_fabs _ _ _ s⟩
  | .fneg _ _ _, _ => exact ⟨_, exec_fneg _ _ _ s⟩
  | .sel _ _ _, _ => exact ⟨_, exec_sel _ _ _ s⟩
  | .iadd _ _ _, _ => exact ⟨_, exec_iadd _ _ _ s⟩
  | .isub _ _ _, _ => exact ⟨_, exec_isub _ _ _ s⟩
  | .imul _ _ _, _ => exact ⟨_, exec_imul _ _ _ s⟩
  | .veSll _ _ _, _ => exact ⟨_, exec_veSll _ _ _ s⟩
  | .veSrl _ _ _, _ => exact ⟨_, exec_veSrl _ _ _ s⟩
  | .veSra _ _ _, _ => exact ⟨_, exec_veSra _ _ _ s⟩
  | .veAnd _ _ _, _ => exact ⟨_, exec_veAnd _ _ _ s⟩
  | .veOr _ _ _, _ => exact ⟨_, exec_veOr _ _ _ s⟩
  | .veXor _ _ _, _ => exact ⟨_, exec_veXor _ _ _ s⟩
  | .icmp _ _ _, _ => exact ⟨_, exec_icmp _ _ _ s⟩
  | .perm _ _ _, _ => exact ⟨_, exec_perm _ _ _ s⟩
  | .bcast _ _ _, _ => exact ⟨_, exec_bcast _ _ _ s⟩
  | .lshift _ _ _, _ => exact ⟨_, exec_lshift _ _ _ s⟩
  | .exp _ _ _, _ => exact ⟨_, exec_exp _ _ _ s⟩
  | .exp2 _ _ _, _ => exact ⟨_, exec_exp2 _ _ _ s⟩
  | .log _ _ _, _ => exact ⟨_, exec_log _ _ _ s⟩
  | .log2 _ _ _, _ => exact ⟨_, exec_log2 _ _ _ s⟩
  | .rcp _ _ _, _ => exact ⟨_, exec_rcp _ _ _ s⟩
  | .rsqrt _ _ _, _ => exact ⟨_, exec_rsqrt _ _ _ s⟩
  | .tanh _ _ _, _ => exact ⟨_, exec_tanh _ _ _ s⟩
  | .sigmoid _ _ _, _ => exact ⟨_, exec_sigmoid _ _ _ s⟩
  | .erf _ _ _, _ => exact ⟨_, exec_erf _ _ _ s⟩
  | .sinpi _ _ _, _ => exact ⟨_, exec_sinpi _ _ _ s⟩
  | .cospi _ _ _, _ => exact ⟨_, exec_cospi _ _ _ s⟩
  | .div _ _ _, _ => exact ⟨_, exec_div _ _ _ s⟩
  | .sqrt _ _ _, _ => exact ⟨_, exec_sqrt _ _ _ s⟩
  | .rsum _ _ _, _ => exact ⟨_, exec_rsum _ _ _ s⟩
  | .rmax _ _ _, _ => exact ⟨_, exec_rmax _ _ _ s⟩
  | .rmin _ _ _, _ => exact ⟨_, exec_rmin _ _ _ s⟩
  | .irsum _ _ _, _ => exact ⟨_, exec_irsum _ _ _ s⟩
  | .rsumx _ _ _, _ => exact ⟨_, exec_rsumx _ _ _ s⟩
  | .osmx _ _ _, _ => exact ⟨_, exec_osmx _ _ _ s⟩
  | .cvtR _ _ _, _ => exact ⟨_, exec_cvtR _ _ _ s⟩
  | .vld _ _ _, _ => exact ⟨_, exec_vld _ _ _ s⟩
  | .vst _ _ _, _ => exact ⟨_, exec_vst _ _ _ s⟩
  | .cvtLd _ _ _, _ => exact ⟨_, exec_cvtLd _ _ _ s⟩
  | .cvtSt _ _ _, _ => exact ⟨_, exec_cvtSt _ _ _ s⟩
  | .cvtExp _ _ _, _ => exact ⟨_, exec_cvtExp _ _ _ s⟩
  | .rand _ _ _, _ => exact ⟨_, exec_rand _ _ _ s⟩
  | .randu _ _ _, _ => exact ⟨_, exec_randu _ _ _ s⟩
  | .drop _ _ _, _ => exact ⟨_, exec_drop _ _ _ s⟩
  | .randn _ _ _, _ => exact ⟨_, exec_randn _ _ _ s⟩
  | .solve _ _ _, _ => exact ⟨_, exec_solve _ _ _ s⟩
  | .veResume _ _, _ => exact ⟨_, exec_veResume _ _ s⟩
  | .veFlush _ _, _ => exact ⟨_, exec_veFlush _ _ s⟩
  | .nop _ _, _ => exact ⟨_, exec_nop _ _ s⟩
  | .add _ _, _ => exact ⟨_, exec_add _ _ s⟩
  | .sub _ _, _ => exact ⟨_, exec_sub _ _ s⟩
  | .and _ _, _ => exact ⟨_, exec_and _ _ s⟩
  | .or _ _, _ => exact ⟨_, exec_or _ _ s⟩
  | .xor _ _, _ => exact ⟨_, exec_xor _ _ s⟩
  | .sll _ _, _ => exact ⟨_, exec_sll _ _ s⟩
  | .srl _ _, _ => exact ⟨_, exec_srl _ _ s⟩
  | .sra _ _, _ => exact ⟨_, exec_sra _ _ s⟩
  | .mul _ _, _ => exact ⟨_, exec_mul _ _ s⟩
  | .mulhu _ _, _ => exact ⟨_, exec_mulhu _ _ s⟩
  | .divu _ _, _ => exact ⟨_, exec_divu _ _ s⟩
  | .remu _ _, _ => exact ⟨_, exec_remu _ _ s⟩
  | .min _ _, _ => exact ⟨_, exec_min _ _ s⟩
  | .max _ _, _ => exact ⟨_, exec_max _ _ s⟩
  | .addi _ _, _ => exact ⟨_, exec_addi _ _ s⟩
  | .andi _ _, _ => exact ⟨_, exec_andi _ _ s⟩
  | .ori _ _, _ => exact ⟨_, exec_ori _ _ s⟩
  | .xori _ _, _ => exact ⟨_, exec_xori _ _ s⟩
  | .slli _ _, _ => exact ⟨_, exec_slli _ _ s⟩
  | .srli _ _, _ => exact ⟨_, exec_srli _ _ s⟩
  | .srai _ _, _ => exact ⟨_, exec_srai _ _ s⟩
  | .li _ _, _ => exact ⟨_, exec_li _ _ s⟩
  | .lih _ _, _ => exact ⟨_, exec_lih _ _ s⟩
  | .cmp _ _, _ => exact ⟨_, exec_cmp _ _ s⟩
  | .cmpi _ _, _ => exact ⟨_, exec_cmpi _ _ s⟩
  | .plog _ _, _ => exact ⟨_, exec_plog _ _ s⟩
  | .pget _ _, _ => exact ⟨_, exec_pget _ _ s⟩
  | .pput _ _, _ => exact ⟨_, exec_pput _ _ s⟩
  | .br _ _, _ => exact ⟨_, exec_br _ _ s⟩
  | .call _ _, _ => exact ⟨_, exec_call _ _ s⟩
  | .ret _ _, _ => exact ⟨_, exec_ret _ _ s⟩
  | .jr _ _, _ => exact ⟨_, exec_jr _ _ s⟩
  | .loop _ _, _ => exact ⟨_, exec_loop _ _ s⟩
  | .lidx _ _, _ => exact ⟨_, exec_lidx _ _ s⟩
  | .ld _ _, _ => exact ⟨_, exec_ld _ _ s⟩
  | .st _ _, _ => exact ⟨_, exec_st _ _ s⟩
  | .mova _ _, _ => exact ⟨_, exec_mova _ _ s⟩
  | .rda _ _, _ => exact ⟨_, exec_rda _ _ s⟩
  | .movd _ _, _ => exact ⟨_, exec_movd _ _ s⟩
  | .rdd _ _, _ => exact ⟨_, exec_rdd _ _ s⟩
  | .vset _ _, _ => exact ⟨_, exec_vset _ _ s⟩
  | .vget _ _, _ => exact ⟨_, exec_vget _ _ s⟩
  | .semWait _ _ _, _ => exact ⟨_, exec_semWait _ _ _ s⟩
  | .semSig _ _ _, _ => exact ⟨_, exec_semSig _ _ _ s⟩
  | .semRequestArrival _ _ _, _ => exact ⟨_, exec_semRequestArrival _ _ _ s⟩
  | .semWaitResume _, _ => exact ⟨_, exec_semWaitResume _ s⟩
  | .twait _ _, _ => exact ⟨_, exec_twait _ _ s⟩
  | .tnow _ _, _ => exact ⟨_, exec_tnow _ _ s⟩
  | .fence _ _, _ => exact ⟨_, exec_fence _ _ s⟩
  | .fenceRelease _, _ => exact ⟨_, exec_fenceRelease _ s⟩
  | .genAcq _ _, _ => exact ⟨_, exec_genAcq _ _ s⟩
  | .genRel _ _, _ => exact ⟨_, exec_genRel _ _ s⟩
  | .genClaim _ _, _ => exact ⟨_, exec_genClaim _ _ s⟩
  | .genClaimComplete _ _ _, _ => exact ⟨_, exec_genClaimComplete _ _ _ s⟩
  | .genReady _ _, _ => exact ⟨_, exec_genReady _ _ s⟩
  | .fault _ _, _ => exact ⟨_, exec_fault _ _ s⟩
  | .halt _ _, _ => exact ⟨_, exec_halt _ _ s⟩
  | .sqResume _, _ => exact ⟨_, exec_sqResume _ s⟩
  | .sqStop _, _ => exact ⟨_, exec_sqStop _ s⟩
  | .fteCopy _ _ _, _ => exact ⟨_, exec_fteCopy _ _ _ s⟩
  | .fteGather _ _ _, _ => exact ⟨_, exec_fteGather _ _ _ s⟩
  | .fteZero _ _ _, _ => exact ⟨_, exec_fteZero _ _ _ s⟩
  | .fteCancel _ _, _ => exact ⟨_, exec_fteCancel _ _ s⟩
  | .fteRequestReturn _ _ _, _ => exact ⟨_, exec_fteRequestReturn _ _ _ s⟩
  | .fteResume _ _, _ => exact ⟨_, exec_fteResume _ _ s⟩
  | .fteFlush _ _, _ => exact ⟨_, exec_fteFlush _ _ s⟩
  | .eccWriteback _, _ => exact ⟨_, exec_eccWriteback _ s⟩
  | .patrolScrubRead _ _ _, _ => exact ⟨_, exec_patrolScrubRead _ _ _ s⟩
  | .bankPowerRequest _ _ _ _, _ => exact ⟨_, exec_bankPowerRequest _ _ _ _ s⟩
  | .bankEnterRetDone _ _, _ => exact ⟨_, exec_bankEnterRetDone _ _ s⟩
  | .bankWakeDone _ _, _ => exact ⟨_, exec_bankWakeDone _ _ s⟩
  | .bankDownDone _ _, _ => exact ⟨_, exec_bankDownDone _ _ s⟩
  | .bankUpDone _ _, _ => exact ⟨_, exec_bankUpDone _ _ s⟩
  | .dmaBatchStart _, _ => exact ⟨_, exec_dmaBatchStart _ s⟩
  | .dmaBurstReturn _ _, _ => exact ⟨_, exec_dmaBurstReturn _ _ s⟩
  | .dmaDescriptorEnd _, _ => exact ⟨_, exec_dmaDescriptorEnd _ s⟩
  | .dmaAbort _ _ _ _, _ => exact ⟨_, exec_dmaAbort _ _ _ _ s⟩
  | .dmaAbortComplete _ _, _ => exact ⟨_, exec_dmaAbortComplete _ _ s⟩
  | .remoteRequest _ _ _, _ => exact ⟨_, exec_remoteRequest _ _ _ s⟩
  | .readDataReceive _, _ => exact ⟨_, exec_readDataReceive _ s⟩
  | .writeAckReceive _, _ => exact ⟨_, exec_writeAckReceive _ s⟩
  | .nakReceive _, _ => exact ⟨_, exec_nakReceive _ s⟩
  | .dmaInwinEnable _ _ _ _, _ => exact ⟨_, exec_dmaInwinEnable _ _ _ _ s⟩
  | .hbmRead _ _, _ => exact ⟨_, exec_hbmRead _ _ s⟩
  | .hbmWrite _ _ _ _, _ => exact ⟨_, exec_hbmWrite _ _ _ _ s⟩
  | .hbmGather _ _, _ => exact ⟨_, exec_hbmGather _ _ s⟩
  | .hbmPatrolScrub _ _ _, _ => exact ⟨_, exec_hbmPatrolScrub _ _ _ s⟩
  | .hbmTempSample _ _ _, _ => exact ⟨_, exec_hbmTempSample _ _ _ s⟩
  | .hbmRefresh, _ => exact ⟨_, exec_hbmRefresh s⟩
  | .hbmCaParityError _ _, _ => exact ⟨_, exec_hbmCaParityError _ _ s⟩
  | .hbmRemedyDone _ _, _ => exact ⟨_, exec_hbmRemedyDone _ _ s⟩
  | .hbmRetrainDone _ _ _, _ => exact ⟨_, exec_hbmRetrainDone _ _ _ s⟩
  | .neanoGroupUpdate _ _ _, _ => exact ⟨_, exec_neanoGroupUpdate _ _ _ s⟩
  | .neaUnitRepairDone _, _ => exact ⟨_, exec_neaUnitRepairDone _ s⟩
  | .neaImport _, _ => exact ⟨_, exec_neaImport _ s⟩
  | .neaCommitImport _, _ => exact ⟨_, exec_neaCommitImport _ s⟩
  | .neaResume _, _ => exact ⟨_, exec_neaResume _ s⟩
  | .neaRelease _, _ => exact ⟨_, exec_neaRelease _ s⟩
  | .neaReleaseDone _, _ => exact ⟨_, exec_neaReleaseDone _ s⟩
  | .slowWindowAccess _ _ _ _ _, _ => exact ⟨_, exec_slowWindowAccess _ _ _ _ _ s⟩
  | .mirrorReceive _, _ => exact ⟨_, exec_mirrorReceive _ s⟩
  | .mirrorAckReceive _ _ _, _ => exact ⟨_, exec_mirrorAckReceive _ _ _ s⟩
  | .neaPkgFail _, _ => exact ⟨_, exec_neaPkgFail _ s⟩
  | .neaPkgCopyDone, _ => exact ⟨_, exec_neaPkgCopyDone s⟩
  | .neaRebuildDone, _ => exact ⟨_, exec_neaRebuildDone s⟩
  | .portSignalDetect _, _ => exact ⟨_, exec_portSignalDetect _ s⟩
  | .portTrainDone _, _ => exact ⟨_, exec_portTrainDone _ s⟩
  | .portTrainTimeout _, _ => exact ⟨_, exec_portTrainTimeout _ s⟩
  | .portAlignDone _, _ => exact ⟨_, exec_portAlignDone _ s⟩
  | .identReceive _ _, _ => exact ⟨_, exec_identReceive _ _ s⟩
  | .creditExchange _ _, _ => exact ⟨_, exec_creditExchange _ _ s⟩
  | .portLossOfLock _, _ => exact ⟨_, exec_portLossOfLock _ s⟩
  | .portRetrainDone _, _ => exact ⟨_, exec_portRetrainDone _ s⟩
  | .portRetrainTimeout _, _ => exact ⟨_, exec_portRetrainTimeout _ s⟩
  | .dvoRetrain _, _ => exact ⟨_, exec_dvoRetrain _ s⟩
  | .dvoRelease _, _ => exact ⟨_, exec_dvoRelease _ s⟩
  | .dvoForceDown _, _ => exact ⟨_, exec_dvoForceDown _ s⟩
  | .packetTransmit _ _ _, _ => exact ⟨_, exec_packetTransmit _ _ _ s⟩
  | .packetReceive _ _ _ _ _, _ => exact ⟨_, exec_packetReceive _ _ _ _ _ s⟩
  | .linkAckSend _, _ => exact ⟨_, exec_linkAckSend _ s⟩
  | .linkAckReceive _ _, _ => exact ⟨_, exec_linkAckReceive _ _ s⟩
  | .fecUncorrectable _, _ => exact ⟨_, exec_fecUncorrectable _ s⟩
  | .linkNakReceive _ _, _ => exact ⟨_, exec_linkNakReceive _ _ s⟩
  | .creditReturnReceive _ _ _ _, _ => exact ⟨_, exec_creditReturnReceive _ _ _ _ s⟩
  | .recountReceive _ _ _, _ => exact ⟨_, exec_recountReceive _ _ _ s⟩
  | .dvoRouterFail _ _ _ _, _ => exact ⟨_, exec_dvoRouterFail _ _ _ _ s⟩
  | .reduceLocalReady _ _ _ _, _ => exact ⟨_, exec_reduceLocalReady _ _ _ _ s⟩
  | .reduceReceive _ _ _, _ => exact ⟨_, exec_reduceReceive _ _ _ s⟩
  | .gsendChunkRead _ _, _ => exact ⟨_, exec_gsendChunkRead _ _ s⟩
  | .gatherReceive _ _, _ => exact ⟨_, exec_gatherReceive _ _ s⟩
  | .prtLoad _ _, _ => exact ⟨_, exec_prtLoad _ _ s⟩
  | .loadComplete _, _ => exact ⟨_, exec_loadComplete _ s⟩
  | .prtKill _, _ => exact ⟨_, exec_prtKill _ s⟩
  | .prtCastle _, _ => exact ⟨_, exec_prtCastle _ s⟩
  | .revocationComplete _, _ => exact ⟨_, exec_revocationComplete _ s⟩
  | .prtPruneGo _, _ => exact ⟨_, exec_prtPruneGo _ s⟩
  | .pruneComplete _, _ => exact ⟨_, exec_pruneComplete _ s⟩
  | .spareZeroFillDone _, _ => exact ⟨_, exec_spareZeroFillDone _ s⟩
  | .hubCoreFail _, _ => exact ⟨_, exec_hubCoreFail _ s⟩
  | .hubCoreGraft _, _ => exact ⟨_, exec_hubCoreGraft _ s⟩
  | .cvuFeedStart _ _ _, _ => exact ⟨_, exec_cvuFeedStart _ _ _ s⟩
  | .cvuFeedDone _, _ => exact ⟨_, exec_cvuFeedDone _ s⟩
  | .cvuInit _ _, _ => exact ⟨_, exec_cvuInit _ _ s⟩
  | .cvuAbort _ _ _, _ => exact ⟨_, exec_cvuAbort _ _ _ s⟩
  | .cgEvaluate _, _ => exact ⟨_, exec_cgEvaluate _ s⟩
  | .refclkLoss, _ => exact ⟨_, exec_refclkLoss s⟩
  | .clkPllUnlock _, _ => exact ⟨_, exec_clkPllUnlock _ s⟩
  | .pllRelock _, _ => exact ⟨_, exec_pllRelock _ s⟩
  | .pllRelockTimeout _, _ => exact ⟨_, exec_pllRelockTimeout _ s⟩
  | .voltageStepDone _, _ => exact ⟨_, exec_voltageStepDone _ s⟩
  | .pwrOvercurrent _, _ => exact ⟨_, exec_pwrOvercurrent _ s⟩
  | .pwrThermalTrip _, _ => exact ⟨_, exec_pwrThermalTrip _ s⟩
  | .clockEnableWrite _ _, _ => exact ⟨_, exec_clockEnableWrite _ _ s⟩
  | .clockEnableUpDone _ _, _ => exact ⟨_, exec_clockEnableUpDone _ _ s⟩
  | .clockEnableStopDone _ _, _ => exact ⟨_, exec_clockEnableStopDone _ _ s⟩
  | .powerTransitionDone _, _ => exact ⟨_, exec_powerTransitionDone _ s⟩
  | .resetNAssert, h => exact Bool.noConfusion h
  | .resetNRelease, h => exact Bool.noConfusion h
  | .powerGoodRise, h => exact Bool.noConfusion h
  | .powerGoodFall, h => exact Bool.noConfusion h
  | .secReset, _ => exact ⟨_, exec_secReset s⟩
  | .romVerify _ _, _ => exact ⟨_, exec_romVerify _ _ s⟩
  | .fs1StageDone _ _ _, _ => exact ⟨_, exec_fs1StageDone _ _ _ s⟩
  | .tileBringupTimeout _ _ _, _ => exact ⟨_, exec_tileBringupTimeout _ _ _ s⟩
  | .memoryStageDone _ _, _ => exact ⟨_, exec_memoryStageDone _ _ s⟩
  | .linksStageDone, _ => exact ⟨_, exec_linksStageDone s⟩
  | .tempoStageDone, _ => exact ⟨_, exec_tempoStageDone s⟩
  | .selftestDone, _ => exact ⟨_, exec_selftestDone s⟩
  | .secAttest, _ => exact ⟨_, exec_secAttest s⟩
  | .attestDone, _ => exact ⟨_, exec_attestDone s⟩
  | .secNonce, _ => exact ⟨_, exec_secNonce s⟩
  | .secSubmit, _ => exact ⟨_, exec_secSubmit s⟩
  | .tokenCheckDone, _ => exact ⟨_, exec_tokenCheckDone s⟩
  | .debugScrubDone, _ => exact ⟨_, exec_debugScrubDone s⟩
  | .secOwnerEnrol, _ => exact ⟨_, exec_secOwnerEnrol s⟩
  | .secSvnCommit, _ => exact ⟨_, exec_secSvnCommit s⟩
  | .secEndGrant _, _ => exact ⟨_, exec_secEndGrant _ s⟩
  | .secLockSet _, _ => exact ⟨_, exec_secLockSet _ s⟩
  | .jtagBypass, h => exact Bool.noConfusion h
  | .jtagIdcode, h => exact Bool.noConfusion h
  | .jtagSamplePreload, h => exact Bool.noConfusion h
  | .jtagExtest, h => exact Bool.noConfusion h
  | .jtagDbgAccess _ _ _, h => exact Bool.noConfusion h
  | .jtagDbgToken _ _, h => exact Bool.noConfusion h
  | .eventRecordWrite _, _ => exact ⟨_, exec_eventRecordWrite _ s⟩
  | .mboxUpPush _ _ _, _ => exact ⟨_, exec_mboxUpPush _ _ _ s⟩
  | .mboxUpPop _ _, _ => exact ⟨_, exec_mboxUpPop _ _ s⟩
  | .mboxDownPush _ _ _, _ => exact ⟨_, exec_mboxDownPush _ _ _ s⟩
  | .mboxDownPop _ _, _ => exact ⟨_, exec_mboxDownPop _ _ s⟩
  | .hubWdogKick _, _ => exact ⟨_, exec_hubWdogKick _ s⟩
  | .mgtLinkUp _, _ => exact ⟨_, exec_mgtLinkUp _ s⟩
  | .mgtLinkDown, _ => exact ⟨_, exec_mgtLinkDown s⟩
  | .mgtFrameReceive _ _, _ => exact ⟨_, exec_mgtFrameReceive _ _ s⟩
  | .mgtFrameTransmit, _ => exact ⟨_, exec_mgtFrameTransmit s⟩
  | .serviceRead _, _ => exact ⟨_, exec_serviceRead _ s⟩
  | .serviceWrite _, _ => exact ⟨_, exec_serviceWrite _ s⟩
  | .serviceToken _, _ => exact ⟨_, exec_serviceToken _ s⟩
  | .serviceOpen _, _ => exact ⟨_, exec_serviceOpen _ s⟩
  | .serviceClose _, _ => exact ⟨_, exec_serviceClose _ s⟩
  | .serviceRecovery _ _, _ => exact ⟨_, exec_serviceRecovery _ _ s⟩
  | .mgtSessionTimeout, _ => exact ⟨_, exec_mgtSessionTimeout s⟩
  | .controlCoreAccess _ _ _ _ _, _ => exact ⟨_, exec_controlCoreAccess _ _ _ _ _ s⟩
  | .slowTierRefresh _ _, _ => exact ⟨_, exec_slowTierRefresh _ _ s⟩
  | .jtagTrst, h => exact Bool.noConfusion h

end Sys2Proof.Machine
end

