-- ==== Sys2Proof/Laws/FMap.lean ====
section
/-! SUPPORT. Laws of sparse maps: what a write makes of later reads, and that writes keep the canonical form. -/
namespace Sys2Proof.Machine

variable {α : Type}

@[simp] theorem FMap.getD_nil (k : Nat) (d : α) : FMap.getD ([] : FMap α) k d = d := rfl

/-- A read after an insertion. -/
@[simp] theorem FMap.getD_insert (m : FMap α) (k j : Nat) (v d : α) :
    FMap.getD (FMap.insert m k v) j d = if k = j then v else FMap.getD m j d := by
  induction m with
  | nil => simp [FMap.insert, FMap.getD]
  | cons e r ih =>
    obtain ⟨i, w⟩ := e
    simp only [FMap.insert]
    split_ifs with h1 h2 <;> simp only [FMap.getD] <;> split_ifs <;> simp_all

/-- A read after a removal. -/
@[simp] theorem FMap.getD_remove (m : FMap α) (k j : Nat) (d : α) :
    FMap.getD (FMap.remove m k) j d = if k = j then d else FMap.getD m j d := by
  induction m with
  | nil => simp [FMap.remove, FMap.getD]
  | cons e r ih =>
    obtain ⟨i, w⟩ := e
    simp only [FMap.remove]
    split_ifs with h1 <;> simp only [FMap.getD, ih] <;> split_ifs <;> simp_all

/-- A read after a write. -/
@[simp] theorem FMap.getD_set [DecidableEq α] (m : FMap α) (d : α) (k j : Nat) (v : α) :
    FMap.getD (FMap.set m d k v) j d = if k = j then v else FMap.getD m j d := by
  unfold FMap.set
  split_ifs with h1 h2 <;> simp_all

/-- A read of the key written, whatever the default of the write. -/
theorem FMap.getD_set_self [DecidableEq α] (m : FMap α) (d : α) (k : Nat) (v : α) :
    FMap.getD (FMap.set m d k v) k d = v := by simp

/-- A read of another key, whatever the two defaults. -/
theorem FMap.getD_set_ne [DecidableEq α] (m : FMap α) (d e : α) (k j : Nat) (v : α) (h : k ≠ j) :
    FMap.getD (FMap.set m d k v) j e = FMap.getD m j e := by
  unfold FMap.set
  split_ifs <;> simp [h]

@[simp] theorem FMap.find?_nil (k : Nat) : FMap.find? ([] : FMap α) k = none := rfl

/-- The listed value after an insertion. -/
@[simp] theorem FMap.find?_insert (m : FMap α) (k j : Nat) (v : α) :
    FMap.find? (FMap.insert m k v) j = if k = j then some v else FMap.find? m j := by
  induction m with
  | nil => simp [FMap.insert, FMap.find?]
  | cons e r ih =>
    obtain ⟨i, w⟩ := e
    simp only [FMap.insert]
    split_ifs with h1 h2 <;> simp only [FMap.find?] <;> split_ifs <;> simp_all

/-- The listed value after a removal. -/
@[simp] theorem FMap.find?_remove (m : FMap α) (k j : Nat) :
    FMap.find? (FMap.remove m k) j = if k = j then none else FMap.find? m j := by
  induction m with
  | nil => simp [FMap.remove, FMap.find?]
  | cons e r ih =>
    obtain ⟨i, w⟩ := e
    simp only [FMap.remove]
    split_ifs with h1 <;> simp only [FMap.find?, ih] <;> split_ifs <;> simp_all

/-! ## The canonical form -/

theorem FMap.sorted_mono {lo lo' : Nat} {m : FMap α} (h : FMap.sorted lo m = true) (hl : lo' ≤ lo) :
    FMap.sorted lo' m = true := by
  cases m with
  | nil => rfl
  | cons e r =>
    obtain ⟨j, v⟩ := e
    simp only [FMap.sorted, Bool.and_eq_true, decide_eq_true_eq] at h ⊢
    exact ⟨by omega, h.2⟩

theorem FMap.sorted_insert {lo k : Nat} {m : FMap α} (v : α) (h : FMap.sorted lo m = true) (hk : lo ≤ k) :
    FMap.sorted lo (FMap.insert m k v) = true := by
  induction m generalizing lo with
  | nil => simp [FMap.insert, FMap.sorted, hk]
  | cons e r ih =>
    obtain ⟨j, w⟩ := e
    simp only [FMap.sorted, Bool.and_eq_true, decide_eq_true_eq] at h
    simp only [FMap.insert]
    split_ifs with h1 h2
    · simp only [FMap.sorted, Bool.and_eq_true, decide_eq_true_eq]
      exact ⟨h.1, ih h.2 (by omega)⟩
    · subst h2
      simp only [FMap.sorted, Bool.and_eq_true, decide_eq_true_eq]
      exact h
    · simp only [FMap.sorted, Bool.and_eq_true, decide_eq_true_eq]
      exact ⟨hk, by omega, h.2⟩

theorem FMap.sorted_remove {lo k : Nat} {m : FMap α} (h : FMap.sorted lo m = true) :
    FMap.sorted lo (FMap.remove m k) = true := by
  induction m generalizing lo with
  | nil => rfl
  | cons e r ih =>
    obtain ⟨j, w⟩ := e
    simp only [FMap.sorted, Bool.and_eq_true, decide_eq_true_eq] at h
    simp only [FMap.remove]
    split_ifs with h1
    · exact FMap.sorted_mono (ih h.2) (by omega)
    · simp only [FMap.sorted, Bool.and_eq_true, decide_eq_true_eq]
      exact ⟨h.1, ih h.2⟩

theorem FMap.sorted_filter {lo : Nat} {m : FMap α} (p : Nat × α → Bool) (h : FMap.sorted lo m = true) :
    FMap.sorted lo (m.filter p) = true := by
  induction m generalizing lo with
  | nil => rfl
  | cons e r ih =>
    obtain ⟨j, w⟩ := e
    simp only [FMap.sorted, Bool.and_eq_true, decide_eq_true_eq] at h
    rw [List.filter_cons]
    split_ifs with h1
    · simp only [FMap.sorted, Bool.and_eq_true, decide_eq_true_eq]
      exact ⟨h.1, ih h.2⟩
    · exact FMap.sorted_mono (ih h.2) (by omega)

theorem FMap.mem_insert {m : FMap α} {k : Nat} {v : α} {e : Nat × α} (h : e ∈ FMap.insert m k v) :
    e = (k, v) ∨ e ∈ m := by
  induction m with
  | nil => simpa [FMap.insert] using h
  | cons x r ih =>
    obtain ⟨j, w⟩ := x
    simp only [FMap.insert] at h
    split_ifs at h <;> simp only [List.mem_cons] at h ⊢ <;> tauto

theorem FMap.mem_remove {m : FMap α} {k : Nat} {e : Nat × α} (h : e ∈ FMap.remove m k) : e ∈ m := by
  induction m with
  | nil => exact h
  | cons x r ih =>
    obtain ⟨j, w⟩ := x
    simp only [FMap.remove] at h
    split_ifs at h <;> simp only [List.mem_cons] at h ⊢ <;> tauto

/-- A write keeps the canonical form. -/
theorem FMap.wf_set [DecidableEq α] {d : Nat → α} {m : FMap α} (k : Nat) (v : α) (h : FMap.wf d m = true) :
    FMap.wf d (FMap.set m (d k) k v) = true := by
  simp only [FMap.wf, Bool.and_eq_true, List.all_eq_true, Bool.not_eq_true', decide_eq_false_iff_not] at h ⊢
  unfold FMap.set
  split_ifs with hv
  · exact ⟨FMap.sorted_remove h.1, fun e he => h.2 e (FMap.mem_remove he)⟩
  · refine ⟨FMap.sorted_insert v h.1 (Nat.zero_le k), fun e he => ?_⟩
    rcases FMap.mem_insert he with rfl | he
    · exact hv
    · exact h.2 e he

/-- Leaving out entries keeps the canonical form, also for another default that agrees on what is left. -/
theorem FMap.wf_filter [DecidableEq α] {d d' : Nat → α} {m : FMap α} (p : Nat × α → Bool) (h : FMap.wf d m = true)
    (hd : ∀ e ∈ m, p e = true → d' e.1 = d e.1) : FMap.wf d' (m.filter p) = true := by
  simp only [FMap.wf, Bool.and_eq_true, List.all_eq_true, Bool.not_eq_true', decide_eq_false_iff_not] at h ⊢
  refine ⟨FMap.sorted_filter p h.1, fun e he => ?_⟩
  rw [List.mem_filter] at he
  rw [hd e he.1 he.2]
  exact h.2 e he.1

end Sys2Proof.Machine
end

