-- ==== Sys2Proof/Laws/State.lean ====
section
/-! SUPPORT. Laws of the updates of the device: what each leaves alone, and what a read of a unit gives after one. -/
namespace Sys2Proof.Machine

/-! ## What an update leaves alone -/

@[simp] theorem Dev.setReg_frame (d : Dev) (r : Reg) (v : Word) :
    (d.setReg r v).mem = d.mem ∧ (d.setReg r v).srams = d.srams ∧ (d.setReg r v).hbm = d.hbm ∧
    (d.setReg r v).nea = d.nea ∧ (d.setReg r v).pkgs = d.pkgs ∧ (d.setReg r v).slowK = d.slowK ∧
    (d.setReg r v).mirrors = d.mirrors ∧ (d.setReg r v).phys = d.phys ∧ (d.setReg r v).cores = d.cores ∧
    (d.setReg r v).sems = d.sems ∧ (d.setReg r v).semReqs = d.semReqs ∧ (d.setReg r v).semDone = d.semDone ∧
    (d.setReg r v).nextReq = d.nextReq ∧ (d.setReg r v).gens = d.gens ∧ (d.setReg r v).dma = d.dma ∧
    (d.setReg r v).cvus = d.cvus ∧ (d.setReg r v).ports = d.ports ∧ (d.setReg r v).links = d.links ∧
    (d.setReg r v).meshes = d.meshes ∧ (d.setReg r v).reds = d.reds ∧ (d.setReg r v).redHeld = d.redHeld ∧
    (d.setReg r v).peFailed = d.peFailed ∧ (d.setReg r v).peMoves = d.peMoves ∧ (d.setReg r v).parts = d.parts ∧
    (d.setReg r v).tempo = d.tempo ∧ (d.setReg r v).tmp = d.tmp ∧ (d.setReg r v).sets = d.sets ∧
    (d.setReg r v).stalling = d.stalling ∧ (d.setReg r v).stalled = d.stalled ∧ (d.setReg r v).pwr = d.pwr ∧
    (d.setReg r v).plls = d.plls ∧ (d.setReg r v).watts = d.watts ∧ (d.setReg r v).wattsPeak = d.wattsPeak ∧
    (d.setReg r v).amps = d.amps ∧ (d.setReg r v).gated = d.gated ∧ (d.setReg r v).fuses = d.fuses ∧
    (d.setReg r v).flashB = d.flashB ∧ (d.setReg r v).sec = d.sec ∧ (d.setReg r v).harts = d.harts ∧
    (d.setReg r v).mail = d.mail ∧ (d.setReg r v).mgtUp = d.mgtUp ∧ (d.setReg r v).mgtFec = d.mgtFec ∧
    (d.setReg r v).session = d.session ∧ (d.setReg r v).resetN = d.resetN ∧ (d.setReg r v).vin = d.vin ∧
    (d.setReg r v).trip = d.trip ∧ (d.setReg r v).stopped = d.stopped ∧ (d.setReg r v).raised = d.raised ∧
    (d.setReg r v).faults = d.faults ∧ (d.setReg r v).prunes = d.prunes ∧ (d.setReg r v).pruneDue = d.pruneDue ∧
    (d.setReg r v).outs = d.outs ∧ (d.setReg r v).fresh = d.fresh := by
  and_intros <;> rfl

@[simp] theorem Dev.setRegFld_frame (d : Dev) (r : Reg) (hi lo v : Nat) :
    (d.setRegFld r hi lo v).mem = d.mem ∧ (d.setRegFld r hi lo v).srams = d.srams ∧
    (d.setRegFld r hi lo v).hbm = d.hbm ∧ (d.setRegFld r hi lo v).nea = d.nea ∧ (d.setRegFld r hi lo v).pkgs = d.pkgs ∧
    (d.setRegFld r hi lo v).slowK = d.slowK ∧ (d.setRegFld r hi lo v).mirrors = d.mirrors ∧
    (d.setRegFld r hi lo v).phys = d.phys ∧ (d.setRegFld r hi lo v).cores = d.cores ∧
    (d.setRegFld r hi lo v).sems = d.sems ∧ (d.setRegFld r hi lo v).semReqs = d.semReqs ∧
    (d.setRegFld r hi lo v).semDone = d.semDone ∧ (d.setRegFld r hi lo v).nextReq = d.nextReq ∧
    (d.setRegFld r hi lo v).gens = d.gens ∧ (d.setRegFld r hi lo v).dma = d.dma ∧
    (d.setRegFld r hi lo v).cvus = d.cvus ∧ (d.setRegFld r hi lo v).ports = d.ports ∧
    (d.setRegFld r hi lo v).links = d.links ∧ (d.setRegFld r hi lo v).meshes = d.meshes ∧
    (d.setRegFld r hi lo v).reds = d.reds ∧ (d.setRegFld r hi lo v).redHeld = d.redHeld ∧
    (d.setRegFld r hi lo v).peFailed = d.peFailed ∧ (d.setRegFld r hi lo v).peMoves = d.peMoves ∧
    (d.setRegFld r hi lo v).parts = d.parts ∧ (d.setRegFld r hi lo v).tempo = d.tempo ∧
    (d.setRegFld r hi lo v).tmp = d.tmp ∧ (d.setRegFld r hi lo v).sets = d.sets ∧
    (d.setRegFld r hi lo v).stalling = d.stalling ∧ (d.setRegFld r hi lo v).stalled = d.stalled ∧
    (d.setRegFld r hi lo v).pwr = d.pwr ∧ (d.setRegFld r hi lo v).plls = d.plls ∧
    (d.setRegFld r hi lo v).watts = d.watts ∧ (d.setRegFld r hi lo v).wattsPeak = d.wattsPeak ∧
    (d.setRegFld r hi lo v).amps = d.amps ∧ (d.setRegFld r hi lo v).gated = d.gated ∧
    (d.setRegFld r hi lo v).fuses = d.fuses ∧ (d.setRegFld r hi lo v).flashB = d.flashB ∧
    (d.setRegFld r hi lo v).sec = d.sec ∧ (d.setRegFld r hi lo v).harts = d.harts ∧
    (d.setRegFld r hi lo v).mail = d.mail ∧ (d.setRegFld r hi lo v).mgtUp = d.mgtUp ∧
    (d.setRegFld r hi lo v).mgtFec = d.mgtFec ∧ (d.setRegFld r hi lo v).session = d.session ∧
    (d.setRegFld r hi lo v).resetN = d.resetN ∧ (d.setRegFld r hi lo v).vin = d.vin ∧
    (d.setRegFld r hi lo v).trip = d.trip ∧ (d.setRegFld r hi lo v).stopped = d.stopped ∧
    (d.setRegFld r hi lo v).raised = d.raised ∧ (d.setRegFld r hi lo v).faults = d.faults ∧
    (d.setRegFld r hi lo v).prunes = d.prunes ∧ (d.setRegFld r hi lo v).pruneDue = d.pruneDue ∧
    (d.setRegFld r hi lo v).outs = d.outs ∧ (d.setRegFld r hi lo v).fresh = d.fresh := by
  and_intros <;> rfl

@[simp] theorem Dev.count_frame (d : Dev) (r : Reg) (hi lo k : Nat) :
    (d.count r hi lo k).mem = d.mem ∧ (d.count r hi lo k).srams = d.srams ∧ (d.count r hi lo k).hbm = d.hbm ∧
    (d.count r hi lo k).nea = d.nea ∧ (d.count r hi lo k).pkgs = d.pkgs ∧ (d.count r hi lo k).slowK = d.slowK ∧
    (d.count r hi lo k).mirrors = d.mirrors ∧ (d.count r hi lo k).phys = d.phys ∧ (d.count r hi lo k).cores = d.cores ∧
    (d.count r hi lo k).sems = d.sems ∧ (d.count r hi lo k).semReqs = d.semReqs ∧
    (d.count r hi lo k).semDone = d.semDone ∧ (d.count r hi lo k).nextReq = d.nextReq ∧
    (d.count r hi lo k).gens = d.gens ∧ (d.count r hi lo k).dma = d.dma ∧ (d.count r hi lo k).cvus = d.cvus ∧
    (d.count r hi lo k).ports = d.ports ∧ (d.count r hi lo k).links = d.links ∧ (d.count r hi lo k).meshes = d.meshes ∧
    (d.count r hi lo k).reds = d.reds ∧ (d.count r hi lo k).redHeld = d.redHeld ∧
    (d.count r hi lo k).peFailed = d.peFailed ∧ (d.count r hi lo k).peMoves = d.peMoves ∧
    (d.count r hi lo k).parts = d.parts ∧ (d.count r hi lo k).tempo = d.tempo ∧ (d.count r hi lo k).tmp = d.tmp ∧
    (d.count r hi lo k).sets = d.sets ∧ (d.count r hi lo k).stalling = d.stalling ∧
    (d.count r hi lo k).stalled = d.stalled ∧ (d.count r hi lo k).pwr = d.pwr ∧ (d.count r hi lo k).plls = d.plls ∧
    (d.count r hi lo k).watts = d.watts ∧ (d.count r hi lo k).wattsPeak = d.wattsPeak ∧
    (d.count r hi lo k).amps = d.amps ∧ (d.count r hi lo k).gated = d.gated ∧ (d.count r hi lo k).fuses = d.fuses ∧
    (d.count r hi lo k).flashB = d.flashB ∧ (d.count r hi lo k).sec = d.sec ∧ (d.count r hi lo k).harts = d.harts ∧
    (d.count r hi lo k).mail = d.mail ∧ (d.count r hi lo k).mgtUp = d.mgtUp ∧ (d.count r hi lo k).mgtFec = d.mgtFec ∧
    (d.count r hi lo k).session = d.session ∧ (d.count r hi lo k).resetN = d.resetN ∧ (d.count r hi lo k).vin = d.vin ∧
    (d.count r hi lo k).trip = d.trip ∧ (d.count r hi lo k).stopped = d.stopped ∧
    (d.count r hi lo k).raised = d.raised ∧ (d.count r hi lo k).faults = d.faults ∧
    (d.count r hi lo k).prunes = d.prunes ∧ (d.count r hi lo k).pruneDue = d.pruneDue ∧
    (d.count r hi lo k).outs = d.outs ∧ (d.count r hi lo k).fresh = d.fresh := by
  and_intros <;> rfl

@[simp] theorem Dev.setCore_frame (d : Dev) (c : Nat) (x : Core) :
    (d.setCore c x).regs = d.regs ∧ (d.setCore c x).mem = d.mem ∧ (d.setCore c x).srams = d.srams ∧
    (d.setCore c x).hbm = d.hbm ∧ (d.setCore c x).nea = d.nea ∧ (d.setCore c x).pkgs = d.pkgs ∧
    (d.setCore c x).slowK = d.slowK ∧ (d.setCore c x).mirrors = d.mirrors ∧ (d.setCore c x).phys = d.phys ∧
    (d.setCore c x).sems = d.sems ∧ (d.setCore c x).semReqs = d.semReqs ∧ (d.setCore c x).semDone = d.semDone ∧
    (d.setCore c x).nextReq = d.nextReq ∧ (d.setCore c x).gens = d.gens ∧ (d.setCore c x).dma = d.dma ∧
    (d.setCore c x).cvus = d.cvus ∧ (d.setCore c x).ports = d.ports ∧ (d.setCore c x).links = d.links ∧
    (d.setCore c x).meshes = d.meshes ∧ (d.setCore c x).reds = d.reds ∧ (d.setCore c x).redHeld = d.redHeld ∧
    (d.setCore c x).peFailed = d.peFailed ∧ (d.setCore c x).peMoves = d.peMoves ∧ (d.setCore c x).parts = d.parts ∧
    (d.setCore c x).tempo = d.tempo ∧ (d.setCore c x).tmp = d.tmp ∧ (d.setCore c x).sets = d.sets ∧
    (d.setCore c x).stalling = d.stalling ∧ (d.setCore c x).stalled = d.stalled ∧ (d.setCore c x).pwr = d.pwr ∧
    (d.setCore c x).plls = d.plls ∧ (d.setCore c x).watts = d.watts ∧ (d.setCore c x).wattsPeak = d.wattsPeak ∧
    (d.setCore c x).amps = d.amps ∧ (d.setCore c x).gated = d.gated ∧ (d.setCore c x).fuses = d.fuses ∧
    (d.setCore c x).flashB = d.flashB ∧ (d.setCore c x).sec = d.sec ∧ (d.setCore c x).harts = d.harts ∧
    (d.setCore c x).mail = d.mail ∧ (d.setCore c x).mgtUp = d.mgtUp ∧ (d.setCore c x).mgtFec = d.mgtFec ∧
    (d.setCore c x).session = d.session ∧ (d.setCore c x).resetN = d.resetN ∧ (d.setCore c x).vin = d.vin ∧
    (d.setCore c x).trip = d.trip ∧ (d.setCore c x).stopped = d.stopped ∧ (d.setCore c x).raised = d.raised ∧
    (d.setCore c x).faults = d.faults ∧ (d.setCore c x).prunes = d.prunes ∧ (d.setCore c x).pruneDue = d.pruneDue ∧
    (d.setCore c x).outs = d.outs ∧ (d.setCore c x).fresh = d.fresh := by
  and_intros <;> rfl

@[simp] theorem Dev.onCore_frame (d : Dev) (c : Nat) (f : Core → Core) :
    (d.onCore c f).regs = d.regs ∧ (d.onCore c f).mem = d.mem ∧ (d.onCore c f).srams = d.srams ∧
    (d.onCore c f).hbm = d.hbm ∧ (d.onCore c f).nea = d.nea ∧ (d.onCore c f).pkgs = d.pkgs ∧
    (d.onCore c f).slowK = d.slowK ∧ (d.onCore c f).mirrors = d.mirrors ∧ (d.onCore c f).phys = d.phys ∧
    (d.onCore c f).sems = d.sems ∧ (d.onCore c f).semReqs = d.semReqs ∧ (d.onCore c f).semDone = d.semDone ∧
    (d.onCore c f).nextReq = d.nextReq ∧ (d.onCore c f).gens = d.gens ∧ (d.onCore c f).dma = d.dma ∧
    (d.onCore c f).cvus = d.cvus ∧ (d.onCore c f).ports = d.ports ∧ (d.onCore c f).links = d.links ∧
    (d.onCore c f).meshes = d.meshes ∧ (d.onCore c f).reds = d.reds ∧ (d.onCore c f).redHeld = d.redHeld ∧
    (d.onCore c f).peFailed = d.peFailed ∧ (d.onCore c f).peMoves = d.peMoves ∧ (d.onCore c f).parts = d.parts ∧
    (d.onCore c f).tempo = d.tempo ∧ (d.onCore c f).tmp = d.tmp ∧ (d.onCore c f).sets = d.sets ∧
    (d.onCore c f).stalling = d.stalling ∧ (d.onCore c f).stalled = d.stalled ∧ (d.onCore c f).pwr = d.pwr ∧
    (d.onCore c f).plls = d.plls ∧ (d.onCore c f).watts = d.watts ∧ (d.onCore c f).wattsPeak = d.wattsPeak ∧
    (d.onCore c f).amps = d.amps ∧ (d.onCore c f).gated = d.gated ∧ (d.onCore c f).fuses = d.fuses ∧
    (d.onCore c f).flashB = d.flashB ∧ (d.onCore c f).sec = d.sec ∧ (d.onCore c f).harts = d.harts ∧
    (d.onCore c f).mail = d.mail ∧ (d.onCore c f).mgtUp = d.mgtUp ∧ (d.onCore c f).mgtFec = d.mgtFec ∧
    (d.onCore c f).session = d.session ∧ (d.onCore c f).resetN = d.resetN ∧ (d.onCore c f).vin = d.vin ∧
    (d.onCore c f).trip = d.trip ∧ (d.onCore c f).stopped = d.stopped ∧ (d.onCore c f).raised = d.raised ∧
    (d.onCore c f).faults = d.faults ∧ (d.onCore c f).prunes = d.prunes ∧ (d.onCore c f).pruneDue = d.pruneDue ∧
    (d.onCore c f).outs = d.outs ∧ (d.onCore c f).fresh = d.fresh := by
  and_intros <;> rfl

@[simp] theorem Dev.onSq_frame (d : Dev) (c : Nat) (f : Sq → Sq) :
    (d.onSq c f).regs = d.regs ∧ (d.onSq c f).mem = d.mem ∧ (d.onSq c f).srams = d.srams ∧ (d.onSq c f).hbm = d.hbm ∧
    (d.onSq c f).nea = d.nea ∧ (d.onSq c f).pkgs = d.pkgs ∧ (d.onSq c f).slowK = d.slowK ∧
    (d.onSq c f).mirrors = d.mirrors ∧ (d.onSq c f).phys = d.phys ∧ (d.onSq c f).sems = d.sems ∧
    (d.onSq c f).semReqs = d.semReqs ∧ (d.onSq c f).semDone = d.semDone ∧ (d.onSq c f).nextReq = d.nextReq ∧
    (d.onSq c f).gens = d.gens ∧ (d.onSq c f).dma = d.dma ∧ (d.onSq c f).cvus = d.cvus ∧ (d.onSq c f).ports = d.ports ∧
    (d.onSq c f).links = d.links ∧ (d.onSq c f).meshes = d.meshes ∧ (d.onSq c f).reds = d.reds ∧
    (d.onSq c f).redHeld = d.redHeld ∧ (d.onSq c f).peFailed = d.peFailed ∧ (d.onSq c f).peMoves = d.peMoves ∧
    (d.onSq c f).parts = d.parts ∧ (d.onSq c f).tempo = d.tempo ∧ (d.onSq c f).tmp = d.tmp ∧
    (d.onSq c f).sets = d.sets ∧ (d.onSq c f).stalling = d.stalling ∧ (d.onSq c f).stalled = d.stalled ∧
    (d.onSq c f).pwr = d.pwr ∧ (d.onSq c f).plls = d.plls ∧ (d.onSq c f).watts = d.watts ∧
    (d.onSq c f).wattsPeak = d.wattsPeak ∧ (d.onSq c f).amps = d.amps ∧ (d.onSq c f).gated = d.gated ∧
    (d.onSq c f).fuses = d.fuses ∧ (d.onSq c f).flashB = d.flashB ∧ (d.onSq c f).sec = d.sec ∧
    (d.onSq c f).harts = d.harts ∧ (d.onSq c f).mail = d.mail ∧ (d.onSq c f).mgtUp = d.mgtUp ∧
    (d.onSq c f).mgtFec = d.mgtFec ∧ (d.onSq c f).session = d.session ∧ (d.onSq c f).resetN = d.resetN ∧
    (d.onSq c f).vin = d.vin ∧ (d.onSq c f).trip = d.trip ∧ (d.onSq c f).stopped = d.stopped ∧
    (d.onSq c f).raised = d.raised ∧ (d.onSq c f).faults = d.faults ∧ (d.onSq c f).prunes = d.prunes ∧
    (d.onSq c f).pruneDue = d.pruneDue ∧ (d.onSq c f).outs = d.outs ∧ (d.onSq c f).fresh = d.fresh := by
  and_intros <;> rfl

@[simp] theorem Dev.onMe_frame (d : Dev) (c : Nat) (f : Me → Me) :
    (d.onMe c f).regs = d.regs ∧ (d.onMe c f).mem = d.mem ∧ (d.onMe c f).srams = d.srams ∧ (d.onMe c f).hbm = d.hbm ∧
    (d.onMe c f).nea = d.nea ∧ (d.onMe c f).pkgs = d.pkgs ∧ (d.onMe c f).slowK = d.slowK ∧
    (d.onMe c f).mirrors = d.mirrors ∧ (d.onMe c f).phys = d.phys ∧ (d.onMe c f).sems = d.sems ∧
    (d.onMe c f).semReqs = d.semReqs ∧ (d.onMe c f).semDone = d.semDone ∧ (d.onMe c f).nextReq = d.nextReq ∧
    (d.onMe c f).gens = d.gens ∧ (d.onMe c f).dma = d.dma ∧ (d.onMe c f).cvus = d.cvus ∧ (d.onMe c f).ports = d.ports ∧
    (d.onMe c f).links = d.links ∧ (d.onMe c f).meshes = d.meshes ∧ (d.onMe c f).reds = d.reds ∧
    (d.onMe c f).redHeld = d.redHeld ∧ (d.onMe c f).peFailed = d.peFailed ∧ (d.onMe c f).peMoves = d.peMoves ∧
    (d.onMe c f).parts = d.parts ∧ (d.onMe c f).tempo = d.tempo ∧ (d.onMe c f).tmp = d.tmp ∧
    (d.onMe c f).sets = d.sets ∧ (d.onMe c f).stalling = d.stalling ∧ (d.onMe c f).stalled = d.stalled ∧
    (d.onMe c f).pwr = d.pwr ∧ (d.onMe c f).plls = d.plls ∧ (d.onMe c f).watts = d.watts ∧
    (d.onMe c f).wattsPeak = d.wattsPeak ∧ (d.onMe c f).amps = d.amps ∧ (d.onMe c f).gated = d.gated ∧
    (d.onMe c f).fuses = d.fuses ∧ (d.onMe c f).flashB = d.flashB ∧ (d.onMe c f).sec = d.sec ∧
    (d.onMe c f).harts = d.harts ∧ (d.onMe c f).mail = d.mail ∧ (d.onMe c f).mgtUp = d.mgtUp ∧
    (d.onMe c f).mgtFec = d.mgtFec ∧ (d.onMe c f).session = d.session ∧ (d.onMe c f).resetN = d.resetN ∧
    (d.onMe c f).vin = d.vin ∧ (d.onMe c f).trip = d.trip ∧ (d.onMe c f).stopped = d.stopped ∧
    (d.onMe c f).raised = d.raised ∧ (d.onMe c f).faults = d.faults ∧ (d.onMe c f).prunes = d.prunes ∧
    (d.onMe c f).pruneDue = d.pruneDue ∧ (d.onMe c f).outs = d.outs ∧ (d.onMe c f).fresh = d.fresh := by
  and_intros <;> rfl

@[simp] theorem Dev.onVe_frame (d : Dev) (c : Nat) (f : Ve → Ve) :
    (d.onVe c f).regs = d.regs ∧ (d.onVe c f).mem = d.mem ∧ (d.onVe c f).srams = d.srams ∧ (d.onVe c f).hbm = d.hbm ∧
    (d.onVe c f).nea = d.nea ∧ (d.onVe c f).pkgs = d.pkgs ∧ (d.onVe c f).slowK = d.slowK ∧
    (d.onVe c f).mirrors = d.mirrors ∧ (d.onVe c f).phys = d.phys ∧ (d.onVe c f).sems = d.sems ∧
    (d.onVe c f).semReqs = d.semReqs ∧ (d.onVe c f).semDone = d.semDone ∧ (d.onVe c f).nextReq = d.nextReq ∧
    (d.onVe c f).gens = d.gens ∧ (d.onVe c f).dma = d.dma ∧ (d.onVe c f).cvus = d.cvus ∧ (d.onVe c f).ports = d.ports ∧
    (d.onVe c f).links = d.links ∧ (d.onVe c f).meshes = d.meshes ∧ (d.onVe c f).reds = d.reds ∧
    (d.onVe c f).redHeld = d.redHeld ∧ (d.onVe c f).peFailed = d.peFailed ∧ (d.onVe c f).peMoves = d.peMoves ∧
    (d.onVe c f).parts = d.parts ∧ (d.onVe c f).tempo = d.tempo ∧ (d.onVe c f).tmp = d.tmp ∧
    (d.onVe c f).sets = d.sets ∧ (d.onVe c f).stalling = d.stalling ∧ (d.onVe c f).stalled = d.stalled ∧
    (d.onVe c f).pwr = d.pwr ∧ (d.onVe c f).plls = d.plls ∧ (d.onVe c f).watts = d.watts ∧
    (d.onVe c f).wattsPeak = d.wattsPeak ∧ (d.onVe c f).amps = d.amps ∧ (d.onVe c f).gated = d.gated ∧
    (d.onVe c f).fuses = d.fuses ∧ (d.onVe c f).flashB = d.flashB ∧ (d.onVe c f).sec = d.sec ∧
    (d.onVe c f).harts = d.harts ∧ (d.onVe c f).mail = d.mail ∧ (d.onVe c f).mgtUp = d.mgtUp ∧
    (d.onVe c f).mgtFec = d.mgtFec ∧ (d.onVe c f).session = d.session ∧ (d.onVe c f).resetN = d.resetN ∧
    (d.onVe c f).vin = d.vin ∧ (d.onVe c f).trip = d.trip ∧ (d.onVe c f).stopped = d.stopped ∧
    (d.onVe c f).raised = d.raised ∧ (d.onVe c f).faults = d.faults ∧ (d.onVe c f).prunes = d.prunes ∧
    (d.onVe c f).pruneDue = d.pruneDue ∧ (d.onVe c f).outs = d.outs ∧ (d.onVe c f).fresh = d.fresh := by
  and_intros <;> rfl

@[simp] theorem Dev.onFte_frame (d : Dev) (c : Nat) (f : Fte → Fte) :
    (d.onFte c f).regs = d.regs ∧ (d.onFte c f).mem = d.mem ∧ (d.onFte c f).srams = d.srams ∧
    (d.onFte c f).hbm = d.hbm ∧ (d.onFte c f).nea = d.nea ∧ (d.onFte c f).pkgs = d.pkgs ∧
    (d.onFte c f).slowK = d.slowK ∧ (d.onFte c f).mirrors = d.mirrors ∧ (d.onFte c f).phys = d.phys ∧
    (d.onFte c f).sems = d.sems ∧ (d.onFte c f).semReqs = d.semReqs ∧ (d.onFte c f).semDone = d.semDone ∧
    (d.onFte c f).nextReq = d.nextReq ∧ (d.onFte c f).gens = d.gens ∧ (d.onFte c f).dma = d.dma ∧
    (d.onFte c f).cvus = d.cvus ∧ (d.onFte c f).ports = d.ports ∧ (d.onFte c f).links = d.links ∧
    (d.onFte c f).meshes = d.meshes ∧ (d.onFte c f).reds = d.reds ∧ (d.onFte c f).redHeld = d.redHeld ∧
    (d.onFte c f).peFailed = d.peFailed ∧ (d.onFte c f).peMoves = d.peMoves ∧ (d.onFte c f).parts = d.parts ∧
    (d.onFte c f).tempo = d.tempo ∧ (d.onFte c f).tmp = d.tmp ∧ (d.onFte c f).sets = d.sets ∧
    (d.onFte c f).stalling = d.stalling ∧ (d.onFte c f).stalled = d.stalled ∧ (d.onFte c f).pwr = d.pwr ∧
    (d.onFte c f).plls = d.plls ∧ (d.onFte c f).watts = d.watts ∧ (d.onFte c f).wattsPeak = d.wattsPeak ∧
    (d.onFte c f).amps = d.amps ∧ (d.onFte c f).gated = d.gated ∧ (d.onFte c f).fuses = d.fuses ∧
    (d.onFte c f).flashB = d.flashB ∧ (d.onFte c f).sec = d.sec ∧ (d.onFte c f).harts = d.harts ∧
    (d.onFte c f).mail = d.mail ∧ (d.onFte c f).mgtUp = d.mgtUp ∧ (d.onFte c f).mgtFec = d.mgtFec ∧
    (d.onFte c f).session = d.session ∧ (d.onFte c f).resetN = d.resetN ∧ (d.onFte c f).vin = d.vin ∧
    (d.onFte c f).trip = d.trip ∧ (d.onFte c f).stopped = d.stopped ∧ (d.onFte c f).raised = d.raised ∧
    (d.onFte c f).faults = d.faults ∧ (d.onFte c f).prunes = d.prunes ∧ (d.onFte c f).pruneDue = d.pruneDue ∧
    (d.onFte c f).outs = d.outs ∧ (d.onFte c f).fresh = d.fresh := by
  and_intros <;> rfl

@[simp] theorem Dev.onEng_frame (d : Dev) (c e : Nat) (f : Eng → Eng) :
    (d.onEng c e f).regs = d.regs ∧ (d.onEng c e f).mem = d.mem ∧ (d.onEng c e f).srams = d.srams ∧
    (d.onEng c e f).hbm = d.hbm ∧ (d.onEng c e f).nea = d.nea ∧ (d.onEng c e f).pkgs = d.pkgs ∧
    (d.onEng c e f).slowK = d.slowK ∧ (d.onEng c e f).mirrors = d.mirrors ∧ (d.onEng c e f).phys = d.phys ∧
    (d.onEng c e f).sems = d.sems ∧ (d.onEng c e f).semReqs = d.semReqs ∧ (d.onEng c e f).semDone = d.semDone ∧
    (d.onEng c e f).nextReq = d.nextReq ∧ (d.onEng c e f).gens = d.gens ∧ (d.onEng c e f).dma = d.dma ∧
    (d.onEng c e f).cvus = d.cvus ∧ (d.onEng c e f).ports = d.ports ∧ (d.onEng c e f).links = d.links ∧
    (d.onEng c e f).meshes = d.meshes ∧ (d.onEng c e f).reds = d.reds ∧ (d.onEng c e f).redHeld = d.redHeld ∧
    (d.onEng c e f).peFailed = d.peFailed ∧ (d.onEng c e f).peMoves = d.peMoves ∧ (d.onEng c e f).parts = d.parts ∧
    (d.onEng c e f).tempo = d.tempo ∧ (d.onEng c e f).tmp = d.tmp ∧ (d.onEng c e f).sets = d.sets ∧
    (d.onEng c e f).stalling = d.stalling ∧ (d.onEng c e f).stalled = d.stalled ∧ (d.onEng c e f).pwr = d.pwr ∧
    (d.onEng c e f).plls = d.plls ∧ (d.onEng c e f).watts = d.watts ∧ (d.onEng c e f).wattsPeak = d.wattsPeak ∧
    (d.onEng c e f).amps = d.amps ∧ (d.onEng c e f).gated = d.gated ∧ (d.onEng c e f).fuses = d.fuses ∧
    (d.onEng c e f).flashB = d.flashB ∧ (d.onEng c e f).sec = d.sec ∧ (d.onEng c e f).harts = d.harts ∧
    (d.onEng c e f).mail = d.mail ∧ (d.onEng c e f).mgtUp = d.mgtUp ∧ (d.onEng c e f).mgtFec = d.mgtFec ∧
    (d.onEng c e f).session = d.session ∧ (d.onEng c e f).resetN = d.resetN ∧ (d.onEng c e f).vin = d.vin ∧
    (d.onEng c e f).trip = d.trip ∧ (d.onEng c e f).stopped = d.stopped ∧ (d.onEng c e f).raised = d.raised ∧
    (d.onEng c e f).faults = d.faults ∧ (d.onEng c e f).prunes = d.prunes ∧ (d.onEng c e f).pruneDue = d.pruneDue ∧
    (d.onEng c e f).outs = d.outs ∧ (d.onEng c e f).fresh = d.fresh := by
  and_intros <;> rfl

@[simp] theorem Dev.setSem_frame (d : Dev) (k : Nat) (x : Sem) :
    (d.setSem k x).regs = d.regs ∧ (d.setSem k x).mem = d.mem ∧ (d.setSem k x).srams = d.srams ∧
    (d.setSem k x).hbm = d.hbm ∧ (d.setSem k x).nea = d.nea ∧ (d.setSem k x).pkgs = d.pkgs ∧
    (d.setSem k x).slowK = d.slowK ∧ (d.setSem k x).mirrors = d.mirrors ∧ (d.setSem k x).phys = d.phys ∧
    (d.setSem k x).cores = d.cores ∧ (d.setSem k x).semReqs = d.semReqs ∧ (d.setSem k x).semDone = d.semDone ∧
    (d.setSem k x).nextReq = d.nextReq ∧ (d.setSem k x).gens = d.gens ∧ (d.setSem k x).dma = d.dma ∧
    (d.setSem k x).cvus = d.cvus ∧ (d.setSem k x).ports = d.ports ∧ (d.setSem k x).links = d.links ∧
    (d.setSem k x).meshes = d.meshes ∧ (d.setSem k x).reds = d.reds ∧ (d.setSem k x).redHeld = d.redHeld ∧
    (d.setSem k x).peFailed = d.peFailed ∧ (d.setSem k x).peMoves = d.peMoves ∧ (d.setSem k x).parts = d.parts ∧
    (d.setSem k x).tempo = d.tempo ∧ (d.setSem k x).tmp = d.tmp ∧ (d.setSem k x).sets = d.sets ∧
    (d.setSem k x).stalling = d.stalling ∧ (d.setSem k x).stalled = d.stalled ∧ (d.setSem k x).pwr = d.pwr ∧
    (d.setSem k x).plls = d.plls ∧ (d.setSem k x).watts = d.watts ∧ (d.setSem k x).wattsPeak = d.wattsPeak ∧
    (d.setSem k x).amps = d.amps ∧ (d.setSem k x).gated = d.gated ∧ (d.setSem k x).fuses = d.fuses ∧
    (d.setSem k x).flashB = d.flashB ∧ (d.setSem k x).sec = d.sec ∧ (d.setSem k x).harts = d.harts ∧
    (d.setSem k x).mail = d.mail ∧ (d.setSem k x).mgtUp = d.mgtUp ∧ (d.setSem k x).mgtFec = d.mgtFec ∧
    (d.setSem k x).session = d.session ∧ (d.setSem k x).resetN = d.resetN ∧ (d.setSem k x).vin = d.vin ∧
    (d.setSem k x).trip = d.trip ∧ (d.setSem k x).stopped = d.stopped ∧ (d.setSem k x).raised = d.raised ∧
    (d.setSem k x).faults = d.faults ∧ (d.setSem k x).prunes = d.prunes ∧ (d.setSem k x).pruneDue = d.pruneDue ∧
    (d.setSem k x).outs = d.outs ∧ (d.setSem k x).fresh = d.fresh := by
  and_intros <;> rfl

@[simp] theorem Dev.onPart_frame (d : Dev) (p : Nat) (f : Part → Part) :
    (d.onPart p f).regs = d.regs ∧ (d.onPart p f).mem = d.mem ∧ (d.onPart p f).srams = d.srams ∧
    (d.onPart p f).hbm = d.hbm ∧ (d.onPart p f).nea = d.nea ∧ (d.onPart p f).pkgs = d.pkgs ∧
    (d.onPart p f).slowK = d.slowK ∧ (d.onPart p f).mirrors = d.mirrors ∧ (d.onPart p f).phys = d.phys ∧
    (d.onPart p f).cores = d.cores ∧ (d.onPart p f).sems = d.sems ∧ (d.onPart p f).semReqs = d.semReqs ∧
    (d.onPart p f).semDone = d.semDone ∧ (d.onPart p f).nextReq = d.nextReq ∧ (d.onPart p f).gens = d.gens ∧
    (d.onPart p f).dma = d.dma ∧ (d.onPart p f).cvus = d.cvus ∧ (d.onPart p f).ports = d.ports ∧
    (d.onPart p f).links = d.links ∧ (d.onPart p f).meshes = d.meshes ∧ (d.onPart p f).reds = d.reds ∧
    (d.onPart p f).redHeld = d.redHeld ∧ (d.onPart p f).peFailed = d.peFailed ∧ (d.onPart p f).peMoves = d.peMoves ∧
    (d.onPart p f).tempo = d.tempo ∧ (d.onPart p f).tmp = d.tmp ∧ (d.onPart p f).sets = d.sets ∧
    (d.onPart p f).stalling = d.stalling ∧ (d.onPart p f).stalled = d.stalled ∧ (d.onPart p f).pwr = d.pwr ∧
    (d.onPart p f).plls = d.plls ∧ (d.onPart p f).watts = d.watts ∧ (d.onPart p f).wattsPeak = d.wattsPeak ∧
    (d.onPart p f).amps = d.amps ∧ (d.onPart p f).gated = d.gated ∧ (d.onPart p f).fuses = d.fuses ∧
    (d.onPart p f).flashB = d.flashB ∧ (d.onPart p f).sec = d.sec ∧ (d.onPart p f).harts = d.harts ∧
    (d.onPart p f).mail = d.mail ∧ (d.onPart p f).mgtUp = d.mgtUp ∧ (d.onPart p f).mgtFec = d.mgtFec ∧
    (d.onPart p f).session = d.session ∧ (d.onPart p f).resetN = d.resetN ∧ (d.onPart p f).vin = d.vin ∧
    (d.onPart p f).trip = d.trip ∧ (d.onPart p f).stopped = d.stopped ∧ (d.onPart p f).raised = d.raised ∧
    (d.onPart p f).faults = d.faults ∧ (d.onPart p f).prunes = d.prunes ∧ (d.onPart p f).pruneDue = d.pruneDue ∧
    (d.onPart p f).outs = d.outs ∧ (d.onPart p f).fresh = d.fresh := by
  and_intros <;> rfl

@[simp] theorem Dev.setGen_frame (d : Dev) (p : Nat) (x : GenTable) :
    (d.setGen p x).regs = d.regs ∧ (d.setGen p x).mem = d.mem ∧ (d.setGen p x).srams = d.srams ∧
    (d.setGen p x).hbm = d.hbm ∧ (d.setGen p x).nea = d.nea ∧ (d.setGen p x).pkgs = d.pkgs ∧
    (d.setGen p x).slowK = d.slowK ∧ (d.setGen p x).mirrors = d.mirrors ∧ (d.setGen p x).phys = d.phys ∧
    (d.setGen p x).cores = d.cores ∧ (d.setGen p x).sems = d.sems ∧ (d.setGen p x).semReqs = d.semReqs ∧
    (d.setGen p x).semDone = d.semDone ∧ (d.setGen p x).nextReq = d.nextReq ∧ (d.setGen p x).dma = d.dma ∧
    (d.setGen p x).cvus = d.cvus ∧ (d.setGen p x).ports = d.ports ∧ (d.setGen p x).links = d.links ∧
    (d.setGen p x).meshes = d.meshes ∧ (d.setGen p x).reds = d.reds ∧ (d.setGen p x).redHeld = d.redHeld ∧
    (d.setGen p x).peFailed = d.peFailed ∧ (d.setGen p x).peMoves = d.peMoves ∧ (d.setGen p x).parts = d.parts ∧
    (d.setGen p x).tempo = d.tempo ∧ (d.setGen p x).tmp = d.tmp ∧ (d.setGen p x).sets = d.sets ∧
    (d.setGen p x).stalling = d.stalling ∧ (d.setGen p x).stalled = d.stalled ∧ (d.setGen p x).pwr = d.pwr ∧
    (d.setGen p x).plls = d.plls ∧ (d.setGen p x).watts = d.watts ∧ (d.setGen p x).wattsPeak = d.wattsPeak ∧
    (d.setGen p x).amps = d.amps ∧ (d.setGen p x).gated = d.gated ∧ (d.setGen p x).fuses = d.fuses ∧
    (d.setGen p x).flashB = d.flashB ∧ (d.setGen p x).sec = d.sec ∧ (d.setGen p x).harts = d.harts ∧
    (d.setGen p x).mail = d.mail ∧ (d.setGen p x).mgtUp = d.mgtUp ∧ (d.setGen p x).mgtFec = d.mgtFec ∧
    (d.setGen p x).session = d.session ∧ (d.setGen p x).resetN = d.resetN ∧ (d.setGen p x).vin = d.vin ∧
    (d.setGen p x).trip = d.trip ∧ (d.setGen p x).stopped = d.stopped ∧ (d.setGen p x).raised = d.raised ∧
    (d.setGen p x).faults = d.faults ∧ (d.setGen p x).prunes = d.prunes ∧ (d.setGen p x).pruneDue = d.pruneDue ∧
    (d.setGen p x).outs = d.outs ∧ (d.setGen p x).fresh = d.fresh := by
  and_intros <;> rfl

@[simp] theorem Dev.onSram_frame (d : Dev) (u : Nat) (f : Sram → Sram) :
    (d.onSram u f).regs = d.regs ∧ (d.onSram u f).mem = d.mem ∧ (d.onSram u f).hbm = d.hbm ∧
    (d.onSram u f).nea = d.nea ∧ (d.onSram u f).pkgs = d.pkgs ∧ (d.onSram u f).slowK = d.slowK ∧
    (d.onSram u f).mirrors = d.mirrors ∧ (d.onSram u f).phys = d.phys ∧ (d.onSram u f).cores = d.cores ∧
    (d.onSram u f).sems = d.sems ∧ (d.onSram u f).semReqs = d.semReqs ∧ (d.onSram u f).semDone = d.semDone ∧
    (d.onSram u f).nextReq = d.nextReq ∧ (d.onSram u f).gens = d.gens ∧ (d.onSram u f).dma = d.dma ∧
    (d.onSram u f).cvus = d.cvus ∧ (d.onSram u f).ports = d.ports ∧ (d.onSram u f).links = d.links ∧
    (d.onSram u f).meshes = d.meshes ∧ (d.onSram u f).reds = d.reds ∧ (d.onSram u f).redHeld = d.redHeld ∧
    (d.onSram u f).peFailed = d.peFailed ∧ (d.onSram u f).peMoves = d.peMoves ∧ (d.onSram u f).parts = d.parts ∧
    (d.onSram u f).tempo = d.tempo ∧ (d.onSram u f).tmp = d.tmp ∧ (d.onSram u f).sets = d.sets ∧
    (d.onSram u f).stalling = d.stalling ∧ (d.onSram u f).stalled = d.stalled ∧ (d.onSram u f).pwr = d.pwr ∧
    (d.onSram u f).plls = d.plls ∧ (d.onSram u f).watts = d.watts ∧ (d.onSram u f).wattsPeak = d.wattsPeak ∧
    (d.onSram u f).amps = d.amps ∧ (d.onSram u f).gated = d.gated ∧ (d.onSram u f).fuses = d.fuses ∧
    (d.onSram u f).flashB = d.flashB ∧ (d.onSram u f).sec = d.sec ∧ (d.onSram u f).harts = d.harts ∧
    (d.onSram u f).mail = d.mail ∧ (d.onSram u f).mgtUp = d.mgtUp ∧ (d.onSram u f).mgtFec = d.mgtFec ∧
    (d.onSram u f).session = d.session ∧ (d.onSram u f).resetN = d.resetN ∧ (d.onSram u f).vin = d.vin ∧
    (d.onSram u f).trip = d.trip ∧ (d.onSram u f).stopped = d.stopped ∧ (d.onSram u f).raised = d.raised ∧
    (d.onSram u f).faults = d.faults ∧ (d.onSram u f).prunes = d.prunes ∧ (d.onSram u f).pruneDue = d.pruneDue ∧
    (d.onSram u f).outs = d.outs ∧ (d.onSram u f).fresh = d.fresh := by
  and_intros <;> rfl

@[simp] theorem Dev.onPhys_frame (d : Dev) (i : Nat) (f : PhysCore → PhysCore) :
    (d.onPhys i f).regs = d.regs ∧ (d.onPhys i f).mem = d.mem ∧ (d.onPhys i f).srams = d.srams ∧
    (d.onPhys i f).hbm = d.hbm ∧ (d.onPhys i f).nea = d.nea ∧ (d.onPhys i f).pkgs = d.pkgs ∧
    (d.onPhys i f).slowK = d.slowK ∧ (d.onPhys i f).mirrors = d.mirrors ∧ (d.onPhys i f).cores = d.cores ∧
    (d.onPhys i f).sems = d.sems ∧ (d.onPhys i f).semReqs = d.semReqs ∧ (d.onPhys i f).semDone = d.semDone ∧
    (d.onPhys i f).nextReq = d.nextReq ∧ (d.onPhys i f).gens = d.gens ∧ (d.onPhys i f).dma = d.dma ∧
    (d.onPhys i f).cvus = d.cvus ∧ (d.onPhys i f).ports = d.ports ∧ (d.onPhys i f).links = d.links ∧
    (d.onPhys i f).meshes = d.meshes ∧ (d.onPhys i f).reds = d.reds ∧ (d.onPhys i f).redHeld = d.redHeld ∧
    (d.onPhys i f).peFailed = d.peFailed ∧ (d.onPhys i f).peMoves = d.peMoves ∧ (d.onPhys i f).parts = d.parts ∧
    (d.onPhys i f).tempo = d.tempo ∧ (d.onPhys i f).tmp = d.tmp ∧ (d.onPhys i f).sets = d.sets ∧
    (d.onPhys i f).stalling = d.stalling ∧ (d.onPhys i f).stalled = d.stalled ∧ (d.onPhys i f).pwr = d.pwr ∧
    (d.onPhys i f).plls = d.plls ∧ (d.onPhys i f).watts = d.watts ∧ (d.onPhys i f).wattsPeak = d.wattsPeak ∧
    (d.onPhys i f).amps = d.amps ∧ (d.onPhys i f).gated = d.gated ∧ (d.onPhys i f).fuses = d.fuses ∧
    (d.onPhys i f).flashB = d.flashB ∧ (d.onPhys i f).sec = d.sec ∧ (d.onPhys i f).harts = d.harts ∧
    (d.onPhys i f).mail = d.mail ∧ (d.onPhys i f).mgtUp = d.mgtUp ∧ (d.onPhys i f).mgtFec = d.mgtFec ∧
    (d.onPhys i f).session = d.session ∧ (d.onPhys i f).resetN = d.resetN ∧ (d.onPhys i f).vin = d.vin ∧
    (d.onPhys i f).trip = d.trip ∧ (d.onPhys i f).stopped = d.stopped ∧ (d.onPhys i f).raised = d.raised ∧
    (d.onPhys i f).faults = d.faults ∧ (d.onPhys i f).prunes = d.prunes ∧ (d.onPhys i f).pruneDue = d.pruneDue ∧
    (d.onPhys i f).outs = d.outs ∧ (d.onPhys i f).fresh = d.fresh := by
  and_intros <;> rfl

@[simp] theorem Dev.raiseAs_frame (d : Dev) (cls : EvClass) (code : Nat) (part : Option Nat) (unit detail : Nat) :
    (d.raiseAs cls code part unit detail).regs = d.regs ∧ (d.raiseAs cls code part unit detail).mem = d.mem ∧
    (d.raiseAs cls code part unit detail).srams = d.srams ∧ (d.raiseAs cls code part unit detail).hbm = d.hbm ∧
    (d.raiseAs cls code part unit detail).nea = d.nea ∧ (d.raiseAs cls code part unit detail).pkgs = d.pkgs ∧
    (d.raiseAs cls code part unit detail).slowK = d.slowK ∧ (d.raiseAs cls code part unit detail).mirrors = d.mirrors ∧
    (d.raiseAs cls code part unit detail).phys = d.phys ∧ (d.raiseAs cls code part unit detail).cores = d.cores ∧
    (d.raiseAs cls code part unit detail).sems = d.sems ∧ (d.raiseAs cls code part unit detail).semReqs = d.semReqs ∧
    (d.raiseAs cls code part unit detail).semDone = d.semDone ∧
    (d.raiseAs cls code part unit detail).nextReq = d.nextReq ∧ (d.raiseAs cls code part unit detail).gens = d.gens ∧
    (d.raiseAs cls code part unit detail).dma = d.dma ∧ (d.raiseAs cls code part unit detail).cvus = d.cvus ∧
    (d.raiseAs cls code part unit detail).ports = d.ports ∧ (d.raiseAs cls code part unit detail).links = d.links ∧
    (d.raiseAs cls code part unit detail).meshes = d.meshes ∧ (d.raiseAs cls code part unit detail).reds = d.reds ∧
    (d.raiseAs cls code part unit detail).redHeld = d.redHeld ∧
    (d.raiseAs cls code part unit detail).peFailed = d.peFailed ∧
    (d.raiseAs cls code part unit detail).peMoves = d.peMoves ∧ (d.raiseAs cls code part unit detail).parts = d.parts ∧
    (d.raiseAs cls code part unit detail).tempo = d.tempo ∧ (d.raiseAs cls code part unit detail).tmp = d.tmp ∧
    (d.raiseAs cls code part unit detail).sets = d.sets ∧ (d.raiseAs cls code part unit detail).stalling = d.stalling ∧
    (d.raiseAs cls code part unit detail).stalled = d.stalled ∧ (d.raiseAs cls code part unit detail).pwr = d.pwr ∧
    (d.raiseAs cls code part unit detail).plls = d.plls ∧ (d.raiseAs cls code part unit detail).watts = d.watts ∧
    (d.raiseAs cls code part unit detail).wattsPeak = d.wattsPeak ∧
    (d.raiseAs cls code part unit detail).amps = d.amps ∧ (d.raiseAs cls code part unit detail).gated = d.gated ∧
    (d.raiseAs cls code part unit detail).fuses = d.fuses ∧ (d.raiseAs cls code part unit detail).flashB = d.flashB ∧
    (d.raiseAs cls code part unit detail).sec = d.sec ∧ (d.raiseAs cls code part unit detail).harts = d.harts ∧
    (d.raiseAs cls code part unit detail).mail = d.mail ∧ (d.raiseAs cls code part unit detail).mgtUp = d.mgtUp ∧
    (d.raiseAs cls code part unit detail).mgtFec = d.mgtFec ∧
    (d.raiseAs cls code part unit detail).session = d.session ∧
    (d.raiseAs cls code part unit detail).resetN = d.resetN ∧ (d.raiseAs cls code part unit detail).vin = d.vin ∧
    (d.raiseAs cls code part unit detail).trip = d.trip ∧ (d.raiseAs cls code part unit detail).stopped = d.stopped ∧
    (d.raiseAs cls code part unit detail).faults = d.faults ∧ (d.raiseAs cls code part unit detail).prunes = d.prunes ∧
    (d.raiseAs cls code part unit detail).pruneDue = d.pruneDue ∧ (d.raiseAs cls code part unit detail).outs = d.outs ∧
    (d.raiseAs cls code part unit detail).fresh = d.fresh := by
  and_intros <;> rfl

@[simp] theorem Dev.raise_frame (d : Dev) (code : Nat) (part : Option Nat) (unit : Nat) :
    (d.raise code part unit).regs = d.regs ∧ (d.raise code part unit).mem = d.mem ∧
    (d.raise code part unit).srams = d.srams ∧ (d.raise code part unit).hbm = d.hbm ∧
    (d.raise code part unit).nea = d.nea ∧ (d.raise code part unit).pkgs = d.pkgs ∧
    (d.raise code part unit).slowK = d.slowK ∧ (d.raise code part unit).mirrors = d.mirrors ∧
    (d.raise code part unit).phys = d.phys ∧ (d.raise code part unit).cores = d.cores ∧
    (d.raise code part unit).sems = d.sems ∧ (d.raise code part unit).semReqs = d.semReqs ∧
    (d.raise code part unit).semDone = d.semDone ∧ (d.raise code part unit).nextReq = d.nextReq ∧
    (d.raise code part unit).gens = d.gens ∧ (d.raise code part unit).dma = d.dma ∧
    (d.raise code part unit).cvus = d.cvus ∧ (d.raise code part unit).ports = d.ports ∧
    (d.raise code part unit).links = d.links ∧ (d.raise code part unit).meshes = d.meshes ∧
    (d.raise code part unit).reds = d.reds ∧ (d.raise code part unit).redHeld = d.redHeld ∧
    (d.raise code part unit).peFailed = d.peFailed ∧ (d.raise code part unit).peMoves = d.peMoves ∧
    (d.raise code part unit).parts = d.parts ∧ (d.raise code part unit).tempo = d.tempo ∧
    (d.raise code part unit).tmp = d.tmp ∧ (d.raise code part unit).sets = d.sets ∧
    (d.raise code part unit).stalling = d.stalling ∧ (d.raise code part unit).stalled = d.stalled ∧
    (d.raise code part unit).pwr = d.pwr ∧ (d.raise code part unit).plls = d.plls ∧
    (d.raise code part unit).watts = d.watts ∧ (d.raise code part unit).wattsPeak = d.wattsPeak ∧
    (d.raise code part unit).amps = d.amps ∧ (d.raise code part unit).gated = d.gated ∧
    (d.raise code part unit).fuses = d.fuses ∧ (d.raise code part unit).flashB = d.flashB ∧
    (d.raise code part unit).sec = d.sec ∧ (d.raise code part unit).harts = d.harts ∧
    (d.raise code part unit).mail = d.mail ∧ (d.raise code part unit).mgtUp = d.mgtUp ∧
    (d.raise code part unit).mgtFec = d.mgtFec ∧ (d.raise code part unit).session = d.session ∧
    (d.raise code part unit).resetN = d.resetN ∧ (d.raise code part unit).vin = d.vin ∧
    (d.raise code part unit).trip = d.trip ∧ (d.raise code part unit).stopped = d.stopped ∧
    (d.raise code part unit).faults = d.faults ∧ (d.raise code part unit).prunes = d.prunes ∧
    (d.raise code part unit).pruneDue = d.pruneDue ∧ (d.raise code part unit).outs = d.outs ∧
    (d.raise code part unit).fresh = d.fresh := by
  and_intros <;> rfl

@[simp] theorem Dev.raiseCore_frame (d : Dev) (code c : Nat) :
    (d.raiseCore code c).regs = d.regs ∧ (d.raiseCore code c).mem = d.mem ∧ (d.raiseCore code c).srams = d.srams ∧
    (d.raiseCore code c).hbm = d.hbm ∧ (d.raiseCore code c).nea = d.nea ∧ (d.raiseCore code c).pkgs = d.pkgs ∧
    (d.raiseCore code c).slowK = d.slowK ∧ (d.raiseCore code c).mirrors = d.mirrors ∧
    (d.raiseCore code c).phys = d.phys ∧ (d.raiseCore code c).cores = d.cores ∧ (d.raiseCore code c).sems = d.sems ∧
    (d.raiseCore code c).semReqs = d.semReqs ∧ (d.raiseCore code c).semDone = d.semDone ∧
    (d.raiseCore code c).nextReq = d.nextReq ∧ (d.raiseCore code c).gens = d.gens ∧ (d.raiseCore code c).dma = d.dma ∧
    (d.raiseCore code c).cvus = d.cvus ∧ (d.raiseCore code c).ports = d.ports ∧ (d.raiseCore code c).links = d.links ∧
    (d.raiseCore code c).meshes = d.meshes ∧ (d.raiseCore code c).reds = d.reds ∧
    (d.raiseCore code c).redHeld = d.redHeld ∧ (d.raiseCore code c).peFailed = d.peFailed ∧
    (d.raiseCore code c).peMoves = d.peMoves ∧ (d.raiseCore code c).parts = d.parts ∧
    (d.raiseCore code c).tempo = d.tempo ∧ (d.raiseCore code c).tmp = d.tmp ∧ (d.raiseCore code c).sets = d.sets ∧
    (d.raiseCore code c).stalling = d.stalling ∧ (d.raiseCore code c).stalled = d.stalled ∧
    (d.raiseCore code c).pwr = d.pwr ∧ (d.raiseCore code c).plls = d.plls ∧ (d.raiseCore code c).watts = d.watts ∧
    (d.raiseCore code c).wattsPeak = d.wattsPeak ∧ (d.raiseCore code c).amps = d.amps ∧
    (d.raiseCore code c).gated = d.gated ∧ (d.raiseCore code c).fuses = d.fuses ∧
    (d.raiseCore code c).flashB = d.flashB ∧ (d.raiseCore code c).sec = d.sec ∧ (d.raiseCore code c).harts = d.harts ∧
    (d.raiseCore code c).mail = d.mail ∧ (d.raiseCore code c).mgtUp = d.mgtUp ∧
    (d.raiseCore code c).mgtFec = d.mgtFec ∧ (d.raiseCore code c).session = d.session ∧
    (d.raiseCore code c).resetN = d.resetN ∧ (d.raiseCore code c).vin = d.vin ∧ (d.raiseCore code c).trip = d.trip ∧
    (d.raiseCore code c).stopped = d.stopped ∧ (d.raiseCore code c).faults = d.faults ∧
    (d.raiseCore code c).prunes = d.prunes ∧ (d.raiseCore code c).pruneDue = d.pruneDue ∧
    (d.raiseCore code c).outs = d.outs ∧ (d.raiseCore code c).fresh = d.fresh := by
  and_intros <;> rfl

@[simp] theorem Dev.out_frame (d : Dev) (o : Out) :
    (d.out o).regs = d.regs ∧ (d.out o).mem = d.mem ∧ (d.out o).srams = d.srams ∧ (d.out o).hbm = d.hbm ∧
    (d.out o).nea = d.nea ∧ (d.out o).pkgs = d.pkgs ∧ (d.out o).slowK = d.slowK ∧ (d.out o).mirrors = d.mirrors ∧
    (d.out o).phys = d.phys ∧ (d.out o).cores = d.cores ∧ (d.out o).sems = d.sems ∧ (d.out o).semReqs = d.semReqs ∧
    (d.out o).semDone = d.semDone ∧ (d.out o).nextReq = d.nextReq ∧ (d.out o).gens = d.gens ∧ (d.out o).dma = d.dma ∧
    (d.out o).cvus = d.cvus ∧ (d.out o).ports = d.ports ∧ (d.out o).links = d.links ∧ (d.out o).meshes = d.meshes ∧
    (d.out o).reds = d.reds ∧ (d.out o).redHeld = d.redHeld ∧ (d.out o).peFailed = d.peFailed ∧
    (d.out o).peMoves = d.peMoves ∧ (d.out o).parts = d.parts ∧ (d.out o).tempo = d.tempo ∧ (d.out o).tmp = d.tmp ∧
    (d.out o).sets = d.sets ∧ (d.out o).stalling = d.stalling ∧ (d.out o).stalled = d.stalled ∧ (d.out o).pwr = d.pwr ∧
    (d.out o).plls = d.plls ∧ (d.out o).watts = d.watts ∧ (d.out o).wattsPeak = d.wattsPeak ∧ (d.out o).amps = d.amps ∧
    (d.out o).gated = d.gated ∧ (d.out o).fuses = d.fuses ∧ (d.out o).flashB = d.flashB ∧ (d.out o).sec = d.sec ∧
    (d.out o).harts = d.harts ∧ (d.out o).mail = d.mail ∧ (d.out o).mgtUp = d.mgtUp ∧ (d.out o).mgtFec = d.mgtFec ∧
    (d.out o).session = d.session ∧ (d.out o).resetN = d.resetN ∧ (d.out o).vin = d.vin ∧ (d.out o).trip = d.trip ∧
    (d.out o).stopped = d.stopped ∧ (d.out o).raised = d.raised ∧ (d.out o).faults = d.faults ∧
    (d.out o).prunes = d.prunes ∧ (d.out o).pruneDue = d.pruneDue ∧ (d.out o).fresh = d.fresh := by
  and_intros <;> rfl

@[simp] theorem Dev.tick_frame (d : Dev)  :
    (d.tick).regs = d.regs ∧ (d.tick).mem = d.mem ∧ (d.tick).srams = d.srams ∧ (d.tick).hbm = d.hbm ∧
    (d.tick).nea = d.nea ∧ (d.tick).pkgs = d.pkgs ∧ (d.tick).slowK = d.slowK ∧ (d.tick).mirrors = d.mirrors ∧
    (d.tick).phys = d.phys ∧ (d.tick).cores = d.cores ∧ (d.tick).sems = d.sems ∧ (d.tick).semReqs = d.semReqs ∧
    (d.tick).semDone = d.semDone ∧ (d.tick).nextReq = d.nextReq ∧ (d.tick).gens = d.gens ∧ (d.tick).dma = d.dma ∧
    (d.tick).cvus = d.cvus ∧ (d.tick).ports = d.ports ∧ (d.tick).links = d.links ∧ (d.tick).meshes = d.meshes ∧
    (d.tick).reds = d.reds ∧ (d.tick).redHeld = d.redHeld ∧ (d.tick).peFailed = d.peFailed ∧
    (d.tick).peMoves = d.peMoves ∧ (d.tick).parts = d.parts ∧ (d.tick).tempo = d.tempo ∧ (d.tick).tmp = d.tmp ∧
    (d.tick).sets = d.sets ∧ (d.tick).stalling = d.stalling ∧ (d.tick).stalled = d.stalled ∧ (d.tick).pwr = d.pwr ∧
    (d.tick).plls = d.plls ∧ (d.tick).watts = d.watts ∧ (d.tick).wattsPeak = d.wattsPeak ∧ (d.tick).amps = d.amps ∧
    (d.tick).gated = d.gated ∧ (d.tick).fuses = d.fuses ∧ (d.tick).flashB = d.flashB ∧ (d.tick).sec = d.sec ∧
    (d.tick).harts = d.harts ∧ (d.tick).mail = d.mail ∧ (d.tick).mgtUp = d.mgtUp ∧ (d.tick).mgtFec = d.mgtFec ∧
    (d.tick).session = d.session ∧ (d.tick).resetN = d.resetN ∧ (d.tick).vin = d.vin ∧ (d.tick).trip = d.trip ∧
    (d.tick).stopped = d.stopped ∧ (d.tick).raised = d.raised ∧ (d.tick).faults = d.faults ∧
    (d.tick).prunes = d.prunes ∧ (d.tick).pruneDue = d.pruneDue ∧ (d.tick).outs = d.outs := by
  and_intros <;> rfl

@[simp] theorem Dev.silent_frame (d : Dev)  :
    (d.silent).regs = d.regs ∧ (d.silent).mem = d.mem ∧ (d.silent).srams = d.srams ∧ (d.silent).hbm = d.hbm ∧
    (d.silent).nea = d.nea ∧ (d.silent).pkgs = d.pkgs ∧ (d.silent).slowK = d.slowK ∧ (d.silent).mirrors = d.mirrors ∧
    (d.silent).phys = d.phys ∧ (d.silent).cores = d.cores ∧ (d.silent).sems = d.sems ∧ (d.silent).semReqs = d.semReqs ∧
    (d.silent).semDone = d.semDone ∧ (d.silent).nextReq = d.nextReq ∧ (d.silent).gens = d.gens ∧
    (d.silent).dma = d.dma ∧ (d.silent).cvus = d.cvus ∧ (d.silent).ports = d.ports ∧ (d.silent).links = d.links ∧
    (d.silent).meshes = d.meshes ∧ (d.silent).reds = d.reds ∧ (d.silent).redHeld = d.redHeld ∧
    (d.silent).peFailed = d.peFailed ∧ (d.silent).peMoves = d.peMoves ∧ (d.silent).parts = d.parts ∧
    (d.silent).tempo = d.tempo ∧ (d.silent).tmp = d.tmp ∧ (d.silent).sets = d.sets ∧ (d.silent).stalling = d.stalling ∧
    (d.silent).stalled = d.stalled ∧ (d.silent).pwr = d.pwr ∧ (d.silent).plls = d.plls ∧ (d.silent).watts = d.watts ∧
    (d.silent).wattsPeak = d.wattsPeak ∧ (d.silent).amps = d.amps ∧ (d.silent).gated = d.gated ∧
    (d.silent).fuses = d.fuses ∧ (d.silent).flashB = d.flashB ∧ (d.silent).sec = d.sec ∧ (d.silent).harts = d.harts ∧
    (d.silent).mail = d.mail ∧ (d.silent).mgtUp = d.mgtUp ∧ (d.silent).mgtFec = d.mgtFec ∧
    (d.silent).session = d.session ∧ (d.silent).resetN = d.resetN ∧ (d.silent).vin = d.vin ∧ (d.silent).trip = d.trip ∧
    (d.silent).stopped = d.stopped ∧ (d.silent).raised = d.raised ∧ (d.silent).faults = d.faults ∧
    (d.silent).prunes = d.prunes ∧ (d.silent).pruneDue = d.pruneDue ∧ (d.silent).fresh = d.fresh := by
  and_intros <;> rfl

@[simp] theorem Dev.semSend_frame (d : Dev) (r : SemReq) :
    (d.semSend r).regs = d.regs ∧ (d.semSend r).mem = d.mem ∧ (d.semSend r).srams = d.srams ∧
    (d.semSend r).hbm = d.hbm ∧ (d.semSend r).nea = d.nea ∧ (d.semSend r).pkgs = d.pkgs ∧
    (d.semSend r).slowK = d.slowK ∧ (d.semSend r).mirrors = d.mirrors ∧ (d.semSend r).phys = d.phys ∧
    (d.semSend r).cores = d.cores ∧ (d.semSend r).sems = d.sems ∧ (d.semSend r).semDone = d.semDone ∧
    (d.semSend r).gens = d.gens ∧ (d.semSend r).dma = d.dma ∧ (d.semSend r).cvus = d.cvus ∧
    (d.semSend r).ports = d.ports ∧ (d.semSend r).links = d.links ∧ (d.semSend r).meshes = d.meshes ∧
    (d.semSend r).reds = d.reds ∧ (d.semSend r).redHeld = d.redHeld ∧ (d.semSend r).peFailed = d.peFailed ∧
    (d.semSend r).peMoves = d.peMoves ∧ (d.semSend r).parts = d.parts ∧ (d.semSend r).tempo = d.tempo ∧
    (d.semSend r).tmp = d.tmp ∧ (d.semSend r).sets = d.sets ∧ (d.semSend r).stalling = d.stalling ∧
    (d.semSend r).stalled = d.stalled ∧ (d.semSend r).pwr = d.pwr ∧ (d.semSend r).plls = d.plls ∧
    (d.semSend r).watts = d.watts ∧ (d.semSend r).wattsPeak = d.wattsPeak ∧ (d.semSend r).amps = d.amps ∧
    (d.semSend r).gated = d.gated ∧ (d.semSend r).fuses = d.fuses ∧ (d.semSend r).flashB = d.flashB ∧
    (d.semSend r).sec = d.sec ∧ (d.semSend r).harts = d.harts ∧ (d.semSend r).mail = d.mail ∧
    (d.semSend r).mgtUp = d.mgtUp ∧ (d.semSend r).mgtFec = d.mgtFec ∧ (d.semSend r).session = d.session ∧
    (d.semSend r).resetN = d.resetN ∧ (d.semSend r).vin = d.vin ∧ (d.semSend r).trip = d.trip ∧
    (d.semSend r).stopped = d.stopped ∧ (d.semSend r).raised = d.raised ∧ (d.semSend r).faults = d.faults ∧
    (d.semSend r).prunes = d.prunes ∧ (d.semSend r).pruneDue = d.pruneDue ∧ (d.semSend r).outs = d.outs ∧
    (d.semSend r).fresh = d.fresh := by
  and_intros <;> rfl

@[simp] theorem Dev.onSec_frame (d : Dev) (f : Sec → Sec) :
    (d.onSec f).regs = d.regs ∧ (d.onSec f).mem = d.mem ∧ (d.onSec f).srams = d.srams ∧ (d.onSec f).hbm = d.hbm ∧
    (d.onSec f).nea = d.nea ∧ (d.onSec f).pkgs = d.pkgs ∧ (d.onSec f).slowK = d.slowK ∧
    (d.onSec f).mirrors = d.mirrors ∧ (d.onSec f).phys = d.phys ∧ (d.onSec f).cores = d.cores ∧
    (d.onSec f).sems = d.sems ∧ (d.onSec f).semReqs = d.semReqs ∧ (d.onSec f).semDone = d.semDone ∧
    (d.onSec f).nextReq = d.nextReq ∧ (d.onSec f).gens = d.gens ∧ (d.onSec f).dma = d.dma ∧ (d.onSec f).cvus = d.cvus ∧
    (d.onSec f).ports = d.ports ∧ (d.onSec f).links = d.links ∧ (d.onSec f).meshes = d.meshes ∧
    (d.onSec f).reds = d.reds ∧ (d.onSec f).redHeld = d.redHeld ∧ (d.onSec f).peFailed = d.peFailed ∧
    (d.onSec f).peMoves = d.peMoves ∧ (d.onSec f).parts = d.parts ∧ (d.onSec f).tempo = d.tempo ∧
    (d.onSec f).tmp = d.tmp ∧ (d.onSec f).sets = d.sets ∧ (d.onSec f).stalling = d.stalling ∧
    (d.onSec f).stalled = d.stalled ∧ (d.onSec f).pwr = d.pwr ∧ (d.onSec f).plls = d.plls ∧
    (d.onSec f).watts = d.watts ∧ (d.onSec f).wattsPeak = d.wattsPeak ∧ (d.onSec f).amps = d.amps ∧
    (d.onSec f).gated = d.gated ∧ (d.onSec f).fuses = d.fuses ∧ (d.onSec f).flashB = d.flashB ∧
    (d.onSec f).harts = d.harts ∧ (d.onSec f).mail = d.mail ∧ (d.onSec f).mgtUp = d.mgtUp ∧
    (d.onSec f).mgtFec = d.mgtFec ∧ (d.onSec f).session = d.session ∧ (d.onSec f).resetN = d.resetN ∧
    (d.onSec f).vin = d.vin ∧ (d.onSec f).trip = d.trip ∧ (d.onSec f).stopped = d.stopped ∧
    (d.onSec f).raised = d.raised ∧ (d.onSec f).faults = d.faults ∧ (d.onSec f).prunes = d.prunes ∧
    (d.onSec f).pruneDue = d.pruneDue ∧ (d.onSec f).outs = d.outs ∧ (d.onSec f).fresh = d.fresh := by
  and_intros <;> rfl

@[simp] theorem Dev.onTmp_frame (d : Dev) (f : TempoUnit → TempoUnit) :
    (d.onTmp f).regs = d.regs ∧ (d.onTmp f).mem = d.mem ∧ (d.onTmp f).srams = d.srams ∧ (d.onTmp f).hbm = d.hbm ∧
    (d.onTmp f).nea = d.nea ∧ (d.onTmp f).pkgs = d.pkgs ∧ (d.onTmp f).slowK = d.slowK ∧
    (d.onTmp f).mirrors = d.mirrors ∧ (d.onTmp f).phys = d.phys ∧ (d.onTmp f).cores = d.cores ∧
    (d.onTmp f).sems = d.sems ∧ (d.onTmp f).semReqs = d.semReqs ∧ (d.onTmp f).semDone = d.semDone ∧
    (d.onTmp f).nextReq = d.nextReq ∧ (d.onTmp f).gens = d.gens ∧ (d.onTmp f).dma = d.dma ∧ (d.onTmp f).cvus = d.cvus ∧
    (d.onTmp f).ports = d.ports ∧ (d.onTmp f).links = d.links ∧ (d.onTmp f).meshes = d.meshes ∧
    (d.onTmp f).reds = d.reds ∧ (d.onTmp f).redHeld = d.redHeld ∧ (d.onTmp f).peFailed = d.peFailed ∧
    (d.onTmp f).peMoves = d.peMoves ∧ (d.onTmp f).parts = d.parts ∧ (d.onTmp f).tempo = d.tempo ∧
    (d.onTmp f).sets = d.sets ∧ (d.onTmp f).stalling = d.stalling ∧ (d.onTmp f).stalled = d.stalled ∧
    (d.onTmp f).pwr = d.pwr ∧ (d.onTmp f).plls = d.plls ∧ (d.onTmp f).watts = d.watts ∧
    (d.onTmp f).wattsPeak = d.wattsPeak ∧ (d.onTmp f).amps = d.amps ∧ (d.onTmp f).gated = d.gated ∧
    (d.onTmp f).fuses = d.fuses ∧ (d.onTmp f).flashB = d.flashB ∧ (d.onTmp f).sec = d.sec ∧
    (d.onTmp f).harts = d.harts ∧ (d.onTmp f).mail = d.mail ∧ (d.onTmp f).mgtUp = d.mgtUp ∧
    (d.onTmp f).mgtFec = d.mgtFec ∧ (d.onTmp f).session = d.session ∧ (d.onTmp f).resetN = d.resetN ∧
    (d.onTmp f).vin = d.vin ∧ (d.onTmp f).trip = d.trip ∧ (d.onTmp f).stopped = d.stopped ∧
    (d.onTmp f).raised = d.raised ∧ (d.onTmp f).faults = d.faults ∧ (d.onTmp f).prunes = d.prunes ∧
    (d.onTmp f).pruneDue = d.pruneDue ∧ (d.onTmp f).outs = d.outs ∧ (d.onTmp f).fresh = d.fresh := by
  and_intros <;> rfl

@[simp] theorem Dev.onPort_frame (d : Dev) (q : Nat) (f : Port → Port) :
    (d.onPort q f).regs = d.regs ∧ (d.onPort q f).mem = d.mem ∧ (d.onPort q f).srams = d.srams ∧
    (d.onPort q f).hbm = d.hbm ∧ (d.onPort q f).nea = d.nea ∧ (d.onPort q f).pkgs = d.pkgs ∧
    (d.onPort q f).slowK = d.slowK ∧ (d.onPort q f).mirrors = d.mirrors ∧ (d.onPort q f).phys = d.phys ∧
    (d.onPort q f).cores = d.cores ∧ (d.onPort q f).sems = d.sems ∧ (d.onPort q f).semReqs = d.semReqs ∧
    (d.onPort q f).semDone = d.semDone ∧ (d.onPort q f).nextReq = d.nextReq ∧ (d.onPort q f).gens = d.gens ∧
    (d.onPort q f).dma = d.dma ∧ (d.onPort q f).cvus = d.cvus ∧ (d.onPort q f).links = d.links ∧
    (d.onPort q f).meshes = d.meshes ∧ (d.onPort q f).reds = d.reds ∧ (d.onPort q f).redHeld = d.redHeld ∧
    (d.onPort q f).peFailed = d.peFailed ∧ (d.onPort q f).peMoves = d.peMoves ∧ (d.onPort q f).parts = d.parts ∧
    (d.onPort q f).tempo = d.tempo ∧ (d.onPort q f).tmp = d.tmp ∧ (d.onPort q f).sets = d.sets ∧
    (d.onPort q f).stalling = d.stalling ∧ (d.onPort q f).stalled = d.stalled ∧ (d.onPort q f).pwr = d.pwr ∧
    (d.onPort q f).plls = d.plls ∧ (d.onPort q f).watts = d.watts ∧ (d.onPort q f).wattsPeak = d.wattsPeak ∧
    (d.onPort q f).amps = d.amps ∧ (d.onPort q f).gated = d.gated ∧ (d.onPort q f).fuses = d.fuses ∧
    (d.onPort q f).flashB = d.flashB ∧ (d.onPort q f).sec = d.sec ∧ (d.onPort q f).harts = d.harts ∧
    (d.onPort q f).mail = d.mail ∧ (d.onPort q f).mgtUp = d.mgtUp ∧ (d.onPort q f).mgtFec = d.mgtFec ∧
    (d.onPort q f).session = d.session ∧ (d.onPort q f).resetN = d.resetN ∧ (d.onPort q f).vin = d.vin ∧
    (d.onPort q f).trip = d.trip ∧ (d.onPort q f).stopped = d.stopped ∧ (d.onPort q f).raised = d.raised ∧
    (d.onPort q f).faults = d.faults ∧ (d.onPort q f).prunes = d.prunes ∧ (d.onPort q f).pruneDue = d.pruneDue ∧
    (d.onPort q f).outs = d.outs ∧ (d.onPort q f).fresh = d.fresh := by
  and_intros <;> rfl

@[simp] theorem Dev.onLink_frame (d : Dev) (l : Nat) (f : Link → Link) :
    (d.onLink l f).regs = d.regs ∧ (d.onLink l f).mem = d.mem ∧ (d.onLink l f).srams = d.srams ∧
    (d.onLink l f).hbm = d.hbm ∧ (d.onLink l f).nea = d.nea ∧ (d.onLink l f).pkgs = d.pkgs ∧
    (d.onLink l f).slowK = d.slowK ∧ (d.onLink l f).mirrors = d.mirrors ∧ (d.onLink l f).phys = d.phys ∧
    (d.onLink l f).cores = d.cores ∧ (d.onLink l f).sems = d.sems ∧ (d.onLink l f).semReqs = d.semReqs ∧
    (d.onLink l f).semDone = d.semDone ∧ (d.onLink l f).nextReq = d.nextReq ∧ (d.onLink l f).gens = d.gens ∧
    (d.onLink l f).dma = d.dma ∧ (d.onLink l f).cvus = d.cvus ∧ (d.onLink l f).ports = d.ports ∧
    (d.onLink l f).meshes = d.meshes ∧ (d.onLink l f).reds = d.reds ∧ (d.onLink l f).redHeld = d.redHeld ∧
    (d.onLink l f).peFailed = d.peFailed ∧ (d.onLink l f).peMoves = d.peMoves ∧ (d.onLink l f).parts = d.parts ∧
    (d.onLink l f).tempo = d.tempo ∧ (d.onLink l f).tmp = d.tmp ∧ (d.onLink l f).sets = d.sets ∧
    (d.onLink l f).stalling = d.stalling ∧ (d.onLink l f).stalled = d.stalled ∧ (d.onLink l f).pwr = d.pwr ∧
    (d.onLink l f).plls = d.plls ∧ (d.onLink l f).watts = d.watts ∧ (d.onLink l f).wattsPeak = d.wattsPeak ∧
    (d.onLink l f).amps = d.amps ∧ (d.onLink l f).gated = d.gated ∧ (d.onLink l f).fuses = d.fuses ∧
    (d.onLink l f).flashB = d.flashB ∧ (d.onLink l f).sec = d.sec ∧ (d.onLink l f).harts = d.harts ∧
    (d.onLink l f).mail = d.mail ∧ (d.onLink l f).mgtUp = d.mgtUp ∧ (d.onLink l f).mgtFec = d.mgtFec ∧
    (d.onLink l f).session = d.session ∧ (d.onLink l f).resetN = d.resetN ∧ (d.onLink l f).vin = d.vin ∧
    (d.onLink l f).trip = d.trip ∧ (d.onLink l f).stopped = d.stopped ∧ (d.onLink l f).raised = d.raised ∧
    (d.onLink l f).faults = d.faults ∧ (d.onLink l f).prunes = d.prunes ∧ (d.onLink l f).pruneDue = d.pruneDue ∧
    (d.onLink l f).outs = d.outs ∧ (d.onLink l f).fresh = d.fresh := by
  and_intros <;> rfl

@[simp] theorem Dev.onMesh_frame (d : Dev) (t : Nat) (f : Mesh → Mesh) :
    (d.onMesh t f).regs = d.regs ∧ (d.onMesh t f).mem = d.mem ∧ (d.onMesh t f).srams = d.srams ∧
    (d.onMesh t f).hbm = d.hbm ∧ (d.onMesh t f).nea = d.nea ∧ (d.onMesh t f).pkgs = d.pkgs ∧
    (d.onMesh t f).slowK = d.slowK ∧ (d.onMesh t f).mirrors = d.mirrors ∧ (d.onMesh t f).phys = d.phys ∧
    (d.onMesh t f).cores = d.cores ∧ (d.onMesh t f).sems = d.sems ∧ (d.onMesh t f).semReqs = d.semReqs ∧
    (d.onMesh t f).semDone = d.semDone ∧ (d.onMesh t f).nextReq = d.nextReq ∧ (d.onMesh t f).gens = d.gens ∧
    (d.onMesh t f).dma = d.dma ∧ (d.onMesh t f).cvus = d.cvus ∧ (d.onMesh t f).ports = d.ports ∧
    (d.onMesh t f).links = d.links ∧ (d.onMesh t f).reds = d.reds ∧ (d.onMesh t f).redHeld = d.redHeld ∧
    (d.onMesh t f).peFailed = d.peFailed ∧ (d.onMesh t f).peMoves = d.peMoves ∧ (d.onMesh t f).parts = d.parts ∧
    (d.onMesh t f).tempo = d.tempo ∧ (d.onMesh t f).tmp = d.tmp ∧ (d.onMesh t f).sets = d.sets ∧
    (d.onMesh t f).stalling = d.stalling ∧ (d.onMesh t f).stalled = d.stalled ∧ (d.onMesh t f).pwr = d.pwr ∧
    (d.onMesh t f).plls = d.plls ∧ (d.onMesh t f).watts = d.watts ∧ (d.onMesh t f).wattsPeak = d.wattsPeak ∧
    (d.onMesh t f).amps = d.amps ∧ (d.onMesh t f).gated = d.gated ∧ (d.onMesh t f).fuses = d.fuses ∧
    (d.onMesh t f).flashB = d.flashB ∧ (d.onMesh t f).sec = d.sec ∧ (d.onMesh t f).harts = d.harts ∧
    (d.onMesh t f).mail = d.mail ∧ (d.onMesh t f).mgtUp = d.mgtUp ∧ (d.onMesh t f).mgtFec = d.mgtFec ∧
    (d.onMesh t f).session = d.session ∧ (d.onMesh t f).resetN = d.resetN ∧ (d.onMesh t f).vin = d.vin ∧
    (d.onMesh t f).trip = d.trip ∧ (d.onMesh t f).stopped = d.stopped ∧ (d.onMesh t f).raised = d.raised ∧
    (d.onMesh t f).faults = d.faults ∧ (d.onMesh t f).prunes = d.prunes ∧ (d.onMesh t f).pruneDue = d.pruneDue ∧
    (d.onMesh t f).outs = d.outs ∧ (d.onMesh t f).fresh = d.fresh := by
  and_intros <;> rfl

@[simp] theorem Dev.onCtx_frame (d : Dev) (c : Nat) (f : NeaCtx → NeaCtx) :
    (d.onCtx c f).regs = d.regs ∧ (d.onCtx c f).mem = d.mem ∧ (d.onCtx c f).srams = d.srams ∧
    (d.onCtx c f).hbm = d.hbm ∧ (d.onCtx c f).pkgs = d.pkgs ∧ (d.onCtx c f).slowK = d.slowK ∧
    (d.onCtx c f).mirrors = d.mirrors ∧ (d.onCtx c f).phys = d.phys ∧ (d.onCtx c f).cores = d.cores ∧
    (d.onCtx c f).sems = d.sems ∧ (d.onCtx c f).semReqs = d.semReqs ∧ (d.onCtx c f).semDone = d.semDone ∧
    (d.onCtx c f).nextReq = d.nextReq ∧ (d.onCtx c f).gens = d.gens ∧ (d.onCtx c f).dma = d.dma ∧
    (d.onCtx c f).cvus = d.cvus ∧ (d.onCtx c f).ports = d.ports ∧ (d.onCtx c f).links = d.links ∧
    (d.onCtx c f).meshes = d.meshes ∧ (d.onCtx c f).reds = d.reds ∧ (d.onCtx c f).redHeld = d.redHeld ∧
    (d.onCtx c f).peFailed = d.peFailed ∧ (d.onCtx c f).peMoves = d.peMoves ∧ (d.onCtx c f).parts = d.parts ∧
    (d.onCtx c f).tempo = d.tempo ∧ (d.onCtx c f).tmp = d.tmp ∧ (d.onCtx c f).sets = d.sets ∧
    (d.onCtx c f).stalling = d.stalling ∧ (d.onCtx c f).stalled = d.stalled ∧ (d.onCtx c f).pwr = d.pwr ∧
    (d.onCtx c f).plls = d.plls ∧ (d.onCtx c f).watts = d.watts ∧ (d.onCtx c f).wattsPeak = d.wattsPeak ∧
    (d.onCtx c f).amps = d.amps ∧ (d.onCtx c f).gated = d.gated ∧ (d.onCtx c f).fuses = d.fuses ∧
    (d.onCtx c f).flashB = d.flashB ∧ (d.onCtx c f).sec = d.sec ∧ (d.onCtx c f).harts = d.harts ∧
    (d.onCtx c f).mail = d.mail ∧ (d.onCtx c f).mgtUp = d.mgtUp ∧ (d.onCtx c f).mgtFec = d.mgtFec ∧
    (d.onCtx c f).session = d.session ∧ (d.onCtx c f).resetN = d.resetN ∧ (d.onCtx c f).vin = d.vin ∧
    (d.onCtx c f).trip = d.trip ∧ (d.onCtx c f).stopped = d.stopped ∧ (d.onCtx c f).raised = d.raised ∧
    (d.onCtx c f).faults = d.faults ∧ (d.onCtx c f).prunes = d.prunes ∧ (d.onCtx c f).pruneDue = d.pruneDue ∧
    (d.onCtx c f).outs = d.outs ∧ (d.onCtx c f).fresh = d.fresh := by
  and_intros <;> rfl

@[simp] theorem Dev.onPkg_frame (d : Dev) (k : Nat) (f : NeaPkg → NeaPkg) :
    (d.onPkg k f).regs = d.regs ∧ (d.onPkg k f).mem = d.mem ∧ (d.onPkg k f).srams = d.srams ∧
    (d.onPkg k f).hbm = d.hbm ∧ (d.onPkg k f).nea = d.nea ∧ (d.onPkg k f).slowK = d.slowK ∧
    (d.onPkg k f).mirrors = d.mirrors ∧ (d.onPkg k f).phys = d.phys ∧ (d.onPkg k f).cores = d.cores ∧
    (d.onPkg k f).sems = d.sems ∧ (d.onPkg k f).semReqs = d.semReqs ∧ (d.onPkg k f).semDone = d.semDone ∧
    (d.onPkg k f).nextReq = d.nextReq ∧ (d.onPkg k f).gens = d.gens ∧ (d.onPkg k f).dma = d.dma ∧
    (d.onPkg k f).cvus = d.cvus ∧ (d.onPkg k f).ports = d.ports ∧ (d.onPkg k f).links = d.links ∧
    (d.onPkg k f).meshes = d.meshes ∧ (d.onPkg k f).reds = d.reds ∧ (d.onPkg k f).redHeld = d.redHeld ∧
    (d.onPkg k f).peFailed = d.peFailed ∧ (d.onPkg k f).peMoves = d.peMoves ∧ (d.onPkg k f).parts = d.parts ∧
    (d.onPkg k f).tempo = d.tempo ∧ (d.onPkg k f).tmp = d.tmp ∧ (d.onPkg k f).sets = d.sets ∧
    (d.onPkg k f).stalling = d.stalling ∧ (d.onPkg k f).stalled = d.stalled ∧ (d.onPkg k f).pwr = d.pwr ∧
    (d.onPkg k f).plls = d.plls ∧ (d.onPkg k f).watts = d.watts ∧ (d.onPkg k f).wattsPeak = d.wattsPeak ∧
    (d.onPkg k f).amps = d.amps ∧ (d.onPkg k f).gated = d.gated ∧ (d.onPkg k f).fuses = d.fuses ∧
    (d.onPkg k f).flashB = d.flashB ∧ (d.onPkg k f).sec = d.sec ∧ (d.onPkg k f).harts = d.harts ∧
    (d.onPkg k f).mail = d.mail ∧ (d.onPkg k f).mgtUp = d.mgtUp ∧ (d.onPkg k f).mgtFec = d.mgtFec ∧
    (d.onPkg k f).session = d.session ∧ (d.onPkg k f).resetN = d.resetN ∧ (d.onPkg k f).vin = d.vin ∧
    (d.onPkg k f).trip = d.trip ∧ (d.onPkg k f).stopped = d.stopped ∧ (d.onPkg k f).raised = d.raised ∧
    (d.onPkg k f).faults = d.faults ∧ (d.onPkg k f).prunes = d.prunes ∧ (d.onPkg k f).pruneDue = d.pruneDue ∧
    (d.onPkg k f).outs = d.outs ∧ (d.onPkg k f).fresh = d.fresh := by
  and_intros <;> rfl

@[simp] theorem Dev.onHbm_frame (d : Dev) (t : Nat) (f : HbmTile → HbmTile) :
    (d.onHbm t f).regs = d.regs ∧ (d.onHbm t f).mem = d.mem ∧ (d.onHbm t f).srams = d.srams ∧
    (d.onHbm t f).nea = d.nea ∧ (d.onHbm t f).pkgs = d.pkgs ∧ (d.onHbm t f).slowK = d.slowK ∧
    (d.onHbm t f).mirrors = d.mirrors ∧ (d.onHbm t f).phys = d.phys ∧ (d.onHbm t f).cores = d.cores ∧
    (d.onHbm t f).sems = d.sems ∧ (d.onHbm t f).semReqs = d.semReqs ∧ (d.onHbm t f).semDone = d.semDone ∧
    (d.onHbm t f).nextReq = d.nextReq ∧ (d.onHbm t f).gens = d.gens ∧ (d.onHbm t f).dma = d.dma ∧
    (d.onHbm t f).cvus = d.cvus ∧ (d.onHbm t f).ports = d.ports ∧ (d.onHbm t f).links = d.links ∧
    (d.onHbm t f).meshes = d.meshes ∧ (d.onHbm t f).reds = d.reds ∧ (d.onHbm t f).redHeld = d.redHeld ∧
    (d.onHbm t f).peFailed = d.peFailed ∧ (d.onHbm t f).peMoves = d.peMoves ∧ (d.onHbm t f).parts = d.parts ∧
    (d.onHbm t f).tempo = d.tempo ∧ (d.onHbm t f).tmp = d.tmp ∧ (d.onHbm t f).sets = d.sets ∧
    (d.onHbm t f).stalling = d.stalling ∧ (d.onHbm t f).stalled = d.stalled ∧ (d.onHbm t f).pwr = d.pwr ∧
    (d.onHbm t f).plls = d.plls ∧ (d.onHbm t f).watts = d.watts ∧ (d.onHbm t f).wattsPeak = d.wattsPeak ∧
    (d.onHbm t f).amps = d.amps ∧ (d.onHbm t f).gated = d.gated ∧ (d.onHbm t f).fuses = d.fuses ∧
    (d.onHbm t f).flashB = d.flashB ∧ (d.onHbm t f).sec = d.sec ∧ (d.onHbm t f).harts = d.harts ∧
    (d.onHbm t f).mail = d.mail ∧ (d.onHbm t f).mgtUp = d.mgtUp ∧ (d.onHbm t f).mgtFec = d.mgtFec ∧
    (d.onHbm t f).session = d.session ∧ (d.onHbm t f).resetN = d.resetN ∧ (d.onHbm t f).vin = d.vin ∧
    (d.onHbm t f).trip = d.trip ∧ (d.onHbm t f).stopped = d.stopped ∧ (d.onHbm t f).raised = d.raised ∧
    (d.onHbm t f).faults = d.faults ∧ (d.onHbm t f).prunes = d.prunes ∧ (d.onHbm t f).pruneDue = d.pruneDue ∧
    (d.onHbm t f).outs = d.outs ∧ (d.onHbm t f).fresh = d.fresh := by
  and_intros <;> rfl

@[simp] theorem Dev.onCvu_frame (d : Dev) (n : Nat) (f : Cvu → Cvu) :
    (d.onCvu n f).regs = d.regs ∧ (d.onCvu n f).mem = d.mem ∧ (d.onCvu n f).srams = d.srams ∧
    (d.onCvu n f).hbm = d.hbm ∧ (d.onCvu n f).nea = d.nea ∧ (d.onCvu n f).pkgs = d.pkgs ∧
    (d.onCvu n f).slowK = d.slowK ∧ (d.onCvu n f).mirrors = d.mirrors ∧ (d.onCvu n f).phys = d.phys ∧
    (d.onCvu n f).cores = d.cores ∧ (d.onCvu n f).sems = d.sems ∧ (d.onCvu n f).semReqs = d.semReqs ∧
    (d.onCvu n f).semDone = d.semDone ∧ (d.onCvu n f).nextReq = d.nextReq ∧ (d.onCvu n f).gens = d.gens ∧
    (d.onCvu n f).dma = d.dma ∧ (d.onCvu n f).ports = d.ports ∧ (d.onCvu n f).links = d.links ∧
    (d.onCvu n f).meshes = d.meshes ∧ (d.onCvu n f).reds = d.reds ∧ (d.onCvu n f).redHeld = d.redHeld ∧
    (d.onCvu n f).peFailed = d.peFailed ∧ (d.onCvu n f).peMoves = d.peMoves ∧ (d.onCvu n f).parts = d.parts ∧
    (d.onCvu n f).tempo = d.tempo ∧ (d.onCvu n f).tmp = d.tmp ∧ (d.onCvu n f).sets = d.sets ∧
    (d.onCvu n f).stalling = d.stalling ∧ (d.onCvu n f).stalled = d.stalled ∧ (d.onCvu n f).pwr = d.pwr ∧
    (d.onCvu n f).plls = d.plls ∧ (d.onCvu n f).watts = d.watts ∧ (d.onCvu n f).wattsPeak = d.wattsPeak ∧
    (d.onCvu n f).amps = d.amps ∧ (d.onCvu n f).gated = d.gated ∧ (d.onCvu n f).fuses = d.fuses ∧
    (d.onCvu n f).flashB = d.flashB ∧ (d.onCvu n f).sec = d.sec ∧ (d.onCvu n f).harts = d.harts ∧
    (d.onCvu n f).mail = d.mail ∧ (d.onCvu n f).mgtUp = d.mgtUp ∧ (d.onCvu n f).mgtFec = d.mgtFec ∧
    (d.onCvu n f).session = d.session ∧ (d.onCvu n f).resetN = d.resetN ∧ (d.onCvu n f).vin = d.vin ∧
    (d.onCvu n f).trip = d.trip ∧ (d.onCvu n f).stopped = d.stopped ∧ (d.onCvu n f).raised = d.raised ∧
    (d.onCvu n f).faults = d.faults ∧ (d.onCvu n f).prunes = d.prunes ∧ (d.onCvu n f).pruneDue = d.pruneDue ∧
    (d.onCvu n f).outs = d.outs ∧ (d.onCvu n f).fresh = d.fresh := by
  and_intros <;> rfl

@[simp] theorem Dev.onTile_frame (d : Dev) (t : Nat) (f : PwrTile → PwrTile) :
    (d.onTile t f).regs = d.regs ∧ (d.onTile t f).mem = d.mem ∧ (d.onTile t f).srams = d.srams ∧
    (d.onTile t f).hbm = d.hbm ∧ (d.onTile t f).nea = d.nea ∧ (d.onTile t f).pkgs = d.pkgs ∧
    (d.onTile t f).slowK = d.slowK ∧ (d.onTile t f).mirrors = d.mirrors ∧ (d.onTile t f).phys = d.phys ∧
    (d.onTile t f).cores = d.cores ∧ (d.onTile t f).sems = d.sems ∧ (d.onTile t f).semReqs = d.semReqs ∧
    (d.onTile t f).semDone = d.semDone ∧ (d.onTile t f).nextReq = d.nextReq ∧ (d.onTile t f).gens = d.gens ∧
    (d.onTile t f).dma = d.dma ∧ (d.onTile t f).cvus = d.cvus ∧ (d.onTile t f).ports = d.ports ∧
    (d.onTile t f).links = d.links ∧ (d.onTile t f).meshes = d.meshes ∧ (d.onTile t f).reds = d.reds ∧
    (d.onTile t f).redHeld = d.redHeld ∧ (d.onTile t f).peFailed = d.peFailed ∧ (d.onTile t f).peMoves = d.peMoves ∧
    (d.onTile t f).parts = d.parts ∧ (d.onTile t f).tempo = d.tempo ∧ (d.onTile t f).tmp = d.tmp ∧
    (d.onTile t f).sets = d.sets ∧ (d.onTile t f).stalling = d.stalling ∧ (d.onTile t f).stalled = d.stalled ∧
    (d.onTile t f).plls = d.plls ∧ (d.onTile t f).watts = d.watts ∧ (d.onTile t f).wattsPeak = d.wattsPeak ∧
    (d.onTile t f).amps = d.amps ∧ (d.onTile t f).gated = d.gated ∧ (d.onTile t f).fuses = d.fuses ∧
    (d.onTile t f).flashB = d.flashB ∧ (d.onTile t f).sec = d.sec ∧ (d.onTile t f).harts = d.harts ∧
    (d.onTile t f).mail = d.mail ∧ (d.onTile t f).mgtUp = d.mgtUp ∧ (d.onTile t f).mgtFec = d.mgtFec ∧
    (d.onTile t f).session = d.session ∧ (d.onTile t f).resetN = d.resetN ∧ (d.onTile t f).vin = d.vin ∧
    (d.onTile t f).trip = d.trip ∧ (d.onTile t f).stopped = d.stopped ∧ (d.onTile t f).raised = d.raised ∧
    (d.onTile t f).faults = d.faults ∧ (d.onTile t f).prunes = d.prunes ∧ (d.onTile t f).pruneDue = d.pruneDue ∧
    (d.onTile t f).outs = d.outs ∧ (d.onTile t f).fresh = d.fresh := by
  and_intros <;> rfl

@[simp] theorem Dev.onPll_frame (d : Dev) (k : Nat) (f : Pll → Pll) :
    (d.onPll k f).regs = d.regs ∧ (d.onPll k f).mem = d.mem ∧ (d.onPll k f).srams = d.srams ∧
    (d.onPll k f).hbm = d.hbm ∧ (d.onPll k f).nea = d.nea ∧ (d.onPll k f).pkgs = d.pkgs ∧
    (d.onPll k f).slowK = d.slowK ∧ (d.onPll k f).mirrors = d.mirrors ∧ (d.onPll k f).phys = d.phys ∧
    (d.onPll k f).cores = d.cores ∧ (d.onPll k f).sems = d.sems ∧ (d.onPll k f).semReqs = d.semReqs ∧
    (d.onPll k f).semDone = d.semDone ∧ (d.onPll k f).nextReq = d.nextReq ∧ (d.onPll k f).gens = d.gens ∧
    (d.onPll k f).dma = d.dma ∧ (d.onPll k f).cvus = d.cvus ∧ (d.onPll k f).ports = d.ports ∧
    (d.onPll k f).links = d.links ∧ (d.onPll k f).meshes = d.meshes ∧ (d.onPll k f).reds = d.reds ∧
    (d.onPll k f).redHeld = d.redHeld ∧ (d.onPll k f).peFailed = d.peFailed ∧ (d.onPll k f).peMoves = d.peMoves ∧
    (d.onPll k f).parts = d.parts ∧ (d.onPll k f).tempo = d.tempo ∧ (d.onPll k f).tmp = d.tmp ∧
    (d.onPll k f).sets = d.sets ∧ (d.onPll k f).stalling = d.stalling ∧ (d.onPll k f).stalled = d.stalled ∧
    (d.onPll k f).pwr = d.pwr ∧ (d.onPll k f).watts = d.watts ∧ (d.onPll k f).wattsPeak = d.wattsPeak ∧
    (d.onPll k f).amps = d.amps ∧ (d.onPll k f).gated = d.gated ∧ (d.onPll k f).fuses = d.fuses ∧
    (d.onPll k f).flashB = d.flashB ∧ (d.onPll k f).sec = d.sec ∧ (d.onPll k f).harts = d.harts ∧
    (d.onPll k f).mail = d.mail ∧ (d.onPll k f).mgtUp = d.mgtUp ∧ (d.onPll k f).mgtFec = d.mgtFec ∧
    (d.onPll k f).session = d.session ∧ (d.onPll k f).resetN = d.resetN ∧ (d.onPll k f).vin = d.vin ∧
    (d.onPll k f).trip = d.trip ∧ (d.onPll k f).stopped = d.stopped ∧ (d.onPll k f).raised = d.raised ∧
    (d.onPll k f).faults = d.faults ∧ (d.onPll k f).prunes = d.prunes ∧ (d.onPll k f).pruneDue = d.pruneDue ∧
    (d.onPll k f).outs = d.outs ∧ (d.onPll k f).fresh = d.fresh := by
  and_intros <;> rfl

@[simp] theorem Dev.onHart_frame (d : Dev) (k : Nat) (f : Hart → Hart) :
    (d.onHart k f).regs = d.regs ∧ (d.onHart k f).mem = d.mem ∧ (d.onHart k f).srams = d.srams ∧
    (d.onHart k f).hbm = d.hbm ∧ (d.onHart k f).nea = d.nea ∧ (d.onHart k f).pkgs = d.pkgs ∧
    (d.onHart k f).slowK = d.slowK ∧ (d.onHart k f).mirrors = d.mirrors ∧ (d.onHart k f).phys = d.phys ∧
    (d.onHart k f).cores = d.cores ∧ (d.onHart k f).sems = d.sems ∧ (d.onHart k f).semReqs = d.semReqs ∧
    (d.onHart k f).semDone = d.semDone ∧ (d.onHart k f).nextReq = d.nextReq ∧ (d.onHart k f).gens = d.gens ∧
    (d.onHart k f).dma = d.dma ∧ (d.onHart k f).cvus = d.cvus ∧ (d.onHart k f).ports = d.ports ∧
    (d.onHart k f).links = d.links ∧ (d.onHart k f).meshes = d.meshes ∧ (d.onHart k f).reds = d.reds ∧
    (d.onHart k f).redHeld = d.redHeld ∧ (d.onHart k f).peFailed = d.peFailed ∧ (d.onHart k f).peMoves = d.peMoves ∧
    (d.onHart k f).parts = d.parts ∧ (d.onHart k f).tempo = d.tempo ∧ (d.onHart k f).tmp = d.tmp ∧
    (d.onHart k f).sets = d.sets ∧ (d.onHart k f).stalling = d.stalling ∧ (d.onHart k f).stalled = d.stalled ∧
    (d.onHart k f).pwr = d.pwr ∧ (d.onHart k f).plls = d.plls ∧ (d.onHart k f).watts = d.watts ∧
    (d.onHart k f).wattsPeak = d.wattsPeak ∧ (d.onHart k f).amps = d.amps ∧ (d.onHart k f).gated = d.gated ∧
    (d.onHart k f).fuses = d.fuses ∧ (d.onHart k f).flashB = d.flashB ∧ (d.onHart k f).sec = d.sec ∧
    (d.onHart k f).mail = d.mail ∧ (d.onHart k f).mgtUp = d.mgtUp ∧ (d.onHart k f).mgtFec = d.mgtFec ∧
    (d.onHart k f).session = d.session ∧ (d.onHart k f).resetN = d.resetN ∧ (d.onHart k f).vin = d.vin ∧
    (d.onHart k f).trip = d.trip ∧ (d.onHart k f).stopped = d.stopped ∧ (d.onHart k f).raised = d.raised ∧
    (d.onHart k f).faults = d.faults ∧ (d.onHart k f).prunes = d.prunes ∧ (d.onHart k f).pruneDue = d.pruneDue ∧
    (d.onHart k f).outs = d.outs ∧ (d.onHart k f).fresh = d.fresh := by
  and_intros <;> rfl

@[simp] theorem Dev.onDma_frame (d : Dev) (g : Nat) (f : DmaEng → DmaEng) :
    (d.onDma g f).regs = d.regs ∧ (d.onDma g f).mem = d.mem ∧ (d.onDma g f).srams = d.srams ∧
    (d.onDma g f).hbm = d.hbm ∧ (d.onDma g f).nea = d.nea ∧ (d.onDma g f).pkgs = d.pkgs ∧
    (d.onDma g f).slowK = d.slowK ∧ (d.onDma g f).mirrors = d.mirrors ∧ (d.onDma g f).phys = d.phys ∧
    (d.onDma g f).cores = d.cores ∧ (d.onDma g f).sems = d.sems ∧ (d.onDma g f).semReqs = d.semReqs ∧
    (d.onDma g f).semDone = d.semDone ∧ (d.onDma g f).nextReq = d.nextReq ∧ (d.onDma g f).gens = d.gens ∧
    (d.onDma g f).cvus = d.cvus ∧ (d.onDma g f).ports = d.ports ∧ (d.onDma g f).links = d.links ∧
    (d.onDma g f).meshes = d.meshes ∧ (d.onDma g f).reds = d.reds ∧ (d.onDma g f).redHeld = d.redHeld ∧
    (d.onDma g f).peFailed = d.peFailed ∧ (d.onDma g f).peMoves = d.peMoves ∧ (d.onDma g f).parts = d.parts ∧
    (d.onDma g f).tempo = d.tempo ∧ (d.onDma g f).tmp = d.tmp ∧ (d.onDma g f).sets = d.sets ∧
    (d.onDma g f).stalling = d.stalling ∧ (d.onDma g f).stalled = d.stalled ∧ (d.onDma g f).pwr = d.pwr ∧
    (d.onDma g f).plls = d.plls ∧ (d.onDma g f).watts = d.watts ∧ (d.onDma g f).wattsPeak = d.wattsPeak ∧
    (d.onDma g f).amps = d.amps ∧ (d.onDma g f).gated = d.gated ∧ (d.onDma g f).fuses = d.fuses ∧
    (d.onDma g f).flashB = d.flashB ∧ (d.onDma g f).sec = d.sec ∧ (d.onDma g f).harts = d.harts ∧
    (d.onDma g f).mail = d.mail ∧ (d.onDma g f).mgtUp = d.mgtUp ∧ (d.onDma g f).mgtFec = d.mgtFec ∧
    (d.onDma g f).session = d.session ∧ (d.onDma g f).resetN = d.resetN ∧ (d.onDma g f).vin = d.vin ∧
    (d.onDma g f).trip = d.trip ∧ (d.onDma g f).stopped = d.stopped ∧ (d.onDma g f).raised = d.raised ∧
    (d.onDma g f).faults = d.faults ∧ (d.onDma g f).prunes = d.prunes ∧ (d.onDma g f).pruneDue = d.pruneDue ∧
    (d.onDma g f).outs = d.outs ∧ (d.onDma g f).fresh = d.fresh := by
  and_intros <;> rfl

@[simp] theorem Dev.onSet_frame (d : Dev) (k : Nat) (f : StagedSet → StagedSet) :
    (d.onSet k f).regs = d.regs ∧ (d.onSet k f).mem = d.mem ∧ (d.onSet k f).srams = d.srams ∧
    (d.onSet k f).hbm = d.hbm ∧ (d.onSet k f).nea = d.nea ∧ (d.onSet k f).pkgs = d.pkgs ∧
    (d.onSet k f).slowK = d.slowK ∧ (d.onSet k f).mirrors = d.mirrors ∧ (d.onSet k f).phys = d.phys ∧
    (d.onSet k f).cores = d.cores ∧ (d.onSet k f).sems = d.sems ∧ (d.onSet k f).semReqs = d.semReqs ∧
    (d.onSet k f).semDone = d.semDone ∧ (d.onSet k f).nextReq = d.nextReq ∧ (d.onSet k f).gens = d.gens ∧
    (d.onSet k f).dma = d.dma ∧ (d.onSet k f).cvus = d.cvus ∧ (d.onSet k f).ports = d.ports ∧
    (d.onSet k f).links = d.links ∧ (d.onSet k f).meshes = d.meshes ∧ (d.onSet k f).reds = d.reds ∧
    (d.onSet k f).redHeld = d.redHeld ∧ (d.onSet k f).peFailed = d.peFailed ∧ (d.onSet k f).peMoves = d.peMoves ∧
    (d.onSet k f).parts = d.parts ∧ (d.onSet k f).tempo = d.tempo ∧ (d.onSet k f).tmp = d.tmp ∧
    (d.onSet k f).stalling = d.stalling ∧ (d.onSet k f).stalled = d.stalled ∧ (d.onSet k f).pwr = d.pwr ∧
    (d.onSet k f).plls = d.plls ∧ (d.onSet k f).watts = d.watts ∧ (d.onSet k f).wattsPeak = d.wattsPeak ∧
    (d.onSet k f).amps = d.amps ∧ (d.onSet k f).gated = d.gated ∧ (d.onSet k f).fuses = d.fuses ∧
    (d.onSet k f).flashB = d.flashB ∧ (d.onSet k f).sec = d.sec ∧ (d.onSet k f).harts = d.harts ∧
    (d.onSet k f).mail = d.mail ∧ (d.onSet k f).mgtUp = d.mgtUp ∧ (d.onSet k f).mgtFec = d.mgtFec ∧
    (d.onSet k f).session = d.session ∧ (d.onSet k f).resetN = d.resetN ∧ (d.onSet k f).vin = d.vin ∧
    (d.onSet k f).trip = d.trip ∧ (d.onSet k f).stopped = d.stopped ∧ (d.onSet k f).raised = d.raised ∧
    (d.onSet k f).faults = d.faults ∧ (d.onSet k f).prunes = d.prunes ∧ (d.onSet k f).pruneDue = d.pruneDue ∧
    (d.onSet k f).outs = d.outs ∧ (d.onSet k f).fresh = d.fresh := by
  and_intros <;> rfl

/-! ## Units after an update -/

@[simp] theorem Dev.onCore_get (d : Dev) (c j : Nat) (f : Core → Core) :
    (d.onCore c f).core j = if c = j then f (d.core c) else d.core j := by
  unfold Dev.core Dev.onCore Dev.setCore
  by_cases h : c = j
  · subst h; simp [Dev.core]
  · simp [h, Dev.core]

@[simp] theorem Dev.onPart_get (d : Dev) (p j : Nat) (f : Part → Part) :
    (d.onPart p f).part j = if p = j then f (d.part p) else d.part j := by
  unfold Dev.part Dev.onPart
  by_cases h : p = j
  · subst h; simp [Dev.part]
  · simp [h, Dev.part]

@[simp] theorem Dev.onSram_get (d : Dev) (u j : Nat) (f : Sram → Sram) :
    (d.onSram u f).sram j = if u = j then f (d.sram u) else d.sram j := by
  unfold Dev.sram Dev.onSram
  by_cases h : u = j
  · subst h; simp [Dev.sram]
  · simp [h, Dev.sram]

@[simp] theorem Dev.onPhys_get (d : Dev) (i j : Nat) (f : PhysCore → PhysCore) :
    (d.onPhys i f).physCore j = if i = j then f (d.physCore i) else d.physCore j := by
  unfold Dev.physCore Dev.onPhys
  by_cases h : i = j
  · subst h; simp [Dev.physCore]
  · simp [h, Dev.physCore, FMap.getD_set_ne]

@[simp] theorem Dev.onPort_get (d : Dev) (q j : Nat) (f : Port → Port) :
    (d.onPort q f).port j = if q = j then f (d.port q) else d.port j := by
  unfold Dev.port Dev.onPort
  by_cases h : q = j
  · subst h; simp [Dev.port]
  · simp [h, Dev.port]

@[simp] theorem Dev.onLink_get (d : Dev) (l j : Nat) (f : Link → Link) :
    (d.onLink l f).link j = if l = j then f (d.link l) else d.link j := by
  unfold Dev.link Dev.onLink
  by_cases h : l = j
  · subst h; simp [Dev.link]
  · simp [h, Dev.link]

@[simp] theorem Dev.onMesh_get (d : Dev) (t j : Nat) (f : Mesh → Mesh) :
    (d.onMesh t f).mesh j = if t = j then f (d.mesh t) else d.mesh j := by
  unfold Dev.mesh Dev.onMesh
  by_cases h : t = j
  · subst h; simp [Dev.mesh]
  · simp [h, Dev.mesh]

@[simp] theorem Dev.onCtx_get (d : Dev) (c j : Nat) (f : NeaCtx → NeaCtx) :
    (d.onCtx c f).ctx j = if c = j then f (d.ctx c) else d.ctx j := by
  unfold Dev.ctx Dev.onCtx
  by_cases h : c = j
  · subst h; simp [Dev.ctx]
  · simp [h, Dev.ctx]

@[simp] theorem Dev.onPkg_get (d : Dev) (k j : Nat) (f : NeaPkg → NeaPkg) :
    (d.onPkg k f).pkg j = if k = j then f (d.pkg k) else d.pkg j := by
  unfold Dev.pkg Dev.onPkg
  by_cases h : k = j
  · subst h; simp [Dev.pkg]
  · simp [h, Dev.pkg, FMap.getD_set_ne]

@[simp] theorem Dev.onHbm_get (d : Dev) (t j : Nat) (f : HbmTile → HbmTile) :
    (d.onHbm t f).hbmTile j = if t = j then f (d.hbmTile t) else d.hbmTile j := by
  unfold Dev.hbmTile Dev.onHbm
  by_cases h : t = j
  · subst h; simp [Dev.hbmTile]
  · simp [h, Dev.hbmTile]

@[simp] theorem Dev.onCvu_get (d : Dev) (n j : Nat) (f : Cvu → Cvu) :
    (d.onCvu n f).cvu j = if n = j then f (d.cvu n) else d.cvu j := by
  unfold Dev.cvu Dev.onCvu
  by_cases h : n = j
  · subst h; simp [Dev.cvu]
  · simp [h, Dev.cvu]

@[simp] theorem Dev.onTile_get (d : Dev) (t j : Nat) (f : PwrTile → PwrTile) :
    (d.onTile t f).ptile j = if t = j then f (d.ptile t) else d.ptile j := by
  unfold Dev.ptile Dev.onTile
  by_cases h : t = j
  · subst h; simp [Dev.ptile]
  · simp [h, Dev.ptile]

@[simp] theorem Dev.onPll_get (d : Dev) (k j : Nat) (f : Pll → Pll) :
    (d.onPll k f).pll j = if k = j then f (d.pll k) else d.pll j := by
  unfold Dev.pll Dev.onPll
  by_cases h : k = j
  · subst h; simp [Dev.pll]
  · simp [h, Dev.pll]

@[simp] theorem Dev.onHart_get (d : Dev) (k j : Nat) (f : Hart → Hart) :
    (d.onHart k f).hart j = if k = j then f (d.hart k) else d.hart j := by
  unfold Dev.hart Dev.onHart
  by_cases h : k = j
  · subst h; simp [Dev.hart]
  · simp [h, Dev.hart, FMap.getD_set_ne]

@[simp] theorem Dev.onDma_get (d : Dev) (g j : Nat) (f : DmaEng → DmaEng) :
    (d.onDma g f).dmaEng j = if g = j then f (d.dmaEng g) else d.dmaEng j := by
  unfold Dev.dmaEng Dev.onDma
  by_cases h : g = j
  · subst h; simp [Dev.dmaEng]
  · simp [h, Dev.dmaEng]

@[simp] theorem Dev.onSet_get (d : Dev) (k j : Nat) (f : StagedSet → StagedSet) :
    (d.onSet k f).set_ j = if k = j then f (d.set_ k) else d.set_ j := by
  unfold Dev.set_ Dev.onSet
  by_cases h : k = j
  · subst h; simp [Dev.set_]
  · simp [h, Dev.set_]

@[simp] theorem Dev.onSq_get (d : Dev) (c j : Nat) (f : Sq → Sq) :
    (d.onSq c f).core j = if c = j then ({ d.core c with sq := f (d.core c).sq } : Core) else d.core j := by
  unfold Dev.onSq; simp

@[simp] theorem Dev.onMe_get (d : Dev) (c j : Nat) (f : Me → Me) :
    (d.onMe c f).core j = if c = j then ({ d.core c with me := f (d.core c).me } : Core) else d.core j := by
  unfold Dev.onMe; simp

@[simp] theorem Dev.onVe_get (d : Dev) (c j : Nat) (f : Ve → Ve) :
    (d.onVe c f).core j = if c = j then ({ d.core c with ve := f (d.core c).ve } : Core) else d.core j := by
  unfold Dev.onVe; simp

@[simp] theorem Dev.onFte_get (d : Dev) (c j : Nat) (f : Fte → Fte) :
    (d.onFte c f).core j = if c = j then ({ d.core c with fte := f (d.core c).fte } : Core) else d.core j := by
  unfold Dev.onFte; simp

@[simp] theorem Dev.onEng_get (d : Dev) (c e j : Nat) (f : Eng → Eng) :
    (d.onEng c e f).core j = if c = j then (d.core c).setEng e (f ((d.core c).eng e)) else d.core j := by
  unfold Dev.onEng; simp

@[simp] theorem Dev.setSem_get (d : Dev) (k j : Nat) (x : Sem) :
    (d.setSem k x).sem j = if k = j then x else d.sem j := by
  unfold Dev.setSem Dev.sem
  by_cases h : k = j
  · subst h; simp
  · simp [h]

@[simp] theorem Dev.setGen_get (d : Dev) (k j : Nat) (x : GenTable) :
    (d.setGen k x).gen j = if k = j then x else d.gen j := by
  unfold Dev.setGen Dev.gen
  by_cases h : k = j
  · subst h; simp
  · simp [h]

@[simp] theorem Core.setEng_eng (x : Core) (e : Nat) (g : Eng) : (x.setEng e g).eng e = g := by
  rcases e with _ | _ | _ | e <;> rfl

@[simp] theorem Core.setEng_sq (x : Core) (e : Nat) (g : Eng) : (x.setEng e g).sq = x.sq := by
  rcases e with _ | _ | _ | e <;> rfl

/-- The register written reads as written. -/
@[simp] theorem Dev.setReg_self (d : Dev) (r : Reg) (v : Word) : (d.setReg r v).reg r = v := by
  unfold Dev.setReg Dev.reg; simp

/-- A register at another address reads as before. -/
theorem Dev.setReg_ne (d : Dev) (r r' : Reg) (v : Word) (h : r.addr ≠ r'.addr) : (d.setReg r v).reg r' = d.reg r' := by
  unfold Dev.setReg Dev.reg; exact FMap.getD_set_ne _ _ _ _ _ _ h

/-! ## Reads that look at one field of the device -/

theorem Dev.core_congr {d d' : Dev} (h : d.cores = d'.cores) (c : Nat) : d.core c = d'.core c := by unfold Dev.core; rw [h]

theorem Dev.part_congr {d d' : Dev} (h : d.parts = d'.parts) (p : Nat) : d.part p = d'.part p := by unfold Dev.part; rw [h]

theorem Dev.reg_congr {d d' : Dev} (h : d.regs = d'.regs) (r : Reg) : d.reg r = d'.reg r := by unfold Dev.reg; rw [h]

@[simp] theorem Dev.setReg_reads (d : Dev) (r : Reg) (v : Word) :
    (∀ j, (d.setReg r v).core j = d.core j) ∧ (∀ j, (d.setReg r v).part j = d.part j) ∧
    (∀ j, (d.setReg r v).sram j = d.sram j) ∧ (∀ j, (d.setReg r v).physCore j = d.physCore j) ∧
    (∀ j, (d.setReg r v).port j = d.port j) ∧ (∀ j, (d.setReg r v).link j = d.link j) ∧
    (∀ j, (d.setReg r v).mesh j = d.mesh j) ∧ (∀ j, (d.setReg r v).ctx j = d.ctx j) ∧
    (∀ j, (d.setReg r v).pkg j = d.pkg j) ∧ (∀ j, (d.setReg r v).hbmTile j = d.hbmTile j) ∧
    (∀ j, (d.setReg r v).cvu j = d.cvu j) ∧ (∀ j, (d.setReg r v).ptile j = d.ptile j) ∧
    (∀ j, (d.setReg r v).pll j = d.pll j) ∧ (∀ j, (d.setReg r v).hart j = d.hart j) ∧
    (∀ j, (d.setReg r v).dmaEng j = d.dmaEng j) ∧ (∀ j, (d.setReg r v).set_ j = d.set_ j) ∧
    (∀ j, (d.setReg r v).sem j = d.sem j) ∧ (∀ j, (d.setReg r v).gen j = d.gen j) := by
  and_intros <;> intros <;> rfl

@[simp] theorem Dev.setRegFld_reads (d : Dev) (r : Reg) (hi lo v : Nat) :
    (∀ j, (d.setRegFld r hi lo v).core j = d.core j) ∧ (∀ j, (d.setRegFld r hi lo v).part j = d.part j) ∧
    (∀ j, (d.setRegFld r hi lo v).sram j = d.sram j) ∧ (∀ j, (d.setRegFld r hi lo v).physCore j = d.physCore j) ∧
    (∀ j, (d.setRegFld r hi lo v).port j = d.port j) ∧ (∀ j, (d.setRegFld r hi lo v).link j = d.link j) ∧
    (∀ j, (d.setRegFld r hi lo v).mesh j = d.mesh j) ∧ (∀ j, (d.setRegFld r hi lo v).ctx j = d.ctx j) ∧
    (∀ j, (d.setRegFld r hi lo v).pkg j = d.pkg j) ∧ (∀ j, (d.setRegFld r hi lo v).hbmTile j = d.hbmTile j) ∧
    (∀ j, (d.setRegFld r hi lo v).cvu j = d.cvu j) ∧ (∀ j, (d.setRegFld r hi lo v).ptile j = d.ptile j) ∧
    (∀ j, (d.setRegFld r hi lo v).pll j = d.pll j) ∧ (∀ j, (d.setRegFld r hi lo v).hart j = d.hart j) ∧
    (∀ j, (d.setRegFld r hi lo v).dmaEng j = d.dmaEng j) ∧ (∀ j, (d.setRegFld r hi lo v).set_ j = d.set_ j) ∧
    (∀ j, (d.setRegFld r hi lo v).sem j = d.sem j) ∧ (∀ j, (d.setRegFld r hi lo v).gen j = d.gen j) := by
  and_intros <;> intros <;> rfl

@[simp] theorem Dev.count_reads (d : Dev) (r : Reg) (hi lo k : Nat) :
    (∀ j, (d.count r hi lo k).core j = d.core j) ∧ (∀ j, (d.count r hi lo k).part j = d.part j) ∧
    (∀ j, (d.count r hi lo k).sram j = d.sram j) ∧ (∀ j, (d.count r hi lo k).physCore j = d.physCore j) ∧
    (∀ j, (d.count r hi lo k).port j = d.port j) ∧ (∀ j, (d.count r hi lo k).link j = d.link j) ∧
    (∀ j, (d.count r hi lo k).mesh j = d.mesh j) ∧ (∀ j, (d.count r hi lo k).ctx j = d.ctx j) ∧
    (∀ j, (d.count r hi lo k).pkg j = d.pkg j) ∧ (∀ j, (d.count r hi lo k).hbmTile j = d.hbmTile j) ∧
    (∀ j, (d.count r hi lo k).cvu j = d.cvu j) ∧ (∀ j, (d.count r hi lo k).ptile j = d.ptile j) ∧
    (∀ j, (d.count r hi lo k).pll j = d.pll j) ∧ (∀ j, (d.count r hi lo k).hart j = d.hart j) ∧
    (∀ j, (d.count r hi lo k).dmaEng j = d.dmaEng j) ∧ (∀ j, (d.count r hi lo k).set_ j = d.set_ j) ∧
    (∀ j, (d.count r hi lo k).sem j = d.sem j) ∧ (∀ j, (d.count r hi lo k).gen j = d.gen j) := by
  and_intros <;> intros <;> rfl

@[simp] theorem Dev.setCore_reads (d : Dev) (c : Nat) (x : Core) :
    (∀ j, (d.setCore c x).part j = d.part j) ∧ (∀ j, (d.setCore c x).sram j = d.sram j) ∧
    (∀ j, (d.setCore c x).physCore j = d.physCore j) ∧ (∀ j, (d.setCore c x).port j = d.port j) ∧
    (∀ j, (d.setCore c x).link j = d.link j) ∧ (∀ j, (d.setCore c x).mesh j = d.mesh j) ∧
    (∀ j, (d.setCore c x).ctx j = d.ctx j) ∧ (∀ j, (d.setCore c x).pkg j = d.pkg j) ∧
    (∀ j, (d.setCore c x).hbmTile j = d.hbmTile j) ∧ (∀ j, (d.setCore c x).cvu j = d.cvu j) ∧
    (∀ j, (d.setCore c x).ptile j = d.ptile j) ∧ (∀ j, (d.setCore c x).pll j = d.pll j) ∧
    (∀ j, (d.setCore c x).hart j = d.hart j) ∧ (∀ j, (d.setCore c x).dmaEng j = d.dmaEng j) ∧
    (∀ j, (d.setCore c x).set_ j = d.set_ j) ∧ (∀ j, (d.setCore c x).sem j = d.sem j) ∧
    (∀ j, (d.setCore c x).gen j = d.gen j) ∧ (∀ r', (d.setCore c x).reg r' = d.reg r') := by
  and_intros <;> intros <;> rfl

@[simp] theorem Dev.onCore_reads (d : Dev) (c : Nat) (f : Core → Core) :
    (∀ j, (d.onCore c f).part j = d.part j) ∧ (∀ j, (d.onCore c f).sram j = d.sram j) ∧
    (∀ j, (d.onCore c f).physCore j = d.physCore j) ∧ (∀ j, (d.onCore c f).port j = d.port j) ∧
    (∀ j, (d.onCore c f).link j = d.link j) ∧ (∀ j, (d.onCore c f).mesh j = d.mesh j) ∧
    (∀ j, (d.onCore c f).ctx j = d.ctx j) ∧ (∀ j, (d.onCore c f).pkg j = d.pkg j) ∧
    (∀ j, (d.onCore c f).hbmTile j = d.hbmTile j) ∧ (∀ j, (d.onCore c f).cvu j = d.cvu j) ∧
    (∀ j, (d.onCore c f).ptile j = d.ptile j) ∧ (∀ j, (d.onCore c f).pll j = d.pll j) ∧
    (∀ j, (d.onCore c f).hart j = d.hart j) ∧ (∀ j, (d.onCore c f).dmaEng j = d.dmaEng j) ∧
    (∀ j, (d.onCore c f).set_ j = d.set_ j) ∧ (∀ j, (d.onCore c f).sem j = d.sem j) ∧
    (∀ j, (d.onCore c f).gen j = d.gen j) ∧ (∀ r', (d.onCore c f).reg r' = d.reg r') := by
  and_intros <;> intros <;> rfl

@[simp] theorem Dev.onSq_reads (d : Dev) (c : Nat) (f : Sq → Sq) :
    (∀ j, (d.onSq c f).part j = d.part j) ∧ (∀ j, (d.onSq c f).sram j = d.sram j) ∧
    (∀ j, (d.onSq c f).physCore j = d.physCore j) ∧ (∀ j, (d.onSq c f).port j = d.port j) ∧
    (∀ j, (d.onSq c f).link j = d.link j) ∧ (∀ j, (d.onSq c f).mesh j = d.mesh j) ∧
    (∀ j, (d.onSq c f).ctx j = d.ctx j) ∧ (∀ j, (d.onSq c f).pkg j = d.pkg j) ∧
    (∀ j, (d.onSq c f).hbmTile j = d.hbmTile j) ∧ (∀ j, (d.onSq c f).cvu j = d.cvu j) ∧
    (∀ j, (d.onSq c f).ptile j = d.ptile j) ∧ (∀ j, (d.onSq c f).pll j = d.pll j) ∧
    (∀ j, (d.onSq c f).hart j = d.hart j) ∧ (∀ j, (d.onSq c f).dmaEng j = d.dmaEng j) ∧
    (∀ j, (d.onSq c f).set_ j = d.set_ j) ∧ (∀ j, (d.onSq c f).sem j = d.sem j) ∧ (∀ j, (d.onSq c f).gen j = d.gen j) ∧
    (∀ r', (d.onSq c f).reg r' = d.reg r') := by
  and_intros <;> intros <;> rfl

@[simp] theorem Dev.onMe_reads (d : Dev) (c : Nat) (f : Me → Me) :
    (∀ j, (d.onMe c f).part j = d.part j) ∧ (∀ j, (d.onMe c f).sram j = d.sram j) ∧
    (∀ j, (d.onMe c f).physCore j = d.physCore j) ∧ (∀ j, (d.onMe c f).port j = d.port j) ∧
    (∀ j, (d.onMe c f).link j = d.link j) ∧ (∀ j, (d.onMe c f).mesh j = d.mesh j) ∧
    (∀ j, (d.onMe c f).ctx j = d.ctx j) ∧ (∀ j, (d.onMe c f).pkg j = d.pkg j) ∧
    (∀ j, (d.onMe c f).hbmTile j = d.hbmTile j) ∧ (∀ j, (d.onMe c f).cvu j = d.cvu j) ∧
    (∀ j, (d.onMe c f).ptile j = d.ptile j) ∧ (∀ j, (d.onMe c f).pll j = d.pll j) ∧
    (∀ j, (d.onMe c f).hart j = d.hart j) ∧ (∀ j, (d.onMe c f).dmaEng j = d.dmaEng j) ∧
    (∀ j, (d.onMe c f).set_ j = d.set_ j) ∧ (∀ j, (d.onMe c f).sem j = d.sem j) ∧ (∀ j, (d.onMe c f).gen j = d.gen j) ∧
    (∀ r', (d.onMe c f).reg r' = d.reg r') := by
  and_intros <;> intros <;> rfl

@[simp] theorem Dev.onVe_reads (d : Dev) (c : Nat) (f : Ve → Ve) :
    (∀ j, (d.onVe c f).part j = d.part j) ∧ (∀ j, (d.onVe c f).sram j = d.sram j) ∧
    (∀ j, (d.onVe c f).physCore j = d.physCore j) ∧ (∀ j, (d.onVe c f).port j = d.port j) ∧
    (∀ j, (d.onVe c f).link j = d.link j) ∧ (∀ j, (d.onVe c f).mesh j = d.mesh j) ∧
    (∀ j, (d.onVe c f).ctx j = d.ctx j) ∧ (∀ j, (d.onVe c f).pkg j = d.pkg j) ∧
    (∀ j, (d.onVe c f).hbmTile j = d.hbmTile j) ∧ (∀ j, (d.onVe c f).cvu j = d.cvu j) ∧
    (∀ j, (d.onVe c f).ptile j = d.ptile j) ∧ (∀ j, (d.onVe c f).pll j = d.pll j) ∧
    (∀ j, (d.onVe c f).hart j = d.hart j) ∧ (∀ j, (d.onVe c f).dmaEng j = d.dmaEng j) ∧
    (∀ j, (d.onVe c f).set_ j = d.set_ j) ∧ (∀ j, (d.onVe c f).sem j = d.sem j) ∧ (∀ j, (d.onVe c f).gen j = d.gen j) ∧
    (∀ r', (d.onVe c f).reg r' = d.reg r') := by
  and_intros <;> intros <;> rfl

@[simp] theorem Dev.onFte_reads (d : Dev) (c : Nat) (f : Fte → Fte) :
    (∀ j, (d.onFte c f).part j = d.part j) ∧ (∀ j, (d.onFte c f).sram j = d.sram j) ∧
    (∀ j, (d.onFte c f).physCore j = d.physCore j) ∧ (∀ j, (d.onFte c f).port j = d.port j) ∧
    (∀ j, (d.onFte c f).link j = d.link j) ∧ (∀ j, (d.onFte c f).mesh j = d.mesh j) ∧
    (∀ j, (d.onFte c f).ctx j = d.ctx j) ∧ (∀ j, (d.onFte c f).pkg j = d.pkg j) ∧
    (∀ j, (d.onFte c f).hbmTile j = d.hbmTile j) ∧ (∀ j, (d.onFte c f).cvu j = d.cvu j) ∧
    (∀ j, (d.onFte c f).ptile j = d.ptile j) ∧ (∀ j, (d.onFte c f).pll j = d.pll j) ∧
    (∀ j, (d.onFte c f).hart j = d.hart j) ∧ (∀ j, (d.onFte c f).dmaEng j = d.dmaEng j) ∧
    (∀ j, (d.onFte c f).set_ j = d.set_ j) ∧ (∀ j, (d.onFte c f).sem j = d.sem j) ∧
    (∀ j, (d.onFte c f).gen j = d.gen j) ∧ (∀ r', (d.onFte c f).reg r' = d.reg r') := by
  and_intros <;> intros <;> rfl

@[simp] theorem Dev.onEng_reads (d : Dev) (c e : Nat) (f : Eng → Eng) :
    (∀ j, (d.onEng c e f).part j = d.part j) ∧ (∀ j, (d.onEng c e f).sram j = d.sram j) ∧
    (∀ j, (d.onEng c e f).physCore j = d.physCore j) ∧ (∀ j, (d.onEng c e f).port j = d.port j) ∧
    (∀ j, (d.onEng c e f).link j = d.link j) ∧ (∀ j, (d.onEng c e f).mesh j = d.mesh j) ∧
    (∀ j, (d.onEng c e f).ctx j = d.ctx j) ∧ (∀ j, (d.onEng c e f).pkg j = d.pkg j) ∧
    (∀ j, (d.onEng c e f).hbmTile j = d.hbmTile j) ∧ (∀ j, (d.onEng c e f).cvu j = d.cvu j) ∧
    (∀ j, (d.onEng c e f).ptile j = d.ptile j) ∧ (∀ j, (d.onEng c e f).pll j = d.pll j) ∧
    (∀ j, (d.onEng c e f).hart j = d.hart j) ∧ (∀ j, (d.onEng c e f).dmaEng j = d.dmaEng j) ∧
    (∀ j, (d.onEng c e f).set_ j = d.set_ j) ∧ (∀ j, (d.onEng c e f).sem j = d.sem j) ∧
    (∀ j, (d.onEng c e f).gen j = d.gen j) ∧ (∀ r', (d.onEng c e f).reg r' = d.reg r') := by
  and_intros <;> intros <;> rfl

@[simp] theorem Dev.setSem_reads (d : Dev) (k : Nat) (x : Sem) :
    (∀ j, (d.setSem k x).core j = d.core j) ∧ (∀ j, (d.setSem k x).part j = d.part j) ∧
    (∀ j, (d.setSem k x).sram j = d.sram j) ∧ (∀ j, (d.setSem k x).physCore j = d.physCore j) ∧
    (∀ j, (d.setSem k x).port j = d.port j) ∧ (∀ j, (d.setSem k x).link j = d.link j) ∧
    (∀ j, (d.setSem k x).mesh j = d.mesh j) ∧ (∀ j, (d.setSem k x).ctx j = d.ctx j) ∧
    (∀ j, (d.setSem k x).pkg j = d.pkg j) ∧ (∀ j, (d.setSem k x).hbmTile j = d.hbmTile j) ∧
    (∀ j, (d.setSem k x).cvu j = d.cvu j) ∧ (∀ j, (d.setSem k x).ptile j = d.ptile j) ∧
    (∀ j, (d.setSem k x).pll j = d.pll j) ∧ (∀ j, (d.setSem k x).hart j = d.hart j) ∧
    (∀ j, (d.setSem k x).dmaEng j = d.dmaEng j) ∧ (∀ j, (d.setSem k x).set_ j = d.set_ j) ∧
    (∀ j, (d.setSem k x).gen j = d.gen j) ∧ (∀ r', (d.setSem k x).reg r' = d.reg r') := by
  and_intros <;> intros <;> rfl

@[simp] theorem Dev.onPart_reads (d : Dev) (p : Nat) (f : Part → Part) :
    (∀ j, (d.onPart p f).core j = d.core j) ∧ (∀ j, (d.onPart p f).sram j = d.sram j) ∧
    (∀ j, (d.onPart p f).physCore j = d.physCore j) ∧ (∀ j, (d.onPart p f).port j = d.port j) ∧
    (∀ j, (d.onPart p f).link j = d.link j) ∧ (∀ j, (d.onPart p f).mesh j = d.mesh j) ∧
    (∀ j, (d.onPart p f).ctx j = d.ctx j) ∧ (∀ j, (d.onPart p f).pkg j = d.pkg j) ∧
    (∀ j, (d.onPart p f).hbmTile j = d.hbmTile j) ∧ (∀ j, (d.onPart p f).cvu j = d.cvu j) ∧
    (∀ j, (d.onPart p f).ptile j = d.ptile j) ∧ (∀ j, (d.onPart p f).pll j = d.pll j) ∧
    (∀ j, (d.onPart p f).hart j = d.hart j) ∧ (∀ j, (d.onPart p f).dmaEng j = d.dmaEng j) ∧
    (∀ j, (d.onPart p f).set_ j = d.set_ j) ∧ (∀ j, (d.onPart p f).sem j = d.sem j) ∧
    (∀ j, (d.onPart p f).gen j = d.gen j) ∧ (∀ r', (d.onPart p f).reg r' = d.reg r') := by
  and_intros <;> intros <;> rfl

@[simp] theorem Dev.setGen_reads (d : Dev) (p : Nat) (x : GenTable) :
    (∀ j, (d.setGen p x).core j = d.core j) ∧ (∀ j, (d.setGen p x).part j = d.part j) ∧
    (∀ j, (d.setGen p x).sram j = d.sram j) ∧ (∀ j, (d.setGen p x).physCore j = d.physCore j) ∧
    (∀ j, (d.setGen p x).port j = d.port j) ∧ (∀ j, (d.setGen p x).link j = d.link j) ∧
    (∀ j, (d.setGen p x).mesh j = d.mesh j) ∧ (∀ j, (d.setGen p x).ctx j = d.ctx j) ∧
    (∀ j, (d.setGen p x).pkg j = d.pkg j) ∧ (∀ j, (d.setGen p x).hbmTile j = d.hbmTile j) ∧
    (∀ j, (d.setGen p x).cvu j = d.cvu j) ∧ (∀ j, (d.setGen p x).ptile j = d.ptile j) ∧
    (∀ j, (d.setGen p x).pll j = d.pll j) ∧ (∀ j, (d.setGen p x).hart j = d.hart j) ∧
    (∀ j, (d.setGen p x).dmaEng j = d.dmaEng j) ∧ (∀ j, (d.setGen p x).set_ j = d.set_ j) ∧
    (∀ j, (d.setGen p x).sem j = d.sem j) ∧ (∀ r', (d.setGen p x).reg r' = d.reg r') := by
  and_intros <;> intros <;> rfl

@[simp] theorem Dev.onSram_reads (d : Dev) (u : Nat) (f : Sram → Sram) :
    (∀ j, (d.onSram u f).core j = d.core j) ∧ (∀ j, (d.onSram u f).part j = d.part j) ∧
    (∀ j, (d.onSram u f).physCore j = d.physCore j) ∧ (∀ j, (d.onSram u f).port j = d.port j) ∧
    (∀ j, (d.onSram u f).link j = d.link j) ∧ (∀ j, (d.onSram u f).mesh j = d.mesh j) ∧
    (∀ j, (d.onSram u f).ctx j = d.ctx j) ∧ (∀ j, (d.onSram u f).pkg j = d.pkg j) ∧
    (∀ j, (d.onSram u f).hbmTile j = d.hbmTile j) ∧ (∀ j, (d.onSram u f).cvu j = d.cvu j) ∧
    (∀ j, (d.onSram u f).ptile j = d.ptile j) ∧ (∀ j, (d.onSram u f).pll j = d.pll j) ∧
    (∀ j, (d.onSram u f).hart j = d.hart j) ∧ (∀ j, (d.onSram u f).dmaEng j = d.dmaEng j) ∧
    (∀ j, (d.onSram u f).set_ j = d.set_ j) ∧ (∀ j, (d.onSram u f).sem j = d.sem j) ∧
    (∀ j, (d.onSram u f).gen j = d.gen j) ∧ (∀ r', (d.onSram u f).reg r' = d.reg r') := by
  and_intros <;> intros <;> rfl

@[simp] theorem Dev.onPhys_reads (d : Dev) (i : Nat) (f : PhysCore → PhysCore) :
    (∀ j, (d.onPhys i f).core j = d.core j) ∧ (∀ j, (d.onPhys i f).part j = d.part j) ∧
    (∀ j, (d.onPhys i f).sram j = d.sram j) ∧ (∀ j, (d.onPhys i f).port j = d.port j) ∧
    (∀ j, (d.onPhys i f).link j = d.link j) ∧ (∀ j, (d.onPhys i f).mesh j = d.mesh j) ∧
    (∀ j, (d.onPhys i f).ctx j = d.ctx j) ∧ (∀ j, (d.onPhys i f).pkg j = d.pkg j) ∧
    (∀ j, (d.onPhys i f).hbmTile j = d.hbmTile j) ∧ (∀ j, (d.onPhys i f).cvu j = d.cvu j) ∧
    (∀ j, (d.onPhys i f).ptile j = d.ptile j) ∧ (∀ j, (d.onPhys i f).pll j = d.pll j) ∧
    (∀ j, (d.onPhys i f).hart j = d.hart j) ∧ (∀ j, (d.onPhys i f).dmaEng j = d.dmaEng j) ∧
    (∀ j, (d.onPhys i f).set_ j = d.set_ j) ∧ (∀ j, (d.onPhys i f).sem j = d.sem j) ∧
    (∀ j, (d.onPhys i f).gen j = d.gen j) ∧ (∀ r', (d.onPhys i f).reg r' = d.reg r') := by
  and_intros <;> intros <;> rfl

@[simp] theorem Dev.raiseAs_reads (d : Dev) (cls : EvClass) (code : Nat) (part : Option Nat) (unit detail : Nat) :
    (∀ j, (d.raiseAs cls code part unit detail).core j = d.core j) ∧
    (∀ j, (d.raiseAs cls code part unit detail).part j = d.part j) ∧
    (∀ j, (d.raiseAs cls code part unit detail).sram j = d.sram j) ∧
    (∀ j, (d.raiseAs cls code part unit detail).physCore j = d.physCore j) ∧
    (∀ j, (d.raiseAs cls code part unit detail).port j = d.port j) ∧
    (∀ j, (d.raiseAs cls code part unit detail).link j = d.link j) ∧
    (∀ j, (d.raiseAs cls code part unit detail).mesh j = d.mesh j) ∧
    (∀ j, (d.raiseAs cls code part unit detail).ctx j = d.ctx j) ∧
    (∀ j, (d.raiseAs cls code part unit detail).pkg j = d.pkg j) ∧
    (∀ j, (d.raiseAs cls code part unit detail).hbmTile j = d.hbmTile j) ∧
    (∀ j, (d.raiseAs cls code part unit detail).cvu j = d.cvu j) ∧
    (∀ j, (d.raiseAs cls code part unit detail).ptile j = d.ptile j) ∧
    (∀ j, (d.raiseAs cls code part unit detail).pll j = d.pll j) ∧
    (∀ j, (d.raiseAs cls code part unit detail).hart j = d.hart j) ∧
    (∀ j, (d.raiseAs cls code part unit detail).dmaEng j = d.dmaEng j) ∧
    (∀ j, (d.raiseAs cls code part unit detail).set_ j = d.set_ j) ∧
    (∀ j, (d.raiseAs cls code part unit detail).sem j = d.sem j) ∧
    (∀ j, (d.raiseAs cls code part unit detail).gen j = d.gen j) ∧
    (∀ r', (d.raiseAs cls code part unit detail).reg r' = d.reg r') := by
  and_intros <;> intros <;> rfl

@[simp] theorem Dev.raise_reads (d : Dev) (code : Nat) (part : Option Nat) (unit : Nat) :
    (∀ j, (d.raise code part unit).core j = d.core j) ∧ (∀ j, (d.raise code part unit).part j = d.part j) ∧
    (∀ j, (d.raise code part unit).sram j = d.sram j) ∧ (∀ j, (d.raise code part unit).physCore j = d.physCore j) ∧
    (∀ j, (d.raise code part unit).port j = d.port j) ∧ (∀ j, (d.raise code part unit).link j = d.link j) ∧
    (∀ j, (d.raise code part unit).mesh j = d.mesh j) ∧ (∀ j, (d.raise code part unit).ctx j = d.ctx j) ∧
    (∀ j, (d.raise code part unit).pkg j = d.pkg j) ∧ (∀ j, (d.raise code part unit).hbmTile j = d.hbmTile j) ∧
    (∀ j, (d.raise code part unit).cvu j = d.cvu j) ∧ (∀ j, (d.raise code part unit).ptile j = d.ptile j) ∧
    (∀ j, (d.raise code part unit).pll j = d.pll j) ∧ (∀ j, (d.raise code part unit).hart j = d.hart j) ∧
    (∀ j, (d.raise code part unit).dmaEng j = d.dmaEng j) ∧ (∀ j, (d.raise code part unit).set_ j = d.set_ j) ∧
    (∀ j, (d.raise code part unit).sem j = d.sem j) ∧ (∀ j, (d.raise code part unit).gen j = d.gen j) ∧
    (∀ r', (d.raise code part unit).reg r' = d.reg r') := by
  and_intros <;> intros <;> rfl

@[simp] theorem Dev.raiseCore_reads (d : Dev) (code c : Nat) :
    (∀ j, (d.raiseCore code c).core j = d.core j) ∧ (∀ j, (d.raiseCore code c).part j = d.part j) ∧
    (∀ j, (d.raiseCore code c).sram j = d.sram j) ∧ (∀ j, (d.raiseCore code c).physCore j = d.physCore j) ∧
    (∀ j, (d.raiseCore code c).port j = d.port j) ∧ (∀ j, (d.raiseCore code c).link j = d.link j) ∧
    (∀ j, (d.raiseCore code c).mesh j = d.mesh j) ∧ (∀ j, (d.raiseCore code c).ctx j = d.ctx j) ∧
    (∀ j, (d.raiseCore code c).pkg j = d.pkg j) ∧ (∀ j, (d.raiseCore code c).hbmTile j = d.hbmTile j) ∧
    (∀ j, (d.raiseCore code c).cvu j = d.cvu j) ∧ (∀ j, (d.raiseCore code c).ptile j = d.ptile j) ∧
    (∀ j, (d.raiseCore code c).pll j = d.pll j) ∧ (∀ j, (d.raiseCore code c).hart j = d.hart j) ∧
    (∀ j, (d.raiseCore code c).dmaEng j = d.dmaEng j) ∧ (∀ j, (d.raiseCore code c).set_ j = d.set_ j) ∧
    (∀ j, (d.raiseCore code c).sem j = d.sem j) ∧ (∀ j, (d.raiseCore code c).gen j = d.gen j) ∧
    (∀ r', (d.raiseCore code c).reg r' = d.reg r') := by
  and_intros <;> intros <;> rfl

@[simp] theorem Dev.out_reads (d : Dev) (o : Out) :
    (∀ j, (d.out o).core j = d.core j) ∧ (∀ j, (d.out o).part j = d.part j) ∧ (∀ j, (d.out o).sram j = d.sram j) ∧
    (∀ j, (d.out o).physCore j = d.physCore j) ∧ (∀ j, (d.out o).port j = d.port j) ∧
    (∀ j, (d.out o).link j = d.link j) ∧ (∀ j, (d.out o).mesh j = d.mesh j) ∧ (∀ j, (d.out o).ctx j = d.ctx j) ∧
    (∀ j, (d.out o).pkg j = d.pkg j) ∧ (∀ j, (d.out o).hbmTile j = d.hbmTile j) ∧ (∀ j, (d.out o).cvu j = d.cvu j) ∧
    (∀ j, (d.out o).ptile j = d.ptile j) ∧ (∀ j, (d.out o).pll j = d.pll j) ∧ (∀ j, (d.out o).hart j = d.hart j) ∧
    (∀ j, (d.out o).dmaEng j = d.dmaEng j) ∧ (∀ j, (d.out o).set_ j = d.set_ j) ∧ (∀ j, (d.out o).sem j = d.sem j) ∧
    (∀ j, (d.out o).gen j = d.gen j) ∧ (∀ r', (d.out o).reg r' = d.reg r') := by
  and_intros <;> intros <;> rfl

@[simp] theorem Dev.tick_reads (d : Dev)  :
    (∀ j, (d.tick).core j = d.core j) ∧ (∀ j, (d.tick).part j = d.part j) ∧ (∀ j, (d.tick).sram j = d.sram j) ∧
    (∀ j, (d.tick).physCore j = d.physCore j) ∧ (∀ j, (d.tick).port j = d.port j) ∧ (∀ j, (d.tick).link j = d.link j) ∧
    (∀ j, (d.tick).mesh j = d.mesh j) ∧ (∀ j, (d.tick).ctx j = d.ctx j) ∧ (∀ j, (d.tick).pkg j = d.pkg j) ∧
    (∀ j, (d.tick).hbmTile j = d.hbmTile j) ∧ (∀ j, (d.tick).cvu j = d.cvu j) ∧ (∀ j, (d.tick).ptile j = d.ptile j) ∧
    (∀ j, (d.tick).pll j = d.pll j) ∧ (∀ j, (d.tick).hart j = d.hart j) ∧ (∀ j, (d.tick).dmaEng j = d.dmaEng j) ∧
    (∀ j, (d.tick).set_ j = d.set_ j) ∧ (∀ j, (d.tick).sem j = d.sem j) ∧ (∀ j, (d.tick).gen j = d.gen j) ∧
    (∀ r', (d.tick).reg r' = d.reg r') := by
  and_intros <;> intros <;> rfl

@[simp] theorem Dev.silent_reads (d : Dev)  :
    (∀ j, (d.silent).core j = d.core j) ∧ (∀ j, (d.silent).part j = d.part j) ∧ (∀ j, (d.silent).sram j = d.sram j) ∧
    (∀ j, (d.silent).physCore j = d.physCore j) ∧ (∀ j, (d.silent).port j = d.port j) ∧
    (∀ j, (d.silent).link j = d.link j) ∧ (∀ j, (d.silent).mesh j = d.mesh j) ∧ (∀ j, (d.silent).ctx j = d.ctx j) ∧
    (∀ j, (d.silent).pkg j = d.pkg j) ∧ (∀ j, (d.silent).hbmTile j = d.hbmTile j) ∧ (∀ j, (d.silent).cvu j = d.cvu j) ∧
    (∀ j, (d.silent).ptile j = d.ptile j) ∧ (∀ j, (d.silent).pll j = d.pll j) ∧ (∀ j, (d.silent).hart j = d.hart j) ∧
    (∀ j, (d.silent).dmaEng j = d.dmaEng j) ∧ (∀ j, (d.silent).set_ j = d.set_ j) ∧ (∀ j, (d.silent).sem j = d.sem j) ∧
    (∀ j, (d.silent).gen j = d.gen j) ∧ (∀ r', (d.silent).reg r' = d.reg r') := by
  and_intros <;> intros <;> rfl

@[simp] theorem Dev.semSend_reads (d : Dev) (r : SemReq) :
    (∀ j, (d.semSend r).core j = d.core j) ∧ (∀ j, (d.semSend r).part j = d.part j) ∧
    (∀ j, (d.semSend r).sram j = d.sram j) ∧ (∀ j, (d.semSend r).physCore j = d.physCore j) ∧
    (∀ j, (d.semSend r).port j = d.port j) ∧ (∀ j, (d.semSend r).link j = d.link j) ∧
    (∀ j, (d.semSend r).mesh j = d.mesh j) ∧ (∀ j, (d.semSend r).ctx j = d.ctx j) ∧
    (∀ j, (d.semSend r).pkg j = d.pkg j) ∧ (∀ j, (d.semSend r).hbmTile j = d.hbmTile j) ∧
    (∀ j, (d.semSend r).cvu j = d.cvu j) ∧ (∀ j, (d.semSend r).ptile j = d.ptile j) ∧
    (∀ j, (d.semSend r).pll j = d.pll j) ∧ (∀ j, (d.semSend r).hart j = d.hart j) ∧
    (∀ j, (d.semSend r).dmaEng j = d.dmaEng j) ∧ (∀ j, (d.semSend r).set_ j = d.set_ j) ∧
    (∀ j, (d.semSend r).sem j = d.sem j) ∧ (∀ j, (d.semSend r).gen j = d.gen j) ∧
    (∀ r', (d.semSend r).reg r' = d.reg r') := by
  and_intros <;> intros <;> rfl

@[simp] theorem Dev.onSec_reads (d : Dev) (f : Sec → Sec) :
    (∀ j, (d.onSec f).core j = d.core j) ∧ (∀ j, (d.onSec f).part j = d.part j) ∧
    (∀ j, (d.onSec f).sram j = d.sram j) ∧ (∀ j, (d.onSec f).physCore j = d.physCore j) ∧
    (∀ j, (d.onSec f).port j = d.port j) ∧ (∀ j, (d.onSec f).link j = d.link j) ∧
    (∀ j, (d.onSec f).mesh j = d.mesh j) ∧ (∀ j, (d.onSec f).ctx j = d.ctx j) ∧ (∀ j, (d.onSec f).pkg j = d.pkg j) ∧
    (∀ j, (d.onSec f).hbmTile j = d.hbmTile j) ∧ (∀ j, (d.onSec f).cvu j = d.cvu j) ∧
    (∀ j, (d.onSec f).ptile j = d.ptile j) ∧ (∀ j, (d.onSec f).pll j = d.pll j) ∧
    (∀ j, (d.onSec f).hart j = d.hart j) ∧ (∀ j, (d.onSec f).dmaEng j = d.dmaEng j) ∧
    (∀ j, (d.onSec f).set_ j = d.set_ j) ∧ (∀ j, (d.onSec f).sem j = d.sem j) ∧ (∀ j, (d.onSec f).gen j = d.gen j) ∧
    (∀ r', (d.onSec f).reg r' = d.reg r') := by
  and_intros <;> intros <;> rfl

@[simp] theorem Dev.onTmp_reads (d : Dev) (f : TempoUnit → TempoUnit) :
    (∀ j, (d.onTmp f).core j = d.core j) ∧ (∀ j, (d.onTmp f).part j = d.part j) ∧
    (∀ j, (d.onTmp f).sram j = d.sram j) ∧ (∀ j, (d.onTmp f).physCore j = d.physCore j) ∧
    (∀ j, (d.onTmp f).port j = d.port j) ∧ (∀ j, (d.onTmp f).link j = d.link j) ∧
    (∀ j, (d.onTmp f).mesh j = d.mesh j) ∧ (∀ j, (d.onTmp f).ctx j = d.ctx j) ∧ (∀ j, (d.onTmp f).pkg j = d.pkg j) ∧
    (∀ j, (d.onTmp f).hbmTile j = d.hbmTile j) ∧ (∀ j, (d.onTmp f).cvu j = d.cvu j) ∧
    (∀ j, (d.onTmp f).ptile j = d.ptile j) ∧ (∀ j, (d.onTmp f).pll j = d.pll j) ∧
    (∀ j, (d.onTmp f).hart j = d.hart j) ∧ (∀ j, (d.onTmp f).dmaEng j = d.dmaEng j) ∧
    (∀ j, (d.onTmp f).set_ j = d.set_ j) ∧ (∀ j, (d.onTmp f).sem j = d.sem j) ∧ (∀ j, (d.onTmp f).gen j = d.gen j) ∧
    (∀ r', (d.onTmp f).reg r' = d.reg r') := by
  and_intros <;> intros <;> rfl

@[simp] theorem Dev.onPort_reads (d : Dev) (q : Nat) (f : Port → Port) :
    (∀ j, (d.onPort q f).core j = d.core j) ∧ (∀ j, (d.onPort q f).part j = d.part j) ∧
    (∀ j, (d.onPort q f).sram j = d.sram j) ∧ (∀ j, (d.onPort q f).physCore j = d.physCore j) ∧
    (∀ j, (d.onPort q f).link j = d.link j) ∧ (∀ j, (d.onPort q f).mesh j = d.mesh j) ∧
    (∀ j, (d.onPort q f).ctx j = d.ctx j) ∧ (∀ j, (d.onPort q f).pkg j = d.pkg j) ∧
    (∀ j, (d.onPort q f).hbmTile j = d.hbmTile j) ∧ (∀ j, (d.onPort q f).cvu j = d.cvu j) ∧
    (∀ j, (d.onPort q f).ptile j = d.ptile j) ∧ (∀ j, (d.onPort q f).pll j = d.pll j) ∧
    (∀ j, (d.onPort q f).hart j = d.hart j) ∧ (∀ j, (d.onPort q f).dmaEng j = d.dmaEng j) ∧
    (∀ j, (d.onPort q f).set_ j = d.set_ j) ∧ (∀ j, (d.onPort q f).sem j = d.sem j) ∧
    (∀ j, (d.onPort q f).gen j = d.gen j) ∧ (∀ r', (d.onPort q f).reg r' = d.reg r') := by
  and_intros <;> intros <;> rfl

@[simp] theorem Dev.onLink_reads (d : Dev) (l : Nat) (f : Link → Link) :
    (∀ j, (d.onLink l f).core j = d.core j) ∧ (∀ j, (d.onLink l f).part j = d.part j) ∧
    (∀ j, (d.onLink l f).sram j = d.sram j) ∧ (∀ j, (d.onLink l f).physCore j = d.physCore j) ∧
    (∀ j, (d.onLink l f).port j = d.port j) ∧ (∀ j, (d.onLink l f).mesh j = d.mesh j) ∧
    (∀ j, (d.onLink l f).ctx j = d.ctx j) ∧ (∀ j, (d.onLink l f).pkg j = d.pkg j) ∧
    (∀ j, (d.onLink l f).hbmTile j = d.hbmTile j) ∧ (∀ j, (d.onLink l f).cvu j = d.cvu j) ∧
    (∀ j, (d.onLink l f).ptile j = d.ptile j) ∧ (∀ j, (d.onLink l f).pll j = d.pll j) ∧
    (∀ j, (d.onLink l f).hart j = d.hart j) ∧ (∀ j, (d.onLink l f).dmaEng j = d.dmaEng j) ∧
    (∀ j, (d.onLink l f).set_ j = d.set_ j) ∧ (∀ j, (d.onLink l f).sem j = d.sem j) ∧
    (∀ j, (d.onLink l f).gen j = d.gen j) ∧ (∀ r', (d.onLink l f).reg r' = d.reg r') := by
  and_intros <;> intros <;> rfl

@[simp] theorem Dev.onMesh_reads (d : Dev) (t : Nat) (f : Mesh → Mesh) :
    (∀ j, (d.onMesh t f).core j = d.core j) ∧ (∀ j, (d.onMesh t f).part j = d.part j) ∧
    (∀ j, (d.onMesh t f).sram j = d.sram j) ∧ (∀ j, (d.onMesh t f).physCore j = d.physCore j) ∧
    (∀ j, (d.onMesh t f).port j = d.port j) ∧ (∀ j, (d.onMesh t f).link j = d.link j) ∧
    (∀ j, (d.onMesh t f).ctx j = d.ctx j) ∧ (∀ j, (d.onMesh t f).pkg j = d.pkg j) ∧
    (∀ j, (d.onMesh t f).hbmTile j = d.hbmTile j) ∧ (∀ j, (d.onMesh t f).cvu j = d.cvu j) ∧
    (∀ j, (d.onMesh t f).ptile j = d.ptile j) ∧ (∀ j, (d.onMesh t f).pll j = d.pll j) ∧
    (∀ j, (d.onMesh t f).hart j = d.hart j) ∧ (∀ j, (d.onMesh t f).dmaEng j = d.dmaEng j) ∧
    (∀ j, (d.onMesh t f).set_ j = d.set_ j) ∧ (∀ j, (d.onMesh t f).sem j = d.sem j) ∧
    (∀ j, (d.onMesh t f).gen j = d.gen j) ∧ (∀ r', (d.onMesh t f).reg r' = d.reg r') := by
  and_intros <;> intros <;> rfl

@[simp] theorem Dev.onCtx_reads (d : Dev) (c : Nat) (f : NeaCtx → NeaCtx) :
    (∀ j, (d.onCtx c f).core j = d.core j) ∧ (∀ j, (d.onCtx c f).part j = d.part j) ∧
    (∀ j, (d.onCtx c f).sram j = d.sram j) ∧ (∀ j, (d.onCtx c f).physCore j = d.physCore j) ∧
    (∀ j, (d.onCtx c f).port j = d.port j) ∧ (∀ j, (d.onCtx c f).link j = d.link j) ∧
    (∀ j, (d.onCtx c f).mesh j = d.mesh j) ∧ (∀ j, (d.onCtx c f).pkg j = d.pkg j) ∧
    (∀ j, (d.onCtx c f).hbmTile j = d.hbmTile j) ∧ (∀ j, (d.onCtx c f).cvu j = d.cvu j) ∧
    (∀ j, (d.onCtx c f).ptile j = d.ptile j) ∧ (∀ j, (d.onCtx c f).pll j = d.pll j) ∧
    (∀ j, (d.onCtx c f).hart j = d.hart j) ∧ (∀ j, (d.onCtx c f).dmaEng j = d.dmaEng j) ∧
    (∀ j, (d.onCtx c f).set_ j = d.set_ j) ∧ (∀ j, (d.onCtx c f).sem j = d.sem j) ∧
    (∀ j, (d.onCtx c f).gen j = d.gen j) ∧ (∀ r', (d.onCtx c f).reg r' = d.reg r') := by
  and_intros <;> intros <;> rfl

@[simp] theorem Dev.onPkg_reads (d : Dev) (k : Nat) (f : NeaPkg → NeaPkg) :
    (∀ j, (d.onPkg k f).core j = d.core j) ∧ (∀ j, (d.onPkg k f).part j = d.part j) ∧
    (∀ j, (d.onPkg k f).sram j = d.sram j) ∧ (∀ j, (d.onPkg k f).physCore j = d.physCore j) ∧
    (∀ j, (d.onPkg k f).port j = d.port j) ∧ (∀ j, (d.onPkg k f).link j = d.link j) ∧
    (∀ j, (d.onPkg k f).mesh j = d.mesh j) ∧ (∀ j, (d.onPkg k f).ctx j = d.ctx j) ∧
    (∀ j, (d.onPkg k f).hbmTile j = d.hbmTile j) ∧ (∀ j, (d.onPkg k f).cvu j = d.cvu j) ∧
    (∀ j, (d.onPkg k f).ptile j = d.ptile j) ∧ (∀ j, (d.onPkg k f).pll j = d.pll j) ∧
    (∀ j, (d.onPkg k f).hart j = d.hart j) ∧ (∀ j, (d.onPkg k f).dmaEng j = d.dmaEng j) ∧
    (∀ j, (d.onPkg k f).set_ j = d.set_ j) ∧ (∀ j, (d.onPkg k f).sem j = d.sem j) ∧
    (∀ j, (d.onPkg k f).gen j = d.gen j) ∧ (∀ r', (d.onPkg k f).reg r' = d.reg r') := by
  and_intros <;> intros <;> rfl

@[simp] theorem Dev.onHbm_reads (d : Dev) (t : Nat) (f : HbmTile → HbmTile) :
    (∀ j, (d.onHbm t f).core j = d.core j) ∧ (∀ j, (d.onHbm t f).part j = d.part j) ∧
    (∀ j, (d.onHbm t f).sram j = d.sram j) ∧ (∀ j, (d.onHbm t f).physCore j = d.physCore j) ∧
    (∀ j, (d.onHbm t f).port j = d.port j) ∧ (∀ j, (d.onHbm t f).link j = d.link j) ∧
    (∀ j, (d.onHbm t f).mesh j = d.mesh j) ∧ (∀ j, (d.onHbm t f).ctx j = d.ctx j) ∧
    (∀ j, (d.onHbm t f).pkg j = d.pkg j) ∧ (∀ j, (d.onHbm t f).cvu j = d.cvu j) ∧
    (∀ j, (d.onHbm t f).ptile j = d.ptile j) ∧ (∀ j, (d.onHbm t f).pll j = d.pll j) ∧
    (∀ j, (d.onHbm t f).hart j = d.hart j) ∧ (∀ j, (d.onHbm t f).dmaEng j = d.dmaEng j) ∧
    (∀ j, (d.onHbm t f).set_ j = d.set_ j) ∧ (∀ j, (d.onHbm t f).sem j = d.sem j) ∧
    (∀ j, (d.onHbm t f).gen j = d.gen j) ∧ (∀ r', (d.onHbm t f).reg r' = d.reg r') := by
  and_intros <;> intros <;> rfl

@[simp] theorem Dev.onCvu_reads (d : Dev) (n : Nat) (f : Cvu → Cvu) :
    (∀ j, (d.onCvu n f).core j = d.core j) ∧ (∀ j, (d.onCvu n f).part j = d.part j) ∧
    (∀ j, (d.onCvu n f).sram j = d.sram j) ∧ (∀ j, (d.onCvu n f).physCore j = d.physCore j) ∧
    (∀ j, (d.onCvu n f).port j = d.port j) ∧ (∀ j, (d.onCvu n f).link j = d.link j) ∧
    (∀ j, (d.onCvu n f).mesh j = d.mesh j) ∧ (∀ j, (d.onCvu n f).ctx j = d.ctx j) ∧
    (∀ j, (d.onCvu n f).pkg j = d.pkg j) ∧ (∀ j, (d.onCvu n f).hbmTile j = d.hbmTile j) ∧
    (∀ j, (d.onCvu n f).ptile j = d.ptile j) ∧ (∀ j, (d.onCvu n f).pll j = d.pll j) ∧
    (∀ j, (d.onCvu n f).hart j = d.hart j) ∧ (∀ j, (d.onCvu n f).dmaEng j = d.dmaEng j) ∧
    (∀ j, (d.onCvu n f).set_ j = d.set_ j) ∧ (∀ j, (d.onCvu n f).sem j = d.sem j) ∧
    (∀ j, (d.onCvu n f).gen j = d.gen j) ∧ (∀ r', (d.onCvu n f).reg r' = d.reg r') := by
  and_intros <;> intros <;> rfl

@[simp] theorem Dev.onTile_reads (d : Dev) (t : Nat) (f : PwrTile → PwrTile) :
    (∀ j, (d.onTile t f).core j = d.core j) ∧ (∀ j, (d.onTile t f).part j = d.part j) ∧
    (∀ j, (d.onTile t f).sram j = d.sram j) ∧ (∀ j, (d.onTile t f).physCore j = d.physCore j) ∧
    (∀ j, (d.onTile t f).port j = d.port j) ∧ (∀ j, (d.onTile t f).link j = d.link j) ∧
    (∀ j, (d.onTile t f).mesh j = d.mesh j) ∧ (∀ j, (d.onTile t f).ctx j = d.ctx j) ∧
    (∀ j, (d.onTile t f).pkg j = d.pkg j) ∧ (∀ j, (d.onTile t f).hbmTile j = d.hbmTile j) ∧
    (∀ j, (d.onTile t f).cvu j = d.cvu j) ∧ (∀ j, (d.onTile t f).pll j = d.pll j) ∧
    (∀ j, (d.onTile t f).hart j = d.hart j) ∧ (∀ j, (d.onTile t f).dmaEng j = d.dmaEng j) ∧
    (∀ j, (d.onTile t f).set_ j = d.set_ j) ∧ (∀ j, (d.onTile t f).sem j = d.sem j) ∧
    (∀ j, (d.onTile t f).gen j = d.gen j) ∧ (∀ r', (d.onTile t f).reg r' = d.reg r') := by
  and_intros <;> intros <;> rfl

@[simp] theorem Dev.onPll_reads (d : Dev) (k : Nat) (f : Pll → Pll) :
    (∀ j, (d.onPll k f).core j = d.core j) ∧ (∀ j, (d.onPll k f).part j = d.part j) ∧
    (∀ j, (d.onPll k f).sram j = d.sram j) ∧ (∀ j, (d.onPll k f).physCore j = d.physCore j) ∧
    (∀ j, (d.onPll k f).port j = d.port j) ∧ (∀ j, (d.onPll k f).link j = d.link j) ∧
    (∀ j, (d.onPll k f).mesh j = d.mesh j) ∧ (∀ j, (d.onPll k f).ctx j = d.ctx j) ∧
    (∀ j, (d.onPll k f).pkg j = d.pkg j) ∧ (∀ j, (d.onPll k f).hbmTile j = d.hbmTile j) ∧
    (∀ j, (d.onPll k f).cvu j = d.cvu j) ∧ (∀ j, (d.onPll k f).ptile j = d.ptile j) ∧
    (∀ j, (d.onPll k f).hart j = d.hart j) ∧ (∀ j, (d.onPll k f).dmaEng j = d.dmaEng j) ∧
    (∀ j, (d.onPll k f).set_ j = d.set_ j) ∧ (∀ j, (d.onPll k f).sem j = d.sem j) ∧
    (∀ j, (d.onPll k f).gen j = d.gen j) ∧ (∀ r', (d.onPll k f).reg r' = d.reg r') := by
  and_intros <;> intros <;> rfl

@[simp] theorem Dev.onHart_reads (d : Dev) (k : Nat) (f : Hart → Hart) :
    (∀ j, (d.onHart k f).core j = d.core j) ∧ (∀ j, (d.onHart k f).part j = d.part j) ∧
    (∀ j, (d.onHart k f).sram j = d.sram j) ∧ (∀ j, (d.onHart k f).physCore j = d.physCore j) ∧
    (∀ j, (d.onHart k f).port j = d.port j) ∧ (∀ j, (d.onHart k f).link j = d.link j) ∧
    (∀ j, (d.onHart k f).mesh j = d.mesh j) ∧ (∀ j, (d.onHart k f).ctx j = d.ctx j) ∧
    (∀ j, (d.onHart k f).pkg j = d.pkg j) ∧ (∀ j, (d.onHart k f).hbmTile j = d.hbmTile j) ∧
    (∀ j, (d.onHart k f).cvu j = d.cvu j) ∧ (∀ j, (d.onHart k f).ptile j = d.ptile j) ∧
    (∀ j, (d.onHart k f).pll j = d.pll j) ∧ (∀ j, (d.onHart k f).dmaEng j = d.dmaEng j) ∧
    (∀ j, (d.onHart k f).set_ j = d.set_ j) ∧ (∀ j, (d.onHart k f).sem j = d.sem j) ∧
    (∀ j, (d.onHart k f).gen j = d.gen j) ∧ (∀ r', (d.onHart k f).reg r' = d.reg r') := by
  and_intros <;> intros <;> rfl

@[simp] theorem Dev.onDma_reads (d : Dev) (g : Nat) (f : DmaEng → DmaEng) :
    (∀ j, (d.onDma g f).core j = d.core j) ∧ (∀ j, (d.onDma g f).part j = d.part j) ∧
    (∀ j, (d.onDma g f).sram j = d.sram j) ∧ (∀ j, (d.onDma g f).physCore j = d.physCore j) ∧
    (∀ j, (d.onDma g f).port j = d.port j) ∧ (∀ j, (d.onDma g f).link j = d.link j) ∧
    (∀ j, (d.onDma g f).mesh j = d.mesh j) ∧ (∀ j, (d.onDma g f).ctx j = d.ctx j) ∧
    (∀ j, (d.onDma g f).pkg j = d.pkg j) ∧ (∀ j, (d.onDma g f).hbmTile j = d.hbmTile j) ∧
    (∀ j, (d.onDma g f).cvu j = d.cvu j) ∧ (∀ j, (d.onDma g f).ptile j = d.ptile j) ∧
    (∀ j, (d.onDma g f).pll j = d.pll j) ∧ (∀ j, (d.onDma g f).hart j = d.hart j) ∧
    (∀ j, (d.onDma g f).set_ j = d.set_ j) ∧ (∀ j, (d.onDma g f).sem j = d.sem j) ∧
    (∀ j, (d.onDma g f).gen j = d.gen j) ∧ (∀ r', (d.onDma g f).reg r' = d.reg r') := by
  and_intros <;> intros <;> rfl

@[simp] theorem Dev.onSet_reads (d : Dev) (k : Nat) (f : StagedSet → StagedSet) :
    (∀ j, (d.onSet k f).core j = d.core j) ∧ (∀ j, (d.onSet k f).part j = d.part j) ∧
    (∀ j, (d.onSet k f).sram j = d.sram j) ∧ (∀ j, (d.onSet k f).physCore j = d.physCore j) ∧
    (∀ j, (d.onSet k f).port j = d.port j) ∧ (∀ j, (d.onSet k f).link j = d.link j) ∧
    (∀ j, (d.onSet k f).mesh j = d.mesh j) ∧ (∀ j, (d.onSet k f).ctx j = d.ctx j) ∧
    (∀ j, (d.onSet k f).pkg j = d.pkg j) ∧ (∀ j, (d.onSet k f).hbmTile j = d.hbmTile j) ∧
    (∀ j, (d.onSet k f).cvu j = d.cvu j) ∧ (∀ j, (d.onSet k f).ptile j = d.ptile j) ∧
    (∀ j, (d.onSet k f).pll j = d.pll j) ∧ (∀ j, (d.onSet k f).hart j = d.hart j) ∧
    (∀ j, (d.onSet k f).dmaEng j = d.dmaEng j) ∧ (∀ j, (d.onSet k f).sem j = d.sem j) ∧
    (∀ j, (d.onSet k f).gen j = d.gen j) ∧ (∀ r', (d.onSet k f).reg r' = d.reg r') := by
  and_intros <;> intros <;> rfl

/-! ## The runners (R558, R581, R634) -/

/-- A device that does not act answers as it stands, its output record emptied. -/
theorem run_dead (s : State) (f : Dev → Dev) (h : s.dev.live = false) : run s f = .next (s.with_ s.dev.silent) := by
  simp [run, h]

/-- A device that acts answers what the command makes of it; the levels of the input pins stay. -/
theorem run_live (s : State) (f : Dev → Dev) (h : s.dev.live = true) :
    run s f = .next (s.with_ ((f s.dev.silent).withPins s.dev)) := by
  simp [run, h]

@[simp] theorem State.with_dev (s : State) (d : Dev) : (s.with_ d).dev = d := rfl
@[simp] theorem State.with_pending (s : State) (d : Dev) : (s.with_ d).pending = s.pending := rfl

/-- Without a prune due, settling changes nothing. -/
theorem Dev.settle_nil (d : Dev) (h : d.pruneDue = []) : d.settle = d := by
  cases d; simp_all [Dev.settle]

@[simp] theorem Dev.withPins_frame (d p : Dev) :
    (d.withPins p).regs = d.regs ∧ (d.withPins p).mem = d.mem ∧ (d.withPins p).srams = d.srams ∧
    (d.withPins p).hbm = d.hbm ∧ (d.withPins p).nea = d.nea ∧ (d.withPins p).pkgs = d.pkgs ∧
    (d.withPins p).slowK = d.slowK ∧ (d.withPins p).mirrors = d.mirrors ∧ (d.withPins p).phys = d.phys ∧
    (d.withPins p).cores = d.cores ∧ (d.withPins p).sems = d.sems ∧ (d.withPins p).semReqs = d.semReqs ∧
    (d.withPins p).semDone = d.semDone ∧ (d.withPins p).nextReq = d.nextReq ∧ (d.withPins p).gens = d.gens ∧
    (d.withPins p).dma = d.dma ∧ (d.withPins p).cvus = d.cvus ∧ (d.withPins p).ports = d.ports ∧
    (d.withPins p).links = d.links ∧ (d.withPins p).meshes = d.meshes ∧ (d.withPins p).reds = d.reds ∧
    (d.withPins p).redHeld = d.redHeld ∧ (d.withPins p).peFailed = d.peFailed ∧ (d.withPins p).peMoves = d.peMoves ∧
    (d.withPins p).parts = d.parts ∧ (d.withPins p).tempo = d.tempo ∧ (d.withPins p).tmp = d.tmp ∧
    (d.withPins p).sets = d.sets ∧ (d.withPins p).stalling = d.stalling ∧ (d.withPins p).stalled = d.stalled ∧
    (d.withPins p).pwr = d.pwr ∧ (d.withPins p).plls = d.plls ∧ (d.withPins p).watts = d.watts ∧
    (d.withPins p).wattsPeak = d.wattsPeak ∧ (d.withPins p).amps = d.amps ∧ (d.withPins p).gated = d.gated ∧
    (d.withPins p).fuses = d.fuses ∧ (d.withPins p).flashB = d.flashB ∧ (d.withPins p).sec = d.sec ∧
    (d.withPins p).harts = d.harts ∧ (d.withPins p).mail = d.mail ∧ (d.withPins p).mgtUp = d.mgtUp ∧
    (d.withPins p).mgtFec = d.mgtFec ∧ (d.withPins p).session = d.session ∧ (d.withPins p).trip = d.trip ∧
    (d.withPins p).stopped = d.stopped ∧ (d.withPins p).raised = d.raised ∧ (d.withPins p).faults = d.faults ∧
    (d.withPins p).prunes = d.prunes ∧ (d.withPins p).pruneDue = d.pruneDue ∧ (d.withPins p).outs = d.outs ∧
    (d.withPins p).fresh = d.fresh := by
  and_intros <;> rfl

@[simp] theorem Dev.withPins_reads (d p : Dev) :
    (∀ j, (d.withPins p).core j = d.core j) ∧
    (∀ j, (d.withPins p).part j = d.part j) ∧
    (∀ j, (d.withPins p).sram j = d.sram j) ∧
    (∀ j, (d.withPins p).physCore j = d.physCore j) ∧
    (∀ j, (d.withPins p).port j = d.port j) ∧
    (∀ j, (d.withPins p).link j = d.link j) ∧
    (∀ j, (d.withPins p).mesh j = d.mesh j) ∧
    (∀ j, (d.withPins p).ctx j = d.ctx j) ∧
    (∀ j, (d.withPins p).pkg j = d.pkg j) ∧
    (∀ j, (d.withPins p).hbmTile j = d.hbmTile j) ∧
    (∀ j, (d.withPins p).cvu j = d.cvu j) ∧
    (∀ j, (d.withPins p).ptile j = d.ptile j) ∧
    (∀ j, (d.withPins p).pll j = d.pll j) ∧
    (∀ j, (d.withPins p).hart j = d.hart j) ∧
    (∀ j, (d.withPins p).dmaEng j = d.dmaEng j) ∧
    (∀ j, (d.withPins p).set_ j = d.set_ j) ∧
    (∀ j, (d.withPins p).sem j = d.sem j) ∧
    (∀ j, (d.withPins p).gen j = d.gen j) ∧
    (∀ r, (d.withPins p).reg r = d.reg r) := by
  and_intros <;> intros <;> rfl

@[simp] theorem Dev.withPins_pins (d p : Dev) : (d.withPins p).resetN = p.resetN ∧ (d.withPins p).vin = p.vin := ⟨rfl, rfl⟩

end Sys2Proof.Machine
end

