-- ==== Sys2Proof/Laws/Sequencer.lean ====
section
/-! SUPPORT. Laws of the sequencer: the fields of an instruction word, what an issue does, what the next index is. -/
namespace Sys2Proof.Machine

/-- A bit of a word with one field. -/
theorem put_getLsbD (hi lo v k : Nat) :
    (put hi lo v).getLsbD k = (decide (k < 64) && decide (lo ≤ k) && decide (k - lo < hi + 1 - lo) && v.testBit (k - lo)) := by
  unfold put
  rw [BitVec.getLsbD_ofNat, Nat.testBit_shiftLeft, Nat.testBit_mod_two_pow]
  simp only [ge_iff_le, Bool.and_assoc]

/-- A bit of a field. -/
theorem fld_testBit {w : Nat} (hi lo : Nat) (x : BitVec w) (k : Nat) :
    (fld hi lo x).testBit k = (decide (k < hi + 1 - lo) && x.getLsbD (lo + k)) := by
  unfold fld bits
  rw [Nat.testBit_mod_two_pow, Nat.testBit_shiftRight, BitVec.testBit_toNat]

/-- CLASS of a command's word. -/
theorem word_class (i : IWord) (cls op : Nat) (h : cls < 4) : fld 63 62 (i.word cls op) = cls := by
  apply Nat.eq_of_testBit_eq
  intro k
  rw [fld_testBit]
  unfold IWord.word putBit
  simp only [BitVec.getLsbD_or, put_getLsbD, BitVec.getLsbD_ofNat]
  by_cases hk : k < 2
  · have : k = 0 ∨ k = 1 := by omega
    have ho : ∀ n, 50 ≤ n → i.opnd.toNat.testBit n = false := fun n hn =>
      Nat.testBit_lt_two_pow (lt_of_lt_of_le i.opnd.isLt (Nat.pow_le_pow_right (by omega) hn))
    rcases this with rfl | rfl <;> simp [ho]
  · have : cls.testBit k = false :=
      Nat.testBit_lt_two_pow (lt_of_lt_of_le h (by calc 4 = 2 ^ 2 := rfl
        _ ≤ 2 ^ k := Nat.pow_le_pow_right (by omega) (by omega)))
    simp [this]; omega

/-- OP of a command's word. -/
theorem word_op (i : IWord) (cls op : Nat) (h : op < 256) : fld 57 50 (i.word cls op) = op := by
  apply Nat.eq_of_testBit_eq
  intro k
  rw [fld_testBit]
  unfold IWord.word putBit
  simp only [BitVec.getLsbD_or, put_getLsbD, BitVec.getLsbD_ofNat]
  by_cases hk : k < 8
  · have ho : i.opnd.toNat.testBit (50 + k) = false :=
      Nat.testBit_lt_two_pow (lt_of_lt_of_le i.opnd.isLt (Nat.pow_le_pow_right (by omega) (by omega)))
    have : (50 + k - 50) = k := by omega
    simp [ho, this]
    interval_cases k <;> simp
  · have : op.testBit k = false :=
      Nat.testBit_lt_two_pow (lt_of_lt_of_le h (by calc 256 = 2 ^ 8 := rfl
        _ ≤ 2 ^ k := Nat.pow_le_pow_right (by omega) (by omega)))
    simp [this]; omega

/-- A word of a named operation is not reserved. -/
theorem word_named (i : IWord) (cls op : Nat) (h : cls < 4) (h' : op < 256) (hn : opNamed cls op = true) :
    wordReserved (i.word cls op) = false := by
  unfold wordReserved
  rw [word_class i cls op h, word_op i cls op h', hn]
  rfl

/-- An instruction at PC of a sequencer that may issue: its effect, by its predicate. -/
theorem sqIssue_at (d : Dev) (c cls op : Nat) (i : IWord) (legal : Sq → Bool) (off body : Dev → Dev)
    (hc : (d.core c).sq.canIssue = true) (hp : (d.core c).sq.pc < (d.core c).sq.codeLen)
    (hw : (d.core c).sq.atPc = i.word cls op) (h1 : cls < 4) (h2 : op < 256) (hn : opNamed cls op = true)
    (hl : legal (d.core c).sq = true) :
    d.sqIssue c cls op i legal off body = if (d.core c).sq.enabled i = true then body d else off d := by
  unfold Dev.sqIssue
  simp [hc, hp, hw, word_named i cls op h1 h2 hn, hl]

/-- Counting an issue leaves `s` alone. -/
@[simp] theorem counted_s (q : Sq) (c : Nat) (t : Bool) : (q.counted c t).s = q.s := rfl

/-- Counting an issue leaves `a` alone. -/
@[simp] theorem counted_a (q : Sq) (c : Nat) (t : Bool) : (q.counted c t).a = q.a := rfl

/-- Counting an issue leaves `d` alone. -/
@[simp] theorem counted_d (q : Sq) (c : Nat) (t : Bool) : (q.counted c t).d = q.d := rfl

/-- Counting an issue leaves `p` alone. -/
@[simp] theorem counted_p (q : Sq) (c : Nat) (t : Bool) : (q.counted c t).p = q.p := rfl

/-- Counting an issue leaves `v` alone. -/
@[simp] theorem counted_v (q : Sq) (c : Nat) (t : Bool) : (q.counted c t).v = q.v := rfl

/-- Counting an issue leaves `pc` alone. -/
@[simp] theorem counted_pc (q : Sq) (c : Nat) (t : Bool) : (q.counted c t).pc = q.pc := rfl

/-- Counting an issue leaves `store` alone. -/
@[simp] theorem counted_store (q : Sq) (c : Nat) (t : Bool) : (q.counted c t).store = q.store := rfl

/-- Counting an issue leaves `codeLen` alone. -/
@[simp] theorem counted_codeLen (q : Sq) (c : Nat) (t : Bool) : (q.counted c t).codeLen = q.codeLen := rfl

/-- Counting an issue leaves `entry` alone. -/
@[simp] theorem counted_entry (q : Sq) (c : Nat) (t : Bool) : (q.counted c t).entry = q.entry := rfl

/-- Counting an issue leaves `restart` alone. -/
@[simp] theorem counted_restart (q : Sq) (c : Nat) (t : Bool) : (q.counted c t).restart = q.restart := rfl

/-- Counting an issue leaves `loops` alone. -/
@[simp] theorem counted_loops (q : Sq) (c : Nat) (t : Bool) : (q.counted c t).loops = q.loops := rfl

/-- Counting an issue leaves `calls` alone. -/
@[simp] theorem counted_calls (q : Sq) (c : Nat) (t : Bool) : (q.counted c t).calls = q.calls := rfl

/-- Counting an issue leaves `st` alone. -/
@[simp] theorem counted_st (q : Sq) (c : Nat) (t : Bool) : (q.counted c t).st = q.st := rfl

/-- Counting an issue leaves `wait` alone. -/
@[simp] theorem counted_wait (q : Sq) (c : Nat) (t : Bool) : (q.counted c t).wait = q.wait := rfl

/-- Counting an issue leaves `engHalt` alone. -/
@[simp] theorem counted_engHalt (q : Sq) (c : Nat) (t : Bool) : (q.counted c t).engHalt = q.engHalt := rfl

/-- Counting an issue leaves `lastEdge` alone. -/
@[simp] theorem counted_lastEdge (q : Sq) (c : Nat) (t : Bool) : (q.counted c t).lastEdge = q.lastEdge := rfl

/-- Counting an issue leaves `faultCode` alone. -/
@[simp] theorem counted_faultCode (q : Sq) (c : Nat) (t : Bool) : (q.counted c t).faultCode = q.faultCode := rfl

/-- Counting an issue leaves `faultPc` alone. -/
@[simp] theorem counted_faultPc (q : Sq) (c : Nat) (t : Bool) : (q.counted c t).faultPc = q.faultPc := rfl

/-- Counting an issue leaves `pcode` alone. -/
@[simp] theorem counted_pcode (q : Sq) (c : Nat) (t : Bool) : (q.counted c t).pcode = q.pcode := rfl

/-- Counting an issue leaves `insn` alone. -/
@[simp] theorem counted_insn (q : Sq) (c : Nat) (t : Bool) : (q.counted c t).insn = q.insn := rfl

/-- Counting an issue leaves `late` alone. -/
@[simp] theorem counted_late (q : Sq) (c : Nat) (t : Bool) : (q.counted c t).late = q.late := rfl

/-- Counting an issue leaves `lateTempo` alone. -/
@[simp] theorem counted_lateTempo (q : Sq) (c : Nat) (t : Bool) : (q.counted c t).lateTempo = q.lateTempo := rfl

/-- Counting an issue leaves `pruned` alone. -/
@[simp] theorem counted_pruned (q : Sq) (c : Nat) (t : Bool) : (q.counted c t).pruned = q.pruned := rfl

/-- What follows an instruction that transfers no control, inside the code and outside a loop's end. -/
theorem sqNext_plain (d : Dev) (c : Nat) (hl : (d.core c).sq.loops.head?.map LoopFrame.last ≠ some (d.core c).sq.pc)
    (hp : (d.core c).sq.pc + 1 < (d.core c).sq.codeLen) :
    (d.sqNext c).core c = ({ d.core c with sq := { ((d.core c).sq.counted c false).running with pc := (d.core c).sq.pc + 1 } } : Core) := by
  have hle : loopEnd (d.core c).sq.pc (d.core c).sq.loops = ((d.core c).sq.loops, none) := by
    cases hq : (d.core c).sq.loops with
    | nil => rfl
    | cons f fs =>
      rw [hq] at hl
      have : f.last ≠ (d.core c).sq.pc := by simpa using hl
      simp [loopEnd, this]
  unfold Dev.sqNext
  simp [hle, hp, Sq.running]

/-- The next index leaves every other core and all but cores and events alone. -/
@[simp] theorem sqNext_frame (d : Dev) (c : Nat) :
    (d.sqNext c).mem = d.mem ∧ (d.sqNext c).regs = d.regs ∧ (d.sqNext c).pruneDue = d.pruneDue ∧
    (d.sqNext c).sems = d.sems ∧ (d.sqNext c).parts = d.parts ∧ (d.sqNext c).gens = d.gens ∧
    (d.sqNext c).semReqs = d.semReqs ∧ (d.sqNext c).nextReq = d.nextReq ∧ (d.sqNext c).tempo = d.tempo := by
  unfold Dev.sqNext Dev.sqPcRange Dev.sqRefuse Dev.sqRefuseAt
  and_intros <;> dsimp only <;> split <;> simp

/-- Its other cores. -/
theorem sqNext_other (d : Dev) (c j : Nat) (h : c ≠ j) : (d.sqNext c).core j = d.core j := by
  unfold Dev.sqNext Dev.sqPcRange Dev.sqRefuse Dev.sqRefuseAt
  dsimp only; split <;> simp [h]

/-- The register files, code and stacks of calls do not depend on where the next index is. -/
theorem sqNext_files (d : Dev) (c : Nat) :
    ((d.sqNext c).core c).sq.s = (d.core c).sq.s ∧ ((d.sqNext c).core c).sq.a = (d.core c).sq.a ∧
    ((d.sqNext c).core c).sq.d = (d.core c).sq.d ∧ ((d.sqNext c).core c).sq.v = (d.core c).sq.v ∧
    ((d.sqNext c).core c).sq.p = (d.core c).sq.p ∧ ((d.sqNext c).core c).sq.store = (d.core c).sq.store ∧
    ((d.sqNext c).core c).sq.calls = (d.core c).sq.calls ∧ ((d.sqNext c).core c).sq.codeLen = (d.core c).sq.codeLen ∧
    ((d.sqNext c).core c).me = (d.core c).me ∧ ((d.sqNext c).core c).ve = (d.core c).ve ∧
    ((d.sqNext c).core c).fte = (d.core c).fte := by
  unfold Dev.sqNext Dev.sqPcRange Dev.sqRefuse Dev.sqRefuseAt
  and_intros <;> dsimp only <;> split <;> simp [Sq.running]

/-- s[r] after a write to s[k]: s0 reads zero and discards writes. -/
@[simp] theorem getS_setS (q : Sq) (k r : Nat) (v : Word) :
    (q.setS k v).getS r = if r = 0 then 0 else if k = r then v else q.getS r := by
  unfold Sq.setS Sq.getS
  by_cases hr : r = 0
  · simp [hr]
  · by_cases hk : k = 0
    · subst hk; simp [hr, Ne.symm hr]
    · simp [hr, hk]

end Sys2Proof.Machine
end

