-- ==== Sys2Proof/Laws/Completion.lean ====
section
/-! SUPPORT. Laws of completion: a command of a core that runs, an instruction that only changes register files. -/
namespace Sys2Proof.Machine

open Safety

/-- A command of a core whose clock runs acts. -/
theorem coreRun_next (s : State) (c : Nat) (h : CoreRuns s c) (f : Dev → Dev) :
    run s (fun d => if d.tileOn (tileOf c) = true then f d else d) = .next (s.with_ ((f s.dev.silent).withPins s.dev)) := by
  unfold run
  have h1 : s.dev.live = true := h.1.1
  have h2 : s.dev.silent.tileOn (tileOf c) = true := h.2
  simp [h1, h2]

/-- It completes with what its effect gives. -/
theorem completes_core (i : Instr) (s : State) (c : Nat) (h : CoreRuns s c) (f : Dev → Dev) (P : Dev → Prop)
    (e : exec i s = run s (fun d => if d.tileOn (tileOf c) = true then f d else d))
    (hp : P ((f s.dev.silent).withPins s.dev)) : Completes i s P :=
  ⟨_, e.trans (coreRun_next s c h f), rfl, hp⟩

/-- The pins are no concern of `GoesOn`. -/
theorem goesOn_pins (s : State) (c : Nat) (P : Sq → Sq → Prop) (d p : Dev) (h : GoesOn s c P d) : GoesOn s c P (d.withPins p) := h

/-- What sqNext makes of a device that differs from s's only in core c's register files. -/
theorem goesOn_next (s : State) (c : Nat) (P : Sq → Sq → Prop) (D : Dev)
    (h1 : D.mem = s.dev.mem) (h2 : D.regs = s.dev.regs) (h3 : D.sems = s.dev.sems) (h4 : D.parts = s.dev.parts)
    (h5 : D.gens = s.dev.gens) (h6 : ∀ j, j ≠ c → D.core j = s.dev.core j)
    (h7 : (D.core c).me = (s.dev.core c).me) (h8 : (D.core c).ve = (s.dev.core c).ve) (h9 : (D.core c).fte = (s.dev.core c).fte)
    (g1 : (D.core c).sq.calls = (s.dev.core c).sq.calls) (g2 : (D.core c).sq.store = (s.dev.core c).sq.store)
    (g3 : (D.core c).sq.codeLen = (s.dev.core c).sq.codeLen) (g4 : (D.core c).sq.pc = (s.dev.core c).sq.pc)
    (g5 : (D.core c).sq.loops = (s.dev.core c).sq.loops)
    (hP : ∀ q', q'.s = (D.core c).sq.s → q'.a = (D.core c).sq.a → q'.d = (D.core c).sq.d →
      q'.v = (D.core c).sq.v → q'.p = (D.core c).sq.p → P (s.dev.core c).sq q') :
    GoesOn s c P (D.sqNext c) := by
  obtain ⟨f1, f2, f3, f4, f5, f6, f7, f8, f9, f10, f11⟩ := sqNext_files D c
  obtain ⟨n1, n2, _, n4, n5, n6, _⟩ := sqNext_frame D c
  refine ⟨hP _ f1 f2 f3 f4 f5, f7.trans g1, ⟨n1.trans h1, n2.trans h2, n4.trans h3, n5.trans h4, n6.trans h5,
    fun j hj => (sqNext_other D c j (Ne.symm hj)).trans (h6 j hj), f9.trans h7, f10.trans h8, f11.trans h9, f6.trans g2, f8.trans g3⟩, ?_⟩
  intro hpl
  have := sqNext_plain D c (by rw [g4, g5]; exact hpl.1) (by rw [g4, g3]; exact hpl.2)
  rw [this]
  refine ⟨?_, rfl, ?_⟩
  · exact congrArg (· + 1) g4
  · exact g5

/-- An instruction that only changes register files, on and off. -/
theorem simple_goesOn (s : State) (c op : Nat) (i : IWord) (legal : Sq → Bool) (f : Sq → Sq) (P : Sq → Sq → Prop)
    (hat : AtPc s.dev c 0 op i) (hl : legal (s.dev.core c).sq = true) (h2 : op < 256) (hn : opNamed 0 op = true)
    (hf : ∀ q, (f q).calls = q.calls ∧ (f q).store = q.store ∧ (f q).codeLen = q.codeLen ∧ (f q).pc = q.pc ∧ (f q).loops = q.loops)
    (hP : (s.dev.core c).sq.enabled i = true → ∀ q', q'.s = (f (s.dev.core c).sq).s → q'.a = (f (s.dev.core c).sq).a → q'.d = (f (s.dev.core c).sq).d →
      q'.v = (f (s.dev.core c).sq).v → q'.p = (f (s.dev.core c).sq).p → P (s.dev.core c).sq q')
    (hP2 : (s.dev.core c).sq.enabled i = false → ∀ q', q'.s = (s.dev.core c).sq.s → q'.a = (s.dev.core c).sq.a → q'.d = (s.dev.core c).sq.d →
      q'.v = (s.dev.core c).sq.v → q'.p = (s.dev.core c).sq.p → P (s.dev.core c).sq q') :
    GoesOn s c P (s.dev.silent.sqSimple c op i legal f) := by
  have hc : ∀ j, s.dev.silent.core j = s.dev.core j := fun _ => rfl
  unfold Dev.sqSimple
  rw [sqIssue_at s.dev.silent c 0 op i legal _ _ (by rw [hc]; exact hat.1) (by rw [hc]; exact hat.2.1) (by rw [hc]; exact hat.2.2)
    (by omega) h2 hn (by rw [hc]; exact hl)]
  rw [hc]
  obtain ⟨g1, g2, g3, g4, g5⟩ := hf (s.dev.core c).sq
  split
  · rename_i he
    have e1 : ((s.dev.silent.onSq c f).core c).sq = f (s.dev.core c).sq := by simp [hc]
    apply goesOn_next s c P (s.dev.silent.onSq c f)
    · rfl
    · rfl
    · rfl
    · rfl
    · rfl
    · intro j hj; simp [Ne.symm hj, hc]
    · simp [hc]
    · simp [hc]
    · simp [hc]
    · rw [e1, g1]
    · rw [e1, g2]
    · rw [e1, g3]
    · rw [e1, g4]
    · rw [e1, g5]
    · rw [e1]; exact hP he
  · rename_i he
    exact goesOn_next s c P s.dev.silent rfl rfl rfl rfl rfl (fun j _ => hc j) rfl rfl rfl rfl rfl rfl rfl rfl (hP2 (by simpa using he))

end Sys2Proof.Machine
end

