-- ==== Sys2Proof/Laws/Memory.lean ====
section
/-! SUPPORT. Laws of the byte memories: reads after writes, and that every operation on them keeps the canonical form. -/
namespace Sys2Proof.Machine

@[simp] theorem Mem.put_blank (m : Mem) (a b : Nat) (v : Byte) : (m.put a v).blank b = m.blank b := rfl

/-- A byte after a write: the byte written, or what was there. -/
@[simp] theorem Mem.get_put (m : Mem) (a b : Nat) (v : Byte) :
    (m.put a v).get b = if a = b then v else m.get b := by
  unfold Mem.get
  rw [Mem.put_blank]
  unfold Mem.put
  by_cases h : a = b
  · subst h; simp
  · simp [h, FMap.getD_set_ne]

/-- Bytes outside a stored run are as before. -/
theorem Mem.get_putAll_out (m : Mem) (a b : Nat) (l : List Byte) (h : b < a ∨ a + l.length ≤ b) :
    (m.putAll a l).get b = m.get b := by
  induction l generalizing m a with
  | nil => rfl
  | cons x r ih =>
    simp only [List.length_cons] at h
    rw [Mem.putAll, ih _ _ (by omega), Mem.get_put]
    simp; omega

/-- Bytes of a stored run. -/
theorem Mem.get_putAll_in (m : Mem) (a : Nat) (l : List Byte) (k : Nat) (h : k < l.length) :
    (m.putAll a l).get (a + k) = l[k] := by
  induction l generalizing m a k with
  | nil => simp at h
  | cons x r ih =>
    rw [Mem.putAll]
    cases k with
    | zero =>
      rw [Nat.add_zero, Mem.get_putAll_out _ _ _ _ (by omega), Mem.get_put]
      simp
    | succ k =>
      simp only [List.length_cons] at h
      have e : a + (k + 1) = a + 1 + k := by omega
      rw [e, ih _ _ _ (by omega)]
      simp

/-! ## The canonical form -/

theorem Mem.wf_put (m : Mem) (a : Nat) (v : Byte) (h : m.wf = true) : (m.put a v).wf = true :=
  FMap.wf_set (d := m.blank) a v h

theorem Mem.wf_putAll (m : Mem) (a : Nat) (l : List Byte) (h : m.wf = true) : (m.putAll a l).wf = true := by
  induction l generalizing m a with
  | nil => exact h
  | cons x r ih => exact ih _ _ (Mem.wf_put m a x h)

/-- Leaving out bytes keeps the canonical form when what is left reads as before where it is not listed. -/
theorem Mem.wf_filter {m m' : Mem} (p : Nat × Byte → Bool) (hb : m'.bytes = m.bytes.filter p)
    (hd : ∀ e ∈ m.bytes, p e = true → m'.blank e.1 = m.blank e.1) (h : m.wf = true) : m'.wf = true := by
  unfold Mem.wf
  rw [hb]
  exact FMap.wf_filter p h hd

/-- Two memories that name the same losses have the same blanks. -/
theorem Mem.blank_congr {m m' : Mem} (h1 : m.hbmEra = m'.hbmEra) (h2 : m.hubEra = m'.hubEra) (h3 : m.grvMapped = m'.grvMapped)
    (h4 : m.grvEra = m'.grvEra) (a : Nat) : m.blank a = m'.blank a := by
  unfold Mem.blank; rw [h1, h2, h3, h4]

/-- The lost contents of a tile's HBM. -/
theorem Dev.hbmLose_wf (d : Dev) (t : Nat) (h : d.mem.wf = true) : (d.hbmLose t).mem.wf = true := by
  refine Mem.wf_filter (m := d.mem) _ rfl (fun e _ hp => ?_) h
  simp only [Bool.or_eq_true, decide_eq_true_eq] at hp
  have hne : t ≠ e.1 / hbmTileBytes := by
    unfold hbmTileBytes at *
    omega
  unfold Dev.hbmLose Mem.blank
  simp only [FMap.getD_insert, if_neg hne]

/-- A zeroed bank. -/
theorem Dev.zeroBank_wf (d : Dev) (u b : Nat) (hb : b < 80) (h : d.mem.wf = true) : (d.zeroBank u b).mem.wf = true := by
  refine Mem.wf_filter (m := d.mem) _ rfl (fun e _ hp => ?_) h
  by_cases hu : u < 1000
  · have he : (d.zeroBank u b).mem.grvEra = d.mem.grvEra := by simp [Dev.zeroBank, isSpd, hu]
    exact Mem.blank_congr (m := (d.zeroBank u b).mem) (m' := d.mem) rfl rfl rfl he _
  · unfold Mem.blank
    simp only [Dev.zeroBank, isSpd, hu, decide_false, Bool.false_eq_true, if_false, FMap.getD_remove]
    by_cases h1 : e.1 < 4 * hbmTileBytes
    · rw [if_pos h1, if_pos h1]
    rw [if_neg h1, if_neg h1]
    by_cases h2 : 0x0F0040000000 ≤ e.1 ∧ e.1 < 0x0F0050000000
    · rw [if_pos h2, if_pos h2]
    rw [if_neg h2, if_neg h2]
    by_cases h3 : 0x020000000000 ≤ e.1 ∧ e.1 < 0x020028000000
    swap
    · rw [if_neg h3, if_neg h3]
    rw [if_pos h3, if_pos h3]
    generalize hg : (e.1 - 0x020000000000) / 0x2800000 = g
    generalize ho : (e.1 - 0x020000000000) % 0x2800000 = o
    generalize hn : 80 - FMap.getD d.mem.grvMapped g 0 = n
    by_cases h4 : o < n * 0x80000
    swap
    · rw [if_neg h4, if_neg h4]
    rw [if_pos h4, if_pos h4]
    have hlt : o / 64 % n < 80 := by
      have : 0 < n := by omega
      have := Nat.mod_lt (o / 64) this
      omega
    by_cases hk : 80 * (u - 1000) + b = 80 * g + o / 64 % n
    swap
    · rw [if_neg hk]
    exfalso
    have hgu : u = grvKey g := by unfold grvKey; omega
    have hbb : b = o / 64 % n := by omega
    have hin : d.inBank u b e.1 = true := by
      have hkey : ¬ (grvKey g < 1000) := by unfold grvKey; omega
      have hcount : d.bankCount (grvKey g) = n := by
        unfold Dev.bankCount; rw [if_neg hkey, ← hn]; simp [grvKey]
      have hat : d.sramAt e.1 = some (grvKey g, o) := by
        unfold Dev.sramAt
        rw [if_neg (by omega), if_pos (by unfold grvBase; omega)]
        simp only [hg, ho]
        rw [hcount, if_pos h4]
      unfold Dev.inBank
      rw [hat]
      simp only [← hgu, decide_true, Bool.true_and]
      unfold Dev.bankRow
      rw [if_neg hu]
      simp only [decide_eq_true_eq, Nat.shiftRight_eq_div_pow]
      rw [hgu, hcount]
      exact hbb.symm
    simp [hin] at hp

/-- Blanks depend on the grove losses through the banks of the sixteen groves only. -/
theorem Mem.blank_grv {m m' : Mem} (h1 : m.hbmEra = m'.hbmEra) (h2 : m.hubEra = m'.hubEra) (h3 : m.grvMapped = m'.grvMapped)
    (h4 : ∀ x, x < 1280 → FMap.getD m.grvEra x 0 = FMap.getD m'.grvEra x 0) (a : Nat) : m.blank a = m'.blank a := by
  unfold Mem.blank
  rw [h1, h2, h3]
  refine if_congr Iff.rfl rfl (if_congr Iff.rfl rfl (ite_congr rfl (fun h5 => ?_) (fun _ => rfl)))
  refine ite_congr rfl (fun h6 => ?_) (fun _ => rfl)
  generalize ho : (a - 0x020000000000) % 0x2800000 = o at *
  generalize hg : (a - 0x020000000000) / 0x2800000 = g at *
  generalize hn : 80 - FMap.getD m'.grvMapped g 0 = n at *
  have h7 : 0 < n := by omega
  have h8 := Nat.mod_lt (o / 64) h7
  show (if FMap.getD m.grvEra (80 * g + o / 64 % n) 0 = 0 then _ else _) = _
  rw [h4 (80 * g + o / 64 % n) (by omega)]

/-- Scratchpads that read zero again. -/
theorem Dev.zeroSpd_wf (d : Dev) (a b : Nat) (ha : spdBase 0 ≤ a) (h : d.mem.wf = true) :
    (d.zeroSram a b).mem.wf = true := by
  refine Mem.wf_filter (m := d.mem) _ rfl (fun e _ _ => ?_) h
  refine Mem.blank_grv (m := (d.zeroSram a b).mem) (m' := d.mem) rfl rfl rfl (fun x hx => ?_) _
  show FMap.getD (List.filter _ d.mem.grvEra) x 0 = _
  induction d.mem.grvEra with
  | nil => rfl
  | cons y r ih =>
    obtain ⟨j, v⟩ := y
    rw [List.filter_cons]
    split_ifs with hc
    · simp only [FMap.getD, ih]
    · simp only [FMap.getD, ih]
      rw [if_neg]
      rintro rfl
      apply hc
      simp only [Bool.or_eq_true, decide_eq_true_eq]
      left
      unfold grvBase spdBase at *
      omega

/-- The memory after device reset. -/
theorem Dev.deviceReset_wf (d : Dev) : d.deviceReset.mem.wf = true := rfl

end Sys2Proof.Machine
end

