-- ==== Sys2Proof/WellFormed.lean ====
section
/-! DEFINITION. Which operands a command may carry, beyond what their types say. -/
namespace Sys2Proof

/-- The fields of a packet fit its header, and LEN is the payload's length (R423). -/
def Machine.Packet.wf (p : Machine.Packet) : Bool :=
  decide (p.dst < 2 ^ 18) && decide (p.src < 2 ^ 18) && decide (p.addr < 2 ^ 48) && decide (p.vc < 4) &&
  decide (p.type < 2 ^ 6) && decide (p.len ≤ 512) && decide (p.payload.length = p.len) && decide (p.spart < 4) &&
  decide (p.hops < 2 ^ 7) && decide (p.tag < 2 ^ 8) && decide (p.code < 2 ^ 8)

/-- The fields of a synchronisation message (R42). -/
def SyncMsg.wf (m : SyncMsg) : Bool :=
  decide (m.tempo < 2 ^ 64) && decide (m.king < 2 ^ 18) && decide (m.prio < 2 ^ 8) && decide (m.period < 2 ^ 11) &&
  decide (m.next < 2 ^ 11) && decide (m.at_ < 2 ^ 64) && decide (m.hops < 2 ^ 8)

/-- A service frame's fields (R622). -/
def SvcFrame.wf (f : SvcFrame) : Bool :=
  decide (f.mac < 2 ^ 48) && decide (f.seq < 2 ^ 16) && decide (f.addr < 2 ^ 48) && decide (f.len < 2 ^ 16)

/-- A bank of a scratchpad (0 to 31) or of a grove memory (0 to 79) (R285). -/
def bankOk (u : SramId) (b : Nat) : Bool :=
  match u with
  | .spd _ => decide (b < 32)
  | .grv _ => decide (b < 80)

/-- Is a command well formed? -/
def Instr.wf : Instr → Bool
  | .tempoSeal m => decide (m.temps.length = 16) && decide (m.amps.length = 16)
  | .deadlineSample => true
  | .tempoEdge => true
  | .stalledWritesLand => true
  | .tempoWaitRelease .. => true
  | .syncReceive _ msg => msg.wf
  | .delayReqReceive _ t1 t2 t3 => decide (t1 < 2 ^ 64) && decide (t2 < 2 ^ 64) && decide (t3 < 2 ^ 64)
  | .delayRespReceive .. => true
  | .announceSend => true
  | .announceReceive .. => true
  | .kingElectionWin => true
  | .acqFineReached => true
  | .acqLockedReached => true
  | .alignLost => true
  | .holdoverEntry => true
  | .masterLost => true
  | .failover => true
  | .holdoverAnnounceResume => true
  | .periodChange => true
  | .rwtWrite _ a n _ => decide (a < 2 ^ 48) && (decide (n = 4) || decide (n = 8))
  | .stageDiscard .. => true
  | .registerWrite _ a n _ => decide (a < 2 ^ 48) && (decide (n = 4) || decide (n = 8))
  | .meLoad .. => true
  | .meStream .. => true
  | .meStreamRowUpdate .. => true
  | .meDrain .. => true
  | .meDrainRowWrite .. => true
  | .meAddw .. => true
  | .meClear .. => true
  | .meResume .. => true
  | .meFlush .. => true
  | .meColTest .. => true
  | .meColTestDone .. => true
  | .fadd .. => true
  | .fsub .. => true
  | .fmul .. => true
  | .fma .. => true
  | .fmax .. => true
  | .fmin .. => true
  | .fcmp .. => true
  | .fabs .. => true
  | .fneg .. => true
  | .sel .. => true
  | .iadd .. => true
  | .isub .. => true
  | .imul .. => true
  | .veSll .. => true
  | .veSrl .. => true
  | .veSra .. => true
  | .veAnd .. => true
  | .veOr .. => true
  | .veXor .. => true
  | .icmp .. => true
  | .perm .. => true
  | .bcast .. => true
  | .lshift .. => true
  | .exp .. => true
  | .exp2 .. => true
  | .log .. => true
  | .log2 .. => true
  | .rcp .. => true
  | .rsqrt .. => true
  | .tanh .. => true
  | .sigmoid .. => true
  | .erf .. => true
  | .sinpi .. => true
  | .cospi .. => true
  | .div .. => true
  | .sqrt .. => true
  | .rsum .. => true
  | .rmax .. => true
  | .rmin .. => true
  | .irsum .. => true
  | .rsumx .. => true
  | .osmx .. => true
  | .cvtR .. => true
  | .vld .. => true
  | .vst .. => true
  | .cvtLd .. => true
  | .cvtSt .. => true
  | .cvtExp .. => true
  | .rand .. => true
  | .randu .. => true
  | .drop .. => true
  | .randn .. => true
  | .solve .. => true
  | .veResume .. => true
  | .veFlush .. => true
  | .nop .. => true
  | .add .. => true
  | .sub .. => true
  | .and .. => true
  | .or .. => true
  | .xor .. => true
  | .sll .. => true
  | .srl .. => true
  | .sra .. => true
  | .mul .. => true
  | .mulhu .. => true
  | .divu .. => true
  | .remu .. => true
  | .min .. => true
  | .max .. => true
  | .addi .. => true
  | .andi .. => true
  | .ori .. => true
  | .xori .. => true
  | .slli .. => true
  | .srli .. => true
  | .srai .. => true
  | .li .. => true
  | .lih .. => true
  | .cmp .. => true
  | .cmpi .. => true
  | .plog .. => true
  | .pget .. => true
  | .pput .. => true
  | .br .. => true
  | .call .. => true
  | .ret .. => true
  | .jr .. => true
  | .loop .. => true
  | .lidx .. => true
  | .ld .. => true
  | .st .. => true
  | .mova .. => true
  | .rda .. => true
  | .movd .. => true
  | .rdd .. => true
  | .vset .. => true
  | .vget .. => true
  | .semWait .. => true
  | .semSig .. => true
  | .semRequestArrival .. => true
  | .semWaitResume .. => true
  | .twait .. => true
  | .tnow .. => true
  | .fence .. => true
  | .fenceRelease .. => true
  | .genAcq .. => true
  | .genRel .. => true
  | .genClaim .. => true
  | .genClaimComplete .. => true
  | .genReady .. => true
  | .fault .. => true
  | .halt .. => true
  | .sqResume .. => true
  | .sqStop .. => true
  | .fteCopy .. => true
  | .fteGather .. => true
  | .fteZero .. => true
  | .fteCancel .. => true
  | .fteRequestReturn .. => true
  | .fteResume .. => true
  | .fteFlush .. => true
  | .eccWriteback w => decide (8 * w < 2 ^ 48)
  | .patrolScrubRead u b _ => bankOk u b
  | .bankPowerRequest _ u b req => bankOk u b && decide (req ≠ 3)
  | .bankEnterRetDone u b => bankOk u b
  | .bankWakeDone u b => bankOk u b
  | .bankDownDone u b => bankOk u b
  | .bankUpDone u b => bankOk u b
  | .dmaBatchStart .. => true
  | .dmaBurstReturn .. => true
  | .dmaDescriptorEnd .. => true
  | .dmaAbort .. => true
  | .dmaAbortComplete .. => true
  | .remoteRequest _ pkt _ => Machine.Packet.wf pkt && (decide (pkt.type = 1) || decide (pkt.type = 2))
  | .readDataReceive pkt => Machine.Packet.wf pkt && decide (pkt.type = 3)
  | .writeAckReceive pkt => Machine.Packet.wf pkt && decide (pkt.type = 4)
  | .nakReceive pkt => Machine.Packet.wf pkt && decide (pkt.type = 5)
  | .dmaInwinEnable .. => true
  | .hbmRead a _ => decide (a < 4 * 0x1B00000000) && decide (a % 64 = 0)
  | .hbmWrite a bs _ _ => decide (a < 4 * 0x1B00000000) && decide (0 < bs.length) && decide (a % 64 + bs.length ≤ 64)
  | .hbmGather a _ => decide (a < 4 * 0x1B00000000) && decide (a % 32 = 0)
  | .hbmPatrolScrub .. => true
  | .hbmTempSample .. => true
  | .hbmRefresh => true
  | .hbmCaParityError .. => true
  | .hbmRemedyDone .. => true
  | .hbmRetrainDone .. => true
  | .neanoGroupUpdate .. => true
  | .neaUnitRepairDone .. => true
  | .neaImport .. => true
  | .neaCommitImport .. => true
  | .neaResume .. => true
  | .neaRelease .. => true
  | .neaReleaseDone .. => true
  | .slowWindowAccess _ a n data _ => decide (a < 2 ^ 48) && (match data with
      | some bs => decide (bs.length = n)
      | none => true) && decide (0 < n)
  | .mirrorReceive pkt => decide (pkt.dev < 2 ^ 18) && (decide (pkt.act ≠ .unit) || decide (pkt.unit < pkt.total))
  | .mirrorAckReceive .. => true
  | .neaPkgFail .. => true
  | .neaPkgCopyDone => true
  | .neaRebuildDone => true
  | .portSignalDetect .. => true
  | .portTrainDone .. => true
  | .portTrainTimeout .. => true
  | .portAlignDone .. => true
  | .identReceive _ id => decide (id.dev < 2 ^ 18) && decide (id.port < 24) && decide (id.link < 32) && decide (id.member < 8) && decide (id.role < 4)
  | .creditExchange _ caps => decide (caps.length = 8)
  | .portLossOfLock .. => true
  | .portRetrainDone .. => true
  | .portRetrainTimeout .. => true
  | .dvoRetrain .. => true
  | .dvoRelease .. => true
  | .dvoForceDown .. => true
  | .packetTransmit .. => true
  | .packetReceive _ _ pkt _ _ => Machine.Packet.wf pkt
  | .linkAckSend .. => true
  | .linkAckReceive .. => true
  | .fecUncorrectable .. => true
  | .linkNakReceive .. => true
  | .creditReturnReceive .. => true
  | .recountReceive _ freed caps => decide (freed.length = 8) && decide (caps.length = 8)
  | .dvoRouterFail .. => true
  | .reduceLocalReady .. => true
  | .reduceReceive _ pkt _ => Machine.Packet.wf pkt && decide (pkt.type = 0x10)
  | .gsendChunkRead .. => true
  | .gatherReceive _ pkt => Machine.Packet.wf pkt && decide (pkt.type = 0x11)
  | .prtLoad .. => true
  | .loadComplete .. => true
  | .prtKill .. => true
  | .prtCastle .. => true
  | .revocationComplete .. => true
  | .prtPruneGo .. => true
  | .pruneComplete .. => true
  | .spareZeroFillDone .. => true
  | .hubCoreFail .. => true
  | .hubCoreGraft .. => true
  | .cvuFeedStart .. => true
  | .cvuFeedDone .. => true
  | .cvuInit .. => true
  | .cvuAbort .. => true
  | .cgEvaluate .. => true
  | .refclkLoss => true
  | .clkPllUnlock .. => true
  | .pllRelock .. => true
  | .pllRelockTimeout .. => true
  | .voltageStepDone .. => true
  | .pwrOvercurrent .. => true
  | .pwrThermalTrip .. => true
  | .clockEnableWrite .. => true
  | .clockEnableUpDone .. => true
  | .clockEnableStopDone .. => true
  | .powerTransitionDone .. => true
  | .resetNAssert => true
  | .resetNRelease => true
  | .powerGoodRise => true
  | .powerGoodFall => true
  | .secReset => true
  | .romVerify .. => true
  | .fs1StageDone .. => true
  | .tileBringupTimeout .. => true
  | .memoryStageDone .. => true
  | .linksStageDone => true
  | .tempoStageDone => true
  | .selftestDone => true
  | .secAttest => true
  | .attestDone => true
  | .secNonce => true
  | .secSubmit => true
  | .tokenCheckDone => true
  | .debugScrubDone => true
  | .secOwnerEnrol => true
  | .secSvnCommit => true
  | .secEndGrant .. => true
  | .secLockSet .. => true
  | .jtagBypass => true
  | .jtagIdcode => true
  | .jtagSamplePreload => true
  | .jtagExtest => true
  | .jtagDbgAccess a _ _ => decide (a < 2 ^ 48) && decide (a % 8 = 0)
  | .jtagDbgToken .. => true
  | .eventRecordWrite n => decide (0 < n)
  | .mboxUpPush .. => true
  | .mboxUpPop .. => true
  | .mboxDownPush .. => true
  | .mboxDownPop .. => true
  | .hubWdogKick .. => true
  | .mgtLinkUp .. => true
  | .mgtLinkDown => true
  | .mgtFrameReceive bs _ => decide (bs.length < 2 ^ 14)
  | .mgtFrameTransmit => true
  | .serviceRead f => f.wf
  | .serviceWrite f => f.wf
  | .serviceToken f => f.wf
  | .serviceOpen f => f.wf
  | .serviceClose f => f.wf
  | .serviceRecovery f _ => f.wf
  | .mgtSessionTimeout => true
  | .controlCoreAccess _ a n _ _ => decide (a < 2 ^ 48) && (decide (n = 1) || decide (n = 2) || decide (n = 4) || decide (n = 8)) && decide (a % n = 0)
  | .slowTierRefresh .. => true
  | .jtagTrst => true

end Sys2Proof
end

