-- ==== Sys2Proof/Tests/Slice0.lean ====
section
/-! SUPPORT. Small tests: ill-formed operands are refused; steps on small states; and for the statements' hypotheses, states
and operands that meet them. -/
set_option Elab.async false

namespace Sys2Proof.Tests

open Machine Safety

/-! ## Ill-formed operands -/

/-- A packet with every field at its greatest value. -/
def fullPacket : Packet :=
  { dst := 2 ^ 18 - 1, src := 2 ^ 18 - 1, addr := 2 ^ 48 - 1, vc := 3, type := 63, len := 2, spart := 3, hops := 127, tag := 255
    code := 255, payload := [1, 2] }

theorem wf_packet : fullPacket.wf = true := by decide

/-- Each field of a packet one above its range; a payload of another length than LEN, and one above 512 bytes (R423). -/
theorem wf_packet_refused :
    ∀ p ∈ [{ fullPacket with dst := 2 ^ 18 }, { fullPacket with src := 2 ^ 18 }, { fullPacket with addr := 2 ^ 48 },
      { fullPacket with vc := 4 }, { fullPacket with type := 64 }, { fullPacket with len := 3 },
      { fullPacket with len := 513, payload := List.replicate 513 0 }, { fullPacket with spart := 4 },
      { fullPacket with hops := 128 }, { fullPacket with tag := 256 }, { fullPacket with code := 256 }], p.wf = false := by
  decide +kernel

/-- Commands that carry packets of another TYPE, or a packet that is not well formed, are refused. -/
theorem wf_packet_commands :
    ∀ c ∈ ([.remoteRequest none fullPacket [], .readDataReceive fullPacket, .writeAckReceive fullPacket,
      .nakReceive fullPacket, .reduceReceive none fullPacket none, .gatherReceive none fullPacket,
      .packetReceive 0 0 { fullPacket with tag := 256 } [] 0,
      .remoteRequest none { fullPacket with type := 1, vc := 4 } [], .readDataReceive { fullPacket with type := 3, vc := 4 },
      .writeAckReceive { fullPacket with type := 4, vc := 4 }, .nakReceive { fullPacket with type := 5, vc := 4 },
      .reduceReceive none { fullPacket with type := 0x10, vc := 4 } none,
      .gatherReceive none { fullPacket with type := 0x11, vc := 4 }] : List Instr), c.wf = false := by
  decide +kernel

theorem wf_packet_types :
    ∀ c ∈ ([.remoteRequest none { fullPacket with type := 1 } [], .remoteRequest none { fullPacket with type := 2 } [],
      .readDataReceive { fullPacket with type := 3 }, .writeAckReceive { fullPacket with type := 4 },
      .nakReceive { fullPacket with type := 5 }, .reduceReceive none { fullPacket with type := 0x10 } none,
      .gatherReceive none { fullPacket with type := 0x11 }, .packetReceive 0 0 fullPacket [] 0] : List Instr),
    c.wf = true := by decide +kernel

/-- A synchronisation message with every field at its greatest value (R42). -/
def fullSync : SyncMsg :=
  { tempo := 2 ^ 64 - 1, king := 2 ^ 18 - 1, prio := 255, period := 2047, next := 2047, at_ := 2 ^ 64 - 1, hops := 255
    arrival := 0, edge := 0, corr := 0 }

theorem wf_sync : (Instr.syncReceive 0 fullSync).wf = true := by decide

theorem wf_sync_refused :
    ∀ m ∈ [{ fullSync with tempo := 2 ^ 64 }, { fullSync with king := 2 ^ 18 }, { fullSync with prio := 256 },
      { fullSync with period := 2048 }, { fullSync with next := 2048 }, { fullSync with at_ := 2 ^ 64 },
      { fullSync with hops := 256 }], (Instr.syncReceive 0 m).wf = false := by decide

/-- A service frame with every field at its greatest value (R622). -/
def fullFrame : SvcFrame := { mac := 2 ^ 48 - 1, seq := 65535, addr := 2 ^ 48 - 1, len := 65535 }

theorem wf_frame :
    ∀ f ∈ [Instr.serviceRead, .serviceWrite, .serviceToken, .serviceOpen, .serviceClose, (.serviceRecovery · {})],
      (f fullFrame).wf = true ∧ ∀ x ∈ [{ fullFrame with mac := 2 ^ 48 }, { fullFrame with seq := 65536 },
        { fullFrame with addr := 2 ^ 48 }, { fullFrame with len := 65536 }], (f x).wf = false := by decide

/-- Each other check has a term on either side of its bound. -/
theorem wf_bounds :
    ∀ e ∈ ([(.tempoSeal ⟨List.replicate 16 0, 0, List.replicate 16 0⟩, .tempoSeal ⟨List.replicate 15 0, 0, List.replicate 16 0⟩),
      (.tempoSeal ⟨List.replicate 16 0, 0, List.replicate 16 0⟩, .tempoSeal ⟨List.replicate 16 0, 0, List.replicate 15 0⟩),
      (.delayReqReceive 0 (2 ^ 64 - 1) 0 0, .delayReqReceive 0 (2 ^ 64) 0 0),
      (.delayReqReceive 0 0 (2 ^ 64 - 1) 0, .delayReqReceive 0 0 (2 ^ 64) 0),
      (.delayReqReceive 0 0 0 (2 ^ 64 - 1), .delayReqReceive 0 0 0 (2 ^ 64)),
      (.rwtWrite .host (2 ^ 48 - 1) 8 0, .rwtWrite .host (2 ^ 48) 8 0), (.rwtWrite .host 0 4 0, .rwtWrite .host 0 2 0),
      (.registerWrite .host (2 ^ 48 - 1) 8 0, .registerWrite .host (2 ^ 48) 8 0),
      (.registerWrite .host 0 4 0, .registerWrite .host 0 16 0),
      (.eccWriteback (2 ^ 45 - 1), .eccWriteback (2 ^ 45)),
      (.patrolScrubRead (.spd 0) 31 none, .patrolScrubRead (.spd 0) 32 none),
      (.patrolScrubRead (.grv 0) 79 none, .patrolScrubRead (.grv 0) 80 none),
      (.bankPowerRequest .host (.spd 0) 31 2, .bankPowerRequest .host (.spd 0) 32 2),
      (.bankPowerRequest .host (.grv 0) 79 2, .bankPowerRequest .host (.grv 0) 79 3),
      (.bankEnterRetDone (.spd 0) 31, .bankEnterRetDone (.spd 0) 32), (.bankWakeDone (.grv 0) 79, .bankWakeDone (.grv 0) 80),
      (.bankDownDone (.spd 0) 31, .bankDownDone (.spd 0) 32), (.bankUpDone (.grv 0) 79, .bankUpDone (.grv 0) 80)] :
      List (Instr × Instr)), e.1.wf = true ∧ e.2.wf = false := by decide +kernel

theorem wf_bounds_more :
    ∀ e ∈ ([(.hbmRead (4 * 0x1B00000000 - 64) .clean, .hbmRead (4 * 0x1B00000000) .clean),
      (.hbmRead 64 .clean, .hbmRead 32 .clean),
      (.hbmWrite (4 * 0x1B00000000 - 1) [0] false .clean, .hbmWrite (4 * 0x1B00000000) [0] false .clean),
      (.hbmWrite 63 [0] false .clean, .hbmWrite 63 [0, 0] false .clean), (.hbmWrite 0 [0] false .clean, .hbmWrite 0 [] false .clean),
      (.hbmGather (4 * 0x1B00000000 - 32) .clean, .hbmGather (4 * 0x1B00000000) .clean),
      (.hbmGather 32 .clean, .hbmGather 16 .clean),
      (.slowWindowAccess none (2 ^ 48 - 1) 1 none [], .slowWindowAccess none (2 ^ 48) 1 none []),
      (.slowWindowAccess none 0 1 none [], .slowWindowAccess none 0 0 none []),
      (.slowWindowAccess none 0 2 (some [0, 0]) [], .slowWindowAccess none 0 2 (some [0]) []),
      (.mirrorReceive ⟨2 ^ 18 - 1, 0, 0, 2, 1, [], 0, .unit⟩, .mirrorReceive ⟨2 ^ 18, 0, 0, 2, 1, [], 0, .unit⟩),
      (.mirrorReceive ⟨0, 0, 0, 2, 1, [], 0, .unit⟩, .mirrorReceive ⟨0, 0, 0, 2, 2, [], 0, .unit⟩),
      (.identReceive 0 ⟨2 ^ 18 - 1, 23, 31, 7, 3⟩, .identReceive 0 ⟨2 ^ 18, 23, 31, 7, 3⟩),
      (.identReceive 0 ⟨0, 23, 31, 7, 3⟩, .identReceive 0 ⟨0, 24, 31, 7, 3⟩),
      (.identReceive 0 ⟨0, 0, 31, 7, 3⟩, .identReceive 0 ⟨0, 0, 32, 7, 3⟩),
      (.identReceive 0 ⟨0, 0, 0, 7, 3⟩, .identReceive 0 ⟨0, 0, 0, 8, 3⟩),
      (.identReceive 0 ⟨0, 0, 0, 0, 3⟩, .identReceive 0 ⟨0, 0, 0, 0, 4⟩)] : List (Instr × Instr)),
    e.1.wf = true ∧ e.2.wf = false := by decide +kernel

theorem wf_bounds_last :
    ∀ e ∈ ([(.creditExchange 0 (List.replicate 8 0), .creditExchange 0 (List.replicate 7 0)),
      (.recountReceive 0 (List.replicate 8 0) (List.replicate 8 0), .recountReceive 0 (List.replicate 9 0) (List.replicate 8 0)),
      (.recountReceive 0 (List.replicate 8 0) (List.replicate 8 0), .recountReceive 0 (List.replicate 8 0) []),
      (.jtagDbgAccess (2 ^ 48 - 8) false 0, .jtagDbgAccess (2 ^ 48) false 0),
      (.jtagDbgAccess 8 false 0, .jtagDbgAccess 4 false 0), (.eventRecordWrite 1, .eventRecordWrite 0),
      (.mgtFrameReceive (List.replicate 64 0) false, .mgtFrameReceive (List.replicate 16384 0) false),
      (.controlCoreAccess 0 (2 ^ 48 - 1) 1 false 0, .controlCoreAccess 0 (2 ^ 48) 1 false 0),
      (.controlCoreAccess 0 8 8 false 0, .controlCoreAccess 0 8 3 false 0),
      (.controlCoreAccess 0 8 8 false 0, .controlCoreAccess 0 4 8 false 0)] : List (Instr × Instr)),
    e.1.wf = true ∧ e.2.wf = false := by decide +kernel

/-! ## States -/

/-- An instruction word with the operand fields (low bit, value), under p0. -/
def iw (fs : List (Nat × Nat)) : IWord := ⟨0, false, BitVec.ofNat 50 ((fs.map (fun f => f.2 * 2 ^ f.1)).sum)⟩

/-- The same, turned off by its predicate. -/
def iwOff (fs : List (Nat × Nat)) : IWord := { iw fs with pneg := true }

/-- A device in service: every tile in P0, every PLL locked, the engines of core 0 and of cluster 0 clocked. -/
def up : Dev :=
  ((({ resetN := true, sec := { stage := 7 }, fuses := { vkeys := [some [], none, none, none] }
       pwr := [(0, { st := .run }), (1, { st := .run }), (2, { st := .run }), (3, { st := .run })]
       plls := (upTo 34).map (fun k => (k, { lock := true })) } : Dev).setReg ⟨.clkEnCore, [0]⟩ 0x2A07).setReg
    ⟨.clkEnCluster, [0]⟩ 0x2A07)

/-- A device as a state with nothing queued. -/
def st (d : Dev) : State := ⟨[], d⟩

/-- Core 0 runs and stands at an instruction of class `cls` and operation `op`, with the registers of q; one more index
follows. -/
def at_ (cls op : Nat) (i : IWord) (q : Sq := {}) : State :=
  st (up.onSq 0 (fun _ => { q with store := [(q.pc, i.word cls op)], codeLen := q.pc + 2, st := .run }))

/-- An instruction word stands alone at the head of engine e of core 0. -/
def headAt (e : Nat) (w : Word) (q : Sq := {}) (x : QEntry := ⟨0, [], [], [], false⟩) : State :=
  st ((up.onSq 0 (fun _ => q)).onEng 0 e (fun g => { g with queue := [{ x with word := w }] }))

theorem witness_step :
    State.reset.pending = [] ∧ ({ State.reset with pending := [.resetNRelease] } : State).pending = .resetNRelease :: [] :=
  ⟨rfl, rfl⟩

theorem witness_still : State.reset.dev.live = false ∧ ActsInReset .announceSend = false := by decide

theorem witness_held : HeldInReset State.reset ∧ step State.reset = .next State.reset := by
  unfold HeldInReset; exact ⟨fun _ => rfl, rfl⟩

theorem witness_held_pin :
    let s : State := { State.reset with pending := [.powerGoodFall] }
    HeldInReset s ∧ ∃ t, step s = .next t ∧ t.dev.vin = false := by
  refine ⟨?_, _, rfl, ?_⟩
  · unfold HeldInReset; exact fun _ => rfl
  · decide +kernel

/-! ## The sequencer -/

theorem witness_scalar :
    let i := iw [(45, 31), (40, 1), (35, 2)]
    let s := at_ 0 0x0B i { s := [(1, 7)] }
    CoreRuns s 0 ∧ AtPc s.dev 0 0 0x0B i ∧ i.f 34 0 = 0 ∧ Enabled s.dev 0 i := by
  unfold CoreRuns Acts AtPc Enabled; decide +kernel

theorem witness_scalar_immediate :
    let i := iw [(45, 31), (40, 1), (0, 63)]
    let s := at_ 0 0x18 i { s := [(1, 7)] }
    CoreRuns s 0 ∧ AtPc s.dev 0 0 0x18 i ∧ i.f 39 32 = 0 ∧ i.f 31 0 < 64 ∧ Enabled s.dev 0 i := by
  unfold CoreRuns Acts AtPc Enabled; decide +kernel

theorem witness_moves :
    let i := iw [(45, 5), (40, 15), (32, 3)]
    let s := at_ 0 0x3B i
    CoreRuns s 0 ∧ AtPc s.dev 0 0 0x3B i ∧ i.f 31 0 = 0 ∧ i.f 44 40 ≤ 15 ∧ i.f 39 32 ≤ 3 ∧ Enabled s.dev 0 i := by
  unfold CoreRuns Acts AtPc Enabled; decide +kernel

theorem witness_lidx :
    let i := iw [(45, 5), (32, 3)]
    let s := at_ 0 0x2D i { loops := List.replicate 4 ⟨0, 9, 1, 0⟩ }
    CoreRuns s 0 ∧ AtPc s.dev 0 0 0x2D i ∧ i.f 31 0 = 0 ∧ i.f 39 32 < (s.dev.core 0).sq.loops.length ∧
      Enabled s.dev 0 i := by
  unfold CoreRuns Acts AtPc Enabled; decide +kernel

theorem witness_compare :
    let i := iw [(47, 7), (40, 1), (32, 5)]
    ∀ op ∈ [0x20, 0x21], let s := at_ 0 op i
      CoreRuns s 0 ∧ AtPc s.dev 0 0 op i ∧ i.f 46 45 = 0 ∧ i.f 34 32 ≤ 5 ∧ i.f 31 0 = 0 ∧ Enabled s.dev 0 i := by
  unfold CoreRuns Acts AtPc Enabled; decide +kernel

theorem witness_predicates :
    let i := iw [(47, 7), (44, 1)]
    ∀ op ∈ [0x22, 0x24], let s := at_ 0 op i
      CoreRuns s 0 ∧ AtPc s.dev 0 0 op i ∧ i.f 37 0 = 0 ∧ i.f 31 0 = 0 ∧ Enabled s.dev 0 i := by
  unfold CoreRuns Acts AtPc Enabled; decide +kernel

theorem witness_wide_registers :
    ∀ e ∈ [(0x38, iw [(45, 1), (40, 15), (32, 1)], 1), (0x3A, iw [(45, 1), (40, 15), (32, 3)], 3)],
      let s := at_ 0 e.1 e.2.1
      CoreRuns s 0 ∧ AtPc s.dev 0 0 e.1 e.2.1 ∧ e.2.1.f 31 0 = 0 ∧ e.2.1.f 44 40 ≤ 15 ∧ e.2.1.f 39 32 ≤ e.2.2 ∧
        Enabled s.dev 0 e.2.1 := by
  unfold CoreRuns Acts AtPc Enabled; decide +kernel

theorem witness_lanes :
    let i := iw [(45, 1), (40, 31), (32, 255)]
    ∀ op ∈ [0x3C, 0x3D], let s := at_ 0 op i
      CoreRuns s 0 ∧ AtPc s.dev 0 0 op i ∧ i.f 31 0 = 0 ∧ (s.dev.core 0).vFree (i.f 44 40) = true ∧ Enabled s.dev 0 i := by
  unfold CoreRuns Acts AtPc Enabled; decide +kernel

/-- A queued VADD uses v0: VSET and VGET of it wait, those of v31 do not. -/
theorem witness_lanes_wait :
    ∀ op ∈ [0x3C, 0x3D],
      let i := iw [(45, 1), (40, 0), (32, 255)]
      let s := st ((at_ 0 op i).dev.onEng 0 2 (fun g => { g with queue := [⟨(iw []).word 2 0x00, [], [], [], false⟩] }))
      CoreRuns s 0 ∧ AtPc s.dev 0 0 op i ∧ i.f 31 0 = 0 ∧ (s.dev.core 0).vFree (i.f 44 40) = false ∧ Enabled s.dev 0 i := by
  unfold CoreRuns Acts AtPc Enabled; decide +kernel

theorem witness_off :
    let i := iwOff [(45, 1)]
    let s := at_ 0 0x01 i
    CoreRuns s 0 ∧ AtPc s.dev 0 0 0x01 i ∧ i.f 34 0 = 0 ∧ (s.dev.core 0).sq.enabled i = false := by
  unfold CoreRuns Acts AtPc; decide +kernel

theorem witness_plain : Plain (at_ 0 0x00 (iw [])).dev 0 := by unfold Plain; decide +kernel

/-- LOOP: a count from IMM, a count of zero, and a fifth level. -/
theorem witness_loop :
    ∀ e ∈ [(iw [(44, 1), (24, 65535), (0, 1)], ([] : List LoopFrame)), (iw [(44, 1), (0, 1)], [⟨0, 9, 1, 0⟩]),
        (iw [(44, 1), (24, 2), (0, 1)], List.replicate 4 ⟨0, 9, 1, 0⟩)],
      let s := st ((at_ 0 0x2C e.1 { loops := e.2 }).dev.onSq 0 (fun q => { q with codeLen := 3 }))
      let q := (s.dev.core 0).sq
      CoreRuns s 0 ∧ Enabled s.dev 0 e.1 ∧ AtPc s.dev 0 0 0x2C e.1 ∧ e.1.f 43 40 = 0 ∧ e.1.f 23 0 ≠ 0 ∧
        q.pc + e.1.f 23 0 < q.codeLen ∧ (∀ f ∈ q.loops.head?, q.pc + e.1.f 23 0 ≤ f.last) ∧
        q.pc + e.1.f 23 0 + 1 < q.codeLen := by
  unfold CoreRuns Acts AtPc Enabled; decide +kernel

theorem witness_loop_counts :
    (iw [(44, 1), (24, 65535), (0, 1)]).f 39 24 = 65535 ∧ (iw [(44, 1), (0, 1)]).f 39 24 = 0 := by decide +kernel

/-- The last index of a body with iterations left, and after its last; the last index of the code. -/
theorem witness_loop_end :
    let i := iw []
    let s := fun (fs : List LoopFrame) (n : Nat) => st ((at_ 0 0 i { loops := fs }).dev.onSq 0 (fun q => { q with codeLen := n }))
    (∀ e ∈ [([(⟨0, 0, 2, 0⟩ : LoopFrame)], 2), ([⟨0, 0, 1, 3⟩], 2), ([⟨0, 0, 1, 3⟩, ⟨0, 5, 2, 0⟩], 2), ([], 1)],
      CoreRuns (s e.1 e.2) 0 ∧ AtPc (s e.1 e.2).dev 0 0 0 i ∧ i.opnd = 0) ∧
    (((s [⟨0, 0, 2, 0⟩] 2).dev.core 0).sq.loops = [⟨0, 0, 2, 0⟩] ∧ ((s [⟨0, 0, 2, 0⟩] 2).dev.core 0).sq.pc = 0) ∧
    ((s [] 1).dev.core 0).sq.loops = [] ∧ ((s [] 1).dev.core 0).sq.pc + 1 = ((s [] 1).dev.core 0).sq.codeLen := by
  unfold CoreRuns Acts AtPc; decide +kernel

/-- BR, CALL, RET and JR to the ends of the code. -/
theorem witness_control :
    ∀ e ∈ [(0x28, iw [(0, 2 ^ 32 - 1)], ({ pc := 1 } : Sq)), (0x29, iw [(0, 1)], { calls := List.replicate 7 0 }),
        (0x2A, iw [], { calls := [1] }), (0x2B, iw [(40, 1)], { s := [(1, 1)] })],
      let s := at_ 0 e.1 e.2.1 e.2.2
      let q := (s.dev.core 0).sq
      CoreRuns s 0 ∧ Enabled s.dev 0 e.2.1 ∧ AtPc s.dev 0 0 e.1 e.2.1 ∧ (e.1 ≠ 0x2B → e.2.1.f 49 32 = 0) ∧
        (e.1 < 0x2A → 0 ≤ (q.pc : Int) + e.2.1.imm ∧ (q.pc : Int) + e.2.1.imm < q.codeLen) ∧ q.calls.length < 8 ∧
        (e.1 = 0x2B → (q.getS e.2.1.rs1).toNat % 16384 < q.codeLen) := by
  unfold CoreRuns Acts AtPc Enabled; decide +kernel

/-- BR below index 0 and to the end of the code, CALL at 8 levels, RET without a call. -/
theorem witness_control_refused :
    ∀ e ∈ [(0x28, iw [(0, 2 ^ 32 - 1)], ({} : Sq)), (0x28, iw [(0, 2)], {}), (0x29, iw [(0, 1)], { calls := List.replicate 8 0 }),
        (0x2A, iw [], {})],
      let s := at_ 0 e.1 e.2.1 e.2.2
      let q := (s.dev.core 0).sq
      CoreRuns s 0 ∧ Enabled s.dev 0 e.2.1 ∧ AtPc s.dev 0 0 e.1 e.2.1 ∧ e.2.1.f 49 32 = 0 ∧
        (e.1 = 0x28 → (q.pc : Int) + e.2.1.imm < 0 ∨ (q.codeLen : Int) ≤ (q.pc : Int) + e.2.1.imm) ∧
        (e.1 = 0x29 → 8 ≤ q.calls.length) ∧ (e.1 = 0x2A → q.calls = []) := by
  unfold CoreRuns Acts AtPc Enabled; decide +kernel

theorem witness_fence :
    let i := iw [(41, 7)]
    ∀ n ∈ [0, 1], let s := st ((at_ 0 0x4A i).dev.onEng 0 1 (fun g => { g with queue := List.replicate n ⟨0, [], [], [], false⟩ }))
      CoreRuns s 0 ∧ AtPc s.dev 0 0 0x4A i ∧ Enabled s.dev 0 i ∧ i.f 49 44 = 0 ∧ i.f 40 0 = 0 ∧
        ((s.dev.core 0).maskIdle (i.f 43 41) = true ↔ n = 0) := by
  unfold CoreRuns Acts AtPc Enabled; decide +kernel

theorem witness_fence_release :
    let s := st (up.onSq 0 (fun q => { q with st := .stall, wait := .fence 7 }))
    CoreRuns s 0 ∧ (s.dev.core 0).sq.st = .stall ∧ (s.dev.core 0).sq.wait = .fence 7 ∧
      (s.dev.core 0).maskIdle 7 = true := by
  unfold CoreRuns Acts; decide +kernel

theorem witness_twait :
    ∀ e ∈ [(iw [(45, 1), (44, 1)], true), (iw [(0, 65535)], false)],
      let s := at_ 0 0x48 e.1 { s := [(1, 9)] }
      CoreRuns s 0 ∧ AtPc s.dev 0 0 0x48 e.1 ∧ Enabled s.dev 0 e.1 ∧ e.1.f 40 32 = 0 ∧ e.1.f 31 16 = 0 ∧
        (if e.2 then e.1.f 44 44 = 1 ∧ e.1.f 15 0 = 0 ∧ (s.dev.core 0).sq.getS (e.1.f 49 45) ≠ 0
         else e.1.f 44 44 = 0 ∧ e.1.f 15 0 ≠ 0) := by
  unfold CoreRuns Acts AtPc Enabled; decide +kernel

/-- A release at its target edge, on time, late, and of an implicit wait. -/
theorem witness_twait_release :
    ∀ w ∈ [SqWait.tempo 5 0 true false, .tempo 5 0 false false, .tempo 5 0 true true],
      let s := st ({ up with tempo := 5 } : Dev)
      let s' := st (s.dev.onSq 0 (fun q => { q with st := .stall, wait := w, codeLen := 1 }))
      CoreRuns s' 0 ∧ (s'.dev.core 0).sq.pc < (s'.dev.core 0).sq.codeLen ∧ (s'.dev.core 0).sq.st = .stall ∧ (s'.dev.core 0).sq.wait = w ∧ (s'.dev.core 0).maskIdle 0 = true ∧
        5 ≤ s'.dev.tempo := by
  unfold CoreRuns Acts; decide +kernel

/-- Semaphore requests inside the partition, and (in shape 2) at another tile's semaphore. -/
theorem witness_semaphore_requests :
    let i := iw [(26, 4096), (0, 65535)]
    ∀ e ∈ [(0x40, 0, false), (0x41, 0, false), (0x40, 2, false), (0x41, 2, false), (0x41, 0, true)],
      let s := st ({ (at_ 0 e.1 i).dev.setReg ⟨.prtShape, []⟩ (BitVec.ofNat 64 e.2.1) with
        stalled := if e.2.2 then [.write (.core 0) 0 0 0 0] else [] } : Dev)
      let k := (i.f 39 26 + ((s.dev.core 0).sq.getS i.rs1).toNat) % 2 ^ 14
      CoreRuns s 0 ∧ AtPc s.dev 0 0 e.1 i ∧ Enabled s.dev 0 i ∧ i.f 25 16 = 0 ∧ i.f 15 0 ≠ 0 ∧ i.f 46 45 = 0 ∧
        s.dev.storeStalled 0 = e.2.2 ∧ (s.dev.tilePart (k / 4096) = s.dev.corePart 0 ↔ e.2.1 = 0) := by
  unfold CoreRuns Acts AtPc Enabled; decide +kernel

/-- One request of each clause at a semaphore of cluster 0, another request elsewhere. -/
theorem witness_semaphore_service :
    ∀ e ∈ [(SemKind.sig, 1, ({ value := 65534 } : Sem)), (.wait, 65535, { value := 65535 }), (.wait, 1, { poison := true }),
        (.wait, 2, { value := 1 })],
      let r : SemReq := { id := 0, who := .sq 0, kind := e.1, sem := 5, n := e.2.1 }
      let y : SemReq := { id := 1, who := .sq 1, kind := .sig, sem := 5000, n := 1 }
      let s := st ({ up with semReqs := [r, y], sems := [(5, e.2.2)] } : Dev)
      Acts s ∧ s.dev.tileOn (0 / 4) = true ∧ s.dev.semReqs = [] ++ r :: [y] ∧ r.arrived = false ∧
        (∀ x ∈ [y], semCluster x.sem ≠ 0 ∧ x.id ≠ r.id) ∧ semCluster r.sem = 0 ∧ s.dev.sem r.sem = e.2.2 ∧
        (r.kind = .sig → (s.dev.sem r.sem).value + r.n ≤ 65535) ∧
        (r.kind = .wait → (s.dev.sem r.sem).poison = true ∨ r.n ≤ (s.dev.sem r.sem).value ∨ (s.dev.sem r.sem).value < r.n) := by
  unfold Acts; decide +kernel

theorem witness_semaphore_resume :
    ∀ e ∈ [(7, true), (0, false), (0, true)],
      let s := st (({ up with semDone := [⟨3, .sq 0, e.1, e.2⟩] } : Dev).onSq 0 (fun q => { q with wait := .sem 3 e.1 }))
      Acts s ∧ e.1 < 8 ∧ s.dev.semDone.find? (fun r => r.id = 3) = some ⟨3, .sq 0, e.1, e.2⟩ ∧
        (s.dev.core 0).sq.wait = .sem 3 e.1 := by
  unfold Acts; decide +kernel

/-- Generation instructions on slot 1 (CLAIM: slot 0) of the last stage, with references up to their greatest number. -/
theorem witness_generations :
    let i := iw [(45, 3), (40, 1), (35, 2)]
    ∀ e ∈ [(0x50, 9, ({ st := .ready, ring := 9, refs := 65534 } : GenSlot)), (0x51, 1, { st := .ready, refs := 1 }),
        (0x52, 9, {}), (0x53, 1, { st := .filling })],
      let s := st ((at_ 0 e.1 i { s := [(1, 63), (2, BitVec.ofNat 64 e.2.1)] }).dev.setGen 0 { stages := 64, slots := [(127, e.2.2)] })
      let q := (s.dev.core 0).sq
      let t := s.dev.gen (s.dev.corePart 0)
      CoreRuns s 0 ∧ AtPc s.dev 0 0 e.1 i ∧ Enabled s.dev 0 i ∧ i.f 34 0 = 0 ∧ (q.getS i.rs1).toNat = 63 ∧
        (q.getS i.rs2).toNat = e.2.1 ∧ 63 < t.stages ∧ t.slot 63 1 = e.2.2 ∧ t.slot 63 0 = {} ∧ t.claims = [] := by
  unfold CoreRuns Acts AtPc Enabled; decide +kernel

/-- The refusals of the last stage: ACQ of a ring that no slot holds, of a claimed slot and of one with every reference out; REL
without a reference; CLAIM of a ring that is not new; READY of a slot that is not FILLING; and a CLAIM that waits. -/
theorem witness_generations_stop :
    let i := iw [(45, 3), (40, 1), (35, 2)]
    let claim : GenClaim := ⟨1, 63, 1, 10, 3⟩
    let a : GenSlot := { st := .ready, ring := 8 }
    ∀ e ∈ [(0x50, 9, a, a, []), (0x50, 9, a, { a with ring := 9 }, [claim]), (0x50, 9, a, { a with ring := 9, refs := 65535 }, []),
        (0x51, 1, a, a, []), (0x52, 8, a, { st := .free }, []), (0x53, 1, a, a, []),
        (0x52, 9, { a with ring := 7, refs := 1 }, a, [])],
      let s := st ((at_ 0 e.1 i { s := [(1, 63), (2, BitVec.ofNat 64 e.2.1)] }).dev.setGen 0
        { stages := 64, slots := [(126, e.2.2.1), (127, e.2.2.2.1)], claims := e.2.2.2.2 })
      let q := (s.dev.core 0).sq
      let t := s.dev.gen (s.dev.corePart 0)
      let holds := fun (g : Nat) => decide ((t.slot 63 g).st ≠ .free) && decide ((t.slot 63 g).ring = e.2.1)
      CoreRuns s 0 ∧ AtPc s.dev 0 0 e.1 i ∧ Enabled s.dev 0 i ∧ i.f 34 0 = 0 ∧ (q.getS i.rs1).toNat = 63 ∧
        (q.getS i.rs2).toNat = e.2.1 ∧ 63 < t.stages ∧
        (e.1 = 0x50 → (holds 0 = false ∧ holds 1 = false) ∨ (holds 0 = false ∧ holds 1 = true ∧
          (t.claimOf 63 1 ≠ none ∨ (t.claimOf 63 1 = none ∧ 65535 ≤ (t.slot 63 1).refs)))) ∧
        (e.1 = 0x51 → (t.slot 63 1).refs = 0) ∧ (e.1 = 0x53 → (t.slot 63 1).st ≠ .filling) ∧
        (e.1 = 0x52 → t.claims = [] ∧ (((t.slot 63 0).st ≠ .free ∧ e.2.1 ≤ (t.slot 63 0).ring) ∨
          ((∀ g, g < 2 → (t.slot 63 g).st ≠ .free ∧ (t.slot 63 g).ring < e.2.1) ∧
            (t.slot 63 0).ring < (t.slot 63 1).ring ∧ (t.slot 63 0).refs ≠ 0))) := by
  unfold CoreRuns Acts AtPc Enabled; decide +kernel

theorem witness_generations_refused :
    let i := iw [(45, 3), (40, 1), (35, 2)]
    ∀ e ∈ [(0x50, 64, 0), (0x51, 63, 2), (0x52, 64, 0), (0x53, 64, 0)],
      let s := st ((at_ 0 e.1 i { s := [(1, BitVec.ofNat 64 e.2.1), (2, BitVec.ofNat 64 e.2.2)] }).dev.setGen 0 { stages := 64 })
      let q := (s.dev.core 0).sq
      CoreRuns s 0 ∧ AtPc s.dev 0 0 e.1 i ∧ Enabled s.dev 0 i ∧ i.f 34 0 = 0 ∧
        ((s.dev.gen (s.dev.corePart 0)).stages ≤ (q.getS i.rs1).toNat ∨ (e.1 = 0x51 ∧ 1 < (q.getS i.rs2).toNat)) := by
  unfold CoreRuns Acts AtPc Enabled; decide +kernel

theorem witness_claim_complete :
    let x : GenClaim := { core := 0, stage := 63, slot := 1, ring := 9, rd := 3 }
    let s := st ((up.setGen 0 { stages := 64, claims := [x] }).onSq 0 (fun q => { q with st := .stall, wait := .claim }))
    Acts s ∧ (s.dev.gen 0).claimOf 63 1 = some x ∧ ((s.dev.gen 0).slot 63 1).refs = 0 ∧
      (s.dev.core 0).sq.wait = .claim := by
  unfold Acts; decide +kernel

theorem witness_stops :
    (let s := at_ 0 0x58 (iw [(0, 65535)])
     CoreRuns s 0 ∧ AtPc s.dev 0 0 0x58 (iw [(0, 65535)]) ∧ Enabled s.dev 0 (iw [(0, 65535)]) ∧ (iw [(0, 65535)]).f 49 16 = 0) ∧
    (let s := at_ 0 0x59 (iw [])
     CoreRuns s 0 ∧ AtPc s.dev 0 0 0x59 (iw []) ∧ Enabled s.dev 0 (iw []) ∧ (iw []).opnd = 0) ∧
    ∀ x ∈ [SqState.run, .stall, .halted], let s := st (up.onSq 0 (fun q => { q with st := x }))
      HostReaches s ⟨.sqCtrl, [0]⟩ ∧ (s.dev.core 0).sq.st = x ∧ (s.dev.core 0).sq.pruned = false := by
  unfold CoreRuns HostReaches Acts AtPc Enabled; decide +kernel

/-! ## Memory, and what the engines begin -/

/-- A local, writable window. -/
def win (base len : Nat) : BitVec 128 := BitVec.ofNat 128 (base + 2 ^ 67 + len * 2 ^ 72)

/-- A descriptor register with the fields (low bit, value). -/
def desc (fs : List (Nat × Nat)) : BitVec 256 := BitVec.ofNat 256 ((fs.map (fun f => f.2 * 2 ^ f.1)).sum)

/-- `Clean` as a computation. -/
def cleanB (d : Dev) (a n : Nat) : Bool :=
  (List.range ((a + n + 7) / 8 - a / 8)).all (fun k =>
    let w := a / 8 + k
    d.bankOn (8 * w) && !NSet.has d.mem.poison w && decide (FMap.getD d.mem.err w 0 = 0) && decide (d.injectMask w = (0, d)))

theorem clean_iff (d : Dev) (a n : Nat) : Clean d a n ↔ cleanB d a n = true := by
  unfold Clean CleanWord cleanB
  simp only [List.all_eq_true, List.mem_range, Bool.and_eq_true, Bool.not_eq_true', decide_eq_true_eq]
  constructor
  · intro h k hk
    have := h (a / 8 + k) (by omega) (by omega)
    exact ⟨⟨⟨this.1, this.2.1⟩, this.2.2.1⟩, this.2.2.2⟩
  · intro h w hl hh
    have := h (w - a / 8) (by omega)
    rw [show a / 8 + (w - a / 8) = w by omega] at this
    exact ⟨this.1.1.1, this.1.1.2, this.1.2, this.2⟩

/-- LD and ST of the whole of a window, without and behind a store that stalls; one byte before it; one byte past it; misaligned. -/
theorem witness_memory :
    ∀ e ∈ [(0x30, 1, false), (0x31, 0, false), (0x30, 1, true), (0x31, 0, true)],
      let i := iw [(45, 3), (41, 1), (34, 3), (33, e.2.1)]
      let s := st ({ (at_ 0 e.1 i { a := [(1, win (spdBase 0) 8)] }).dev with
        stalled := if e.2.2 then [.write (.core 0) 0 0 0 0] else [] } : Dev)
      let q := (s.dev.core 0).sq
      let w := Win.ofBits (q.getA (i.f 44 41))
      let ea := (((w.base + (q.getS (i.f 40 36)).toNat : Nat) + i.imm) % 2 ^ 48).toNat
      CoreRuns s 0 ∧ AtPc s.dev 0 0 e.1 i ∧ Enabled s.dev 0 i ∧ i.f 32 32 = 0 ∧ (e.1 = 0x31 → i.f 33 32 = 0) ∧
        w.remote = false ∧ w.wr = true ∧ w.base ≤ ea ∧ ea + 2 ^ i.f 35 34 ≤ w.base + w.len ∧ ea % 2 ^ i.f 35 34 = 0 ∧
        s.dev.storeStalled 0 = e.2.2 ∧ s.dev.ownSram 0 ea = true ∧ Clean s.dev ea (2 ^ i.f 35 34) := by
  unfold CoreRuns Acts AtPc Enabled; simp only [clean_iff]; decide +kernel

theorem witness_memory_refused :
    ∀ e ∈ [(0x30, 2 ^ 32 - 1, 0), (0x30, 1, 3), (0x31, 8, 0), (0x31, 2, 2)],
      let i := iw [(45, 3), (41, 1), (34, e.2.2), (0, e.2.1)]
      let s := at_ 0 e.1 i { a := [(1, win (spdBase 0 + 8) 8)] }
      let q := (s.dev.core 0).sq
      let w := Win.ofBits (q.getA (i.f 44 41))
      let ea := (((w.base + (q.getS (i.f 40 36)).toNat : Nat) + i.imm) % 2 ^ 48).toNat
      CoreRuns s 0 ∧ AtPc s.dev 0 0 e.1 i ∧ Enabled s.dev 0 i ∧ i.f 33 32 = 0 ∧
        s.dev.storeStalled 0 = false ∧ (ea < w.base ∨ w.base + w.len < ea + 2 ^ i.f 35 34 ∨ ea % 2 ^ i.f 35 34 ≠ 0) := by
  unfold CoreRuns Acts AtPc Enabled; decide +kernel

/-- The issue of an FADD with room for one more entry, with a full queue, and with the vector engine's clock off. -/
theorem witness_issue :
    let i := iw [(45, 31), (40, 1), (35, 2)]
    ∀ e ∈ [(31, 0x2A07, 0), (32, 0x2A07, 1), (0, 0x2203, 2)],
      let s := st (((at_ 2 0x00 i).dev.setReg ⟨.clkEnCore, [0]⟩ (BitVec.ofNat 64 e.2.1)).onEng 0 2 (fun g =>
        { g with queue := List.replicate e.1 ⟨0, [], [], [], false⟩ }))
      CoreRuns s 0 ∧ AtPc s.dev 0 2 0x00 i ∧ Enabled s.dev 0 i ∧ legalVr 0 false i (s.dev.core 0).sq = true ∧
        (if e.2.2 = 2 then s.dev.engClock 0 2 ≠ 2 else s.dev.engClock 0 2 = 2) ∧
        (s.dev.core 0).sq.engHalt.getLsbD 1 = false ∧
        (if e.2.2 = 1 then 32 ≤ ((s.dev.core 0).eng 2).queue.length else ((s.dev.core 0).eng 2).queue.length < 32) := by
  unfold CoreRuns Acts AtPc Enabled; decide +kernel

/-- FCMP and ICMP with the last condition, under a mask. -/
theorem witness_vector :
    ∀ op ∈ [0x06, 0x19], let i := iw [(45, 31), (40, 1), (28, 1), (23, 3), (20, 5)]
      let s := headAt 2 (i.word 2 op)
      CoreRuns s 0 ∧ AtHead s.dev 0 2 (i.word 2 op) ⟨i.word 2 op, [], [], [], false⟩ [] ∧ (s.dev.core 0).ve.solve = none ∧
        i.f 22 20 ≤ 5 := by
  unfold CoreRuns Acts AtHead; decide +kernel

/-- LSHIFT at either end of its range, CVT.R to INT32, RSUM and OSMX of the shortest and of the longest segments. -/
theorem witness_permutes :
    (∀ e ∈ [(0x22, iw [(8, 255)]), (0x22, iw [(8, 4096 - 255)]), (0x40, iw [(8, 0x0A), (16, 1)]), (0x38, iw [(8, 2)]),
        (0x38, iw [(8, 8)]), (0x3D, iw [(8, 2)]), (0x3D, iw [(8, 8)])],
      let s := headAt 2 (e.2.word 2 e.1)
      CoreRuns s 0 ∧ AtHead s.dev 0 2 (e.2.word 2 e.1) ⟨e.2.word 2 e.1, [], [], [], false⟩ [] ∧ (s.dev.core 0).ve.solve = none ∧
        (e.1 = 0x22 → (sext 12 (e.2.f 19 8)).natAbs ≤ 255) ∧ (e.1 = 0x40 → cvtRCheck e.2 = none) ∧
        (0x40 ≠ e.1 → 0x22 ≠ e.1 → 2 ≤ e.2.f 11 8 ∧ e.2.f 11 8 ≤ 8)) := by
  unfold CoreRuns Acts AtHead; decide +kernel

theorem witness_osmx_state :
    let q : Sq := {}
    ∀ k, k < 4 → (q.getV 0).getD k 0 = 0 ∧ (q.getV 1).getD k 0 = 0 ∧ (q.getV 0).length = 256 ∧ (q.getV 1).length = 256 := by
  decide +kernel

theorem witness_random :
    ∀ e ∈ [(0x50, false, false, iw [(45, 1), (35, 28)]), (0x52, true, false, iw [(45, 1), (35, 28), (30, 30)]),
        (0x53, false, true, iw [(45, 1), (35, 28)])],
      let x : QEntry := ⟨e.2.2.2.word 2 e.1, [(31, 4)], [], [], false⟩
      let s := headAt 2 (e.2.2.2.word 2 e.1) {} x
      CoreRuns s 0 ∧ AtHead s.dev 0 2 (e.2.2.2.word 2 e.1) x [] ∧ (s.dev.core 0).ve.solve = none ∧
        vnCheck e.2.1 e.2.2.1 e.2.2.2 x (s.dev.core 0).sq = none := by
  unfold CoreRuns Acts AtHead; decide +kernel

/-- VLD and VST of the whole of a window, every lane active. -/
theorem witness_vector_memory :
    ∀ op ∈ [0x48, 0x49],
      let i := iw [(45, 1), (41, 1)]
      let x : QEntry := ⟨i.word 2 op, [], [(1, win (spdBase 0) 1024)], [], false⟩
      let s := headAt 2 (i.word 2 op) {} x
      CoreRuns s 0 ∧ AtHead s.dev 0 2 (i.word 2 op) x [] ∧ (s.dev.core 0).ve.solve = none ∧
        vmCheck 0 true i x (s.dev.core 0).sq = none ∧ vmCheck 0 false i x (s.dev.core 0).sq = none ∧
        ∀ k, k < 256 → Clean s.dev (vmLane x i k).toNat 4 := by
  unfold CoreRuns Acts AtHead; simp only [clean_iff]; decide +kernel

/-- CVT.LD and CVT.ST of a row of 256 E4M3 elements. -/
theorem witness_convert :
    ∀ e ∈ [0x4A, 0x4B],
      let i := iw [(45, 1), (41, 1)]
      let x : QEntry := ⟨i.word 2 e, [], [], [(1, desc [(0, spdBase 0), (48, 3), (64, 256)])], false⟩
      let s := headAt 2 (i.word 2 e) {} x
      let u := (vcDesc x i).1
      let sp := elemSpan (u.rowAddr 1 (vcDesc x i).2.2) 8 (vcDesc x i).2.1 256
      CoreRuns s 0 ∧ AtHead s.dev 0 2 (i.word 2 e) x [] ∧ (s.dev.core 0).ve.solve = none ∧
        cvtLdCheck 0 i x (s.dev.core 0).sq = none ∧ cvtStCheck 0 i x (s.dev.core 0).sq = none ∧
        Fmt.ofCode u.fmt = some ⟨.fp e4m3F, .unscaled, some .c8, false⟩ ∧ Clean s.dev sp.1 sp.2.2 ∧ i.f 30 29 ≠ 2 := by
  unfold CoreRuns Acts AtHead; simp only [clean_iff]; decide +kernel

/-- CVT.ST to an MX row, whose 8 scale bytes stand apart from it, and to the two planes of a SPLIT16 row. -/
theorem witness_convert_scaled :
    ∀ e ∈ [(desc [(0, spdBase 0), (48, 0x10), (64, 256), (128, spdBase 0 + 8192), (176, 8)], 0x10),
        (desc [(0, spdBase 0), (48, 0x1C), (57, 11), (64, 512), (128, spdBase 0 + 8192)], 0x1C)],
      let i := iw [(45, 1), (41, 1)]
      let x : QEntry := ⟨i.word 2 0x4B, [], [], [(1, e.1)], false⟩
      let s := headAt 2 (i.word 2 0x4B) {} x
      let u := (vcDesc x i).1
      CoreRuns s 0 ∧ AtHead s.dev 0 2 (i.word 2 0x4B) x [] ∧ (s.dev.core 0).ve.solve = none ∧
        cvtStCheck 0 i x (s.dev.core 0).sq = none ∧ (Fmt.ofCode u.fmt).isSome = true ∧
        ∀ f ∈ (Fmt.ofCode u.fmt).toList,
          let sp := fun (p : Nat) => elemSpan (u.rowAddr (p + 1) (vcDesc x i).2.2) f.el.width (vcDesc x i).2.1 (cvtCount f)
          let sc := cvtScale u f (vcDesc x i).2.1 (vcDesc x i).2.2
          (∀ p, p < u.parts f → Clean s.dev (sp p).1 (sp p).2.2) ∧ Clean s.dev sc.1 sc.2 ∧
          (f.scheme.hasParts = true → Clean s.dev (u.sbase + 2 * (vcDesc x i).2.2) 2) ∧
          (∀ p, p < u.parts f → ∀ p', p' < u.parts f → p ≠ p' →
            (sp p).1 + (sp p).2.2 ≤ (sp p').1 ∨ (sp p').1 + (sp p').2.2 ≤ (sp p).1) ∧
          (sc.2 ≠ 0 → ∀ p, p < u.parts f → (sp p).1 + (sp p).2.2 ≤ sc.1 ∨ sc.1 + sc.2 ≤ (sp p).1) := by
  unfold CoreRuns Acts AtHead; simp only [clean_iff]; decide +kernel

/-- CVT.EXP, the first conversion of a SPLIT16 row, which is also its last. -/
theorem witness_exponent :
    ∀ last ∈ [0, 1],
      let i := iw [(45, 2), (41, 1), (13, 1), (12, last)]
      let x : QEntry := ⟨i.word 2 0x4C, [], [],
        [(1, desc [(0, spdBase 0), (48, 0x1C), (57, 11), (64, 512), (128, spdBase 0 + 8192)])], false⟩
      let s := headAt 2 (i.word 2 0x4C) {} x
      CoreRuns s 0 ∧ AtHead s.dev 0 2 (i.word 2 0x4C) x [] ∧ (s.dev.core 0).ve.solve = none ∧
        cvtExpCheck 0 i x (s.dev.core 0).sq = none ∧ i.f 12 12 = last ∧
        Clean s.dev ((vcDesc x i).1.sbase + 2 * (vcDesc x i).2.2) 2 := by
  unfold CoreRuns Acts AtHead; simp only [clean_iff]; decide +kernel

/-! ## Solves, the matrix engine, fetches -/

/-- A batch of one system of order 1: it begins; and its system. -/
theorem witness_solve_begins :
    let i := iw [(46, 2), (40, 1), (34, 1), (21, 1)]
    let x : QEntry := ⟨i.word 2 0x58, [], [],
      [(2, desc [(0, spdBase 0), (64, spdBase 0 + 64), (128, spdBase 0 + 128), (192, spdBase 0 + 192)])], false⟩
    let s := headAt 2 (i.word 2 0x58) {} x
    CoreRuns s 0 ∧ AtHead s.dev 0 2 (i.word 2 0x58) x [] ∧ (s.dev.core 0).ve.solve = none ∧
      solveCheck 0 i x (s.dev.core 0).sq = none := by
  unfold CoreRuns Acts AtHead; decide +kernel

theorem witness_solve_system :
    let i := iw [(46, 2), (40, 1), (34, 1), (21, 1)]
    let a := spdBase 0
    let r : SolveRun :=
      { seq := 0, word := i.word 2 0x58, aBase := a, bBase := a + 64, xBase := a + 124, sBase := a + 128, aPitch := 4
        bPitch := 4, xPitch := 4, n := 1, r := 1, count := 1, mode := 0, tau := 0, next := 0 }
    let s := st (up.onVe 0 (fun v => { v with solve := some r }))
    CoreRuns s 0 ∧ (s.dev.core 0).ve.solve = some r ∧ Clean s.dev a 4 ∧ Clean s.dev (a + 64) 4 ∧ Clean s.dev (a + 124) 4 ∧
      Clean s.dev (a + 128) 4 ∧ a + 124 + 4 ≤ a + 128 := by
  unfold CoreRuns Acts; simp only [clean_iff]; decide +kernel

/-- A descriptor of one row of one E4M3 element in core 0's scratchpad. -/
def oneElem : BitVec 256 := desc [(0, spdBase 0), (48, 3), (64, 1), (88, 1), (96, 1)]

/-- A tile of one element. -/
def oneTile : Tile := tileOf' (Desc.ofBits oneElem) ⟨.fp e4m3F, .unscaled, some .c8, false⟩ false 0 [[0]]

theorem witness_load :
    let i := iw []
    let x : QEntry := ⟨i.word 1 0x01, [], [], [(0, oneElem)], false⟩
    let s := headAt 1 (i.word 1 0x01) {} x
    let u := Desc.ofBits (x.getD' (i.f 49 46))
    let f : Fmt := ⟨.fp e4m3F, .unscaled, some .c8, false⟩
    let rs := loadRanges u f false 0
    CoreRuns s 0 ∧ s.dev.colTesting 0 = false ∧ (s.dev.core 0).me.run = none ∧ AtHead s.dev 0 1 (i.word 1 0x01) x [] ∧
      loadCheck 0 u false (i.f 44 42) = none ∧ Fmt.ofCode u.fmt = some f ∧ (s.dev.core 0).me.sourceFree rs = true ∧
      ∀ r ∈ rs, Clean s.dev r.1 r.2 := by
  unfold CoreRuns Acts AtHead; simp only [clean_iff]; decide +kernel

/-- The first row, and the last one, cleared. -/
theorem witness_clear :
    ∀ a ∈ [0, 4095], let i := iw [(33, a), (20, 1)]
      let s := headAt 1 (i.word 1 0x05)
      let m := (s.dev.core 0).me
      CoreRuns s 0 ∧ s.dev.colTesting 0 = false ∧ m.run = none ∧
        AtHead s.dev 0 1 (i.word 1 0x05) ⟨i.word 1 0x05, [], [], [], false⟩ [] ∧ 0 < i.f 32 20 ∧ i.f 44 33 + i.f 32 20 ≤ 4096 ∧
        ∀ k, k < i.f 32 20 → m.rowBusy m.eng.nextSeq (i.f 44 33 + k) = false ∧ m.rowWanted m.eng.nextSeq (i.f 44 33 + k) = false := by
  unfold CoreRuns Acts AtHead; decide +kernel

/-- A core 0 whose array holds a tile, and a stream or add to the last accumulator row at the head of its queue. -/
theorem witness_stream :
    let i := iw [(33, 4095), (20, 1), (45, 1)]
    let x : QEntry := ⟨i.word 1 0x02, [], [], [(0, oneElem)], false⟩
    let s := st ((headAt 1 (i.word 1 0x02) {} x).dev.onMe 0 (fun m => { m with tile := some oneTile }))
    let u := Desc.ofBits (x.getD' (i.f 49 46))
    let f : Fmt := ⟨.fp e4m3F, .unscaled, some .c8, false⟩
    CoreRuns s 0 ∧ AtHead s.dev 0 1 (i.word 1 0x02) x [] ∧ s.dev.colTesting 0 = false ∧ (s.dev.core 0).me.run = none ∧
      (s.dev.core 0).me.tile = some oneTile ∧ streamCheck 0 u oneTile i = none ∧ Fmt.ofCode u.fmt = some f ∧
      Fmt.ofCode oneTile.fmt = some f ∧ (streamExp f f (i.f 9 9 = 1) (sext 10 (i.f 19 10))).isSome = true ∧
      (s.dev.core 0).me.sourceFree ((upTo (i.f 32 20)).flatMap (streamRanges u f oneTile (i.f 8 3))) = true := by
  unfold CoreRuns Acts AtHead; decide +kernel

/-- A stream or an add in its only row. -/
def arrRun (i : IWord) (addw : Bool) (d : BitVec 256) : ArrRun :=
  { seq := 0, word := i.word 1 (if addw then 0x04 else 0x02), addw := addw, desc := Desc.ofBits d, clr := true, accBase := 4095
    rows := 1, exp := 0, mode := .unscaled, shift := 0, part := 0, next := 0 }

theorem witness_stream_row :
    let i := iw [(33, 4095), (20, 1), (45, 1)]
    let r := arrRun i false oneElem
    let f : Fmt := ⟨.fp e4m3F, .unscaled, some .c8, false⟩
    let s := st (up.onMe 0 (fun m => { m with tile := some oneTile, run := some r }))
    CoreRuns s 0 ∧ (s.dev.core 0).me.run = some r ∧ (s.dev.core 0).me.tile = some oneTile ∧ r.word = i.word 1 0x02 ∧
      (s.dev.core 0).me.rowWanted r.seq (r.accBase + r.next) = false ∧ Fmt.ofCode r.desc.fmt = some f ∧
      ∀ x ∈ streamRanges r.desc f oneTile r.part r.next, Clean s.dev x.1 x.2 := by
  unfold CoreRuns Acts; simp only [clean_iff]; decide +kernel

theorem witness_row_update :
    let f : FlightRow :=
      { seq := 0, row := 4095, vals := [.fin false 1 0], tile := oneTile, clr := true, exp := 0, mode := .unscaled, shift := 0
        last := true }
    let s := st (up.onMe 0 (fun m => { m with flight := [f] }))
    CoreRuns s 0 ∧ (s.dev.core 0).me.flight = f :: [] ∧ (Fmt.ofCode f.tile.fmt).isSome = true := by
  unfold CoreRuns Acts; decide +kernel

theorem witness_addw :
    let i := iw [(33, 4095), (20, 1), (45, 1)]
    let x : QEntry := ⟨i.word 1 0x04, [], [], [(0, desc [(0, spdBase 0), (64, 1024)])], false⟩
    let s := headAt 1 (i.word 1 0x04) {} x
    let u := Desc.ofBits (x.getD' (i.f 49 46))
    CoreRuns s 0 ∧ AtHead s.dev 0 1 (i.word 1 0x04) x [] ∧ s.dev.colTesting 0 = false ∧ (s.dev.core 0).me.run = none ∧
      addwCheck 0 u i = none ∧ (Fmt.ofCode u.fmt).isSome = true ∧
      (s.dev.core 0).me.sourceFree ((upTo (i.f 32 20)).map (fun k => (u.base + k * u.pitch, 1024))) = true := by
  unfold CoreRuns Acts AtHead; decide +kernel

theorem witness_addw_row :
    let i := iw [(33, 4095), (20, 1), (45, 1)]
    let r := arrRun i true (desc [(0, spdBase 0), (64, 1024)])
    let s := st (up.onMe 0 (fun m => { m with run := some r }))
    CoreRuns s 0 ∧ (s.dev.core 0).me.run = some r ∧ r.word = i.word 1 0x04 ∧
      (s.dev.core 0).me.rowWanted r.seq (r.accBase + r.next) = false ∧ (s.dev.core 0).me.flight = [] ∧
      Clean s.dev (r.desc.base + r.next * r.desc.pitch) 1024 := by
  unfold CoreRuns Acts; simp only [clean_iff]; decide +kernel

/-- A drain of the last row to FP32, from its beginning to its write. -/
theorem witness_drain :
    let i := iw [(33, 4095), (20, 1)]
    let u := desc [(0, spdBase 0), (64, 4), (96, 1)]
    let x : QEntry := ⟨i.word 1 0x03, [], [], [(0, u)], false⟩
    let s := headAt 1 (i.word 1 0x03) {} x
    CoreRuns s 0 ∧ AtHead s.dev 0 1 (i.word 1 0x03) x [] ∧ s.dev.colTesting 0 = false ∧
      drainCheck 0 (s.dev.core 0).me (Desc.ofBits (x.getD' (i.f 49 46))) (Desc.ofBits (x.getD' (i.f 49 46 ^^^ 1))) i = none := by
  unfold CoreRuns Acts AtHead; decide +kernel

theorem witness_drain_row :
    let i := iw [(33, 4095), (20, 1)]
    let r : DrainRun :=
      { seq := 0, word := i.word 1 0x03, u := Desc.ofBits (desc [(0, spdBase 0), (64, 4), (96, 1)]), x := Desc.ofBits 0
        aow := true, accBase := 4095, rows := 1, outExp := 0, rnd := .rne, nonsat := false, wide := false, key := 0
        stream := 0, next := 0 }
    let s := st (up.onMe 0 (fun m => { m with drains := [r] }))
    CoreRuns s 0 ∧ (s.dev.core 0).me.drains = r :: [] ∧ r.word = i.word 1 0x03 ∧
      (s.dev.core 0).me.rowBusy r.seq (r.accBase + r.next) = false ∧ ∀ x ∈ r.reads AccRow.invalid, Clean s.dev x.1 x.2 := by
  unfold CoreRuns Acts; simp only [clean_iff]; decide +kernel

theorem witness_drain_write :
    let w : DrainWrite := ⟨0, [(spdBase 0, [1, 2, 3, 4])], 0, none⟩
    let s := st (up.onMe 0 (fun m => { m with writes := [w] }))
    CoreRuns s 0 ∧ (s.dev.core 0).me.writes = w :: [] ∧ ∀ x ∈ w.writes, Clean s.dev x.1 x.2.length := by
  unfold CoreRuns Acts; simp only [clean_iff]; decide +kernel

theorem witness_engine_controls :
    (∀ e ∈ [(1, RK.meCtrl), (2, .veCtrl), (3, .fteCtrl)],
      let s := st (up.onEng 0 e.1 (fun g => { g with halt := true, haltHead := true, queue := [⟨0, [], [], [], false⟩] }))
      HostReaches s ⟨e.2, [0]⟩ ∧ ((s.dev.core 0).eng e.1).halt = true) ∧
    (HostReaches (st up) ⟨.meCtrl, [0]⟩ ∧ up.colTesting 0 = false ∧ (up.core 0).engIdle 1 = true) ∧
    (∀ k ∈ [0, 447], let r : Reg := ⟨.meColumn, [24 * (k / 28)]⟩
      let s := st ((up.setReg r (up.reg r ||| 64)).onPhys 447 (fun p => { p with column := p.column ||| 64 }))
      Acts s ∧ (s.dev.columnOf k).getLsbD 6 = true) ∧
    (let r : Reg := ⟨.meColumn, [0]⟩
     let s := st (up.setReg r (64 + 32 + 5))
     Acts s ∧ (s.dev.columnOf 0).getLsbD 6 = true ∧ (s.dev.columnOf 0).getLsbD 5 = true ∧ 4 ≠ fld 4 0 (s.dev.columnOf 0) ∧
       (s.dev.physCore 0).logical < 24) := by
  unfold HostReaches Acts; decide +kernel

/-- A copy of 64 bytes and a gather of one granule (from HBM) and a zeroing of 64 bytes, at the head of the fetch queue. -/
theorem witness_fetch_begins :
    ∀ e ∈ [(1, FteKind.copy, iw [(46, 1), (42, 2), (28, 3), (16, 255)]),
        (2, .gather, iw [(46, 4), (42, 2), (38, 1), (23, 5), (15, 255)]), (3, .zero, iw [(42, 2), (23, 6)])],
      let x : QEntry := ⟨e.2.2.word 3 e.1, [(5, 1), (6, 64)],
        [(1, win (spdBase 0) 64), (2, win (spdBase 0 + 64) 64), (4, win 0 1024)], [(3, desc [(0, 64), (32, 1)])], false⟩
      let s := headAt 3 (e.2.2.word 3 e.1) {} x
      CoreRuns s 0 ∧ AtHead s.dev 0 3 (e.2.2.word 3 e.1) x [] ∧
        (match e.2.1 with
          | .copy => s.dev.copyCheck 0 e.2.2 x
          | .gather => s.dev.gatherCheck 0 e.2.2 x
          | .zero => s.dev.zeroCheck 0 e.2.2 x) = none ∧
        (s.dev.core 0).fte.sending = false ∧ (s.dev.core 0).fte.sourceHeld e.2.1 x = false := by
  unfold CoreRuns Acts AtHead; decide +kernel

theorem witness_cancel :
    ∀ i ∈ [iw [(16, 255)], iw [(15, 1)]], let s := at_ 3 4 i
      CoreRuns s 0 ∧ AtPc s.dev 0 3 4 i ∧ Enabled s.dev 0 i ∧ i.f 49 24 = 0 ∧ i.f 14 0 = 0 ∧ (i.f 15 15 = 1 → i.f 23 16 = 0) ∧
        s.dev.engClock 0 3 = 2 := by
  unfold CoreRuns Acts AtPc Enabled; decide +kernel

theorem witness_fetch_request :
    let i := iw [(46, 1), (42, 2), (28, 3), (16, 255)]
    let x : QEntry := ⟨i.word 3 1, [], [(1, win (spdBase 0) 64), (2, win (spdBase 0 + 64) 64)], [(3, desc [(0, 64), (32, 1)])], false⟩
    let r : FteRun := ⟨1, .copy, x, 255, 1, 0, 0, false, []⟩
    let y : FteRun := ⟨0, .copy, x, 255, 1, 1, 1, false, []⟩
    let s := st (up.onFte 0 (fun f => { f with runs := [y, r] }))
    let f := (s.dev.core 0).fte
    CoreRuns s 0 ∧ f.runs = [y] ++ r :: [] ∧ (∀ z ∈ [y], z.total ≤ z.next) ∧ (∀ z ∈ [y] ++ [], z.id ≠ r.id) ∧
      r.next < r.total ∧ f.eng.halt = false ∧ r.entry.word = i.word 3 1 ∧
      (let n := ftePlaces 0 .copy (fteCopyPieces r.entry r.next); n = 0 ∨ f.places + n ≤ 512) := by
  unfold CoreRuns Acts; decide +kernel

theorem witness_fetch_return :
    ∀ k ∈ [FteKind.copy, .zero],
      let src := spdBase 0
      let dst := spdBase 0 + 64
      let r : FteRun := ⟨1, k, ⟨0, [], [], [], false⟩, 0, 1, 1, 1, false, []⟩
      let q : FteReq := { run := 1, pieces := [(src, dst, 64)] }
      let s := st (up.onFte 0 (fun f => { f with runs := [r], reqs := [q] }))
      let f := (s.dev.core 0).fte
      CoreRuns s 0 ∧ f.reqs = q :: [] ∧ f.runs.find? (fun y => y.id = q.run) = some r ∧ s.dev.memHeld src = false ∧
        4 * hbmTileBytes ≤ src ∧ (∀ i, i < 64 → s.dev.sramOf (s.dev.corePart 0) (src + i) = true) ∧
        s.dev.memHeld dst = false ∧ 4 * hbmTileBytes ≤ dst ∧ s.dev.cutFrom 0 src = false ∧ s.dev.cutFrom 0 dst = false ∧
        Clean s.dev src 64 ∧ Clean s.dev dst 64 := by
  unfold CoreRuns Acts; simp only [clean_iff]; decide +kernel

/-! ## Banks, DMA, remote transfers -/

theorem witness_banks :
    (let s := st ({ up with mem := { wback := [spdBase 0 / 8] } } : Dev)
     Acts s ∧ spdBase 0 / 8 ∈ s.dev.mem.wback) ∧
    (∀ u ∈ [SramId.spd 0, .grv 0], let s := st ((up.setReg ⟨.spdCfg, [0]⟩ 0x101).setReg ⟨.grvCfg, [0]⟩ 0x101)
      let b := match u with | .spd _ => 31 | .grv _ => 79
      let w0 := (sramBase (sramKey u) + s.dev.rowOffset (sramKey u) b 0) / 8
      Acts s ∧ (s.dev.reg (sramReg (sramKey u) .spdCfg .grvCfg)).getLsbD 8 = true ∧
        s.dev.bankState (sramKey u) b = .on ∧ ((s.dev.sram (sramKey u)).bank b).pos = 0 ∧
        b < s.dev.bankCount (sramKey u) ∧
        ∀ j, j < 8 → FMap.getD s.dev.mem.err (w0 + j) 0 = 0 ∧ NSet.has s.dev.mem.poison (w0 + j) = false ∧
          s.dev.sramAt (8 * (w0 + j)) ≠ none) ∧
    (HostReaches (st up) ⟨.spdPwrReq, [0]⟩ ∧ HostReaches (st up) ⟨.grvPwrReq, [0, 79 / 32]⟩ ∧ 31 < up.bankCount 0 ∧
      79 < up.bankCount (sramKey (.grv 0))) ∧
    ∀ e ∈ [(BankState.enterRet, BankReq.ret), (.wake, .on), (.down, .off), (.up, .on)],
      let s := st (up.onSram 0 (fun x => x.onBank 31 (fun k => { k with st := e.1, req := e.2 })))
      Acts s ∧ 31 < s.dev.bankCount 0 ∧ ((s.dev.sram 0).bank 31).st = e.1 ∧ ((s.dev.sram 0).bank 31).req = e.2 := by
  unfold HostReaches Acts; decide +kernel

/-- A descriptor of one line of 8 bytes within core 0's scratchpad; N and IRQ as given. -/
def oneLine (w6 : Nat) : DmaDesc :=
  ⟨spdBase 0 + 4096, [spdBase 0, spdBase 0 + 64, 8 + 2 ^ 32, 0, 8 + 2 ^ 32, 0, w6, 1], false, 0⟩

/-- A device whose DMA engine of cluster 0 runs it on channel 15, in channel state x. -/
def dmaAt (r : DmaRun) (x : DmaCh) : State := st (up.onDma 0 (fun _ => { chans := [(15, x)], queue := [15], run := some r }))

theorem witness_dma :
    (let s := st (up.onDma 0 (fun _ => { chans := [(15, { st := .queued, batch := [oneLine 0] })], queue := [15] }))
     Acts s ∧ s.dev.tileOn (0 / 4) = true ∧ s.dev.clusterClock 0 0 = 2 ∧ (s.dev.dmaEng 0).run = none ∧
       (s.dev.dmaEng 0).queue = 15 :: [] ∧ ((s.dev.dmaEng 0).chan 15).batch = oneLine 0 :: []) ∧
    (let r : DmaRun := { ch := 15, desc := oneLine 0 }
     let s := dmaAt r { st := .run }
     let src := spdBase 0
     let dst := spdBase 0 + 64
     Acts s ∧ s.dev.tileOn (0 / 4) = true ∧ s.dev.clusterClock 0 0 = 2 ∧ (s.dev.dmaEng 0).run = some r ∧ r.ends = none ∧
       r.desc.cvu = 0 ∧ r.desc.swin = 0 ∧ r.desc.dwin = 0 ∧ r.issued < r.desc.total ∧
       min 512 (min (r.desc.sline - r.issued % r.desc.sline) (r.desc.dline - r.issued % r.desc.dline)) = 8 ∧
       (((bits 47 0 (r.desc.w 0) : Nat) : Int) + r.desc.src r.issued).toNat = src ∧
       (((bits 47 0 (r.desc.w 1) : Nat) : Int) + r.desc.dst r.issued).toNat = dst ∧ isSlow (bits 47 0 (r.desc.w 1)) = false ∧
       4 * hbmTileBytes ≤ src ∧ 4 * hbmTileBytes ≤ dst ∧ isSlow dst = false ∧ s.dev.memHeld src = false ∧
       s.dev.memHeld dst = false ∧ s.dev.cutFrom 0 src = false ∧ s.dev.cutFrom 0 dst = false ∧ (∀ i, i < 8 → s.dev.sramOf (s.dev.clusterPart 0) (src + i) = true) ∧ Clean s.dev src 8 ∧ Clean s.dev dst 8) := by
  unfold Acts; simp only [clean_iff]; decide +kernel

/-- The end of the last descriptor of a batch, with and without a signal; an abort and its end. -/
theorem witness_dma_ends :
    (∀ w6 ∈ [0, 5 + 2 ^ 14 + 2 ^ 30],
      let r : DmaRun := { ch := 15, desc := oneLine w6, issued := 8, moved := 8 }
      let s := dmaAt r { st := .run }
      Acts s ∧ s.dev.tileOn (0 / 4) = true ∧ (s.dev.dmaEng 0).run = some r ∧ r.ends = none ∧ r.outst = [] ∧ r.inflight = 0 ∧
        r.folding = false ∧ r.desc.total ≤ r.moved ∧ ((s.dev.dmaEng 0).chan r.ch).batch = [] ∧ r.desc.addr % 8 = 0 ∧
        Clean s.dev (r.desc.addr + 56) 8 ∧ (r.desc.n = 0 ↔ w6 = 0) ∧ (r.desc.irq = true ↔ w6 ≠ 0)) ∧
    (let r : DmaRun := { ch := 15, desc := oneLine 0 }
     let s := dmaAt r { st := .run }
     let u := st ({ up with stalling := true } : Dev)
     HostReaches u ⟨.dmaChCtrl, [0, 15]⟩ ∧ u.dev.stalling = true ∧ s.dev.stalling = false ∧
       HostReaches s ⟨.dmaChCtrl, [0, 15]⟩ ∧ (s.dev.dmaEng 0).run = some r ∧ r.ch = 15 ∧ r.ends = none ∧
       ((s.dev.dmaEng 0).chan 15).st = .run) ∧
    (let r : DmaRun := { ch := 15, desc := oneLine 0, ends := some (2, 0x0802) }
     let s := dmaAt r { st := .aborting, cause := some .software }
     Acts s ∧ s.dev.tileOn (0 / 4) = true ∧ (s.dev.dmaEng 0).run = some r ∧ r.ch = 15 ∧
       ((s.dev.dmaEng 0).chan 15).st = .aborting ∧ ((s.dev.dmaEng 0).chan 15).cause = some .software ∧
       ((s.dev.dmaEng 0).chan 15).batch = [] ∧ r.outst = [] ∧ r.inflight = 0 ∧ r.folding = false ∧ r.desc.addr % 8 = 0 ∧
       Clean s.dev (r.desc.addr + 56) 8) := by
  unfold HostReaches Acts; simp only [clean_iff]; decide +kernel

/-- An inbound window over 64 bytes of core 0's scratchpad, for device 7. -/
def windowed : Dev :=
  (up.setReg ⟨.dmaInwinBase, [0, 63]⟩ (BitVec.ofNat 64 (spdBase 0))).setReg ⟨.dmaInwinCfg, [0, 63]⟩
    (BitVec.ofNat 64 (7 + 2 ^ 18 + 2 ^ 19 + 2 ^ 20 + 64 * 2 ^ 24))

theorem witness_remote :
    let a := spdBase 0
    let wr : Packet := { dst := 0, src := 7, addr := a, vc := 2, type := 0x01, len := 64, payload := List.replicate 64 9 }
    let rd : Packet := { dst := 0, src := 7, addr := a, vc := 2, type := 0x02, len := 0, want := 64 }
    let s := st windowed
    Acts s ∧ s.dev.addrPart a = some 0 ∧ 4 * hbmTileBytes ≤ a ∧ isSlow a = false ∧
      s.dev.inWin 0 63 a wr.payload.length wr.src true = true ∧ wr.bad = [] ∧ Clean s.dev a 64 ∧
      s.dev.inWin 0 63 a rd.want rd.src false = true ∧ 0 < rd.want ∧
      (∀ i, i < rd.want → s.dev.sramOf 0 (a + i) = true) ∧
      (∀ i, i < 64 → up.inWin 0 i a wr.payload.length wr.src true = false) ∧ Acts (st up) ∧ up.addrPart a = some 0 := by
  unfold Acts; simp only [clean_iff]; decide +kernel

theorem witness_remote_answers :
    let r : DmaRun := { ch := 15, desc := oneLine 0, issued := 8, outst := [⟨3, 7, 0, 8⟩] }
    let s := dmaAt r { st := .run }
    let pkt : Packet := { dst := 0, src := 7, addr := 0, vc := 2, type := 0x03, len := 8, tag := 3, payload := List.replicate 8 1 }
    let dst := (((bits 47 0 (r.desc.w 1) : Nat) : Int) + r.desc.dst 0).toNat
    Acts s ∧ s.dev.dmaWaiting pkt = some (0, r, ⟨3, 7, 0, 8⟩) ∧ r.desc.cvu = 0 ∧ pkt.bad = [] ∧ pkt.payload.length = 8 ∧
      isSlow (bits 47 0 (r.desc.w 1)) = false ∧ 4 * hbmTileBytes ≤ dst ∧ isSlow dst = false ∧ Clean s.dev dst 8 ∧ pkt.vc % 4 ≠ 1 ∧ r.ends = none := by
  unfold Acts; simp only [clean_iff]; decide +kernel

theorem witness_window :
    ∀ e ∈ [(spdBase 0, true), (spdBase 384, false)],
      let s := st (up.setReg ⟨.dmaInwinBase, [0, 63]⟩ (BitVec.ofNat 64 e.1))
      let cfg : Word := BitVec.ofNat 64 (7 + 64 * 2 ^ 24)
      let base := s.dev.regFld ⟨.dmaInwinBase, [0, 63]⟩ 47 0
      HostReaches s ⟨.dmaInwinCfg, [0, 63]⟩ ∧ s.dev.rangeOf 0 base (base + fld 63 24 cfg) = e.2 := by
  unfold HostReaches Acts; decide +kernel

/-! ## The time base and staged commit -/

/-- A device that acts with this time base, as a candidate with PRIO 5 and port 0 trained. -/
def timed (x : TempoUnit) : Dev := ({ up with tmp := x, ports := [(0, { st := .up }), (1, { st := .standby })] } : Dev).setReg ⟨.tmpRole, []⟩ 5

theorem witness_acquisition :
    ∀ x ∈ ([{ acq := .coarse, run := 16 }, { acq := .fine, run := 64 }, { acq := .locked, bad := 4 }, { acq := .locked, missed := 2 },
        { acq := .holdover, edges := 256 }, { acq := .holdover, missed := 3, king := some (9, 1) },
        { acq := .holdover, edges := 16 }, { acq := .free, count := 256 }] : List TempoUnit),
      let s := st (timed x)
      Acts s ∧ s.dev.tmp = x ∧ s.dev.candidate = true ∧ (x.king.isSome = true → s.dev.tmpRole = 2) := by
  unfold Acts; decide +kernel

theorem witness_time_messages :
    (∀ a ∈ [Acq.coarse, .fine, .locked], ∀ e ∈ [({ fullSync with tempo := 7, king := 9, hops := 96, period := 16, arrival := 32000 }, 0),
        ({ fullSync with tempo := 7, king := 9, hops := 96, period := 17, arrival := 32000 }, 1),
        ({ fullSync with king := 9, hops := 96, period := 16 }, 2),
        ({ fullSync with tempo := 7, king := 9, hops := 96, period := 16, arrival := 32001 }, 2)],
      let m : SyncMsg := e.1
      let s := st ({ timed { acq := a, king := some (9, 1), parent := some 0 } with tempo := 7 } : Dev)
      let off := m.arrival - m.edge - m.corr
      let step := tempoAt m m.arrival ≠ s.dev.tempo ∨ 32000 < off.natAbs
      Acts s ∧ 0 ∈ s.dev.trainedPorts ∧ 5 ≤ s.dev.sec.stage ∧ m.hops ≤ 96 ∧ s.dev.tmp.acq = a ∧
        s.dev.tmp.king = some (m.king, 1) ∧ s.dev.regFld ⟨.tmpRole, []⟩ 18 18 = 0 ∧ s.dev.tmp.parent = some 0 ∧
        (step ↔ e.2 = 2) ∧ (m.period = s.dev.period ↔ e.2 ≠ 1) ∧ m.period < 2048 ∧ m.period ≠ s.dev.tmp.next ∧
        s.dev.tempo ≤ m.tempo) ∧
    (let s := st (timed {})
     Acts s ∧ 0 ∈ s.dev.trainedPorts ∧ 5 ≤ s.dev.sec.stage ∧ s.dev.candidate = true ∧ s.dev.tmp.acq = .free ∧ (254 : Nat) < 255 ∧
       262143 ≠ s.dev.ownId ∧ s.dev.tmp.king.map Prod.fst ≠ some 262143) := by
  unfold Acts; decide +kernel

/-- A register of set 0 with staged fields. -/
def stagedReg : Reg := ⟨.prtShape, []⟩

theorem witness_tempo :
    (Acts (st up) ∧ 5 ≤ up.sec.stage ∧ up.stalling = false) ∧
    (∀ ag ∈ [Agent.host, .core 0, .hart 13],
     let s := st ({ up with stalling := true, stalled := [.write ag 0 stagedReg.addr 3 1] } : Dev)
     Acts s ∧ 5 ≤ s.dev.sec.stage ∧ s.dev.stalling = true ∧ s.dev.stalled = [.write ag 0 stagedReg.addr 3 1] ∧
       regAt stagedReg.addr = some stagedReg ∧ stagedReg.k ≠ .dmaChCtrl ∧ 3 &&& s.dev.rwtMask stagedReg ≠ 0 ∧ FMap.find? (s.dev.set_ (s.dev.setOf stagedReg)).writes stagedReg.addr = none ∧
       (s.dev.set_ (s.dev.setOf stagedReg)).writes.length < 4096) ∧
    (∀ us ∈ [1, 2047], let s := st ({ up with tmp := { next := us, at_ := 7 }, tempo := 7, parts := [(0, { st := .running })] } : Dev)
      Acts s ∧ us = s.dev.tmp.next ∧ us ≠ 0 ∧ us < 2048 ∧ s.dev.tmp.at_ ≤ s.dev.tempo ∧ s.dev.period ≠ us ∧
        (s.dev.part 0).st = .running ∧ s.dev.regFld ⟨.tmpBudget, [0]⟩ 42 32 ≠ us) := by
  unfold Acts; decide +kernel

theorem witness_staged :
    ∀ e ∈ [(true, ([] : FMap StagedWrite)), (false, []), (false, [(stagedReg.addr, ⟨1, 1, 0⟩)])],
      let s := st ({ up with stalling := e.1, sets := [(0, { writes := e.2 })] } : Dev)
      Reaches s .host stagedReg ∧ stagedReg.addr % 8 = 0 ∧ regAt stagedReg.addr = some stagedReg ∧
        s.dev.rwtMask stagedReg ≠ 0 ∧ stagedReg.k ≠ .dmaChCtrl ∧ s.dev.stalling = e.1 ∧
        FMap.find? (s.dev.set_ (s.dev.setOf stagedReg)).writes stagedReg.addr = FMap.find? e.2 stagedReg.addr ∧
        (s.dev.set_ (s.dev.setOf stagedReg)).writes.length < 4096 ∧ ∀ k, k < 5 → HostReaches s ⟨.tmpStageCtrl, [k]⟩ := by
  unfold Reaches HostReaches Acts
  intro e he
  refine ⟨⟨?_, ?_, (fun c h => nomatch h), ?_, ?_, ?_⟩, ?_⟩ <;> revert e <;> decide +kernel

/-- A set that passed its check, and one that did not. -/
theorem witness_commit :
    ∀ v ∈ [(⟨0, 0, 0⟩ : Verdict), ⟨15, 2 ^ 48 - 1, 63⟩],
      let d : Dev := { up with sets := [(0, { writes := [(stagedReg.addr, ⟨3, 2, 0x1FF⟩)], verdict := some v })] }
      (d.set_ 0).verdict = some v ∧ v.reason < 16 ∧ v.addr < 2 ^ 48 ∧ v.bit_ < 64 ∧ FMap.sorted 0 (d.set_ 0).writes = true ∧
        regAt stagedReg.addr = some stagedReg ∧ accMask [.rwt] stagedReg.k ≠ 0 ∧
        stagedReg.k ∉ [RK.tmpPeriod, .tmpDmCtrl, .dvoPortCfg, .dmaChRing, .dmaChCtrl, .pwrTile] ∧
        (d.set_ 0).writes = [(stagedReg.addr, ⟨3, 2, 0x1FF⟩)] := by
  decide +kernel

/-- Writes of a lockable field, unlocked and locked; of a write-1-to-clear field; by half words; where no register is. -/
theorem witness_register :
    (∀ e ∈ [((⟨.hbmCfg, [3]⟩ : Reg), 0), (⟨.tmpRole, []⟩, 0), (⟨.tmpRole, []⟩, 63), (⟨.tmpEvent, []⟩, 0)],
      let s := st ({ up with sec := { stage := 7, locks := e.2 } } : Dev)
      Reaches s .host e.1 ∧ PlainKind e.1.k = true ∧ busPlace e.1.addr 8 = some (e.1, BitVec.allOnes 64, 0) ∧
        busPlace (e.1.addr + 4) 4 = some (e.1, maskOf 63 32, 32) ∧ (s.dev.locked e.1.k = false ↔ e.2 = 0)) ∧
    accMask [.rwl] .tmpRole ≠ 0 ∧ Acts (st up) ∧ busPlace 0x0FFFFFFFFFF8 8 = none := by
  unfold Reaches Acts
  refine ⟨?_, ?_⟩
  · intro e he
    refine ⟨⟨?_, ?_, (fun c h => nomatch h), ?_, ?_, ?_⟩, ?_⟩ <;> revert e <;> decide +kernel
  · decide +kernel

/-! ## Clocks, power, reset -/

theorem witness_clocks :
    (∀ r ∈ [clkReg true 0, clkReg false 0], HostReaches (st up) r) ∧
    ∀ core ∈ [true, false], ∀ e ∈ [(1, true), (1, false), (3, true), (3, false)], ∀ k, k < 3 →
      let r := clkReg core 0
      let s := st (up.setReg r (BitVec.ofNat 64 ((if e.2 then 2 ^ k else 0) + e.1 * 2 ^ (2 * k + 8))))
      Acts s ∧ s.dev.clkState core 0 (k + 1) = e.1 ∧ (s.dev.reg r).getLsbD k = e.2 := by
  unfold HostReaches Acts; decide +kernel

theorem witness_plls :
    ∀ k ∈ [0, 7, 8, 31, 32, 33], ∀ x ∈ [({ lock := true } : Pll), { lock := true, unlocks := 1, win := 1 }, { unlocks := 255, win := 1 }],
      let s := st (up.onPll k (fun _ => x))
      Acts s ∧ s.dev.pll k = x ∧ x.failed = false ∧ (s.dev.lost k = true ↔ x.lock = false) := by
  unfold Acts; decide +kernel

theorem witness_power :
    (∀ v ∈ [0, 4], let s := st (up.onTile 3 (fun x => { x with cap := 2, volt := v, stepTo := 2, want := 2, stepping := true }))
      Acts s ∧ (s.dev.ptile 3).stepping = true) ∧
    (∀ e ∈ [(0, 1, none), (1, 0, none), (0, 2, none), (2, 0, none), (0, 1, some 0)],
      let s := st (up.onTile 3 (fun x => { x with st := .moving e.1 e.2.1, wait := e.2.2 }))
      Acts s ∧ (s.dev.ptile 3).st = .moving e.1 e.2.1 ∧ (s.dev.ptile 3).wait = e.2.2) ∧
    (15 / 4 = 3 ∧ (up.ptile 3).st = .run) := by
  unfold Acts; decide +kernel

theorem witness_inputs :
    (∀ r ∈ [true, false], ∀ v ∈ [true, false], let s := st ({ up with resetN := r, vin := v } : Dev)
      s.dev.resetN = r ∧ s.dev.vin = v) ∧ Acts (st up) := by
  unfold Acts; decide +kernel

/-! ## Start-up, security root, JTAG -/

/-- An image of a kind with its digest, and one without. -/
def goodImage (k : Nat) : FlashImage := { kind := k, digest := shake256 [] }
@[inherit_doc goodImage] def badImage (k : Nat) : FlashImage := { kind := k, digest := [] }

theorem shake_empty_ne_nil : shake256 [] ≠ [] := by decide +kernel

theorem witness_images (k : Nat) : imageOk (goodImage k) = true ∧ imageOk (badImage k) = false :=
  ⟨decide_eq_true rfl, decide_eq_false shake_empty_ne_nil⟩

/-- A vendor's manifest whose images pass; one without images; an owner's whose key is none. -/
theorem witness_manifests :
    (let m : Manifest := { images := [goodImage 1, goodImage 2, goodImage 3] }
     ∀ k, k ∈ [1, 2, 3] → (imageOf m k).any imageOk = true) ∧
    (imageOf {} 1).any imageOk = false ∧ up.slotOk {} = false ∧ up.ownerOk {} = false := by
  refine ⟨fun k hk => ?_, by decide, by decide +kernel, by decide +kernel⟩
  simp only [List.mem_cons, List.not_mem_nil, or_false] at hk
  rcases hk with rfl | rfl | rfl <;> simp [imageOf, goodImage, imageOk]

/-- Stage 6 with and without a column test, and of a device that has lost its time base. -/
theorem witness_selftest :
    ∀ e ∈ [(Acq.locked, false), (.locked, true), (.free, false)],
      let d : Dev := { up with sec := { stage := 6 }, tmp := { acq := e.1 } }
      let s := st (if e.2 then d.onColumn 5 (setFld 6 6 1) else d)
      Acts s ∧ s.dev.sec.stage = 6 ∧ (s.dev.synced = true ↔ e.1 = .locked) ∧ s.dev.inService 5 = true ∧
        s.dev.colTesting 5 = e.2 ∧ s.dev.mem.err = [] ∧ (s.dev.core 5).engIdle 1 = true := by
  unfold Acts; decide +kernel

theorem witness_start_up :
    (∀ n ∈ [1, 2, 3, 4, 5, 6], ∀ own ∈ [true, false],
      let s := st ({ up with sec := { stage := n }, fuses := { ownerSet := own }, tmp := { acq := .locked } } : Dev)
      Acts s ∧ s.dev.sec.halted = false ∧ s.dev.sec.stage = n ∧ s.dev.sec.memDone = false ∧ s.dev.fuses.ownerSet = own ∧
        s.dev.synced = true ∧ ∀ t, t < 4 → (s.dev.ptile t).st = .run) ∧
    (let s := st ({ up with sec := { stage := 3 }, pwr := [] } : Dev)
     Acts s ∧ s.dev.sec.stage = 3 ∧ s.dev.sec.halted = false ∧ (s.dev.ptile 3).st ≠ .run) := by
  unfold Acts; decide +kernel

/-- The security root in the states of its clauses. -/
theorem witness_security :
    let s := st ({ up with sec := { stage := 7, attest := true, token := true, svns := [0, 3] } } : Dev)
    let u := st ({ up with sec := { stage := 7, scrub := some 4, grants := [(3, ⟨1, 9, [], 0⟩)] } } : Dev)
    (Acts s ∧ s.dev.lost 33 = false ∧ s.dev.sec.attest = true ∧ s.dev.sec.token = true ∧ s.dev.fuses.ownerSet = false ∧ s.dev.secState = 1 ∧
      s.dev.sec.stage = 7 ∧ s.dev.sec.highest = true) ∧
    (Acts (st up) ∧ up.sec.token = false ∧ up.sec.scrub = none) ∧
    (Acts u ∧ u.dev.sec.scrub = some 4 ∧ FMap.find? u.dev.sec.grants 3 = some ⟨1, 9, [], 0⟩) ∧
    (∀ x ∈ ([{ stage := 6 }, { stage := 7, highest := false }] : List Sec), let v := st ({ up with sec := x } : Dev)
      Acts v ∧ (v.dev.sec.stage ≠ 7 ∨ v.dev.sec.highest = false)) := by
  unfold Acts; decide +kernel

/-- A token buffer of zeros fails the first condition. -/
theorem witness_token_refused : (up.tokenReason (up.tokenBytes.take 5333)).1 = 1 := by decide +kernel

theorem witness_jtag :
    (∀ n ∈ [0, 4], let d : Dev := { vin := true, resetN := true, fuses := { state := n } }
      d.vin = true ∧ (d.fuses.state = 0 ∨ d.fuses.state = 4) ∧ (∀ t, t < 4 → (d.ptile t).st = .off) ∧ d.live = true ∧
        d.secState = n) ∧
    (up.vin = true ∧ ¬(up.fuses.state = 0 ∨ up.fuses.state = 4) ∧ up.live = true ∧ up.secState = 1 ∧
      inRegion 0 = false ∧ inRegion 0x0FFFFFFFFFF8 = true ∧ regAt 0x0FFFFFFFFFF8 = none) ∧
    (({} : Dev).vin = true ∧ ({} : Dev).live = false ∧ ({} : Dev).fuses.state = 1) ∧
    (inHub hubBase = true ∧ hubBase % 8 = 0) := by
  decide +kernel

/-! ## The Hub and the management port -/

theorem witness_hub :
    (let r : Raised := ⟨0x0509, .info, some 0, 0, 0, 0⟩
     ∀ e ∈ [(0, true), (1, false)],
       let s := st (({ up with raised := [r] } : Dev).setReg ⟨.hubEvq, []⟩ (BitVec.ofNat 64 (4 * 2 ^ 28 + 15 * 2 ^ 32 + e.1 * 2 ^ 48 +
         (if e.2 then 2 ^ 48 else 0) - e.1 * 2 ^ 48)))
       let v := s.dev.reg ⟨.hubEvq, []⟩
       Acts s ∧ s.dev.raised = r :: [] ∧
         (if e.2 then (fld 46 32 v % evqSize v + 1) % evqSize v ≠ fld 62 48 v % evqSize v
          else (fld 46 32 v % evqSize v + 1) % evqSize v = fld 62 48 v % evqSize v)) ∧
    (∀ r ∈ [(⟨.hubMboxUpPush, [0]⟩ : Reg), ⟨.hubMboxDownPush, [0]⟩, ⟨.hubMboxUpPop, [0]⟩, ⟨.hubMboxDownPop, [0]⟩],
      HostReaches (st up) r) ∧
    (∀ n ∈ [0, 63, 64], let s := st ({ up with mail := [(0, List.replicate n 7), (1, List.replicate n 7)] } : Dev)
      Acts s ∧ (FMap.getD s.dev.mail 0 []).length = n) ∧
    (up.hartOf 13 = some 13 ∧ ∃ j, j < 16 ∧ (up.hart j).st = .spare) ∧
    (let d : Dev := { up with harts := [(14, { st := .retired, logical := 0xF }), (15, { st := .retired, logical := 0xF })] }
     Acts (st d) ∧ d.hartOf 13 = some 13 ∧ ¬∃ j, j < 16 ∧ (d.hart j).st = .spare) ∧
    (let d : Dev := { up with harts := [(13, { st := .fenced, logical := 13 })] }
     Acts (st d) ∧ (d.hart 13).st = .fenced ∧ (d.hart 13).logical = 13 ∧ (d.hart 14).st = .spare ∧
       (∀ i, i < 13 → (d.hart i).st ≠ .fenced ∨ (d.hart i).logical ≠ 13) ∧ ∀ i, i < 14 → (d.hart i).st ≠ .spare) ∧
    ((hubBase + 8) % 8 = 0 ∧ inHub (hubBase + 8) = true ∧ inHub (hubBase + 2 ^ 28 - 1) = true) := by
  unfold HostReaches Acts; decide +kernel

/-- Frames and a session: a descriptor of 64 bytes owned by the port at the head of each ring, and none. -/
theorem witness_management :
    (Acts (st up) ∧ up.mgtUp = false) ∧
    (let d0 : Dev := { up with mgtUp := true }
     let d : Dev := { d0 with mem := d0.mem.putAll (hubAt 0) (bytesOf 8 (hubBase + 4096 + 64 * 2 ^ 48 + 2 ^ 62)) }
     let tail : Word := BitVec.ofNat 64 (4 * 2 ^ 28 + 1 * 2 ^ 44)
     let s := st ((d.setReg ⟨.mgtRxq, []⟩ tail).setReg ⟨.mgtTxq, []⟩ tail)
     Acts s ∧ s.dev.mgtUp = true ∧ (∀ k ∈ [RK.mgtRxq, .mgtTxq],
       s.dev.mgtDesc k = some (hubAt 0, hubBase + 4096 + 64 * 2 ^ 48 + 2 ^ 62)) ∧
       64 ≤ bits 61 48 (hubBase + 4096 + 64 * 2 ^ 48 + 2 ^ 62) ∧ d0.mgtDesc .mgtRxq = none ∧ s.dev.session = none) ∧
    (∀ n ∈ [0, 3], let x : Session := { mac := 5, seq := some 1 }
      let f : SvcFrame := { mac := 5, seq := 2, addr := hubBase, len := 1, data := [9] }
      let s := st ({ up with mgtUp := true, session := some x, fuses := { state := n } } : Dev)
      Acts s ∧ s.dev.session = some x ∧ x.mac = f.mac ∧ x.seq ≠ some f.seq ∧ s.dev.secState = n ∧ f.addr % 8 = 0 ∧
        inHub f.addr = true) ∧
    (let s := st ({ up with mgtUp := true, session := some { mac := 5 }, sec := { stage := 1, halted := true } } : Dev)
     Acts s ∧ s.dev.sec.stage = 1 ∧ s.dev.sec.halted = true) ∧
    ((8184 : Nat) % 8 = 0 ∧ 8184 + 8 ≤ 8192) ∧
    (let d : Dev := { up with mgtUp := true }
     d.mgtRuns = true ∧ frameSize 64 = true ∧ frameSize 63 = false ∧ d.frameMine (List.replicate 64 0xFF) = true ∧
       serviceFrame (List.replicate 64 0xFF) = false ∧ d.frameMine (List.replicate 64 1) = false) ∧
    serviceFrame (List.replicate 64 0) = false ∧ serviceFrame (List.replicate 12 0 ++ [0x88, 0xB5, 1]) = true := by
  unfold Acts; decide +kernel

/-! ## Darvo -/

theorem witness_ports :
    (∀ x ∈ ([{ st := .detect }, { st := .train }, { st := .train, fails := 1 }, { st := .lock }, { st := .ident }, { st := .credit },
        { st := .retrain, back := true, pass := .done }, { st := .retrain, fails := 1 }, { st := .retrain, pass := .credit },
        { st := .up, winRetrain := 2 }, { st := .standby, winRetrain := 3 },
        { st := .quarantine }, { st := .failed }] : List Port),
      let s := st (up.onPort 23 (fun _ => x))
      Acts s ∧ HostReaches s ⟨.dvoPortCtrl, [23]⟩ ∧ s.dev.portRuns 23 = true ∧ s.dev.port 23 = x) ∧
    (∀ want ∈ [0x3FFFF, 7, 8],
      ∀ x ∈ ([{ st := .ident }, { st := .retrain, pass := .ident }] : List Port),
      let s := st (((up.onPort 23 (fun _ => x)).setReg ⟨.dvoPortCfg, [23]⟩ 1).setReg ⟨.dvoLink, [0]⟩
        (BitVec.ofNat 64 (want * 16)))
      Acts s ∧ s.dev.port 23 = x ∧ s.dev.portLink 23 < 24 ∧ 7 ≠ s.dev.ownId ∧
        s.dev.regFld ⟨.dvoLink, [s.dev.portLink 23]⟩ 21 4 = want ∧ s.dev.linkPeer 23 = none) ∧
    (∀ e ∈ [(1, false), (1, true), (2, false)],
      let d := ((up.onPort 23 (fun x => { x with st := .credit })).setReg ⟨.dvoPortCfg, [23]⟩ (BitVec.ofNat 64 e.1))
      let s := st (if e.2 then (((d.onPort 0 (fun x => { x with st := .up })).setReg ⟨.dvoPortCfg, [0]⟩ 1).setReg
        ⟨.tmpPortDelay, [23]⟩ (2 ^ 63 + 500001)).setReg ⟨.tmpPortDelay, [0]⟩ (2 ^ 63) else d)
      Acts s ∧ (s.dev.port 23).st = .credit ∧ s.dev.portRole 23 = e.1 ∧ s.dev.skewed 23 = e.2 ∧
        (s.dev.port 23).counted = false ∧ (s.dev.port 23).hold = false) ∧
    (∀ e ∈ [(8, true), (3, false)], let s := st ({ up with meshes := [(3, { shift := e.1 })] } : Dev)
      Acts s ∧ (((s.dev.mesh 3).shift = 8 ∧ (s.dev.mesh 3).shiftDue = .no) ↔ e.2 = true)) ∧
    (let m : Mesh := { failed := [(7, 7), (8, 7)] }
     m.cutOff 7 7 = true ∧ m.cutOff 0 0 = false) := by
  unfold HostReaches Acts; decide +kernel

/-- A packet of TYPE WRITE (VC 2) with an empty payload. -/
def small : Packet := { dst := 3, src := 4, addr := 0, vc := 2, type := 0x01, len := 0 }

/-- A device with port 0 UP on link 0, and the link as given. -/
def linked (x : Link) : Dev :=
  ({ up with ports := [(0, { st := .up })], links := [(0, x)] } : Dev).setReg ⟨.dvoPortCfg, [0]⟩ 1

theorem witness_packets :
    (let x : Link := { resend := [9], unacked := [⟨9, 0, small, false⟩] }
     let s := st (linked x)
     Acts s ∧ s.dev.carrying 0 = some 0 ∧ (s.dev.link 0).resend = 9 :: [] ∧
       (s.dev.link 0).unacked.find? (fun u => u.seq = 9) = some ⟨9, 0, small, false⟩ ∧ s.dev.nextOf 0 0 = none ∧
       ∀ w ∈ (s.dev.link 0).unacked, w.pkt.vc % 4 ≠ 0) ∧
    (let x : Link := { txq := [{ pkt := small }], avail := [(4, 8)], cap := [(4, 8), (5, 8)], sendSeq := 65535 }
     let s := st (linked x)
     Acts s ∧ s.dev.carrying 0 = some 0 ∧ (s.dev.link 0).resend = [] ∧ s.dev.nextOf 0 0 = none ∧ s.dev.nextOf 0 2 = some 0 ∧
       (s.dev.arbTurn 0 0).map Prod.fst = some 2 ∧ s.dev.arbReady 0 ≠ [] ∧ (s.dev.link 0).txq[0]? = some { pkt := small }) ∧
    (let s := st ((linked { txq := [{ pkt := small }], expect := 5 }).onPort 0 (fun x => { x with lost := some 5 }))
     Acts s ∧ s.dev.carrying 0 = some 0 ∧ (s.dev.port 0).lost = some 5 ∧ 6 ≠ 5) ∧
    (∀ p ∈ [small, { small with dst := 0, type := 0x12 }, { small with dst := 0, vc := 3, type := 0x18 }],
      let s := st (linked { expect := 65535 })
      Acts s ∧ s.dev.carrying 0 = some 0 ∧ p.portOwn = false ∧ 65535 = (s.dev.link 0).expect ∧ (s.dev.link 0).rx = [] ∧
        s.dev.rxFits 0 p = true ∧ s.dev.ownId = 0 ∧ p.violation = 0 ∧
        ∀ y ∈ s.dev.ports, y.2.lost = none) ∧
    (small.dst ≠ 0 ∧ 32768 ≤ (65534 + 65536 - 65535) % 65536 ∧ 32768 ≤ (32767 + 65536 - 65535) % 65536) ∧
    (let s := st ({ up with links := [(24, { txq := [{ pkt := { small with vc := 3, type := 0x18 } }] })] } : Dev)
     Acts s ∧ (s.dev.link 24).txq = { pkt := { small with vc := 3, type := 0x18 } } :: [] ∧
       0x18 ∉ [0x01, 0x02, 0x03, 0x04, 0x05, 0x10, 0x11]) := by
  unfold Acts; decide +kernel

theorem witness_link_words :
    (let s := st (linked { ackDue := true })
     Acts s ∧ (s.dev.link 0).ackDue = true ∧ (s.dev.upMembers 0).any s.dev.portRuns = true) ∧
    (let x : Link := { unacked := [⟨65535, 0, small, false⟩, ⟨0, 0, small, false⟩], cap := [(4, 8)], avail := [(4, 7)] }
     let s := st (linked x)
     Acts s ∧ s.dev.carrying 0 = some 0 ∧ (s.dev.link 0).unacked.findIdx? (fun u => u.seq = 0) = some 1 ∧
       (s.dev.link 0).unacked.findIdx? (fun u => u.seq = 1) = none ∧ (s.dev.port 0).winViol < 3 ∧
       FMap.getD (s.dev.link 0).avail (clsKey 2 false) 0 + ((1 : Nat) : Int) ≤ ((FMap.getD (s.dev.link 0).cap (clsKey 2 false) 0 : Nat) : Int) ∧
       ((FMap.getD (s.dev.link 0).cap (clsKey 2 false) 0 : Nat) : Int) < FMap.getD (s.dev.link 0).avail (clsKey 2 false) 0 + ((2 : Nat) : Int)) := by
  unfold Acts; decide +kernel

/-! ## Reduction -/

/-- A device whose partition 0 has stage 1 with these words and activation. -/
def reducing (ws : List Nat) (ins : List (Nat × Nat)) (a : RedAct) : Dev :=
  { up with reds := [(0, { stages := [(1, { words := ws, ins := ins, port := 0, act := some a })] })] }

/-- The one-chunk stage words: KIND, NIN and LOC, the destination device 3 stage 2. -/
def stage (kind nin loc base : Nat) : List Nat :=
  [1 + kind * 2 ^ 12 + nin * 2 ^ 25 + loc * 2 ^ 28, 2 ^ 24, 0, 3 + 2 * 2 ^ 18 + 0xFFF * 2 ^ 50, base, 0, 0, 0]

theorem witness_leaf :
    let a : RedAct := { k := 0, ring := 5, base := 0, granted := true }
    let st1 : RedStage := { words := stage 0 0 1 (spdBase 0), ins := [], port := 0, act := some a }
    let s := st (reducing st1.words [] a)
    Acts s ∧ s.dev.redHeld = [] ∧ s.dev.redStage 0 1 = some st1 ∧ st1.kind = 0 ∧ st1.nin = 0 ∧ st1.loc = true ∧
      a.wait = none ∧ a.abst = none ∧ a.past = false ∧ a.next = a.read ∧ a.read < st1.nch ∧ a.chunks = [] ∧ st1.outs ≠ [] ∧
      (4 * hbmTileBytes ≤ st1.base + 256 * a.read ∧ (∀ i, i < 256 → s.dev.sramOf 0 (spdBase 0 + i) = true) ∧
        Clean s.dev (spdBase 0) 256) := by
  unfold Acts; simp only [clean_iff]; decide +kernel

/-- A chunk of codes 1 with its checksum, at a stage with two inputs of which the other is missing. -/
theorem witness_hop :
    let cs : List Byte := List.replicate 256 1
    let pkt : Packet :=
      { dst := 0, src := 7, addr := 1, vc := 1, type := 0x10, len := 272
        payload := Trailer.bytes ⟨redSum (codesOf cs), 1, 1, 0, false, false, true, 5⟩ ++ cs }
    let a : RedAct := { k := 0, ring := 5, base := 0 }
    ∀ kind ∈ [1, 2], let st1 : RedStage := { words := stage kind 2 0 0, ins := [(8, 1), (7, 1)], port := 0, act := some a }
      let s := st (reducing st1.words st1.ins a)
      let t := Trailer.of pkt.payload
      Acts s ∧ s.dev.redHeld = [] ∧ s.dev.redStage (bits 37 36 pkt.addr) (bits 11 0 pkt.addr) = some st1 ∧
        bits 35 12 pkt.addr = st1.ch0 + 0 ∧ 0 < st1.nch ∧ 1 < st1.nin ∧ st1.primary 1 = pkt.src ∧
        (∀ k, k < 1 → st1.primary k ≠ pkt.src ∧ st1.backup k ≠ some pkt.src) ∧ pkt.payload.length = 272 ∧
        t.zero = true ∧ t.abstain = false ∧ st1.kind = kind ∧ t.ring = a.ring % 2 ^ 32 ∧ (-128 : Int) ∉ codesOf (pkt.payload.drop 16) ∧
        redSum (codesOf (pkt.payload.drop 16)) = t.csum ∧ a.present 0 1 = false ∧ st1.open_ a 0 = true ∧ a.pab = [] ∧
        (a.chunk 0).hold = [] ∧ s.dev.peAccs 0 < 1024 ∧ st1.inputs = [0, 1] ∧ a.present 0 0 = false ∧ st1.absent a 0 0 = false ∧
        a.next = 0 := by
  unfold Acts; decide +kernel

/-- A gathered chunk, into the last HBM page of tile 0; a stage that is not there; updated parameters to send. -/
theorem witness_gather :
    let bs : List Byte := List.replicate 256 1
    let pkt : Packet :=
      { dst := 0, src := 7, addr := 1, vc := 1, type := 0x11, len := 272
        payload := Trailer.bytes ⟨redSum ((halvesOf bs).map Int.ofNat), 0, 0, 0, false, false, true, 6⟩ ++ bs }
    let a : RedAct := { k := 0, ring := 5, base := 0 }
    let st1 : RedStage := { words := [1 + 4 * 2 ^ 12 + 2 ^ 25, 2 * 2 ^ 24, 0, 3 + 2 * 2 ^ 18 + 0xFFF * 2 ^ 50, 0, 0, 0, 0], ins := [(7, 1)], port := 0, act := some a }
    let s := st ({ reducing st1.words st1.ins a with
      gens := [(0, { stages := 1, slots := [(0, { st := .filling, ring := 6, page := 55295, pages := 1 })] })] } : Dev)
    let t := Trailer.of pkt.payload
    let dst := ((s.dev.gen 0).slot 0 0).page * 0x200000 + st1.base + 256 * 0
    Acts s ∧ s.dev.redHeld = [] ∧ s.dev.redStage (bits 37 36 pkt.addr) (bits 11 0 pkt.addr) = some st1 ∧
      bits 35 12 pkt.addr = st1.ch0 + 0 ∧ 0 < st1.nch ∧ 0 < st1.nin ∧ st1.primary 0 = pkt.src ∧ st1.kind = 4 ∧
      pkt.payload.length = 272 ∧ t.zero = true ∧ t.abstain = false ∧ t.ring = (a.ring + 1) % 2 ^ 32 ∧
      redSum ((halvesOf (pkt.payload.drop 16)).map Int.ofNat) = t.csum ∧ NSet.has a.done 0 = false ∧
      a.done.length + 1 ≠ st1.nch ∧ (s.dev.gen 0).filling st1.pstage (a.ring + 1) = some 0 ∧ dst % 64 = 0 ∧
      dst < 4 * hbmTileBytes ∧ s.dev.hbmOf 0 dst = true ∧ up.redStage 0 0xFFF = none := by
  unfold Acts; decide +kernel

/-- A GSEND stage whose context, in fall-back mode, holds the ring that the stage sends. -/
def gsendAct : RedAct := { k := 0, ring := 5, base := 0 }
@[inherit_doc gsendAct] def gsendStage : RedStage := { words := stage 3 0 0 0, ins := [], port := 0, act := some gsendAct }
@[inherit_doc gsendAct] def gsending : Dev := ({ reducing gsendStage.words [] gsendAct with
  nea := [(7, { st := .active, q := 2048, slots := [(0, { st := .committed, ring := 6 })] })] } : Dev).setReg ⟨.neaCtxCtrl, [7]⟩ 12

theorem witness_gsend :
    Acts (st gsending) ∧ gsending.redHeld = [] ∧ gsending.redStage 0 1 = some gsendStage ∧ gsending.ctxOf 0 = some 7 ∧
      gsendStage.kind = 3 ∧ gsendAct.next < gsendStage.nch ∧ gsendStage.param0 = 0 := by
  unfold Acts; decide +kernel

theorem gsending_holds : (gsending.ctx 7).holder 6 0 128 = some 0 ∧ gsending.ctxFb 7 = true := by decide +kernel

/-- Whatever errors the units would meet, a context in fall-back mode gives its parameters. -/
theorem witness_gsend_read (es : ReadErrs) : (gsending.neaHigh 7 6 0 128 es).1.isSome = true := by
  simp [Dev.neaHigh, gsending_holds, Dev.readUnits]

/-! ## Partitions, prunes, check values -/

/-- An image with one word of code for core 0. -/
def image : Image := { cores := [{ core := 0, code := [0] }] }

theorem witness_partitions :
    (∀ x ∈ ([{ st := .free }, { st := .noticed }, { st := .revoking }, { st := .running }, { st := .ended }, { st := .halted },
        { st := .loading }] : List Part),
      let s := st (up.onPart 0 (fun _ => x))
      HostReaches s ⟨.prtCtrl, [0]⟩ ∧ s.dev.sec.scrub = none ∧ s.dev.part 0 = x ∧ x.held = none) ∧
    (let s := st ({ up with tmp := { acq := .locked } } : Dev)
     let d1 := ((s.dev.partTiles 0).foldl (fun (d : Dev) t => d.hbmLoadMapOut t) s.dev.silent).standInLoad 0
     d1.loadReason 0 none = 2 ∧ HostReaches s ⟨.prtCtrl, [0]⟩ ∧ (s.dev.part 0).st = .free) ∧
    (let s := st (up.onPart 0 (fun _ => { st := .revoking }))
     Acts s ∧ s.dev.revoked 0 = true ∧ (s.dev.part 0).loadPending = false) ∧
    (let s := st (up.onPart 0 (fun _ => { st := .loading, loading := some image }))
     Acts s ∧ (s.dev.part 0).loading = some image ∧ image.period = s.dev.period ∧ s.dev.corePart 0 = 0 ∧ s.dev.inService 0 = true ∧
       image.cores.find? (fun (y : ImgCore) => y.core = 0) = some { core := 0, code := [0] } ∧ image.rings = [] ∧ image.nea = none) := by
  unfold HostReaches Acts; decide +kernel

/-- An image of 64 bytes in Hub memory or elsewhere that the loader accepts. -/
theorem witness_load_accepted :
    ∃ s : State, HostReaches s ⟨.prtCtrl, [0]⟩ ∧ (s.dev.part 0).st = .free ∧ s.dev.sec.scrub = none ∧
      (((s.dev.partTiles 0).foldl (fun (d : Dev) t => d.hbmLoadMapOut t) s.dev.silent).standInLoad 0).loadReason 0 (some image) = 0 := by
  refine ⟨st (({ up with tmp := { acq := .locked } } : Dev).setReg ⟨.prtLoadLen, [0]⟩ 64), ?_⟩
  unfold HostReaches Acts; decide +kernel

theorem witness_prunes :
    (HostReaches (st up) ⟨.prtPrune, []⟩ ∧ up.physOf 23 = some 23 ∧ (up.physCore 23).st ≠ .pruned ∧ up.pruning 23 = false) ∧
    (∀ e ∈ [(PartState.running, true), (.running, false), (.free, true)],
      let x : Prune := { core := 23, phys := 23, code := 0x0602, tempo := 0 }
      let d : Dev := { up with prunes := [x], parts := [(0, { st := e.1 })] }
      let s := st (if e.2 then d else (upTo 4).foldl (fun (d : Dev) k => d.onPhys (24 + k) (fun y => { y with st := .retired })) d)
      Acts s ∧ s.dev.prunes.find? (fun (x : Prune) => decide (x.core = 23) && !x.done && decide (some x.phys = s.dev.physOf 23)) =
          some x ∧ s.dev.dmaAbortingOf 23 = false ∧ (s.dev.core 23).fte.reqs = [] ∧ ((s.dev.spareOf 0).isSome = true ↔ e.2 = true)) ∧
    (let s := st (up.onPhys 447 (fun y => { y with fill := 1 }))
     Acts s ∧ (s.dev.physCore 447).fill = 1) := by
  unfold HostReaches Acts; decide +kernel

theorem witness_check_values :
    (∀ n ∈ [0, 32, 55], ∀ e ∈ [(RK.cvuFeedLen, RK.pcvuFeedLen), (.cvuCtrl, .pcvuCtrl)], HostReaches (st up) (cvuReg n e.1 e.2)) ∧
    (let d := up.setReg ⟨.cvuFeedAddr, [0, 0]⟩ (BitVec.ofNat 64 (spdBase 0))
     let a := d.regFld ⟨.cvuFeedAddr, [0, 0]⟩ 47 0
     Acts (st d) ∧ d.cvuBusy 0 = false ∧ d.sramWhole (d.clusterPart 0) a 8 = true ∧
       (d.cvuBad 0 = false → (d.setReg ⟨.cvuCfg, [0, 0]⟩ 0).cvuBad 0 = true) ∧
       (d.setReg ⟨.cvuCfg, [0, 0]⟩ 64).cvuBad 0 = false ∧ (d.setReg ⟨.cvuCfg, [0, 0]⟩ 65).cvuBad 0 = true ∧
       up.sramWhole (up.clusterPart 0) 0 8 = false) ∧
    (let s := st (up.onCvu 0 (fun x => { x with feeding := true, addr := spdBase 0, left := 256 }))
     Acts s ∧ s.dev.tileOn (0 / 2 / 4) = true ∧ (s.dev.cvu 0).feeding = true ∧ s.dev.cvuBusy 0 = true ∧ HostReaches s ⟨.cvuCtrl, [0, 0]⟩ ∧
       Clean s.dev (s.dev.cvu 0).addr (s.dev.cvu 0).left ∧ Clean s.dev (s.dev.cvu 0).addr (min (256 * 1) (s.dev.cvu 0).left)) ∧
    HostReaches (st up) ⟨.cgCtr1, []⟩ := by
  unfold HostReaches Acts; simp only [clean_iff]; decide +kernel

/-! ## HBM, Neano, the slow tier -/

theorem witness_hbm :
    (∀ e ∈ [(0, false), (0, true)],
      let s := st ({ up with mem := { hpoison := if e.2 then [(0, ())] else [] } } : Dev)
      Acts s ∧ s.dev.hbmOpen e.1 = true ∧ s.dev.hbmHeld e.1 = false ∧ NSet.has s.dev.mem.hpoison (e.1 / 64) = e.2 ∧
        (s.dev.hbmLoc e.1).isSome = true) ∧
    (∀ e ∈ ([(⟨[(0, 1), (1, 2), (2, 3)], 0, 0, false, []⟩, false, RsFound.bad), (⟨[(0, 1)], 0, 0, false, []⟩, true, .poison)] :
        List (ReadErr × Bool × RsFound)),
      let s := st ({ up with mem := { hpoison := if e.2.1 then [(0, ())] else [] } } : Dev)
      Acts s ∧ s.dev.hbmLoc (64 * (0 / 64)) = some ⟨0, 0, 0, 0, 0⟩ ∧ e.1.syms ≠ [] ∧ e.1.away = 0 ∧
        hbmFound ((s.dev.hbmTile 0).pc 0).pins (NSet.has s.dev.mem.hpoison (0 / 64)) e.1 = e.2.2) ∧
    (let err : ReadErr := { away := 128 }
     up.hbmLoc 0 = some ⟨0, 0, 0, 0, 0⟩ ∧ (up.hbmAway ⟨0, 0, 0, 0, 0⟩ err.away).isSome = true ∧
       ∃ es, hbmFound ((up.hbmTile 0).pc 0).pins false err = .errs es ∧ ∃ x ∈ es, x.1 < 4) := by
  unfold Acts
  refine ⟨?_, ?_, ?_, ?_, [(0, 0x80)], ?_, ?_⟩ <;> decide +kernel

/-- Without an erased pin up to two changed symbols, with one pin up to one, with two none; a sector led astray by one bit. -/
theorem witness_sector_code :
    ∀ e ∈ ([([], ⟨[(0, 1), (67, 255)], 0, 0, false, []⟩), ([31], ⟨[(0, 1), (62, 9), (63, 7)], 0, 0, false, []⟩),
        ([0, 31], ⟨[(0, 1), (1, 9), (62, 7)], 0, 0, false, []⟩), ([], ⟨[(5, 1)], BitVec.twoPow 32 31, 0, false, []⟩),
        ([4], ⟨[(9, 1)], BitVec.twoPow 32 0, 0, false, []⟩)] : List (List Nat × ReadErr)),
      let s := st ({ up with hbm := [(0, { pcs := [(0, { pins := e.1 })] })] } : Dev)
      let more := (e.2.syms.filter (fun x => !e.1.contains (symPin x.1.val))).length
      Acts s ∧ s.dev.hbmOpen 0 = true ∧ s.dev.hbmHeld 0 = false ∧ s.dev.hbmLoc 0 = some ⟨0, 0, 0, 0, 0⟩ ∧
        ((s.dev.hbmTile 0).pc 0).pins = e.1 ∧ (e.2.syms.map Prod.fst).Nodup ∧ e.2.syms.all (fun x => decide (x.2 ≠ 0)) = true ∧
        (∀ p ∈ e.1, p < 32) ∧ (e.2.away = 0 → more ≤ 2 - e.1.length) ∧ (e.2.away ≠ 0 → e.1.length + more ≤ 1) ∧
        NSet.has s.dev.mem.hpoison 0 = false := by
  unfold Acts; decide +kernel

theorem witness_hbm_upkeep :
    (∀ on ∈ [true, false], let s := st (up.setReg ⟨.hbmCfg, [3]⟩ (if on then 0x1000000 else 0))
      let a := 3 * hbmTileBytes + 95 * 256
      Acts s ∧ (s.dev.hbmTile 3).service.findIdx? (fun x => x = 95) = some 95 ∧ ((s.dev.hbmTile 3).pc 95).scrub = 0 ∧
        s.dev.hbmHeld a = false ∧ (s.dev.hbmCfg 3).getLsbD 24 = on) ∧
    (thermNext 0 200 = 4 ∧ thermNext 0 20 = 0 ∧ thermNext 0 105 = 3) ∧
    (∀ x ∈ [false, true], let s := st ({ up with hbm := [(3, { pcs := [(94, { ifPrev := x }), (95, { ifErr := 3 })] })] } : Dev)
      let h := s.dev.hbmTile 3
      Acts s ∧ (h.pc 95).ifErr = 3 ∧ ((h.pc (95 / 2 * 2)).ifPrev || (h.pc (95 / 2 * 2 + 1)).ifPrev) = x) ∧
    (let s := st ({ up with hbm := [(3, { fixes := [⟨0, false⟩], running := [47] })] } : Dev)
     Acts s ∧ s.dev.lost (4 + 3) = false ∧ (s.dev.hbmTile 3).fixes = ⟨0, false⟩ :: [] ∧ 47 ∈ (s.dev.hbmTile 3).running) := by
  unfold Acts; decide +kernel

/-- A bound context with a committed slot 0. -/
def ctxAt (x : NeaCtx) : State := st ({ up with nea := [(7, x)] } : Dev)

theorem witness_update :
    let x : NeaCtx :=
      { st := .active, q := 2048, slots := [(0, { st := .committed, ring := 5 })], step := some 5, groups := [(255, { count := 2048 })]
        pend := [{ param0 := 2047, ring := 5, vals := [0x3F800000] }] }
    let s := ctxAt x
    Acts s ∧ s.dev.lost 32 = false ∧ (s.dev.ctx 7) = x ∧ s.dev.updateHeld 7 0 [2047] = false ∧ s.dev.ctxFb 7 = false ∧ FMap.find? x.groups 255 = some { count := 2048 } ∧
      x.find .committed = some 0 ∧ x.step = some 5 ∧ (x.build false 6).1 = some 1 ∧
      x.pend.flatMap (fun p => p.within 0 2048) = [(2047, 0x3F800000)] := by
  unfold Acts; decide +kernel

theorem witness_contexts :
    (∀ e ∈ [(SlotState.committed, 5), (.committed, 4), (.previous, 4)],
      let l : NeaLost := { slot := 0, unit := some 0, pkg := 0 }
      let x : NeaCtx := { st := .active, q := 2048, slots := [(0, { st := e.1, ring := 5 })], lost := [l], mirror := e.2 }
      Acts (ctxAt x) ∧ (ctxAt x).dev.lost 32 = false ∧ ((ctxAt x).dev.ctx 7) = x ∧ x.lost.find? (fun l => !l.dead) = some l ∧ (x.slot l.slot).st = e.1 ∧
        (x.ring = some x.mirror ↔ e.2 = 5) ∧ x.find .previous = (if e.1 = .previous then some 0 else none) ∧ (x.slot 0).ring = 5) ∧
    (let l : NeaLost := { slot := 0, unit := some 0, pkg := 0 }
     let x : NeaCtx :=
       { st := .active, q := 2048, slots := [(0, { st := .committed, ring := 5 }), (1, { st := .previous, ring := 4 })]
         lost := [l], mirror := 4 }
     Acts (ctxAt x) ∧ x.lost.find? (fun l => !l.dead) = some l ∧ (x.slot l.slot).st = .committed ∧ x.ring ≠ some x.mirror ∧
       x.find .previous = some 1 ∧ (x.slot 1).ring = x.mirror ∧ (ctxAt x).dev.ctxFb 7 = false ∧ 1 ≠ l.slot) ∧
    (let s := st (up.setReg ⟨.neaCtxArea, [7]⟩ 2048)
     HostReaches s ⟨.neaCtxCtrl, [7]⟩ ∧ (s.dev.ctx 7).st = .free ∧ areaValid 2048 = true ∧ areaGib 2048 ≤ s.dev.freeGib ∧
       s.dev.ctxFb 7 = false ∧ s.dev.placeArea (areaGib 2048) = some 0) ∧
    (∀ x ∈ ([{ st := .active }, { st := .suspended }, { st := .halted }, { st := .importing }, { st := .releasing },
        { st := .importing, slots := [(1, { st := .import_ })] },
        { st := .active, slots := [(0, { st := .committed, ring := 5 }), (1, { st := .import_ })] }] : List NeaCtx),
      HostReaches (ctxAt x) ⟨.neaCtxCtrl, [7]⟩ ∧ Acts (ctxAt x) ∧ ((ctxAt x).dev.ctx 7) = x ∧ (x.spare ((ctxAt x).dev.ctxFb 7)).isSome = true ∧ x.held = []) ∧
    (∀ r ∈ [5, 6], let s := st ((ctxAt { st := .active, slots := [(0, { st := .committed, ring := 5 }), (1, { st := .import_ })] }).dev.setReg
        ⟨.neaCtxImportRing, [7]⟩ (BitVec.ofNat 64 r))
      (s.dev.ctx 7).find .import_ = some 1 ∧ (s.dev.ctx 7).ring = some 5 ∧ (s.dev.ctx 7).held = [] ∧ (s.dev.reg ⟨.neaCtxImportRing, [7]⟩).toNat = r) := by
  unfold HostReaches Acts; decide +kernel

theorem witness_slow_tier :
    (let s := ctxAt { st := .importing, q := 2048, slots := [(0, { st := .committed, ring := 5 }), (1, { st := .import_ })] }
     let a := ctxWindow 7
     Acts s ∧ s.dev.lost 32 = false ∧ (∀ i, i < 8 → s.dev.slowAt none (a + i) = some (7, 0, i) ∧ s.dev.unitLost 7 0 (i / 4096) = false) ∧
       s.dev.slowAt none 0 = none ∧ a % 4096 = 0 ∧ s.dev.slowAt none (a + 0x1000000000) = some (7, 1, 0) ∧
       s.dev.slowAt none (a + 0x1000000000 + 4096 - 1) = some (7, 1, 4095) ∧
       0x1000000000 ≤ (a + 0x1000000000 - 0x10000000000) % 0x2000000000) ∧
    (let s := st (up.setReg ⟨.neaMirrorCfg, []⟩ (BitVec.ofNat 64 (2 ^ 56)))
     let bs : List Byte := [1, 2, 3]
     Acts s ∧ 65536 * 4096 ≤ s.dev.regionBytes / 2 ∧ 65535 < 65536 ∧ (FMap.getD s.dev.mirrors 7 {}).recv = none ∧
       crc32c (bs.map BitVec.toNat) ≠ 0) ∧
    (let s := ctxAt { st := .active, sending := some 5 }
     Acts s ∧ (s.dev.ctx 7).sending = some 5) ∧
    (let s := st ({ up with pkgs := [(9, { st := .target, rebuild := true })] } : Dev)
     Acts s ∧ s.dev.lost 32 = false ∧ (upTo 10).find? (fun j => (s.dev.pkg j).st = .target ∧ (s.dev.pkg j).copied = .no) = some 9 ∧
       (upTo 10).find? (fun j => (s.dev.pkg j).rebuild) = some 9) := by
  unfold Acts; decide +kernel

/-- A package fails without a spare, with one, and while its copy's target stands ready. -/
theorem witness_package_fails :
    ∀ e ∈ ([(.service, [(8, { st := .failed }), (9, { st := .failed })], none), (.service, [], some 8),
        (.failing, [(9, { st := .target, src := 0 })], some 9)] : List (PkgState × List (Nat × NeaPkg) × Option Nat)),
      let s := st ({ up with pkgs := [(0, { st := e.1, logical := 0 })] ++ e.2.1 } : Dev)
      let target := (upTo 10).find? (fun j => (s.dev.pkg j).st = .target ∧ (s.dev.pkg j).src = 0)
      Acts s ∧ (s.dev.pkg 0).st = e.1 ∧ (s.dev.pkg 0).logical ≠ 0xF ∧ target.orElse (fun _ => s.dev.pkgSpares.head?) = e.2.2 ∧
        (e.2.2 = none → target = none ∧ s.dev.pkgSpares = []) := by
  unfold Acts; decide +kernel

/-! ## The spec's own examples, and single steps -/

/-- The three encodings of 07_pysis_sequencer.md's example, and that of 08_pysis_engine_instructions.md's. -/
theorem test_instruction_words :
    (iw [(45, 6), (40, 6), (0, 0x20000)]).word 0 0x11 = 0x0044C60000020000 ∧
    (iw [(45, 1), (26, 5), (0, 1)]).word 0 0x40 = 0x0100200014000001 ∧
    ({ iw [(0, 0xFFFFFFFB)] with pred := 2 } : IWord).word 0 0x28 = 0x10A00000FFFFFFFB ∧
    (iw [(45, 3), (41, 2), (36, 4)]).word 2 0x48 = 0x8120644000000000 := by decide +kernel

/-- Codes under round-to-nearest-even (03_number_formats.md, the example of its encodings). -/
theorem test_encodings :
    ∀ e ∈ [(e4m3F, FVal.fin false 1 0, 0x38), (e4m3F, .fin true 5 (-1), 0xC2), (e4m3F, .fin false 448 0, 0x7E),
      (e4m3F, .fin false 1 (-9), 0x01), (e4m3F, .fin false 77 (-8), 0x2A), (e5m2F, .fin false 1 0, 0x3C),
      (e5m2F, .fin false 57344 0, 0x7B), (e5m2F, .inf false, 0x7C), (e3m2F, .fin false 1 0, 0x0C),
      (e3m2F, .fin false 28 0, 0x1F), (e2m3F, .fin false 15 (-1), 0x1F), (e2m3F, .fin false 1 (-3), 0x01)],
    e.1.rne e.2.1 = e.2.2 := by decide +kernel

/-- 0.30078125 to E4M3 under SR with r = 0x7000, 0x6000, 0x5FFF and 0x1000 (03_number_formats.md's example). -/
theorem test_stochastic :
    ∀ e ∈ [(0x7000, 0x2A), (0x6000, 0x2A), (0x5FFF, 0x29), (0x1000, 0x29)],
    ((Elem.fp e4m3F).encode .sr false e.1 (.fin false 77 (-8))).1 = e.2 := by decide +kernel

/-- The row of 05_vector_engine.md's example in its two steps: p, m', l' and α. -/
theorem test_online_softmax :
    let on := fun (xs : List Lane) => xs.map (fun x => (x, true))
    let a := osmxSeg 2 (on [0x3F800000, 0x40400000, 0x40000000, 0x40400000]) 0xFF800000 0 0x3F800000
    let b := osmxSeg 2 (on [0x40800000, 0, 0x40400000, 0x40A00000]) 0x40400000 0x40300000 0x3F800000
    a.p = [0x3E800000, 0x3F800000, 0x3F000000, 0x3F800000] ∧ a.m = 0x40400000 ∧ a.l = 0x40300000 ∧ a.alpha = 0 ∧
    b.p = [0x3F000000, 0x3D000000, 0x3E800000, 0x3F800000] ∧ b.m = 0x40A00000 ∧ b.l = 0x401E0000 ∧ b.alpha = 0x3E800000 := by
  decide +kernel

/-- Offset 0x12340 of a scratchpad and of a grove memory (09_scratchpads_grove.md's example). -/
theorem test_bank_places :
    up.rowOffset (sramKey (.spd 0)) 9 36 = 0x12340 ∧ up.rowOffset (sramKey (.grv 0)) 45 14 = 0x12340 := by decide +kernel

/-- Address 0x003800000000 with every pseudo-channel in service, and with 95 (11_hbm.md's example). -/
theorem test_hbm_place :
    hbmPlace 2 (upTo 96) (2 ^ 33) = some ⟨2, 32, 21, 1820, 4⟩ ∧ (2 ^ 25) % 95 = 52 ∧ (2 ^ 25) / 95 = 353204 := by decide +kernel

/-- The check value of CRC-32C over 0x31 to 0x39 (16_check_values_rng.md's example). -/
theorem test_crc32c : crc32c [0x31, 0x32, 0x33, 0x34, 0x35, 0x36, 0x37, 0x38, 0x39] = 0xE3069283 := by decide +kernel

/-- The device after one step with a command at the front of the queue. -/
def after (c : Instr) (s : State) : Option Dev :=
  match step { s with pending := [c] } with
  | .next t => some t.dev
  | _ => none

theorem test_addi :
    let i := iw [(45, 6), (40, 6), (0, 0x20000)]
    (after (.addi 0 i) (at_ 0 0x11 i { s := [(6, 0xFFFFFFFFFFFFFFFF)] })).map (fun d => (d.core 0).sq.getS 6) = some 0x1FFFF := by
  decide +kernel

/-- Division by zero gives all ones, and its remainder the dividend (R222). -/
theorem test_division_by_zero :
    let i := iw [(45, 3), (40, 1), (35, 2)]
    (after (.divu 0 i) (at_ 0 0x0B i { s := [(1, 7)] })).map (fun d => (d.core 0).sq.getS 3) = some 0xFFFFFFFFFFFFFFFF ∧
    (after (.remu 0 i) (at_ 0 0x0C i { s := [(1, 7)] })).map (fun d => (d.core 0).sq.getS 3) = some 7 := by decide +kernel

/-- ST of 4 bytes lays the low byte lowest; LD sign-extends them (R223). -/
theorem test_st_ld :
    let i := iw [(45, 3), (41, 1), (34, 2)]
    let j := iw [(45, 3), (41, 1), (34, 2), (33, 1)]
    let q : Sq := { a := [(1, win (spdBase 0) 8)] }
    let d := after (.st 0 i) (at_ 0 0x31 i { q with s := [(3, 0x1122334488776655)] })
    d.map (fun d => d.mem.getAll (spdBase 0) 5) = some [0x55, 0x66, 0x77, 0x88, 0] ∧
    (after (.ld 0 j) (st ({ (at_ 0 0x30 j q).dev with mem := ({} : Mem).putAll (spdBase 0) [0x55, 0x66, 0x77, 0x88] } : Dev))).map
      (fun d => (d.core 0).sq.getS 3) = some 0xFFFFFFFF88776655 := by decide +kernel

end Sys2Proof.Tests
end

section
/-! SUPPORT. Proof of the statement about scalar arithmetic (R222). -/
namespace Sys2Proof.Machine

open Safety

/-! ## The operations as the statement words them -/

theorem opMulhu_eq_div (a b : Word) : opMulhu a b = BitVec.ofNat 64 (a.toNat * b.toNat / 2 ^ 64) := by
  rw [opMulhu, Nat.shiftRight_eq_div_pow]

theorem opMin_eq_slt (a b : Word) : opMin a b = if a.slt b then a else b := by
  simp [opMin, BitVec.slt_iff_toInt_lt]

theorem opMax_eq_slt (a b : Word) : opMax a b = if a.slt b then b else a := by
  simp [opMax, BitVec.slt_iff_toInt_lt]

/-! ## An instruction whose one effect is a write of a scalar register -/

/-- A write of s[k] leaves every other register file, the stacks, the code and PC alone. -/
theorem setS_frame (q : Sq) (k : Nat) (v : Word) :
    (q.setS k v).a = q.a ∧ (q.setS k v).d = q.d ∧ (q.setS k v).v = q.v ∧ (q.setS k v).p = q.p ∧
    (q.setS k v).calls = q.calls ∧ (q.setS k v).store = q.store ∧ (q.setS k v).codeLen = q.codeLen ∧
    (q.setS k v).pc = q.pc ∧ (q.setS k v).loops = q.loops := by
  unfold Sq.setS
  split <;> simp

/-- Register files that agree with those after a write of s[k] differ from the old ones by that write alone. -/
theorem onlyS_of_setS {q q' : Sq} {k : Nat} {v : Word} (hs : q'.s = (q.setS k v).s) (ha : q'.a = (q.setS k v).a)
    (hd : q'.d = (q.setS k v).d) (hv : q'.v = (q.setS k v).v) (hp : q'.p = (q.setS k v).p) : OnlyS q q' k v := by
  obtain ⟨fa, fd, fv, fp, -⟩ := setS_frame q k v
  refine ⟨fun r => ?_, ha.trans fa, hd.trans fd, hv.trans fv, hp.trans fp⟩
  calc q'.getS r = (q.setS k v).getS r := by unfold Sq.getS; rw [hs]
    _ = _ := getS_setS q k r v

section
variable {cmd : Instr} {s : State} {c op : Nat} {i : IWord}

/-- An enabled control instruction that writes `g` of the register files to s[RD] completes with that write. -/
theorem completes_writeS {legal : Sq → Bool} {g : Sq → Word}
    (hexec : exec cmd s = run s (fun d => if d.tileOn (tileOf c) = true then
      d.sqSimple c op i legal (fun q => q.setS i.rd (g q)) else d))
    (hop : op < 256 ∧ opNamed 0 op = true) (hruns : CoreRuns s c) (hat : AtPc s.dev c 0 op i)
    (hlegal : legal (s.dev.core c).sq = true) (hon : Enabled s.dev c i) :
    Completes cmd s (GoesOn s c (fun q q' => OnlyS q q' i.rd (g q))) := by
  refine completes_core cmd s c hruns _ _ hexec (goesOn_pins s c _ _ _ ?_)
  refine simple_goesOn s c op i legal _ _ hat hlegal hop.1 hop.2 (fun q => ?_) (fun _ q' => onlyS_of_setS)
    (fun hoff => absurd hon ?_)
  · obtain ⟨-, -, -, -, hrest⟩ := setS_frame q i.rd (g q)
    exact hrest
  · simp [Enabled, hoff]

/-- A scalar operation on two registers completes with its result in s[RD]. -/
theorem completes_aluR {f g : Word → Word → Word}
    (hexec : exec cmd s = run s (fun d => if d.tileOn (tileOf c) = true then d.aluR c op i f else d))
    (hfg : ∀ a b, f a b = g a b) (hop : op < 256 ∧ opNamed 0 op = true) (hruns : CoreRuns s c)
    (hat : AtPc s.dev c 0 op i) (hform : i.f 34 0 = 0) (hon : Enabled s.dev c i) :
    Completes cmd s (GoesOn s c (fun q q' => OnlyS q q' i.rd (g (q.getS i.rs1) (q.getS i.rs2)))) := by
  obtain rfl : f = g := funext fun a => funext (hfg a)
  exact completes_writeS hexec hop hruns hat (by simpa [legalR] using hform) hon

/-- A scalar operation with an immediate completes with its result in s[RD]. -/
theorem completes_aluI {legal : Sq → Bool} {f : Word → Word → Word}
    (hexec : exec cmd s = run s (fun d => if d.tileOn (tileOf c) = true then d.aluI c op i legal f else d))
    (hop : op < 256 ∧ opNamed 0 op = true) (hruns : CoreRuns s c) (hat : AtPc s.dev c 0 op i)
    (hlegal : legal (s.dev.core c).sq = true) (hon : Enabled s.dev c i) :
    Completes cmd s (GoesOn s c (fun q q' => OnlyS q q' i.rd (f (q.getS i.rs1) (BitVec.ofInt 64 i.imm)))) :=
  completes_writeS hexec hop hruns hat hlegal hon

end

/-- Format I: bits 39 to 32 are zero. -/
theorem legalI_of_zero {i : IWord} (q : Sq) (h : i.f 39 32 = 0) : legalI i q = true := by simp [legalI, h]

/-- A shift's immediate is below 64 too. -/
theorem legalShift_of_lt {i : IWord} (q : Sq) (h : i.f 39 32 = 0) (hlt : i.f 31 0 < 64) : legalShift i q = true := by
  simp [legalShift, legalI_of_zero q h, hlt]

/-- Settles O6: each operation is one write of s[RD], and its result is the one stated. -/
theorem scalarArithmetic : Obligations.ScalarArithmetic := by
  unfold Obligations.ScalarArithmetic
  constructor
  · intro e he c i s hruns hat hform hon
    simp only [List.mem_cons, List.not_mem_nil, or_false] at he
    rcases he with rfl | rfl | rfl | rfl | rfl | rfl | rfl | rfl | rfl | rfl | rfl | rfl | rfl | rfl
    · exact completes_aluR (exec_add c i s) (fun _ _ => rfl) (by decide) hruns hat hform hon
    · exact completes_aluR (exec_sub c i s) (fun _ _ => rfl) (by decide) hruns hat hform hon
    · exact completes_aluR (exec_and c i s) (fun _ _ => rfl) (by decide) hruns hat hform hon
    · exact completes_aluR (exec_or c i s) (fun _ _ => rfl) (by decide) hruns hat hform hon
    · exact completes_aluR (exec_xor c i s) (fun _ _ => rfl) (by decide) hruns hat hform hon
    · exact completes_aluR (exec_sll c i s) (fun _ _ => rfl) (by decide) hruns hat hform hon
    · exact completes_aluR (exec_srl c i s) (fun _ _ => rfl) (by decide) hruns hat hform hon
    · exact completes_aluR (exec_sra c i s) (fun _ _ => rfl) (by decide) hruns hat hform hon
    · exact completes_aluR (exec_mul c i s) (fun _ _ => rfl) (by decide) hruns hat hform hon
    · exact completes_aluR (exec_mulhu c i s) opMulhu_eq_div (by decide) hruns hat hform hon
    · exact completes_aluR (exec_divu c i s) (fun _ _ => rfl) (by decide) hruns hat hform hon
    · exact completes_aluR (exec_remu c i s) (fun _ _ => rfl) (by decide) hruns hat hform hon
    · exact completes_aluR (exec_min c i s) opMin_eq_slt (by decide) hruns hat hform hon
    · exact completes_aluR (exec_max c i s) opMax_eq_slt (by decide) hruns hat hform hon
  · intro e he c i s hruns hat hform hamount hon
    simp only [List.mem_cons, List.not_mem_nil, or_false] at he
    rcases he with rfl | rfl | rfl | rfl | rfl | rfl | rfl
    · exact completes_aluI (exec_addi c i s) (by decide) hruns hat (legalI_of_zero _ hform) hon
    · exact completes_aluI (exec_andi c i s) (by decide) hruns hat (legalI_of_zero _ hform) hon
    · exact completes_aluI (exec_ori c i s) (by decide) hruns hat (legalI_of_zero _ hform) hon
    · exact completes_aluI (exec_xori c i s) (by decide) hruns hat (legalI_of_zero _ hform) hon
    · exact completes_aluI (exec_slli c i s) (by decide) hruns hat (legalShift_of_lt _ hform (hamount (by decide))) hon
    · exact completes_aluI (exec_srli c i s) (by decide) hruns hat (legalShift_of_lt _ hform (hamount (by decide))) hon
    · exact completes_aluI (exec_srai c i s) (by decide) hruns hat (legalShift_of_lt _ hform (hamount (by decide))) hon

end Sys2Proof.Machine
end

section
/-! SUPPORT. Proof of the statement about FAULT, HALT, SQ_STOP and SQ_RESUME (R221, R237, R239). -/
namespace Sys2Proof.Machine

open Safety

/-! ## Completion of a command that may report prunes -/

section
variable {cmd : Instr} {s : State} {f : Dev → Dev} {P : Dev → Prop}

/-- A command of a device that acts completes with its effect when it reports no prune. -/
theorem completes_settled (hacts : Acts s) (hexec : exec cmd s = run s (fun d => (f d).settle))
    (hdue : (f s.dev.silent).pruneDue = []) (hP : P ((f s.dev.silent).withPins s.dev)) : Completes cmd s P := by
  refine ⟨_, hexec.trans (run_live s _ hacts.1), rfl, ?_⟩
  simpa [Dev.settle_nil _ hdue] using hP

/-- The same of a command of a core that runs. -/
theorem completes_core_settled {c : Nat} (hruns : CoreRuns s c)
    (hexec : exec cmd s = run s (fun d => if d.tileOn (tileOf c) = true then (f d).settle else d))
    (hdue : (f s.dev.silent).pruneDue = []) (hP : P ((f s.dev.silent).withPins s.dev)) : Completes cmd s P := by
  refine completes_core cmd s c hruns _ P hexec ?_
  rwa [Dev.settle_nil _ hdue]

end

/-- An instruction at PC that its predicate enables has its effect. -/
theorem sqIssue_enabled {s : State} {c op : Nat} {i : IWord} {legal : Sq → Bool} (off body : Dev → Dev)
    (hat : AtPc s.dev c 0 op i) (hon : Enabled s.dev c i) (hop : op < 256 ∧ opNamed 0 op = true)
    (hlegal : legal (s.dev.core c).sq = true) :
    s.dev.silent.sqIssue c 0 op i legal off body = body s.dev.silent := by
  obtain ⟨hissue, hcode, hword⟩ := hat
  rw [sqIssue_at s.dev.silent c 0 op i legal off body hissue hcode hword (by decide) hop.1 hop.2 hlegal]
  exact if_pos hon

/-! ## Refusals (R238) -/

/-- A refusal changes the sequencer's state and record, and nothing of another core. -/
theorem sqRefuse_core (d : Dev) (c code j : Nat) :
    (d.sqRefuse c code).core j = if c = j then { d.core c with sq := { (d.core c).sq with
      faultCode := code, faultPc := (d.core c).sq.pc, insn := (d.core c).sq.atPc, st := .halted, wait := .none } }
    else d.core j := by
  simp [Dev.sqRefuse, Dev.sqRefuseAt]

/-- A refusal raises its event and leaves memory, registers and the partitions' state alone. -/
theorem sqRefuse_frame (d : Dev) (c code : Nat) :
    (d.sqRefuse c code).raised = d.raised ++ [⟨code, evClass code, some (d.corePart c), c, 0, d.tempo⟩] ∧
    (d.sqRefuse c code).mem = d.mem ∧ (d.sqRefuse c code).regs = d.regs ∧ (d.sqRefuse c code).sems = d.sems ∧
    (d.sqRefuse c code).parts = d.parts ∧ (d.sqRefuse c code).gens = d.gens ∧
    (d.sqRefuse c code).pruneDue = d.pruneDue := by
  and_intros <;> rfl

/-- A sequencer that has refused the instruction at PC and stored a CODE in PCODE. -/
def Sq.faulted (q : Sq) (code k : Nat) : Sq :=
  { q with faultCode := code, faultPc := q.pc, insn := q.atPc, st := .halted, wait := .none, pcode := k }

/-- FAULT stores CODE and refuses: what each core then holds (R237). -/
theorem pcode_sqRefuse_core (d : Dev) (c code k j : Nat) :
    ((d.onSq c (fun q => { q with pcode := k })).sqRefuse c code).core j =
    if c = j then { d.core c with sq := (d.core c).sq.faulted code k } else d.core j := by
  rw [sqRefuse_core]
  by_cases h : c = j <;> simp [h, Sq.faulted, Sq.atPc]

/-- A device that differs in nothing but core c's sequencer keeps the frame when the code stays. -/
theorem coreFrame_of_core {d d' : Dev} {c : Nat} {q : Sq}
    (hunits : d'.mem = d.mem ∧ d'.regs = d.regs ∧ d'.sems = d.sems ∧ d'.parts = d.parts ∧ d'.gens = d.gens)
    (hcore : ∀ j, d'.core j = if c = j then { d.core c with sq := q } else d.core j)
    (hstore : q.store = (d.core c).sq.store) (hlen : q.codeLen = (d.core c).sq.codeLen) : CoreFrame d d' c := by
  obtain ⟨hmem, hregs, hsems, hparts, hgens⟩ := hunits
  have hself : d'.core c = { d.core c with sq := q } := by rw [hcore, if_pos rfl]
  have hother : ∀ j, j ≠ c → d'.core j = d.core j := fun j hj => by rw [hcore, if_neg (Ne.symm hj)]
  refine ⟨hmem, hregs, hsems, hparts, hgens, hother, ?_, ?_, ?_, ?_, ?_⟩ <;> rw [hself]
  exacts [hstore, hlen]

/-- FAULT refuses as any other refused instruction does. -/
theorem refuses_pcode (s : State) (c code k : Nat) :
    Refuses s c code (s.dev.core c).sq.pc
      ((s.dev.silent.onSq c (fun q => { q with pcode := k })).sqRefuse c code) := by
  have hcore := pcode_sqRefuse_core s.dev.silent c code k
  have hsq := congrArg Core.sq ((hcore c).trans (if_pos rfl))
  obtain ⟨hraised, hmem, hregs, hsems, hparts, hgens, -⟩ :=
    sqRefuse_frame (s.dev.silent.onSq c (fun q => { q with pcode := k })) c code
  unfold Refuses
  rw [hsq]
  exact ⟨rfl, rfl, rfl, rfl, rfl, hraised, ⟨rfl, rfl, rfl, rfl, rfl⟩,
    coreFrame_of_core ⟨hmem, hregs, hsems, hparts, hgens⟩ hcore rfl rfl⟩

/-! ## The end of a program (R221, R494) -/

/-- The end of a program changes its partition's state and may raise an event. -/
theorem programEnd_frame (d : Dev) (p : Nat) :
    (∀ j, (d.programEnd p).core j = d.core j) ∧ (d.programEnd p).mem = d.mem ∧ (d.programEnd p).regs = d.regs ∧
    (d.programEnd p).pruneDue = d.pruneDue ∧ ∀ x ∈ d.raised, x ∈ (d.programEnd p).raised := by
  unfold Dev.programEnd
  split
  · refine ⟨fun j => by simp, by simp, by simp, by simp, fun x hx => ?_⟩
    exact List.mem_append_left _ hx
  · exact ⟨fun _ => rfl, rfl, rfl, rfl, fun _ hx => hx⟩

/-- Whether or not HALT ends the program, it is `ctlHalt` as far as cores, memory and registers go. -/
theorem haltCore_frame (d : Dev) (c : Nat) (i : IWord) :
    (∀ j, (d.haltCore c i).core j = (d.ctlHalt c i).core j) ∧ (d.haltCore c i).mem = (d.ctlHalt c i).mem ∧
    (d.haltCore c i).regs = (d.ctlHalt c i).regs ∧ (d.haltCore c i).pruneDue = (d.ctlHalt c i).pruneDue ∧
    ∀ x ∈ (d.ctlHalt c i).raised, x ∈ (d.haltCore c i).raised := by
  unfold Dev.haltCore
  dsimp only
  split
  · exact programEnd_frame _ _
  · exact ⟨fun _ => rfl, rfl, rfl, rfl, fun _ hx => hx⟩

/-! ## SQ_CTRL (R239, R241) -/

/-- A write of SQ_CTRL by the hosting software that reaches the register acts at once, on its two command bits. -/
theorem ctrlWrite_sqCtrl {s : State} {c : Nat} (hreach : HostReaches s ⟨.sqCtrl, [c]⟩) (v : Word) :
    s.dev.silent.ctrlWrite .host ⟨.sqCtrl, [c]⟩ v =
      let d1 := if bit 0 v then s.dev.silent.sqResume c else s.dev.silent
      if bit 1 v then d1.sqStop c else d1 := by
  obtain ⟨-, hclock, hbus, habsent⟩ := hreach
  have hhost : s.dev.silent.lost 33 = false := hclock
  have hreg : s.dev.silent.absent ⟨.sqCtrl, [c]⟩ = false := habsent
  have hrwt : s.dev.silent.rwtMask ⟨.sqCtrl, [c]⟩ = 0 := rfl
  have hopen : ∃ x, s.dev.silent.busRefuses true ⟨.sqCtrl, [c]⟩ = (false, x) := ⟨_, Prod.ext hbus rfl⟩
  obtain ⟨x, hopen⟩ := hopen
  have hdone : s.dev.silent.ctrlWrite .host ⟨.sqCtrl, [c]⟩ v =
      s.dev.silent.regDo .host 0 ⟨.sqCtrl, [c]⟩ (BitVec.allOnes 64) v := by
    simp [Dev.ctrlWrite, Dev.busDo, Dev.regStore, Dev.behind, Agent.isHost, Agent.ordered, hhost, hreg, hrwt, hopen]
  rw [hdone]
  unfold Dev.regDo
  rw [BitVec.and_allOnes]
  rfl

/-- SQ_STOP of a sequencer that runs or stalls: HALTED, with SQ_STOPPED, and no byte of memory changes. -/
theorem sqStop_of_active {d : Dev} {c : Nat} (h : (d.core c).sq.st = .run ∨ (d.core c).sq.st = .stall) :
    ((d.sqStop c).core c).sq = { (d.core c).sq with st := .halted, wait := .none, faultCode := 0x050A } ∧
    (d.sqStop c).mem = d.mem ∧ (d.sqStop c).pruneDue = d.pruneDue ∧
    ∃ x ∈ (d.sqStop c).raised, x.code = 0x050A ∧ x.unit = c := by
  have hstop : d.sqStop c = (((d.semDrop c false).genDrop c).onSq c (fun q =>
      { q with faultCode := 0x050A, st := .halted, wait := .none })).raiseCore 0x050A c := by
    rcases h with h | h <;> simp [Dev.sqStop, h]
  have hcore : ((d.semDrop c false).genDrop c).core c = d.core c := rfl
  rw [hstop]
  exact ⟨by simp [hcore], rfl, rfl, _, List.mem_append_right _ (List.mem_singleton.2 rfl), rfl, rfl⟩

/-- SQ_RESUME of a halted sequencer that no prune has stopped. -/
theorem sqResume_of_halted {d : Dev} {c : Nat} (h : (d.core c).sq.st = .halted) (hp : (d.core c).sq.pruned = false) :
    d.sqResume c = d.onSq c Sq.running := by
  simp [Dev.sqResume, h, hp]

/-- Settles O15: each of the four commands by the one thing that it does to the sequencer. -/
theorem sequencerStops : Obligations.SequencerStops := by
  unfold Obligations.SequencerStops
  intro c s
  refine ⟨fun i hruns hat hon hform => ?fault, fun i hruns hat hon hform => ?halt, fun hreach hst => ?stop,
    fun hreach hst hpruned => ?resume⟩
  case fault =>
    have heffect : s.dev.silent.ctlFault c.val i = _ :=
      sqIssue_enabled _ _ hat hon (by decide) (by simpa [legalF] using hform)
    refine completes_core_settled hruns (exec_fault c i s) ?_ ?_
    · rw [heffect]; exact hruns.1.2
    · rw [heffect]
      exact ⟨refuses_pcode s c.val 0x0508 _, by simp [pcode_sqRefuse_core, Sq.faulted]⟩
  case halt =>
    have heffect : s.dev.silent.ctlHalt c.val i = _ :=
      sqIssue_enabled _ _ hat hon (by decide) (by simpa [legalNone] using hform)
    obtain ⟨hcore, hmem, hregs, hdue, hraised⟩ := haltCore_frame s.dev.silent c.val i
    rw [heffect] at hcore hmem hregs hdue hraised
    refine completes_core_settled hruns (exec_halt c i s) (hdue.trans hruns.1.2) ⟨?_, hmem, hregs, ?_⟩
    · simp [hcore]
    · exact ⟨_, hraised _ (List.mem_append_right _ (List.mem_singleton.2 rfl)), rfl, rfl⟩
  case stop =>
    have heffect : s.dev.silent.ctrlWrite .host ⟨.sqCtrl, [c.val]⟩ 2 = s.dev.silent.sqStop c.val :=
      ctrlWrite_sqCtrl hreach 2
    obtain ⟨hsq, hmem, hdue, hraised⟩ := sqStop_of_active (d := s.dev.silent) hst
    rw [← heffect] at hsq hmem hdue hraised
    exact completes_settled hreach.1 (exec_sqStop c s) (hdue.trans hreach.1.2) ⟨hsq, hmem, hraised⟩
  case resume =>
    have heffect := (ctrlWrite_sqCtrl hreach 1).trans (sqResume_of_halted (d := s.dev.silent) hst hpruned)
    refine completes_settled hreach.1 (exec_sqResume c s) ?_ ?_
    · rw [heffect]; exact hreach.1.2
    · rw [heffect]
      have hcore := Dev.onSq_get s.dev.silent c.val
      exact ⟨by simp [Sq.running], coreFrame_of_core ⟨rfl, rfl, rfl, rfl, rfl⟩ (fun j => hcore j Sq.running) rfl rfl⟩

end Sys2Proof.Machine
end

section
/-! SUPPORT. Proof of the statement about the rounds of the counter generator (R526). -/
namespace Sys2Proof.Machine

/-- One more round is taken after those that ran. -/
theorem cgRounds_succ_last (k n r : Nat) (w : List Nat) :
    cgRounds k (n + 1) r w = cgRound k (r + n) (cgRounds k n r w) := by
  induction n generalizing r w with
  | zero => rfl
  | succ n ih => rw [cgRounds, ih, cgRounds, Nat.succ_add_eq_add_succ]

/-- Rows of words, each one round after the row before it, are the words after the rounds. -/
theorem cgRounds_eq_getD_of_linked {k : Nat} {w : List Nat} {rows : List (List Nat)}
    (hlinked : ∀ n < rows.length, cgRound k n ((w :: rows).getD n []) = rows.getD n []) {n : Nat}
    (hn : n ≤ rows.length) : cgRounds k n 0 w = (w :: rows).getD n [] := by
  induction n with
  | zero => rfl
  | succ n ih =>
    rw [cgRounds_succ_last, ih (Nat.le_of_succ_le hn), Nat.zero_add, hlinked n hn, List.getD_cons_succ]

/-- Settles O55: each row of the table is one round after the row before it, so that the rows are the words after the
rounds, and the output is the last row's words. -/
theorem generatorRounds : Obligations.GeneratorRounds := by
  unfold Obligations.GeneratorRounds
  intro table
  have hlinked : ∀ n < (table.map Prod.snd).length,
      cgRound 0 n ((List.replicate 8 0 :: table.map Prod.snd).getD n []) = (table.map Prod.snd).getD n [] := by
    subst table; decide
  have hkeys : ∀ r < table.length, ∀ j < 4, (r * cgC.getD j 0) % 2 ^ 16 = ((table.map Prod.fst).getD r []).getD j 0 := by
    subst table; decide
  have hzero : unpackElems 16 8 0 = List.replicate 8 0 := by decide
  refine ⟨fun r hr e he => ⟨fun j hj => ?keys, ?words⟩, ?output⟩
  case keys => simpa [he] using hkeys r hr j hj
  case words => simpa [he] using cgRounds_eq_getD_of_linked hlinked (n := r + 1) hr
  case output => rw [cgEval, hzero, cgRounds_eq_getD_of_linked hlinked (n := 8) (by decide)]; decide

end Sys2Proof.Machine
end

section
/-! SUPPORT. Proofs of the statements about a step, a device that does not act, and reset (R558, R581, R634). -/
namespace Sys2Proof.Machine

open Safety

/-! ## Commands that act through a runner -/

/-- Settles O1: a step is a match on the queue. -/
theorem stepRunsFront : Obligations.StepRunsFront := by
  unfold Obligations.StepRunsFront
  refine ⟨fun c r s hqueue => ?front, fun s hqueue => ?idle⟩ <;> rw [step, hqueue]

/-- A command of a device that acts or stands answers a state with the queue it was given. -/
theorem run_answers (s : State) (f : Dev → Dev) : ∃ t, run s f = .next t ∧ t.pending = s.pending := ⟨_, rfl, rfl⟩

/-- So does a command of the JTAG port. -/
theorem runVin_answers (s : State) (f : Dev → Dev) : ∃ t, runVin s f = .next t ∧ t.pending = s.pending := ⟨_, rfl, rfl⟩

/-- The rows that act while a device stands still: the pins and the power input by the change that each makes, the rest
through the JTAG port. -/
theorem exec_actsInReset {c : Instr} (hc : ActsInReset c = true) (s : State) :
    (exec c s = .next (s.with_ s.dev.silent.resetAssert) ∨ exec c s = .next (s.with_ s.dev.silent.resetRelease) ∨
      exec c s = .next (s.with_ s.dev.silent.powerRise) ∨ exec c s = .next (s.with_ s.dev.silent.powerFall)) ∨
    (∃ i, exec c s = runVin s (fun d => d.jtagSet i)) ∨ exec c s = runVin s (fun d => d.jtagIdcode) ∨
    exec c s = runVin s (fun d => d.jtagSample) ∨ exec c s = runVin s (fun d => d.jtagExtest d.live) ∨
    (∃ a write v, exec c s = runVin s (fun d => d.jtagAccess d.live a write v)) ∨
    ∃ k v, exec c s = runVin s (fun d => d.jtagToken d.live k v) := by
  match c, hc with
  | .resetNAssert, _ => exact .inl (.inl (exec_resetNAssert s))
  | .resetNRelease, _ => exact .inl (.inr (.inl (exec_resetNRelease s)))
  | .powerGoodRise, _ => exact .inl (.inr (.inr (.inl (exec_powerGoodRise s))))
  | .powerGoodFall, _ => exact .inl (.inr (.inr (.inr (exec_powerGoodFall s))))
  | .jtagBypass, _ => exact .inr (.inl ⟨_, exec_jtagBypass s⟩)
  | .jtagTrst, _ => exact .inr (.inl ⟨_, exec_jtagTrst s⟩)
  | .jtagIdcode, _ => exact .inr (.inr (.inl (exec_jtagIdcode s)))
  | .jtagSamplePreload, _ => exact .inr (.inr (.inr (.inl (exec_jtagSamplePreload s))))
  | .jtagExtest, _ => exact .inr (.inr (.inr (.inr (.inl (exec_jtagExtest s)))))
  | .jtagDbgAccess _ _ _, _ => exact .inr (.inr (.inr (.inr (.inr (.inl ⟨_, _, _, exec_jtagDbgAccess _ _ _ s⟩)))))
  | .jtagDbgToken _ _, _ => exact .inr (.inr (.inr (.inr (.inr (.inr ⟨_, _, exec_jtagDbgToken _ _ s⟩)))))

/-- Settles O2: each row acts through a runner, and each runner answers a next state. -/
theorem everyCommandAnswers : Obligations.EveryCommandAnswers := by
  unfold Obligations.EveryCommandAnswers
  intro c s
  by_cases hc : ActsInReset c = true
  case neg =>
    obtain ⟨f, hexec⟩ := exec_ran c s (by simpa using hc)
    exact hexec ▸ run_answers s f
  case pos =>
    rcases exec_actsInReset hc s with (h | h | h | h) | ⟨_, h⟩ | h | h | h | ⟨_, _, _, h⟩ | ⟨_, _, h⟩
    case inl.inl | inl.inr.inl | inl.inr.inr.inl | inl.inr.inr.inr => exact ⟨_, h, rfl⟩
    all_goals exact h ▸ runVin_answers s _

/-- Settles O3: such a row acts through `run`, which leaves a device that does not act as it is. -/
theorem stillDeviceStands : Obligations.StillDeviceStands := by
  unfold Obligations.StillDeviceStands
  intro c s hlive hc
  obtain ⟨f, hexec⟩ := exec_ran c s hc
  exact hexec.trans (run_dead s f hlive)

/-! ## A device held in reset -/

/-- Device reset leaves the reset image. -/
theorem deviceReset_image (d : Dev) : d.deviceReset = resetImage d.deviceReset := rfl

/-- The reset image keeps the output record, whatever it holds. -/
theorem silent_held {d : Dev} (h : d = resetImage d) : d.silent = resetImage d.silent := by
  rw [h]; rfl

/-- A device at its reset values does not act when a pin holds it so. -/
theorem live_of_held {d : Dev} (h : d.resetN = false ∨ d.vin = false) : d.live = false := by
  rcases h with h | h <;> simp [Dev.live, h]

theorem heldInReset_with {s : State} {d : Dev} (h : (d.resetN = false ∨ d.vin = false) → d = resetImage d) :
    HeldInReset (s.with_ d) := h

/-- A falling RESET_N resets. -/
theorem resetAssert_held (d : Dev) : d.resetAssert = resetImage d.resetAssert := rfl

/-- A falling VIN resets. -/
theorem powerFall_held (d : Dev) : d.powerFall = resetImage d.powerFall := rfl

/-- The start-up begins with both pins as they were. -/
theorem bootStart_pins (d : Dev) : d.bootStart.resetN = d.resetN ∧ d.bootStart.vin = d.vin := by
  unfold Dev.bootStart
  dsimp only
  split <;> exact ⟨rfl, rfl⟩

/-- The reset image keeps RESET_N, whatever its level. -/
theorem resetImage_resetN {d : Dev} (h : d = resetImage d) (level : Bool) :
    ({ d with resetN := level } : Dev) = resetImage { d with resetN := level } := by
  rw [h]; rfl

/-- A device that starts is held by neither pin. -/
theorem bootStart_not_held {d : Dev} (hpin : d.resetN = true) (hvin : d.vin = true) :
    ¬ (d.bootStart.resetN = false ∨ d.bootStart.vin = false) := by
  simp [bootStart_pins, hpin, hvin]

/-- A rising RESET_N starts the device, or VIN holds it in reset still. -/
theorem resetRelease_held {d : Dev} (h : (d.resetN = false ∨ d.vin = false) → d = resetImage d) :
    (d.resetRelease.resetN = false ∨ d.resetRelease.vin = false) → d.resetRelease = resetImage d.resetRelease := by
  unfold Dev.resetRelease
  by_cases hpin : d.resetN = true
  · rw [if_pos hpin]; exact h
  rw [if_neg hpin]
  by_cases hvin : d.vin = true
  · dsimp only; rw [if_pos hvin]
    exact fun hheld => absurd hheld (bootStart_not_held rfl hvin)
  · dsimp only; rw [if_neg hvin]
    exact fun _ => resetImage_resetN (h (.inl (by simpa using hpin))) true

/-- A rising VIN starts the device, or RESET_N holds it in reset still. -/
theorem powerRise_held {d : Dev} (h : (d.resetN = false ∨ d.vin = false) → d = resetImage d) :
    (d.powerRise.resetN = false ∨ d.powerRise.vin = false) → d.powerRise = resetImage d.powerRise := by
  unfold Dev.powerRise
  by_cases hvin : d.vin = true
  · rw [if_pos hvin]; exact h
  rw [if_neg hvin]
  by_cases hpin : d.resetN = true
  · dsimp only; rw [if_pos hpin]
    exact fun hheld => absurd hheld (bootStart_not_held hpin rfl)
  · dsimp only; rw [if_neg hpin]
    exact fun _ => deviceReset_image _

/-- A command through `run` keeps a held device held: it does not act, or the pins are high before and after. -/
theorem run_held {s t : State} {f : Dev → Dev} (h : HeldInReset s) (hrun : run s f = .next t) : HeldInReset t := by
  cases hlive : s.dev.live
  case false =>
    rw [run_dead s f hlive] at hrun
    cases hrun
    exact fun hpins => silent_held (h hpins)
  case true =>
    rw [run_live s f hlive] at hrun
    cases hrun
    refine heldInReset_with fun hpins => ?_
    exact absurd hlive (by simp [live_of_held (d := s.dev) hpins])

/-- A command of the JTAG port keeps a held device held when what it does to a device at its reset values does. -/
theorem runVin_held {s t : State} {f : Dev → Dev} (h : HeldInReset s) (hrun : runVin s f = .next t)
    (hf : ∀ d : Dev, d = resetImage d → d.live = false → f d = resetImage (f d)) : HeldInReset t := by
  cases hrun
  refine heldInReset_with ?_
  have hsilent : (s.dev.resetN = false ∨ s.dev.vin = false) → s.dev.silent = resetImage s.dev.silent := fun hpins =>
    silent_held (h hpins)
  split
  · intro hpins
    exact congrArg (fun e : Dev => e.withPins s.dev) (hf _ (hsilent hpins) (live_of_held (d := s.dev.silent) hpins))
  · exact hsilent

section
variable {d : Dev}

theorem jtagSet_held (h : d = resetImage d) (i : JtagIr) : d.jtagSet i = resetImage (d.jtagSet i) := by
  rw [h]; rfl

theorem cells_held (h : d = resetImage d) (cells : Nat) :
    d.onSec (fun x => { x with cells := cells }) = resetImage (d.onSec (fun x => { x with cells := cells })) := by
  rw [h]; rfl

theorem tick_held (h : d = resetImage d) : d.tick = resetImage d.tick := by
  rw [h]; rfl

theorem out_held (h : d = resetImage d) (o : Out) : d.out o = resetImage (d.out o) := by
  rw [h]; rfl

theorem jtagIdcode_held (h : d = resetImage d) : d.jtagIdcode = resetImage d.jtagIdcode :=
  out_held (jtagSet_held h .idcode) _

theorem jtagSample_held (h : d = resetImage d) : d.jtagSample = resetImage d.jtagSample :=
  out_held (cells_held (tick_held (jtagSet_held h .sample)) _) _

/-- EXTEST gives the pins out, or is BYPASS, which records nothing while the device does not act. -/
theorem jtagExtest_held (h : d = resetImage d) : d.jtagExtest false = resetImage (d.jtagExtest false) := by
  unfold Dev.jtagExtest
  split
  · exact out_held (tick_held (jtagSet_held h .extest)) _
  · exact jtagSet_held h .bypass

end

/-- Settles O4: a row but the eleven acts through `run`; the pins and the power input reset or start the device; the JTAG
port changes no more than its instruction, its cells and its output. -/
theorem heldInResetStep : Obligations.HeldInResetStep := by
  unfold Obligations.HeldInResetStep
  intro s t hs hstep
  cases hqueue : s.pending with
  | nil =>
    rw [stepRunsFront.2 s hqueue] at hstep
    cases hstep
    exact hs
  | cons c r =>
    rw [stepRunsFront.1 c r s hqueue] at hstep
    have hheld : HeldInReset { s with pending := r } := hs
    have hsilent : (s.dev.resetN = false ∨ s.dev.vin = false) → s.dev.silent = resetImage s.dev.silent := fun hpins =>
      silent_held (hs hpins)
    by_cases hc : ActsInReset c = true
    case neg =>
      obtain ⟨f, hexec⟩ := exec_ran c { s with pending := r } (by simpa using hc)
      exact run_held hheld (hexec.symm.trans hstep)
    case pos =>
      rcases exec_actsInReset hc { s with pending := r } with
        (h | h | h | h) | ⟨i, h⟩ | h | h | h | ⟨a, w, v, h⟩ | ⟨k, v, h⟩ <;> rw [h] at hstep
      · cases hstep; exact heldInReset_with fun _ => resetAssert_held _
      · cases hstep; exact heldInReset_with (resetRelease_held hsilent)
      · cases hstep; exact heldInReset_with (powerRise_held hsilent)
      · cases hstep; exact heldInReset_with fun _ => powerFall_held _
      · exact runVin_held hheld hstep fun d hd _ => jtagSet_held hd i
      · exact runVin_held hheld hstep fun d hd _ => jtagIdcode_held hd
      · exact runVin_held hheld hstep fun d hd _ => jtagSample_held hd
      · exact runVin_held hheld hstep fun d hd hlive => by rw [hlive]; exact jtagExtest_held hd
      · exact runVin_held hheld hstep fun d hd hlive => by rw [hlive]; exact jtagSet_held hd .dbgAccess
      · exact runVin_held hheld hstep fun d hd hlive => by rw [hlive]; exact jtagSet_held hd .dbgToken

/-- Settles O5: State.reset is the device with every field at its default. -/
theorem resetState : Obligations.ResetState := by
  unfold Obligations.ResetState
  exact ⟨rfl, fun _ => rfl, fun _ => rfl, rfl, rfl⟩

end Sys2Proof.Machine
end

section
/-! SUPPORT. The arithmetic of the burst code: GF(2^8) is a field, and syndromes are sums over the wrong symbols (R352). -/
namespace Sys2Proof.Machine

/-! ## The field -/

theorem gfX_xor (a b : Byte) : gfX (a ^^^ b) = gfX a ^^^ gfX b := by
  have hred : ∀ x y : Bool, (if (x ^^ y) then (0x1D : Byte) else 0) = (if x then 0x1D else 0) ^^^ (if y then 0x1D else 0) := by
    decide
  unfold gfX
  rw [BitVec.shiftLeft_xor_distrib, BitVec.msb_xor, hred]
  ac_rfl

/-- The part of a product that bit i of b selects. -/
def gfTerm (a b : Byte) (i : Nat) : Byte := if b.getLsbD i then iter gfX i a else 0

/-- A product is the sum of the parts that the bits of b select. -/
theorem gfMul_eq (a b : Byte) : gfMul a b = gfTerm a b 0 ^^^ gfTerm a b 1 ^^^ gfTerm a b 2 ^^^ gfTerm a b 3 ^^^
    gfTerm a b 4 ^^^ gfTerm a b 5 ^^^ gfTerm a b 6 ^^^ gfTerm a b 7 := by
  have hstep : ∀ (c : Bool) (s x : Byte), (if c then s ^^^ x else s) = s ^^^ (if c then x else 0) := by
    intro c s x; cases c <;> simp
  unfold gfMul
  simp [upTo, List.range, List.range.loop, hstep, gfTerm, iter]

theorem iter_gfX_xor (n : Nat) (a b : Byte) : iter gfX n (a ^^^ b) = iter gfX n a ^^^ iter gfX n b := by
  induction n generalizing a b with
  | zero => rfl
  | succ n ih => rw [iter, gfX_xor, ih]; rfl

theorem iter_gfX_comm (n : Nat) (a : Byte) : iter gfX n (gfX a) = gfX (iter gfX n a) := by
  induction n generalizing a with
  | zero => rfl
  | succ n ih => rw [iter, ih]; rfl

theorem gfMul_xor_left (a b c : Byte) : gfMul (a ^^^ b) c = gfMul a c ^^^ gfMul b c := by
  have hterm : ∀ i, gfTerm (a ^^^ b) c i = gfTerm a c i ^^^ gfTerm b c i := by
    intro i; unfold gfTerm; split <;> simp [iter_gfX_xor]
  simp only [gfMul_eq, hterm]; ac_rfl

theorem gfMul_xor_right (a b c : Byte) : gfMul a (b ^^^ c) = gfMul a b ^^^ gfMul a c := by
  have hterm : ∀ i, gfTerm a (b ^^^ c) i = gfTerm a b i ^^^ gfTerm a c i := by
    intro i; unfold gfTerm; rw [BitVec.getLsbD_xor]
    cases b.getLsbD i <;> cases c.getLsbD i <;> simp
  simp only [gfMul_eq, hterm]; ac_rfl

theorem gfMul_zero (a : Byte) : gfMul a 0 = 0 := by simp [gfMul_eq, gfTerm]

theorem gfMul_one (a : Byte) : gfMul a 1 = a := by revert a; decide

theorem gfOne_mul (a : Byte) : gfMul 1 a = a := by revert a; decide

theorem gfX_zero : gfX 0 = 0 := by decide

theorem gfMul_gfX_left (a b : Byte) : gfMul (gfX a) b = gfX (gfMul a b) := by
  have hterm : ∀ i, gfTerm (gfX a) b i = gfX (gfTerm a b i) := by
    intro i; unfold gfTerm; split
    · exact iter_gfX_comm i a
    · exact gfX_zero.symm
  simp only [gfMul_eq, hterm, gfX_xor]

/-- Bytes are spanned by 1, the root x and sums: a property that these keep holds of all. -/
theorem byte_induction {P : Byte → Prop} (one : P 1) (root : ∀ b, P b → P (gfX b))
    (sum : ∀ b c, P b → P c → P (b ^^^ c)) (b : Byte) : P b := by
  have hpow : ∀ n, P (iter gfX n 1) := fun n => by
    induction n with
    | zero => exact one
    | succ n ih => rw [iter, iter_gfX_comm]; exact root _ ih
  have hzero : P 0 := by simpa using sum 1 1 one one
  have hterm : ∀ i, P (gfTerm 1 b i) := fun i => by
    unfold gfTerm; split
    · exact hpow i
    · exact hzero
  rw [← gfOne_mul b, gfMul_eq]
  exact sum _ _ (sum _ _ (sum _ _ (sum _ _ (sum _ _ (sum _ _ (sum _ _ (hterm 0) (hterm 1)) (hterm 2)) (hterm 3))
    (hterm 4)) (hterm 5)) (hterm 6)) (hterm 7)

theorem gfMul_gfX_one (b : Byte) : gfMul b (gfX 1) = gfX b := by revert b; decide

theorem gfMul_comm (a b : Byte) : gfMul a b = gfMul b a := by
  induction b using byte_induction with
  | one => rw [gfMul_one, gfOne_mul]
  | root b ih =>
    rw [gfMul_gfX_left, ← ih]
    clear ih
    induction a using byte_induction with
    | one => rw [gfOne_mul, gfOne_mul]
    | root a ih => rw [gfMul_gfX_left, gfMul_gfX_left, ih]
    | sum a c iha ihc => rw [gfMul_xor_left, gfMul_xor_left, gfX_xor, iha, ihc]
  | sum b c ihb ihc => rw [gfMul_xor_right, gfMul_xor_left, ihb, ihc]

theorem gfMul_assoc (a b c : Byte) : gfMul (gfMul a b) c = gfMul a (gfMul b c) := by
  induction a using byte_induction with
  | one => rw [gfOne_mul, gfOne_mul]
  | root a ih => simp only [gfMul_gfX_left, ih]
  | sum a d iha ihd => simp only [gfMul_xor_left, iha, ihd]

theorem gfMul_inv (a : Byte) (h : a ≠ 0) : gfMul a (gfInv a) = 1 := by revert a; decide +kernel

/-- Bytes with XOR and `gfMul` as a field. -/
@[reducible] def gfField : Field Byte :=
  @Field.ofMinimalAxioms Byte ⟨fun a b => a ^^^ b⟩ ⟨gfMul⟩ ⟨fun a => a⟩ ⟨gfInv⟩ ⟨0⟩ ⟨1⟩
    BitVec.xor_assoc (fun _ => BitVec.zero_xor) (fun _ => BitVec.xor_self) gfMul_assoc gfMul_comm gfOne_mul gfMul_inv (by decide)
    gfMul_xor_right ⟨0, 1, by decide⟩

end Sys2Proof.Machine
end

section
/-! SUPPORT. Syndromes as sums over the wrong symbols, and what the decoder finds of them (R352, R353, R362). -/
namespace Sys2Proof.Machine

theorem byte_zero_xor (a : Byte) : (0 : Byte) ^^^ a = a := BitVec.zero_xor

theorem byte_xor_zero (a : Byte) : a ^^^ (0 : Byte) = a := BitVec.xor_zero

/-! ## Powers of the root -/

theorem gfMul_gfX_right (a b : Byte) : gfMul a (gfX b) = gfX (gfMul a b) := by
  rw [gfMul_comm, gfMul_gfX_left, gfMul_comm]

theorem iter_gfX_eq_mul (n : Nat) (a : Byte) : iter gfX n a = gfMul a (alpha n) := by
  unfold alpha
  induction n with
  | zero => exact (gfMul_one a).symm
  | succ n ih => rw [iter, iter_gfX_comm, ih, iter, iter_gfX_comm, gfMul_gfX_right]

theorem alpha_succ (n : Nat) : alpha (n + 1) = gfX (alpha n) := iter_gfX_comm n 1

theorem alpha_add (m n : Nat) : alpha (m + n) = gfMul (alpha m) (alpha n) := by
  induction n with
  | zero => exact (gfMul_one _).symm
  | succ n ih => rw [← Nat.add_assoc, alpha_succ, ih, alpha_succ, gfMul_gfX_right]

/-- x to the power j. -/
def gfPow (x : Byte) : Nat → Byte
  | 0 => 1
  | j + 1 => gfMul (gfPow x j) x

theorem alpha_mul (j n : Nat) : alpha (j * n) = gfPow (alpha n) j := by
  induction j with
  | zero => rw [Nat.zero_mul]; rfl
  | succ j ih => rw [Nat.succ_mul, alpha_add, ih, gfPow]

/-! ## Words and their wrong symbols -/

/-- What a list of positions with values puts at position k. -/
def errAt (L : List (Nat × Byte)) (k : Nat) : Byte := L.foldr (fun e v => (if e.1 = k then e.2 else 0) ^^^ v) 0

@[simp] theorem errAt_nil (k : Nat) : errAt [] k = 0 := rfl

@[simp] theorem errAt_cons (e : Nat × Byte) (L : List (Nat × Byte)) (k : Nat) :
    errAt (e :: L) k = (if e.1 = k then e.2 else 0) ^^^ errAt L k := rfl

theorem errAt_append (L M : List (Nat × Byte)) (k : Nat) : errAt (L ++ M) k = errAt L k ^^^ errAt M k := by
  induction L with
  | nil => simp
  | cons e L ih => simp [ih, BitVec.xor_assoc]

theorem errAt_eq_zero {L : List (Nat × Byte)} {k : Nat} (h : ∀ e ∈ L, e.1 ≠ k) : errAt L k = 0 := by
  induction L with
  | nil => rfl
  | cons e L ih =>
    simp only [List.forall_mem_cons] at h
    rw [errAt_cons, if_neg h.1, ih h.2]; rfl

/-- Wrong symbols: one value a position, none of them zero. -/
def Wrongs (L : List (Nat × Byte)) : Prop := (L.map Prod.fst).Nodup ∧ ∀ e ∈ L, e.2 ≠ 0

theorem Wrongs.tail {e : Nat × Byte} {L : List (Nat × Byte)} (h : Wrongs (e :: L)) : Wrongs L := by
  obtain ⟨hkeys, hvals⟩ := h
  exact ⟨(List.nodup_cons.1 hkeys).2, fun x hx => hvals x (List.mem_cons_of_mem _ hx)⟩

theorem Wrongs.not_mem_tail {e : Nat × Byte} {L : List (Nat × Byte)} (h : Wrongs (e :: L)) : ∀ x ∈ L, x.1 ≠ e.1 :=
  fun _ hx heq => (List.nodup_cons.1 h.1).1 (heq ▸ List.mem_map_of_mem hx)

theorem Wrongs.filter {L : List (Nat × Byte)} (h : Wrongs L) (p : Nat × Byte → Bool) : Wrongs (L.filter p) :=
  ⟨h.1.sublist ((List.filter_sublist).map Prod.fst), fun x hx => h.2 x (List.mem_filter.1 hx).1⟩

/-- The wrong symbols are the positions at which their word is not zero. -/
theorem Wrongs.mem_iff {L : List (Nat × Byte)} (h : Wrongs L) (e : Nat × Byte) : e ∈ L ↔ e.2 ≠ 0 ∧ errAt L e.1 = e.2 := by
  induction L with
  | nil => simpa using fun hne heq => hne heq.symm
  | cons x L ih =>
    have hx : x.2 ≠ 0 := h.2 x List.mem_cons_self
    have hrest : errAt L x.1 = 0 := errAt_eq_zero h.not_mem_tail
    rw [List.mem_cons, ih h.tail, errAt_cons]
    by_cases hk : x.1 = e.1
    · rw [if_pos hk, ← hk, hrest, byte_xor_zero]
      constructor
      · rintro (rfl | ⟨hne, heq⟩)
        · exact ⟨hx, rfl⟩
        · exact absurd heq.symm hne
      · exact fun ⟨_, heq⟩ => .inl (Prod.ext hk.symm heq.symm)
    · rw [if_neg hk, byte_zero_xor, or_iff_right (fun heq => hk (congrArg Prod.fst heq).symm)]

/-- Two lists of wrong symbols of the same word are the same but for their order. -/
theorem Wrongs.perm {L M : List (Nat × Byte)} (hL : Wrongs L) (hM : Wrongs M) (h : ∀ k, errAt L k = errAt M k) :
    L.Perm M := by
  refine (List.perm_ext_iff_of_nodup (List.Nodup.of_map _ hL.1) (List.Nodup.of_map _ hM.1)).2 fun e => ?_
  rw [hL.mem_iff, hM.mem_iff, h]

/-! ## Syndromes -/

/-- Syndrome j of wrong symbols of the codeword. -/
def synd (L : List (Nat × Byte)) (j : Nat) : Byte := L.foldr (fun e v => gfMul e.2 (gfPow (rsLoc e.1) j) ^^^ v) 0

@[simp] theorem synd_nil (j : Nat) : synd [] j = 0 := rfl

@[simp] theorem synd_cons (e : Nat × Byte) (L : List (Nat × Byte)) (j : Nat) :
    synd (e :: L) j = gfMul e.2 (gfPow (rsLoc e.1) j) ^^^ synd L j := rfl

theorem rsEval_append_singleton (j : Nat) (w : List Byte) (c : Byte) :
    rsEval j (w ++ [c]) = gfMul (rsEval j w) (alpha j) ^^^ c := by
  simp [rsEval, iter_gfX_eq_mul]

/-- Values of polynomials add. -/
theorem rsEval_xor (j : Nat) (f g : Nat → Byte) (n : Nat) :
    rsEval j ((upTo n).map (fun k => f k ^^^ g k)) = rsEval j ((upTo n).map f) ^^^ rsEval j ((upTo n).map g) := by
  unfold upTo
  induction n with
  | zero => exact (byte_zero_xor 0).symm
  | succ n ih =>
    simp only [List.range_succ, List.map_append, List.map_cons, List.map_nil, rsEval_append_singleton, ih, gfMul_xor_left]
    ac_rfl

theorem rsEval_zero (j n : Nat) : rsEval j ((upTo n).map (fun _ => 0)) = 0 := by
  unfold upTo
  induction n with
  | zero => rfl
  | succ n ih =>
    simp only [List.range_succ, List.map_append, List.map_cons, List.map_nil, rsEval_append_singleton, ih]
    rw [gfMul_comm, gfMul_zero]; rfl

/-- The value of a word with one symbol. -/
theorem rsEval_single (j k : Nat) (v : Byte) {n : Nat} (hk : k < n) :
    rsEval j ((upTo n).map (fun i => if k = i then v else 0)) = gfMul v (alpha (j * (n - 1 - k))) := by
  induction n with
  | zero => omega
  | succ n ih =>
    unfold upTo at ih ⊢
    simp only [List.range_succ, List.map_append, List.map_cons, List.map_nil, rsEval_append_singleton]
    by_cases hkn : k = n
    · have hbefore : (List.range n).map (fun i => if k = i then v else 0) = (upTo n).map (fun _ => 0) :=
        List.map_congr_left fun i hi => if_neg (by have := List.mem_range.1 hi; omega)
      rw [hbefore, rsEval_zero, if_pos hkn, gfMul_comm, gfMul_zero, byte_zero_xor, hkn, Nat.add_sub_cancel, Nat.sub_self,
        Nat.mul_zero]
      exact (gfMul_one v).symm
    · have hexp : n + 1 - 1 - k = (n - 1 - k) + 1 := by omega
      rw [ih (by omega), if_neg hkn, byte_xor_zero, hexp, Nat.mul_succ, alpha_add, gfMul_assoc]

/-- The syndromes of a word of 72 symbols are those of its wrong symbols. -/
theorem rsEval_errAt (j : Nat) {L : List (Nat × Byte)} (h : ∀ e ∈ L, e.1 < 72) :
    rsEval j ((upTo 72).map (errAt L)) = synd L j := by
  induction L with
  | nil => exact rsEval_zero j 72
  | cons e L ih =>
    simp only [List.forall_mem_cons] at h
    have hsplit : errAt (e :: L) = fun k => (if e.1 = k then e.2 else 0) ^^^ errAt L k := funext fun k => errAt_cons e L k
    rw [hsplit, rsEval_xor, rsEval_single j e.1 e.2 h.1, ih h.2, synd_cons, alpha_mul]
    rfl

theorem rsSyn_errAt {L : List (Nat × Byte)} (h : ∀ e ∈ L, e.1 < 72) :
    rsSyn ((upTo 72).map (errAt L)) = [synd L 0, synd L 1, synd L 2, synd L 3] := by
  simp only [← rsEval_errAt _ h]; rfl

/-- Syndromes look at the word alone. -/
theorem synd_congr {L M : List (Nat × Byte)} (hL : ∀ e ∈ L, e.1 < 72) (hM : ∀ e ∈ M, e.1 < 72)
    (h : ∀ k, errAt L k = errAt M k) (j : Nat) : synd L j = synd M j := by
  rw [← rsEval_errAt j hL, ← rsEval_errAt j hM, funext h]

/-! ## Locators -/

theorem rsLoc_injective : ∀ i < 72, ∀ k < 72, rsLoc i = rsLoc k → i = k := by decide +kernel

theorem rsLoc_ne_zero : ∀ i < 72, rsLoc i ≠ 0 := by decide +kernel

/-! ## The equations that the decoder solves -/

section
variable {K : Type} [Field K] {e f x y z : K}

/-- The quadratic of two wrong symbols is not degenerate, and its roots are their locators. -/
theorem locator_quadratic (he : e ≠ 0) (hf : f ≠ 0) (hxy : x ≠ y) :
    let g0 := e + f
    let g1 := e * x + f * y
    let g2 := e * (x * x) + f * (y * y)
    let g3 := e * (x * x * x) + f * (y * y * y)
    let d := g0 * g2 - g1 * g1
    d ≠ 0 ∧ ∀ z, (d * z - (g0 * g3 - g1 * g2)) * z + (g1 * g3 - g2 * g2) = 0 ↔ z = x ∨ z = y := by
  intro g0 g1 g2 g3 d
  have hdiff : x - y ≠ 0 := sub_ne_zero.2 hxy
  have hd : d = e * f * ((x - y) * (x - y)) := by simp only [d, g0, g1, g2]; ring
  have hd0 : d ≠ 0 := by rw [hd]; exact mul_ne_zero (mul_ne_zero he hf) (mul_ne_zero hdiff hdiff)
  refine ⟨hd0, fun z => ?_⟩
  have hfactor : (d * z - (g0 * g3 - g1 * g2)) * z + (g1 * g3 - g2 * g2) = d * ((z - x) * (z - y)) := by
    simp only [d, g0, g1, g2, g3]; ring
  rw [hfactor, mul_eq_zero, or_iff_right hd0, mul_eq_zero, sub_eq_zero, sub_eq_zero]

/-- The value at the first of two locators. -/
theorem value_of_two (hxy : x ≠ y) : (e * x + f * y - (e + f) * y) * (x - y)⁻¹ = e := by
  have hdiff : x - y ≠ 0 := sub_ne_zero.2 hxy
  rw [show e * x + f * y - (e + f) * y = e * (x - y) by ring, mul_assoc, mul_inv_cancel₀ hdiff, mul_one]

/-- The syndromes of two wrong symbols are not those of one. -/
theorem two_not_one (he : e ≠ 0) (hf : f ≠ 0) (hxy : x ≠ y) (h1 : (e + f) * z = e * x + f * y)
    (h2 : (e * x + f * y) * z = e * (x * x) + f * (y * y)) : False := by
  have hdiff : x - y ≠ 0 := sub_ne_zero.2 hxy
  have hzy : z - y = 0 := by
    have h : f * (x - y) * (z - y) = 0 := by linear_combination x * h1 - h2
    exact (mul_eq_zero.1 h).resolve_left (mul_ne_zero hf hdiff)
  have h : e * (x - y) = 0 := by linear_combination (e + f) * hzy - h1
  exact (mul_ne_zero he hdiff) h

/-- What is left of syndromes when the symbols at x and y may hold anything: nothing of those, and of another symbol two
values whose quotient is its locator. -/
theorem erased_left (v : K) :
    v * (z * z) + (e * (x * x) + f * (y * y)) - (x + y) * (v * z + (e * x + f * y)) + x * y * (v + (e + f)) =
      v * ((z - x) * (z - y)) ∧
    v * (z * z * z) + (e * (x * x * x) + f * (y * y * y)) - (x + y) * (v * (z * z) + (e * (x * x) + f * (y * y))) +
      x * y * (v * z + (e * x + f * y)) = v * ((z - x) * (z - y)) * z := by
  constructor <;> ring

/-- The value of the other symbol. -/
theorem value_beside_erased (v : K) (hx : z ≠ x) (hy : z ≠ y) : v * ((z - x) * (z - y)) * ((z - x) * (z - y))⁻¹ = v := by
  have h : (z - x) * (z - y) ≠ 0 := mul_ne_zero (sub_ne_zero.2 hx) (sub_ne_zero.2 hy)
  rw [mul_assoc, mul_inv_cancel₀ h, mul_one]

/-- The value at the second of two erased locators. -/
theorem value_of_erased (hxy : x ≠ y) : (e * x + f * y - (e + f) * x) * (-x + y)⁻¹ = f := by
  have hdiff : -x + y ≠ 0 := by rw [neg_add_eq_sub]; exact sub_ne_zero.2 (Ne.symm hxy)
  rw [show e * x + f * y - (e + f) * x = f * (-x + y) by ring, mul_assoc, mul_inv_cancel₀ hdiff, mul_one]

end

end Sys2Proof.Machine
end

section
/-! SUPPORT. What the decoder of the burst code finds (R353, R362). -/
namespace Sys2Proof.Machine

/-! ## Searches -/

/-- A search for what only one place has finds that place. -/
theorem find?_rsPlaces {p : Nat → Bool} {k : Nat} (hk : k < 72) (hp : p k = true) (honly : ∀ i < 72, p i = true → i = k) :
    rsPlaces.find? p = some k := by
  unfold rsPlaces upTo
  rw [List.find?_range_eq_some]
  refine ⟨hp, List.mem_range.2 hk, fun i hi => ?_⟩
  by_contra h
  exact absurd (honly i (by omega) (by simpa using h)) (by omega)

/-- A search for what two places have lists them in order. -/
theorem filter_rsPlaces {p : Nat → Bool} {i k : Nat} (hik : i < k) (hk : k < 72)
    (hp : ∀ n < 72, p n = true ↔ n = i ∨ n = k) : rsPlaces.filter p = [i, k] := by
  have hsorted : (rsPlaces.filter p).Pairwise (· < ·) := List.pairwise_lt_range.filter p
  have hperm : (rsPlaces.filter p).Perm [i, k] := by
    refine (List.perm_ext_iff_of_nodup (hsorted.imp fun h => h.ne) (by simp; omega)).2 fun n => ?_
    simp only [List.mem_filter, rsPlaces, upTo, List.mem_range, List.mem_cons, List.not_mem_nil, or_false]
    refine ⟨fun ⟨hn, h⟩ => (hp n hn).1 h, fun h => ?_⟩
    have hn : n < 72 := by omega
    exact ⟨hn, (hp n hn).2 h⟩
  exact hperm.eq_of_pairwise (fun a b _ _ hab hba => absurd hab (lt_asymm hba)) hsorted (by simpa using hik)

/-! ## The syndromes as the decoder writes them -/

/-- The four syndromes of wrong symbols. -/
def syndromes (L : List (Nat × Byte)) : List Byte := [synd L 0, synd L 1, synd L 2, synd L 3]

@[simp] theorem gfPow_zero (x : Byte) : gfPow x 0 = 1 := rfl
@[simp] theorem gfPow_one (x : Byte) : gfPow x 1 = x := gfOne_mul x
@[simp] theorem gfPow_two (x : Byte) : gfPow x 2 = gfMul x x := by rw [gfPow, gfPow_one]
@[simp] theorem gfPow_three (x : Byte) : gfPow x 3 = gfMul (gfMul x x) x := by rw [gfPow, gfPow_two]

theorem syndromes_one (p : Nat) (e : Byte) :
    syndromes [(p, e)] = [e, gfMul e (rsLoc p), gfMul e (gfMul (rsLoc p) (rsLoc p)),
      gfMul e (gfMul (gfMul (rsLoc p) (rsLoc p)) (rsLoc p))] := by
  simp only [syndromes, synd_cons, synd_nil, gfPow_zero, gfPow_one, gfPow_two, gfPow_three, gfMul_one, byte_xor_zero]

theorem syndromes_two (p q : Nat) (e f : Byte) :
    syndromes [(p, e), (q, f)] = [e ^^^ f, gfMul e (rsLoc p) ^^^ gfMul f (rsLoc q),
      gfMul e (gfMul (rsLoc p) (rsLoc p)) ^^^ gfMul f (gfMul (rsLoc q) (rsLoc q)),
      gfMul e (gfMul (gfMul (rsLoc p) (rsLoc p)) (rsLoc p)) ^^^ gfMul f (gfMul (gfMul (rsLoc q) (rsLoc q)) (rsLoc q))] := by
  simp only [syndromes, synd_cons, synd_nil, gfPow_zero, gfPow_one, gfPow_two, gfPow_three, gfMul_one, byte_xor_zero]

theorem gfMul_left_cancel {a b c : Byte} (ha : a ≠ 0) (h : gfMul a b = gfMul a c) : b = c := by
  rw [← gfOne_mul b, ← gfOne_mul c, ← gfMul_inv a ha, gfMul_comm a, gfMul_assoc, gfMul_assoc, h]

theorem gfMul_ne_zero {a b : Byte} (ha : a ≠ 0) (hb : b ≠ 0) : gfMul a b ≠ 0 := fun h =>
  hb (gfMul_left_cancel ha (h.trans (gfMul_zero a).symm))

theorem byte_xor_ne_zero {a b : Byte} (h : a ≠ b) : a ^^^ b ≠ 0 := fun h0 => h (BitVec.xor_eq_zero_iff.1 h0)

/-! ## No erased pin -/

/-- One wrong symbol is found. -/
theorem rsOne_syndromes {p : Nat} {e : Byte} (hp : p < 72) (he : e ≠ 0) : rsOne (syndromes [(p, e)]) = some (p, e) := by
  rw [syndromes_one]
  unfold rsOne
  simp only [List.getD_cons_zero, List.getD_cons_succ]
  rw [if_neg he, find?_rsPlaces hp (by simp [gfMul_assoc])]
  · rfl
  · intro i hi h
    simp only [Bool.and_eq_true, decide_eq_true_eq] at h
    exact rsLoc_injective i hi p hp (gfMul_left_cancel he h.1.1)

section
variable {p q : Nat} {e f : Byte}

/-- Two wrong symbols do not look like one. -/
theorem rsOne_two (hp : p < 72) (hq : q < 72) (hpq : p ≠ q) (he : e ≠ 0) (hf : f ≠ 0) :
    rsOne (syndromes [(p, e), (q, f)]) = none := by
  have hloc : rsLoc p ≠ rsLoc q := fun h => hpq (rsLoc_injective p hp q hq h)
  rw [syndromes_two]
  unfold rsOne
  simp only [List.getD_cons_zero, List.getD_cons_succ]
  split
  · rfl
  · rw [Option.map_eq_none_iff, List.find?_eq_none]
    intro k _ h
    simp only [Bool.and_eq_true, decide_eq_true_eq] at h
    exact @two_not_one Byte gfField e f (rsLoc p) (rsLoc q) (rsLoc k) he hf hloc h.1.1 h.1.2

/-- Two wrong symbols are found by the roots of their quadratic. -/
theorem rsTwo_syndromes (hpq : p < q) (hq : q < 72) (he : e ≠ 0) (hf : f ≠ 0) :
    rsTwo (syndromes [(p, e), (q, f)]) = some [(p, e), (q, f)] := by
  have hp : p < 72 := by omega
  have hloc : rsLoc p ≠ rsLoc q := fun h => absurd (rsLoc_injective p hp q hq h) (by omega)
  obtain ⟨hd, hroots⟩ := @locator_quadratic Byte gfField e f (rsLoc p) (rsLoc q) he hf hloc
  have hfirst : gfMul (gfMul e (rsLoc p) ^^^ gfMul f (rsLoc q) ^^^ gfMul (e ^^^ f) (rsLoc q)) (gfInv (rsLoc p ^^^ rsLoc q)) = e :=
    @value_of_two Byte gfField e f (rsLoc p) (rsLoc q) hloc
  rw [syndromes_two]
  unfold rsTwo
  simp only [List.getD_cons_zero, List.getD_cons_succ]
  refine (if_neg hd).trans ?_
  rw [filter_rsPlaces hpq hq]
  · dsimp only
    rw [hfirst, BitVec.xor_comm e f, BitVec.xor_assoc, BitVec.xor_self, BitVec.xor_zero]
  · intro n hn
    rw [decide_eq_true_iff]
    refine (hroots (rsLoc n)).trans (or_congr ?_ ?_)
    · exact ⟨rsLoc_injective n hn p hp, fun h => h ▸ rfl⟩
    · exact ⟨rsLoc_injective n hn q hq, fun h => h ▸ rfl⟩

theorem rsDecode_two (hpq : p < q) (hq : q < 72) (he : e ≠ 0) (hf : f ≠ 0) :
    rsDecode (syndromes [(p, e), (q, f)]) = .errs [(p, e), (q, f)] := by
  have htwo := rsTwo_syndromes hpq hq he hf
  have hnonzero : syndromes [(p, e), (q, f)] ≠ [0, 0, 0, 0] := fun h => by
    have hnone : rsTwo [0, 0, 0, 0] = none := by decide
    rw [h, hnone] at htwo
    cases htwo
  rw [rsDecode, if_neg hnonzero, rsOne_two (by omega) hq (by omega) he hf, htwo]

end

theorem syndromes_swap (x y : Nat × Byte) : syndromes [x, y] = syndromes [y, x] := by
  simp only [syndromes, synd_cons, synd_nil, byte_xor_zero]
  simp only [BitVec.xor_comm]

/-- Up to two wrong symbols are found. -/
theorem rsDecode_syndromes {L : List (Nat × Byte)} (hL : Wrongs L) (hplaces : ∀ e ∈ L, e.1 < 72) (hlen : L.length ≤ 2) :
    ∃ es, rsDecode (syndromes L) = .errs es ∧ es.Perm L := by
  match L with
  | [] => exact ⟨[], by decide, .refl _⟩
  | [(p, e)] =>
    have he : e ≠ 0 := hL.2 (p, e) List.mem_cons_self
    have hone := rsOne_syndromes (hplaces _ List.mem_cons_self) he
    have hnonzero : syndromes [(p, e)] ≠ [0, 0, 0, 0] := fun h => he (List.head_eq_of_cons_eq ((syndromes_one p e).symm.trans h))
    exact ⟨[(p, e)], by rw [rsDecode, if_neg hnonzero, hone], .refl _⟩
  | [(p, e), (q, f)] =>
    have he : e ≠ 0 := hL.2 (p, e) (by simp)
    have hf : f ≠ 0 := hL.2 (q, f) (by simp)
    have hp : p < 72 := hplaces (p, e) (by simp)
    have hq : q < 72 := hplaces (q, f) (by simp)
    have hne : q ≠ p := hL.not_mem_tail (q, f) (by simp)
    rcases lt_or_gt_of_ne hne with h | h
    · exact ⟨_, (congrArg rsDecode (syndromes_swap _ _)).trans (rsDecode_two h hp hf he), .swap _ _ _⟩
    · exact ⟨_, rsDecode_two h hq he hf, .refl _⟩

/-! ## One erased pin -/

theorem Wrongs.append {L M : List (Nat × Byte)} (hL : Wrongs L) (hM : Wrongs M) (h : ∀ x ∈ L, ∀ y ∈ M, x.1 ≠ y.1) :
    Wrongs (L ++ M) := by
  refine ⟨?_, fun e he => (List.mem_append.1 he).elim (hL.2 e) (hM.2 e)⟩
  rw [List.map_append, List.nodup_append]
  refine ⟨hL.1, hM.1, fun a ha b hb => ?_⟩
  obtain ⟨x, hx, rfl⟩ := List.mem_map.1 ha
  obtain ⟨y, hy, rfl⟩ := List.mem_map.1 hb
  exact h x hx y hy

theorem Wrongs.filter_ne_zero {L : List (Nat × Byte)} (h : (L.map Prod.fst).Nodup) :
    Wrongs (L.filter (fun e => e.2 ≠ 0)) :=
  ⟨h.sublist ((List.filter_sublist).map Prod.fst), fun _ he => of_decide_eq_true (List.mem_filter.1 he).2⟩

/-- Leaving out the symbols at some positions. -/
theorem errAt_filter (p : Nat → Bool) (L : List (Nat × Byte)) (k : Nat) :
    errAt (L.filter (fun e => p e.1)) k = if p k then errAt L k else 0 := by
  induction L with
  | nil => simp
  | cons e L ih =>
    rw [List.filter_cons, errAt_cons]
    by_cases hk : e.1 = k
    · subst hk
      by_cases hp : p e.1 = true
      · simp only [hp, if_true, errAt_cons, ih]
      · simp only [hp, Bool.false_eq_true, if_false, ih]
    · rw [if_neg hk, byte_zero_xor, ← ih]
      split
      · rw [errAt_cons, if_neg hk, byte_zero_xor]
      · rfl

/-- Leaving out the symbols that are not wrong. -/
theorem errAt_filter_ne_zero (L : List (Nat × Byte)) (k : Nat) : errAt (L.filter (fun e => e.2 ≠ 0)) k = errAt L k := by
  induction L with
  | nil => rfl
  | cons e L ih =>
    rw [List.filter_cons, errAt_cons, ← ih]
    by_cases he : e.2 = 0
    · rw [if_neg (by simpa using he), he, ite_self, byte_zero_xor]
    · rw [if_pos (by simpa using he), errAt_cons]

section
variable {i j : Nat} {a b : Byte}

/-- What the erased positions hold, once nothing else is wrong. -/
theorem rsFill_eq (hi : i < 72) (hj : j < 72) (hij : i ≠ j) :
    rsFill i j (a ^^^ b) (gfMul a (rsLoc i) ^^^ gfMul b (rsLoc j)) = [(i, a), (j, b)].filter (fun e => e.2 ≠ 0) := by
  have hloc : rsLoc i ≠ rsLoc j := fun h => hij (rsLoc_injective i hi j hj h)
  have hsecond : gfMul (gfMul a (rsLoc i) ^^^ gfMul b (rsLoc j) ^^^ gfMul (a ^^^ b) (rsLoc i)) (gfInv (rsLoc i ^^^ rsLoc j)) = b :=
    @value_of_erased Byte gfField a b (rsLoc i) (rsLoc j) hloc
  unfold rsFill
  dsimp only
  rw [hsecond, BitVec.xor_assoc, BitVec.xor_self, BitVec.xor_zero]

theorem syndromes_three (k : Nat) (v : Byte) :
    syndromes [(k, v), (i, a), (j, b)] = [v ^^^ (a ^^^ b), gfMul v (rsLoc k) ^^^ (gfMul a (rsLoc i) ^^^ gfMul b (rsLoc j)),
      gfMul v (gfMul (rsLoc k) (rsLoc k)) ^^^ (gfMul a (gfMul (rsLoc i) (rsLoc i)) ^^^ gfMul b (gfMul (rsLoc j) (rsLoc j))),
      gfMul v (gfMul (gfMul (rsLoc k) (rsLoc k)) (rsLoc k)) ^^^ (gfMul a (gfMul (gfMul (rsLoc i) (rsLoc i)) (rsLoc i)) ^^^
        gfMul b (gfMul (gfMul (rsLoc j) (rsLoc j)) (rsLoc j)))] := by
  simp only [syndromes, synd_cons, synd_nil, gfPow_zero, gfPow_one, gfPow_two, gfPow_three, gfMul_one, byte_xor_zero]

/-- The product of a locator's distances from the two erased ones. -/
def erasedFactor (i j k : Nat) : Byte := gfMul (rsLoc k ^^^ rsLoc i) (rsLoc k ^^^ rsLoc j)

/-- What is left of the syndromes is that of the symbol beside the erased ones. -/
theorem rsLess_syndromes (k : Nat) (v : Byte) :
    rsLess i j (syndromes [(k, v), (i, a), (j, b)]) =
      (gfMul v (erasedFactor i j k), gfMul (gfMul v (erasedFactor i j k)) (rsLoc k)) := by
  obtain ⟨h0, h1⟩ := @erased_left Byte gfField a b (rsLoc i) (rsLoc j) (rsLoc k) v
  rw [syndromes_three]
  exact Prod.ext h0 h1

theorem rsDecodeErased_none (hi : i < 72) (hj : j < 72) (hij : i ≠ j) :
    rsDecodeErased i j (syndromes [(i, a), (j, b)]) = .errs ([(i, a), (j, b)].filter (fun e => e.2 ≠ 0)) := by
  have hzero : ∀ x : Byte, gfMul 0 x = 0 := fun x => (gfMul_comm 0 x).trans (gfMul_zero x)
  have hsame : syndromes [(i, a), (j, b)] = syndromes [(0, 0), (i, a), (j, b)] := by
    simp only [syndromes, synd_cons, hzero, byte_zero_xor]
  have hless : rsLess i j (syndromes [(i, a), (j, b)]) = (0, 0) := by
    rw [hsame, rsLess_syndromes, hzero, hzero]
  unfold rsDecodeErased
  rw [if_pos hless, syndromes_two]
  exact congrArg RsFound.errs (rsFill_eq hi hj hij)

theorem rsDecodeErased_one {k : Nat} {v : Byte} (hi : i < 72) (hj : j < 72) (hij : i ≠ j) (hk : k < 72) (hki : k ≠ i)
    (hkj : k ≠ j) (hv : v ≠ 0) : rsDecodeErased i j (syndromes [(k, v), (i, a), (j, b)]) =
      .errs ((k, v) :: [(i, a), (j, b)].filter (fun e => e.2 ≠ 0)) := by
  have hloci : rsLoc k ≠ rsLoc i := fun h => hki (rsLoc_injective k hk i hi h)
  have hlocj : rsLoc k ≠ rsLoc j := fun h => hkj (rsLoc_injective k hk j hj h)
  have hleft : gfMul v (erasedFactor i j k) ≠ 0 :=
    gfMul_ne_zero hv (gfMul_ne_zero (byte_xor_ne_zero hloci) (byte_xor_ne_zero hlocj))
  have hvalue : gfMul (gfMul v (erasedFactor i j k)) (gfInv (erasedFactor i j k)) = v :=
    @value_beside_erased Byte gfField (rsLoc i) (rsLoc j) (rsLoc k) v hloci hlocj
  have hcancel : ∀ x y : Byte, x ^^^ y ^^^ x = y := fun x y => by
    rw [BitVec.xor_comm, ← BitVec.xor_assoc, BitVec.xor_self, BitVec.zero_xor]
  unfold rsDecodeErased
  rw [rsLess_syndromes]
  dsimp only
  rw [if_neg fun h => hleft (congrArg Prod.fst h), find?_rsPlaces hk (decide_eq_true ⟨hki, hkj, hleft, rfl⟩)]
  · dsimp only
    rw [← erasedFactor, hvalue, syndromes_three, List.getD_cons_zero, List.getD_cons_succ, List.getD_cons_zero, hcancel,
      hcancel, rsFill_eq hi hj hij]
  · intro n hn h
    rw [decide_eq_true_iff] at h
    obtain ⟨-, -, -, heq⟩ := h
    exact rsLoc_injective n hn k hk (gfMul_left_cancel hleft heq)

end

/-- With the positions i and j erased, one further wrong symbol is found, and what the two hold. -/
theorem rsDecodeErased_syndromes {L : List (Nat × Byte)} {i j : Nat} (hL : Wrongs L) (hplaces : ∀ e ∈ L, e.1 < 72)
    (hi : i < 72) (hj : j < 72) (hij : i ≠ j)
    (hlen : (L.filter (fun e => decide (e.1 ≠ i ∧ e.1 ≠ j))).length ≤ 1) :
    ∃ es, rsDecodeErased i j (syndromes L) = .errs es ∧ es.Perm L := by
  have hbeside : ∀ k, errAt (L.filter (fun e => decide (e.1 ≠ i ∧ e.1 ≠ j))) k = if k ≠ i ∧ k ≠ j then errAt L k else 0 :=
    fun k => by simpa using errAt_filter (fun k => decide (k ≠ i ∧ k ≠ j)) L k
  have hout := hL.filter (fun e => decide (e.1 ≠ i ∧ e.1 ≠ j))
  have hmem : ∀ e ∈ L.filter (fun e => decide (e.1 ≠ i ∧ e.1 ≠ j)), e.1 < 72 ∧ e.1 ≠ i ∧ e.1 ≠ j := fun e he => by
    rw [List.mem_filter, decide_eq_true_iff] at he
    exact ⟨hplaces e he.1, he.2⟩
  generalize L.filter (fun e => decide (e.1 ≠ i ∧ e.1 ≠ j)) = out at *
  have hword : ∀ k, errAt (out ++ [(i, errAt L i), (j, errAt L j)]) k = errAt L k := fun k => by
    rw [errAt_append, hbeside]
    by_cases hki : k = i
    · simp [hki, Ne.symm hij]
    by_cases hkj : k = j
    · simp [hkj, hij]
    simp [hki, hkj, Ne.symm hki, Ne.symm hkj]
  have hfilled : ∀ k, errAt (out ++ [(i, errAt L i), (j, errAt L j)].filter (fun e => e.2 ≠ 0)) k = errAt L k := fun k => by
    rw [errAt_append, errAt_filter_ne_zero, ← errAt_append, hword]
  have hwrongs : Wrongs (out ++ [(i, errAt L i), (j, errAt L j)].filter (fun e => e.2 ≠ 0)) := by
    refine hout.append (Wrongs.filter_ne_zero (by simpa using hij)) fun x hx y hy => ?_
    simp only [List.mem_filter, List.mem_cons, List.not_mem_nil, or_false] at hy
    obtain ⟨-, hxi, hxj⟩ := hmem x hx
    rcases hy.1 with rfl | rfl
    exacts [hxi, hxj]
  have hsynd : syndromes L = syndromes (out ++ [(i, errAt L i), (j, errAt L j)]) := by
    have h := synd_congr hplaces (M := out ++ [(i, errAt L i), (j, errAt L j)]) (fun e he => ?_) (fun k => (hword k).symm)
    · simp only [syndromes, h]
    · rcases List.mem_append.1 he with he | he
      · exact (hmem e he).1
      · simp only [List.mem_cons, List.not_mem_nil, or_false] at he
        rcases he with rfl | rfl
        exacts [hi, hj]
  refine ⟨_, ?_, hwrongs.perm hL hfilled⟩
  rw [hsynd]
  match out, hlen, hmem, hout with
  | [], _, _, _ => exact rsDecodeErased_none hi hj hij
  | [(k, v)], _, hmem, hout =>
    obtain ⟨hk, hki, hkj⟩ := hmem (k, v) List.mem_cons_self
    exact rsDecodeErased_one hi hj hij hk hki hkj (hout.2 (k, v) List.mem_cons_self)

end Sys2Proof.Machine
end

section
/-! SUPPORT. The encoder of the burst code, and the bytes that wrong symbols change (R352, R354). -/
namespace Sys2Proof.Machine

/-! ## The check symbols -/

theorem rsEval_append (j : Nat) (m r : List Byte) :
    rsEval j (m ++ r) = gfMul (rsEval j m) (alpha (j * r.length)) ^^^ rsEval j r := by
  induction r using List.reverseRecOn with
  | nil => rw [List.append_nil, List.length_nil, Nat.mul_zero]; exact ((byte_xor_zero _).trans (gfMul_one _)).symm
  | append_singleton r c ih =>
    rw [← List.append_assoc, rsEval_append_singleton, ih, rsEval_append_singleton, List.length_append, List.length_singleton,
      Nat.mul_succ, alpha_add, gfMul_xor_left, gfMul_assoc, BitVec.xor_assoc]

/-- The value of a word of four symbols. -/
theorem rsEval_four (j : Nat) (a b c d : Byte) :
    rsEval j [a, b, c, d] = gfMul (gfMul (gfMul a (alpha j) ^^^ b) (alpha j) ^^^ c) (alpha j) ^^^ d := by
  have hzero : gfMul 0 (alpha j) = 0 := (gfMul_comm _ _).trans (gfMul_zero _)
  simp only [rsEval, List.foldl_cons, List.foldl_nil, iter_gfX_eq_mul, hzero, byte_zero_xor]

/-- One more symbol divided by the generator, of which x is a root. -/
theorem division_step {K : Type} [Field K] {x g0 g1 g2 g3 : K} (hroot : (((x + g3) * x + g2) * x + g1) * x + g0 = 0)
    (r0 r1 r2 r3 c : K) :
    let q := -r0 - c
    (((r1 + q * g3) * x + (r2 + q * g2)) * x + (r3 + q * g1)) * x + (0 + q * g0) =
      (((r0 * x + r1) * x + r2) * x + r3) * x + c * (x * x * x * x) := by
  intro q
  simp only [q]
  linear_combination (-r0 - c) * hroot

/-- The powers of α from 0 to 3 are roots of the generator. -/
theorem rsGen_roots : rsGen = [15, 54, 120, 64] ∧ ∀ j < 4, gfMul (gfMul (gfMul (alpha j ^^^ 15) (alpha j) ^^^ 54) (alpha j) ^^^ 120)
    (alpha j) ^^^ 64 = 0 := by
  decide +kernel

/-- One step of the encoder. -/
def checkStep (r : List Byte) (c : Byte) : List Byte :=
  let q := r.headD 0 ^^^ c
  ((r.drop 1 ++ [0]).zip rsGen).map (fun (x : Byte × Byte) => x.1 ^^^ gfMul q x.2)

theorem rsCheck_append_singleton (m : List Byte) (c : Byte) : rsCheck (m ++ [c]) = checkStep (rsCheck m) c := by
  unfold rsCheck
  rw [List.foldl_append]
  rfl

theorem length_checkStep {r : List Byte} (h : r.length = 4) (c : Byte) : (checkStep r c).length = 4 := by
  simp [checkStep, h, rsGen_roots.1]

theorem length_rsCheck (m : List Byte) : (rsCheck m).length = 4 := by
  induction m using List.reverseRecOn with
  | nil => rfl
  | append_singleton m c ih => rw [rsCheck_append_singleton, length_checkStep ih]

theorem exists_four {r : List Byte} (h : r.length = 4) : ∃ a b c d, r = [a, b, c, d] := by
  match r, h with
  | [a, b, c, d], _ => exact ⟨a, b, c, d, rfl⟩

theorem rsEval_checkStep {j : Nat} (hj : j < 4) {r : List Byte} (h : r.length = 4) (c : Byte) :
    rsEval j (checkStep r c) = gfMul (rsEval j r) (alpha j) ^^^ gfMul c (alpha (j * 4)) := by
  obtain ⟨r0, r1, r2, r3, rfl⟩ := exists_four h
  obtain ⟨hgen, hroots⟩ := rsGen_roots
  have hfour : alpha (j * 4) = gfMul (gfMul (gfMul (alpha j) (alpha j)) (alpha j)) (alpha j) := by
    rw [Nat.mul_comm, alpha_mul, gfPow, gfPow_three]
  have hstep := @division_step Byte gfField (alpha j) 64 120 54 15 (hroots j hj) r0 r1 r2 r3 c
  have hnew : checkStep [r0, r1, r2, r3] c = [r1 ^^^ gfMul (r0 ^^^ c) 15, r2 ^^^ gfMul (r0 ^^^ c) 54,
      r3 ^^^ gfMul (r0 ^^^ c) 120, 0 ^^^ gfMul (r0 ^^^ c) 64] := by
    unfold checkStep
    rw [hgen]
    rfl
  rw [hnew, rsEval_four, rsEval_four, hfour]
  exact hstep

/-- The check symbols are the remainder: with them a word has the value 0 at the roots. -/
theorem rsEval_rsCheck {j : Nat} (hj : j < 4) (m : List Byte) : rsEval j (rsCheck m) = gfMul (rsEval j m) (alpha (j * 4)) := by
  induction m using List.reverseRecOn with
  | nil =>
    have hempty : rsEval j [] = 0 := rfl
    have hzero : ∀ x : Byte, gfMul 0 x = 0 := fun x => (gfMul_comm 0 x).trans (gfMul_zero x)
    have hnone : rsCheck [] = [0, 0, 0, 0] := rfl
    simp only [hnone, hempty, rsEval_four, hzero, byte_zero_xor]
  | append_singleton m c ih =>
    rw [rsCheck_append_singleton, rsEval_checkStep hj (length_rsCheck m), ih, rsEval_append_singleton, gfMul_xor_left]
    congr 1
    rw [gfMul_assoc, gfMul_assoc, gfMul_comm (alpha _)]

/-- The value of a codeword whose check symbols had x added. -/
theorem rsEval_codeword {j : Nat} (hj : j < 4) (m : List Byte) (x : Byte) :
    rsEval j (m ++ (rsCheck m).map (· ^^^ x)) = rsEval j [x, x, x, x] := by
  have hcheck := rsEval_rsCheck hj m
  obtain ⟨a, b, c, d, hr⟩ := exists_four (length_rsCheck m)
  have hsum : rsEval j ([a, b, c, d].map (· ^^^ x)) = rsEval j [a, b, c, d] ^^^ rsEval j [x, x, x, x] := by
    simp only [List.map_cons, List.map_nil, rsEval_four, gfMul_xor_left]
    ac_rfl
  rw [rsEval_append, List.length_map, hr, List.length_cons, List.length_cons, List.length_cons, List.length_singleton, hsum,
    ← hr, hcheck, ← BitVec.xor_assoc, BitVec.xor_self, BitVec.zero_xor]

/-- A codeword has the syndromes of what was added to its check symbols. -/
theorem rsSyn_rsCodeword (w : BitVec 32) (bs : List Byte) (bad : Bool) :
    rsSyn (rsCodeword w bs bad) = if bad then rsPoison else [0, 0, 0, 0] := by
  have hword : rsCodeword w bs bad = addrSyms w ++ dataSyms bs ++
      (rsCheck (addrSyms w ++ dataSyms bs)).map (· ^^^ (if bad then 0x5A else 0)) := by
    cases bad <;> simp [rsCodeword]
  have hsyn : rsSyn (rsCodeword w bs bad) = rsSyn (List.replicate 4 (if bad then 0x5A else 0)) :=
    List.map_congr_left fun j hj => by rw [hword]; exact rsEval_codeword (List.mem_range.1 hj) _ _
  rw [hsyn]
  cases bad <;> decide

/-! ## Flipped bytes -/

/-- One step of a symbol's flip. -/
def flipStep (s : Nat) (v : Byte) (bs : List Byte) (b : Nat) : List Byte :=
  if v.getLsbD b then bs.modify (32 * (s % 2) + 4 * b + s / 16) (· ^^^ (1 <<< (s / 2 % 8))) else bs

theorem symFlip_eq (bs : List Byte) (s : Nat) (v : Byte) : symFlip bs s v = (upTo 8).foldl (flipStep s v) bs := rfl

theorem flipStep_length (s : Nat) (v : Byte) (bs : List Byte) (b : Nat) : (flipStep s v bs b).length = bs.length := by
  unfold flipStep; split <;> simp

theorem zipWith_xor_modify (bs ms : List Byte) (i : Nat) (c : Byte) :
    List.zipWith (· ^^^ ·) bs (ms.modify i (· ^^^ c)) = (List.zipWith (· ^^^ ·) bs ms).modify i (· ^^^ c) := by
  refine List.ext_getElem (by simp) fun k h1 h2 => ?_
  simp only [List.getElem_zipWith, List.getElem_modify]
  split <;> simp [BitVec.xor_assoc]

/-- Flips act on each byte by itself. -/
theorem foldl_flipStep_zipWith (s : Nat) (v : Byte) (bs ms : List Byte) (l : List Nat) :
    l.foldl (flipStep s v) (List.zipWith (· ^^^ ·) bs ms) = List.zipWith (· ^^^ ·) bs (l.foldl (flipStep s v) ms) := by
  induction l generalizing ms with
  | nil => rfl
  | cons b l ih =>
    rw [List.foldl_cons, List.foldl_cons, ← ih]
    congr 1
    unfold flipStep
    split
    · exact (zipWith_xor_modify bs ms _ _).symm
    · rfl

/-- What a symbol's flip adds to each byte. -/
def flipMask (n s : Nat) (v : Byte) : List Byte := symFlip (List.replicate n 0) s v

theorem symFlip_eq_zipWith (bs : List Byte) (s : Nat) (v : Byte) :
    symFlip bs s v = List.zipWith (· ^^^ ·) bs (flipMask bs.length s v) := by
  have hzero : List.zipWith (· ^^^ ·) bs (List.replicate bs.length (0 : Byte)) = bs :=
    List.ext_getElem (by simp) fun k h1 h2 => by simp
  calc symFlip bs s v = (upTo 8).foldl (flipStep s v) (List.zipWith (· ^^^ ·) bs (List.replicate bs.length 0)) := by
        rw [hzero]; rfl
    _ = _ := foldl_flipStep_zipWith s v bs _ _

theorem length_flipMask (n s : Nat) (v : Byte) : (flipMask n s v).length = n := by
  have hfold : ∀ (l : List Nat) (bs : List Byte), (l.foldl (flipStep s v) bs).length = bs.length := fun l => by
    induction l with
    | nil => exact fun _ => rfl
    | cons b l ih => exact fun bs => (ih _).trans (flipStep_length s v bs b)
  exact (hfold (upTo 8) _).trans List.length_replicate

theorem length_symFlip (bs : List Byte) (s : Nat) (v : Byte) : (symFlip bs s v).length = bs.length := by
  rw [symFlip_eq_zipWith, List.length_zipWith, length_flipMask, Nat.min_self]

/-- Flips commute. -/
theorem symFlip_comm (bs : List Byte) (s t : Nat) (v w : Byte) :
    symFlip (symFlip bs s v) t w = symFlip (symFlip bs t w) s v := by
  rw [symFlip_eq_zipWith (symFlip bs s v), symFlip_eq_zipWith (symFlip bs t w), length_symFlip, length_symFlip,
    symFlip_eq_zipWith, symFlip_eq_zipWith]
  refine List.ext_getElem (by simp [length_flipMask]) fun k h1 h2 => ?_
  simp only [List.getElem_zipWith]
  ac_rfl

/-- A flip undoes itself. -/
theorem symFlip_symFlip (bs : List Byte) (s : Nat) (v : Byte) : symFlip (symFlip bs s v) s v = bs := by
  rw [symFlip_eq_zipWith (symFlip bs s v), length_symFlip, symFlip_eq_zipWith]
  refine List.ext_getElem (by simp [length_flipMask]) fun k h1 h2 => ?_
  simp only [List.getElem_zipWith, BitVec.xor_assoc, BitVec.xor_self, BitVec.xor_zero]

/-- What a wrong symbol does to the data: a check symbol nothing. -/
def dataFlip (bs : List Byte) (e : Nat × Byte) : List Byte := if e.1 < 64 then symFlip bs e.1 e.2 else bs

theorem dataFlip_comm (bs : List Byte) (e f : Nat × Byte) : dataFlip (dataFlip bs e) f = dataFlip (dataFlip bs f) e := by
  unfold dataFlip
  by_cases he : e.1 < 64 <;> by_cases hf : f.1 < 64 <;> simp only [he, hf, if_true, if_false]
  exact symFlip_comm bs e.1 f.1 e.2 f.2

theorem dataFlip_dataFlip (bs : List Byte) (e : Nat × Byte) : dataFlip (dataFlip bs e) e = bs := by
  unfold dataFlip
  split
  · exact symFlip_symFlip bs e.1 e.2
  · rfl

/-- The flips of a list in one order, then in the other, leave the data as it was. -/
theorem foldl_dataFlip_reverse (L : List (Nat × Byte)) (bs : List Byte) : (L ++ L.reverse).foldl dataFlip bs = bs := by
  induction L generalizing bs with
  | nil => rfl
  | cons e L ih =>
    rw [List.reverse_cons, List.cons_append, List.foldl_cons, ← List.append_assoc, List.foldl_append, ih, List.foldl_cons,
      List.foldl_nil, dataFlip_dataFlip]

/-- Flips that the decoder finds again leave the data as it was. -/
theorem foldl_dataFlip_perm {L M : List (Nat × Byte)} (h : M.Perm L) (bs : List Byte) : (L ++ M).foldl dataFlip bs = bs := by
  have hperm : (L ++ M).Perm (L ++ L.reverse) := (h.trans (List.reverse_perm L).symm).append_left L
  rw [hperm.foldl_eq' (fun x _ y _ z => dataFlip_comm z x y), foldl_dataFlip_reverse]

end Sys2Proof.Machine
end

section
/-! SUPPORT. Reads of HBM sectors: what the decoder finds of a transfer, and what a read leaves alone (R353, R354, R359, R362). -/
namespace Sys2Proof.Machine

open Safety

/-! ## Records of a tile's HBM -/

@[simp] theorem HbmTile.onPc_pc (h : HbmTile) (q j : Nat) (f : HbmPc → HbmPc) :
    (h.onPc q f).pc j = if q = j then f (h.pc q) else h.pc j := by
  unfold HbmTile.pc HbmTile.onPc
  by_cases hj : q = j
  · subst hj; simp [HbmTile.pc]
  · simp [hj, HbmTile.pc]

@[simp] theorem HbmTile.onRow_row (h : HbmTile) (k j : Nat) (f : HbmRow → HbmRow) :
    (h.onRow k f).row j = if k = j then f (h.row k) else h.row j := by
  unfold HbmTile.row HbmTile.onRow
  by_cases hj : k = j
  · subst hj; simp [HbmTile.row]
  · simp [hj, HbmTile.row]

@[simp] theorem HbmTile.onStack_stack (h : HbmTile) (k j : Nat) (f : HbmStack → HbmStack) :
    (h.onStack k f).stack j = if k = j then f (h.stack k) else h.stack j := by
  unfold HbmTile.stack HbmTile.onStack
  by_cases hj : k = j
  · subst hj; simp [HbmTile.stack]
  · simp [hj, HbmTile.stack]

@[simp] theorem HbmTile.onRow_pc (h : HbmTile) (k j : Nat) (f : HbmRow → HbmRow) : (h.onRow k f).pc j = h.pc j := rfl

/-! ## What reads of HBM change -/

/-- A change of a tile's HBM records that moves no scrubber. -/
def KeepsScrub (f : HbmTile → HbmTile) : Prop := ∀ h q, ((f h).pc q).scrub = (h.pc q).scrub

theorem keepsScrub_onPc (q : Nat) {f : HbmPc → HbmPc} (hf : ∀ x, (f x).scrub = x.scrub) :
    KeepsScrub (fun h => h.onPc q f) := fun h j => by
  rw [HbmTile.onPc_pc]
  split
  · rename_i hq; rw [hf, hq]
  · rfl

theorem keepsScrub_onRow (k : Nat) (f : HbmRow → HbmRow) : KeepsScrub (fun h => h.onRow k f) := fun _ _ => rfl

/-- What the decoder's reports are made of: the error log, records of a tile, events, recoveries, free values. -/
inductive HbmSteps : Dev → Dev → Prop
  | refl (d : Dev) : HbmSteps d d
  | trans {d e f : Dev} : HbmSteps d e → HbmSteps e f → HbmSteps d f
  | log (d : Dev) {t : Nat} (v : Word) : t < 4 → HbmSteps d (d.setReg ⟨.hbmErrLog, [t]⟩ v)
  | tile (d : Dev) (t : Nat) {f : HbmTile → HbmTile} : KeepsScrub f → HbmSteps d (d.onHbm t f)
  | event (d : Dev) (code : Nat) (part : Option Nat) (unit : Nat) : HbmSteps d (d.raise code part unit)
  | fault (d : Dev) (code p : Nat) (rs : List Remedy) : HbmSteps d (d.faultPart code p rs)
  | free (d : Dev) (n : Nat) : HbmSteps d { d with fresh := n }

namespace HbmSteps

variable {d : Dev}

theorem ite {c : Prop} [Decidable c] {x y : Dev} (hx : HbmSteps d x) (hy : HbmSteps d y) :
    HbmSteps d (if c then x else y) := by
  split <;> assumption

theorem foldl {α : Type} {f : Dev → α → Dev} (hf : ∀ d x, HbmSteps d (f d x)) (l : List α) (d : Dev) :
    HbmSteps d (l.foldl f d) := by
  induction l generalizing d with
  | nil => exact refl d
  | cons x l ih => exact (hf d x).trans (ih _)

theorem pc (d : Dev) (t q : Nat) {f : HbmPc → HbmPc} (hf : ∀ x, (f x).scrub = x.scrub) :
    HbmSteps d (d.onHbm t (fun h => h.onPc q f)) := tile d t (keepsScrub_onPc q hf)

theorem row (d : Dev) (t k : Nat) (f : HbmRow → HbmRow) : HbmSteps d (d.onHbm t (fun h => h.onRow k f)) :=
  tile d t (keepsScrub_onRow k f)

theorem faultIn (d : Dev) (code p unit : Nat) (rs : List Remedy) : HbmSteps d (d.faultIn code p unit rs) :=
  (event d code (some p) unit).trans (fault _ code p rs)

theorem hbmMapDue (d : Dev) (t q : Nat) : HbmSteps d (d.hbmMapDue t q) :=
  ite (refl d) ((pc d t q (by exact fun _ => rfl)).trans (event _ _ _ _))

theorem hbmRowFail (d : Dev) (t key : Nat) (joined : Bool) : HbmSteps d (d.hbmRowFail t key joined) := by
  unfold Dev.hbmRowFail
  exact ite (refl d) (ite ((row d t key _).trans (event _ _ _ _)) ((row d t key _).trans (faultIn _ _ _ _ _)))

theorem hbmPinCount (d : Dev) (t q pin n : Nat) : HbmSteps d (d.hbmPinCount t q pin n) := by
  unfold Dev.hbmPinCount
  extract_lets x c d1 d2
  have hcount : HbmSteps d d1 := pc d t q (by exact fun _ => rfl)
  have herase : HbmSteps d d2 := hcount.trans ((pc _ t q (by exact fun _ => rfl)).trans (event _ _ _ _))
  exact ite (refl d) (ite (ite (herase.trans (hbmMapDue _ t q)) herase) hcount)

theorem hbmIfCount (d : Dev) (t q : Nat) : HbmSteps d (d.hbmIfCount t q) := by
  unfold Dev.hbmIfCount
  extract_lets x d1
  have hcount : HbmSteps d d1 := pc d t q (by exact fun _ => rfl)
  refine ite (hcount.trans (tile _ t fun h j => ?_)) hcount
  split_ifs <;> rfl

section
variable {l : HbmLoc} (hl : l.tile < 4)
include hl

theorem hbmLog (d : Dev) (kind pin : Nat) : HbmSteps d (d.hbmLog l kind pin) := log d _ hl

theorem hbmCorrected (d : Dev) (syms : List Nat) : HbmSteps d (d.hbmCorrected l syms) := by
  unfold Dev.hbmCorrected
  extract_lets x live pin d1 d2 key d3 d4
  have hlog : HbmSteps d d1 := (hbmLog hl d 1 _).trans (pc _ l.tile l.q (by exact fun _ => rfl))
  have hevent : HbmSteps d d2 := ite hlog (hlog.trans (event _ _ _ _))
  have hpins : HbmSteps d d3 := hevent.trans (foldl (fun d p => hbmPinCount d l.tile l.q p _) (upTo 32) _)
  have hrow : HbmSteps d d4 := hpins.trans (row _ l.tile key _)
  exact ite hpins (ite (hrow.trans (hbmRowFail _ _ _ _)) hrow)

theorem hbmUncorr (d : Dev) : HbmSteps d (d.hbmUncorr l) := by
  unfold Dev.hbmUncorr
  exact (((hbmLog hl d 2 _).trans (pc _ l.tile l.q (by exact fun _ => rfl))).trans (faultIn _ _ _ _ _)).trans (hbmRowFail _ _ _ _)

theorem hbmMismatch (d : Dev) : HbmSteps d (d.hbmMismatch l) := by
  unfold Dev.hbmMismatch
  exact ((hbmLog hl d 3 _).trans (event _ _ _ _)).trans (hbmIfCount _ _ _)

end

theorem tile_lt_of_hbmLoc {a : Nat} {l : HbmLoc} (h : d.hbmLoc a = some l) : l.tile < 4 ∧ l.tile = a / hbmTileBytes := by
  unfold Dev.hbmLoc hbmPlace at h
  split at h
  case isFalse => cases h
  case isTrue hlt =>
    dsimp only at h
    split at h
    · cases h
    · cases h
      have hdiv : a / hbmTileBytes < 4 := Nat.div_lt_of_lt_mul (by rwa [Nat.mul_comm])
      exact ⟨hdiv, rfl⟩

theorem hbmDecode (d : Dev) (a : Nat) (err : ReadErr) : HbmSteps d (d.hbmDecode a err).2 := by
  unfold Dev.hbmDecode
  split
  · exact refl d
  rename_i l hloc
  have hl := (tile_lt_of_hbmLoc hloc).1
  split
  · exact refl d
  dsimp only
  have hgot : ∀ src : Option Nat, HbmSteps d (match src with
      | some b => (d.mem.getAll b 64, NSet.has d.mem.hpoison (b / 64), d)
      | none => ((upTo 8).flatMap (fun i => bytesOf 8 (Config.freeWord (d.fresh + i)).toNat), false, { d with fresh := d.fresh + 8 }) :
      List Byte × Bool × Dev).2.2 := fun src => by
    cases src
    · exact free d _
    · exact refl d
  split
  · exact hgot _
  · exact (hgot _).trans (hbmUncorr hl _)
  · split
    · exact (hgot _).trans (hbmMismatch hl _)
    · exact (hgot _).trans (ite (refl _) (hbmCorrected hl _ _))

end HbmSteps

/-- A device that differs in registers, HBM records, partitions' notes of faults, events, recoveries and the counter of free
values alone. -/
def HbmOnly (d d' : Dev) : Prop :=
  ∃ regs hbm parts new faults fresh, d' = { d with
    regs := regs, hbm := hbm, parts := parts, raised := d.raised ++ new, faults := faults, fresh := fresh }

namespace HbmOnly

variable {d d' e : Dev}

theorem of_raised_eq {regs : FMap Word} {hbm : FMap HbmTile} {parts : FMap Part} {faults : List FaultPart} {fresh : Nat} :
    HbmOnly d { d with regs := regs, hbm := hbm, parts := parts, faults := faults, fresh := fresh } :=
  ⟨regs, hbm, parts, [], faults, fresh, by rw [List.append_nil]⟩

theorem trans (h : HbmOnly d d') (h' : HbmOnly d' e) : HbmOnly d e := by
  obtain ⟨_, _, _, new, _, _, rfl⟩ := h
  obtain ⟨_, _, _, new', _, _, rfl⟩ := h'
  exact ⟨_, _, _, new ++ new', _, _, by rw [List.append_assoc]⟩

theorem of_steps (h : HbmSteps d d') : HbmOnly d d' := by
  induction h with
  | refl d => exact of_raised_eq
  | trans _ _ h h' => exact h.trans h'
  | log => exact of_raised_eq
  | tile => exact of_raised_eq
  | event => exact ⟨_, _, _, _, _, _, rfl⟩
  | free => exact of_raised_eq
  | fault d code p rs =>
    unfold Dev.faultPart
    dsimp only
    split
    · exact ⟨_, _, _, _, _, _, rfl⟩
    · exact of_raised_eq

/-- What stays as it was. -/
theorem same (h : HbmOnly d d') : d'.mem = d.mem ∧ d'.cores = d.cores ∧ d'.outs = d.outs ∧ d'.pruneDue = d.pruneDue := by
  obtain ⟨_, _, _, _, _, _, rfl⟩ := h
  exact ⟨rfl, rfl, rfl, rfl⟩

/-- An event that stands among those to be recorded still stands there. -/
theorem raises (h : HbmOnly d d') {code : Nat} (hr : Raises d code) : Raises d' code := by
  obtain ⟨_, _, _, _, _, _, rfl⟩ := h
  obtain ⟨x, hx, hcode⟩ := hr
  exact ⟨x, List.mem_append_left _ hx, hcode⟩

theorem hbmSector (d : Dev) (a : Nat) (err : ReadErr) : HbmOnly d (d.hbmSector a err).2 :=
  (of_steps (HbmSteps.hbmDecode d a err)).trans of_raised_eq

end HbmOnly

/-- The events of a mismatch and of an uncorrectable read. -/
theorem raises_hbmMismatch (d : Dev) (l : HbmLoc) : Raises (d.hbmMismatch l) 0x0A02 := by
  unfold Dev.hbmMismatch
  exact (HbmOnly.of_steps (HbmSteps.hbmIfCount _ _ _)).raises ⟨_, List.mem_append_right _ (List.mem_singleton_self _), rfl⟩

theorem raises_hbmUncorr (d : Dev) (l : HbmLoc) : Raises (d.hbmUncorr l) 0x0A03 := by
  unfold Dev.hbmUncorr
  refine (HbmOnly.of_steps ((HbmSteps.fault _ _ _ _).trans (HbmSteps.hbmRowFail _ _ _ _))).raises ?_
  exact ⟨_, List.mem_append_right _ (List.mem_singleton_self _), rfl⟩

/-! ## One sector -/

@[simp] theorem length_getAll (m : Mem) (a n : Nat) : (m.getAll a n).length = n := by
  induction n generalizing a with
  | zero => rfl
  | succ n ih => simp [Mem.getAll, ih]

theorem getElem_getAll (m : Mem) (a n k : Nat) (h : k < (m.getAll a n).length) : (m.getAll a n)[k] = m.get (a + k) := by
  induction n generalizing a k with
  | zero => simp [Mem.getAll] at h
  | succ n ih =>
    cases k with
    | zero => rfl
    | succ k =>
      simp only [Mem.getAll, List.getElem_cons_succ]
      rw [ih, Nat.add_right_comm, Nat.add_assoc]

/-- A list is its elements in order. -/
theorem map_getD_upTo {α : Type} (l : List α) (x : α) {n : Nat} (h : l.length = n) : (upTo n).map (fun i => l.getD i x) = l := by
  subst h
  refine List.ext_getElem (by simp [upTo]) fun k h1 h2 => ?_
  simp [upTo, List.getElem?_eq_getElem h2]

/-- A read of n bytes within one sector: those of the sector's bytes, each as sound as the sector. -/
theorem hbmRead_within (d : Dev) {a n : Nat} (err : ReadErr) (hn : 0 < n) (h : a % 64 + n ≤ 64) :
    d.hbmRead a n [(0, err)] =
      ((upTo n).map (fun i => ((d.hbmSector (64 * (a / 64)) err).1.data.getD (a % 64 + i) 0,
        (d.hbmSector (64 * (a / 64)) err).1.bad)), (d.hbmSector (64 * (a / 64)) err).2) := by
  have hone : (a + n + 63) / 64 - a / 64 = 1 := by omega
  unfold Dev.hbmRead
  simp only [hone, Dev.hbmSectors, ReadErrs.at, if_true]
  refine Prod.ext (List.map_congr_left fun i hi => ?_) rfl
  have hi : i < n := List.mem_range.1 hi
  have hsector : (a + i) / 64 - a / 64 = 0 := by omega
  have hoffset : (a + i) % 64 = a % 64 + i := by omega
  rw [hsector, hoffset]
  rfl

/-- HBM_READ and HBM_GATHER give out the bytes of the sector, or poison. -/
theorem hbmReadRow_eq {d : Dev} {a n : Nat} (err : ReadErr) (hn : 0 < n) (hdvd : n ∣ 64) (hopen : d.hbmOpen a = true)
    (hheld : d.hbmHeld a = false) (hmod : a % n = 0) :
    d.hbmReadRow a n err =
      let x := d.hbmSector (64 * (a / 64)) err
      if x.1.bad then x.2.out .poisoned else x.2.out (.bytes ((upTo n).map (fun i => x.1.data.getD (a % 64 + i) 0))) := by
  have hwithin : a % 64 + n ≤ 64 := by
    obtain ⟨k, hk⟩ := hdvd
    have hsub : n ∣ a % 64 := (Nat.dvd_mod_iff ⟨k, hk⟩).2 (Nat.dvd_of_mod_eq_zero hmod)
    obtain ⟨m, hm⟩ := hsub
    have hlt : n * m < n * k := by rw [← hm, ← hk]; exact Nat.mod_lt _ (by decide)
    have hmk : m + 1 ≤ k := Nat.lt_of_mul_lt_mul_left hlt
    calc a % 64 + n = n * (m + 1) := by rw [hm]; ring
      _ ≤ n * k := Nat.mul_le_mul_left n hmk
      _ = 64 := hk.symm
  unfold Dev.hbmReadRow
  rw [if_pos (by simp [hopen, hheld, hmod]), hbmRead_within d err hn hwithin]
  dsimp only
  generalize d.hbmSector (64 * (a / 64)) err = x
  have hpoison : anyPoison ((upTo n).map (fun i => (x.1.data.getD (a % 64 + i) 0, x.1.bad))) = x.1.bad := by
    have hmem : 0 ∈ upTo n := List.mem_range.2 hn
    cases hbad : x.1.bad
    · simp [anyPoison]
    · simpa [anyPoison] using (⟨0, hmem⟩ : ∃ x, x ∈ upTo n)
  rw [hpoison]
  simp only [plain, List.map_map, Function.comp_def]

end Sys2Proof.Machine
end

section
/-! SUPPORT. Proof of the statement about the code of an HBM sector (R352 to R354, R362). -/
namespace Sys2Proof.Machine

open Safety

/-! ## The wrong symbols of a transfer -/

/-- The values XORed onto the transmitted symbols, by symbol. -/
def sentWrongs (err : ReadErr) : List (Nat × Byte) := err.syms.map (fun e => (e.1.val, e.2))

/-- The same by position of the codeword. -/
def placed (L : List (Nat × Byte)) : List (Nat × Byte) := L.map (fun e => (e.1 + 4, e.2))

theorem errAt_placed (L : List (Nat × Byte)) (k : Nat) : errAt (placed L) (k + 4) = errAt L k := by
  induction L with
  | nil => rfl
  | cons e L ih => simp only [placed, List.map_cons, errAt_cons, Nat.add_right_cancel_iff] at ih ⊢; rw [ih]

theorem errAt_placed_low (L : List (Nat × Byte)) {k : Nat} (hk : k < 4) : errAt (placed L) k = 0 :=
  errAt_eq_zero fun e he => by
    obtain ⟨x, -, rfl⟩ := List.mem_map.1 he
    simp only
    omega

theorem Wrongs.placed {L : List (Nat × Byte)} (h : Wrongs L) : Wrongs (placed L) := by
  refine ⟨?_, fun e he => ?_⟩
  · have hkeys : (Machine.placed L).map Prod.fst = (L.map Prod.fst).map (· + 4) := by simp [Machine.placed]
    rw [hkeys]
    exact h.1.map (fun a b hab => Nat.add_right_cancel hab)
  · obtain ⟨x, hx, rfl⟩ := List.mem_map.1 he
    exact h.2 x hx

section
variable {err : ReadErr}

theorem sentWrongs_wrongs (hkeys : (err.syms.map Prod.fst).Nodup) (hvals : ∀ e ∈ err.syms, e.2 ≠ 0) :
    Wrongs (sentWrongs err) := by
  refine ⟨?_, fun e he => ?_⟩
  · have hmap : (sentWrongs err).map Prod.fst = (err.syms.map Prod.fst).map Fin.val := by simp [sentWrongs]
    rw [hmap]
    exact hkeys.map Fin.val_injective
  · obtain ⟨x, hx, rfl⟩ := List.mem_map.1 he
    exact hvals x hx

theorem sentWrongs_lt : ∀ e ∈ sentWrongs err, e.1 < 68 := fun e he => by
  obtain ⟨x, -, rfl⟩ := List.mem_map.1 he
  exact x.1.isLt

/-- The transmitted symbols as the decoder adds them up. -/
theorem foldl_syms (s : Nat) :
    err.syms.foldl (fun (v : Byte) e => if e.1.val = s then v ^^^ e.2 else v) 0 = errAt (sentWrongs err) s := by
  have hfold : ∀ (l : List (Fin 68 × Byte)) (v : Byte),
      l.foldl (fun (v : Byte) e => if e.1.val = s then v ^^^ e.2 else v) v = v ^^^ errAt (l.map (fun e => (e.1.val, e.2))) s := by
    intro l
    induction l with
    | nil => exact fun v => (byte_xor_zero v).symm
    | cons e l ih =>
      intro v
      rw [List.foldl_cons, ih, List.map_cons, errAt_cons]
      split
      · rw [BitVec.xor_assoc]
      · rw [byte_zero_xor]
  exact (hfold err.syms 0).trans (byte_zero_xor _)

/-- The word that the decoder sees: the difference of the addresses, then the transmitted symbols. -/
theorem addrSyms_append {A : List (Nat × Byte)} {away : BitVec 32} (hA : ∀ e ∈ A, e.1 < 4)
    (haddr : addrSyms away = (upTo 4).map (errAt A)) (L : List (Nat × Byte)) :
    addrSyms away ++ (upTo 68).map (errAt L) = (upTo 72).map (errAt (A ++ placed L)) := by
  have hplaces : upTo 72 = upTo 4 ++ (upTo 68).map (· + 4) := by decide
  rw [hplaces, List.map_append, List.map_map, haddr]
  congr 1
  · refine List.map_congr_left fun k hk => ?_
    rw [errAt_append, errAt_placed_low L (List.mem_range.1 hk), byte_xor_zero]
  · refine List.map_congr_left fun k _ => ?_
    have hlow : errAt A (k + 4) = 0 := errAt_eq_zero fun e he => by have := hA e he; omega
    rw [Function.comp_apply, errAt_append, errAt_placed, hlow, byte_zero_xor]

/-- The transmitted symbols that are wrong, in order. -/
def wrongSyms (err : ReadErr) : List Nat := (upTo 68).filter (fun s => errAt (sentWrongs err) s ≠ 0)

theorem wrongSyms_perm (h : Wrongs (sentWrongs err)) :
    ((wrongSyms err).map (fun s => (s, errAt (sentWrongs err) s))).Perm (sentWrongs err) := by
  have hnodup : (wrongSyms err).Nodup := List.nodup_range.filter _
  refine (List.perm_ext_iff_of_nodup (hnodup.map fun a b hab => congrArg Prod.fst hab) (List.Nodup.of_map _ h.1)).2 fun e => ?_
  rw [h.mem_iff]
  simp only [wrongSyms, List.mem_map, List.mem_filter, decide_eq_true_eq, upTo, List.mem_range]
  constructor
  · rintro ⟨s, ⟨-, hne⟩, rfl⟩
    exact ⟨hne, rfl⟩
  · rintro ⟨hne, heq⟩
    have hlt := sentWrongs_lt e ((h.mem_iff e).2 ⟨hne, heq⟩)
    exact ⟨e.1, ⟨hlt, heq ▸ hne⟩, Prod.ext rfl heq⟩

/-- How many symbols beside those of the pins in `pins` are wrong. -/
def besides (pins : List Nat) (err : ReadErr) : Nat := (err.syms.filter (fun e => !pins.contains (symPin e.1.val))).length

theorem besides_eq (pins : List Nat) : besides pins err = ((sentWrongs err).filter (fun e => !pins.contains (symPin e.1))).length := by
  rw [besides, sentWrongs, List.filter_map, List.length_map]
  rfl

/-- The symbols of the pins in `pins`. -/
theorem contains_gone (pins : List Nat) (s : Nat) :
    (pins.flatMap (fun p => [2 * p, 2 * p + 1])).contains s = pins.contains (symPin s) := by
  rw [Bool.eq_iff_iff]
  simp only [List.contains_iff_mem, List.mem_flatMap, List.mem_cons, List.not_mem_nil, or_false, symPin]
  constructor
  · rintro ⟨p, hp, h⟩
    obtain rfl : p = s / 2 := by omega
    exact hp
  · exact fun h => ⟨s / 2, h, by omega⟩

theorem length_wrongSyms_filter (h : Wrongs (sentWrongs err)) (pins : List Nat) :
    ((wrongSyms err).filter (fun s => !(pins.flatMap (fun p => [2 * p, 2 * p + 1])).contains s)).length = besides pins err := by
  have hperm := ((wrongSyms_perm h).filter (fun e => !pins.contains (symPin e.1))).length_eq
  rw [besides_eq, ← hperm, List.filter_map, List.length_map]
  simp only [contains_gone]
  rfl

/-- The decoder on a codeword that is not stored poisoned, by the number of erased pins. -/
theorem hbmFound_sound (pins : List Nat) {A : List (Nat × Byte)} (hA : ∀ e ∈ A, e.1 < 4)
    (haddr : addrSyms err.away = (upTo 4).map (errAt A)) (h : Wrongs (sentWrongs err)) :
    hbmFound pins false err = match pins with
      | [] => rsDecode (syndromes (A ++ placed (sentWrongs err)))
      | [p] => rsDecodeErased (2 * p + 4) (2 * p + 5) (syndromes (A ++ placed (sentWrongs err)))
      | p :: q :: r => if 0 < besides (p :: q :: r) err then .bad
        else .errs ((wrongSyms err).map (fun s => (s + 4, errAt (sentWrongs err) s))) := by
  have hplaces : ∀ e ∈ A ++ placed (sentWrongs err), e.1 < 72 := fun e he => by
    rcases List.mem_append.1 he with he | he
    · have := hA e he; omega
    · obtain ⟨x, hx, rfl⟩ := List.mem_map.1 he
      have := sentWrongs_lt x hx
      simp only
      omega
  have hsyn : rsSyn (addrSyms err.away ++ (upTo 68).map (errAt (sentWrongs err))) = syndromes (A ++ placed (sentWrongs err)) := by
    rw [addrSyms_append hA haddr, rsSyn_errAt hplaces, syndromes]
  have hsent : ∀ s ∈ upTo 68, ((upTo 68).map (errAt (sentWrongs err))).getD s 0 = errAt (sentWrongs err) s := fun s hs => by
    have hs : s < 68 := List.mem_range.1 hs
    simp [upTo, List.getD, hs]
  have hwrong : (upTo 68).filter (fun s => ((upTo 68).map (errAt (sentWrongs err))).getD s 0 ≠ 0) = wrongSyms err :=
    List.filter_congr fun s hs => by rw [hsent s hs]
  unfold hbmFound
  simp only [foldl_syms, hwrong, length_wrongSyms_filter h, Bool.false_eq_true, if_false, false_and, hsyn]
  match pins with
  | [] => rfl
  | [p] => rfl
  | p :: q :: r =>
    dsimp only
    congr 1
    exact congrArg RsFound.errs (List.map_congr_left fun s hs => by rw [hsent s (List.mem_filter.1 hs).1])

/-- The place of a symbol of pin p. -/
theorem symPin_eq_iff (s p : Nat) : symPin s = p ↔ s + 4 = 2 * p + 4 ∨ s + 4 = 2 * p + 5 := by
  unfold symPin
  omega

/-- What is wrong beside the erased pin, by position of the codeword. -/
theorem length_beside_pin (p : Nat) (L : List (Nat × Byte)) :
    ((placed L).filter (fun e => decide (e.1 ≠ 2 * p + 4 ∧ e.1 ≠ 2 * p + 5))).length =
      (L.filter (fun e => !([p].contains (symPin e.1)))).length := by
  rw [placed, List.filter_map, List.length_map]
  congr 2
  funext e
  rw [Bool.eq_iff_iff]
  simp [symPin_eq_iff]

/-- A sound sector, read at its own address: the decoder finds what the transfer changed. -/
theorem hbmFound_own {pins : List Nat} (h : Wrongs (sentWrongs err)) (hpins : ∀ p ∈ pins, p < 32) (haway : err.away = 0)
    (hmore : besides pins err ≤ 2 - pins.length) :
    ∃ es, hbmFound pins false err = .errs es ∧ es.Perm (placed (sentWrongs err)) := by
  have hplaces : ∀ e ∈ placed (sentWrongs err), e.1 < 72 := fun e he => by
    obtain ⟨x, hx, rfl⟩ := List.mem_map.1 he
    have := sentWrongs_lt x hx
    simp only
    omega
  rw [hbmFound_sound pins (A := []) (by simp) (by rw [haway]; decide) h, List.nil_append]
  match pins, hpins, hmore with
  | [], _, hmore =>
    refine rsDecode_syndromes h.placed hplaces ?_
    rw [besides_eq] at hmore
    simpa [placed] using hmore
  | [p], hpins, hmore =>
    have hp : p < 32 := hpins p List.mem_cons_self
    refine rsDecodeErased_syndromes h.placed hplaces (by omega) (by omega) (by omega) ?_
    rwa [length_beside_pin, ← besides_eq]
  | p :: q :: r, _, hmore =>
    have hnone : ¬ 0 < besides (p :: q :: r) err := by
      simp only [List.length_cons] at hmore
      omega
    have hperm := (wrongSyms_perm h).map (fun e => (e.1 + 4, e.2))
    rw [List.map_map] at hperm
    exact ⟨_, if_neg hnone, hperm⟩

/-- The address symbols of a difference in one bit. -/
theorem addrSyms_twoPow : ∀ i < 32, addrSyms (BitVec.twoPow 32 i) = (upTo 4).map (errAt [(i / 8, BitVec.twoPow 8 (i % 8))]) ∧
    (BitVec.twoPow 8 (i % 8) : Byte) ≠ 0 ∧ (BitVec.twoPow 32 i : BitVec 32) ≠ 0 ∧
    ((upTo 32).filter (fun k => (BitVec.twoPow 32 i).getLsbD k)).length = 1 ∧
    (upTo 4).filterMap (fun k => let v := (addrSyms (BitVec.twoPow 32 i)).getD k 0; if v = 0 then none else some (k, v)) =
      [(i / 8, (BitVec.twoPow 8 (i % 8) : Byte))] := by
  decide +kernel

/-- A sector that arrives for another address of one differing bit: the decoder finds an address symbol wrong. -/
theorem hbmFound_astray {pins : List Nat} {i : Nat} (poisoned : Bool) (h : Wrongs (sentWrongs err)) (hpins : ∀ p ∈ pins, p < 32)
    (hi : i < 32) (haway : err.away = BitVec.twoPow 32 i) (hmore : pins.length + besides pins err ≤ 1) :
    ∃ es, hbmFound pins poisoned err = .errs es ∧ ∃ e ∈ es, e.1 < 4 := by
  obtain ⟨haddr, hbit, hne, hone, hlist⟩ := addrSyms_twoPow i hi
  have hi4 : i / 8 < 4 := by omega
  cases poisoned
  case true =>
    refine ⟨[(i / 8, BitVec.twoPow 8 (i % 8))], ?_, _, List.mem_singleton_self _, hi4⟩
    have hwrong : (upTo 68).filter (fun s => ((upTo 68).map (errAt (sentWrongs err))).getD s 0 ≠ 0) = wrongSyms err :=
      List.filter_congr fun s hs => by
        have hs : s < 68 := List.mem_range.1 hs
        simp [upTo, List.getD, hs]
    have hsum : besides pins err + pins.length ≤ 1 := by omega
    unfold hbmFound
    simp only [foldl_syms, hwrong, length_wrongSyms_filter h, haway, hne, false_and, and_false, if_false, true_and, hone, hsum,
      if_true, hlist]
    match pins, hmore with
    | [], _ => rfl
    | [p], _ => rfl
  case false =>
    have hA : Wrongs [(i / 8, (BitVec.twoPow 8 (i % 8) : Byte))] := ⟨by simp, by simpa using hbit⟩
    have hlow : ∀ e ∈ placed (sentWrongs err), i / 8 ≠ e.1 := fun e he => by
      obtain ⟨x, -, rfl⟩ := List.mem_map.1 he
      simp only
      omega
    have hall : Wrongs ([(i / 8, (BitVec.twoPow 8 (i % 8) : Byte))] ++ placed (sentWrongs err)) :=
      hA.append h.placed (by simpa using hlow)
    have hplaces : ∀ e ∈ [(i / 8, (BitVec.twoPow 8 (i % 8) : Byte))] ++ placed (sentWrongs err), e.1 < 72 := fun e he => by
      rcases List.mem_append.1 he with he | he
      · rw [List.mem_singleton.1 he]; simp only; omega
      · obtain ⟨x, hx, rfl⟩ := List.mem_map.1 he
        have := sentWrongs_lt x hx
        simp only
        omega
    have hfound : ∃ es, hbmFound pins false err = .errs es ∧
        es.Perm ([(i / 8, (BitVec.twoPow 8 (i % 8) : Byte))] ++ placed (sentWrongs err)) := by
      rw [hbmFound_sound pins (A := [(i / 8, BitVec.twoPow 8 (i % 8))]) (by simpa using hi4) (by rw [haway]; exact haddr) h]
      match pins, hpins, hmore with
      | [], _, hmore =>
        refine rsDecode_syndromes hall hplaces ?_
        rw [besides_eq] at hmore
        have hlen : (sentWrongs err).length ≤ 1 := by simpa using hmore
        simp only [placed, List.length_append, List.length_singleton, List.length_map]
        omega
      | [p], hpins, hmore =>
        have hp : p < 32 := hpins p List.mem_cons_self
        refine rsDecodeErased_syndromes hall hplaces (by omega) (by omega) (by omega) ?_
        rw [List.filter_append, List.length_append, length_beside_pin, ← besides_eq]
        refine (Nat.add_le_add_right (List.length_filter_le _ _) _).trans ?_
        simp only [List.length_singleton] at hmore ⊢
        omega
      | p :: q :: r, _, hmore =>
        simp only [List.length_cons] at hmore
        omega
    obtain ⟨es, hes, hperm⟩ := hfound
    exact ⟨es, hes, _, hperm.mem_iff.2 (List.mem_append_left _ (List.mem_singleton_self _)), hi4⟩

end

/-! ## The read -/

section
variable {d : Dev} {a : Nat} {l : HbmLoc} {err : ReadErr}

/-- A sound sector read at its own address is delivered when the decoder finds what the transfer changed. -/
theorem hbmDecode_own (hloc : d.hbmLoc a = some l) (haway : err.away = 0) (hsound : NSet.has d.mem.hpoison (a / 64) = false)
    (hfound : ∃ es, hbmFound ((d.hbmTile l.tile).pc l.q).pins false err = .errs es ∧ es.Perm (placed (sentWrongs err))) :
    (d.hbmDecode a err).1.bad = false ∧ (d.hbmDecode a err).1.data = d.mem.getAll a 64 := by
  obtain ⟨es, hes, hperm⟩ := hfound
  unfold Dev.hbmDecode
  simp only [hloc, haway, hsound, if_true]
  by_cases hclean : err.syms.isEmpty = true
  · simp [hclean]
  have hhigh : es.any (fun e => e.1 < 4) = false := by
    rw [List.any_eq_false]
    intro e he
    obtain ⟨x, -, rfl⟩ := List.mem_map.1 (hperm.mem_iff.1 he)
    simp
  have hback : (es.map (fun e => (e.1 - 4, e.2))).Perm (sentWrongs err) := by
    have h := hperm.map (fun e : Nat × Byte => (e.1 - 4, e.2))
    have hid : (placed (sentWrongs err)).map (fun e => (e.1 - 4, e.2)) = sentWrongs err := by
      rw [placed, List.map_map]
      exact List.map_id'' (fun e => by simp) _
    rwa [hid] at h
  simp only [hclean, Bool.false_eq_true, false_and, if_false, hes, hhigh]
  exact ⟨trivial, foldl_dataFlip_perm hback _⟩

/-- A read that finds an address symbol wrong delivers poison and raises its event. -/
theorem hbmDecode_mismatch (hloc : d.hbmLoc a = some l) (haway : err.away ≠ 0)
    (hfound : ∀ poisoned, ∃ es, hbmFound ((d.hbmTile l.tile).pc l.q).pins poisoned err = .errs es ∧ ∃ e ∈ es, e.1 < 4) :
    (d.hbmDecode a err).1.bad = true ∧ Raises (d.hbmDecode a err).2 0x0A02 := by
  have hlow : ∀ {es : List (Nat × Byte)}, (∃ e ∈ es, e.1 < 4) → es.any (fun e => e.1 < 4) = true := fun ⟨e, he, hlt⟩ =>
    List.any_eq_true.2 ⟨e, he, by simpa using hlt⟩
  unfold Dev.hbmDecode
  simp only [hloc, haway, and_false, if_false]
  cases d.hbmAway l err.away with
  | some b =>
    obtain ⟨es, hes, hmem⟩ := hfound (NSet.has d.mem.hpoison (b / 64))
    simp only [hes, hlow hmem, if_true]
    exact ⟨trivial, raises_hbmMismatch _ _⟩
  | none =>
    obtain ⟨es, hes, hmem⟩ := hfound false
    have hsame : (({ d with fresh := d.fresh + 8 } : Dev).hbmTile l.tile) = d.hbmTile l.tile := rfl
    simp only [hsame, hes, hlow hmem, if_true]
    exact ⟨trivial, raises_hbmMismatch _ _⟩

end

section
variable {d : Dev} {a n : Nat}

/-- A transfer of a row of HBM gives out what the read of its sector delivers, and changes nothing else but what that read
changes. -/
theorem hbmReadRow_result (err : ReadErr) (hn : 0 < n) (hdvd : n ∣ 64) (hopen : d.hbmOpen a = true)
    (hheld : d.hbmHeld a = false) (hmod : a % n = 0) :
    let x := d.hbmSector (64 * (a / 64)) err
    let d' := d.hbmReadRow a n err
    d'.mem = d.mem ∧ d'.cores = d.cores ∧ d'.pruneDue = d.pruneDue ∧ d'.raised = x.2.raised ∧
      d'.outs = d.outs ++ [if x.1.bad then .poisoned else .bytes ((upTo n).map (fun i => x.1.data.getD (a % 64 + i) 0))] := by
  intro x d'
  obtain ⟨hmem, hcores, houts, hdue⟩ := (HbmOnly.hbmSector d (64 * (a / 64)) err).same
  have hrow : d' = _ := hbmReadRow_eq err hn hdvd hopen hheld hmod
  rw [hrow]
  cases hbad : (d.hbmSector (64 * (a / 64)) err).1.bad <;>
    simp only [x, hbad, if_true, Bool.false_eq_true, if_false] <;>
    exact ⟨hmem, hcores, hdue, rfl, congrArg (· ++ _) houts⟩

end

/-- Settles O57: the check symbols are the remainder by the generator, whose roots are the points of the syndromes; up to two
wrong symbols, or one beside an erased pin, are the solution of the decoder's equations; flips that are found are undone. -/
theorem sectorCode : Obligations.SectorCode := by
  unfold Obligations.SectorCode
  refine ⟨fun w bs _ => ⟨rsSyn_rsCodeword w bs false, rsSyn_rsCodeword w bs true⟩, ?_⟩
  intro a l err s hacts hopen hheld hmod hloc hkeys hvals pins more hpins
  have hwrongs := sentWrongs_wrongs hkeys hvals
  have ha : 64 * (a / 64) = a := by omega
  obtain ⟨hmem, hcores, hdue, hraised, houts⟩ := hbmReadRow_result (d := s.dev.silent) err (n := 64) (by decide) (by decide)
    hopen hheld hmod
  rw [ha] at hraised houts
  have hcompletes : ∀ {P : Dev → Prop}, P ((s.dev.silent.hbmReadRow a 64 err).withPins s.dev) → Completes (.hbmRead a err) s P :=
    completes_settled (f := fun d => d.hbmReadRow a 64 err) hacts (exec_hbmRead a err s) (hdue.trans hacts.2)
  refine ⟨fun haway hsound hmore => hcompletes ⟨?_, hmem, hcores⟩, fun i hi haway hmore => hcompletes ⟨?_, ?_, hmem, hcores⟩⟩
  · obtain ⟨hbad, hdata⟩ := hbmDecode_own (d := s.dev.silent) hloc haway hsound (hbmFound_own hwrongs hpins haway hmore)
    have hall : (upTo 64).map (fun i => (s.dev.mem.getAll a 64).getD (a % 64 + i) 0) = s.dev.mem.getAll a 64 := by
      simp only [hmod, Nat.zero_add]
      exact map_getD_upTo _ _ (length_getAll _ _ _)
    refine houts.trans ?_
    show [if (s.dev.silent.hbmDecode a err).1.bad then Out.poisoned
      else .bytes ((upTo 64).map (fun i => (s.dev.silent.hbmDecode a err).1.data.getD (a % 64 + i) 0))] = _
    rw [hbad, hdata]
    exact congrArg (fun bs => [Out.bytes bs]) hall
  all_goals
    have hne : err.away ≠ 0 := haway ▸ (addrSyms_twoPow i hi).2.2.1
    obtain ⟨hbad, hevent⟩ := hbmDecode_mismatch (d := s.dev.silent) hloc hne
      (fun poisoned => hbmFound_astray poisoned hwrongs hpins hi haway hmore)
  · refine houts.trans ?_
    show [if (s.dev.silent.hbmDecode a err).1.bad then Out.poisoned
      else .bytes ((upTo 64).map (fun i => (s.dev.silent.hbmDecode a err).1.data.getD (a % 64 + i) 0))] = _
    rw [hbad]
    rfl
  · obtain ⟨x, hx, hcode⟩ := hevent
    exact ⟨x, hraised.symm ▸ hx, hcode⟩

end Sys2Proof.Machine
end

section
/-! SUPPORT. Proof of the statement about transfers of HBM (R353 to R355). -/
namespace Sys2Proof.Machine

open Safety

/-! ## Clean reads -/

theorem hbmLoc_of_open {d : Dev} {a : Nat} (h : d.hbmOpen a = true) : ∃ l, d.hbmLoc (64 * (a / 64)) = some l := by
  obtain ⟨hmapped, -⟩ := Bool.and_eq_true_iff.1 h
  unfold Dev.hbmMapped at hmapped
  split at hmapped
  case isFalse => cases hmapped
  case isTrue hlt =>
    simp only [Bool.and_eq_true, decide_eq_true_eq] at hmapped
    have hlow : 64 * (a / 64) < 4 * hbmTileBytes := by omega
    have htile : 64 * (a / 64) / hbmTileBytes = a / hbmTileBytes ∧ 64 * (a / 64) % hbmTileBytes ≤ a % hbmTileBytes := by
      unfold hbmTileBytes at *
      omega
    unfold Dev.hbmLoc hbmPlace
    rw [if_pos hlow, htile.1]
    refine ⟨_, if_neg ?_⟩
    have hrange := hmapped.1
    unfold HbmTile.p at hrange
    omega

/-- An undisturbed transfer delivers the sector as it is stored. -/
theorem hbmDecode_clean {d : Dev} {a : Nat} {l : HbmLoc} (h : d.hbmLoc a = some l) :
    d.hbmDecode a .clean = (⟨NSet.has d.mem.hpoison (a / 64), false, d.mem.getAll a 64⟩, d) := by
  unfold Dev.hbmDecode
  rw [h]
  rfl

/-- Where no sector stands, it delivers poison. -/
theorem hbmDecode_nowhere {d : Dev} {a : Nat} (err : ReadErr) (h : d.hbmLoc a = none) :
    d.hbmDecode a err = (⟨true, false, d.mem.getAll a 64⟩, d) := by
  unfold Dev.hbmDecode
  rw [h]

/-- A transfer with errors, by what the decoder finds. -/
theorem hbmDecode_of_found {d : Dev} {a b : Nat} {l : HbmLoc} {err : ReadErr} (hloc : d.hbmLoc a = some l)
    (herr : err.syms ≠ [] ∨ err.away ≠ 0) (hsrc : (if err.away = 0 then some a else d.hbmAway l err.away) = some b) :
    let found := hbmFound ((d.hbmTile l.tile).pc l.q).pins (NSet.has d.mem.hpoison (b / 64)) err
    (found = .bad → (d.hbmDecode a err).1.bad = true ∧ (d.hbmDecode a err).2 = d.hbmUncorr l) ∧
    (found = .poison → (d.hbmDecode a err).1.bad = true ∧ (d.hbmDecode a err).2 = d) ∧
    (∀ es, found = .errs es → (∃ x ∈ es, x.1 < 4) →
      (d.hbmDecode a err).1.bad = true ∧ (d.hbmDecode a err).2 = d.hbmMismatch l) := by
  have hdirty : ¬ (err.syms.isEmpty = true ∧ err.away = 0) := by
    rintro ⟨hsyms, haway⟩
    rcases herr with h | h
    · exact h (List.isEmpty_iff.1 hsyms)
    · exact h haway
  intro found
  unfold Dev.hbmDecode
  simp only [hloc, hdirty, if_false, hsrc]
  refine ⟨fun hfound => ?_, fun hfound => ?_, fun es hfound ⟨x, hx, hlt⟩ => ?_⟩
  · simp only [found] at hfound
    simp only [hfound, and_self]
  · simp only [found] at hfound
    simp only [hfound, and_self]
  · have hany : es.any (fun e => e.1 < 4) = true := List.any_eq_true.2 ⟨x, hx, decide_eq_true hlt⟩
    simp only [found] at hfound
    simp only [hfound, hany, if_true, and_self]

/-- Bytes of a sector, read by their offset in it. -/
theorem map_getD_getAll (m : Mem) {a n : Nat} (h : a % 64 + n ≤ 64) :
    (upTo n).map (fun i => (m.getAll (64 * (a / 64)) 64).getD (a % 64 + i) 0) = m.getAll a n := by
  refine List.ext_getElem (by simp [upTo]) fun k h1 h2 => ?_
  have hk : k < n := by simpa using h2
  have hin : a % 64 + k < (m.getAll (64 * (a / 64)) 64).length := by rw [length_getAll]; omega
  rw [List.getElem_map, List.getD_eq_getElem _ _ (by simpa [upTo] using hin), getElem_getAll, getElem_getAll]
  congr 1
  simp only [upTo, List.getElem_range]
  omega

/-! ## Writes -/

theorem hbmStore_frame (d : Dev) (k : Nat) (bs : List (Nat × Byte)) (bad : Bool) :
    (d.hbmStore k bs bad).raised = d.raised ∧ (d.hbmStore k bs bad).cores = d.cores ∧
    (d.hbmStore k bs bad).pruneDue = d.pruneDue ∧ (d.hbmStore k bs bad).hbm = d.hbm := by
  and_intros <;> rfl

/-- A store within a sector poisons it or clears its poison. -/
theorem hbmStore_poison (d : Dev) (k : Nat) (bs : List (Nat × Byte)) (bad : Bool) :
    NSet.has (d.hbmStore k bs bad).mem.hpoison k = bad := by
  cases bad <;> simp [Dev.hbmStore, NSet.has, NSet.add, NSet.del]

/-- A poisoned store replaces no data. -/
theorem hbmStore_bad_get (d : Dev) (k : Nat) (bs : List (Nat × Byte)) (b : Nat) :
    (d.hbmStore k bs true).mem.get b = d.mem.get b := rfl

theorem hbmStore_good_get (d : Dev) (k : Nat) (bs : List (Nat × Byte)) (b : Nat) :
    (d.hbmStore k bs false).mem.get b = (bs.foldl (fun (m : Mem) b => m.put b.1 b.2) d.mem).get b := rfl

/-- Puts at consecutive addresses are a store of a run of bytes. -/
theorem foldl_put_eq_putAll (m : Mem) (a : Nat) (bs : List Byte) :
    ((upTo bs.length).zip bs).foldl (fun (m : Mem) e => m.put (a + e.1) e.2) m = m.putAll a bs := by
  have hshift : ∀ (bs : List Byte) (j : Nat) (m : Mem),
      ((List.range' j bs.length).zip bs).foldl (fun (m : Mem) e => m.put (a + e.1) e.2) m = m.putAll (a + j) bs := by
    intro bs
    induction bs with
    | nil => exact fun _ _ => rfl
    | cons x bs ih =>
      intro j m
      rw [List.length_cons, List.range'_succ, List.zip_cons_cons, List.foldl_cons, ih]
      rfl
  have h := hshift bs 0 m
  rwa [← List.range_eq_range'] at h

/-- The cells of bytes that a write brings to its sector. -/
def writeCells (a : Nat) (bs : List Byte) (p : Bool) : List (Nat × PByte) :=
  ((withPoison p bs).zip (upTo bs.length)).map (fun x => (a + x.2, x.1))

theorem mem_writeCells {a : Nat} {bs : List Byte} {p : Bool} {x : Nat × PByte} (h : x ∈ writeCells a bs p) :
    a ≤ x.1 ∧ x.1 < a + bs.length ∧ x.2.2 = p := by
  obtain ⟨⟨⟨b, q⟩, k⟩, hk, rfl⟩ := List.mem_map.1 h
  obtain ⟨hb, hk⟩ := List.of_mem_zip hk
  obtain ⟨y, -, hy⟩ := List.mem_map.1 hb
  exact ⟨Nat.le_add_right _ _, Nat.add_lt_add_left (List.mem_range.1 hk) a, (congrArg Prod.snd hy).symm⟩

theorem length_writeCells (a : Nat) (bs : List Byte) (p : Bool) : (writeCells a bs p).length = bs.length := by
  simp [writeCells, withPoison, upTo]

theorem foldl_put_writeCells (m : Mem) (a : Nat) (bs : List Byte) (p : Bool) :
    ((writeCells a bs p).map (fun b => (b.1, b.2.1))).foldl (fun (m : Mem) b => m.put b.1 b.2) m = m.putAll a bs := by
  rw [← foldl_put_eq_putAll, writeCells, withPoison, List.map_map, List.zip_map_left, List.map_map, ← List.zip_swap,
    List.map_map, List.foldl_map]
  rfl

theorem any_poison_writeCells (a : Nat) {bs : List Byte} (h : bs ≠ []) (p : Bool) :
    (writeCells a bs p).any (fun b => b.2.2) = p := by
  cases p
  · exact List.any_eq_false.2 fun x hx => by simp [(mem_writeCells hx).2.2]
  · have hlen : 0 < (writeCells a bs true).length := by
      rw [length_writeCells]
      exact List.length_pos_of_ne_nil h
    obtain ⟨x, hx⟩ := List.exists_mem_of_length_pos hlen
    exact List.any_eq_true.2 ⟨x, hx, (mem_writeCells hx).2.2⟩

/-- HBM_WRITE of bytes within one sector is one store into it; a partial one is poisoned where the sector is. -/
theorem hbmWriteRow_eq {d : Dev} {a : Nat} {bs : List Byte} (p : Bool) (hne : bs ≠ []) (hin : a % 64 + bs.length ≤ 64)
    (hopen : d.hbmOpen a = true) (hheld : d.hbmHeld a = false) :
    d.hbmWriteRow a (withPoison p bs) .clean =
      if bs.length = 64 then d.hbmStore (a / 64) ((writeCells a bs p).map (fun b => (b.1, b.2.1))) p
      else (d.count ⟨.hbmPerfRd, [64 * (a / 64) / hbmTileBytes]⟩ 63 0 1).hbmStore (a / 64)
        ((writeCells a bs p).map (fun b => (b.1, b.2.1))) (NSet.has d.mem.hpoison (a / 64) || p) := by
  have hlen : 0 < bs.length := List.length_pos_of_ne_nil hne
  have hplen : (withPoison p bs).length = bs.length := by simp [withPoison]
  have hone : (a + bs.length + 63) / 64 - a / 64 = 1 := by omega
  have hall : (writeCells a bs p).filter (fun x => x.1 / 64 = a / 64 + 0) = writeCells a bs p := by
    refine List.filter_eq_self.2 fun x hx => decide_eq_true ?_
    obtain ⟨hlow, hhigh, -⟩ := mem_writeCells hx
    omega
  obtain ⟨l, hl⟩ := hbmLoc_of_open hopen
  unfold Dev.hbmWriteRow
  rw [if_pos (by simp [hopen, hheld, hplen, hlen, hin])]
  unfold Dev.hbmWrite
  simp only [hplen, hone]
  show d.hbmWriteSector (a / 64 + 0) ((writeCells a bs p).filter (fun x => x.1 / 64 = a / 64 + 0)) .clean = _
  rw [hall]
  unfold Dev.hbmWriteSector
  simp only [length_writeCells, any_poison_writeCells a hne, Nat.add_zero, if_true, List.nil_append]
  congr 1
  have hdiv : 64 * (a / 64) / 64 = a / 64 := Nat.mul_div_cancel_left _ (by decide)
  unfold Dev.hbmSector
  rw [hbmDecode_clean hl, hdiv]
  rfl

/-- A run of bytes stored is read back. -/
theorem getAll_putAll (m : Mem) (a : Nat) (bs : List Byte) : (m.putAll a bs).getAll a bs.length = bs :=
  List.ext_getElem (by simp) fun k h1 h2 => by rw [getElem_getAll, Mem.get_putAll_in _ _ _ _ h2]

theorem getAll_congr {m m' : Mem} (h : ∀ b, m.get b = m'.get b) (a n : Nat) : m.getAll a n = m'.getAll a n :=
  List.ext_getElem (by simp) fun k h1 h2 => by rw [getElem_getAll, getElem_getAll, h]

/-- Settles O56: a read gives out what the decoder makes of the sector, a write is one store into it. -/
theorem hbmTransfers : Obligations.HbmTransfers := by
  unfold Obligations.HbmTransfers
  intro a s hacts hopen hheld poisoned calm
  have hsound : (64 * (a / 64)) / 64 = a / 64 := Nat.mul_div_cancel_left _ (by decide)
  refine ⟨fun ⟨cmd, n⟩ he hmod => ?reads, fun bs hne hin => ?writes⟩
  case reads =>
    have hrow : (∀ err, exec (cmd err) s = run s (fun d => (d.hbmReadRow a n err).settle)) ∧ (n = 64 ∨ n = 32) := by
      simp only [List.mem_cons, List.not_mem_nil, or_false, Prod.mk.injEq] at he
      rcases he with ⟨rfl, rfl⟩ | ⟨rfl, rfl⟩
      exacts [⟨fun err => exec_hbmRead a err s, .inl rfl⟩, ⟨fun err => exec_hbmGather a err s, .inr rfl⟩]
    obtain ⟨hcmd, hn⟩ := hrow
    have hmod : a % n = 0 := hmod
    have hsize : 0 < n ∧ n ∣ 64 ∧ a % 64 + n ≤ 64 := by
      rcases hn with rfl | rfl
      · exact ⟨by decide, by decide, by omega⟩
      · exact ⟨by decide, by decide, by omega⟩
    obtain ⟨hpos, hdvd, hwithin⟩ := hsize
    have hresult := fun err => hbmReadRow_result (d := s.dev.silent) err hpos hdvd hopen hheld hmod
    have hcompletes : ∀ {err : ReadErr} {P : Dev → Prop}, P ((s.dev.silent.hbmReadRow a n err).withPins s.dev) →
        Completes (cmd err) s P := fun {err} {P} =>
      completes_settled (f := fun d => d.hbmReadRow a n err) hacts (hcmd err) ((hresult err).2.2.1.trans hacts.2)
    have hcalm : ∀ err, calm ((s.dev.silent.hbmReadRow a n err).withPins s.dev) := fun err => ⟨(hresult err).1, (hresult err).2.1⟩
    have hout : ∀ err, (s.dev.silent.hbmReadRow a n err).outs = [if (s.dev.silent.hbmDecode (64 * (a / 64)) err).1.bad then
        Out.poisoned else .bytes ((upTo n).map (fun i => (s.dev.silent.hbmDecode (64 * (a / 64)) err).1.data.getD (a % 64 + i) 0))] :=
      fun err => (hresult err).2.2.2.2
    have hraised : ∀ err, (s.dev.silent.hbmReadRow a n err).raised = (s.dev.silent.hbmDecode (64 * (a / 64)) err).2.raised :=
      fun err => (hresult err).2.2.2.1
    obtain ⟨l0, hl0⟩ := hbmLoc_of_open (d := s.dev.silent) hopen
    have hclean := hbmDecode_clean hl0
    rw [hsound] at hclean
    refine ⟨fun hp => hcompletes ⟨?_, (hraised _).trans (by rw [hclean]; rfl), hcalm _⟩,
      fun hp => hcompletes ⟨?_, (hraised _).trans (by rw [hclean]; rfl), hcalm _⟩, fun err l b hl herr hsrc => ?errs⟩
    · have hp : NSet.has s.dev.silent.mem.hpoison (a / 64) = false := hp
      refine (hout _).trans ?_
      rw [hclean, hp]
      exact congrArg (fun bs => [Out.bytes bs]) (map_getD_getAll s.dev.mem hwithin)
    · have hp : NSet.has s.dev.silent.mem.hpoison (a / 64) = true := hp
      refine (hout _).trans ?_
      rw [hclean, hp]
      rfl
    case errs =>
      obtain ⟨hbad, hpoison, hlow⟩ := hbmDecode_of_found (d := s.dev.silent) hl herr hsrc
      have hpoisoned : (s.dev.silent.hbmDecode (64 * (a / 64)) err).1.bad = true →
          (s.dev.silent.hbmReadRow a n err).outs = [.poisoned] := fun h => by rw [hout, h]; rfl
      have hevent : ∀ {d code}, (s.dev.silent.hbmDecode (64 * (a / 64)) err).2 = d → Raises d code →
          Raises ((s.dev.silent.hbmReadRow a n err).withPins s.dev) code := fun hd ⟨x, hx, hcode⟩ =>
        ⟨x, ((hraised err).trans (congrArg Dev.raised hd)).symm ▸ hx, hcode⟩
      refine ⟨fun h => hcompletes ?_, fun h => hcompletes ?_, fun es h hes => hcompletes ?_⟩
      · obtain ⟨h1, h2⟩ := hbad h
        exact ⟨hpoisoned h1, hevent h2 (raises_hbmUncorr _ _), hcalm _⟩
      · obtain ⟨h1, h2⟩ := hpoison h
        exact ⟨hpoisoned h1, (hraised err).trans ((congrArg Dev.raised h2).trans rfl), hcalm _⟩
      · obtain ⟨h1, h2⟩ := hlow es h hes
        exact ⟨hpoisoned h1, hevent h2 (raises_hbmMismatch _ _), hcalm _⟩
  case writes =>
    have hrow := fun p => hbmWriteRow_eq (d := s.dev.silent) p hne hin hopen hheld
    have hframe : ∀ p, (s.dev.silent.hbmWriteRow a (withPoison p bs) .clean).raised = s.dev.raised ∧
        (s.dev.silent.hbmWriteRow a (withPoison p bs) .clean).cores = s.dev.cores ∧
        (s.dev.silent.hbmWriteRow a (withPoison p bs) .clean).pruneDue = s.dev.pruneDue := fun p => by
      rw [hrow p]
      split <;> exact ⟨rfl, rfl, rfl⟩
    have hcompletes : ∀ {p : Bool} {P : Dev → Prop},
        P ((s.dev.silent.hbmWriteRow a (withPoison p bs) .clean).withPins s.dev) → Completes (.hbmWrite a bs p .clean) s P :=
      fun {p} {P} => completes_settled (f := fun d => d.hbmWriteRow a (withPoison p bs) .clean) hacts
        (exec_hbmWrite a bs p .clean s) ((hframe p).2.2.trans hacts.2)
    have hmem : ∀ p, ∃ d : Dev, d.mem = s.dev.mem ∧ (s.dev.silent.hbmWriteRow a (withPoison p bs) .clean).mem =
        (d.hbmStore (a / 64) ((writeCells a bs p).map (fun b => (b.1, b.2.1)))
          (if bs.length = 64 then p else poisoned || p)).mem := fun p => by
      rw [hrow p]
      split
      · exact ⟨s.dev.silent, rfl, rfl⟩
      · exact ⟨s.dev.silent.count ⟨.hbmPerfRd, [64 * (a / 64) / hbmTileBytes]⟩ 63 0 1, rfl, rfl⟩
    refine ⟨fun hsound => hcompletes ?good, fun hpart hpoison => hcompletes ?partial_, hcompletes ?bad⟩
    case good =>
      obtain ⟨d, hd, hstored⟩ := hmem false
      have hgood : (if bs.length = 64 then false else poisoned || false) = false := by
        rcases hsound with h | h <;> simp [h]
      rw [hgood] at hstored
      have hget : ∀ b, (s.dev.silent.hbmWriteRow a (withPoison false bs) .clean).mem.get b = (s.dev.mem.putAll a bs).get b :=
        fun b => by rw [hstored, hbmStore_good_get, foldl_put_writeCells, hd]
      refine ⟨?_, fun b hb => ?_, ?_, hframe false |>.1, hframe false |>.2.1⟩
      · exact (getAll_congr hget a bs.length).trans (getAll_putAll _ _ _)
      · exact (hget b).trans (Mem.get_putAll_out _ _ _ _ hb)
      · exact (congrArg (fun m : Mem => NSet.has m.hpoison (a / 64)) hstored).trans (hbmStore_poison d _ _ _)
    case partial_ =>
      obtain ⟨d, hd, hstored⟩ := hmem false
      rw [if_neg (by omega), hpoison, Bool.true_or] at hstored
      refine ⟨fun b => ?_, ?_, hframe false |>.1, hframe false |>.2.1⟩
      · exact (congrArg (fun m : Mem => m.get b) hstored).trans (by rw [hbmStore_bad_get, hd])
      · exact (congrArg (fun m : Mem => NSet.has m.hpoison (a / 64)) hstored).trans (hbmStore_poison d _ _ _)
    case bad =>
      obtain ⟨d, hd, hstored⟩ := hmem true
      rw [Bool.or_true, ite_self] at hstored
      refine ⟨fun b => ?_, ?_, hframe true |>.1, hframe true |>.2.1⟩
      · exact (congrArg (fun m : Mem => m.get b) hstored).trans (by rw [hbmStore_bad_get, hd])
      · exact (congrArg (fun m : Mem => NSet.has m.hpoison (a / 64)) hstored).trans (hbmStore_poison d _ _ _)

end Sys2Proof.Machine
end

section
/-! SUPPORT. Fields of register words: what a field holds after a write of it or of another, and after a count. -/
namespace Sys2Proof.Machine

theorem fld_lt {w : Nat} (hi lo : Nat) (x : BitVec w) : fld hi lo x < 2 ^ (hi + 1 - lo) := Nat.mod_lt _ (Nat.two_pow_pos _)

theorem maskOf_getLsbD (hi lo k : Nat) :
    (maskOf hi lo).getLsbD k = (decide (k < 64) && decide (lo ≤ k) && decide (k - lo < hi + 1 - lo)) := by
  unfold maskOf
  rw [BitVec.getLsbD_ofNat, Nat.testBit_shiftLeft, Nat.testBit_two_pow_sub_one]
  simp only [ge_iff_le, Bool.and_assoc]

/-- A bit of a word with one field replaced. -/
theorem setFld_getLsbD (hi lo v k : Nat) (x : Word) :
    (setFld hi lo v x).getLsbD k =
      if k < 64 ∧ lo ≤ k ∧ k - lo < hi + 1 - lo then v.testBit (k - lo) else x.getLsbD k := by
  unfold setFld
  rw [BitVec.getLsbD_or, BitVec.getLsbD_and, BitVec.getLsbD_not, maskOf_getLsbD, put_getLsbD]
  by_cases hk : k < 64
  · by_cases hlo : lo ≤ k <;> by_cases hhi : k - lo < hi + 1 - lo <;> simp [hk, hlo, hhi]
  · have hx : x.getLsbD k = false := BitVec.getLsbD_of_ge x k (by omega)
    simp [hk, hx]

/-- The field that was replaced. -/
theorem fld_setFld_self {hi lo : Nat} (v : Nat) (x : Word) (hhi : hi < 64) :
    fld hi lo (setFld hi lo v x) = v % 2 ^ (hi + 1 - lo) := by
  refine Nat.eq_of_testBit_eq fun k => ?_
  rw [fld_testBit, setFld_getLsbD, Nat.testBit_mod_two_pow]
  by_cases hk : k < hi + 1 - lo
  · have hin : lo + k < 64 ∧ lo ≤ lo + k ∧ lo + k - lo < hi + 1 - lo := by omega
    rw [if_pos hin, Nat.add_sub_cancel_left]
  · simp [hk]

/-- Another field than the one that was replaced. -/
theorem fld_setFld_other {hi lo hi' lo' : Nat} (v : Nat) (x : Word) (h : hi' < lo ∨ hi < lo') :
    fld hi' lo' (setFld hi lo v x) = fld hi' lo' x := by
  refine Nat.eq_of_testBit_eq fun k => ?_
  rw [fld_testBit, fld_testBit, setFld_getLsbD]
  by_cases hk : k < hi' + 1 - lo'
  · have hout : ¬ (lo' + k < 64 ∧ lo ≤ lo' + k ∧ lo' + k - lo < hi + 1 - lo) := by omega
    rw [if_neg hout]
  · simp [hk]

section
variable (d : Dev) (r : Reg)

theorem regFld_setReg_self (hi lo : Nat) (v : Word) : (d.setReg r v).regFld r hi lo = fld hi lo v := by
  unfold Dev.regFld
  rw [Dev.setReg_self]

theorem reg_setRegFld_self (hi lo v : Nat) : (d.setRegFld r hi lo v).reg r = setFld hi lo v (d.reg r) := Dev.setReg_self _ _ _

/-- A counted field: one more, up to its highest value. -/
theorem regFld_count_self {hi lo : Nat} (k : Nat) (hhi : hi < 64) :
    (d.count r hi lo k).regFld r hi lo = min (d.regFld r hi lo + k) (2 ^ (hi + 1 - lo) - 1) := by
  unfold Dev.count
  rw [Dev.regFld, reg_setRegFld_self, fld_setFld_self _ _ hhi, satAdd, Nat.mod_eq_of_lt]
  have := Nat.two_pow_pos (hi + 1 - lo)
  omega

variable {r} {r' : Reg}

theorem reg_count_ne (h : r.addr ≠ r'.addr) (hi lo k : Nat) : (d.count r hi lo k).reg r' = d.reg r' := Dev.setReg_ne _ _ _ _ h

theorem reg_setRegFld_ne (h : r.addr ≠ r'.addr) (hi lo v : Nat) : (d.setRegFld r hi lo v).reg r' = d.reg r' :=
  Dev.setReg_ne _ _ _ _ h

end

end Sys2Proof.Machine
end

section
/-! SUPPORT. Proof of the statement about the upkeep of HBM (R349, R356, R357, R360, R364, R369, R370). -/
namespace Sys2Proof.Machine

open Safety

/-! ## What the decoder's reports keep -/

/-- Reports move no scrubber and count no transfer. -/
theorem HbmSteps.upkeep {d d' : Dev} (h : HbmSteps d d') :
    (∀ t q, ((d'.hbmTile t).pc q).scrub = ((d.hbmTile t).pc q).scrub) ∧
    ∀ t < 4, d'.reg ⟨.hbmPerfRd, [t]⟩ = d.reg ⟨.hbmPerfRd, [t]⟩ ∧ d'.reg ⟨.hbmPerfWr, [t]⟩ = d.reg ⟨.hbmPerfWr, [t]⟩ := by
  induction h with
  | refl d => exact ⟨fun _ _ => rfl, fun _ _ => ⟨rfl, rfl⟩⟩
  | trans _ _ h h' => exact ⟨fun t q => (h'.1 t q).trans (h.1 t q), fun t ht =>
      ⟨((h'.2 t ht).1).trans (h.2 t ht).1, ((h'.2 t ht).2).trans (h.2 t ht).2⟩⟩
  | log d v ht =>
    refine ⟨fun _ _ => rfl, fun t' ht' => ⟨Dev.setReg_ne _ _ _ _ ?_, Dev.setReg_ne _ _ _ _ ?_⟩⟩ <;>
      simp [Reg.addr, RK.row] <;> omega
  | tile d t hf =>
    refine ⟨fun t' q => ?_, fun _ _ => by simp only [Dev.onHbm_reads, and_self]⟩
    rw [Dev.onHbm_get]
    split
    · rename_i ht; rw [hf, ht]
    · rfl
  | event => simp only [Dev.raise_reads, implies_true, and_self]
  | free => exact ⟨fun _ _ => by unfold Dev.hbmTile; rfl, fun _ _ => by unfold Dev.reg; exact ⟨rfl, rfl⟩⟩
  | fault d code p rs =>
    refine ⟨fun t q => ?_, fun t ht => ?_⟩
    · unfold Dev.faultPart Dev.hbmTile Dev.faultNote
      dsimp only
      split <;> simp only [Dev.raise_frame, Dev.setRegFld_frame, Dev.count_frame, Dev.onPart_frame]
    · have hrd : Reg.addr ⟨.prtRecovery, []⟩ ≠ Reg.addr ⟨.hbmPerfRd, [t]⟩ := by simp [Reg.addr, RK.row]; omega
      have hwr : Reg.addr ⟨.prtRecovery, []⟩ ≠ Reg.addr ⟨.hbmPerfWr, [t]⟩ := by simp [Reg.addr, RK.row]; omega
      have hkept : ∀ r : Reg, Reg.addr ⟨.prtRecovery, []⟩ ≠ r.addr → (d.faultPart code p rs).reg r = d.reg r := fun r hr => by
        have hregs : (d.faultPart code p rs).regs = (if d.recovering p then (d.faultNote code p).raise 0x0F26 (some p) 0x1FF
          else ((d.faultNote code p).count ⟨.prtRecovery, []⟩ 47 16 1).setRegFld ⟨.prtRecovery, []⟩ 63 48 code).regs := rfl
        rw [Dev.reg_congr hregs]
        unfold Dev.faultNote
        split
        · simp only [Dev.raise_reads, Dev.onPart_reads]
        · rw [reg_setRegFld_ne _ hr, reg_count_ne _ hr]
          simp only [Dev.onPart_reads]
      exact ⟨hkept _ hrd, hkept _ hwr⟩

/-! ## Stores of what was read -/

theorem foldl_put_same (m : Mem) {cells : List (Nat × Byte)} (h : ∀ e ∈ cells, m.get e.1 = e.2) (b : Nat) :
    (cells.foldl (fun (m : Mem) e => m.put e.1 e.2) m).get b = m.get b := by
  induction cells generalizing m with
  | nil => rfl
  | cons e cells ih =>
    simp only [List.forall_mem_cons] at h
    have hput : ∀ k, (m.put e.1 e.2).get k = m.get k := fun k => by
      rw [Mem.get_put]
      split
      · rename_i hk; rw [← hk, h.1]
      · rfl
    rw [List.foldl_cons, ih (m.put e.1 e.2) (fun x hx => (hput _).trans (h.2 x hx)), hput]

/-- The cells of an undisturbed sector are its bytes. -/
theorem cells_getAll (m : Mem) (k : Nat) (bad fixed : Bool) :
    ∀ e ∈ (⟨bad, fixed, m.getAll (64 * k) 64⟩ : SectorRead).cells k, m.get e.1 = e.2 := fun e he => by
  unfold SectorRead.cells at he
  obtain ⟨⟨i, v⟩, hi, rfl⟩ := List.mem_map.1 he
  obtain ⟨j, hj, hij⟩ := List.mem_iff_getElem.1 hi
  simp only [List.getElem_zip, upTo, List.getElem_range, Prod.mk.injEq] at hij
  obtain ⟨rfl, rfl⟩ := hij
  rw [getElem_getAll]

/-- Storing an undisturbed sector again changes no byte. -/
theorem hbmStore_same_get (d : Dev) (k : Nat) (bad fixed bad' : Bool) (b : Nat) :
    (d.hbmStore k ((⟨bad, fixed, d.mem.getAll (64 * k) 64⟩ : SectorRead).cells k) bad').mem.get b = d.mem.get b := by
  cases bad'
  · rw [hbmStore_good_get]
    exact foldl_put_same d.mem (cells_getAll d.mem k bad fixed) b
  · exact hbmStore_bad_get _ _ _ _

/-- A clean read of a sector counts itself and changes nothing else. -/
theorem hbmSector_clean (d : Dev) (k : Nat) : ∃ bad, d.hbmSector (64 * k) .clean =
    (⟨bad, false, d.mem.getAll (64 * k) 64⟩, d.count ⟨.hbmPerfRd, [64 * k / hbmTileBytes]⟩ 63 0 1) := by
  unfold Dev.hbmSector
  cases hloc : d.hbmLoc (64 * k) with
  | none => exact ⟨true, by rw [hbmDecode_nowhere _ hloc]; rfl⟩
  | some l => exact ⟨_, by rw [hbmDecode_clean hloc]; rfl⟩

/-! ## The scrubber -/

/-- The address at which the scrubber of the l-th pseudo-channel in service, q, stands (R356). -/
def scrubAddr (d : Dev) (t q l : Nat) : Nat :=
  t * hbmTileBytes + (((d.hbmTile t).pc q).scrub / 4 * (d.hbmTile t).service.length + l) * 256 + ((d.hbmTile t).pc q).scrub % 4 * 64

/-- The scrubber's next place. -/
def Dev.scrubOn (d : Dev) (t q : Nat) : Dev :=
  d.onHbm t (fun h => h.onPc q (fun x => { x with scrub := (x.scrub + 1) % 18874368 }))

section
variable {d : Dev} {t q l : Nat}

theorem hbmScrub_eq (hidx : (d.hbmTile t).service.findIdx? (fun x => x = q) = some l) (err : ReadErr) :
    d.hbmScrub t q err =
      if (d.hbmCfg t).getLsbD 24 = true ∧ d.hbmHeld (scrubAddr d t q l) = false then
        let r := d.hbmSector (scrubAddr d t q l) err
        (if r.1.fixed then r.2.hbmStore (scrubAddr d t q l / 64) (r.1.cells (scrubAddr d t q l / 64)) false else r.2).scrubOn t q
      else d := by
  have haddr : t * hbmTileBytes + ((((d.hbmTile t).pc q).scrub / 4 * (d.hbmTile t).service.length + l) <<< 8) +
      ((d.hbmTile t).pc q).scrub % 4 * 64 = scrubAddr d t q l := by
    rw [scrubAddr, Nat.shiftLeft_eq]
  unfold Dev.hbmScrub
  simp only [hidx, haddr, bit, Bool.and_eq_true, Bool.not_eq_true']
  rfl

theorem scrubAddr_mod : scrubAddr d t q l % 64 = 0 := by
  unfold scrubAddr hbmTileBytes
  omega

/-- Within the pseudo-channel the scrubber stands in its tile. -/
theorem scrubAddr_tile (hidx : (d.hbmTile t).service.findIdx? (fun x => x = q) = some l)
    (hpos : ((d.hbmTile t).pc q).scrub < 18874368) : scrubAddr d t q l / hbmTileBytes = t := by
  obtain ⟨hl, -⟩ := List.findIdx?_eq_some_iff_getElem.1 hidx
  have hlen : (d.hbmTile t).service.length ≤ 96 := by
    unfold HbmTile.service
    exact (List.length_filter_le _ _).trans (by simp [upTo])
  unfold scrubAddr
  generalize ((d.hbmTile t).pc q).scrub = pos at *
  generalize (d.hbmTile t).service.length = n at *
  have hmul : pos / 4 * n + l < 4718592 * n := by
    have h : pos / 4 + 1 ≤ 4718592 := by omega
    have := Nat.mul_le_mul_right n h
    rw [Nat.add_mul, Nat.one_mul] at this
    omega
  have hsmall : (pos / 4 * n + l) * 256 + pos % 4 * 64 < hbmTileBytes := by
    unfold hbmTileBytes
    omega
  rw [Nat.add_assoc, Nat.mul_comm, Nat.mul_add_div (by decide), Nat.div_eq_of_lt hsmall, Nat.add_zero]

theorem scrubOn_scrub : (((d.scrubOn t q).hbmTile t).pc q).scrub = (((d.hbmTile t).pc q).scrub + 1) % 18874368 := by
  simp [Dev.scrubOn]

end

/-! ## Temperature (R357, R370) -/

/-- A stack's record after a sample of `temp` at Tempo number n. -/
def HbmStack.sampled (x : HbmStack) (temp : Int) (n : Nat) : HbmStack :=
  { x with
    temp := temp, st := thermNext x.st temp, tempo := if thermNext x.st temp = x.st then x.tempo else n % 2 ^ 32
    peak := some (match x.peak with
      | none => temp
      | some p => max p temp) }

/-- The codes of the events that a change to thermal state `st` raises. -/
def thermEvents (st : Nat) : List Nat := 0x0A04 :: if st = 3 then [0x0A05] else if st = 4 then [0x0A06] else []

/-- Events raised one after another leave all but their list alone. -/
theorem raiseAll_eq (codes : List Nat) (part : Option Nat) (unit : Nat) (d : Dev) :
    ∃ new, codes.foldl (fun (d : Dev) c => d.raise c part unit) d = { d with raised := d.raised ++ new } ∧
      ∀ c ∈ codes, ∃ x ∈ new, x.code = c := by
  induction codes generalizing d with
  | nil => exact ⟨[], by simp, by simp⟩
  | cons c codes ih =>
    obtain ⟨new, heq, hcodes⟩ := ih (d.raise c part unit)
    refine ⟨⟨c, evClass c, part, unit, 0, d.tempo⟩ :: new, ?_, ?_⟩
    · rw [List.foldl_cons, heq]
      simp [Dev.raise, Dev.raiseAs]
    · simp only [List.forall_mem_cons]
      exact ⟨⟨_, List.mem_cons_self, rfl⟩, fun c' hc' => by
        obtain ⟨x, hx, hcode⟩ := hcodes c' hc'
        exact ⟨x, List.mem_cons_of_mem _ hx, hcode⟩⟩

/-- A sample changes its stack's record, and raises events where the thermal state changes. -/
theorem hbmTemp_eq (d : Dev) (t k : Nat) (temp : Int) :
    let x := (d.hbmTile t).stack k
    let d1 := d.onHbm t (fun h => h.onStack k (fun x => x.sampled temp d.tempo))
    d.hbmTemp t k temp = if thermNext x.st temp = x.st then d1
      else (thermEvents (thermNext x.st temp)).foldl (fun (d : Dev) c => d.raise c (some (d1.tilePart t)) t) d1 := by
  intro x d1
  have hbranches : d.hbmTemp t k temp = if thermNext x.st temp = x.st then d1
      else if thermNext x.st temp = 3 then (d1.raise 0x0A04 (some (d1.tilePart t)) t).raise 0x0A05 (some (d1.tilePart t)) t
      else if thermNext x.st temp = 4 then (d1.raise 0x0A04 (some (d1.tilePart t)) t).raise 0x0A06 (some (d1.tilePart t)) t
      else d1.raise 0x0A04 (some (d1.tilePart t)) t := rfl
  rw [hbranches]
  clear hbranches
  clear_value d1
  unfold thermEvents
  split_ifs <;> rfl

/-- The device after a sample that raised `new`. -/
def Dev.sampled (d : Dev) (t k : Nat) (temp : Int) (new : List Raised) : Dev :=
  { d.onHbm t (fun h => h.onStack k (fun x => x.sampled temp d.tempo)) with raised := d.raised ++ new }

theorem sampled_stack (d p : Dev) (t k : Nat) (temp : Int) (new : List Raised) (j : Nat) :
    (((d.sampled t k temp new).withPins p).hbmTile t).stack j =
      if k = j then ((d.hbmTile t).stack k).sampled temp d.tempo else (d.hbmTile t).stack j := by
  have htile : ((d.sampled t k temp new).withPins p).hbmTile t = (d.hbmTile t).onStack k (fun x => x.sampled temp d.tempo) :=
    (Dev.onHbm_get d t t (fun h => h.onStack k (fun x => x.sampled temp d.tempo))).trans (if_pos rfl)
  rw [htile, HbmTile.onStack_stack]

/-- The sample's effect as one record, with the events that it raises. -/
theorem hbmTemp_result (d : Dev) (t k : Nat) (temp : Int) :
    let x := (d.hbmTile t).stack k
    ∃ new, d.hbmTemp t k temp = d.sampled t k temp new ∧
      (thermNext x.st temp = x.st → new = []) ∧
      (thermNext x.st temp ≠ x.st → ∀ c ∈ thermEvents (thermNext x.st temp), ∃ e ∈ new, e.code = c) := by
  intro x
  have heq := hbmTemp_eq d t k temp
  dsimp only at heq
  by_cases h : thermNext x.st temp = x.st
  · exact ⟨[], by rw [heq, if_pos h, Dev.sampled, List.append_nil]; rfl, fun _ => rfl, fun hne => absurd h hne⟩
  · obtain ⟨new, hfold, hcodes⟩ := raiseAll_eq (thermEvents (thermNext x.st temp))
      (some ((d.onHbm t (fun h => h.onStack k (fun x => x.sampled temp d.tempo))).tilePart t)) t
      (d.onHbm t (fun h => h.onStack k (fun x => x.sampled temp d.tempo)))
    exact ⟨new, by rw [heq, if_neg h]; exact hfold, fun hsame => absurd hsame h, fun _ => hcodes⟩

/-! ## Parity errors (R364) -/

/-- A channel entered into a table, where it does not stand there yet. -/
theorem find?_enter (m : FMap Due) (c : Nat) (due : Due) :
    FMap.find? (if (FMap.find? m c).isSome then m else FMap.insert m c due) c = some ((FMap.find? m c).getD due) := by
  cases h : FMap.find? m c with
  | none => simp
  | some x => simp [h]

/-- An interface of which either pseudo-channel of the pair had four errors in the window before. -/
def HbmTile.again (h : HbmTile) (q : Nat) : Bool := (h.pc (q / 2 * 2)).ifPrev || (h.pc (q / 2 * 2 + 1)).ifPrev

/-- A tile's record after an error at q counted. -/
def HbmTile.ifCounted (h : HbmTile) (q : Nat) : HbmTile := h.onPc q (fun x => { x with ifErr := x.ifErr + 1, addr := satAdd 16 x.addr 1 })

/-- A tile's record when the fourth error of a window has counted. -/
def HbmTile.ifDue (h : HbmTile) (q : Nat) (due : Due) : HbmTile :=
  if h.again q then { h with failed := if (FMap.find? h.failed (q / 2)).isSome then h.failed else FMap.insert h.failed (q / 2) due }
  else { h with retrain := if (FMap.find? h.retrain (q / 2)).isSome then h.retrain else FMap.insert h.retrain (q / 2) .reported }

theorem hbmIfCount_eq (d : Dev) (t q : Nat) : d.hbmIfCount t q =
    if ((d.hbmTile t).pc q).ifErr + 1 = 4 then
      (d.onHbm t (fun h => h.ifCounted q)).onHbm t (fun h => h.ifDue q (d.dueOf (d.tilePart t)))
    else d.onHbm t (fun h => h.ifCounted q) := by
  unfold Dev.hbmIfCount
  have hdue : (fun (h : HbmTile) => if (h.pc (q / 2 * 2)).ifPrev = true ∨ (h.pc (q / 2 * 2 + 1)).ifPrev = true then
        if (FMap.find? h.failed (q / 2)).isSome then h else { h with failed := FMap.insert h.failed (q / 2) (d.dueOf (d.tilePart t)) }
      else if (FMap.find? h.retrain (q / 2)).isSome then h
      else { h with retrain := FMap.insert h.retrain (q / 2) .reported }) = fun h => h.ifDue q (d.dueOf (d.tilePart t)) := by
    funext h
    unfold HbmTile.ifDue HbmTile.again
    simp only [Bool.or_eq_true]
    split_ifs <;> rfl
  dsimp only
  exact if_congr Iff.rfl (congrArg _ hdue) rfl

theorem ifDue_pc (h : HbmTile) (q j : Nat) (due : Due) : (h.ifDue q due).pc j = h.pc j := by
  unfold HbmTile.ifDue
  split <;> rfl

theorem ifCounted_pc (h : HbmTile) (q : Nat) : ((h.ifCounted q).pc q).ifErr = (h.pc q).ifErr + 1 := by
  simp [HbmTile.ifCounted]

theorem ifCounted_again (h : HbmTile) (q : Nat) : (h.ifCounted q).again q = h.again q := by
  have hprev : ∀ j, ((h.ifCounted q).pc j).ifPrev = (h.pc j).ifPrev := fun j => by
    rw [HbmTile.ifCounted, HbmTile.onPc_pc]
    split
    · rename_i hj; rw [← hj]
    · rfl
  unfold HbmTile.again
  rw [hprev, hprev]

/-- What the count of an error makes of the tile. -/
theorem hbmIfCount_tile (d : Dev) (t q : Nat) :
    let h := d.hbmTile t
    let h' := (d.hbmIfCount t q).hbmTile t
    (h'.pc q).ifErr = (h.pc q).ifErr + 1 ∧
    ((h.pc q).ifErr = 3 →
      (h.again q = false → FMap.find? h'.retrain (q / 2) = some ((FMap.find? h.retrain (q / 2)).getD .reported)) ∧
      (h.again q = true → FMap.find? h'.failed (q / 2) = some ((FMap.find? h.failed (q / 2)).getD (d.dueOf (d.tilePart t))))) := by
  intro h h'
  have htile : h' = if (h.pc q).ifErr + 1 = 4 then (h.ifCounted q).ifDue q (d.dueOf (d.tilePart t)) else h.ifCounted q := by
    unfold h'
    rw [hbmIfCount_eq]
    split_ifs <;> simp [h]
  rw [htile]
  refine ⟨?_, fun h3 => ?_⟩
  · split_ifs
    · rw [ifDue_pc, ifCounted_pc]
    · exact ifCounted_pc h q
  · rw [if_pos (by omega)]
    unfold HbmTile.ifDue
    rw [ifCounted_again]
    exact ⟨fun hno => by rw [hno]; exact find?_enter h.retrain (q / 2) _, fun hyes => by rw [hyes]; exact find?_enter h.failed (q / 2) _⟩

/-- An error counted changes the records of HBM alone. -/
theorem hbmIfCount_frame (d : Dev) (t q : Nat) : ∃ hbm, d.hbmIfCount t q = { d with hbm := hbm } := by
  rw [hbmIfCount_eq]
  split
  · exact ⟨_, rfl⟩
  · exact ⟨_, rfl⟩

/-- What HBM_ERR_LOG holds after a parity error at q. -/
def parityLog (q : Nat) (v : Word) : Word := setFld 40 35 0x3F (setFld 9 3 q (setFld 2 0 4 v))

theorem parityLog_fields (q : Fin 96) (v : Word) : fld 2 0 (parityLog q.val v) = 4 ∧ fld 9 3 (parityLog q.val v) = q.val := by
  unfold parityLog
  constructor
  · rw [fld_setFld_other _ _ (by omega), fld_setFld_other _ _ (by omega), fld_setFld_self _ _ (by omega)]
    rfl
  · rw [fld_setFld_other _ _ (by omega), fld_setFld_self _ _ (by omega), Nat.mod_eq_of_lt (by omega)]

/-- The log of errors is not where the shape of the partitions stands. -/
theorem tilePart_errLog (d : Dev) (t j : Nat) (v : Word) : (d.setReg ⟨.hbmErrLog, [t]⟩ v).tilePart j = d.tilePart j := by
  unfold Dev.tilePart Dev.shape Dev.regFld
  rw [Dev.setReg_ne]
  simp [Reg.addr, RK.row]
  omega

theorem hbmParity_eq {d : Dev} {t : Nat} (hlost : d.lost (4 + t) = false) (q : Nat) : d.hbmParity t q =
    ((d.setReg ⟨.hbmErrLog, [t]⟩ (parityLog q (d.reg ⟨.hbmErrLog, [t]⟩))).raise 0x0A0C (some (d.tilePart t)) q).hbmIfCount t q := by
  unfold Dev.hbmParity
  rw [if_neg (Bool.eq_false_iff.1 hlost)]
  rfl

/-! ## Remedies and retrainings (R360, R364) -/

theorem remedyDone_faults (d : Dev) (r : Remedy) : ∀ x ∈ (d.remedyDone r).faults, r ∉ x.remedies := fun x hx => by
  obtain ⟨y, -, rfl⟩ := List.mem_map.1 hx
  simp

/-- The sectors of a row read and stored again: no byte changes, nor any record of HBM. -/
theorem foldl_copy_row (l : List (Nat × Nat)) (d : Dev) :
    let d' := l.foldl (fun (d : Dev) x =>
      let r := d.hbmSector (64 * x.1) (ReadErrs.at [] x.2)
      r.2.hbmStore x.1 (r.1.cells x.1) r.1.bad) d
    (∀ b, d'.mem.get b = d.mem.get b) ∧ d'.cores = d.cores ∧ d'.hbm = d.hbm ∧ d'.pruneDue = d.pruneDue := by
  induction l generalizing d with
  | nil => exact ⟨fun _ => rfl, rfl, rfl, rfl⟩
  | cons x l ih =>
    obtain ⟨bad, hread⟩ := hbmSector_clean d x.1
    have hclean : ReadErrs.at [] x.2 = .clean := rfl
    rw [List.foldl_cons]
    simp only [hclean, hread] at ih ⊢
    obtain ⟨hget, hcores, hhbm, hdue⟩ := ih ((d.count ⟨.hbmPerfRd, [64 * x.1 / hbmTileBytes]⟩ 63 0 1).hbmStore x.1
      ((⟨bad, false, d.mem.getAll (64 * x.1) 64⟩ : SectorRead).cells x.1) bad)
    refine ⟨fun b => (hget b).trans (hbmStore_same_get _ x.1 bad false bad b), hcores, hhbm, hdue⟩

/-- A tile's record after remedy f. -/
def HbmTile.remedied (h : HbmTile) (f : HbmFix) : HbmTile :=
  let h := if f.pool then h else h.onPc (f.key / 24576 / 48) (fun x => { x with ppr := satAdd 4 x.ppr 1 })
  { h.onRow f.key (fun r => { r with ce := 0, fixing := false }) with lastLog := some f }

theorem remedied_fields (h : HbmTile) (f : HbmFix) :
    (h.remedied f).fixes = h.fixes ∧ ((h.remedied f).row f.key).fixing = false ∧ ((h.remedied f).row f.key).ce = 0 ∧
    (f.pool = false → ((h.remedied f).pc (f.key / 24576 / 48)).ppr = min ((h.pc (f.key / 24576 / 48)).ppr + 1) 15) := by
  have hrow : ∀ h : HbmTile, (h.onRow f.key (fun r => { r with ce := 0, fixing := false })).row f.key =
      { h.row f.key with ce := 0, fixing := false } := fun h => by rw [HbmTile.onRow_row, if_pos rfl]
  have hparts : ∀ h : HbmTile, (({ h.onRow f.key (fun r => { r with ce := 0, fixing := false }) with lastLog := some f } : HbmTile).row
      f.key) = { h.row f.key with ce := 0, fixing := false } := hrow
  unfold HbmTile.remedied
  refine ⟨?_, ?_, ?_, fun hpool => ?_⟩
  · dsimp only
    split <;> rfl
  · dsimp only
    rw [hparts]
  · dsimp only
    rw [hparts]
  · rw [hpool]
    exact congrArg HbmPc.ppr
      ((HbmTile.onPc_pc h (f.key / 24576 / 48) (f.key / 24576 / 48) (fun x => { x with ppr := satAdd 4 x.ppr 1 })).trans (if_pos rfl))

/-- The record of the remedy's row, changed in the device. -/
def Dev.remedied (d : Dev) (t : Nat) (f : HbmFix) : Dev :=
  (if f.pool then d else d.onHbm t (fun h => h.onPc (f.key / 24576 / 48) (fun x => { x with ppr := satAdd 4 x.ppr 1 }))).onHbm t
    (fun h => { h.onRow f.key (fun r => { r with ce := 0, fixing := false }) with lastLog := some f })

theorem remedied_frame (d : Dev) (t : Nat) (f : HbmFix) : ∃ hbm, d.remedied t f = { d with hbm := hbm } := by
  unfold Dev.remedied
  split
  · exact ⟨_, rfl⟩
  · exact ⟨_, rfl⟩

theorem remedied_tile (d : Dev) (t : Nat) (f : HbmFix) : (d.remedied t f).hbmTile t = (d.hbmTile t).remedied f := by
  unfold Dev.remedied HbmTile.remedied
  rw [Dev.onHbm_get, if_pos rfl]
  cases f.pool
  · simp only [Bool.false_eq_true, if_false, Dev.onHbm_get, if_true]
  · rfl

/-- The remedy at the head copies its row and takes effect. -/
theorem hbmRemedyDone_result {d : Dev} {t : Nat} {f : HbmFix} {rest : List HbmFix} (hlost : d.lost (4 + t) = false)
    (hfixes : (d.hbmTile t).fixes = f :: rest) :
    ∃ d1 : Dev, (∀ b, d1.mem.get b = d.mem.get b) ∧ d1.cores = d.cores ∧ d1.pruneDue = d.pruneDue ∧
      d1.hbmTile t = { d.hbmTile t with fixes := rest } ∧
      d.hbmRemedyDone t [] = ((d1.remedied t f).raise 0x0A09 (some (d.tilePart t)) (f.key / 24576 / 48)).remedyDone (.row t f.key) := by
  obtain ⟨hget, hcores, hhbm, hdue⟩ := foldl_copy_row
    ((hbmRowSectors t (d.hbmTile t).service f.key).zip (upTo 16)) (d.onHbm t (fun h => { h with fixes := rest }))
  refine ⟨_, hget, hcores, hdue, ?_, ?_⟩
  · unfold Dev.hbmTile at *
    rw [hhbm]
    exact (Dev.onHbm_get d t t _).trans (if_pos rfl)
  · unfold Dev.hbmRemedyDone
    rw [if_neg (Bool.eq_false_iff.1 hlost), hfixes]
    rfl

/-- A retraining that runs ends: the channel serves again, or its interface has failed. -/
theorem hbmRetrainDone_eq {d : Dev} {t ch : Nat} (hlost : d.lost (4 + t) = false) (hrun : ch ∈ (d.hbmTile t).running) (ok : Bool) :
    d.hbmRetrainDone t ch ok =
      let d1 := d.onHbm t (fun h => { h with running := h.running.filter (fun x => x ≠ ch) })
      if ok then d1.remedyDone (.retrain t ch)
      else d1.onHbm t (fun h => { h with failed := FMap.insert h.failed ch (d.dueOf (d.tilePart t)) }) := by
  unfold Dev.hbmRetrainDone
  rw [if_pos ⟨List.contains_iff_mem.2 hrun, by rw [hlost]; rfl⟩]

section
variable {s : State} (hacts : Acts s)
include hacts

/-- A command that may report prunes, and reports none, completes with its effect. -/
theorem completes_calm {cmd : Instr} {f : Dev → Dev} {P : Dev → Prop} (hexec : exec cmd s = run s (fun d => (f d).settle))
    (hdue : (f s.dev.silent).pruneDue = s.dev.pruneDue) (hP : P ((f s.dev.silent).withPins s.dev)) : Completes cmd s P :=
  completes_settled hacts hexec (hdue.trans hacts.2) hP

end

section
variable {s : State} {t : TileId} {q : Fin 96} {l : Nat} {P : Dev → Prop}

theorem scrubAddr_silent (d : Dev) (t q l : Nat) : scrubAddr d.silent t q l = scrubAddr d t q l := by
  simp only [scrubAddr, Dev.silent_reads]

/-- A scrubber that stands: nothing changes. -/
theorem completes_scrub_off (hacts : Acts s) (hidx : (s.dev.hbmTile t.val).service.findIdx? (fun x => x = q.val) = some l)
    {a : Nat} (ha : scrubAddr s.dev t.val q.val l = a)
    (hoff : ¬ ((s.dev.hbmCfg t.val).getLsbD 24 = true ∧ s.dev.hbmHeld a = false)) (e : ReadErr) :
    Completes (.hbmPatrolScrub t q e) s (fun d => d = { s.dev with outs := [] }) := by
  have heq : s.dev.silent.hbmScrub t.val q.val e = s.dev.silent := by
    rw [hbmScrub_eq (d := s.dev.silent) hidx e, scrubAddr_silent, ha]
    exact if_neg hoff
  refine completes_calm hacts (exec_hbmPatrolScrub t q e s) ?_ ?_ <;> rw [heq] <;> rfl

/-- What a scrubber that runs makes of the device. -/
def scrubbed (d : Dev) (a : Nat) (e : ReadErr) : Dev :=
  if (d.hbmSector a e).1.fixed then (d.hbmSector a e).2.hbmStore (a / 64) ((d.hbmSector a e).1.cells (a / 64)) false
  else (d.hbmSector a e).2

theorem completes_scrub_on (hacts : Acts s) (hidx : (s.dev.hbmTile t.val).service.findIdx? (fun x => x = q.val) = some l)
    {a : Nat} (ha : scrubAddr s.dev t.val q.val l = a)
    (hon : (s.dev.hbmCfg t.val).getLsbD 24 = true ∧ s.dev.hbmHeld a = false) (e : ReadErr)
    (hdue : (scrubbed s.dev.silent a e).pruneDue = s.dev.pruneDue)
    (hP : P (((scrubbed s.dev.silent a e).scrubOn t.val q.val).withPins s.dev)) :
    Completes (.hbmPatrolScrub t q e) s P := by
  have heq : s.dev.silent.hbmScrub t.val q.val e = (scrubbed s.dev.silent a e).scrubOn t.val q.val := by
    rw [hbmScrub_eq (d := s.dev.silent) hidx e, scrubAddr_silent, ha]
    exact if_pos hon
  refine completes_calm hacts (exec_hbmPatrolScrub t q e s) ?_ ?_ <;> rw [heq]
  exacts [hdue, hP]

theorem scrubbed_clean (d : Dev) {a : Nat} (ha : a % 64 = 0) :
    scrubbed d a .clean = d.count ⟨.hbmPerfRd, [a / hbmTileBytes]⟩ 63 0 1 := by
  obtain ⟨bad, hclean⟩ := hbmSector_clean d (a / 64)
  have ha64 : 64 * (a / 64) = a := by omega
  rw [ha64] at hclean
  unfold scrubbed
  rw [hclean]
  rfl

/-- The scrubber's next place, whatever the pins are. -/
theorem scrubOn_withPins {d p : Dev} {t q pos : Nat} (h : ((d.hbmTile t).pc q).scrub = pos) :
    ((((d.scrubOn t q).withPins p).hbmTile t).pc q).scrub = (pos + 1) % 18874368 := by
  subst h
  exact scrubOn_scrub (d := d)

end

/-- Outputs stand apart from what the decoder finds. -/
theorem hbmDecode_silent (d : Dev) (a : Nat) (e : ReadErr) : (d.silent.hbmDecode a e).1 = (d.hbmDecode a e).1 := by
  have hloc : d.silent.hbmLoc a = d.hbmLoc a := rfl
  unfold Dev.hbmDecode
  rw [hloc]
  cases d.hbmLoc a with
  | none => rfl
  | some l =>
    have haway : d.silent.hbmAway l e.away = d.hbmAway l e.away := rfl
    dsimp only
    rw [haway]
    generalize (if e.away = 0 then some a else d.hbmAway l e.away) = src
    split_ifs
    · rfl
    · cases src with
      | none =>
        have hd : Dev.hbmTile { d with fresh := d.fresh + 8 } = d.hbmTile := by unfold Dev.hbmTile; rfl
        have hs : Dev.hbmTile { d.silent with fresh := d.silent.fresh + 8 } = d.hbmTile := by unfold Dev.hbmTile; rfl
        have hf : d.silent.fresh = d.fresh := rfl
        dsimp only
        rw [hd, hs, hf]
        generalize (upTo 8).flatMap _ = bytes
        cases hbmFound ((d.hbmTile l.tile).pc l.q).pins false e <;> dsimp only
        split_ifs <;> dsimp only
      | some b =>
        have hs : d.silent.hbmTile = d.hbmTile := by unfold Dev.hbmTile; rfl
        have hm : d.silent.mem = d.mem := rfl
        dsimp only
        rw [hs, hm]
        cases hbmFound ((d.hbmTile l.tile).pc l.q).pins (NSet.has d.mem.hpoison (b / 64)) e <;> dsimp only
        split_ifs <;> dsimp only

/-- The scrubber's place is no register. -/
theorem reg_scrubOn (d p : Dev) (t q : Nat) (r : Reg) : ((d.scrubOn t q).withPins p).reg r = d.reg r := by
  have hregs : ((d.scrubOn t q).withPins p).regs = d.regs := rfl
  unfold Dev.reg
  rw [hregs]

/-- A register counted in one field that reads as before elsewhere. -/
theorem regFld_congr {d d' : Dev} {r : Reg} (h : d'.reg r = d.reg r) (hi lo : Nat) : d'.regFld r hi lo = d.regFld r hi lo := by
  unfold Dev.regFld
  rw [h]

theorem regFld_silent (d : Dev) (r : Reg) (hi lo : Nat) : d.silent.regFld r hi lo = d.regFld r hi lo := by
  have hregs : d.silent.regs = d.regs := rfl
  unfold Dev.regFld Dev.reg
  rw [hregs]

/-- What a scrub under any error counts, and what it keeps. -/
theorem scrubbed_counts (d : Dev) {a t : Nat} (hat : a / hbmTileBytes = t) (hmod : a % 64 = 0) (ht : t < 4) (e : ReadErr) :
    (scrubbed d a e).regFld ⟨.hbmPerfRd, [t]⟩ 63 0 = min (d.regFld ⟨.hbmPerfRd, [t]⟩ 63 0 + 1) (2 ^ 64 - 1) ∧
    (scrubbed d a e).regFld ⟨.hbmPerfWr, [t]⟩ 63 0 =
      min (d.regFld ⟨.hbmPerfWr, [t]⟩ 63 0 + (if (d.hbmDecode a e).1.fixed = true then 1 else 0)) (2 ^ 64 - 1) ∧
    (∀ t q, (((scrubbed d a e).hbmTile t).pc q).scrub = ((d.hbmTile t).pc q).scrub) ∧
    (scrubbed d a e).cores = d.cores ∧ (scrubbed d a e).pruneDue = d.pruneDue := by
  obtain ⟨-, hcores, -, hdue⟩ := HbmOnly.same (HbmOnly.of_steps (HbmSteps.hbmDecode d a e))
  obtain ⟨hscrub, hregs⟩ := (HbmSteps.hbmDecode d a e).upkeep
  obtain ⟨hrd, hwr⟩ := hregs t ht
  have hne : Reg.addr ⟨.hbmPerfRd, [t]⟩ ≠ Reg.addr ⟨.hbmPerfWr, [t]⟩ := by simp [Reg.addr, RK.row]
  have ha64 : 64 * (a / 64) = a := by omega
  have hsector : d.hbmSector a e = ((d.hbmDecode a e).1, (d.hbmDecode a e).2.count ⟨.hbmPerfRd, [t]⟩ 63 0 1) := by
    rw [← hat]
    rfl
  have hread : ((d.hbmDecode a e).2.count ⟨.hbmPerfRd, [t]⟩ 63 0 1).regFld ⟨.hbmPerfRd, [t]⟩ 63 0 =
      min (d.regFld ⟨.hbmPerfRd, [t]⟩ 63 0 + 1) (2 ^ 64 - 1) := by
    rw [regFld_count_self _ _ _ (by decide), regFld_congr hrd]
  have hkept : ((d.hbmDecode a e).2.count ⟨.hbmPerfRd, [t]⟩ 63 0 1).regFld ⟨.hbmPerfWr, [t]⟩ 63 0 =
      d.regFld ⟨.hbmPerfWr, [t]⟩ 63 0 := regFld_congr ((reg_count_ne _ hne _ _ _).trans hwr) _ _
  unfold scrubbed
  rw [hsector]
  dsimp only
  split_ifs with hfixed
  · have hstore : ∀ (d : Dev) bs, (d.hbmStore (a / 64) bs false).regs = (d.count ⟨.hbmPerfWr, [t]⟩ 63 0 1).regs := fun d bs => by
      unfold Dev.hbmStore
      rw [ha64, hat]
    refine ⟨?_, ?_, hscrub, hcores, hdue⟩
    · rw [regFld_congr (Dev.reg_congr (hstore _ _) _), regFld_congr (reg_count_ne _ hne.symm _ _ _), hread]
    · rw [regFld_congr (Dev.reg_congr (hstore _ _) _), regFld_count_self _ _ _ (by decide), hkept]
  · refine ⟨hread, ?_, hscrub, hcores, hdue⟩
    rw [hkept, Nat.add_zero, Nat.min_eq_left]
    exact Nat.le_sub_one_of_lt (fld_lt 63 0 (d.reg ⟨.hbmPerfWr, [t]⟩))

/-- The scrubber at place `pos`, address `a`: it reads and advances where the stack scrubs and is reachable. -/
theorem scrub_command {s : State} (hacts : Acts s) {t : TileId} {q : Fin 96} {l pos a : Nat}
    (hidx : (s.dev.hbmTile t.val).service.findIdx? (fun x => x = q.val) = some l)
    (hpos : ((s.dev.hbmTile t.val).pc q.val).scrub = pos) (ha : scrubAddr s.dev t.val q.val l = a) :
    let on := (s.dev.hbmCfg t.val).getLsbD 24 = true ∧ s.dev.hbmHeld a = false
    (on → Completes (.hbmPatrolScrub t q .clean) s (fun d => ((d.hbmTile t.val).pc q.val).scrub = (pos + 1) % 18874368 ∧
      d.raised = s.dev.raised ∧ (∀ b, d.mem.get b = s.dev.mem.get b) ∧ d.cores = s.dev.cores)) ∧
    (on → pos < 18874368 → ∀ e, Completes (.hbmPatrolScrub t q e) s (fun d =>
      ((d.hbmTile t.val).pc q.val).scrub = (pos + 1) % 18874368 ∧ d.cores = s.dev.cores ∧
      d.regFld ⟨.hbmPerfRd, [t.val]⟩ 63 0 = min (s.dev.regFld ⟨.hbmPerfRd, [t.val]⟩ 63 0 + 1) (2 ^ 64 - 1) ∧
      d.regFld ⟨.hbmPerfWr, [t.val]⟩ 63 0 = min (s.dev.regFld ⟨.hbmPerfWr, [t.val]⟩ 63 0 +
        (if (s.dev.hbmDecode a e).1.fixed = true then 1 else 0)) (2 ^ 64 - 1))) ∧
    (¬on → ∀ e, Completes (.hbmPatrolScrub t q e) s (fun d => d = { s.dev with outs := [] })) := by
  intro on
  have hmod : a % 64 = 0 := ha ▸ scrubAddr_mod
  have hsilent : ((s.dev.silent.hbmTile t.val).pc q.val).scrub = pos := hpos
  refine ⟨fun h => completes_scrub_on hacts hidx ha h _ ?_ ?_, fun h hlt e => ?_, fun h e => completes_scrub_off hacts hidx ha h e⟩
  · rw [scrubbed_clean s.dev.silent hmod]
    rfl
  · rw [scrubbed_clean s.dev.silent hmod]
    exact ⟨scrubOn_withPins hsilent, rfl, fun _ => rfl, rfl⟩
  · have hat : a / hbmTileBytes = t.val := by
      rw [← ha, scrubAddr_tile hidx (hpos ▸ hlt)]
    obtain ⟨hrd, hwr, hscrub, hcores, hdue⟩ := scrubbed_counts s.dev.silent hat hmod t.isLt e
    rw [regFld_silent] at hrd
    rw [regFld_silent, hbmDecode_silent] at hwr
    exact completes_scrub_on hacts hidx ha h e hdue
      ⟨scrubOn_withPins ((hscrub t.val q.val).trans hsilent), hcores, (regFld_congr (reg_scrubOn _ _ _ _ _) _ _).trans hrd,
        (regFld_congr (reg_scrubOn _ _ _ _ _) _ _).trans hwr⟩

/-- Settles O58: each command by the one record that it changes. -/
theorem hbmUpkeep : Obligations.HbmUpkeep := by
  unfold Obligations.HbmUpkeep
  intro s hacts kept
  refine ⟨?refresh, ?scrub, ?sample, ?parity, ?remedy, ?retrain⟩
  case refresh => exact ⟨_, (exec_hbmRefresh s).trans (run_live s _ hacts.1), rfl, rfl⟩
  case scrub => exact fun t q l hidx => scrub_command hacts hidx rfl rfl
  case sample =>
    intro t k temp x st
    obtain ⟨new, heff, hsame, hchange⟩ := hbmTemp_result s.dev.silent t.val k.val temp
    refine completes_calm (f := fun d => d.hbmTemp t.val k.val temp) hacts (exec_hbmTempSample t k temp s) ?_ ?_ <;>
      rw [heff]
    · rfl
    have hstack := sampled_stack s.dev.silent s.dev t.val k.val temp new
    have hraises : ∀ c ∈ thermEvents st, st ≠ x.st → Raises ((s.dev.silent.sampled t.val k.val temp new).withPins s.dev) c :=
      fun c hc hne => by
        obtain ⟨x, hx, hcode⟩ := hchange hne c hc
        exact ⟨x, List.mem_append_right _ hx, hcode⟩
    dsimp only
    rw [hstack, if_pos rfl]
    refine ⟨rfl, rfl, rfl, rfl, fun h => ?_, fun h => ⟨hraises _ List.mem_cons_self h, if_neg h⟩, fun h h3 => hraises _ ?_ h,
      fun h h4 => hraises _ ?_ h, fun j hj => (hstack j).trans (if_neg (Ne.symm hj)), rfl, fun _ => rfl, rfl⟩
    · exact (congrArg (s.dev.raised ++ ·) (hsame h)).trans (List.append_nil _)
    · simp [thermEvents, h3]
    · simp [thermEvents, h4]
  case parity =>
    intro t q x hlost
    have heq := hbmParity_eq (d := s.dev.silent) (t := t.val) hlost q.val
    generalize hlog : parityLog q.val (s.dev.silent.reg ⟨.hbmErrLog, [t.val]⟩) = v at heq
    obtain ⟨hbm, hframe⟩ := hbmIfCount_frame ((s.dev.silent.setReg ⟨.hbmErrLog, [t.val]⟩ v).raise 0x0A0C
      (some (s.dev.silent.tilePart t.val)) q.val) t.val q.val
    obtain ⟨herr, hfour⟩ := hbmIfCount_tile ((s.dev.silent.setReg ⟨.hbmErrLog, [t.val]⟩ v).raise 0x0A0C
      (some (s.dev.silent.tilePart t.val)) q.val) t.val q.val
    obtain ⟨hkind, hpc⟩ := parityLog_fields q (s.dev.silent.reg ⟨.hbmErrLog, [t.val]⟩)
    rw [hlog] at hkind hpc
    refine completes_calm (f := fun d => d.hbmParity t.val q.val) hacts (exec_hbmCaParityError t q s) ?_ ?_ <;>
      rw [heq, hframe]
    · rfl
    rw [hframe] at herr hfour
    rw [show ((s.dev.silent.setReg ⟨.hbmErrLog, [t.val]⟩ v).raise 0x0A0C (some (s.dev.silent.tilePart t.val)) q.val).tilePart t.val =
      s.dev.silent.tilePart t.val from tilePart_errLog _ _ _ v] at hfour
    refine ⟨herr, ⟨_, List.mem_append_right _ (List.mem_singleton_self _), rfl⟩, (regFld_setReg_self _ _ 2 0 v).trans hkind,
      (regFld_setReg_self _ _ 9 3 v).trans hpc, hfour, fun _ => rfl, rfl⟩
  case remedy =>
    intro t f rest hlost hfixes
    obtain ⟨d1, hget, hcores, hdue, htile, heq⟩ := hbmRemedyDone_result (d := s.dev.silent) hlost hfixes
    obtain ⟨hbm, hframe⟩ := remedied_frame d1 t.val f
    obtain ⟨hfix, hfixing, hce, hppr⟩ := remedied_fields (d1.hbmTile t.val) f
    rw [← remedied_tile, hframe] at hfix hfixing hce hppr
    rw [htile] at hfix hppr
    refine completes_calm (f := fun d => d.hbmRemedyDone t.val []) hacts (exec_hbmRemedyDone t [] s) ?_ ?_ <;>
      rw [heq, hframe]
    · exact hdue
    · exact ⟨hfix, hfixing, hce, hppr, remedyDone_faults _ _, ⟨_, List.mem_append_right _ (List.mem_singleton_self _), rfl⟩, hget, hcores⟩
  case retrain =>
    intro t ch hlost hmem
    have heq := hbmRetrainDone_eq (d := s.dev.silent) hlost hmem
    have htile : (s.dev.silent.onHbm t.val (fun h => { h with running := h.running.filter (fun x => x ≠ ch.val) })).hbmTile t.val =
        { s.dev.hbmTile t.val with running := (s.dev.hbmTile t.val).running.filter (fun x => x ≠ ch.val) } :=
      (Dev.onHbm_get s.dev.silent t.val t.val _).trans (if_pos rfl)
    have hgone : ch.val ∉ (s.dev.hbmTile t.val).running.filter (fun x => x ≠ ch.val) := by simp
    constructor
    · refine completes_calm (f := fun d => d.hbmRetrainDone t.val ch.val true) hacts (exec_hbmRetrainDone t ch true s) ?_ ?_ <;>
        rw [heq]
      · rfl
      · exact ⟨fun hin => hgone ((congrArg HbmTile.running htile).subst (motive := fun l => ch.val ∈ l) hin), remedyDone_faults _ _, (congrArg HbmTile.failed htile).trans rfl, rfl, fun _ => rfl, rfl⟩
    · have hfailed := (Dev.onHbm_get (s.dev.silent.onHbm t.val (fun h => { h with running := h.running.filter (fun x => x ≠ ch.val) }))
        t.val t.val (fun h => { h with failed := FMap.insert h.failed ch.val (s.dev.silent.dueOf (s.dev.silent.tilePart t.val)) })).trans
          (if_pos rfl)
      rw [htile] at hfailed
      refine completes_calm (f := fun d => d.hbmRetrainDone t.val ch.val false) hacts (exec_hbmRetrainDone t ch false s) ?_ ?_ <;>
        rw [heq]
      · rfl
      · refine ⟨?_, (congrArg (fun h => FMap.find? (HbmTile.failed h) ch.val) hfailed).trans ?_, rfl, fun _ => rfl, rfl⟩
        · exact fun hin => hgone ((congrArg HbmTile.running hfailed).subst (motive := fun l => ch.val ∈ l) hin)
        · exact (FMap.find?_insert _ _ _ _).trans (if_pos rfl)

end Sys2Proof.Machine
end

section
/-! SUPPORT. Instructions that only change register files: proofs of the statements about moves, predicated-off instructions and
the ends of loops (R209 to R211, R217, R218, R220, R221, R226). -/
namespace Sys2Proof.Machine

open Safety

/-! ## Register files: what a write of one register gives -/

theorem onlyP_of_setP {q q' : Sq} {k : Nat} {b : Bool} (hs : q'.s = (q.setP k b).s) (ha : q'.a = (q.setP k b).a)
    (hd : q'.d = (q.setP k b).d) (hv : q'.v = (q.setP k b).v) (hp : q'.p = (q.setP k b).p) : OnlyP q q' k b := by
  have hfiles : (q.setP k b).s = q.s ∧ (q.setP k b).a = q.a ∧ (q.setP k b).d = q.d ∧ (q.setP k b).v = q.v := by
    unfold Sq.setP
    split <;> exact ⟨rfl, rfl, rfl, rfl⟩
  obtain ⟨fs, fa, fd, fv⟩ := hfiles
  refine ⟨fun r hr => ?_, hs.trans fs, ha.trans fa, hd.trans fd, hv.trans fv⟩
  unfold Sq.getP
  rw [hp]
  unfold Sq.setP
  by_cases hr0 : r = 0
  · simp [hr0]
  · by_cases hk0 : k = 0
    · simp [hr0, hk0, Ne.symm hr0]
    · have hbit : (BitVec.ofNat 8 (2 ^ k)).getLsbD r = decide (k = r) := by
        rw [BitVec.getLsbD_ofNat, Nat.testBit_two_pow, decide_eq_true hr, Bool.true_and]
      have hp' : (if b then q.p ||| BitVec.ofNat 8 (2 ^ k) else q.p &&& ~~~(BitVec.ofNat 8 (2 ^ k))).getLsbD r =
          if k = r then b else q.p.getLsbD r := by
        cases b
        · simp only [Bool.false_eq_true, if_false, BitVec.getLsbD_and, BitVec.getLsbD_not, hbit, hr, decide_true, Bool.true_and]
          split <;> simp [*]
        · simp only [if_true, BitVec.getLsbD_or, hbit]
          split <;> simp [*]
      simp only [if_neg hk0, hr0, hp', decide_false, Bool.false_or, if_false]

/-- A write of p[k] but by PLOG and PPUT: p7 is not cleared (R210). -/
theorem onlyP_of_setPKeep {q q' : Sq} {k : Nat} {b : Bool} (hs : q'.s = (q.setPKeep k b).s) (ha : q'.a = (q.setPKeep k b).a)
    (hd : q'.d = (q.setPKeep k b).d) (hv : q'.v = (q.setPKeep k b).v) (hp : q'.p = (q.setPKeep k b).p) :
    OnlyP q q' k (b || (decide (k = 7) && q.getP 7)) := by
  unfold Sq.setPKeep at hs ha hd hv hp
  split at hs
  · rename_i hkeep
    simp only [Bool.and_eq_true, decide_eq_true_eq, Bool.not_eq_true'] at hkeep
    obtain ⟨rfl, rfl⟩ := hkeep
    simp only [decide_true, Bool.not_false, Bool.and_self, if_true] at ha hd hv hp
    refine ⟨fun r _ => ?_, hs, ha, hd, hv⟩
    have hget : q'.getP r = q.getP r := by unfold Sq.getP; rw [hp]
    rw [hget]
    by_cases hr0 : r = 0
    · simp [hr0, Sq.getP]
    · by_cases hr7 : 7 = r <;> simp [hr0, hr7]
  · rename_i hset
    rw [if_neg hset] at ha hd hv hp
    have hb : (b || (decide (k = 7) && q.getP 7)) = b := by
      by_cases hk : k = 7
      · simp [hk] at hset; simp [hset]
      · simp [hk]
    rw [hb]
    exact onlyP_of_setP hs ha hd hv hp

theorem onlyA_of_setA {q q' : Sq} {k : Nat} {x : BitVec 128} (hs : q'.s = (q.setA k x).s) (ha : q'.a = (q.setA k x).a)
    (hd : q'.d = (q.setA k x).d) (hv : q'.v = (q.setA k x).v) (hp : q'.p = (q.setA k x).p) : OnlyA q q' k x :=
  ⟨fun r => by unfold Sq.getA; rw [ha]; exact FMap.getD_set _ _ _ _ _, hs, hd, hv, hp⟩

theorem onlyD_of_setD {q q' : Sq} {k : Nat} {x : BitVec 256} (hs : q'.s = (q.setD k x).s) (ha : q'.a = (q.setD k x).a)
    (hd : q'.d = (q.setD k x).d) (hv : q'.v = (q.setD k x).v) (hp : q'.p = (q.setD k x).p) : OnlyD q q' k x :=
  ⟨fun r => by unfold Sq.getD'; rw [hd]; exact FMap.getD_set _ _ _ _ _, hs, ha, hv, hp⟩

theorem onlyV_of_setV {q q' : Sq} {k : Nat} {x : VReg} (hs : q'.s = (q.setV k x).s) (ha : q'.a = (q.setV k x).a)
    (hd : q'.d = (q.setV k x).d) (hv : q'.v = (q.setV k x).v) (hp : q'.p = (q.setV k x).p) : OnlyV q q' k x :=
  ⟨fun r => by unfold Sq.getV; rw [hv]; exact FMap.getD_set _ _ _ _ _, hs, ha, hd, hp⟩

/-! ## Words of a descriptor register -/

/-- Word n after a write of word k of a register wide enough for both. -/
theorem extractLsb'_setWord {w : Nat} (k n : Nat) (v : Word) (x : BitVec w) (hk : 64 * k + 64 ≤ w) (hn : 64 * n + 64 ≤ w) :
    (setWord k v x).extractLsb' (64 * n) 64 = if n = k then v else x.extractLsb' (64 * n) 64 := by
  have hones : ∀ j, (2 ^ 64 - 1).testBit j = decide (j < 64) := Nat.testBit_two_pow_sub_one 64
  ext b hb
  have hbit : 64 * n + b < w := by omega
  simp only [setWord, BitVec.getElem_extractLsb', BitVec.getLsbD_or, BitVec.getLsbD_and, BitVec.getLsbD_not, BitVec.getLsbD_ofNat,
    Nat.testBit_shiftLeft, hones, hbit, decide_true, Bool.true_and, BitVec.testBit_toNat]
  split
  · rename_i h
    subst h
    have hle : 64 * n + b ≥ 64 * n := by omega
    simp [hb]
  · rename_i h
    have hout : ¬ (64 * n + b ≥ 64 * k ∧ 64 * n + b - 64 * k < 64) := by omega
    by_cases hge : 64 * n + b ≥ 64 * k
    · have hlt : ¬ 64 * n + b - 64 * k < 64 := fun h => hout ⟨hge, h⟩
      simp [hge, hlt, BitVec.getLsbD_of_ge v _ (Nat.le_of_not_lt hlt)]
    · simp [hge]

/-! ## Instructions of `Moves` -/

/-- What such an instruction keeps of its sequencer. -/
def KeepsFlow (q q' : Sq) : Prop :=
  q'.calls = q.calls ∧ q'.store = q.store ∧ q'.codeLen = q.codeLen ∧ q'.pc = q.pc ∧ q'.loops = q.loops

theorem keepsFlow_setS (q : Sq) (k : Nat) (v : Word) : KeepsFlow q (q.setS k v) := by
  obtain ⟨-, -, -, -, hrest⟩ := setS_frame q k v
  exact hrest

theorem keepsFlow_setP (q : Sq) (k : Nat) (b : Bool) : KeepsFlow q (q.setP k b) := by
  unfold Sq.setP
  split <;> exact ⟨rfl, rfl, rfl, rfl, rfl⟩

theorem keepsFlow_setPKeep (q : Sq) (k : Nat) (b : Bool) : KeepsFlow q (q.setPKeep k b) := by
  unfold Sq.setPKeep
  split
  · exact ⟨rfl, rfl, rfl, rfl, rfl⟩
  · exact keepsFlow_setP q k b

/-- Command `cmd` issues operation `op` of core c, in the forms that `form` allows, and changes the register files alone, as `f`
gives it for the device. -/
structure IsMove (cmd : Instr) (c op : Nat) (i : IWord) (form : Sq → Prop) (f : Dev → Sq → Sq) : Prop where
  run : ∃ legal, (∀ s, exec cmd s = run s (fun d => if d.tileOn (tileOf c) = true then d.sqSimple c op i legal (f d) else d)) ∧
    ∀ q, form q → legal q = true
  keeps : ∀ d q, KeepsFlow q (f d q)
  named : op < 256 ∧ opNamed 0 op = true

section
variable {cmd : Instr} {c op : Nat} {i : IWord} {form : Sq → Prop} {f : Dev → Sq → Sq} {s : State}

/-- On or off, the instruction completes as what follows `f`, or nothing, at the next index. -/
theorem IsMove.completes (h : IsMove cmd c op i form f) (hruns : CoreRuns s c) (hat : AtPc s.dev c 0 op i)
    (hform : form (s.dev.core c).sq) {P : Dev → Prop}
    (hon : Enabled s.dev c i → P (((s.dev.silent.onSq c (f s.dev.silent)).sqNext c).withPins s.dev))
    (hoff : (s.dev.core c).sq.enabled i = false → P ((s.dev.silent.sqNext c).withPins s.dev)) : Completes cmd s P := by
  obtain ⟨legal, hexec, hlegal⟩ := h.run
  obtain ⟨hissue, hcode, hword⟩ := hat
  refine completes_core cmd s c hruns (fun d => d.sqSimple c op i legal (f d)) P (hexec s) ?_
  unfold Dev.sqSimple
  rw [sqIssue_at s.dev.silent c 0 op i legal _ _ hissue hcode hword (by decide) h.named.1 h.named.2 (hlegal _ hform)]
  split
  · rename_i hen; exact hon hen
  · rename_i hen; exact hoff (Bool.eq_false_iff.2 hen)

/-- What follows a change of the register files that keeps the flow. -/
theorem goesOn_onSq {P : Sq → Sq → Prop} {g : Sq → Sq} (hkeeps : KeepsFlow (s.dev.core c).sq (g (s.dev.core c).sq))
    (hP : ∀ q', q'.s = (g (s.dev.core c).sq).s → q'.a = (g (s.dev.core c).sq).a → q'.d = (g (s.dev.core c).sq).d →
      q'.v = (g (s.dev.core c).sq).v → q'.p = (g (s.dev.core c).sq).p → P (s.dev.core c).sq q') :
    GoesOn s c P ((s.dev.silent.onSq c g).sqNext c) := by
  obtain ⟨hcalls, hstore, hlen, hpc, hloops⟩ := hkeeps
  have hcore : (s.dev.silent.onSq c g).core c = { s.dev.core c with sq := g (s.dev.core c).sq } :=
    (Dev.onSq_get _ _ _ _).trans (if_pos rfl)
  refine goesOn_next s c P (s.dev.silent.onSq c g) rfl rfl rfl rfl rfl (fun j hj => ?_) ?_ ?_ ?_ ?_ ?_ ?_ ?_ ?_ ?_
  · rw [Dev.onSq_get, if_neg (Ne.symm hj)]; rfl
  all_goals rw [hcore]
  exacts [hcalls, hstore, hlen, hpc, hloops, hP]

/-- An enabled instruction of this kind goes on with its registers changed. -/
theorem IsMove.goesOn (h : IsMove cmd c op i form f) (hruns : CoreRuns s c) (hat : AtPc s.dev c 0 op i)
    (hform : form (s.dev.core c).sq) (hon : Enabled s.dev c i) {P : Sq → Sq → Prop}
    (hP : ∀ q', q'.s = (f s.dev.silent (s.dev.core c).sq).s → q'.a = (f s.dev.silent (s.dev.core c).sq).a →
      q'.d = (f s.dev.silent (s.dev.core c).sq).d → q'.v = (f s.dev.silent (s.dev.core c).sq).v →
      q'.p = (f s.dev.silent (s.dev.core c).sq).p → P (s.dev.core c).sq q') : Completes cmd s (GoesOn s c P) :=
  h.completes hruns hat hform (fun _ => goesOn_pins s c _ _ _ (goesOn_onSq (h.keeps _ _) hP))
    (fun hoff => absurd hon (by rw [Enabled, hoff]; decide))

/-- A predicated-off instruction goes on with no register changed. -/
theorem IsMove.goesOn_off (h : IsMove cmd c op i form f) (hruns : CoreRuns s c) (hat : AtPc s.dev c 0 op i)
    (hform : form (s.dev.core c).sq) (hoff : (s.dev.core c).sq.enabled i = false) : Completes cmd s (GoesOn s c SameFiles) :=
  h.completes hruns hat hform (fun hon => absurd hon (by rw [Enabled, hoff]; decide))
    (fun _ => goesOn_pins s c _ _ _ (goesOn_next s c _ s.dev.silent rfl rfl rfl rfl rfl (fun _ _ => rfl) rfl rfl rfl rfl rfl rfl rfl rfl
      (fun _ h1 h2 h3 h4 h5 => ⟨h1, h2, h3, h4, h5⟩)))

/-- An instruction that writes g of the register files to s[k]. -/
theorem isMove_setS {legal : Sq → Bool} {k : Nat} {g : Dev → Sq → Word}
    (hexec : ∀ s, exec cmd s = run s (fun d => if d.tileOn (tileOf c) = true then
      d.sqSimple c op i legal (fun q => q.setS k (g d q)) else d))
    (hlegal : ∀ q, form q → legal q = true) (hop : op < 256 ∧ opNamed 0 op = true) :
    IsMove cmd c op i form (fun d q => q.setS k (g d q)) :=
  ⟨⟨legal, hexec, hlegal⟩, fun _ _ => keepsFlow_setS _ _ _, hop⟩

end

section
variable (c : CoreId) (i : IWord)

/-- Format R: bits 34 to 0 are zero. -/
theorem legalR_of_zero (h : i.f 34 0 = 0) (q : Sq) : legalR i q = true := decide_eq_true h

theorem isMove_nop : IsMove (.nop c i) c.val 0x00 i (fun _ => i.opnd = 0) (fun _ q => q) :=
  ⟨⟨legalNone i, exec_nop c i, fun _ h => decide_eq_true h⟩, fun _ _ => ⟨rfl, rfl, rfl, rfl, rfl⟩, by decide⟩

theorem isMove_cmp : IsMove (.cmp c i) c.val 0x20 i (fun _ => i.f 46 45 = 0 ∧ i.f 34 32 ≤ 5 ∧ i.f 31 0 = 0)
    (fun _ q => q.setPKeep (i.f 49 47) (condHolds (i.f 34 32) (q.getS i.rs1) (q.getS i.rs2))) :=
  ⟨⟨legalCmp i, exec_cmp c i, fun _ h => by simpa [legalCmp, and_assoc] using h⟩, fun _ _ => keepsFlow_setPKeep _ _ _, by decide⟩

theorem isMove_cmpi : IsMove (.cmpi c i) c.val 0x21 i (fun _ => i.f 46 45 = 0 ∧ i.f 34 32 ≤ 5)
    (fun _ q => q.setPKeep (i.f 49 47) (condHolds (i.f 34 32) (q.getS i.rs1) (wordOfInt i.imm))) :=
  ⟨⟨legalCmpi i, exec_cmpi c i, fun _ h => by simpa [legalCmpi] using h⟩, fun _ _ => keepsFlow_setPKeep _ _ _, by decide⟩

theorem isMove_plog : IsMove (.plog c i) c.val 0x22 i (fun _ => i.f 37 0 = 0)
    (fun _ q => q.setP (i.f 49 47) (plogFn (i.f 40 39) (q.getP (i.f 46 44) != decide (i.f 38 38 = 1)) (q.getP (i.f 43 41)))) :=
  ⟨⟨legalP i, exec_plog c i, fun _ h => decide_eq_true h⟩, fun _ _ => keepsFlow_setP _ _ _, by decide⟩

theorem isMove_pput : IsMove (.pput c i) c.val 0x24 i (fun _ => i.f 31 0 = 0)
    (fun _ q => { q with p := BitVec.ofNat 8 (q.getS (i.f 49 45)).toNat ||| 1 }) :=
  ⟨⟨legalPput i, exec_pput c i, fun _ h => decide_eq_true h⟩, fun _ _ => ⟨rfl, rfl, rfl, rfl, rfl⟩, by decide⟩

theorem isMove_mova : IsMove (.mova c i) c.val 0x38 i (fun _ => i.f 31 0 = 0 ∧ i.f 44 40 ≤ 15 ∧ i.f 39 32 ≤ 1)
    (fun _ q => q.setA (i.f 44 40) (setWord (i.f 39 32) (q.getS (i.f 49 45)) (q.getA (i.f 44 40)))) :=
  ⟨⟨legalX 15 1 i, exec_mova c i, fun _ h => by simpa [legalX, and_assoc] using h⟩, fun _ _ => ⟨rfl, rfl, rfl, rfl, rfl⟩, by decide⟩

theorem isMove_movd : IsMove (.movd c i) c.val 0x3A i (fun _ => i.f 31 0 = 0 ∧ i.f 44 40 ≤ 15 ∧ i.f 39 32 ≤ 3)
    (fun _ q => q.setD (i.f 44 40) (setWord (i.f 39 32) (q.getS (i.f 49 45)) (q.getD' (i.f 44 40)))) :=
  ⟨⟨legalX 15 3 i, exec_movd c i, fun _ h => by simpa [legalX, and_assoc] using h⟩, fun _ _ => ⟨rfl, rfl, rfl, rfl, rfl⟩, by decide⟩

theorem isMove_li : IsMove (.li c i) c.val 0x19 i (fun _ => i.f 44 32 = 0) (fun _ q => q.setS i.rd (wordOfInt i.imm)) :=
  isMove_setS (g := fun _ _ => wordOfInt i.imm) (exec_li c i) (fun _ h => decide_eq_true h) (by decide)

theorem isMove_lih : IsMove (.lih c i) c.val 0x1A i (fun _ => i.f 39 32 = 0 ∧ i.rs1 = i.rd)
    (fun _ q => q.setS i.rd (setFld 63 32 (i.f 31 0) (q.getS i.rd))) :=
  isMove_setS (g := fun _ q => setFld 63 32 (i.f 31 0) (q.getS i.rd)) (exec_lih c i)
    (fun _ h => by simpa [legalLih, legalI] using h) (by decide)

theorem isMove_pget : IsMove (.pget c i) c.val 0x23 i (fun _ => i.f 44 0 = 0)
    (fun _ q => q.setS i.rd (BitVec.ofNat 64 q.preds.toNat)) :=
  isMove_setS (g := fun _ q => BitVec.ofNat 64 q.preds.toNat) (exec_pget c i) (fun _ h => decide_eq_true h) (by decide)

/-- What LIDX does: s[RD] receives the index of the loop named, where there is one. -/
def lidxFiles (i : IWord) (q : Sq) : Sq :=
  match q.loops[i.f 39 32]? with
  | some f => q.setS (i.f 49 45) (BitVec.ofNat 64 f.index)
  | none => q

theorem isMove_lidx : IsMove (.lidx c i) c.val 0x2D i (fun q => i.f 31 0 = 0 ∧ i.f 39 32 < q.loops.length) (fun _ => lidxFiles i) :=
  ⟨⟨legalLidx i, exec_lidx c i, fun _ h => by simpa [legalLidx] using h⟩, fun _ q => by
    unfold lidxFiles
    split
    · exact keepsFlow_setS _ _ _
    · exact ⟨rfl, rfl, rfl, rfl, rfl⟩, by decide⟩

theorem isMove_rda : IsMove (.rda c i) c.val 0x39 i (fun _ => i.f 31 0 = 0 ∧ i.f 44 40 ≤ 15 ∧ i.f 39 32 ≤ 1)
    (fun _ q => q.setS i.rd (getWord (i.f 39 32) (q.getA (i.f 44 40)))) :=
  isMove_setS (g := fun _ q => getWord (i.f 39 32) (q.getA (i.f 44 40))) (exec_rda c i)
    (fun _ h => by simpa [legalX, and_assoc] using h) (by decide)

theorem isMove_rdd : IsMove (.rdd c i) c.val 0x3B i (fun _ => i.f 31 0 = 0 ∧ i.f 44 40 ≤ 15 ∧ i.f 39 32 ≤ 3)
    (fun _ q => q.setS i.rd (getWord (i.f 39 32) (q.getD' (i.f 44 40)))) :=
  isMove_setS (g := fun _ q => getWord (i.f 39 32) (q.getD' (i.f 44 40))) (exec_rdd c i)
    (fun _ h => by simpa [legalX, and_assoc] using h) (by decide)

theorem isMove_tnow : IsMove (.tnow c i) c.val 0x49 i (fun _ => i.f 44 0 = 0) (fun d q => q.setS i.rd (BitVec.ofNat 64 d.tempo)) :=
  isMove_setS (g := fun d _ => BitVec.ofNat 64 d.tempo) (exec_tnow c i) (fun _ h => decide_eq_true h) (by decide)

/-- A scalar operation on two registers. -/
theorem isMove_aluR {c : CoreId} {i : IWord} {cmd : Instr} {op : Nat} {f : Word → Word → Word}
    (hexec : ∀ s, exec cmd s = run s (fun d => if d.tileOn (tileOf c.val) = true then d.aluR c.val op i f else d))
    (hop : op < 256 ∧ opNamed 0 op = true) :
    IsMove cmd c.val op i (fun _ => i.f 34 0 = 0) (fun _ q => q.setS i.rd (f (q.getS i.rs1) (q.getS i.rs2))) :=
  isMove_setS (g := fun _ q => f (q.getS i.rs1) (q.getS i.rs2)) hexec (fun q h => legalR_of_zero i h q) hop

/-- A scalar operation with an immediate. -/
theorem isMove_aluI {c : CoreId} {i : IWord} {cmd : Instr} {op : Nat} {legal : Sq → Bool} {f : Word → Word → Word} {form : Sq → Prop}
    (hexec : ∀ s, exec cmd s = run s (fun d => if d.tileOn (tileOf c.val) = true then d.aluI c.val op i legal f else d))
    (hlegal : ∀ q, form q → legal q = true) (hop : op < 256 ∧ opNamed 0 op = true) :
    IsMove cmd c.val op i form (fun _ q => q.setS i.rd (f (q.getS i.rs1) (wordOfInt i.imm))) :=
  isMove_setS (g := fun _ q => f (q.getS i.rs1) (wordOfInt i.imm)) hexec hlegal hop

end

/-- Every instruction of the list is of this kind; the one of operation 0, NOP, changes nothing. -/
theorem isMove_of_mem {e : (CoreId → IWord → Instr) × Nat × (IWord → Sq → Prop)} (he : e ∈ Moves) (c : CoreId) (i : IWord) :
    ∃ f, IsMove (e.1 c i) c.val e.2.1 i (e.2.2 i) f ∧ (e.2.1 = 0 → f = fun _ q => q) := by
  have hshift : ∀ q, (i.f 39 32 = 0 ∧ i.f 31 0 < 64) → legalShift i q = true := fun q h => legalShift_of_lt q h.1 h.2
  revert e
  simp only [Moves, List.forall_mem_append, List.forall_mem_cons, List.not_mem_nil, false_implies, implies_true, and_true]
  refine ⟨⟨⟨_, isMove_nop c i, fun _ => rfl⟩, ?_⟩, ?_⟩
  · exact ⟨⟨_, isMove_aluR (exec_add c i) (by decide), nofun⟩, ⟨_, isMove_aluR (exec_sub c i) (by decide), nofun⟩,
      ⟨_, isMove_aluR (exec_and c i) (by decide), nofun⟩, ⟨_, isMove_aluR (exec_or c i) (by decide), nofun⟩,
      ⟨_, isMove_aluR (exec_xor c i) (by decide), nofun⟩, ⟨_, isMove_aluR (exec_sll c i) (by decide), nofun⟩,
      ⟨_, isMove_aluR (exec_srl c i) (by decide), nofun⟩, ⟨_, isMove_aluR (exec_sra c i) (by decide), nofun⟩,
      ⟨_, isMove_aluR (exec_mul c i) (by decide), nofun⟩, ⟨_, isMove_aluR (exec_mulhu c i) (by decide), nofun⟩,
      ⟨_, isMove_aluR (exec_divu c i) (by decide), nofun⟩, ⟨_, isMove_aluR (exec_remu c i) (by decide), nofun⟩,
      ⟨_, isMove_aluR (exec_min c i) (by decide), nofun⟩, ⟨_, isMove_aluR (exec_max c i) (by decide), nofun⟩,
      ⟨_, isMove_aluI (exec_addi c i) (fun q h => legalI_of_zero q h) (by decide), nofun⟩,
      ⟨_, isMove_aluI (exec_andi c i) (fun q h => legalI_of_zero q h) (by decide), nofun⟩,
      ⟨_, isMove_aluI (exec_ori c i) (fun q h => legalI_of_zero q h) (by decide), nofun⟩,
      ⟨_, isMove_aluI (exec_xori c i) (fun q h => legalI_of_zero q h) (by decide), nofun⟩⟩
  · exact ⟨⟨_, isMove_aluI (exec_slli c i) hshift (by decide), nofun⟩, ⟨_, isMove_aluI (exec_srli c i) hshift (by decide), nofun⟩,
      ⟨_, isMove_aluI (exec_srai c i) hshift (by decide), nofun⟩, ⟨_, isMove_li c i, nofun⟩, ⟨_, isMove_lih c i, nofun⟩,
      ⟨_, isMove_cmp c i, nofun⟩, ⟨_, isMove_cmpi c i, nofun⟩, ⟨_, isMove_plog c i, nofun⟩, ⟨_, isMove_pget c i, nofun⟩,
      ⟨_, isMove_pput c i, nofun⟩, ⟨_, isMove_lidx c i, nofun⟩, ⟨_, isMove_mova c i, nofun⟩, ⟨_, isMove_rda c i, nofun⟩,
      ⟨_, isMove_movd c i, nofun⟩, ⟨_, isMove_rdd c i, nofun⟩, ⟨_, isMove_tnow c i, nofun⟩⟩

/-- Settles O8: on or off, what follows is the next index. -/
theorem predicatedOff : Obligations.PredicatedOff := by
  unfold Obligations.PredicatedOff
  intro e he c i s hruns hat hform hoff
  obtain ⟨f, hmove, hnop⟩ := isMove_of_mem he c i
  rcases hoff with hoff | hop
  · exact hmove.goesOn_off hruns hat hform hoff
  · cases hen : (s.dev.core c.val).sq.enabled i with
    | false => exact hmove.goesOn_off hruns hat hform hen
    | true =>
      refine hmove.goesOn hruns hat hform hen fun q' h1 h2 h3 h4 h5 => ?_
      rw [hnop hop] at h1 h2 h3 h4 h5
      exact ⟨h1, h2, h3, h4, h5⟩

end Sys2Proof.Machine
end

section
/-! SUPPORT. Proofs of the statements about moves (R209 to R211, R217, R221) and about loops (R225, R226). -/
namespace Sys2Proof.Machine

open Safety

/-! ## Conditions and fields as the statement words them -/

/-- The conditions of CMP and CMPI (R220). -/
theorem condHolds_words (a b : Word) :
    condHolds 0 a b = (a == b) ∧ condHolds 1 a b = (a != b) ∧ condHolds 2 a b = a.slt b ∧ condHolds 3 a b = (!a.slt b) ∧
    condHolds 4 a b = a.ult b ∧ ∀ n, condHolds (n + 5) a b = !a.ult b := by
  have hslt : a.slt b = decide (a.toInt < b.toInt) := rfl
  have hult : a.ult b = decide (a.toNat < b.toNat) := rfl
  refine ⟨(beq_eq_decide a b).symm, ?_, hslt.symm, ?_, hult.symm, fun n => ?_⟩
  · rw [bne, beq_eq_decide, condHolds, decide_not]
  · rw [hslt, condHolds, ← decide_not]
    exact decide_eq_decide.2 Int.not_lt.symm
  · rw [hult, ← decide_not]
    exact decide_eq_decide.2 Nat.not_lt.symm

/-- The high half replaced (LIH). -/
theorem setFld_high (v : Nat) (x : Word) : setFld 63 32 v x = BitVec.ofNat 32 v ++ x.extractLsb' 0 32 := by
  apply BitVec.eq_of_getLsbD_eq
  intro k hk
  rw [setFld_getLsbD, BitVec.getLsbD_append]
  by_cases h : k < 32
  · simp [h, Nat.not_le.2 h]
  · have hle : 32 ≤ k := Nat.le_of_not_lt h
    have hlt : k - 32 < 32 := by omega
    rw [if_neg h, BitVec.getLsbD_ofNat, if_pos ⟨hk, hle, by omega⟩, decide_eq_true hlt, Bool.true_and]

/-! ## A lane of a vector register (R217, R221) -/

/-- A sequencer that stands at its instruction. -/
theorem stands_sqStall (s : State) (c : Nat) (w : SqWait) : Stands s c w (s.dev.silent.sqStall c w) := by
  have hcore : ∀ j, (s.dev.silent.sqStall c w).core j =
      if c = j then { s.dev.core c with sq := { (s.dev.core c).sq with st := .stall, wait := w } } else s.dev.core j :=
    fun j => Dev.onSq_get s.dev.silent c j _
  exact ⟨congrArg Core.sq ((hcore c).trans (if_pos rfl)), coreFrame_of_core ⟨rfl, rfl, rfl, rfl, rfl⟩ hcore rfl rfl⟩

section
variable {s : State} {c : CoreId} {i : IWord} (hruns : CoreRuns s c.val) (hon : Enabled s.dev c.val i)
include hruns hon

/-- VSET and VGET: their effect on the register files while the vector register is free, and the wait while it is not. -/
theorem completes_lane {cmd : Instr} {op : Nat} {f : Sq → Sq} (hop : op < 256 ∧ opNamed 0 op = true)
    (hat : AtPc s.dev c.val 0 op i) (hform : i.f 31 0 = 0)
    (hexec : exec cmd s = run s (fun d => if d.tileOn (tileOf c.val) = true then
      d.sqIssue c.val 0 op i (legalX 31 255 i) (fun d => d.sqNext c.val) (fun d =>
        if (d.core c.val).vFree (i.f 44 40) then (d.onSq c.val f).sqNext c.val else d.sqStall c.val .operand) else d)) :
    ((s.dev.core c.val).vFree (i.f 44 40) = true → ∀ {P : Sq → Sq → Prop}, KeepsFlow (s.dev.core c.val).sq (f (s.dev.core c.val).sq) →
      (∀ q', q'.s = (f (s.dev.core c.val).sq).s → q'.a = (f (s.dev.core c.val).sq).a → q'.d = (f (s.dev.core c.val).sq).d →
        q'.v = (f (s.dev.core c.val).sq).v → q'.p = (f (s.dev.core c.val).sq).p → P (s.dev.core c.val).sq q') →
      Completes cmd s (GoesOn s c.val P)) ∧
    ((s.dev.core c.val).vFree (i.f 44 40) = false → Completes cmd s (Stands s c.val .operand)) := by
  have hlegal : legalX 31 255 i (s.dev.core c.val).sq = true := by
    have hr := fld_lt 44 40 i.opnd
    have hn := fld_lt 39 32 i.opnd
    have hr' : i.f 44 40 ≤ 31 := Nat.le_of_lt_succ hr
    have hn' : i.f 39 32 ≤ 255 := Nat.le_of_lt_succ hn
    simp [legalX, hform, hr', hn']
  have heff := sqIssue_enabled (fun d => d.sqNext c.val) (fun d =>
    if (d.core c.val).vFree (i.f 44 40) then (d.onSq c.val f).sqNext c.val else d.sqStall c.val .operand) hat hon hop hlegal
  have hcore : s.dev.silent.core c.val = s.dev.core c.val := rfl
  constructor
  · intro hfree P hkeeps hP
    refine completes_core cmd s c.val hruns _ _ hexec ?_
    rw [heff, hcore, if_pos hfree]
    exact goesOn_pins s c.val _ _ _ (goesOn_onSq hkeeps hP)
  · intro hused
    refine completes_core cmd s c.val hruns _ _ hexec ?_
    rw [heff, hcore, if_neg (Bool.eq_false_iff.1 hused)]
    exact stands_sqStall s c.val .operand

end

/-- Settles O7: each instruction by the one register that it writes. -/
theorem registerMoves : Obligations.RegisterMoves := by
  unfold Obligations.RegisterMoves
  refine ⟨?scalars, ?predicates, ?words⟩
  case scalars =>
    simp only [List.forall_mem_cons, List.not_mem_nil, false_implies, implies_true, and_true]
    refine ⟨?_, ?_, ?_, ?_, ?_, ?_, ?_⟩ <;> intro c i s hruns hat hform hon
    · exact (isMove_li c i).goesOn hruns hat hform hon fun _ => onlyS_of_setS
    · refine (isMove_lih c i).goesOn hruns hat hform hon fun _ => ?_
      rw [setFld_high]
      exact onlyS_of_setS
    · refine (isMove_pget c i).goesOn hruns hat hform hon fun _ => ?_
      rw [BitVec.ofNat_toNat]
      exact onlyS_of_setS
    · refine (isMove_lidx c i).goesOn hruns hat hform hon fun _ => ?_
      rw [lidxFiles, List.getElem?_eq_getElem hform.2, List.getD_eq_getElem?_getD, List.getElem?_map, List.getElem?_eq_getElem hform.2]
      exact onlyS_of_setS
    · exact (isMove_rda c i).goesOn hruns hat hform hon fun _ => onlyS_of_setS
    · exact (isMove_rdd c i).goesOn hruns hat hform hon fun _ => onlyS_of_setS
    · exact (isMove_tnow c i).goesOn hruns hat hform hon fun _ => onlyS_of_setS
  case predicates =>
    intro c i s hruns hon holds comparison
    have hholds : ∀ a b, condHolds (i.f 34 32) a b = holds a b := fun a b => by
      obtain ⟨h0, h1, h2, h3, h4, h5⟩ := condHolds_words a b
      unfold holds
      generalize i.f 34 32 = n
      match n with
      | 0 => exact h0
      | 1 => exact h1
      | 2 => exact h2
      | 3 => exact h3
      | 4 => exact h4
      | n + 5 => exact h5 n
    refine ⟨fun hat h1 h2 h3 => ?_, fun hat h1 h2 => ?_, fun hat hform => ?_, fun hat hform => ?_⟩
    · refine (isMove_cmp c i).goesOn hruns hat ⟨h1, h2, h3⟩ hon fun _ => ?_
      rw [hholds]
      exact onlyP_of_setPKeep
    · refine (isMove_cmpi c i).goesOn hruns hat ⟨h1, h2⟩ hon fun _ => ?_
      rw [hholds]
      exact onlyP_of_setPKeep
    · refine (isMove_plog c i).goesOn hruns hat hform hon fun _ h1 h2 h3 h4 h5 => ?_
      exact onlyP_of_setP h1 h2 h3 h4 h5
    · refine (isMove_pput c i).goesOn hruns hat hform hon fun q' hs ha hd hv hp => ⟨fun r hr => ?_, hs, ha, hd, hv⟩
      unfold Sq.getP
      rw [hp]
      by_cases hr0 : r = 0
      · simp [hr0]
      · have hbit : (1 : BitVec 8).getLsbD r = false := by
          rw [show (1 : BitVec 8) = BitVec.ofNat 8 (2 ^ 0) from rfl, BitVec.getLsbD_ofNat, Nat.testBit_two_pow]
          simp [Ne.symm hr0]
        rw [BitVec.getLsbD_or, hbit, BitVec.ofNat_toNat, BitVec.getLsbD_setWidth]
        simp [hr0, hr]
  case words =>
    intro c i s hruns hon hform k n
    refine ⟨fun hat hk hn => ?_, fun hat hk hn => ?_, fun hat hfree => ?_, fun hat hfree => ?_, fun hused => ⟨fun hat => ?_, fun hat => ?_⟩⟩
    · exact (isMove_mova c i).goesOn hruns hat ⟨hform, hk, hn⟩ hon fun q' h1 h2 h3 h4 h5 =>
        ⟨_, onlyA_of_setA h1 h2 h3 h4 h5, fun w hw => extractLsb'_setWord n w _ _ (by omega) (by omega)⟩
    · exact (isMove_movd c i).goesOn hruns hat ⟨hform, hk, hn⟩ hon fun q' h1 h2 h3 h4 h5 =>
        ⟨_, onlyD_of_setD h1 h2 h3 h4 h5, fun w hw => extractLsb'_setWord n w _ _ (by omega) (by omega)⟩
    · refine (completes_lane hruns hon (by decide) hat hform (exec_vset c i s)).1 hfree ⟨rfl, rfl, rfl, rfl, rfl⟩ fun q' => ?_
      rw [BitVec.ofNat_toNat]
      exact onlyV_of_setV
    · refine (completes_lane hruns hon (by decide) hat hform (exec_vget c i s)).1 hfree (keepsFlow_setS _ _ _) fun q' => ?_
      rw [BitVec.ofNat_toNat]
      exact onlyS_of_setS
    · exact (completes_lane hruns hon (by decide) hat hform (exec_vset c i s)).2 hused
    · exact (completes_lane hruns hon (by decide) hat hform (exec_vget c i s)).2 hused

end Sys2Proof.Machine
end

section
/-! SUPPORT. Flow of control: proofs of the statements about loops and transfers (R225, R226, R238). -/
namespace Sys2Proof.Machine

open Safety

/-! ## Transfers and refusals, given what core c's sequencer becomes -/

section
variable {s : State} {c : Nat}

/-- A change of core c's sequencer alone. -/
theorem onSq_core (d : Dev) (c : Nat) (g : Sq → Sq) (j : Nat) :
    (d.onSq c g).core j = if c = j then { d.core c with sq := g (d.core c).sq } else d.core j := Dev.onSq_get d c j g

theorem onSq_onSq_core (d : Dev) (c : Nat) (g g' : Sq → Sq) (j : Nat) :
    ((d.onSq c g).onSq c g').core j = if c = j then { d.core c with sq := g' (g (d.core c).sq) } else d.core j := by
  rw [onSq_core, onSq_core, onSq_core]
  by_cases h : c = j <;> simp [h]

/-- Control goes where core c's sequencer says. -/
theorem jumpsTo_of_core {d : Dev} {q : Sq} {t : Nat} {calls : List Nat} {loops : List LoopFrame}
    (hunits : d.mem = s.dev.mem ∧ d.regs = s.dev.regs ∧ d.sems = s.dev.sems ∧ d.parts = s.dev.parts ∧ d.gens = s.dev.gens)
    (hcore : ∀ j, d.core j = if c = j then { s.dev.core c with sq := q } else s.dev.core j)
    (hflow : q.pc = t ∧ q.st = .run ∧ q.calls = calls ∧ q.loops = loops) (hfiles : SameFiles (s.dev.core c).sq q)
    (hcode : q.store = (s.dev.core c).sq.store ∧ q.codeLen = (s.dev.core c).sq.codeLen) : JumpsTo s c t calls loops d := by
  obtain ⟨hpc, hst, hcalls, hloops⟩ := hflow
  have hself : (d.core c).sq = q := congrArg Core.sq ((hcore c).trans (if_pos rfl))
  refine ⟨?_, ?_, ?_, ?_, ?_, coreFrame_of_core hunits hcore hcode.1 hcode.2⟩ <;> rw [hself] <;> assumption

theorem jumpsTo_pins {t : Nat} {calls : List Nat} {loops : List LoopFrame} {d : Dev} (p : Dev) (h : JumpsTo s c t calls loops d) :
    JumpsTo s c t calls loops (d.withPins p) := h

theorem jumpsTo_onSq {t : Nat} {calls : List Nat} {loops : List LoopFrame} {g : Sq → Sq}
    (hflow : (g (s.dev.core c).sq).pc = t ∧ (g (s.dev.core c).sq).st = .run ∧ (g (s.dev.core c).sq).calls = calls ∧
      (g (s.dev.core c).sq).loops = loops) (hfiles : SameFiles (s.dev.core c).sq (g (s.dev.core c).sq))
    (hcode : (g (s.dev.core c).sq).store = (s.dev.core c).sq.store ∧ (g (s.dev.core c).sq).codeLen = (s.dev.core c).sq.codeLen) :
    JumpsTo s c t calls loops ((s.dev.silent.onSq c g).withPins s.dev) :=
  jumpsTo_pins s.dev (jumpsTo_of_core ⟨rfl, rfl, rfl, rfl, rfl⟩ (onSq_core s.dev.silent c g) hflow hfiles hcode)

theorem jumpsTo_onSq_onSq {t : Nat} {calls : List Nat} {loops : List LoopFrame} {g g' : Sq → Sq} {q : Sq}
    (hq : g' (g (s.dev.core c).sq) = q) (hflow : q.pc = t ∧ q.st = .run ∧ q.calls = calls ∧ q.loops = loops)
    (hfiles : SameFiles (s.dev.core c).sq q) (hcode : q.store = (s.dev.core c).sq.store ∧ q.codeLen = (s.dev.core c).sq.codeLen) :
    JumpsTo s c t calls loops (((s.dev.silent.onSq c g).onSq c g').withPins s.dev) := by
  subst hq
  exact jumpsTo_pins s.dev (jumpsTo_of_core ⟨rfl, rfl, rfl, rfl, rfl⟩ (onSq_onSq_core s.dev.silent c g g') hflow hfiles hcode)

/-- The refusal of the instruction at PC (R238). -/
theorem refuses_sqRefuse (s : State) (c code : Nat) : Refuses s c code (s.dev.core c).sq.pc (s.dev.silent.sqRefuse c code) := by
  have hcore := sqRefuse_core s.dev.silent c code
  have hsq := congrArg Core.sq ((hcore c).trans (if_pos rfl))
  obtain ⟨hraised, hmem, hregs, hsems, hparts, hgens, -⟩ := sqRefuse_frame s.dev.silent c code
  unfold Refuses
  rw [hsq]
  exact ⟨rfl, rfl, rfl, rfl, rfl, hraised, ⟨rfl, rfl, rfl, rfl, rfl⟩,
    coreFrame_of_core ⟨hmem, hregs, hsems, hparts, hgens⟩ hcore rfl rfl⟩

/-- SQ_PC_RANGE holds the failing target in PC. -/
theorem refuses_sqPcRange (s : State) (c t : Nat) : Refuses s c 0x0502 t (s.dev.silent.sqPcRange c t) := by
  obtain ⟨hst, hcode, hpc, hinsn, -, hraised, hfiles, hframe⟩ := refuses_sqRefuse s c 0x0502
  obtain ⟨hmem, hregs, hsems, hparts, hgens, hother, hme, hve, hfte, hstore, hlen⟩ := hframe
  have hcore := onSq_core (s.dev.silent.sqRefuse c 0x0502) c (fun q => { q with pc := t })
  have hself := (hcore c).trans (if_pos rfl)
  have hsq := congrArg Core.sq hself
  unfold Refuses Dev.sqPcRange
  rw [hsq]
  refine ⟨hst, hcode, hpc, hinsn, rfl, hraised, hfiles, hmem, hregs, hsems, hparts, hgens, fun j hj => ?_, ?_⟩
  · exact ((hcore j).trans (if_neg (Ne.symm hj))).trans (hother j hj)
  · rw [hself]
    exact ⟨hme, hve, hfte, hstore, hlen⟩

/-- A transfer to an index of the code. -/
theorem sqJump_within {d : Dev} {t : Int} (h0 : 0 ≤ t) (hlt : t < ((d.core c).sq.codeLen : Int)) (pops : Bool) :
    d.sqJump c t pops = d.onSq c (fun q =>
      ({ q.counted c true with pc := t.toNat, loops := if pops then dropLoops t.toNat q.loops else q.loops } : Sq).running) := by
  unfold Dev.sqJump
  have hno : ¬ (t < 0 ∨ ((d.core c).sq.codeLen : Int) ≤ t) := by omega
  exact if_neg hno

end

/-! ## BR, CALL, RET, JR (R221, R225) -/

section
variable {cmd : Instr} {s : State} {c : CoreId} {i : IWord} {op : Nat} {legal : Sq → Bool} {off body : Dev → Dev} {P : Dev → Prop}

/-- An enabled instruction at PC, in a form that is allowed, completes with its effect. -/
theorem completes_issue (hruns : CoreRuns s c.val) (hon : Enabled s.dev c.val i) (hop : op < 256 ∧ opNamed 0 op = true)
    (hexec : exec cmd s = run s (fun d => if d.tileOn (tileOf c.val) = true then d.sqIssue c.val 0 op i legal off body else d))
    (hat : AtPc s.dev c.val 0 op i) (hlegal : legal (s.dev.core c.val).sq = true)
    (hP : P ((body s.dev.silent).withPins s.dev)) : Completes cmd s P := by
  refine completes_core cmd s c.val hruns (fun d => d.sqIssue c.val 0 op i legal off body) P hexec ?_
  rwa [sqIssue_enabled off body hat hon hop hlegal]

end

/-- Settles O10: each transfer by what core c's sequencer becomes. -/
theorem controlTransfers : Obligations.ControlTransfers := by
  unfold Obligations.ControlTransfers
  constructor
  · intro c i s hruns hon q t
    refine ⟨fun hat hform h0 hlt => ?_, fun hat hform h0 hlt hcalls => ?_, fun r rs hat hform hcalls hlt => ?_, fun hat h1 h2 hlt => ?_⟩
    · refine completes_issue hruns hon (by decide) (exec_br c i s) hat (decide_eq_true hform) ?_
      have hjump := sqJump_within (d := s.dev.silent) (c := c.val) (t := ((s.dev.silent.core c.val).sq.pc : Int) + i.imm) h0 hlt true
      rw [hjump]
      exact jumpsTo_onSq ⟨rfl, rfl, rfl, rfl⟩ ⟨rfl, rfl, rfl, rfl, rfl⟩ ⟨rfl, rfl⟩
    · refine completes_issue hruns hon (by decide) (exec_call c i s) hat (decide_eq_true hform) ?_
      have hjump := sqJump_within (d := s.dev.silent) (c := c.val) (t := ((s.dev.silent.core c.val).sq.pc : Int) + i.imm) h0 hlt false
      have hroom : ¬ 8 ≤ (s.dev.silent.core c.val).sq.calls.length := Nat.not_le.2 hcalls
      have hin : ¬ (((s.dev.silent.core c.val).sq.pc : Int) + i.imm < 0 ∨
        ((s.dev.silent.core c.val).sq.codeLen : Int) ≤ ((s.dev.silent.core c.val).sq.pc : Int) + i.imm) := not_or.2 ⟨not_lt.2 h0, not_le.2 hlt⟩
      dsimp only
      rw [if_neg hroom, if_neg hin, hjump]
      exact jumpsTo_onSq_onSq rfl ⟨rfl, rfl, rfl, rfl⟩ ⟨rfl, rfl, rfl, rfl, rfl⟩ ⟨rfl, rfl⟩
    · refine completes_issue hruns hon (by decide) (exec_ret c i s) hat (decide_eq_true hform) ?_
      have hjump := sqJump_within (d := s.dev.silent) (c := c.val) (t := (r : Int)) (Int.natCast_nonneg r) (Int.ofNat_lt.2 hlt) false
      have hstack : (s.dev.silent.core c.val).sq.calls = r :: rs := hcalls
      have hin : ¬ (s.dev.silent.core c.val).sq.codeLen ≤ r := Nat.not_le.2 hlt
      dsimp only
      rw [hstack]
      dsimp only
      rw [if_neg hin, hjump]
      exact jumpsTo_onSq_onSq rfl ⟨rfl, rfl, rfl, rfl⟩ ⟨rfl, rfl, rfl, rfl, rfl⟩ ⟨rfl, rfl⟩
    · refine completes_issue hruns hon (by decide) (exec_jr c i s) hat (by simp [legalJr, h1, h2]) ?_
      have hjump := sqJump_within (d := s.dev.silent) (c := c.val) (t := (((q.getS i.rs1).toNat % 16384 : Nat) : Int))
        (Int.natCast_nonneg _) (Int.ofNat_lt.2 hlt) true
      have hfld : fld 13 0 ((s.dev.silent.core c.val).sq.getS i.rs1) = (q.getS i.rs1).toNat % 16384 := by
        simp [fld, bits, q, Dev.silent_reads]
      rw [hfld, hjump]
      exact jumpsTo_onSq ⟨rfl, rfl, rfl, rfl⟩ ⟨rfl, rfl, rfl, rfl, rfl⟩ ⟨rfl, rfl⟩
  · intro c i s hruns hon q t
    refine ⟨fun hat hform hout => ?_, fun hat hform hcalls => ?_, fun hat hform hcalls => ?_⟩
    · refine completes_issue hruns hon (by decide) (exec_br c i s) hat (decide_eq_true hform) ?_
      have hjump : s.dev.silent.sqJump c.val (((s.dev.silent.core c.val).sq.pc : Int) + i.imm) true =
          s.dev.silent.sqPcRange c.val (t % 16384).toNat := if_pos hout
      rw [hjump]
      exact refuses_sqPcRange s c.val _
    · refine completes_issue hruns hon (by decide) (exec_call c i s) hat (decide_eq_true hform) ?_
      have hfull : 8 ≤ (s.dev.silent.core c.val).sq.calls.length := hcalls
      dsimp only
      rw [if_pos hfull]
      exact refuses_sqRefuse s c.val _
    · refine completes_issue hruns hon (by decide) (exec_ret c i s) hat (decide_eq_true hform) ?_
      have hstack : (s.dev.silent.core c.val).sq.calls = [] := hcalls
      dsimp only
      rw [hstack]
      exact refuses_sqRefuse s c.val _

/-! ## The end of a loop's body (R226) -/

section
variable {d : Dev} {c : Nat}

/-- Back to the body's start while iterations are left. -/
theorem sqNext_back {f : LoopFrame} {fs : List LoopFrame} (hloops : (d.core c).sq.loops = f :: fs) (hlast : f.last = (d.core c).sq.pc)
    (hleft : 1 < f.left) (hstart : f.start < (d.core c).sq.codeLen) :
    ((d.sqNext c).core c).sq.pc = f.start ∧
    ((d.sqNext c).core c).sq.loops = { f with left := f.left - 1, index := f.index + 1 } :: fs := by
  have hend : loopEnd (d.core c).sq.pc (d.core c).sq.loops =
      ({ f with left := f.left - 1, index := f.index + 1 } :: fs, some f.start) := by
    rw [hloops, loopEnd, if_pos hlast, if_pos hleft]
  unfold Dev.sqNext
  simp only [hend, Option.getD_some, if_pos hstart]
  rw [onSq_onSq_core, if_pos rfl]
  exact ⟨rfl, rfl⟩

/-- Out of the loop after its last iteration. -/
theorem sqNext_out {f : LoopFrame} {fs : List LoopFrame} (hloops : (d.core c).sq.loops = f :: fs) (hlast : f.last = (d.core c).sq.pc)
    (hleft : f.left ≤ 1) (hnext : ∀ g ∈ fs.head?, g.last ≠ (d.core c).sq.pc) (hlt : (d.core c).sq.pc + 1 < (d.core c).sq.codeLen) :
    ((d.sqNext c).core c).sq.pc = (d.core c).sq.pc + 1 ∧ ((d.sqNext c).core c).sq.loops = fs := by
  have hrest : loopEnd (d.core c).sq.pc fs = (fs, none) := by
    cases fs with
    | nil => rfl
    | cons g gs => exact if_neg (hnext g rfl)
  have hend : loopEnd (d.core c).sq.pc (d.core c).sq.loops = (fs, none) := by
    rw [hloops, loopEnd, if_pos hlast, if_neg (Nat.not_lt.2 hleft), hrest]
  unfold Dev.sqNext
  simp only [hend, Option.getD_none, if_pos hlt]
  rw [onSq_onSq_core, if_pos rfl]
  exact ⟨rfl, rfl⟩

/-- Past the last index of the code. -/
theorem sqNext_range (hloops : (d.core c).sq.loops = []) (hend : (d.core c).sq.pc + 1 = (d.core c).sq.codeLen) :
    ((d.sqNext c).core c).sq.st = .halted ∧ ((d.sqNext c).core c).sq.faultCode = 0x0502 := by
  have hnone : loopEnd (d.core c).sq.pc (d.core c).sq.loops = ([], none) := by rw [hloops]; rfl
  have hnot : ¬ (d.core c).sq.pc + 1 < (d.core c).sq.codeLen := by omega
  unfold Dev.sqNext
  simp only [hnone, Option.getD_none, if_neg hnot]
  unfold Dev.sqPcRange
  rw [onSq_core, if_pos rfl, sqRefuse_core, if_pos rfl]
  exact ⟨rfl, rfl⟩

end

/-- An instruction of `Moves`, on or off: what follows is `sqNext` of a device whose sequencer keeps the flow. -/
theorem completes_move {e : (CoreId → IWord → Instr) × Nat × (IWord → Sq → Prop)} (he : e ∈ Moves) {c : CoreId} {i : IWord} {s : State}
    (hruns : CoreRuns s c.val) (hat : AtPc s.dev c.val 0 e.2.1 i) (hform : e.2.2 i (s.dev.core c.val).sq) {P : Dev → Prop}
    (hP : ∀ d : Dev, KeepsFlow (s.dev.core c.val).sq (d.core c.val).sq → P ((d.sqNext c.val).withPins s.dev)) :
    Completes (e.1 c i) s P := by
  obtain ⟨f, hmove, -⟩ := isMove_of_mem he c i
  refine hmove.completes hruns hat hform (fun _ => hP _ ?_) (fun _ => hP _ ⟨rfl, rfl, rfl, rfl, rfl⟩)
  rw [onSq_core, if_pos rfl]
  exact hmove.keeps _ _

/-- Settles O9: LOOP by its three cases, and the end of a body by those of `sqNext`. -/
theorem loops : Obligations.Loops := by
  unfold Obligations.Loops
  constructor
  · intro c i s hruns hon hat q last n hzero hbody hlast hinner
    have hlegal : legalLoop i (s.dev.core c.val).sq = true := by
      have hfits : (match (s.dev.core c.val).sq.loops with
          | [] => true
          | f :: _ => decide (last ≤ f.last)) = true := by
        cases hl : (s.dev.core c.val).sq.loops with
        | nil => rfl
        | cons f fs => exact decide_eq_true (hinner f (by simp [q, hl]))
      unfold legalLoop
      simp only [hzero, decide_true, decide_eq_true hbody, Bool.true_and, Bool.and_eq_true]
      exact ⟨decide_eq_true hlast, hfits⟩
    refine ⟨fun hdepth hn => ?_, fun hdepth hn hnext => ?_, fun hdepth => ?_⟩ <;>
      refine completes_issue hruns hon (by decide) (exec_loop c i s) hat hlegal ?_
    · have hroom : ¬ 4 ≤ (s.dev.silent.core c.val).sq.loops.length := Nat.not_le.2 hdepth
      have hcount : ¬ (if i.f 44 44 = 1 then i.f 39 24 else ((s.dev.silent.core c.val).sq.getS (i.f 49 45)).toNat) = 0 := hn
      dsimp only
      rw [if_neg hroom, if_neg hcount]
      exact jumpsTo_onSq ⟨rfl, rfl, rfl, rfl⟩ ⟨rfl, rfl, rfl, rfl, rfl⟩ ⟨rfl, rfl⟩
    · have hroom : ¬ 4 ≤ (s.dev.silent.core c.val).sq.loops.length := Nat.not_le.2 hdepth
      have htarget : (s.dev.silent.core c.val).sq.pc + 1 + i.f 23 0 = last + 1 := Nat.add_right_comm _ _ _
      have hin : last + 1 < (s.dev.silent.core c.val).sq.codeLen := hnext
      have hcount : (if i.f 44 44 = 1 then i.f 39 24 else ((s.dev.silent.core c.val).sq.getS (i.f 49 45)).toNat) = 0 := hn
      dsimp only
      rw [if_neg hroom, if_pos hcount]
      unfold Dev.loopSkip
      simp only [htarget, if_pos hin]
      exact jumpsTo_onSq_onSq rfl ⟨rfl, rfl, rfl, rfl⟩ ⟨rfl, rfl, rfl, rfl, rfl⟩ ⟨rfl, rfl⟩
    · have hfull : 4 ≤ (s.dev.silent.core c.val).sq.loops.length := hdepth
      dsimp only
      rw [if_pos hfull]
      exact refuses_sqRefuse s c.val _
  · intro e he c i s hruns hat hform q
    refine ⟨fun f fs hloops hlast hleft hstart => ?_, fun f fs hloops hlast hleft hnext hlt => ?_, fun hloops hend _ => ?_⟩ <;>
      refine completes_move he hruns hat hform fun d hkeeps => ?_ <;>
      obtain ⟨-, -, hlen, hpc, hsame⟩ := hkeeps
    · exact sqNext_back (hsame.trans hloops) (hlast.trans hpc.symm) hleft (hlen ▸ hstart)
    · have hout := sqNext_out (d := d) (hsame.trans hloops) (hlast.trans hpc.symm) hleft (hpc ▸ hnext) (by rw [hpc, hlen]; exact hlt)
      rwa [hpc] at hout
    · exact sqNext_range (hsame.trans hloops) (by rw [hpc, hlen]; exact hend)

end Sys2Proof.Machine
end

section
/-! SUPPORT. Proofs of the statements about waits, semaphore requests and the issue of the engines' instructions (R216, R221, R227 to
R232, R239, R240, R250). -/
namespace Sys2Proof.Machine

open Safety

/-! ## What follows at the next index -/

/-- The next index leaves what the sequencer notes of its Tempo waits alone. -/
theorem sqNext_waits (d : Dev) (c : Nat) :
    ((d.sqNext c).core c).sq.lastEdge = (d.core c).sq.lastEdge ∧ ((d.sqNext c).core c).sq.late = (d.core c).sq.late ∧
    ((d.sqNext c).core c).sq.lateTempo = (d.core c).sq.lateTempo := by
  unfold Dev.sqNext Dev.sqPcRange Dev.sqRefuse Dev.sqRefuseAt
  and_intros <;> dsimp only <;> split <;> simp [Sq.running]

theorem pruneDue_sqNext (d : Dev) (c : Nat) : (d.sqNext c).pruneDue = d.pruneDue := (sqNext_frame d c).2.2.1

section
variable {s : State} {c : Nat}

/-- A command of a core completes with the device that its effect is equal to. -/
theorem completes_core_as {cmd : Instr} {f : Dev → Dev} {d : Dev} {P : Dev → Prop} (hruns : CoreRuns s c)
    (hexec : exec cmd s = run s (fun d => if d.tileOn (tileOf c) = true then (f d).settle else d)) (heq : f s.dev.silent = d)
    (hdue : d.pruneDue = s.dev.pruneDue) (hP : P (d.withPins s.dev)) : Completes cmd s P := by
  subst heq
  exact completes_core_settled hruns hexec (hdue.trans hruns.1.2) hP

/-- A sequencer that goes on with its registers as they were, in a device that differs elsewhere in nothing the frame names. -/
theorem goesOn_same {d : Dev}
    (hunits : d.mem = s.dev.mem ∧ d.regs = s.dev.regs ∧ d.sems = s.dev.sems ∧ d.parts = s.dev.parts ∧ d.gens = s.dev.gens)
    (hcores : d.cores = s.dev.cores) : GoesOn s c SameFiles (d.sqNext c) := by
  obtain ⟨hmem, hregs, hsems, hparts, hgens⟩ := hunits
  have hcore : ∀ j, d.core j = s.dev.core j := Dev.core_congr hcores
  refine goesOn_next s c _ d hmem hregs hsems hparts hgens (fun j _ => hcore j) ?_ ?_ ?_ ?_ ?_ ?_ ?_ ?_ ?_ <;> rw [hcore]
  exact fun _ h1 h2 h3 h4 h5 => ⟨h1, h2, h3, h4, h5⟩

end

/-! ## Tempo waits (R49, R231, R232) -/

section
variable {s : State} {c : Nat} {target mask : Nat} {onTime : Bool}

theorem twaitReached_of_idle {x : Core} {implicit : Bool} (hst : x.sq.st = .stall) (hwait : x.sq.wait = .tempo target mask onTime implicit)
    (h : implicit = true ∨ x.maskIdle mask = true) : x.twaitReached = true := by
  unfold Core.twaitReached
  rw [hst, hwait]
  exact Bool.or_eq_true_iff.2 h

/-- A released wait, by whether it is the one at load and whether its edge was met on time. -/
theorem tempoWaitRelease_eq {d : Dev} {implicit : Bool} (hst : (d.core c).sq.st = .stall)
    (hwait : (d.core c).sq.wait = .tempo target mask onTime implicit) (h : implicit = true ∨ (d.core c).maskIdle mask = true)
    (hedge : target ≤ d.tempo) :
    d.tempoWaitRelease c =
      let d1 := d.onSq c (fun q => { q with lastEdge := target })
      if implicit then if (d.core c).sq.pc < (d.core c).sq.codeLen then d1.onSq c Sq.running else d1.sqPcRange c ((d.core c).sq.pc % 16384)
      else if onTime then d1.sqNext c
      else (d1.onSq c (fun q => { q.setP 7 true with late := satAdd 32 q.late 1, lateTempo := target % 2 ^ 32 })).sqNext c := by
  have hreached : (d.core c).twaitReached = true := twaitReached_of_idle hst hwait h
  unfold Dev.tempoWaitRelease
  dsimp only
  rw [hst, hwait]
  dsimp only
  rw [hreached, decide_eq_true hedge]
  exact if_pos rfl

/-- A wait met on time: the sequencer goes on with its edge as the last one. -/
theorem onTime_goesOn (s : State) (c target : Nat) :
    let d := (s.dev.silent.onSq c (fun q => { q with lastEdge := target })).sqNext c
    (d.core c).sq.lastEdge = target ∧ GoesOn s c SameFiles d ∧ (d.core c).sq.late = (s.dev.core c).sq.late := by
  intro d
  obtain ⟨hedge, hlate, -⟩ := sqNext_waits (s.dev.silent.onSq c (fun q => { q with lastEdge := target })) c
  rw [onSq_core, if_pos rfl] at hedge hlate
  exact ⟨hedge, goesOn_onSq ⟨rfl, rfl, rfl, rfl, rfl⟩ (fun _ h1 h2 h3 h4 h5 => ⟨h1, h2, h3, h4, h5⟩), hlate⟩

/-- A late one sets p7 and is counted. -/
theorem late_goesOn (s : State) (c target : Nat) :
    let d := ((s.dev.silent.onSq c (fun q => { q with lastEdge := target })).onSq c
      (fun q => { q.setP 7 true with late := satAdd 32 q.late 1, lateTempo := target % 2 ^ 32 })).sqNext c
    (d.core c).sq.lastEdge = target ∧ GoesOn s c (fun q q' => OnlyP q q' 7 true) d ∧
    (d.core c).sq.late = min ((s.dev.core c).sq.late + 1) (2 ^ 32 - 1) ∧ (d.core c).sq.lateTempo = target % 2 ^ 32 := by
  intro d
  have hset : ∀ q : Sq, q.setP 7 true = { q with p := q.p ||| BitVec.ofNat 8 (2 ^ 7) } := fun _ => rfl
  have hcore := onSq_onSq_core s.dev.silent c (fun q => { q with lastEdge := target })
    (fun q => { q.setP 7 true with late := satAdd 32 q.late 1, lateTempo := target % 2 ^ 32 })
  have hself := (hcore c).trans (if_pos rfl)
  obtain ⟨hedge, hlate, htempo⟩ := sqNext_waits ((s.dev.silent.onSq c (fun q => { q with lastEdge := target })).onSq c
      (fun q => { q.setP 7 true with late := satAdd 32 q.late 1, lateTempo := target % 2 ^ 32 })) c
  rw [hself] at hedge hlate htempo
  refine ⟨hedge, ?_, hlate, htempo⟩
  refine goesOn_next s c _ _ rfl rfl rfl rfl rfl (fun j hj => (hcore j).trans (if_neg (Ne.symm hj))) ?_ ?_ ?_ ?_ ?_ ?_ ?_ ?_ ?_ <;>
    rw [hself] <;> try rfl
  exact fun _ => onlyP_of_setP

end

/-- Settles O11: each wait by the device that its release leaves. -/
theorem waits : Obligations.Waits := by
  unfold Obligations.Waits
  constructor
  · intro c s hruns
    have hcore : s.dev.silent.core c.val = s.dev.core c.val := rfl
    have hgo : GoesOn s c.val SameFiles ((s.dev.silent.sqNext c.val).withPins s.dev) := goesOn_same ⟨rfl, rfl, rfl, rfl, rfl⟩ rfl
    refine ⟨fun i hat hon h1 h2 => ?_, fun mask hst hwait hidle => ?_⟩
    · have hlegal : legalFence i (s.dev.core c.val).sq = true := by simp [legalFence, h1, h2]
      refine ⟨fun hidle => ?_, fun hbusy => ?_⟩ <;> refine completes_issue hruns hon (by decide) (exec_fence c i s) hat hlegal ?_ <;>
        rw [hcore]
      · rw [if_pos hidle]
        exact hgo
      · rw [if_neg (Bool.eq_false_iff.1 hbusy)]
        exact stands_sqStall s c.val _
    · refine completes_core _ s c.val hruns (fun d => d.fenceRelease c.val) _ (exec_fenceRelease c s) ?_
      unfold Dev.fenceRelease
      dsimp only
      rw [hcore, hst, hwait]
      dsimp only
      rw [if_pos hidle]
      exact hgo
  · intro c s hruns q
    refine ⟨fun i hat hon h1 h2 => ?_, fun target mask onTime hst hwait hidle hedge => ?_, fun target mask onTime hst hwait hedge hpc => ?_⟩
    · have hstands : legalTwait i (s.dev.core c.val).sq = true → Completes (.twait c i) s (Stands s c.val
          (.tempo (if i.f 44 44 = 1 then (q.getS (i.f 49 45)).toNat else q.lastEdge + i.f 15 0) (i.f 43 41) false false)) := fun hlegal =>
        completes_core_as (f := fun d => d.ctlTwait c.val i) hruns (exec_twait c i s)
          (sqIssue_enabled (fun d => d.sqNext c.val) _ hat hon (by decide) hlegal) rfl (stands_sqStall s c.val _)
      refine ⟨fun hk h3 hne => ?_, fun hk h3 => ?_⟩
      · have hne' : (s.dev.core c.val).sq.getS (i.f 49 45) ≠ 0 := hne
        have := hstands (by simp only [legalTwait, h1, h2, hk, h3, hne', decide_true, Bool.and_self, if_true, ne_eq, not_false_eq_true])
        rwa [if_pos hk] at this
      · have := hstands (by simp [legalTwait, h1, h2, hk, h3])
        rwa [if_neg (by omega)] at this
    · have heq := tempoWaitRelease_eq (d := s.dev.silent) hst hwait (.inr hidle) hedge
      simp only [Bool.false_eq_true, if_false] at heq
      cases onTime with
      | true =>
        have hmet := onTime_goesOn s c.val target
        have hdue := pruneDue_sqNext (s.dev.silent.onSq c.val (fun q => { q with lastEdge := target })) c.val
        rw [if_pos rfl] at heq
        rw [← heq] at hdue hmet
        obtain ⟨h1, h2, h3⟩ := hmet
        exact completes_core_as (f := fun d => d.tempoWaitRelease c.val) hruns (exec_tempoWaitRelease c s) rfl hdue
          ⟨h1, fun _ => ⟨h2, h3⟩, nofun⟩
      | false =>
        have hlate := late_goesOn s c.val target
        have hdue := pruneDue_sqNext ((s.dev.silent.onSq c.val (fun q => { q with lastEdge := target })).onSq c.val
          (fun q => { q.setP 7 true with late := satAdd 32 q.late 1, lateTempo := target % 2 ^ 32 })) c.val
        rw [if_neg Bool.false_ne_true] at heq
        rw [← heq] at hdue hlate
        obtain ⟨h1, h2, h3, h4⟩ := hlate
        exact completes_core_as (f := fun d => d.tempoWaitRelease c.val) hruns (exec_tempoWaitRelease c s) rfl hdue
          ⟨h1, nofun, fun _ => ⟨h2, h3, h4⟩⟩
    · have heq := tempoWaitRelease_eq (d := s.dev.silent) hst hwait (.inl rfl) hedge
      have hin : (s.dev.silent.core c.val).sq.pc < (s.dev.silent.core c.val).sq.codeLen := hpc
      simp only [if_true, if_pos hin] at heq
      have hcore := onSq_onSq_core s.dev.silent c.val (fun q => { q with lastEdge := target }) Sq.running
      have hsame : ∀ d : Dev, d = (s.dev.silent.onSq c.val (fun q => { q with lastEdge := target })).onSq c.val Sq.running →
          d.pruneDue = s.dev.pruneDue ∧ (d.core c.val).sq = { q with lastEdge := target, st := .run, wait := .none, poisonLd := false } ∧
          CoreFrame s.dev d c.val := fun d hd => by
        subst hd
        exact ⟨rfl, congrArg Core.sq ((hcore c.val).trans (if_pos rfl)), coreFrame_of_core ⟨rfl, rfl, rfl, rfl, rfl⟩ hcore rfl rfl⟩
      obtain ⟨hdue, hsq, hframe⟩ := hsame _ heq
      exact completes_core_as (f := fun d => d.tempoWaitRelease c.val) hruns (exec_tempoWaitRelease c s) rfl hdue ⟨hsq, hframe⟩

/-! ## Semaphore requests (R227 to R230) -/

/-- Settles O12: each instruction by what its issue gives. -/
theorem semaphoreRequests : Obligations.SemaphoreRequests := by
  unfold Obligations.SemaphoreRequests
  intro c i s hruns hon hz hn he q k own
  have hlegal : legalSem i (s.dev.core c.val).sq = true := by simp [legalSem, hz, hn, he]
  have hsig := fun hat : AtPc s.dev c.val 0 0x41 i => (if_pos he : s.dev.silent.semSig c.val i .issue = _).trans
    (sqIssue_enabled (fun d => d.sqNext c.val) _ hat hon (by decide) hlegal)
  have hwait := fun hat : AtPc s.dev c.val 0 0x40 i => (if_pos he : s.dev.silent.semWait c.val i .issue = _).trans
    (sqIssue_enabled (fun d => d.sqNext c.val) _ hat hon (by decide) hlegal)
  have hstalled : s.dev.silent.storeStalled c.val = s.dev.storeStalled c.val := rfl
  have hin : own → s.dev.silent.semIn k (s.dev.silent.corePart c.val) = true := fun h => decide_eq_true h
  have hout : ¬ own → ¬ s.dev.silent.semIn k (s.dev.silent.corePart c.val) = true := fun h h' => h (of_decide_eq_true h')
  refine ⟨fun hat hfree h => ?_, fun hat h => ?_, fun hat hheld => ?_, fun hat hfree h => ?_, fun hat h => ?_⟩
  · obtain ⟨-, -, -, -, -, -, hreqs, hnext, -⟩ := sqNext_frame (s.dev.silent.semSend
      { id := 0, who := .sq c.val, kind := .sig, sem := k, n := i.f 15 0, pc := q.pc, insn := q.atPc }) c.val
    exact completes_core_as (f := fun d => d.semSig c.val i .issue) hruns (exec_semSig c i .issue s)
      ((hsig hat).trans ((if_neg (Bool.eq_false_iff.1 hfree)).trans (if_pos (hin h)))) (by rw [pruneDue_sqNext]; rfl)
      ⟨hreqs, hnext, goesOn_same ⟨rfl, rfl, rfl, rfl, rfl⟩ rfl⟩
  · exact completes_core_as (f := fun d => d.semWait c.val i .issue) hruns (exec_semWait c i .issue s)
      ((hwait hat).trans (if_pos (hin h))) rfl ⟨rfl, rfl, stands_sqStall s c.val _⟩
  · exact completes_core_as (f := fun d => d.semSig c.val i .issue) hruns (exec_semSig c i .issue s)
      ((hsig hat).trans (if_pos hheld)) rfl ⟨rfl, rfl⟩
  · exact completes_core_as (f := fun d => d.semSig c.val i .issue) hruns (exec_semSig c i .issue s)
      ((hsig hat).trans ((if_neg (Bool.eq_false_iff.1 hfree)).trans (if_neg (hout h)))) rfl (refuses_sqRefuse s c.val _)
  · exact completes_core_as (f := fun d => d.semWait c.val i .issue) hruns (exec_semWait c i .issue s)
      ((hwait hat).trans (if_neg (hout h))) rfl (refuses_sqRefuse s c.val _)

end Sys2Proof.Machine
end

section
/-! SUPPORT. Reads and writes of SRAM in clean words: bytes move, and nothing else changes (R289 to R291, R300, R310). -/
namespace Sys2Proof.Machine

open Safety

/-! ## Memories that differ in bytes, and in fewer faults -/

/-- A memory that differs in bytes and in the marks of SRAM words, none of which is worse. -/
def NoWorse (m m' : Mem) : Prop :=
  (m'.hpoison = m.hpoison ∧ m'.hbmEra = m.hbmEra ∧ m'.hubEra = m.hubEra ∧ m'.grvMapped = m.grvMapped ∧ m'.grvEra = m.grvEra) ∧
  (∀ w, NSet.has m.poison w = false → NSet.has m'.poison w = false) ∧
  ∀ w, FMap.getD m.err w 0 = 0 → FMap.getD m'.err w 0 = 0

theorem NoWorse.refl (m : Mem) : NoWorse m m := ⟨⟨rfl, rfl, rfl, rfl, rfl⟩, fun _ h => h, fun _ h => h⟩

theorem NoWorse.trans {m m' m'' : Mem} (h : NoWorse m m') (h' : NoWorse m' m'') : NoWorse m m'' := by
  obtain ⟨⟨h1, h2, h3, h4, h5⟩, hp, he⟩ := h
  obtain ⟨⟨h1', h2', h3', h4', h5'⟩, hp', he'⟩ := h'
  exact ⟨⟨h1'.trans h1, h2'.trans h2, h3'.trans h3, h4'.trans h4, h5'.trans h5⟩, fun w hw => hp' w (hp w hw), fun w hw => he' w (he w hw)⟩

section
variable {d : Dev} {m : Mem}

theorem bankCount_mem (h : m.grvMapped = d.mem.grvMapped) (u : Nat) : Dev.bankCount { d with mem := m } u = d.bankCount u := by
  unfold Dev.bankCount
  rw [← h]

theorem sramAt_mem (h : m.grvMapped = d.mem.grvMapped) (a : Nat) : Dev.sramAt { d with mem := m } a = d.sramAt a := by
  unfold Dev.sramAt
  simp only [bankCount_mem h]

theorem bankRow_mem (h : m.grvMapped = d.mem.grvMapped) (u o : Nat) : Dev.bankRow { d with mem := m } u o = d.bankRow u o := by
  unfold Dev.bankRow
  simp only [bankCount_mem h]

theorem bankOn_mem (h : m.grvMapped = d.mem.grvMapped) (a : Nat) : Dev.bankOn { d with mem := m } a = d.bankOn a := by
  unfold Dev.bankOn
  simp only [sramAt_mem h, bankRow_mem h]
  rfl

/-- What an injection does is no matter of the bytes. -/
theorem injectMask_mem (h : m.grvMapped = d.mem.grvMapped) (w : Nat) :
    Dev.injectMask { d with mem := m } w = ((d.injectMask w).1, { (d.injectMask w).2 with mem := m }) := by
  unfold Dev.injectMask
  simp only [sramAt_mem h, bankRow_mem h]
  have hreg : ∀ r, Dev.reg { d with mem := m } r = d.reg r := fun _ => by unfold Dev.reg; rfl
  simp only [hreg]
  cases d.sramAt (8 * w) with
  | none => rfl
  | some x =>
    dsimp only
    split_ifs <;> rfl

theorem cleanWord_mem (h : NoWorse d.mem m) {w : Nat} (hw : CleanWord d w) : CleanWord { d with mem := m } w := by
  obtain ⟨⟨-, -, -, hmap, -⟩, hpoison, herr⟩ := h
  obtain ⟨hon, hp, he, hinject⟩ := hw
  refine ⟨(bankOn_mem hmap _).trans hon, hpoison w hp, herr w he, ?_⟩
  rw [injectMask_mem hmap, hinject]

theorem clean_mem (h : NoWorse d.mem m) {a n : Nat} (hc : Clean d a n) : Clean { d with mem := m } a n :=
  fun w hlo hhi => cleanWord_mem h (hc w hlo hhi)

/-- A device that differs in nothing that SRAM depends on. -/
theorem cleanWord_congr {d' : Dev} (hmem : d'.mem = d.mem) (hregs : d'.regs = d.regs) (hsrams : d'.srams = d.srams)
    (hpwr : d'.pwr = d.pwr) {w : Nat} (hw : CleanWord d w) : CleanWord d' w := by
  obtain ⟨hon, hp, he, hinject⟩ := hw
  have hcount : ∀ u, d'.bankCount u = d.bankCount u := fun u => by unfold Dev.bankCount; rw [hmem]
  have hat : ∀ a, d'.sramAt a = d.sramAt a := fun a => by unfold Dev.sramAt; simp only [hcount]
  have hrow : ∀ u o, d'.bankRow u o = d.bankRow u o := fun u o => by unfold Dev.bankRow; simp only [hcount]
  have hreg : ∀ r, d'.reg r = d.reg r := Dev.reg_congr hregs
  refine ⟨?_, by rw [hmem]; exact hp, by rw [hmem]; exact he, ?_⟩
  · rw [← hon]
    unfold Dev.bankOn Dev.bankState Dev.sram Dev.ptile
    simp only [hat, hrow, hsrams, hpwr]
  · unfold Dev.injectMask at hinject ⊢
    simp only [hat, hrow, hreg]
    cases hsram : d.sramAt (8 * w) with
    | none => rfl
    | some x =>
      rw [hsram] at hinject
      have hset : ∀ (r : Reg) (v : Word), d.setReg r v = d → d'.setReg r v = d' := fun r v h => by
        have hregs' : FMap.set d.regs r.resetVal r.addr v = d.regs := congrArg Dev.regs h
        unfold Dev.setReg
        rw [hregs, hregs', ← hregs]
      dsimp only at hinject ⊢
      split_ifs at hinject ⊢
      · exact Prod.ext (Prod.mk.inj hinject).1 (hset _ _ (Prod.mk.inj hinject).2)
      · rfl
      · exact Prod.ext (Prod.mk.inj hinject).1 (hset _ _ (Prod.mk.inj hinject).2)
      · rfl

theorem clean_congr {d' : Dev} (hmem : d'.mem = d.mem) (hregs : d'.regs = d.regs) (hsrams : d'.srams = d.srams)
    (hpwr : d'.pwr = d.pwr) {a n : Nat} (hc : Clean d a n) : Clean d' a n :=
  fun w hlo hhi => cleanWord_congr hmem hregs hsrams hpwr (hc w hlo hhi)

theorem clean_silent {a n : Nat} (hc : Clean d a n) : Clean d.silent a n := clean_congr (d := d) (d' := d.silent) rfl rfl rfl rfl hc

end

/-! ## Reads -/

section
variable {d : Dev} {w : Nat}

/-- A clean word reads without poison and without a report. -/
theorem readWord_clean (h : CleanWord d w) (scrub : Bool) : d.readWord w scrub = (false, d) := by
  obtain ⟨hon, hp, he, -⟩ := h
  unfold Dev.bankOn at hon
  unfold Dev.readWord
  cases hat : d.sramAt (8 * w) with
  | none => rw [hat] at hon; exact absurd hon Bool.false_ne_true
  | some x =>
    dsimp only
    rw [hp, he]
    rfl

theorem readWords_clean {n : Nat} (h : ∀ i < n, CleanWord d (w + i)) : d.readWords w n = (List.replicate n false, d) := by
  induction n generalizing w with
  | zero => rfl
  | succ n ih =>
    have hhead := readWord_clean (h 0 (Nat.succ_pos n)) false
    have htail : d.readWords (w + 1) n = (List.replicate n false, d) := ih fun i hi => by
      have := h (i + 1) (Nat.succ_lt_succ hi)
      rwa [Nat.add_assoc, Nat.add_comm 1 i]
    rw [Nat.add_zero] at hhead
    unfold Dev.readWords
    rw [hhead]
    dsimp only
    rw [htail]
    rfl

theorem bankOn_of_clean {a n : Nat} (h : Clean d a n) : (upTo ((a + n + 7) / 8 - a / 8)).all (fun i => d.bankOn (8 * (a / 8 + i))) = true := by
  rw [List.all_eq_true]
  intro i hi
  have hlt := List.mem_range.1 hi
  exact (h (a / 8 + i) (by omega) (by omega)).1

/-- Clean bytes read as they stand, and the read changes nothing. -/
theorem sramRead_clean {a n : Nat} (h : Clean d a n) : d.sramRead a n = (.ok (clean (d.mem.getAll a n)), d) := by
  unfold Dev.sramRead
  dsimp only
  split_ifs with hzero hon
  · subst hzero; rfl
  · rw [readWords_clean fun i hi => h (a / 8 + i) (by omega) (by omega)]
    have hgood : ∀ n k, (List.replicate n false).getD k false = false := fun n k => by
      by_cases hk : k < n <;> simp [List.getD, hk]
    simp only [hgood]
    rw [Prod.mk.injEq]
    refine ⟨congrArg SramRead.ok ?_, rfl⟩
    apply List.ext_getElem
    · simp [clean, upTo]
    · intro k h1 h2
      simp [clean, upTo, getElem_getAll]
  · exact absurd (bankOn_of_clean h) hon

theorem anyPoison_clean (bs : List Byte) : anyPoison (clean bs) = false := by
  simp [anyPoison, clean]

theorem plain_clean (bs : List Byte) : plain (clean bs) = bs := by
  simp [plain, clean, Function.comp_def]

end

/-! ## Writes -/

/-- Entries whose values are a function of their addresses, put one after another. -/
theorem get_foldl_put (f : Nat → Byte) {l : List (Nat × Byte)} (h : ∀ e ∈ l, e.2 = f e.1) (m : Mem) (b : Nat) :
    (l.foldl (fun (m : Mem) e => m.put e.1 e.2) m).get b = if b ∈ l.map Prod.fst then f b else m.get b := by
  induction l generalizing m with
  | nil => rfl
  | cons e l ih =>
    simp only [List.forall_mem_cons] at h
    rw [List.foldl_cons, ih h.2, Mem.get_put, List.map_cons]
    by_cases hl : b ∈ l.map Prod.fst
    · rw [if_pos hl, if_pos (List.mem_cons_of_mem _ hl)]
    · rw [if_neg hl]
      by_cases he : e.1 = b
      · rw [if_pos he, if_pos (he ▸ List.mem_cons_self), h.1, he]
      · rw [if_neg he, if_neg (by simp only [List.mem_cons]; exact not_or.2 ⟨Ne.symm he, hl⟩)]

theorem noWorse_foldl_put (l : List (Nat × Byte)) (m : Mem) : NoWorse m (l.foldl (fun (m : Mem) e => m.put e.1 e.2) m) := by
  induction l generalizing m with
  | nil => exact NoWorse.refl m
  | cons e l ih => exact NoWorse.trans ⟨⟨rfl, rfl, rfl, rfl, rfl⟩, fun _ h => h, fun _ h => h⟩ (ih (m.put e.1 e.2))

theorem has_del (s : NSet) (k j : Nat) : NSet.has (NSet.del s k) j = if k = j then false else NSet.has s j := by
  unfold NSet.has NSet.del
  rw [FMap.find?_remove]
  split <;> rfl

/-- A word written without poison, where no injection is armed for it. -/
theorem storeWord_clean {d : Dev} {w : Nat} (h : CleanWord d w) (bs : List (Nat × Byte)) :
    ∃ m, d.storeWord w bs false = { d with mem := m } ∧
      (∀ b, m.get b = (bs.foldl (fun (m : Mem) e => m.put e.1 e.2) d.mem).get b) ∧ NoWorse d.mem m := by
  obtain ⟨-, -, -, hinject⟩ := h
  obtain ⟨hsame, hpoison, herr⟩ := noWorse_foldl_put bs d.mem
  unfold Dev.storeWord
  rw [hinject]
  refine ⟨_, rfl, fun _ => rfl, hsame, fun v hv => ?_, fun v hv => ?_⟩
  · dsimp only
    rw [if_neg Bool.false_ne_true, has_del]
    split
    · rfl
    · exact hpoison v hv
  · dsimp only
    rw [FMap.getD_set]
    split
    · rfl
    · exact herr v hv

/-- A part of a clean word written, read first or not. -/
theorem writeWord_clean {d : Dev} {w : Nat} (h : CleanWord d w) {bs : List (Nat × Byte × Bool)} (hbs : ∀ e ∈ bs, e.2.2 = false) :
    ∃ m, d.writeWord w bs = { d with mem := m } ∧
      (∀ b, m.get b = ((bs.map (fun e => (e.1, e.2.1))).foldl (fun (m : Mem) e => m.put e.1 e.2) d.mem).get b) ∧ NoWorse d.mem m := by
  have hdirty : bs.any (fun b => b.2.2) = false := by
    rw [List.any_eq_false]
    exact fun e he => by rw [hbs e he]; exact Bool.false_ne_true
  have heq : d.writeWord w bs = d.storeWord w (bs.map (fun e => (e.1, e.2.1))) false := by
    unfold Dev.writeWord
    rw [hdirty, readWord_clean h]
    exact ite_self _
  rw [heq]
  exact storeWord_clean h _

/-- The bytes at a that a write brings, with their addresses. -/
def writeItems (a : Nat) (bs : List PByte) : List (Nat × Byte × Bool) := (bs.zip (upTo bs.length)).map (fun x => (a + x.2, x.1.1, x.1.2))

theorem mem_writeItems {a : Nat} {bs : List Byte} {e : Nat × Byte × Bool} :
    e ∈ writeItems a (clean bs) ↔ ∃ k, ∃ h : k < bs.length, e = (a + k, bs[k], false) := by
  unfold writeItems
  rw [List.mem_map]
  constructor
  · rintro ⟨⟨x, j⟩, hx, rfl⟩
    obtain ⟨k, hk, hkx⟩ := List.mem_iff_getElem.1 hx
    simp only [clean, upTo, List.getElem_zip, List.getElem_map, List.getElem_range, Prod.mk.injEq] at hkx
    obtain ⟨rfl, rfl⟩ := hkx
    exact ⟨k, by simpa [clean, upTo] using hk, rfl⟩
  · rintro ⟨k, hk, rfl⟩
    refine ⟨((bs[k], false), k), List.mem_iff_getElem.2 ⟨k, by simpa [clean, upTo] using hk, ?_⟩, rfl⟩
    simp [clean, upTo]

/-- Words written one after another with their parts of the bytes at a. -/
theorem foldl_writeWord_clean {a : Nat} {bs : List Byte} (ws : List Nat) (d : Dev) (h : ∀ w ∈ ws, CleanWord d w) :
    ∃ m, ws.foldl (fun (d : Dev) w => d.writeWord w ((writeItems a (clean bs)).filter (fun x => x.1 / 8 = w))) d = { d with mem := m } ∧
      (∀ b, m.get b = if a ≤ b ∧ b < a + bs.length ∧ b / 8 ∈ ws then bs.getD (b - a) 0 else d.mem.get b) ∧ NoWorse d.mem m := by
  induction ws generalizing d with
  | nil => exact ⟨d.mem, rfl, fun _ => by simp, NoWorse.refl _⟩
  | cons w ws ih =>
    simp only [List.forall_mem_cons] at h
    have hitems : ∀ e ∈ (writeItems a (clean bs)).filter (fun x => x.1 / 8 = w), e.2.2 = false ∧ e.2.1 = bs.getD (e.1 - a) 0 := fun e he => by
      obtain ⟨k, hk, rfl⟩ := mem_writeItems.1 (List.mem_filter.1 he).1
      simp [List.getD, hk]
    obtain ⟨m1, heq, hget, hno⟩ := writeWord_clean h.1 (fun e he => (hitems e he).1)
    obtain ⟨m2, heq2, hget2, hno2⟩ := ih { d with mem := m1 } (fun v hv => cleanWord_mem hno (h.2 v hv))
    refine ⟨m2, by rw [List.foldl_cons, heq, heq2], fun b => ?_, hno.trans hno2⟩
    have hfirst : m1.get b = if a ≤ b ∧ b < a + bs.length ∧ b / 8 = w then bs.getD (b - a) 0 else d.mem.get b := by
      rw [hget, get_foldl_put (fun b => bs.getD (b - a) 0)]
      · have hin : b ∈ (((writeItems a (clean bs)).filter (fun x => x.1 / 8 = w)).map (fun e => (e.1, e.2.1))).map Prod.fst ↔
            a ≤ b ∧ b < a + bs.length ∧ b / 8 = w := by
          simp only [List.map_map, List.mem_map, List.mem_filter, mem_writeItems, decide_eq_true_eq, Function.comp_apply]
          constructor
          · rintro ⟨e, ⟨⟨k, hk, rfl⟩, hw⟩, rfl⟩
            exact ⟨Nat.le_add_right a k, Nat.add_lt_add_left hk a, hw⟩
          · rintro ⟨hle, hlt, hw⟩
            exact ⟨_, ⟨⟨b - a, by omega, rfl⟩, by rwa [Nat.add_sub_cancel' hle]⟩, Nat.add_sub_cancel' hle⟩
        simp only [hin]
      · intro e he
        obtain ⟨x, hx, rfl⟩ := List.mem_map.1 he
        exact (hitems x hx).2
    rw [hget2, hfirst]
    simp only [List.mem_cons]
    grind

/-- Bytes written to clean words land, and nothing else of the device changes. -/
theorem sramWrite_clean {d : Dev} {a : Nat} {bs : List Byte} (h : Clean d a bs.length) :
    ∃ m, d.sramWrite a (clean bs) = (true, { d with mem := m }) ∧ (∀ b, m.get b = (d.mem.putAll a bs).get b) ∧ NoWorse d.mem m := by
  rcases eq_or_ne bs [] with rfl | hne
  · exact ⟨d.mem, rfl, fun _ => rfl, NoWorse.refl _⟩
  obtain ⟨m, heq, hget, hno⟩ := foldl_writeWord_clean (a := a) (bs := bs) ((upTo ((a + bs.length + 7) / 8 - a / 8)).map (a / 8 + ·)) d
    (fun w hw => by
      obtain ⟨i, hi, rfl⟩ := List.mem_map.1 hw
      have := List.mem_range.1 hi
      exact h _ (by omega) (by omega))
  have hlen : (clean bs).length = bs.length := by simp [clean]
  have hbytes : ∀ b, m.get b = (d.mem.putAll a bs).get b := fun b => by
    rw [hget]
    by_cases hin : a ≤ b ∧ b < a + bs.length
    · have hk : b - a < bs.length := by omega
      have hword : b / 8 ∈ (upTo ((a + bs.length + 7) / 8 - a / 8)).map (a / 8 + ·) :=
        List.mem_map.2 ⟨b / 8 - a / 8, List.mem_range.2 (by omega), by omega⟩
      have := Mem.get_putAll_in d.mem a bs (b - a) hk
      rw [Nat.add_sub_cancel' hin.1] at this
      rw [if_pos ⟨hin.1, hin.2, hword⟩, this]
      simp [List.getD, hk]
    · rw [if_neg (fun h => hin ⟨h.1, h.2.1⟩), Mem.get_putAll_out _ _ _ _ (by omega)]
  refine ⟨m, ?_, hbytes, hno⟩
  unfold Dev.sramWrite
  dsimp only
  rw [hlen]
  have hempty : ¬ (clean bs).isEmpty = true := by simpa [clean] using hne
  rw [if_neg hempty]
  split_ifs with hon
  · rw [List.foldl_map] at heq
    unfold writeItems at heq
    rw [hlen] at heq
    rw [Prod.mk.injEq]
    exact ⟨rfl, heq⟩
  · exact absurd (bankOn_of_clean h) hon

end Sys2Proof.Machine
end

section
/-! SUPPORT. Proofs of the statements about the issue of the engines' instructions (R216, R236, R240, R250) and about LD and ST in
the core's own SRAM (R223, R224). -/
namespace Sys2Proof.Machine

open Safety

/-! ## Issue into an engine's queue -/

/-- The command of each of the engines' instructions at its issue. -/
theorem exec_issue {e : (CoreId → IWord → Phase → Instr) × Nat × Nat × Nat × (IWord → Sq → Bool)} (he : e ∈ EngineOps) (c : CoreId)
    (i : IWord) (s : State) : exec (e.1 c i .issue) s = run s (fun d => if d.tileOn (tileOf c.val) = true then
      (d.engIssue c.val e.2.1 e.2.2.1 e.2.2.2.1 i (e.2.2.2.2 i)).settle else d) := by
  revert e
  simp only [EngineOps, List.forall_mem_append, List.forall_mem_cons, List.not_mem_nil, false_implies, implies_true, and_true]
  and_intros <;> rfl

/-- Their classes, operations and engines. -/
theorem engineOps_named {e : (CoreId → IWord → Phase → Instr) × Nat × Nat × Nat × (IWord → Sq → Bool)} (he : e ∈ EngineOps) :
    e.2.1 < 4 ∧ e.2.2.1 < 256 ∧ opNamed e.2.1 e.2.2.1 = true := by
  revert e
  decide

/-- An engine stands in one of the three parts of a core that are none of its sequencer. -/
theorem eng_congr {x y : Core} (hme : x.me = y.me) (hve : x.ve = y.ve) (hfte : x.fte = y.fte) (e : Nat) : x.eng e = y.eng e := by
  unfold Core.eng
  rw [hme, hve, hfte]

section
variable {s : State} {c e : Nat}

/-- An entry goes to the back of engine e's queue and the sequencer goes on. -/
theorem sqNext_onEng (s : State) (c e : Nat) (f : Eng → Eng) :
    let d := (s.dev.silent.onEng c e f).sqNext c
    (d.core c).eng e = f ((s.dev.core c).eng e) ∧ SameFiles (s.dev.core c).sq (d.core c).sq ∧ d.mem = s.dev.mem ∧ d.regs = s.dev.regs ∧
    (∀ j, j ≠ c → d.core j = s.dev.core j) ∧ (Plain s.dev c → (d.core c).sq.pc = (s.dev.core c).sq.pc + 1) := by
  intro d
  have hcore : ∀ j, (s.dev.silent.onEng c e f).core j =
      if c = j then (s.dev.core c).setEng e (f ((s.dev.core c).eng e)) else s.dev.core j := fun j => Dev.onEng_get s.dev.silent c e j f
  have hself := (hcore c).trans (if_pos rfl)
  have hsq : ((s.dev.silent.onEng c e f).core c).sq = (s.dev.core c).sq := by rw [hself, Core.setEng_sq]
  obtain ⟨hs, ha, hd, hv, hp, -, -, -, hme, hve, hfte⟩ := sqNext_files (s.dev.silent.onEng c e f) c
  obtain ⟨hmem, hregs, -⟩ := sqNext_frame (s.dev.silent.onEng c e f) c
  rw [hsq] at hs ha hd hv hp
  refine ⟨(eng_congr hme hve hfte e).trans (by rw [hself, Core.setEng_eng]), ⟨hs, ha, hd, hv, hp⟩, hmem, hregs, fun j hj => ?_, fun hplain => ?_⟩
  · rw [sqNext_other _ _ _ (Ne.symm hj), hcore, if_neg (Ne.symm hj)]
  · have hnext := sqNext_plain (s.dev.silent.onEng c e f) c (by rw [hsq]; exact hplain.1) (by rw [hsq]; exact hplain.2)
    exact (congrArg (fun x => x.sq.pc) hnext).trans (congrArg (fun q => q.pc + 1) hsq)

end

/-- Settles O17: the three ways in which an issue ends. -/
theorem engineIssue : Obligations.EngineIssue := by
  unfold Obligations.EngineIssue
  intro e he c i s hruns hat hon q g hlegal
  obtain ⟨hcls, hop, hnamed⟩ := engineOps_named he
  obtain ⟨hissue, hcode, hword⟩ := hat
  have heff : s.dev.silent.engIssue c.val e.2.1 e.2.2.1 e.2.2.2.1 i (e.2.2.2.2 i) =
      if s.dev.engClock c.val e.2.2.2.1 ≠ 2 then s.dev.silent.sqRefuse c.val 0x0507
      else if q.engHalt.getLsbD (e.2.2.2.1 - 1) then s.dev.silent.sqStall c.val .engineHalted
      else if 32 ≤ g.queue.length then s.dev.silent.sqStall c.val .queueFull
      else (s.dev.silent.onEng c.val e.2.2.2.1 (fun g => { g with
        queue := g.queue ++ [⟨i.word e.2.1 e.2.2.1, q.s, q.a, q.d, s.dev.storeStalled c.val⟩] })).sqNext c.val :=
    (sqIssue_at s.dev.silent c.val e.2.1 e.2.2.1 i (e.2.2.2.2 i) _ _ hissue hcode hword hcls hop hnamed hlegal).trans (if_pos hon)
  refine ⟨fun hclock hhalt hroom => ?_, fun hclock hhalt hfull => ?_, fun hclock => ?_⟩
  · rw [if_neg (not_not.2 hclock), if_neg (Bool.eq_false_iff.1 hhalt), if_neg (Nat.not_le.2 hroom)] at heff
    have hnext := sqNext_onEng s c.val e.2.2.2.1 (fun g => { g with
      queue := g.queue ++ [⟨i.word e.2.1 e.2.2.1, q.s, q.a, q.d, s.dev.storeStalled c.val⟩] })
    have hdue := pruneDue_sqNext (s.dev.silent.onEng c.val e.2.2.2.1 (fun g => { g with
      queue := g.queue ++ [⟨i.word e.2.1 e.2.2.1, q.s, q.a, q.d, s.dev.storeStalled c.val⟩] })) c.val
    dsimp only at hnext
    rw [← heff] at hnext hdue
    exact completes_core_as (f := fun d => d.engIssue c.val e.2.1 e.2.2.1 e.2.2.2.1 i (e.2.2.2.2 i)) hruns (exec_issue he c i s) rfl
      hdue hnext
  · rw [if_neg (not_not.2 hclock), if_neg (Bool.eq_false_iff.1 hhalt), if_pos hfull] at heff
    exact completes_core_as (f := fun d => d.engIssue c.val e.2.1 e.2.2.1 e.2.2.2.1 i (e.2.2.2.2 i)) hruns (exec_issue he c i s) heff
      rfl (stands_sqStall s c.val _)
  · rw [if_pos hclock] at heff
    exact completes_core_as (f := fun d => d.engIssue c.val e.2.1 e.2.2.1 e.2.2.2.1 i (e.2.2.2.2 i)) hruns (exec_issue he c i s) heff
      rfl (refuses_sqRefuse s c.val _)

/-! ## LD and ST (R223, R224) -/

theorem natOfBytes_lt (bs : List Byte) : natOfBytes bs < 2 ^ (8 * bs.length) := by
  induction bs with
  | nil => exact Nat.one_pos
  | cons b bs ih =>
    have hb := b.isLt
    rw [natOfBytes, List.length_cons, Nat.mul_succ, Nat.pow_add, Nat.shiftLeft_eq]
    omega

theorem length_bytesOf (n v : Nat) : (bytesOf n v).length = n := by
  induction n generalizing v with
  | zero => rfl
  | succ n ih => rw [bytesOf, List.length_cons, ih]

/-- The two's complement reading of a field is that of the bit vector. -/
theorem sext_eq_toInt {w : Nat} (hw : 0 < w) (n : Nat) : sext w n = (BitVec.ofNat w n).toInt := by
  have hpow : 2 ^ w = 2 * 2 ^ (w - 1) := by rw [← Nat.pow_succ', Nat.succ_eq_add_one, Nat.sub_add_cancel hw]
  unfold sext BitVec.toInt
  rw [BitVec.toNat_ofNat]
  dsimp only
  split_ifs
  · rfl
  · omega
  · omega
  · rfl

/-- What an LD puts in its register is the extension of the bytes' number. -/
theorem loadValue_eq (i : IWord) {n v : Nat} (hpos : 0 < n) (hn : 8 * n ≤ 64) (hv : v < 2 ^ (8 * n)) : loadValue i n v =
    if i.f 33 33 = 1 then (BitVec.ofNat (8 * n) v).signExtend 64 else (BitVec.ofNat (8 * n) v).setWidth 64 := by
  unfold loadValue
  split
  · rw [sext_eq_toInt (by omega)]
    rfl
  · apply BitVec.eq_of_toNat_eq
    rw [BitVec.toNat_setWidth, BitVec.toNat_ofNat, BitVec.toNat_ofNat, Nat.mod_eq_of_lt hv]

/-- A sequencer that goes on beside a change of memory. -/
theorem goesOn_mem {s : State} {c : Nat} {P : Sq → Sq → Prop} {d : Dev} (m : Mem) (h : GoesOn (s.with_ { s.dev with mem := m }) c P d) :
    GoesOn s c P { d with mem := s.dev.mem } := by
  obtain ⟨hP, hcalls, ⟨-, hframe⟩, hplain⟩ := h
  exact ⟨hP, hcalls, ⟨rfl, hframe⟩, hplain⟩

theorem stalled_sqNext (d : Dev) (c : Nat) : (d.sqNext c).stalled = d.stalled := by
  unfold Dev.sqNext Dev.sqPcRange Dev.sqRefuse Dev.sqRefuseAt
  dsimp only
  split <;> simp

section
variable {s : State} {c : CoreId} {i : IWord}

/-- The address of an LD or ST (R223). -/
theorem memAddr_eq (q : Sq) (i : IWord) (store : Bool) :
    let w := Win.ofBits (q.getA (i.f 44 41))
    let n := 2 ^ i.f 35 34
    let ea := (((w.base + (q.getS (i.f 40 36)).toNat : Nat) + i.imm) % 2 ^ 48).toNat
    q.memAddr i store =
      if w.remote ∨ ea < w.base ∨ w.base + w.len < ea + n ∨ ea % n ≠ 0 ∨ (store ∧ ¬w.wr) then none else some (ea, n) := rfl

/-- 1, 2, 4 or 8 bytes. -/
theorem size_le (i : IWord) : 0 < 2 ^ i.f 35 34 ∧ 8 * 2 ^ i.f 35 34 ≤ 64 := by
  have h : i.f 35 34 < 4 := fld_lt 35 34 i.opnd
  have hle : 2 ^ i.f 35 34 ≤ 2 ^ 3 := Nat.pow_le_pow_right (by decide) (by omega)
  exact ⟨Nat.two_pow_pos _, by omega⟩

end

/-- Settles O16: loads read clean bytes, stores put theirs, and the rest is the sequencer's next index. -/
theorem memoryAccess : Obligations.MemoryAccess := by
  unfold Obligations.MemoryAccess
  constructor
  · intro c i s hruns hat hon hform q w n ea
    have hlegal : legalM false i (s.dev.core c.val).sq = true := by simp [legalM, hform]
    have haddr : (s.dev.silent.core c.val).sq.memAddr i false = if w.remote ∨ ea < w.base ∨ w.base + w.len < ea + n ∨ ea % n ≠ 0 ∨
      (false = true ∧ ¬w.wr) then none else some (ea, n) := memAddr_eq q i false
    obtain ⟨hpos, hsize⟩ := size_le i
    have hissue : s.dev.silent.ctlLd c.val i = _ := sqIssue_enabled (fun d => d.sqNext c.val) _ hat hon (by decide) hlegal
    have hstalled : s.dev.silent.storeStalled c.val = s.dev.storeStalled c.val := rfl
    refine ⟨fun hheld => ?_, fun hfree hloc hlo hhi halign hown hclean => ?_, fun hfree hout => ?_⟩
    · rw [hstalled, if_pos hheld] at hissue
      exact completes_core_as (f := fun d => d.ctlLd c.val i) hruns (exec_ld c i s) hissue rfl
        ⟨rfl, rfl, rfl, rfl, rfl, rfl, fun _ _ => rfl, rfl, rfl, rfl, rfl, rfl⟩
    · have hin : ¬ (w.remote = true ∨ ea < w.base ∨ w.base + w.len < ea + n ∨ ea % n ≠ 0 ∨ (false = true ∧ ¬w.wr = true)) := by
        simp only [hloc, Bool.false_eq_true, false_and, or_false, false_or, ne_eq, halign, not_true]
        omega
      have hread : s.dev.silent.sramRead ea n = _ := sramRead_clean (clean_silent hclean)
      have hown' : s.dev.silent.ownSram c.val ea = true := hown
      rw [hstalled, if_neg (Bool.eq_false_iff.1 hfree), haddr, if_neg hin] at hissue
      dsimp only at hissue
      rw [if_pos hown', hread] at hissue
      dsimp only at hissue
      rw [if_neg (Bool.eq_false_iff.1 (anyPoison_clean _)), plain_clean] at hissue
      refine completes_core_as (f := fun d => d.ctlLd c.val i) hruns (exec_ld c i s) hissue (by rw [pruneDue_sqNext]; rfl) ?_
      refine goesOn_pins s c.val _ _ _ (goesOn_onSq (keepsFlow_setS _ _ _) fun q' => ?_)
      have hlt := natOfBytes_lt (s.dev.mem.getAll ea n)
      rw [length_getAll] at hlt
      have hload : loadValue i n (natOfBytes (s.dev.mem.getAll ea n)) = _ := loadValue_eq i hpos hsize hlt
      have hmem : s.dev.silent.mem = s.dev.mem := rfl
      rw [hmem, hload]
      exact onlyS_of_setS
    · have hbad : w.remote = true ∨ ea < w.base ∨ w.base + w.len < ea + n ∨ ea % n ≠ 0 ∨ (false = true ∧ ¬w.wr = true) :=
        hout.imp_right (Or.imp_right (Or.imp_right Or.inl))
      rw [hstalled, if_neg (Bool.eq_false_iff.1 hfree), haddr, if_pos hbad] at hissue
      exact completes_core_as (f := fun d => d.ctlLd c.val i) hruns (exec_ld c i s) hissue rfl (refuses_sqRefuse s c.val _)
  · intro c i s hruns hat hon hform q w n ea
    have hsx : i.f 32 32 = 0 ∧ i.f 33 33 ≠ 1 := by
      simp only [IWord.f, fld, bits, Nat.shiftRight_eq_div_pow] at hform ⊢
      omega
    have hlegal : legalM true i (s.dev.core c.val).sq = true := by simp [legalM, hsx]
    have haddr : (s.dev.silent.core c.val).sq.memAddr i true = if w.remote ∨ ea < w.base ∨ w.base + w.len < ea + n ∨ ea % n ≠ 0 ∨
      (true = true ∧ ¬w.wr) then none else some (ea, n) := memAddr_eq q i true
    have hissue : s.dev.silent.ctlSt c.val i = _ := sqIssue_enabled (fun d => d.sqNext c.val) _ hat hon (by decide) hlegal
    have hstalled : s.dev.silent.storeStalled c.val = s.dev.storeStalled c.val := rfl
    refine ⟨fun hloc hwr hlo hhi halign hown hclean => ?_, fun hout => ?_⟩
    · have hin : ¬ (w.remote = true ∨ ea < w.base ∨ w.base + w.len < ea + n ∨ ea % n ≠ 0 ∨ (true = true ∧ ¬w.wr = true)) := by
        simp only [hloc, hwr, Bool.false_eq_true, not_true, and_false, or_false, false_or, ne_eq, halign]
        omega
      have hown' : s.dev.silent.ownSram c.val ea = true := hown
      have hlen : (bytesOf n (q.getS (i.f 49 45)).toNat).length = n := length_bytesOf _ _
      obtain ⟨m, hwrite, hget, -⟩ := sramWrite_clean (d := s.dev.silent) (a := ea) (bs := bytesOf n (q.getS (i.f 49 45)).toNat)
        (by rw [hlen]; exact clean_silent hclean)
      have hval : (s.dev.silent.core c.val).sq.getS (i.f 49 45) = q.getS (i.f 49 45) := rfl
      rw [haddr, if_neg hin] at hissue
      dsimp only at hissue
      rw [if_pos hown', hval, hwrite] at hissue
      dsimp only at hissue
      rw [dif_pos c.isLt, hstalled] at hissue
      refine ⟨fun hfree => ?_, fun hheld => ?_⟩
      · rw [if_neg (Bool.eq_false_iff.1 hfree)] at hissue
        refine completes_core_as (f := fun d => d.ctlSt c.val i) hruns (exec_st c i s) hissue (by rw [pruneDue_sqNext]; rfl) ?_
        have hmem : (Dev.sqNext { s.dev.silent with mem := m } c.val).mem = m := (sqNext_frame _ _).1
        have hbytes : ∀ b, (Dev.sqNext { s.dev.silent with mem := m } c.val).mem.get b =
            (s.dev.mem.putAll ea (bytesOf n (q.getS (i.f 49 45)).toNat)).get b := fun b => by rw [hmem]; exact hget b
        refine ⟨?_, fun b hb => ?_, ?_⟩
        · have hall := getAll_putAll s.dev.mem ea (bytesOf n (q.getS (i.f 49 45)).toNat)
          rw [hlen] at hall
          exact (getAll_congr hbytes ea n).trans hall
        · exact (hbytes b).trans (Mem.get_putAll_out _ _ _ _ (by rw [hlen]; exact hb))
        · exact goesOn_mem m (goesOn_same (s := s.with_ { s.dev with mem := m }) (d := { s.dev.silent with mem := m })
            ⟨rfl, rfl, rfl, rfl, rfl⟩ rfl)
      · rw [if_pos hheld] at hissue
        refine completes_core_as (f := fun d => d.ctlSt c.val i) hruns (exec_st c i s) hissue (by rw [pruneDue_sqNext]; rfl) ?_
        exact ⟨stalled_sqNext _ _, goesOn_same ⟨rfl, rfl, rfl, rfl, rfl⟩ rfl⟩
    · have hbad : w.remote = true ∨ ea < w.base ∨ w.base + w.len < ea + n ∨ ea % n ≠ 0 ∨ (true = true ∧ ¬w.wr = true) := by
        rcases hout with h | h | h | h | h <;> simp [h]
      rw [haddr, if_pos hbad] at hissue
      exact completes_core_as (f := fun d => d.ctlSt c.val i) hruns (exec_st c i s) hissue rfl (refuses_sqRefuse s c.val _)

end Sys2Proof.Machine
end

section
/-! SUPPORT. Proof of the statement about the generation instructions (R194 to R200, R206, R235). -/
namespace Sys2Proof.Machine

open Safety

/-! ## Slots and tables -/

section
variable (t : GenTable) (stage g : Nat)

theorem onSlot_slot (f : GenSlot → GenSlot) : (t.onSlot stage g f).slot stage g = f (t.slot stage g) := FMap.getD_set_self _ _ _ _

theorem onSlot_other (f : GenSlot → GenSlot) {k : Nat} (h : k ≠ 2 * stage + g) :
    FMap.getD (t.onSlot stage g f).slots k {} = FMap.getD t.slots k {} := FMap.getD_set_ne _ _ _ _ _ _ (Ne.symm h)

/-- A slot that a claim fills. -/
theorem fill_slot (ring : Nat) : ((t.fill stage g ring).slot stage g).st = .filling ∧ ((t.fill stage g ring).slot stage g).ring = ring ∧
    (∀ k, k ≠ 2 * stage + g → FMap.getD (t.fill stage g ring).slots k {} = FMap.getD t.slots k {}) ∧
    (t.fill stage g ring).claims = t.claims := by
  have hslot := onSlot_slot t stage g (fun x => { x with st := .filling, ring := ring, missed := t.lateRings.contains (stage, ring) })
  exact ⟨congrArg GenSlot.st hslot, congrArg GenSlot.ring hslot, fun k hk => onSlot_other t stage g
    (fun x => { x with st := .filling, ring := ring, missed := t.lateRings.contains (stage, ring) }) hk, rfl⟩

end

/-! ## The tables' answers -/

section
variable (t : GenTable) (stage ring : Nat)

/-- A slot that is not FREE and holds the ring (R195). -/
def HoldsRing (g : Nat) : Prop := (t.slot stage g).st ≠ .free ∧ (t.slot stage g).ring = ring

theorem acq_absent (h0 : ¬ HoldsRing t stage ring 0) (h1 : ¬ HoldsRing t stage ring 1) : t.acq stage ring = (.refused 0, t) := by
  have hhit : (upTo 2).find? (fun g => decide ((t.slot stage g).st ≠ .free) && decide ((t.slot stage g).ring = ring)) = none := by
    have hmiss : ∀ g, ¬ HoldsRing t stage ring g → (decide ((t.slot stage g).st ≠ .free) && decide ((t.slot stage g).ring = ring)) = false :=
      fun g h => by rw [← Bool.decide_and]; exact decide_eq_false h
    rw [show upTo 2 = [0, 1] from rfl, List.find?_cons, hmiss 0 h0, List.find?_cons, hmiss 1 h1]
    rfl
  unfold GenTable.acq
  dsimp only
  rw [hhit]

theorem acq_found {g : Nat} (hg : g < 2) (h : ∀ g', g' ≤ g → (HoldsRing t stage ring g' ↔ g' = g)) : t.acq stage ring =
    if (t.claimOf stage g).isSome then (.refused 1, t)
    else if 65535 ≤ (t.slot stage g).refs then (.refused 2, t)
    else (.ok g, t.onSlot stage g (fun x => { x with refs := x.refs + 1 })) := by
  have hyes : ∀ g, HoldsRing t stage ring g → (decide ((t.slot stage g).st ≠ .free) && decide ((t.slot stage g).ring = ring)) = true :=
    fun g h => by rw [← Bool.decide_and]; exact decide_eq_true h
  have hno : ∀ g, ¬ HoldsRing t stage ring g → (decide ((t.slot stage g).st ≠ .free) && decide ((t.slot stage g).ring = ring)) = false :=
    fun g h => by rw [← Bool.decide_and]; exact decide_eq_false h
  have hhit : (upTo 2).find? (fun g => decide ((t.slot stage g).st ≠ .free) && decide ((t.slot stage g).ring = ring)) = some g := by
    rw [show upTo 2 = [0, 1] from rfl]
    have hself := (h g (le_refl g)).2 rfl
    match g, hg with
    | 0, _ => exact List.find?_cons_of_pos (hyes 0 hself)
    | 1, _ =>
      have hfirst : ¬ HoldsRing t stage ring 0 := fun h0 => absurd ((h 0 (Nat.zero_le 1)).1 h0) Nat.zero_ne_one
      rw [List.find?_cons, hno 0 hfirst]
      exact List.find?_cons_of_pos (hyes 1 hself)
  unfold GenTable.acq
  dsimp only
  rw [hhit]

/-- Without waiting claims a slot's tag is its ring. -/
theorem tag_of_no_claims (h : t.claims = []) (g : Nat) :
    t.tag stage g = if (t.slot stage g).st = .free then none else some (t.slot stage g).ring := by
  unfold GenTable.tag
  rw [h]
  rfl

/-- A FREE slot that no claim waits on has none. -/
theorem tag_of_free {g : Nat} (hclaim : t.claimOf stage g = none) (hfree : (t.slot stage g).st = .free) : t.tag stage g = none := by
  have hnone : t.claims.reverse.find? (fun x => x.stage = stage ∧ x.slot = g) = none := by
    exact List.find?_eq_none.2 fun x hx => List.find?_eq_none.1 hclaim x (List.mem_reverse.1 hx)
  unfold GenTable.tag
  rw [hnone]
  exact if_pos hfree

theorem claim_order {g : Nat} (hg : g < 2) (core rd : Nat) (hclaims : t.claims = []) (hst : (t.slot stage g).st ≠ .free)
    (hle : ring ≤ (t.slot stage g).ring) : t.claim core stage ring rd = (.refused 4, t) := by
  have htag : t.tag stage g = some (t.slot stage g).ring := (tag_of_no_claims t stage hclaims g).trans (if_neg hst)
  unfold GenTable.claim
  dsimp only
  match g, hg with
  | 0, _ => rw [htag]; simp [hle]
  | 1, _ => rw [htag]; simp [hle]

theorem claim_free (core rd : Nat) (h0 : (t.slot stage 0).st = .free) (h1 : (t.slot stage 1).st = .free)
    (hc0 : t.claimOf stage 0 = none) (hc1 : t.claimOf stage 1 = none) (hrefs : (t.slot stage 0).refs = 0) :
    t.claim core stage ring rd = (.ok 0, t.fill stage 0 ring) := by
  unfold GenTable.claim
  rw [tag_of_free t stage hc0 h0, tag_of_free t stage hc1 h1]
  simp [hc0, hrefs]

theorem claim_waits {g : Nat} (hg : g < 2) (core rd : Nat) (hclaims : t.claims = [])
    (h : ∀ g', g' < 2 → (t.slot stage g').st ≠ .free ∧ (t.slot stage g').ring < ring ∧
      (g' ≠ g → (t.slot stage g).ring < (t.slot stage g').ring)) (hrefs : (t.slot stage g).refs ≠ 0) :
    t.claim core stage ring rd = (.waits, { t with claims := [⟨core, stage, g, ring, rd⟩] }) := by
  obtain ⟨hst0, hlt0, hother0⟩ := h 0 (by decide)
  obtain ⟨hst1, hlt1, hother1⟩ := h 1 (by decide)
  have htag0 : t.tag stage 0 = some (t.slot stage 0).ring := (tag_of_no_claims t stage hclaims 0).trans (if_neg hst0)
  have htag1 : t.tag stage 1 = some (t.slot stage 1).ring := (tag_of_no_claims t stage hclaims 1).trans (if_neg hst1)
  have hpick : (if (t.slot stage 0).ring ≤ (t.slot stage 1).ring then 0 else 1) = g := by
    match g, hg with
    | 0, _ => exact if_pos (hother1 (by decide)).le
    | 1, _ => exact if_neg (Nat.not_le.2 (hother0 (by decide)))
  unfold GenTable.claim
  dsimp only
  rw [htag0, htag1]
  simp [Nat.not_le.2 hlt0, Nat.not_le.2 hlt1, hpick, hrefs, hclaims]

end

/-! ## The instructions of a sequencer -/

section
variable {s : State} {c : Nat}

/-- A sequencer that goes on beside a change of generation tables and of events. -/
theorem goesOn_gens {P : Sq → Sq → Prop} {d : Dev} {g : Sq → Sq}
    (hunits : d.mem = s.dev.mem ∧ d.regs = s.dev.regs ∧ d.sems = s.dev.sems ∧ d.parts = s.dev.parts) (hcores : d.cores = s.dev.cores)
    (hkeeps : KeepsFlow (s.dev.core c).sq (g (s.dev.core c).sq))
    (hP : ∀ q', q'.s = (g (s.dev.core c).sq).s → q'.a = (g (s.dev.core c).sq).a → q'.d = (g (s.dev.core c).sq).d →
      q'.v = (g (s.dev.core c).sq).v → q'.p = (g (s.dev.core c).sq).p → P (s.dev.core c).sq q') :
    GoesOn s c P { (d.onSq c g).sqNext c with gens := s.dev.gens } := by
  obtain ⟨hmem, hregs, hsems, hparts⟩ := hunits
  obtain ⟨hcalls, hstore, hlen, hpc, hloops⟩ := hkeeps
  have hcore : ∀ j, d.core j = s.dev.core j := Dev.core_congr hcores
  have hself : (d.onSq c g).core c = { s.dev.core c with sq := g (s.dev.core c).sq } := by rw [onSq_core, if_pos rfl, hcore]
  have hgo : GoesOn (s.with_ { s.dev with gens := d.gens }) c P ((d.onSq c g).sqNext c) := by
    refine goesOn_next _ c P (d.onSq c g) hmem hregs hsems hparts rfl (fun j hj => ?_) ?_ ?_ ?_ ?_ ?_ ?_ ?_ ?_ ?_
    · rw [onSq_core, if_neg (Ne.symm hj)]
      exact hcore j
    all_goals rw [hself]
    exacts [rfl, rfl, rfl, hcalls, hstore, hlen, hpc, hloops, hP]
  obtain ⟨hfiles, hcalls', ⟨h1, h2, h3, h4, -, hrest⟩, hplain⟩ := hgo
  exact ⟨hfiles, hcalls', ⟨h1, h2, h3, h4, rfl, hrest⟩, hplain⟩

theorem raised_sqNext (d : Dev) (c : Nat) : ∀ x ∈ d.raised, x ∈ (d.sqNext c).raised := by
  unfold Dev.sqNext Dev.sqPcRange Dev.sqRefuse Dev.sqRefuseAt Dev.raiseCore Dev.raise Dev.raiseAs
  dsimp only
  intro x hx
  split
  · simpa using hx
  · simp [hx]

end

/-- The table that the sequencer of core c sees, and what it answers. -/
def genAnswer (d : Dev) (c : Nat) (i : IWord) (slotArg : Bool) (f : GenTable → Nat → Nat → GenRes × GenTable) : GenRes × GenTable :=
  let q := (d.core c).sq
  let t := d.gen (d.corePart c)
  if t.stages ≤ (q.getS i.rs1).toNat ∨ (slotArg = true ∧ 1 < (q.getS i.rs2).toNat) then (GenRes.refused 0, t)
  else f t (q.getS i.rs1).toNat (q.getS i.rs2).toNat

/-- The device after an answer. -/
def Dev.genDone (d : Dev) (c : Nat) (i : IWord) (r : GenRes × GenTable) : Dev :=
  match r.1 with
  | .ok v => ((d.setGen (d.corePart c) r.2).onSq c (fun q => q.setS i.rd (BitVec.ofNat 64 v))).sqNext c
  | .refused b => ((d.genRaise (d.corePart c) b c).onSq c (fun q => q.setS i.rd (BitVec.allOnes 64))).sqNext c
  | .waits => (d.setGen (d.corePart c) r.2).sqStall c .claim

theorem gen_sqNext (d : Dev) (c p : Nat) : (d.sqNext c).gen p = d.gen p := by
  unfold Dev.gen
  rw [(sqNext_frame d c).2.2.2.2.2.1]

/-- The generation tables after an answer. -/
theorem genDone_gen (d : Dev) (c : Nat) (i : IWord) (t : GenTable) (p : Nat) :
    (∀ v, (d.genDone c i (.ok v, t)).gen p = if d.corePart c = p then t else d.gen p) ∧
    (∀ b, (d.genDone c i (.refused b, t)).gen p = if d.corePart c = p then
      { d.gen (d.corePart c) with events := (d.gen (d.corePart c)).events ||| BitVec.ofNat 6 (2 ^ b) } else d.gen p) ∧
    (d.genDone c i (.waits, t)).gen p = if d.corePart c = p then t else d.gen p :=
  ⟨fun _ => (gen_sqNext _ _ _).trans (Dev.setGen_get d _ p t), fun _ => (gen_sqNext _ _ _).trans (Dev.setGen_get d _ p _),
    Dev.setGen_get d _ p t⟩

theorem pruneDue_genDone (d : Dev) (c : Nat) (i : IWord) (r : GenRes × GenTable) : (d.genDone c i r).pruneDue = d.pruneDue := by
  unfold Dev.genDone
  split
  · rw [pruneDue_sqNext]; rfl
  · rw [pruneDue_sqNext]; rfl
  · rfl

section
variable (s : State) (c : Nat) (i : IWord) (t : GenTable)

theorem genDone_ok (v : Nat) : GoesOn s c (fun q q' => OnlyS q q' i.rd (BitVec.ofNat 64 v))
    { s.dev.silent.genDone c i (.ok v, t) with gens := s.dev.gens } :=
  goesOn_gens (d := s.dev.silent.setGen (s.dev.silent.corePart c) t) ⟨rfl, rfl, rfl, rfl⟩ rfl (keepsFlow_setS _ _ _)
    fun _ => onlyS_of_setS

theorem genDone_refused (b : Nat) : GoesOn s c (fun q q' => OnlyS q q' i.rd (BitVec.allOnes 64))
      { s.dev.silent.genDone c i (.refused b, t) with gens := s.dev.gens } ∧
    ∃ x ∈ (s.dev.silent.genDone c i (.refused b, t)).raised, x.code = 0x0F10 + b ∧ x.part = some (s.dev.corePart c) :=
  ⟨goesOn_gens (d := s.dev.silent.genRaise (s.dev.silent.corePart c) b c) ⟨rfl, rfl, rfl, rfl⟩ rfl (keepsFlow_setS _ _ _)
      fun _ => onlyS_of_setS,
    _, raised_sqNext _ _ _ (List.mem_append_right _ (List.mem_singleton_self _)), rfl, rfl⟩

theorem genDone_waits : Stands s c .claim { s.dev.silent.genDone c i (.waits, t) with gens := s.dev.gens } := by
  have hcore := onSq_core (s.dev.silent.setGen (s.dev.silent.corePart c) t) c (fun q => { q with st := .stall, wait := .claim })
  exact ⟨congrArg Core.sq ((hcore c).trans (if_pos rfl)), coreFrame_of_core ⟨rfl, rfl, rfl, rfl, rfl⟩ hcore rfl rfl⟩

end

/-- An enabled generation instruction completes with its answer. -/
theorem completes_gen {cmd : Instr} {s : State} {c : CoreId} {i : IWord} {op : Nat} {slotArg : Bool}
    {f : GenTable → Nat → Nat → GenRes × GenTable} {r : GenRes × GenTable} {P : Dev → Prop}
    (hexec : exec cmd s = run s (fun d => if d.tileOn (tileOf c.val) = true then (d.genOp c.val op i slotArg f).settle else d))
    (hop : op < 256 ∧ opNamed 0 op = true) (hruns : CoreRuns s c.val) (hat : AtPc s.dev c.val 0 op i) (hon : Enabled s.dev c.val i)
    (hform : i.f 34 0 = 0) (hans : genAnswer s.dev c.val i slotArg f = r) (hP : P ((s.dev.silent.genDone c.val i r).withPins s.dev)) :
    Completes cmd s P := by
  have heff : s.dev.silent.genOp c.val op i slotArg f = s.dev.silent.genDone c.val i (genAnswer s.dev c.val i slotArg f) :=
    sqIssue_enabled (fun d => d.sqNext c.val) _ hat hon hop (legalR_of_zero i hform _)
  rw [hans] at heff
  exact completes_core_as (f := fun d => d.genOp c.val op i slotArg f) hruns hexec heff (pruneDue_genDone _ _ _ _) hP

/-- Settles O14: each instruction by its table's answer. -/
theorem generationClaims : Obligations.GenerationClaims := by
  unfold Obligations.GenerationClaims
  refine ⟨?tables, ?absent, ?complete⟩
  case tables =>
    intro c i s hruns hon hform q p t stage arg other answers refused holds hstage
    have hin : ¬ (t.stages ≤ stage ∨ (false = true ∧ 1 < arg)) := by simp [Nat.not_le.2 hstage]
    have hin2 : arg < 2 → ¬ (t.stages ≤ stage ∨ (true = true ∧ 1 < arg)) := fun h => by
      simp only [true_and, not_or]
      exact ⟨Nat.not_le.2 hstage, Nat.not_lt.2 (Nat.le_of_lt_succ h)⟩
    have hrefused : ∀ b t', refused b ((s.dev.silent.genDone c.val i (.refused b, t')).withPins s.dev) := fun b t' => by
      obtain ⟨hgo, hraised⟩ := genDone_refused s c.val i t' b
      have hgen := ((genDone_gen s.dev.silent c.val i t' p).2.1 b).trans (if_pos rfl)
      generalize s.dev.silent.genDone c.val i (.refused b, t') = d at hgo hraised hgen ⊢
      exact ⟨hgo, hgen, hraised⟩
    have hslot : ∀ v t' g, (∀ k, k ≠ 2 * stage + g → FMap.getD t'.slots k {} = FMap.getD t.slots k {}) →
        ((s.dev.silent.genDone c.val i (.ok v, t')).withPins s.dev).gen p = t' ∧
        other ((s.dev.silent.genDone c.val i (.ok v, t')).withPins s.dev) g ∧
        answers v ((s.dev.silent.genDone c.val i (.ok v, t')).withPins s.dev) := fun v t' g hk => by
      have hgen := fun p' => (genDone_gen s.dev.silent c.val i t' p').1 v
      have hself := (hgen p).trans (if_pos rfl)
      have hgo := genDone_ok s c.val i t' v
      generalize s.dev.silent.genDone c.val i (.ok v, t') = d at hgen hself hgo ⊢
      exact ⟨hself, ⟨fun k h => (congrArg (fun t : GenTable => FMap.getD t.slots k {}) hself).trans (hk k h),
        fun p' hp' => (hgen p').trans (if_neg (Ne.symm hp'))⟩, hgo⟩
    have hacq : ∀ {P : Dev → Prop}, AtPc s.dev c.val 0 0x50 i → P ((s.dev.silent.genDone c.val i (t.acq stage arg)).withPins s.dev) →
        Completes (.genAcq c i) s P := fun hat => completes_gen (exec_genAcq c i s) (by decide) hruns hat hon hform (if_neg hin)
    have hrel : ∀ {P : Dev → Prop}, AtPc s.dev c.val 0 0x51 i → arg < 2 →
        P ((s.dev.silent.genDone c.val i (t.rel stage arg)).withPins s.dev) → Completes (.genRel c i) s P :=
      fun hat harg => completes_gen (exec_genRel c i s) (by decide) hruns hat hon hform (if_neg (hin2 harg))
    have hclaim : ∀ {P : Dev → Prop}, AtPc s.dev c.val 0 0x52 i →
        P ((s.dev.silent.genDone c.val i (t.claim c.val stage arg i.rd)).withPins s.dev) → Completes (.genClaim c i) s P :=
      fun hat => completes_gen (exec_genClaim c i s) (by decide) hruns hat hon hform (if_neg hin)
    have hready : ∀ {P : Dev → Prop}, AtPc s.dev c.val 0 0x53 i → arg < 2 →
        P ((s.dev.silent.genDone c.val i (t.ready stage arg)).withPins s.dev) → Completes (.genReady c i) s P :=
      fun hat harg => completes_gen (exec_genReady c i s) (by decide) hruns hat hon hform (if_neg (hin2 harg))
    refine ⟨fun hat h0 h1 => ?_, fun g hg hat hfound => ⟨fun hcl => ?_, fun hcl hlim => ?_⟩, fun hat harg hrefs => ?_,
      fun g hg hat hst hle hcl => ?_, fun hat harg hst => ?_, fun g hg hat hcl hboth hrefs => ?_, fun g hg hat hfound hcl hlim => ?_,
      fun hat harg hrefs => ?_, fun hat h0 h1 hc0 hc1 hrefs => ?_, fun hat harg hst => ?_⟩
    · refine hacq hat ?_
      rw [acq_absent t stage arg h0 h1]
      exact hrefused 0 t
    · refine hacq hat ?_
      rw [acq_found t stage arg hg hfound, if_pos (Option.isSome_iff_ne_none.2 hcl)]
      exact hrefused 1 t
    · refine hacq hat ?_
      rw [acq_found t stage arg hg hfound, if_neg (by rw [hcl]; decide), if_pos hlim]
      exact hrefused 2 t
    · refine hrel hat harg ?_
      rw [show GenTable.rel t stage arg = (.refused 3, t) from if_pos hrefs]
      exact hrefused 3 t
    · refine hclaim hat ?_
      rw [claim_order t stage arg hg c.val i.rd hcl hst hle]
      exact hrefused 4 t
    · refine hready hat harg ?_
      rw [show GenTable.ready t stage arg = (.refused 4, t) from if_neg hst]
      exact hrefused 4 t
    · refine hclaim hat ?_
      rw [claim_waits t stage arg hg c.val i.rd hcl hboth hrefs]
      have hgen := fun p' => (genDone_gen s.dev.silent c.val i { t with claims := [⟨c.val, stage, g, arg, i.rd⟩] } p').2.2
      have hself := (hgen p).trans (if_pos rfl)
      have hstands := genDone_waits s c.val i { t with claims := [⟨c.val, stage, g, arg, i.rd⟩] }
      generalize s.dev.silent.genDone c.val i (.waits, { t with claims := [⟨c.val, stage, g, arg, i.rd⟩] }) = d at hgen hself hstands ⊢
      exact ⟨hself, fun p' hp' => (hgen p').trans (if_neg (Ne.symm hp')), hstands⟩
    · refine hacq hat ?_
      rw [acq_found t stage arg hg hfound, if_neg (by rw [hcl]; decide), if_neg (Nat.not_le.2 hlim)]
      obtain ⟨hself, hother, hans⟩ := hslot g (t.onSlot stage g (fun x => { x with refs := x.refs + 1 })) g
        (fun k hk => onSlot_other t stage g _ hk)
      refine ⟨?_, hother, hans⟩
      dsimp only
      rw [hself, onSlot_slot]
    · refine hrel hat harg ?_
      rw [show GenTable.rel t stage arg = (.ok ((t.slot stage arg).refs - 1), t.onSlot stage arg (fun x =>
        { x with refs := (t.slot stage arg).refs - 1 })) from if_neg (Nat.ne_of_gt hrefs)]
      obtain ⟨hself, hother, hans⟩ := hslot ((t.slot stage arg).refs - 1) (t.onSlot stage arg (fun x =>
        { x with refs := (t.slot stage arg).refs - 1 })) arg (fun k hk => onSlot_other t stage arg _ hk)
      refine ⟨?_, hother, hans⟩
      dsimp only
      rw [hself, onSlot_slot]
    · refine hclaim hat ?_
      rw [claim_free t stage arg c.val i.rd h0 h1 hc0 hc1 hrefs]
      obtain ⟨hst, hring, hk, -⟩ := fill_slot t stage 0 arg
      obtain ⟨hself, hother, hans⟩ := hslot 0 (t.fill stage 0 arg) 0 hk
      refine ⟨?_, ?_, hother, hans⟩ <;> rw [hself]
      exacts [hst, hring]
    · refine hready hat harg ?_
      rw [show GenTable.ready t stage arg = (.ok arg, t.onSlot stage arg (fun x => { x with st := .ready, missed := false })) from if_pos hst]
      obtain ⟨hself, hother, hans⟩ := hslot arg (t.onSlot stage arg (fun x => { x with st := .ready, missed := false })) arg
        (fun k hk => onSlot_other t stage arg _ hk)
      refine ⟨?_, hother, hans⟩
      dsimp only
      rw [hself, onSlot_slot]
  case absent =>
    simp only [List.forall_mem_cons, List.not_mem_nil, false_implies, implies_true, and_true]
    have hanswer : ∀ (c : CoreId) (i : IWord) (s : State), GoesOn s c.val (fun q q' => OnlyS q q' i.rd (BitVec.allOnes 64))
          { (s.dev.silent.genDone c.val i (.refused 0, s.dev.gen (s.dev.corePart c.val))).withPins s.dev with gens := s.dev.gens } ∧
        ((s.dev.silent.genDone c.val i (.refused 0, s.dev.gen (s.dev.corePart c.val))).withPins s.dev).gen (s.dev.corePart c.val) =
          { s.dev.gen (s.dev.corePart c.val) with events := (s.dev.gen (s.dev.corePart c.val)).events ||| 1 } ∧
        ∃ x ∈ ((s.dev.silent.genDone c.val i (.refused 0, s.dev.gen (s.dev.corePart c.val))).withPins s.dev).raised,
          x.code = 0x0F10 ∧ x.part = some (s.dev.corePart c.val) := fun c i s => by
      obtain ⟨hgo, hraised⟩ := genDone_refused s c.val i (s.dev.gen (s.dev.corePart c.val)) 0
      have hgen := ((genDone_gen s.dev.silent c.val i (s.dev.gen (s.dev.corePart c.val)) (s.dev.corePart c.val)).2.1 0).trans (if_pos rfl)
      generalize s.dev.silent.genDone c.val i (.refused 0, s.dev.gen (s.dev.corePart c.val)) = d at hgo hraised hgen ⊢
      exact ⟨hgo, hgen, hraised⟩
    refine ⟨?_, ?_, ?_, ?_⟩ <;> intro c i s hruns hat hon hform hout
    · exact completes_gen (exec_genAcq c i s) (by decide) hruns hat hon hform (if_pos hout) (hanswer c i s)
    · exact completes_gen (exec_genRel c i s) (by decide) hruns hat hon hform (if_pos (hout.imp_right fun h => ⟨rfl, h.2⟩)) (hanswer c i s)
    · exact completes_gen (exec_genClaim c i s) (by decide) hruns hat hon hform (if_pos hout) (hanswer c i s)
    · exact completes_gen (exec_genReady c i s) (by decide) hruns hat hon hform (if_pos (hout.imp_right fun h => ⟨rfl, h.2⟩)) (hanswer c i s)
  case complete =>
    intro p st g x s hacts hclaim hrefs hwait
    obtain ⟨hst, hring, -, hclaims⟩ := fill_slot { s.dev.gen p.val with claims := (s.dev.gen p.val).claims.erase x } st.val g.val x.ring
    generalize ht : ({ s.dev.gen p.val with claims := (s.dev.gen p.val).claims.erase x } : GenTable).fill st.val g.val x.ring = t
      at hst hring hclaims
    have hgo : GoesOn s x.core (fun q q' => OnlyS q q' x.rd (BitVec.ofNat 64 g.val)) { ((s.dev.silent.setGen p.val t).onSq x.core
        (fun q => q.setS x.rd (BitVec.ofNat 64 g.val))).sqNext x.core with gens := s.dev.gens } :=
      goesOn_gens ⟨rfl, rfl, rfl, rfl⟩ rfl (keepsFlow_setS _ _ _) fun _ => onlyS_of_setS
    have hgen : (((s.dev.silent.setGen p.val t).onSq x.core (fun q => q.setS x.rd (BitVec.ofNat 64 g.val))).sqNext x.core).gen p.val = t := by
      rw [gen_sqNext]
      exact (Dev.setGen_get s.dev.silent p.val p.val t).trans (if_pos rfl)
    have hdue : (((s.dev.silent.setGen p.val t).onSq x.core (fun q => q.setS x.rd (BitVec.ofNat 64 g.val))).sqNext x.core).pruneDue = [] := by
      rw [pruneDue_sqNext]
      exact hacts.2
    have heff : s.dev.silent.genClaimComplete p.val st.val g.val =
        ((s.dev.silent.setGen p.val t).onSq x.core (fun q => q.setS x.rd (BitVec.ofNat 64 g.val))).sqNext x.core := by
      have hclaim' : (s.dev.silent.gen p.val).claimOf st.val g.val = some x := hclaim
      have hrefs' : ((s.dev.silent.gen p.val).slot st.val g.val).refs = 0 := hrefs
      unfold Dev.genClaimComplete
      dsimp only
      rw [hclaim']
      dsimp only
      rw [if_pos hrefs', ← ht]
      exact if_pos hwait
    rw [← heff] at hgo hgen hdue
    generalize hd : s.dev.silent.genClaimComplete p.val st.val g.val = d at hgo hgen hdue
    refine completes_settled (f := fun d => d.genClaimComplete p.val st.val g.val) hacts (exec_genClaimComplete p st g s) ?_ ?_ <;> rw [hd]
    · exact hdue
    · have hgen' : (d.withPins s.dev).gen p.val = t := hgen
      rw [hgen']
      exact ⟨hst, hring, hclaims, hgo⟩

end Sys2Proof.Machine
end

section
/-! SUPPORT. Proof of the statement about the service of semaphore requests (R228, R230). -/
namespace Sys2Proof.Machine

open Safety

/-! ## A clk in which one request arrives -/

section
variable {d : Dev} {g n : Nat} {r : SemReq} {pre post : List SemReq}

/-- The only request of the cluster among those that travel. -/
structure OnlyRequest (d : Dev) (g : Nat) (r : SemReq) (pre post : List SemReq) : Prop where
  reqs : d.semReqs = pre ++ r :: post
  fresh : r.arrived = false
  here : semCluster r.sem = g
  others : ∀ x ∈ pre ++ post, semCluster x.sem ≠ g ∧ x.id ≠ r.id

/-- Requests of other clusters pass no test that asks for this one. -/
theorem OnlyRequest.filter_here (h : OnlyRequest d g r pre post) {p : SemReq → Bool} (hp : ∀ x, p x = true → semCluster x.sem = g)
    (y : SemReq) : (pre ++ y :: post).filter p = if p y then [y] else [] := by
  have hnil : ∀ l : List SemReq, (∀ x ∈ l, semCluster x.sem ≠ g) → l.filter p = [] := fun l hl =>
    List.filter_eq_nil_iff.2 fun x hx hpx => hl x hx (hp x hpx)
  rw [List.filter_append, hnil pre fun x hx => (h.others x (List.mem_append_left _ hx)).1, List.nil_append, List.filter_cons,
    hnil post fun x hx => (h.others x (List.mem_append_right _ hx)).1]

/-- A request that arrives in this clk. -/
def semNow (g : Nat) (ids : List Nat) (r : SemReq) : Bool := decide (semCluster r.sem = g) && !r.arrived && ids.contains r.id

/-- A request after the clk: one that stands has stalled longer, a wait that arrives stands. -/
def semAged (g : Nat) (ids : List Nat) (n : Nat) (r : SemReq) : SemReq :=
  if decide (semCluster r.sem = g) && r.arrived then { r with stall := r.stall + n }
  else if semNow g ids r && decide (r.kind = .wait) then { r with arrived := true } else r

/-- The requests that a clk leaves, before any wait completes. -/
def Dev.semLeft (d : Dev) (g : Nat) (ids : List Nat) (n : Nat) : List SemReq :=
  (d.semReqs.filter (fun r => !(semNow g ids r && decide (r.kind ≠ .wait)))).map (semAged g ids n)

theorem semClk_eq (d : Dev) (g : Nat) (ids : List Nat) (n : Nat) :
    d.semClk g ids n =
      let arr := d.semReqs.filter (semNow g ids)
      let d2 := (arr.filter (fun r => r.kind = .poison)).foldl (fun (d : Dev) r => d.setSem r.sem { d.sem r.sem with poison := true })
        { d with semReqs := d.semLeft g ids n }
      let sg := d2.semSignals (sortBy (fun r => r.who.rank) (arr.filter (fun r => r.kind = .sig)))
      let gr := sg.2.semGrants (sortBy (fun r => r.who.rank)
        (sg.2.semReqs.filter (fun r => decide (semCluster r.sem = g) && r.arrived && decide (r.kind = .wait))))
      sg.1.foldl (fun (d : Dev) x => d.semLate x.1 x.2 gr.1) gr.2 := rfl

section
variable (h : OnlyRequest d g r pre post)
include h

theorem OnlyRequest.now_self : semNow g [r.id] r = true := by simp [semNow, h.here, h.fresh]

theorem OnlyRequest.now_other {x : SemReq} (hx : x ∈ pre ++ post) : semNow g [r.id] x = false := by
  simp [semNow, (h.others x hx).1]

theorem OnlyRequest.arrivals : d.semReqs.filter (semNow g [r.id]) = [r] := by
  rw [h.reqs, h.filter_here (fun x hx => by simp only [semNow, Bool.and_eq_true, decide_eq_true_eq] at hx; exact hx.1.1) r, h.now_self]
  rfl

/-- The requests of other clusters are left as they are. -/
theorem OnlyRequest.left : d.semLeft g [r.id] n =
    pre ++ (if r.kind = .wait then [{ r with arrived := true }] else []) ++ post := by
  have hkeep : ∀ l : List SemReq, (∀ x ∈ l, x ∈ pre ++ post) →
      (l.filter (fun r' => !(semNow g [r.id] r' && decide (r'.kind ≠ .wait)))).map (semAged g [r.id] n) = l := fun l hl => by
    rw [List.filter_eq_self.2 fun x hx => by rw [h.now_other (hl x hx)]; rfl]
    refine (List.map_congr_left fun x hx => ?_).trans (List.map_id l)
    have hfar := (h.others x (hl x hx)).1
    simp [semAged, h.now_other (hl x hx), hfar]
  unfold Dev.semLeft
  rw [h.reqs, List.filter_append, List.map_append, hkeep pre fun x hx => List.mem_append_left _ hx, List.filter_cons, h.now_self]
  have hage : r.kind = .wait → semAged g [r.id] n r = { r with arrived := true } := fun hw => by
    simp [semAged, h.fresh, h.now_self, hw]
  by_cases hw : r.kind = .wait
  · rw [if_pos (by simp [hw]), List.map_cons, hage hw, hkeep post fun x hx => List.mem_append_right _ hx, if_pos hw, List.append_assoc]
    rfl
  · rw [if_neg (by simp [hw]), hkeep post fun x hx => List.mem_append_right _ hx, if_neg hw, List.append_nil]

end

/-- A signal of a sequencer leaves, and is applied. -/
theorem semClk_sig (h : OnlyRequest d g r pre post) (hkind : r.kind = .sig) {c : Nat} (hwho : r.who = .sq c)
    (hroom : (d.sem r.sem).value + r.n ≤ 65535) :
    d.semClk g [r.id] n = Dev.setSem { d with semReqs := pre ++ post } r.sem { d.sem r.sem with
      value := (d.sem r.sem).value + r.n, owner := if (d.sem r.sem).declared then (d.sem r.sem).owner else c } := by
  have happly : Dev.semApply { d with semReqs := pre ++ post } r = (true, Dev.setSem { d with semReqs := pre ++ post } r.sem
      { d.sem r.sem with value := (d.sem r.sem).value + r.n, owner := if (d.sem r.sem).declared then (d.sem r.sem).owner else c }) := by
    have hnot : ¬ 65535 < (Dev.sem { d with semReqs := pre ++ post } r.sem).value + r.n := Nat.not_lt.2 hroom
    unfold Dev.semApply
    dsimp only
    rw [if_neg hnot, hwho]
    rfl
  have hnone : (pre ++ post).filter (fun r => decide (semCluster r.sem = g) && r.arrived && decide (r.kind = .wait)) = [] :=
    List.filter_eq_nil_iff.2 fun x hx => by simp [(h.others x hx).1]
  have hsignals : Dev.semSignals { d with semReqs := pre ++ post } [r] = ([], Dev.setSem { d with semReqs := pre ++ post } r.sem
      { d.sem r.sem with value := (d.sem r.sem).value + r.n, owner := if (d.sem r.sem).declared then (d.sem r.sem).owner else c }) := by
    unfold Dev.semSignals
    dsimp only
    rw [happly, hwho]
    rfl
  rw [semClk_eq, h.arrivals, h.left, hkind]
  have hsort : sortBy (fun r => r.who.rank) ([r].filter (fun r => r.kind = .sig)) = [r] := by
    rw [List.filter_cons_of_pos (by simp [hkind])]
    rfl
  have hpoison : [r].filter (fun r => r.kind = .poison) = [] := by simp [hkind]
  dsimp only
  rw [hsort, hpoison]
  simp only [reduceCtorEq, if_false, List.append_nil, List.foldl_nil]
  rw [hsignals]
  have hreqs : ∀ x, (Dev.setSem { d with semReqs := pre ++ post } r.sem x).semReqs = pre ++ post := fun _ => rfl
  dsimp only
  rw [hreqs, hnone]
  rfl

/-- One wait that is tried. -/
theorem semGrants_one (d : Dev) (r : SemReq) : (d.semGrants [r]).2 =
    if (d.sem r.sem).poison then { d with
      semReqs := d.semReqs.filter (fun x => x.id ≠ r.id), semDone := d.semDone ++ [⟨r.id, r.who, r.pd, true⟩] }
    else if r.n ≤ (d.sem r.sem).value then Dev.setSem { d with
      semReqs := d.semReqs.filter (fun x => x.id ≠ r.id), semDone := d.semDone ++ [⟨r.id, r.who, r.pd, false⟩] } r.sem
        { d.sem r.sem with value := (d.sem r.sem).value - r.n }
    else d := by
  unfold Dev.semGrants Dev.semTry
  dsimp only
  split_ifs <;> rfl

theorem sortBy_one (key : SemReq → Nat) (r : SemReq) : sortBy key [r] = [r] := rfl

/-- A wait stands at its semaphore, unless it completes at once. -/
theorem semClk_wait (h : OnlyRequest d g r pre post) (hkind : r.kind = .wait) :
    d.semClk g [r.id] n =
      if (d.sem r.sem).poison then { d with
        semReqs := pre ++ post, semDone := d.semDone ++ [⟨r.id, r.who, r.pd, true⟩] }
      else if r.n ≤ (d.sem r.sem).value then Dev.setSem { d with
        semReqs := pre ++ post, semDone := d.semDone ++ [⟨r.id, r.who, r.pd, false⟩] } r.sem
          { d.sem r.sem with value := (d.sem r.sem).value - r.n }
      else { d with semReqs := pre ++ { r with arrived := true } :: post } := by
  have hstand : (pre ++ { r with arrived := true } :: post).filter
      (fun r => decide (semCluster r.sem = g) && r.arrived && decide (r.kind = .wait)) = [{ r with arrived := true }] := by
    rw [h.filter_here (fun x hx => by simp only [Bool.and_eq_true, decide_eq_true_eq] at hx; exact hx.1.1) { r with arrived := true }]
    simp [h.here, hkind]
  have hgone : (pre ++ { r with arrived := true } :: post).filter (fun x => x.id ≠ r.id) = pre ++ post := by
    have hall : ∀ l : List SemReq, (∀ x ∈ l, x ∈ pre ++ post) → l.filter (fun x => x.id ≠ r.id) = l := fun l hl =>
      List.filter_eq_self.2 fun x hx => decide_eq_true (h.others x (hl x hx)).2
    rw [List.filter_append, hall pre fun x hx => List.mem_append_left _ hx, List.filter_cons,
      hall post fun x hx => List.mem_append_right _ hx]
    simp
  rw [semClk_eq, h.arrivals, h.left, if_pos hkind]
  have hsig : [r].filter (fun r => r.kind = .sig) = [] := by simp [hkind]
  have hpoison : [r].filter (fun r => r.kind = .poison) = [] := by simp [hkind]
  have hlist : pre ++ [{ r with arrived := true }] ++ post = pre ++ { r with arrived := true } :: post := by simp
  dsimp only
  rw [hsig, hpoison, hlist]
  simp only [List.foldl_nil, sortBy, Dev.semSignals]
  rw [hstand]
  have hsem : Dev.sem { d with semReqs := pre ++ { r with arrived := true } :: post } r.sem = d.sem r.sem := rfl
  rw [sortBy_one, semGrants_one, hsem]
  dsimp only
  rw [hgone]

end

/-! ## A wait that has completed -/

theorem semDone_sqNext (d : Dev) (c : Nat) : (d.sqNext c).semDone = d.semDone := by
  unfold Dev.sqNext Dev.sqPcRange Dev.sqRefuse Dev.sqRefuseAt
  dsimp only
  split <;> simp

/-- A completed wait of a sequencer that still stands at it. -/
theorem semResume_sq {d : Dev} {id c pd : Nat} {bad : Bool} (hdone : d.semDone.find? (fun r => r.id = id) = some ⟨id, .sq c, pd, bad⟩)
    (hwait : (d.core c).sq.wait = .sem id pd) :
    d.semResume id =
      let d1 := { d with semDone := d.semDone.filter (fun x => x.id ≠ id) }
      if bad && decide (pd = 0) then d1.sqRefuse c 0x0901 else (d1.onSq c (fun q => q.setPKeep pd bad)).sqNext c := by
  unfold Dev.semResume
  rw [hdone]
  exact if_pos hwait

/-- Which waits have completed is no concern of an instruction's effect. -/
theorem goesOn_semDone {s : State} {c : Nat} {P : Sq → Sq → Prop} {d : Dev} (x : List SemDone)
    (h : GoesOn (s.with_ { s.dev with semDone := x }) c P d) : GoesOn s c P d := h

/-- Settles O13: a clk by its one request, a resumption by what the sequencer waits for. -/
theorem semaphoreService : Obligations.SemaphoreService := by
  unfold Obligations.SemaphoreService
  constructor
  · intro g n r pre post s hacts htile hreqs hfresh hothers hhere x
    have honly : OnlyRequest s.dev.silent g.val r pre post := ⟨hreqs, hfresh, hhere, hothers⟩
    have hcompletes : ∀ {P : Dev → Prop} {d : Dev}, s.dev.silent.semClk g.val [r.id] n = d → d.pruneDue = [] → P (d.withPins s.dev) →
        Completes (.semRequestArrival g [r.id] n) s P := fun heq hdue hP => by
      have htile' : s.dev.silent.tileOn (g.val / 4) = true := htile
      refine completes_settled (f := fun d => if d.tileOn (g.val / 4) = true then d.semClk g.val [r.id] n else d) hacts
        (exec_semRequestArrival g [r.id] n s) ?_ ?_ <;> rw [if_pos htile', heq]
      · exact hdue
      · exact hP
    refine ⟨fun c hwho hkind hroom => ?_, fun hkind hgood hfits => ?_, fun hkind hbad => ?_, fun hkind hgood hshort => ?_⟩
    · refine hcompletes (semClk_sig honly hkind hwho hroom) hacts.2 ⟨?_, rfl, fun k hk => ?_⟩
      · exact (Dev.setSem_get _ _ _ _).trans (if_pos rfl)
      · exact (Dev.setSem_get { s.dev.silent with semReqs := pre ++ post } r.sem k _).trans (if_neg (Ne.symm hk))
    · have hbad' : ¬ (s.dev.silent.sem r.sem).poison = true := Bool.eq_false_iff.1 hgood
      have hfits' : r.n ≤ (s.dev.silent.sem r.sem).value := hfits
      refine hcompletes ((semClk_wait honly hkind).trans ((if_neg hbad').trans (if_pos hfits'))) hacts.2 ⟨?_, rfl, rfl, fun k hk => ?_⟩
      · exact (Dev.setSem_get _ _ _ _).trans (if_pos rfl)
      · exact (Dev.setSem_get { s.dev.silent with
          semReqs := pre ++ post, semDone := s.dev.semDone ++ [⟨r.id, r.who, r.pd, false⟩] } r.sem k _).trans (if_neg (Ne.symm hk))
    · have hbad' : (s.dev.silent.sem r.sem).poison = true := hbad
      exact hcompletes ((semClk_wait honly hkind).trans (if_pos hbad')) hacts.2 ⟨rfl, rfl, rfl⟩
    · have hbad' : ¬ (s.dev.silent.sem r.sem).poison = true := Bool.eq_false_iff.1 hgood
      have hshort' : ¬ r.n ≤ (s.dev.silent.sem r.sem).value := Nat.not_le.2 hshort
      exact hcompletes ((semClk_wait honly hkind).trans ((if_neg hbad').trans (if_neg hshort'))) hacts.2 ⟨rfl, rfl, rfl⟩
  · intro id c pd bad s hacts hpd hdone hwait
    have heq := semResume_sq (d := s.dev.silent) hdone hwait
    have hcompletes : ∀ {P : Dev → Prop} {d : Dev}, s.dev.silent.semResume id = d → d.pruneDue = [] → P (d.withPins s.dev) →
        Completes (.semWaitResume id) s P := fun heq hdue hP => by
      refine completes_settled (f := fun d => d.semResume id) hacts (exec_semWaitResume id s) ?_ ?_ <;> rw [heq]
      · exact hdue
      · exact hP
    refine ⟨fun hgo => ?_, fun hzero hbad => ?_⟩
    · have hno : ¬ (bad && decide (pd = 0)) = true := by
        rcases hgo with h | h <;> simp [h]
      refine hcompletes (heq.trans (if_neg hno)) (by rw [pruneDue_sqNext]; exact hacts.2) ⟨?_, fun r hr => ?_⟩
      · have hgoes := goesOn_onSq (s := s.with_ { s.dev with semDone := s.dev.semDone.filter (fun x => x.id ≠ id) }) (c := c)
          (P := fun q q' => OnlyP q q' pd (bad || (decide (pd = 7) && q.getP 7))) (g := fun q => q.setPKeep pd bad)
          (keepsFlow_setPKeep _ _ _) (fun _ => onlyP_of_setPKeep)
        exact goesOn_pins s c _ _ _ (goesOn_semDone _ hgoes)
      · have hsemDone := semDone_sqNext (Dev.onSq { s.dev.silent with semDone := s.dev.semDone.filter (fun x => x.id ≠ id) } c
          (fun q => q.setPKeep pd bad)) c
        have hin : r ∈ s.dev.semDone.filter (fun x => x.id ≠ id) := hsemDone.subst (motive := fun l => r ∈ l) hr
        simpa using (List.mem_filter.1 hin).2
    · have hyes : (bad && decide (pd = 0)) = true := by simp [hzero, hbad]
      exact hcompletes (heq.trans (if_pos hyes)) hacts.2
        (refuses_sqRefuse (s.with_ { s.dev with semDone := s.dev.semDone.filter (fun x => x.id ≠ id) }) c 0x0901)

end Sys2Proof.Machine
end

section
/-! SUPPORT. Vector instructions at the head of their queue (R153, R171), and the proof of the statement about the lane-by-lane
ones (R150 to R155, R262 to R264). -/
namespace Sys2Proof.Machine

open Safety

/-! ## What an engine's instruction leaves alone -/

/-- An entry that stands at the head is what the engine takes. -/
theorem engHead_atHead {d : Dev} {c e : Nat} {w : Word} {x : QEntry} {rest : List QEntry} (h : AtHead d c e w x rest) :
    d.engHead c e w = some x := by
  obtain ⟨hqueue, hword, hhalt, hwait, hheld⟩ := h
  unfold Dev.engHead
  dsimp only
  rw [hhalt, hwait, hqueue]
  simp_all

/-- A device in which only core c differs, and of its sequencer only the vector registers. -/
theorem engineFrame_of {d d' : Dev} {c : Nat} (hunits : d'.sems = d.sems ∧ d'.parts = d.parts ∧ d'.gens = d.gens)
    (hother : ∀ j, j ≠ c → d'.core j = d.core j) (v : FMap VReg) (hsq : (d'.core c).sq = { (d.core c).sq with v := v }) :
    EngineFrame d d' c := by
  obtain ⟨hsems, hparts, hgens⟩ := hunits
  refine ⟨hsems, hparts, hgens, hother, ?_⟩
  rw [hsq]
  exact ⟨rfl, rfl, rfl, rfl, rfl, rfl, rfl⟩

/-! ## A vector instruction begins -/

/-- The device in which a vector instruction acts: its entry has left the queue and its clk are counted (R156, R171). -/
def veTaken (d : Dev) (c op : Nat) : Dev := (d.engTake c 2).clkCount ⟨.vePerfBusy, [c]⟩ (veOccupancy op)

/-- At the head of the queue, with no SOLVE and nothing that refuses it, a vector instruction acts. -/
theorem veInstr_begin {s : State} {c op : Nat} {i : IWord} {x : QEntry} {rest : List QEntry} {legal : Sq → Bool}
    {check : QEntry → Sq → Option Nat} (body : QEntry → Sq → Dev → Dev) (hat : AtHead s.dev c 2 (i.word 2 op) x rest)
    (hsolve : (s.dev.core c).ve.solve = none) (hcheck : check x (s.dev.core c).sq = none) :
    s.dev.silent.veInstr c op i .begin legal check body = body x (s.dev.core c).sq (veTaken s.dev.silent c op) := by
  have hhead : s.dev.silent.engHead c 2 (i.word 2 op) = some x := engHead_atHead hat
  have hsolve' : (s.dev.silent.core c).ve.solve = none := hsolve
  have hcheck' : check x (s.dev.silent.core c).sq = none := hcheck
  unfold Dev.veInstr Dev.veBegin
  dsimp only
  rw [hhead]
  dsimp only
  rw [hsolve', hcheck']
  rfl

/-- Of the cores, taking an instruction changes its own vector queue. -/
theorem veTaken_core (d : Dev) (c op j : Nat) : (veTaken d c op).core j = if c = j then
    { d.core c with ve := { (d.core c).ve with eng := { (d.core c).ve.eng with
      queue := (d.core c).ve.eng.queue.drop 1, nextSeq := (d.core c).ve.eng.nextSeq + 1 } } } else d.core j := by
  have h := Dev.onEng_get d c 2 j (fun g => { g with queue := g.queue.drop 1, nextSeq := g.nextSeq + 1 })
  exact h

/-- What a write of a vector register leaves of the cores. -/
theorem veWrite_core (d : Dev) (c vd j : Nat) (v : VReg) (fl : Flags) : (d.veWrite c vd v fl).core j = if c = j then
    { d.core c with sq := (d.core c).sq.setV vd v, ve := { (d.core c).ve with
      flags := (d.core c).ve.flags ||| fl, since := (d.core c).ve.since ||| fl } } else d.core j :=
  Dev.onCore_get d c j _

section
variable {s : State} {c op vd : Nat} {w : Word} {x : QEntry} {rest : List QEntry} {lane : Nat → Lane} {F : Nat → Prop}

/-- A vector instruction that writes one register. -/
theorem lanesDone_veWrite {v : VReg} {fl : Flags} (hat : AtHead s.dev c 2 w x rest) (hlane : ∀ k, k < 256 → v.getD k 0 = lane k)
    (hflag : ∀ n, n < 7 → (fl.getLsbD n = true ↔ F n)) :
    LanesDone s c vd rest lane F (((veTaken s.dev.silent c op).veWrite c vd v fl).withPins s.dev) := by
  have hcore : ∀ j, (((veTaken s.dev.silent c op).veWrite c vd v fl).withPins s.dev).core j = if c = j then
      { s.dev.core c with sq := (s.dev.core c).sq.setV vd v, ve := { (s.dev.core c).ve with
        eng := { (s.dev.core c).ve.eng with
          queue := (s.dev.core c).ve.eng.queue.drop 1, nextSeq := (s.dev.core c).ve.eng.nextSeq + 1 }
        flags := (s.dev.core c).ve.flags ||| fl, since := (s.dev.core c).ve.since ||| fl } } else s.dev.core j := by
    intro j
    refine (veWrite_core (veTaken s.dev.silent c op) c vd j v fl).trans ?_
    rw [veTaken_core, veTaken_core, if_pos rfl]
    split
    · rfl
    · rfl
  have hself := (hcore c).trans (if_pos rfl)
  obtain ⟨hqueue, -⟩ := hat
  have hqueue' : (s.dev.core c).ve.eng.queue = x :: rest := hqueue
  refine ⟨fun k hk => ?_, fun r hr => ?_, fun n hn => ?_, ?_, ?_, ?_, rfl,
    engineFrame_of ⟨rfl, rfl, rfl⟩ (fun j hj => (hcore j).trans (if_neg (Ne.symm hj)))
      (FMap.set (s.dev.core c).sq.v vzero vd v) (congrArg Core.sq hself)⟩
  · rw [hself, ← hlane k hk]
    exact congrArg (fun l => List.getD l k 0) (FMap.getD_set_self _ _ _ _)
  · rw [hself]
    exact FMap.getD_set_ne _ _ _ _ _ _ (Ne.symm hr)
  · rw [hself, ← hflag n hn]
    exact (Bool.eq_iff_iff.1 (BitVec.getLsbD_or (i := n) (x := (s.dev.core c).ve.flags) (y := fl))).trans (Bool.or_eq_true _ _).to_iff
  · rw [hself]
    exact congrArg (List.drop 1) hqueue'
  · rw [hself]
  · rw [hself]

end

/-! ## Lanes and their flags -/

/-- A flag of a union is a flag of one of its members. -/
theorem getLsbD_foldl_or {w : Nat} (l : List (BitVec w)) (a : BitVec w) (n : Nat) :
    (l.foldl (· ||| ·) a).getLsbD n = true ↔ a.getLsbD n = true ∨ ∃ x ∈ l, x.getLsbD n = true := by
  induction l generalizing a with
  | nil => simp
  | cons y l ih =>
    rw [List.foldl_cons, ih, BitVec.getLsbD_or]
    simp [or_assoc]

theorem length_laneIds : laneIds.length = 256 := List.length_range

/-- Lane k of the register that a function of the lane number gives. -/
theorem getD_map_laneIds {α : Type} (f : Nat → α) (a : α) {k : Nat} (hk : k < 256) : (laneIds.map f).getD k a = f k := by
  simp [laneIds, List.getD_eq_getElem?_getD, hk]

/-- Activity of a lane (R153). -/
theorem active_iff (q : Sq) {mk : Nat} (vm : Nat) (hmk : mk < 2) {k : Nat} (hk : k < 256) :
    (q.active (decide (mk = 1)) vm).getD k false = true ↔ LaneOn q mk vm k := by
  unfold Sq.active LaneOn
  have hcases : mk = 0 ∨ mk = 1 := by omega
  rcases hcases with rfl | rfl
  · rw [if_neg (by decide), List.getD_eq_getElem?_getD, List.getElem?_replicate_of_lt hk]
    exact iff_of_true rfl (.inl rfl)
  · simp only [decide_true, if_true, getD_map_laneIds _ _ hk, decide_eq_true_eq, Nat.one_ne_zero, false_or]
    rfl

theorem f_lt_two (i : IWord) (k : Nat) : i.f k k < 2 := by
  have h : i.f k k < 2 ^ (k + 1 - k) := fld_lt k k i.opnd
  rwa [Nat.add_sub_cancel_left] at h

/-- The second operand of format VR, lane by lane (R263). -/
theorem lane_vbOperand (q : Sq) (x : QEntry) (i : IWord) {k : Nat} (hk : k < 256) : (vbOperand q x i).lane k = laneB q x i k := by
  unfold vbOperand laneB VReg.lane
  split
  · rw [List.getD_eq_getElem?_getD, List.getElem?_replicate_of_lt hk]
    rfl
  · rfl

section
variable {s : State} {c op vd : Nat} {w : Word} {x : QEntry} {rest : List QEntry}
open Classical

/-- An instruction computed lane by lane: its active lanes take their result, the others keep theirs and raise nothing. -/
theorem lanesDone_active {act : List Bool} {on : Nat → Prop} {old : VReg} {f r : Nat → Lane × Flags}
    (hat : AtHead s.dev c 2 w x rest) (hact : ∀ k, k < 256 → (act.getD k false = true ↔ on k))
    (hr : ∀ k, k < 256 → on k → f k = r k) :
    let rs := laneIds.map (fun k => if act.getD k false then f k else (old.lane k, 0))
    LanesDone s c vd rest (fun k => if on k then (r k).1 else old.getD k 0)
      (fun n => ∃ k, k < 256 ∧ on k ∧ (r k).2.getLsbD n = true)
      (((veTaken s.dev.silent c op).veWrite c vd (rs.map Prod.fst) ((rs.map Prod.snd).foldl (· ||| ·) 0)).withPins s.dev) := by
  intro rs
  have hon : ∀ k, k < 256 → on k → (if act.getD k false then f k else (old.lane k, 0)) = r k := fun k hk h =>
    (if_pos ((hact k hk).2 h)).trans (hr k hk h)
  have hoff : ∀ k, k < 256 → ¬on k → (if act.getD k false then f k else (old.lane k, 0)) = (old.lane k, 0) := fun k hk h =>
    if_neg fun ha => h ((hact k hk).1 ha)
  refine lanesDone_veWrite hat (fun k hk => ?_) (fun n _ => ?_)
  · rw [List.map_map, getD_map_laneIds _ _ hk]
    by_cases h : on k
    · exact (congrArg Prod.fst (hon k hk h)).trans (if_pos h).symm
    · exact (congrArg Prod.fst (hoff k hk h)).trans (if_neg h).symm
  · rw [getLsbD_foldl_or]
    constructor
    · rintro (h | ⟨fl, hfl, hn⟩)
      · simp at h
      · rw [List.map_map] at hfl
        obtain ⟨k, hk, rfl⟩ := List.mem_map.1 hfl
        have hk' := List.mem_range.1 hk
        by_cases h : on k
        · refine ⟨k, hk', h, ?_⟩
          rw [← hon k hk' h]
          exact hn
        · have hzero := congrArg Prod.snd (hoff k hk' h)
          rw [Function.comp_apply, hzero] at hn
          simp at hn
    · rintro ⟨k, hk, h, hn⟩
      refine .inr ⟨(r k).2, ?_, hn⟩
      rw [List.map_map]
      exact List.mem_map.2 ⟨k, List.mem_range.2 hk, congrArg Prod.snd (hon k hk h)⟩

/-- A format VR instruction lane by lane. -/
theorem completes_veLanes {cmd : Instr} {i : IWord} {cond : Bool} {check : Option Nat} {f : Lane → Lane → Lane → Lane × Flags}
    (hruns : CoreRuns s c)
    (hexec : exec cmd s = run s (fun d => if d.tileOn (tileOf c) = true then
      (d.veLanes c op i .begin cond check f).settle else d))
    (hat : AtHead s.dev c 2 (i.word 2 op) x rest) (hsolve : (s.dev.core c).ve.solve = none) (hcheck : check = none) :
    let q := (s.dev.core c).sq
    let on := LaneOn q (i.f 28 28) (i.f 27 23)
    let r := fun k => f ((q.getV (i.f 44 40)).getD k 0) (laneB q x i k) ((q.getV (i.f 34 30)).getD k 0)
    Completes cmd s (LanesDone s c (i.f 49 45) rest
      (fun k => if on k then (r k).1 else (q.getV (i.f 49 45)).getD k 0)
      (fun n => ∃ k, k < 256 ∧ on k ∧ (r k).2.getLsbD n = true)) := by
  intro q on r
  have heff := veInstr_begin (legal := legalVr 0 cond i) (check := fun _ _ => check) (fun x q d =>
    let act := q.active (i.f 28 28 = 1) (i.f 27 23)
    let a := q.getV (i.f 44 40)
    let b := vbOperand q x i
    let e := q.getV (i.f 34 30)
    let rs := laneIds.map (fun k =>
      if act.getD k false then f (a.lane k) (b.lane k) (e.lane k) else ((q.getV (i.f 49 45)).lane k, 0))
    d.veWrite c (i.f 49 45) (rs.map Prod.fst) ((rs.map Prod.snd).foldl (· ||| ·) 0)) hat hsolve hcheck
  refine completes_core_as (f := fun d => d.veLanes c op i .begin cond check f) hruns hexec heff rfl ?_
  refine lanesDone_active hat (fun k hk => active_iff q (i.f 27 23) (f_lt_two i 28) hk) (fun k hk _ => ?_)
  rw [lane_vbOperand q x i hk]
  rfl

/-- A format VR instruction lane by lane, in the form of the statement. -/
theorem veLanes_begin {ins : CoreId → IWord → Phase → Instr} {ok : IWord → Prop} {cond : Bool} {check : IWord → Option Nat}
    {f : IWord → Lane → Lane → Lane → Lane × Flags}
    (hexec : ∀ c i s, exec (ins c i .begin) s = run s (fun d => if d.tileOn (tileOf c.val) = true then
      (d.veLanes c.val op i .begin cond (check i) (f i)).settle else d))
    (hok : ∀ i, ok i → check i = none) (c : CoreId) (i : IWord) (x : QEntry) (rest : List QEntry) (s : State)
    (hruns : CoreRuns s c.val) (hat : AtHead s.dev c.val 2 (i.word 2 op) x rest) (hsolve : (s.dev.core c.val).ve.solve = none)
    (hi : ok i) :
    let q := (s.dev.core c.val).sq
    let on := LaneOn q (i.f 28 28) (i.f 27 23)
    let r := fun k => f i ((q.getV (i.f 44 40)).getD k 0) (laneB q x i k) ((q.getV (i.f 34 30)).getD k 0)
    Completes (ins c i .begin) s (LanesDone s c.val (i.f 49 45) rest
      (fun k => if on k then (r k).1 else (q.getV (i.f 49 45)).getD k 0)
      (fun n => ∃ k, k < 256 ∧ on k ∧ (r k).2.getLsbD n = true)) :=
  completes_veLanes hruns (hexec c i s) hat hsolve (hok i hi)

end

/-- Settles O18: each operation is its lane function under `veLanes_begin`. -/
theorem vectorLanes : Obligations.VectorLanes := by
  unfold Obligations.VectorLanes
  have hcond : ∀ i : IWord, i.f 22 20 ≤ 5 → condCheck i = none := fun i h => if_neg (Nat.not_lt.2 h)
  have hfree : ∀ i : IWord, True → (none : Option Nat) = none := fun _ _ => rfl
  simp only [List.forall_mem_append, List.forall_mem_cons, List.not_mem_nil, false_implies, implies_true, and_true]
  refine ⟨⟨veLanes_begin (fun c i => exec_fadd c i .begin) hfree,
    veLanes_begin (fun c i => exec_fsub c i .begin) hfree,
    veLanes_begin (fun c i => exec_fmul c i .begin) hfree,
    veLanes_begin (fun c i => exec_fma c i .begin) hfree,
    veLanes_begin (fun c i => exec_fmax c i .begin) hfree,
    veLanes_begin (fun c i => exec_fmin c i .begin) hfree,
    veLanes_begin (fun c i => exec_fcmp c i .begin) hcond,
    veLanes_begin (fun c i => exec_fabs c i .begin) hfree,
    veLanes_begin (fun c i => exec_fneg c i .begin) hfree,
    veLanes_begin (fun c i => exec_sel c i .begin) hfree,
    veLanes_begin (fun c i => exec_iadd c i .begin) hfree,
    veLanes_begin (fun c i => exec_isub c i .begin) hfree,
    veLanes_begin (fun c i => exec_imul c i .begin) hfree,
    veLanes_begin (fun c i => exec_veSll c i .begin) hfree,
    veLanes_begin (fun c i => exec_veSrl c i .begin) hfree,
    veLanes_begin (fun c i => exec_veSra c i .begin) hfree,
    veLanes_begin (fun c i => exec_veAnd c i .begin) hfree,
    veLanes_begin (fun c i => exec_veOr c i .begin) hfree,
    veLanes_begin (fun c i => exec_veXor c i .begin) hfree,
    veLanes_begin (fun c i => exec_icmp c i .begin) hcond⟩,
    ⟨veLanes_begin (fun c i => exec_exp c i .begin) hfree,
    veLanes_begin (fun c i => exec_exp2 c i .begin) hfree,
    veLanes_begin (fun c i => exec_log c i .begin) hfree,
    veLanes_begin (fun c i => exec_log2 c i .begin) hfree,
    veLanes_begin (fun c i => exec_rcp c i .begin) hfree,
    veLanes_begin (fun c i => exec_rsqrt c i .begin) hfree,
    veLanes_begin (fun c i => exec_tanh c i .begin) hfree,
    veLanes_begin (fun c i => exec_sigmoid c i .begin) hfree,
    veLanes_begin (fun c i => exec_erf c i .begin) hfree,
    veLanes_begin (fun c i => exec_sinpi c i .begin) hfree,
    veLanes_begin (fun c i => exec_cospi c i .begin) hfree,
    veLanes_begin (fun c i => exec_div c i .begin) hfree,
    veLanes_begin (fun c i => exec_sqrt c i .begin) hfree⟩⟩

end Sys2Proof.Machine
end

section
/-! SUPPORT. Proofs of the statements about lane movements, reductions (R158, R159), random bits (R162, R163) and the online softmax
(R160, R161). -/
namespace Sys2Proof.Machine

open Safety

/-! ## Segments of a register -/

/-- The pieces of a list whose length is a multiple of theirs. -/
theorem chunksOf_eq {α : Type} {n : Nat} (hn : 0 < n) (m : Nat) : ∀ (fuel : Nat) (l : List α), m ≤ fuel → l.length = n * m →
    chunksOf n fuel l = (List.range m).map (fun j => (l.drop (n * j)).take n) := by
  induction m with
  | zero =>
    intro fuel l _ hlen
    have hnil : l = [] := List.length_eq_zero_iff.1 hlen
    subst hnil
    cases fuel <;> rfl
  | succ m ih =>
    intro fuel l hfuel hlen
    obtain ⟨fuel, rfl⟩ := Nat.exists_eq_add_of_le' (Nat.le_trans (Nat.succ_le_succ (Nat.zero_le m)) hfuel)
    cases l with
    | nil => rw [List.length_nil, Nat.mul_succ] at hlen; omega
    | cons a l =>
      have hrest := ih fuel ((a :: l).drop n) (by omega) (by rw [List.length_drop, hlen, Nat.mul_succ]; omega)
      rw [List.range_succ_eq_map, List.map_cons, List.map_map, Nat.mul_zero, List.drop_zero]
      refine congrArg ((a :: l).take n :: ·) (hrest.trans (List.map_congr_left fun j _ => ?_))
      rw [Function.comp_apply, List.drop_drop, Nat.mul_succ, Nat.add_comm]

/-- A piece of a register that a function of the lane number gives. -/
theorem take_drop_laneIds {α : Type} (f : Nat → α) {n j : Nat} (h : n * j + n ≤ 256) :
    ((laneIds.map f).drop (n * j)).take n = (List.range n).map (fun m => f (n * j + m)) := by
  apply List.ext_getElem
  · simp only [List.length_take, List.length_drop, List.length_map, length_laneIds, List.length_range]
    omega
  · intro k h1 h2
    simp [laneIds]

/-- An element of pieces of one length set side by side. -/
theorem getD_flatMap {α β : Type} {n : Nat} (F : α → List β) (b : β) {m : Nat} (hm : m < n) : ∀ (l : List α) (j : Nat) (a : α),
    l[j]? = some a → (∀ x ∈ l, (F x).length = n) → (l.flatMap F).getD (n * j + m) b = (F a).getD m b := by
  intro l
  induction l with
  | nil => intro j a h; simp at h
  | cons x l ih =>
    intro j a h hlen
    have hx : (F x).length = n := hlen x List.mem_cons_self
    rw [List.flatMap_cons]
    cases j with
    | zero =>
      obtain rfl : x = a := by simpa using h
      rw [Nat.mul_zero, Nat.zero_add, List.getD_append _ _ _ _ (by omega)]
    | succ j =>
      rw [List.getD_append_right _ _ _ _ (by rw [hx, Nat.mul_succ]; omega), hx]
      have hk : n * (j + 1) + m - n = n * j + m := by rw [Nat.mul_succ]; omega
      rw [hk]
      exact ih j a (by simpa using h) (fun y hy => hlen y (List.mem_cons_of_mem _ hy))

/-- The segments of a register of 256 lanes. -/
theorem segSize {k : Nat} (hk : k ≤ 8) : 0 < 2 ^ k ∧ 2 ^ k * (256 / 2 ^ k) = 256 ∧ 256 / 2 ^ k ≤ 256 := by
  have hdvd : 2 ^ k ∣ 256 := pow_dvd_pow 2 hk
  exact ⟨Nat.two_pow_pos k, Nat.mul_div_cancel' hdvd, Nat.div_le_self _ _⟩

/-- PERM, lane by lane. -/
theorem lane_permLanes (a b : VReg) {k : Nat} (hk : k < 256) : (permLanes a b).lane k = a.lane ((b.lane k).toNat % 256) :=
  getD_map_laneIds (fun k => a.lane ((b.lane k).toNat % 256)) 0 hk

/-- LSHIFT, lane by lane. -/
theorem lane_shiftLanes (n : Int) (a : VReg) {k : Nat} (hk : k < 256) : (shiftLanes n a).lane k =
    (let j : Int := (k : Int) - n; if 0 ≤ j ∧ j < 256 then a.lane j.toNat else 0) :=
  getD_map_laneIds (fun (k : Nat) => let j : Int := (k : Int) - n; if 0 ≤ j ∧ j < 256 then a.lane j.toNat else 0) 0 hk

section
variable {s : State} {c op vd : Nat} {w : Word} {x : QEntry} {rest : List QEntry}
open Classical

/-- A register written in its active lanes only. -/
theorem lanesDone_merge {act : List Bool} {on : Nat → Prop} {old new : VReg} {fl : Flags} {lane : Nat → Lane} {F : Nat → Prop}
    (hat : AtHead s.dev c 2 w x rest) (hact : ∀ k, k < 256 → (act.getD k false = true ↔ on k))
    (hlane : ∀ k, k < 256 → on k → new.lane k = lane k) (hflag : ∀ n, n < 7 → (fl.getLsbD n = true ↔ F n)) :
    LanesDone s c vd rest (fun k => if on k then lane k else old.getD k 0) F
      (((veTaken s.dev.silent c op).veWrite c vd (mergeLanes act new old) fl).withPins s.dev) := by
  refine lanesDone_veWrite hat (fun k hk => ?_) hflag
  refine (getD_map_laneIds _ _ hk).trans ?_
  by_cases h : on k
  · rw [if_pos ((hact k hk).2 h), if_pos h, hlane k hk h]
  · rw [if_neg (fun ha => h ((hact k hk).1 ha)), if_neg h]
    rfl

/-- A lane movement (R262 to R264), in the form of the statement. -/
theorem veMove_begin {ins : CoreId → IWord → Phase → Instr} {ok : IWord → Prop} {xmask : Nat} {check : IWord → Option Nat}
    {f : IWord → VReg → VReg → VReg} {r : IWord → (Nat → Lane) → (Nat → Lane) → Nat → Lane × Flags}
    (hexec : ∀ c i s, exec (ins c i .begin) s = run s (fun d => if d.tileOn (tileOf c.val) = true then
      (d.veMove c.val op i .begin xmask (check i) (f i)).settle else d))
    (hok : ∀ i, ok i → check i = none)
    (hf : ∀ i, ok i → ∀ a b k, k < 256 → r i a.lane b.lane k = ((f i a b).lane k, 0)) (hcongr : ∀ i a b b' k, k < 256 →
      (∀ j, j < 256 → b j = b' j) → r i a b k = r i a b' k)
    (c : CoreId) (i : IWord) (x : QEntry) (rest : List QEntry) (s : State)
    (hruns : CoreRuns s c.val) (hat : AtHead s.dev c.val 2 (i.word 2 op) x rest) (hsolve : (s.dev.core c.val).ve.solve = none)
    (hi : ok i) :
    let q := (s.dev.core c.val).sq
    let on := LaneOn q (i.f 28 28) (i.f 27 23)
    let r := r i (fun k => (q.getV (i.f 44 40)).getD k 0) (laneB q x i)
    Completes (ins c i .begin) s (LanesDone s c.val (i.f 49 45) rest
      (fun k => if on k then (r k).1 else (q.getV (i.f 49 45)).getD k 0)
      (fun n => ∃ k, k < 256 ∧ on k ∧ (r k).2.getLsbD n = true)) := by
  intro q on r'
  have heff := veInstr_begin (legal := legalVr xmask false i) (check := fun _ _ => check i) (fun x q d =>
    let act := q.active (i.f 28 28 = 1) (i.f 27 23)
    d.veWrite c.val (i.f 49 45) (mergeLanes act (f i (q.getV (i.f 44 40)) (vbOperand q x i)) (q.getV (i.f 49 45))) 0)
    hat hsolve (hok i hi)
  have hr : ∀ k, k < 256 → r' k = ((f i (q.getV (i.f 44 40)) (vbOperand q x i)).lane k, 0) := fun k hk =>
    (hcongr i _ _ _ k hk fun j hj => (lane_vbOperand q x i hj).symm).trans (hf i hi _ _ k hk)
  refine completes_core_as (f := fun d => d.veMove c.val op i .begin xmask (check i) (f i)) hruns (hexec c i s) heff rfl ?_
  refine lanesDone_merge hat (fun k hk => active_iff q (i.f 27 23) (f_lt_two i 28) hk) (fun k hk _ => by rw [hr k hk]) (fun n _ => ?_)
  refine iff_of_false (by simp) ?_
  rintro ⟨k, hk, -, hn⟩
  rw [hr k hk] at hn
  simp at hn

/-- CVT.R (R264). -/
theorem completes_cvtR (c : CoreId) (i : IWord) (x : QEntry) (rest : List QEntry) (s : State)
    (hruns : CoreRuns s c.val) (hat : AtHead s.dev c.val 2 (i.word 2 0x40) x rest)
    (hsolve : (s.dev.core c.val).ve.solve = none) (hi : cvtRCheck i = none) :
    let q := (s.dev.core c.val).sq
    let on := LaneOn q (i.f 28 28) (i.f 27 23)
    let r := fun k => cvtRLane i ((q.getV (i.f 44 40)).getD k 0)
    Completes (.cvtR c i .begin) s (LanesDone s c.val (i.f 49 45) rest
      (fun k => if on k then (r k).1 else (q.getV (i.f 49 45)).getD k 0)
      (fun n => ∃ k, k < 256 ∧ on k ∧ (r k).2.getLsbD n = true)) := by
  intro q on r
  have heff := veInstr_begin (legal := legalVr 0x1FF false i) (check := fun _ _ => cvtRCheck i) (fun _ q d =>
    let act := q.active (i.f 28 28 = 1) (i.f 27 23)
    let a := q.getV (i.f 44 40)
    let rs := laneIds.map (fun k =>
      if act.getD k false then cvtRLane i (a.lane k) else ((q.getV (i.f 49 45)).lane k, 0))
    d.veWrite c.val (i.f 49 45) (rs.map Prod.fst) ((rs.map Prod.snd).foldl (· ||| ·) 0)) hat hsolve hi
  refine completes_core_as (f := fun d => d.veCvtR c.val i .begin) hruns (exec_cvtR c i .begin s) heff rfl ?_
  exact lanesDone_active hat (fun k hk => active_iff q (i.f 27 23) (f_lt_two i 28) hk) (fun k _ _ => rfl)

/-! ## Reductions (R158, R159) -/

/-- A segment of a register with the activity of its lanes. -/
theorem segment_eq (q : Sq) (i : IWord) (a : VReg) {n j : Nat} (h : n * j + n ≤ 256) :
    ((laneIds.map (fun k => (a.lane k, (q.active (i.f 28 28 = 1) (i.f 27 23)).getD k false))).drop (n * j)).take n =
      (List.range n).map (fun m => (a.getD (n * j + m) 0, decide (LaneOn q (i.f 28 28) (i.f 27 23) (n * j + m)))) := by
  rw [take_drop_laneIds _ h]
  refine List.map_congr_left fun m hm => ?_
  have hk : n * j + m < 256 := by have := List.mem_range.1 hm; omega
  refine Prod.ext rfl (Bool.eq_iff_iff.2 ((active_iff q (i.f 27 23) (f_lt_two i 28) hk).trans (decide_eq_true_iff).symm))

/-- A reduction, in the form of the statement. -/
theorem veReduce_begin {ins : CoreId → IWord → Phase → Instr} {g : Nat → List (Lane × Bool) → Lane × Flags}
    (hexec : ∀ c i s, exec (ins c i .begin) s = run s (fun d => if d.tileOn (tileOf c.val) = true then
      (d.veReduce c.val op i .begin g).settle else d))
    (c : CoreId) (i : IWord) (x : QEntry) (rest : List QEntry) (s : State)
    (hruns : CoreRuns s c.val) (hat : AtHead s.dev c.val 2 (i.word 2 op) x rest) (hsolve : (s.dev.core c.val).ve.solve = none)
    (hlo : 2 ≤ i.f 11 8) (hhi : i.f 11 8 ≤ 8) :
    let q := (s.dev.core c.val).sq
    let on := LaneOn q (i.f 28 28) (i.f 27 23)
    let n := 2 ^ i.f 11 8
    let seg := fun j => (List.range n).map (fun m => ((q.getV (i.f 44 40)).getD (n * j + m) 0, decide (on (n * j + m))))
    let r := fun j => g (i.f 11 8) (seg j)
    Completes (ins c i .begin) s (LanesDone s c.val (i.f 49 45) rest
      (fun k => if on k then (r (k / n)).1 else (q.getV (i.f 49 45)).getD k 0)
      (fun b => ∃ j, j < 256 / n ∧ (r j).2.getLsbD b = true)) := by
  intro q on n seg r
  obtain ⟨hpos, hmul, hle⟩ : 0 < n ∧ n * (256 / n) = 256 ∧ 256 / n ≤ 256 := segSize hhi
  have heff := veInstr_begin (legal := legalVr 0xF false i) (check := fun _ _ => segCheck i) (fun _ q d =>
    let k := i.f 11 8
    let act := q.active (i.f 28 28 = 1) (i.f 27 23)
    let a := q.getV (i.f 44 40)
    let segs := chunksOf (2 ^ k) 256 (laneIds.map (fun j => (a.lane j, act.getD j false)))
    let rs := segs.map (g k)
    let new := rs.flatMap (fun r => List.replicate (2 ^ k) r.1)
    d.veWrite c.val (i.f 49 45) (mergeLanes act new (q.getV (i.f 49 45))) ((rs.map Prod.snd).foldl (· ||| ·) 0))
    hat hsolve (if_pos ⟨hlo, hhi⟩)
  have hsegs : (chunksOf n 256 (laneIds.map (fun k => ((q.getV (i.f 44 40)).lane k,
      (q.active (i.f 28 28 = 1) (i.f 27 23)).getD k false)))).map (g (i.f 11 8)) = (List.range (256 / n)).map r := by
    rw [chunksOf_eq hpos (256 / n) 256 _ hle (by rw [List.length_map, length_laneIds, hmul]), List.map_map]
    refine List.map_congr_left fun j hj => congrArg (g (i.f 11 8)) (segment_eq q i _ ?_)
    have hj' := List.mem_range.1 hj
    calc n * j + n = n * (j + 1) := (Nat.mul_succ n j).symm
      _ ≤ n * (256 / n) := Nat.mul_le_mul_left n hj'
      _ = 256 := hmul
  refine completes_core_as (f := fun d => d.veReduce c.val op i .begin g) hruns (hexec c i s) heff rfl ?_
  dsimp only
  rw [hsegs]
  refine lanesDone_merge hat (fun k hk => active_iff q (i.f 27 23) (f_lt_two i 28) hk) (fun k hk _ => ?_) (fun b _ => ?_)
  · have hj : k / n < 256 / n := Nat.div_lt_div_of_lt_of_dvd ⟨_, hmul.symm⟩ hk
    have hget := getD_flatMap (n := n) (fun r : Lane × Flags => List.replicate n r.1) 0 (Nat.mod_lt k hpos)
      ((List.range (256 / n)).map r) (k / n) (r (k / n)) (by simp [hj]) (fun _ _ => List.length_replicate)
    rw [Nat.div_add_mod] at hget
    refine hget.trans ?_
    rw [List.getD_eq_getElem?_getD, List.getElem?_replicate_of_lt (Nat.mod_lt k hpos)]
    rfl
  · rw [getLsbD_foldl_or]
    simp

end

/-- Settles O19: the movements by `veMove_begin`, CVT.R, and the reductions segment by segment. -/
theorem vectorPermutes : Obligations.VectorPermutes := by
  unfold Obligations.VectorPermutes
  have hfree : ∀ i : IWord, True → (none : Option Nat) = none := fun _ _ => rfl
  simp only [List.forall_mem_cons, List.not_mem_nil, false_implies, implies_true, and_true]
  refine ⟨⟨?_, ?_, ?_, fun c i x rest s hruns hat hsolve hi => completes_cvtR c i x rest s hruns hat hsolve hi⟩,
    fun c i => veReduce_begin (fun c i => exec_rsum c i .begin) c i,
    fun c i => veReduce_begin (fun c i => exec_rmax c i .begin) c i,
    fun c i => veReduce_begin (fun c i => exec_rmin c i .begin) c i,
    fun c i => veReduce_begin (fun c i => exec_irsum c i .begin) c i,
    fun c i => veReduce_begin (fun c i => exec_rsumx c i .begin) c i⟩
  · exact fun c i => veMove_begin (ok := fun _ => True) (r := fun _ va vb k => (va ((vb k).toNat % 256), 0))
      (fun c i => exec_perm c i .begin) hfree (fun _ _ a b k hk => congrArg (·, 0) (lane_permLanes a b hk).symm)
      (fun _ a b b' k hk h => by rw [h k hk]) c i
  · exact fun c i => veMove_begin (ok := fun _ => True) (r := fun i va _ _ => (va (i.f 15 8), 0))
      (fun c i => exec_bcast c i .begin) hfree (fun _ _ a b k hk => by
        refine congrArg (·, 0) ?_
        rw [VReg.lane, VReg.lane, List.getD_eq_getElem?_getD (l := List.replicate _ _), List.getElem?_replicate_of_lt hk]
        rfl)
      (fun _ a b b' k hk h => rfl) c i
  · exact fun c i => veMove_begin (ok := fun i => (sext 12 (i.f 19 8)).natAbs ≤ 255)
      (r := fun i va _ k =>
        let j : Int := k - sext 12 (i.f 19 8)
        (if 0 ≤ j ∧ j < 256 then va j.toNat else 0, 0))
      (fun c i => exec_lshift c i .begin) (fun i h => if_pos h)
      (fun i _ a b k hk => congrArg (·, 0) (lane_shiftLanes _ a hk).symm) (fun _ a b b' k hk h => rfl) c i

/-! ## Random bits (R162, R163) -/

section
variable {op : Nat}
open Classical

/-- A random-bit instruction, in the form of the statement. -/
theorem veRandom_begin {ins : CoreId → IWord → Phase → Instr} {drop pairs : Bool} {f : IWord → QEntry → Sq → Nat → Lane × Flags}
    {r : IWord → QEntry → Lane → Nat → Lane × Flags}
    (hexec : ∀ c i s, exec (ins c i .begin) s = run s (fun d => if d.tileOn (tileOf c.val) = true then
      (d.veRandom c.val op i .begin drop pairs (f i)).settle else d))
    (hf : ∀ i x q k, f i x q k = r i x ((q.getV (i.f 44 40)).getD k 0) k)
    (c : CoreId) (i : IWord) (x : QEntry) (rest : List QEntry) (s : State)
    (hruns : CoreRuns s c.val) (hat : AtHead s.dev c.val 2 (i.word 2 op) x rest) (hsolve : (s.dev.core c.val).ve.solve = none)
    (hi : vnCheck drop pairs i x (s.dev.core c.val).sq = none) :
    let q := (s.dev.core c.val).sq
    let on := LaneOn q (i.f 29 29) (i.f 28 24)
    let r := fun k => r i x ((q.getV (i.f 44 40)).getD k 0) k
    Completes (ins c i .begin) s (LanesDone s c.val (i.f 49 45) rest
      (fun k => if on k then (r k).1 else (q.getV (i.f 49 45)).getD k 0)
      (fun n => ∃ k, k < 256 ∧ on k ∧ (r k).2.getLsbD n = true)) := by
  intro q on r'
  have heff := veInstr_begin (legal := legalVn i) (check := vnCheck drop pairs i) (fun x q d =>
    let act := q.active (i.f 29 29 = 1) (i.f 28 24)
    let rs := laneIds.map (fun k => if act.getD k false then f i x q k else ((q.getV (i.f 49 45)).lane k, 0))
    d.veWrite c.val (i.f 49 45) (rs.map Prod.fst) ((rs.map Prod.snd).foldl (· ||| ·) 0)) hat hsolve hi
  refine completes_core_as (f := fun d => d.veRandom c.val op i .begin drop pairs (f i)) hruns (hexec c i s) heff rfl ?_
  exact lanesDone_active hat (fun k hk => active_iff q (i.f 28 24) (f_lt_two i 29) hk) (fun k _ _ => hf i x q k)

end

/-- RANDU, lane by lane. -/
theorem randuLane_eq (i : IWord) (x : QEntry) (q : Sq) (k : Nat) :
    randuLane i x q k = laneOfExact (vnBits x i k / 256) (-24) false := by
  rw [randuLane, Nat.shiftRight_eq_div_pow, Int.natCast_ediv]
  rfl

/-- DROP, lane by lane. -/
theorem dropLane_eq (i : IWord) (x : QEntry) (q : Sq) (k : Nat) : dropLane i x q k =
    if vnBits x i k < (x.getS (i.f 34 30)).toNat % 2 ^ 32 then (0, 0)
    else fmul ((q.getV (i.f 44 40)).getD k 0) ((x.getS (i.f 34 30 + 1)).setWidth 32) := by
  rw [← BitVec.ofNat_toNat]
  rfl

/-- Settles O20: each lane function under `veRandom_begin`. -/
theorem vectorRandom : Obligations.VectorRandom := by
  unfold Obligations.VectorRandom
  refine List.forall_mem_cons.2 ⟨?_, List.forall_mem_cons.2 ⟨?_, List.forall_mem_cons.2 ⟨?_, List.forall_mem_cons.2 ⟨?_, ?_⟩⟩⟩⟩
  · exact veRandom_begin (r := fun i x _ k => (BitVec.ofNat 32 (vnBits x i k), 0)) (fun c i => exec_rand c i .begin)
      (fun _ _ _ _ => rfl)
  · exact veRandom_begin (r := fun i x _ k => laneOfExact (vnBits x i k / 256) (-24) false) (fun c i => exec_randu c i .begin)
      randuLane_eq
  · exact veRandom_begin (r := fun i x va k => if vnBits x i k < (x.getS (i.f 34 30)).toNat % 2 ^ 32 then (0, 0)
      else fmul va ((x.getS (i.f 34 30 + 1)).setWidth 32)) (fun c i => exec_drop c i .begin) dropLane_eq
  · exact veRandom_begin (r := fun i x _ k => randnLane i x {} k) (fun c i => exec_randn c i .begin) (fun _ _ _ _ => rfl)
  · exact fun _ h => absurd h List.not_mem_nil

/-! ## The online softmax (R160, R161) -/

/-- What a vector instruction has done to the device besides the vector registers and flags of its core. -/
def VeActs (s : State) (c : Nat) (rest : List QEntry) (d : Dev) : Prop :=
  EngineFrame s.dev d c ∧ d.mem = s.dev.mem ∧ (d.core c).ve.eng.queue = rest

section
variable {s : State} {c op : Nat} {w : Word} {x : QEntry} {rest : List QEntry}

theorem veActs_withPins {d p : Dev} (h : VeActs s c rest d) : VeActs s c rest (d.withPins p) := h

theorem pruneDue_veWrite (d : Dev) (c vd : Nat) (v : VReg) (fl : Flags) : (d.veWrite c vd v fl).pruneDue = d.pruneDue := rfl

theorem veActs_taken (hat : AtHead s.dev c 2 w x rest) : VeActs s c rest (veTaken s.dev.silent c op) := by
  have hcore := veTaken_core s.dev.silent c op
  have hself := (hcore c).trans (if_pos rfl)
  obtain ⟨hqueue, -⟩ := hat
  have hqueue' : (s.dev.core c).ve.eng.queue = x :: rest := hqueue
  refine ⟨engineFrame_of ⟨rfl, rfl, rfl⟩ (fun j hj => (hcore j).trans (if_neg (Ne.symm hj))) (s.dev.core c).sq.v ?_, rfl, ?_⟩
  · rw [hself]
    rfl
  · rw [hself]
    exact congrArg (List.drop 1) hqueue'

theorem veActs_veWrite {d : Dev} (h : VeActs s c rest d) (vd : Nat) (v : VReg) (fl : Flags) :
    VeActs s c rest (d.veWrite c vd v fl) := by
  obtain ⟨⟨hsems, hparts, hgens, hother, hfiles⟩, hmem, hqueue⟩ := h
  have hself := (veWrite_core d c vd c v fl).trans (if_pos rfl)
  refine ⟨⟨hsems, hparts, hgens, fun j hj => ?_, ?_⟩, hmem, ?_⟩
  · exact ((veWrite_core d c vd j v fl).trans (if_neg (Ne.symm hj))).trans (hother j hj)
  · rw [hself]
    exact hfiles
  · rw [hself]
    exact hqueue

/-- The vector registers after a write. -/
theorem getV_veWrite (d : Dev) (c vd r : Nat) (v : VReg) (fl : Flags) :
    ((d.veWrite c vd v fl).core c).sq.getV r = if vd = r then v else (d.core c).sq.getV r := by
  rw [veWrite_core, if_pos rfl]
  exact FMap.getD_set _ _ _ _ _

end

/-- A segment's probabilities are as many as its lanes. -/
theorem length_osmxSeg (k : Nat) (xs : List (Lane × Bool)) (m l c : Lane) : (osmxSeg k xs m l c).p.length = xs.length := by
  unfold osmxSeg
  dsimp only
  split_ifs <;> simp

/-- The state of a segment whose lanes hold one value. -/
theorem segState_uniform (isL : Bool) {v : VReg} {n j : Nat} {m : Lane} (hn : 0 < n) (h : n * j + n ≤ 256) (hlen : v.length = 256)
    (hv : ∀ k, k < n → v.getD (n * j + k) 0 = m) : segState isL ((v.drop (n * j)).take n) = m := by
  have hget : ∀ k, k < n → ((v.drop (n * j)).take n)[k]? = some m := by
    intro k hk
    have hk' : n * j + k < v.length := by omega
    rw [List.getElem?_take_of_lt hk, List.getElem?_drop, List.getElem?_eq_getElem hk', ← hv k hk, List.getD_eq_getElem _ _ hk']
  have hzero : ((v.drop (n * j)).take n).getD 0 0 = m := by
    rw [List.getD_eq_getElem?_getD, hget 0 hn]
    rfl
  unfold segState
  dsimp only
  rw [hzero, if_pos]
  rw [List.all_eq_true]
  intro y hy
  obtain ⟨k, hk, rfl⟩ := List.mem_iff_getElem.1 hy
  have hk' : k < n := Nat.lt_of_lt_of_le hk (List.length_take_le _ _)
  have hy' := hget k hk'
  rw [List.getElem?_eq_getElem hk] at hy'
  simpa using hy'

/-- What OSMX gives, segment by segment. -/
def osmxOuts (i : IWord) (x : QEntry) (q : Sq) : List OsmxOut :=
  let k := i.f 11 8
  let n := 2 ^ k
  let act := q.active (i.f 28 28 = 1) (i.f 27 23)
  let a := q.getV (i.f 44 40)
  let sc : Lane := BitVec.ofNat 32 (x.getS (i.f 34 30)).toNat
  let xs := chunksOf n 256 (laneIds.map (fun j => (a.lane j, act.getD j false)))
  let ms := chunksOf n 256 (q.getV (i.f 39 35))
  let ls := chunksOf n 256 (q.getV (i.f 39 35 + 1))
  (upTo (256 / n)).map (fun j =>
    osmxSeg k (xs.getD j []) (segState false (ms.getD j [])) (segState true (ls.getD j [])) sc)

section
variable {i : IWord} (x : QEntry) (q : Sq) (hhi : i.f 11 8 ≤ 8)
include hhi

/-- A segment lies in the register. -/
theorem segment_in {j : Nat} (hj : j < 256 / 2 ^ i.f 11 8) : 2 ^ i.f 11 8 * j + 2 ^ i.f 11 8 ≤ 256 := calc
  2 ^ i.f 11 8 * j + 2 ^ i.f 11 8 = 2 ^ i.f 11 8 * (j + 1) := (Nat.mul_succ _ j).symm
  _ ≤ 2 ^ i.f 11 8 * (256 / 2 ^ i.f 11 8) := Nat.mul_le_mul_left _ hj
  _ = 256 := (segSize hhi).2.1

/-- The piece of a register that a segment is. -/
theorem getD_chunks {α : Type} {l : List α} (hlen : l.length = 256) {j : Nat} (hj : j < 256 / 2 ^ i.f 11 8) :
    (chunksOf (2 ^ i.f 11 8) 256 l).getD j [] = (l.drop (2 ^ i.f 11 8 * j)).take (2 ^ i.f 11 8) := by
  obtain ⟨hpos, hmul, hle⟩ := segSize hhi
  rw [chunksOf_eq hpos (256 / 2 ^ i.f 11 8) 256 l hle (hlen.trans hmul.symm), List.getD_eq_getElem?_getD]
  simp [hj]

/-- The segment of the lanes with their activity. -/
theorem getD_segments {j : Nat} (hj : j < 256 / 2 ^ i.f 11 8) :
    open Classical in
    (chunksOf (2 ^ i.f 11 8) 256 (laneIds.map (fun k => ((q.getV (i.f 44 40)).lane k,
      (q.active (i.f 28 28 = 1) (i.f 27 23)).getD k false)))).getD j [] =
    (List.range (2 ^ i.f 11 8)).map (fun m => ((q.getV (i.f 44 40)).getD (2 ^ i.f 11 8 * j + m) 0,
      decide (LaneOn q (i.f 28 28) (i.f 27 23) (2 ^ i.f 11 8 * j + m)))) :=
  (getD_chunks hhi (by rw [List.length_map, length_laneIds]) hj).trans (segment_eq q i _ (segment_in hhi hj))

/-- Each segment has a probability for each of its lanes. -/
theorem length_osmxOuts : ∀ o ∈ osmxOuts i x q, o.p.length = 2 ^ i.f 11 8 := by
  intro o ho
  obtain ⟨j, hj, rfl⟩ := List.mem_map.1 ho
  rw [length_osmxSeg, getD_segments q hhi (List.mem_range.1 hj), List.length_map, List.length_range]

/-- What OSMX gives of a segment whose state lanes agree. -/
theorem osmxOuts_uniform {j : Nat} {m l : Lane} (hj : j < 256 / 2 ^ i.f 11 8)
    (hstate : ∀ k, k < 2 ^ i.f 11 8 → (q.getV (i.f 39 35)).getD (2 ^ i.f 11 8 * j + k) 0 = m ∧
      (q.getV (i.f 39 35 + 1)).getD (2 ^ i.f 11 8 * j + k) 0 = l)
    (hm : (q.getV (i.f 39 35)).length = 256) (hl : (q.getV (i.f 39 35 + 1)).length = 256) :
    open Classical in
    (osmxOuts i x q)[j]? = some (osmxSeg (i.f 11 8)
      ((List.range (2 ^ i.f 11 8)).map (fun m => ((q.getV (i.f 44 40)).getD (2 ^ i.f 11 8 * j + m) 0,
        decide (LaneOn q (i.f 28 28) (i.f 27 23) (2 ^ i.f 11 8 * j + m)))))
      m l ((x.getS (i.f 34 30)).setWidth 32)) := by
  obtain ⟨hpos, -⟩ := segSize hhi
  have hin := segment_in hhi hj
  unfold osmxOuts upTo
  dsimp only
  rw [List.getElem?_map, List.getElem?_range hj, Option.map_some, getD_segments q hhi hj, getD_chunks hhi hm hj, getD_chunks hhi hl hj,
    segState_uniform false hpos hin hm (fun k hk => (hstate k hk).1), segState_uniform true hpos hin hl (fun k hk => (hstate k hk).2),
    BitVec.ofNat_toNat]

end

/-- A value that every lane of a segment receives. -/
theorem getD_flatMap_replicate {os : List OsmxOut} (f : OsmxOut → Lane) {n j k : Nat} {o : OsmxOut} (h : os[j]? = some o) (hk : k < n) :
    (os.flatMap (fun o => List.replicate n (f o))).getD (n * j + k) 0 = f o := by
  rw [getD_flatMap (fun o => List.replicate n (f o)) 0 hk os j o h (fun _ _ => List.length_replicate), List.getD_eq_getElem?_getD,
    List.getElem?_replicate_of_lt hk]
  rfl

/-- The four registers that OSMX writes. -/
def osmxWrite (d : Dev) (c vd n : Nat) (os : List OsmxOut) : Dev :=
  (((d.veWrite c vd (os.flatMap OsmxOut.p) ((os.map OsmxOut.flags).foldl (· ||| ·) 0)).veWrite c (vd + 1)
    (os.flatMap (fun o => List.replicate n o.m)) 0).veWrite c (vd + 2) (os.flatMap (fun o => List.replicate n o.l)) 0).veWrite c
    (vd + 3) (os.flatMap (fun o => List.replicate n o.alpha)) 0

/-- Their contents. -/
theorem getV_osmxWrite (d : Dev) (c vd n : Nat) (os : List OsmxOut) :
    let q := ((osmxWrite d c vd n os).core c).sq
    q.getV vd = os.flatMap OsmxOut.p ∧ q.getV (vd + 1) = os.flatMap (fun o => List.replicate n o.m) ∧
    q.getV (vd + 2) = os.flatMap (fun o => List.replicate n o.l) ∧
    q.getV (vd + 3) = os.flatMap (fun o => List.replicate n o.alpha) := by
  unfold osmxWrite
  simp [getV_veWrite]

/-- Settles O21: the four registers, segment by segment. -/
theorem onlineSoftmax : Obligations.OnlineSoftmax := by
  unfold Obligations.OnlineSoftmax
  intro c i x rest s hruns hat hsolve hlo hhi q on n vd seg
  have heff : s.dev.silent.veOsmx c.val i .begin = osmxWrite (veTaken s.dev.silent c.val 0x3D) c.val vd n (osmxOuts i x q) :=
    veInstr_begin (fun x q d => osmxWrite d c.val (i.f 49 45) (2 ^ i.f 11 8) (osmxOuts i x q)) hat hsolve (if_pos ⟨hlo, hhi⟩)
  have hdue : (osmxWrite (veTaken s.dev.silent c.val 0x3D) c.val vd n (osmxOuts i x q)).pruneDue = s.dev.pruneDue :=
    ((((pruneDue_veWrite _ _ _ _ _).trans (pruneDue_veWrite _ _ _ _ _)).trans (pruneDue_veWrite _ _ _ _ _)).trans
      (pruneDue_veWrite _ _ _ _ _)).trans rfl
  refine completes_core_as (f := fun d => d.veOsmx c.val i .begin) hruns (exec_osmx c i .begin s) heff hdue ?_
  have hacts : VeActs s c.val rest (osmxWrite (veTaken s.dev.silent c.val 0x3D) c.val vd n (osmxOuts i x q)) :=
    veActs_veWrite (veActs_veWrite (veActs_veWrite (veActs_veWrite (veActs_taken hat) _ _ _) _ _ _) _ _ _) _ _ _
  have hregs := getV_osmxWrite (veTaken s.dev.silent c.val 0x3D) c.val vd n (osmxOuts i x q)
  generalize osmxWrite (veTaken s.dev.silent c.val 0x3D) c.val vd n (osmxOuts i x q) = d at hacts hregs ⊢
  obtain ⟨hframe, hmem, hqueue⟩ := hacts
  obtain ⟨h0, h1, h2, h3⟩ := hregs
  refine ⟨hframe, hmem, hqueue, ?_⟩
  intro j m l hj hstate hm hl o k hk
  have hout : (osmxOuts i x q)[j]? = some o := osmxOuts_uniform x q hhi hj hstate hm hl
  refine ⟨?_, ?_, ?_, ?_⟩
  · refine (congrArg (fun v => List.getD v (n * j + k) 0) h0).trans ?_
    exact getD_flatMap OsmxOut.p 0 hk _ j o hout (length_osmxOuts x q hhi)
  · exact (congrArg (fun v => List.getD v (n * j + k) 0) h1).trans (getD_flatMap_replicate OsmxOut.m hout hk)
  · exact (congrArg (fun v => List.getD v (n * j + k) 0) h2).trans (getD_flatMap_replicate OsmxOut.l hout hk)
  · exact (congrArg (fun v => List.getD v (n * j + k) 0) h3).trans (getD_flatMap_replicate OsmxOut.alpha hout hk)

end Sys2Proof.Machine
end

section
/-! SUPPORT. Clean SRAM under the engines' reads and writes and under the counters, and the proof of the statement about SOLVE
(R164 to R168, R270). -/
namespace Sys2Proof.Machine

open Safety

/-! ## Counters beside clean SRAM -/

/-- The register that arms an injection into memory u (R310, R314). -/
def injectReg (u : Nat) : Reg := sramReg u .spdEccInject .grvEccInject

/-- The registers of a core or of a grove memory stand 64 KiB apart, so that the low 16 bits of an address tell their kind. -/
theorem injectReg_addr (u : Nat) : (injectReg u).addr % 0x10000 = 0x420 ∨ (injectReg u).addr % 0x10000 = 0x48 := by
  unfold injectReg sramReg
  split <;> simp [Reg.addr, RK.row]

/-- A device that differs from d in registers alone, and not in the registers that arm an injection. -/
def Counts (d d' : Dev) : Prop := (∃ rs, d' = { d with regs := rs }) ∧ ∀ u, d'.reg (injectReg u) = d.reg (injectReg u)

theorem Counts.refl (d : Dev) : Counts d d := ⟨⟨d.regs, rfl⟩, fun _ => rfl⟩

theorem Counts.trans {d d' d'' : Dev} (h : Counts d d') (h' : Counts d' d'') : Counts d d'' := by
  obtain ⟨⟨rs, rfl⟩, hkept⟩ := h
  obtain ⟨⟨rs', rfl⟩, hkept'⟩ := h'
  exact ⟨⟨rs', rfl⟩, fun u => (hkept' u).trans (hkept u)⟩

theorem counts_setReg (d : Dev) (r : Reg) (v : Word) (h : r.addr % 0x10000 ≠ 0x420 ∧ r.addr % 0x10000 ≠ 0x48) :
    Counts d (d.setReg r v) := by
  refine ⟨⟨_, rfl⟩, fun u => Dev.setReg_ne _ _ _ _ fun heq => ?_⟩
  rw [heq] at h
  exact (injectReg_addr u).elim h.1 h.2

theorem Counts.frame {d d' : Dev} (h : Counts d d') : d'.mem = d.mem ∧ d'.srams = d.srams ∧ d'.pwr = d.pwr ∧ d'.cores = d.cores ∧
    d'.sems = d.sems ∧ d'.parts = d.parts ∧ d'.gens = d.gens ∧ d'.pruneDue = d.pruneDue := by
  obtain ⟨⟨rs, rfl⟩, -⟩ := h
  exact ⟨rfl, rfl, rfl, rfl, rfl, rfl, rfl, rfl⟩

theorem bit_setBitTo (i : Nat) (b : Bool) (x : Word) (hi : i < 64) : bit i (setBitTo i b x) = b := by
  unfold bit setBitTo
  rw [setFld_getLsbD]
  cases b <;> simp [hi]

/-- A word that is clean is so beside every difference that leaves memory, banks, power and the armed injections. -/
theorem cleanWord_inject {d d' : Dev} (hmem : d'.mem = d.mem) (hsrams : d'.srams = d.srams) (hpwr : d'.pwr = d.pwr)
    (hkept : ∀ u, d'.reg (injectReg u) = d.reg (injectReg u)) {w : Nat} (hw : CleanWord d w) : CleanWord d' w := by
  obtain ⟨hon, hp, he, hinject⟩ := hw
  have hcount : ∀ u, d'.bankCount u = d.bankCount u := fun u => by unfold Dev.bankCount; rw [hmem]
  have hat : ∀ a, d'.sramAt a = d.sramAt a := fun a => by unfold Dev.sramAt; simp only [hcount]
  have hrow : ∀ u o, d'.bankRow u o = d.bankRow u o := fun u o => by unfold Dev.bankRow; simp only [hcount]
  refine ⟨?_, by rw [hmem]; exact hp, by rw [hmem]; exact he, ?_⟩
  · rw [← hon]
    unfold Dev.bankOn Dev.bankState Dev.sram Dev.ptile
    simp only [hat, hrow, hsrams, hpwr]
  · unfold Dev.injectMask at hinject ⊢
    simp only [hat, hrow]
    cases hsram : d.sramAt (8 * w) with
    | none => rfl
    | some x =>
      obtain ⟨u, o⟩ := x
      rw [hsram] at hinject
      have hreg : d'.reg (sramReg u .spdEccInject .grvEccInject) = d.reg (sramReg u .spdEccInject .grvEccInject) := hkept u
      dsimp only at hinject ⊢
      simp only [hreg]
      by_cases harmed : bit 0 (d.reg (sramReg u .spdEccInject .grvEccInject)) = true
      · have hset : d.setReg (sramReg u .spdEccInject .grvEccInject) (setBitTo 0 false
            (d.reg (sramReg u .spdEccInject .grvEccInject))) ≠ d := fun h => by
          have hread := congrArg (fun x => bit 0 (Dev.reg x (sramReg u .spdEccInject .grvEccInject))) h
          simp only [Dev.setReg_self, harmed, bit_setBitTo 0 false _ (by decide), Bool.false_eq_true] at hread
        split_ifs at hinject ⊢
        · exact (hset (Prod.mk.inj hinject).2).elim
        · rfl
        · exact (hset (Prod.mk.inj hinject).2).elim
        · rfl
      · simp [harmed]

theorem clean_counts {d d' : Dev} (h : Counts d d') {a n : Nat} (hc : Clean d a n) : Clean d' a n := by
  obtain ⟨hmem, hsrams, hpwr, -⟩ := h.frame
  exact fun w hlo hhi => cleanWord_inject hmem hsrams hpwr h.2 (hc w hlo hhi)

/-! ## Reads and writes of several ranges -/

section
variable {d : Dev}

/-- A clean range is read as it stands. -/
theorem engRead_clean {a n : Nat} (h : Clean d a n) : d.engRead a n = (.ok (d.mem.getAll a n), d) := by
  unfold Dev.engRead
  rw [sramRead_clean h]
  dsimp only
  rw [anyPoison_clean, plain_clean]
  rfl

/-- Clean ranges are read as they stand. -/
theorem engReads_clean {rs : List (Nat × Nat)} (h : ∀ x ∈ rs, Clean d x.1 x.2) :
    d.engReads rs = (.ok (rs.map (fun x => d.mem.getAll x.1 x.2)), d) := by
  induction rs with
  | nil => rfl
  | cons x rs ih =>
    simp only [List.forall_mem_cons] at h
    unfold Dev.engReads
    dsimp only
    rw [engRead_clean h.1]
    dsimp only
    rw [ih h.2]
    rfl

theorem get_putAll_congr {m m' : Mem} (h : ∀ b, m.get b = m'.get b) (a : Nat) (bs : List Byte) (b : Nat) :
    (m.putAll a bs).get b = (m'.putAll a bs).get b := by
  by_cases hb : b < a ∨ a + bs.length ≤ b
  · rw [Mem.get_putAll_out _ _ _ _ hb, Mem.get_putAll_out _ _ _ _ hb, h]
  · have hk : b - a < bs.length := by omega
    have hin := Mem.get_putAll_in m a bs (b - a) hk
    have hin' := Mem.get_putAll_in m' a bs (b - a) hk
    rw [show a + (b - a) = b by omega] at hin hin'
    exact hin.trans hin'.symm

theorem get_foldl_putAll_congr (ws : List (Nat × List Byte)) : ∀ {m m' : Mem}, (∀ b, m.get b = m'.get b) → ∀ b,
    (ws.foldl (fun (m : Mem) x => m.putAll x.1 x.2) m).get b = (ws.foldl (fun (m : Mem) x => m.putAll x.1 x.2) m').get b := by
  induction ws with
  | nil => exact fun h b => h b
  | cons x ws ih => exact fun h b => ih (get_putAll_congr h x.1 x.2) b

/-- Clean ranges are written in turn. -/
theorem engWrites_clean (ws : List (Nat × List Byte)) : ∀ (d : Dev), (∀ x ∈ ws, Clean d x.1 x.2.length) →
    ∃ m, d.engWrites ws = (none, { d with mem := m }) ∧
      (∀ b, m.get b = (ws.foldl (fun (m : Mem) x => m.putAll x.1 x.2) d.mem).get b) ∧ NoWorse d.mem m := by
  induction ws with
  | nil => exact fun d _ => ⟨d.mem, rfl, fun _ => rfl, NoWorse.refl _⟩
  | cons x ws ih =>
    intro d h
    simp only [List.forall_mem_cons] at h
    obtain ⟨m, hwrite, hget, hno⟩ := sramWrite_clean h.1
    obtain ⟨m', hwrites, hget', hno'⟩ := ih { d with mem := m } fun y hy => clean_mem hno (h.2 y hy)
    refine ⟨m', ?_, fun b => ?_, hno.trans hno'⟩
    · unfold Dev.engWrites
      dsimp only
      rw [hwrite]
      exact hwrites
    · rw [hget', List.foldl_cons]
      exact get_foldl_putAll_congr ws hget b

end

/-! ## SOLVE (R164 to R168, R270) -/

/-- The registers of the vector engine are none that arm an injection. -/
theorem veReg_addr (c : Nat) : ((⟨.vePerfBusy, [c]⟩ : Reg).addr % 0x10000 ≠ 0x420 ∧ (⟨.vePerfBusy, [c]⟩ : Reg).addr % 0x10000 ≠ 0x48) ∧
    (⟨.veSolveStatus, [c]⟩ : Reg).addr % 0x10000 ≠ 0x420 ∧ (⟨.veSolveStatus, [c]⟩ : Reg).addr % 0x10000 ≠ 0x48 := by
  simp [Reg.addr, RK.row]

theorem counts_clkCount_ve (d : Dev) (c k : Nat) : Counts d (d.clkCount ⟨.vePerfBusy, [c]⟩ k) :=
  counts_setReg _ _ _ (veReg_addr c).1

/-- What SOLVE counts of a system. -/
def solveCounted (d : Dev) (c : Nat) (o : SolveOut) : Dev :=
  let k : Reg := ⟨.veSolveStatus, [c]⟩
  let d2 := d.count k 31 0 1
  let d3 := if o.singular then d2.count k 47 32 1 else d2
  if o.pert then d3.count k 63 48 1 else d3

theorem counts_solveCounted (d : Dev) (c : Nat) (o : SolveOut) : Counts d (solveCounted d c o) := by
  have hcount : ∀ d hi lo, Counts d (Dev.count d ⟨.veSolveStatus, [c]⟩ hi lo 1) := fun d hi lo => counts_setReg _ _ _ (veReg_addr c).2
  unfold solveCounted
  dsimp only
  split_ifs
  · exact ((hcount _ _ _).trans (hcount _ _ _)).trans (hcount _ _ _)
  · exact (hcount _ _ _).trans (hcount _ _ _)
  · exact (hcount _ _ _).trans (hcount _ _ _)
  · exact hcount _ _ _

/-- The writes of a solved system. -/
def solveWrites (r : SolveRun) (o : SolveOut) : List (Nat × List Byte) :=
  (match o.x with
    | some m => [(r.xBase + r.next * r.xPitch, matBytes r.n r.r m)]
    | none => []) ++ [(r.sBase + 4 * r.next, bytesOf 4 o.status)]

/-- The vector engine after a system. -/
def solveStep (r : SolveRun) (o : SolveOut) (v : Ve) : Ve :=
  let fl := r.flags ||| o.fl
  let last := decide (r.count ≤ r.next + 1)
  { v with
    solve := if last then none else some { r with next := r.next + 1, flags := fl }
    flags := v.flags ||| o.fl, since := if last then v.since ||| fl else v.since }

/-- A system whose bytes are clean is read, solved and stored. -/
theorem solveNext_clean {d : Dev} {c : Nat} {r : SolveRun} {o : SolveOut}
    (hreads : ∀ x ∈ [(r.aBase + r.next * r.aPitch, 4 * r.n * r.n), (r.bBase + r.next * r.bPitch, 4 * r.n * r.r)], Clean d x.1 x.2)
    (ho : o = solveOne r.n r.r r.mode r.tau (matOfBytes r.n r.n (d.mem.getAll (r.aBase + r.next * r.aPitch) (4 * r.n * r.n)))
      (matOfBytes r.n r.r (d.mem.getAll (r.bBase + r.next * r.bPitch) (4 * r.n * r.r))))
    (hwrites : ∀ x ∈ solveWrites r o, Clean d x.1 x.2.length) :
    ∃ rs m, d.solveNext c r = solveCounted (Dev.onVe { d with regs := rs, mem := m } c (solveStep r o)) c o ∧
      ∀ b, m.get b = ((solveWrites r o).foldl (fun (m : Mem) x => m.putAll x.1 x.2) d.mem).get b := by
  have hcount := counts_clkCount_ve d c (solveClk r r.next)
  obtain ⟨rs, hrs⟩ := hcount.1
  have hmem : (d.clkCount ⟨.vePerfBusy, [c]⟩ (solveClk r r.next)).mem = d.mem := hcount.frame.1
  have hread := engReads_clean fun x hx => clean_counts hcount (hreads x hx)
  obtain ⟨m, hwrite, hget, -⟩ := engWrites_clean (solveWrites r o) (d.clkCount ⟨.vePerfBusy, [c]⟩ (solveClk r r.next))
    fun x hx => clean_counts hcount (hwrites x hx)
  refine ⟨rs, m, ?_, fun b => by rw [hget, hmem]⟩
  unfold Dev.solveNext
  dsimp only
  rw [hread]
  simp only [List.map_cons, List.map_nil, List.getD_cons_zero, List.getD_cons_succ]
  rw [hmem, ← ho]
  unfold solveWrites at hwrite
  cases hx : o.x with
  | none =>
    simp only [hx] at hwrite ⊢
    rw [hwrite, hrs]
    rfl
  | some x =>
    simp only [hx] at hwrite ⊢
    rw [hwrite, hrs]
    rfl

/-- What a system's writes leave in memory, where its X and its status word stand apart. -/
theorem solveWrites_mem (r : SolveRun) (o : SolveOut) (mem : Mem)
    (hapart : r.xBase + r.next * r.xPitch + 4 * r.n * r.r ≤ r.sBase + 4 * r.next ∨ r.sBase + 4 * r.next + 4 ≤ r.xBase + r.next * r.xPitch) :
    let m := (solveWrites r o).foldl (fun (m : Mem) x => m.putAll x.1 x.2) mem
    m.getAll (r.sBase + 4 * r.next) 4 = bytesOf 4 o.status ∧
    (∀ x, o.x = some x → m.getAll (r.xBase + r.next * r.xPitch) (4 * r.n * r.r) = matBytes r.n r.r x) ∧
    ∀ y, (y < r.sBase + 4 * r.next ∨ r.sBase + 4 * r.next + 4 ≤ y) →
      (y < r.xBase + r.next * r.xPitch ∨ r.xBase + r.next * r.xPitch + 4 * r.n * r.r ≤ y) → m.get y = mem.get y := by
  have hstat : (bytesOf 4 o.status).length = 4 := length_bytesOf _ _
  have hsingle := getAll_putAll mem (r.sBase + 4 * r.next) (bytesOf 4 o.status)
  unfold solveWrites
  cases hx : o.x with
  | none =>
    dsimp only
    rw [List.nil_append, List.foldl_cons, List.foldl_nil]
    refine ⟨by rw [hstat] at hsingle; exact hsingle, by simp, fun y hy _ => ?_⟩
    exact Mem.get_putAll_out _ _ _ _ (by rw [hstat]; exact hy)
  | some x =>
    have hlen : (matBytes r.n r.r x).length = 4 * r.n * r.r := length_bytesOf _ _
    dsimp only
    rw [List.singleton_append, List.foldl_cons, List.foldl_cons, List.foldl_nil]
    refine ⟨?_, fun x' hx' => ?_, fun y hy hy' => ?_⟩
    · have h := getAll_putAll (mem.putAll (r.xBase + r.next * r.xPitch) (matBytes r.n r.r x)) (r.sBase + 4 * r.next)
        (bytesOf 4 o.status)
      rwa [hstat] at h
    · obtain rfl := Option.some.inj hx'
      have h := getAll_putAll mem (r.xBase + r.next * r.xPitch) (matBytes r.n r.r x)
      rw [hlen] at h
      refine Eq.trans ?_ h
      refine List.ext_getElem (by simp) fun k h1 _ => ?_
      rw [length_getAll] at h1
      rw [getElem_getAll, getElem_getAll, Mem.get_putAll_out _ _ _ _ (by rw [hstat]; omega)]
    · rw [Mem.get_putAll_out _ _ _ _ (by rw [hstat]; exact hy), Mem.get_putAll_out _ _ _ _ (by rw [hlen]; exact hy')]

section
variable {s : State} {c : Nat}

/-- A change of the vector engine that leaves its queue. -/
theorem veActs_onVe {rest : List QEntry} {d : Dev} (h : VeActs s c rest d) {f : Ve → Ve} (hf : ∀ v, (f v).eng = v.eng) :
    VeActs s c rest (d.onVe c f) := by
  obtain ⟨⟨hsems, hparts, hgens, hother, hfiles⟩, hmem, hqueue⟩ := h
  have hself := (Dev.onVe_get d c c f).trans (if_pos rfl)
  refine ⟨⟨hsems, hparts, hgens, fun j hj => ?_, ?_⟩, hmem, ?_⟩
  · exact ((Dev.onVe_get d c j f).trans (if_neg (Ne.symm hj))).trans (hother j hj)
  · rw [hself]
    exact hfiles
  · rw [hself]
    exact (congrArg Eng.queue (hf _)).trans hqueue

end

/-- Settles O23: SOLVE begins, and each of its systems is stored. -/
theorem solves : Obligations.Solves := by
  unfold Obligations.Solves
  intro c i s hruns
  refine ⟨fun x rest hat hsolve hcheck => ?_, ?_⟩
  · have heff : s.dev.silent.veSolve c.val i .begin = (veTaken s.dev.silent c.val 0x58).onVe c.val (fun v => { v with
        solve := some (solveRunOf x i ((veTaken s.dev.silent c.val 0x58).solveTau c.val) (s.dev.core c.val).ve.eng.nextSeq) }) :=
      veInstr_begin (legal := legalVs i) (fun x _ d' => d'.onVe c.val (fun v => { v with
        solve := some (solveRunOf x i (d'.solveTau c.val) (s.dev.core c.val).ve.eng.nextSeq) })) hat hsolve hcheck
    refine completes_core_as (f := fun d => d.veSolve c.val i .begin) hruns (exec_solve c i .begin s) heff rfl ?_
    obtain ⟨hframe, hmem, hqueue⟩ := veActs_onVe (veActs_taken (op := 0x58) hat) (f := fun v => { v with
        solve := some (solveRunOf x i ((veTaken s.dev.silent c.val 0x58).solveTau c.val) (s.dev.core c.val).ve.eng.nextSeq) })
      (fun _ => rfl)
    have hself := (Dev.onVe_get (veTaken s.dev.silent c.val 0x58) c.val c.val (fun v => { v with
      solve := some (solveRunOf x i ((veTaken s.dev.silent c.val 0x58).solveTau c.val) (s.dev.core c.val).ve.eng.nextSeq) })).trans
      (if_pos rfl)
    exact ⟨⟨_, congrArg (fun y => y.ve.solve) hself⟩, hqueue, hmem, hframe⟩
  · intro r hr hword a b xa sa m o hA hB hX hS hapart
    have hlenS : (bytesOf 4 o.status).length = 4 := length_bytesOf _ _
    have hlenX : ∀ x, (matBytes r.n r.r x).length = m := fun x => length_bytesOf _ _
    obtain ⟨rs, mem, hstep, hget⟩ := solveNext_clean (d := s.dev.silent) (c := c.val) (r := r) (o := o)
      (by simp only [List.forall_mem_cons]; exact ⟨clean_silent hA, clean_silent hB, by simp⟩) rfl
      (by
        unfold solveWrites
        simp only [List.forall_mem_append, List.forall_mem_cons, hlenS]
        refine ⟨?_, clean_silent hS, by simp⟩
        cases o.x with
        | none => simp
        | some x =>
          simp only [List.forall_mem_cons, hlenX]
          exact ⟨clean_silent hX, by simp⟩)
    have heff : s.dev.silent.veSolve c.val i .row =
        solveCounted (Dev.onVe { s.dev.silent with regs := rs, mem := mem } c.val (solveStep r o)) c.val o := by
      have hr' : (s.dev.silent.core c.val).ve.solve = some r := hr
      unfold Dev.veSolve
      dsimp only
      rw [hr']
      exact (if_pos hword).trans hstep
    obtain ⟨hmem, -, -, hcores, hsems, hparts, hgens, hdue⟩ :=
      (counts_solveCounted (Dev.onVe { s.dev.silent with regs := rs, mem := mem } c.val (solveStep r o)) c.val o).frame
    refine completes_core_as (f := fun d => d.veSolve c.val i .row) hruns (exec_solve c i .row s) heff hdue ?_
    generalize solveCounted (Dev.onVe { s.dev.silent with regs := rs, mem := mem } c.val (solveStep r o)) c.val o = d at *
    have hcore : ∀ j, d.core j = _ := fun j => (Dev.core_congr hcores j).trans
      (Dev.onVe_get { s.dev.silent with regs := rs, mem := mem } c.val j (solveStep r o))
    have hself := (hcore c.val).trans (if_pos rfl)
    have hsq : (d.core c.val).sq = (s.dev.core c.val).sq := by
      rw [hself]
      rfl
    have hbytes : ∀ y, (d.withPins s.dev).mem.get y = _ := fun y => (congrArg (fun m : Mem => m.get y) hmem).trans (hget y)
    obtain ⟨hstat, hx, hkept⟩ := solveWrites_mem r o s.dev.mem hapart
    refine ⟨(getAll_congr hbytes sa 4).trans hstat, fun x h => (getAll_congr hbytes xa m).trans (hx x h),
      fun y hs hx => (hbytes y).trans (hkept y hs hx), fun hmore => ?_, fun hlast => ?_, hsq,
      engineFrame_of ⟨hsems, hparts, hgens⟩ (fun j hj => (hcore j).trans (if_neg (Ne.symm hj))) (s.dev.core c.val).sq.v hsq⟩
    · refine (congrArg (fun y => y.ve.solve) hself).trans ?_
      exact if_neg (by simp only [decide_eq_true_eq]; omega)
    · refine (congrArg (fun y => y.ve.solve) hself).trans ?_
      exact if_pos (by simpa using hlast)

end Sys2Proof.Machine
end

section
/-! SUPPORT. A state in which VLD does not give every active lane its bytes: its destination register is stored short. -/
namespace Sys2Proof.Machine

open Safety

/-- VLD of v[1] from the window a[1]. -/
def shortLoad : IWord := ⟨0, false, BitVec.ofNat 50 (2 ^ 45 + 2 ^ 41)⟩

/-- Its entry, with the first 1,024 bytes of core 0's scratchpad as the window. -/
def shortEntry : QEntry := ⟨shortLoad.word 2 0x48, [], [(1, BitVec.ofNat 128 (spdBase 0 + 2 ^ 67 + 1024 * 2 ^ 72))], [], false⟩

/-- Core 0 with the entry at the head of its vector queue and with no lane stored in v[1]; its scratchpad begins with the byte 1. -/
def shortRegister : State :=
  ⟨[], (((({ resetN := true, sec := { stage := 7 }, fuses := { vkeys := [some [], none, none, none] }
             pwr := [(0, { st := .run })], plls := (upTo 34).map (fun k => (k, { lock := true }))
             mem := ({} : Mem).put (spdBase 0) 1 } : Dev).setReg ⟨.clkEnCore, [0]⟩ 0x2A07).onSq 0 (fun q => { q with v := [(1, [])] })).onEng 0 2
    (fun g => { g with queue := [shortEntry] }))⟩

/-- The state meets the hypotheses of the clause about VLD. -/
theorem shortRegister_runs : CoreRuns shortRegister 0 ∧ AtHead shortRegister.dev 0 2 (shortLoad.word 2 0x48) shortEntry [] ∧
    (shortRegister.dev.core 0).ve.solve = none ∧ vmCheck 0 false shortLoad shortEntry (shortRegister.dev.core 0).sq = none ∧
    shortLoad.f 30 30 = 0 ∧ shortRegister.dev.mem.getAll (vmLane shortEntry shortLoad 0).toNat 4 = [1, 0, 0, 0] := by
  unfold CoreRuns Acts AtHead
  decide +kernel

theorem shortRegister_clean : ∀ k, k < 256 → Clean shortRegister.dev (vmLane shortEntry shortLoad k).toNat 4 := by
  unfold Clean CleanWord
  decide +kernel

/-- The register stays short, so that its lane 0 reads +0. -/
theorem shortRegister_load :
    (match exec (.vld 0 shortLoad .begin) shortRegister with
      | .next t => ((t.dev.core 0).sq.getV 1).getD 0 0
      | _ => 1) = 0 := by
  decide +kernel

/-- Refutes O22: in `shortRegister`, whose v[1] is stored with fewer than 256 lanes, VLD leaves lane 0 at +0 where memory holds 1. -/
theorem not_vectorMemory : ¬ Obligations.VectorMemory := by
  unfold Obligations.VectorMemory
  intro h
  obtain ⟨hruns, hat, hsolve, hcheck, hmk, hbytes⟩ := shortRegister_runs
  obtain ⟨hload, -⟩ := h
  obtain ⟨t, hexec, -, hlanes, -⟩ := (hload 0 shortLoad shortEntry [] shortRegister hruns hsolve).1 hat hcheck
    fun k hk _ => shortRegister_clean k hk
  have hlane := hlanes 0 (by decide)
  have hshort := shortRegister_load
  rw [hexec] at hshort
  have hon : LaneOn (shortRegister.dev.core 0).sq (shortLoad.f 30 30) (shortLoad.f 29 25) 0 := Or.inl hmk
  have hvd : shortLoad.f 49 45 = 1 := by decide
  have hone := hlane.trans (if_pos hon)
  rw [hbytes, hvd] at hone
  exact absurd (hone.symm.trans hshort) (by decide)

end Sys2Proof.Machine
end

section
/-! SUPPORT. One core that changes in a device, and the proofs of the statements about ME.LOAD, ME.CLEAR, ME.STREAM, ME.ADDW and
ME.DRAIN (R116 to R130, R256 to R260). -/
namespace Sys2Proof.Machine

open Safety

/-! ## One core of a device -/

/-- The device differs from the state's in core c, which is now x, and in memory, which is now m; its registers and the counts that
stand in them aside, nothing else that an engine's frame names differs. -/
def CoreIs (s : State) (c : Nat) (x : Core) (m : Mem) (d : Dev) : Prop :=
  (∀ j, d.core j = if c = j then x else s.dev.core j) ∧ d.mem = m ∧ d.sems = s.dev.sems ∧ d.parts = s.dev.parts ∧
  d.gens = s.dev.gens ∧ d.pruneDue = s.dev.pruneDue

section
variable {s : State} {c : Nat} {x : Core} {m : Mem} {d : Dev}

theorem coreIs_silent (s : State) (c : Nat) : CoreIs s c (s.dev.core c) s.dev.mem s.dev.silent := by
  refine ⟨fun j => ?_, rfl, rfl, rfl, rfl, rfl⟩
  split
  · next h => rw [← h]; rfl
  · rfl

theorem CoreIs.self (h : CoreIs s c x m d) : d.core c = x := (h.1 c).trans (if_pos rfl)

theorem coreIs_onCore (h : CoreIs s c x m d) (f : Core → Core) : CoreIs s c (f x) m (d.onCore c f) := by
  have hself := h.self
  obtain ⟨hcore, hrest⟩ := h
  refine ⟨fun j => ?_, hrest⟩
  rw [Dev.onCore_get, hself]
  split
  · rfl
  · next hj => rw [hcore, if_neg hj]

theorem coreIs_counts (h : CoreIs s c x m d) {d' : Dev} (hd : Counts d d') : CoreIs s c x m d' := by
  obtain ⟨hcore, hmem, hsems, hparts, hgens, hdue⟩ := h
  obtain ⟨hmem', -, -, hcores', hsems', hparts', hgens', hdue'⟩ := hd.frame
  exact ⟨fun j => (Dev.core_congr hcores' j).trans (hcore j), hmem'.trans hmem, hsems'.trans hsems, hparts'.trans hparts,
    hgens'.trans hgens, hdue'.trans hdue⟩

theorem coreIs_mem (h : CoreIs s c x m d) (m' : Mem) : CoreIs s c x m' { d with mem := m' } := by
  obtain ⟨hcore, -, hrest⟩ := h
  exact ⟨hcore, rfl, hrest⟩

theorem CoreIs.frame (h : CoreIs s c x m d) (hsq : x.sq = (s.dev.core c).sq) : EngineFrame s.dev d c := by
  have hself := h.self
  obtain ⟨hcore, -, hsems, hparts, hgens, -⟩ := h
  refine engineFrame_of ⟨hsems, hparts, hgens⟩ (fun j hj => (hcore j).trans (if_neg (Ne.symm hj))) (s.dev.core c).sq.v ?_
  rw [hself, hsq]

/-- A command of a core completes with the core and the memory that it leaves. -/
theorem completes_coreIs {cmd : Instr} {f : Dev → Dev} {P : Dev → Prop} (hruns : CoreRuns s c)
    (hexec : exec cmd s = run s (fun d => if d.tileOn (tileOf c) = true then (f d).settle else d))
    (h : CoreIs s c x m (f s.dev.silent)) (hP : ∀ d, CoreIs s c x m d → P d) : Completes cmd s P :=
  completes_core_as hruns hexec rfl h.2.2.2.2.2 (hP _ h)

end

/-! ## The matrix engine -/

section
variable {s : State} {c : Nat} {x : Core} {m : Mem} {d : Dev}

theorem coreIs_onMe (h : CoreIs s c x m d) (f : Me → Me) : CoreIs s c { x with me := f x.me } m (d.onMe c f) :=
  coreIs_onCore h (fun x => { x with me := f x.me })

/-- An instruction leaves the matrix engine's queue. -/
def Me.taken (m : Me) : Me := { m with eng := { m.eng with queue := m.eng.queue.drop 1, nextSeq := m.eng.nextSeq + 1 } }

theorem coreIs_meTake (h : CoreIs s c x m d) : CoreIs s c { x with me := x.me.taken } m (d.engTake c 1) :=
  coreIs_onCore h (fun x => x.setEng 1 { x.eng 1 with queue := (x.eng 1).queue.drop 1, nextSeq := (x.eng 1).nextSeq + 1 })

/-- The registers that the matrix engine counts in are none that arm an injection. -/
theorem counts_clkCount_me (d : Dev) (c k : Nat) {r : RK} (hr : r ∈ [RK.mePerfLoad, .mePerfRows, .mePerfBusy]) :
    Counts d (d.clkCount ⟨r, [c]⟩ k) := by
  refine counts_setReg _ _ _ ?_
  simp only [List.mem_cons, List.not_mem_nil, or_false] at hr
  rcases hr with rfl | rfl | rfl <;> simp [Reg.addr, RK.row]

end

/-- Rows after the VALID bits of a range are cleared. -/
theorem getD_dropRange {α : Type} (m : FMap α) (lo hi k : Nat) (a : α) :
    FMap.getD (FMap.dropRange m lo hi) k a = if lo ≤ k ∧ k < hi then a else FMap.getD m k a := by
  unfold FMap.dropRange
  induction m with
  | nil => simp
  | cons e m ih =>
    obtain ⟨j, v⟩ := e
    by_cases hj : j < lo ∨ hi ≤ j
    · rw [List.filter_cons_of_pos (by simpa using hj)]
      unfold FMap.getD
      by_cases hk : j = k
      · subst hk
        rw [if_pos rfl, if_neg (by omega), if_pos rfl]
      · rw [if_neg hk, ih, if_neg hk]
    · rw [List.filter_cons_of_neg (by simpa using hj), ih]
      have hne : lo ≤ k ∧ k < hi ∨ j ≠ k := by omega
      rcases hne with hk | hk
      · rw [if_pos hk, if_pos hk]
      · conv_rhs => rw [FMap.getD, if_neg hk]

section
variable {s : State} {c : Nat} {i : IWord} {x : QEntry} {rest : List QEntry}

/-- ME.LOAD of clean bytes. -/
theorem meLoad_begin {f : Fmt} (hat : AtHead s.dev c 1 (i.word 1 0x01) x rest) (htest : s.dev.colTesting c = false)
    (hrun : (s.dev.core c).me.run = none) (hfmt : Fmt.ofCode (Desc.ofBits (x.getD' (i.f 49 46))).fmt = some f) :
    let u := Desc.ofBits (x.getD' (i.f 49 46))
    let tr := decide (i.f 45 45 = 1)
    let rs := loadRanges u f tr (i.f 44 42)
    loadCheck c u tr (i.f 44 42) = none → (s.dev.core c).me.sourceFree rs = true → (∀ r ∈ rs, Clean s.dev r.1 r.2) →
    CoreIs s c { s.dev.core c with me := { (s.dev.core c).me.taken with
      tile := some (tileOf' u f tr (i.f 44 42) (rs.map (fun r => s.dev.mem.getAll r.1 r.2))) } } s.dev.mem
      (s.dev.silent.meLoad c i .begin) := by
  intro u tr rs hcheck hfree hclean
  have hhead : s.dev.silent.engHead c 1 (i.word 1 0x01) = some x := engHead_atHead hat
  have htest' : s.dev.silent.colTesting c = false := htest
  have hrun' : (s.dev.silent.core c).me.run = none := hrun
  have hfree' : (s.dev.silent.core c).me.sourceFree rs = true := hfree
  have hcount := counts_clkCount_me (s.dev.silent.engTake c 1) c 64 (r := .mePerfLoad) (by simp)
  have htaken := coreIs_counts (coreIs_meTake (coreIs_silent s c)) hcount
  have hclean' : ∀ r ∈ rs, Clean (s.dev.silent.engTake c 1) r.1 r.2 := fun r hr =>
    clean_congr (d := s.dev) (d' := s.dev.silent.engTake c 1) rfl rfl rfl rfl (hclean r hr)
  have hread := engReads_clean fun r hr => clean_counts hcount (hclean' r hr)
  rw [htaken.2.1] at hread
  unfold Dev.meLoad
  dsimp only
  rw [hhead]
  dsimp only
  rw [hrun', htest', hcheck, hfmt]
  dsimp only
  rw [if_neg (by simp), if_pos hfree', hread]
  exact coreIs_onMe htaken _

/-- ME.CLEAR of rows that nothing is at work on. -/
theorem meClear_begin (hat : AtHead s.dev c 1 (i.word 1 0x05) x rest) (htest : s.dev.colTesting c = false)
    (hrun : (s.dev.core c).me.run = none) (hpos : 0 < i.f 32 20) (hle : i.f 44 33 + i.f 32 20 ≤ 4096)
    (hquiet : ∀ k, k < i.f 32 20 → (s.dev.core c).me.rowBusy (s.dev.core c).me.eng.nextSeq (i.f 44 33 + k) = false ∧
      (s.dev.core c).me.rowWanted (s.dev.core c).me.eng.nextSeq (i.f 44 33 + k) = false) :
    CoreIs s c { s.dev.core c with me := { (s.dev.core c).me.taken with
      acc := FMap.dropRange (s.dev.core c).me.acc (i.f 44 33) (i.f 44 33 + i.f 32 20) } } s.dev.mem
      (s.dev.silent.meClear c i .begin) := by
  have hhead : s.dev.silent.engHead c 1 (i.word 1 0x05) = some x := engHead_atHead hat
  have htest' : s.dev.silent.colTesting c = false := htest
  have hrun' : (s.dev.silent.core c).me.run = none := hrun
  have hrange : accRangeOk (i.f 44 33) (i.f 32 20) = true := by
    rw [accRangeOk, decide_eq_true (Nat.ne_of_gt hpos), decide_eq_true hle]
    rfl
  have hnone : ((upTo (i.f 32 20)).any fun k =>
      (s.dev.silent.core c).me.rowBusy (s.dev.silent.core c).me.eng.nextSeq (i.f 44 33 + k) ||
        (s.dev.silent.core c).me.rowWanted (s.dev.silent.core c).me.eng.nextSeq (i.f 44 33 + k)) = false := by
    rw [List.any_eq_false]
    intro k hk
    obtain ⟨h1, h2⟩ := hquiet k (List.mem_range.1 hk)
    have h1' : (s.dev.silent.core c).me.rowBusy (s.dev.silent.core c).me.eng.nextSeq (i.f 44 33 + k) = false := h1
    have h2' : (s.dev.silent.core c).me.rowWanted (s.dev.silent.core c).me.eng.nextSeq (i.f 44 33 + k) = false := h2
    rw [h1', h2']
    exact Bool.false_ne_true
  unfold Dev.meClear
  dsimp only
  rw [hhead]
  dsimp only
  rw [hrun', htest', hrange, hnone, if_neg (by simp), if_neg (by simp), if_neg (by simp)]
  exact coreIs_onMe (coreIs_meTake (coreIs_silent s c)) _

/-- ME.STREAM begins with row 0. -/
theorem meStream_begin {t : Tile} {f tf : Fmt} {e : Int} (hat : AtHead s.dev c 1 (i.word 1 0x02) x rest)
    (htest : s.dev.colTesting c = false) (hrun : (s.dev.core c).me.run = none) (htile : (s.dev.core c).me.tile = some t) :
    let u := Desc.ofBits (x.getD' (i.f 49 46))
    streamCheck c u t i = none → Fmt.ofCode u.fmt = some f → Fmt.ofCode t.fmt = some tf →
    streamExp f tf (i.f 9 9 = 1) (sext 10 (i.f 19 10)) = some e →
    (s.dev.core c).me.sourceFree ((upTo (i.f 32 20)).flatMap (streamRanges u f t (i.f 8 3))) = true →
    CoreIs s c { s.dev.core c with me := { (s.dev.core c).me.taken with run := some (
      { seq := (s.dev.core c).me.eng.nextSeq, word := i.word 1 0x02, addw := false, desc := u, clr := decide (i.f 45 45 = 1),
        accBase := i.f 44 33, rows := i.f 32 20, exp := e, mode := AccMode.ofFmt tf t.s, shift := passShift tf t.s (i.f 8 3),
        part := i.f 8 3, next := 0 } : ArrRun) } } s.dev.mem (s.dev.silent.meStream c i .begin) := by
  intro u hcheck hfmt htfmt hexp hfree
  have hhead : s.dev.silent.engHead c 1 (i.word 1 0x02) = some x := engHead_atHead hat
  have htest' : s.dev.silent.colTesting c = false := htest
  have hrun' : (s.dev.silent.core c).me.run = none := hrun
  have htile' : (s.dev.silent.core c).me.tile = some t := htile
  have hfree' : (s.dev.silent.core c).me.sourceFree ((upTo (i.f 32 20)).flatMap (streamRanges u f t (i.f 8 3))) = true := hfree
  unfold Dev.meStream
  dsimp only
  rw [hhead]
  dsimp only
  rw [hrun', htest', htile']
  dsimp only
  rw [hcheck, hfmt, htfmt]
  dsimp only
  rw [if_neg (by simp), if_pos hfree', hexp]
  exact coreIs_onMe (coreIs_meTake (coreIs_silent s c)) _

/-- The row that a stream lets into the array. -/
def ArrRun.enters (r : ArrRun) (f : Fmt) (t : Tile) (bs : List (List Byte)) : FlightRow :=
  { seq := r.seq, row := r.accBase + r.next, vals := streamVals r.desc f t bs, tile := t, clr := r.clr
    exp := r.exp, mode := r.mode, shift := r.shift, last := decide (r.rows ≤ r.next + 1) }

/-- A row of ME.STREAM enters the array. -/
theorem meStream_row {r : ArrRun} {t : Tile} {f : Fmt} (hrun : (s.dev.core c).me.run = some r) (htile : (s.dev.core c).me.tile = some t)
    (hword : r.word = i.word 1 0x02) (hadd : r.addw = false)
    (hwanted : (s.dev.core c).me.rowWanted r.seq (r.accBase + r.next) = false) (hfmt : Fmt.ofCode r.desc.fmt = some f) :
    let rs := streamRanges r.desc f t r.part r.next
    (∀ x ∈ rs, Clean s.dev x.1 x.2) →
    CoreIs s c { s.dev.core c with me := { (s.dev.core c).me with
      run := if decide (r.rows ≤ r.next + 1) then none else some { r with next := r.next + 1 },
      flight := (s.dev.core c).me.flight ++ [r.enters f t (rs.map (fun x => s.dev.mem.getAll x.1 x.2))] } } s.dev.mem
      (s.dev.silent.meStream c i .row) := by
  intro rs hclean
  have hrun' : (s.dev.silent.core c).me.run = some r := hrun
  have htile' : (s.dev.silent.core c).me.tile = some t := htile
  have hwanted' : (s.dev.silent.core c).me.rowWanted r.seq (r.accBase + r.next) = false := hwanted
  have hgo : r.word = i.word 1 0x02 ∧ ¬r.addw = true ∧
      ¬(s.dev.silent.core c).me.rowWanted r.seq (r.accBase + r.next) = true := ⟨hword, by simp [hadd], Bool.eq_false_iff.1 hwanted'⟩
  have hread : s.dev.silent.engReads rs = (.ok (rs.map (fun x => s.dev.mem.getAll x.1 x.2)), s.dev.silent) :=
    engReads_clean fun r hr => clean_silent (hclean r hr)
  unfold Dev.meStream
  dsimp only
  rw [hrun', htile']
  dsimp only
  rw [if_pos hgo, hfmt]
  dsimp only
  rw [hread]
  dsimp only
  have hrow := coreIs_counts (coreIs_onMe (coreIs_silent s c) (fun m => { m with
      run := if decide (r.rows ≤ r.next + 1) then none else some { r with next := r.next + 1 },
      flight := m.flight ++ [r.enters f t (rs.map (fun x => s.dev.mem.getAll x.1 x.2))] }))
    (counts_clkCount_me _ c 1 (r := .mePerfRows) (by simp))
  by_cases hclk : r.next % rowsPerClk f ((Fmt.ofCode t.fmt).getD f) = 0
  · rw [if_pos hclk]
    exact coreIs_counts hrow (counts_clkCount_me _ c 1 (r := .mePerfBusy) (by simp))
  · rw [if_neg hclk]
    exact hrow

end

/-- The queue behind an entry that was taken. -/
theorem drop_head {d : Dev} {c e : Nat} {w : Word} {x : QEntry} {rest : List QEntry} (hat : AtHead d c e w x rest) :
    ((d.core c).eng e).queue.drop 1 = rest := by
  rw [hat.1]
  rfl

/-- Settles O24: each instruction's effect on the one core. -/
theorem matrixWeights : Obligations.MatrixWeights := by
  unfold Obligations.MatrixWeights
  refine ⟨fun c i x rest s hruns htest hrun => ?_, fun c i s hruns => ?_⟩
  · intro m u tr
    refine ⟨?_, fun hat hpos hle hquiet => ?_⟩
    · intro f hat hcheck hfmt rs hfree hclean
      refine completes_coreIs hruns (exec_meLoad c i .begin s) (meLoad_begin hat htest hrun hfmt hcheck hfree hclean) fun d hd => ?_
      have hframe := hd.frame rfl
      have hself := hd.self
      rw [hself]
      exact ⟨rfl, drop_head hat, rfl, rfl, rfl, hd.2.1, hframe⟩
    · refine completes_coreIs hruns (exec_meClear c i .begin s) (meClear_begin hat htest hrun hpos hle hquiet) fun d hd => ?_
      have hframe := hd.frame rfl
      have hself := hd.self
      rw [hself]
      exact ⟨fun k => getD_dropRange _ _ _ _ _, drop_head hat, rfl, rfl, rfl, hd.2.1, hframe⟩
  · intro m
    refine ⟨?_, ?_⟩
    · intro x rest t f tf e hat htest hrun htile u hcheck hfmt htfmt hexp hfree
      refine completes_coreIs hruns (exec_meStream c i .begin s)
        (meStream_begin hat htest hrun htile hcheck hfmt htfmt hexp hfree) fun d hd => ?_
      have hframe := hd.frame rfl
      have hself := hd.self
      rw [hself]
      exact ⟨⟨_, rfl, rfl, rfl, rfl, rfl, rfl, rfl, rfl, rfl⟩, drop_head hat, rfl, rfl, hd.2.1, hframe⟩
    · intro r t f hrun htile hword hadd hwanted hfmt rs hclean
      refine completes_coreIs hruns (exec_meStream c i .row s)
        (meStream_row hrun htile hword hadd hwanted hfmt hclean) fun d hd => ?_
      have hframe := hd.frame rfl
      have hself := hd.self
      rw [hself]
      refine ⟨⟨_, rfl, rfl, rfl, rfl, rfl, rfl, rfl, rfl⟩, ?_, rfl, hd.2.1, hframe⟩
      dsimp only
      simp only [decide_eq_true_eq]

/-! ## Accumulation (R121 to R123, R127, R130) -/

section
variable {s : State} {c : Nat} {i : IWord} {x : QEntry} {rest : List QEntry}

/-- The matrix engine after the oldest row has updated its accumulators. -/
def Me.updated (m : Me) (f : FlightRow) (flight : List FlightRow) (r : AccRow × Flags) : Me :=
  let op := (if m.opSeq = f.seq then m.opFlags else 0) ||| r.2
  { m.setRow f.row r.1 with
    flight := flight, flags := m.flags ||| r.2, opSeq := f.seq, opFlags := op, since := if f.last then m.since ||| op else m.since }

/-- The oldest row updates its accumulators. -/
theorem meRowUpdate_none {f : FlightRow} {flight : List FlightRow} {tf : Fmt} (hflight : (s.dev.core c).me.flight = f :: flight)
    (hfmt : Fmt.ofCode f.tile.fmt = some tf) :
    CoreIs s c { s.dev.core c with me := Me.updated (s.dev.core c).me f flight <|
      (streamRow f.tile tf f.clr f.exp f.mode f.shift f.vals ((s.dev.core c).me.row f.row)) } s.dev.mem
      (s.dev.silent.meRowUpdate c none) := by
  have hflight' : (s.dev.silent.core c).me.flight = f :: flight := hflight
  unfold Dev.meRowUpdate
  dsimp only
  rw [hflight']
  dsimp only
  rw [hfmt]
  exact coreIs_onMe (coreIs_silent s c) _

/-- What an ME.ADDW that begins makes of the array. -/
def addwRun (i : IWord) (u : Desc) (f : Fmt) (seq : Nat) : ArrRun :=
  { seq := seq, word := i.word 1 0x04, addw := true, desc := u, clr := decide (i.f 45 45 = 1), accBase := i.f 44 33
    rows := i.f 32 20, exp := 0, mode := AccMode.ofFmt f u.s, shift := 0, part := 0, next := 0 }

/-- ME.ADDW begins at its source. -/
theorem meAddw_begin {f : Fmt} (hat : AtHead s.dev c 1 (i.word 1 0x04) x rest) (htest : s.dev.colTesting c = false)
    (hrun : (s.dev.core c).me.run = none) :
    let u := Desc.ofBits (x.getD' (i.f 49 46))
    addwCheck c u i = none → Fmt.ofCode u.fmt = some f →
    (s.dev.core c).me.sourceFree ((upTo (i.f 32 20)).map (fun k => (u.base + k * u.pitch, 1024))) = true →
    CoreIs s c { s.dev.core c with me := { (s.dev.core c).me.taken with run := some (addwRun i u f (s.dev.core c).me.eng.nextSeq) } }
      s.dev.mem (s.dev.silent.meAddw c i .begin) := by
  intro u hcheck hfmt hfree
  have hhead : s.dev.silent.engHead c 1 (i.word 1 0x04) = some x := engHead_atHead hat
  have htest' : s.dev.silent.colTesting c = false := htest
  have hrun' : (s.dev.silent.core c).me.run = none := hrun
  have hfree' : (s.dev.silent.core c).me.sourceFree ((upTo (i.f 32 20)).map (fun k => (u.base + k * u.pitch, 1024))) = true := hfree
  unfold Dev.meAddw
  dsimp only
  rw [hhead]
  dsimp only
  rw [hrun', htest', hcheck, hfmt]
  dsimp only
  rw [if_neg (by simp), if_pos hfree']
  exact coreIs_onMe (coreIs_meTake (coreIs_silent s c)) _

/-- The matrix engine after a record row was added. -/
def Me.added (m : Me) (r : ArrRun) (o : AccRow × Flags) : Me :=
  let fl := r.flags ||| o.2
  let last := decide (r.rows ≤ r.next + 1)
  { m.setRow (r.accBase + r.next) o.1 with
    run := if last then none else some { r with next := r.next + 1, flags := fl }
    flags := m.flags ||| o.2, since := if last then m.since ||| fl else m.since }

/-- A record row is added. -/
theorem meAddw_row {r : ArrRun} (hrun : (s.dev.core c).me.run = some r) (hword : r.word = i.word 1 0x04) (hadd : r.addw = true)
    (hwanted : (s.dev.core c).me.rowWanted r.seq (r.accBase + r.next) = false)
    (hflight : ∀ f ∈ (s.dev.core c).me.flight, f.row ≠ r.accBase + r.next)
    (hclean : Clean s.dev (r.desc.base + r.next * r.desc.pitch) 1024) :
    CoreIs s c { s.dev.core c with me := (s.dev.core c).me.added r (addwRow r.clr r.mode
      (natOfBytes (s.dev.mem.getAll (r.desc.base + r.next * r.desc.pitch) 1024)) ((s.dev.core c).me.row (r.accBase + r.next))) }
      s.dev.mem (s.dev.silent.meAddw c i .row) := by
  have hrun' : (s.dev.silent.core c).me.run = some r := hrun
  have hnone : (s.dev.core c).me.flight.any (fun f => decide (f.row = r.accBase + r.next)) = false := by
    rw [List.any_eq_false]
    exact fun f hf => by simpa using hflight f hf
  have hgo : r.word = i.word 1 0x04 ∧ r.addw = true ∧ ¬(s.dev.silent.core c).me.rowWanted r.seq (r.accBase + r.next) = true ∧
      ¬(s.dev.silent.core c).me.flight.any (fun f => decide (f.row = r.accBase + r.next)) = true :=
    ⟨hword, hadd, Bool.eq_false_iff.1 hwanted, Bool.eq_false_iff.1 hnone⟩
  have hread : s.dev.silent.engRead (r.desc.base + r.next * r.desc.pitch) 1024 = _ := engRead_clean (clean_silent hclean)
  unfold Dev.meAddw
  dsimp only
  rw [hrun']
  dsimp only
  rw [if_pos hgo, hread]
  exact coreIs_onMe (coreIs_silent s c) _

end

/-- A row of the accumulator file after one was replaced. -/
theorem row_setRow (m : Me) (k j : Nat) (r : AccRow) : (m.setRow k r).row j = if k = j then r else m.row j :=
  FMap.getD_set _ _ _ _ _

/-- Settles O25: the oldest row, ME.ADDW's beginning and its rows. -/
theorem matrixAccumulate : Obligations.MatrixAccumulate := by
  unfold Obligations.MatrixAccumulate
  intro c s hruns m
  refine ⟨?_, ?_, ?_⟩
  · intro f rest tf hflight hfmt r
    refine completes_coreIs hruns (exec_meStreamRowUpdate c none s) (meRowUpdate_none hflight hfmt) fun d hd => ?_
    have hframe := hd.frame rfl
    have hself := hd.self
    rw [hself]
    exact ⟨fun k => row_setRow m f.row k r.1, rfl, rfl, rfl, hd.2.1, hframe⟩
  · intro i x rest f hat htest hrun u hcheck hfmt hfree
    refine completes_coreIs hruns (exec_meAddw c i .begin s) (meAddw_begin hat htest hrun hcheck hfmt hfree) fun d hd => ?_
    have hframe := hd.frame rfl
    have hself := hd.self
    rw [hself]
    exact ⟨⟨_, rfl, rfl, rfl, rfl, rfl, rfl, rfl, rfl⟩, drop_head hat, rfl, hd.2.1, hframe⟩
  · intro i r hrun hword hadd hwanted hflight a hclean o
    refine completes_coreIs hruns (exec_meAddw c i .row s) (meAddw_row hrun hword hadd hwanted hflight hclean) fun d hd => ?_
    have hframe := hd.frame rfl
    have hself := hd.self
    rw [hself]
    refine ⟨fun k => row_setRow m (r.accBase + r.next) k o.1, ?_, rfl, hd.2.1, hframe⟩
    unfold Me.added
    dsimp only
    split <;> simp_all

/-! ## Drains (R125, R126, R258, R259) -/

section
variable {s : State} {c : Nat} {i : IWord} {x : QEntry} {rest : List QEntry}

/-- The drain that an ME.DRAIN begins. -/
def drainRunOf (i : IWord) (q : QEntry) (seq : Nat) : DrainRun :=
  { seq := seq, word := i.word 1 0x03, u := Desc.ofBits (q.getD' (i.f 49 46)), x := Desc.ofBits (q.getD' ((i.f 49 46) ^^^ 1))
    aow := decide (i.f 45 45 = 1), accBase := i.f 44 33, rows := i.f 32 20, outExp := sext 8 (i.f 19 12)
    rnd := (Rnd.ofCode (i.f 11 10)).getD .rne, nonsat := decide (i.f 9 9 = 1), wide := decide (i.f 8 8 = 1)
    key := q.getS (i.f 7 3), stream := q.getS (i.f 7 3 + 1), next := 0 }

/-- ME.DRAIN begins beside the array. -/
theorem meDrain_begin (hat : AtHead s.dev c 1 (i.word 1 0x03) x rest) (htest : s.dev.colTesting c = false)
    (hcheck : drainCheck c (s.dev.core c).me (Desc.ofBits (x.getD' (i.f 49 46))) (Desc.ofBits (x.getD' (i.f 49 46 ^^^ 1))) i = none) :
    CoreIs s c { s.dev.core c with me := { (s.dev.core c).me.taken with
      drains := (s.dev.core c).me.drains ++ [drainRunOf i x (s.dev.core c).me.eng.nextSeq] } } s.dev.mem
      (s.dev.silent.meDrain c i .begin) := by
  have hhead : s.dev.silent.engHead c 1 (i.word 1 0x03) = some x := engHead_atHead hat
  have htest' : s.dev.silent.colTesting c = false := htest
  have hcheck' : drainCheck c (s.dev.silent.core c).me (Desc.ofBits (x.getD' (i.f 49 46)))
    (Desc.ofBits (x.getD' (i.f 49 46 ^^^ 1))) i = none := hcheck
  unfold Dev.meDrain
  dsimp only
  rw [hhead]
  dsimp only
  rw [htest', hcheck', if_neg (by simp)]
  exact coreIs_onMe (coreIs_meTake (coreIs_silent s c)) _

/-- A row is read and rounded. -/
theorem meDrain_row {r : DrainRun} {drains : List DrainRun} (hdrains : (s.dev.core c).me.drains = r :: drains)
    (hword : r.word = i.word 1 0x03) (hbusy : (s.dev.core c).me.rowBusy r.seq (r.accBase + r.next) = false) :
    let m := (s.dev.core c).me
    let a := if (m.row (r.accBase + r.next)).valid = true then m.row (r.accBase + r.next) else AccRow.invalid
    (∀ x ∈ r.reads a, Clean s.dev x.1 x.2) →
    let o := r.rowOut a ((r.reads a).map (fun x => s.dev.mem.getAll x.1 x.2))
    CoreIs s c { s.dev.core c with me := { m with
      drains := if decide (r.rows ≤ r.next + 1) then drains else { r with next := r.next + 1, flags := r.flags ||| o.2 } :: drains,
      writes := m.writes ++ [⟨r.seq, o.1, o.2, if decide (r.rows ≤ r.next + 1) then some (r.flags ||| o.2) else none⟩] } }
      s.dev.mem (s.dev.silent.meDrain c i .row) := by
  intro m a hclean o
  have hdrains' : (s.dev.silent.core c).me.drains = r :: drains := hdrains
  have hgo : r.word = i.word 1 0x03 ∧ ¬(s.dev.silent.core c).me.rowBusy r.seq (r.accBase + r.next) = true :=
    ⟨hword, Bool.eq_false_iff.1 hbusy⟩
  have ha : (if ((s.dev.silent.core c).me.row (r.accBase + r.next)).valid = true then (s.dev.silent.core c).me.row (r.accBase + r.next)
    else AccRow.invalid) = a := rfl
  have hread : s.dev.silent.engReads (r.reads a) = _ := engReads_clean fun r hr => clean_silent (hclean r hr)
  unfold Dev.meDrain
  dsimp only
  rw [hdrains']
  dsimp only
  rw [if_pos hgo, ha, hread]
  exact coreIs_onMe (coreIs_silent s c) _

/-- The bytes of the oldest drained row land. -/
theorem meRowWrite_clean {w : DrainWrite} {writes : List DrainWrite} (hwrites : (s.dev.core c).me.writes = w :: writes)
    (hclean : ∀ x ∈ w.writes, Clean s.dev x.1 x.2.length) :
    ∃ m, CoreIs s c { s.dev.core c with me := { (s.dev.core c).me with
        writes := writes, flags := (s.dev.core c).me.flags ||| w.flags, since := (s.dev.core c).me.since ||| w.done.getD 0 } } m
        (s.dev.silent.meRowWrite c) ∧
      ∀ b, m.get b = (w.writes.foldl (fun (m : Mem) x => m.putAll x.1 x.2) s.dev.mem).get b := by
  have hwrites' : (s.dev.silent.core c).me.writes = w :: writes := hwrites
  have hme := coreIs_onMe (coreIs_silent s c) (fun m => { m with
    writes := writes, flags := m.flags ||| w.flags, since := m.since ||| w.done.getD 0 })
  obtain ⟨m, hwrite, hget, -⟩ := engWrites_clean w.writes (s.dev.silent.onMe c (fun m => { m with
    writes := writes, flags := m.flags ||| w.flags, since := m.since ||| w.done.getD 0 }))
    fun x hx => clean_congr (d := s.dev) (d' := s.dev.silent.onMe c _) rfl rfl rfl rfl (hclean x hx)
  refine ⟨m, ?_, fun b => by rw [hget, hme.2.1]⟩
  unfold Dev.meRowWrite
  rw [hwrites']
  dsimp only
  rw [hwrite]
  exact coreIs_mem hme m

end

/-- Bytes outside every write of a list. -/
theorem get_foldl_putAll_out (ws : List (Nat × List Byte)) {b : Nat} : ∀ (m : Mem),
    (∀ x ∈ ws, b < x.1 ∨ x.1 + x.2.length ≤ b) → (ws.foldl (fun (m : Mem) x => m.putAll x.1 x.2) m).get b = m.get b := by
  induction ws with
  | nil => exact fun _ _ => rfl
  | cons x ws ih =>
    intro m h
    simp only [List.forall_mem_cons] at h
    rw [List.foldl_cons, ih _ h.2, Mem.get_putAll_out _ _ _ _ h.1]

/-- The bytes of a write that no later one touches. -/
theorem getAll_foldl_putAll (pre post : List (Nat × List Byte)) (a : Nat) (bs : List Byte) (m : Mem)
    (h : ∀ x ∈ post, a + bs.length ≤ x.1 ∨ x.1 + x.2.length ≤ a) :
    ((pre ++ (a, bs) :: post).foldl (fun (m : Mem) x => m.putAll x.1 x.2) m).getAll a bs.length = bs := by
  rw [List.foldl_append, List.foldl_cons]
  refine Eq.trans ?_ (getAll_putAll (pre.foldl (fun (m : Mem) x => m.putAll x.1 x.2) m) a bs)
  refine List.ext_getElem (by simp) fun k h1 _ => ?_
  rw [length_getAll] at h1
  rw [getElem_getAll, getElem_getAll, get_foldl_putAll_out]
  intro x hx
  have := h x hx
  omega

/-- Settles O26: a drain's beginning, its rows, and its writes. -/
theorem matrixDrain : Obligations.MatrixDrain := by
  unfold Obligations.MatrixDrain
  intro c s hruns m
  refine ⟨?_, ?_, ?_⟩
  · intro i x rest hat htest u hcheck
    refine completes_coreIs hruns (exec_meDrain c i .begin s) (meDrain_begin hat htest hcheck) fun d hd => ?_
    have hframe := hd.frame rfl
    have hself := hd.self
    rw [hself]
    exact ⟨⟨_, rfl, rfl, rfl, rfl, rfl, rfl, rfl, rfl, rfl⟩, drop_head hat, rfl, rfl, hd.2.1, hframe⟩
  · intro i r rest hdrains hword hbusy a hclean o
    refine completes_coreIs hruns (exec_meDrain c i .row s) (meDrain_row hdrains hword hbusy hclean) fun d hd => ?_
    have hframe := hd.frame rfl
    have hself := hd.self
    rw [hself]
    refine ⟨⟨_, rfl, rfl, rfl, rfl⟩, ?_, rfl, hd.2.1, hframe⟩
    dsimp only
    simp only [decide_eq_true_eq]
    rfl
  · intro w rest hwrites hclean
    obtain ⟨mem, hcore, hget⟩ := meRowWrite_clean hwrites hclean
    refine completes_coreIs hruns (exec_meDrainRowWrite c s) hcore fun d hd => ?_
    have hframe := hd.frame rfl
    have hself := hd.self
    have hbytes : ∀ b, d.mem.get b = _ := fun b => (congrArg (fun m : Mem => m.get b) hd.2.1).trans (hget b)
    rw [hself]
    refine ⟨fun pre a bs post hsplit hapart => ?_, fun b hb => (hbytes b).trans (get_foldl_putAll_out w.writes _ hb), rfl, rfl, rfl, hframe⟩
    refine (getAll_congr hbytes a bs.length).trans ?_
    rw [hsplit]
    exact getAll_foldl_putAll pre post a bs s.dev.mem hapart

end Sys2Proof.Machine
end

section
/-! SUPPORT. A column test that finds the column failing which the spare column already replaces. -/
namespace Sys2Proof.Machine

open Safety

/-- Physical core 0 serves core 0 and is under test; its spare column stands for column 3 (bits 4 to 0, with bit 5). -/
def graftedColumn : State :=
  ⟨[], ({ resetN := true, sec := { stage := 7 }, fuses := { vkeys := [some [], none, none, none] }
          pwr := [(0, { st := .run })], plls := (upTo 34).map (fun k => (k, { lock := true })) } : Dev).setReg ⟨.meColumn, [0]⟩
    0x0000001F00001F63⟩

/-- The state meets the hypotheses of the clause about the end of a column test. -/
theorem graftedColumn_tests : Acts graftedColumn ∧ (graftedColumn.dev.columnOf 0).getLsbD 6 = true ∧
    fld 4 0 (graftedColumn.dev.columnOf 0) = 3 ∧ graftedColumn.dev.raised = [] := by
  unfold Acts
  decide +kernel

/-- That column's failure raises an event all the same. -/
theorem graftedColumn_raises :
    (match exec (.meColTestDone 0 (some 3)) graftedColumn with
      | .next t => t.dev.raised.isEmpty
      | _ => true) = false := by
  decide +kernel

/-- Refutes O27: when the test finds the very column that the spare column replaces, the model raises ME_COLUMN_FAIL, though no other
column fails. -/
theorem not_engineControls : ¬ Obligations.EngineControls := by
  unfold Obligations.EngineControls
  intro h
  obtain ⟨hacts, hbit, hcol, hraised⟩ := graftedColumn_tests
  obtain ⟨-, -, htest⟩ := h
  obtain ⟨t, hexec, -, hnone, -⟩ := htest 0 (some 3) graftedColumn hacts hbit
  have hspent : ¬((graftedColumn.dev.columnOf 0).getLsbD 5 = true ∧
      ∃ col : Fin 17, some 3 = some col ∧ col.val ≠ fld 4 0 (graftedColumn.dev.columnOf 0)) := by
    rintro ⟨-, col, hsome, hne⟩
    obtain rfl := Option.some.inj hsome
    exact hne hcol.symm
  obtain ⟨-, -, -, -, -, hkept⟩ := hnone hspent
  have hevent := graftedColumn_raises
  rw [hexec] at hevent
  exact absurd ((congrArg List.isEmpty (hkept.trans hraised)).symm.trans hevent) (by decide)

end Sys2Proof.Machine
end

section
/-! SUPPORT. Proof of the statement about the fetch engine (R272 to R279, R316, R317). -/
namespace Sys2Proof.Machine

open Safety

/-! ## The fetch engine of a core -/

section
variable {s : State} {c : Nat} {x : Core} {m : Mem} {d : Dev}

theorem coreIs_onFte (h : CoreIs s c x m d) (f : Fte → Fte) : CoreIs s c { x with fte := f x.fte } m (d.onFte c f) :=
  coreIs_onCore h (fun x => { x with fte := f x.fte })

theorem counts_foldl {α : Type} {f : Dev → α → Dev} (hf : ∀ d x, Counts d (f d x)) (l : List α) : ∀ d, Counts d (l.foldl f d) := by
  induction l with
  | nil => exact fun d => Counts.refl d
  | cons x l ih => exact fun d => (hf d x).trans (ih (f d x))

theorem counts_conflictCount (d : Dev) (engine : Bool) (l : List Nat) : Counts d (d.conflictCount engine l) := by
  have hperf : ∀ u, (sramReg u .spdPerf .grvPerf).addr % 0x10000 ≠ 0x420 ∧ (sramReg u .spdPerf .grvPerf).addr % 0x10000 ≠ 0x48 := by
    intro u
    unfold sramReg
    split <;> simp [Reg.addr, RK.row]
  unfold Dev.conflictCount
  cases d.rowConflict l with
  | none => exact Counts.refl d
  | some x =>
    dsimp only
    split
    · exact counts_setReg _ _ _ (hperf _)
    · exact counts_setReg _ _ _ (hperf _)

theorem counts_copyConflicts (d : Dev) (e : QEntry) (k : Nat) : Counts d (d.copyConflicts e k) := by
  unfold Dev.copyConflicts
  dsimp only
  split
  · refine counts_foldl (fun d n => ?_) _ d
    split
    · exact counts_foldl (fun d l => counts_conflictCount d false l) _ d
    · exact Counts.refl d
  · exact Counts.refl d

/-- The registers that the fetch engine counts in are none that arm an injection. -/
theorem counts_count_fte (d : Dev) (c hi lo k : Nat) {r : RK} (hr : r ∈ [RK.ftePerfDeliv, .ftePerfLoss]) :
    Counts d (d.count ⟨r, [c]⟩ hi lo k) := by
  refine counts_setReg _ _ _ ?_
  simp only [List.mem_cons, List.not_mem_nil, or_false] at hr
  rcases hr with rfl | rfl <;> simp [Reg.addr, RK.row]

end

/-! ## Beginning and cancelling (R277, R278) -/

section
variable {s : State} {c op tag : Nat} {i : IWord} {x : QEntry} {rest : List QEntry} {kind : FteKind} {legal : Sq → Bool}
  {check : Dev → QEntry → Option Nat}

/-- The fetch engine with one more entry begun. -/
def Fte.begun (f : Fte) (kind : FteKind) (x : QEntry) (tag : Nat) : Fte :=
  { f with
    eng := { f.eng with queue := f.eng.queue.drop 1, nextSeq := f.eng.nextSeq + 1 }
    runs := f.runs ++ [⟨f.eng.nextSeq, kind, x, tag, FteRun.count kind x, 0, 0, false, []⟩] }

/-- An entry begins. -/
theorem fteInstr_begin (hat : AtHead s.dev c 3 (i.word 3 op) x rest) (hcheck : check s.dev.silent x = none)
    (hsent : (s.dev.core c).fte.sending = false) (hheld : (s.dev.core c).fte.sourceHeld kind x = false) :
    CoreIs s c { s.dev.core c with fte := (s.dev.core c).fte.begun kind x tag } s.dev.mem
      (s.dev.silent.fteInstr c op i .begin kind legal check tag) := by
  have hhead : s.dev.silent.engHead c 3 (i.word 3 op) = some x := engHead_atHead hat
  have hsent' : (s.dev.silent.core c).fte.sending = false := hsent
  have hheld' : (s.dev.silent.core c).fte.sourceHeld kind x = false := hheld
  unfold Dev.fteInstr
  dsimp only
  rw [hhead]
  dsimp only
  rw [hcheck]
  dsimp only
  rw [hsent', hheld', if_neg (by simp)]
  exact coreIs_onFte (coreIs_onCore (coreIs_silent s c) (fun y => y.setEng 3 { y.eng 3 with
    queue := (y.eng 3).queue.drop 1, nextSeq := (y.eng 3).nextSeq + 1 })) _

/-- The statement about a beginning, for an instruction whose effect is that of its queue. -/
theorem completes_fteBegin {ins : Instr} {e : Dev → Dev} (hruns : CoreRuns s c)
    (hexec : exec ins s = run s (fun d => if d.tileOn (tileOf c) = true then (e d).settle else d))
    (heff : e s.dev.silent = s.dev.silent.fteInstr c op i .begin kind legal check tag)
    (hat : AtHead s.dev c 3 (i.word 3 op) x rest) (hcheck : check s.dev.silent x = none)
    (hsent : (s.dev.core c).fte.sending = false) (hheld : (s.dev.core c).fte.sourceHeld kind x = false) :
    let f := (s.dev.core c).fte
    Completes ins s (fun d =>
      (d.core c).fte.runs = f.runs ++ [⟨f.eng.nextSeq, kind, x, tag, FteRun.count kind x, 0, 0, false, []⟩] ∧
      (d.core c).fte.eng = { f.eng with queue := rest, nextSeq := f.eng.nextSeq + 1 } ∧
      (d.core c).fte.reqs = f.reqs ∧ (d.core c).sq = (s.dev.core c).sq ∧ d.mem = s.dev.mem ∧
      EngineFrame s.dev d c) := by
  intro f
  have hbegun := fteInstr_begin (legal := legal) (tag := tag) hat hcheck hsent hheld
  rw [← heff] at hbegun
  refine completes_coreIs hruns hexec hbegun fun d hd => ?_
  have hframe := hd.frame rfl
  have hself := hd.self
  rw [hself]
  refine ⟨rfl, ?_, rfl, rfl, hd.2.1, hframe⟩
  have hqueue : f.eng.queue.drop 1 = rest := drop_head hat
  rw [← hqueue]
  rfl

end

/-- A change of the fetch engine at which the sequencer goes on. -/
theorem sqNext_onFte (s : State) (c : Nat) (f : Fte → Fte) :
    let d := (s.dev.silent.onFte c f).sqNext c
    (d.core c).fte = f (s.dev.core c).fte ∧ SameFiles (s.dev.core c).sq (d.core c).sq ∧ d.mem = s.dev.mem ∧
    (Plain s.dev c → (d.core c).sq.pc = (s.dev.core c).sq.pc + 1) := by
  intro d
  have hself := (Dev.onFte_get s.dev.silent c c f).trans (if_pos rfl)
  have hsq : ((s.dev.silent.onFte c f).core c).sq = (s.dev.core c).sq := by rw [hself]; rfl
  obtain ⟨hs, ha, hd, hv, hp, -, -, -, -, -, hfte⟩ := sqNext_files (s.dev.silent.onFte c f) c
  obtain ⟨hmem, -⟩ := sqNext_frame (s.dev.silent.onFte c f) c
  rw [hsq] at hs ha hd hv hp
  refine ⟨hfte.trans (by rw [hself]; rfl), ⟨hs, ha, hd, hv, hp⟩, hmem, fun hplain => ?_⟩
  have hnext := sqNext_plain (s.dev.silent.onFte c f) c (by rw [hsq]; exact hplain.1) (by rw [hsq]; exact hplain.2)
  exact (congrArg (fun x => x.sq.pc) hnext).trans (congrArg (fun q => q.pc + 1) hsq)

/-- What a cancellation leaves of the queue and of the requests on their way. -/
theorem cancel_facts (f : Fte) (all : Bool) (tag : Nat) :
    (∀ x, x ∈ (f.cancel all tag).eng.queue ↔ x ∈ f.eng.queue ∧ cancels all tag x = false) ∧
    ∀ q ∈ (f.cancel all tag).reqs, ∀ r ∈ f.runs, r.kind ≠ .zero → (all || decide (r.tag = tag)) = true → q.run = r.id →
      q.discard = true := by
  constructor
  · intro x
    simp [Fte.cancel, Fte.settle]
  · intro q hq r hr hkind hhit hrun
    obtain ⟨q', hq', rfl⟩ := List.mem_map.1 hq
    have hin : ((f.runs.filter (fun r => decide (r.kind ≠ .zero) && (all || decide (r.tag = tag)))).map (fun r => r.id)).contains
        q'.run = true := by
      rw [List.contains_iff_mem]
      refine List.mem_map.2 ⟨r, List.mem_filter.2 ⟨hr, by rw [decide_eq_true hkind, hhit]; rfl⟩, ?_⟩
      rw [← hrun]
      split <;> rfl
    rw [if_pos hin]

/-! ## Sending (R316) and returning (R278, R317) -/

section
variable {s : State} {c : Nat} {i : IWord}

/-- FTE.CANCEL at its sequencer. -/
theorem completes_fteCancel {c : CoreId} (hruns : CoreRuns s c.val) (hat : AtPc s.dev c.val 3 4 i) (hon : Enabled s.dev c.val i)
    (hlegal : legalCancel i (s.dev.core c.val).sq = true) (hclock : s.dev.engClock c.val 3 = 2) :
    let f := (s.dev.core c.val).fte
    Completes (.fteCancel c i) s (fun d =>
      (d.core c.val).fte = f.cancel (i.f 15 15 = 1) (i.f 23 16) ∧ SameFiles (s.dev.core c.val).sq (d.core c.val).sq ∧
      d.mem = s.dev.mem ∧ (Plain s.dev c.val → (d.core c.val).sq.pc = (s.dev.core c.val).sq.pc + 1)) := by
  intro f
  obtain ⟨hissue, hcode, hword⟩ := hat
  have hclock' : s.dev.silent.engClock c.val 3 = 2 := hclock
  have hon' : (s.dev.silent.core c.val).sq.enabled i = true := hon
  have heq : s.dev.silent.fteCancel c.val i =
      (s.dev.silent.onFte c.val (fun f => f.cancel (i.f 15 15 = 1) (i.f 23 16))).sqNext c.val := by
    unfold Dev.fteCancel
    rw [sqIssue_at s.dev.silent c.val 3 4 i _ _ _ hissue hcode hword (by decide) (by decide) (by decide) hlegal, if_pos hon',
      if_neg (by simp [hclock'])]
  have hnext := sqNext_onFte s c.val (fun f => f.cancel (i.f 15 15 = 1) (i.f 23 16))
  exact completes_core_as hruns (exec_fteCancel c i s) heq (pruneDue_sqNext _ c.val) hnext

/-- The fetch engine with one more request of a run on its way. -/
def Fte.sent (f : Fte) (r : FteRun) (q : FteReq) : Fte :=
  { f with
    reqs := f.reqs ++ [q]
    runs := f.runs.map (fun y => if y.id = r.id then { y with next := y.next + 1, out := y.out + 1 } else y) }

/-- The next request of a copy. -/
def FteRun.copyRequest (r : FteRun) (c : Nat) : FteReq :=
  let ps := fteCopyPieces r.entry r.next
  { run := r.id, pieces := ps, places := ftePlaces c .copy ps }

theorem find?_unsent {pre post : List FteRun} {r : FteRun} (hpre : ∀ y ∈ pre, y.total ≤ y.next) (hr : r.next < r.total) :
    (pre ++ r :: post).find? (fun r => r.next < r.total) = some r := by
  rw [List.find?_append, List.find?_eq_none.2 fun y hy => by simpa using hpre y hy, Option.none_or,
    List.find?_cons_of_pos (by simpa using hr)]

theorem map_only {pre post : List FteRun} {r : FteRun} (hid : ∀ y ∈ pre ++ post, y.id ≠ r.id) (g : FteRun → FteRun) :
    (pre ++ r :: post).map (fun y => if y.id = r.id then g y else y) = pre ++ g r :: post := by
  have hkeep : ∀ l : List FteRun, (∀ y ∈ l, y.id ≠ r.id) → l.map (fun y => if y.id = r.id then g y else y) = l := fun l hl =>
    (List.map_congr_left fun y hy => if_neg (hl y hy)).trans (List.map_id l)
  rw [List.map_append, List.map_cons, if_pos rfl, hkeep pre fun y hy => hid y (List.mem_append_left _ hy),
    hkeep post fun y hy => hid y (List.mem_append_right _ hy)]

/-- A copy's next request goes out. -/
theorem fteSend_copy {r : FteRun} (hfind : (s.dev.core c).fte.runs.find? (fun r => r.next < r.total) = some r)
    (hkind : r.kind = .copy) (hopen : (s.dev.core c).fte.eng.halt = false ∨ (s.dev.core c).fte.eng.haltHead = true)
    (hword : r.entry.word = i.word 3 1)
    (hplace : let n := ftePlaces c .copy (fteCopyPieces r.entry r.next); n = 0 ∨ (s.dev.core c).fte.places + n ≤ 512) :
    CoreIs s c { s.dev.core c with fte := (s.dev.core c).fte.sent r (r.copyRequest c) } s.dev.mem
      (s.dev.silent.fteSend c 1 i .copy) := by
  have hfind' : (s.dev.silent.core c).fte.runs.find? (fun r => r.next < r.total) = some r := hfind
  have hbusy : ((s.dev.silent.core c).fte.eng.halt && !(s.dev.silent.core c).fte.eng.haltHead) = false := by
    change ((s.dev.core c).fte.eng.halt && !(s.dev.core c).fte.eng.haltHead) = false
    rcases hopen with h | h <;> rw [h] <;> simp
  have hplace' : ¬ (ftePlaces c .copy (fteCopyPieces r.entry r.next) ≠ 0 ∧
      512 < (s.dev.silent.core c).fte.places + ftePlaces c .copy (fteCopyPieces r.entry r.next)) := by
    change ¬ (_ ∧ 512 < (s.dev.core c).fte.places + _)
    dsimp only at hplace
    omega
  unfold Dev.fteSend
  dsimp only
  rw [hfind']
  dsimp only
  rw [hbusy, if_neg (by simp [hkind, hword]), if_neg hplace', if_pos rfl]
  exact coreIs_onFte (coreIs_counts (coreIs_silent s c) (counts_copyConflicts s.dev.silent r.entry r.next)) _

end

/-! ### The bytes of a request -/

theorem ctxWindow_le_of_sramOf {d : Dev} {p a : Nat} (h : d.sramOf p a = true) : ctxWindow 8 ≤ a := by
  unfold Dev.sramOf Dev.sramAt at h
  unfold ctxWindow
  split_ifs at h <;> omega

theorem bothEnds_all {ok : Nat → Bool} {n : Nat} (h : ∀ i, i < n → ok i = true) : bothEnds ok n = (n, 0) := by
  have hlead : (upTo n).takeWhile ok = upTo n := List.takeWhile_eq_self_iff.2 fun i hi => h i (List.mem_range.1 hi)
  unfold bothEnds
  rw [hlead]
  simp [upTo]

/-- What an agent reads of clean bytes of its partition's SRAM. -/
theorem partRead_clean {d : Dev} {p a n : Nat} {es : ReadErrs} (hn : 0 < n) (hof : ∀ i, i < n → d.sramOf p (a + i) = true)
    (hclean : Clean d a n) : d.partRead p a n es = (some (clean (d.mem.getAll a n)), d) := by
  have hlow : ctxWindow 8 ≤ a := ctxWindow_le_of_sramOf (hof 0 hn)
  have hlow' : 0x10000000000 ≤ a := le_trans (by decide) hlow
  have hnone : [0x10000000000, ctxWindow 8].find? (fun b => decide (a < b) && decide (b < a + n)) = none := by
    rw [List.find?_eq_none]
    intro b hb
    simp only [List.mem_cons, List.not_mem_nil, or_false] at hb
    rcases hb with rfl | rfl <;> simp <;> omega
  have hhbm : ¬ a < 4 * hbmTileBytes := not_lt.2 (le_trans (by decide) hlow)
  unfold Dev.partRead
  rw [hnone]
  dsimp only
  unfold Dev.regionRead
  rw [if_neg hhbm, if_neg fun h => absurd h.2 (not_lt.2 hlow), bothEnds_all hof]
  dsimp only
  rw [sramRead_clean hclean]
  dsimp only
  rw [show d.sramRead (a + (n - 0)) 0 = (.ok [], d) from rfl]
  simp

/-- The bytes of one piece, with their addresses. -/
def bytesAt (a : Nat) (bs : List PByte) : List (Nat × PByte) := ((upTo bs.length).zip bs).map (fun y => (a + y.1, y.2))

theorem bytesAt_cons (a : Nat) (b : PByte) (bs : List PByte) : bytesAt a (b :: bs) = (a, b) :: bytesAt (a + 1) bs := by
  unfold bytesAt upTo
  rw [List.length_cons, List.range_succ_eq_map, List.zip_cons_cons, List.map_cons, List.zip_map_left, List.map_map]
  simp [Function.comp_def, Nat.add_assoc, Nat.add_comm 1]

theorem sortBy_bytesAt (a : Nat) (bs : List PByte) : sortBy (fun x => x.1) (bytesAt a bs) = bytesAt a bs := by
  induction bs generalizing a with
  | nil => rfl
  | cons b bs ih =>
    rw [bytesAt_cons, sortBy, ih]
    cases bs with
    | nil => rfl
    | cons b' bs =>
      rw [bytesAt_cons, sortBy.insertBack, if_neg (by simp)]

theorem byteRuns_bytesAt (a : Nat) (b : PByte) (bs : List PByte) : byteRuns (bytesAt a (b :: bs)) = [(a, b :: bs)] := by
  induction bs generalizing a b with
  | nil => rfl
  | cons b' bs ih =>
    rw [bytesAt_cons, byteRuns, ih]
    simp

/-- Bytes for clean SRAM land as one run. -/
theorem fteWrite_clean {d : Dev} {a : Nat} {bs : List Byte} (hhbm : 4 * hbmTileBytes ≤ a) (hclean : Clean d a bs.length) :
    ∃ m, d.fteWrite [(a, clean bs)] = (bytesAt a (clean bs), none, { d with mem := m }) ∧
      ∀ b, m.get b = (d.mem.putAll a bs).get b := by
  obtain ⟨m, hwrite, hget, -⟩ := sramWrite_clean hclean
  refine ⟨m, ?_, hget⟩
  unfold Dev.fteWrite
  dsimp only
  rw [if_neg (not_lt.2 hhbm), hwrite]
  simp [Dev.fteWrite, bytesAt]

theorem anyBad_bytesAt (a : Nat) (bs : List Byte) : (bytesAt a (clean bs)).filter (fun x => x.2.2) = [] := by
  rw [List.filter_eq_nil_iff]
  intro x hx
  obtain ⟨y, hy, rfl⟩ := List.mem_map.1 hx
  obtain ⟨b, -, hb⟩ := List.mem_map.1 (List.of_mem_zip hy).2
  simp [← hb]

section
variable {s : State} {c : Nat} {x : Core} {d : Dev}

/-- Bytes of a request that land in clean SRAM. -/
theorem fteLand_clean {a : Nat} {b : Byte} {bs : List Byte} (run : Nat) (h : CoreIs s c x s.dev.mem d) (hhbm : 4 * hbmTileBytes ≤ a)
    (hclean : Clean d a (b :: bs).length) :
    ∃ m f, (d.fteLand c run (bytesAt a (clean (b :: bs)))).1 = none ∧
      CoreIs s c { x with fte := f } m (d.fteLand c run (bytesAt a (clean (b :: bs)))).2 ∧ f.reqs = x.fte.reqs ∧
      ∀ k, m.get k = (s.dev.mem.putAll a (b :: bs)).get k := by
  obtain ⟨m, hwrite, hget⟩ := fteWrite_clean hhbm hclean
  have hland := coreIs_counts (coreIs_mem h m) (counts_count_fte { d with mem := m } c 63 0
    (bytesAt a (clean (b :: bs))).length (r := .ftePerfDeliv) (by simp))
  refine ⟨m, ?fte, ?none, ?lands, ?reqs, fun k => by rw [hget, h.2.1]⟩
  case lands =>
    unfold Dev.fteLand
    rw [sortBy_bytesAt, show clean (b :: bs) = (b, false) :: clean bs from rfl, byteRuns_bytesAt,
      show (b, false) :: clean bs = clean (b :: bs) from rfl, hwrite]
    dsimp only
    exact coreIs_counts (coreIs_onFte hland _) (counts_count_fte _ c 63 32 _ (r := .ftePerfLoss) (by simp))
  case reqs => rfl
  case none =>
    unfold Dev.fteLand
    rw [sortBy_bytesAt, show clean (b :: bs) = (b, false) :: clean bs from rfl, byteRuns_bytesAt,
      show (b, false) :: clean bs = clean (b :: bs) from rfl, hwrite]

/-- A returned request whose bytes are known lands. -/
theorem fteReturn_lands {q : FteReq} {reqs : List FteReq} {r : FteRun} {src dst : Nat} {b : Byte} {bs : List Byte}
    (hreqs : (s.dev.core c).fte.reqs = q :: reqs) (hrun : (s.dev.core c).fte.runs.find? (fun y => y.id = q.run) = some r)
    (hdiscard : q.discard = false) (hpoison : q.poisoned = false) (hpieces : q.pieces = [(src, dst, (b :: bs).length)])
    (hsrc : r.kind = .zero ∨ (s.dev.memHeld src = false ∧ s.dev.cutFrom (clusterOf c) src = false))
    (hheld : s.dev.memHeld dst = false) (hcut : s.dev.cutFrom (clusterOf c) dst = false) (hhbm : 4 * hbmTileBytes ≤ dst)
    (hclean : Clean s.dev dst (b :: bs).length)
    (hbytes : (if r.kind = .zero then (.ok ((upTo (b :: bs).length).map (fun i => (dst + i, ((0, false) : PByte)))), s.dev.silent)
      else if r.kind = .gather then s.dev.silent.granuleFetch (s.dev.corePart c) [] q
      else s.dev.silent.fteFetch (s.dev.corePart c) [] q.pieces) = (.ok (bytesAt dst (clean (b :: bs))), s.dev.silent)) :
    ∃ m f, CoreIs s c { s.dev.core c with fte := f } m (s.dev.silent.fteReturn c 0 []) ∧ f.reqs = reqs ∧
      ∀ k, m.get k = (s.dev.mem.putAll dst (b :: bs)).get k := by
  have hreqs' : (s.dev.silent.core c).fte.reqs = q :: reqs := hreqs
  have hrun' : (s.dev.silent.core c).fte.runs.find? (fun y => y.id = q.run) = some r := hrun
  have hpart : s.dev.silent.corePart c = s.dev.corePart c := rfl
  have hfar : ∀ a, (s.dev.silent.memHeld a || s.dev.silent.cutFrom (clusterOf c) a) =
    (s.dev.memHeld a || s.dev.cutFrom (clusterOf c) a) := fun a => rfl
  have hhold : (decide (r.kind ≠ .zero) && !q.poisoned && q.got.isNone &&
      (s.dev.memHeld src || s.dev.cutFrom (clusterOf c) src) || (s.dev.memHeld dst || s.dev.cutFrom (clusterOf c) dst)) = false := by
    rw [hheld, hcut]
    rcases hsrc with hk | ⟨h1, h2⟩
    · simp [hk]
    · simp [h1, h2]
  have horder : fteOrdered [] q = true := by simp [fteOrdered]
  obtain ⟨m, f, hnone, hland, hf, hget⟩ := fteLand_clean q.run (coreIs_silent s c) hhbm
    (clean_congr (d := s.dev) (d' := s.dev.silent) rfl rfl rfl rfl hclean)
  refine ⟨m, ?fte, ?lands, ?reqs, hget⟩
  case lands =>
    unfold Dev.fteReturn
    dsimp only
    rw [hreqs', List.getElem?_cons_zero]
    dsimp only
    rw [hrun']
    dsimp only
    simp only [hfar, hpart]
    rw [hpieces, List.any_cons, List.any_nil, Bool.or_false, hhold, List.take_zero, horder, if_neg (by simp [hdiscard]),
      if_neg (by simp [hdiscard]), if_neg (by simp [hpoison]), List.flatMap_cons, List.flatMap_nil, List.append_nil,
      ← hpieces, hbytes]
    dsimp only
    rw [hnone]
    exact coreIs_onFte hland _
  case reqs => simp only [Fte.settle, hf, hreqs, List.take_zero, List.nil_append, List.drop_succ_cons, List.drop_zero]

end

/-! ## The statement -/

theorem bytesAt_zero (a n : Nat) : bytesAt a (clean (List.replicate n 0)) = (upTo n).map (fun i => (a + i, ((0, false) : PByte))) := by
  apply List.ext_getElem
  · simp [bytesAt, clean, upTo]
  · intro k h1 h2
    simp [bytesAt, clean, upTo]

/-- A copy's bytes are read where they stand clean. -/
theorem fteFetch_clean {d : Dev} {p src dst n : Nat} {es : ReadErrs} (hn : 0 < n) (hof : ∀ i, i < n → d.sramOf p (src + i) = true)
    (hclean : Clean d src n) : d.fteFetch p es [(src, dst, n)] = (.ok (bytesAt dst (clean (d.mem.getAll src n))), d) := by
  unfold Dev.fteFetch
  dsimp only
  rw [partRead_clean hn hof hclean]
  simp [Dev.fteFetch, bytesAt]

section
variable {s : State}

/-- A returned request of clean SRAM, with the bytes that it brings. -/
theorem completes_fteReturn {c : CoreId} {q : FteReq} {reqs : List FteReq} {r : FteRun} {src dst n : Nat} (hruns : CoreRuns s c.val)
    (hreqs : (s.dev.core c.val).fte.reqs = q :: reqs)
    (hrun : (s.dev.core c.val).fte.runs.find? (fun y => y.id = q.run) = some r) (hdiscard : q.discard = false)
    (hpoison : q.poisoned = false) (hpieces : q.pieces = [(src, dst, n)]) (hn : 0 < n)
    (hkind : r.kind = .zero ∨ (r.kind = .copy ∧ s.dev.memHeld src = false ∧ s.dev.cutFrom (clusterOf c.val) src = false ∧
      4 * hbmTileBytes ≤ src ∧ (∀ i, i < n → s.dev.sramOf (s.dev.corePart c.val) (src + i) = true) ∧ Clean s.dev src n))
    (hheld : s.dev.memHeld dst = false) (hcut : s.dev.cutFrom (clusterOf c.val) dst = false) (hhbm : 4 * hbmTileBytes ≤ dst)
    (hclean : Clean s.dev dst n) :
    Completes (.fteRequestReturn c 0 []) s (fun d =>
      d.mem.getAll dst n = (if r.kind = .copy then s.dev.mem.getAll src n else List.replicate n 0) ∧
      KeptOutside s d dst n ∧ (d.core c.val).fte.reqs = reqs ∧ (d.core c.val).sq = (s.dev.core c.val).sq ∧
      EngineFrame s.dev d c.val) := by
  have hlands : ∃ bs : List Byte, bs.length = n ∧ bs = (if r.kind = .copy then s.dev.mem.getAll src n else List.replicate n 0) ∧
      (if r.kind = .zero then (.ok ((upTo n).map (fun i => (dst + i, ((0, false) : PByte)))), s.dev.silent)
        else if r.kind = .gather then s.dev.silent.granuleFetch (s.dev.corePart c.val) [] q
        else s.dev.silent.fteFetch (s.dev.corePart c.val) [] q.pieces) = (.ok (bytesAt dst (clean bs)), s.dev.silent) := by
    refine ⟨_, ?_, rfl, ?_⟩
    · split <;> simp
    rcases hkind with hzero | ⟨hcopy, -, -, -, hof, hsrc⟩
    · rw [hzero, if_pos rfl, if_neg (by decide), bytesAt_zero]
    · rw [hcopy, if_neg (by decide), if_neg (by decide), if_pos rfl, hpieces]
      exact fteFetch_clean (d := s.dev.silent) hn hof (clean_congr (d := s.dev) (d' := s.dev.silent) rfl rfl rfl rfl hsrc)
  obtain ⟨bs, hlen, hbs, hbytes⟩ := hlands
  rw [← hbs]
  subst hlen
  cases bs with
  | nil => exact absurd hn (lt_irrefl 0)
  | cons b bs =>
    obtain ⟨m, f, hland, hf, hget⟩ := fteReturn_lands hreqs hrun hdiscard hpoison hpieces
      (hkind.imp_right fun h => ⟨h.2.1, h.2.2.1⟩) hheld hcut hhbm hclean hbytes
    refine completes_coreIs hruns (exec_fteRequestReturn c 0 [] s) hland fun d hd => ?_
    have hframe := hd.frame rfl
    have hself := hd.self
    rw [hself]
    refine ⟨?_, fun k hk => ?_, hf, rfl, hframe⟩
    · rw [hd.2.1, getAll_congr hget, getAll_putAll]
    · rw [hd.2.1, hget]
      exact Mem.get_putAll_out _ _ _ _ hk

end

/-- Settles O28: an entry begins, sends and returns by the rules of its kind, and a cancellation drops what it hits. -/
theorem fetches : Obligations.Fetches := by
  refine ⟨⟨?_, fun c i s hruns hat hon h1 h2 h3 hclock => ?_⟩, fun c s hruns => ⟨?_, ?_⟩⟩
  · refine List.forall_mem_cons.2 ⟨?_, List.forall_mem_cons.2 ⟨?_, List.forall_mem_cons.2 ⟨?_, nofun⟩⟩⟩
    · exact fun c i x rest s hruns hat hcheck hsent hheld =>
        completes_fteBegin hruns (exec_fteCopy c i .begin s) rfl hat hcheck hsent hheld
    · exact fun c i x rest s hruns hat hcheck hsent hheld =>
        completes_fteBegin hruns (exec_fteGather c i .begin s) rfl hat hcheck hsent hheld
    · exact fun c i x rest s hruns hat hcheck hsent hheld =>
        completes_fteBegin hruns (exec_fteZero c i .begin s) rfl hat hcheck hsent hheld
  · have hlegal : legalCancel i (s.dev.core c.val).sq = true := by
      have hbit : i.f 15 15 < 2 := f_lt_two i 15
      simp only [legalCancel, h1, h2, decide_true, Bool.true_and, Bool.or_eq_true, decide_eq_true_eq]
      omega
    intro f hit
    obtain ⟨hqueue, hreqs⟩ := cancel_facts f (decide (i.f 15 15 = 1)) (i.f 23 16)
    obtain ⟨t, hexec, hpending, hfte, hrest⟩ := completes_fteCancel hruns hat hon hlegal hclock
    refine ⟨t, hexec, hpending, ?_⟩
    beta_reduce
    rw [hfte]
    exact ⟨hqueue, hreqs, hrest⟩
  · intro i r pre post hsplit hpre hid hnext hkind hopen hword hplace
    have hfind := (congrArg (List.find? _) hsplit).trans (find?_unsent hpre hnext)
    refine completes_coreIs hruns (exec_fteCopy c i .row s) (fteSend_copy hfind hkind hopen hword hplace) fun d hd => ?_
    have hframe := hd.frame rfl
    have hself := hd.self
    rw [hself]
    refine ⟨⟨r.copyRequest c.val, rfl, rfl, rfl, rfl, rfl⟩, ?_, hd.2.1, hframe⟩
    exact (congrArg (List.map _) hsplit).trans (map_only hid fun y => { y with next := y.next + 1, out := y.out + 1 })
  · intro q reqs r src dst n hreqs hrun hdiscard hpoison hpieces hn hkind hheld hcut hhbm hclean
    exact completes_fteReturn hruns hreqs hrun hdiscard hpoison hpieces hn hkind hheld hcut hhbm hclean

end Sys2Proof.Machine
end

section
/-! SUPPORT. Accesses to registers that reach them (R13, R50), and the proof of the statement about the banks of the scratchpads and
grove memories (R289, R292, R298 to R307). -/
namespace Sys2Proof.Machine

open Safety

/-! ## Accesses that reach their register -/

section
variable {s : State} {ag : Agent} {r : Reg}

/-- What an access does whose register is reached. -/
theorem busDo_reaches {w : Bool} (h : Reaches s ag r w) (act : Dev → Dev) : s.dev.silent.busDo ag r w act = act s.dev.silent := by
  obtain ⟨-, hclock, hmay, hbus, habsent, -⟩ := h
  have hbus' : ∃ x, s.dev.silent.busRefuses ag.isHost r = (false, x) := ⟨_, Prod.ext hbus rfl⟩
  obtain ⟨x, hopen⟩ := hbus'
  have hlost : (ag.isHost && s.dev.silent.lost 33) = false := by
    cases hh : ag.isHost with
    | false => rfl
    | true => exact hclock hh
  have habs : s.dev.silent.absent r = false := habsent
  unfold Dev.busDo
  dsimp only
  rw [hlost, hopen]
  dsimp only
  rw [habs]
  cases ag with
  | host => simp
  | hart h => simp
  | core c =>
    have hc : s.dev.silent.programMay c.val r w = true := hmay c rfl
    simp [hc]

theorem HostReaches.reaches (h : HostReaches s r) {w : Bool} : Reaches s .host r w := by
  obtain ⟨hacts, hclock, hbus, habsent⟩ := h
  exact ⟨hacts, fun _ => hclock, nofun, hbus, habsent, fun _ => rfl⟩

/-- A write that reaches its register, and that no Tempo edge's stall holds, acts at once. -/
theorem ctrlWrite_reaches (h : Reaches s ag r) (hopen : s.dev.stalling = false ∨ s.dev.rwtMask r = 0) (v : Word) :
    s.dev.silent.ctrlWrite ag r v = s.dev.silent.regDo ag 0 r (BitVec.allOnes 64) v := by
  obtain ⟨-, -, -, -, -, hbehind⟩ := id h
  have hbehind' : s.dev.silent.behind ag = false := hbehind rfl
  have hopen' : ¬ (s.dev.silent.stalling = true ∧ BitVec.allOnes 64 &&& s.dev.silent.rwtMask r ≠ 0) := by
    change ¬ (s.dev.stalling = true ∧ BitVec.allOnes 64 &&& s.dev.rwtMask r ≠ 0)
    rcases hopen with h | h <;> simp [h]
  unfold Dev.ctrlWrite
  rw [busDo_reaches h]
  unfold Dev.regStore
  rw [if_neg (by rw [hbehind']; exact not_or.2 ⟨Bool.false_ne_true, hopen'⟩)]

/-- A write that the stall of a Tempo edge holds waits. -/
theorem ctrlWrite_stalls (h : Reaches s ag r) (hstall : s.dev.stalling = true) (hrwt : s.dev.rwtMask r ≠ 0) (v : Word) :
    s.dev.silent.ctrlWrite ag r v = s.dev.silent.park (.write ag 0 r.addr (BitVec.allOnes 64) v) := by
  have hstall' : s.dev.silent.stalling = true ∧ BitVec.allOnes 64 &&& s.dev.silent.rwtMask r ≠ 0 :=
    ⟨hstall, by rw [BitVec.allOnes_and]; exact hrwt⟩
  unfold Dev.ctrlWrite
  rw [busDo_reaches h]
  unfold Dev.regStore
  rw [if_pos (Or.inr hstall')]

end

/-! ## Banks -/

section
variable {d : Dev} {u b : Nat}

theorem bank_onBank (f : Bank → Bank) (j : Nat) :
    ((d.onSram u (fun x => x.onBank b f)).sram u).bank j = if b = j then f ((d.sram u).bank b) else (d.sram u).bank j := by
  rw [Dev.onSram_get, if_pos rfl]
  exact FMap.getD_set _ _ _ _ _

/-- A row that reads clean leaves the device alone. -/
theorem foldl_readWord_clean {w0 : Nat} (h : ∀ j, j < 8 → FMap.getD d.mem.err (w0 + j) 0 = 0 ∧
    NSet.has d.mem.poison (w0 + j) = false ∧ d.sramAt (8 * (w0 + j)) ≠ none) :
    (upTo 8).foldl (fun (d : Dev) i => (d.readWord (w0 + i) true).2) d = d := by
  have hread : ∀ j < 8, (d.readWord (w0 + j) true).2 = d := fun j hj => by
    obtain ⟨herr, hpoison, hat⟩ := h j hj
    unfold Dev.readWord
    cases hs : d.sramAt (8 * (w0 + j)) with
    | none => exact absurd hs hat
    | some x =>
      dsimp only
      rw [hpoison, herr]
      rfl
  have hfold : ∀ l : List Nat, (∀ j ∈ l, j < 8) → l.foldl (fun (d : Dev) i => (d.readWord (w0 + i) true).2) d = d := by
    intro l hl
    induction l with
    | nil => rfl
    | cons j l ih =>
      rw [List.foldl_cons, hread j (hl j List.mem_cons_self)]
      exact ih fun k hk => hl k (List.mem_cons_of_mem j hk)
  exact hfold (upTo 8) fun j hj => List.mem_range.1 hj

theorem getD_filter_keys {α : Type} (m : FMap α) (keep : Nat → Bool) (k : Nat) (a : α) :
    FMap.getD (m.filter (fun e => keep e.1)) k a = if keep k then FMap.getD m k a else a := by
  induction m with
  | nil => simp
  | cons e m ih =>
    obtain ⟨j, v⟩ := e
    by_cases hk : j = k
    · subst hk
      cases hj : keep j <;> simp [FMap.getD, hj, ih]
    · cases hj : keep j <;> simp [FMap.getD, hj, hk, ih]

/-- An address in a bank of a grove memory. -/
theorem inBank_grove {a : Nat} (ha : 0x020000000000 ≤ a) (ha' : a < 0x020028000000)
    (ho : (a - 0x020000000000) % 0x2800000 < (80 - FMap.getD d.mem.grvMapped ((a - 0x020000000000) / 0x2800000) 0) * 0x80000) :
    d.inBank u b a = (decide (grvKey ((a - 0x020000000000) / 0x2800000) = u) &&
      decide ((a - 0x020000000000) % 0x2800000 / 64 % (80 - FMap.getD d.mem.grvMapped ((a - 0x020000000000) / 0x2800000) 0) = b)) := by
  have hcount : d.bankCount (grvKey ((a - 0x020000000000) / 0x2800000)) =
      80 - FMap.getD d.mem.grvMapped ((a - 0x020000000000) / 0x2800000) 0 := by
    unfold Dev.bankCount grvKey
    rw [if_neg (by omega), Nat.add_sub_cancel_left]
  have hat : d.sramAt a = some (grvKey ((a - 0x020000000000) / 0x2800000), (a - 0x020000000000) % 0x2800000) := by
    unfold Dev.sramAt
    rw [if_neg (by omega), if_pos ⟨ha, ha'⟩]
    dsimp only
    rw [hcount, if_pos ho]
  unfold Dev.inBank
  rw [hat]
  dsimp only
  by_cases hu : grvKey ((a - 0x020000000000) / 0x2800000) = u
  · subst hu
    unfold Dev.bankRow
    rw [hcount, if_neg (by unfold grvKey; omega), Nat.shiftRight_eq_div_pow]
  · rw [decide_eq_false hu]
    simp

/-- What an unlisted byte of a grove memory reads as. -/
theorem blank_of_grove {m : Mem} {a : Nat} (ha : 0x020000000000 ≤ a) (ha' : a < 0x020028000000) :
    m.blank a = if (a - 0x020000000000) % 0x2800000 < (80 - FMap.getD m.grvMapped ((a - 0x020000000000) / 0x2800000) 0) * 0x80000 then
      (let e := FMap.getD m.grvEra (80 * ((a - 0x020000000000) / 0x2800000) + (a - 0x020000000000) % 0x2800000 / 64 %
        (80 - FMap.getD m.grvMapped ((a - 0x020000000000) / 0x2800000) 0)) 0
      if e = 0 then 0 else Config.lostByte e a) else 0 := by
  have hhbm : 4 * hbmTileBytes ≤ 0x020000000000 := by decide
  unfold Mem.blank
  rw [if_neg (by omega), if_neg (by omega), if_pos ⟨ha, ha'⟩]

/-- Elsewhere it does not depend on what the grove memories have lost. -/
theorem blank_congr {m m' : Mem} {a : Nat} (h : ¬ (0x020000000000 ≤ a ∧ a < 0x020028000000)) (hhbm : m'.hbmEra = m.hbmEra)
    (hhub : m'.hubEra = m.hubEra) : m'.blank a = m.blank a := by
  unfold Mem.blank
  rw [hhbm, hhub, if_neg h, if_neg h]

/-- An address that no event's loss is of but in a grove memory. -/
theorem blank_of_spd {m : Mem} {a : Nat} (ha : 0x030000000000 ≤ a) (ha' : a < spdBase 384) : m.blank a = 0 := by
  have hhbm : 4 * hbmTileBytes ≤ 0x030000000000 := by decide
  have hspd : spdBase 384 ≤ 0x0F0040000000 := by decide
  unfold Mem.blank
  rw [if_neg (by omega), if_neg (by omega), if_neg (by omega)]

theorem blank_zeroBank_in {a : Nat} (h : d.inBank u b a = true) : (d.zeroBank u b).mem.blank a = 0 := by
  have hmapped : (d.zeroBank u b).mem.grvMapped = d.mem.grvMapped := rfl
  by_cases hspd : 0x030000000000 ≤ a ∧ a < spdBase 384
  · exact blank_of_spd hspd.1 hspd.2
  by_cases hgrv : 0x020000000000 ≤ a ∧ a < 0x020028000000
  · obtain ⟨ha, ha'⟩ := hgrv
    rw [blank_of_grove ha ha', hmapped]
    by_cases ho : (a - 0x020000000000) % 0x2800000 < (80 - FMap.getD d.mem.grvMapped ((a - 0x020000000000) / 0x2800000) 0) * 0x80000
    · rw [inBank_grove ha ha' ho, Bool.and_eq_true, decide_eq_true_eq, decide_eq_true_eq] at h
      obtain ⟨hu, hb⟩ := h
      rw [grvKey] at hu
      have hera : (d.zeroBank u b).mem.grvEra = d.mem.grvEra.remove (80 * (u - 1000) + b) := by
        refine if_neg ?_
        rw [isSpd, decide_eq_true_eq]
        omega
      have hkey : 80 * (u - 1000) + b = 80 * ((a - 0x020000000000) / 0x2800000) + (a - 0x020000000000) % 0x2800000 / 64 %
          (80 - FMap.getD d.mem.grvMapped ((a - 0x020000000000) / 0x2800000) 0) := by omega
      rw [if_pos ho, hera, FMap.getD_remove, if_pos hkey]
      rfl
    · exact if_neg ho
  · have hnone : d.sramAt a = none := by
      unfold Dev.sramAt
      rw [if_neg hspd]
      exact if_neg hgrv
    rw [Dev.inBank, hnone] at h
    exact absurd h Bool.false_ne_true

theorem blank_zeroBank_out (hb : b < d.bankCount u) {a : Nat} (h : d.inBank u b a = false) :
    (d.zeroBank u b).mem.blank a = d.mem.blank a := by
  have hmapped : (d.zeroBank u b).mem.grvMapped = d.mem.grvMapped := rfl
  by_cases hgrv : 0x020000000000 ≤ a ∧ a < 0x020028000000
  swap
  · exact blank_congr hgrv rfl rfl
  obtain ⟨ha, ha'⟩ := hgrv
  rw [blank_of_grove ha ha', blank_of_grove ha ha', hmapped]
  by_cases ho : (a - 0x020000000000) % 0x2800000 < (80 - FMap.getD d.mem.grvMapped ((a - 0x020000000000) / 0x2800000) 0) * 0x80000
  swap
  · rw [if_neg ho, if_neg ho]
  cases hspd : isSpd u with
  | true =>
    have hera : (d.zeroBank u b).mem.grvEra = d.mem.grvEra := if_pos hspd
    rw [hera]
  | false =>
    have hu : 1000 ≤ u := by simpa [isSpd] using hspd
    have hera : (d.zeroBank u b).mem.grvEra = d.mem.grvEra.remove (80 * (u - 1000) + b) := if_neg (by simp [hspd])
    have hlt : b < 80 := by
      unfold Dev.bankCount at hb
      split at hb <;> omega
    have hne : 80 * (u - 1000) + b ≠ 80 * ((a - 0x020000000000) / 0x2800000) + (a - 0x020000000000) % 0x2800000 / 64 %
        (80 - FMap.getD d.mem.grvMapped ((a - 0x020000000000) / 0x2800000) 0) := by
      rw [inBank_grove ha ha' ho, Bool.and_eq_false_iff, decide_eq_false_iff_not, decide_eq_false_iff_not, grvKey] at h
      have hn : 80 - FMap.getD d.mem.grvMapped ((a - 0x020000000000) / 0x2800000) 0 ≤ 80 := Nat.sub_le _ _
      generalize 80 - FMap.getD d.mem.grvMapped ((a - 0x020000000000) / 0x2800000) 0 = n at *
      have hmod : (a - 0x020000000000) % 0x2800000 / 64 % n < n := Nat.mod_lt _ (by omega)
      omega
    rw [hera, FMap.getD_remove, if_neg hne]

/-- The bytes after one bank is made zero. -/
theorem get_zeroBank (hb : b < d.bankCount u) (a : Nat) : (d.zeroBank u b).mem.get a = if d.inBank u b a then 0 else d.mem.get a := by
  have hbytes : (d.zeroBank u b).mem.get a =
      if (!d.inBank u b a) = true then FMap.getD d.mem.bytes a ((d.zeroBank u b).mem.blank a) else (d.zeroBank u b).mem.blank a :=
    getD_filter_keys d.mem.bytes (fun a => !d.inBank u b a) a _
  rw [hbytes]
  cases hin : d.inBank u b a with
  | true => simpa using blank_zeroBank_in hin
  | false => simpa [Mem.get] using congrArg (FMap.getD d.mem.bytes a) (blank_zeroBank_out hb hin)

end

/-- A bank after a request of the code. -/
def Bank.asked (k : Bank) (code owner : Nat) : Bank :=
  match reqOf code with
  | none => k
  | some r => k.request r owner

/-- What a bank goes to at a request, by where it rests (R298). -/
theorem asked_on (k : Bank) (o : Nat) : (k.asked 0 o).req = .on ∧ (k.st = .on → (k.asked 0 o).st = .on) ∧
    (k.st = .ret → (k.asked 0 o).st = .wake) ∧ (k.st = .off → (k.asked 0 o).st = .up) := by
  obtain ⟨st, req, owner, pending, ce, pos⟩ := k
  cases st <;> simp [Bank.asked, reqOf, Bank.request, Bank.settle]

theorem asked_ret (k : Bank) (o : Nat) : (k.asked 1 o).req = .ret ∧ (k.st = .on → (k.asked 1 o).st = .enterRet) ∧
    (k.st = .ret → (k.asked 1 o).st = .ret) ∧ (k.st = .off → (k.asked 1 o).st = .up) := by
  obtain ⟨st, req, owner, pending, ce, pos⟩ := k
  cases st <;> simp [Bank.asked, reqOf, Bank.request, Bank.settle]

theorem asked_off (k : Bank) (o : Nat) : (k.asked 2 o).req = .off ∧ (k.st = .on ∨ k.st = .ret → (k.asked 2 o).st = .down) ∧
    (k.st = .off → (k.asked 2 o).st = .off) := by
  obtain ⟨st, req, owner, pending, ce, pos⟩ := k
  cases st <;> simp [Bank.asked, reqOf, Bank.request, Bank.settle]

/-- In a transition a request waits. -/
theorem asked_moving {k : Bank} {o code : Nat} (hcode : code < 3)
    (hmoving : k.st = .enterRet ∨ k.st = .wake ∨ k.st = .down ∨ k.st = .up) :
    (k.asked code o).st = k.st ∧ (k.asked code o).pending = true := by
  obtain ⟨st, req, owner, pending, ce, pos⟩ := k
  obtain ⟨r, hr⟩ : ∃ r, reqOf code = some r := by
    obtain rfl | rfl | rfl : code = 0 ∨ code = 1 ∨ code = 2 := by omega
    all_goals exact ⟨_, rfl⟩
  unfold Bank.asked
  rw [hr]
  rcases hmoving with rfl | rfl | rfl | rfl <;> exact ⟨rfl, rfl⟩

section
variable {s : State} {u : SramId} {b : Nat}

/-- A request of the hosting software for one bank. -/
theorem completes_bankRequest {req : BitVec 2}
    (hreach : HostReaches s (match u with | .spd c => ⟨.spdPwrReq, [c.val]⟩ | .grv g => ⟨.grvPwrReq, [g.val, b / 32]⟩))
    (hb : b < s.dev.bankCount (sramKey u)) :
    Completes (.bankPowerRequest .host u b req) s (fun d =>
      (∀ j, (d.sram (sramKey u)).bank j = if b = j then ((s.dev.sram (sramKey u)).bank b).asked req.toNat Agent.host.owner
        else (s.dev.sram (sramKey u)).bank j) ∧
      d.mem = s.dev.mem ∧ d.regs = s.dev.regs ∧ d.cores = s.dev.cores) := by
  have heq : s.dev.silent.bankPowerRequest .host u b req = s.dev.silent.bankRequest (sramKey u) b req.toNat Agent.host.owner := by
    unfold Dev.bankPowerRequest
    cases u <;> exact (busDo_reaches (HostReaches.reaches hreach) _).trans (if_neg (by simp [Dev.behind, Agent.ordered]))
  have hb' : b < s.dev.silent.bankCount (sramKey u) := hb
  refine completes_settled hreach.1 (exec_bankPowerRequest .host u b req s) ?_ ?_ <;> rw [heq] <;> unfold Dev.bankRequest
  · cases reqOf req.toNat with
    | none => exact hreach.1.2
    | some r => dsimp only; rw [if_pos hb']; exact hreach.1.2
  · unfold Bank.asked
    cases reqOf req.toNat with
    | none => exact ⟨fun j => by split <;> simp_all [Dev.sram], rfl, rfl, rfl⟩
    | some r =>
      dsimp only
      rw [if_pos hb']
      exact ⟨fun j => bank_onBank (d := s.dev.silent) _ j, rfl, rfl, rfl⟩

/-- A transition ends: of a bank in the state `st`, which reaches `to_`. -/
theorem completes_bankArrive {e : Instr} {st to_ : BankState} (hacts : Acts s)
    (hexec : exec e s = run s (fun d => (d.bankArrive (sramKey u) b st to_).settle)) (hb : b < s.dev.bankCount (sramKey u))
    (hst : ((s.dev.sram (sramKey u)).bank b).st = st) :
    Completes e s (fun d =>
      (d.sram (sramKey u)).bank b = Bank.settle { (s.dev.sram (sramKey u)).bank b with
        st := to_, pos := if st = .up ∧ to_ = .on then 0 else ((s.dev.sram (sramKey u)).bank b).pos } ∧
      (∀ a, d.mem.get a = if decide (st = .down ∨ st = .up) && s.dev.inBank (sramKey u) b a then 0 else s.dev.mem.get a) ∧
      d.cores = s.dev.cores ∧ d.regs = s.dev.regs) := by
  have hst' : ((s.dev.silent.sram (sramKey u)).bank b).st = st := hst
  have hbank := fun d : Dev => (bank_onBank (d := d) (u := sramKey u) (b := b) (fun k => Bank.settle
    { k with st := to_, pos := if st = .up ∧ to_ = .on then 0 else k.pos }) b).trans (if_pos rfl)
  refine completes_settled hacts hexec ?_ ?_ <;> unfold Dev.bankArrive <;> rw [if_pos hst']
  · split <;> exact hacts.2
  · by_cases hzero : st = .down ∨ st = .up
    · rw [if_pos hzero, decide_eq_true hzero]
      exact ⟨hbank _, fun a => by rw [Bool.true_and]; exact get_zeroBank (d := s.dev.silent) hb a, rfl, rfl⟩
    · rw [if_neg hzero, decide_eq_false hzero]
      exact ⟨hbank _, fun a => rfl, rfl, rfl⟩

/-- A transition that ends in the state asked for. -/
theorem completes_arrived {e : Instr} {st to_ : BankState} {req : BankReq} {zeroed : Bool} (hacts : Acts s)
    (hexec : exec e s = run s (fun d => (d.bankArrive (sramKey u) b st to_).settle)) (hb : b < s.dev.bankCount (sramKey u))
    (hst : ((s.dev.sram (sramKey u)).bank b).st = st) (hreq : ((s.dev.sram (sramKey u)).bank b).req = req)
    (hrests : ∀ owner pending ce pos, Bank.settle ⟨to_, req, owner, pending, ce, pos⟩ = ⟨to_, req, owner, false, ce, pos⟩)
    (hzeroed : decide (st = .down ∨ st = .up) = zeroed) :
    Completes e s (fun d =>
      ((d.sram (sramKey u)).bank b).st = to_ ∧ ((d.sram (sramKey u)).bank b).pending = false ∧
      (∀ a, d.mem.get a = if zeroed && s.dev.inBank (sramKey u) b a then 0 else s.dev.mem.get a) ∧
      d.cores = s.dev.cores ∧ d.regs = s.dev.regs) := by
  obtain ⟨t, hdone, hpending, hbank, hrest⟩ := completes_bankArrive hacts hexec hb hst
  dsimp only at hbank
  rw [hreq, hrests] at hbank
  rw [hzeroed] at hrest
  refine ⟨t, hdone, hpending, ?_⟩
  dsimp only
  rw [hbank]
  exact ⟨rfl, rfl, hrest⟩

end

/-- Settles O29: a bank by its requests and transitions, a word by its write-back, a row by its scrub. -/
theorem sramBanks : Obligations.SramBanks := by
  refine ⟨⟨fun w s hacts hw => ?_, fun u b s hacts => ?_⟩, fun u b req s hreach hb => ?_, ?_⟩
  · have hcontains : s.dev.silent.mem.wback.contains w = true := List.contains_iff_mem.2 hw
    have heq : s.dev.silent.eccWriteback w = _ := if_pos hcontains
    refine completes_settled hacts (exec_eccWriteback w s) ?_ ?_
    · rw [heq]; exact hacts.2
    · have hself : FMap.getD (FMap.set s.dev.mem.err 0 w 0) w 0 = 0 := FMap.getD_set_self _ _ _ _
      have hne : ∀ v, v ≠ w → FMap.getD (FMap.set s.dev.mem.err 0 w 0) v 0 = FMap.getD s.dev.mem.err v 0 :=
        fun v hv => FMap.getD_set_ne _ _ _ _ _ _ (Ne.symm hv)
      have hleft : w ∉ s.dev.mem.wback.filter (fun x => x ≠ w) := by simp
      rw [heq]
      exact ⟨hself, hleft, rfl, rfl, hne, rfl, rfl⟩
  · intro k cfg w0 hcfg hon hb hclean
    have heq : s.dev.silent.scrubRead (sramKey u) b none = s.dev.silent.onSram (sramKey u) (fun x => x.onBank b
        (fun k => { k with pos := (k.pos + 1) % bankRows (sramKey u) })) := by
      have hgo : ((s.dev.silent.reg (sramReg (sramKey u) .spdCfg .grvCfg)).getLsbD 8 &&
          decide (s.dev.silent.bankState (sramKey u) b = .on) && decide (b < s.dev.silent.bankCount (sramKey u))) = true := by
        change (cfg.getLsbD 8 && decide (s.dev.bankState (sramKey u) b = .on) && decide (b < s.dev.bankCount (sramKey u))) = true
        simp [hcfg, hon, hb]
      unfold Dev.scrubRead
      dsimp only
      rw [if_pos hgo]
      exact congrArg (fun d : Dev => d.onSram (sramKey u) _) (foldl_readWord_clean (d := s.dev.silent) (w0 := w0) hclean)
    refine completes_settled hacts (exec_patrolScrubRead u b none s) ?_ ?_
    · rw [heq]; exact hacts.2
    · rw [heq]
      have hbank := fun j => bank_onBank (d := s.dev.silent) (u := sramKey u) (b := b)
        (fun k => { k with pos := (k.pos + 1) % bankRows (sramKey u) }) j
      exact ⟨(hbank b).trans (if_pos rfl), fun c hc => (hbank c).trans (if_neg (Ne.symm hc)), rfl, rfl, rfl⟩
  · intro k
    obtain ⟨t, hexec, hpending, hbank, hmem, hregs, hcores⟩ := completes_bankRequest (u := u) (b := b) (req := req) hreach hb
    have hself := (hbank b).trans (if_pos rfl)
    refine ⟨t, hexec, hpending, ?_⟩
    dsimp only
    rw [hself]
    refine ⟨?_, ?_, ?_, ?_, ?_, fun c hc => (hbank c).trans (if_neg (Ne.symm hc)), hmem, hregs, hcores⟩
    · rintro rfl; rfl
    · rintro rfl
      exact asked_on k _
    · rintro rfl
      exact asked_ret k _
    · rintro rfl
      exact asked_off k _
    · intro hne hmoving
      refine asked_moving ?_ hmoving
      have hcode := req.isLt
      have hthree : req.toNat ≠ 3 := fun h => hne (BitVec.eq_of_toNat_eq h)
      omega
  · refine List.forall_mem_cons.2 ⟨?_, List.forall_mem_cons.2 ⟨?_, List.forall_mem_cons.2 ⟨?_, List.forall_mem_cons.2 ⟨?_, nofun⟩⟩⟩⟩
    · exact fun u b s hacts hb hst hreq => completes_arrived hacts (exec_bankEnterRetDone u b s) hb hst hreq (fun _ _ _ _ => rfl) (by decide)
    · exact fun u b s hacts hb hst hreq => completes_arrived hacts (exec_bankWakeDone u b s) hb hst hreq (fun _ _ _ _ => rfl) (by decide)
    · exact fun u b s hacts hb hst hreq => completes_arrived hacts (exec_bankDownDone u b s) hb hst hreq (fun _ _ _ _ => rfl) (by decide)
    · intro u b s hacts hb hst hreq
      have hdest : (if ((s.dev.silent.sram (sramKey u)).bank b).req = .ret then BankState.ret else .on) = .on := by
        rw [show ((s.dev.silent.sram (sramKey u)).bank b).req = .on from hreq]
        rfl
      have hexec : exec (.bankUpDone u b) s = run s (fun d => (d.bankArrive (sramKey u) b .up .on).settle) := by
        rw [exec_bankUpDone, run_live s _ hacts.1, run_live s _ hacts.1]
        unfold Dev.bankUpDone
        rw [hdest]
      exact completes_arrived hacts hexec hb hst hreq (fun _ _ _ _ => rfl) (by decide)

end Sys2Proof.Machine
end

section
/-! SUPPORT. Proofs of the statements about the DMA engines (R324 to R336, R344 to R348). -/
namespace Sys2Proof.Machine

open Safety

/-! ## Local destinations and running descriptors -/

section
variable {d : Dev} {g : Nat} {r : DmaRun}

/-- What memory holds after bytes have landed in it. -/
theorem landed {m m0 : Mem} {a : Nat} {bs : List Byte} (h : ∀ k, m.get k = (m0.putAll a bs).get k) :
    m.getAll a bs.length = bs ∧ ∀ b, b < a ∨ a + bs.length ≤ b → m.get b = m0.get b :=
  ⟨by rw [getAll_congr h, getAll_putAll], fun b hb => (h b).trans (Mem.get_putAll_out _ _ _ _ hb)⟩

/-- Bytes for clean SRAM land. -/
theorem localWrite_clean {p a : Nat} {bs : List Byte} (hhbm : 4 * hbmTileBytes ≤ a) (hslow : isSlow a = false)
    (hclean : Clean d a bs.length) :
    ∃ m, d.localWrite p a (clean bs) = (true, { d with mem := m }) ∧ ∀ b, m.get b = (d.mem.putAll a bs).get b := by
  obtain ⟨m, hwrite, hget, -⟩ := sramWrite_clean hclean
  refine ⟨m, ?_, hget⟩
  unfold Dev.localWrite
  rw [if_neg (not_lt.2 hhbm), hslow, if_neg Bool.false_ne_true, hwrite]

/-- Bytes at place b of a descriptor whose destination is clean SRAM. -/
theorem dmaLand_clean {b : Nat} {bs : List Byte} (hbase : isSlow (bits 47 0 (r.desc.w 1)) = false)
    (hhbm : 4 * hbmTileBytes ≤ (((bits 47 0 (r.desc.w 1) : Nat) : Int) + r.desc.dst b).toNat)
    (hslow : isSlow (((bits 47 0 (r.desc.w 1) : Nat) : Int) + r.desc.dst b).toNat = false)
    (hclean : Clean d (((bits 47 0 (r.desc.w 1) : Nat) : Int) + r.desc.dst b).toNat bs.length) :
    ∃ m, d.dmaLand g r b (clean bs) =
      (true, ({ d with mem := m } : Dev).onRun g (fun r => { r with moved := r.moved + bs.length })) ∧
      ∀ k, m.get k = (d.mem.putAll (((bits 47 0 (r.desc.w 1) : Nat) : Int) + r.desc.dst b).toNat bs).get k := by
  obtain ⟨m, hwrite, hget⟩ := localWrite_clean (p := d.clusterPart g) hhbm hslow hclean
  have hfast : r.desc.bySlow = false := by simp [DmaDesc.bySlow, hbase]
  have hlen : (clean bs).length = bs.length := by simp [clean]
  refine ⟨m, ?_, hget⟩
  unfold Dev.dmaLand
  dsimp only
  rw [hfast, if_neg Bool.false_ne_true, hwrite, hlen]
  rfl

/-- A change of the running descriptor. -/
theorem run_onRun (h : (d.dmaEng g).run = some r) (f : DmaRun → DmaRun) : ((d.onRun g f).dmaEng g).run = some (f r) := by
  unfold Dev.onRun
  rw [Dev.onDma_get, if_pos rfl, h]
  rfl

/-- It changes nothing but the engine. -/
theorem onRun_frame (d : Dev) (g : Nat) (f : DmaRun → DmaRun) :
    (d.onRun g f).mem = d.mem ∧ (d.onRun g f).cores = d.cores ∧ (d.onRun g f).regs = d.regs ∧
    (d.onRun g f).pruneDue = d.pruneDue ∧ ∀ ch, ((d.onRun g f).dmaEng g).chan ch = (d.dmaEng g).chan ch := by
  refine ⟨rfl, rfl, rfl, rfl, fun ch => ?_⟩
  unfold Dev.onRun
  rw [Dev.onDma_get, if_pos rfl]
  rfl

theorem chan_onCh (d : Dev) (g ch : Nat) (f : DmaCh → DmaCh) (j : Nat) :
    ((d.onCh g ch f).dmaEng g).chan j = if ch = j then f ((d.dmaEng g).chan ch) else (d.dmaEng g).chan j := by
  unfold Dev.onCh
  rw [Dev.onDma_get, if_pos rfl]
  exact FMap.getD_set _ _ _ _ _

end

/-! ## Batches and bursts -/

section
variable {s : State} {g : ClusterId}

theorem dmaCvuBad_frame (d : Dev) (g : Nat) (x : DmaDesc) : (d.dmaCvuBad g x).dma = d.dma ∧ (d.dmaCvuBad g x).mem = d.mem ∧
    (d.dmaCvuBad g x).cores = d.cores ∧ (d.dmaCvuBad g x).pruneDue = d.pruneDue := by
  unfold Dev.dmaCvuBad
  split <;> exact ⟨rfl, rfl, rfl, rfl⟩

theorem dmaEng_congr {d d' : Dev} (h : d'.dma = d.dma) (j : Nat) : d'.dmaEng j = d.dmaEng j := by
  unfold Dev.dmaEng
  rw [h]

/-- The next descriptor of a batch begins. -/
theorem dmaNext_begins {d : Dev} {g ch : Nat} {x : DmaDesc} {rest : List DmaDesc} (h : ((d.dmaEng g).chan ch).batch = x :: rest)
    (hst : ((d.dmaEng g).chan ch).st = .run) :
    ((d.dmaNext g ch).dmaEng g).run = some { ch := ch, desc := x, ends := d.dmaCheck g x } ∧
    (((d.dmaNext g ch).dmaEng g).chan ch).st = (if d.dmaCheck g x = none then .run else .aborting) ∧
    (((d.dmaNext g ch).dmaEng g).chan ch).batch = rest ∧ (d.dmaNext g ch).mem = d.mem ∧ (d.dmaNext g ch).cores = d.cores ∧
    (d.dmaNext g ch).pruneDue = d.pruneDue := by
  unfold Dev.dmaNext
  rw [h]
  dsimp only
  generalize hf : (fun c : DmaCh => if (d.dmaCheck g x).isSome = true then DmaCh.faulted { c with batch := rest } else
    { c with batch := rest }) = f
  obtain ⟨hdma, hmem, hcores, hdue⟩ := dmaCvuBad_frame ((d.onCh g ch f).onDma g (fun y => { y with
    run := some { ch := ch, desc := x, ends := d.dmaCheck g x } })) g x
  have heng : ∀ j, (Dev.dmaCvuBad ((d.onCh g ch f).onDma g (fun y => { y with
      run := some { ch := ch, desc := x, ends := d.dmaCheck g x } })) g x).dmaEng j = ((d.onCh g ch f).onDma g (fun y => { y with
      run := some { ch := ch, desc := x, ends := d.dmaCheck g x } })).dmaEng j := dmaEng_congr hdma
  rw [heng, Dev.onDma_get, if_pos rfl]
  have hchan := (chan_onCh d g ch f ch).trans (if_pos rfl)
  refine ⟨rfl, (congrArg DmaCh.st hchan).trans ?_, (congrArg DmaCh.batch hchan).trans ?_, hmem, hcores, hdue⟩
  · subst hf
    dsimp only
    cases d.dmaCheck g x with
    | none => exact hst
    | some e => simp [DmaCh.faulted, hst]
  · subst hf
    dsimp only
    cases d.dmaCheck g x with
    | none => rfl
    | some e => simp [DmaCh.faulted, hst]

/-- After the last descriptor the channel is idle and off the queue. -/
theorem dmaNext_ends {d : Dev} {g ch : Nat} (h : ((d.dmaEng g).chan ch).batch = []) :
    ((d.dmaNext g ch).dmaEng g).run = none ∧ (((d.dmaNext g ch).dmaEng g).chan ch).st = .idle ∧
    ch ∉ ((d.dmaNext g ch).dmaEng g).queue ∧ (d.dmaNext g ch).mem = d.mem ∧ (d.dmaNext g ch).cores = d.cores ∧
    (d.dmaNext g ch).semReqs = d.semReqs ∧ (d.dmaNext g ch).raised = d.raised ∧ (d.dmaNext g ch).pruneDue = d.pruneDue := by
  unfold Dev.dmaNext
  rw [h]
  dsimp only
  rw [Dev.onDma_get, if_pos rfl]
  have hchan := (chan_onCh d g ch (fun c => { c with st := .idle }) ch).trans (if_pos rfl)
  exact ⟨rfl, congrArg DmaCh.st hchan, by simp, rfl, rfl, rfl, rfl, rfl⟩

/-- The check of a descriptor does not look at the engines. -/
theorem dmaCheck_dma (d : Dev) (m : FMap DmaEng) (g : Nat) (x : DmaDesc) : ({ d with dma := m } : Dev).dmaCheck g x = d.dmaCheck g x :=
  rfl

/-- A batch starts with its first descriptor. -/
theorem completes_batchStart {ch : Nat} {q : List Nat} {x : DmaDesc} {rest : List DmaDesc} (hacts : Acts s)
    (hon : s.dev.tileOn (g.val / 4) = true) (hclock : s.dev.clusterClock g.val 0 = 2) (hrun : (s.dev.dmaEng g.val).run = none)
    (hqueue : (s.dev.dmaEng g.val).queue = ch :: q) (hbatch : ((s.dev.dmaEng g.val).chan ch).batch = x :: rest) :
    Completes (.dmaBatchStart g) s (fun d =>
      (∃ r, (d.dmaEng g.val).run = some r ∧ r.ch = ch ∧ r.desc = x ∧ r.ends = s.dev.dmaCheck g.val x ∧ r.moved = 0) ∧
      ((d.dmaEng g.val).chan ch).st = (if s.dev.dmaCheck g.val x = none then .run else .aborting) ∧
      ((d.dmaEng g.val).chan ch).batch = rest ∧ d.mem = s.dev.mem ∧ d.cores = s.dev.cores) := by
  have hclock' : s.dev.silent.clusterClock g.val 0 = 2 := hclock
  have hrun' : (s.dev.silent.dmaEng g.val).run = none := hrun
  have hqueue' : (s.dev.silent.dmaEng g.val).queue = ch :: q := hqueue
  have heq : (if s.dev.silent.tileOn (g.val / 4) = true then s.dev.silent.dmaBatchStart g.val else s.dev.silent) =
      (s.dev.silent.onCh g.val ch (fun c => { c with st := .run })).dmaNext g.val ch := by
    refine (if_pos hon).trans ?_
    unfold Dev.dmaBatchStart
    dsimp only
    rw [hrun', hqueue']
    exact if_pos hclock'
  have hchan := (chan_onCh s.dev.silent g.val ch (fun c => { c with st := .run }) ch).trans (if_pos rfl)
  have hbegins := dmaNext_begins (d := s.dev.silent.onCh g.val ch (fun c => { c with st := .run })) (x := x) (rest := rest)
    (by rw [hchan]; exact hbatch) (by rw [hchan])
  have hcheck : (s.dev.silent.onCh g.val ch (fun c => { c with st := .run })).dmaCheck g.val x = s.dev.dmaCheck g.val x :=
    dmaCheck_dma s.dev.silent _ g.val x
  rw [hcheck] at hbegins
  refine completes_settled hacts (exec_dmaBatchStart g s) ?_ ?_ <;> rw [heq] <;>
    generalize (s.dev.silent.onCh g.val ch _).dmaNext g.val ch = d at *
  · obtain ⟨-, -, -, -, -, hdue⟩ := hbegins
    exact hdue.trans hacts.2
  · obtain ⟨hr, hst, hb, hmem, hcores, -⟩ := hbegins
    exact ⟨⟨_, hr, rfl, rfl, rfl, rfl⟩, hst, hb, hmem, hcores⟩


/-- A burst of clean SRAM moves its bytes. -/
theorem dmaBurst_clean {d : Dev} {g : Nat} {r : DmaRun} (hclock : d.clusterClock g 0 = 2) (hrun : (d.dmaEng g).run = some r)
    (hends : r.ends = none) (hcvu : r.desc.cvu = 0) (hswin : r.desc.swin = 0) (hdwin : r.desc.dwin = 0)
    (hleft : r.issued < r.desc.total) {n src dst : Nat} (hnum : n = r.desc.burst r.issued)
    (hsrc : src = (((bits 47 0 (r.desc.w 0) : Nat) : Int) + r.desc.src r.issued).toNat)
    (hdst : dst = (((bits 47 0 (r.desc.w 1) : Nat) : Int) + r.desc.dst r.issued).toNat)
    (hbase : isSlow (bits 47 0 (r.desc.w 1)) = false) (hn : 0 < n) (hhbm : 4 * hbmTileBytes ≤ dst) (hslow : isSlow dst = false)
    (hheld : d.memHeld src = false) (hheld' : d.memHeld dst = false) (hcut : d.cutFrom g src = false) (hcut' : d.cutFrom g dst = false)
    (hof : ∀ i, i < n → d.sramOf (d.clusterPart g) (src + i) = true) (hclean : Clean d src n) (hclean' : Clean d dst n) :
    (∀ k, (d.dmaBurst g []).mem.get k = (d.mem.putAll dst (d.mem.getAll src n)).get k) ∧
    (∃ r', ((d.dmaBurst g []).dmaEng g).run = some r' ∧ r'.issued = r.issued + n ∧ r'.moved = r.moved + n ∧ r'.ends = none) ∧
    (d.dmaBurst g []).cores = d.cores ∧ (d.dmaBurst g []).regs = d.regs ∧ (d.dmaBurst g []).pruneDue = d.pruneDue := by
  have hread := partRead_clean (es := []) hn hof hclean
  have hlen : (d.mem.getAll src n).length = n := length_getAll _ _ _
  have hclean'' : Clean (d.onRun g (fun r => { r with poison := r.poison || false })) dst (d.mem.getAll src n).length := by
    rw [hlen]
    exact clean_congr (d := d) (d' := d.onRun g _) rfl rfl rfl rfl hclean'
  have hgoes : (decide (d.clusterClock g 0 < 2) || decide (r.desc.total ≤ r.issued) || (r.ends.isSome && decide (r.inflight = 0)) ||
      (decide (r.desc.cvu ≠ 0) && !r.folding && (d.cvu (2 * g + r.desc.cvu - 1)).feeding) ||
      ((decide (r.desc.swin = 0) && d.memHeld src) || (decide (r.desc.dwin = 0) && d.memHeld dst))) = false := by
    simp [hclock, hends, hcvu, hheld, hheld', hleft]
  have hopen : ((r.ends.isNone && d.dmaCvuOff g r.desc) || (decide (r.desc.swin = 0) && d.cutFrom g src) ||
      (decide (r.desc.dwin = 0) && d.cutFrom g dst)) = false := by
    simp [hcut, hcut', Dev.dmaCvuOff, hcvu]
  have hfirst : (decide (r.desc.cvu ≠ 0) && !r.folding && !r.foldStopped) = false := by simp [hcvu]
  have hfold : ∀ bs, d.dmaFold g r r.issued bs = d := fun bs => if_pos (Or.inl hcvu)
  subst hsrc hdst hnum
  obtain ⟨m, hland, hget⟩ := dmaLand_clean (g := g) hbase hhbm hslow hclean''
  rw [hlen] at hland
  unfold Dev.dmaBurst
  rw [hrun]
  dsimp only
  rw [hgoes, if_neg Bool.false_ne_true, hopen, if_neg Bool.false_ne_true, hfirst, if_neg (by simp), if_neg Bool.false_ne_true,
    if_neg (not_not.2 hswin), hread]
  dsimp only
  rw [hfold, anyPoison_clean, if_neg (not_not.2 hdwin), hland]
  dsimp only
  rw [if_pos rfl]
  refine ⟨hget, ⟨_, run_onRun (run_onRun (run_onRun hrun _) _) _, rfl, rfl, hends⟩, rfl, rfl, rfl⟩

end

/-- Settles O30: a batch starts with its first descriptor, and a burst of clean SRAM moves its bytes. -/
theorem dmaBursts : Obligations.DmaBursts := by
  intro g s hacts hon hclock e
  refine ⟨fun ch q x rest hrun hqueue hbatch => completes_batchStart hacts hon hclock hrun hqueue hbatch, ?_⟩
  intro r hrun hends hcvu hswin hdwin hleft n src dst hbase hn _ hhbm hslow hheld hheld' hcut hcut' hof hclean hclean'
  have hon' : s.dev.silent.tileOn (g.val / 4) = true := hon
  obtain ⟨hget, hrun', hcores, hregs, hdue⟩ := dmaBurst_clean (d := s.dev.silent) (g := g.val) hclock hrun hends hcvu hswin hdwin
    hleft rfl rfl rfl hbase hn hhbm hslow hheld hheld' hcut hcut' hof
    (clean_congr (d := s.dev) (d' := s.dev.silent) rfl rfl rfl rfl hclean)
    (clean_congr (d := s.dev) (d' := s.dev.silent) rfl rfl rfl rfl hclean')
  refine completes_settled hacts (exec_dmaBurstReturn g [] s) ?_ ?_ <;> rw [if_pos hon'] <;>
    generalize s.dev.silent.dmaBurst g.val [] = d at *
  · exact hdue.trans hacts.2
  · have hlen : (s.dev.mem.getAll src n).length = n := length_getAll _ _ _
    have hlanded := landed (m := d.mem) (m0 := s.dev.mem) (a := dst) (bs := s.dev.mem.getAll src n) hget
    rw [hlen] at hlanded
    exact ⟨hlanded.1, hlanded.2, hrun', hcores, hregs⟩

/-! ## Ends of descriptors and aborts (R331 to R333) -/

section
variable {d : Dev} {g : Nat} {r : DmaRun}

/-- Word 7 of a descriptor in clean SRAM. -/
theorem dmaReport_clean {x : DmaDesc} (v : Word) (h : Clean d (x.addr + 56) 8) :
    ∃ m, d.dmaReport x v = { d with mem := m } ∧ m.getAll (x.addr + 56) 8 = bytesOf 8 v.toNat ∧
      ∀ b, b < x.addr + 56 ∨ x.addr + 56 + 8 ≤ b → m.get b = d.mem.get b := by
  have hlen : (bytesOf 8 v.toNat).length = 8 := length_bytesOf _ _
  obtain ⟨m, hwrite, hget, -⟩ := sramWrite_clean (d := d) (a := x.addr + 56) (bs := bytesOf 8 v.toNat) (by rwa [hlen])
  have hlanded := landed hget
  rw [hlen] at hlanded
  exact ⟨m, congrArg Prod.snd hwrite, hlanded.1, hlanded.2⟩

theorem word7_done (poison : Bool) : (dmaWord7 1 poison 0 0).toNat = if poison then 18 else 2 := by
  cases poison <;> decide

/-- The event of a channel. -/
theorem dmaEvent_facts (d : Dev) (g ch idx code : Nat) :
    (d.dmaEvent g ch idx code).mem = d.mem ∧ (d.dmaEvent g ch idx code).cores = d.cores ∧
    (d.dmaEvent g ch idx code).semReqs = d.semReqs ∧ (d.dmaEvent g ch idx code).pruneDue = d.pruneDue ∧
    (d.dmaEvent g ch idx code).regs = d.regs ∧ Raises (d.dmaEvent g ch idx code) code ∧
    ((d.dmaEvent g ch idx code).dmaEng g).run = (d.dmaEng g).run ∧
    ∀ j, (((d.dmaEvent g ch idx code).dmaEng g).chan j) = if ch = j then { (d.dmaEng g).chan ch with event := code } else (d.dmaEng g).chan j := by
  refine ⟨rfl, rfl, rfl, rfl, rfl, ⟨_, List.mem_append_right _ (List.mem_singleton.2 rfl), rfl⟩, ?_, fun j => ?_⟩
  · have heng : (d.dmaEvent g ch idx code).dmaEng g = (d.onCh g ch (fun c => { c with event := code })).dmaEng g := rfl
    rw [heng, Dev.onCh, Dev.onDma_get, if_pos rfl]
  · exact chan_onCh d g ch (fun c => { c with event := code }) j

/-- A descriptor that has moved its bytes ends. -/
theorem dmaEnd_facts (hrun : (d.dmaEng g).run = some r) (hends : r.ends = none) (houtst : r.outst = []) (hinflight : r.inflight = 0)
    (hfolding : r.folding = false) (hmoved : r.desc.total ≤ r.moved) (hbatch : ((d.dmaEng g).chan r.ch).batch = [])
    (hclean : Clean d (r.desc.addr + 56) 8) :
    (d.dmaEnd g).mem.getAll (r.desc.addr + 56) 8 = bytesOf 8 (if r.poison then 18 else 2) ∧
    (∀ b, b < r.desc.addr + 56 ∨ r.desc.addr + 56 + 8 ≤ b → (d.dmaEnd g).mem.get b = d.mem.get b) ∧
    (r.desc.n = 0 → (d.dmaEnd g).semReqs = d.semReqs) ∧
    (r.desc.n ≠ 0 → (d.dmaEnd g).semReqs = d.semReqs ++
      [{ id := d.nextReq, who := .dma g r.ch, kind := .sig, sem := r.desc.sem, n := r.desc.n }]) ∧
    (r.desc.irq = true → Raises (d.dmaEnd g) 0x0801) ∧
    ((d.dmaEnd g).dmaEng g).run = none ∧ (((d.dmaEnd g).dmaEng g).chan r.ch).st = .idle ∧ r.ch ∉ ((d.dmaEnd g).dmaEng g).queue ∧
    (d.dmaEnd g).cores = d.cores ∧ (d.dmaEnd g).pruneDue = d.pruneDue := by
  have hfree : d.dmaFreeCvu g r = d := if_neg (by simp [hfolding])
  unfold Dev.dmaEnd
  rw [hrun]
  dsimp only
  rw [houtst, hinflight, if_neg (by simp), hends]
  dsimp only
  rw [if_neg (not_lt.2 hmoved), hfree]
  generalize hsig : (if r.desc.n = 0 then d else
    d.semSend { id := 0, who := .dma g r.ch, kind := .sig, sem := r.desc.sem, n := r.desc.n }) = d1
  have hkept : d1.mem = d.mem ∧ d1.cores = d.cores ∧ d1.pruneDue = d.pruneDue ∧ (∀ j, d1.dmaEng j = d.dmaEng j) ∧
      Clean d1 (r.desc.addr + 56) 8 := by
    subst hsig
    split
    · exact ⟨rfl, rfl, rfl, fun _ => rfl, hclean⟩
    · exact ⟨rfl, rfl, rfl, fun _ => rfl, clean_congr (d := d) (d' := d.semSend _) rfl rfl rfl rfl hclean⟩
  obtain ⟨hmem1, hcores1, hdue1, hdma1, hclean1⟩ := hkept
  obtain ⟨m, hreport, hword, hout⟩ := dmaReport_clean (dmaWord7 1 r.poison 0 0) hclean1
  rw [hreport]
  generalize hlast : ({ d1 with mem := m } : Dev).onCh g r.ch (fun c => { c with last := 1 }) = d2
  have hkept2 : d2.mem = m ∧ d2.cores = d1.cores ∧ d2.pruneDue = d1.pruneDue ∧ d2.semReqs = d1.semReqs ∧
      ((d2.dmaEng g).chan r.ch).batch = [] := by
    subst hlast
    refine ⟨rfl, rfl, rfl, rfl, ?_⟩
    rw [chan_onCh, if_pos rfl]
    have hsame : ({ d1 with mem := m } : Dev).dmaEng g = d1.dmaEng g := rfl
    rw [hsame, hdma1]
    exact hbatch
  obtain ⟨hmem2, hcores2, hdue2, hsems2, hbatch2⟩ := hkept2
  generalize hirq : (if r.desc.irq = true then d2.dmaEvent g r.ch r.desc.idx 0x0801 else d2) = d3
  have hkept3 : d3.mem = d2.mem ∧ d3.cores = d2.cores ∧ d3.pruneDue = d2.pruneDue ∧ d3.semReqs = d2.semReqs ∧
      ((d3.dmaEng g).chan r.ch).batch = [] ∧ (r.desc.irq = true → Raises d3 0x0801) := by
    subst hirq
    split
    · next h =>
      obtain ⟨h1, h2, h3, h4, -, h5, -, h6⟩ := dmaEvent_facts d2 g r.ch r.desc.idx 0x0801
      refine ⟨h1, h2, h4, h3, ?_, fun _ => h5⟩
      rw [h6, if_pos rfl]
      exact hbatch2
    · next h => exact ⟨rfl, rfl, rfl, rfl, hbatch2, fun h' => absurd h' h⟩
  obtain ⟨hmem3, hcores3, hdue3, hsems3, hbatch3, hraised⟩ := hkept3
  obtain ⟨hnone, hidle, hoff, hmem, hcores, hsems, hraise, hdue⟩ := dmaNext_ends hbatch3
  have hmemory := hmem.trans (hmem3.trans hmem2)
  have hreqs := hsems.trans (hsems3.trans hsems2)
  refine ⟨?_, ?_, ?_, ?_, ?_, hnone, hidle, hoff, hcores.trans (hcores3.trans (hcores2.trans hcores1)),
    hdue.trans (hdue3.trans (hdue2.trans hdue1))⟩
  · rw [hmemory, hword, word7_done]
  · intro b hb
    rw [hmemory, hout b hb, hmem1]
  · intro h
    rw [hreqs, ← hsig, if_pos h]
  · intro h
    rw [hreqs, ← hsig, if_neg h]
    rfl
  · intro h
    unfold Raises
    rw [hraise]
    exact hraised h

/-- An aborting descriptor with nothing in flight ends, and its channel stops (R333). -/
theorem dmaAbortComplete_facts {ch : Nat} (hrun : (d.dmaEng g).run = some r) (hch : r.ch = ch)
    (hst : ((d.dmaEng g).chan ch).st = .aborting) (hcause : ((d.dmaEng g).chan ch).cause = some .software)
    (hbatch : ((d.dmaEng g).chan ch).batch = []) (hends : r.ends = some (2, 0x0802)) (houtst : r.outst = [])
    (hinflight : r.inflight = 0) (hfolding : r.folding = false) (hclean : Clean d (r.desc.addr + 56) 8) :
    let d' := d.dmaAbortComplete g ch
    ((d'.dmaEng g).chan ch).st = .stopped ∧ (d'.dmaEng g).run = none ∧ d'.dmaEn g ch = false ∧ Raises d' 0x0802 ∧
    (∀ b, b < r.desc.addr + 56 ∨ r.desc.addr + 56 + 8 ≤ b → d'.mem.get b = d.mem.get b) ∧ d'.cores = d.cores ∧
    d'.pruneDue = d.pruneDue := by
  intro d'
  subst hch
  have hfree : d.dmaFreeCvu g r = d := if_neg (by simp [hfolding])
  obtain ⟨m, hreport, -, hout⟩ := dmaReport_clean (x := r.desc) (dmaWord7 2 r.poison (r.desc.total - r.moved) 0x0802) hclean
  have hsame : ({ d with mem := m } : Dev).dmaEng g = d.dmaEng g := rfl
  have hstopped : d' = ((({ d with mem := m } : Dev).onCh g r.ch (fun c => { c with last := 2 })).onDma g
      (fun e => { e with run := none })).dmaStop g r.ch r.desc.idx 0x0802 [] := by
    change d.dmaAbortComplete g r.ch = _
    unfold Dev.dmaAbortComplete
    rw [hrun]
    dsimp only
    rw [if_pos ⟨rfl, hst, by rw [houtst]; rfl, Or.inl hinflight⟩, hends, Option.getD_some]
    unfold Dev.dmaEndWith
    dsimp only
    rw [hfree, if_neg (show ¬ ((2 : Nat) = 4 ∨ (2 : Nat) = 5) by decide), hreport, hsame, hcause, if_neg (by decide), hsame, hbatch]
  generalize hlast : (({ d with mem := m } : Dev).onCh g r.ch (fun c => { c with last := 2 })).onDma g
      (fun e => { e with run := none }) = d1 at hstopped
  have hkept : d1.mem = m ∧ d1.cores = d.cores ∧ d1.pruneDue = d.pruneDue ∧ (d1.dmaEng g).run = none ∧
      ((d1.dmaEng g).chan r.ch).cause = some .software := by
    subst hlast
    rw [Dev.onDma_get, if_pos rfl]
    refine ⟨rfl, rfl, rfl, rfl, ?_⟩
    have hchan := (chan_onCh ({ d with mem := m } : Dev) g r.ch (fun c => { c with last := 2 }) r.ch).trans (if_pos rfl)
    rw [hsame] at hchan
    change ((((({ d with mem := m } : Dev).onCh g r.ch (fun c => { c with last := 2 })).dmaEng g)).chan r.ch).cause = _
    rw [hchan]
    exact hcause
  obtain ⟨hmem1, hcores1, hdue1, hrun1, hcause1⟩ := hkept
  rw [hstopped]
  unfold Dev.dmaStop
  dsimp only
  rw [hcause1, if_neg (by decide)]
  unfold Dev.dmaCancel
  rw [List.foldl_nil]
  generalize hstop : ((d1.setRegFld ⟨.dmaChCtrl, [g, r.ch]⟩ 0 0 0).onCh g r.ch
    (fun c => { c with st := .stopped, batch := [], cause := none })).onDma g
    (fun e => { e with queue := e.queue.filter (fun k => k ≠ r.ch) }) = d2
  have hkept2 : d2.mem = d1.mem ∧ d2.cores = d1.cores ∧ d2.pruneDue = d1.pruneDue ∧ (d2.dmaEng g).run = none ∧
      ((d2.dmaEng g).chan r.ch).st = .stopped ∧ d2.regs = (d1.setRegFld ⟨.dmaChCtrl, [g, r.ch]⟩ 0 0 0).regs := by
    subst hstop
    rw [Dev.onDma_get, if_pos rfl]
    refine ⟨rfl, rfl, rfl, ?_, ?_, rfl⟩
    · change (((d1.setRegFld ⟨.dmaChCtrl, [g, r.ch]⟩ 0 0 0).onCh g r.ch _).dmaEng g).run = none
      rw [Dev.onCh, Dev.onDma_get, if_pos rfl]
      exact hrun1
    · have hchan := (chan_onCh (d1.setRegFld ⟨.dmaChCtrl, [g, r.ch]⟩ 0 0 0) g r.ch
        (fun c => { c with st := .stopped, batch := [], cause := none }) r.ch).trans (if_pos rfl)
      change ((((d1.setRegFld ⟨.dmaChCtrl, [g, r.ch]⟩ 0 0 0).onCh g r.ch _).dmaEng g).chan r.ch).st = _
      rw [hchan]
  obtain ⟨hmem2, hcores2, hdue2, hrun2, hst2, hregs2⟩ := hkept2
  obtain ⟨h1, h2, -, h4, hregs, h5, h6, h7⟩ := dmaEvent_facts d2 g r.ch r.desc.idx 0x0802
  refine ⟨?_, h6.trans hrun2, ?_, h5, fun b hb => ?_, h2.trans (hcores2.trans hcores1), h4.trans (hdue2.trans hdue1)⟩
  · rw [h7, if_pos rfl]
    exact hst2
  · unfold Dev.dmaEn
    rw [Dev.reg_congr (hregs.trans hregs2), reg_setRegFld_self]
    exact (setFld_getLsbD 0 0 0 0 _).trans (if_pos (by decide))
  · rw [h1, hmem2, hmem1, hout b hb]

end

/-- Settles O31: a descriptor ends, an abort begins, and it completes. -/
theorem dmaEndings : Obligations.DmaEndings := by
  refine ⟨fun g r s hacts hon => ?_, fun g ch k r s hreach => ⟨fun hstall => ?_, fun hopen hrun hch hends hst => ?_⟩,
    fun g ch r s hacts hon => ?_⟩
  · intro e hrun hends houtst hinflight hfolding hmoved hbatch _ hclean
    have hon' : s.dev.silent.tileOn (g.val / 4) = true := hon
    obtain ⟨hword, hout, hsame, hsig, hirq, hnone, hidle, hoff, hcores, hdue⟩ := dmaEnd_facts (d := s.dev.silent) (g := g.val) hrun
      hends houtst hinflight hfolding hmoved hbatch (clean_congr (d := s.dev) (d' := s.dev.silent) rfl rfl rfl rfl hclean)
    refine completes_settled hacts (exec_dmaDescriptorEnd g s) ?_ ?_ <;> rw [if_pos hon'] <;>
      generalize s.dev.silent.dmaEnd g.val = d at *
    · exact hdue.trans hacts.2
    · exact ⟨hword, hout, hsame, hsig, hirq, hnone, hidle, hoff, hcores⟩
  · have hstall' : (s.dev.silent.behind .host || s.dev.silent.stalling) = true := by
      change (s.dev.silent.behind .host || s.dev.stalling) = true
      simp [hstall]
    have heq : s.dev.silent.dmaAbortWrite .host g.val ch.val k =
        s.dev.silent.park (.write .host 0 (Reg.addr ⟨.dmaChCtrl, [g.val, ch.val]⟩) 2 2) := by
      unfold Dev.dmaAbortWrite
      dsimp only
      rw [busDo_reaches (HostReaches.reaches hreach)]
      exact if_pos hstall'
    refine completes_settled hreach.1 (exec_dmaAbort .host g ch k s) ?_ ?_ <;> rw [heq]
    · exact hreach.1.2
    · exact ⟨rfl, rfl, rfl, rfl, rfl⟩
  · have hopen' : ¬ (s.dev.silent.behind .host || s.dev.silent.stalling) = true := by
      change ¬ (s.dev.silent.behind .host || s.dev.stalling) = true
      simp [hopen, Dev.behind, Agent.ordered]
    have hst' : ((s.dev.silent.dmaEng g.val).chan ch.val).st = .run := hst
    have heq : s.dev.silent.dmaAbortWrite .host g.val ch.val k = s.dev.silent.dmaAbortBy g.val ch.val .software k := by
      unfold Dev.dmaAbortWrite
      dsimp only
      rw [busDo_reaches (HostReaches.reaches hreach)]
      exact if_neg hopen'
    unfold Dev.dmaAbortBy at heq
    dsimp only at heq
    rw [hst'] at heq
    dsimp only at heq
    have hchan := (chan_onCh s.dev.silent g.val ch.val (fun c => { c with st := .aborting, cause := some .software }) ch.val).trans
      (if_pos rfl)
    have hrun' : ((s.dev.silent.onCh g.val ch.val (fun c => { c with st := .aborting, cause := some .software })).dmaEng g.val).run =
        some r := by
      rw [Dev.onCh, Dev.onDma_get, if_pos rfl]
      exact hrun
    generalize hd : s.dev.silent.onCh g.val ch.val (fun c => { c with st := .aborting, cause := some .software }) = d1 at *
    have hkept : d1.mem = s.dev.mem ∧ d1.cores = s.dev.cores ∧ d1.regs = s.dev.regs ∧ d1.pruneDue = s.dev.pruneDue := by
      subst hd
      exact ⟨rfl, rfl, rfl, rfl⟩
    obtain ⟨hmem, hcores, hregs, hdue⟩ := hkept
    refine completes_settled hreach.1 (exec_dmaAbort .host g ch k s) ?_ ?_ <;> rw [heq]
    · exact hdue.trans hreach.1.2
    · have hkeep := fun f => (onRun_frame d1 g.val f).2.2.2.2 ch.val
      have hself := fun f => (hkeep f).trans hchan
      refine ⟨congrArg DmaCh.st (hself _), congrArg DmaCh.cause (hself _), ⟨_, run_onRun hrun' _, ?_, rfl⟩, hmem, hcores, hregs⟩
      rw [hends]
      rfl
  · intro e hrun hch hst hcause hbatch hends houtst hinflight hfolding _ hclean
    have hon' : s.dev.silent.tileOn (g.val / 4) = true := hon
    obtain ⟨hstop, hnone, hen, hraise, hout, hcores, hdue⟩ := dmaAbortComplete_facts (d := s.dev.silent) (g := g.val) hrun hch hst hcause
      hbatch hends houtst hinflight hfolding (clean_congr (d := s.dev) (d' := s.dev.silent) rfl rfl rfl rfl hclean)
    refine completes_settled hacts (exec_dmaAbortComplete g ch s) ?_ ?_ <;> rw [if_pos hon'] <;>
      generalize s.dev.silent.dmaAbortComplete g.val ch.val = d at *
    · exact hdue.trans hacts.2
    · exact ⟨hstop, hnone, hen, hraise, hout, hcores⟩

end Sys2Proof.Machine
end

section
/-! SUPPORT. Packets that the device sends (R424, R427), and the proof of the statement about remote transfers (R330 to R336, R348). -/
namespace Sys2Proof.Machine

open Safety

/-! ## Commands whose effect leaves the pins alone -/

/-- A command of a device that acts completes with the device that its effect is equal to, where that reports no prune and stands at
the same pins. -/
theorem completes_as {cmd : Instr} {s : State} {f : Dev → Dev} {d : Dev} {P : Dev → Prop} (hacts : Acts s)
    (hexec : exec cmd s = run s (fun d => (f d).settle)) (heq : f s.dev.silent = d) (hdue : d.pruneDue = s.dev.pruneDue)
    (hpins : d.resetN = s.dev.resetN ∧ d.vin = s.dev.vin) (hP : P d) : Completes cmd s P := by
  subst heq
  obtain ⟨hreset, hvin⟩ := hpins
  refine completes_settled hacts hexec (hdue.trans hacts.2) ?_
  have hself : (f s.dev.silent).withPins s.dev = f s.dev.silent := by
    unfold Dev.withPins
    rw [← hreset, ← hvin]
  rw [hself]
  exact hP

/-! ## Packets of the device -/

section
variable (d : Dev) (p : Packet)

theorem queued_onLink {x : QPkt} (l : Nat) (h : x.pkt = { p with src := d.ownId, hops := 0, dl := x.pkt.dl }) :
    Queued (d.onLink l (fun k => { k with txq := k.txq ++ [x] })) p := by
  refine ⟨l, x, ?_, h⟩
  rw [Dev.onLink_get, if_pos rfl]
  exact List.mem_append_right _ (List.mem_singleton.2 rfl)

/-- A packet that is sent stands in a queue, and nothing but the links changes. -/
theorem queued_send : Queued (d.send p) p := by
  unfold Dev.send Dev.enqueue
  split
  · exact queued_onLink d p _ rfl
  · exact queued_onLink d p _ rfl
  · exact queued_onLink d p _ rfl

theorem send_frame : (d.send p).mem = d.mem ∧ (d.send p).cores = d.cores ∧ (d.send p).regs = d.regs ∧
    (d.send p).raised = d.raised ∧ (d.send p).pruneDue = d.pruneDue := by
  unfold Dev.send Dev.enqueue
  split <;> exact ⟨rfl, rfl, rfl, rfl, rfl⟩

end

theorem markPoison_nil (bs : List Byte) : markPoison bs [] = clean bs := by
  apply List.ext_getElem
  · simp [markPoison, clean, upTo]
  · intro k h1 h2
    simp [markPoison, clean]

theorem poisonedWords_clean (bs : List Byte) : poisonedWords (clean bs) = [] := by
  have hnone : ∀ k, anyPoison (((clean bs).drop (8 * k)).take 8) = false := fun k => by
    unfold clean
    rw [← List.map_drop, ← List.map_take]
    exact anyPoison_clean _
  simp [poisonedWords, hnone]

/-! ## At the target (R336, R348) -/

section
variable {s : State} {q : Option PortId} {pkt : Machine.Packet} {p : Nat}

theorem any_inWin {i n : Nat} {write : Bool} (hi : i < 64) (h : s.dev.inWin p i pkt.addr n pkt.src write = true) :
    (upTo 64).any (fun i => s.dev.silent.inWin p i pkt.addr n pkt.src write) = true :=
  List.any_eq_true.2 ⟨i, List.mem_range.2 hi, h⟩

/-- A WRITE that a window accepts lands and is acknowledged. -/
theorem completes_remoteWrite {i : Nat} (hacts : Acts s) (hpart : s.dev.addrPart pkt.addr = some p)
    (hhbm : 4 * hbmTileBytes ≤ pkt.addr) (hslow : isSlow pkt.addr = false) (htype : pkt.type = 0x01) (hi : i < 64)
    (hwin : s.dev.inWin p i pkt.addr pkt.payload.length pkt.src true = true) (hbad : pkt.bad = [])
    (hclean : Clean s.dev pkt.addr pkt.payload.length) :
    Completes (.remoteRequest q pkt []) s (fun d =>
      d.mem.getAll pkt.addr pkt.payload.length = pkt.payload ∧ KeptOutside s d pkt.addr pkt.payload.length ∧
      Queued d { dst := pkt.src, src := 0, addr := pkt.addr, vc := 2, type := 0x04, len := 0, spart := p, tag := pkt.tag } ∧
      d.cores = s.dev.cores ∧ d.regs = s.dev.regs) := by
  have hpart' : s.dev.silent.addrPart pkt.addr = some p := hpart
  obtain ⟨m, hwrite, hget⟩ := localWrite_clean (d := s.dev.silent) (p := p) hhbm hslow
    (clean_congr (d := s.dev) (d' := s.dev.silent) rfl rfl rfl rfl hclean)
  have heq : s.dev.silent.remoteRequest (q.map Fin.val) pkt [] = ({ s.dev.silent with mem := m } : Dev).send
      { dst := pkt.src, src := 0, addr := pkt.addr, vc := 2, type := 0x04, len := 0, spart := p, tag := pkt.tag } := by
    unfold Dev.remoteRequest
    dsimp only
    rw [hpart']
    dsimp only
    rw [decide_eq_true htype, if_pos rfl, any_inWin hi hwin, if_neg (by decide), if_pos rfl, hbad, markPoison_nil, hwrite]
    rfl
  obtain ⟨hmem, hcores, hregs, -, hdue⟩ := send_frame ({ s.dev.silent with mem := m } : Dev)
    { dst := pkt.src, src := 0, addr := pkt.addr, vc := 2, type := 0x04, len := 0, spart := p, tag := pkt.tag }
  have hqueued := queued_send ({ s.dev.silent with mem := m } : Dev)
    { dst := pkt.src, src := 0, addr := pkt.addr, vc := 2, type := 0x04, len := 0, spart := p, tag := pkt.tag }
  have hlanded := landed hget
  refine completes_settled hacts (exec_remoteRequest q pkt [] s) ?_ ?_ <;> rw [heq] <;> generalize Dev.send _ _ = d at *
  · exact hdue.trans hacts.2
  · refine ⟨?_, fun b hb => ?_, hqueued, hcores, hregs⟩
    · exact (congrArg (fun m : Mem => m.getAll pkt.addr pkt.payload.length) hmem).trans hlanded.1
    · exact (congrArg (fun m : Mem => m.get b) hmem).trans (hlanded.2 b hb)

/-- The answer of a READ, with its bytes. -/
def readAnswer (pkt : Machine.Packet) (p : Nat) (bs : List Byte) : Machine.Packet :=
  { dst := pkt.src, src := 0, addr := pkt.addr, vc := 2, type := 0x03, len := (clean bs).length, spart := p, tag := pkt.tag, payload := bs }

/-- A READ is answered with its bytes. -/
theorem completes_remoteRead {i : Nat} (hacts : Acts s) (hpart : s.dev.addrPart pkt.addr = some p)
    (htype : pkt.type = 0x02) (hi : i < 64)
    (hwin : s.dev.inWin p i pkt.addr pkt.want pkt.src false = true) (hwant : 0 < pkt.want)
    (hof : ∀ i, i < pkt.want → s.dev.sramOf p (pkt.addr + i) = true) (hclean : Clean s.dev pkt.addr pkt.want) :
    Completes (.remoteRequest q pkt []) s (fun d =>
      (∃ a, Queued d a ∧ a.dst = pkt.src ∧ a.type = 0x03 ∧ a.tag = pkt.tag ∧ a.bad = [] ∧
        a.payload = s.dev.mem.getAll pkt.addr pkt.want) ∧ d.mem = s.dev.mem ∧ d.cores = s.dev.cores) := by
  have hpart' : s.dev.silent.addrPart pkt.addr = some p := hpart
  have hread := partRead_clean (d := s.dev.silent) (es := []) hwant hof
    (clean_congr (d := s.dev) (d' := s.dev.silent) rfl rfl rfl rfl hclean)
  have heq : s.dev.silent.remoteRequest (q.map Fin.val) pkt [] = s.dev.silent.send (readAnswer pkt p (s.dev.mem.getAll pkt.addr pkt.want)) := by
    unfold Dev.remoteRequest
    dsimp only
    rw [hpart']
    dsimp only
    rw [decide_eq_false (by simp [htype]), if_neg Bool.false_ne_true, any_inWin hi hwin, if_neg (by decide), if_neg Bool.false_ne_true,
      hread]
    dsimp only
    rw [plain_clean, poisonedWords_clean]
    rfl
  obtain ⟨hmem, hcores, hregs, -, hdue⟩ := send_frame s.dev.silent (readAnswer pkt p (s.dev.mem.getAll pkt.addr pkt.want))
  have hqueued := queued_send s.dev.silent (readAnswer pkt p (s.dev.mem.getAll pkt.addr pkt.want))
  refine completes_settled hacts (exec_remoteRequest q pkt [] s) ?_ ?_ <;> rw [heq] <;> generalize Dev.send _ _ = d at *
  · exact hdue.trans hacts.2
  · exact ⟨⟨_, hqueued, rfl, rfl, rfl, rfl, rfl⟩, hmem, hcores⟩

/-- A WRITE that no window accepts is refused. -/
theorem completes_remoteDenied (hacts : Acts s) (hpart : s.dev.addrPart pkt.addr = some p) (htype : pkt.type = 0x01)
    (hwin : ∀ i, i < 64 → s.dev.inWin p i pkt.addr pkt.payload.length pkt.src true = false) :
    Completes (.remoteRequest none pkt []) s (fun d =>
      Raises d 0x0807 ∧ (∃ a, Queued d a ∧ a.dst = pkt.src ∧ a.type = 0x05 ∧ a.code = 5 ∧ a.tag = pkt.tag) ∧
      d.mem = s.dev.mem ∧ d.cores = s.dev.cores) := by
  have hpart' : s.dev.silent.addrPart pkt.addr = some p := hpart
  have hnone : (upTo 64).any (fun i => s.dev.silent.inWin p i pkt.addr pkt.payload.length pkt.src true) = false := by
    rw [List.any_eq_false]
    exact fun i hi => by rw [show s.dev.silent.inWin p i _ _ _ _ = false from hwin i (List.mem_range.1 hi)]; exact Bool.false_ne_true
  have heq : s.dev.silent.remoteRequest (Option.map Fin.val (none : Option PortId)) pkt [] =
      (((s.dev.silent.count ⟨.dmaInwinStat, [p]⟩ 31 0 1).setRegFld ⟨.dmaInwinStat, [p]⟩ 49 32 pkt.src).raise 0x0807 (some p) p).send
        (pkt.nak 5 p) := by
    unfold Dev.remoteRequest
    dsimp only
    rw [hpart']
    dsimp only
    rw [decide_eq_true htype, if_pos rfl, hnone, if_pos rfl]
    rfl
  generalize hd : ((s.dev.silent.count ⟨.dmaInwinStat, [p]⟩ 31 0 1).setRegFld ⟨.dmaInwinStat, [p]⟩ 49 32 pkt.src).raise 0x0807
    (some p) p = d1 at heq
  have hkept : d1.mem = s.dev.mem ∧ d1.cores = s.dev.cores ∧ d1.pruneDue = s.dev.pruneDue ∧ Raises d1 0x0807 := by
    subst hd
    exact ⟨rfl, rfl, rfl, _, List.mem_append_right _ (List.mem_singleton.2 rfl), rfl⟩
  obtain ⟨hmem1, hcores1, hdue1, hraise⟩ := hkept
  obtain ⟨hmem, hcores, -, hraised, hdue⟩ := send_frame d1 (pkt.nak 5 p)
  have hqueued := queued_send d1 (pkt.nak 5 p)
  refine completes_settled hacts (exec_remoteRequest none pkt [] s) ?_ ?_ <;> rw [heq] <;> generalize Dev.send _ _ = d at *
  · exact hdue.trans (hdue1.trans hacts.2)
  · refine ⟨?_, ⟨_, hqueued, rfl, rfl, rfl, rfl⟩, hmem.trans hmem1, hcores.trans hcores1⟩
    unfold Raises at hraise
    rw [← hraised] at hraise
    exact hraise

end

/-! ## At the requester (R330 to R332) -/

section
variable {s : State} {pkt : Machine.Packet} {g : Nat} {r : DmaRun} {o : DmaOut}

/-- What waits for an answer is outstanding for the running descriptor of its engine. -/
theorem dmaWaiting_some {d : Dev} (h : d.dmaWaiting pkt = some (g, r, o)) : (d.dmaEng g).run = some r := by
  unfold Dev.dmaWaiting at h
  obtain ⟨l1, g', l2, -, hg, -⟩ := List.findSome?_eq_some_iff.1 h
  cases hrun : (d.dmaEng g').run with
  | none => rw [hrun] at hg; exact absurd hg (by simp)
  | some r' =>
    rw [hrun] at hg
    obtain ⟨o', -, ho⟩ := Option.map_eq_some_iff.1 hg
    simp only [Prod.mk.injEq] at ho
    obtain ⟨rfl, rfl, -⟩ := ho
    exact hrun

theorem not_mem_answered (r : DmaRun) (o : DmaOut) (n : Nat) : ∀ y ∈ (r.answered o n).outst, y.tag ≠ o.tag := by
  intro y hy
  simpa using (List.mem_filter.1 hy).2

theorem raises_raise (d : Dev) (code : Nat) (part : Option Nat) (unit : Nat) : Raises (d.raise code part unit) code :=
  ⟨_, List.mem_append_right _ (List.mem_singleton.2 rfl), rfl⟩

/-- Read data that lands in clean SRAM. -/
theorem completes_readData (hacts : Acts s) (hwait : s.dev.dmaWaiting pkt = some (g, r, o)) (hcvu : r.desc.cvu = 0) (hbad : pkt.bad = [])
    (hlen : pkt.payload.length = o.n) (hbase : isSlow (bits 47 0 (r.desc.w 1)) = false) {dst : Nat}
    (hdst : dst = (((bits 47 0 (r.desc.w 1) : Nat) : Int) + r.desc.dst o.off).toNat) (hhbm : 4 * hbmTileBytes ≤ dst)
    (hslow : isSlow dst = false) (hclean : Clean s.dev dst o.n) :
    Completes (.readDataReceive pkt) s (fun d =>
      d.mem.getAll dst o.n = pkt.payload ∧ KeptOutside s d dst o.n ∧
      (∃ r', (d.dmaEng g).run = some r' ∧ r'.moved = r.moved + o.n ∧ ∀ y ∈ r'.outst, y.tag ≠ o.tag) ∧ d.cores = s.dev.cores) := by
  have hwait' : s.dev.silent.dmaWaiting pkt = some (g, r, o) := hwait
  have hrun : (s.dev.silent.dmaEng g).run = some r := dmaWaiting_some hwait'
  have hmark : markPoison (pkt.payload.take o.n) pkt.bad = clean pkt.payload := by
    rw [← hlen, List.take_length, hbad, markPoison_nil]
  have hfold : ∀ bs, s.dev.silent.dmaFold g r o.off bs = s.dev.silent := fun bs => if_pos (Or.inl hcvu)
  have hcvuOff : s.dev.silent.dmaCvuOff g r.desc = false := by simp [Dev.dmaCvuOff, hcvu]
  have hrun1 := run_onRun hrun (fun r => { r with poison := r.poison || false })
  have hclean1 : Clean (s.dev.silent.onRun g (fun r => { r with poison := r.poison || false })) dst pkt.payload.length := by
    rw [hlen]
    exact clean_congr (d := s.dev) (d' := s.dev.silent.onRun g _) rfl rfl rfl rfl hclean
  subst hdst
  obtain ⟨m, hland, hget⟩ := dmaLand_clean (g := g) hbase hhbm hslow hclean1
  have heq : s.dev.silent.readData pkt = ((({ s.dev.silent.onRun g (fun r => { r with poison := r.poison || false }) with
      mem := m } : Dev).onRun g (fun r => { r with moved := r.moved + pkt.payload.length })).onRun g (fun r => r.answered o 0)) := by
    unfold Dev.readData
    rw [hwait']
    dsimp only
    rw [hmark, hfold, anyPoison_clean, hland, hcvuOff]
    rfl
  have hlanded := landed hget
  rw [hlen] at hlanded
  have hrun2 := run_onRun (run_onRun (d := { s.dev.silent.onRun g (fun r => { r with poison := r.poison || false }) with mem := m }) hrun1
    (fun r => { r with moved := r.moved + pkt.payload.length })) (fun r => r.answered o 0)
  refine completes_settled hacts (exec_readDataReceive pkt s) ?_ ?_ <;> rw [heq]
  · exact hacts.2
  · refine ⟨hlanded.1, hlanded.2, ⟨_, hrun2, ?_, not_mem_answered _ _ _⟩, rfl⟩
    exact congrArg (r.moved + ·) hlen

/-- An acknowledgement counts the bytes of its burst. -/
theorem completes_writeAck (hacts : Acts s) (hwait : s.dev.dmaWaiting pkt = some (g, r, o)) :
    Completes (.writeAckReceive pkt) s (fun d =>
      (∃ r', (d.dmaEng g).run = some r' ∧ r'.moved = r.moved + o.n ∧ ∀ y ∈ r'.outst, y.tag ≠ o.tag) ∧
      d.mem = s.dev.mem ∧ d.cores = s.dev.cores) := by
  have hwait' : s.dev.silent.dmaWaiting pkt = some (g, r, o) := hwait
  have heq : s.dev.silent.writeAck pkt = s.dev.silent.onRun g (fun r => r.answered o o.n) := by
    unfold Dev.writeAck
    rw [hwait']
  refine completes_settled hacts (exec_writeAckReceive pkt s) ?_ ?_ <;> rw [heq]
  · exact hacts.2
  · exact ⟨⟨_, run_onRun (dmaWaiting_some hwait') _, rfl, not_mem_answered _ _ _⟩, rfl, rfl⟩

theorem dmaFault_run {d : Dev} {g : Nat} {r : DmaRun} (h : (d.dmaEng g).run = some r) (status code : Nat) : d.dmaFault g status code =
    (d.onCh g r.ch DmaCh.faulted).onRun g (fun r => { r with ends := some (r.ends.getD (status, code)), inflight := 0 }) := by
  unfold Dev.dmaFault
  rw [h]

/-- A NAK ends the descriptor. -/
theorem completes_dmaNak (hacts : Acts s) (hwait : s.dev.dmaWaiting pkt = some (g, r, o)) (hvc : pkt.vc % 4 ≠ 1) (hends : r.ends = none) :
    Completes (.nakReceive pkt) s (fun d =>
      (∃ r', (d.dmaEng g).run = some r' ∧ r'.ends = some (7, 0x0806) ∧ r'.moved = r.moved ∧ ∀ y ∈ r'.outst, y.tag ≠ o.tag) ∧
      d.mem = s.dev.mem ∧ d.cores = s.dev.cores) := by
  have hwait' : s.dev.silent.dmaWaiting pkt = some (g, r, o) := hwait
  have hrun1 := run_onRun (dmaWaiting_some hwait') (fun r => r.answered o 0)
  have heq : (if pkt.vc % 4 = 1 then s.dev.silent.redNak pkt else s.dev.silent.dmaNak pkt) =
      (s.dev.silent.onRun g (fun r => r.answered o 0)).dmaFault g 7 0x0806 := by
    refine (if_neg hvc).trans ?_
    unfold Dev.dmaNak
    rw [hwait']
  obtain ⟨hmem, hcores, -, hdue, -⟩ := onRun_frame s.dev.silent g (fun r => r.answered o 0)
  have hpins : (s.dev.silent.onRun g (fun r => r.answered o 0)).resetN = s.dev.resetN ∧
      (s.dev.silent.onRun g (fun r => r.answered o 0)).vin = s.dev.vin := ⟨rfl, rfl⟩
  generalize s.dev.silent.onRun g (fun r => r.answered o 0) = d at *
  have hrun2 : ((d.onCh g r.ch DmaCh.faulted).dmaEng g).run = some (r.answered o 0) := by
    rw [Dev.onCh, Dev.onDma_get, if_pos rfl]
    exact hrun1
  rw [dmaFault_run hrun1] at heq
  refine completes_as hacts (exec_nakReceive pkt s) heq hdue hpins ⟨⟨_, run_onRun hrun2 _, ?_, rfl, not_mem_answered r o 0⟩, hmem, hcores⟩
  exact congrArg some (congrArg (Option.getD · (7, 0x0806)) hends)

end

/-! ## Inbound windows (R348) -/

section
variable {s : State} {p : PartId} {w : Fin 64} {cfg : Word}

theorem fld_or_bit20 (hi lo : Nat) (h : hi < 20 ∨ 20 < lo) : fld hi lo (cfg ||| 0x100000) = fld hi lo cfg := by
  refine Nat.eq_of_testBit_eq fun k => ?_
  rw [fld_testBit, fld_testBit, BitVec.getLsbD_or]
  by_cases hk : k < hi + 1 - lo
  · have hbit : (0x100000 : Word).getLsbD (lo + k) = false := by
      have hpow : (0x100000 : Word) = BitVec.twoPow 64 20 := by decide
      rw [hpow, BitVec.getLsbD_twoPow, decide_eq_false (by omega : ¬ 20 = lo + k), Bool.and_false]
    rw [hbit, Bool.or_false]
  · simp [hk]

theorem inWinWrite_of_enable (hreach : HostReaches s ⟨.dmaInwinCfg, [p.val, w.val]⟩) :
    s.dev.silent.ctrlWrite .host ⟨.dmaInwinCfg, [p.val, w.val]⟩ (cfg ||| 0x100000) =
      s.dev.silent.inWinWrite p.val w.val (cfg ||| 0x100000) := by
  rw [ctrlWrite_reaches (HostReaches.reaches hreach) (Or.inr rfl)]
  have hmix : mix (s.dev.silent.reg ⟨.dmaInwinCfg, [p.val, w.val]⟩) (BitVec.allOnes 64) (cfg ||| 0x100000) = cfg ||| 0x100000 := by
    rw [mix, BitVec.and_allOnes, BitVec.not_allOnes, BitVec.and_zero, BitVec.zero_or]
  exact congrArg (s.dev.silent.inWinWrite p.val w.val) hmix

/-- The window's length and the place of its enable. -/
theorem inWin_cfg (cfg : Word) : fld 63 24 (cfg ||| 0x100000) = fld 63 24 cfg ∧ bit 20 (cfg ||| 0x100000) = true := by
  refine ⟨fld_or_bit20 63 24 (Or.inr (by decide)), ?_⟩
  unfold bit
  rw [BitVec.getLsbD_or, show (0x100000 : Word).getLsbD 20 = true by decide, Bool.or_true]

/-- A window inside the partition opens. -/
theorem completes_inWinOpen (hreach : HostReaches s ⟨.dmaInwinCfg, [p.val, w.val]⟩)
    (hin : s.dev.rangeOf p.val (s.dev.regFld ⟨.dmaInwinBase, [p.val, w.val]⟩ 47 0)
      (s.dev.regFld ⟨.dmaInwinBase, [p.val, w.val]⟩ 47 0 + fld 63 24 cfg) = true) :
    Completes (.dmaInwinEnable .host p w cfg) s (fun d =>
      (d.reg ⟨.dmaInwinCfg, [p.val, w.val]⟩).getLsbD 20 = true ∧
      fld 17 0 (d.reg ⟨.dmaInwinCfg, [p.val, w.val]⟩) = fld 17 0 cfg ∧ d.mem = s.dev.mem ∧ d.cores = s.dev.cores) := by
  obtain ⟨hlen, hbit⟩ := inWin_cfg cfg
  have heq : s.dev.silent.ctrlWrite .host ⟨.dmaInwinCfg, [p.val, w.val]⟩ (cfg ||| 0x100000) =
      s.dev.silent.setReg ⟨.dmaInwinCfg, [p.val, w.val]⟩ ((cfg ||| 0x100000) &&& ~~~(maskOf 23 21)) := by
    rw [inWinWrite_of_enable hreach]
    refine if_neg fun h => ?_
    have hrange := h.2
    rw [hlen] at hrange
    exact absurd hrange (by rw [Bool.not_eq_true', Bool.not_eq_false]; exact hin)
  refine completes_settled hreach.1 (exec_dmaInwinEnable .host p w cfg s) ?_ ?_ <;> rw [heq]
  · exact hreach.1.2
  · have hreg : ((s.dev.silent.setReg ⟨.dmaInwinCfg, [p.val, w.val]⟩ ((cfg ||| 0x100000) &&& ~~~(maskOf 23 21))).withPins s.dev).reg
        ⟨.dmaInwinCfg, [p.val, w.val]⟩ = (cfg ||| 0x100000) &&& ~~~(maskOf 23 21) := Dev.setReg_self _ _ _
    rw [hreg]
    refine ⟨?_, ?_, rfl, rfl⟩
    · rw [BitVec.getLsbD_and, show (~~~(maskOf 23 21)).getLsbD 20 = true by decide, Bool.and_true]
      exact hbit
    · refine Eq.trans ?_ (fld_or_bit20 17 0 (Or.inl (by decide)))
      refine Nat.eq_of_testBit_eq fun k => ?_
      rw [fld_testBit, fld_testBit, BitVec.getLsbD_and, BitVec.getLsbD_not, maskOf_getLsbD]
      by_cases hk : k < 18
      · simp [show ¬ 21 ≤ k by omega, show k < 64 by omega]
      · simp [show ¬ k < 17 + 1 - 0 by omega]

/-- A window out of the partition stays as it is. -/
theorem completes_inWinRefused (hreach : HostReaches s ⟨.dmaInwinCfg, [p.val, w.val]⟩)
    (hout : s.dev.rangeOf p.val (s.dev.regFld ⟨.dmaInwinBase, [p.val, w.val]⟩ 47 0)
      (s.dev.regFld ⟨.dmaInwinBase, [p.val, w.val]⟩ 47 0 + fld 63 24 cfg) = false) :
    Completes (.dmaInwinEnable .host p w cfg) s (fun d =>
      Raises d 0x0807 ∧ d.regs = s.dev.regs ∧ d.mem = s.dev.mem ∧ d.cores = s.dev.cores) := by
  obtain ⟨hlen, hbit⟩ := inWin_cfg cfg
  have heq : s.dev.silent.ctrlWrite .host ⟨.dmaInwinCfg, [p.val, w.val]⟩ (cfg ||| 0x100000) =
      s.dev.silent.raise 0x0807 (some p.val) p.val := by
    rw [inWinWrite_of_enable hreach]
    refine if_pos ⟨hbit, ?_⟩
    rw [hlen, Bool.not_eq_true']
    exact hout
  exact completes_as hreach.1 (exec_dmaInwinEnable .host p w cfg s) heq rfl ⟨rfl, rfl⟩
    ⟨raises_raise s.dev.silent 0x0807 (some p.val) p.val, rfl, rfl, rfl⟩

end

/-- Settles O32: remote requests at their target, their answers at the requester, and the windows that let them in. -/
theorem remoteTransfers : Obligations.RemoteTransfers := by
  refine ⟨fun q pkt p s hacts hpart hhbm hslow => ⟨?_, ?_, ?_⟩, fun pkt g r o s hacts hwait => ⟨?_, ?_, ?_⟩,
    fun p w cfg s hreach => ⟨fun hin => ?_, fun hout => ?_⟩⟩
  · exact fun i htype hi hwin hbad hclean => completes_remoteWrite hacts hpart hhbm hslow htype hi hwin hbad hclean
  · exact fun i htype hi hwin hwant hof hclean => completes_remoteRead hacts hpart htype hi hwin hwant hof hclean
  · exact fun htype hwin => completes_remoteDenied hacts hpart htype hwin
  · exact fun hcvu hbad hlen hbase hhbm hslow hclean => completes_readData hacts hwait hcvu hbad hlen hbase rfl hhbm hslow hclean
  · exact completes_writeAck hacts hwait
  · exact fun hvc hends => completes_dmaNak hacts hwait hvc hends
  · exact completes_inWinOpen hreach hin
  · exact completes_inWinRefused hreach hout

end Sys2Proof.Machine
end

section
/-! SUPPORT. What a reported fault leaves of the device (R530, R538), and the proof of the statement about the acquisition states of
the time base (R45 to R47, R65, R66). -/
namespace Sys2Proof.Machine

open Safety

/-! ## Faults of the device -/

/-- The device differs in the events that wait, in the faults under recovery with the register that counts them, and in what its
partitions note of a fault. -/
structure Reported (d d' : Dev) : Prop where
  rest : d' = { d with regs := d'.regs, parts := d'.parts, faults := d'.faults, raised := d'.raised }
  reg : ∀ r : Reg, Reg.addr ⟨.prtRecovery, []⟩ ≠ r.addr → d'.reg r = d.reg r
  raised : ∃ l, d'.raised = d.raised ++ l
  part : ∀ p, ∃ b m, d'.part p = { d.part p with before := b, beforeMem := m }

namespace Reported

variable {d d' d'' : Dev}

theorem refl (d : Dev) : Reported d d := ⟨rfl, fun _ _ => rfl, ⟨[], (List.append_nil _).symm⟩, fun _ => ⟨_, _, rfl⟩⟩

theorem trans (h : Reported d d') (h' : Reported d' d'') : Reported d d'' := by
  obtain ⟨hrest, hreg, ⟨l, hl⟩, hpart⟩ := h
  obtain ⟨hrest', hreg', ⟨l', hl'⟩, hpart'⟩ := h'
  refine ⟨hrest'.trans ?_, fun r hr => (hreg' r hr).trans (hreg r hr), ⟨l ++ l', by rw [hl', hl, List.append_assoc]⟩, fun p => ?_⟩
  · rw [hrest]
  · obtain ⟨b, m, hp⟩ := hpart p
    obtain ⟨b', m', hp'⟩ := hpart' p
    exact ⟨b', m', by rw [hp', hp]⟩

theorem frame (h : Reported d d') : d'.mem = d.mem ∧ d'.cores = d.cores ∧ d'.sems = d.sems ∧ d'.tmp = d.tmp ∧ d'.tempo = d.tempo ∧
    d'.srams = d.srams ∧ d'.gens = d.gens ∧ d'.dma = d.dma ∧ d'.ports = d.ports ∧ d'.links = d.links ∧
    d'.pruneDue = d.pruneDue ∧ d'.resetN = d.resetN ∧ d'.vin = d.vin := by
  have hrest := h.rest
  and_intros <;> rw [hrest]

theorem raises (h : Reported d d') {code : Nat} (hr : Raises d code) : Raises d' code := by
  obtain ⟨x, hx, hcode⟩ := hr
  obtain ⟨l, hl⟩ := h.raised
  exact ⟨x, by rw [hl]; exact List.mem_append_left l hx, hcode⟩

theorem foldl {α : Type} {f : Dev → α → Dev} (hf : ∀ d x, Reported d (f d x)) (l : List α) : ∀ d, Reported d (l.foldl f d) := by
  induction l with
  | nil => exact fun d => refl d
  | cons x l ih => exact fun d => (hf d x).trans (ih (f d x))

end Reported

section
variable (d : Dev)

theorem reported_raiseAs (cls : EvClass) (code : Nat) (part : Option Nat) (unit detail : Nat) :
    Reported d (d.raiseAs cls code part unit detail) := ⟨rfl, fun _ _ => rfl, ⟨_, rfl⟩, fun _ => ⟨_, _, rfl⟩⟩

theorem reported_raise (code : Nat) (part : Option Nat) (unit : Nat) : Reported d (d.raise code part unit) :=
  reported_raiseAs d _ _ _ _ _

theorem reported_faults (l : List FaultPart) : Reported d { d with faults := l } :=
  ⟨rfl, fun _ _ => rfl, ⟨[], (List.append_nil _).symm⟩, fun _ => ⟨_, _, rfl⟩⟩

/-- The register that counts the recoveries. -/
theorem reported_recovery (code : Nat) :
    Reported d ((d.count ⟨.prtRecovery, []⟩ 47 16 1).setRegFld ⟨.prtRecovery, []⟩ 63 48 code) := by
  refine ⟨rfl, fun r hr => ?_, ⟨[], (List.append_nil _).symm⟩, fun _ => ⟨_, _, rfl⟩⟩
  rw [reg_setRegFld_ne _ hr, reg_count_ne _ hr]

theorem reported_faultNote (code p : Nat) : Reported d (d.faultNote code p) := by
  refine ⟨rfl, fun _ _ => rfl, ⟨[], (List.append_nil _).symm⟩, fun j => ?_⟩
  unfold Dev.faultNote
  rw [Dev.onPart_get]
  split
  · next h => subst h; exact ⟨_, _, rfl⟩
  · exact ⟨_, _, rfl⟩

theorem reported_faultPart (code p : Nat) (rs : List Remedy) : Reported d (d.faultPart code p rs) := by
  unfold Dev.faultPart
  dsimp only
  refine ((reported_faultNote d code p).trans ?_).trans (reported_faults _ _)
  split
  · exact reported_raise _ _ _ _
  · exact reported_recovery _ code

/-- A device-level fault is reported, and joins the recoveries. -/
theorem reported_faultDevice (code unit : Nat) (ps : List Nat) (rs : List Remedy) :
    Reported (d.raise code none unit) (d.faultDevice code unit ps rs) := by
  unfold Dev.faultDevice
  dsimp only
  refine Reported.trans (d' := if (ps.isEmpty && !d.faults.any fun f => f.part = none) = true then
    ((d.raise code none unit).count ⟨.prtRecovery, []⟩ 47 16 1).setRegFld ⟨.prtRecovery, []⟩ 63 48 code else d.raise code none unit) ?_
    ((reported_faults _ _).trans (Reported.foldl (fun d p => reported_faultPart d code p rs) ps _))
  split
  · exact reported_recovery _ code
  · exact Reported.refl _

end

/-! ## Events of the time base -/

section
variable (d : Dev)

/-- A Tempo event sets its bit, and records itself. -/
theorem tmpEvent_bit {b : Nat} (code : Nat) (hb : b < 64) : ((d.tmpEvent b code).reg ⟨.tmpEvent, []⟩).getLsbD b = true := by
  have hreg : (d.tmpEvent b code).reg ⟨.tmpEvent, []⟩ = setFld b b 1 (d.reg ⟨.tmpEvent, []⟩) := reg_setRegFld_self _ _ _ _ _
  rw [hreg, setFld_getLsbD, if_pos ⟨hb, le_refl b, by omega⟩, Nat.sub_self]
  rfl

/-- Nothing but the event, its bit and its register changes. -/
theorem tmpEvent_frame (b code : Nat) : Records d (d.tmpEvent b code) code 0 ∧ Calm d (d.tmpEvent b code) ∧
    (d.tmpEvent b code).tmp = d.tmp ∧ (d.tmpEvent b code).tempo = d.tempo := ⟨rfl, ⟨rfl, rfl, rfl, rfl, rfl, rfl, rfl, rfl, rfl⟩, rfl, rfl⟩

end

/-! ## The statement -/

section
variable {s : State}

/-- A change of the time base moves no pin. -/
theorem onTmp_pins (d : Dev) (f : TempoUnit → TempoUnit) : (d.onTmp f).resetN = d.resetN ∧ (d.onTmp f).vin = d.vin := ⟨rfl, rfl⟩

/-- What becoming king changes. -/
theorem becomeKing_facts (d : Dev) (first : Bool) :
    (d.becomeKing first).tmp.acq = .king ∧ (d.becomeKing first).tmp.king = some (d.ownId, d.prio) ∧
    (d.becomeKing first).tmp.first = first ∧ (d.becomeKing first).tmp.parent = none ∧ (d.becomeKing first).tempo = d.tempo ∧
    Calm d (d.becomeKing first) ∧ (d.becomeKing first).regs = d.regs ∧ (d.becomeKing first).raised = d.raised ∧
    (d.becomeKing first).pruneDue = d.pruneDue := by
  unfold Dev.becomeKing Dev.acqEnter
  exact ⟨rfl, rfl, rfl, rfl, rfl, ⟨rfl, rfl, rfl, rfl, rfl, rfl, rfl, rfl, rfl⟩, rfl, rfl, rfl⟩

theorem becomeKing_pins (d : Dev) (first : Bool) : (d.becomeKing first).resetN = d.resetN ∧ (d.becomeKing first).vin = d.vin := by
  unfold Dev.becomeKing Dev.acqEnter
  exact ⟨(onTmp_pins _ _).1.trans (onTmp_pins _ _).1, (onTmp_pins _ _).2.trans (onTmp_pins _ _).2⟩

/-- A step of the time base into another acquisition state. -/
theorem completes_acq {cmd : Instr} {f : Dev → Dev} {a : Acq} (hacts : Acts s) (hexec : exec cmd s = run s (fun d => (f d).settle))
    (heq : f s.dev.silent = s.dev.silent.acqEnter a) :
    Completes cmd s (fun d => (d.tmp = { s.dev.tmp with acq := a, edges := 0, run := 0, bad := 0 } ∧ d.tempo = s.dev.tempo ∧
      Calm s.dev d) ∧ d.regs = s.dev.regs ∧ d.raised = s.dev.raised) :=
  completes_as hacts hexec heq rfl ⟨rfl, rfl⟩ ⟨⟨rfl, rfl, rfl, rfl, rfl, rfl, rfl, rfl, rfl, rfl, rfl⟩, rfl, rfl⟩

/-- The master is lost: a fault of every partition that holds a program. -/
theorem completes_masterLost (hacts : Acts s) (hacq : s.dev.tmp.acq = .holdover) (hedges : 256 ≤ s.dev.tmp.edges) :
    Completes .masterLost s (fun d => d.tmp.acq = .free ∧ d.tmp.king = none ∧ d.tmp.edges = 0 ∧ d.tempo = s.dev.tempo ∧
      Raises d 0x0102 ∧ (d.reg ⟨.tmpEvent, []⟩).getLsbD 1 = true ∧ d.mem = s.dev.mem ∧ d.cores = s.dev.cores ∧ d.sems = s.dev.sems) := by
  generalize hbase : (s.dev.silent.acqEnter .free).onTmp (fun x =>
    { x with king := none, parent := none, hops := 0, count := 0, resumed := false }) = d0
  have heq : s.dev.silent.masterLost = (d0.setRegFld ⟨.tmpEvent, []⟩ 1 1 1).faultDevice 0x0102 0 d0.ownedParts [.locked] := by
    subst hbase
    exact if_pos ⟨hacq, hedges⟩
  have hbits : ((d0.setRegFld ⟨.tmpEvent, []⟩ 1 1 1).raise 0x0102 none 0).reg ⟨.tmpEvent, []⟩ = setFld 1 1 1 (d0.reg ⟨.tmpEvent, []⟩) :=
    reg_setRegFld_self _ _ _ _ _
  have hrep := reported_faultDevice (d0.setRegFld ⟨.tmpEvent, []⟩ 1 1 1) 0x0102 0 d0.ownedParts [.locked]
  have hraises := hrep.raises (raises_raise _ 0x0102 none 0)
  have hreg := hrep.reg ⟨.tmpEvent, []⟩ (by simp [Reg.addr, RK.row])
  have hframe := hrep.frame
  generalize Dev.faultDevice _ _ _ _ _ = d at *
  have hbit : (d.reg ⟨.tmpEvent, []⟩).getLsbD 1 = true := by
    rw [hreg, hbits, setFld_getLsbD, if_pos (by decide)]
    rfl
  have hkept : d0.tmp.acq = .free ∧ d0.tmp.king = none ∧ d0.tmp.edges = 0 ∧ d0.tempo = s.dev.tempo ∧ d0.mem = s.dev.mem ∧
      d0.cores = s.dev.cores ∧ d0.sems = s.dev.sems ∧ d0.pruneDue = s.dev.pruneDue := by
    subst hbase
    exact ⟨rfl, rfl, rfl, rfl, rfl, rfl, rfl, rfl⟩
  have hpins : d0.resetN = s.dev.resetN ∧ d0.vin = s.dev.vin := by
    subst hbase
    exact ⟨(onTmp_pins _ _).1.trans (onTmp_pins _ _).1, (onTmp_pins _ _).2.trans (onTmp_pins _ _).2⟩
  obtain ⟨hacq', hking, hedges', htempo, hmem, hcores, hsems, hdue⟩ := hkept
  obtain ⟨hreset, hvin⟩ := hpins
  obtain ⟨hmem', hcores', hsems', htmp, htempo', -, -, -, -, -, hdue', hreset', hvin'⟩ := hframe
  have htmp' : d.tmp = d0.tmp := htmp
  rw [← htmp'] at hacq' hking hedges'
  exact completes_as hacts (exec_masterLost s) heq (hdue'.trans hdue) ⟨hreset'.trans hreset, hvin'.trans hvin⟩
    ⟨hacq', hking, hedges', htempo'.trans htempo, hraises, hbit, hmem'.trans hmem, hcores'.trans hcores, hsems'.trans hsems⟩

end

/-- Settles O33: the acquisition states are entered at their counts. -/
theorem acquisition : Obligations.Acquisition := by
  intro s hacts x enters
  refine ⟨fun h1 h2 => ?_, fun h1 h2 => ?_, fun h1 h2 => ?_, fun h1 h2 => ?_, fun h1 h2 => completes_masterLost hacts h1 h2,
    fun h1 h2 h3 => ?_, fun h1 h2 h3 h4 => ?_, fun h1 h2 h3 => ?_⟩
  · exact completes_acq hacts (exec_acqFineReached s) (if_pos ⟨h1, h2⟩)
  · exact completes_acq hacts (exec_acqLockedReached s) (if_pos ⟨h1, h2⟩)
  · have heq : s.dev.silent.alignLost = (s.dev.silent.acqEnter .fine).tmpEvent 0 0x0101 := if_pos ⟨h1, h2⟩
    obtain ⟨hrec, hcalm, htmp, htempo⟩ := tmpEvent_frame (s.dev.silent.acqEnter .fine) 0 0x0101
    exact completes_as hacts (exec_alignLost s) heq rfl ⟨rfl, rfl⟩ ⟨⟨htmp, htempo, hcalm⟩, hrec, tmpEvent_bit _ 0x0101 (by decide)⟩
  · exact completes_acq hacts (exec_holdoverEntry s) (if_pos ⟨h1, h2⟩)
  · have heq : s.dev.silent.failover = (s.dev.silent.becomeKing false).tmpEvent 2 0x0103 := if_pos ⟨h1, h2, h3⟩
    obtain ⟨hacq, hking, hfirst, -, htempo, hcalm, -, hraised, hdue⟩ := becomeKing_facts s.dev.silent false
    have hpins := becomeKing_pins s.dev.silent false
    generalize s.dev.silent.becomeKing false = d at *
    have hrec : Records s.dev (d.tmpEvent 2 0x0103) 0x0103 0 := by
      obtain ⟨hrec, -⟩ := tmpEvent_frame d 2 0x0103
      unfold Records at *
      rw [hrec, hraised, htempo]
      rfl
    exact completes_as hacts (exec_failover s) heq hdue hpins
      ⟨hacq, hking, hfirst, htempo, hcalm, hrec, tmpEvent_bit _ 0x0103 (by decide)⟩
  · have heq : s.dev.silent.announceResume = s.dev.silent.onTmp (fun x => { x with resumed := true, count := 0 }) :=
      if_pos ⟨h1, h2, h3, by rw [show s.dev.silent.tmp.resumed = false from h4]; exact Bool.false_ne_true⟩
    exact completes_as hacts (exec_holdoverAnnounceResume s) heq rfl ⟨rfl, rfl⟩ rfl
  · have heq : s.dev.silent.electionWin = s.dev.silent.becomeKing true := if_pos ⟨h1, h2, h3⟩
    obtain ⟨hacq, hking, hfirst, hparent, htempo, hcalm, hregs, hraised, hdue⟩ := becomeKing_facts s.dev.silent true
    have hpins := becomeKing_pins s.dev.silent true
    generalize s.dev.silent.becomeKing true = d at *
    exact completes_as hacts (exec_kingElectionWin s) heq hdue hpins ⟨hacq, hking, hfirst, hparent, htempo, hcalm, hregs, hraised⟩

end Sys2Proof.Machine
end

section
/-! SUPPORT. Proof of the statement about the messages of the time base (R36, R40 to R43, R47, R48). -/
namespace Sys2Proof.Machine

open Safety

/-! ## Messages that ports hear and send (R519) -/

/-- No check-value unit of a port takes packets. -/
def Quiet (d : Dev) : Prop := ∀ p, p < 24 → fld 13 12 (d.cvuCfgWord (32 + p)) = 0

theorem quiet_congr {d d' : Dev} (h : d'.regs = d.regs) (hq : Quiet d) : Quiet d' := fun p hp => by
  have := hq p hp
  unfold Dev.cvuCfgWord at *
  rwa [Dev.reg_congr h]

theorem calm_trans {d d' d'' : Dev} (h : Calm d d') (h' : Calm d' d'') : Calm d d'' := by
  obtain ⟨h1, h2, h3, h4, h5, h6, h7, h8, h9⟩ := h
  obtain ⟨h1', h2', h3', h4', h5', h6', h7', h8', h9'⟩ := h'
  exact ⟨h1'.trans h1, h2'.trans h2, h3'.trans h3, h4'.trans h4, h5'.trans h5, h6'.trans h6, h7'.trans h7, h8'.trans h8, h9'.trans h9⟩

/-- The device differs in the check-value units of its ports, the events that wait, the outputs and the count of free values. -/
structure Heard (d d' : Dev) : Prop where
  rest : d' = { d with regs := d'.regs, cvus := d'.cvus, raised := d'.raised, outs := d'.outs, fresh := d'.fresh }
  reg : ∀ r : Reg, (∀ q, q < 24 → Reg.addr ⟨.pcvuState, [q]⟩ ≠ r.addr ∧ Reg.addr ⟨.pcvuPos, [q]⟩ ≠ r.addr) → d'.reg r = d.reg r
  raised : ∃ l, d'.raised = d.raised ++ l
  quiet : Quiet d → d'.regs = d.regs ∧ d'.raised = d.raised

namespace Heard

variable {d d' d'' : Dev}

theorem refl (d : Dev) : Heard d d := ⟨rfl, fun _ _ => rfl, ⟨[], (List.append_nil _).symm⟩, fun _ => ⟨rfl, rfl⟩⟩

theorem trans (h : Heard d d') (h' : Heard d' d'') : Heard d d'' := by
  obtain ⟨hrest, hreg, ⟨l, hl⟩, hquiet⟩ := h
  obtain ⟨hrest', hreg', ⟨l', hl'⟩, hquiet'⟩ := h'
  refine ⟨hrest'.trans ?_, fun r hr => (hreg' r hr).trans (hreg r hr), ⟨l ++ l', by rw [hl', hl, List.append_assoc]⟩, fun hq => ?_⟩
  · rw [hrest]
  · obtain ⟨hregs, hraised⟩ := hquiet hq
    have hq' : Quiet d' := quiet_congr hregs hq
    exact ⟨(hquiet' hq').1.trans hregs, (hquiet' hq').2.trans hraised⟩

theorem foldl {α : Type} {f : Dev → α → Dev} {l : List α} (hf : ∀ d, ∀ x ∈ l, Heard d (f d x)) : ∀ d, Heard d (l.foldl f d) := by
  induction l with
  | nil => exact fun d => refl d
  | cons x l ih =>
    exact fun d => (hf d x List.mem_cons_self).trans (ih (fun d y hy => hf d y (List.mem_cons_of_mem x hy)) (f d x))

theorem frame (h : Heard d d') : d'.tmp = d.tmp ∧ d'.tempo = d.tempo ∧ d'.ports = d.ports ∧ d'.plls = d.plls ∧ d'.pwr = d.pwr ∧
    d'.parts = d.parts ∧ d'.sec = d.sec ∧ d'.pruneDue = d.pruneDue ∧ d'.resetN = d.resetN ∧ d'.vin = d.vin := by
  have hrest := h.rest
  and_intros <;> rw [hrest]

theorem calm (h : Heard d d') : Calm d d' := by
  have hrest := h.rest
  unfold Calm
  and_intros <;> rw [hrest]

theorem raises (h : Heard d d') {code : Nat} (hr : Raises d code) : Raises d' code := by
  obtain ⟨x, hx, hcode⟩ := hr
  obtain ⟨l, hl⟩ := h.raised
  exact ⟨x, by rw [hl]; exact List.mem_append_left l hx, hcode⟩

end Heard

section
variable (d : Dev)

theorem heard_cvuPacket {q : Nat} (hq : q < 24) {dir : Nat} (hdir : dir ≠ 0) (vc : Nat) (payload : List Byte) :
    Heard d (d.cvuPacket q dir vc payload) := by
  have hreg : ∀ k p : RK, cvuReg (32 + q) k p = ⟨p, [q]⟩ := fun k p => by simp [cvuReg]
  unfold Dev.cvuPacket
  dsimp only
  split
  · next htaken =>
    have hloud : ¬ Quiet d := fun h => hdir (htaken.1.symm.trans (h q hq))
    split
    · exact ⟨rfl, fun _ _ => rfl, ⟨_, rfl⟩, fun h => absurd h hloud⟩
    · refine ⟨rfl, fun r hr => ?_, ⟨[], (List.append_nil _).symm⟩, fun h => absurd h hloud⟩
      obtain ⟨hstate, hpos⟩ := hr q hq
      unfold Dev.cvuBytes
      dsimp only
      rw [hreg, hreg, hreg, Dev.setReg_ne _ _ _ _ hpos, Dev.setReg_ne _ _ _ _ hstate]
  · exact Heard.refl d

theorem heard_out (o : Out) : Heard d (d.out o) := ⟨rfl, fun _ _ => rfl, ⟨[], (List.append_nil _).symm⟩, fun _ => ⟨rfl, rfl⟩⟩

theorem heard_tick : Heard d d.tick := ⟨rfl, fun _ _ => rfl, ⟨[], (List.append_nil _).symm⟩, fun _ => ⟨rfl, rfl⟩⟩

theorem heard_portHear {q : Nat} (hq : q < 24) (type : Nat) (fields : List Int) : Heard d (d.portHear q type fields) :=
  heard_cvuPacket d hq (by decide) _ _

theorem heard_portSend {q : Nat} (hq : q < 24) (type : Nat) (fields : List Nat) : Heard d (d.portSend q type fields) :=
  (heard_cvuPacket d hq (by decide) _ _).trans (heard_out _ _)

theorem outs_cvuPacket (q dir vc : Nat) (payload : List Byte) : (d.cvuPacket q dir vc payload).outs = d.outs := by
  unfold Dev.cvuPacket
  dsimp only
  split
  · split <;> rfl
  · rfl

theorem outs_portSend (q type : Nat) (fields : List Nat) : (d.portSend q type fields).outs = d.outs ++ [.sent type (q :: fields)] :=
  congrArg (· ++ _) (outs_cvuPacket d q 1 0 _)

end

/-! ## Registers that no message changes -/

theorem trainedPorts_congr {d d' : Dev} (hports : d'.ports = d.ports) (hplls : d'.plls = d.plls) (hpwr : d'.pwr = d.pwr) :
    d'.trainedPorts = d.trainedPorts := by
  unfold Dev.trainedPorts Dev.portRuns Dev.port Dev.lost Dev.pll Dev.ptile
  rw [hports, hplls, hpwr]

namespace Heard

variable {d d' : Dev}

theorem period (h : Heard d d') : d'.period = d.period :=
  congrArg (fld 10 0) (h.reg ⟨.tmpPeriod, []⟩ fun q hq => by simp [Reg.addr, RK.row]; omega)

theorem prio (h : Heard d d') : d'.prio = d.prio :=
  congrArg (fld 7 0) (h.reg ⟨.tmpRole, []⟩ fun q hq => by simp [Reg.addr, RK.row]; omega)

theorem ownId (h : Heard d d') : d'.ownId = d.ownId :=
  congrArg (fld 17 0) (h.reg ⟨.dvoCoord, []⟩ fun q hq => by simp [Reg.addr, RK.row]; omega)

theorem role (h : Heard d d') (hi lo : Nat) : d'.regFld ⟨.tmpRole, []⟩ hi lo = d.regFld ⟨.tmpRole, []⟩ hi lo :=
  congrArg (fld hi lo) (h.reg ⟨.tmpRole, []⟩ fun q hq => by simp [Reg.addr, RK.row]; omega)

theorem trainedPorts (h : Heard d d') : d'.trainedPorts = d.trainedPorts := by
  obtain ⟨-, -, hports, hplls, hpwr, -⟩ := h.frame
  exact trainedPorts_congr hports hplls hpwr

theorem delayPorts (h : Heard d d') : d'.delayPorts = d.delayPorts := by
  obtain ⟨-, -, hports, hplls, hpwr, -⟩ := h.frame
  unfold Dev.delayPorts Dev.portRuns Dev.port Dev.lost Dev.pll Dev.ptile
  rw [hports, hplls, hpwr]

end Heard

/-! ## Partitions that stop (R39) -/

/-- The device differs in partitions, cores and their claims, the registers of the deadline monitors and of the time base's events, and
the events that wait. -/
structure PartsStop (d d' : Dev) : Prop where
  rest : d' = { d with regs := d'.regs, parts := d'.parts, cores := d'.cores, gens := d'.gens, raised := d'.raised }
  reg : ∀ r : Reg, (∀ p, p < 4 → Reg.addr ⟨.tmpDmCtrl, [p]⟩ ≠ r.addr) → Reg.addr ⟨.tmpEvent, []⟩ ≠ r.addr → d'.reg r = d.reg r
  raised : ∃ l, d'.raised = d.raised ++ l

namespace PartsStop

variable {d d' d'' : Dev}

theorem refl (d : Dev) : PartsStop d d := ⟨rfl, fun _ _ _ => rfl, ⟨[], (List.append_nil _).symm⟩⟩

theorem trans (h : PartsStop d d') (h' : PartsStop d' d'') : PartsStop d d'' := by
  obtain ⟨hrest, hreg, ⟨l, hl⟩⟩ := h
  obtain ⟨hrest', hreg', ⟨l', hl'⟩⟩ := h'
  refine ⟨hrest'.trans ?_, fun r hr he => (hreg' r hr he).trans (hreg r hr he), ⟨l ++ l', by rw [hl', hl, List.append_assoc]⟩⟩
  rw [hrest]

theorem foldl {α : Type} {f : Dev → α → Dev} {l : List α} (hf : ∀ d, ∀ x ∈ l, PartsStop d (f d x)) :
    ∀ d, PartsStop d (l.foldl f d) := by
  induction l with
  | nil => exact fun d => refl d
  | cons x l ih =>
    exact fun d => (hf d x List.mem_cons_self).trans (ih (fun d y hy => hf d y (List.mem_cons_of_mem x hy)) (f d x))

theorem frame (h : PartsStop d d') : d'.tmp = d.tmp ∧ d'.tempo = d.tempo ∧ d'.mem = d.mem ∧ d'.pruneDue = d.pruneDue ∧
    d'.resetN = d.resetN ∧ d'.vin = d.vin := by
  have hrest := h.rest
  and_intros <;> rw [hrest]

theorem period (h : PartsStop d d') : d'.period = d.period :=
  congrArg (fld 10 0) (h.reg ⟨.tmpPeriod, []⟩ (fun p hp => by simp [Reg.addr, RK.row]; omega) (by simp [Reg.addr, RK.row]))

theorem raises (h : PartsStop d d') {code : Nat} (hr : Raises d code) : Raises d' code := by
  obtain ⟨x, hx, hcode⟩ := hr
  obtain ⟨l, hl⟩ := h.raised
  exact ⟨x, by rw [hl]; exact List.mem_append_left l hx, hcode⟩

end PartsStop

section
variable (d : Dev)

theorem partsStop_coreHalt (c : Nat) : PartsStop d (d.coreHalt c) := ⟨rfl, fun _ _ _ => rfl, ⟨[], (List.append_nil _).symm⟩⟩

theorem partsStop_onPart (p : Nat) (f : Part → Part) : PartsStop d (d.onPart p f) :=
  ⟨rfl, fun _ _ _ => rfl, ⟨[], (List.append_nil _).symm⟩⟩

theorem partsStop_dmCtrl {p : Nat} (hp : p < 4) (hi lo v : Nat) : PartsStop d (d.setRegFld ⟨.tmpDmCtrl, [p]⟩ hi lo v) :=
  ⟨rfl, fun _ hr _ => reg_setRegFld_ne _ (hr p hp) _ _ _, ⟨[], (List.append_nil _).symm⟩⟩

theorem partsStop_tmpEvent (hi lo v : Nat) : PartsStop d (d.setRegFld ⟨.tmpEvent, []⟩ hi lo v) :=
  ⟨rfl, fun _ _ he => reg_setRegFld_ne _ he _ _ _, ⟨[], (List.append_nil _).symm⟩⟩

theorem partsStop_raise (code : Nat) (part : Option Nat) (unit : Nat) : PartsStop d (d.raise code part unit) :=
  ⟨rfl, fun _ _ _ => rfl, ⟨_, rfl⟩⟩

theorem partsStop_stopPart {p : Nat} (hp : p < 4) : PartsStop d (d.stopPart p) := by
  unfold Dev.stopPart
  split
  · exact ((partsStop_onPart d p _).trans (partsStop_dmCtrl _ hp _ _ _)).trans
      (PartsStop.foldl (fun d c _ => partsStop_coreHalt d c) _)
  · exact ((partsStop_onPart d p _).trans (partsStop_dmCtrl _ hp _ _ _)).trans
      (PartsStop.foldl (fun d c _ => partsStop_coreHalt d c) _)
  · exact PartsStop.refl d

theorem partsStop_periodCheck {p : Nat} (hp : p < 4) : PartsStop d (d.periodCheck p) := by
  have hstop : ∀ d : Dev, PartsStop d (((d.setRegFld ⟨.tmpEvent, []⟩ 6 6 1).raise 0x0107 (some p) p).stopPart p) := fun d =>
    ((partsStop_tmpEvent d _ _ _).trans (partsStop_raise _ _ _ _)).trans (partsStop_stopPart _ hp)
  unfold Dev.periodCheck
  split
  · split
    · exact hstop d
    · exact PartsStop.refl d
  · split
    · exact hstop d
    · exact PartsStop.refl d
  · exact PartsStop.refl d

/-- What follows on a new period's register. -/
theorem partsStop_adopt (us : Nat) : PartsStop (d.setRegFld ⟨.tmpPeriod, []⟩ 10 0 us)
    ((upTo 4).foldl (fun d p => d.periodCheck p) (d.setRegFld ⟨.tmpPeriod, []⟩ 10 0 us)) :=
  PartsStop.foldl (fun d _ hp => partsStop_periodCheck d (List.mem_range.1 hp)) _

/-- Adopting a period changes neither the time base nor the Tempo number. -/
theorem adoptPeriod_frame (us : Nat) : (d.adoptPeriod us).tmp = d.tmp ∧ (d.adoptPeriod us).tempo = d.tempo ∧
    (d.adoptPeriod us).pruneDue = d.pruneDue ∧ (d.adoptPeriod us).resetN = d.resetN ∧ (d.adoptPeriod us).vin = d.vin := by
  unfold Dev.adoptPeriod
  split
  · exact ⟨rfl, rfl, rfl, rfl, rfl⟩
  · obtain ⟨htmp, htempo, -, hdue, hreset, hvin⟩ := (partsStop_adopt d us).frame
    exact ⟨htmp, htempo, hdue, hreset, hvin⟩

/-- It puts the period into force. -/
theorem adoptPeriod_period {us : Nat} (hus : us < 2048) : (d.adoptPeriod us).period = us := by
  unfold Dev.adoptPeriod
  split
  · next h => exact h.symm
  · rw [(partsStop_adopt d us).period, Dev.period, Dev.regFld, reg_setRegFld_self, fld_setFld_self _ _ (by decide)]
    exact Nat.mod_eq_of_lt hus

theorem adoptPeriod_raises (us : Nat) {code : Nat} (h : Raises d code) : Raises (d.adoptPeriod us) code := by
  unfold Dev.adoptPeriod
  split
  · exact h
  · exact (partsStop_adopt d us).raises h

theorem partsStop_timeStep : PartsStop (d.tmpEvent 4 0x0105) d.timeStep :=
  PartsStop.foldl (fun d _ hp => partsStop_stopPart d (List.mem_range.1 hp)) _

end

/-! ## A synchronisation message (R36, R42, R47, R48) -/

/-- The time base after a follower has taken a message. -/
def TempoUnit.noted (y : TempoUnit) (q : Nat) (m : SyncMsg) (made : Bool) : TempoUnit :=
  { y with
    heard := true, missed := 0, off := m.arrival - m.edge - m.corr, king := some (m.king, m.prio), hops := m.hops, parent := some q
    next := if made then 0 else m.next, at_ := if made then 0 else m.at_, count := 0, resumed := false, first := false
    cands := y.cands.remove m.king }

/-- Message m leaves on port q. -/
def Dev.syncTo (m : SyncMsg) (d : Dev) (q : Nat) : Dev :=
  (d.portSend q 0x08 [m.tempo, m.king, m.prio, m.period, m.next, m.at_, m.hops, (Config.freeWord d.fresh).toNat]).tick

theorem sendSync_eq (d : Dev) (from_ : Option Nat) (m : SyncMsg) :
    d.sendSync from_ m = (d.trainedPorts.filter (fun q => from_ ≠ some q)).foldl (Dev.syncTo m) d := rfl

theorem mem_trainedPorts_lt {d : Dev} {q : Nat} (h : q ∈ d.trainedPorts) : q < 24 := List.mem_range.1 (List.mem_filter.1 h).1

theorem foldl_syncTo_outs (m : SyncMsg) (l : List Nat) : ∀ d : Dev, (∀ o ∈ d.outs, o ∈ (l.foldl (Dev.syncTo m) d).outs) ∧
    ∀ p ∈ l, ∃ corr, Out.sent 0x08 [p, m.tempo, m.king, m.prio, m.period, m.next, m.at_, m.hops, corr] ∈
      (l.foldl (Dev.syncTo m) d).outs := by
  induction l with
  | nil => exact fun d => ⟨fun _ h => h, nofun⟩
  | cons q l ih =>
    intro d
    obtain ⟨hkeep, hsent⟩ := ih (d.syncTo m q)
    have houts : (d.syncTo m q).outs = d.outs ++ [.sent 0x08 [q, m.tempo, m.king, m.prio, m.period, m.next, m.at_, m.hops,
      (Config.freeWord d.fresh).toNat]] := outs_portSend d q 0x08 _
    refine ⟨fun o ho => hkeep o (by rw [houts]; exact List.mem_append_left _ ho), fun p hp => ?_⟩
    rcases List.mem_cons.1 hp with rfl | hp
    · exact ⟨_, hkeep _ (by rw [houts]; exact List.mem_append_right _ (List.mem_singleton.2 rfl))⟩
    · exact hsent p hp

theorem heard_sendSync (d : Dev) (from_ : Option Nat) (m : SyncMsg) : Heard d (d.sendSync from_ m) :=
  Heard.foldl (f := Dev.syncTo m) (fun d _ hq => (heard_portSend d (mem_trainedPorts_lt (List.mem_filter.1 hq).1) _ _).trans
    (heard_tick _)) d

/-- A synchronisation message that is passed on leaves on every other port. -/
theorem sendSync_sends {d : Dev} {q p : Nat} (m : SyncMsg) (hp : p ∈ d.trainedPorts) (hne : p ≠ q) : ∃ corr,
    Out.sent 0x08 [p, m.tempo, m.king, m.prio, m.period, m.next, m.at_, m.hops, corr] ∈ (d.sendSync (some q) m).outs :=
  (foldl_syncTo_outs m _ d).2 p (List.mem_filter.2 ⟨hp, by simpa using Ne.symm hne⟩)

section
variable {d : Dev} {q : Nat} {m : SyncMsg}

/-- A message of the king in use, by which the follower steps to no other time. -/
theorem syncTake_steady (hacq : d.tmp.acq = .coarse ∨ d.tmp.acq = .fine ∨ d.tmp.acq = .locked) {p : Nat}
    (hking : d.tmp.king = some (m.king, p))
    (hstep : ¬ (tempoAt m m.arrival ≠ d.tempo ∨ 32000 < (m.arrival - m.edge - m.corr).natAbs)) :
    d.syncTake q m =
      ((if d.periodTaken m then
        (d.onTmp (fun y => y.noted q m (decide (m.at_ ≤ m.tempo) && decide (m.next = d.period)))).adoptPeriod m.period
      else d.onTmp (fun y => y.noted q m (decide (m.at_ ≤ m.tempo) && decide (m.next = d.period)))).sendSync (some q)
        { m with hops := m.hops + 1 }) := by
  have hstep' : (decide (tempoAt m m.arrival ≠ d.tempo) || decide (32000 < (m.arrival - m.edge - m.corr).natAbs)) = false := by
    rw [Bool.or_eq_false_iff, decide_eq_false_iff_not, decide_eq_false_iff_not]
    exact not_or.1 hstep
  have hid : d.tmp.kingId = m.king := by rw [TempoUnit.kingId, hking]
  have hnot : d.tmp.acq ≠ .king ∧ d.tmp.acq ≠ .free ∧ d.tmp.acq ≠ .holdover := by
    rcases hacq with h | h | h <;> rw [h] <;> decide
  obtain ⟨hk, hf, hh⟩ := hnot
  unfold Dev.syncTake
  dsimp only
  rw [hstep', hid, decide_eq_false hk, decide_eq_false hf, if_neg hk, if_neg hh, decide_eq_false (fun h : m.king ≠ m.king => h rfl)]
  simp only [Bool.or_self, Bool.and_false, Bool.false_and, Bool.false_or, if_neg Bool.false_ne_true]
  rfl

/-- A message by which the follower steps. -/
theorem syncTake_step (hacq : d.tmp.acq ≠ .king)
    (hstep : tempoAt m m.arrival ≠ d.tempo ∨ 32000 < (m.arrival - m.edge - m.corr).natAbs) :
    ∃ made, d.syncTake q m =
      ((((({ d.acqEnter .coarse with tempo := tempoAt m (m.edge + m.corr) } : Dev).timeStep).onTmp
        (fun y => y.noted q m made)).adoptPeriod m.period).sendSync (some q) { m with hops := m.hops + 1 }) := by
  have hstep' : (decide (tempoAt m m.arrival ≠ d.tempo) || decide (32000 < (m.arrival - m.edge - m.corr).natAbs)) = true := by
    rw [Bool.or_eq_true_iff, decide_eq_true_iff, decide_eq_true_iff]
    exact hstep
  refine ⟨decide (m.at_ ≤ m.tempo) && decide (m.next =
    (({ d.acqEnter .coarse with tempo := tempoAt m (m.edge + m.corr) } : Dev).timeStep).period), ?_⟩
  unfold Dev.syncTake
  dsimp only
  rw [hstep', if_neg hacq]
  simp only [Bool.or_true, Bool.true_or, if_true]
  rfl

end

theorem syncHeard_taken {d : Dev} {q : Nat} {m : SyncMsg} (hhops : m.hops ≤ 96) (hacq : d.tmp.acq ≠ .king) {p : Nat}
    (hking : d.tmp.king = some (m.king, p)) (hpin : d.regFld ⟨.tmpRole, []⟩ 18 18 = 0) (hparent : d.tmp.parent = some q) :
    d.syncHeard q m = d.syncTake q m := by
  have hfrom : d.fromParent q m.hops = true := by
    have hfree : ¬ d.regFld ⟨.tmpRole, []⟩ 18 18 = 1 := fun h => absurd (hpin.symm.trans h) (by decide)
    unfold Dev.fromParent
    refine (if_neg hfree).trans ?_
    rw [hparent]
    simp
  have htaken : d.kingTaken m = true := by
    unfold Dev.kingTaken
    rw [hking]
    simp
  unfold Dev.syncHeard
  rw [if_neg (not_lt.2 hhops), if_neg hacq, hfrom, htaken]
  rfl

section
variable {s : State} {q : PortId} {m : SyncMsg}

/-- A message of the king in use that comes by the parent port is taken. -/
theorem syncReceive_taken (hport : q.val ∈ s.dev.trainedPorts) (hstage : 5 ≤ s.dev.sec.stage) (hhops : m.hops ≤ 96)
    (hacq : s.dev.tmp.acq ≠ .king) {p : Nat} (hking : s.dev.tmp.king = some (m.king, p))
    (hpin : s.dev.regFld ⟨.tmpRole, []⟩ 18 18 = 0) (hparent : s.dev.tmp.parent = some q.val) :
    ∃ d, Heard s.dev.silent d ∧ s.dev.silent.syncReceive q.val m = d.syncTake q.val m := by
  have hheard := heard_portHear s.dev.silent (mem_trainedPorts_lt hport) 0x08
    [m.tempo, m.king, m.prio, m.period, m.next, m.at_, m.hops, m.corr]
  have hgo : ¬ (s.dev.silent.sec.stage < 5 ∨ ¬ s.dev.silent.trainedPorts.contains q.val = true) := by
    rw [not_or, not_not, List.contains_iff_mem]
    exact ⟨not_lt.2 hstage, hport⟩
  have heq : s.dev.silent.syncReceive q.val m = (s.dev.silent.portHear q.val 0x08
      [m.tempo, m.king, m.prio, m.period, m.next, m.at_, m.hops, m.corr]).syncHeard q.val m := if_neg hgo
  rw [heq]
  generalize s.dev.silent.portHear q.val 0x08 _ = d at *
  obtain ⟨htmp, -⟩ := hheard.frame
  have htmp' : d.tmp = s.dev.tmp := htmp
  exact ⟨d, hheard, syncHeard_taken hhops (by rw [htmp']; exact hacq) (by rw [htmp']; exact hking) ((hheard.role 18 18).trans hpin)
    (by rw [htmp']; exact hparent)⟩

/-- A message that is noted and passed on: the time base, the Tempo number and what else stands. -/
theorem sendSync_noted {d d1 : Dev} (made : Bool) (hheard : Heard d d1) :
    let d2 := (d1.onTmp (fun y => y.noted q.val m made)).sendSync (some q.val) { m with hops := m.hops + 1 }
    d2.tmp = d.tmp.noted q.val m made ∧ d2.tempo = d.tempo ∧ (Quiet d → d2.regs = d.regs ∧ d2.raised = d.raised) ∧ Calm d d2 ∧
    (∀ p ∈ d.trainedPorts, p ≠ q.val → ∃ corr,
      Out.sent 0x08 [p, m.tempo, m.king, m.prio, m.period, m.next, m.at_, m.hops + 1, corr] ∈ d2.outs) ∧
    d2.pruneDue = d.pruneDue ∧ d2.resetN = d.resetN ∧ d2.vin = d.vin := by
  intro d2
  have hnote : (d1.onTmp (fun y => y.noted q.val m made)).tmp = d1.tmp.noted q.val m made := rfl
  have hkept : Calm d1 (d1.onTmp (fun y => y.noted q.val m made)) := ⟨rfl, rfl, rfl, rfl, rfl, rfl, rfl, rfl, rfl⟩
  have hsent := heard_sendSync (d1.onTmp (fun y => y.noted q.val m made)) (some q.val) { m with hops := m.hops + 1 }
  obtain ⟨htmp, htempo, hports, hplls, hpwr, -, -, hdue, hreset, hvin⟩ := hheard.frame
  obtain ⟨htmp', htempo', -, -, -, -, -, hdue', hreset', hvin'⟩ := hsent.frame
  refine ⟨?_, htempo'.trans htempo, fun hq => ?_, calm_trans hheard.calm (calm_trans hkept hsent.calm), fun p hp hne => ?_,
    hdue'.trans hdue, hreset'.trans hreset, hvin'.trans hvin⟩
  · rw [htmp', hnote, htmp]
  · obtain ⟨hregs, hraised⟩ := hheard.quiet hq
    obtain ⟨hregs', hraised'⟩ := hsent.quiet (quiet_congr (d := d) hregs hq)
    exact ⟨hregs'.trans hregs, hraised'.trans hraised⟩
  · have htrained : (d1.onTmp (fun y => y.noted q.val m made)).trainedPorts = d.trainedPorts :=
      (trainedPorts_congr rfl rfl rfl).trans hheard.trainedPorts
    exact sendSync_sends (d := d1.onTmp (fun y => y.noted q.val m made)) { m with hops := m.hops + 1 } (by rw [htrained]; exact hp) hne

/-- A message of the period in force keeps a steady follower in its state. -/
theorem completes_syncSteady (hacts : Acts s) (hport : q.val ∈ s.dev.trainedPorts) (hstage : 5 ≤ s.dev.sec.stage) (hhops : m.hops ≤ 96)
    (hacq : s.dev.tmp.acq = .coarse ∨ s.dev.tmp.acq = .fine ∨ s.dev.tmp.acq = .locked) {p : Nat}
    (hking : s.dev.tmp.king = some (m.king, p)) (hpin : s.dev.regFld ⟨.tmpRole, []⟩ 18 18 = 0) (hparent : s.dev.tmp.parent = some q.val)
    (hstep : ¬ (tempoAt m m.arrival ≠ s.dev.tempo ∨ 32000 < (m.arrival - m.edge - m.corr).natAbs)) (hperiod : m.period = s.dev.period) :
    Completes (.syncReceive q m) s (fun d =>
      d.tmp = s.dev.tmp.noted q.val m (decide (m.at_ ≤ m.tempo) && decide (m.next = s.dev.period)) ∧ d.tempo = s.dev.tempo ∧
      (Quiet s.dev → d.regs = s.dev.regs ∧ d.raised = s.dev.raised) ∧ Calm s.dev d ∧
      ∀ p ∈ s.dev.trainedPorts, p ≠ q.val → ∃ corr,
        Out.sent 0x08 [p, m.tempo, m.king, m.prio, m.period, m.next, m.at_, m.hops + 1, corr] ∈ d.outs) := by
  obtain ⟨d, hheard, heq⟩ := syncReceive_taken hport hstage hhops (by rcases hacq with h | h | h <;> rw [h] <;> decide) hking hpin hparent
  obtain ⟨htmp, htempo, -⟩ := hheard.frame
  have htmp' : d.tmp = s.dev.tmp := htmp
  have htempo' : d.tempo = s.dev.tempo := htempo
  have hper : d.period = s.dev.period := hheard.period
  have hnone : d.periodTaken m = false := by
    unfold Dev.periodTaken
    rw [hper, decide_eq_false (not_not.2 hperiod)]
    simp
  rw [syncTake_steady (by rw [htmp']; exact hacq) (by rw [htmp']; exact hking) (by rw [htempo']; exact hstep), hnone,
    if_neg Bool.false_ne_true, hper] at heq
  obtain ⟨h1, h2, h3, h4, h5, hdue, hpins⟩ := sendSync_noted (q := q) (m := m)
    (decide (m.at_ ≤ m.tempo) && decide (m.next = s.dev.period)) hheard
  generalize Dev.sendSync _ _ _ = d2 at *
  exact completes_as hacts (exec_syncReceive q m s) heq hdue hpins ⟨h1, h2, h3, h4, h5⟩

/-- A message that names another period for this Tempo or a coming one gives it. -/
theorem completes_syncPeriod (hacts : Acts s) (hport : q.val ∈ s.dev.trainedPorts) (hstage : 5 ≤ s.dev.sec.stage) (hhops : m.hops ≤ 96)
    (hacq : s.dev.tmp.acq = .coarse ∨ s.dev.tmp.acq = .fine ∨ s.dev.tmp.acq = .locked) {p : Nat}
    (hking : s.dev.tmp.king = some (m.king, p)) (hpin : s.dev.regFld ⟨.tmpRole, []⟩ 18 18 = 0) (hparent : s.dev.tmp.parent = some q.val)
    (hstep : ¬ (tempoAt m m.arrival ≠ s.dev.tempo ∨ 32000 < (m.arrival - m.edge - m.corr).natAbs)) (hperiod : m.period ≠ s.dev.period)
    (hrange : m.period < 2048) (hnext : m.period ≠ s.dev.tmp.next) (hcoming : s.dev.tempo ≤ m.tempo) :
    Completes (.syncReceive q m) s (fun d => d.period = m.period ∧ d.tempo = s.dev.tempo ∧ d.tmp.acq = s.dev.tmp.acq ∧
      d.tmp.off = m.arrival - m.edge - m.corr) := by
  obtain ⟨d, hheard, heq⟩ := syncReceive_taken hport hstage hhops (by rcases hacq with h | h | h <;> rw [h] <;> decide) hking hpin hparent
  obtain ⟨htmp, htempo, -, -, -, -, -, hdue, hreset, hvin⟩ := hheard.frame
  have htmp' : d.tmp = s.dev.tmp := htmp
  have htempo' : d.tempo = s.dev.tempo := htempo
  have hper : d.period = s.dev.period := hheard.period
  have htaken : d.periodTaken m = true := by
    unfold Dev.periodTaken
    rw [hper, htmp', htempo', decide_eq_true hcoming, decide_eq_true hperiod, decide_eq_true (Ne.symm hnext)]
    rfl
  rw [syncTake_steady (by rw [htmp']; exact hacq) (by rw [htmp']; exact hking) (by rw [htempo']; exact hstep), htaken, if_pos rfl] at heq
  generalize (decide (m.at_ ≤ m.tempo) && decide (m.next = d.period)) = made at heq
  have hnote : (d.onTmp (fun y => y.noted q.val m made)).tmp = d.tmp.noted q.val m made := rfl
  have hnote' : (d.onTmp (fun y => y.noted q.val m made)).tempo = d.tempo ∧
    (d.onTmp (fun y => y.noted q.val m made)).pruneDue = d.pruneDue := ⟨rfl, rfl⟩
  have hpins := onTmp_pins d (fun y => y.noted q.val m made)
  generalize d.onTmp (fun y => y.noted q.val m made) = d1 at *
  have hadopt := adoptPeriod_period d1 hrange
  obtain ⟨hatmp, hatempo, hadue, hareset, havin⟩ := adoptPeriod_frame d1 m.period
  have hsent := heard_sendSync (d1.adoptPeriod m.period) (some q.val) { m with hops := m.hops + 1 }
  obtain ⟨hstmp, hstempo, -, -, -, -, -, hsdue, hsreset, hsvin⟩ := hsent.frame
  have hsper := hsent.period
  generalize Dev.sendSync _ _ _ = d2 at *
  refine completes_as hacts (exec_syncReceive q m s) heq (hsdue.trans (hadue.trans (hnote'.2.trans hdue)))
    ⟨hsreset.trans (hareset.trans (hpins.1.trans hreset)), hsvin.trans (havin.trans (hpins.2.trans hvin))⟩
    ⟨hsper.trans hadopt, hstempo.trans (hatempo.trans (hnote'.1.trans htempo)), ?_, ?_⟩
  · rw [hstmp, hatmp, hnote, htmp']; rfl
  · rw [hstmp, hatmp, hnote]; rfl

/-- A message of another time makes the follower step. -/
theorem completes_syncStep (hacts : Acts s) (hport : q.val ∈ s.dev.trainedPorts) (hstage : 5 ≤ s.dev.sec.stage) (hhops : m.hops ≤ 96)
    (hacq : s.dev.tmp.acq = .coarse ∨ s.dev.tmp.acq = .fine ∨ s.dev.tmp.acq = .locked) {p : Nat}
    (hking : s.dev.tmp.king = some (m.king, p)) (hpin : s.dev.regFld ⟨.tmpRole, []⟩ 18 18 = 0) (hparent : s.dev.tmp.parent = some q.val)
    (hstep : tempoAt m m.arrival ≠ s.dev.tempo ∨ 32000 < (m.arrival - m.edge - m.corr).natAbs) :
    Completes (.syncReceive q m) s (fun d => d.tempo = tempoAt m (m.edge + m.corr) ∧ d.tmp.acq = .coarse ∧
      d.tmp.off = m.arrival - m.edge - m.corr ∧ Raises d 0x0105) := by
  have hnot : s.dev.tmp.acq ≠ .king := by rcases hacq with h | h | h <;> rw [h] <;> decide
  obtain ⟨d, hheard, heq⟩ := syncReceive_taken hport hstage hhops hnot hking hpin hparent
  obtain ⟨htmp, htempo, -, -, -, -, -, hdue, hreset, hvin⟩ := hheard.frame
  have htmp' : d.tmp = s.dev.tmp := htmp
  have htempo' : d.tempo = s.dev.tempo := htempo
  obtain ⟨made, htake⟩ := syncTake_step (q := q.val) (by rw [htmp']; exact hnot) (by rw [htempo']; exact hstep)
  rw [htake] at heq
  have henter : (d.acqEnter .coarse).tmp.acq = .coarse ∧ (d.acqEnter .coarse).pruneDue = d.pruneDue := ⟨rfl, rfl⟩
  have hepins : (d.acqEnter .coarse).resetN = d.resetN ∧ (d.acqEnter .coarse).vin = d.vin := onTmp_pins _ _
  generalize d.acqEnter .coarse = d1 at *
  obtain ⟨heacq, hedue⟩ := henter
  have hstop := partsStop_timeStep ({ d1 with tempo := tempoAt m (m.edge + m.corr) } : Dev)
  have hraises := hstop.raises (raises_raise _ 0x0105 none 0)
  obtain ⟨htmp2, htempo2, -, hdue2, hreset2, hvin2⟩ := hstop.frame
  generalize Dev.timeStep _ = d2 at *
  have hacq2 : d2.tmp.acq = .coarse := by rw [htmp2]; exact heacq
  have htempo3 : d2.tempo = tempoAt m (m.edge + m.corr) := htempo2
  have hdue3 : d2.pruneDue = s.dev.pruneDue := hdue2.trans (hedue.trans hdue)
  have hpins3 : d2.resetN = s.dev.resetN ∧ d2.vin = s.dev.vin := ⟨hreset2.trans (hepins.1.trans hreset), hvin2.trans (hepins.2.trans hvin)⟩
  have hnote : (d2.onTmp (fun y => y.noted q.val m made)).tmp = d2.tmp.noted q.val m made ∧
      (d2.onTmp (fun y => y.noted q.val m made)).tempo = d2.tempo ∧ (d2.onTmp (fun y => y.noted q.val m made)).raised = d2.raised ∧
      (d2.onTmp (fun y => y.noted q.val m made)).pruneDue = d2.pruneDue := ⟨rfl, rfl, rfl, rfl⟩
  have hpins4 := onTmp_pins d2 (fun y => y.noted q.val m made)
  generalize d2.onTmp (fun y => y.noted q.val m made) = d3 at *
  obtain ⟨hntmp, hntempo, hnraised, hndue⟩ := hnote
  have hraises3 : Raises d3 0x0105 := by
    unfold Raises at *
    rwa [hnraised]
  obtain ⟨hatmp, hatempo, hadue, hareset, havin⟩ := adoptPeriod_frame d3 m.period
  have haraises := adoptPeriod_raises d3 m.period hraises3
  have hsent := heard_sendSync (d3.adoptPeriod m.period) (some q.val) { m with hops := m.hops + 1 }
  have hsraises := hsent.raises haraises
  obtain ⟨hstmp, hstempo, -, -, -, -, -, hsdue, hsreset, hsvin⟩ := hsent.frame
  generalize Dev.sendSync _ _ _ = d4 at *
  refine completes_as hacts (exec_syncReceive q m s) heq (hsdue.trans (hadue.trans (hndue.trans hdue3)))
    ⟨hsreset.trans (hareset.trans (hpins4.1.trans hpins3.1)), hsvin.trans (havin.trans (hpins4.2.trans hpins3.2))⟩
    ⟨hstempo.trans (hatempo.trans (hntempo.trans htempo3)), ?_, ?_, hsraises⟩
  · rw [hstmp, hatmp, hntmp]; exact hacq2
  · rw [hstmp, hatmp, hntmp]; rfl

end

/-! ## Delays and announcements (R40, R41, R43) -/

section
variable {s : State} {q : PortId}

/-- A port over which messages pass measures its delay. -/
theorem mem_delayPorts {d : Dev} {q : Nat} (h : q ∈ d.trainedPorts) : q ∈ d.delayPorts := by
  unfold Dev.trainedPorts at h
  unfold Dev.delayPorts
  obtain ⟨hq, hruns⟩ := List.mem_filter.1 h
  obtain ⟨hclock, hst⟩ := of_decide_eq_true hruns
  refine List.mem_filter.2 ⟨hq, ?_⟩
  rcases hst with hst | hst <;> simp [hclock, hst]

theorem completes_delayReq (hacts : Acts s) (hport : q.val ∈ s.dev.trainedPorts) (t1 t2 t3 : Nat) :
    Completes (.delayReqReceive q t1 t2 t3) s (fun d => d.outs = [.sent 0x0A [q.val, t1, t2, t3]] ∧ d.tmp = s.dev.tmp ∧
      d.tempo = s.dev.tempo ∧ (Quiet s.dev → d.regs = s.dev.regs ∧ d.raised = s.dev.raised) ∧ Calm s.dev d) := by
  have hq := mem_trainedPorts_lt hport
  have heq : s.dev.silent.delayReq q.val t1 t2 t3 =
      (s.dev.silent.portHear q.val 0x09 [(t1 : Int)]).portSend q.val 0x0A [t1, t2, t3] :=
    if_pos (List.contains_iff_mem.2 (mem_delayPorts hport))
  have hheard := (heard_portHear s.dev.silent hq 0x09 [(t1 : Int)]).trans (heard_portSend _ hq 0x0A [t1, t2, t3])
  have houts : ((s.dev.silent.portHear q.val 0x09 [(t1 : Int)]).portSend q.val 0x0A [t1, t2, t3]).outs =
      [.sent 0x0A [q.val, t1, t2, t3]] := by
    rw [outs_portSend, Dev.portHear, outs_cvuPacket]
    rfl
  generalize (s.dev.silent.portHear q.val 0x09 [(t1 : Int)]).portSend q.val 0x0A [t1, t2, t3] = d at *
  obtain ⟨htmp, htempo, -, -, -, -, -, hdue, hpins⟩ := hheard.frame
  exact completes_as hacts (exec_delayReqReceive q t1 t2 t3 s) heq hdue hpins ⟨houts, htmp, htempo, hheard.quiet, hheard.calm⟩

/-- The announcement of a free candidate leaves on every port. -/
theorem foldl_announce (l : List Nat) (hl : ∀ q ∈ l, q < 24) : ∀ d : Dev,
    Heard d (l.foldl (fun d q => d.portSend q 0x0B [d.prio, d.ownId]) d) ∧
    (l.foldl (fun (d : Dev) q => d.portSend q 0x0B [d.prio, d.ownId]) d).outs = d.outs ++ l.map (fun p => Out.sent 0x0B [p, d.prio, d.ownId]) := by
  induction l with
  | nil => exact fun d => ⟨Heard.refl d, (List.append_nil _).symm⟩
  | cons q l ih =>
    intro d
    have hheard := heard_portSend d (hl q List.mem_cons_self) 0x0B [d.prio, d.ownId]
    obtain ⟨h, houts⟩ := ih (fun p hp => hl p (List.mem_cons_of_mem q hp)) (d.portSend q 0x0B [d.prio, d.ownId])
    refine ⟨hheard.trans h, ?_⟩
    rw [List.foldl_cons, houts, outs_portSend, hheard.prio, hheard.ownId, List.append_assoc]
    rfl

theorem completes_announceSend (hacts : Acts s) (hstage : 5 ≤ s.dev.sec.stage) (hcand : s.dev.candidate = true)
    (hfree : s.dev.tmp.acq = .free) :
    Completes .announceSend s (fun d => d.outs = s.dev.trainedPorts.map (fun p => Out.sent 0x0B [p, s.dev.prio, s.dev.ownId]) ∧
      d.tmp = { s.dev.tmp with count := s.dev.tmp.count + 1 } ∧ d.tempo = s.dev.tempo ∧
      (Quiet s.dev → d.regs = s.dev.regs ∧ d.raised = s.dev.raised) ∧ Calm s.dev d) := by
  have heq : s.dev.silent.announceSend = (s.dev.silent.trainedPorts.foldl (fun d q => d.portSend q 0x0B [d.prio, d.ownId])
      s.dev.silent).onTmp (fun x => { x with count := x.count + 1 }) := if_pos ⟨hstage, hcand, Or.inl hfree⟩
  obtain ⟨hheard, houts⟩ := foldl_announce s.dev.silent.trainedPorts (fun q hq => mem_trainedPorts_lt hq) s.dev.silent
  generalize List.foldl _ s.dev.silent s.dev.silent.trainedPorts = d at *
  obtain ⟨htmp, htempo, -, -, -, -, -, hdue, hreset, hvin⟩ := hheard.frame
  have hpins := onTmp_pins d (fun x => { x with count := x.count + 1 })
  have hkept : Calm d (d.onTmp (fun x => { x with count := x.count + 1 })) := ⟨rfl, rfl, rfl, rfl, rfl, rfl, rfl, rfl, rfl⟩
  refine completes_as hacts (exec_announceSend s) heq hdue ⟨hpins.1.trans hreset, hpins.2.trans hvin⟩
    ⟨houts, ?_, htempo, hheard.quiet, calm_trans hheard.calm hkept⟩
  exact congrArg (fun x : TempoUnit => { x with count := x.count + 1 }) htmp

theorem completes_announceReceive (hacts : Acts s) (hport : q.val ∈ s.dev.trainedPorts) {prio : Fin 256} {id : Fin 262144}
    (hprio : prio.val < 255) (hid : id.val ≠ s.dev.ownId) (hking : s.dev.tmp.king.map Prod.fst ≠ some id.val) :
    Completes (.announceReceive q prio id) s (fun d =>
      FMap.find? d.tmp.cands id.val = some prio.val ∧
      (∀ k, k ≠ id.val → FMap.find? d.tmp.cands k = FMap.find? s.dev.tmp.cands k) ∧
      d.tmp.count = (if prio.val < s.dev.prio ∨ (prio.val = s.dev.prio ∧ id.val < s.dev.ownId) then 0 else s.dev.tmp.count) ∧
      d.tmp.acq = s.dev.tmp.acq ∧ (Quiet s.dev → d.regs = s.dev.regs ∧ d.raised = s.dev.raised) ∧ Calm s.dev d) := by
  have heq : s.dev.silent.announceReceive q.val prio.val id.val =
      (s.dev.silent.portHear q.val 0x0B [(prio.val : Int), (id.val : Int)]).announceHeard prio.val id.val :=
    if_pos (List.contains_iff_mem.2 hport)
  have hheard := heard_portHear s.dev.silent (mem_trainedPorts_lt hport) 0x0B [(prio.val : Int), (id.val : Int)]
  generalize s.dev.silent.portHear q.val 0x0B [(prio.val : Int), (id.val : Int)] = d at *
  obtain ⟨htmp, -, -, -, -, -, -, hdue, hreset, hvin⟩ := hheard.frame
  have htmp' : d.tmp = s.dev.tmp := htmp
  have hown : d.ownId = s.dev.ownId := hheard.ownId
  have hprio' : d.prio = s.dev.prio := hheard.prio
  have hhear : d.announceHeard prio.val id.val = d.onTmp (fun x => { x with
      cands := if some id.val = x.king.map Prod.fst then x.cands else FMap.insert x.cands id.val prio.val
      count := if better prio.val id.val d.prio d.ownId then 0 else x.count }) := by
    refine if_pos ⟨hprio, ?_⟩
    rw [hown]
    exact hid
  rw [hhear] at heq
  have hpins := onTmp_pins d (fun x => { x with
      cands := if some id.val = x.king.map Prod.fst then x.cands else FMap.insert x.cands id.val prio.val
      count := if better prio.val id.val d.prio d.ownId then 0 else x.count })
  have hnot : ¬ some id.val = s.dev.tmp.king.map Prod.fst := fun h => hking h.symm
  refine completes_as hacts (exec_announceReceive q prio id s) heq hdue ⟨hpins.1.trans hreset, hpins.2.trans hvin⟩
    ⟨?_, fun k hk => ?_, ?_, ?_, hheard.quiet,
      calm_trans hheard.calm ⟨rfl, rfl, rfl, rfl, rfl, rfl, rfl, rfl, rfl⟩⟩
  · change FMap.find? (if some id.val = d.tmp.king.map Prod.fst then d.tmp.cands else FMap.insert d.tmp.cands id.val prio.val) id.val = _
    rw [htmp', if_neg hnot, FMap.find?_insert, if_pos rfl]
  · change FMap.find? (if some id.val = d.tmp.king.map Prod.fst then d.tmp.cands else FMap.insert d.tmp.cands id.val prio.val) k = _
    rw [htmp', if_neg hnot, FMap.find?_insert, if_neg (Ne.symm hk)]
  · change (if better prio.val id.val d.prio d.ownId = true then 0 else d.tmp.count) = _
    rw [htmp', hown, hprio']
    simp [better]
  · change d.tmp.acq = s.dev.tmp.acq
    rw [htmp']

/-- The register of a port's delay after a response. -/
theorem delayWord_fields (x : Word) {v n : Nat} (hv : v < 2 ^ 32) :
    fld 31 0 (setFld 63 63 (if n = 16 then 1 else 0) (setFld 31 0 v x)) = v ∧
    fld 47 32 (setFld 63 63 (if n = 16 then 1 else 0) (setFld 31 0 v x)) = fld 47 32 x ∧
    ((setFld 63 63 (if n = 16 then 1 else 0) (setFld 31 0 v x)).getLsbD 63 = true ↔ n = 16) := by
  refine ⟨?_, ?_, ?_⟩
  · rw [fld_setFld_other _ _ (by decide), fld_setFld_self _ _ (by decide)]
    exact Nat.mod_eq_of_lt hv
  · rw [fld_setFld_other _ _ (by decide), fld_setFld_other _ _ (by decide)]
  · rw [setFld_getLsbD, if_pos (by decide)]
    split <;> simp_all

theorem completes_delayResp (hacts : Acts s) (hport : q.val ∈ s.dev.trainedPorts) (t1 t2 t3 t4 : Int) :
    let r : Reg := ⟨.tmpPortDelay, [q.val]⟩
    let v := ((t4 - t1) - (t3 - t2)) * 125 + 8 * sext 16 (s.dev.regFld r 47 32)
    let l := (v :: (s.dev.port q.val).delays).take 16
    Completes (.delayRespReceive q t1 t2 t3 t4) s (fun d =>
      (d.port q.val).delays = l ∧ d.regFld r 31 0 = (l.sum / (8 * l.length) % 2 ^ 32).toNat ∧
      d.regFld r 47 32 = s.dev.regFld r 47 32 ∧ ((d.reg r).getLsbD 63 = true ↔ l.length = 16) ∧
      d.tmp = s.dev.tmp ∧ d.mem = s.dev.mem ∧ d.cores = s.dev.cores) := by
  intro r v l
  have heq : s.dev.silent.delayResp q.val t1 t2 t3 t4 =
      (((s.dev.silent.portHear q.val 0x0A [t1, t2, t3]).onPort q.val (fun x => { x with delays := l })).setRegFld r 31 0
        (low 32 (l.sum / (8 * l.length)))).setRegFld r 63 63 (if l.length = 16 then 1 else 0) :=
    if_pos (List.contains_iff_mem.2 (mem_delayPorts hport))
  have hheard := heard_portHear s.dev.silent (mem_trainedPorts_lt hport) 0x0A [t1, t2, t3]
  generalize s.dev.silent.portHear q.val 0x0A [t1, t2, t3] = d at *
  obtain ⟨htmp, -, -, -, -, -, -, hdue, hreset, hvin⟩ := hheard.frame
  obtain ⟨hmem, hcores, -⟩ := hheard.calm
  have hreg : d.reg r = s.dev.reg r := hheard.reg r fun p hp => by
    have hq := q.isLt
    simp [r, Reg.addr, RK.row]
    omega
  have hword : ((((d.onPort q.val (fun x => { x with delays := l })).setRegFld r 31 0
      (low 32 (l.sum / (8 * l.length)))).setRegFld r 63 63 (if l.length = 16 then 1 else 0)).reg r) =
      setFld 63 63 (if l.length = 16 then 1 else 0) (setFld 31 0 (low 32 (l.sum / (8 * l.length))) (s.dev.reg r)) := by
    rw [reg_setRegFld_self, reg_setRegFld_self, ← hreg]
    rfl
  have hlow : low 32 (l.sum / (8 * l.length)) < 2 ^ 32 := by
    unfold low
    have := Int.emod_lt_of_pos (l.sum / (8 * l.length)) (show (0 : Int) < 2 ^ 32 by decide)
    have := Int.emod_nonneg (l.sum / (8 * l.length)) (show (2 ^ 32 : Int) ≠ 0 by decide)
    omega
  obtain ⟨hmean, hkeep, hbit⟩ := delayWord_fields (s.dev.reg r) (n := l.length) hlow
  have hdelays : (((((d.onPort q.val (fun x => { x with delays := l })).setRegFld r 31 0
      (low 32 (l.sum / (8 * l.length)))).setRegFld r 63 63 (if l.length = 16 then 1 else 0)).port q.val).delays) = l := by
    have hport : (d.onPort q.val (fun x => { x with delays := l })).port q.val = { d.port q.val with delays := l } :=
      (Dev.onPort_get _ _ _ _).trans (if_pos rfl)
    exact congrArg Port.delays hport
  rw [← hword] at hmean hkeep hbit
  exact completes_as hacts (exec_delayRespReceive q t1 t2 t3 t4 s) heq hdue ⟨hreset, hvin⟩
    ⟨hdelays, hmean, hkeep, hbit, htmp, hmem, hcores⟩

end

/-- Settles O34: what a follower takes from a message, what it answers, and what it announces. -/
theorem timeMessages : Obligations.TimeMessages := by
  intro q s hacts hport x still
  refine ⟨fun m hstage hhops hacq hking hpin hparent => ?_, ?_, ?_, ?_, ?_⟩
  · obtain ⟨p, hking⟩ := hking
    intro off step
    refine ⟨fun hstep hperiod => ?_, fun hstep hperiod hrange hnext hcoming => ?_, fun hstep => ?_⟩
    · obtain ⟨t, hexec, hpending, htmp, htempo, hstill, hcalm, hsent⟩ :=
        completes_syncSteady hacts hport hstage hhops hacq hking hpin hparent hstep hperiod
      refine ⟨t, hexec, hpending, ?_⟩
      beta_reduce
      rw [htmp]
      refine ⟨rfl, rfl, rfl, rfl, rfl, rfl, htempo, hstill, hcalm, ⟨?_, ?_⟩, hsent⟩
      · simp [TempoUnit.noted]
      · simp [TempoUnit.noted]
    · exact completes_syncPeriod hacts hport hstage hhops hacq hking hpin hparent hstep hperiod hrange hnext hcoming
    · exact completes_syncStep hacts hport hstage hhops hacq hking hpin hparent hstep
  · exact fun t1 t2 t3 => completes_delayReq hacts hport t1 t2 t3
  · exact fun t1 t2 t3 t4 => completes_delayResp hacts hport t1 t2 t3 t4
  · exact fun hstage hcand hfree => completes_announceSend hacts hstage hcand hfree
  · exact fun prio id hprio hid hking => completes_announceReceive hacts hport hprio hid hking

end Sys2Proof.Machine
end

section
/-! SUPPORT. Proof of the statement about the edges of the Tempo (R37, R39, R49, R50, R58). -/
namespace Sys2Proof.Machine

open Safety

/-! ## The seal (R49) -/

/-- The staged sets, the time base, the stall, the pending prunes and the pins stand as they are. -/
structure SetsKept (d d' : Dev) : Prop where
  sets : d'.sets = d.sets
  tempo : d'.tempo = d.tempo
  tmp : d'.tmp = d.tmp
  stalling : d'.stalling = d.stalling
  due : d'.pruneDue = d.pruneDue
  pins : d'.resetN = d.resetN ∧ d'.vin = d.vin

namespace SetsKept

variable {d d' d'' : Dev}

theorem refl (d : Dev) : SetsKept d d := ⟨rfl, rfl, rfl, rfl, rfl, rfl, rfl⟩

theorem trans (h : SetsKept d d') (h' : SetsKept d' d'') : SetsKept d d'' :=
  ⟨h'.sets.trans h.sets, h'.tempo.trans h.tempo, h'.tmp.trans h.tmp, h'.stalling.trans h.stalling, h'.due.trans h.due,
    h'.pins.1.trans h.pins.1, h'.pins.2.trans h.pins.2⟩

theorem foldl {α : Type} {f : Dev → α → Dev} {l : List α} (hf : ∀ d x, SetsKept d (f d x)) : ∀ d, SetsKept d (l.foldl f d) := by
  induction l with
  | nil => exact fun d => refl d
  | cons x l ih => exact fun d => (hf d x).trans (ih (f d x))

end SetsKept

theorem setsKept_powerSeal (d : Dev) (m : Measure) : SetsKept d (d.powerSeal m) := by
  unfold Dev.powerSeal
  dsimp only
  split
  · exact SetsKept.refl d
  · exact SetsKept.trans (d' := { d with
      watts := min m.watts 0xFFFF, wattsPeak := max d.wattsPeak (min m.watts 0xFFFF), amps := m.amps })
      ⟨rfl, rfl, rfl, rfl, rfl, rfl, rfl⟩ (SetsKept.foldl (fun d t => (⟨rfl, rfl, rfl, rfl, rfl, rfl, rfl⟩ : SetsKept d (d.capSeal m t))) _)

section
variable (d : Dev)

theorem setsKept_castleSeal (e : Nat) : SetsKept d (d.castleSeal e) :=
  SetsKept.foldl (f := fun d p => d.onPart p _) (fun _ _ => ⟨rfl, rfl, rfl, rfl, rfl, rfl, rfl⟩) d

theorem setsKept_faultsSeal : SetsKept d d.faultsSeal := ⟨rfl, rfl, rfl, rfl, rfl, rfl, rfl⟩

theorem setsKept_sramSeal : SetsKept d d.sramSeal := ⟨rfl, rfl, rfl, rfl, rfl, rfl, rfl⟩

theorem setsKept_hbmSeal : SetsKept d ((upTo 4).foldl (fun (d : Dev) t => d.onHbm t HbmTile.seal) d) :=
  SetsKept.foldl (f := fun d t => d.onHbm t HbmTile.seal) (fun _ _ => ⟨rfl, rfl, rfl, rfl, rfl, rfl, rfl⟩) d

theorem setsKept_pkgs (m : FMap NeaPkg) : SetsKept d { d with pkgs := m } := ⟨rfl, rfl, rfl, rfl, rfl, rfl, rfl⟩

theorem setsKept_dvoSeal : SetsKept d d.dvoSeal := ⟨rfl, rfl, rfl, rfl, rfl, rfl, rfl⟩

theorem setsKept_peSeal : SetsKept d d.peSeal := ⟨rfl, rfl, rfl, rfl, rfl, rfl, rfl⟩

theorem setsKept_spareSeal : SetsKept d d.spareSeal := ⟨rfl, rfl, rfl, rfl, rfl, rfl, rfl⟩

theorem setsKept_redSeal (e : Nat) : SetsKept d (d.redSeal e) := ⟨rfl, rfl, rfl, rfl, rfl, rfl, rfl⟩

end

/-- The device after the seal, its sets checked. -/
theorem setsKept_tempoSeal {d : Dev} (m : Measure) (hstage : 5 ≤ d.sec.stage) (hopen : d.stalling = false) :
    ∃ x, SetsKept (({ d with stalling := true } : Dev).setsSeal d.nextEdge) x ∧ d.tempoSeal m = { x with stalling := true } := by
  have hgo : ¬ (d.sec.stage < 5 ∨ d.stalling = true) := by
    rintro (h | h)
    · exact absurd hstage (Nat.not_le.2 h)
    · exact Bool.false_ne_true (hopen.symm.trans h)
  unfold Dev.tempoSeal
  rw [if_neg hgo]
  refine ⟨_, ?_, rfl⟩
  exact ((((((((setsKept_castleSeal _ _).trans (setsKept_powerSeal _ m)).trans (setsKept_faultsSeal _)).trans
    (setsKept_sramSeal _)).trans (setsKept_hbmSeal _)).trans (setsKept_pkgs _ _)).trans (setsKept_dvoSeal _)).trans
    (setsKept_peSeal _)).trans ((setsKept_spareSeal _).trans (setsKept_redSeal _ _))

/-- The checker gives exactly the due sets a verdict; no set's writes change. -/
theorem set_setsSeal (d : Dev) (e : Nat) {k : Nat} (hk : k < 5) :
    ((d.setsSeal e).set_ k).writes = (d.set_ k).writes ∧
    (((d.setsSeal e).set_ k).verdict.isSome = true ↔ d.setDue k e = true) := by
  unfold Dev.setsSeal
  dsimp only
  simp only [List.foldl_cons, List.foldl_nil, Dev.onSet_get]
  have hcases : k = 0 ∨ k = 1 ∨ k = 2 ∨ k = 3 ∨ k = 4 := by omega
  rcases hcases with rfl | rfl | rfl | rfl | rfl <;> refine ⟨rfl, ?_⟩ <;> simp

/-- The checker changes the five sets. -/
theorem setsSeal_eq (d : Dev) (e : Nat) : ∃ f0 f1 f2 f3 f4,
    d.setsSeal e = ((((d.onSet 0 f0).onSet 1 f1).onSet 2 f2).onSet 3 f3).onSet 4 f4 := by
  unfold Dev.setsSeal
  dsimp only
  simp only [List.foldl_cons, List.foldl_nil]
  exact ⟨_, _, _, _, _, rfl⟩

theorem setsSeal_frame (d : Dev) (e : Nat) : (d.setsSeal e).tempo = d.tempo ∧ (d.setsSeal e).tmp = d.tmp ∧
    (d.setsSeal e).pruneDue = d.pruneDue ∧ (d.setsSeal e).resetN = d.resetN ∧ (d.setsSeal e).vin = d.vin := by
  obtain ⟨f0, f1, f2, f3, f4, heq⟩ := setsSeal_eq d e
  rw [heq]
  simp only [Dev.onSet_frame, and_self]

theorem tempoSeal_facts {d : Dev} (m : Measure) (hstage : 5 ≤ d.sec.stage) (hopen : d.stalling = false) :
    (d.tempoSeal m).pruneDue = d.pruneDue ∧ ((d.tempoSeal m).resetN = d.resetN ∧ (d.tempoSeal m).vin = d.vin) ∧
    (d.tempoSeal m).stalling = true ∧ (d.tempoSeal m).tempo = d.tempo ∧ (d.tempoSeal m).tmp = d.tmp ∧
    ∀ k, k < 5 → ((d.tempoSeal m).set_ k).writes = (d.set_ k).writes ∧
      (((d.tempoSeal m).set_ k).verdict.isSome = true ↔ d.setDue k d.nextEdge = true) := by
  obtain ⟨x, hkept, hx⟩ := setsKept_tempoSeal m hstage hopen
  obtain ⟨htempo, htmp, hdue, hreset, hvin⟩ := setsSeal_frame ({ d with stalling := true } : Dev) d.nextEdge
  have hset : ∀ k, ({ x with stalling := true } : Dev).set_ k = (({ d with stalling := true } : Dev).setsSeal d.nextEdge).set_ k := by
    intro k
    unfold Dev.set_
    rw [← hkept.sets]
  rw [hx]
  refine ⟨hkept.due.trans hdue, ⟨hkept.pins.1.trans hreset, hkept.pins.2.trans hvin⟩, rfl, hkept.tempo.trans htempo,
    hkept.tmp.trans htmp, fun k hk => ?_⟩
  rw [hset]
  exact set_setsSeal _ _ hk

theorem completes_tempoSeal {s : State} (hacts : Acts s) (m : Measure) (hstage : 5 ≤ s.dev.sec.stage) (hopen : s.dev.stalling = false) :
    Completes (.tempoSeal m) s (fun d =>
      d.stalling = true ∧ d.tempo = s.dev.tempo ∧ d.tmp = s.dev.tmp ∧
      ∀ k, k < 5 → (d.set_ k).writes = (s.dev.set_ k).writes ∧
        ((d.set_ k).verdict.isSome = true ↔ s.dev.setDue k s.dev.nextEdge = true)) := by
  obtain ⟨hdue, hpins, hP⟩ := tempoSeal_facts (d := s.dev.silent) m hstage hopen
  exact completes_as hacts (exec_tempoSeal m s) rfl hdue hpins hP

/-! ## The sample (R58) -/

/-- The core that a sample at edge e records as the first of partition p that does not wait. -/
def Dev.missOf (d : Dev) (e p : Nat) : Option Nat :=
  (((d.partCores p).filter d.inService).filter (fun c => d.domainDown p || !d.coreWaits c e)).head?.map
    (fun c => c - (d.partCores p).headD 0)

/-- The waits of partition p that are reached in time are marked. -/
def Dev.sampleWaits (e : Nat) (d : Dev) (p : Nat) : Dev :=
  ((d.partCores p).filter d.inService).foldl (fun (d : Dev) c => if d.coreWaits c e then d.onSq c (fun q => q.onTimeAt e) else d) d

/-- What DEADLINE_SAMPLE does to partition p. -/
def Dev.samplePart (e : Nat) (d : Dev) (p : Nat) : Dev :=
  (d.sampleWaits e p).onPart p (fun x => { x with miss := d.missOf e p })

theorem deadlineSample_eq (d : Dev) : d.deadlineSample = (upTo (shapeParts d.shape)).foldl (Dev.samplePart d.nextEdge) d := rfl

/-- Some Tempo waits are marked as reached in time; every core waits or not as before. -/
structure Marked (d d' : Dev) : Prop where
  rest : d' = { d with cores := d'.cores }
  waits : ∀ c e, d'.coreWaits c e = d.coreWaits c e

theorem Marked.refl (d : Dev) : Marked d d := ⟨rfl, fun _ _ => rfl⟩

theorem Marked.trans {d d' d'' : Dev} (h : Marked d d') (h' : Marked d' d'') : Marked d d'' := by
  refine ⟨h'.rest.trans ?_, fun c e => (h'.waits c e).trans (h.waits c e)⟩
  rw [h.rest]

theorem Marked.foldl {α : Type} {f : Dev → α → Dev} {l : List α} (hf : ∀ d x, Marked d (f d x)) : ∀ d, Marked d (l.foldl f d) := by
  induction l with
  | nil => exact fun d => Marked.refl d
  | cons x l ih => exact fun d => (hf d x).trans (ih (f d x))

theorem onTimeAt_cases (q : Sq) (e : Nat) : q.onTimeAt e = q ∨
    ∃ target mask b imp, q.wait = .tempo target mask b imp ∧ q.onTimeAt e = { q with wait := .tempo target mask true imp } := by
  unfold Sq.onTimeAt
  split
  · next target mask b imp hw =>
    split
    · exact .inr ⟨target, mask, b, imp, hw, rfl⟩
    · exact .inl rfl
  · exact .inl rfl

theorem marked_onTimeAt (d : Dev) (c e : Nat) : Marked d (d.onSq c (fun q => q.onTimeAt e)) := by
  refine ⟨rfl, fun j e' => ?_⟩
  unfold Dev.coreWaits
  by_cases hj : c = j
  · subst hj
    rw [Dev.onSq_get, if_pos rfl]
    rcases onTimeAt_cases (d.core c).sq e with hsame | ⟨target, mask, b, imp, hw, hmark⟩
    · rw [hsame]
      rfl
    · simp only [hmark, hw, Core.twaitReached]
      cases (d.core c).sq.st <;> rfl
  · rw [Dev.onSq_get, if_neg hj]
    rfl

theorem marked_sampleWaits (d : Dev) (e p : Nat) : Marked d (d.sampleWaits e p) := by
  refine Marked.foldl (fun d c => ?_) d
  split
  · exact marked_onTimeAt d c e
  · exact Marked.refl d

/-- A sample marks waits and notes misses. -/
structure Sampled (d d' : Dev) : Prop where
  rest : d' = { d with cores := d'.cores, parts := d'.parts }
  waits : ∀ c e, d'.coreWaits c e = d.coreWaits c e
  st : ∀ p, (d'.part p).st = (d.part p).st

theorem domainDown_sampled {d d' : Dev} (h : Sampled d d') (p : Nat) : d'.domainDown p = d.domainDown p := by
  have howned : d'.ownedParts = d.ownedParts := by
    have hshape : d'.shape = d.shape := by rw [h.rest]; rfl
    unfold Dev.ownedParts
    simp only [h.st, hshape]
  have htrain : d'.training = d.training := by rw [h.rest]; rfl
  have htile : d'.tilePart = d.tilePart := by rw [h.rest]; rfl
  have hlost : d'.lost = d.lost := by rw [h.rest]; rfl
  unfold Dev.domainDown Dev.pllParts
  rw [howned, htrain, htile, hlost]

theorem missOf_congr {d d' : Dev} (h : Sampled d d') (e p : Nat) : d'.missOf e p = d.missOf e p := by
  have hwaits := h.waits
  have hcores : d'.partCores p = d.partCores p := by rw [h.rest]; rfl
  have hserve : d'.inService = d.inService := by rw [h.rest]; rfl
  have hdown := domainDown_sampled h p
  unfold Dev.missOf
  simp only [hwaits, hcores, hserve, hdown]

theorem sampled_samplePart (d : Dev) (e p : Nat) : Sampled d (d.samplePart e p) ∧
    ((d.samplePart e p).part p).miss = d.missOf e p ∧ ∀ q, q ≠ p → (d.samplePart e p).part q = d.part q := by
  obtain ⟨hrest, hwaits⟩ := marked_sampleWaits d e p
  have hpart : ∀ q, (d.sampleWaits e p).part q = d.part q := fun q => by rw [hrest]; rfl
  unfold Dev.samplePart
  refine ⟨⟨?_, fun c e' => hwaits c e', fun q => ?_⟩, ?_, fun q hq => ?_⟩
  · unfold Dev.onPart
    rw [hrest]
  · rw [Dev.onPart_get, hpart, hpart]
    split
    · next h => rw [← h]
    · rfl
  · rw [Dev.onPart_get, if_pos rfl]
  · rw [Dev.onPart_get, if_neg (Ne.symm hq), hpart]

theorem sampled_rest {d d' d'' : Dev} (h : d' = { d with cores := d'.cores, parts := d'.parts })
    (h' : d'' = { d' with cores := d''.cores, parts := d''.parts }) : d'' = { d with cores := d''.cores, parts := d''.parts } := by
  refine h'.trans ?_
  rw [h]

theorem sampled_foldl (e : Nat) (l : List Nat) (hl : l.Nodup) : ∀ d : Dev, Sampled d (l.foldl (Dev.samplePart e) d) ∧
    (∀ p ∈ l, ((l.foldl (Dev.samplePart e) d).part p).miss = d.missOf e p) ∧
    ∀ p, p ∉ l → (l.foldl (Dev.samplePart e) d).part p = d.part p := by
  induction l with
  | nil => exact fun d => ⟨⟨rfl, fun _ _ => rfl, fun _ => rfl⟩, nofun, fun _ _ => rfl⟩
  | cons p l ih =>
    intro d
    obtain ⟨hnot, hl⟩ := List.nodup_cons.1 hl
    obtain ⟨hone, hmiss, hkeep⟩ := sampled_samplePart d e p
    obtain ⟨hmany, hmisses, hkeeps⟩ := ih hl (d.samplePart e p)
    refine ⟨⟨?_, fun c e' => (hmany.waits c e').trans (hone.waits c e'), fun q => (hmany.st q).trans (hone.st q)⟩, fun q hq => ?_,
      fun q hq => ?_⟩
    · exact sampled_rest hone.rest hmany.rest
    · rcases List.mem_cons.1 hq with rfl | hq
      · exact (congrArg Part.miss (hkeeps q hnot)).trans hmiss
      · exact (hmisses q hq).trans (missOf_congr hone e q)
    · obtain ⟨hne, hq⟩ := not_or.1 (fun h => hq (List.mem_cons.2 h))
      exact (hkeeps q hq).trans (hkeep q hne)

theorem completes_deadlineSample {s : State} (hacts : Acts s) : Completes .deadlineSample s (fun d =>
    (∀ p, p < shapeParts s.dev.shape → (d.part p).st = (s.dev.part p).st ∧ (d.part p).miss =
      (((s.dev.partCores p).filter s.dev.inService).find? (fun c => s.dev.domainDown p || !s.dev.coreWaits c s.dev.nextEdge)).map
        (fun c => c - (s.dev.partCores p).headD 0)) ∧
    d.tempo = s.dev.tempo ∧ d.mem = s.dev.mem ∧ d.regs = s.dev.regs ∧ d.raised = s.dev.raised) := by
  obtain ⟨⟨hrest, -, hst⟩, hmiss, -⟩ := sampled_foldl s.dev.nextEdge (upTo (shapeParts s.dev.shape)) List.nodup_range s.dev.silent
  generalize hd : (upTo (shapeParts s.dev.shape)).foldl (Dev.samplePart s.dev.nextEdge) s.dev.silent = d at hrest hst hmiss
  refine completes_as hacts (exec_deadlineSample s) hd (by rw [hrest]; rfl) ⟨by rw [hrest]; rfl, by rw [hrest]; rfl⟩
    ⟨fun p hp => ⟨hst p, ?_⟩, by rw [hrest]; rfl, by rw [hrest]; rfl, by rw [hrest]; rfl, by rw [hrest]; rfl⟩
  rw [hmiss p (List.mem_range.2 hp), ← List.head?_filter]
  rfl

/-! ## The edge (R37) -/

theorem completes_tempoEdge {s : State} (hacts : Acts s) (hstage : 5 ≤ s.dev.sec.stage) (hseal : s.dev.stalling = true) :
    Completes .tempoEdge s (fun d => d.tempo = if s.dev.tmp.first = true then 0 else s.dev.tempo + 1) := by
  refine ⟨_, (exec_tempoEdge s).trans (run_live s _ hacts.1), rfl, ?_⟩
  have hgo : ¬ (s.dev.silent.sec.stage < 5 ∨ ¬ s.dev.silent.stalling = true) := by
    rintro (h | h)
    · exact absurd hstage (Nat.not_le.2 h)
    · exact h hseal
  have htempo : s.dev.silent.tempoEdge.tempo = s.dev.nextEdge := by
    unfold Dev.tempoEdge
    rw [if_neg hgo]
    rfl
  exact htempo

/-! ## A new period (R39) -/

theorem part_coreHalts (p : Nat) (l : List Nat) : ∀ d : Dev, (l.foldl (fun d c => d.coreHalt c) d).part p = d.part p := by
  induction l with
  | nil => exact fun _ => rfl
  | cons c l ih => exact fun d => (ih (d.coreHalt c)).trans rfl

theorem stopPart_other (d : Dev) {p q : Nat} (h : q ≠ p) : (d.stopPart q).part p = d.part p := by
  have hother : ∀ f, ((d.onPart q f).setRegFld ⟨.tmpDmCtrl, [q]⟩ 9 8 2).part p = d.part p := fun f =>
    (Dev.onPart_get d q p f).trans (if_neg h)
  unfold Dev.stopPart
  split
  · exact (part_coreHalts p _ _).trans (hother _)
  · exact (part_coreHalts p _ _).trans (hother _)
  · rfl

theorem stopPart_running (d : Dev) {p : Nat} (h : (d.part p).st = .running) : ((d.stopPart p).part p).st = .halted := by
  have hself : ∀ f, ((d.onPart p f).setRegFld ⟨.tmpDmCtrl, [p]⟩ 9 8 2).part p = f (d.part p) := fun f =>
    (Dev.onPart_get d p p f).trans (if_pos rfl)
  unfold Dev.stopPart
  rw [h]
  dsimp only
  rw [part_coreHalts, hself]
  exact if_pos h

theorem periodCheck_other (d : Dev) {p q : Nat} (h : q ≠ p) : (d.periodCheck q).part p = d.part p := by
  unfold Dev.periodCheck
  split
  · split
    · exact stopPart_other _ h
    · rfl
  · split
    · exact stopPart_other _ h
    · rfl
  · rfl

/-- A running partition whose budget names another period stops with its event. -/
theorem periodCheck_running (d : Dev) {p : Nat} (hp : p < 4) (h : (d.part p).st = .running)
    (hbudget : d.regFld ⟨.tmpBudget, [p]⟩ 42 32 ≠ d.period) :
    ((d.periodCheck p).part p).st = .halted ∧ Raises (d.periodCheck p) 0x0107 := by
  unfold Dev.periodCheck
  rw [h]
  dsimp only
  rw [if_pos hbudget]
  exact ⟨stopPart_running _ h, (partsStop_stopPart _ hp).raises (raises_raise _ _ _ _)⟩

/-- Among the checks of several partitions, one of a running partition finds it as it was. -/
theorem periodChecks_stop {p : Nat} (hp : p < 4) : ∀ (l : List Nat), l.Nodup → (∀ q ∈ l, q < 4) → p ∈ l → ∀ d : Dev,
    (d.part p).st = .running → d.regFld ⟨.tmpBudget, [p]⟩ 42 32 ≠ d.period →
    ((l.foldl (fun d p => d.periodCheck p) d).part p).st = .halted ∧ Raises (l.foldl (fun d p => d.periodCheck p) d) 0x0107 := by
  have hkeep : ∀ (l : List Nat), p ∉ l → ∀ d : Dev, (l.foldl (fun d p => d.periodCheck p) d).part p = d.part p := by
    intro l
    induction l with
    | nil => exact fun _ _ => rfl
    | cons q l ih =>
      intro h d
      obtain ⟨hne, hnot⟩ := not_or.1 (fun h' => h (List.mem_cons.2 h'))
      exact (ih hnot _).trans (periodCheck_other d (Ne.symm hne))
  intro l
  induction l with
  | nil => nofun
  | cons q l ih =>
    intro hnodup hlt hmem d hrun hbudget
    obtain ⟨hnot, hnodup⟩ := List.nodup_cons.1 hnodup
    have hlts : ∀ x ∈ l, x < 4 := fun x hx => hlt x (List.mem_cons_of_mem q hx)
    have hfold : ∀ d : Dev, PartsStop d (l.foldl (fun d p => d.periodCheck p) d) := fun d =>
      PartsStop.foldl (fun d x hx => partsStop_periodCheck d (hlts x hx)) d
    by_cases hq : q = p
    · subst hq
      obtain ⟨hst, hraise⟩ := periodCheck_running d hp hrun hbudget
      exact ⟨(congrArg Part.st (hkeep l hnot _)).trans hst, (hfold _).raises hraise⟩
    · have hone := partsStop_periodCheck d (hlt q List.mem_cons_self)
      have hreg : (d.periodCheck q).regFld ⟨.tmpBudget, [p]⟩ 42 32 = d.regFld ⟨.tmpBudget, [p]⟩ 42 32 :=
        congrArg (fld 42 32) (hone.reg ⟨.tmpBudget, [p]⟩ (fun x hx => by simp [Reg.addr, RK.row]; omega)
          (by simp [Reg.addr, RK.row]; omega))
      have hin : p ∈ l := (List.mem_cons.1 hmem).resolve_left (Ne.symm hq)
      refine ih hnodup hlts hin (d.periodCheck q) ((congrArg Part.st (periodCheck_other d hq)).trans hrun) ?_
      rw [hreg, hone.period]
      exact hbudget

/-- A period that comes into force stops every running partition whose budget names another one. -/
theorem adoptPeriod_stops (d : Dev) {us p : Nat} (hus : us < 2048) (hp : p < 4) (hnew : d.period ≠ us)
    (hrun : (d.part p).st = .running) (hbudget : d.regFld ⟨.tmpBudget, [p]⟩ 42 32 ≠ us) :
    ((d.adoptPeriod us).part p).st = .halted ∧ Raises (d.adoptPeriod us) 0x0107 := by
  have hperiod : (d.setRegFld ⟨.tmpPeriod, []⟩ 10 0 us).period = us := by
    rw [Dev.period, Dev.regFld, reg_setRegFld_self, fld_setFld_self _ _ (by decide)]
    exact Nat.mod_eq_of_lt hus
  have hreg : (d.setRegFld ⟨.tmpPeriod, []⟩ 10 0 us).regFld ⟨.tmpBudget, [p]⟩ 42 32 = d.regFld ⟨.tmpBudget, [p]⟩ 42 32 :=
    congrArg (fld 42 32) (reg_setRegFld_ne d (by simp [Reg.addr, RK.row]; omega) _ _ _)
  unfold Dev.adoptPeriod
  rw [if_neg (Ne.symm hnew)]
  refine periodChecks_stop hp (upTo 4) List.nodup_range (fun q hq => List.mem_range.1 hq) (List.mem_range.2 hp) _ hrun ?_
  rw [hperiod, hreg]
  exact hbudget

theorem periodChange_due {d : Dev} (hnext : d.tmp.next ≠ 0) (hat : d.tmp.at_ ≤ d.tempo) :
    d.periodChange = (d.onTmp (fun x => { x with next := 0, at_ := 0 })).adoptPeriod d.tmp.next := if_pos ⟨hnext, hat⟩

theorem completes_periodChange {s : State} (hacts : Acts s) (us : Nat) (hus : us = s.dev.tmp.next) (hne : us ≠ 0) (hlt : us < 2048)
    (hat : s.dev.tmp.at_ ≤ s.dev.tempo) : Completes .periodChange s (fun d =>
      d.regFld ⟨.tmpPeriod, []⟩ 10 0 = us ∧ d.tmp = { s.dev.tmp with next := 0, at_ := 0 } ∧ d.tempo = s.dev.tempo ∧
      (∀ p, p < 4 → s.dev.period ≠ us → (s.dev.part p).st = .running →
        s.dev.regFld ⟨.tmpBudget, [p]⟩ 42 32 ≠ us → (d.part p).st = .halted ∧ Raises d 0x0107)) := by
  let x : Dev := s.dev.silent.onTmp (fun x => { x with next := 0, at_ := 0 })
  have heq : s.dev.silent.periodChange = x.adoptPeriod us := by
    rw [hus]
    exact periodChange_due (d := s.dev.silent) (hus ▸ hne) hat
  obtain ⟨htmp, htempo, hdue, hreset, hvin⟩ := adoptPeriod_frame x us
  refine completes_as hacts (exec_periodChange s) heq (hdue.trans rfl) ⟨hreset.trans rfl, hvin.trans rfl⟩
    ⟨adoptPeriod_period x hlt, htmp.trans rfl, htempo.trans rfl, fun p hp hnew hrun hbudget => ?_⟩
  exact adoptPeriod_stops x hlt hp hnew hrun hbudget

end Sys2Proof.Machine
end

section
/-! SUPPORT. Proof of the statements about writes to registers, staged fields and stalled writes (R13 to R17, R50, R54). -/
namespace Sys2Proof.Machine

open Safety

/-! ## Registers with staged fields -/

/-- The register kinds that have staged fields. -/
def stagedKinds : List RK :=
  [.tmpPeriod, .tmpDmCtrl, .dmaChRing, .dmaChCtrl, .prtShape, .prtRegHbm, .prtRegGrv, .prtRegDvo, .pwrTile, .hubRingBase, .hubRingCfg,
    .neaMirrorCfg, .neaCtxCommit, .neaCtxPeriod, .neaCtxSeed, .neaGrpCfg, .neaGrpHyp1, .neaGrpHyp2, .neaGrpHyp3, .neaKernel, .dvoCoord,
    .dvoLink, .dvoOvr, .dvoPortCfg, .dvoRedFirst, .dvoRedPeriod, .dvoRedKey]

theorem mem_stagedKinds {k : RK} (h : accMask [.rwt] k ≠ 0) : k ∈ stagedKinds := by
  revert h
  cases k <;> decide

theorem stagedKinds_masks : ∀ k ∈ stagedKinds,
    accMask [.w1c] k = 0 ∧ accMask [.rwl] k = 0 ∧ accMask [.rw] k &&& accMask [.rwt] k = 0 := by
  decide

theorem rwtMask_eq {d : Dev} {r : Reg} (h : d.rwtMask r ≠ 0) : d.rwtMask r = accMask [.rwt] r.k := by
  unfold Dev.rwtMask at *
  split
  · next hking => exact absurd (if_pos hking) h
  · rfl

theorem mem_stagedKinds_of_rwtMask {d : Dev} {r : Reg} (h : d.rwtMask r ≠ 0) : r.k ∈ stagedKinds :=
  mem_stagedKinds (rwtMask_eq h ▸ h)

/-- Of a kind with staged fields, the write of a register has no effect but that of its fields; DMA_CH_CTRL has ABORT too. -/
theorem regDo_staged {r : Reg} (h : r.k ∈ stagedKinds) (hne : r.k ≠ .dmaChCtrl) (d : Dev) (ag : Agent) (path : Nat) (m v : Word) :
    d.regDo ag path r m v = d.plainWrite r m v ag.owner := by
  obtain ⟨k, ix⟩ := r
  simp only [stagedKinds, List.mem_cons, List.not_mem_nil, or_false] at h
  rcases h with rfl | rfl | rfl | rfl | rfl | rfl | rfl | rfl | rfl | rfl | rfl | rfl | rfl | rfl | rfl | rfl | rfl | rfl | rfl | rfl |
    rfl | rfl | rfl | rfl | rfl | rfl | rfl
  case inr.inr.inr.inl => exact absurd rfl hne
  all_goals rfl

/-! ## What a write to staged fields leaves (R17, R54) -/

/-- A set after a write to the register at address a. -/
def StagedSet.take (x : StagedSet) (a : Nat) (w : StagedWrite) : StagedSet :=
  match FMap.find? x.writes a with
  | some o =>
    let n : StagedWrite := ⟨o.mask ||| w.mask, (o.val &&& ~~~w.mask) ||| (w.val &&& w.mask), w.owner⟩
    { x with writes := FMap.insert x.writes a n }
  | none =>
    let n : StagedWrite := ⟨w.mask, w.val &&& w.mask, w.owner⟩
    if 4096 ≤ x.writes.length then { x with excess := some (x.excess.getD a) }
    else { x with writes := FMap.insert x.writes a n }

theorem take_new {x : StagedSet} {a : Nat} (w : StagedWrite) (hnone : FMap.find? x.writes a = none) (hroom : x.writes.length < 4096) :
    (x.take a w).writes = FMap.insert x.writes a ⟨w.mask, w.val &&& w.mask, w.owner⟩ := by
  unfold StagedSet.take
  rw [hnone]
  dsimp only
  rw [if_neg (Nat.not_le.2 hroom)]

theorem take_over {x : StagedSet} {a : Nat} (w : StagedWrite) {o : StagedWrite} (hsome : FMap.find? x.writes a = some o) :
    (x.take a w).writes =
      FMap.insert x.writes a ⟨o.mask ||| w.mask, (o.val &&& ~~~w.mask) ||| (w.val &&& w.mask), w.owner⟩ := by
  unfold StagedSet.take
  rw [hsome]

/-- The device differs in its staged sets and the owners of its DMA channels alone. -/
theorem stage_eq (d : Dev) (r : Reg) (w : StagedWrite) :
    ∃ m, d.stage r w = { d.onSet (d.setOf r) (fun x => x.take r.addr w) with dma := m } := by
  unfold Dev.stage
  dsimp only
  split
  · exact ⟨_, rfl⟩
  · exact ⟨d.dma, rfl⟩

/-- A write to the staged fields of a register: which set takes it, and that nothing of the register is put into force but its other
writable bits. -/
structure TakesStaged (d d' : Dev) (r : Reg) (w : StagedWrite) : Prop where
  rest : ∃ m, d' = { d.onSet (d.setOf r) (fun x => x.take r.addr w) with dma := m, regs := d'.regs }
  reg : ∀ q : Reg, q.addr ≠ r.addr → d'.reg q = d.reg q
  staged : d'.reg r &&& accMask [.rwt] r.k = d.reg r &&& accMask [.rwt] r.k

theorem and_none (x : Word) : x &&& 0 = 0 := BitVec.and_zero

theorem mix_and_disjoint {old m v x : Word} (h : m &&& x = 0) : mix old m v &&& x = old &&& x := by
  have hbit : ∀ i (hi : i < 64), (m[i] && x[i]) = false := fun i hi => by
    have := congrArg (fun y : Word => y[i]) h
    simpa using this
  unfold mix
  ext i hi
  have := hbit i hi
  simp only [BitVec.getElem_and, BitVec.getElem_or, BitVec.getElem_not]
  cases hm : m[i] <;> cases hx : x[i] <;> simp_all

theorem plainWrite_staged {d : Dev} {r : Reg} {m : Word} (v : Word) (o : Nat) (hm : m &&& d.rwtMask r ≠ 0) :
    TakesStaged d (d.plainWrite r m v o) r ⟨m &&& d.rwtMask r, v, o⟩ := by
  have hk : r.k ∈ stagedKinds := mem_stagedKinds_of_rwtMask (fun h => hm (by rw [h, and_none]))
  obtain ⟨hw1c, hrwl, hdisjoint⟩ := stagedKinds_masks r.k hk
  obtain ⟨c, hstage⟩ := stage_eq d r ⟨m &&& d.rwtMask r, v, o⟩
  unfold Dev.plainWrite Dev.rwtWrite
  dsimp only
  rw [if_neg hm, hw1c, hrwl, and_none, and_none, if_pos rfl, if_pos rfl, hstage]
  split
  · exact ⟨⟨c, rfl⟩, fun _ _ => rfl, rfl⟩
  · refine ⟨⟨c, rfl⟩, fun q hq => Dev.setReg_ne _ _ _ _ (Ne.symm hq), ?_⟩
    rw [Dev.setReg_self]
    refine mix_and_disjoint ?_
    rw [BitVec.and_assoc, hdisjoint, and_none]

/-! ## Writes that reach their register -/

section
variable {s : State} {ag : Agent} {r : Reg}

/-- A register write that reaches a register is stored there. -/
theorem registerWrite_reaches (h : Reaches s ag r) {a n sh : Nat} {m : Word} (hplace : busPlace a n = some (r, m, sh)) (v : Word) :
    s.dev.silent.registerWrite ag a n v = s.dev.silent.regStore ag 0 r m (v <<< sh) := by
  obtain ⟨-, hclock, hmay, hbus, habsent, -⟩ := h
  have hopen : ∃ x, s.dev.silent.busRefuses ag.isHost r = (false, x) := ⟨_, Prod.ext hbus rfl⟩
  obtain ⟨x, hopen⟩ := hopen
  have habsent' : s.dev.silent.absent r = false := habsent
  have hbusWrite : s.dev.silent.busWrite ag 0 a n v = (true, s.dev.silent.regStore ag 0 r m (v <<< sh)) := by
    unfold Dev.busWrite
    rw [hplace]
    dsimp only
    rw [hopen]
    simp only [habsent', Bool.false_eq_true, if_false]
  have hlost : (ag.isHost && s.dev.silent.lost 33) = false := by
    cases hh : ag.isHost with
    | false => rfl
    | true => exact hclock hh
  have hat : regAt (a - a % 8) = some r := by
    unfold busPlace at hplace
    split at hplace
    · exact absurd hplace nofun
    · next q hq =>
      split at hplace
      · rw [hq, (Prod.mk.inj (Option.some.inj hplace)).1]
      · split at hplace
        · rw [hq, (Prod.mk.inj (Option.some.inj hplace)).1]
        · exact absurd hplace nofun
  unfold Dev.registerWrite
  dsimp only
  rw [hlost, hbusWrite]
  cases ag with
  | host => rfl
  | hart k => rfl
  | core c =>
    have hmay' : s.dev.silent.programMay c.val r true = true := hmay c rfl
    dsimp only
    rw [hat]
    dsimp only
    rw [if_pos hmay']
    rfl

/-- A stored write acts at once where no stall holds it. -/
theorem regStore_open (h : Reaches s ag r) {m : Word} (hopen : s.dev.stalling = false ∨ m &&& s.dev.rwtMask r = 0) (path : Nat) (v : Word) :
    s.dev.silent.regStore ag path r m v = s.dev.silent.regDo ag path r m v := by
  obtain ⟨-, -, -, -, -, hbehind⟩ := h
  refine if_neg ?_
  rintro (hb | ⟨hstall, hrwt⟩)
  · exact Bool.false_ne_true ((hbehind rfl).symm.trans hb)
  · rcases hopen with ho | ho
    · exact Bool.false_ne_true (ho.symm.trans hstall)
    · exact hrwt ho

/-- The seal of a Tempo holds a write that covers staged fields. -/
theorem regStore_stalls {m : Word} (hstall : s.dev.stalling = true) (hrwt : m &&& s.dev.rwtMask r ≠ 0) (path : Nat) (v : Word) :
    s.dev.silent.regStore ag path r m v = s.dev.silent.park (.write ag path r.addr m v) := if_pos (.inr ⟨hstall, hrwt⟩)

end

/-! ## Staged writes (R50, R54) -/

theorem busPlace_word {r : Reg} (halign : r.addr % 8 = 0) (hat : regAt r.addr = some r) :
    busPlace r.addr 8 = some (r, BitVec.allOnes 64, 0) := by
  unfold busPlace
  rw [halign, Nat.sub_zero, hat]
  rfl

theorem rwtBusWrite_reaches {s : State} {ag : Agent} {r : Reg} (h : Reaches s ag r) (halign : r.addr % 8 = 0)
    (hat : regAt r.addr = some r) (hrwt : s.dev.rwtMask r ≠ 0) (v : Word) :
    s.dev.silent.rwtBusWrite ag r.addr 8 v = s.dev.silent.regStore ag 0 r (BitVec.allOnes 64) v := by
  have hplace := busPlace_word halign hat
  have hmask : ¬ (accMask [.rwt] r.k &&& BitVec.allOnes 64 = 0) := by
    rw [BitVec.and_allOnes, ← rwtMask_eq hrwt]
    exact hrwt
  have hwrite := registerWrite_reaches h hplace v
  rw [BitVec.shiftLeft_zero] at hwrite
  unfold Dev.rwtBusWrite
  rw [hplace]
  dsimp only
  rw [if_neg hmask]
  exact hwrite

/-- A write to staged fields outside a stall is taken into its set. -/
theorem completes_rwtWrite {s : State} {ag : Agent} {r : Reg} {P : Dev → Prop} (h : Reaches s ag r) (halign : r.addr % 8 = 0)
    (hat : regAt r.addr = some r) (hrwt : s.dev.rwtMask r ≠ 0) (hne : r.k ≠ .dmaChCtrl) (v : Word) (hopen : s.dev.stalling = false)
    (hP : ∀ d, TakesStaged s.dev.silent d r ⟨s.dev.rwtMask r, v, ag.owner⟩ → P d) : Completes (.rwtWrite ag r.addr 8 v) s P := by
  have heq : s.dev.silent.rwtBusWrite ag r.addr 8 v = s.dev.silent.plainWrite r (BitVec.allOnes 64) v ag.owner := by
    rw [rwtBusWrite_reaches h halign hat hrwt, regStore_open h (.inl hopen), regDo_staged (mem_stagedKinds_of_rwtMask hrwt) hne]
  have htake := plainWrite_staged (d := s.dev.silent) (r := r) (m := BitVec.allOnes 64) v ag.owner
    (by rw [BitVec.allOnes_and]; exact hrwt)
  rw [BitVec.allOnes_and] at htake
  generalize s.dev.silent.plainWrite r (BitVec.allOnes 64) v ag.owner = d at heq htake
  obtain ⟨c, hrest⟩ := htake.rest
  exact completes_as h.1 (exec_rwtWrite ag r.addr 8 v s) heq (by rw [hrest]; rfl) ⟨by rw [hrest]; rfl, by rw [hrest]; rfl⟩ (hP d htake)

theorem set_takesStaged {d d' : Dev} {r : Reg} {w : StagedWrite} (h : TakesStaged d d' r w) (j : Nat) :
    d'.set_ j = if d.setOf r = j then (d.set_ (d.setOf r)).take r.addr w else d.set_ j := by
  obtain ⟨c, hrest⟩ := h.rest
  have hsets : d'.set_ j = (d.onSet (d.setOf r) (fun x => x.take r.addr w)).set_ j := by
    rw [hrest]
    rfl
  rw [hsets, Dev.onSet_get]

/-- The set of a register that a write finds without an earlier one, with room. -/
theorem find_takesStaged {d d' : Dev} {r : Reg} {w : StagedWrite} (h : TakesStaged d d' r w)
    (hnone : FMap.find? (d.set_ (d.setOf r)).writes r.addr = none) (hroom : (d.set_ (d.setOf r)).writes.length < 4096) :
    FMap.find? (d'.set_ (d.setOf r)).writes r.addr = some ⟨w.mask, w.val &&& w.mask, w.owner⟩ ∧
    ∀ a, a ≠ r.addr → FMap.find? (d'.set_ (d.setOf r)).writes a = FMap.find? (d.set_ (d.setOf r)).writes a := by
  rw [set_takesStaged h, if_pos rfl, take_new w hnone hroom]
  refine ⟨?_, fun a ha => ?_⟩
  · rw [FMap.find?_insert, if_pos rfl]
  · rw [FMap.find?_insert, if_neg (Ne.symm ha)]

/-- The set of a register that a write finds with an earlier one. -/
theorem find_takesStaged_over {d d' : Dev} {r : Reg} {w o : StagedWrite} (h : TakesStaged d d' r w)
    (hsome : FMap.find? (d.set_ (d.setOf r)).writes r.addr = some o) :
    FMap.find? (d'.set_ (d.setOf r)).writes r.addr =
      some ⟨o.mask ||| w.mask, (o.val &&& ~~~w.mask) ||| (w.val &&& w.mask), w.owner⟩ := by
  rw [set_takesStaged h, if_pos rfl, take_over w hsome, FMap.find?_insert, if_pos rfl]

/-- The DISCARD of a set. -/
theorem regDo_discard (d : Dev) (ag : Agent) (k : Nat) :
    d.regDo ag 0 ⟨.tmpStageCtrl, [k]⟩ (BitVec.allOnes 64) 1 = d.stageDiscard ag k := rfl

/-- Settles O36: a write that reaches its register outside a stall goes through `plainWrite` of a kind with staged fields, whose set takes
it over what it held; inside a stall it parks; DISCARD empties its set or parks. -/
theorem stagedWrites : Obligations.StagedWrites := by
  unfold Obligations.StagedWrites
  refine ⟨fun ag r v s hreach halign hat => ?_, fun k s hhost => ⟨fun hopen => ?_, fun hstall => ?_⟩⟩
  · intro m k hrwt hne
    refine ⟨fun hstall => ?_, fun hopen hnone hroom => ?_, fun o hopen hsome => ?_⟩
    · have heq := (rwtBusWrite_reaches hreach halign hat hrwt v).trans
        (regStore_stalls hstall (by rw [BitVec.allOnes_and]; exact hrwt) 0 v)
      exact completes_as hreach.1 (exec_rwtWrite ag r.addr 8 v s) heq rfl ⟨rfl, rfl⟩ ⟨rfl, rfl, rfl, rfl, rfl⟩
    · refine completes_rwtWrite hreach halign hat hrwt hne v hopen fun d htake => ?_
      obtain ⟨hnew, hkept⟩ := find_takesStaged htake hnone hroom
      obtain ⟨c, hrest⟩ := htake.rest
      refine ⟨hnew, hkept, fun j hj => ?_, by rw [hrest]; rfl, by rw [hrest]; rfl, ?_⟩
      · exact (set_takesStaged htake j).trans (if_neg (Ne.symm hj))
      · have hstaged := htake.staged
        rwa [← rwtMask_eq hrwt] at hstaged
    · refine completes_rwtWrite hreach halign hat hrwt hne v hopen fun d htake => ?_
      exact find_takesStaged_over htake hsome
  · have heq : s.dev.silent.ctrlWrite .host ⟨.tmpStageCtrl, [k.val]⟩ 1 = s.dev.silent.setEmpty k.val := by
      rw [ctrlWrite_reaches (HostReaches.reaches hhost) (.inl hopen), regDo_discard]
      exact if_neg (fun h => Bool.false_ne_true (hopen.symm.trans h))
    refine completes_as hhost.1 (exec_stageDiscard k s) heq rfl ⟨rfl, rfl⟩ ⟨?_, fun j hj => ?_, rfl, ⟨rfl, rfl, rfl, rfl, rfl, rfl, rfl, rfl, rfl⟩⟩
    · exact (Dev.onSet_get _ _ _ _).trans (if_pos rfl)
    · exact (Dev.onSet_get _ _ _ _).trans (if_neg (Ne.symm hj))
  · have heq : s.dev.silent.ctrlWrite .host ⟨.tmpStageCtrl, [k.val]⟩ 1 = s.dev.silent.park (.discard .host k.val) := by
      rw [ctrlWrite_reaches (HostReaches.reaches hhost) (.inr rfl), regDo_discard]
      exact if_pos hstall
    exact completes_as hhost.1 (exec_stageDiscard k s) heq rfl ⟨rfl, rfl⟩ rfl

/-! ## Registers without further effects (R13 to R15) -/

/-- The register kinds of `PlainKind`. -/
def plainKinds : List RK :=
  [.tmpRole, .tmpPortDelay, .tmpEvent, .tmpStageTarget, .tmpBudget, .tmpBudgetFb, .veSolveTol, .spdCfg, .grvCfg,
    .spdEccInject, .grvEccInject, .dmaWinBase, .dmaWinCfg, .dmaInwinBase, .cvuFeedAddr, .prtCastleAt, .prtLoad,
    .prtLoadLen, .prtHandover, .prtResume, .hbmCfg, .neaCtxArea, .neaCtxImportRing, .dvoRedCfg, .dvoRedScale,
    .dvoRedEvent]

theorem mem_plainKinds {k : RK} (h : PlainKind k = true) : k ∈ plainKinds := List.contains_iff_mem.1 h

theorem rwtMask_plain (d : Dev) {r : Reg} (h : PlainKind r.k = true) : d.rwtMask r = 0 := by
  have hmask : ∀ k ∈ plainKinds, accMask [.rwt] k = 0 := by decide
  unfold Dev.rwtMask
  split
  · rfl
  · exact hmask r.k (mem_plainKinds h)

theorem regDo_plain {r : Reg} (h : PlainKind r.k = true) (d : Dev) (ag : Agent) (path : Nat) (m v : Word) :
    d.regDo ag path r m v = d.plainWrite r m v ag.owner := by
  obtain ⟨k, ix⟩ := r
  have hk := mem_plainKinds h
  simp only [plainKinds, List.mem_cons, List.not_mem_nil, or_false] at hk
  rcases hk with rfl | rfl | rfl | rfl | rfl | rfl | rfl | rfl | rfl | rfl | rfl | rfl | rfl | rfl | rfl | rfl | rfl | rfl | rfl |
    rfl | rfl | rfl | rfl | rfl | rfl | rfl
  all_goals rfl

/-- The read/write and write-1-to-clear bits of a register after a write. -/
def plainBits (r : Reg) (m u old : Word) : Word :=
  mix old (m &&& accMask [.rw] r.k) u &&& ~~~(m &&& u &&& accMask [.w1c] r.k)

theorem and_notNone (x : Word) : x &&& ~~~(0 : Word) = x := BitVec.and_allOnes

theorem mix_none (old v : Word) : mix old 0 v = old := by
  unfold mix
  rw [and_none]
  exact BitVec.or_zero.trans (and_notNone old)

/-- The register changes to v, every other one stands. -/
structure OnlyReg (d d' : Dev) (r : Reg) (v : Word) : Prop where
  rest : d' = { d with regs := d'.regs }
  self : d'.reg r = v
  other : ∀ q : Reg, q.addr ≠ r.addr → d'.reg q = d.reg q

theorem onlyReg_setReg {d d' : Dev} {r : Reg} {v : Word} (h : OnlyReg d d' r v) (w : Word) : OnlyReg d (d'.setReg r w) r w := by
  refine ⟨?_, Dev.setReg_self _ _ _, fun q hq => (Dev.setReg_ne _ _ _ _ (Ne.symm hq)).trans (h.other q hq)⟩
  rw [h.rest]
  rfl

/-- The unlocked bits are written. -/
theorem plainWrite_bits {d : Dev} {r : Reg} (hrwt : d.rwtMask r = 0) (m u : Word) (o : Nat) :
    ∃ d', OnlyReg d d' r (plainBits r m u (d.reg r)) ∧ d.plainWrite r m u o =
      if m &&& accMask [.rwl] r.k = 0 then d'
      else if d'.locked r.k then d'.raise 0x1201 none 0
      else d'.setReg r (mix (d'.reg r) (m &&& accMask [.rwl] r.k) u) := by
  have hself : OnlyReg d d r (d.reg r) := ⟨rfl, rfl, fun _ _ => rfl⟩
  have hwrite : OnlyReg d (if m &&& accMask [.rw] r.k = 0 then d else d.setReg r (mix (d.reg r) (m &&& accMask [.rw] r.k) u)) r
      (mix (d.reg r) (m &&& accMask [.rw] r.k) u) := by
    split
    · next h =>
      rw [h, mix_none]
      exact hself
    · exact onlyReg_setReg hself _
  unfold Dev.plainWrite Dev.rwtWrite plainBits
  dsimp only
  rw [hrwt, and_none, if_pos rfl]
  refine ⟨_, ?_, rfl⟩
  split
  · next h =>
    rw [h, and_notNone]
    exact hwrite
  · rw [hwrite.self]
    exact onlyReg_setReg hwrite _

/-- A write of a register without further effects is its plain write. -/
theorem registerWrite_plain {s : State} {ag : Agent} {r : Reg} (h : Reaches s ag r) {a n sh : Nat} {m : Word}
    (hplace : busPlace a n = some (r, m, sh)) (hplain : PlainKind r.k = true) (v : Word) :
    s.dev.silent.registerWrite ag a n v = s.dev.silent.plainWrite r m (v <<< sh) ag.owner := by
  rw [registerWrite_reaches h hplace, regStore_open h (.inr (by rw [rwtMask_plain _ hplain, and_none])), regDo_plain hplain]

/-- The register changes to v and nothing else does. -/
theorem completes_onlyReg {s : State} {ag : Agent} {r : Reg} {a n : Nat} {v x : Word} {d : Dev} (hacts : Acts s)
    (heq : s.dev.silent.registerWrite ag a n v = d) (h : OnlyReg s.dev.silent d r x) :
    Completes (.registerWrite ag a n v) s (fun d =>
      d.reg r = x ∧ (∀ r', r'.addr ≠ r.addr → d.reg r' = s.dev.reg r') ∧ d.sets = s.dev.sets ∧
      d.raised = s.dev.raised ∧ Calm s.dev d) := by
  have hrest := h.rest
  refine completes_as hacts (exec_registerWrite ag a n v s) heq (by rw [hrest]; rfl) ⟨by rw [hrest]; rfl, by rw [hrest]; rfl⟩
    ⟨h.self, h.other, by rw [hrest]; rfl, by rw [hrest]; rfl, ?_⟩
  rw [hrest]
  exact ⟨rfl, rfl, rfl, rfl, rfl, rfl, rfl, rfl, rfl⟩

/-- The same where the write of locked bits raises its event. -/
theorem completes_locked {s : State} {ag : Agent} {r : Reg} {a n : Nat} {v x : Word} {d : Dev} (hacts : Acts s)
    (heq : s.dev.silent.registerWrite ag a n v = d.raise 0x1201 none 0) (h : OnlyReg s.dev.silent d r x) :
    Completes (.registerWrite ag a n v) s (fun d =>
      d.reg r = x ∧ (∀ r', r'.addr ≠ r.addr → d.reg r' = s.dev.reg r') ∧ Records s.dev d 0x1201 0 ∧ Calm s.dev d) := by
  have hrest := h.rest
  refine completes_as hacts (exec_registerWrite ag a n v s) heq (by rw [hrest]; rfl) ⟨by rw [hrest]; rfl, by rw [hrest]; rfl⟩
    ⟨h.self, h.other, ?_, ?_⟩
  · rw [hrest]
    rfl
  · rw [hrest]
    exact ⟨rfl, rfl, rfl, rfl, rfl, rfl, rfl, rfl, rfl⟩

/-- Settles O38: a write that reaches a register without further effects is `plainWrite`, whose read/write and clearing bits
(`plainWrite_bits`) are written before the lock of the rest is looked at. -/
theorem registerWrites : Obligations.RegisterWrites := by
  unfold Obligations.RegisterWrites
  refine ⟨fun ag r a n sh m v s hreach hplace hplain => ?_, fun a n v s hacts hclock hplace => ?_⟩
  · intro u lock x
    obtain ⟨d, honly, heq⟩ := plainWrite_bits (rwtMask_plain s.dev.silent hplain) m u ag.owner
    have hwrite := (registerWrite_plain hreach hplace hplain v).trans heq
    have hlocks : d.locked r.k = s.dev.locked r.k := by
      rw [honly.rest]
      rfl
    refine ⟨fun hfree => ?_, fun hlock hlocked => ?_⟩
    · by_cases hlock : m &&& accMask [.rwl] r.k = 0
      · rw [if_pos hlock] at hwrite
        have hx : mix x lock u = x := by
          change mix x (m &&& accMask [.rwl] r.k) u = x
          rw [hlock, mix_none]
        rw [hx]
        exact completes_onlyReg hreach.1 hwrite honly
      · rw [if_neg hlock, hlocks, hfree.resolve_left hlock, if_neg Bool.false_ne_true, honly.self] at hwrite
        exact completes_onlyReg hreach.1 hwrite (onlyReg_setReg honly _)
    · rw [if_neg hlock, hlocks, if_pos hlocked] at hwrite
      exact completes_locked hreach.1 hwrite honly
  · have heq : s.dev.silent.registerWrite .host a n v = s.dev.silent.out .busError := by
      have hlost : (Agent.isHost .host && s.dev.silent.lost 33) = false := hclock
      have hbus : s.dev.silent.busWrite .host 0 a n v = (false, s.dev.silent) := by
        unfold Dev.busWrite
        rw [hplace]
      unfold Dev.registerWrite
      dsimp only
      rw [hlost, hbus]
      rfl
    exact completes_as hacts (exec_registerWrite .host a n v s) heq rfl ⟨rfl, rfl⟩ rfl

/-! ## The write that stalled (R50) -/

/-- A write of a core releases the entries of its engines. -/
def Dev.releaseBy (d : Dev) (ag : Agent) : Dev :=
  match ag with
  | .core c => d.onCore c.val Core.release
  | _ => d

theorem stalledLand_one {d : Dev} {ag : Agent} {path a : Nat} {m v : Word} {r : Reg}
    (hstalled : d.stalled = [.write ag path a m v]) (hat : regAt a = some r) :
    d.stalledLand = (({ d with stalling := false, stalled := [] } : Dev).releaseBy ag).regDo ag path r m v := by
  have hgo : ∀ x : Dev, x.stalled = [] →
      (if x.landHeld (.write ag path a m v) || x.behind ag then x.park (.write ag path a m v) else x.landOne (.write ag path a m v)) =
        x.regDo ag path r m v := by
    intro x hx
    have hbehind : x.behind ag = false := by
      unfold Dev.behind
      rw [hx, List.any_nil, Bool.and_false]
    rw [hbehind]
    unfold Dev.landHeld Dev.landOne
    dsimp only
    rw [hat]
    rfl
  unfold Dev.stalledLand
  rw [hstalled]
  cases ag with
  | host => exact hgo { d with stalling := false, stalled := [] } rfl
  | hart k => exact hgo { d with stalling := false, stalled := [] } rfl
  | core c => exact hgo (({ d with stalling := false, stalled := [] } : Dev).onCore c.val Core.release) rfl

theorem releaseBy_frame (d : Dev) (ag : Agent) : ∃ m, d.releaseBy ag = { d with cores := m } := by
  cases ag with
  | host => exact ⟨d.cores, rfl⟩
  | hart k => exact ⟨d.cores, rfl⟩
  | core c => exact ⟨_, rfl⟩

/-- Core c after the stores of an agent no longer wait. -/
def Core.releasedBy (x : Core) (c : Nat) (ag : Agent) : Core :=
  match ag with
  | .core k => if k.val = c then x.release else x
  | .host => x
  | .hart _ => x

theorem releaseBy_core (d : Dev) (ag : Agent) (c : Nat) : (d.releaseBy ag).core c = (d.core c).releasedBy c ag := by
  unfold Core.releasedBy
  cases ag with
  | host => rfl
  | hart k => rfl
  | core k =>
    refine (Dev.onCore_get d k.val c _).trans ?_
    dsimp only
    by_cases h : k.val = c
    · rw [if_pos h, if_pos h, h]
    · rw [if_neg h, if_neg h]

/-- After the edge a write that stalled is taken into its set. -/
theorem stalledLand_staged {d : Dev} {ag : Agent} {path : Nat} {m v : Word} {r : Reg}
    (hstalled : d.stalled = [.write ag path r.addr m v]) (hat : regAt r.addr = some r) (hne : r.k ≠ .dmaChCtrl)
    (hm : m &&& d.rwtMask r ≠ 0) : ∃ x, (∃ c, x = { d with stalling := false, stalled := [], cores := c }) ∧
      (∀ c, x.core c = (d.core c).releasedBy c ag) ∧
      TakesStaged x d.stalledLand r ⟨m &&& d.rwtMask r, v, ag.owner⟩ := by
  let x : Dev := ({ d with stalling := false, stalled := [] } : Dev).releaseBy ag
  obtain ⟨c, hframe⟩ := releaseBy_frame ({ d with stalling := false, stalled := [] } : Dev) ag
  have hmask : x.rwtMask r = d.rwtMask r := by
    change (({ d with stalling := false, stalled := [] } : Dev).releaseBy ag).rwtMask r = d.rwtMask r
    rw [hframe]
    rfl
  have hk : r.k ∈ stagedKinds := mem_stagedKinds_of_rwtMask (d := d) (fun h => hm (by rw [h, and_none]))
  refine ⟨x, ⟨c, hframe⟩, fun c => releaseBy_core _ ag c, ?_⟩
  rw [stalledLand_one hstalled hat, regDo_staged hk hne, ← hmask]
  exact plainWrite_staged v ag.owner (by rw [hmask]; exact hm)

theorem completes_stalledLand {s : State} (hacts : Acts s) {ag : Agent} {path : Nat} {r : Reg} {m v : Word}
    (hstalled : s.dev.stalled = [.write ag path r.addr m v]) (hat : regAt r.addr = some r) (hne : r.k ≠ .dmaChCtrl)
    (hm : m &&& s.dev.rwtMask r ≠ 0) (hnone : FMap.find? (s.dev.set_ (s.dev.setOf r)).writes r.addr = none)
    (hroom : (s.dev.set_ (s.dev.setOf r)).writes.length < 4096) :
    Completes .stalledWritesLand s (fun d =>
      d.stalling = false ∧ d.stalled = [] ∧
      FMap.find? (d.set_ (s.dev.setOf r)).writes r.addr =
        some ⟨m &&& s.dev.rwtMask r, v &&& (m &&& s.dev.rwtMask r), ag.owner⟩ ∧
      (∀ a, a ≠ r.addr → FMap.find? (d.set_ (s.dev.setOf r)).writes a =
        FMap.find? (s.dev.set_ (s.dev.setOf r)).writes a) ∧
      (∀ k, k ≠ s.dev.setOf r → d.set_ k = s.dev.set_ k) ∧
      d.reg r &&& s.dev.rwtMask r = s.dev.reg r &&& s.dev.rwtMask r ∧ (∀ q : Reg, q.addr ≠ r.addr → d.reg q = s.dev.reg q) ∧
      d.mem = s.dev.mem ∧ (∀ c, d.core c = (s.dev.core c).releasedBy c ag)) := by
  obtain ⟨x, ⟨c, hx⟩, hcore, htake⟩ := stalledLand_staged (d := s.dev.silent) hstalled hat hne hm
  have hset : x.set_ = s.dev.set_ := by rw [hx]; rfl
  have hof : x.setOf r = s.dev.setOf r := by rw [hx]; rfl
  have hreg : x.reg = s.dev.reg := by rw [hx]; rfl
  obtain ⟨hnew, hkept⟩ := find_takesStaged htake (by rw [hset, hof]; exact hnone) (by rw [hset, hof]; exact hroom)
  have hother := set_takesStaged htake
  have hstaged := htake.staged
  rw [hset, hof] at hkept hother
  rw [hof] at hnew
  rw [hreg, ← rwtMask_eq (d := s.dev) (fun h => hm (by rw [h, and_none]))] at hstaged
  obtain ⟨c', hrest⟩ := htake.rest
  generalize hd : s.dev.silent.stalledLand = d at *
  have hcores : d.cores = x.cores := by rw [hrest]; rfl
  have hframe : d.stalling = x.stalling ∧ d.stalled = x.stalled ∧ d.mem = x.mem ∧ d.pruneDue = x.pruneDue ∧
      d.resetN = x.resetN ∧ d.vin = x.vin := by
    rw [hrest]
    exact ⟨rfl, rfl, rfl, rfl, rfl, rfl⟩
  have hregs : ∀ q : Reg, q.addr ≠ r.addr → d.reg q = s.dev.reg q := fun q hq => by rw [htake.reg q hq, hreg]
  have hcore' : ∀ c, d.core c = (s.dev.core c).releasedBy c ag := fun c => (Dev.core_congr hcores c).trans (hcore c)
  rw [hx] at hframe
  obtain ⟨hstalling, hstall, hmem, hdue, hreset, hvin⟩ := hframe
  exact completes_as hacts (exec_stalledWritesLand s) hd hdue ⟨hreset, hvin⟩
    ⟨hstalling, hstall, hnew, hkept, fun k hk => (hother k).trans (if_neg (Ne.symm hk)), hstaged, hregs, hmem, hcore'⟩

/-- Settles O35: the seal through `setsSeal`, the sample through one partition at a time, the edge, the write that stalled through
`plainWrite`, and the checks of the partitions at a new period. -/
theorem tempoEdges : Obligations.TempoEdges := by
  unfold Obligations.TempoEdges
  intro s hacts
  exact ⟨fun m hstage hopen => completes_tempoSeal hacts m hstage hopen, completes_deadlineSample hacts,
    fun hstage hseal => completes_tempoEdge hacts hstage hseal,
    fun ag path r m v hstalled hat hne hm hnone hroom => completes_stalledLand hacts hstalled hat hne hm hnone hroom,
    fun us hus hne hlt hat => completes_periodChange hacts us hus hne hlt hat⟩

end Sys2Proof.Machine
end

section
/-! SUPPORT. Proof of the statement about the commit of a staged set (R51, R54, R55, R70, R71). -/
namespace Sys2Proof.Machine

open Safety

/-! ## Words of fields -/

theorem fld_or (hi lo : Nat) (x y : Word) : fld hi lo (x ||| y) = fld hi lo x ||| fld hi lo y := by
  refine Nat.eq_of_testBit_eq fun k => ?_
  rw [Nat.testBit_or, fld_testBit, fld_testBit, fld_testBit, BitVec.getLsbD_or, Bool.and_or_distrib_left]

theorem fld_put_self {hi lo : Nat} (v : Nat) (hhi : hi < 64) : fld hi lo (put hi lo v) = v % 2 ^ (hi + 1 - lo) := by
  refine Nat.eq_of_testBit_eq fun k => ?_
  rw [fld_testBit, put_getLsbD, Nat.testBit_mod_two_pow]
  by_cases hk : k < hi + 1 - lo
  · have hin : lo + k < 64 := by omega
    simp [hk, hin]
  · simp [hk]

theorem fld_put_other {hi lo hi' lo' : Nat} (v : Nat) (h : hi' < lo ∨ hi < lo') : fld hi' lo' (put hi lo v) = 0 := by
  refine Nat.eq_of_testBit_eq fun k => ?_
  rw [fld_testBit, put_getLsbD, Nat.zero_testBit]
  by_cases hk : k < hi' + 1 - lo'
  · by_cases hlo : lo ≤ lo' + k
    · have hout : ¬ (lo' + k - lo < hi + 1 - lo) := by omega
      simp [hout]
    · simp [hlo]
  · simp [hk]

/-- The status word of a commit. -/
theorem status_fields (a reason e : Nat) (ha : a < 4) (hreason : reason < 16) :
    let x := put 1 0 a ||| put 7 4 reason ||| put 39 8 e
    fld 1 0 x = a ∧ fld 7 4 x = reason ∧ fld 39 8 x = e % 2 ^ 32 := by
  intro x
  refine ⟨?_, ?_, ?_⟩
  · rw [fld_or, fld_or, fld_put_self _ (by decide), fld_put_other _ (by decide), fld_put_other _ (by decide), Nat.or_zero, Nat.or_zero]
    exact Nat.mod_eq_of_lt ha
  · rw [fld_or, fld_or, fld_put_other _ (by decide), fld_put_self _ (by decide), fld_put_other _ (by decide), Nat.zero_or, Nat.or_zero]
    exact Nat.mod_eq_of_lt hreason
  · rw [fld_or, fld_or, fld_put_other _ (by decide), fld_put_other _ (by decide), fld_put_self _ (by decide), Nat.zero_or, Nat.zero_or]

/-- The place that a commit reports. -/
theorem place_fields (addr b : Nat) (haddr : addr < 2 ^ 48) (hb : b < 64) :
    let x := put 47 0 addr ||| put 53 48 b
    fld 47 0 x = addr ∧ fld 53 48 x = b := by
  intro x
  refine ⟨?_, ?_⟩
  · rw [fld_or, fld_put_self _ (by decide), fld_put_other _ (by decide), Nat.or_zero]
    exact Nat.mod_eq_of_lt haddr
  · rw [fld_or, fld_put_other _ (by decide), fld_put_self _ (by decide), Nat.zero_or]
    exact Nat.mod_eq_of_lt hb

/-! ## The registers of a set that passed -/

theorem overlay_one (a : Nat) (w : StagedWrite) (v : Word) : overlay [[(a, w)]] a v = mix v w.mask w.val := by
  simp [overlay, FMap.find?, mix]

/-- The commit of a register without further effect. -/
theorem commitReg_plain {r : Reg} (hk : r.k ∈ stagedKinds)
    (hplain : r.k ∉ [RK.tmpPeriod, .tmpDmCtrl, .dvoPortCfg, .dmaChRing, .dmaChCtrl, .pwrTile]) (d : Dev) (w : StagedWrite) (e : Nat) :
    d.commitReg r w e = d.setReg r (mix (d.reg r) w.mask w.val) := by
  rw [← overlay_one r.addr w]
  obtain ⟨k, ix⟩ := r
  simp only [stagedKinds, List.mem_cons, List.not_mem_nil, or_false, not_or] at hk hplain
  obtain ⟨h1, h2, h3, h4, h5, h6⟩ := hplain
  unfold Dev.commitReg
  dsimp only
  split
  · exact absurd rfl h1
  · exact absurd rfl h2
  · exact absurd rfl h3
  · exact absurd rfl h4
  · exact absurd rfl h5
  · exact absurd rfl h6
  · rfl

/-- What the commit of a list of staged writes does. -/
def Dev.commitAll (d : Dev) (ws : FMap StagedWrite) (e : Nat) : Dev :=
  ws.foldl (fun (d : Dev) wv =>
    match regAt wv.1 with
    | some r => d.commitReg r wv.2 e
    | none => d) d

theorem le_of_sorted {α : Type} {lo : Nat} {m : FMap α} (h : FMap.sorted lo m = true) : ∀ x ∈ m, lo ≤ x.1 := by
  induction m generalizing lo with
  | nil => exact nofun
  | cons y m ih =>
    obtain ⟨j, v⟩ := y
    rw [FMap.sorted, Bool.and_eq_true, decide_eq_true_eq] at h
    obtain ⟨hlo, hrest⟩ := h
    intro x hx
    rcases List.mem_cons.1 hx with rfl | hx
    · exact hlo
    · exact Nat.le_trans hlo (Nat.le_of_succ_le (ih hrest x hx))

/-- The staged writes of registers whose commit does nothing else. -/
def PlainWrites (ws : FMap StagedWrite) : Prop :=
  ∀ x ∈ ws, ∃ r, regAt x.1 = some r ∧ r.addr = x.1 ∧ accMask [.rwt] r.k ≠ 0 ∧
    r.k ∉ [RK.tmpPeriod, .tmpDmCtrl, .dvoPortCfg, .dmaChRing, .dmaChCtrl, .pwrTile]

theorem commitAll_plain (e : Nat) (ws : FMap StagedWrite) : ∀ (lo : Nat) (d : Dev), FMap.sorted lo ws = true → PlainWrites ws →
    d.commitAll ws e = { d with regs := (d.commitAll ws e).regs } ∧
    (∀ x ∈ ws, ∀ r, regAt x.1 = some r → (d.commitAll ws e).reg r = mix (d.reg r) x.2.mask x.2.val) ∧
    (∀ r : Reg, (∀ x ∈ ws, x.1 ≠ r.addr) → (d.commitAll ws e).reg r = d.reg r) := by
  induction ws with
  | nil => exact fun _ _ _ _ => ⟨rfl, nofun, fun _ _ => rfl⟩
  | cons y ws ih =>
    intro lo d hsorted hplain
    obtain ⟨j, w⟩ := y
    rw [FMap.sorted, Bool.and_eq_true] at hsorted
    obtain ⟨q, hq, hqa, hqk, hqp⟩ := hplain (j, w) List.mem_cons_self
    have hone : d.commitAll ((j, w) :: ws) e = (d.setReg q (mix (d.reg q) w.mask w.val)).commitAll ws e := by
      rw [← commitReg_plain (mem_stagedKinds hqk) hqp d w e]
      unfold Dev.commitAll
      rw [List.foldl_cons, hq]
    obtain ⟨hrest, hin, hout⟩ := ih (j + 1) (d.setReg q (mix (d.reg q) w.mask w.val)) hsorted.2
      (fun x hx => hplain x (List.mem_cons_of_mem _ hx))
    have hlater : ∀ x ∈ ws, x.1 ≠ q.addr := fun x hx h =>
      absurd (le_of_sorted hsorted.2 x hx) (Nat.not_le.2 (by rw [h, hqa]; exact Nat.lt_succ_self j))
    rw [hone]
    refine ⟨hrest, fun x hx r hr => ?_, fun r hr => ?_⟩
    · rcases List.mem_cons.1 hx with rfl | hx
      · obtain rfl : q = r := Option.some.inj (hq.symm.trans hr)
        rw [hout q hlater, Dev.setReg_self]
      · obtain ⟨p, hp, hpa, -⟩ := hplain x (List.mem_cons_of_mem _ hx)
        obtain rfl : p = r := Option.some.inj (hp.symm.trans hr)
        rw [hin x hx p hr, Dev.setReg_ne _ _ _ _ (by rw [hpa]; exact Ne.symm (hlater x hx))]
    · rw [hout r (fun x hx => hr x (List.mem_cons_of_mem _ hx))]
      exact Dev.setReg_ne _ _ _ _ (by rw [hqa]; exact hr (j, w) List.mem_cons_self)

/-! ## The commit of a set -/

/-- A set whose verdict is taken, emptied. -/
def Dev.setTaken (d : Dev) (k : Nat) : Dev := (d.onSet k (fun x => { x with verdict := none })).setEmpty k

/-- The two status registers of a set's commit. -/
def Dev.setReport (d : Dev) (k result e : Nat) (v : Verdict) : Dev :=
  (d.setReg ⟨.tmpCommitStatus, [k]⟩ (put 1 0 result ||| put 7 4 v.reason ||| put 39 8 e)).setReg
    ⟨.tmpCommitAddr, [k]⟩ (put 47 0 v.addr ||| put 53 48 v.bit_)

theorem setCommit_passed {d : Dev} {k : Nat} {v : Verdict} (hv : (d.set_ k).verdict = some v) (h : v.reason = 0) (e : Nat) :
    d.setCommit k e = ((d.setTaken k).commitAll (d.set_ k).writes e).setReport k 1 e v := by
  unfold Dev.setCommit
  dsimp only
  rw [hv]
  dsimp only
  rw [decide_eq_true h, if_pos rfl, if_pos rfl]
  rfl

theorem setCommit_refused {d : Dev} {k : Nat} {v : Verdict} (hv : (d.set_ k).verdict = some v) (h : v.reason ≠ 0) (e : Nat) :
    d.setCommit k e = ((d.setTaken k).raise 0x0108 (if k = 0 then none else some (k - 1)) k).setReport k 2 e v := by
  unfold Dev.setCommit
  dsimp only
  rw [hv]
  dsimp only
  rw [decide_eq_false h, if_neg Bool.false_ne_true, if_neg Bool.false_ne_true]
  rfl

theorem set_setTaken (d : Dev) (k j : Nat) :
    (d.setTaken k).set_ j = if k = j then ⟨[], none, none⟩ else d.set_ j := by
  unfold Dev.setTaken Dev.setEmpty
  rw [Dev.onSet_get, Dev.onSet_get, Dev.onSet_get]
  split
  · rw [if_pos rfl]
  · rfl

theorem status_ne_place (k j : Nat) : Reg.addr ⟨.tmpCommitStatus, [k]⟩ ≠ Reg.addr ⟨.tmpCommitAddr, [j]⟩ := by
  simp [Reg.addr, RK.row]
  omega

/-- The reports of a commit, after which all but the registers is as `x` has it. -/
theorem setReport_facts (x : Dev) {k result : Nat} (e : Nat) {v : Verdict} (hresult : result < 4) (hreason : v.reason < 16)
    (haddr : v.addr < 2 ^ 48) (hbit : v.bit_ < 64) :
    let d' := x.setReport k result e v
    let status : Reg := ⟨.tmpCommitStatus, [k]⟩
    let place : Reg := ⟨.tmpCommitAddr, [k]⟩
    (d'.regFld status 1 0 = result ∧ d'.regFld status 7 4 = v.reason ∧ d'.regFld status 39 8 = e % 2 ^ 32 ∧
      d'.regFld place 47 0 = v.addr ∧ d'.regFld place 53 48 = v.bit_) ∧
    d' = { x with regs := d'.regs } ∧
    ∀ r : Reg, r.addr ≠ status.addr → r.addr ≠ place.addr → d'.reg r = x.reg r := by
  intro d' status place
  have hstatus : d'.reg status = put 1 0 result ||| put 7 4 v.reason ||| put 39 8 e :=
    (Dev.setReg_ne _ _ _ _ (Ne.symm (status_ne_place k k))).trans (Dev.setReg_self _ _ _)
  have hplace : d'.reg place = put 47 0 v.addr ||| put 53 48 v.bit_ := Dev.setReg_self _ _ _
  obtain ⟨h1, h2, h3⟩ := status_fields result v.reason e hresult hreason
  obtain ⟨h4, h5⟩ := place_fields v.addr v.bit_ haddr hbit
  unfold Dev.regFld
  rw [hstatus, hplace]
  refine ⟨⟨h1, h2, h3, h4, h5⟩, rfl, fun r hs hp => ?_⟩
  exact (Dev.setReg_ne _ _ _ _ (Ne.symm hp)).trans (Dev.setReg_ne _ _ _ _ (Ne.symm hs))

/-- The status registers have no staged fields. -/
theorem staged_ne_report {r : Reg} {a k : Nat} (hk : k < 5) (hat : regAt a = some r) (hrwt : accMask [.rwt] r.k ≠ 0) :
    a ≠ Reg.addr ⟨.tmpCommitStatus, [k]⟩ ∧ a ≠ Reg.addr ⟨.tmpCommitAddr, [k]⟩ := by
  have hkinds : ∀ k < 5, (regAt (Reg.addr ⟨.tmpCommitStatus, [k]⟩)).map Reg.k = some .tmpCommitStatus ∧
      (regAt (Reg.addr ⟨.tmpCommitAddr, [k]⟩)).map Reg.k = some .tmpCommitAddr := by decide
  obtain ⟨hstatus, hplace⟩ := hkinds k hk
  have hnot : r.k ≠ .tmpCommitStatus ∧ r.k ≠ .tmpCommitAddr := by
    have hmem := mem_stagedKinds hrwt
    constructor <;> intro h <;> rw [h] at hmem <;> exact absurd hmem (by decide)
  refine ⟨fun h => hnot.1 ?_, fun h => hnot.2 ?_⟩
  · rw [← h, hat] at hstatus
    exact Option.some.inj hstatus
  · rw [← h, hat] at hplace
    exact Option.some.inj hplace

/-- A set that is taken is empty, and the others stand. -/
theorem set_emptied {d x : Dev} {k : Nat} (hx : x.sets = (d.setTaken k).sets) :
    (x.set_ k).writes = [] ∧ (x.set_ k).verdict = none ∧ ∀ j, j ≠ k → x.set_ j = d.set_ j := by
  have hset : ∀ j, x.set_ j = if k = j then ⟨[], none, none⟩ else d.set_ j := fun j => by
    rw [← set_setTaken]
    unfold Dev.set_
    rw [hx]
  rw [hset, if_pos rfl]
  exact ⟨rfl, rfl, fun j hj => (hset j).trans (if_neg (Ne.symm hj))⟩

theorem calm_setTaken (d : Dev) (k : Nat) : Calm d (d.setTaken k) := by
  unfold Dev.setTaken Dev.setEmpty Dev.onSet
  exact ⟨rfl, rfl, rfl, rfl, rfl, rfl, rfl, rfl, rfl⟩

theorem calm_raise (d : Dev) (code : Nat) (part : Option Nat) (unit : Nat) : Calm d (d.raise code part unit) :=
  ⟨rfl, rfl, rfl, rfl, rfl, rfl, rfl, rfl, rfl⟩

theorem regs_setTaken (d : Dev) (k : Nat) : (d.setTaken k).regs = d.regs := by
  unfold Dev.setTaken Dev.setEmpty Dev.onSet
  rfl

/-- A refused set's event, and what stands. -/
theorem setTaken_raise (d : Dev) (k : Nat) (part : Option Nat) (unit : Nat) :
    ((d.setTaken k).raise 0x0108 part unit).sets = (d.setTaken k).sets ∧ Calm d ((d.setTaken k).raise 0x0108 part unit) ∧
    (∀ r, ((d.setTaken k).raise 0x0108 part unit).reg r = d.reg r) ∧ Raises ((d.setTaken k).raise 0x0108 part unit) 0x0108 := by
  have hcalm := calm_setTaken d k
  have hregs := regs_setTaken d k
  generalize d.setTaken k = x at hcalm hregs
  exact ⟨rfl, calm_trans hcalm (calm_raise x _ _ _), fun r => Dev.reg_congr (d := x) hregs r, raises_raise x _ _ _⟩

/-- Settles O37: a commit empties its set, then folds its writes (`commitAll_plain`) or raises its event, then reports. -/
theorem setCommit : Obligations.SetCommit := by
  unfold Obligations.SetCommit
  intro d k e v hk hv hreason haddr hbit d' status place reports
  refine ⟨fun h hsorted hplain => ?_, fun h => ?_⟩
  · obtain ⟨hrest, hin, hout⟩ := commitAll_plain e (d.set_ k).writes 0 (d.setTaken k) hsorted hplain
    have heq : d' = _ := setCommit_passed hv h e
    have hreport := setReport_facts ((d.setTaken k).commitAll (d.set_ k).writes e) (k := k) e (result := 1) (by decide) hreason haddr hbit
    rw [← heq] at hreport
    clear_value d'
    generalize (d.setTaken k).commitAll (d.set_ k).writes e = x at hrest hin hout hreport
    obtain ⟨⟨h1, h2, h3, h4, h5⟩, hframe, hregs⟩ := hreport
    obtain ⟨hwrites, hverdict, hothers⟩ := set_emptied (d := d) (x := d') (k := k) (by rw [hframe, hrest])
    refine ⟨⟨h1.trans (if_pos h).symm, h2, h3, h4, h5, hwrites, hverdict, hothers, ?_⟩, ?_, fun y hy r hr => ?_, fun r hs hp hr => ?_⟩
    · rw [hframe, hrest]
      exact ⟨rfl, rfl, rfl, rfl, rfl, rfl, rfl, rfl, rfl⟩
    · rw [hframe, hrest]
      rfl
    · obtain ⟨q, hq, hqa, hqk, -⟩ := hplain y hy
      obtain rfl : q = r := Option.some.inj (hq.symm.trans hr)
      obtain ⟨hs, hp⟩ := staged_ne_report hk hq hqk
      rw [← hqa] at hs hp
      exact (hregs q hs hp).trans (hin y hy q hr)
    · exact (hregs r hs hp).trans (hout r hr)
  · have heq : d' = _ := setCommit_refused hv h e
    have hreport := setReport_facts ((d.setTaken k).raise 0x0108 (if k = 0 then none else some (k - 1)) k) (k := k) e (result := 2)
      (by decide) hreason haddr hbit
    obtain ⟨hsets, hcalm, hreg, hraises⟩ := setTaken_raise d k (if k = 0 then none else some (k - 1)) k
    rw [← heq] at hreport
    clear_value d'
    generalize (d.setTaken k).raise 0x0108 (if k = 0 then none else some (k - 1)) k = x at hreport hsets hcalm hreg hraises
    obtain ⟨⟨h1, h2, h3, h4, h5⟩, hframe, hregs⟩ := hreport
    obtain ⟨hwrites, hverdict, hothers⟩ := set_emptied ((congrArg Dev.sets hframe).trans hsets)
    refine ⟨⟨h1.trans (if_neg h).symm, h2, h3, h4, h5, hwrites, hverdict, hothers, ?_⟩, ?_, fun r hs hp => (hregs r hs hp).trans (hreg r)⟩
    · rw [hframe]
      exact hcalm
    · rw [hframe]
      exact hraises

end Sys2Proof.Machine
end

section
/-! SUPPORT. What errors of SRAM, aborted transfers and pruned cores leave alone: every register but their own counters, settings and
records; no event that waits is lost. -/
namespace Sys2Proof.Machine

open Safety

/-! ## The registers that faults touch -/

/-- The registers that an error of SRAM, an abort, or a prune may change. -/
inductive Touched : Reg → Prop
  | recovery : Touched ⟨.prtRecovery, []⟩
  | sram (u : Nat) (k : RK) (hk : k ∈ [RK.spdEcc, .spdEccInject, .grvEcc, .grvEccInject]) : Touched ⟨k, [u]⟩
  | cvu (n : Nat) (k : RK) (hk : k ∈ [RK.cvuState, .cvuPos]) : Touched ⟨k, [n / 2, n % 2]⟩
  | dma (g ch : Nat) (hch : ch < 16) (k : RK) (hk : k ∈ [RK.dmaChRing, .dmaChCtrl, .dmaChStatus]) : Touched ⟨k, [g, ch]⟩
  | perf (c : Nat) (k : RK) (hk : k ∈ [RK.mePerfBusy, .mePerfLoad, .mePerfRows, .mePerfWait, .veSolveTol, .veSolveStatus, .vePerfBusy,
      .vePerfWait, .sqPerfStall, .ftePerfDeliv, .ftePerfLoss, .ftePerfLead, .ftePerfWait]) : Touched ⟨k, [c]⟩

/-- No touched register stands at the address of r. -/
def Spared (r : Reg) : Prop := ∀ x, Touched x → x.addr ≠ r.addr

/-- Units that no error of SRAM, no abort and no prune touches. -/
structure SameUnits (d d' : Dev) : Prop where
  ports : d'.ports = d.ports
  links : d'.links = d.links
  meshes : d'.meshes = d.meshes
  stopped : d'.stopped = d.stopped
  plls : d'.plls = d.plls
  pwr : d'.pwr = d.pwr
  sec : d'.sec = d.sec
  fuses : d'.fuses = d.fuses
  tempo : d'.tempo = d.tempo
  tmp : d'.tmp = d.tmp
  phys : d'.phys = d.phys
  hbm : d'.hbm = d.hbm
  nea : d'.nea = d.nea
  pkgs : d'.pkgs = d.pkgs
  mirrors : d'.mirrors = d.mirrors
  outs : d'.outs = d.outs

namespace SameUnits

variable {d d' d'' : Dev}

theorem trans (h : SameUnits d d') (h' : SameUnits d' d'') : SameUnits d d'' :=
  ⟨h'.ports.trans h.ports, h'.links.trans h.links, h'.meshes.trans h.meshes, h'.stopped.trans h.stopped, h'.plls.trans h.plls, h'.pwr.trans h.pwr, h'.sec.trans h.sec, h'.fuses.trans h.fuses,
    h'.tempo.trans h.tempo, h'.tmp.trans h.tmp, h'.phys.trans h.phys, h'.hbm.trans h.hbm, h'.nea.trans h.nea, h'.pkgs.trans h.pkgs, h'.mirrors.trans h.mirrors, h'.outs.trans h.outs⟩

end SameUnits

/-- The spared registers stand, the events that wait stay among them, and the pins keep their levels. -/
structure Sparing (d d' : Dev) : Prop where
  reg : ∀ r, Spared r → d'.reg r = d.reg r
  raised : ∃ l, d'.raised = d.raised ++ l
  pins : d'.resetN = d.resetN ∧ d'.vin = d.vin
  units : SameUnits d d'

namespace Sparing

variable {d d' d'' : Dev}

theorem refl (d : Dev) : Sparing d d := ⟨fun _ _ => rfl, ⟨[], (List.append_nil _).symm⟩, ⟨rfl, rfl⟩, ⟨rfl, rfl, rfl, rfl, rfl, rfl, rfl, rfl, rfl, rfl, rfl, rfl, rfl, rfl, rfl, rfl⟩⟩

theorem trans (h : Sparing d d') (h' : Sparing d' d'') : Sparing d d'' := by
  obtain ⟨hreg, ⟨l, hl⟩, ⟨hreset, hvin⟩, hunits⟩ := h
  obtain ⟨hreg', ⟨l', hl'⟩, ⟨hreset', hvin'⟩, hunits'⟩ := h'
  exact ⟨fun r hr => (hreg' r hr).trans (hreg r hr), ⟨l ++ l', by rw [hl', hl, List.append_assoc]⟩,
    ⟨hreset'.trans hreset, hvin'.trans hvin⟩, hunits.trans hunits'⟩

theorem foldl {α : Type} {f : Dev → α → Dev} {l : List α} (hf : ∀ d, ∀ x ∈ l, Sparing d (f d x)) : ∀ d, Sparing d (l.foldl f d) := by
  induction l with
  | nil => exact fun d => refl d
  | cons x l ih =>
    exact fun d => (hf d x List.mem_cons_self).trans (ih (fun d y hy => hf d y (List.mem_cons_of_mem x hy)) (f d x))

theorem raises (h : Sparing d d') {code : Nat} (hr : Raises d code) : Raises d' code := by
  obtain ⟨x, hx, hcode⟩ := hr
  obtain ⟨l, hl⟩ := h.raised
  exact ⟨x, by rw [hl]; exact List.mem_append_left l hx, hcode⟩

theorem regFld (h : Sparing d d') {r : Reg} (hr : Spared r) (hi lo : Nat) : d'.regFld r hi lo = d.regFld r hi lo :=
  congrArg (fld hi lo) (h.reg r hr)

end Sparing

theorem sparing_ite {d x y : Dev} {c : Prop} [Decidable c] (hx : Sparing d x) (hy : Sparing d y) : Sparing d (if c then x else y) := by
  split
  · exact hx
  · exact hy

section
variable (d : Dev)

/-- An update of anything but the registers, the events that wait and the pins. -/
theorem sparing_other {d' : Dev} (hregs : d'.regs = d.regs) (hraised : d'.raised = d.raised)
    (hpins : d'.resetN = d.resetN ∧ d'.vin = d.vin)
    (hunits : SameUnits d d' := by exact ⟨rfl, rfl, rfl, rfl, rfl, rfl, rfl, rfl, rfl, rfl, rfl, rfl, rfl, rfl, rfl, rfl⟩) : Sparing d d' :=
  ⟨fun r _ => Dev.reg_congr hregs r, ⟨[], hraised.trans (List.append_nil _).symm⟩, hpins, hunits⟩

theorem sparing_reported {d' : Dev} (h : Reported d d') : Sparing d d' := by
  obtain ⟨-, -, -, -, -, -, -, -, -, -, -, hreset, hvin⟩ := h.frame
  refine ⟨fun r hr => h.reg r (hr _ .recovery), h.raised, ⟨hreset, hvin⟩, ?_⟩
  rw [h.rest]
  exact ⟨rfl, rfl, rfl, rfl, rfl, rfl, rfl, rfl, rfl, rfl, rfl, rfl, rfl, rfl, rfl, rfl⟩

theorem sparing_setReg {x : Reg} (hx : Touched x) (v : Word) : Sparing d (d.setReg x v) :=
  ⟨fun _ hr => Dev.setReg_ne _ _ _ _ (hr x hx), ⟨[], (List.append_nil _).symm⟩, ⟨rfl, rfl⟩,
    ⟨rfl, rfl, rfl, rfl, rfl, rfl, rfl, rfl, rfl, rfl, rfl, rfl, rfl, rfl, rfl, rfl⟩⟩

theorem sparing_setRegFld {x : Reg} (hx : Touched x) (hi lo v : Nat) : Sparing d (d.setRegFld x hi lo v) := sparing_setReg d hx _

theorem sparing_count {x : Reg} (hx : Touched x) (hi lo k : Nat) : Sparing d (d.count x hi lo k) := sparing_setReg d hx _

theorem sparing_tick : Sparing d d.tick := sparing_other d rfl rfl ⟨rfl, rfl⟩

theorem sparing_raiseAs (cls : EvClass) (code : Nat) (part : Option Nat) (unit detail : Nat) :
    Sparing d (d.raiseAs cls code part unit detail) := sparing_reported d (reported_raiseAs d _ _ _ _ _)

theorem sparing_raise (code : Nat) (part : Option Nat) (unit : Nat) : Sparing d (d.raise code part unit) :=
  sparing_raiseAs d _ _ _ _ _

theorem sparing_faultIn (code p unit : Nat) (rs : List Remedy) : Sparing d (d.faultIn code p unit rs) :=
  (sparing_raise d _ _ _).trans (sparing_reported _ (reported_faultPart _ _ _ _))

/-! ## Errors of SRAM (R289 to R302) -/

theorem touched_sramReg (u : Nat) {s g : RK} (h : s ∈ [RK.spdEcc, .spdEccInject, .grvEcc, .grvEccInject])
    (h' : g ∈ [RK.spdEcc, .spdEccInject, .grvEcc, .grvEccInject]) : Touched (sramReg u s g) := by
  unfold sramReg
  split
  · exact .sram u s h
  · exact .sram (u - 1000) g h'

theorem sparing_onSram (u : Nat) (f : Sram → Sram) : Sparing d (d.onSram u f) := sparing_other d rfl rfl ⟨rfl, rfl⟩

theorem sparing_duePrune (c code : Nat) : Sparing d (d.duePrune c code) := by
  unfold Dev.duePrune
  split
  · exact Sparing.refl d
  · exact sparing_other d rfl rfl ⟨rfl, rfl⟩

theorem sparing_bankFail (u b code : Nat) (joined : Bool) : Sparing d (d.bankFail u b code joined) := by
  unfold Dev.bankFail
  split
  · exact Sparing.refl d
  · dsimp only
    have hevent : ∀ f ev p q unit rs, Sparing d (if joined = true then (d.onSram u f).raise ev p unit
        else (d.onSram u f).faultIn ev q unit rs) := fun f ev p q unit rs =>
      (sparing_onSram d u f).trans (sparing_ite (sparing_raise _ ev p unit) (sparing_faultIn _ ev q unit rs))
    exact sparing_ite ((hevent _ _ _ _ _ _).trans (sparing_duePrune _ _ _)) (hevent _ _ _ _ _ _)

theorem sparing_eccRecord (u b row word : Nat) (ue : Bool) : Sparing d (d.eccRecord u b row word ue) := by
  have ht : Touched (sramReg u .spdEcc .grvEcc) := touched_sramReg u (by decide) (by decide)
  have hcount : Sparing d (if ue = true then d.count (sramReg u .spdEcc .grvEcc) 31 16 1 else d.count (sramReg u .spdEcc .grvEcc) 15 0 1) := by
    split <;> exact sparing_count d ht _ _ _
  unfold Dev.eccRecord
  dsimp only
  split
  · exact (((hcount.trans (sparing_setRegFld _ ht _ _ _)).trans (sparing_setRegFld _ ht _ _ _)).trans
      (sparing_setRegFld _ ht _ _ _)).trans (sparing_setRegFld _ ht _ _ _)
  · exact (((hcount.trans (sparing_setRegFld _ ht _ _ _)).trans (sparing_setRegFld _ ht _ _ _)).trans
      (sparing_setRegFld _ ht _ _ _)).trans (sparing_setRegFld _ ht _ _ _)

theorem sparing_eccCorr (u b row word : Nat) : Sparing d (d.eccCorr u b row word) := by
  have hrecord : Sparing d ((((d.eccRecord u b row word false).raise (if isSpd u then 0x0601 else 0x0701) (some (d.sramPart u))
      (if isSpd u then u else u - 1000)).onSram u (fun x => x.onBank b (fun k => { k with ce := k.ce + 1 })))) :=
    ((sparing_eccRecord d u b row word false).trans (sparing_raise _ _ _ _)).trans (sparing_onSram _ _ _)
  exact sparing_ite (hrecord.trans (sparing_bankFail _ _ _ _ _)) hrecord

theorem sparing_eccUncorr (u b row word : Nat) : Sparing d (d.eccUncorr u b row word) :=
  ((sparing_eccRecord d u b row word true).trans (sparing_faultIn _ _ _ _ _)).trans (sparing_bankFail _ _ _ _ _)

theorem sparing_mem (m : Mem) : Sparing d { d with mem := m } := sparing_other d rfl rfl ⟨rfl, rfl⟩

theorem sparing_readWord (w : Nat) (scrub : Bool) : Sparing d (d.readWord w scrub).2 := by
  unfold Dev.readWord
  split
  · exact Sparing.refl d
  · next u o _ =>
    dsimp only
    have huncorr : ∀ x : Dev, Sparing x (if (scrub && (x.sram u).bankDue (d.bankRow u o).1) = true then x
        else x.eccUncorr u (d.bankRow u o).1 (d.bankRow u o).2 (w % 8)) := by
      intro x
      split
      · exact Sparing.refl x
      · exact sparing_eccUncorr x _ _ _ _
    split
    · split
      · exact Sparing.refl d
      · split
        · dsimp only
          split
          · exact (sparing_tick d).trans (huncorr _)
          · exact sparing_tick d
        · exact huncorr d
    · split
      · exact Sparing.refl d
      · split
        · exact (sparing_eccCorr d _ _ _ _).trans (sparing_mem _ _)
        · exact huncorr d

theorem sparing_injectMask (w : Nat) : Sparing d (d.injectMask w).2 := by
  unfold Dev.injectMask
  split
  · exact Sparing.refl d
  · next u o _ =>
    have ht : Touched (sramReg u .spdEccInject .grvEccInject) := touched_sramReg u (by decide) (by decide)
    dsimp only
    rw [apply_ite Prod.snd]
    exact sparing_ite (sparing_setReg d ht _) (Sparing.refl d)

theorem sparing_storeWord (w : Nat) (bs : List (Nat × Byte)) (poison : Bool) : Sparing d (d.storeWord w bs poison) :=
  (sparing_injectMask d w).trans (sparing_mem _ _)

theorem sparing_writeWord (w : Nat) (bs : List (Nat × Byte × Bool)) : Sparing d (d.writeWord w bs) := by
  unfold Dev.writeWord
  dsimp only
  split
  · exact sparing_storeWord d _ _ _
  · exact (sparing_readWord d w false).trans (sparing_storeWord _ _ _ _)

end

theorem sparing_readWords (n : Nat) : ∀ (d : Dev) (w : Nat), Sparing d (d.readWords w n).2 := by
  induction n with
  | zero => exact fun d _ => Sparing.refl d
  | succ n ih => exact fun d w => (sparing_readWord d w false).trans (ih _ _)

section
variable (d : Dev)

theorem sparing_sramRead (a n : Nat) : Sparing d (d.sramRead a n).2 := by
  unfold Dev.sramRead
  dsimp only
  split
  · exact Sparing.refl d
  · split
    · exact sparing_readWords _ d _
    · exact Sparing.refl d

theorem sparing_sramWrite (a : Nat) (bs : List PByte) : Sparing d (d.sramWrite a bs).2 := by
  unfold Dev.sramWrite
  dsimp only
  split
  · exact Sparing.refl d
  · split
    · exact Sparing.foldl (fun d i _ => sparing_writeWord d _ _) d
    · exact Sparing.refl d

/-! ## Check-value units and DMA engines that stop (R333, R517) -/

theorem sparing_onCvu (n : Nat) (f : Cvu → Cvu) : Sparing d (d.onCvu n f) := sparing_other d rfl rfl ⟨rfl, rfl⟩

theorem touched_cvuReg {n : Nat} (hn : n < 32) {k : RK} (hk : k ∈ [RK.cvuState, .cvuPos]) (p : RK) : Touched (cvuReg n k p) := by
  unfold cvuReg
  rw [if_pos hn]
  exact .cvu n k hk

theorem sparing_cvuBytes {n : Nat} (hn : n < 32) (bs : List Byte) : Sparing d (d.cvuBytes n bs) :=
  (sparing_setReg d (touched_cvuReg hn (by decide) _) _).trans (sparing_setReg _ (touched_cvuReg hn (by decide) _) _)

theorem sparing_cvuEvent (n code : Nat) : Sparing d (d.cvuEvent n code) :=
  (sparing_onCvu d n _).trans (sparing_raise _ _ _ _)

theorem sparing_cvuRun {n : Nat} (hn : n < 32) (k : Nat) : Sparing d (d.cvuRun n k).2 := by
  have hrun : ∀ a m bs f, Sparing d (((d.sramRead a m).2.cvuBytes n bs).onCvu n f) := fun a m bs f =>
    ((sparing_sramRead d a m).trans (sparing_cvuBytes _ hn bs)).trans (sparing_onCvu _ n f)
  unfold Dev.cvuRun
  dsimp only
  split
  · dsimp only
    exact hrun _ _ _ _
  · dsimp only
    exact hrun _ _ _ _

theorem sparing_cvuAbort {n : Nat} (hn : n < 32) (steps : Nat) : Sparing d (d.cvuAbort n steps) := by
  unfold Dev.cvuAbort
  split
  · dsimp only
    split
    · exact ((sparing_cvuRun d hn _).trans (sparing_onCvu _ _ _)).trans (sparing_cvuEvent _ _ _)
    · exact (sparing_cvuRun d hn _).trans (sparing_onCvu _ _ _)
  · exact Sparing.refl d

theorem sparing_cvuStop {n : Nat} (hn : n < 32) : Sparing d (d.cvuStop n) := by
  unfold Dev.cvuStop
  split
  · exact (sparing_tick d).trans (sparing_cvuAbort _ hn _)
  · exact Sparing.refl d

theorem sparing_onDma (g : Nat) (f : DmaEng → DmaEng) : Sparing d (d.onDma g f) := sparing_other d rfl rfl ⟨rfl, rfl⟩

theorem sparing_onCh (g ch : Nat) (f : DmaCh → DmaCh) : Sparing d (d.onCh g ch f) := sparing_onDma d g _

theorem sparing_dmaCancel (g ch : Nat) (prune : Bool) (l : List DmaDesc) : Sparing d (d.dmaCancel g ch prune l) := by
  unfold Dev.dmaCancel
  refine Sparing.foldl (fun d x _ => ?_) d
  dsimp only
  have hreport : Sparing d ((d.dmaReport x (dmaWord7 3 false x.total 0)).onCh g ch (fun c => { c with last := 3 })) :=
    (sparing_sramWrite d _ _).trans (sparing_onCh _ _ _ _)
  split
  · exact hreport.trans (sparing_other _ rfl rfl ⟨rfl, rfl⟩)
  · exact hreport

/-- At a revocation the registers of a channel take their reset values. -/
theorem sparing_clearChannel {g ch : Nat} (hch : ch < 16) (f : DmaCh → DmaCh) :
    Sparing d ((((d.setReg ⟨.dmaChRing, [g, ch]⟩ (Reg.resetVal ⟨.dmaChRing, [g, ch]⟩)).setReg ⟨.dmaChCtrl, [g, ch]⟩
      (Reg.resetVal ⟨.dmaChCtrl, [g, ch]⟩)).setReg ⟨.dmaChStatus, [g, ch]⟩ (Reg.resetVal ⟨.dmaChStatus, [g, ch]⟩)).onCh g ch f) :=
  (((sparing_setReg d (.dma g ch hch _ (by decide)) _).trans (sparing_setReg _ (.dma g ch hch _ (by decide)) _)).trans
    (sparing_setReg _ (.dma g ch hch _ (by decide)) _)).trans (sparing_onCh _ _ _ _)

theorem sparing_dmaStop (g : Nat) {ch : Nat} (hch : ch < 16) (idx code : Nat) (rest : List DmaDesc) :
    Sparing d (d.dmaStop g ch idx code rest) := by
  have hctrl : Touched ⟨.dmaChCtrl, [g, ch]⟩ := .dma g ch hch _ (by decide)
  have hbase : ∀ prune, Sparing d (((((d.dmaCancel g ch prune rest).setRegFld ⟨.dmaChCtrl, [g, ch]⟩ 0 0 0).onCh g ch
      (fun c => { c with st := .stopped, batch := [], cause := none })).onDma g
      (fun e => { e with queue := e.queue.filter (fun k => k ≠ ch) })).dmaEvent g ch idx code) := fun prune =>
    ((((sparing_dmaCancel d g ch prune rest).trans (sparing_setRegFld _ hctrl _ _ _)).trans (sparing_onCh _ _ _ _)).trans
      (sparing_onDma _ _ _)).trans ((sparing_onCh _ _ _ _).trans (sparing_raiseAs _ _ _ _ _ _))
  unfold Dev.dmaStop
  dsimp only
  split
  · exact (hbase _).trans (sparing_clearChannel _ hch _)
  · exact hbase _

theorem sparing_dmaAbortBy (g : Nat) {ch : Nat} (hch : ch < 16) (cause : AbortCause) (k : Nat) :
    Sparing d (d.dmaAbortBy g ch cause k) := by
  have hctrl : Sparing d (d.setRegFld ⟨.dmaChCtrl, [g, ch]⟩ 0 0 0) := sparing_setRegFld d (.dma g ch hch _ (by decide)) _ _ _
  unfold Dev.dmaAbortBy
  dsimp only
  split
  · exact (sparing_onCh d _ _ _).trans (sparing_onDma _ _ _)
  · exact (sparing_onCh d _ _ _).trans (sparing_dmaStop _ g hch _ _ _)
  · exact sparing_onCh d _ _ _
  · split
    · exact hctrl.trans (sparing_clearChannel _ hch _)
    · exact hctrl

theorem sparing_dmaAbortAll (g : Nat) (cause : AbortCause) (hit : DmaCh → Bool) : Sparing d (d.dmaAbortAll g cause hit) := by
  refine Sparing.foldl (fun d ch hch => ?_) d
  split
  · exact (sparing_dmaAbortBy d g (List.mem_range.1 hch) _ _).trans (sparing_tick _)
  · exact Sparing.refl d

/-! ## Cores that are pruned (R535) -/

theorem sparing_regsReset {ks : List RK} {c : Nat} (hks : ∀ k ∈ ks, Touched ⟨k, [c]⟩) : Sparing d (d.regsReset ks [c]) :=
  Sparing.foldl (fun d k hk => sparing_setReg d (hks k hk) _) d

theorem sparing_perfClear (c : Nat) : Sparing d (d.perfClear c) := by
  refine (sparing_regsReset d fun k hk => .perf c k ?_).trans (sparing_regsReset _ fun k hk => .perf c k ?_)
  · revert k
    decide
  · revert k
    decide

theorem sparing_cvuPrune (c : Nat) : Sparing d (d.cvuPrune c) := by
  refine Sparing.foldl (fun d n hn => ?_) d
  split
  · exact sparing_cvuStop d (List.mem_range.1 hn)
  · exact Sparing.refl d

theorem sparing_dmaPrune (c : Nat) : Sparing d (d.dmaPrune c) := Sparing.foldl (fun d g _ => sparing_dmaAbortAll d g _ _) d

theorem sparing_bankToCore (c k : Nat) : Sparing d (d.bankToCore c k) := sparing_other d rfl rfl ⟨rfl, rfl⟩

theorem sparing_prunes (l : List Prune) : Sparing d { d with prunes := l } := sparing_other d rfl rfl ⟨rfl, rfl⟩

theorem sparing_genDrop (c : Nat) : Sparing d (d.genDrop c) := sparing_other d rfl rfl ⟨rfl, rfl⟩

theorem sparing_onCore (c : Nat) (f : Core → Core) : Sparing d (d.onCore c f) := sparing_other d rfl rfl ⟨rfl, rfl⟩

theorem sparing_onSq (c : Nat) (f : Sq → Sq) : Sparing d (d.onSq c f) := sparing_onCore d c _

theorem sparing_enginesStop (c : Nat) : Sparing d (d.enginesStop c) := (sparing_onCore d c _).trans (sparing_onSq _ c _)

theorem sparing_releaseReqs (c : Nat) : Sparing d (d.releaseReqs c) := sparing_other d rfl rfl ⟨rfl, rfl⟩

theorem sparing_semSend (r : SemReq) : Sparing d (d.semSend r) := sparing_other d rfl rfl ⟨rfl, rfl⟩

theorem sparing_pruneAct (c code : Nat) : Sparing d (d.pruneAct c code) := by
  unfold Dev.pruneAct
  split
  · exact Sparing.refl d
  · next k _ =>
    have hstop : Sparing d ((((d.genDrop c).enginesStop c).perfClear c).onSq c Sq.prunedState) :=
      (((sparing_genDrop d c).trans (sparing_enginesStop _ c)).trans (sparing_perfClear _ c)).trans (sparing_onSq _ c _)
    have hfree : Sparing d ((((((d.genDrop c).enginesStop c).perfClear c).onSq c Sq.prunedState).releaseReqs c).cvuPrune c) :=
      (hstop.trans (sparing_releaseReqs _ c)).trans (sparing_cvuPrune _ c)
    refine sparing_ite (sparing_bankToCore d c k) ?_
    refine Sparing.trans (Sparing.trans ?_ (sparing_bankToCore _ c k)) (sparing_prunes _ _)
    exact (hfree.trans (Sparing.foldl (fun d e _ => sparing_semSend d _) _)).trans (sparing_dmaPrune _ c)

theorem sparing_prunesTaken : Sparing d { d with pruneDue := [] } := sparing_other d rfl rfl ⟨rfl, rfl⟩

theorem sparing_settle : Sparing d d.settle := by
  have hacts : Sparing d (d.pruneDue.foldl (fun (d : Dev) x => d.pruneAct x.1 x.2) { d with pruneDue := [] }) :=
    (sparing_prunesTaken d).trans
      (Sparing.foldl (fun d x _ => sparing_pruneAct d x.1 x.2) _)
  unfold Dev.settle
  generalize d.pruneDue.foldl (fun (d : Dev) x => d.pruneAct x.1 x.2) { d with pruneDue := [] } = x at hacts
  exact ⟨hacts.reg, hacts.raised, hacts.pins, hacts.units.ports, hacts.units.links, rfl, hacts.units.stopped, rfl, rfl, rfl, rfl, rfl, rfl,
    rfl, hacts.units.hbm, hacts.units.nea, rfl, rfl, hacts.units.outs⟩

end

end Sys2Proof.Machine
end

section
/-! SUPPORT. Proof of the statement about the clock enables of cores and clusters (R570, R571). -/
namespace Sys2Proof.Machine

open Safety

/-! ## The fields of a block in its enable register -/

/-- Enable, state and PENDING of block k (1 to 3) in an enable register. -/
def blockFields (k : Nat) (x : Word) : Nat × Nat × Nat := (fld (k - 1) (k - 1) x, fld (2 * k + 7) (2 * k + 6) x, fld (15 + k) (15 + k) x)

/-- What a write of enable v makes of the fields of a block. -/
def enableFields (v : Nat) : Nat × Nat × Nat → Nat × Nat × Nat := fun (en, st, pd) =>
  if en = v then (en, st, pd)
  else match st, v with
    | 1, 0 => (v, 1, 1)
    | 3, 1 => (v, 3, 1)
    | 0, 1 => (v, 1, 0)
    | 2, 0 => (v, 3, 0)
    | _, _ => (v, st, 0)

/-- A word in which the fields of block k are other ones. -/
def ChangesBlock (k : Nat) (f : Nat × Nat × Nat) (x y : Word) : Prop :=
  blockFields k y = f ∧ ∀ j, 1 ≤ j → j ≤ 3 → j ≠ k → blockFields j y = blockFields j x

section
variable {k : Nat} {x : Word}

theorem changesBlock_refl : ChangesBlock k (blockFields k x) x x := ⟨rfl, fun _ _ _ _ => rfl⟩

theorem changesBlock_enable {f : Nat × Nat × Nat} {y : Word} (hk : 1 ≤ k ∧ k ≤ 3) (h : ChangesBlock k f x y) {v : Nat} (hv : v < 2) :
    ChangesBlock k (v, f.2.1, f.2.2) x (setFld (k - 1) (k - 1) v y) := by
  obtain ⟨hself, hother⟩ := h
  obtain ⟨hlo, hhi⟩ := hk
  subst hself
  refine ⟨?_, fun j h1 h3 hne => (?_ : _ = blockFields j y).trans (hother j h1 h3 hne)⟩
  · unfold blockFields
    rw [fld_setFld_self _ _ (by omega), fld_setFld_other _ _ (by omega), fld_setFld_other _ _ (by omega)]
    have hwidth : k - 1 + 1 - (k - 1) = 1 := by omega
    rw [hwidth, Nat.mod_eq_of_lt (by omega)]
  · unfold blockFields
    rw [fld_setFld_other _ _ (by omega), fld_setFld_other _ _ (by omega), fld_setFld_other _ _ (by omega)]

theorem changesBlock_state {f : Nat × Nat × Nat} {y : Word} (hk : 1 ≤ k ∧ k ≤ 3) (h : ChangesBlock k f x y) {v : Nat} (hv : v < 4) :
    ChangesBlock k (f.1, v, f.2.2) x (setFld (2 * k + 7) (2 * k + 6) v y) := by
  obtain ⟨hself, hother⟩ := h
  obtain ⟨hlo, hhi⟩ := hk
  subst hself
  refine ⟨?_, fun j h1 h3 hne => (?_ : _ = blockFields j y).trans (hother j h1 h3 hne)⟩
  · unfold blockFields
    rw [fld_setFld_self _ _ (by omega), fld_setFld_other _ _ (by omega), fld_setFld_other _ _ (by omega)]
    have hwidth : 2 * k + 7 + 1 - (2 * k + 6) = 2 := by omega
    rw [hwidth, Nat.mod_eq_of_lt (by omega)]
  · unfold blockFields
    rw [fld_setFld_other _ _ (by omega), fld_setFld_other _ _ (by omega), fld_setFld_other _ _ (by omega)]

theorem changesBlock_pending {f : Nat × Nat × Nat} {y : Word} (hk : 1 ≤ k ∧ k ≤ 3) (h : ChangesBlock k f x y) {v : Nat} (hv : v < 2) :
    ChangesBlock k (f.1, f.2.1, v) x (setFld (15 + k) (15 + k) v y) := by
  obtain ⟨hself, hother⟩ := h
  obtain ⟨hlo, hhi⟩ := hk
  subst hself
  refine ⟨?_, fun j h1 h3 hne => (?_ : _ = blockFields j y).trans (hother j h1 h3 hne)⟩
  · unfold blockFields
    rw [fld_setFld_self _ _ (by omega), fld_setFld_other _ _ (by omega), fld_setFld_other _ _ (by omega)]
    have hwidth : 15 + k + 1 - (15 + k) = 1 := by omega
    rw [hwidth, Nat.mod_eq_of_lt (by omega)]
  · unfold blockFields
    rw [fld_setFld_other _ _ (by omega), fld_setFld_other _ _ (by omega), fld_setFld_other _ _ (by omega)]

/-- A bit is a field of one bit. -/
theorem fld_bit {w : Nat} (k : Nat) (x : BitVec w) : fld k k x = (x.getLsbD k).toNat := by
  refine Nat.eq_of_testBit_eq fun j => ?_
  rw [fld_testBit]
  cases j with
  | zero =>
    have hwidth : k + 1 - k = 1 := by omega
    rw [hwidth]
    cases x.getLsbD k <;> rfl
  | succ j =>
    have hout : ¬ (j + 1 < k + 1 - k) := by omega
    cases x.getLsbD k <;> simp [Nat.testBit_succ]

end

/-! ## A block that stops -/

/-- The number of a core or of a cluster. -/
def ClkNum (core : Bool) (i : Nat) : Prop := if core then i < 384 else i < 16

theorem clkNum_ok (b : ClkUnit) : ClkNum (clkIsCore b) (clkNum b) := by
  cases b with
  | core c => exact c.isLt
  | cluster g => exact g.isLt

theorem addr_clkEnCore (i : Nat) : Reg.addr ⟨.clkEnCore, [i]⟩ = 0xF0010000500 + 0x10000 * i := by
  simp [Reg.addr, RK.row]

theorem addr_clkEnCluster (i : Nat) : Reg.addr ⟨.clkEnCluster, [i]⟩ = 0xF001800E000 + 0x10000 * i := by
  simp [Reg.addr, RK.row]

/-- Every touched register stands at another place of its 64 KiB than the enable registers do. -/
theorem touched_place {x : Reg} (hx : Touched x) : x.addr % 0x10000 ≠ 0x500 ∧ x.addr % 0x10000 ≠ 0xE000 := by
  cases hx with
  | recovery => simp [Reg.addr, RK.row]
  | sram u k hk =>
    simp only [List.mem_cons, List.not_mem_nil, or_false] at hk
    rcases hk with rfl | rfl | rfl | rfl <;> simp [Reg.addr, RK.row]
  | cvu n k hk =>
    simp only [List.mem_cons, List.not_mem_nil, or_false] at hk
    rcases hk with rfl | rfl <;> simp [Reg.addr, RK.row] <;> omega
  | dma g ch hch k hk =>
    simp only [List.mem_cons, List.not_mem_nil, or_false] at hk
    rcases hk with rfl | rfl | rfl <;> simp [Reg.addr, RK.row] <;> omega
  | perf c k hk =>
    simp only [List.mem_cons, List.not_mem_nil, or_false] at hk
    rcases hk with rfl | rfl | rfl | rfl | rfl | rfl | rfl | rfl | rfl | rfl | rfl | rfl | rfl <;>
      simp [Reg.addr, RK.row]

theorem spared_clkReg {core : Bool} {i : Nat} : Spared (clkReg core i) := by
  intro x hx h
  obtain ⟨hcore, hcluster⟩ := touched_place hx
  cases core with
  | true =>
    have haddr : x.addr = 0xF0010000500 + 0x10000 * i := h.trans (addr_clkEnCore i)
    omega
  | false =>
    have haddr : x.addr = 0xF001800E000 + 0x10000 * i := h.trans (addr_clkEnCluster i)
    omega

section
variable (d : Dev) {core : Bool} {i k : Nat}

theorem sparing_blockStop (hi : ClkNum core i) (hk : 1 ≤ k ∧ k ≤ 3) : Sparing d (d.blockStop core i k) := by
  unfold Dev.blockStop
  cases core with
  | true =>
    rw [if_pos rfl]
    dsimp only
    split
    · exact sparing_other d rfl rfl ⟨rfl, rfl⟩
    · exact sparing_other d rfl rfl ⟨rfl, rfl⟩
    · exact sparing_other d rfl rfl ⟨rfl, rfl⟩
  | false =>
    have hi : i < 16 := hi
    rw [if_neg Bool.false_ne_true]
    refine sparing_ite (sparing_dmaAbortAll d i _ _) ((sparing_cvuStop d (by omega)).trans (sparing_onDma _ _ _))

/-! ## An enable that is written -/

/-- A resting block moves toward its enable. -/
def moveFields : Nat × Nat × Nat → Nat × Nat × Nat := fun (en, st, _) =>
  match st, en with
  | 0, 1 => (en, 1, 0)
  | 2, 0 => (en, 3, 0)
  | _, _ => (en, st, 0)

theorem moveFields_stays {en st pd : Nat} (h01 : st = 0 → en = 1 → False) (h20 : st = 2 → en = 0 → False) :
    moveFields (en, st, pd) = (en, st, 0) := by
  unfold moveFields
  dsimp only
  split
  · exact (h01 rfl rfl).elim
  · exact (h20 rfl rfl).elim
  · rfl

/-- The fields that a move leaves, and the device after it. -/
structure MovesBlock (d d' : Dev) (core : Bool) (i k : Nat) (f : Nat × Nat × Nat) : Prop where
  fields : ChangesBlock k f (d.reg (clkReg core i)) (d'.reg (clkReg core i))
  raised : ∃ l, d'.raised = d.raised ++ l
  pins : d'.resetN = d.resetN ∧ d'.vin = d.vin

theorem movesBlock_setRegFld {d' : Dev} {f : Nat × Nat × Nat} (h : MovesBlock d d' core i k f) {g : Nat × Nat × Nat} {hi lo v : Nat}
    (hfld : ChangesBlock k f (d.reg (clkReg core i)) (d'.reg (clkReg core i)) →
      ChangesBlock k g (d.reg (clkReg core i)) (setFld hi lo v (d'.reg (clkReg core i)))) :
    MovesBlock d (d'.setRegFld (clkReg core i) hi lo v) core i k g :=
  ⟨by rw [reg_setRegFld_self]; exact hfld h.fields, h.raised, h.pins⟩

theorem movesBlock_sparing {d' d'' : Dev} {f : Nat × Nat × Nat} (h : MovesBlock d d' core i k f) (hs : Sparing d' d'') :
    MovesBlock d d'' core i k f := by
  obtain ⟨l, hl⟩ := h.raised
  obtain ⟨l', hl'⟩ := hs.raised
  exact ⟨by rw [hs.reg _ spared_clkReg]; exact h.fields, ⟨l ++ l', by rw [hl', hl, List.append_assoc]⟩, hs.pins.1.trans h.pins.1,
    hs.pins.2.trans h.pins.2⟩

theorem movesBlock_refl : MovesBlock d d core i k (blockFields k (d.reg (clkReg core i))) :=
  ⟨changesBlock_refl, ⟨[], (List.append_nil _).symm⟩, rfl, rfl⟩

theorem movesBlock_clkMove {d0 d' : Dev} {en st pd : Nat} (hi : ClkNum core i) (hk : 1 ≤ k ∧ k ≤ 3)
    (h : MovesBlock d0 d' core i k (en, st, pd)) : MovesBlock d0 (d'.clkMove core i k) core i k (moveFields (en, st, pd)) := by
  have hpend : MovesBlock d0 (d'.setRegFld (clkReg core i) (15 + k) (15 + k) 0) core i k (en, st, 0) :=
    movesBlock_setRegFld d0 h fun hf => changesBlock_pending hk hf (by decide)
  have hen : d'.regFld (clkReg core i) (k - 1) (k - 1) = en := congrArg Prod.fst h.fields.1
  have hst : d'.clkState core i k = st := congrArg (fun f => f.2.1) h.fields.1
  unfold Dev.clkMove
  rw [hen, hst]
  dsimp only
  split
  · exact movesBlock_setRegFld d0 hpend fun hf => changesBlock_state hk hf (by decide)
  · exact movesBlock_setRegFld d0 (movesBlock_sparing d0 hpend (sparing_blockStop _ hi hk)) fun hf => changesBlock_state hk hf (by decide)
  · next h01 h20 =>
    rw [moveFields_stays h01 h20]
    exact hpend

theorem movesBlock_clkEnable {en st pd v : Nat} (hi : ClkNum core i) (hk : 1 ≤ k ∧ k ≤ 3) (hv : v < 2)
    (hf : blockFields k (d.reg (clkReg core i)) = (en, st, pd)) (hst : st < 4) :
    MovesBlock d (d.clkEnable core i k v) core i k (enableFields v (en, st, pd)) ∧
    (en ≠ v → (st = 1 ∧ v = 0) ∨ (st = 3 ∧ v = 1) → Raises (d.clkEnable core i k v) 0x1103) := by
  have hself : MovesBlock d d core i k (en, st, pd) := hf ▸ movesBlock_refl d
  have hen : d.regFld (clkReg core i) (k - 1) (k - 1) = en := congrArg Prod.fst hf
  have hstate : d.clkState core i k = st := congrArg (fun f => f.2.1) hf
  have hwrite : MovesBlock d (d.setRegFld (clkReg core i) (k - 1) (k - 1) v) core i k (v, st, pd) :=
    movesBlock_setRegFld d hself fun hf => changesBlock_enable hk hf hv
  have hwait : ∀ p, MovesBlock d (((d.setRegFld (clkReg core i) (k - 1) (k - 1) v).setRegFld (clkReg core i) (15 + k) (15 + k) 1).raise
      0x1103 p i) core i k (v, st, 1) := fun p =>
    movesBlock_sparing d (movesBlock_setRegFld d hwrite fun hf => changesBlock_pending hk hf (by decide)) (sparing_raise _ _ _ _)
  have hmove := movesBlock_clkMove hi hk hwrite
  unfold Dev.clkEnable enableFields
  dsimp only
  rw [hen, hstate]
  by_cases hsame : en = v
  · rw [if_pos hsame, if_pos hsame]
    exact ⟨hself, fun h => absurd hsame h⟩
  · rw [if_neg hsame, if_neg hsame]
    have hvs : v = 0 ∨ v = 1 := by omega
    have hsts : st = 0 ∨ st = 1 ∨ st = 2 ∨ st = 3 := by omega
    rcases hvs with rfl | rfl <;> rcases hsts with rfl | rfl | rfl | rfl
    · exact ⟨hmove, fun _ h => by omega⟩
    · exact ⟨hwait _, fun _ _ => raises_raise _ _ _ _⟩
    · exact ⟨hmove, fun _ h => by omega⟩
    · exact ⟨movesBlock_setRegFld d hwrite fun hf => changesBlock_pending hk hf (by decide), fun _ h => by omega⟩
    · exact ⟨hmove, fun _ h => by omega⟩
    · exact ⟨movesBlock_setRegFld d hwrite fun hf => changesBlock_pending hk hf (by decide), fun _ h => by omega⟩
    · exact ⟨hmove, fun _ h => by omega⟩
    · exact ⟨hwait _, fun _ _ => raises_raise _ _ _ _⟩

end

/-! ## The three enables of a write -/

section
variable {d : Dev} {core : Bool} {i : Nat}

theorem blockFields_bounds (k : Nat) (x : Word) : (blockFields k x).2.1 < 4 := by
  have h := fld_lt (2 * k + 7) (2 * k + 6) x
  have hwidth : 2 * k + 7 + 1 - (2 * k + 6) = 2 := by omega
  rwa [hwidth] at h

/-- The write of an enable register moves each block by its own bit. -/
theorem clkWrite_fields (d : Dev) (hi : ClkNum core i) (n : Nat) : (∀ k, 1 ≤ k → k ≤ 3 →
      blockFields k ((d.clkWrite core i n).reg (clkReg core i)) =
        enableFields (bits (k - 1) (k - 1) n) (blockFields k (d.reg (clkReg core i))) ∧
      ((blockFields k (d.reg (clkReg core i))).1 ≠ bits (k - 1) (k - 1) n →
        ((blockFields k (d.reg (clkReg core i))).2.1 = 1 ∧ bits (k - 1) (k - 1) n = 0) ∨
          ((blockFields k (d.reg (clkReg core i))).2.1 = 3 ∧ bits (k - 1) (k - 1) n = 1) →
        Raises (d.clkWrite core i n) 0x1103)) := by
  have hbit : ∀ k, bits (k - 1) (k - 1) n < 2 := fun k => by
    have hwidth : k - 1 + 1 - (k - 1) = 1 := by omega
    unfold bits
    rw [hwidth]
    exact Nat.mod_lt _ (by decide)
  have hstep := fun (d : Dev) (k : Nat) (hk : 1 ≤ k ∧ k ≤ 3) =>
    movesBlock_clkEnable d hi hk (hbit k) (hf := rfl) (blockFields_bounds k (d.reg (clkReg core i)))
  have hraise : ∀ {d d' : Dev} {k f}, MovesBlock d d' core i k f → Raises d 0x1103 → Raises d' 0x1103 := fun h hr => by
    obtain ⟨x, hx, hcode⟩ := hr
    obtain ⟨l, hl⟩ := h.raised
    exact ⟨x, by rw [hl]; exact List.mem_append_left l hx, hcode⟩
  let d1 := d.clkEnable core i 1 (bits 0 0 n)
  let d2 := d1.clkEnable core i 2 (bits 1 1 n)
  obtain ⟨h1, r1⟩ := hstep d 1 (by decide)
  obtain ⟨h2, r2⟩ := hstep d1 2 (by decide)
  obtain ⟨h3, r3⟩ := hstep d2 3 (by decide)
  have heq : d.clkWrite core i n = d2.clkEnable core i 3 (bits 2 2 n) := rfl
  rw [heq]
  intro k hlo hhi
  have hk : k = 1 ∨ k = 2 ∨ k = 3 := by omega
  rcases hk with rfl | rfl | rfl
  · refine ⟨?_, fun hne hw => hraise h3 (hraise h2 (r1 hne hw))⟩
    rw [h3.fields.2 1 (by decide) (by decide) (by decide), h2.fields.2 1 (by decide) (by decide) (by decide)]
    exact h1.fields.1
  · have hbefore := h1.fields.2 2 (by decide) (by decide) (by decide)
    rw [← hbefore]
    refine ⟨?_, fun hne hw => hraise h3 (r2 hne hw)⟩
    rw [h3.fields.2 2 (by decide) (by decide) (by decide)]
    exact h2.fields.1
  · have hbefore := (h2.fields.2 3 (by decide) (by decide) (by decide)).trans (h1.fields.2 3 (by decide) (by decide) (by decide))
    rw [← hbefore]
    exact ⟨h3.fields.1, fun hne hw => r3 hne hw⟩

end

/-! ## The commands -/

theorem enableFields_fst (v : Nat) (f : Nat × Nat × Nat) : (enableFields v f).1 = v := by
  obtain ⟨en, st, pd⟩ := f
  unfold enableFields
  dsimp only
  split
  · next h => exact h
  · split <;> rfl

theorem toNat_ne {a b : Bool} (h : a ≠ b) : a.toNat ≠ b.toNat := fun h' => h (by cases a <;> cases b <;> simp_all)

/-- The enable, the state and PENDING of block k + 1 after a write, by the bits of the register. -/
theorem blockFields_succ (k : Nat) (x : Word) :
    blockFields (k + 1) x = ((x.getLsbD k).toNat, fld (2 * (k + 1) + 7) (2 * (k + 1) + 6) x, (x.getLsbD (16 + k)).toNat) := by
  have hplace : 15 + (k + 1) = 16 + k := by omega
  unfold blockFields
  rw [Nat.add_sub_cancel, hplace, fld_bit, fld_bit]

/-- What a written enable makes of a block that settles, moves, or is reversed (R571). -/
theorem enableFields_cases (old new : Bool) (st pd : Nat) :
    (old = new → (enableFields new.toNat (old.toNat, st, pd)).2.1 = st) ∧
    (old = false → new = true → st = 0 → (enableFields new.toNat (old.toNat, st, pd)).2.1 = 1) ∧
    (old = true → new = false → st = 2 → (enableFields new.toNat (old.toNat, st, pd)).2.1 = 3) ∧
    (old ≠ new → (st = 1 ∧ new = false) ∨ (st = 3 ∧ new = true) →
      (enableFields new.toNat (old.toNat, st, pd)).2.1 = st ∧ (enableFields new.toNat (old.toNat, st, pd)).2.2 = 1) := by
  refine ⟨fun h => ?_, fun ho hn hs => ?_, fun ho hn hs => ?_, fun hne hw => ?_⟩
  · subst h
    unfold enableFields
    dsimp only
    rw [if_pos rfl]
  · subst ho hn hs
    rfl
  · subst ho hn hs
    rfl
  · rcases hw with ⟨hs, hn⟩ | ⟨hs, hn⟩
    · subst hs hn
      cases old with
      | false => exact absurd rfl hne
      | true => exact ⟨rfl, rfl⟩
    · subst hs hn
      cases old with
      | false => exact ⟨rfl, rfl⟩
      | true => exact absurd rfl hne

section
variable {s : State} {b : ClkUnit}

theorem regDo_clkEnable (d : Dev) (b : ClkUnit) (v : BitVec 3) :
    d.regDo .host 0 (clkReg (clkIsCore b) (clkNum b)) (BitVec.allOnes 64) (BitVec.ofNat 64 v.toNat) =
      d.clkWrite (clkIsCore b) (clkNum b) v.toNat := by
  have hv : (BitVec.ofNat 64 v.toNat).toNat = v.toNat := by
    rw [BitVec.toNat_ofNat]
    exact Nat.mod_eq_of_lt (Nat.lt_trans v.isLt (by decide))
  have hcore : ∀ c, d.regDo .host 0 ⟨.clkEnCore, [c]⟩ (BitVec.allOnes 64) (BitVec.ofNat 64 v.toNat) =
      d.clkWrite true c (BitVec.ofNat 64 v.toNat).toNat := fun c => rfl
  have hcluster : ∀ g, d.regDo .host 0 ⟨.clkEnCluster, [g]⟩ (BitVec.allOnes 64) (BitVec.ofNat 64 v.toNat) =
      d.clkWrite false g (BitVec.ofNat 64 v.toNat).toNat := fun c => rfl
  rw [hv] at hcore hcluster
  cases b with
  | core c => exact hcore c
  | cluster g => exact hcluster g

theorem completes_clockEnableWrite (v : BitVec 3) (h : HostReaches s (clkReg (clkIsCore b) (clkNum b))) :
    Completes (.clockEnableWrite b v) s (fun d => ∀ k : Fin 3,
      let old := (s.dev.reg (clkReg (clkIsCore b) (clkNum b))).getLsbD k.val
      let new := v.getLsbD k.val
      let st := s.dev.clkState (clkIsCore b) (clkNum b) (k.val + 1)
      (d.reg (clkReg (clkIsCore b) (clkNum b))).getLsbD k.val = new ∧
      (old = new → d.clkState (clkIsCore b) (clkNum b) (k.val + 1) = st) ∧
      (old = false → new = true → st = 0 → d.clkState (clkIsCore b) (clkNum b) (k.val + 1) = 1) ∧
      (old = true → new = false → st = 2 → d.clkState (clkIsCore b) (clkNum b) (k.val + 1) = 3) ∧
      (old ≠ new → (st = 1 ∧ new = false) ∨ (st = 3 ∧ new = true) →
        d.clkState (clkIsCore b) (clkNum b) (k.val + 1) = st ∧
          (d.reg (clkReg (clkIsCore b) (clkNum b))).getLsbD (16 + k.val) = true ∧ Raises d 0x1103)) := by
  refine ⟨_, (exec_clockEnableWrite b v s).trans (run_live s _ h.1.1), rfl, fun k => ?_⟩
  intro old new st
  have heq : s.dev.silent.ctrlWrite .host (clkReg (clkIsCore b) (clkNum b)) (BitVec.ofNat 64 v.toNat) =
      s.dev.silent.clkWrite (clkIsCore b) (clkNum b) v.toNat := by
    have hopen : s.dev.rwtMask (clkReg (clkIsCore b) (clkNum b)) = 0 := by cases b <;> rfl
    rw [ctrlWrite_reaches (HostReaches.reaches h) (.inr hopen), regDo_clkEnable]
  obtain ⟨hfields, hraises⟩ := clkWrite_fields s.dev.silent (clkNum_ok b) v.toNat (k.val + 1) (by omega) (by omega)
  have hbits : bits (k.val + 1 - 1) (k.val + 1 - 1) v.toNat = new.toNat := fld_bit k.val v
  rw [heq]
  generalize s.dev.silent.clkWrite (clkIsCore b) (clkNum b) v.toNat = x at hfields hraises ⊢
  have hsettle := sparing_settle x
  have hreg : (x.settle.withPins s.dev).reg (clkReg (clkIsCore b) (clkNum b)) = x.reg (clkReg (clkIsCore b) (clkNum b)) :=
    hsettle.reg _ spared_clkReg
  have hold : s.dev.silent.reg (clkReg (clkIsCore b) (clkNum b)) = s.dev.reg (clkReg (clkIsCore b) (clkNum b)) := rfl
  rw [hbits, hold, blockFields_succ k.val (s.dev.reg _)] at hfields hraises
  rw [← hreg, blockFields_succ] at hfields
  have hraise : old ≠ new → (st = 1 ∧ new = false) ∨ (st = 3 ∧ new = true) → Raises (x.settle.withPins s.dev) 0x1103 := by
    intro hne hw
    refine hsettle.raises (hraises (toNat_ne hne) ?_)
    rcases hw with ⟨hs, hn⟩ | ⟨hs, hn⟩
    · exact .inl ⟨hs, by rw [hn]; rfl⟩
    · exact .inr ⟨hs, by rw [hn]; rfl⟩
  generalize x.settle.withPins s.dev = y at hfields hraise ⊢
  have hen : ((y.reg (clkReg (clkIsCore b) (clkNum b))).getLsbD k.val).toNat = new.toNat :=
    (congrArg Prod.fst hfields).trans (enableFields_fst _ _)
  have hstate : y.clkState (clkIsCore b) (clkNum b) (k.val + 1) = _ := congrArg (fun f => f.2.1) hfields
  have hpend : ((y.reg (clkReg (clkIsCore b) (clkNum b))).getLsbD (16 + k.val)).toNat = _ := congrArg (fun f => f.2.2) hfields
  obtain ⟨hsame, hup, hdown, hwait⟩ := enableFields_cases old new st
    ((s.dev.reg (clkReg (clkIsCore b) (clkNum b))).getLsbD (16 + k.val)).toNat
  refine ⟨?_, fun h => hstate.trans (hsame h), fun ho hn hs => hstate.trans (hup ho hn hs), fun ho hn hs => hstate.trans (hdown ho hn hs),
    fun hne hw => ⟨hstate.trans (hwait hne hw).1, ?_, hraise hne hw⟩⟩
  · exact Decidable.byContradiction fun h => toNat_ne h hen
  · have hone : ((y.reg (clkReg (clkIsCore b) (clkNum b))).getLsbD (16 + k.val)).toNat = true.toNat := hpend.trans (hwait hne hw).2
    exact Decidable.byContradiction fun h => toNat_ne h hone

end

/-! ## A block that comes up or has stopped -/

/-- Registers change, but not r. -/
structure KeptReg (r : Reg) (d d' : Dev) : Prop where
  rest : d' = { d with regs := d'.regs }
  reg : d'.reg r = d.reg r

namespace KeptReg

variable {r : Reg} {d d' d'' : Dev}

theorem refl (d : Dev) : KeptReg r d d := ⟨rfl, rfl⟩

theorem trans (h : KeptReg r d d') (h' : KeptReg r d' d'') : KeptReg r d d'' := by
  refine ⟨h'.rest.trans ?_, h'.reg.trans h.reg⟩
  rw [h.rest]

theorem foldl {α : Type} {f : Dev → α → Dev} {l : List α} (hf : ∀ d, ∀ x ∈ l, KeptReg r d (f d x)) :
    ∀ d, KeptReg r d (l.foldl f d) := by
  induction l with
  | nil => exact fun d => refl d
  | cons x l ih =>
    exact fun d => (hf d x List.mem_cons_self).trans (ih (fun d y hy => hf d y (List.mem_cons_of_mem x hy)) (f d x))

theorem regReset (d : Dev) {x : Reg} (h : x.addr ≠ r.addr) : KeptReg r d (d.regReset x) := ⟨rfl, Dev.setReg_ne _ _ _ _ h⟩

end KeptReg

/-- What a block that takes its reset values leaves (R571). -/
structure ResetsBlock (d d' : Dev) (core : Bool) (i k : Nat) : Prop where
  reg : d'.reg (clkReg core i) = d.reg (clkReg core i)
  mem : d'.mem = d.mem
  due : d'.pruneDue = d.pruneDue
  pins : d'.resetN = d.resetN ∧ d'.vin = d.vin
  cores : ∀ j, core = false ∨ j ≠ i → d'.core j = d.core j
  block : (core = true → k = 1 → (d'.core i).me = {}) ∧ (core = true → k = 2 → (d'.core i).ve = {}) ∧
    (core = true → k = 3 → (d'.core i).fte = {}) ∧ (core = false → k = 1 → d'.dmaEng i = {})

section
variable (d : Dev) {i : Nat}

theorem keptReg_core {ks : List RK} (hks : ∀ k ∈ ks, k ∈ [RK.meFlagsSnap, .mePerfBusy, .mePerfLoad, .mePerfRows, .mePerfWait,
    .veFlagsSnap, .veSolveTol, .veSolveStatus, .vePerfBusy, .vePerfWait, .ftePerfDeliv, .ftePerfLoss, .ftePerfLead, .ftePerfWait]) :
    KeptReg (clkReg true i) d (d.regsReset ks [i]) := by
  refine KeptReg.foldl (fun d k hk => KeptReg.regReset d ?_) d
  have hmem := hks k hk
  simp only [List.mem_cons, List.not_mem_nil, or_false] at hmem
  rcases hmem with rfl | rfl | rfl | rfl | rfl | rfl | rfl | rfl | rfl | rfl | rfl | rfl | rfl | rfl <;>
    simp [clkReg, Reg.addr, RK.row]

theorem keptReg_channels : KeptReg (clkReg false i) d ((upTo 16).foldl (fun d ch =>
    ((d.regReset ⟨.dmaChRing, [i, ch]⟩).regReset ⟨.dmaChCtrl, [i, ch]⟩).regReset ⟨.dmaChStatus, [i, ch]⟩) d) := by
  refine KeptReg.foldl (fun d ch hch => ?_) d
  have hch := List.mem_range.1 hch
  exact ((KeptReg.regReset d (by simp [clkReg, Reg.addr, RK.row]; omega)).trans
    (KeptReg.regReset _ (by simp [clkReg, Reg.addr, RK.row]; omega))).trans
    (KeptReg.regReset _ (by simp [clkReg, Reg.addr, RK.row]; omega))

theorem keptReg_windows : KeptReg (clkReg false i) d ((upTo 63).foldl (fun d w =>
    (d.regReset ⟨.dmaWinBase, [i, w + 1]⟩).regReset ⟨.dmaWinCfg, [i, w + 1]⟩) d) := by
  refine KeptReg.foldl (fun d w hw => ?_) d
  have hw := List.mem_range.1 hw
  exact (KeptReg.regReset d (by simp [clkReg, Reg.addr, RK.row]; omega)).trans
    (KeptReg.regReset _ (by simp [clkReg, Reg.addr, RK.row]; omega))

theorem keptReg_cvu {n : Nat} (hn : n / 2 = i) : KeptReg (clkReg false i) d
    ([RK.cvuCfg, .cvuPoly, .cvuInit, .cvuState, .cvuPos, .cvuFoldBase, .cvuSeq, .cvuFeedAddr].foldl
      (fun (d : Dev) k => let r : Reg := ⟨k, [n / 2, n % 2]⟩; d.setReg r r.resetVal) d) := by
  refine KeptReg.foldl (fun d k hk => KeptReg.regReset d ?_) d
  rw [hn]
  simp only [List.mem_cons, List.not_mem_nil, or_false] at hk
  rcases hk with rfl | rfl | rfl | rfl | rfl | rfl | rfl | rfl <;> simp [clkReg, Reg.addr, RK.row] <;> omega

theorem resetsBlock_blockReset {core : Bool} {k : Nat} (hk : 1 ≤ k ∧ k ≤ 3) : ResetsBlock d (d.blockReset core i k) core i k := by
  obtain ⟨hlo, hhi⟩ := hk
  unfold Dev.blockReset
  cases core with
  | true =>
    have hkept : ∀ (f : Core → Core) (ks : List RK), (∀ k ∈ ks, k ∈ [RK.meFlagsSnap, .mePerfBusy, .mePerfLoad, .mePerfRows, .mePerfWait,
        .veFlagsSnap, .veSolveTol, .veSolveStatus, .vePerfBusy, .vePerfWait, .ftePerfDeliv, .ftePerfLoss, .ftePerfLead, .ftePerfWait]) →
        ((k = 1 → (f (d.core i)).me = {}) ∧ (k = 2 → (f (d.core i)).ve = {}) ∧ (k = 3 → (f (d.core i)).fte = {})) →
        ResetsBlock d ((d.onCore i f).regsReset ks [i]) true i k := by
      intro f ks hks hf
      have h := keptReg_core (d.onCore i f) (i := i) hks
      have hcore : ∀ j, ((d.onCore i f).regsReset ks [i]).core j = if i = j then f (d.core i) else d.core j := fun j => by
        rw [← Dev.onCore_get]
        exact Dev.core_congr (by rw [h.rest]) j
      refine ⟨h.reg.trans rfl, by rw [h.rest]; rfl, by rw [h.rest]; rfl, ⟨by rw [h.rest]; rfl, by rw [h.rest]; rfl⟩, fun j hj => ?_, ?_⟩
      · rcases hj with hj | hj
        · exact absurd hj (by decide)
        · exact (hcore j).trans (if_neg (Ne.symm hj))
      · rw [hcore, if_pos rfl]
        exact ⟨fun _ => hf.1, fun _ => hf.2.1, fun _ => hf.2.2, nofun⟩
    rw [if_pos rfl]
    have hcases : k = 1 ∨ k = 2 ∨ k = 3 := by omega
    rcases hcases with rfl | rfl | rfl
    · exact hkept _ _ (by decide) ⟨fun _ => rfl, nofun, nofun⟩
    · exact hkept _ _ (by decide) ⟨nofun, fun _ => rfl, nofun⟩
    · exact hkept _ _ (by decide) ⟨nofun, nofun, fun _ => rfl⟩
  | false =>
    rw [if_neg Bool.false_ne_true]
    split
    · next h1 =>
      have h := (keptReg_channels (d.onDma i (fun _ => {})) (i := i)).trans (keptReg_windows _)
      have heng : (d.onDma i (fun _ => {})).dmaEng i = {} := by rw [Dev.onDma_get, if_pos rfl]
      dsimp only
      generalize (upTo 63).foldl _ _ = x at h ⊢
      refine ⟨h.reg.trans rfl, by rw [h.rest]; rfl, by rw [h.rest]; rfl, ⟨by rw [h.rest]; rfl, by rw [h.rest]; rfl⟩,
        fun j _ => Dev.core_congr (by rw [h.rest]; rfl) j, nofun, nofun, nofun, fun _ _ => ?_⟩
      exact (dmaEng_congr (by rw [h.rest]) i).trans heng
    · next h1 =>
      have hn : (2 * i + k - 2) / 2 = i := by omega
      have h := keptReg_cvu d hn
      unfold Dev.cvuReset
      dsimp only
      generalize [RK.cvuCfg, .cvuPoly, .cvuInit, .cvuState, .cvuPos, .cvuFoldBase, .cvuSeq, .cvuFeedAddr].foldl _ d = x at h ⊢
      refine ⟨h.reg, by rw [h.rest], by rw [h.rest], ⟨by rw [h.rest], by rw [h.rest]⟩, fun j _ => Dev.core_congr (by rw [h.rest]) j,
        nofun, nofun, nofun, fun _ hk => absurd hk h1⟩

end

/-- A block that does not begin to stop changes registers alone. -/
theorem clkMove_regs (d : Dev) {core : Bool} {i k : Nat}
    (h : ¬ (d.clkState core i k = 2 ∧ d.regFld (clkReg core i) (k - 1) (k - 1) = 0)) :
    d.clkMove core i k = { d with regs := (d.clkMove core i k).regs } := by
  unfold Dev.clkMove
  dsimp only
  split
  · rfl
  · next hst hen => exact absurd ⟨hst, hen⟩ h
  · rfl

/-- A block that has come up, or stopped, and moves on toward its enable: its fields, and what its reset leaves. -/
theorem blockDone_facts (d : Dev) {core : Bool} {i k st nx : Nat} (hi : ClkNum core i) (hk : 1 ≤ k ∧ k ≤ 3) (hnx : nx < 4) {en pd : Nat}
    (hf : blockFields k (d.reg (clkReg core i)) = (en, st, pd)) :
    blockFields k ((((d.blockReset core i k).setClkState core i k nx).clkMove core i k).reg (clkReg core i)) = moveFields (en, nx, pd) ∧
    (¬ (nx = 2 ∧ en = 0) →
      ResetsBlock { d with regs := [] } { ((d.blockReset core i k).setClkState core i k nx).clkMove core i k with regs := [] } core i k) := by
  have hreset := resetsBlock_blockReset d (core := core) (i := i) hk
  have hself : MovesBlock (d.blockReset core i k) (d.blockReset core i k) core i k (en, st, pd) := by
    rw [← hf, ← hreset.reg]
    exact movesBlock_refl _
  have hset : MovesBlock (d.blockReset core i k) ((d.blockReset core i k).setClkState core i k nx) core i k (en, nx, pd) :=
    movesBlock_setRegFld _ hself fun hf => changesBlock_state hk hf hnx
  refine ⟨(movesBlock_clkMove hi hk hset).fields.1, fun hstay => ?_⟩
  have hen : ((d.blockReset core i k).setClkState core i k nx).regFld (clkReg core i) (k - 1) (k - 1) = en :=
    congrArg Prod.fst hset.fields.1
  have hst : ((d.blockReset core i k).setClkState core i k nx).clkState core i k = nx := congrArg (fun f => f.2.1) hset.fields.1
  have hregs := clkMove_regs ((d.blockReset core i k).setClkState core i k nx) (core := core) (i := i) (k := k) (by rw [hst, hen]; exact hstay)
  rw [hregs]
  exact ⟨rfl, hreset.mem, hreset.due, hreset.pins, hreset.cores, hreset.block⟩

theorem moveFields_pending (en st pd : Nat) : (moveFields (en, st, pd)).2.2 = 0 := by
  unfold moveFields
  dsimp only
  split <;> rfl

theorem moveFields_state (en st pd pd' : Nat) : (moveFields (en, st, pd)).2.1 = (moveFields (en, st, pd')).2.1 := rfl

section
variable {s : State} {b : ClkUnit} {k : Fin 3}

/-- The state, PENDING and the losses of a block whose transition ends without another stop. -/
theorem clockDone_stays {d : Dev} {st nx : Nat} (hnx : nx < 4) (en : Bool)
    (hst : d.clkState (clkIsCore b) (clkNum b) (k.val + 1) = st)
    (hen : (d.reg (clkReg (clkIsCore b) (clkNum b))).getLsbD k.val = en) (hstay : ¬ (nx = 2 ∧ en = false)) (d' : Dev)
    (hd : ((d.blockReset (clkIsCore b) (clkNum b) (k.val + 1)).setClkState (clkIsCore b) (clkNum b) (k.val + 1) nx).clkMove
      (clkIsCore b) (clkNum b) (k.val + 1) = d') :
    d'.pruneDue = d.pruneDue ∧ (d'.resetN = d.resetN ∧ d'.vin = d.vin) ∧
    (∀ pd, d'.clkState (clkIsCore b) (clkNum b) (k.val + 1) = (moveFields (en.toNat, nx, pd)).2.1) ∧
    (d'.reg (clkReg (clkIsCore b) (clkNum b))).getLsbD (16 + k.val) = false ∧
    (clkIsCore b = true → k.val = 0 → (d'.core (clkNum b)).me = {}) ∧ (clkIsCore b = true → k.val = 1 → (d'.core (clkNum b)).ve = {}) ∧
    (clkIsCore b = true → k.val = 2 → (d'.core (clkNum b)).fte = {}) ∧ (clkIsCore b = false → k.val = 0 → d'.dmaEng (clkNum b) = {}) ∧
    (∀ j, clkIsCore b = false ∨ j ≠ clkNum b → d'.core j = d.core j) ∧ d'.mem = d.mem := by
  have hf : blockFields (k.val + 1) (d.reg (clkReg (clkIsCore b) (clkNum b))) =
      (en.toNat, st, ((d.reg (clkReg (clkIsCore b) (clkNum b))).getLsbD (16 + k.val)).toNat) := by
    rw [blockFields_succ, hen, ← hst]
    rfl
  obtain ⟨hfields, hreset⟩ := blockDone_facts d (clkNum_ok b) (by omega) hnx hf
  have hreset := hreset (fun h => hstay ⟨h.1, by cases en with
    | false => rfl
    | true => exact absurd h.2 (by decide)⟩)
  rw [hd] at hfields hreset
  obtain ⟨hme, hve, hfte, hdma⟩ := hreset.block
  refine ⟨hreset.due, hreset.pins, fun pd => (congrArg (fun f => f.2.1) hfields).trans (moveFields_state _ _ _ _), ?_,
    fun h h' => hme h (by rw [h']), fun h h' => hve h (by rw [h']), fun h h' => hfte h (by rw [h']), fun h h' => hdma h (by rw [h']),
    hreset.cores, hreset.mem⟩
  rw [blockFields_succ] at hfields
  have hone : ((d'.reg (clkReg (clkIsCore b) (clkNum b))).getLsbD (16 + k.val)).toNat = false.toNat :=
    (congrArg (fun f => f.2.2) hfields).trans (moveFields_pending _ _ _)
  exact Decidable.byContradiction fun h => toNat_ne h hone

theorem completes_clockEnableUp (hacts : Acts s) (hst : s.dev.clkState (clkIsCore b) (clkNum b) (k.val + 1) = 1)
    (hen : (s.dev.reg (clkReg (clkIsCore b) (clkNum b))).getLsbD k.val = false) :
    Completes (.clockEnableUpDone b k) s (fun d => d.clkState (clkIsCore b) (clkNum b) (k.val + 1) = 3) := by
  refine ⟨_, (exec_clockEnableUpDone b k s).trans (run_live s _ hacts.1), rfl, ?_⟩
  have hf : blockFields (k.val + 1) (s.dev.silent.reg (clkReg (clkIsCore b) (clkNum b))) =
      (0, 1, ((s.dev.reg (clkReg (clkIsCore b) (clkNum b))).getLsbD (16 + k.val)).toNat) := by
    change blockFields (k.val + 1) (s.dev.reg (clkReg (clkIsCore b) (clkNum b))) = _
    have hst' : fld (2 * (k.val + 1) + 7) (2 * (k.val + 1) + 6) (s.dev.reg (clkReg (clkIsCore b) (clkNum b))) = 1 := hst
    rw [blockFields_succ, hen, hst']
    rfl
  obtain ⟨hfields, -⟩ := blockDone_facts s.dev.silent (clkNum_ok b) (by omega) (nx := 2) (by decide) hf
  have hup : s.dev.silent.clkUpDone (clkIsCore b) (clkNum b) (k.val + 1) = _ := if_pos hst
  rw [hup]
  generalize ((s.dev.silent.blockReset (clkIsCore b) (clkNum b) (k.val + 1)).setClkState (clkIsCore b) (clkNum b) (k.val + 1) 2).clkMove
    (clkIsCore b) (clkNum b) (k.val + 1) = x at hfields ⊢
  have hreg : (x.settle.withPins s.dev).reg (clkReg (clkIsCore b) (clkNum b)) = x.reg (clkReg (clkIsCore b) (clkNum b)) :=
    (sparing_settle x).reg _ spared_clkReg
  rw [← hreg] at hfields
  exact congrArg (fun f => f.2.1) hfields

end

/-- No abort of a channel keeps the DMA engine from stopping. -/
theorem stops_ready {s : State} {b : ClkUnit} {k : Fin 3}
    (h : clkIsCore b = false → k.val = 0 → s.dev.dmaAborting (clkNum b) = false) :
    clkIsCore b = true ∨ k.val + 1 ≠ 1 ∨ s.dev.silent.dmaAborting (clkNum b) = false := by
  cases hb : clkIsCore b with
  | true => exact .inl rfl
  | false =>
    by_cases hk : k.val = 0
    · exact .inr (.inr (h hb hk))
    · exact .inr (.inl (by omega))

/-- Settles O39: a written enable moves each block's three fields by itself (`clkWrite_fields`), which no abort and no prune touches
(`sparing_settle`); a transition's end resets the block (`resetsBlock_blockReset`) and moves it on. -/
theorem clockEnables : Obligations.ClockEnables := by
  unfold Obligations.ClockEnables
  intro b s core i r lost
  refine ⟨fun v h => completes_clockEnableWrite v h, fun k hacts hst => ⟨fun hen => ?_, fun hen => completes_clockEnableUp hacts hst hen⟩,
    fun k hacts hst habort => ⟨fun hen => ?_, fun hen => ?_⟩⟩
  · obtain ⟨hdue, hpins, hstate, hpend, hlost⟩ := clockDone_stays (d := s.dev.silent) (b := b) (k := k) (nx := 2) (by decide) true hst hen
      (by decide) _ rfl
    exact completes_as hacts (exec_clockEnableUpDone b k s) (if_pos hst) hdue hpins ⟨hstate 0, hpend, hlost⟩
  · obtain ⟨hdue, hpins, hstate, hpend, hlost⟩ := clockDone_stays (d := s.dev.silent) (b := b) (k := k) (nx := 0) (by decide) false hst
      hen (by decide) _ rfl
    exact completes_as hacts (exec_clockEnableStopDone b k s) (if_pos ⟨hst, stops_ready habort⟩) hdue hpins ⟨hstate 0, hpend, hlost⟩
  · obtain ⟨hdue, hpins, hstate, -, hlost⟩ := clockDone_stays (d := s.dev.silent) (b := b) (k := k) (nx := 0) (by decide) true hst
      hen (by decide) _ rfl
    exact completes_as hacts (exec_clockEnableStopDone b k s) (if_pos ⟨hst, stops_ready habort⟩) hdue hpins ⟨hstate 0, hlost⟩

end Sys2Proof.Machine
end

section
/-! SUPPORT. What a port that leaves its state, and a tile that is turned off, leave (R420, R433, R560, R569, R573). -/
namespace Sys2Proof.Machine

open Safety

/-! ## A port leaves its state -/

/-- Links, mirrors, ports' counts and delays change, events are raised; a port keeps all but its event and its count. -/
structure LinksMoved (d d' : Dev) : Prop where
  rest : d' = { d with
    regs := d'.regs, ports := d'.ports, links := d'.links, redHeld := d'.redHeld, mirrors := d'.mirrors, nea := d'.nea
    raised := d'.raised }
  reg : ∀ r : Reg, (∀ q, Reg.addr ⟨.tmpPortDelay, [q]⟩ ≠ r.addr) → d'.reg r = d.reg r
  raised : ∃ l, d'.raised = d.raised ++ l
  port : ∀ j, ∃ e b, d'.port j = { d.port j with event := e, counted := b }

namespace LinksMoved

variable {d d' d'' : Dev}

theorem refl (d : Dev) : LinksMoved d d := ⟨rfl, fun _ _ => rfl, ⟨[], (List.append_nil _).symm⟩, fun _ => ⟨_, _, rfl⟩⟩

theorem trans (h : LinksMoved d d') (h' : LinksMoved d' d'') : LinksMoved d d'' := by
  obtain ⟨hrest, hreg, ⟨l, hl⟩, hport⟩ := h
  obtain ⟨hrest', hreg', ⟨l', hl'⟩, hport'⟩ := h'
  refine ⟨hrest'.trans ?_, fun r hr => (hreg' r hr).trans (hreg r hr), ⟨l ++ l', by rw [hl', hl, List.append_assoc]⟩, fun j => ?_⟩
  · rw [hrest]
  · obtain ⟨e, b, hj⟩ := hport j
    obtain ⟨e', b', hj'⟩ := hport' j
    exact ⟨e', b', by rw [hj', hj]⟩

theorem foldl {α : Type} {f : Dev → α → Dev} {l : List α} (hf : ∀ d x, LinksMoved d (f d x)) : ∀ d, LinksMoved d (l.foldl f d) := by
  induction l with
  | nil => exact fun d => refl d
  | cons x l ih => exact fun d => (hf d x).trans (ih (f d x))

theorem raises (h : LinksMoved d d') {code : Nat} (hr : Raises d code) : Raises d' code := by
  obtain ⟨x, hx, hcode⟩ := hr
  obtain ⟨l, hl⟩ := h.raised
  exact ⟨x, by rw [hl]; exact List.mem_append_left l hx, hcode⟩

end LinksMoved

theorem linksMoved_ite {d x y : Dev} {c : Prop} [Decidable c] (hx : LinksMoved d x) (hy : LinksMoved d y) :
    LinksMoved d (if c then x else y) := by
  split
  · exact hx
  · exact hy

section
variable (d : Dev)

theorem linksMoved_raise (code : Nat) (part : Option Nat) (unit : Nat) : LinksMoved d (d.raise code part unit) :=
  ⟨rfl, fun _ _ => rfl, ⟨_, rfl⟩, fun _ => ⟨_, _, rfl⟩⟩

theorem linksMoved_links (m : FMap Link) : LinksMoved d { d with links := m } :=
  ⟨rfl, fun _ _ => rfl, ⟨[], (List.append_nil _).symm⟩, fun _ => ⟨_, _, rfl⟩⟩

theorem linksMoved_onLink (l : Nat) (f : Link → Link) : LinksMoved d (d.onLink l f) := linksMoved_links d _

/-- An update of a port's event and count. -/
theorem linksMoved_onPort (q : Nat) {f : Port → Port} (hf : ∀ x, ∃ e b, f x = { x with event := e, counted := b }) :
    LinksMoved d (d.onPort q f) := by
  refine ⟨rfl, fun _ _ => rfl, ⟨[], (List.append_nil _).symm⟩, fun j => ?_⟩
  rw [Dev.onPort_get]
  split
  · next h => subst h; exact hf _
  · exact ⟨_, _, rfl⟩

theorem linksMoved_portEvent (q code : Nat) : LinksMoved d (d.portEvent q code) :=
  (linksMoved_onPort d q fun _ => ⟨_, _, rfl⟩).trans (linksMoved_raise _ _ _ _)

/-- The ports of a link that is lost count no cells of theirs any more. -/
def Dev.uncount (d : Dev) (l : Nat) : Dev :=
  (upTo 24).foldl (fun (d : Dev) q => if d.portLink q = l then d.onPort q (fun x => { x with counted := false }) else d) d

theorem linksMoved_uncount (l : Nat) : LinksMoved d (d.uncount l) :=
  LinksMoved.foldl (fun d q => linksMoved_ite (linksMoved_onPort d q fun _ => ⟨_, _, rfl⟩) (LinksMoved.refl d)) d

theorem linksMoved_written (m : FMap Link) (h : List QPkt) : LinksMoved d { d with links := m, redHeld := h } :=
  ⟨rfl, fun _ _ => rfl, ⟨[], (List.append_nil _).symm⟩, fun _ => ⟨_, _, rfl⟩⟩

theorem linksMoved_linkLost (l : Nat) : LinksMoved d (d.linkLost l) := by
  unfold Dev.linkLost
  dsimp only
  exact LinksMoved.trans ((linksMoved_onLink d l _).trans (linksMoved_written _ _ _)) (linksMoved_uncount _ l)

theorem linksMoved_mirrors (m : FMap MirrorRegion) : LinksMoved d { d with mirrors := m } :=
  ⟨rfl, fun _ _ => rfl, ⟨[], (List.append_nil _).symm⟩, fun _ => ⟨_, _, rfl⟩⟩

theorem linksMoved_onCtx (c : Nat) (f : NeaCtx → NeaCtx) : LinksMoved d (d.onCtx c f) :=
  ⟨rfl, fun _ _ => rfl, ⟨[], (List.append_nil _).symm⟩, fun _ => ⟨_, _, rfl⟩⟩

theorem linksMoved_neaEvent (c code : Nat) : LinksMoved d (d.neaEvent c code) :=
  (linksMoved_onCtx d c _).trans (linksMoved_raise _ _ _ _)

/-- The copy that context c receives from a partner out of reach is discarded. -/
def Dev.recvDropped (d : Dev) (c : Nat) : Dev :=
  match (FMap.getD d.mirrors c {}).recv with
  | some x =>
    if d.reaches x.dev then d
    else ({ d with mirrors := FMap.set d.mirrors {} c { FMap.getD d.mirrors c {} with recv := none } } : Dev).raise 0x0B0C none c
  | none => d

/-- The stream of context c to a partner out of reach fails. -/
def Dev.sendStopped (d : Dev) (c : Nat) : Dev :=
  if (d.ctx c).sending.isSome ∧ !d.reaches (d.regFld ⟨.neaMirrorCfg, []⟩ 17 0) then
    ((d.mirrorUnqueue c).onCtx c (fun x => { x with sending := none })).neaEvent c 0x0B0C
  else d

theorem mirrorLost_eq : d.mirrorLost = (upTo 8).foldl (fun (d : Dev) c => (d.recvDropped c).sendStopped c) d := rfl

theorem linksMoved_recvDropped (c : Nat) : LinksMoved d (d.recvDropped c) := by
  unfold Dev.recvDropped
  split
  · exact linksMoved_ite (LinksMoved.refl d) ((linksMoved_mirrors d _).trans (linksMoved_raise _ _ _ _))
  · exact LinksMoved.refl d

theorem linksMoved_sendStopped (c : Nat) : LinksMoved d (d.sendStopped c) :=
  linksMoved_ite (((linksMoved_links d _).trans (linksMoved_onCtx _ c _)).trans (linksMoved_neaEvent _ c _)) (LinksMoved.refl d)

theorem linksMoved_mirrorLost : LinksMoved d d.mirrorLost :=
  LinksMoved.foldl (fun d c => (linksMoved_recvDropped d c).trans (linksMoved_sendStopped _ c)) d

theorem linksMoved_memberDown (q : Nat) (carried : Bool) : LinksMoved d (d.memberDown q carried) := by
  unfold Dev.memberDown
  dsimp only
  split
  · exact linksMoved_portEvent d q _
  · split
    · exact (((linksMoved_portEvent d q _).trans (linksMoved_onLink _ _ _)).trans (linksMoved_linkLost _ _)).trans
        (linksMoved_mirrorLost _)
    · exact (linksMoved_portEvent d q _).trans (linksMoved_onLink _ _ _)

/-- A port that has left its state for st: its delays start again where it trains anew. -/
def Port.left (x : Port) (st : PortState) : Port :=
  { x with
    st := st, lost := none
    hold := x.hold && !(st = .off || st = .failed || st = .quarantine)
    peerGraft := x.peerGraft && !(st = .off || st = .failed || st = .quarantine)
    delays := if st = .lock ∨ st = .detect ∨ st = .off then [] else x.delays }

/-- The device whose port q has left its state, before its link notices. -/
def Dev.portLeft (d : Dev) (q : Nat) (st : PortState) : Dev :=
  let d0 := d.onPort q (fun x => { x with
    st := st, lost := none
    hold := x.hold && !(st = .off || st = .failed || st = .quarantine)
    peerGraft := x.peerGraft && !(st = .off || st = .failed || st = .quarantine) })
  if st = .lock ∨ st = .detect ∨ st = .off then d0.delaysClear q else d0

theorem portLeave_eq (q : Nat) (st : PortState) : d.portLeave q st =
    if (d.port q).st = .up then (d.portLeft q st).memberDown q (d.port q).carries else d.portLeft q st := rfl

theorem delaysClear_port (q j : Nat) : (d.delaysClear q).port j = if q = j then { d.port q with delays := [] } else d.port j :=
  Dev.onPort_get d q j (fun x => { x with delays := [] })

theorem portLeft_port (q : Nat) (st : PortState) (j : Nat) :
    (d.portLeft q st).port j = if q = j then (d.port q).left st else d.port j := by
  unfold Dev.portLeft Port.left
  dsimp only
  by_cases hnew : st = .lock ∨ st = .detect ∨ st = .off
  · rw [if_pos hnew, if_pos hnew]
    rw [delaysClear_port, Dev.onPort_get, Dev.onPort_get, if_pos rfl]
    split <;> rfl
  · rw [if_neg hnew, if_neg hnew, Dev.onPort_get]

theorem portLeft_rest (q : Nat) (st : PortState) :
    d.portLeft q st = { d with regs := (d.portLeft q st).regs, ports := (d.portLeft q st).ports } := by
  unfold Dev.portLeft
  dsimp only
  split <;> rfl

theorem portLeft_reg (q : Nat) (st : PortState) {r : Reg} (h : Reg.addr ⟨.tmpPortDelay, [q]⟩ ≠ r.addr) :
    (d.portLeft q st).reg r = d.reg r := by
  unfold Dev.portLeft
  dsimp only
  split
  · exact reg_setRegFld_ne _ h _ _ _
  · rfl

/-- A port that leaves its state: what its link then does is `LinksMoved`. -/
theorem portLeave_moved (q : Nat) (st : PortState) : LinksMoved (d.portLeft q st) (d.portLeave q st) := by
  rw [portLeave_eq]
  exact linksMoved_ite (linksMoved_memberDown _ _ _) (LinksMoved.refl _)

end

/-! ## What several ports that leave leave alone -/

/-- Registers, ports, links, mirrors and contexts change, events are raised. -/
structure PortsMoved (d d' : Dev) : Prop where
  rest : d' = { d with
    regs := d'.regs, ports := d'.ports, links := d'.links, redHeld := d'.redHeld, mirrors := d'.mirrors, nea := d'.nea
    raised := d'.raised }
  raised : ∃ l, d'.raised = d.raised ++ l

namespace PortsMoved

variable {d d' d'' : Dev}

theorem refl (d : Dev) : PortsMoved d d := ⟨rfl, ⟨[], (List.append_nil _).symm⟩⟩

theorem trans (h : PortsMoved d d') (h' : PortsMoved d' d'') : PortsMoved d d'' := by
  obtain ⟨hrest, ⟨l, hl⟩⟩ := h
  obtain ⟨hrest', ⟨l', hl'⟩⟩ := h'
  refine ⟨hrest'.trans ?_, ⟨l ++ l', by rw [hl', hl, List.append_assoc]⟩⟩
  rw [hrest]

theorem foldl {α : Type} {f : Dev → α → Dev} {l : List α} (hf : ∀ d x, PortsMoved d (f d x)) : ∀ d, PortsMoved d (l.foldl f d) := by
  induction l with
  | nil => exact fun d => refl d
  | cons x l ih => exact fun d => (hf d x).trans (ih (f d x))

theorem raises (h : PortsMoved d d') {code : Nat} (hr : Raises d code) : Raises d' code := by
  obtain ⟨x, hx, hcode⟩ := hr
  obtain ⟨l, hl⟩ := h.raised
  exact ⟨x, by rw [hl]; exact List.mem_append_left l hx, hcode⟩

end PortsMoved

theorem portsMoved_ite {d x y : Dev} {c : Prop} [Decidable c] (hx : PortsMoved d x) (hy : PortsMoved d y) :
    PortsMoved d (if c then x else y) := by
  split
  · exact hx
  · exact hy

section
variable (d : Dev)

theorem portsMoved_portLeave (q : Nat) (st : PortState) : PortsMoved d (d.portLeave q st) := by
  have hleft : PortsMoved d (d.portLeft q st) := by
    have hrest := portLeft_rest d q st
    refine ⟨?_, ⟨[], ?_⟩⟩
    · rw [hrest]
    · rw [hrest, List.append_nil]
  exact hleft.trans ⟨(portLeave_moved d q st).rest, (portLeave_moved d q st).raised⟩

theorem portsMoved_setReg (r : Reg) (v : Word) : PortsMoved d (d.setReg r v) := ⟨rfl, ⟨[], (List.append_nil _).symm⟩⟩

theorem portsMoved_portCommit (q : Nat) (v : Word) : PortsMoved d (d.portCommit q v) := by
  have hwrite : PortsMoved d ((if fld 1 0 v = 0 ∧ (d.port q).st ≠ .off then d.portLeave q .off else d).setReg ⟨.dvoPortCfg, [q]⟩ v) :=
    (portsMoved_ite (portsMoved_portLeave d q .off) (PortsMoved.refl d)).trans (portsMoved_setReg _ _ _)
  exact portsMoved_ite (hwrite.trans (portsMoved_portLeave _ q .detect)) hwrite

/-- The state of a port that has left it, and of the others. -/
theorem portLeave_st (q : Nat) (st : PortState) (j : Nat) :
    ((d.portLeave q st).port j).st = if q = j then st else (d.port j).st := by
  obtain ⟨e, b, hj⟩ := (portLeave_moved d q st).port j
  rw [hj, portLeft_port]
  split <;> rfl

end

end Sys2Proof.Machine
end

section
/-! SUPPORT. Proof of the statements about PLLs, voltage steps, power states and thermal trips (R558 to R574). -/
namespace Sys2Proof.Machine

open Safety

/-! ## A tile that is turned off (R573) -/

/-- What no step of a fold changes, the fold does not. -/
theorem foldl_keeps {α β : Type} (p : Dev → β) {f : Dev → α → Dev} (hf : ∀ d x, p (f d x) = p d) (l : List α) :
    ∀ d, p (l.foldl f d) = p d := by
  induction l with
  | nil => exact fun _ => rfl
  | cons x l ih => exact fun d => (ih (f d x)).trans (hf d x)

/-- What stands while a tile's memories, engines and ports are lost. -/
def Dev.standing (d : Dev) : (List (Nat × Nat) × Bool × Bool × Bool) × FMap Pll × FMap PwrTile :=
  ((d.pruneDue, d.resetN, d.vin, d.stopped), d.plls, d.pwr)

theorem PortsMoved.standing {d d' : Dev} (h : PortsMoved d d') : d'.standing = d.standing ∧ d'.mem = d.mem ∧ d'.cores = d.cores := by
  have hrest := h.rest
  exact ⟨by rw [hrest]; rfl, by rw [hrest], by rw [hrest]⟩

section
variable (d : Dev)

/-- The memories of tile t are lost. -/
def Dev.memoriesLost (t : Nat) : Dev :=
  (((d.tileBanks t Bank.p3Left).zeroSram (spdBase (96 * t)) (spdBase (96 * (t + 1)))).zeroSram (grvBase (4 * t)) (grvBase (4 * (t + 1)))).hbmLose t

/-- Core k is lost. -/
def Dev.coreGone (k : Nat) : Dev := ((d.genDrop k).setCore k {}).coreLost k

/-- The cores of tile t are lost. -/
def Dev.coresLost (t : Nat) : Dev := (upTo 96).foldl (fun d i => d.coreGone (96 * t + i)) d

/-- The DMA engines of tile t are lost. -/
def Dev.dmasLost (t : Nat) : Dev :=
  (upTo 4).foldl (fun d i => ((d.onDma (4 * t + i) (fun _ => {})).blockReset false (4 * t + i) 1).regReset
    ⟨.clkEnCluster, [4 * t + i]⟩) d

/-- The check-value units of tile t are lost. -/
def Dev.cvusLost (t : Nat) : Dev := (upTo 8).foldl (fun d i => d.cvuReset (8 * t + i)) d

/-- The ports of tile t go off. -/
def Dev.portsOff (t : Nat) : Dev := (upTo 6).foldl (fun d i => d.portLeave (6 * t + i) .off) d

/-- The clocks of tile t stop, and it stands in P3. -/
def Dev.clocksOff (t : Nat) : Dev :=
  (upTo 6).foldl (fun d i => d.onPll (8 + 6 * t + i) (fun x => { x with lock := false }))
    (((d.onPll t (fun x => { x with lock := false })).onPll (4 + t) (fun x => { x with lock := false })).onTile t
      (fun x => { x with st := .off, wait := none, stepping := false, divided := false }))

theorem enterOff_eq (t : Nat) :
    d.enterOff t = (((((d.memoriesLost t).coresLost t).dmasLost t).cvusLost t).portsOff t).clocksOff t := rfl

theorem memoriesLost_keeps (t : Nat) : (d.memoriesLost t).standing = d.standing ∧ (d.memoriesLost t).raised = d.raised ∧
    (d.memoriesLost t).cores = d.cores := by
  have hbanks : ∀ {β : Type} (p : Dev → β), (∀ (d : Dev) u f, p (d.onSram u f) = p d) → p (d.tileBanks t Bank.p3Left) = p d :=
    fun p hp => foldl_keeps p (fun d u => foldl_keeps p (fun d b => hp d u _) _ d) _ d
  have hzero : ∀ (x : Dev) a b a' b', (((x.zeroSram a b).zeroSram a' b').hbmLose t).standing = x.standing ∧
      (((x.zeroSram a b).zeroSram a' b').hbmLose t).raised = x.raised ∧ (((x.zeroSram a b).zeroSram a' b').hbmLose t).cores = x.cores :=
    fun _ _ _ _ _ => ⟨rfl, rfl, rfl⟩
  obtain ⟨hstanding, hraised, hcores⟩ := hzero (d.tileBanks t Bank.p3Left) (spdBase (96 * t)) (spdBase (96 * (t + 1))) (grvBase (4 * t))
    (grvBase (4 * (t + 1)))
  exact ⟨hstanding.trans (hbanks Dev.standing fun _ _ _ => rfl), hraised.trans (hbanks Dev.raised fun _ _ _ => rfl),
    hcores.trans (hbanks Dev.cores fun _ _ _ => rfl)⟩

theorem coresLost_keeps (t : Nat) : (d.coresLost t).standing = d.standing ∧ (d.coresLost t).raised = d.raised ∧
    (d.coresLost t).mem = d.mem := by
  have hlost : ∀ {β : Type} (p : Dev → β), (∀ (d : Dev) c, p ((d.genDrop c).setCore c {}) = p d) → (∀ (d : Dev) r, p (d.regReset r) = p d) →
      p (d.coresLost t) = p d := fun p hp hr =>
    foldl_keeps p (fun d i => (foldl_keeps p (fun d k => hr d _) _ _).trans (hp d _)) _ d
  exact ⟨hlost _ (fun _ _ => rfl) fun _ _ => rfl, hlost _ (fun _ _ => rfl) fun _ _ => rfl, hlost _ (fun _ _ => rfl) fun _ _ => rfl⟩

theorem dmasLost_keeps (t : Nat) : (d.dmasLost t).standing = d.standing ∧ (d.dmasLost t).raised = d.raised ∧
    (d.dmasLost t).mem = d.mem ∧ (d.dmasLost t).cores = d.cores := by
  have hlost : ∀ {β : Type} (p : Dev → β), (∀ (d : Dev) i f, p (d.onDma i f) = p d) → (∀ (d : Dev) r, p (d.regReset r) = p d) →
      p (d.dmasLost t) = p d := fun p hp hr => by
    refine foldl_keeps p (fun d i => (hr _ _).trans (Eq.trans ?_ (hp d (4 * t + i) (fun _ => {})))) _ d
    exact (foldl_keeps p (fun d w => (hr _ _).trans (hr _ _)) _ _).trans
      ((foldl_keeps p (fun d ch => ((hr _ _).trans (hr _ _)).trans (hr _ _)) _ _).trans (hp _ _ _))
  exact ⟨hlost _ (fun _ _ _ => rfl) fun _ _ => rfl, hlost _ (fun _ _ _ => rfl) fun _ _ => rfl, hlost _ (fun _ _ _ => rfl) fun _ _ => rfl,
    hlost _ (fun _ _ _ => rfl) fun _ _ => rfl⟩

theorem cvusLost_keeps (t : Nat) : (d.cvusLost t).standing = d.standing ∧ (d.cvusLost t).raised = d.raised ∧
    (d.cvusLost t).mem = d.mem ∧ (d.cvusLost t).cores = d.cores := by
  have hlost : ∀ {β : Type} (p : Dev → β), (∀ (d : Dev) r v, p (d.setReg r v) = p d) → (∀ (d : Dev) m, p { d with cvus := m } = p d) →
      p (d.cvusLost t) = p d := fun p hr hc =>
    foldl_keeps p (fun d i => (hc _ _).trans (foldl_keeps p (fun d k => hr d _ _) _ d)) _ d
  exact ⟨hlost _ (fun _ _ _ => rfl) fun _ _ => rfl, hlost _ (fun _ _ _ => rfl) fun _ _ => rfl, hlost _ (fun _ _ _ => rfl) fun _ _ => rfl,
    hlost _ (fun _ _ _ => rfl) fun _ _ => rfl⟩

theorem portsOff_keeps (t : Nat) : PortsMoved d (d.portsOff t) := PortsMoved.foldl (fun d _ => portsMoved_portLeave d _ .off) d

theorem regsReset_cores (ks : List RK) (is : List Nat) : (d.regsReset ks is).cores = d.cores :=
  foldl_keeps (f := fun (d : Dev) k => d.regReset ⟨k, is⟩) Dev.cores (fun _ _ => rfl) ks d

theorem coreGone_core (k c : Nat) : (d.coreGone k).core c = if k = c then {} else d.core c := by
  have hregs := regsReset_cores ((d.genDrop k).setCore k {}) [.meFlagsSnap, .mePerfBusy, .mePerfLoad, .mePerfRows, .mePerfWait,
    .veFlagsSnap, .veSolveTol, .veSolveStatus, .vePerfBusy, .vePerfWait, .ftePerfDeliv, .ftePerfLoss, .ftePerfLead, .ftePerfWait,
    .sqPerfStall, .clkEnCore] [k]
  have hset : ((d.genDrop k).setCore k {}).core c = if k = c then {} else (d.genDrop k).core c :=
    Dev.onCore_get (d.genDrop k) k c (fun _ => {})
  exact (Dev.core_congr hregs c).trans hset

theorem coresLost_core (t : Nat) {c : Nat} (hc : tileOf c = t) : (d.coresLost t).core c = {} := by
  have hfold : ∀ (l : List Nat) (d : Dev), (∃ i ∈ l, 96 * t + i = c) ∨ d.core c = {} →
      (l.foldl (fun (d : Dev) i => d.coreGone (96 * t + i)) d).core c = {} := by
    intro l
    induction l with
    | nil => exact fun d h => h.resolve_left (by rintro ⟨i, hi, -⟩; exact absurd hi List.not_mem_nil)
    | cons x l ih =>
      intro d h
      rw [List.foldl_cons]
      refine ih _ ?_
      rw [coreGone_core]
      by_cases hx : 96 * t + x = c
      · exact .inr (if_pos hx)
      · rw [if_neg hx]
        rcases h with ⟨i, hi, hic⟩ | h
        · rcases List.mem_cons.1 hi with rfl | hi
          · exact absurd hic hx
          · exact .inl ⟨i, hi, hic⟩
        · exact .inr h
  unfold tileOf at hc
  exact hfold (upTo 96) d (.inl ⟨c % 96, List.mem_range.2 (Nat.mod_lt _ (by decide)), by omega⟩)

theorem memoriesLost_bytes (t : Nat) : (d.memoriesLost t).mem.bytes =
    FMap.dropRange (FMap.dropRange (FMap.dropRange (d.tileBanks t Bank.p3Left).mem.bytes (spdBase (96 * t)) (spdBase (96 * (t + 1))))
      (grvBase (4 * t)) (grvBase (4 * (t + 1)))) (t * hbmTileBytes) ((t + 1) * hbmTileBytes) := by
  have hlost : ∀ (x : Dev) a b a' b', (((x.zeroSram a b).zeroSram a' b').hbmLose t).mem.bytes =
      FMap.dropRange (FMap.dropRange (FMap.dropRange x.mem.bytes a b) a' b') (t * hbmTileBytes) ((t + 1) * hbmTileBytes) :=
    fun _ _ _ _ _ => rfl
  exact hlost _ _ _ _ _

theorem memoriesLost_spd {t : Nat} (ht : t < 4) {y : Nat} (hlo : spdBase (96 * t) ≤ y) (hhi : y < spdBase (96 * (t + 1))) :
    (d.memoriesLost t).mem.get y = 0 := by
  have hbounds : 0x030000000000 ≤ y ∧ y < spdBase 384 := by
    unfold spdBase at *
    omega
  have hget : ∀ (m : Mem) (bytes : FMap Byte), m.bytes = bytes → FMap.getD bytes y 0 = 0 → m.get y = 0 := by
    intro m bytes hm h
    unfold Mem.get
    rw [blank_of_spd hbounds.1 hbounds.2, hm]
    exact h
  refine hget _ _ (memoriesLost_bytes d t) ?_
  rw [getD_dropRange, getD_dropRange, getD_dropRange]
  split
  · rfl
  · split
    · rfl
    · exact if_pos ⟨hlo, hhi⟩

/-- PLLs stop, and none comes back. -/
def PllsStop (d d' : Dev) : Prop :=
  ∀ k, (d'.pll k).failed = (d.pll k).failed ∧ ((d.pll k).lock = false → (d'.pll k).lock = false)

theorem pllsStop_onPll (k : Nat) : PllsStop d (d.onPll k (fun x => { x with lock := false })) := by
  intro j
  rw [Dev.onPll_get]
  split
  · next h => subst h; exact ⟨rfl, fun _ => rfl⟩
  · exact ⟨rfl, id⟩

theorem PllsStop.trans {d d' d'' : Dev} (h : PllsStop d d') (h' : PllsStop d' d'') : PllsStop d d'' := fun k =>
  ⟨(h' k).1.trans (h k).1, fun hk => (h' k).2 ((h k).2 hk)⟩

theorem clocksOff_plls (t : Nat) : PllsStop d (d.clocksOff t) := by
  have hfold : ∀ (l : List Nat) (d : Dev), PllsStop d
      (l.foldl (fun (d : Dev) i => d.onPll (8 + 6 * t + i) (fun x => { x with lock := false })) d) := by
    intro l
    induction l with
    | nil => exact fun d k => ⟨rfl, id⟩
    | cons x l ih => exact fun d => (pllsStop_onPll d _).trans (ih _)
  have htwo : PllsStop d (((d.onPll t (fun x => { x with lock := false })).onPll (4 + t) (fun x => { x with lock := false })).onTile t
      (fun x => { x with st := .off, wait := none, stepping := false, divided := false })) :=
    (pllsStop_onPll d t).trans (pllsStop_onPll _ (4 + t))
  exact htwo.trans (hfold _ _)

theorem clocksOff_ptile (t : Nat) : ((d.clocksOff t).ptile t).st = .off := by
  have hpwr : (d.clocksOff t).pwr = (((d.onPll t (fun x => { x with lock := false })).onPll (4 + t) (fun x => { x with lock := false })).onTile t
      (fun x => { x with st := .off, wait := none, stepping := false, divided := false })).pwr :=
    foldl_keeps (f := fun (d : Dev) i => d.onPll (8 + 6 * t + i) (fun x => { x with lock := false })) Dev.pwr (fun _ _ => rfl) _ _
  have htile : (d.clocksOff t).ptile t = (((d.onPll t (fun x => { x with lock := false })).onPll (4 + t) (fun x => { x with lock := false })).onTile t
      (fun x => { x with st := .off, wait := none, stepping := false, divided := false })).ptile t := by
    unfold Dev.ptile
    rw [hpwr]
  rw [htile, Dev.onTile_get, if_pos rfl]

theorem clocksOff_keeps (t : Nat) : (d.clocksOff t).pruneDue = d.pruneDue ∧ (d.clocksOff t).resetN = d.resetN ∧
    (d.clocksOff t).vin = d.vin ∧ (d.clocksOff t).stopped = d.stopped ∧ (d.clocksOff t).raised = d.raised ∧
    (d.clocksOff t).mem = d.mem ∧ (d.clocksOff t).cores = d.cores := by
  have hkeep : ∀ {β : Type} (p : Dev → β), (∀ (d : Dev) k f, p (d.onPll k f) = p d) → (∀ (d : Dev) k f, p (d.onTile k f) = p d) →
      p (d.clocksOff t) = p d := fun p hp ht =>
    (foldl_keeps p (fun d i => hp d _ _) _ _).trans ((ht _ _ _).trans ((hp _ _ _).trans (hp _ _ _)))
  exact ⟨hkeep _ (fun _ _ _ => rfl) fun _ _ _ => rfl, hkeep _ (fun _ _ _ => rfl) fun _ _ _ => rfl,
    hkeep _ (fun _ _ _ => rfl) fun _ _ _ => rfl, hkeep _ (fun _ _ _ => rfl) fun _ _ _ => rfl,
    hkeep _ (fun _ _ _ => rfl) fun _ _ _ => rfl, hkeep _ (fun _ _ _ => rfl) fun _ _ _ => rfl, hkeep _ (fun _ _ _ => rfl) fun _ _ _ => rfl⟩

/-- What a tile that is turned off leaves. -/
structure TileOff (d d' : Dev) (t : Nat) : Prop where
  tile : (d'.ptile t).st = .off
  plls : PllsStop d d'
  due : d'.pruneDue = d.pruneDue
  pins : d'.resetN = d.resetN ∧ d'.vin = d.vin
  stopped : d'.stopped = d.stopped
  raised : ∃ l, d'.raised = d.raised ++ l
  cores : ∀ c, tileOf c = t → d'.core c = {}
  spd : ∀ y, spdBase (96 * t) ≤ y → y < spdBase (96 * (t + 1)) → d'.mem.get y = 0

theorem TileOff.raises {d d' : Dev} {t : Nat} (h : TileOff d d' t) {code : Nat} (hr : Raises d code) : Raises d' code := by
  obtain ⟨x, hx, hcode⟩ := hr
  obtain ⟨l, hl⟩ := h.raised
  exact ⟨x, by rw [hl]; exact List.mem_append_left l hx, hcode⟩

/-- A tile whose memories, cores and blocks are lost goes off. -/
theorem tileOff_of {d x : Dev} {t : Nat} (hstanding : x.standing = d.standing) (hraised : x.raised = d.raised)
    (hcore : ∀ c, tileOf c = t → x.core c = {})
    (hspd : ∀ y, spdBase (96 * t) ≤ y → y < spdBase (96 * (t + 1)) → x.mem.get y = 0) : TileOff d ((x.portsOff t).clocksOff t) t := by
  obtain ⟨-, l, hl⟩ := portsOff_keeps x t
  have hplls := clocksOff_plls (x.portsOff t) t
  have htile := clocksOff_ptile (x.portsOff t) t
  obtain ⟨hdue6, hreset6, hvin6, hstopped6, hraised6, hmem6, hcores6⟩ := clocksOff_keeps (x.portsOff t) t
  obtain ⟨hsy, hmy, hcy⟩ := (portsOff_keeps x t).standing
  have hsd := hsy.trans hstanding
  simp only [Dev.standing, Prod.mk.injEq] at hsd
  obtain ⟨⟨hdue, hreset, hvin, hstopped⟩, hpll, -⟩ := hsd
  refine ⟨htile, fun k => ?_, hdue6.trans hdue, ⟨hreset6.trans hreset, hvin6.trans hvin⟩, hstopped6.trans hstopped,
    ⟨l, by rw [hraised6, hl, hraised]⟩, fun c hc => ?_, fun a hlo hhi => ?_⟩
  · have hk : (x.portsOff t).pll k = d.pll k := by
      unfold Dev.pll
      rw [hpll]
    rw [← hk]
    exact hplls k
  · exact (Dev.core_congr (hcores6.trans hcy) c).trans (hcore c hc)
  · rw [hmem6, hmy]
    exact hspd a hlo hhi

theorem tileOff_enterOff {t : Nat} (ht : t < 4) : TileOff d (d.enterOff t) t := by
  obtain ⟨s1, r1, -⟩ := memoriesLost_keeps d t
  obtain ⟨s2, r2, m2⟩ := coresLost_keeps (d.memoriesLost t) t
  obtain ⟨s3, r3, m3, c3⟩ := dmasLost_keeps ((d.memoriesLost t).coresLost t) t
  obtain ⟨s4, r4, m4, c4⟩ := cvusLost_keeps (((d.memoriesLost t).coresLost t).dmasLost t) t
  rw [enterOff_eq]
  exact tileOff_of (d := d) (((s4.trans s3).trans (s2.trans s1))) ((r4.trans r3).trans (r2.trans r1))
    (fun c hc => (Dev.core_congr (c4.trans c3) c).trans (coresLost_core (d.memoriesLost t) t hc))
    (fun y hlo hhi => by rw [(m4.trans m3).trans m2]; exact memoriesLost_spd d ht hlo hhi)

end

end Sys2Proof.Machine
end

section
/-! SUPPORT. Proof of the statements about PLLs, voltage steps, power states and thermal trips (R558 to R574). -/
namespace Sys2Proof.Machine

open Safety

/-! ## A PLL that fails (R560) -/

theorem tilePart_lt (d : Dev) {t : Nat} (ht : t < 4) : d.tilePart t < 4 := by
  unfold Dev.tilePart partOfTile
  split <;> omega

section
variable (d : Dev)

/-- A tile that goes off after its partition has stopped. -/
theorem tileOff_after {d d' d'' : Dev} {t : Nat} (hstop : PartsStop d d') (h : TileOff d' d'' t) : TileOff d d'' t := by
  obtain ⟨l, hl⟩ := hstop.raised
  obtain ⟨l', hl'⟩ := h.raised
  have hrest := hstop.rest
  have hpll : ∀ k, d'.pll k = d.pll k := fun k => by rw [hrest]; rfl
  have hstopped : d'.stopped = d.stopped := by rw [hrest]
  obtain ⟨-, -, -, hdue, hreset, hvin⟩ := hstop.frame
  exact ⟨h.tile, fun k => hpll k ▸ h.plls k, h.due.trans hdue, ⟨h.pins.1.trans hreset, h.pins.2.trans hvin⟩,
    h.stopped.trans hstopped, ⟨l ++ l', by rw [hl', hl, List.append_assoc]⟩, h.cores, h.spd⟩

/-- An event that a tile's loss raises. -/
theorem tileOff_raise {d d' : Dev} {t : Nat} (h : TileOff d d' t) (code : Nat) (part : Option Nat) (unit : Nat) :
    TileOff d (d'.raise code part unit) t := by
  obtain ⟨l, hl⟩ := h.raised
  exact ⟨h.tile, h.plls, h.due, h.pins, h.stopped, ⟨l ++ _, by rw [← List.append_assoc, ← hl]; rfl⟩, h.cores, h.spd⟩

theorem tileOff_tileTrip {t : Nat} (ht : t < 4) (hon : (d.ptile t).st ≠ .off) : TileOff d (d.tileTrip t) t := by
  have hstop : PartsStop d (d.stopTile t) := partsStop_stopPart d (tilePart_lt d ht)
  unfold Dev.tileTrip
  rw [if_neg hon]
  exact tileOff_raise (tileOff_after hstop (tileOff_enterOff (d.stopTile t) ht)) _ _ _

/-- What the failure of PLL k leaves. -/
structure PllFails (d d' : Dev) (k : Nat) : Prop where
  failed : (d'.pll k).failed = true
  lock : (d'.pll k).lock = false
  tile : k < 8 → (d'.ptile (k % 4)).st = .off
  port : 8 ≤ k → k < 32 → (d'.port (k - 8)).st = .failed
  stopped : 32 ≤ k → d'.stopped = true
  due : d'.pruneDue = d.pruneDue
  pins : d'.resetN = d.resetN ∧ d'.vin = d.vin
  raised : ∃ l, d'.raised = d.raised ++ l

/-- The PLL is noted as failed. -/
def Dev.pllNoted (k : Nat) : Dev := (d.onPll k (fun x => { x with failed := true, lock := false })).remedyDone (.pll k)

theorem pllNoted_pll (k : Nat) : (d.pllNoted k).pll k = { d.pll k with failed := true, lock := false } :=
  (Dev.onPll_get d k k (fun x => { x with failed := true, lock := false })).trans (if_pos rfl)

theorem portFail_facts (q : Nat) : (∃ l, (d.portFail q).raised = d.raised ++ l) ∧ (d.portFail q).standing = d.standing ∧
    ((d.portFail q).port q).st = .failed := by
  let x : Dev := (d.portLeave q .failed).onPort q (fun x => { x with event := 0x0C04, due := .reported })
  have hfault : Reported (x.raise 0x0C04 none q) (d.portFail q) := reported_faultDevice x 0x0C04 q x.ownedParts [.port q]
  have hmoved := portsMoved_portLeave d q .failed
  obtain ⟨l, hl⟩ := hmoved.raised
  obtain ⟨l', hl'⟩ := hfault.raised
  have hstand : (d.portFail q).standing = (d.portLeave q .failed).standing := by
    rw [hfault.rest]
    rfl
  have hports : (d.portFail q).port q = x.port q := by
    rw [hfault.rest]
    rfl
  have hport : (x.port q).st = ((d.portLeave q .failed).port q).st := by
    rw [Dev.onPort_get, if_pos rfl]
  refine ⟨⟨l ++ [⟨0x0C04, evClass 0x0C04, none, q, 0, x.tempo⟩] ++ l', ?_⟩, hstand.trans hmoved.standing.1, ?_⟩
  · have hx : (x.raise 0x0C04 none q).raised = (d.portLeave q .failed).raised ++ [⟨0x0C04, evClass 0x0C04, none, q, 0, x.tempo⟩] := rfl
    rw [hl', hx, hl, List.append_assoc, List.append_assoc, List.append_assoc]
  · rw [hports, hport, portLeave_st, if_pos rfl]

theorem hbmLose_fold (l : List Nat) : ∃ m n, l.foldl (fun (d : Dev) t => d.hbmLose t) d = { d with mem := m, fresh := n } := by
  induction l generalizing d with
  | nil => exact ⟨d.mem, d.fresh, rfl⟩
  | cons t l ih =>
    obtain ⟨m, n, h⟩ := ih (d.hbmLose t)
    exact ⟨m, n, h⟩

theorem halt_eq : ∃ m n, d.halt = { d with stopped := true, mem := m, fresh := n } := by
  obtain ⟨m, n, h⟩ := hbmLose_fold d (upTo 4)
  refine ⟨m, n, ?_⟩
  unfold Dev.halt
  rw [h]

theorem pllFails_pllFail (k : Nat) : PllFails d (d.pllFail k) k := by
  have hnoted := pllNoted_pll d k
  have heq : d.pllFail k = if k < 8 then (d.pllNoted k).tileTrip (k % 4)
    else if k < 32 then (d.pllNoted k).portFail (k - 8) else (d.pllNoted k).halt := rfl
  rw [heq]
  have hsame : (d.pllNoted k).raised = d.raised ∧ (d.pllNoted k).pruneDue = d.pruneDue ∧ (d.pllNoted k).resetN = d.resetN ∧
    (d.pllNoted k).vin = d.vin := ⟨rfl, rfl, rfl, rfl⟩
  obtain ⟨hraised, hdue, hreset, hvin⟩ := hsame
  generalize d.pllNoted k = x at *
  have hfailed : (x.pll k).failed = true := by rw [hnoted]
  have hlock : (x.pll k).lock = false := by rw [hnoted]
  split
  · next hk =>
    by_cases hoff : (x.ptile (k % 4)).st = .off
    · have hsame : x.tileTrip (k % 4) = x := if_pos hoff
      rw [hsame]
      exact ⟨hfailed, hlock, fun _ => hoff, fun h => absurd h (Nat.not_le.2 hk), fun h => by omega, hdue, ⟨hreset, hvin⟩,
        ⟨[], by rw [hraised, List.append_nil]⟩⟩
    · have htrip := tileOff_tileTrip x (t := k % 4) (Nat.mod_lt _ (by decide)) hoff
      obtain ⟨l, hl⟩ := htrip.raised
      exact ⟨(htrip.plls k).1.trans hfailed, (htrip.plls k).2 hlock, fun _ => htrip.tile, fun h => absurd h (Nat.not_le.2 hk),
        fun h => by omega, htrip.due.trans hdue, ⟨htrip.pins.1.trans hreset, htrip.pins.2.trans hvin⟩, ⟨l, by rw [hl, hraised]⟩⟩
  · next hk =>
    split
    · next hk' =>
      obtain ⟨⟨l, hl⟩, hstand, hport⟩ := portFail_facts x (k - 8)
      generalize x.portFail (k - 8) = y at *
      simp only [Dev.standing, Prod.mk.injEq] at hstand
      obtain ⟨⟨hdue', hreset', hvin', -⟩, hplls, -⟩ := hstand
      have hpll : y.pll k = x.pll k := by
        unfold Dev.pll
        rw [hplls]
      exact ⟨by rw [hpll, hfailed], by rw [hpll, hlock], fun h => absurd h hk, fun _ _ => hport, fun h => by omega, hdue'.trans hdue,
        ⟨hreset'.trans hreset, hvin'.trans hvin⟩, ⟨l, by rw [hl, hraised]⟩⟩
    · next hk' =>
      obtain ⟨m, n, hhalt⟩ := halt_eq x
      rw [hhalt]
      exact ⟨hfailed, hlock, fun h => absurd h hk, fun _ h => absurd h hk', fun _ => rfl, hdue, ⟨hreset, hvin⟩,
        ⟨[], by rw [List.append_nil]; exact hraised⟩⟩

/-! ## The statement about PLLs -/

/-- PLL k without its lock, one more loss counted. -/
def Dev.pllLost (k : Nat) : Dev := d.onPll k (fun x => { x with lock := false, unlocks := satAdd 8 x.unlocks 1, win := x.win + 1 })

theorem reported_faultIn (code p unit : Nat) (rs : List Remedy) :
    Reported d (d.faultIn code p unit rs) ∧ Raises (d.faultIn code p unit rs) code := by
  have hpart := reported_faultPart (d.raise code (some p) unit) code p rs
  exact ⟨(reported_raise d _ _ _).trans hpart, hpart.raises (raises_raise _ _ _ _)⟩

theorem reported_device (code unit : Nat) (ps : List Nat) (rs : List Remedy) :
    Reported d (d.faultDevice code unit ps rs) ∧ Raises (d.faultDevice code unit ps rs) code := by
  have hdevice := reported_faultDevice d code unit ps rs
  exact ⟨(reported_raise d _ _ _).trans hdevice, hdevice.raises (raises_raise _ _ _ _)⟩

/-- A loss of lock is counted and reported; the second in a window fails the PLL. -/
theorem pllUnlock_facts {k : Nat} (hlock : (d.pll k).lock = true) (hok : (d.pll k).failed = false) :
    ∃ x, Reported (d.pllLost k) x ∧ Raises x 0x1001 ∧
      d.pllUnlock k = if 2 ≤ (d.pll k).win + 1 then x.pllFail k else x := by
  have hnot : ¬ (d.pll k).failed = true := fun h => Bool.false_ne_true (hok.symm.trans h)
  unfold Dev.pllUnlock
  dsimp only
  rw [if_pos ⟨hlock, hnot⟩]
  refine ⟨_, ?_, ?_, rfl⟩
  · split
    · split
      · exact (reported_faultIn (d.pllLost k) _ _ _ _).1
      · exact (reported_device (d.pllLost k) _ _ _ _).1
    · exact (reported_device (d.pllLost k) _ _ _ _).1
  · split
    · split
      · exact (reported_faultIn (d.pllLost k) _ _ _ _).2
      · exact (reported_device (d.pllLost k) _ _ _ _).2
    · exact (reported_device (d.pllLost k) _ _ _ _).2

theorem pllLost_pll (k j : Nat) : (d.pllLost k).pll j = if k = j then
    { d.pll k with lock := false, unlocks := min ((d.pll k).unlocks + 1) 255, win := (d.pll k).win + 1 } else d.pll j :=
  Dev.onPll_get d k j _

theorem reported_pll {d d' : Dev} (h : Reported d d') (k : Nat) : d'.pll k = d.pll k := by
  rw [h.rest]
  rfl

/-- The byte at a is an open value of a loss: no byte is listed for it, and its tile's loss has a number. -/
def Dev.open (d : Dev) (a : Nat) : Prop :=
  (∀ x, FMap.getD d.mem.bytes a x = x) ∧ FMap.getD d.mem.hbmEra (a / hbmTileBytes) 0 ≠ 0

theorem open_hbmLose (t a : Nat) (h : a / hbmTileBytes = t ∨ d.open a) : (d.hbmLose t).open a := by
  have hbytes : (d.hbmLose t).mem.bytes = FMap.dropRange d.mem.bytes (t * hbmTileBytes) ((t + 1) * hbmTileBytes) := rfl
  have hera : (d.hbmLose t).mem.hbmEra = FMap.insert d.mem.hbmEra t (d.fresh + 1) := rfl
  unfold Dev.open
  rw [hbytes, hera]
  refine ⟨fun x => ?_, ?_⟩
  · rw [getD_dropRange]
    split
    · rfl
    · next hout =>
      refine h.elim (fun ht => absurd ?_ hout) (fun h => h.1 x)
      rw [← ht]
      exact ⟨Nat.div_mul_le_self a _, Nat.lt_mul_of_div_lt (Nat.lt_succ_self _) (by decide)⟩
  · rw [FMap.getD_insert]
    split
    · exact Nat.succ_ne_zero _
    · next hne => exact h.elim (fun ht => absurd ht.symm hne) (fun h => h.2)

theorem get_open {a : Nat} (ha : a < 4 * hbmTileBytes) (h : d.open a) : ∃ e, d.mem.get a = Config.lostByte e a := by
  obtain ⟨hbytes, hera⟩ := h
  refine ⟨FMap.getD d.mem.hbmEra (a / hbmTileBytes) 0, ?_⟩
  unfold Mem.get
  rw [hbytes]
  unfold Mem.blank
  rw [if_pos ha]
  exact if_neg hera

theorem div_lt_four {a n : Nat} (h : a < 4 * n) : a / n < 4 := Nat.div_lt_of_lt_mul (Nat.mul_comm 4 n ▸ h)

theorem open_stopped {a : Nat} (h : d.open a) : { d with stopped := true }.open a := ⟨h.1, h.2⟩

/-- HBM bytes are open values after the loss of the reference. -/
theorem halt_hbm {a : Nat} (ha : a < 4 * hbmTileBytes) : ∃ e, d.halt.mem.get a = Config.lostByte e a := by
  have hfold : ∀ (l : List Nat) (d : Dev), a / hbmTileBytes ∈ l ∨ d.open a → (l.foldl (fun (d : Dev) t => d.hbmLose t) d).open a := by
    intro l
    induction l with
    | nil => exact fun d h => h.resolve_left List.not_mem_nil
    | cons t l ih =>
      intro d h
      rw [List.foldl_cons]
      refine ih _ ?_
      rcases h with h | h
      · rcases List.mem_cons.1 h with h | h
        · exact .inr (open_hbmLose d t a (.inl h))
        · exact .inl h
      · exact .inr (open_hbmLose d t a (.inr h))
  have hopen := hfold (upTo 4) d (.inl (List.mem_range.2 (div_lt_four ha)))
  unfold Dev.halt
  exact get_open _ ha (open_stopped _ hopen)

end

theorem completes_nothing {cmd : Instr} {s : State} {f : Dev → Dev} (hacts : Acts s) (hexec : exec cmd s = run s (fun d => (f d).settle))
    (heq : f s.dev.silent = s.dev.silent) : Completes cmd s (fun d => d = { s.dev with outs := [] }) :=
  completes_as hacts hexec heq rfl ⟨rfl, rfl⟩ rfl

/-- A PLL that fails, with the events that it was given. -/
theorem completes_fails {k : Nat} {cmd : Instr} {s : State} {f : Dev → Dev} {y : Dev} (hacts : Acts s)
    (hexec : exec cmd s = run s (fun d => (f d).settle)) (heq : f s.dev.silent = y.pllFail k) (hdue : y.pruneDue = s.dev.pruneDue)
    (hpins : y.resetN = s.dev.resetN ∧ y.vin = s.dev.vin) : Completes cmd s (fun d =>
      ((d.pll k).failed = true ∧ (d.pll k).lock = false ∧ (k < 8 → (d.ptile (k % 4)).st = .off) ∧
        (8 ≤ k → k < 32 → (d.port (k - 8)).st = .failed) ∧ (32 ≤ k → d.stopped = true)) ∧ ∀ code, Raises y code → Raises d code) := by
  obtain ⟨hf, hl, ht, hp, hs, hd, hpn, l, hr⟩ := pllFails_pllFail y k
  exact completes_as hacts hexec heq (hd.trans hdue) ⟨hpn.1.trans hpins.1, hpn.2.trans hpins.2⟩
    ⟨⟨hf, hl, ht, hp, hs⟩, fun code ⟨e, he, hc⟩ => ⟨e, by rw [hr]; exact List.mem_append_left l he, hc⟩⟩

/-- Settles O40: a loss is counted and reported (`Reported`); a PLL that fails turns its tile off, fails its port or halts the device
(`pllFails_pllFail`); a halt leaves every HBM byte open (`halt_hbm`). -/
theorem plls : Obligations.Plls := by
  unfold Obligations.Plls
  intro k s hacts x fails waits nothing
  refine ⟨fun hlock hok hwin => ?_, fun hlock hok hwin => ?_, fun hwaits => ?_, fun hwaits => ?_, fun hnot => ?_, fun hnot => ?_, ?_⟩
  · obtain ⟨y, hrep, hraise, heq⟩ := pllUnlock_facts s.dev.silent hlock hok
    have hone : ¬ 2 ≤ (s.dev.silent.pll k.val).win + 1 := by
      have hwin : (s.dev.silent.pll k.val).win = 0 := hwin
      omega
    rw [if_neg hone] at heq
    obtain ⟨hmem, hcores, -, -, -, -, -, -, -, -, hdue, hreset, hvin⟩ := hrep.frame
    refine completes_as hacts (exec_clkPllUnlock k s) heq hdue ⟨hreset, hvin⟩ ⟨?_, fun j hj => ?_, hraise, hmem, hcores⟩
    · rw [reported_pll hrep, pllLost_pll, if_pos rfl]
      exact congrArg (fun n => { s.dev.pll k.val with lock := false, unlocks := min ((s.dev.pll k.val).unlocks + 1) 255, win := n + 1 }) hwin
    · rw [reported_pll hrep, pllLost_pll, if_neg (Ne.symm hj)]
      rfl
  · obtain ⟨y, hrep, hraise, heq⟩ := pllUnlock_facts s.dev.silent hlock hok
    have htwo : 2 ≤ (s.dev.silent.pll k.val).win + 1 := by
      have hwin : (s.dev.silent.pll k.val).win ≠ 0 := hwin
      omega
    rw [if_pos htwo] at heq
    obtain ⟨-, -, -, -, -, -, -, -, -, -, hdue, hreset, hvin⟩ := hrep.frame
    obtain ⟨t, hexec, hpend, hf, hr⟩ := completes_fails hacts (exec_clkPllUnlock k s) heq hdue ⟨hreset, hvin⟩
    exact ⟨t, hexec, hpend, hf, hr _ hraise⟩
  · have heq : s.dev.silent.pllRelock k.val = s.dev.silent.onPll k.val (fun x => { x with lock := true }) := if_pos hwaits
    refine completes_as hacts (exec_pllRelock k s) heq rfl ⟨rfl, rfl⟩ ⟨?_, fun j hj => ?_, rfl, rfl, ⟨rfl, rfl, rfl, rfl, rfl, rfl, rfl, rfl, rfl⟩⟩
    · exact (Dev.onPll_get _ _ _ _).trans (if_pos rfl)
    · exact (Dev.onPll_get _ _ _ _).trans (if_neg (Ne.symm hj))
  · have heq : s.dev.silent.pllTimeout k.val = s.dev.silent.pllFail k.val := if_pos hwaits
    obtain ⟨t, hexec, hpend, hf, -⟩ := completes_fails hacts (exec_pllRelockTimeout k s) heq rfl ⟨rfl, rfl⟩
    exact ⟨t, hexec, hpend, hf⟩
  · refine completes_nothing hacts (exec_clkPllUnlock k s) (if_neg ?_)
    rintro ⟨hlock, hok⟩
    rcases hnot with h | h
    · exact Bool.false_ne_true (h.symm.trans hlock)
    · exact hok h
  · exact ⟨completes_nothing hacts (exec_pllRelock k s) (if_neg hnot), completes_nothing hacts (exec_pllRelockTimeout k s) (if_neg hnot)⟩
  · obtain ⟨m, n, heq⟩ := halt_eq s.dev.silent
    have hopen := fun a ha => halt_hbm s.dev.silent (a := a) ha
    rw [heq] at hopen
    exact completes_as hacts (exec_refclkLoss s) heq rfl ⟨rfl, rfl⟩ ⟨rfl, hopen⟩

end Sys2Proof.Machine
end

section
/-! SUPPORT. Proof of the statement about voltage steps, power states, overcurrent and thermal trips (R564 to R574). -/
namespace Sys2Proof.Machine

open Safety

/-- Tile power, PLLs and ports are all that a change of power states moves, where no tile goes off. -/
structure PowerMoved (d d' : Dev) : Prop where
  rest : d' = { d with
    regs := d'.regs, ports := d'.ports, links := d'.links, redHeld := d'.redHeld, mirrors := d'.mirrors, nea := d'.nea
    raised := d'.raised, plls := d'.plls, pwr := d'.pwr }
  raised : ∃ l, d'.raised = d.raised ++ l

namespace PowerMoved

variable {d d' d'' : Dev}

theorem refl (d : Dev) : PowerMoved d d := ⟨rfl, ⟨[], (List.append_nil _).symm⟩⟩

theorem trans (h : PowerMoved d d') (h' : PowerMoved d' d'') : PowerMoved d d'' := by
  obtain ⟨hrest, ⟨l, hl⟩⟩ := h
  obtain ⟨hrest', ⟨l', hl'⟩⟩ := h'
  refine ⟨hrest'.trans ?_, ⟨l ++ l', by rw [hl', hl, List.append_assoc]⟩⟩
  rw [hrest]

theorem foldl {α : Type} {f : Dev → α → Dev} {l : List α} (hf : ∀ d x, PowerMoved d (f d x)) : ∀ d, PowerMoved d (l.foldl f d) := by
  induction l with
  | nil => exact fun d => refl d
  | cons x l ih => exact fun d => (hf d x).trans (ih (f d x))

theorem raises (h : PowerMoved d d') {code : Nat} (hr : Raises d code) : Raises d' code := by
  obtain ⟨x, hx, hcode⟩ := hr
  obtain ⟨l, hl⟩ := h.raised
  exact ⟨x, by rw [hl]; exact List.mem_append_left l hx, hcode⟩

theorem frame (h : PowerMoved d d') : d'.mem = d.mem ∧ d'.cores = d.cores ∧ d'.pruneDue = d.pruneDue ∧
    d'.resetN = d.resetN ∧ d'.vin = d.vin := by
  have hrest := h.rest
  exact ⟨by rw [hrest], by rw [hrest], by rw [hrest], by rw [hrest], by rw [hrest]⟩

end PowerMoved

section
variable (d : Dev)

theorem PortsMoved.power {d d' : Dev} (h : PortsMoved d d') : PowerMoved d d' := by
  obtain ⟨hrest, hraised⟩ := h
  refine ⟨?_, hraised⟩
  rw [hrest]

theorem powerMoved_onTile (t : Nat) (f : PwrTile → PwrTile) : PowerMoved d (d.onTile t f) := ⟨rfl, ⟨[], (List.append_nil _).symm⟩⟩

theorem powerMoved_onPll (k : Nat) (f : Pll → Pll) : PowerMoved d (d.onPll k f) := ⟨rfl, ⟨[], (List.append_nil _).symm⟩⟩

theorem powerMoved_raise (code : Nat) (part : Option Nat) (unit : Nat) : PowerMoved d (d.raise code part unit) :=
  ⟨rfl, ⟨_, rfl⟩⟩

theorem powerMoved_leaveOff (t : Nat) : PowerMoved d (d.leaveOff t) := by
  have hport : ∀ (d : Dev) i, PowerMoved d ((d.onPll (8 + (6 * t + i)) (fun x => { x with lock := !x.failed })).portCommit (6 * t + i)
      (d.reg ⟨.dvoPortCfg, [6 * t + i]⟩)) :=
    fun d i => (powerMoved_onPll d _ _).trans (portsMoved_portCommit _ _ _).power
  exact (((powerMoved_onPll d _ _).trans (powerMoved_onPll _ _ _)).trans (powerMoved_onTile _ _ _)).trans (PowerMoved.foldl hport _)

theorem powerMoved_powerRequest (t req : Nat) : PowerMoved d (d.powerRequest t req) := by
  have hite : ∀ (c : Prop) [Decidable c] (f : PwrTile → PwrTile), PowerMoved d (if c then d else d.onTile t f) := by
    intro c _ f
    split
    · exact .refl d
    · exact powerMoved_onTile d t f
  unfold Dev.powerRequest
  split
  · split
    · exact powerMoved_onTile d t _
    · exact (powerMoved_onTile d t _).trans (powerMoved_raise _ _ _ _)
  · exact hite _ _
  · exact hite _ _
  · split
    · exact powerMoved_onTile d t _
    · exact .refl d

/-- Ports that train do not touch the tile's power record. -/
theorem leaveOff_st (t : Nat) : ((d.leaveOff t).ptile t).st = (d.ptile t).st := by
  let x : Dev := (d.onPll t (fun x => { x with lock := !x.failed })).onPll (4 + t) (fun x => { x with lock := !x.failed })
  have hpwr : (d.leaveOff t).pwr = (x.onTile t (fun y => { y with opp := x.effOpp t, volt := x.voltOpp t, voltSealed := x.voltOpp t, want := x.voltOpp t })).pwr :=
    foldl_keeps (f := fun (d : Dev) i => (d.onPll (8 + (6 * t + i)) (fun x => { x with lock := !x.failed })).portCommit (6 * t + i)
      (d.reg ⟨.dvoPortCfg, [6 * t + i]⟩)) Dev.pwr (fun d i => by rw [(portsMoved_portCommit _ _ _).rest]; rfl) _ _
  have htile : (d.leaveOff t).ptile t =
      (x.onTile t (fun y => { y with opp := x.effOpp t, volt := x.voltOpp t, voltSealed := x.voltOpp t, want := x.voltOpp t })).ptile t := by
    unfold Dev.ptile
    rw [hpwr]
  rw [htile, Dev.onTile_get, if_pos rfl]
  rfl

/-- The tile's record when it reaches P1. -/
def Dev.ranOn (d : Dev) (t a : Nat) : Dev := d.onTile t (fun x => { x with st := .run, restart := decide (a = 1), wait := none })

/-- The tile reaches P1, from P3 with its ports. -/
def Dev.toRun (d : Dev) (t a : Nat) : Dev := if a = 2 then (d.ranOn t a).leaveOff t else d.ranOn t a

/-- The tile reaches P2. -/
def Dev.toRetain (d : Dev) (t : Nat) : Dev := d.onTile t (fun x => { x with st := .retain, wait := none })

/-- The tile enters the state that its transition goes to. -/
def Dev.powerEntered (d : Dev) (t a b : Nat) : Dev :=
  match b with
  | 0 => d.toRun t a
  | 1 => d.toRetain t
  | _ => d.enterOff t

theorem powerEntered_retain (t a : Nat) : d.powerEntered t a 1 = d.toRetain t := rfl

theorem powerEntered_off (t a b : Nat) : d.powerEntered t a (b + 2) = d.enterOff t := rfl

theorem powerMoved_toRun (t a : Nat) : PowerMoved d (d.toRun t a) := by
  have hran : PowerMoved d (d.ranOn t a) := powerMoved_onTile d t _
  unfold Dev.toRun
  split
  · exact hran.trans (powerMoved_leaveOff _ t)
  · exact hran

theorem toRun_st (t a : Nat) : ((d.toRun t a).ptile t).st = .run := by
  have hran : ((d.ranOn t a).ptile t).st = .run := by
    unfold Dev.ranOn
    rw [Dev.onTile_get, if_pos rfl]
  unfold Dev.toRun
  split
  · rw [leaveOff_st]
    exact hran
  · exact hran

theorem toRun_restart (t : Nat) : ((d.toRun t 1).ptile t).restart = true := by
  unfold Dev.toRun Dev.ranOn
  rw [if_neg (by decide), Dev.onTile_get, if_pos rfl]
  rfl

theorem toRetain_st (t : Nat) : ((d.toRetain t).ptile t).st = .retain := by
  unfold Dev.toRetain
  rw [Dev.onTile_get, if_pos rfl]

/-- A request that waited is taken up. -/
def Dev.powerResumed (d : Dev) (t : Nat) (w : Option Nat) : Dev :=
  match w with
  | some r => d.powerRequest t r
  | none => d

theorem powerDone_moving {t a b : Nat} (h : (d.ptile t).st = .moving a b) :
    d.powerDone t = ((d.powerEntered t a b).raise 0x1102 (some (d.tilePart t)) t).powerResumed t (d.ptile t).wait := by
  unfold Dev.powerDone
  rw [h]
  rfl

theorem powerMoved_powerEntered (t a : Nat) {b : Nat} (hb : b < 2) : PowerMoved d (d.powerEntered t a b) := by
  match b, hb with
  | 0, _ => exact powerMoved_toRun d t a
  | 1, _ =>
    rw [powerEntered_retain]
    exact powerMoved_onTile d t _

theorem powerMoved_powerResumed (t : Nat) (w : Option Nat) : PowerMoved d (d.powerResumed t w) := by
  match w with
  | none => exact .refl d
  | some r => exact powerMoved_powerRequest d t r

theorem tileOff_powerEntered {t : Nat} (ht : t < 4) (a : Nat) {b : Nat} (hb : 2 ≤ b) : TileOff d (d.powerEntered t a b) t := by
  match b, hb with
  | b + 2, _ =>
    rw [powerEntered_off]
    exact tileOff_enterOff d ht

theorem powerEntered_st {t : Nat} (ht : t < 4) (a b : Nat) : ((d.powerEntered t a b).ptile t).st =
    (match b with | 0 => .run | 1 => .retain | _ => .off) := by
  match b with
  | 0 => exact toRun_st d t a
  | 1 =>
    rw [powerEntered_retain]
    exact toRetain_st d t
  | b + 2 =>
    rw [powerEntered_off]
    exact (tileOff_enterOff d ht).tile

theorem powerRequest_run {t : Nat} (h : (d.ptile t).st = .retain) : ((d.powerRequest t 0).ptile t).st = .moving 1 0 := by
  unfold Dev.powerRequest
  rw [h]
  dsimp only
  rw [if_neg (by decide), Dev.onTile_get, if_pos rfl]

/-- The end of a transition raises PWR_STATE and keeps the cut of prunes and the pins. -/
theorem powerDone_facts {t a b : Nat} (ht : t < 4) (h : (d.ptile t).st = .moving a b) : Raises (d.powerDone t) 0x1102 ∧
    (d.powerDone t).pruneDue = d.pruneDue ∧ (d.powerDone t).resetN = d.resetN ∧ (d.powerDone t).vin = d.vin := by
  rw [powerDone_moving d h]
  let x : Dev := (d.powerEntered t a b).raise 0x1102 (some (d.tilePart t)) t
  have hraise : Raises x 0x1102 := ⟨_, List.mem_append_right _ (List.mem_singleton_self _), rfl⟩
  have hmoved := powerMoved_powerResumed x t (d.ptile t).wait
  obtain ⟨-, -, hdue, hreset, hvin⟩ := hmoved.frame
  refine ⟨hmoved.raises hraise, ?_⟩
  by_cases hb : b < 2
  · obtain ⟨-, -, hdue', hreset', hvin'⟩ := (powerMoved_powerEntered d t a hb).frame
    exact ⟨hdue.trans hdue', hreset.trans hreset', hvin.trans hvin'⟩
  · have hoff := tileOff_powerEntered d ht a (Nat.le_of_not_lt hb)
    exact ⟨hdue.trans hoff.due, hreset.trans hoff.pins.1, hvin.trans hoff.pins.2⟩

/-- Into P1 or P2 the transition keeps memory and cores. -/
theorem powerDone_keeps {t a b : Nat} (h : (d.ptile t).st = .moving a b) (hb : b < 2) :
    (d.powerDone t).mem = d.mem ∧ (d.powerDone t).cores = d.cores := by
  rw [powerDone_moving d h]
  obtain ⟨hmem, hcores, -⟩ := (powerMoved_powerResumed ((d.powerEntered t a b).raise 0x1102 (some (d.tilePart t)) t) t (d.ptile t).wait).frame
  obtain ⟨hmem', hcores', -⟩ := (powerMoved_powerEntered d t a hb).frame
  exact ⟨hmem.trans hmem', hcores.trans hcores'⟩

theorem powerDone_off {t a b : Nat} (ht : t < 4) (h : (d.ptile t).st = .moving a b) (hb : 2 ≤ b) :
    (∀ y, spdBase (96 * t) ≤ y → y < spdBase (96 * (t + 1)) → (d.powerDone t).mem.get y = 0) ∧
    ∀ c, tileOf c = t → (d.powerDone t).core c = {} := by
  rw [powerDone_moving d h]
  have hoff := tileOff_raise (tileOff_powerEntered d ht a hb) 0x1102 (some (d.tilePart t)) t
  obtain ⟨hmem, hcores, -⟩ := (powerMoved_powerResumed ((d.powerEntered t a b).raise 0x1102 (some (d.tilePart t)) t) t (d.ptile t).wait).frame
  exact ⟨fun y hlo hhi => by rw [hmem]; exact hoff.spd y hlo hhi, fun c hc => (Dev.core_congr hcores c).trans (hoff.cores c hc)⟩

/-- With no request waiting the tile stands in the state that it reached. -/
theorem powerDone_ptile {t a b : Nat} (h : (d.ptile t).st = .moving a b) (hw : (d.ptile t).wait = none) :
    (d.powerDone t).ptile t = (d.powerEntered t a b).ptile t := by
  rw [powerDone_moving d h, hw]
  rfl

theorem powerDone_resumes {t a : Nat} (ht : t < 4) (h : (d.ptile t).st = .moving a 1) (hw : (d.ptile t).wait = some 0) :
    ((d.powerDone t).ptile t).st = .moving 1 0 := by
  rw [powerDone_moving d h, hw]
  exact powerRequest_run _ (powerEntered_st d ht a 1)

theorem reported_ptile {d d' : Dev} (h : Reported d d') (t : Nat) : d'.ptile t = d.ptile t := by
  rw [h.rest]
  rfl

theorem overcurrent_run {g t : Nat} (hg : g / 4 = t) (h : (d.ptile t).st = .run) : d.overcurrent g =
    (d.onTile t (fun x => { x with divided := true })).faultIn 0x1105 (d.tilePart t) g [.divider t] := by
  subst hg
  exact if_pos h

end

theorem completes_powerDone {t : TileId} {a b : Nat} {s : State} (hacts : Acts s) (h : (s.dev.ptile t.val).st = .moving a b) {P : Dev → Prop}
    (hP : P (s.dev.silent.powerDone t.val)) : Completes (.powerTransitionDone t) s P := by
  obtain ⟨-, hdue, hpins⟩ := powerDone_facts s.dev.silent t.isLt h
  exact completes_as hacts (exec_powerTransitionDone t s) rfl hdue hpins hP

theorem completes_trip {loc : Fin 6} {s : State} (hacts : Acts s) (hloc : loc.val < 4) : Completes (.pwrThermalTrip loc) s (fun d =>
    (d.ptile loc.val).st = .off ∧ Raises d 0x1106 ∧ d.stopped = s.dev.stopped ∧
    ((s.dev.ptile loc.val).st ≠ .off → ∀ c, c < 384 → tileOf c = loc.val → d.core c = {})) := by
  let x : Dev := s.dev.silent.raise 0x1106 (some (s.dev.silent.tilePart loc.val)) loc.val
  have hraise : Raises x 0x1106 := ⟨_, List.mem_append_right _ (List.mem_singleton_self _), rfl⟩
  have heq : s.dev.silent.thermalTrip loc.val = x.tileTrip loc.val := if_pos hloc
  by_cases hon : (x.ptile loc.val).st = .off
  · have hself : x.tileTrip loc.val = x := if_pos hon
    exact completes_as hacts (exec_pwrThermalTrip loc s) (heq.trans hself) rfl ⟨rfl, rfl⟩
      ⟨hon, hraise, rfl, fun h => absurd hon h⟩
  · have hoff := tileOff_tileTrip x hloc hon
    exact completes_as hacts (exec_pwrThermalTrip loc s) heq hoff.due hoff.pins
      ⟨hoff.tile, hoff.raises hraise, hoff.stopped, fun _ c _ hc => hoff.cores c hc⟩

/-- The trip of the Hub or the Neano die stops the device, and changes nothing else but what goes out. -/
theorem thermalTrip_die (d : Dev) {loc : Nat} (h : 4 ≤ loc) : ∃ o,
    d.thermalTrip loc = { d.raise 0x1106 none loc with stopped := true, trip := true, outs := d.outs ++ o } ∧
    (d.mgtUp = true → o = [.sent 0x88B5 [7, (⟨0x1106, evClass 0x1106, none, loc, 0, d.tempo⟩ : Raised).bits % 2 ^ 64,
      (⟨0x1106, evClass 0x1106, none, loc, 0, d.tempo⟩ : Raised).bits / 2 ^ 64]]) := by
  unfold Dev.thermalTrip
  rw [if_neg (Nat.not_lt.2 h)]
  dsimp only
  split
  · exact ⟨_, rfl, fun _ => rfl⟩
  · next hup => exact ⟨[], by rw [List.append_nil]; rfl, fun h => absurd h hup⟩

theorem calm_dieTrip (d : Dev) (loc : Nat) (o : List Out) :
    Calm d { d.raise 0x1106 none loc with stopped := true, trip := true, outs := o } :=
  ⟨rfl, rfl, rfl, rfl, rfl, rfl, rfl, rfl, rfl⟩

theorem completes_dieTrip {loc : Fin 6} {s : State} (hacts : Acts s) (hloc : 4 ≤ loc.val) : Completes (.pwrThermalTrip loc) s (fun d =>
    d.stopped = true ∧ d.trip = true ∧ Records s.dev d 0x1106 loc.val ∧
    (s.dev.mgtUp = true → ∃ r : Raised, d.raised = s.dev.raised ++ [r] ∧ d.outs = [.sent 0x88B5 [7, r.bits % 2 ^ 64, r.bits / 2 ^ 64]]) ∧
    d.regs = s.dev.regs ∧ Calm s.dev d) := by
  obtain ⟨o, heq, hup⟩ := thermalTrip_die s.dev.silent hloc
  have hcalm : Calm s.dev { s.dev.silent.raise 0x1106 none loc.val with stopped := true, trip := true, outs := s.dev.silent.outs ++ o } :=
    calm_dieTrip s.dev.silent loc.val _
  exact completes_as hacts (exec_pwrThermalTrip loc s) heq rfl ⟨rfl, rfl⟩
    ⟨rfl, rfl, rfl, fun h => ⟨⟨0x1106, evClass 0x1106, none, loc.val, 0, s.dev.tempo⟩, rfl, hup h⟩, rfl, hcalm⟩

theorem calm_voltageStep (d : Dev) (t : Nat) (f : PwrTile → PwrTile) : Calm d ((d.onTile t f).vfStep t) :=
  ⟨rfl, rfl, rfl, rfl, rfl, rfl, rfl, rfl, rfl⟩

theorem voltageStep_ptile (d : Dev) (t j : Nat) (f : PwrTile → PwrTile) :
    ((d.onTile t f).vfStep t).ptile j = if t = j then f (d.ptile t) else d.ptile j := Dev.onTile_get d t j f

theorem voltageStep_raised (d : Dev) (t : Nat) (f : PwrTile → PwrTile) : ((d.onTile t f).vfStep t).raised =
    d.raised ++ [⟨0x1101, evClass 0x1101, some (d.tilePart t), t, 0, d.tempo⟩] ∧ ((d.onTile t f).vfStep t).regs = d.regs := ⟨rfl, rfl⟩

theorem voltageStep_pins (d : Dev) (t : Nat) (f : PwrTile → PwrTile) : ((d.onTile t f).vfStep t).pruneDue = d.pruneDue ∧
    (((d.onTile t f).vfStep t).resetN = d.resetN ∧ ((d.onTile t f).vfStep t).vin = d.vin) := ⟨rfl, rfl, rfl⟩

/-- The record after a voltage step. -/
def PwrTile.stepped (x : PwrTile) : PwrTile := ({ x with volt := x.stepTo } : PwrTile).steer

theorem completes_voltageStep {t : TileId} {s : State} (hacts : Acts s) (hstep : (s.dev.ptile t.val).stepping = true) :
    Completes (.voltageStepDone t) s (fun d =>
      d.ptile t.val = (s.dev.ptile t.val).stepped ∧
      (∀ j, j ≠ t.val → d.ptile j = s.dev.ptile j) ∧
      d.raised = s.dev.raised ++ [⟨0x1101, evClass 0x1101, some (s.dev.tilePart t.val), t.val, 0, s.dev.tempo⟩] ∧
      d.regs = s.dev.regs ∧ Calm s.dev d) := by
  have heq : s.dev.silent.voltageStep t.val = (s.dev.silent.onTile t.val PwrTile.stepped).vfStep t.val := if_pos hstep
  have hptile := fun j => voltageStep_ptile s.dev.silent t.val j PwrTile.stepped
  obtain ⟨hraised, hregs⟩ := voltageStep_raised s.dev.silent t.val PwrTile.stepped
  obtain ⟨hdue, hpins⟩ := voltageStep_pins s.dev.silent t.val PwrTile.stepped
  have hcalm := calm_voltageStep s.dev.silent t.val PwrTile.stepped
  generalize (s.dev.silent.onTile t.val PwrTile.stepped).vfStep t.val = x at *
  exact completes_as hacts (exec_voltageStepDone t s) heq hdue hpins
    ⟨(hptile t.val).trans (if_pos rfl), fun j hj => (hptile j).trans (if_neg (Ne.symm hj)), hraised, hregs, hcalm⟩

/-- Settles O41: a transition's end is taken apart into the state entered and the request that waited (`powerDone_moving`); a tile that
goes off loses its memories and cores (`TileOff`), and every other transition moves tile power, PLLs and ports alone (`PowerMoved`). -/
theorem tilePower : Obligations.TilePower := by
  unfold Obligations.TilePower
  intro t s hacts x p
  refine ⟨fun hstep => ?_, fun a b hst => ?_, fun g hg hrun => ?_, fun loc hloc => ?_, fun loc hloc => completes_dieTrip hacts hloc⟩
  · exact completes_voltageStep hacts hstep
  · have hst : (s.dev.silent.ptile t.val).st = .moving a b := hst
    obtain ⟨hraise, -⟩ := powerDone_facts s.dev.silent t.isLt hst
    refine completes_powerDone hacts hst ⟨hraise, fun hw => ?_, fun hw ha hb => ?_, fun hb => ?_, fun hb hw => ?_, fun hb => ?_, fun hb c _ hc => ?_⟩
    · rw [powerDone_ptile s.dev.silent hst hw]
      exact powerEntered_st s.dev.silent t.isLt a b
    · subst ha hb
      refine ⟨?_, powerDone_keeps s.dev.silent hst (by decide)⟩
      rw [powerDone_ptile s.dev.silent hst hw]
      exact toRun_restart s.dev.silent t.val
    · exact powerDone_keeps s.dev.silent hst (by omega)
    · subst hb
      exact powerDone_resumes s.dev.silent t.isLt hst hw
    · exact (powerDone_off s.dev.silent t.isLt hst hb).1
    · exact (powerDone_off s.dev.silent t.isLt hst hb).2 c hc
  · let y : Dev := s.dev.silent.onTile t.val (fun x => { x with divided := true })
    obtain ⟨hrep, hraise⟩ := reported_faultIn y 0x1105 (s.dev.silent.tilePart t.val) g.val [.divider t.val]
    obtain ⟨hmem, hcores, -, -, -, -, -, -, -, -, hdue, hreset, hvin⟩ := hrep.frame
    refine completes_as hacts (exec_pwrOvercurrent g s) (overcurrent_run s.dev.silent hg hrun) hdue ⟨hreset, hvin⟩ ⟨?_, hraise, hmem, hcores⟩
    rw [reported_ptile hrep]
    exact (Dev.onTile_get s.dev.silent t.val t.val _).trans (if_pos rfl)
  · have htrip := completes_trip hacts (loc := loc) (by omega)
    rw [hloc] at htrip
    exact htrip

end Sys2Proof.Machine
end

section
/-! SUPPORT. Proof of the statement about the reset pin, the power input and SEC_CTRL.RESET (R581, R582, R595). -/
namespace Sys2Proof.Machine

open Safety

/-! ## Registers of the Hub -/

/-- The hosting software reaches a register of the Hub that is not a partition's. -/
theorem hostReaches_hub {s : State} {r : Reg} (hacts : Acts s) (hclock : s.dev.lost 33 = false) (hblock : r.block = .hub)
    (hpart : partReg r = none) : HostReaches s r := by
  refine ⟨hacts, hclock, ?_, ?_⟩
  · unfold Dev.busRefuses
    rw [hblock]
  · unfold Dev.absent
    rw [hpart]

theorem rwtMask_none (d : Dev) {r : Reg} (h : accMask [.rwt] r.k = 0) : d.rwtMask r = 0 := by
  unfold Dev.rwtMask
  rw [h, ite_self]

/-- A write to SEC_CTRL over the register bus acts at once. -/
theorem ctrlWrite_secCtrl {s : State} (hacts : Acts s) (hclock : s.dev.lost 33 = false) (v : Word) :
    s.dev.silent.ctrlWrite .host ⟨.secCtrl, []⟩ v = s.dev.silent.secCtrl 0 v := by
  have hreach : HostReaches s ⟨.secCtrl, []⟩ := hostReaches_hub hacts hclock rfl rfl
  rw [ctrlWrite_reaches (HostReaches.reaches hreach) (.inr (rwtMask_none s.dev (by decide))) v]
  have hdo : ∀ (d : Dev) (w : Word), d.regDo .host 0 ⟨.secCtrl, []⟩ (BitVec.allOnes 64) w = d.secCtrl 0 (w &&& BitVec.allOnes 64) :=
    fun _ _ => rfl
  rw [hdo, BitVec.and_allOnes]

/-! ## Reset and the start of start-up -/

/-- Every register at its reset value; nothing kept but the fuses. -/
def ColdReset (d0 d : Dev) : Prop :=
  (∀ r : Reg, d.reg r = r.resetVal) ∧ d.fuses = d0.fuses ∧ d.cores = [] ∧ d.parts = [] ∧ d.sems = [] ∧ d.tempo = 0 ∧
    d.stopped = false ∧ d.mem.bytes = []

theorem coldReset_deviceReset (d : Dev) : ColdReset d d.deviceReset := ⟨fun _ => rfl, rfl, rfl, rfl, rfl, rfl, rfl, rfl⟩

/-- Start-up begins at stage 1 with the Hub and Neano PLLs locked, and reports a debug state that the reset ended. -/
def StartsUp (d0 d : Dev) : Prop :=
  ColdReset d0 d ∧ d.sec.stage = 1 ∧ (d.pll 32).lock = true ∧ (d.pll 33).lock = true ∧ d.live = true ∧
    (d0.secState = d0.fuses.state → d0.sec.changed = false → d.raised = []) ∧
    (d0.secState ≠ d0.fuses.state → Raises d 0x1203)

/-- A device in stage 1. -/
def Dev.stageOne (d : Dev) : Dev :=
  ({ d.deviceReset with sec := { stage := 1 } }.onPll 32 (fun x => { x with lock := true })).onPll 33 (fun x => { x with lock := true })

theorem bootStart_eq (d : Dev) : d.bootStart = if d.sec.changed || decide (d.secState ≠ d.fuses.state) then d.stageOne.raise 0x1203 none 0
    else d.stageOne := rfl

theorem stageOne_facts (d : Dev) (hpin : d.resetN = true) (hvin : d.vin = true) : ColdReset d d.stageOne ∧ d.stageOne.sec.stage = 1 ∧
    (d.stageOne.pll 32).lock = true ∧ (d.stageOne.pll 33).lock = true ∧ d.stageOne.live = true := by
  refine ⟨⟨fun _ => rfl, rfl, rfl, rfl, rfl, rfl, rfl, rfl⟩, rfl, rfl, rfl, ?_⟩
  have hlive : d.stageOne.live = (d.vin && d.resetN && !false) := rfl
  rw [hlive, hvin, hpin]
  rfl

theorem startsUp_bootStart (d : Dev) (hpin : d.resetN = true) (hvin : d.vin = true) : StartsUp d d.bootStart := by
  obtain ⟨hcold, hstage, hneano, hhub, hlive⟩ := stageOne_facts d hpin hvin
  rw [bootStart_eq]
  split
  · next hc =>
    refine ⟨hcold, hstage, hneano, hhub, hlive, fun hstate hsame => ?_, fun _ => ⟨_, List.mem_singleton_self _, rfl⟩⟩
    simp [hstate, hsame] at hc
  · next hc =>
    refine ⟨hcold, hstage, hneano, hhub, hlive, fun _ _ => rfl, fun hstate => ?_⟩
    simp [hstate] at hc

theorem completes_pin {c : Instr} {s : State} {d : Dev} {P : Dev → Prop} (hexec : exec c s = .next (s.with_ d)) (hP : P d) :
    Completes c s P := ⟨_, hexec, rfl, hP⟩

theorem onHbm_pins (l : List Nat) (d : Dev) : (l.foldl (fun (d : Dev) t => d.onHbm t HbmTile.torn) d).fuses = d.fuses ∧
    (l.foldl (fun (d : Dev) t => d.onHbm t HbmTile.torn) d).resetN = d.resetN :=
  ⟨foldl_keeps (f := fun (d : Dev) t => d.onHbm t HbmTile.torn) Dev.fuses (fun _ _ => rfl) l d,
    foldl_keeps (f := fun (d : Dev) t => d.onHbm t HbmTile.torn) Dev.resetN (fun _ _ => rfl) l d⟩

theorem powerFall_facts (d : Dev) : ColdReset d d.powerFall ∧ d.powerFall.vin = false ∧ d.powerFall.resetN = d.resetN ∧
    d.powerFall.sec.stage = 0 := by
  obtain ⟨hfuses, hpin⟩ := onHbm_pins ((upTo 4).filter (fun t => d.vin && (Config.freeWord d.fresh).getLsbD t)) d.tick
  exact ⟨⟨fun _ => rfl, hfuses, rfl, rfl, rfl, rfl, rfl, rfl⟩, rfl, hpin, rfl⟩

theorem resetRelease_low {d : Dev} (h : d.resetN = false) :
    d.resetRelease = if d.vin then { d with resetN := true }.bootStart else { d with resetN := true } := by
  unfold Dev.resetRelease
  rw [if_neg (by rw [h]; exact Bool.false_ne_true)]

theorem powerRise_low {d : Dev} (h : d.vin = false) :
    d.powerRise = if d.resetN then { d with vin := true }.bootStart else { d with vin := true }.deviceReset := by
  unfold Dev.powerRise
  rw [if_neg (by rw [h]; exact Bool.false_ne_true)]

theorem secCtrl_reset (d : Dev) : d.secCtrl 0 0x100 = d.bootStart := rfl

/-- Settles O42: device reset leaves `ColdReset`, and start-up begins from it as `StartsUp` says. -/
theorem resetInputs : Obligations.ResetInputs := by
  unfold Obligations.ResetInputs
  intro s cold begins
  refine ⟨?_, ?_, fun hpin hvin => ?_, fun hpin hvin => ?_, fun hvin hpin => ?_, fun hvin hpin => ?_, fun hacts hclock => ?_⟩
  · exact completes_pin (exec_resetNAssert s) ⟨coldReset_deviceReset _, rfl, rfl, rfl⟩
  · exact completes_pin (exec_powerGoodFall s) (powerFall_facts s.dev.silent)
  · refine completes_pin (exec_resetNRelease s) ?_
    rw [resetRelease_low (d := s.dev.silent) hpin, if_pos (show s.dev.silent.vin = true from hvin)]
    exact startsUp_bootStart { s.dev.silent with resetN := true } rfl hvin
  · refine completes_pin (exec_resetNRelease s) ?_
    rw [resetRelease_low (d := s.dev.silent) hpin, if_neg (by rw [show s.dev.silent.vin = false from hvin]; exact Bool.false_ne_true)]
    rfl
  · refine completes_pin (exec_powerGoodRise s) ?_
    rw [powerRise_low (d := s.dev.silent) hvin, if_pos (show s.dev.silent.resetN = true from hpin)]
    exact startsUp_bootStart { s.dev.silent with vin := true } hpin rfl
  · refine completes_pin (exec_powerGoodRise s) ?_
    rw [powerRise_low (d := s.dev.silent) hvin, if_neg (by rw [show s.dev.silent.resetN = false from hpin]; exact Bool.false_ne_true)]
    exact ⟨coldReset_deviceReset { s.dev.silent with vin := true }, rfl, rfl⟩
  · have hlive := hacts.1
    simp only [Dev.live, Bool.and_eq_true] at hlive
    obtain ⟨⟨hvin, hpin⟩, -⟩ := hlive
    have heq : s.dev.silent.ctrlWrite .host ⟨.secCtrl, []⟩ 0x100 = s.dev.silent.bootStart :=
      (ctrlWrite_secCtrl hacts hclock 0x100).trans (secCtrl_reset _)
    have hdue : s.dev.silent.bootStart.pruneDue = [] := by
      rw [bootStart_eq]
      split <;> rfl
    exact completes_as hacts (exec_secReset s) heq (hdue.trans hacts.2.symm) (bootStart_pins s.dev.silent)
      (startsUp_bootStart s.dev.silent hpin hvin)

end Sys2Proof.Machine
end

section
/-! SUPPORT. Refutation of the statement about start-up: an index past its register file names another register's address (R508). -/
namespace Sys2Proof.Machine

open Safety

/-- Two registers at one address with one reset value read the same. -/
theorem reg_alias (d : Dev) {r r' : Reg} (haddr : r.addr = r'.addr) (hreset : r.resetVal = r'.resetVal) : d.reg r = d.reg r' := by
  unfold Dev.reg
  rw [haddr, hreset]

/-- The register of TMP_PORT_DELAY past its 24 that stands at the address of partition 0's PRT_HANDOVER. -/
def handoverAlias : Reg := ⟨.tmpPortDelay, [0x801E5]⟩

theorem reg_handoverAlias (d : Dev) : d.reg handoverAlias = d.reg ⟨.prtHandover, [0]⟩ := reg_alias d (by decide) (by decide)

/-- What the kill of the self-test's image writes to partition 0's PRT_HANDOVER. -/
def Dev.handoverWord (d : Dev) : Word :=
  put 31 0 (Config.freeWord (d.fresh + 0)).toNat ||| putBit 32 true ||| put 63 48 (Config.freeWord (d.fresh + 1)).toNat

theorem selftestKill_handover (d : Dev) : d.selftestKill.reg ⟨.prtHandover, [0]⟩ = d.handoverWord := by
  let d1 : Dev := d.setReg ⟨.prtHandover, [0]⟩ d.handoverWord
  let d2 : Dev := d1.setReg ⟨.tmpDmCtrl, [0]⟩ (Reg.resetVal ⟨.tmpDmCtrl, [0]⟩)
  have hregs : d.selftestKill.regs = (d2.setReg ⟨.tmpDmStatus, [0]⟩ 0).regs := rfl
  rw [Dev.reg_congr hregs, Dev.setReg_ne _ _ _ _ (by decide), Dev.setReg_ne _ _ _ _ (by decide), Dev.setReg_self]

theorem handoverWord_bit (d : Dev) : d.handoverWord.getLsbD 32 = true := by
  unfold Dev.handoverWord
  rw [BitVec.getLsbD_or, BitVec.getLsbD_or, putBit, put_getLsbD 32 32]
  simp

/-- A device whose self-test ends: the king of its time base, with no core in service. -/
def selftestEnding : State :=
  { State.reset with dev := { vin := true, resetN := true, sec := { stage := 6 }, tmp := { acq := .king } } }

theorem acts_selftestEnding : Acts selftestEnding := ⟨rfl, rfl⟩

theorem colTesting_selftestEnding (c : Nat) : selftestEnding.dev.colTesting c = false := by
  have hreg : selftestEnding.dev.reg ⟨.meColumn, [c]⟩ = BitVec.ofNat 64 RK.meColumn.row.reset := rfl
  unfold Dev.colTesting
  rw [hreg]
  decide

/-- The self-test's end, but for the HBM contents that its pattern pass leaves. -/
theorem selftestDone_ends {d : Dev} (hstage : d.sec.stage = 6) (hsynced : d.synced = true) (htest : ∀ c, d.colTesting c = false) :
    ∃ m n f, d.selftestDone = (Dev.selftestKill { d with mem := m, fresh := n }).onSec f := by
  obtain ⟨m, n, hlost⟩ := hbmLose_fold d (upTo 4)
  refine ⟨m, n, fun x => { x with stage := 7, readyTempo := d.tempo, locks := x.locks ||| x.cfgLocks }, ?_⟩
  unfold Dev.selftestDone
  rw [if_neg (by simp [hstage, hsynced, htest]), hlost]

theorem completes_selftestEnding : Completes .selftestDone selftestEnding (fun d => (d.reg handoverAlias).getLsbD 32 = true) := by
  obtain ⟨m, n, f, heq⟩ := selftestDone_ends (d := selftestEnding.dev.silent) rfl rfl colTesting_selftestEnding
  refine completes_as acts_selftestEnding (exec_selftestDone selftestEnding) heq rfl ⟨rfl, rfl⟩ ?_
  rw [reg_handoverAlias]
  exact (congrArg (fun w => BitVec.getLsbD w 32) (selftestKill_handover { selftestEnding.dev.silent with mem := m, fresh := n })).trans
    (handoverWord_bit _)

/-- A command answers one state. -/
theorem completes_agree {c : Instr} {s : State} {P Q : Dev → Prop} (h : Completes c s P) (h' : Completes c s Q) : ∃ d, P d ∧ Q d := by
  obtain ⟨t, hexec, -, hP⟩ := h
  obtain ⟨t', hexec', -, hQ⟩ := h'
  cases hexec.symm.trans hexec'
  exact ⟨t.dev, hP, hQ⟩

/-- Refutes O43: the registers that the self-test's end keeps include every register of every other kind, and the one of
TMP_PORT_DELAY at the address of partition 0's PRT_HANDOVER, whose index is past the 24 ports, reads what the kill of the self-test's
image wrote there. -/
theorem not_startUp : ¬ Obligations.StartUp := by
  unfold Obligations.StartUp
  intro h
  obtain ⟨-, -, -, -, -, -, hself⟩ := h selftestEnding acts_selftestEnding rfl
  obtain ⟨hdone, -⟩ := hself rfl
  have htesting : ¬ ∃ c, c < 384 ∧ selftestEnding.dev.inService c = true ∧ selftestEnding.dev.colTesting c = true := by
    rintro ⟨c, -, -, hc⟩
    exact Bool.false_ne_true ((colTesting_selftestEnding c).symm.trans hc)
  obtain ⟨d, hbit, -, -, -, -, -, -, hregs⟩ := completes_agree completes_selftestEnding (hdone rfl htesting)
  rw [show d.reg handoverAlias = 0 from hregs handoverAlias (by decide)] at hbit
  exact absurd hbit (by decide)

end Sys2Proof.Machine
end

section
/-! SUPPORT. Proof of the statement about the security root (R588, R593, R596 to R598, R604, R605). -/
namespace Sys2Proof.Machine

open Safety

/-! ## Bytes in runs of registers -/

theorem natOfBytes_bytesOf (n v : Nat) : natOfBytes (bytesOf n v) = v % 2 ^ (8 * n) := by
  induction n generalizing v with
  | zero => rw [bytesOf, natOfBytes, Nat.mul_zero, Nat.pow_zero, Nat.mod_one]
  | succ n ih =>
    rw [bytesOf, natOfBytes, ih, BitVec.toNat_ofNat, Nat.mul_succ, Nat.add_comm (8 * n) 8, Nat.pow_add, Nat.shiftLeft_eq,
      Nat.shiftRight_eq_div_pow, Nat.mod_mul, Nat.mul_comm (2 ^ 8)]

theorem ofNat_bytesOf (v : Nat) : BitVec.ofNat 64 (natOfBytes (bytesOf 8 v)) = BitVec.ofNat 64 v := by
  apply BitVec.eq_of_toNat_eq
  rw [natOfBytes_bytesOf, BitVec.toNat_ofNat, BitVec.toNat_ofNat, Nat.mod_mod]

/-- A run of registers that is written reads its words. -/
theorem reg_setRun {mk : Nat → Reg} (hmk : ∀ i j, i ≠ j → (mk i).addr ≠ (mk j).addr) (f : Nat → Word) (d : Dev) {n w : Nat} (hw : w < n) :
    ((upTo n).foldl (fun (d : Dev) w => d.setReg (mk w) (f w)) d).reg (mk w) = f w := by
  induction n with
  | zero => exact absurd hw (Nat.not_lt_zero w)
  | succ n ih =>
    have hsucc : upTo (n + 1) = upTo n ++ [n] := List.range_succ
    rw [hsucc, List.foldl_append, List.foldl_cons, List.foldl_nil]
    by_cases h : w = n
    · subst h
      exact Dev.setReg_self _ _ _
    · rw [Dev.setReg_ne _ _ _ _ (hmk n w (Ne.symm h))]
      exact ih (by omega)

theorem setRun_rest {α : Type} (mk : α → Reg) (f : α → Word) (l : List α) (d : Dev) :
    ∃ regs, l.foldl (fun (d : Dev) w => d.setReg (mk w) (f w)) d = { d with regs := regs } := by
  induction l generalizing d with
  | nil => exact ⟨d.regs, rfl⟩
  | cons x l ih =>
    obtain ⟨regs, h⟩ := ih (d.setReg (mk x) (f x))
    exact ⟨regs, h⟩

theorem setRegBytes_rest (mk : Nat → Reg) (bs : List Byte) (d : Dev) : ∃ regs, d.setRegBytes mk bs = { d with regs := regs } :=
  setRun_rest mk _ _ d

theorem setRegBytes_reg {mk : Nat → Reg} (hmk : ∀ i j, i ≠ j → (mk i).addr ≠ (mk j).addr) (bs : List Byte) (d : Dev) {w : Nat}
    (hw : w < (bs.length + 7) / 8) : (d.setRegBytes mk bs).reg (mk w) = BitVec.ofNat 64 (natOfBytes ((bs.drop (8 * w)).take 8)) :=
  reg_setRun hmk _ d hw

theorem addr_secReport (i j : Nat) (h : i ≠ j) : Reg.addr ⟨.secReport, [i]⟩ ≠ Reg.addr ⟨.secReport, [j]⟩ := by
  simp [Reg.addr, RK.row]
  omega

theorem addr_secNonce (i j : Nat) (h : i ≠ j) : Reg.addr ⟨.secNonce, [i]⟩ ≠ Reg.addr ⟨.secNonce, [j]⟩ := by
  simp [Reg.addr, RK.row]
  omega

/-- A measurement is extended in its registers alone. -/
theorem extend_rest (d : Dev) (i : Nat) (dig : List Byte) : ∃ regs, d.extend i dig = { d with regs := regs } :=
  setRegBytes_rest _ _ d

theorem extendGrant_rest (d : Dev) (path part : Nat) (tok : List Byte) : ∃ regs, d.extendGrant path part tok = { d with regs := regs } :=
  extend_rest d 7 _

/-! ## Attestation (R593) -/

/-- The first words of a report. -/
def reportHead (a b c e : Nat) : List Byte :=
  bytesOf 4 1 ++ (bytesOf 4 4637 ++ (bytesOf 1 a ++ (bytesOf 1 b ++ (bytesOf 6 0 ++ (bytesOf 8 c ++ bytesOf 8 e)))))

theorem length_reportHead (a b c e : Nat) : (reportHead a b c e).length = 32 := rfl

theorem reportHead_words (a b c e : Nat) (rest : List Byte) :
    ((reportHead a b c e ++ rest).drop (8 * 0)).take 8 = bytesOf 4 1 ++ bytesOf 4 4637 ∧
    ((reportHead a b c e ++ rest).drop (8 * 2)).take 8 = bytesOf 8 c ∧
    ((reportHead a b c e ++ rest).drop (8 * 3)).take 8 = bytesOf 8 e := ⟨rfl, rfl, rfl⟩

theorem reportHead_append (a b c e : Nat) (nonce key meas svns parts sig : List Byte) :
    bytesOf 4 1 ++ bytesOf 4 4637 ++ bytesOf 1 a ++ bytesOf 1 b ++ bytesOf 6 0 ++ bytesOf 8 c ++ bytesOf 8 e ++ nonce ++ key ++ meas ++
      svns ++ parts ++ sig = reportHead a b c e ++ (nonce ++ key ++ meas ++ svns ++ parts ++ sig) := by
  unfold reportHead
  simp only [List.append_assoc]

theorem attestDone_eq {d : Dev} (h : d.sec.attest = true) (hclock : d.lost 33 = false) : ∃ a b rest, d.attestDone =
    ((d.tick.setRegBytes (fun w => ⟨.secReport, [w]⟩) (reportHead a b d.ownId d.tempo ++ rest)).onSec
      (fun x => { x with attest := false })).raise 0x1205 none 0 := by
  unfold Dev.attestDone
  rw [if_pos ⟨h, by rw [hclock]; rfl⟩]
  exact ⟨_, _, _, congrArg (fun bs => ((d.tick.setRegBytes (fun w => ⟨.secReport, [w]⟩) bs).onSec
    (fun x => { x with attest := false })).raise 0x1205 none 0) (reportHead_append _ _ _ _ _ _ _ _ _ _)⟩

theorem completes_attestDone {s : State} (hacts : Acts s) (hclock : s.dev.lost 33 = false) (h : s.dev.sec.attest = true) :
    Completes .attestDone s (fun d => d.sec = { s.dev.sec with attest := false } ∧ Records s.dev d 0x1205 0 ∧ Calm s.dev d ∧
      d.reg ⟨.secReport, [0]⟩ = BitVec.ofNat 64 (1 + 4637 * 2 ^ 32) ∧
      d.reg ⟨.secReport, [2]⟩ = BitVec.ofNat 64 s.dev.ownId ∧ d.reg ⟨.secReport, [3]⟩ = BitVec.ofNat 64 s.dev.tempo) := by
  obtain ⟨a, b, rest, heq⟩ := attestDone_eq (d := s.dev.silent) h hclock
  have hreg := fun w hw => setRegBytes_reg (w := w) addr_secReport (reportHead a b s.dev.silent.ownId s.dev.silent.tempo ++ rest)
    s.dev.silent.tick hw
  have hlen : 32 ≤ (reportHead a b s.dev.silent.ownId s.dev.silent.tempo ++ rest).length := by
    rw [List.length_append, length_reportHead]
    omega
  obtain ⟨h0, h2, h3⟩ := reportHead_words a b s.dev.silent.ownId s.dev.silent.tempo rest
  have hreg0 := hreg 0 (by omega)
  have hreg2 := hreg 2 (by omega)
  have hreg3 := hreg 3 (by omega)
  obtain ⟨regs, hrest⟩ := setRegBytes_rest (fun w => ⟨.secReport, [w]⟩)
    (reportHead a b s.dev.silent.ownId s.dev.silent.tempo ++ rest) s.dev.silent.tick
  rw [h0] at hreg0
  rw [h2, ofNat_bytesOf] at hreg2
  rw [h3, ofNat_bytesOf] at hreg3
  rw [hrest] at heq hreg0 hreg2 hreg3
  exact completes_as hacts (exec_attestDone s) heq rfl ⟨rfl, rfl⟩
    ⟨rfl, rfl, ⟨rfl, rfl, rfl, rfl, rfl, rfl, rfl, rfl, rfl⟩, hreg0.trans (by decide), hreg2, hreg3⟩

/-! ## Writes of SEC_CTRL and SEC_LOCK (R604, R605) -/

theorem completes_secCtrl {s : State} {c : Instr} {v : Word} {d : Dev} {P : Dev → Prop} (hacts : Acts s) (hclock : s.dev.lost 33 = false)
    (hexec : exec c s = run s (fun d => (d.ctrlWrite .host ⟨.secCtrl, []⟩ v).settle)) (heq : s.dev.silent.secCtrl 0 v = d)
    (hdue : d.pruneDue = s.dev.pruneDue) (hpins : d.resetN = s.dev.resetN ∧ d.vin = s.dev.vin) (hP : P d) : Completes c s P :=
  completes_as hacts hexec ((ctrlWrite_secCtrl hacts hclock v).trans heq) hdue hpins hP

theorem secCtrl_attest (d : Dev) : d.secCtrl 0 1 = d.attestStart := rfl
theorem secCtrl_nonce (d : Dev) : d.secCtrl 0 2 = d.nonceDraw := rfl
theorem secCtrl_submit (d : Dev) : d.secCtrl 0 4 = d.tokenSubmit 0 := rfl
theorem secCtrl_enrol (d : Dev) : d.secCtrl 0 8 = d.ownerEnrol := rfl
theorem secCtrl_commit (d : Dev) : d.secCtrl 0 0x10 = d.svnCommit := rfl

theorem secCtrl_endGrant (d : Dev) : ∀ p : PartId, d.secCtrl 0 (BitVec.ofNat 64 (0x20 + 64 * p.val)) = d.grantEnd p.val
  | 0 => rfl
  | 1 => rfl
  | 2 => rfl
  | 3 => rfl

theorem nonceDraw_eq (d : Dev) : ∃ regs, d.nonceDraw = { d with regs := regs, fresh := d.fresh + 1, sec := { d.sec with nonceOk := true } } ∧
    ∀ w, w < 4 → d.nonceDraw.reg ⟨.secNonce, [w]⟩ = Config.entropy (4 * d.fresh + w) := by
  have hdraw : d.nonceDraw = ((upTo 4).foldl (fun (x : Dev) w => x.setReg ⟨.secNonce, [w]⟩ (Config.entropy (4 * d.fresh + w))) d).tick.onSec
      (fun x => { x with nonceOk := true }) := rfl
  obtain ⟨regs, hrest⟩ := setRun_rest (fun w => (⟨.secNonce, [w]⟩ : Reg)) (fun w => Config.entropy (4 * d.fresh + w)) (upTo 4) d
  refine ⟨regs, ?_, fun w hw => ?_⟩
  · rw [hdraw, hrest]
    rfl
  · rw [hdraw]
    exact reg_setRun (mk := fun w => (⟨.secNonce, [w]⟩ : Reg)) addr_secNonce (fun w => Config.entropy (4 * d.fresh + w)) d hw

theorem fld_lock {n : Nat} (h : n < 64) : fld 13 8 (BitVec.ofNat 64 (256 * n)) % 64 = n := by
  unfold fld bits
  rw [BitVec.toNat_ofNat, Nat.shiftRight_eq_div_pow]
  omega

/-- A write to SEC_LOCK acts at once. -/
theorem ctrlWrite_secLock {s : State} (hacts : Acts s) (hclock : s.dev.lost 33 = false) (v : Word) :
    s.dev.silent.ctrlWrite .host ⟨.secLock, []⟩ v = s.dev.silent.lockSet (fld 13 8 v) := by
  have hreach : HostReaches s ⟨.secLock, []⟩ := hostReaches_hub hacts hclock rfl rfl
  rw [ctrlWrite_reaches (HostReaches.reaches hreach) (.inr (rwtMask_none s.dev (by decide))) v]
  have hdo : ∀ (d : Dev) (w : Word), d.regDo .host 0 ⟨.secLock, []⟩ (BitVec.allOnes 64) w = d.lockSet (fld 13 8 (w &&& BitVec.allOnes 64)) :=
    fun _ _ => rfl
  rw [hdo, BitVec.and_allOnes]

/-! ## Tokens and grants (R596 to R598) -/

section
variable (d : Dev)

/-- The root, its registers and the events change. -/
def Dev.secOnly (d : Dev) (f : Sec → Sec) (regs : FMap Word) (l : List Raised) : Dev := { d.onSec f with regs := regs, raised := l }

theorem calm_secOnly (f : Sec → Sec) (regs : FMap Word) (l : List Raised) : Calm d (d.secOnly f regs l) :=
  ⟨rfl, rfl, rfl, rfl, rfl, rfl, rfl, rfl, rfl⟩

theorem completes_secOnly {s : State} {c : Instr} {g : Dev → Dev} {f : Sec → Sec} {regs : FMap Word} {l : List Raised} {P : Dev → Prop}
    (hacts : Acts s) (hexec : exec c s = run s (fun d => (g d).settle)) (heq : g s.dev.silent = s.dev.silent.secOnly f regs l)
    (hP : ∀ d : Dev, d.sec = f s.dev.sec → d.raised = l → Calm s.dev d → P d) : Completes c s P :=
  completes_as hacts hexec heq rfl ⟨rfl, rfl⟩ (hP _ rfl rfl (calm_secOnly s.dev.silent f regs l))

/-- The root after a token's check. -/
def Sec.checkedWith (x : Sec) (r : Nat × Bool) : Sec := { x with
  token := false, checked := satAdd 32 x.checked 1, nonceOk := x.nonceOk && !r.2, reason := r.1, result := if r.1 = 0 then 1 else 2 }

/-- The token has been checked. -/
def Dev.tokenChecked (d : Dev) (r : Nat × Bool) : Dev := d.onSec (fun x => x.checkedWith r)

/-- The bytes of the token under check. -/
def Dev.token (d : Dev) : List Byte := d.tokenBytes.take 5333

/-- The root when partition p's grant begins. -/
def Sec.grantedWith (x : Sec) (p : Nat) (g : Grant) (perms expiry : Nat) : Sec := { x with
  grants := FMap.insert x.grants p g, perms := perms, expiry := expiry }

variable {d}

theorem tokenDone_refused (h : d.sec.token = true) (hclock : d.lost 33 = false) (hr : (d.tokenReason d.token).1 ≠ 0) :
    d.tokenDone = (d.tokenChecked (d.tokenReason d.token)).raise 0x1204 none 0 := by
  unfold Dev.tokenDone
  rw [if_pos ⟨h, by rw [hclock]; rfl⟩]
  exact if_pos hr

theorem tokenDone_scrubs (h : d.sec.token = true) (hclock : d.lost 33 = false) (hr : (d.tokenReason d.token).1 = 0)
    (hkind : natOfBytes ((d.token.drop 2).take 1) ≠ 1) :
    d.tokenDone = (d.tokenChecked (d.tokenReason d.token)).onSec (fun x => { x with
      scrub := some (natOfBytes ((d.token.drop 2).take 1) + 1), result := 3 }) := by
  unfold Dev.tokenDone
  rw [if_pos ⟨h, by rw [hclock]; rfl⟩]
  exact (if_neg (not_not.2 hr)).trans (if_neg hkind)

/-- A grant is measured and reported. -/
theorem grant_reports (x : Dev) (state path p : Nat) (tok : List Byte) : ∃ (regs : FMap Word) (l : List Raised),
    (∃ y ∈ l, y.code = 0x1301) ∧
    (if (x.extendGrant path p tok).secState ≠ state then ((x.extendGrant path p tok).raise 0x1301 (some p) p).raise 0x1203 none 0
      else (x.extendGrant path p tok).raise 0x1301 (some p) p) = { x with regs := regs, raised := x.raised ++ l } := by
  obtain ⟨regs, hx⟩ := extendGrant_rest x path p tok
  rw [hx]
  split
  · exact ⟨regs, [_, _], ⟨_, List.mem_cons_self, rfl⟩, congrArg (fun l => { x with regs := regs, raised := l }) (List.append_assoc _ _ _)⟩
  · exact ⟨regs, [_], ⟨_, List.mem_cons_self, rfl⟩, rfl⟩

/-- The grant that a tenant's token asks for. -/
def Dev.tokenGrant (d : Dev) : Grant :=
  ⟨natOfBytes ((d.token.drop 3).take 1), natOfBytes ((d.token.drop 64).take 8), shake256 d.token, d.sec.path⟩

theorem tokenGrant_perms (d : Dev) : d.tokenGrant.perms = natOfBytes ((d.token.drop 3).take 1) := by
  unfold Dev.tokenGrant
  dsimp only

theorem tokenGrant_expiry (d : Dev) : d.tokenGrant.expiry = natOfBytes ((d.token.drop 64).take 8) := by
  unfold Dev.tokenGrant
  dsimp only

/-- The device with that grant. -/
def Dev.tenantGranted (d : Dev) : Dev := d.onSec (fun x =>
  (x.checkedWith (d.tokenReason d.token)).grantedWith (natOfBytes ((d.token.drop 16).take 8)) d.tokenGrant
    (natOfBytes ((d.token.drop 3).take 1)) (natOfBytes ((d.token.drop 64).take 8)))

theorem tokenDone_grants (h : d.sec.token = true) (hclock : d.lost 33 = false) (hr : (d.tokenReason d.token).1 = 0)
    (hkind : natOfBytes ((d.token.drop 2).take 1) = 1) : ∃ (regs : FMap Word) (l : List Raised), (∃ x ∈ l, x.code = 0x1301) ∧
    d.tokenDone = { d.tenantGranted with regs := regs, raised := d.raised ++ l } := by
  obtain ⟨regs, l, hl, hx⟩ := grant_reports d.tenantGranted d.secState d.sec.path (natOfBytes ((d.token.drop 16).take 8))
    (shake256 d.token)
  refine ⟨regs, l, hl, ?_⟩
  unfold Dev.tokenDone
  rw [if_pos ⟨h, by rw [hclock]; rfl⟩]
  exact ((if_neg (not_not.2 hr)).trans (if_pos hkind)).trans hx

end

/-! ## The end of a grant (R598) -/

theorem grantEnd_eq {d : Dev} {p : Nat} {g : Grant} (h : FMap.find? d.sec.grants p = some g) : ∃ (regs : FMap Word) (l : List Raised),
    d.grantEnd p = { d.onSec (fun x => { x with grants := FMap.remove x.grants p }) with regs := regs, raised := d.raised ++ l } ∧
    ((d.grantEnd p).secState ≠ d.secState → ∃ x ∈ l, x.code = 0x1203) := by
  let d1 := d.onSec (fun x => { x with grants := FMap.remove x.grants p })
  obtain ⟨regs, hx⟩ := extendGrant_rest d1 g.path p g.digest
  have heq : d.grantEnd p = if d1.secState ≠ d.secState then (d1.extendGrant g.path p g.digest).raise 0x1203 none 0
      else d1.extendGrant g.path p g.digest := by
    unfold Dev.grantEnd
    rw [h]
  rw [heq, hx]
  split
  · exact ⟨regs, [_], rfl, fun _ => ⟨_, List.mem_cons_self, rfl⟩⟩
  · next hsame => exact ⟨regs, [], by rw [List.append_nil]; rfl, fun hne => absurd hne hsame⟩

/-! ## The scrub that leads to a debug state (R596) -/

section
variable (d : Dev)

theorem linksMoved_send (p : Packet) : LinksMoved d (d.send p) := by
  unfold Dev.send Dev.enqueue
  split
  · exact linksMoved_onLink d _ _
  · exact linksMoved_onLink d _ _
  · exact linksMoved_onLink d _ _

theorem linksMoved_mirrorStop (c : Nat) (clear : Bool) : LinksMoved d (d.mirrorStop c clear) := by
  have hunqueued : LinksMoved d ((d.mirrorUnqueue c).onCtx c (fun x => { x with sending := none })) :=
    (linksMoved_links d _).trans (linksMoved_onCtx _ c _)
  have hnoted := fun (x : Dev) (hx : LinksMoved d x) => linksMoved_ite (c := (d.ctx c).sending.isSome = true)
    (hx.trans (linksMoved_neaEvent x c 0x0B0C)) hx
  exact linksMoved_ite ((hnoted _ hunqueued).trans (linksMoved_send _ _)) (hnoted _ hunqueued)

/-- The banks pass through OFF, and the contexts' streams end. -/
def Dev.scrubbed (d : Dev) : Dev :=
  (upTo 8).foldl (fun (d : Dev) c => if (d.ctx c).st = .free then d else d.mirrorStop c true)
    ((upTo 4).foldl (fun (d : Dev) t => d.tileBanks t Bank.throughOff) d)

theorem scrubbed_keeps {β : Type} (p : Dev → β) (hsram : ∀ (d : Dev) u f, p (d.onSram u f) = p d)
    (hlinks : ∀ d d' : Dev, LinksMoved d d' → p d' = p d) : p d.scrubbed = p d := by
  have hbanks : ∀ (d : Dev) t, p (d.tileBanks t Bank.throughOff) = p d :=
    fun d t => foldl_keeps p (fun d u => foldl_keeps p (fun d b => hsram d u _) _ d) _ d
  have hmirrors : LinksMoved ((upTo 4).foldl (fun (d : Dev) t => d.tileBanks t Bank.throughOff) d) d.scrubbed :=
    LinksMoved.foldl (fun d c => linksMoved_ite (.refl d) (linksMoved_mirrorStop d c true)) _
  exact (hlinks _ _ hmirrors).trans (foldl_keeps p hbanks _ d)

/-- Memories zero and contexts released, debug state k entered. -/
def Dev.scrubEnds (d : Dev) (k : Nat) : Dev :=
  let d1 := (d.zeroSram (spdBase 0) (spdBase 384)).zeroSram (grvBase 0) (grvBase 16)
  let d2 : Dev := { d1 with
    mem := { d1.mem with bytes := FMap.dropRange d1.mem.bytes 0 (4 * hbmTileBytes), hpoison := [], hbmEra := [] }
    nea := d1.nea.filterMap (fun e =>
      let x : NeaCtx := { event := e.2.event, flags := e.2.flags }
      if x = {} then none else some (e.1, x))
    mirrors := []
    fuses := if k = 4 then { d1.fuses with state := 4 } else d1.fuses }
  d2.onSec (fun x => { x with scrub := none, result := 1, debug := if k = 4 then none else some 3 })

variable {d}

theorem scrubDone_eq {k : Nat} (h : d.sec.scrub = some k) : ∃ regs, d.scrubDone =
    Dev.raise { d.scrubbed.scrubEnds k with regs := regs } 0x1203 none 0 := by
  obtain ⟨regs, hx⟩ := extendGrant_rest (d.scrubbed.scrubEnds k) d.sec.path 0 (shake256 (d.tokenBytes.take 5333))
  refine ⟨regs, ?_⟩
  rw [← hx]
  unfold Dev.scrubDone Dev.scrubEnds Dev.scrubbed
  rw [h]

theorem scrubEnds_spd (d : Dev) (k : Nat) {a : Nat} (hlo : spdBase 0 ≤ a) (hhi : a < spdBase 384) : (d.scrubEnds k).mem.get a = 0 := by
  have hbytes : (d.scrubEnds k).mem.bytes = FMap.dropRange (FMap.dropRange (FMap.dropRange d.mem.bytes (spdBase 0) (spdBase 384))
    (grvBase 0) (grvBase 16)) 0 (4 * hbmTileBytes) := rfl
  have hbounds : 0x030000000000 ≤ a := by
    unfold spdBase at hlo
    omega
  unfold Mem.get
  rw [blank_of_spd hbounds hhi, hbytes, getD_dropRange, getD_dropRange, getD_dropRange]
  split
  · rfl
  · split
    · rfl
    · exact if_pos ⟨hlo, hhi⟩

end

theorem completes_scrubDone {s : State} {k : Nat} (hacts : Acts s) (h : s.dev.sec.scrub = some k) : Completes .debugScrubDone s (fun d =>
    d.sec.scrub = none ∧ d.sec.result = 1 ∧ d.sec.debug = (if k = 4 then none else some 3) ∧
    d.fuses.state = (if k = 4 then 4 else s.dev.fuses.state) ∧ Raises d 0x1203 ∧ d.mirrors = [] ∧
    (∀ a, spdBase 0 ≤ a → a < spdBase 384 → d.mem.get a = 0) ∧ d.cores = s.dev.cores) := by
  obtain ⟨regs, heq⟩ := scrubDone_eq (d := s.dev.silent) h
  have hspd := fun a hlo hhi => scrubEnds_spd s.dev.silent.scrubbed k (a := a) hlo hhi
  have hkeep : (s.dev.silent.scrubbed.cores, s.dev.silent.scrubbed.fuses, s.dev.silent.scrubbed.pruneDue, s.dev.silent.scrubbed.resetN,
      s.dev.silent.scrubbed.vin) = (s.dev.cores, s.dev.fuses, s.dev.pruneDue, s.dev.resetN, s.dev.vin) :=
    scrubbed_keeps s.dev.silent (fun d => (d.cores, d.fuses, d.pruneDue, d.resetN, d.vin)) (fun _ _ _ => rfl)
      (fun d d' h => by rw [h.rest])
  generalize s.dev.silent.scrubbed = x at heq hspd hkeep
  simp only [Prod.mk.injEq] at hkeep
  obtain ⟨hcores, hfuses, hdue, hreset, hvin⟩ := hkeep
  have hstate : (x.scrubEnds k).fuses.state = if k = 4 then 4 else x.fuses.state := by
    have hfuse : (x.scrubEnds k).fuses = if k = 4 then { x.fuses with state := 4 } else x.fuses := rfl
    rw [hfuse]
    split <;> rfl
  rw [hfuses] at hstate
  exact completes_as hacts (exec_debugScrubDone s) heq hdue ⟨hreset, hvin⟩
    ⟨rfl, rfl, rfl, hstate, raises_raise _ _ _ _, rfl, hspd, hcores⟩

/-! ## Fuses (R588, R604) -/

theorem getD_mapUpTo (f : Nat → Nat) {i n : Nat} (h : i < n) : ((upTo n).map f).getD i 0 = f i := by
  simp [upTo, h]

theorem completes_token {s : State} (hacts : Acts s) (hclock : s.dev.lost 33 = false) (h : s.dev.sec.token = true) :
    Completes .tokenCheckDone s (fun d =>
      d.sec.token = false ∧ d.sec.checked = min (s.dev.sec.checked + 1) (2 ^ 32 - 1) ∧ d.sec.reason = (s.dev.tokenReason s.dev.token).1 ∧
      Calm s.dev d ∧
      ((s.dev.tokenReason s.dev.token).1 ≠ 0 → d.sec.result = 2 ∧ d.sec.grants = s.dev.sec.grants ∧ Records s.dev d 0x1204 0) ∧
      ((s.dev.tokenReason s.dev.token).1 = 0 → natOfBytes ((s.dev.token.drop 2).take 1) = 1 → d.sec.result = 1 ∧ Raises d 0x1301 ∧
        (∃ g, FMap.find? d.sec.grants (natOfBytes ((s.dev.token.drop 16).take 8)) = some g ∧
          g.perms = natOfBytes ((s.dev.token.drop 3).take 1) ∧ g.expiry = natOfBytes ((s.dev.token.drop 64).take 8)) ∧
        ∀ p, p ≠ natOfBytes ((s.dev.token.drop 16).take 8) → FMap.find? d.sec.grants p = FMap.find? s.dev.sec.grants p) ∧
      ((s.dev.tokenReason s.dev.token).1 = 0 → natOfBytes ((s.dev.token.drop 2).take 1) ≠ 1 →
        d.sec.scrub = some (natOfBytes ((s.dev.token.drop 2).take 1) + 1) ∧ d.sec.grants = s.dev.sec.grants)) := by
  have hreason : s.dev.silent.tokenReason s.dev.silent.token = s.dev.tokenReason s.dev.token := rfl
  have htoken : s.dev.silent.token = s.dev.token := rfl
  by_cases hr : (s.dev.tokenReason s.dev.token).1 = 0
  · by_cases hkind : natOfBytes ((s.dev.token.drop 2).take 1) = 1
    · obtain ⟨regs, l, ⟨y, hy, hcode⟩, heq⟩ := tokenDone_grants (d := s.dev.silent) h hclock (by rw [hreason]; exact hr)
        (by rw [htoken]; exact hkind)
      have heq' : s.dev.silent.tokenDone = s.dev.silent.secOnly (fun x => (x.checkedWith (s.dev.tokenReason s.dev.token)).grantedWith
          (natOfBytes ((s.dev.token.drop 16).take 8)) s.dev.tokenGrant
          (natOfBytes ((s.dev.token.drop 3).take 1)) (natOfBytes ((s.dev.token.drop 64).take 8))) regs (s.dev.raised ++ l) := heq
      refine completes_secOnly hacts (exec_tokenCheckDone s) heq' fun d hsec hraised hcalm => ?_
      rw [hsec]
      generalize s.dev.tokenReason s.dev.token = r at hr ⊢
      refine ⟨rfl, rfl, rfl, hcalm, fun h => absurd hr h,
        fun _ _ => ⟨if_pos hr, ⟨y, by rw [hraised]; exact List.mem_append_right _ hy, hcode⟩, ⟨s.dev.tokenGrant, ?_, tokenGrant_perms _, tokenGrant_expiry _⟩, fun p hp => ?_⟩,
        fun _ h => absurd hkind h⟩
      · exact (FMap.find?_insert _ _ _ _).trans (if_pos rfl)
      · exact (FMap.find?_insert _ _ _ _).trans (if_neg (Ne.symm hp))
    · have heq := tokenDone_scrubs (d := s.dev.silent) h hclock (by rw [hreason]; exact hr) (by rw [htoken]; exact hkind)
      rw [hreason, htoken] at heq
      have heq' : s.dev.silent.tokenDone = s.dev.silent.secOnly (fun x => { x.checkedWith (s.dev.tokenReason s.dev.token) with
        scrub := some (natOfBytes ((s.dev.token.drop 2).take 1) + 1), result := 3 }) s.dev.regs s.dev.raised := heq
      refine completes_secOnly hacts (exec_tokenCheckDone s) heq' fun d hsec _ hcalm => ?_
      rw [hsec]
      generalize s.dev.tokenReason s.dev.token = r at hr ⊢
      exact ⟨rfl, rfl, rfl, hcalm, fun h => absurd hr h, fun _ h => absurd h hkind, fun _ _ => ⟨rfl, rfl⟩⟩
  · have heq := tokenDone_refused (d := s.dev.silent) h hclock (by rw [hreason]; exact hr)
    rw [hreason] at heq
    have heq' : s.dev.silent.tokenDone = s.dev.silent.secOnly (fun x => x.checkedWith (s.dev.tokenReason s.dev.token)) s.dev.regs
      (s.dev.raised ++ [⟨0x1204, evClass 0x1204, none, 0, 0, s.dev.tempo⟩]) := heq
    refine completes_secOnly hacts (exec_tokenCheckDone s) heq' fun d hsec hraised hcalm => ?_
    rw [hsec]
    generalize s.dev.tokenReason s.dev.token = r at hr ⊢
    exact ⟨rfl, rfl, rfl, hcalm, fun _ => ⟨if_neg hr, rfl, hraised⟩, fun h => absurd h hr, fun h => absurd h hr⟩

/-- Settles O44: each command of the security root as its effect on the root, and on the registers that a measurement extends. -/
theorem securityRoot : Obligations.SecurityRoot := by
  unfold Obligations.SecurityRoot
  intro s hacts hclock x t kind part
  refine ⟨?_, fun h => completes_attestDone hacts hclock h, ?_, fun htoken hscrub => ?_, fun h => completes_token hacts hclock h,
    fun k h => completes_scrubDone hacts h, fun hset hstate => ?_, fun hstage hhigh => ?_, fun hnot => ?_, fun p g hg => ?_, fun m => ?_⟩
  · exact completes_secCtrl hacts hclock (exec_secAttest s) (secCtrl_attest _) rfl ⟨rfl, rfl⟩ rfl
  · obtain ⟨regs, heq, hwords⟩ := nonceDraw_eq s.dev.silent
    rw [heq] at hwords
    exact completes_secCtrl hacts hclock (exec_secNonce s) ((secCtrl_nonce _).trans heq) rfl ⟨rfl, rfl⟩
      ⟨rfl, hwords, rfl, rfl, rfl, rfl, rfl, rfl, rfl, rfl, rfl, rfl⟩
  · have heq : s.dev.silent.tokenSubmit 0 = s.dev.silent.onSec (fun x => { x with token := true, result := 3, path := 0 }) := by
      have hbusy : ¬ (s.dev.silent.sec.token = true ∨ s.dev.silent.sec.scrub.isSome = true) := by
        have h1 : s.dev.silent.sec.token = false := htoken
        have h2 : s.dev.silent.sec.scrub = none := hscrub
        rw [h1, h2]
        decide
      exact if_neg hbusy
    exact completes_secCtrl hacts hclock (exec_secSubmit s) ((secCtrl_submit _).trans heq) rfl ⟨rfl, rfl⟩ rfl
  · have hmay : ¬ (s.dev.silent.fuses.ownerSet = true ∨ s.dev.silent.secState ≠ 1) := by
      have h1 : s.dev.silent.fuses.ownerSet = false := hset
      have h2 : s.dev.silent.secState = 1 := hstate
      rw [h1, h2]
      decide
    exact completes_secCtrl hacts hclock (exec_secOwnerEnrol s) ((secCtrl_enrol _).trans (if_neg hmay)) rfl ⟨rfl, rfl⟩ rfl
  · refine completes_secCtrl hacts hclock (exec_secSvnCommit s) ((secCtrl_commit _).trans (if_pos ⟨hstage, hhigh⟩)) rfl ⟨rfl, rfl⟩
      ⟨fun i hi => getD_mapUpTo _ hi, rfl, rfl, rfl, rfl, rfl, rfl, rfl, rfl, rfl, rfl, rfl, rfl⟩
  · refine completes_secCtrl hacts hclock (exec_secSvnCommit s) ((secCtrl_commit _).trans (if_neg ?_)) rfl ⟨rfl, rfl⟩ rfl
    rintro ⟨hstage, hhigh⟩
    exact hnot.elim (fun h => h hstage) (fun h => Bool.false_ne_true (h.symm.trans hhigh))
  · obtain ⟨regs, l, heq, hchange⟩ := grantEnd_eq (d := s.dev.silent) hg
    rw [heq] at hchange
    refine completes_secCtrl hacts hclock (exec_secEndGrant p s) ((secCtrl_endGrant _ p).trans heq) rfl ⟨rfl, rfl⟩
      ⟨?_, fun j hj => ?_, fun h => ?_, rfl, rfl, rfl, rfl, rfl, rfl, rfl, rfl, rfl⟩
    · exact (FMap.find?_remove _ _ _).trans (if_pos rfl)
    · exact (FMap.find?_remove _ _ _).trans (if_neg (Ne.symm hj))
    · obtain ⟨y, hy, hcode⟩ := hchange h
      exact ⟨y, List.mem_append_right _ hy, hcode⟩
  · have heq : s.dev.silent.lockSet (fld 13 8 (BitVec.ofNat 64 (256 * m.toNat))) = { s.dev.silent with
        sec := { s.dev.sec with locks := s.dev.sec.locks ||| m.toNat } } := by
      unfold Dev.lockSet
      rw [fld_lock m.isLt]
      rfl
    exact completes_as hacts (exec_secLockSet m s) ((ctrlWrite_secLock hacts hclock _).trans heq) rfl ⟨rfl, rfl⟩ rfl

end Sys2Proof.Machine
end

section
/-! SUPPORT. Proof of the statement about the JTAG port (R599, R600). -/
namespace Sys2Proof.Machine

open Safety

/-- A command of the JTAG port of a powered device, by the change that it makes. -/
theorem completes_jtag {c : Instr} {s : State} {f : Dev → Dev} {d : Dev} {P : Dev → Prop} (hvin : s.dev.vin = true)
    (hexec : exec c s = runVin s f) (heq : f s.dev.silent = d) (hpins : d.resetN = s.dev.resetN ∧ d.vin = s.dev.vin) (hP : P d) :
    Completes c s P := by
  subst heq
  obtain ⟨hreset, hvin'⟩ := hpins
  refine ⟨_, hexec, rfl, ?_⟩
  have hself : (f s.dev.silent).withPins s.dev = f s.dev.silent := by
    unfold Dev.withPins
    rw [← hreset, ← hvin']
  change P (if s.dev.vin = true then (f s.dev.silent).withPins s.dev else s.dev.silent)
  rw [if_pos hvin, hself]
  exact hP

section
variable (d : Dev)

/-- Under EXTEST the output lands stand as the cells say. -/
theorem pins_extest (h : d.sec.ir = .extest) : ∀ i ∈ [1, 2, 3, 4, 5, 7], d.pins.getD i 0 = if d.sec.cells.testBit i then 1 else 0 := by
  have hdriven : ∀ (own : List Bool) (i : Nat), i < own.length → i < 23 → i ∈ [1, 2, 3, 4, 5, 7] →
      ((own.zip (upTo 23)).map (fun x => if (if decide (d.sec.ir = .extest) && [1, 2, 3, 4, 5, 7].contains x.2 then d.sec.cells.testBit x.2
        else x.1) then 1 else 0)).getD i 0 = if d.sec.cells.testBit i then 1 else 0 := by
    intro own i hown hi hmem
    have hlen : i < ((own.zip (upTo 23)).map (fun x => if (if decide (d.sec.ir = .extest) && [1, 2, 3, 4, 5, 7].contains x.2 then
        d.sec.cells.testBit x.2 else x.1) then 1 else 0)).length := by
      simp [upTo]
      omega
    rw [List.getD_eq_getElem _ _ hlen, List.getElem_map, List.getElem_zip]
    have hi' : (upTo 23)[i]'(by simp [upTo]; omega) = i := by simp [upTo]
    have hdec : decide (d.sec.ir = .extest) = true := by rw [h]; rfl
    simp only [hi', hdec, Bool.true_and, if_pos (List.contains_iff_mem.2 hmem)]
  intro i hi
  have hlt : i < 23 := by
    simp only [List.mem_cons, List.not_mem_nil, or_false] at hi
    omega
  exact hdriven _ i (by simpa [upTo] using hlt) hlt hi

/-- Whether EXTEST is taken. -/
def Dev.extestMay (d : Dev) : Prop := (d.fuses.state = 0 ∨ d.fuses.state = 4) ∧ ∀ t, t < 4 → (d.ptile t).st = .off

theorem extestMay_iff : ((d.fuses.state = 0 ∨ d.fuses.state = 4) ∧ (upTo 4).all (fun t => decide ((d.ptile t).st = .off)) = true) ↔
    d.extestMay := by
  unfold Dev.extestMay
  simp [upTo]

variable {d}

theorem jtagExtest_taken (h : d.extestMay) (live : Bool) :
    d.jtagExtest live = (d.jtagSet .extest).tick.out (.sent 0x1149 (d.jtagSet .extest).pins) :=
  if_pos ((extestMay_iff d).2 h)

theorem jtagExtest_refused (h : ¬ d.extestMay) (live : Bool) :
    d.jtagExtest live = if live then (d.jtagSet .bypass).denied else d.jtagSet .bypass :=
  if_neg (fun hmay => h ((extestMay_iff d).1 hmay))

/-- In SECURED nothing but the registers of set S is within the port's reach. -/
theorem reach_secured {a : Nat} (hstate : d.secState = 1) (h : inRegion a = false ∨ regAt (a - a % 8) = none) (w : Bool) (v : Word) :
    d.reach .jtag a w v = false := by
  unfold Dev.reach
  rw [hstate]
  rcases h with h | h <;> simp [h]

theorem reach_all {a : Nat} (hstate : d.secState = 0 ∨ d.secState = 3 ∨ d.secState = 4) (path : DbgPath) (w : Bool) (v : Word) :
    d.reach path a w v = true := if_pos hstate

theorem dbgAccess_denied {a : Nat} {path : DbgPath} {w : Bool} {v : Word} (h : d.reach path a w v = false) :
    d.dbgAccess path a w v = (.denied, d.denied) := by
  unfold Dev.dbgAccess
  rw [h]
  rfl

theorem dbgAccess_hubWrite {a : Nat} {path : DbgPath} {v : Word} (h : d.reach path a true v = true) (hub : inHub a = true) (ha : a % 8 = 0) :
    d.dbgAccess path a true v = (.done (.value 0), { d with mem := d.mem.putAll a (plain (clean (bytesOf 8 v.toNat))) }) := by
  unfold Dev.dbgAccess
  rw [h]
  unfold Dev.hostWrite
  simp [hub, ha]

theorem dbgAccess_hubRead {a : Nat} {path : DbgPath} {v : Word} (h : d.reach path a false v = true) (hub : inHub a = true) (ha : a % 8 = 0) :
    d.dbgAccess path a false v = (.done (.value (BitVec.ofNat 64 (natOfBytes (d.mem.getAll a 8)))), d) := by
  unfold Dev.dbgAccess
  rw [h]
  unfold Dev.hostRead
  simp [hub, ha]

theorem jtagAccess_live (a : Nat) (w : Bool) (v : Word) : d.jtagAccess true a w v =
    match (d.jtagSet .dbgAccess).dbgAccess .jtag a w v with
    | (.denied, d1) => d1.out (.value 0)
    | (.done r, d1) => if w then d1.outWrite r else d1.outRead r := rfl

theorem jtagToken_live {k : Nat} (hk : k < 1024) (v : Word) :
    d.jtagToken true k v = (d.jtagSet .dbgToken).setReg ⟨.secTokenBuf, [k]⟩ v := by
  unfold Dev.jtagToken
  rw [Bool.true_and, decide_eq_true hk]
  have hk8 : 8 * k / 8 + 0 = k := by omega
  exact congrArg (fun k => (d.jtagSet .dbgToken).setReg ⟨.secTokenBuf, [k]⟩ v) hk8

end

theorem silent_jtagSet (d : Dev) (i : JtagIr) : d.silent.jtagSet i = { d with outs := [], sec := { d.sec with ir := i } } := rfl

theorem silent_jtagIdcode (d : Dev) :
    d.silent.jtagIdcode = { d with outs := [.value 0x14812777], sec := { d.sec with ir := .idcode } } := rfl

theorem jtagSample_eq (d : Dev) : d.jtagSample = ((d.jtagSet .sample).tick.onSec
    (fun x => { x with cells := fld 63 41 (Config.freeWord d.fresh) })).out (.sent 0x1149 (d.jtagSet .sample).pins) := rfl

theorem silent_sampled (d : Dev) (c : Nat) (l : List Nat) :
    ((d.silent.jtagSet .sample).tick.onSec (fun x => { x with cells := c })).out (.sent 0x1149 l) = { d with
      outs := [.sent 0x1149 l], fresh := d.fresh + 1, sec := { d.sec with ir := .sample, cells := c } } := by
  unfold Dev.tick Dev.out Dev.jtagSet Dev.onSec Dev.silent
  rfl

theorem silent_extested (d : Dev) (l : List Nat) : (d.silent.jtagSet .extest).tick.out (.sent 0x1149 l) = { d with
    outs := [.sent 0x1149 l], fresh := d.fresh + 1, sec := { d.sec with ir := .extest } } := by
  unfold Dev.tick Dev.out Dev.jtagSet Dev.onSec Dev.silent
  rfl

theorem silent_answered (d : Dev) (n : Nat) : (d.silent.jtagSet .dbgAccess).out (.value n) = { d with
    outs := [.value n], sec := { d.sec with ir := .dbgAccess } } := by
  unfold Dev.out Dev.jtagSet Dev.onSec Dev.silent
  rfl

theorem denied_records (d : Dev) : Records d d.denied 0x1302 0 ∧ Calm d d.denied ∧ d.denied.sec = d.sec ∧ d.denied.outs = d.outs ∧
    (d.denied.resetN = d.resetN ∧ d.denied.vin = d.vin) := ⟨rfl, ⟨rfl, rfl, rfl, rfl, rfl, rfl, rfl, rfl, rfl⟩, rfl, rfl, rfl, rfl⟩

/-- A refused EXTEST of an acting device. -/
theorem completes_extestDenied {s : State} (hvin : s.dev.vin = true) (hmay : ¬ s.dev.extestMay) (hl : s.dev.live = true) :
    Completes .jtagExtest s (fun d => d.sec.ir = .bypass ∧ Records s.dev d 0x1302 0 ∧ Calm s.dev d) := by
  have hdenied := denied_records (s.dev.silent.jtagSet .bypass)
  have heq : s.dev.silent.jtagExtest s.dev.silent.live = (s.dev.silent.jtagSet .bypass).denied :=
    (jtagExtest_refused (d := s.dev.silent) hmay _).trans (if_pos hl)
  generalize (s.dev.silent.jtagSet .bypass).denied = x at heq hdenied
  obtain ⟨hrec, hcalm, hsec, -, hpins⟩ := hdenied
  exact completes_jtag hvin (exec_jtagExtest s) heq hpins ⟨by rw [hsec]; rfl, hrec, hcalm⟩

/-- An access outside the port's reach. -/
theorem completes_accessDenied {s : State} {a : Nat} {w : Bool} {v : Word} (hvin : s.dev.vin = true) (hl : s.dev.live = true)
    (hreach : (s.dev.silent.jtagSet .dbgAccess).reach .jtag a w v = false) : Completes (.jtagDbgAccess a w v) s (fun d =>
      d.outs = [.value 0] ∧ d.sec.ir = .dbgAccess ∧ Records s.dev d 0x1302 0 ∧ Calm s.dev d) := by
  have hlive : s.dev.silent.live = true := hl
  have heq : s.dev.silent.jtagAccess s.dev.silent.live a w v = ((s.dev.silent.jtagSet .dbgAccess).denied).out (.value 0) := by
    rw [hlive, jtagAccess_live, dbgAccess_denied hreach]
  have hdenied := denied_records (s.dev.silent.jtagSet .dbgAccess)
  generalize (s.dev.silent.jtagSet .dbgAccess).denied = x at heq hdenied
  obtain ⟨hrec, hcalm, hsec, houts, hpins⟩ := hdenied
  exact completes_jtag hvin (exec_jtagDbgAccess a w v s) heq hpins
    ⟨congrArg (· ++ [Out.value 0]) houts, by change x.sec.ir = _; rw [hsec]; rfl, hrec, hcalm⟩

theorem completes_token_word {s : State} (hvin : s.dev.vin = true) (hl : s.dev.live = true) (k : Fin 1024) (v : Word) :
    Completes (.jtagDbgToken k v) s (fun d =>
      d.reg ⟨.secTokenBuf, [k.val]⟩ = v ∧ d.sec.ir = .dbgToken ∧ d.raised = s.dev.raised ∧ Calm s.dev d ∧
      ∀ r, r.addr ≠ Reg.addr ⟨.secTokenBuf, [k.val]⟩ → d.reg r = s.dev.reg r) := by
  have hlive : s.dev.silent.live = true := hl
  have heq : s.dev.silent.jtagToken s.dev.silent.live k.val v = (s.dev.silent.jtagSet .dbgToken).setReg ⟨.secTokenBuf, [k.val]⟩ v := by
    rw [hlive]
    exact jtagToken_live k.isLt v
  exact completes_jtag hvin (exec_jtagDbgToken k v s) heq ⟨rfl, rfl⟩
    ⟨Dev.setReg_self _ _ _, rfl, rfl, ⟨rfl, rfl, rfl, rfl, rfl, rfl, rfl, rfl, rfl⟩, fun r hr => Dev.setReg_ne _ _ _ _ (Ne.symm hr)⟩

/-- Settles O45: the instruction register, and what each instruction does within its reach. -/
theorem jtagPort : Obligations.JtagPort := by
  unfold Obligations.JtagPort
  intro s hvin as may
  have hlive : ∀ {b : Bool}, s.dev.live = b → s.dev.silent.live = b := fun h => h
  refine ⟨?_, ?_, ?_, ?_, fun hmay => ?_, fun hmay hl => ?_, fun hmay hl => ?_, fun a v w hl hstate hout => ?_,
    fun a v hl hstate hub ha => ⟨?_, ?_⟩, fun a w v hl => ?_, fun k v hl => ?_⟩
  · exact completes_jtag hvin (exec_jtagBypass s) (silent_jtagSet s.dev .bypass) ⟨rfl, rfl⟩ rfl
  · exact completes_jtag hvin (exec_jtagIdcode s) (silent_jtagIdcode s.dev) ⟨rfl, rfl⟩ rfl
  · have hpins : (s.dev.silent.jtagSet .sample).pins = (as .sample []).pins := congrArg Dev.pins (silent_jtagSet s.dev .sample)
    have heq := (jtagSample_eq s.dev.silent).trans (silent_sampled s.dev _ _)
    rw [hpins] at heq
    refine completes_jtag hvin (exec_jtagSamplePreload s) heq ⟨rfl, rfl⟩ ⟨BitVec.ofNat 23 (fld 63 41 (Config.freeWord s.dev.fresh)), ?_⟩
    rw [BitVec.toNat_ofNat, Nat.mod_eq_of_lt (fld_lt 63 41 _)]
    rfl
  · exact completes_jtag hvin (exec_jtagTrst s) (silent_jtagSet s.dev .idcode) ⟨rfl, rfl⟩ rfl
  · exact completes_jtag hvin (exec_jtagExtest s) ((jtagExtest_taken (d := s.dev.silent) hmay _).trans (silent_extested s.dev _)) ⟨rfl, rfl⟩
      ⟨_, rfl, pins_extest (s.dev.silent.jtagSet .extest) rfl⟩
  · refine completes_jtag hvin (exec_jtagExtest s) (((jtagExtest_refused (d := s.dev.silent) hmay _).trans (if_neg ?_)).trans
      (silent_jtagSet s.dev .bypass)) ⟨rfl, rfl⟩ rfl
    rw [hlive hl]
    exact Bool.false_ne_true
  · exact completes_extestDenied hvin hmay hl
  · exact completes_accessDenied hvin hl (reach_secured hstate hout w v)
  · have heq : s.dev.silent.jtagAccess s.dev.silent.live a true v = { s.dev.silent.jtagSet .dbgAccess with
        mem := s.dev.mem.putAll a (bytesOf 8 v.toNat) } := by
      rw [hlive hl, jtagAccess_live, dbgAccess_hubWrite (reach_all (d := s.dev.silent.jtagSet .dbgAccess) hstate .jtag true v) hub ha, plain_clean]
      rfl
    refine completes_jtag hvin (exec_jtagDbgAccess a true v s) heq ⟨rfl, rfl⟩ ⟨?_, ?_, rfl, rfl⟩
    · exact getAll_putAll s.dev.mem a (bytesOf 8 v.toNat)
    · exact fun b hb => Mem.get_putAll_out s.dev.mem a b (bytesOf 8 v.toNat) (by rw [length_bytesOf]; exact hb)
  · have heq : s.dev.silent.jtagAccess s.dev.silent.live a false v =
        (s.dev.silent.jtagSet .dbgAccess).out (.value (BitVec.ofNat 64 (natOfBytes (s.dev.mem.getAll a 8))).toNat) := by
      rw [hlive hl, jtagAccess_live, dbgAccess_hubRead (reach_all (d := s.dev.silent.jtagSet .dbgAccess) hstate .jtag false v) hub ha]
      rfl
    rw [BitVec.toNat_ofNat] at heq
    exact completes_jtag hvin (exec_jtagDbgAccess a false v s) (heq.trans (silent_answered s.dev _)) ⟨rfl, rfl⟩ rfl
  · have heq : s.dev.silent.jtagAccess s.dev.silent.live a w v = s.dev.silent.jtagSet .dbgAccess := by
      rw [hlive hl]
      rfl
    exact completes_jtag hvin (exec_jtagDbgAccess a w v s) (heq.trans (silent_jtagSet s.dev .dbgAccess)) ⟨rfl, rfl⟩ rfl
  · exact completes_token_word hvin hl k v

end Sys2Proof.Machine
end

section
/-! SUPPORT. Proof of the statement about event records, mailboxes and control cores (R545, R611, R613 to R616, R619). -/
namespace Sys2Proof.Machine

open Safety

/-! ## Event records (R613 to R615) -/

section
variable (d : Dev)

/-- The records of one clk are the event that waits alone. -/
theorem recordsWrite_one {r : Raised} {rest : List Raised} (hraised : d.raised = r :: rest) (hclock : d.lost 33 = false) :
    d.recordsWrite 1 = Dev.recordWrite { d with raised := rest } r := by
  unfold Dev.recordsWrite
  rw [hclock, hraised]
  rfl

/-- The event queue's place for the next record. -/
def Dev.evqHead (d : Dev) : Nat := fld 46 32 (d.reg ⟨.hubEvq, []⟩) % evqSize (d.reg ⟨.hubEvq, []⟩)

/-- The address of the next record. -/
def Dev.evqPlace (d : Dev) : Nat := hubAt (fld 27 4 (d.reg ⟨.hubEvq, []⟩) * 16 + 16 * d.evqHead)

/-- The record stands in memory, and the queue's head goes on. -/
def Dev.recorded (d : Dev) (r : Raised) : Dev :=
  ({ d with mem := d.mem.putAll d.evqPlace (bytesOf 16 r.bits) } : Dev).setRegFld ⟨.hubEvq, []⟩ 46 32
    ((d.evqHead + 1) % evqSize (d.reg ⟨.hubEvq, []⟩))

variable {d}

theorem recordWrite_full (r : Raised) (h : (d.evqHead + 1) % evqSize (d.reg ⟨.hubEvq, []⟩) = fld 62 48 (d.reg ⟨.hubEvq, []⟩) %
    evqSize (d.reg ⟨.hubEvq, []⟩)) : d.recordWrite r = d.count ⟨.hubIrq, []⟩ 63 32 1 := by
  unfold Dev.evqHead at h
  unfold Dev.recordWrite
  dsimp only
  rw [if_pos h]

theorem recordWrite_room (r : Raised) (h : (d.evqHead + 1) % evqSize (d.reg ⟨.hubEvq, []⟩) ≠ fld 62 48 (d.reg ⟨.hubEvq, []⟩) %
    evqSize (d.reg ⟨.hubEvq, []⟩)) : d.recordWrite r =
      if bit r.cls.code (d.reg ⟨.hubIrq, []⟩) then (d.recorded r).setRegFld ⟨.hubIrq, []⟩ 7 7 1 else d.recorded r := by
  unfold Dev.evqHead at h
  unfold Dev.recordWrite Dev.recorded Dev.evqPlace Dev.evqHead
  dsimp only
  rw [if_neg h]

theorem evqSize_le (v : Word) : 0 < evqSize v ∧ evqSize v ≤ 2 ^ 15 := by
  unfold evqSize
  split
  · next h => exact ⟨Nat.two_pow_pos _, Nat.pow_le_pow_right (by decide) h.2⟩
  · decide

/-- The queue's registers after a record. -/
theorem recorded_facts (d : Dev) (r : Raised) : (d.recorded r).mem = d.mem.putAll d.evqPlace (bytesOf 16 r.bits) ∧
    (d.recorded r).regFld ⟨.hubEvq, []⟩ 46 32 = (d.evqHead + 1) % evqSize (d.reg ⟨.hubEvq, []⟩) ∧
    (d.recorded r).raised = d.raised ∧ (d.recorded r).cores = d.cores ∧ (d.recorded r).pruneDue = d.pruneDue ∧
    (d.recorded r).resetN = d.resetN ∧ (d.recorded r).vin = d.vin := by
  obtain ⟨hpos, hle⟩ := evqSize_le (d.reg ⟨.hubEvq, []⟩)
  have hfit : (d.evqHead + 1) % evqSize (d.reg ⟨.hubEvq, []⟩) < 2 ^ (46 + 1 - 32) := (Nat.mod_lt _ hpos).trans_le hle
  refine ⟨rfl, ?_, rfl, rfl, rfl, rfl, rfl⟩
  unfold Dev.recorded Dev.regFld
  rw [reg_setRegFld_self, fld_setFld_self _ _ (by decide), Nat.mod_eq_of_lt hfit]

/-- What a record in a queue with room leaves. -/
theorem recordWrite_facts (r : Raised) (h : (d.evqHead + 1) % evqSize (d.reg ⟨.hubEvq, []⟩) ≠ fld 62 48 (d.reg ⟨.hubEvq, []⟩) %
    evqSize (d.reg ⟨.hubEvq, []⟩)) : (d.recordWrite r).mem = d.mem.putAll d.evqPlace (bytesOf 16 r.bits) ∧
    (d.recordWrite r).regFld ⟨.hubEvq, []⟩ 46 32 = (d.evqHead + 1) % evqSize (d.reg ⟨.hubEvq, []⟩) ∧
    (d.recordWrite r).raised = d.raised ∧ (d.recordWrite r).cores = d.cores ∧ (d.recordWrite r).pruneDue = d.pruneDue ∧
    ((d.recordWrite r).resetN = d.resetN ∧ (d.recordWrite r).vin = d.vin) ∧
    ((d.reg ⟨.hubIrq, []⟩).getLsbD r.cls.code = true → ((d.recordWrite r).reg ⟨.hubIrq, []⟩).getLsbD 7 = true) := by
  obtain ⟨hmem, hhead, hraised, hcores, hdue, hreset, hvin⟩ := recorded_facts d r
  rw [recordWrite_room r h]
  generalize d.recorded r = x at *
  split
  · refine ⟨hmem, ?_, hraised, hcores, hdue, ⟨hreset, hvin⟩, fun _ => ?_⟩
    · rw [← hhead]
      unfold Dev.regFld
      rw [reg_setRegFld_ne _ (by decide)]
    · rw [reg_setRegFld_self, setFld_getLsbD]
      rfl
  · next hclass => exact ⟨hmem, hhead, hraised, hcores, hdue, ⟨hreset, hvin⟩, fun hset => absurd hset hclass⟩

end

section
variable {s : State} {r : Raised} {rest : List Raised}

theorem completes_record (hacts : Acts s) (hclock : s.dev.lost 33 = false) (hraised : s.dev.raised = r :: rest)
    (h : (s.dev.evqHead + 1) % evqSize (s.dev.reg ⟨.hubEvq, []⟩) ≠ fld 62 48 (s.dev.reg ⟨.hubEvq, []⟩) % evqSize (s.dev.reg ⟨.hubEvq, []⟩)) :
    Completes (.eventRecordWrite 1) s (fun d => d.mem.getAll s.dev.evqPlace 16 = bytesOf 16 r.bits ∧
      KeptOutside s d s.dev.evqPlace 16 ∧ d.raised = rest ∧
      d.regFld ⟨.hubEvq, []⟩ 46 32 = (s.dev.evqHead + 1) % evqSize (s.dev.reg ⟨.hubEvq, []⟩) ∧
      ((s.dev.reg ⟨.hubIrq, []⟩).getLsbD r.cls.code = true → (d.reg ⟨.hubIrq, []⟩).getLsbD 7 = true) ∧ d.cores = s.dev.cores) := by
  have heq := recordsWrite_one s.dev.silent hraised hclock
  obtain ⟨hmem, hhead, hrest, hcores, hdue, hpins, hirq⟩ := recordWrite_facts (d := { s.dev.silent with raised := rest }) r h
  generalize Dev.recordWrite { s.dev.silent with raised := rest } r = x at *
  have hmem' : x.mem = s.dev.mem.putAll s.dev.evqPlace (bytesOf 16 r.bits) := hmem
  refine completes_as hacts (exec_eventRecordWrite 1 s) heq hdue hpins ⟨?_, fun b hb => ?_, hrest, hhead, hirq, hcores⟩
  · rw [hmem']
    exact getAll_putAll s.dev.mem s.dev.evqPlace (bytesOf 16 r.bits)
  · rw [hmem']
    exact Mem.get_putAll_out _ _ _ _ (by rw [length_bytesOf]; exact hb)

theorem completes_recordLost (hacts : Acts s) (hclock : s.dev.lost 33 = false) (hraised : s.dev.raised = r :: rest)
    (h : (s.dev.evqHead + 1) % evqSize (s.dev.reg ⟨.hubEvq, []⟩) = fld 62 48 (s.dev.reg ⟨.hubEvq, []⟩) % evqSize (s.dev.reg ⟨.hubEvq, []⟩)) :
    Completes (.eventRecordWrite 1) s (fun d => d.mem = s.dev.mem ∧ d.raised = rest ∧
      d.regFld ⟨.hubIrq, []⟩ 63 32 = min (s.dev.regFld ⟨.hubIrq, []⟩ 63 32 + 1) (2 ^ 32 - 1) ∧ d.cores = s.dev.cores) := by
  have heq := (recordsWrite_one s.dev.silent hraised hclock).trans (recordWrite_full (d := { s.dev.silent with raised := rest }) r h)
  exact completes_as hacts (exec_eventRecordWrite 1 s) heq rfl ⟨rfl, rfl⟩
    ⟨rfl, rfl, regFld_count_self (d := { s.dev.silent with raised := rest }) (r := ⟨.hubIrq, []⟩) 1 (by decide), rfl⟩

end

/-! ## Mailboxes (R616) -/

section
variable {s : State} {ag : Agent} {r : Reg} {k : Nat}

/-- The words of mailbox k. -/
def Dev.mbox (d : Dev) (k : Nat) : List Word := FMap.getD d.mail k []

theorem mbox_push {d : Dev} {v : Word} (hroom : (d.mbox k).length < 64) :
    d.mboxPush k v = { d with mail := FMap.set d.mail [] k (d.mbox k ++ [v]) } := if_neg (Nat.not_le.2 hroom)

theorem mbox_full {d : Dev} {v : Word} (hfull : 64 ≤ (d.mbox k).length) :
    d.mboxPush k v = (d.count ⟨.hubMboxStat, [k / 2]⟩ 31 16 1).raise 0x1405 (some (k / 2)) (k / 2) := if_pos hfull

theorem mbox_set (d : Dev) (l : List Word) (j : Nat) :
    Dev.mbox { d with mail := FMap.set d.mail [] k l } j = if k = j then l else d.mbox j := FMap.getD_set _ _ _ _ _

/-- A pop takes the oldest word, or answers 0. -/
theorem mbox_pop (d : Dev) : ∃ m, d.mboxPop k = ((d.mbox k).headD 0, { d with mail := m }) ∧
    ∀ j, Dev.mbox { d with mail := m } j = if k = j then (d.mbox k).drop 1 else d.mbox j := by
  unfold Dev.mboxPop
  have hself : FMap.getD d.mail k [] = d.mbox k := rfl
  rw [hself]
  cases hl : d.mbox k with
  | nil =>
    refine ⟨d.mail, rfl, fun j => ?_⟩
    split
    · next h => subst h; exact hl
    · rfl
  | cons v l => exact ⟨_, rfl, fun j => mbox_set d l j⟩

theorem completes_push {c : Instr} {v : Word} (hreach : Reaches s ag r) (hrwt : accMask [.rwt] r.k = 0)
    (hexec : exec c s = run s (fun d => (d.ctrlWrite ag r v).settle))
    (hdo : ∀ (d : Dev) (w : Word), d.regDo ag 0 r (BitVec.allOnes 64) w = d.mboxPush k (w &&& BitVec.allOnes 64)) :
    ((s.dev.mbox k).length < 64 → Completes c s (fun d =>
      d.mbox k = s.dev.mbox k ++ [v] ∧ (∀ j, j ≠ k → d.mbox j = s.dev.mbox j) ∧ d.regs = s.dev.regs ∧ d.raised = s.dev.raised ∧
      Calm s.dev d)) ∧
    (64 ≤ (s.dev.mbox k).length → Completes c s (fun d => d.mail = s.dev.mail ∧ Raises d 0x1405 ∧ Calm s.dev d)) := by
  have heq : s.dev.silent.ctrlWrite ag r v = s.dev.silent.mboxPush k v := by
    rw [ctrlWrite_reaches hreach (.inr (rwtMask_none s.dev hrwt)) v, hdo, BitVec.and_allOnes]
  refine ⟨fun hroom => ?_, fun hfull => ?_⟩
  · have hset := mbox_set (k := k) s.dev.silent (s.dev.silent.mbox k ++ [v])
    exact completes_as hreach.1 hexec (heq.trans (mbox_push hroom)) rfl ⟨rfl, rfl⟩
      ⟨(hset k).trans (if_pos rfl), fun j hj => (hset j).trans (if_neg (Ne.symm hj)), rfl, rfl, rfl, rfl, rfl, rfl, rfl, rfl, rfl, rfl, rfl⟩
  · exact completes_as hreach.1 hexec (heq.trans (mbox_full hfull)) rfl ⟨rfl, rfl⟩
      ⟨rfl, raises_raise _ _ _ _, rfl, rfl, rfl, rfl, rfl, rfl, rfl, rfl, rfl⟩

theorem completes_pop {c : Instr} (hreach : Reaches s ag r false) (hexec : exec c s = run s (fun d => (d.popBy ag r).settle))
    (hread : ∀ d : Dev, d.absent r = false → d.regRead r = d.mboxPop k) : Completes c s (fun d =>
      d.outs = [.value ((s.dev.mbox k).headD 0).toNat] ∧ d.mbox k = (s.dev.mbox k).drop 1 ∧ (∀ j, j ≠ k → d.mbox j = s.dev.mbox j) ∧
      d.regs = s.dev.regs ∧ d.raised = s.dev.raised ∧ Calm s.dev d) := by
  obtain ⟨hacts, -, -, -, habsent, -⟩ := id hreach
  obtain ⟨m, hpop, hmbox⟩ := mbox_pop (k := k) s.dev.silent
  have heq : s.dev.silent.popBy ag r = { s.dev.silent with mail := m }.out (.value ((s.dev.mbox k).headD 0).toNat) := by
    unfold Dev.popBy
    rw [busDo_reaches hreach]
    dsimp only
    rw [hread s.dev.silent habsent, hpop]
    rfl
  exact completes_as hacts hexec heq rfl ⟨rfl, rfl⟩
    ⟨rfl, (hmbox k).trans (if_pos rfl), fun j hj => (hmbox j).trans (if_neg (Ne.symm hj)), rfl, rfl, rfl, rfl, rfl, rfl, rfl, rfl, rfl, rfl, rfl⟩

end

/-! ## Control cores (R545, R611, R619) -/

section
variable (d : Dev)

theorem onHart_calm (k : Nat) (f : Hart → Hart) : Calm d (d.onHart k f) ∧ (d.onHart k f).raised = d.raised ∧
    (d.onHart k f).tempo = d.tempo ∧ (d.onHart k f).regs = d.regs ∧ (d.onHart k f).pruneDue = d.pruneDue ∧
    ((d.onHart k f).resetN = d.resetN ∧ (d.onHart k f).vin = d.vin) :=
  ⟨⟨rfl, rfl, rfl, rfl, rfl, rfl, rfl, rfl, rfl⟩, rfl, rfl, rfl, rfl, rfl, rfl⟩

/-- The recovery of a fault that concerns no partition. -/
theorem faultDevice_alone (code unit : Nat) (rs : List Remedy) : ∃ regs l, d.faultDevice code unit [] rs =
    { d.raise code none unit with regs := regs, faults := l } := by
  unfold Dev.faultDevice
  dsimp only
  split
  · exact ⟨_, _, rfl⟩
  · exact ⟨_, _, rfl⟩

/-- What a report of such a fault leaves. -/
theorem faultDevice_facts (code unit : Nat) (rs : List Remedy) : Calm d (d.faultDevice code unit [] rs) ∧
    Records d (d.faultDevice code unit [] rs) code unit ∧ (d.faultDevice code unit [] rs).harts = d.harts ∧
    (d.faultDevice code unit [] rs).pruneDue = d.pruneDue ∧ ((d.faultDevice code unit [] rs).resetN = d.resetN ∧
    (d.faultDevice code unit [] rs).vin = d.vin) := by
  obtain ⟨regs, l, h⟩ := faultDevice_alone d code unit rs
  rw [h]
  exact ⟨⟨rfl, rfl, rfl, rfl, rfl, rfl, rfl, rfl, rfl⟩, rfl, rfl, rfl, rfl, rfl⟩

/-- A spare stands by. -/
def Dev.hartSpare (d : Dev) : Prop := ∃ j, j < 16 ∧ (d.hart j).st = .spare

theorem hartSpare_iff : (upTo 16).any (fun j => decide ((d.hart j).st = .spare)) = true ↔ d.hartSpare := by
  unfold Dev.hartSpare
  simp [upTo]

variable {d} {h k : Nat}

theorem hartFail_fenced (hk : d.hartOf h = some k) (hspare : d.hartSpare) : d.hartFail h =
    (d.onHart k (fun x => { x with st := .fenced, watched := false })).faultDevice 0x1401 h [] [.hart k] := by
  unfold Dev.hartFail
  rw [hk]
  exact if_pos ((hartSpare_iff d).2 hspare)

theorem hartFail_retired (hk : d.hartOf h = some k) (hspare : ¬ d.hartSpare) : d.hartFail h =
    ((d.onHart k (fun x => { x with st := .retired, logical := 0xF, watched := false })).faultDevice 0x1401 h [] []).raise 0x1403 none h := by
  unfold Dev.hartFail
  rw [hk]
  exact if_neg (fun hs => hspare ((hartSpare_iff d).1 hs))

theorem hart_congr {d d' : Dev} (h : d'.harts = d.harts) (j : Nat) : d'.hart j = d.hart j := by
  unfold Dev.hart
  rw [h]

theorem wdogKick_watched (hclock : d.lost 33 = false) (hk : d.hartOf h = some k) :
    d.wdogKick h = d.onHart k (fun x => { x with kick := d.tempo, watched := true }) := by
  unfold Dev.wdogKick
  rw [hclock, hk]
  rfl

end

section
variable {s : State} {h : Fin 14} {k : Nat}

theorem completes_kick (hacts : Acts s) (hclock : s.dev.lost 33 = false) (hk : s.dev.hartOf h.val = some k) :
    Completes (.hubWdogKick h) s (fun d =>
      d.hart k = { s.dev.hart k with kick := s.dev.tempo, watched := true } ∧ (∀ j, j ≠ k → d.hart j = s.dev.hart j) ∧
      d.regs = s.dev.regs ∧ d.raised = s.dev.raised ∧ Calm s.dev d) := by
  have heq := wdogKick_watched (d := s.dev.silent) hclock hk
  have hget := fun j => Dev.onHart_get s.dev.silent k j (fun x => { x with kick := s.dev.silent.tempo, watched := true })
  obtain ⟨hcalm, hraised, -, hregs, hdue, hpins⟩ := onHart_calm s.dev.silent k (fun x => { x with kick := s.dev.silent.tempo, watched := true })
  generalize s.dev.silent.onHart k (fun x => { x with kick := s.dev.silent.tempo, watched := true }) = x at *
  exact completes_as hacts (exec_hubWdogKick h s) heq hdue hpins
    ⟨(hget k).trans (if_pos rfl), fun j hj => (hget j).trans (if_neg (Ne.symm hj)), hregs, hraised, hcalm⟩

theorem completes_fenced (hacts : Acts s) (hk : s.dev.hartOf h.val = some k) (hspare : s.dev.hartSpare) :
    Completes (.hubCoreFail h) s (fun d =>
      d.hart k = { s.dev.hart k with st := .fenced, watched := false } ∧ (∀ j, j ≠ k → d.hart j = s.dev.hart j) ∧
      Records s.dev d 0x1401 h.val ∧ Calm s.dev d) := by
  have heq := hartFail_fenced (d := s.dev.silent) hk hspare
  have hget := fun j => Dev.onHart_get s.dev.silent k j (fun x => { x with st := .fenced, watched := false })
  obtain ⟨hcalm, hraised, htempo, -, hdue, hpins⟩ := onHart_calm s.dev.silent k (fun x => { x with st := .fenced, watched := false })
  generalize s.dev.silent.onHart k (fun x => { x with st := .fenced, watched := false }) = x at *
  obtain ⟨hcalm', hrec, hharts, hdue', hpins'⟩ := faultDevice_facts x 0x1401 h.val [.hart k]
  generalize x.faultDevice 0x1401 h.val [] [.hart k] = y at *
  have hrec' : Records s.dev y 0x1401 h.val := by
    unfold Records at hrec ⊢
    rw [hrec, hraised, htempo]
    rfl
  refine completes_as hacts (exec_hubCoreFail h s) heq (hdue'.trans hdue) ⟨hpins'.1.trans hpins.1, hpins'.2.trans hpins.2⟩
    ⟨?_, fun j hj => ?_, hrec', calm_trans hcalm hcalm'⟩
  · exact (hart_congr hharts k).trans ((hget k).trans (if_pos rfl))
  · exact (hart_congr hharts j).trans ((hget j).trans (if_neg (Ne.symm hj)))

theorem completes_retired (hacts : Acts s) (hk : s.dev.hartOf h.val = some k) (hspare : ¬ s.dev.hartSpare) :
    Completes (.hubCoreFail h) s (fun d =>
      (d.hart k).st = .retired ∧ (∀ j, j ≠ k → d.hart j = s.dev.hart j) ∧ Raises d 0x1401 ∧ Raises d 0x1403 ∧ Calm s.dev d) := by
  have heq := hartFail_retired (d := s.dev.silent) hk hspare
  have hget := fun j => Dev.onHart_get s.dev.silent k j (fun x => { x with st := .retired, logical := 0xF, watched := false })
  obtain ⟨hcalm, -, -, -, hdue, hpins⟩ := onHart_calm s.dev.silent k (fun x => { x with st := .retired, logical := 0xF, watched := false })
  generalize s.dev.silent.onHart k (fun x => { x with st := .retired, logical := 0xF, watched := false }) = x at *
  obtain ⟨hcalm', hrec, hharts, hdue', hpins'⟩ := faultDevice_facts x 0x1401 h.val []
  generalize x.faultDevice 0x1401 h.val [] [] = y at *
  have hraise : Raises (y.raise 0x1403 none h.val) 0x1401 := by
    unfold Records at hrec
    refine ⟨⟨0x1401, evClass 0x1401, none, h.val, 0, x.tempo⟩, List.mem_append_left _ ?_, rfl⟩
    rw [hrec]
    exact List.mem_append_right _ (List.mem_singleton_self _)
  refine completes_as hacts (exec_hubCoreFail h s) heq (hdue'.trans hdue) ⟨hpins'.1.trans hpins.1, hpins'.2.trans hpins.2⟩
    ⟨?_, fun j hj => ?_, hraise, raises_raise _ _ _ _, calm_trans (calm_trans hcalm hcalm') (calm_raise y _ _ _)⟩
  · have hy : (y.raise 0x1403 none h.val).hart k = y.hart k := rfl
    rw [hy, hart_congr hharts k, hget, if_pos rfl]
  · exact (hart_congr hharts j).trans ((hget j).trans (if_neg (Ne.symm hj)))

/-- Accesses of a control core to the Hub memory. -/
theorem completes_hubAccess (hacts : Acts s) (hclock : s.dev.lost 33 = false) (hk : s.dev.hartOf h.val = some k) {a n : Nat}
    (hn : n = 1 ∨ n = 2 ∨ n = 4 ∨ n = 8) (ha : a % n = 0) (hub : inHub a = true) (v : Word) :
    Completes (.controlCoreAccess h a n true v) s (fun d =>
      d.mem.getAll a n = bytesOf n v.toNat ∧ KeptOutside s d a n ∧ d.cores = s.dev.cores ∧ d.regs = s.dev.regs) ∧
    Completes (.controlCoreAccess h a n false v) s (fun d =>
      d = { s.dev with outs := [.value (natOfBytes (s.dev.mem.getAll a n) % 2 ^ 64)] }) := by
  have hserved : ¬ ((s.dev.silent.hartOf h.val).isNone = true ∨ s.dev.silent.lost 33 = true) := by
    have h1 : s.dev.silent.hartOf h.val = some k := hk
    have h2 : s.dev.silent.lost 33 = false := hclock
    rw [h1, h2]
    exact not_or.2 ⟨Bool.false_ne_true, Bool.false_ne_true⟩
  have haligned : ¬ (¬ (n = 1 ∨ n = 2 ∨ n = 4 ∨ n = 8) ∨ a % n ≠ 0) := not_or.2 ⟨not_not.2 hn, not_not.2 ha⟩
  refine ⟨?_, ?_⟩
  · have heq : s.dev.silent.controlAccess h a n true v = { s.dev.silent with mem := s.dev.mem.putAll a (bytesOf n v.toNat) } := by
      unfold Dev.controlAccess
      rw [if_neg hserved, if_pos rfl]
      dsimp only
      unfold Dev.hostWrite
      rw [if_neg haligned, if_pos hub, plain_clean]
      rfl
    refine completes_as hacts (exec_controlCoreAccess h a n true v s) heq rfl ⟨rfl, rfl⟩ ⟨?_, fun b hb => ?_, rfl, rfl⟩
    · have hlen := getAll_putAll s.dev.mem a (bytesOf n v.toNat)
      rw [length_bytesOf] at hlen
      exact hlen
    · exact Mem.get_putAll_out s.dev.mem a b (bytesOf n v.toNat) (by rw [length_bytesOf]; exact hb)
  · have heq : s.dev.silent.controlAccess h a n false v =
        s.dev.silent.out (.value (BitVec.ofNat 64 (natOfBytes (s.dev.mem.getAll a n))).toNat) := by
      unfold Dev.controlAccess
      rw [if_neg hserved, if_neg Bool.false_ne_true, hub]
      dsimp only
      unfold Dev.hostRead
      rw [if_neg haligned, if_pos hub]
      rfl
    rw [BitVec.toNat_ofNat] at heq
    exact completes_as hacts (exec_controlCoreAccess h a n false v s) heq rfl ⟨rfl, rfl⟩ rfl

end

/-! ## The graft of a control core (R545) -/

theorem find?_first {p : Nat → Bool} {k : Nat} (hk : k < 16) (hp : p k = true) (hfirst : ∀ i, i < k → p i = false) :
    (upTo 16).find? p = some k := by
  rw [List.find?_eq_some_iff_getElem]
  refine ⟨hp, k, by simpa [upTo] using hk, by simp [upTo], fun j hj => ?_⟩
  simp [upTo, hfirst j hj]

/-- Hart j takes over logical hart h from hart k. -/
def Dev.hartMoved (d : Dev) (h k j : Nat) : Dev :=
  (d.onHart j (fun x => { x with
      st := .inService, logical := h, kick := 0, watched := false
      arch := { x.arch with mode := .m, pc := BitVec.ofNat 64 (hubBase + d.regFld ⟨.hubWdog, []⟩ 63 32) } })).onHart k
    (fun x => { x with logical := 0xF })

theorem hartGraft_moves {d : Dev} {h k j : Nat} (hk : k < 16) (hj : j < 16) (hst : (d.hart k).st = .fenced) (hlog : (d.hart k).logical = h)
    (hspare : (d.hart j).st = .spare) (hfirst : ∀ i, i < k → (d.hart i).st ≠ .fenced ∨ (d.hart i).logical ≠ h)
    (hfirst' : ∀ i, i < j → (d.hart i).st ≠ .spare) : d.hartGraft h = ((d.hartMoved h k j).raise 0x1402 none h).remedyDone (.hart k) := by
  have hfind : (upTo 16).find? (fun k => decide ((d.hart k).st = .fenced) && decide ((d.hart k).logical = h)) = some k := by
    refine find?_first hk (by simp [hst, hlog]) fun i hi => ?_
    rcases hfirst i hi with h | h <;> simp [h]
  have hfind' : (upTo 16).find? (fun k => decide ((d.hart k).st = .spare)) = some j :=
    find?_first hj (by simp [hspare]) fun i hi => by simp [hfirst' i hi]
  unfold Dev.hartGraft
  rw [hfind, hfind']
  rfl

theorem hartMoved_hart (d : Dev) (h : Nat) {k j : Nat} (hne : j ≠ k) (i : Nat) : (d.hartMoved h k j).hart i =
    if k = i then { d.hart k with logical := 0xF } else if j = i then { d.hart j with
      st := .inService, logical := h, kick := 0, watched := false
      arch := { (d.hart j).arch with mode := .m, pc := BitVec.ofNat 64 (hubBase + d.regFld ⟨.hubWdog, []⟩ 63 32) } } else d.hart i := by
  unfold Dev.hartMoved
  rw [Dev.onHart_get, Dev.onHart_get, Dev.onHart_get, if_neg hne]

theorem graft_facts (d : Dev) (h k : Nat) : Calm d ((d.raise 0x1402 none h).remedyDone (.hart k)) ∧
    Records d ((d.raise 0x1402 none h).remedyDone (.hart k)) 0x1402 h ∧
    (∀ i, ((d.raise 0x1402 none h).remedyDone (.hart k)).hart i = d.hart i) ∧
    ((d.raise 0x1402 none h).remedyDone (.hart k)).pruneDue = d.pruneDue ∧
    (((d.raise 0x1402 none h).remedyDone (.hart k)).resetN = d.resetN ∧ ((d.raise 0x1402 none h).remedyDone (.hart k)).vin = d.vin) :=
  ⟨⟨rfl, rfl, rfl, rfl, rfl, rfl, rfl, rfl, rfl⟩, rfl, fun _ => rfl, rfl, rfl, rfl⟩

theorem hartMoved_facts (d : Dev) (h k j : Nat) : Calm d (d.hartMoved h k j) ∧ (d.hartMoved h k j).raised = d.raised ∧
    (d.hartMoved h k j).tempo = d.tempo ∧ (d.hartMoved h k j).pruneDue = d.pruneDue ∧
    ((d.hartMoved h k j).resetN = d.resetN ∧ (d.hartMoved h k j).vin = d.vin) := by
  unfold Dev.hartMoved
  exact ⟨⟨rfl, rfl, rfl, rfl, rfl, rfl, rfl, rfl, rfl⟩, rfl, rfl, rfl, rfl, rfl⟩

theorem completes_graft {s : State} {h : Fin 14} {k j : Nat} (hacts : Acts s) (hk : k < 16) (hj : j < 16)
    (hst : (s.dev.hart k).st = .fenced) (hlog : (s.dev.hart k).logical = h.val) (hspare : (s.dev.hart j).st = .spare)
    (hfirst : ∀ i, i < k → (s.dev.hart i).st ≠ .fenced ∨ (s.dev.hart i).logical ≠ h.val)
    (hfirst' : ∀ i, i < j → (s.dev.hart i).st ≠ .spare) : Completes (.hubCoreGraft h) s (fun d =>
      (d.hart j).st = .inService ∧ (d.hart j).logical = h.val ∧
      (d.hart j).arch.mode = .m ∧ (d.hart j).arch.pc = BitVec.ofNat 64 (hubBase + s.dev.regFld ⟨.hubWdog, []⟩ 63 32) ∧
      (d.hart k).st = .fenced ∧ (d.hart k).logical = 0xF ∧
      (∀ i, i ≠ j → i ≠ k → d.hart i = s.dev.hart i) ∧ Records s.dev d 0x1402 h.val ∧ Calm s.dev d) := by
  have hne : j ≠ k := by
    rintro rfl
    rw [hst] at hspare
    cases hspare
  have heq := hartGraft_moves (d := s.dev.silent) hk hj hst hlog hspare hfirst hfirst'
  have hhart := hartMoved_hart s.dev.silent h.val hne
  obtain ⟨hcalm, hraised, htempo, hdue, hpins⟩ := hartMoved_facts s.dev.silent h.val k j
  generalize s.dev.silent.hartMoved h.val k j = x at *
  obtain ⟨hcalm', hrec, hharts, hdue', hpins'⟩ := graft_facts x h.val k
  generalize (x.raise 0x1402 none h.val).remedyDone (.hart k) = y at *
  have hrec' : Records s.dev y 0x1402 h.val := by
    unfold Records at hrec ⊢
    rw [hrec, hraised, htempo]
    rfl
  have hatj := (hharts j).trans ((hhart j).trans ((if_neg (Ne.symm hne)).trans (if_pos rfl)))
  have hatk := (hharts k).trans ((hhart k).trans (if_pos rfl))
  refine completes_as hacts (exec_hubCoreGraft h s) heq (hdue'.trans hdue) ⟨hpins'.1.trans hpins.1, hpins'.2.trans hpins.2⟩ ?_
  rw [hatj, hatk]
  exact ⟨rfl, rfl, rfl, rfl, hst, rfl, fun i hij hik => (hharts i).trans ((hhart i).trans ((if_neg (Ne.symm hik)).trans (if_neg (Ne.symm hij)))),
    hrec', calm_trans hcalm hcalm'⟩

/-- Settles O46: each unit of the Hub by its own command's lemma. -/
theorem hubUnits : Obligations.HubUnits := by
  unfold Obligations.HubUnits
  intro s hacts hclock
  refine ⟨fun r rest hraised => ⟨completes_record hacts hclock hraised, completes_recordLost hacts hclock hraised⟩, ?_,
    fun h k hk => ⟨completes_kick hacts hclock hk, completes_fenced hacts hk, completes_retired hacts hk,
      fun a n v hn ha hub => completes_hubAccess hacts hclock hk hn ha hub v⟩,
    fun h k j hk hj hst hlog hspare hfirst hfirst' => completes_graft hacts hk hj hst hlog hspare hfirst hfirst'⟩
  refine List.forall_mem_cons.2 ⟨?_, List.forall_mem_cons.2 ⟨?_, fun e he => absurd he List.not_mem_nil⟩⟩
  · intro ag p v
    have hrwt : accMask [.rwt] RK.hubMboxUpPush = 0 := by decide
    have hpush := fun hreach => completes_push (k := 2 * p.val) (v := v) (r := ⟨.hubMboxUpPush, [p.val]⟩) (ag := ag) hreach hrwt
      (exec_mboxUpPush ag p v s) (fun _ _ => rfl)
    refine ⟨fun hreach => (hpush hreach).1, fun hreach => (hpush hreach).2, fun hreach => ?_⟩
    exact completes_pop (k := 2 * p.val) hreach (exec_mboxUpPop ag p s) (fun d habsent => if_neg (by rw [habsent]; exact Bool.false_ne_true))
  · intro ag p v
    have hrwt : accMask [.rwt] RK.hubMboxDownPush = 0 := by decide
    have hpush := fun hreach => completes_push (k := 2 * p.val + 1) (v := v) (r := ⟨.hubMboxDownPush, [p.val]⟩) (ag := ag) hreach hrwt
      (exec_mboxDownPush ag p v s) (fun _ _ => rfl)
    refine ⟨fun hreach => (hpush hreach).1, fun hreach => (hpush hreach).2, fun hreach => ?_⟩
    exact completes_pop (k := 2 * p.val + 1) hreach (exec_mboxDownPop ag p s) (fun d habsent => if_neg (by rw [habsent]; exact Bool.false_ne_true))

end Sys2Proof.Machine
end

section
/-! SUPPORT. Proof of the statement about the management port (R620 to R622). -/
namespace Sys2Proof.Machine

open Safety

/-! ## Bytes written to the Hub memory -/

/-- The bytes that are put at offsets from o of the Hub memory. -/
def hubPuts (o : Nat) (bs : List Byte) (m : Mem) : Mem :=
  ((upTo bs.length).zip bs).foldl (fun (m : Mem) x => m.put (hubAt (o + x.1)) x.2) m

theorem foldl_puts_other (g : Nat → Nat) {b : Nat} (l : List (Nat × Byte)) (h : ∀ x ∈ l, g x.1 ≠ b) (m : Mem) :
    (l.foldl (fun (m : Mem) x => m.put (g x.1) x.2) m).get b = m.get b := by
  induction l generalizing m with
  | nil => rfl
  | cons x l ih =>
    obtain ⟨hx, hl⟩ := List.forall_mem_cons.1 h
    rw [List.foldl_cons, ih hl, Mem.get_put, if_neg hx]

theorem get_hubPuts_out (o : Nat) (bs : List Byte) (m : Mem) {b : Nat} (h : ∀ x, x < bs.length → b ≠ hubAt (o + x)) :
    (hubPuts o bs m).get b = m.get b := by
  refine foldl_puts_other (fun x => hubAt (o + x)) _ (fun x hx => Ne.symm (h x.1 ?_)) m
  have hmem := (List.of_mem_zip hx).1
  simpa [upTo] using hmem

theorem hubAt_inj {o x y : Nat} (h : hubAt (o + x) = hubAt (o + y)) (hx : x < 2 ^ 28) (hy : y < 2 ^ 28) : x = y := by
  unfold hubAt at h
  omega

theorem hubPuts_append (o : Nat) (bs : List Byte) (b : Byte) (m : Mem) :
    hubPuts o (bs ++ [b]) m = (hubPuts o bs m).put (hubAt (o + bs.length)) b := by
  unfold hubPuts
  have hlen : (bs ++ [b]).length = bs.length + 1 := List.length_append
  have hup : upTo (bs.length + 1) = upTo bs.length ++ [bs.length] := List.range_succ
  rw [hlen, hup, List.zip_append (by simp [upTo]), List.foldl_append]
  rfl

theorem get_hubPuts_in (o : Nat) (bs : List Byte) (m : Mem) (hlen : bs.length ≤ 2 ^ 28) {x : Nat} (hx : x < bs.length) :
    (hubPuts o bs m).get (hubAt (o + x)) = bs.getD x 0 := by
  induction bs using List.reverseRecOn with
  | nil => exact absurd hx (Nat.not_lt_zero x)
  | append_singleton bs b ih =>
    rw [List.length_append, List.length_singleton] at hlen hx
    rw [hubPuts_append, Mem.get_put]
    by_cases h : x = bs.length
    · subst h
      rw [if_pos rfl, List.getD_append_right _ _ _ _ (Nat.le_refl _), Nat.sub_self]
      rfl
    · rw [if_neg (fun heq => h (hubAt_inj heq (by omega) (by omega)).symm), ih (by omega) (by omega), List.getD_append _ _ _ _ (by omega)]

theorem getD_bytesOf (n v k : Nat) (hk : k < n) : (bytesOf n v).getD k 0 = BitVec.ofNat 8 (v / 2 ^ (8 * k)) := by
  induction n generalizing v k with
  | zero => exact absurd hk (Nat.not_lt_zero k)
  | succ n ih =>
    cases k with
    | zero => rw [bytesOf, List.getD_cons_zero, Nat.mul_zero, Nat.pow_zero, Nat.div_one]
    | succ k =>
      rw [bytesOf, List.getD_cons_succ, ih _ _ (by omega), Nat.shiftRight_eq_div_pow, Nat.div_div_eq_div_mul, ← Nat.pow_add]
      congr 3
      ring

/-! ## Frames and descriptors (R620, R621) -/

section
variable {d : Dev}

theorem mgtReturn_facts (d : Dev) (k : RK) (a w : Nat) : (d.mgtReturn k a w).mem = d.mem.putAll a (bytesOf 8 w) ∧
    (d.mgtReturn k a w).cores = d.cores ∧ (d.mgtReturn k a w).raised = d.raised ∧ (d.mgtReturn k a w).outs = d.outs ∧
    (d.mgtReturn k a w).pruneDue = d.pruneDue ∧ ((d.mgtReturn k a w).resetN = d.resetN ∧ (d.mgtReturn k a w).vin = d.vin) :=
  ⟨rfl, rfl, rfl, rfl, rfl, rfl, rfl⟩

/-- A whole frame goes to the buffer of the descriptor at HEAD. -/
theorem frameReceive_whole {bs : List Byte} {a w : Nat} (hruns : d.mgtRuns = true) (hdesc : d.mgtDesc .mgtRxq = some (a, w))
    (hlen : bs.length ≤ bits 61 48 w) (hservice : serviceFrame bs = false) (hsize : frameSize bs.length = true)
    (hmine : d.frameMine bs = true) : d.frameReceive bs false =
      Dev.mgtReturn { d with mem := hubPuts (bits 47 0 w - hubBase) bs d.mem } .mgtRxq a (bits 47 0 w + bs.length * 2 ^ 48) := by
  unfold Dev.frameReceive
  rw [hruns, hservice, hsize, hmine, hdesc]
  have herr : (false || decide (bits 61 48 w < bs.length)) = false := by
    rw [Bool.false_or]
    exact decide_eq_false (Nat.not_lt.2 hlen)
  simp only [Bool.not_true, Bool.or_false, Bool.false_eq_true, if_false]
  simp only [Bool.false_or] at herr
  rw [herr, List.take_of_length_le hlen]
  unfold hubPuts
  rw [Bool.or_false, if_neg Bool.false_ne_true, if_neg Bool.false_ne_true, Nat.add_zero]

theorem frameReceive_nowhere {bs : List Byte} {bad : Bool} (hruns : d.mgtRuns = true) (hdesc : d.mgtDesc .mgtRxq = none)
    (hservice : serviceFrame bs = false) (hsize : frameSize bs.length = true) (hmine : d.frameMine bs = true) :
    d.frameReceive bs bad = d.count ⟨.mgtStats, []⟩ 31 0 1 := by
  unfold Dev.frameReceive
  rw [hruns, hservice, hsize, hmine, hdesc]
  rfl

theorem frameReceive_ignored {bs : List Byte} {bad : Bool}
    (h : serviceFrame bs = true ∨ frameSize bs.length = false ∨ d.frameMine bs = false) : d.frameReceive bs bad = d := by
  refine if_pos ?_
  rcases h with h | h | h <;> simp [h]

theorem frameTransmit_eq {a w : Nat} (hruns : d.mgtRuns = true) (hdesc : d.mgtDesc .mgtTxq = some (a, w)) : d.frameTransmit =
    if frameSize (bits 61 48 w) then
      (d.mgtReturn .mgtTxq a (w % 2 ^ 62)).out (.bytes (d.mem.getAll (hubAt (bits 47 0 w - hubBase)) (bits 61 48 w)))
    else d.mgtReturn .mgtTxq a (w % 2 ^ 62) := by
  unfold Dev.frameTransmit
  rw [hruns, hdesc]
  rfl

end

section
variable {s : State}

theorem completes_received {bs : List Byte} {a w : Nat} (hacts : Acts s) (hruns : s.dev.mgtRuns = true)
    (hdesc : s.dev.mgtDesc .mgtRxq = some (a, w)) (hlen : bs.length ≤ bits 61 48 w) (hservice : serviceFrame bs = false)
    (hsize : frameSize bs.length = true) (hmine : s.dev.frameMine bs = true) : Completes (.mgtFrameReceive bs false) s (fun d =>
      d.mem.getAll a 8 = bytesOf 8 (bits 47 0 w + bs.length * 2 ^ 48) ∧
      (∀ x, x < bs.length → let y := hubAt (bits 47 0 w - hubBase + x); (y < a ∨ a + 8 ≤ y) → d.mem.get y = bs.getD x 0) ∧
      (∀ y, (y < a ∨ a + 8 ≤ y) → (∀ x, x < bs.length → y ≠ hubAt (bits 47 0 w - hubBase + x)) → d.mem.get y = s.dev.mem.get y) ∧
      d.cores = s.dev.cores ∧ d.raised = s.dev.raised) := by
  have hfit : bs.length ≤ 2 ^ 28 := by
    unfold frameSize at hsize
    simp only [Bool.and_eq_true, decide_eq_true_eq] at hsize
    omega
  have heq := frameReceive_whole (d := s.dev.silent) hruns hdesc hlen hservice hsize hmine
  obtain ⟨hmem, hcores, hraised, -, hdue, hpins⟩ := mgtReturn_facts
    { s.dev.silent with mem := hubPuts (bits 47 0 w - hubBase) bs s.dev.silent.mem } .mgtRxq a (bits 47 0 w + bs.length * 2 ^ 48)
  generalize Dev.mgtReturn { s.dev.silent with mem := hubPuts (bits 47 0 w - hubBase) bs s.dev.silent.mem } .mgtRxq a
    (bits 47 0 w + bs.length * 2 ^ 48) = x at *
  have hout : ∀ y, (y < a ∨ a + 8 ≤ y) → x.mem.get y = (hubPuts (bits 47 0 w - hubBase) bs s.dev.silent.mem).get y := fun y hy => by
    rw [hmem]
    exact Mem.get_putAll_out _ _ _ _ (by rw [length_bytesOf]; exact hy)
  refine completes_as hacts (exec_mgtFrameReceive bs false s) heq hdue hpins
    ⟨?_, fun k hk hy => (hout _ hy).trans (get_hubPuts_in _ bs _ hfit hk), fun y hy hne => (hout y hy).trans (get_hubPuts_out _ bs _ hne),
      hcores, hraised⟩
  rw [hmem]
  exact getAll_putAll _ a (bytesOf 8 _)

theorem completes_transmitted {a w : Nat} (hacts : Acts s) (hruns : s.dev.mgtRuns = true) (hdesc : s.dev.mgtDesc .mgtTxq = some (a, w)) :
    Completes .mgtFrameTransmit s (fun d =>
      d.outs = (if frameSize (bits 61 48 w) = true then
        [.bytes (s.dev.mem.getAll (hubAt (bits 47 0 w - hubBase)) (bits 61 48 w))] else []) ∧
      d.mem.getAll a 8 = bytesOf 8 (w % 2 ^ 62) ∧ KeptOutside s d a 8 ∧ d.cores = s.dev.cores) := by
  have heq := frameTransmit_eq (d := s.dev.silent) hruns hdesc
  obtain ⟨hmem, hcores, -, houts, hdue, hpins⟩ := mgtReturn_facts s.dev.silent .mgtTxq a (w % 2 ^ 62)
  generalize s.dev.silent.mgtReturn .mgtTxq a (w % 2 ^ 62) = x at *
  have hmem' : x.mem = s.dev.mem.putAll a (bytesOf 8 (w % 2 ^ 62)) := hmem
  have hbytes : x.mem.getAll a 8 = bytesOf 8 (w % 2 ^ 62) := by
    rw [hmem']
    exact getAll_putAll _ a (bytesOf 8 _)
  have hkept : ∀ b, b < a ∨ a + 8 ≤ b → x.mem.get b = s.dev.mem.get b := fun b hb => by
    rw [hmem']
    exact Mem.get_putAll_out _ _ _ _ (by rw [length_bytesOf]; exact hb)
  by_cases hsize : frameSize (bits 61 48 w) = true
  · rw [if_pos hsize] at heq
    rw [if_pos hsize]
    exact completes_as hacts (exec_mgtFrameTransmit s) heq hdue hpins ⟨by change x.outs ++ _ = _; rw [houts]; rfl, hbytes, hkept, hcores⟩
  · rw [if_neg hsize] at heq
    rw [if_neg hsize]
    exact completes_as hacts (exec_mgtFrameTransmit s) heq hdue hpins ⟨houts, hbytes, hkept, hcores⟩

end

/-! ## The service session (R622) -/

section
variable {d : Dev} {f : SvcFrame} {x : Session} {op : Nat}

/-- A frame of the session's sender that is not a repetition acts. -/
theorem svcFrame_acts (hruns : d.mgtRuns = true) (hsession : d.session = some x) (hmac : x.mac = f.mac) (hseq : x.seq ≠ some f.seq)
    (act : Dev → Dev) : d.svcFrame op f act = act d := by
  unfold Dev.svcFrame
  rw [hruns, hsession]
  dsimp only
  rw [if_neg (by decide), if_neg (not_not.2 hmac), if_neg hseq]

theorem svcFrame_refused (hruns : d.mgtRuns = true) (hsession : d.session = none) (act : Dev → Dev) :
    d.svcFrame op f act = d.svcRefuse op f.seq := by
  unfold Dev.svcFrame
  rw [hruns, hsession]
  rfl

theorem svcReply_facts (d : Dev) (op status seq : Nat) (data : List Nat) :
    (d.svcReply op status seq data).outs = d.outs ++ [.sent 0x88B5 ((128 + op) :: status :: seq :: data)] ∧
    (∀ x, d.session = some x → (d.svcReply op status seq data).session =
      some { x with seq := some seq, reply := (128 + op) :: status :: seq :: data }) ∧
    (d.svcReply op status seq data).cores = d.cores ∧ (d.svcReply op status seq data).raised = d.raised ∧
    (d.svcReply op status seq data).mem = d.mem ∧ (d.svcReply op status seq data).regs = d.regs ∧
    (d.svcReply op status seq data).pruneDue = d.pruneDue ∧
    ((d.svcReply op status seq data).resetN = d.resetN ∧ (d.svcReply op status seq data).vin = d.vin) := by
  refine ⟨rfl, fun x hx => ?_, rfl, rfl, rfl, rfl, rfl, rfl, rfl⟩
  have hsession : (d.svcReply op status seq data).session =
      d.session.map (fun s => { s with seq := some seq, reply := (128 + op) :: status :: seq :: data }) := rfl
  rw [hsession, hx]
  rfl

theorem not_held_hub {a : Nat} (hub : inHub a = true) (write : Bool) : d.svcHeld a 1 write = false := by
  have hlow : 0x0F0040000000 ≤ a := by
    unfold inHub hubBase at hub
    simp only [Bool.and_eq_true, decide_eq_true_eq] at hub
    exact hub.1
  have hslow : isSlow a = false := by
    unfold isSlow ctxWindow
    simp only [Bool.and_eq_false_iff, decide_eq_false_iff_not]
    omega
  have hmapped : d.hbmMapped a = false := by
    unfold Dev.hbmMapped
    refine if_neg ?_
    unfold hbmTileBytes
    omega
  have hopen : d.hbmOpen a = false := by
    unfold Dev.hbmOpen
    rw [hmapped, Bool.false_and]
  unfold Dev.svcHeld
  have hone : upTo 1 = [0] := rfl
  rw [hone, List.any_cons, List.any_nil, Bool.or_false, Nat.mul_zero, Nat.add_zero, hslow, hopen, if_neg Bool.false_ne_true, Bool.and_false]

theorem svcReads_hub {a : Nat} (hall : d.secState = 0 ∨ d.secState = 3 ∨ d.secState = 4) (hub : inHub a = true) (ha : a % 8 = 0) :
    d.svcReads a 1 = (0, [(BitVec.ofNat 64 (natOfBytes (d.mem.getAll a 8))).toNat], d) := by
  unfold Dev.svcReads
  rw [dbgAccess_hubRead (reach_all hall .mgt false 0) hub ha]
  rfl

theorem svcWrites_hub {a : Nat} (hall : d.secState = 0 ∨ d.secState = 3 ∨ d.secState = 4) (hub : inHub a = true) (ha : a % 8 = 0) (v : Word) :
    d.svcWrites a [v] = (0, { d with mem := d.mem.putAll a (bytesOf 8 v.toNat) }) := by
  unfold Dev.svcWrites
  rw [dbgAccess_hubWrite (reach_all hall .mgt true v) hub ha, plain_clean]
  rfl

theorem svcOk_one {v : Word} (hlen : f.len = 1) (hdata : f.data = [v]) : svcOk f = true := by
  unfold svcOk
  rw [hlen, hdata]
  rfl

end

end Sys2Proof.Machine
end

section
/-! SUPPORT. Proof of the statement about the management port's session (R622). -/
namespace Sys2Proof.Machine

open Safety

section
variable {s : State} {f : SvcFrame} {x : Session}

/-- A frame without a session is answered with refusal 1. -/
theorem completes_svcRefused {c : Instr} {op : Nat} {g : Dev → Dev} {act : Dev → Dev} (hacts : Acts s) (hruns : s.dev.mgtRuns = true)
    (hnone : s.dev.session = none) (hexec : exec c s = run s (fun d => (g d).settle)) (hframe : g s.dev.silent = s.dev.silent.svcFrame op f act) :
    Completes c s (fun d => d = { s.dev with outs := [.sent 0x88B5 [128 + op, 1, f.seq]] }) :=
  completes_as hacts hexec (hframe.trans (svcFrame_refused (d := s.dev.silent) hruns hnone act)) rfl ⟨rfl, rfl⟩ rfl

theorem completes_svcOpen (hacts : Acts s) (hruns : s.dev.mgtRuns = true) (hnone : s.dev.session = none) :
    Completes (.serviceOpen f) s (fun d => d = { s.dev with
      session := some { mac := f.mac, seq := some f.seq, reply := [132, 0, f.seq] }, outs := [.sent 0x88B5 [132, 0, f.seq]] }) := by
  have heq : s.dev.silent.svcOpen f = ({ s.dev.silent with session := some { mac := f.mac } } : Dev).svcReply 4 0 f.seq [] := by
    have hruns' : s.dev.silent.mgtRuns = true := hruns
    have hnone' : s.dev.silent.session = none := hnone
    unfold Dev.svcOpen
    rw [hruns', hnone']
    rfl
  exact completes_as hacts (exec_serviceOpen f s) heq rfl ⟨rfl, rfl⟩ rfl

/-- The session that has answered with r. -/
def Session.answered (x : Session) (f : SvcFrame) (r : List Nat) : Session := { x with seq := some f.seq, reply := r }

/-- A reply to the session's sender, from a device y that keeps the session, the cores and the events. -/
theorem completes_replied {c : Instr} {g : Dev → Dev} {y : Dev} {op : Nat} {data : List Nat} {P : Dev → Prop} (hacts : Acts s)
    (hexec : exec c s = run s (fun d => (g d).settle)) (heq : g s.dev.silent = y.svcReply op 0 f.seq data) (houts : y.outs = [])
    (hsession : y.session = some x) (hdue : y.pruneDue = s.dev.pruneDue) (hpins : y.resetN = s.dev.resetN ∧ y.vin = s.dev.vin)
    (hP : ∀ d : Dev, d.outs = [.sent 0x88B5 ((128 + op) :: 0 :: f.seq :: data)] →
      d.session = some (x.answered f ((128 + op) :: 0 :: f.seq :: data)) → d.cores = y.cores → d.raised = y.raised → d.mem = y.mem →
      d.regs = y.regs → P d) : Completes c s P := by
  obtain ⟨houts', hsession', hcores, hraised, hmem, hregs, hdue', hpins'⟩ := svcReply_facts y op 0 f.seq data
  exact completes_as hacts hexec heq (hdue'.trans hdue) ⟨hpins'.1.trans hpins.1, hpins'.2.trans hpins.2⟩
    (hP _ (by rw [houts', houts]; rfl) (hsession' x hsession) hcores hraised hmem hregs)

section
variable (hacts : Acts s) (hruns : s.dev.mgtRuns = true) (hsession : s.dev.session = some x) (hmac : x.mac = f.mac)
  (hseq : x.seq ≠ some f.seq)
include hacts hruns hsession hmac hseq

theorem completes_svcClose : Completes (.serviceClose f) s (fun d => d.session = none ∧ d.outs = [.sent 0x88B5 [133, 0, f.seq]] ∧
    d.regs = s.dev.regs ∧ Calm s.dev d) := by
  have heq := svcFrame_acts (d := s.dev.silent) (op := 5) hruns hsession hmac hseq
    (fun d => ({ d.svcReply 5 0 f.seq [] with session := none } : Dev))
  exact completes_as hacts (exec_serviceClose f s) heq rfl ⟨rfl, rfl⟩ ⟨rfl, rfl, rfl, rfl, rfl, rfl, rfl, rfl, rfl, rfl, rfl, rfl⟩

theorem completes_svcRead (hall : s.dev.secState = 0 ∨ s.dev.secState = 3 ∨ s.dev.secState = 4) (hlen : f.len = 1) (ha : f.addr % 8 = 0)
    (hub : inHub f.addr = true) : Completes (.serviceRead f) s (fun d =>
      (d.outs = [.sent 0x88B5 [129, 0, f.seq, natOfBytes (s.dev.mem.getAll f.addr 8) % 2 ^ 64]] ∧
        d.session = some (x.answered f [129, 0, f.seq, natOfBytes (s.dev.mem.getAll f.addr 8) % 2 ^ 64]) ∧ d.cores = s.dev.cores ∧
        d.raised = s.dev.raised) ∧ d.mem = s.dev.mem) := by
  have hread := svcReads_hub (d := s.dev.silent) hall hub ha
  rw [BitVec.toNat_ofNat] at hread
  have hok : ¬ (f.len = 0 ∨ 1024 < f.len ∨ f.addr % 8 ≠ 0) := by omega
  have heq : s.dev.silent.svcRead f = s.dev.silent.svcReply 1 0 f.seq [natOfBytes (s.dev.mem.getAll f.addr 8) % 2 ^ 64] := by
    unfold Dev.svcRead
    rw [svcFrame_acts (d := s.dev.silent) hruns hsession hmac hseq]
    dsimp only
    rw [if_neg hok, hlen, not_held_hub hub, if_neg Bool.false_ne_true, hread]
    rfl
  exact completes_replied hacts (exec_serviceRead f s) heq rfl hsession rfl ⟨rfl, rfl⟩
    fun d houts hses hcores hraised hmem _ => ⟨⟨houts, hses, hcores, hraised⟩, hmem⟩

theorem completes_svcWrite {v : Word} (hall : s.dev.secState = 0 ∨ s.dev.secState = 3 ∨ s.dev.secState = 4) (hlen : f.len = 1)
    (hdata : f.data = [v]) (ha : f.addr % 8 = 0) (hub : inHub f.addr = true) : Completes (.serviceWrite f) s (fun d =>
      (d.outs = [.sent 0x88B5 [130, 0, f.seq]] ∧ d.session = some (x.answered f [130, 0, f.seq]) ∧ d.cores = s.dev.cores ∧
        d.raised = s.dev.raised) ∧ d.mem.getAll f.addr 8 = bytesOf 8 v.toNat ∧ KeptOutside s d f.addr 8) := by
  have hok : ¬ ((!svcOk f) = true ∨ f.addr % 8 ≠ 0) := by
    rw [svcOk_one hlen hdata]
    exact not_or.2 ⟨Bool.false_ne_true, not_not.2 ha⟩
  have heq : s.dev.silent.svcWrite f = Dev.svcReply { s.dev.silent with mem := s.dev.mem.putAll f.addr (bytesOf 8 v.toNat) } 2 0 f.seq [] := by
    unfold Dev.svcWrite
    rw [svcFrame_acts (d := s.dev.silent) hruns hsession hmac hseq]
    dsimp only
    rw [if_neg hok, hlen, not_held_hub hub, if_neg Bool.false_ne_true, hdata, svcWrites_hub (d := s.dev.silent) hall hub ha]
    rfl
  refine completes_replied hacts (exec_serviceWrite f s) heq rfl hsession rfl ⟨rfl, rfl⟩
    fun d houts hses hcores hraised hmem _ => ⟨⟨houts, hses, hcores, hraised⟩, ?_, fun b hb => ?_⟩
  · rw [hmem]
    exact getAll_putAll s.dev.mem f.addr (bytesOf 8 v.toNat)
  · rw [hmem]
    exact Mem.get_putAll_out s.dev.mem f.addr b (bytesOf 8 v.toNat) (by rw [length_bytesOf]; exact hb)

theorem completes_svcToken {v : Word} (hlen : f.len = 1) (hdata : f.data = [v]) (ha : f.addr % 8 = 0) (hfit : f.addr + 8 ≤ 8192) :
    Completes (.serviceToken f) s (fun d =>
      (d.outs = [.sent 0x88B5 [131, 0, f.seq]] ∧ d.session = some (x.answered f [131, 0, f.seq]) ∧ d.cores = s.dev.cores ∧
        d.raised = s.dev.raised) ∧ d.mem = s.dev.mem ∧ d.reg ⟨.secTokenBuf, [f.addr / 8]⟩ = v) := by
  have hok : ¬ ((!svcOk f) = true ∨ f.addr % 8 ≠ 0 ∨ 8192 < f.addr + 8 * f.len) := by
    rw [svcOk_one hlen hdata, hlen]
    exact not_or.2 ⟨Bool.false_ne_true, by omega⟩
  have heq : s.dev.silent.svcToken f = (s.dev.silent.setReg ⟨.secTokenBuf, [f.addr / 8]⟩ v).svcReply 3 0 f.seq [] := by
    unfold Dev.svcToken
    rw [svcFrame_acts (d := s.dev.silent) hruns hsession hmac hseq]
    rw [if_neg hok, hdata]
    rfl
  exact completes_replied hacts (exec_serviceToken f s) heq rfl hsession rfl ⟨rfl, rfl⟩
    fun d houts hses hcores hraised hmem hregs =>
      ⟨⟨houts, hses, hcores, hraised⟩, hmem, (Dev.reg_congr hregs _).trans (Dev.setReg_self s.dev.silent _ v)⟩

end

/-! ## Recovery -/

/-- The device while a recovery transfer goes on: 8 bytes stand in the Hub memory, and n have been written. -/
def Dev.recovering8 (d : Dev) (x : Session) (v : Word) (n : Nat) : Dev :=
  { d with mem := hubPuts x.rec_ (bytesOf 8 v.toNat) d.mem, session := some { x with rec_ := n } }

/-- What the ROM asks of a transfer. -/
def Dev.recoveryGood (d : Dev) (x : Session) (v : Word) (m : Manifest) : Prop :=
  Config.parseManifest ((hubPuts x.rec_ (bytesOf 8 v.toNat) d.mem).getAll hubBase (x.rec_ + 8)) = some m ∧ d.slotOk m = true ∧
    ∀ k, k ∈ [1, 2, 3] → (imageOf m k).any imageOk = true

theorem readImages_ok (m : Manifest) (l : List (Nat × Nat)) (d : Dev) :
    (d.readImages m true l).1 = true ↔ ∀ e ∈ l, (imageOf m e.1).any imageOk = true := by
  induction l generalizing d with
  | nil => exact ⟨fun _ e he => absurd he List.not_mem_nil, fun _ => rfl⟩
  | cons e l ih =>
    obtain ⟨k, r⟩ := e
    rw [List.forall_mem_cons]
    unfold Dev.readImages
    dsimp only
    cases himage : imageOf m k with
    | none => simp
    | some y =>
      cases hok : imageOk y with
      | false => simp [hok]
      | true => simp [hok, ih]

theorem readImages_firmware (m : Manifest) (d : Dev) : (d.readImages m true [(1, 2), (2, 3), (3, 4)]).1 = true ↔
    ∀ k, k ∈ [1, 2, 3] → (imageOf m k).any imageOk = true := by
  rw [readImages_ok]
  simp

section
variable {v : Word} {m : Manifest} (hruns : s.dev.mgtRuns = true) (hsession : s.dev.session = some x) (hmac : x.mac = f.mac)
  (hseq : x.seq ≠ some f.seq) (hstage : s.dev.sec.stage = 1) (hhalted : s.dev.sec.halted = true) (hlen : f.len = 1) (hdata : f.data = [v])
include hruns hsession hmac hseq hstage hhalted hlen hdata

theorem svcRecovery_steps : s.dev.silent.svcRecovery f m =
    if (!f.flag) = true then (s.dev.silent.recovering8 x v (if f.flag then 0 else x.rec_ + 8)).svcReply 6 0 f.seq []
    else if (decide (Config.parseManifest ((hubPuts x.rec_ (bytesOf 8 v.toNat) s.dev.silent.mem).getAll hubBase (x.rec_ + 8)) = some m) &&
        ((s.dev.silent.recovering8 x v (if f.flag then 0 else x.rec_ + 8)).svcReply 6 0 f.seq []).slotOk m &&
        (((s.dev.silent.recovering8 x v (if f.flag then 0 else x.rec_ + 8)).svcReply 6 0 f.seq []).readImages m true
          [(1, 2), (2, 3), (3, 4)]).1) = true then
      ({ (s.dev.silent.recovering8 x v (if f.flag then 0 else x.rec_ + 8)).svcReply 6 0 f.seq [] with flashB := some m } : Dev).bootStart
    else ((s.dev.silent.recovering8 x v (if f.flag then 0 else x.rec_ + 8)).svcReply 6 0 f.seq []).raise 0x1202 none 1 := by
  have hstart : ¬ ¬ (s.dev.silent.sec.stage = 1 ∧ s.dev.silent.sec.halted = true) := not_not.2 ⟨hstage, hhalted⟩
  have hok : ¬ (!svcOk f) = true := by
    rw [svcOk_one hlen hdata]
    exact Bool.false_ne_true
  have hses : s.dev.silent.session = some x := hsession
  have hbytes : f.data.flatMap (fun w => bytesOf 8 w.toNat) = bytesOf 8 v.toNat := by
    rw [hdata, List.flatMap_cons, List.flatMap_nil, List.append_nil]
  have hlen8 : (bytesOf 8 v.toNat).length = 8 := length_bytesOf 8 _
  unfold Dev.svcRecovery
  rw [svcFrame_acts (d := s.dev.silent) hruns hsession hmac hseq, if_neg hstart, if_neg hok, hses, hbytes]
  unfold Dev.recovering8 hubPuts
  dsimp only [Option.map_some]
  rw [hlen8]

end

theorem get_recovering8 (x : Session) (v : Word) (m : Mem) {k : Nat} (hk : k < 8) :
    (hubPuts x.rec_ (bytesOf 8 v.toNat) m).get (hubAt (x.rec_ + k)) = BitVec.ofNat 8 (v.toNat / 2 ^ (8 * k)) := by
  rw [get_hubPuts_in _ _ _ (by rw [length_bytesOf]; decide) (by rw [length_bytesOf]; exact hk), getD_bytesOf 8 _ k hk]

theorem slotOk_congr {d d' : Dev} (h : d'.fuses = d.fuses) (m : Manifest) : d'.slotOk m = d.slotOk m := by
  unfold Dev.slotOk Dev.keySlot Dev.signedOk
  rw [h]

theorem bootStart_flash (d : Dev) : d.bootStart.sec = { stage := 1 } ∧ d.bootStart.flashB = d.flashB ∧ d.bootStart.pruneDue = [] ∧
    ∀ r : Reg, d.bootStart.reg r = r.resetVal := by
  rw [bootStart_eq]
  split
  · exact ⟨rfl, rfl, rfl, fun _ => rfl⟩
  · exact ⟨rfl, rfl, rfl, fun _ => rfl⟩

section
variable {v : Word} {m : Manifest} (hacts : Acts s) (hruns : s.dev.mgtRuns = true) (hsession : s.dev.session = some x) (hmac : x.mac = f.mac)
  (hseq : x.seq ≠ some f.seq) (hstage : s.dev.sec.stage = 1) (hhalted : s.dev.sec.halted = true) (hlen : f.len = 1) (hdata : f.data = [v])
include hacts hruns hsession hmac hseq hstage hhalted hlen hdata

theorem completes_recoveryGoes (hflag : f.flag = false) : Completes (.serviceRecovery f m) s (fun d =>
    d.outs = [.sent 0x88B5 [134, 0, f.seq]] ∧ (∃ y, d.session = some y ∧ y.rec_ = x.rec_ + 8 ∧ y.seq = some f.seq) ∧
    (∀ k, k < 8 → d.mem.get (hubAt (x.rec_ + k)) = BitVec.ofNat 8 (v.toNat / 2 ^ (8 * k))) ∧ d.cores = s.dev.cores) := by
  have heq := svcRecovery_steps (m := m) hruns hsession hmac hseq hstage hhalted hlen hdata
  rw [hflag, if_pos (show (!false) = true from rfl), if_neg Bool.false_ne_true] at heq
  refine completes_replied hacts (exec_serviceRecovery f m s) heq rfl (x := { x with rec_ := x.rec_ + 8 }) rfl rfl ⟨rfl, rfl⟩
    fun d houts hses hcores _ hmem _ => ⟨houts, ⟨_, hses, rfl, rfl⟩, fun k hk => ?_, hcores⟩
  rw [hmem]
  exact get_recovering8 x v s.dev.silent.mem hk

theorem completes_recoveryEnds (hflag : f.flag = true) : Completes (.serviceRecovery f m) s (fun d =>
    (s.dev.recoveryGood x v m →
      d.sec.stage = 1 ∧ d.sec.halted = false ∧ d.flashB = some m ∧ ∀ r : Reg, d.reg r = r.resetVal) ∧
    (¬ s.dev.recoveryGood x v m →
      d.sec = s.dev.sec ∧ d.flashB = s.dev.flashB ∧ Records s.dev d 0x1202 1 ∧ d.cores = s.dev.cores)) := by
  have heq := svcRecovery_steps (m := m) hruns hsession hmac hseq hstage hhalted hlen hdata
  rw [hflag, if_neg (show ¬ (!true) = true from Bool.false_ne_true), if_pos rfl] at heq
  have hfuses : ((s.dev.silent.recovering8 x v 0).svcReply 6 0 f.seq []).fuses = s.dev.fuses := rfl
  have hslot := slotOk_congr hfuses m
  have himages := readImages_firmware m ((s.dev.silent.recovering8 x v 0).svcReply 6 0 f.seq [])
  have hsilent : s.dev.silent.mem = s.dev.mem := rfl
  have hgood : (decide (Config.parseManifest ((hubPuts x.rec_ (bytesOf 8 v.toNat) s.dev.silent.mem).getAll hubBase (x.rec_ + 8)) = some m) &&
        ((s.dev.silent.recovering8 x v 0).svcReply 6 0 f.seq []).slotOk m &&
        (((s.dev.silent.recovering8 x v 0).svcReply 6 0 f.seq []).readImages m true [(1, 2), (2, 3), (3, 4)]).1) = true ↔
      s.dev.recoveryGood x v m := by
    unfold Dev.recoveryGood
    rw [Bool.and_eq_true, Bool.and_eq_true, decide_eq_true_eq, himages, hslot, hsilent, and_assoc]
  by_cases h : s.dev.recoveryGood x v m
  · rw [if_pos (hgood.2 h)] at heq
    obtain ⟨hsec, hflash, hdue, hregs⟩ := bootStart_flash
      ({ (s.dev.silent.recovering8 x v 0).svcReply 6 0 f.seq [] with flashB := some m } : Dev)
    have hpins := bootStart_pins ({ (s.dev.silent.recovering8 x v 0).svcReply 6 0 f.seq [] with flashB := some m } : Dev)
    exact completes_as hacts (exec_serviceRecovery f m s) heq (hdue.trans hacts.2.symm) hpins
      ⟨fun _ => ⟨by rw [hsec], by rw [hsec], hflash, hregs⟩, fun hn => absurd h hn⟩
  · rw [if_neg (fun hg => h (hgood.1 hg))] at heq
    exact completes_as hacts (exec_serviceRecovery f m s) heq rfl ⟨rfl, rfl⟩ ⟨fun hy => absurd hy h, fun _ => ⟨rfl, rfl, rfl, rfl⟩⟩

end

end

/-! ## The link -/

section
variable {s : State}

theorem completes_linkUp (hacts : Acts s) (fec : Fin 3) (h : s.dev.mgtUp = false) : Completes (.mgtLinkUp fec) s (fun d =>
    d.mgtUp = true ∧ d.mgtFec = fec.val ∧ Records s.dev d 0x1502 0 ∧ d.regs = s.dev.regs ∧ Calm s.dev d) := by
  have heq : s.dev.silent.mgtLinkUp fec.val = ({ s.dev.silent with mgtUp := true, mgtFec := fec.val } : Dev).raise 0x1502 none 0 :=
    if_neg (fun hup => Bool.false_ne_true (h.symm.trans hup))
  exact completes_as hacts (exec_mgtLinkUp fec s) heq rfl ⟨rfl, rfl⟩ ⟨rfl, rfl, rfl, rfl, rfl, rfl, rfl, rfl, rfl, rfl, rfl, rfl, rfl⟩

theorem completes_linkDown (hacts : Acts s) (h : s.dev.mgtUp = true) : Completes .mgtLinkDown s (fun d =>
    d.mgtUp = false ∧ d.session = none ∧ Records s.dev d 0x1501 0 ∧ d.regs = s.dev.regs ∧ Calm s.dev d) := by
  have heq : s.dev.silent.mgtLinkDown = ({ s.dev.silent with mgtUp := false, mgtFec := 0, session := none } : Dev).raise 0x1501 none 0 :=
    if_pos h
  exact completes_as hacts (exec_mgtLinkDown s) heq rfl ⟨rfl, rfl⟩ ⟨rfl, rfl, rfl, rfl, rfl, rfl, rfl, rfl, rfl, rfl, rfl, rfl, rfl⟩

theorem completes_notReceived (hacts : Acts s) (hruns : s.dev.mgtRuns = true) {bs : List Byte} {bad : Bool}
    (hdesc : s.dev.mgtDesc .mgtRxq = none) (hservice : serviceFrame bs = false) (hsize : frameSize bs.length = true)
    (hmine : s.dev.frameMine bs = true) : Completes (.mgtFrameReceive bs bad) s (fun d =>
      d.regFld ⟨.mgtStats, []⟩ 31 0 = min (s.dev.regFld ⟨.mgtStats, []⟩ 31 0 + 1) (2 ^ 32 - 1) ∧ Calm s.dev d) :=
  completes_as hacts (exec_mgtFrameReceive bs bad s) (frameReceive_nowhere (d := s.dev.silent) hruns hdesc hservice hsize hmine) rfl ⟨rfl, rfl⟩
    ⟨regFld_count_self (d := s.dev.silent) (r := ⟨.mgtStats, []⟩) 1 (by decide), rfl, rfl, rfl, rfl, rfl, rfl, rfl, rfl, rfl⟩

end

/-- Settles O47: the link, frames through the rings, and the session's frames, each by the lemma of its row. -/
theorem managementPort : Obligations.ManagementPort := by
  unfold Obligations.ManagementPort
  intro s hacts
  refine ⟨completes_linkUp hacts, completes_linkDown hacts, fun hruns => ⟨?_, ?_, ?_, ?_, fun f hnone => ⟨?_, ?_⟩,
    fun f x hsession hmac hseq => ⟨?_, ?_, ?_, ?_, ?_, ?_⟩, ?_⟩⟩
  · exact fun a w bs hdesc hlen hservice hsize hmine => completes_received hacts hruns hdesc hlen hservice hsize hmine
  · exact fun bs bad hdesc hservice hsize hmine => completes_notReceived hacts hruns hdesc hservice hsize hmine
  · exact fun bs bad h => completes_as hacts (exec_mgtFrameReceive bs bad s) (frameReceive_ignored (d := s.dev.silent) h) rfl ⟨rfl, rfl⟩ rfl
  · exact fun a w hdesc => completes_transmitted hacts hruns hdesc
  · exact completes_svcOpen hacts hruns hnone
  · refine List.forall_mem_cons.2 ⟨?_, List.forall_mem_cons.2 ⟨?_, List.forall_mem_cons.2 ⟨?_, List.forall_mem_cons.2 ⟨?_, ?_⟩⟩⟩⟩
    · exact completes_svcRefused hacts hruns hnone (exec_serviceRead f s) rfl
    · exact completes_svcRefused hacts hruns hnone (exec_serviceWrite f s) rfl
    · exact completes_svcRefused hacts hruns hnone (exec_serviceToken f s) rfl
    · exact completes_svcRefused hacts hruns hnone (exec_serviceClose f s) rfl
    · exact fun e he => absurd he List.not_mem_nil
  · exact completes_svcClose hacts hruns hsession hmac hseq
  · exact fun hall hlen ha hub => completes_svcRead hacts hruns hsession hmac hseq hall hlen ha hub
  · exact fun v hall hlen hdata ha hub => completes_svcWrite hacts hruns hsession hmac hseq hall hlen hdata ha hub
  · exact fun v hlen hdata ha hfit => completes_svcToken hacts hruns hsession hmac hseq hlen hdata ha hfit
  · exact fun v m hstage hhalted hlen hdata hflag => completes_recoveryGoes hacts hruns hsession hmac hseq hstage hhalted hlen hdata hflag
  · intro v m hstage hhalted hlen hdata hflag
    obtain ⟨t, hexec, hpend, hends⟩ := completes_recoveryEnds (m := m) hacts hruns hsession hmac hseq hstage hhalted hlen hdata hflag
    exact ⟨t, hexec, hpend, hubPuts x.rec_ (bytesOf 8 v.toNat) s.dev.mem, fun k hk => get_recovering8 x v s.dev.mem hk,
      fun b hb => get_hubPuts_out _ _ _ (fun k hk => hb k (by rw [length_bytesOf] at hk; exact hk)), hends⟩
  · exact completes_as hacts (exec_mgtSessionTimeout s) rfl rfl ⟨rfl, rfl⟩ rfl

end Sys2Proof.Machine
end

section
/-! SUPPORT. Proof of the statement about port states and the tile mesh (R421, R422, R434 to R438, R447). -/
namespace Sys2Proof.Machine

open Safety

/-! ## What a port's transition leaves alone -/

/-- The states of the other ports, memories, cores and pins stand; events are raised. -/
structure PortActs (d d' : Dev) (q : Nat) : Prop where
  others : ∀ r, r ≠ q → (d'.port r).st = (d.port r).st
  frame : d'.mem = d.mem ∧ d'.cores = d.cores
  due : d'.pruneDue = d.pruneDue
  pins : d'.resetN = d.resetN ∧ d'.vin = d.vin
  raised : ∃ l, d'.raised = d.raised ++ l

section
variable {d d' d'' : Dev} {q : Nat}

theorem PortActs.trans (h : PortActs d d' q) (h' : PortActs d' d'' q) : PortActs d d'' q := by
  obtain ⟨l, hl⟩ := h.raised
  obtain ⟨l', hl'⟩ := h'.raised
  exact ⟨fun r hr => (h'.others r hr).trans (h.others r hr), ⟨h'.frame.1.trans h.frame.1, h'.frame.2.trans h.frame.2⟩,
    h'.due.trans h.due, ⟨h'.pins.1.trans h.pins.1, h'.pins.2.trans h.pins.2⟩, ⟨l ++ l', by rw [hl', hl, List.append_assoc]⟩⟩

theorem PortActs.raises (h : PortActs d d' q) {code : Nat} (hr : Raises d code) : Raises d' code := by
  obtain ⟨x, hx, hcode⟩ := hr
  obtain ⟨l, hl⟩ := h.raised
  exact ⟨x, by rw [hl]; exact List.mem_append_left l hx, hcode⟩

theorem portActs_portsMoved (h : PortsMoved d d') (hst : ∀ r, r ≠ q → (d'.port r).st = (d.port r).st) : PortActs d d' q := by
  have hrest := h.rest
  exact ⟨hst, ⟨by rw [hrest], by rw [hrest]⟩, by rw [hrest], ⟨by rw [hrest], by rw [hrest]⟩, h.raised⟩

theorem portActs_reported (h : Reported d d') : PortActs d d' q := by
  have hrest := h.rest
  exact ⟨fun r _ => by rw [hrest]; rfl, ⟨by rw [hrest], by rw [hrest]⟩, by rw [hrest], ⟨by rw [hrest], by rw [hrest]⟩, h.raised⟩

end

section
variable (d : Dev) (q : Nat)

theorem portActs_onPort (f : Port → Port) : PortActs d (d.onPort q f) q :=
  ⟨fun r hr => by rw [Dev.onPort_get, if_neg (Ne.symm hr)], ⟨rfl, rfl⟩, rfl, ⟨rfl, rfl⟩, ⟨[], (List.append_nil _).symm⟩⟩

theorem portActs_raise (code : Nat) (part : Option Nat) (unit : Nat) : PortActs d (d.raise code part unit) q :=
  ⟨fun _ _ => rfl, ⟨rfl, rfl⟩, rfl, ⟨rfl, rfl⟩, ⟨_, rfl⟩⟩

theorem portActs_setReg (r : Reg) (v : Word) : PortActs d (d.setReg r v) q :=
  ⟨fun _ _ => rfl, ⟨rfl, rfl⟩, rfl, ⟨rfl, rfl⟩, ⟨[], (List.append_nil _).symm⟩⟩

theorem portActs_onLink (l : Nat) (f : Link → Link) : PortActs d (d.onLink l f) q :=
  ⟨fun _ _ => rfl, ⟨rfl, rfl⟩, rfl, ⟨rfl, rfl⟩, ⟨[], (List.append_nil _).symm⟩⟩

theorem portActs_portEvent (code : Nat) : PortActs d (d.portEvent q code) q :=
  (portActs_onPort d q _).trans (portActs_raise _ q _ _ _)

theorem portActs_portLeave (st : PortState) : PortActs d (d.portLeave q st) q :=
  portActs_portsMoved (portsMoved_portLeave d q st) fun r hr => by rw [portLeave_st, if_neg (Ne.symm hr)]

theorem raises_portEvent (code : Nat) : Raises (d.portEvent q code) code := raises_raise _ _ _ _

/-- The port with its event noted. -/
theorem portEvent_port (code j : Nat) : (d.portEvent q code).port j = if q = j then { d.port q with event := code } else d.port j :=
  Dev.onPort_get d q j (fun x => { x with event := code })

/-- The failed port with its event and its graft noted. -/
def Dev.portNoted (d : Dev) (q : Nat) : Dev := (d.portLeave q .failed).onPort q (fun x => { x with event := 0x0C04, due := .reported })

theorem portFail_reported : Reported ((d.portNoted q).raise 0x0C04 none q) (d.portFail q) :=
  reported_faultDevice (d.portNoted q) 0x0C04 q (d.portNoted q).ownedParts [.port q]

theorem portActs_portFail : PortActs d (d.portFail q) q ∧ Raises (d.portFail q) 0x0C04 := by
  have hnoted : PortActs d (d.portNoted q) q := (portActs_portLeave d q .failed).trans (portActs_onPort _ q _)
  have hreported := portFail_reported d q
  exact ⟨(hnoted.trans (portActs_raise _ q _ _ _)).trans (portActs_reported hreported), hreported.raises (raises_raise _ _ _ _)⟩

/-- The port that has failed keeps its record of trainings. -/
theorem portFail_port : ((d.portFail q).port q).st = .failed ∧ ((d.portFail q).port q).fails = (d.port q).fails := by
  have hport : (d.portFail q).port q = (d.portNoted q).port q := by
    rw [(portFail_reported d q).rest]
    rfl
  have hnoted : (d.portNoted q).port q = { (d.portLeave q .failed).port q with event := 0x0C04, due := .reported } := by
    unfold Dev.portNoted
    rw [Dev.onPort_get, if_pos rfl]
  obtain ⟨e, b, hleave⟩ := (portLeave_moved d q .failed).port q
  rw [portLeft_port, if_pos rfl] at hleave
  rw [hport, hnoted, hleave]
  exact ⟨rfl, rfl⟩

variable {d q}

/-- A port that was not UP leaves its state without its link. -/
theorem portLeave_quiet (h : (d.port q).st ≠ .up) (st : PortState) : d.portLeave q st = d.portLeft q st := by
  rw [portLeave_eq, if_neg h]

/-- The port's record, and how the rest stands, when a port that was not UP leaves its state. -/
theorem portLeave_facts (h : (d.port q).st ≠ .up) (st : PortState) : (d.portLeave q st).port q = (d.port q).left st ∧
    (d.portLeave q st).raised = d.raised ∧ (d.portLeave q st).links = d.links ∧ (d.portLeave q st).outs = d.outs ∧
    ∀ r, Reg.addr ⟨.tmpPortDelay, [q]⟩ ≠ r.addr → (d.portLeave q st).reg r = d.reg r := by
  rw [portLeave_quiet h]
  have hrest := portLeft_rest d q st
  refine ⟨by rw [portLeft_port, if_pos rfl], by rw [hrest], by rw [hrest], by rw [hrest], fun r hr => portLeft_reg d q st hr⟩

end

/-- A port's transition, by its effect. -/
theorem completes_port {c : Instr} {s : State} {g : Dev → Dev} {q : Nat} {y : Dev} {P : Dev → Prop} (hacts : Acts s)
    (hexec : exec c s = run s (fun d => (g d).settle)) (heq : g s.dev.silent = y) (h : PortActs s.dev.silent y q)
    (hP : ((∀ r, r ≠ q → (y.port r).st = (s.dev.port r).st) ∧ y.mem = s.dev.mem ∧ y.cores = s.dev.cores) → P y) : Completes c s P :=
  completes_as hacts hexec heq h.due h.pins (hP ⟨h.others, h.frame.1, h.frame.2⟩)

/-! ## Training -/

section
variable {d : Dev} {q : Nat}

theorem portStep_at (hruns : d.portRuns q = true) {st : PortState} (hst : (d.port q).st = st) (f : Dev → Dev) : d.portStep q st f = f d :=
  if_pos ⟨hruns, hst⟩

theorem onPort_self (f : Port → Port) : (d.onPort q f).port q = f (d.port q) := (Dev.onPort_get d q q f).trans (if_pos rfl)

theorem trainFail_again (h : (d.port q).fails = 0) :
    d.trainFail q = (d.onPort q (fun x => { x with fails := x.fails + 1 })).portLeave q .detect := by
  unfold Dev.trainFail
  refine if_neg ?_
  rw [onPort_self]
  change ¬ 2 ≤ (d.port q).fails + 1
  omega

theorem trainFail_fails (h : (d.port q).fails ≠ 0) : d.trainFail q = (d.onPort q (fun x => { x with fails := x.fails + 1 })).portFail q := by
  unfold Dev.trainFail
  refine if_pos ?_
  rw [Dev.onPort_get, if_pos rfl]
  change 2 ≤ (d.port q).fails + 1
  omega

end

/-! ## A port that trains (R421) -/

/-- A state in which a port keeps its delays and its graft. -/
theorem left_train (x : Port) : x.left .train = { x with st := .train, lost := none } := by simp [Port.left]

theorem left_lock (x : Port) : x.left .lock = { x with st := .lock, lost := none, delays := [] } := by simp [Port.left]

theorem left_credit (x : Port) : x.left .credit = { x with st := .credit, lost := none } := by simp [Port.left]

/-- What a quiet transition leaves. -/
def QuietPort (s : State) (q : Nat) (d : Dev) : Prop :=
  d.raised = s.dev.raised ∧ d.links = s.dev.links ∧ (∀ r, r ≠ q → (d.port r).st = (s.dev.port r).st) ∧ d.mem = s.dev.mem ∧
    d.cores = s.dev.cores

theorem addr_delay_cfg (q j : Nat) (hq : q < 24) : Reg.addr ⟨.tmpPortDelay, [q]⟩ ≠ Reg.addr ⟨.dvoPortCfg, [j]⟩ := by
  simp [Reg.addr, RK.row]
  omega

theorem addr_delay_coord (q : Nat) (hq : q < 24) : Reg.addr ⟨.tmpPortDelay, [q]⟩ ≠ Reg.addr ⟨.dvoCoord, []⟩ := by
  simp [Reg.addr, RK.row]
  omega

/-- The identity that port q tells. -/
def Dev.identOut (d : Dev) (q : Nat) : Out :=
  .sent 0x205 [d.ownId, q, d.portLink q, d.regFld ⟨.dvoPortCfg, [q]⟩ 9 7, d.portRole q]

/-- The identity stands in two registers. -/
theorem identOut_congr {d d' : Dev} {q : Nat} (hcfg : d'.reg ⟨.dvoPortCfg, [q]⟩ = d.reg ⟨.dvoPortCfg, [q]⟩)
    (hcoord : d'.reg ⟨.dvoCoord, []⟩ = d.reg ⟨.dvoCoord, []⟩) : d'.identOut q = d.identOut q := by
  unfold Dev.identOut Dev.ownId Dev.portLink Dev.portRole Dev.regFld
  rw [hcfg, hcoord]

section
variable {s : State} {q : PortId} (hacts : Acts s) (hruns : s.dev.portRuns q.val = true)
include hacts hruns

theorem completes_signal (hst : (s.dev.port q.val).st = .detect) : Completes (.portSignalDetect q) s (fun d =>
    d.port q.val = { s.dev.port q.val with st := .train, lost := none } ∧ QuietPort s q.val d) := by
  have hup : (s.dev.silent.port q.val).st ≠ .up := fun h => by cases hst.symm.trans h
  obtain ⟨hport, hraised, hlinks, -, -⟩ := portLeave_facts hup .train
  exact completes_port hacts (exec_portSignalDetect q s) (portStep_at (d := s.dev.silent) hruns hst _)
    (portActs_portLeave s.dev.silent q.val .train) fun hrest => ⟨hport.trans (left_train _), hraised, hlinks, hrest⟩

theorem completes_trained (hst : (s.dev.port q.val).st = .train) : Completes (.portTrainDone q) s (fun d =>
    d.port q.val = { s.dev.port q.val with st := .lock, lost := none, delays := [] } ∧
    (d.reg ⟨.tmpPortDelay, [q.val]⟩).getLsbD 63 = false ∧ QuietPort s q.val d) := by
  have hup : (s.dev.silent.port q.val).st ≠ .up := fun h => by cases hst.symm.trans h
  obtain ⟨hport, hraised, hlinks, -, -⟩ := portLeave_facts hup .lock
  have hvalid : ((s.dev.silent.portLeave q.val .lock).reg ⟨.tmpPortDelay, [q.val]⟩).getLsbD 63 = false := by
    rw [portLeave_quiet hup]
    unfold Dev.portLeft
    dsimp only
    rw [if_pos (.inl rfl)]
    unfold Dev.delaysClear
    rw [reg_setRegFld_self, setFld_getLsbD, if_pos ⟨by decide, by decide, by decide⟩]
    exact Nat.zero_testBit _
  exact completes_port hacts (exec_portTrainDone q s) (portStep_at (d := s.dev.silent) hruns hst _)
    (portActs_portLeave s.dev.silent q.val .lock) fun hrest => ⟨hport.trans (left_lock _), hvalid, hraised, hlinks, hrest⟩

theorem completes_aligned (hst : (s.dev.port q.val).st = .lock) : Completes (.portAlignDone q) s (fun d =>
    (d.port q.val).st = .ident ∧ QuietPort s q.val d ∧ d.outs = [s.dev.identOut q.val]) := by
  have hup : (s.dev.silent.port q.val).st ≠ .up := fun h => by cases hst.symm.trans h
  obtain ⟨hport, hraised, hlinks, houts, hregs⟩ := portLeave_facts hup .ident
  have hident := identOut_congr (hregs _ (addr_delay_cfg q.val q.val q.isLt)) (hregs _ (addr_delay_coord q.val q.isLt))
  have hacts' := portActs_portLeave s.dev.silent q.val .ident
  have heq : s.dev.silent.portAligned q.val =
      (s.dev.silent.portLeave q.val .ident).out ((s.dev.silent.portLeave q.val .ident).identOut q.val) := by
    have hst' : (s.dev.silent.port q.val).st = .lock := hst
    have hruns' : s.dev.silent.portRuns q.val = true := hruns
    unfold Dev.portAligned
    rw [hruns', hst']
    rfl
  rw [hident] at heq
  generalize s.dev.silent.portLeave q.val .ident = y at *
  refine completes_port hacts (exec_portAlignDone q s) heq ⟨hacts'.others, hacts'.frame, hacts'.due, hacts'.pins, hacts'.raised⟩
    fun hrest => ⟨(congrArg Port.st hport).trans rfl, ⟨hraised, hlinks, hrest⟩, ?_⟩
  change y.outs ++ _ = _
  rw [houts]
  rfl

theorem completes_realigned (hst : (s.dev.port q.val).st = .retrain) (hpass : (s.dev.port q.val).pass = .coeffs) :
    Completes (.portAlignDone q) s (fun d => d.port q.val = { s.dev.port q.val with pass := .ident, delays := [] } ∧
      QuietPort s q.val d ∧ d.outs = [s.dev.identOut q.val]) := by
  let y : Dev := (s.dev.silent.delaysClear q.val).onPort q.val (fun x => { x with pass := .ident })
  have hregs : ∀ r, Reg.addr ⟨.tmpPortDelay, [q.val]⟩ ≠ r.addr → y.reg r = s.dev.reg r := fun r hr =>
    reg_setRegFld_ne (s.dev.silent.onPort q.val (fun x => { x with delays := [] })) hr 63 63 0
  have hident : y.identOut q.val = s.dev.identOut q.val :=
    identOut_congr (hregs _ (addr_delay_cfg q.val q.val q.isLt)) (hregs _ (addr_delay_coord q.val q.isLt))
  have hport : y.port q.val = { s.dev.port q.val with pass := .ident, delays := [] } := by
    have hy : y.port q.val = { (s.dev.silent.delaysClear q.val).port q.val with pass := .ident } := onPort_self _
    rw [hy, delaysClear_port, if_pos rfl]
    rfl
  have heq : s.dev.silent.portAligned q.val = y.out (y.identOut q.val) := by
    have hst' : (s.dev.silent.port q.val).st = .retrain := hst
    have hpass' : (s.dev.silent.port q.val).pass = .coeffs := hpass
    have hruns' : s.dev.silent.portRuns q.val = true := hruns
    unfold Dev.portAligned
    rw [hruns', hst', hpass']
    rfl
  rw [hident] at heq
  have hact : PortActs s.dev.silent y q.val := ((portActs_onPort s.dev.silent q.val _).trans (portActs_setReg _ q.val _ _)).trans
    (portActs_onPort _ q.val _)
  exact completes_port hacts (exec_portAlignDone q s) heq ⟨hact.others, hact.frame, hact.due, hact.pins, hact.raised⟩
    fun hrest => ⟨hport, ⟨rfl, rfl, hrest⟩, rfl⟩

/-- A training, or a retrain, that took too long. -/
theorem completes_timeout {c : Instr} {st : PortState} (hst : (s.dev.port q.val).st = st) (hnot : st ≠ .up)
    (hexec : exec c s = run s (fun d => (d.portStep q.val st (fun d => d.trainFail q.val)).settle)) :
    ((s.dev.port q.val).fails = 0 → Completes c s (fun d =>
      (d.port q.val).st = .detect ∧ (d.port q.val).fails = 1 ∧ QuietPort s q.val d)) ∧
    ((s.dev.port q.val).fails ≠ 0 → Completes c s (fun d => (d.port q.val).st = .failed ∧
      (d.port q.val).fails = (s.dev.port q.val).fails + 1 ∧ Raises d 0x0C04 ∧ (∀ r, r ≠ q.val → (d.port r).st = (s.dev.port r).st) ∧
      d.mem = s.dev.mem ∧ d.cores = s.dev.cores)) := by
  have hstep : s.dev.silent.portStep q.val st (fun d => d.trainFail q.val) = s.dev.silent.trainFail q.val :=
    portStep_at (d := s.dev.silent) hruns hst _
  let y : Dev := s.dev.silent.onPort q.val (fun x => { x with fails := x.fails + 1 })
  have hy : y.port q.val = { s.dev.port q.val with fails := (s.dev.port q.val).fails + 1 } := onPort_self _
  have hact : PortActs s.dev.silent y q.val := portActs_onPort s.dev.silent q.val _
  have hup : (y.port q.val).st ≠ .up := by
    rw [hy]
    exact fun h => hnot (hst.symm.trans h)
  refine ⟨fun hzero => ?_, fun hmore => ?_⟩
  · obtain ⟨hport, hraised, hlinks, -, -⟩ := portLeave_facts hup .detect
    refine completes_port hacts hexec (hstep.trans (trainFail_again (d := s.dev.silent) hzero)) (hact.trans (portActs_portLeave y q.val .detect))
      fun hrest => ⟨(congrArg Port.st hport).trans rfl, (congrArg Port.fails hport).trans ?_, hraised, hlinks, hrest⟩
    rw [hy]
    change (s.dev.port q.val).fails + 1 = 1
    rw [hzero]
  · obtain ⟨hfail, hraise⟩ := portActs_portFail y q.val
    obtain ⟨hport, hfails⟩ := portFail_port y q.val
    refine completes_port hacts hexec (hstep.trans (trainFail_fails (d := s.dev.silent) hmore)) (hact.trans hfail)
      fun hrest => ⟨hport, hfails.trans ?_, hraise, hrest⟩
    rw [hy]

end

end Sys2Proof.Machine
end

section
/-! SUPPORT. Proof of the statement about port states, continued (R421, R422, R434, R435, R447). -/
namespace Sys2Proof.Machine

open Safety

/-! ## The partner's identity (R421, R434) -/

/-- The port has taken what its partner told. -/
def Port.told (x : Port) (i : Ident) : Port := { x with
  peer := i.dev % 2 ^ 18, peerPort := i.port % 32, peerGraft := x.peerGraft || decide (i.role = 1) }

/-- The device after its port has taken the identity. -/
def Dev.told (d : Dev) (q : Nat) (i : Ident) : Dev := d.onPort q (fun x => x.told i)

/-- The identity is the one that the link asks for, and that of the link's other members. -/
def Dev.peerFits (d : Dev) (q : Nat) (i : Ident) : Prop :=
  (d.regFld ⟨.dvoLink, [d.portLink q]⟩ 21 4 = 0x3FFFF ∨ d.regFld ⟨.dvoLink, [d.portLink q]⟩ 21 4 = i.dev) ∧
    (d.linkPeer q = none ∨ d.linkPeer q = some i.dev)

section
variable {d : Dev} {q : Nat} {i : Ident}

theorem identCheck_own (h : i.dev = d.ownId) (go : Dev → Dev) : d.identCheck q i go = (d.told q i).violate q 10 := if_pos h

theorem identCheck_fits (hown : i.dev ≠ d.ownId) (hl : d.portLink q < 24) (hfits : d.peerFits q i) (go : Dev → Dev) :
    d.identCheck q i go = go (d.told q i) := by
  obtain ⟨hwant, hpeer⟩ := hfits
  refine (if_neg hown).trans ((if_neg (Nat.not_le.2 hl)).trans (if_neg ?_))
  rcases hwant with h | h <;> rcases hpeer with h' | h' <;> simp [h, h']

theorem identCheck_strange (hown : i.dev ≠ d.ownId) (hl : d.portLink q < 24) (hfits : ¬ d.peerFits q i) (go : Dev → Dev) :
    d.identCheck q i go = (d.told q i).violate q 11 := by
  refine (if_neg hown).trans ((if_neg (Nat.not_le.2 hl)).trans (if_pos ?_))
  by_cases hwant : d.regFld ⟨.dvoLink, [d.portLink q]⟩ 21 4 = 0x3FFFF ∨ d.regFld ⟨.dvoLink, [d.portLink q]⟩ 21 4 = i.dev
  · refine Bool.or_eq_true_iff.2 (.inr ?_)
    have hpeer : ¬ (d.linkPeer q = none ∨ d.linkPeer q = some i.dev) := fun h => hfits ⟨hwant, h⟩
    cases hp : d.linkPeer q with
    | none => exact absurd (.inl hp) hpeer
    | some w => exact decide_eq_true fun hw => hpeer (.inr (hp.trans (congrArg some hw)))
  · refine Bool.or_eq_true_iff.2 (.inl ?_)
    obtain ⟨hfree, hdev⟩ := not_or.1 hwant
    exact Bool.and_eq_true_iff.2 ⟨decide_eq_true hfree, decide_eq_true hdev⟩

end

/-- The port with the cause of its quarantine and its events. -/
def Dev.blamed (d : Dev) (q code : Nat) : Dev :=
  ((d.setRegFld ⟨.dvoPortViol, [q]⟩ 43 40 code).onPort q (fun x => { x with qcause := code })).portEvent q 0x0C07

section
variable (d : Dev) (q code : Nat)

theorem portActs_blamed : PortActs d (d.blamed q code) q :=
  ((portActs_setReg d q _ _).trans (portActs_onPort _ q _)).trans (portActs_portEvent _ q _)

theorem blamed_port : (d.blamed q code).port q = { d.port q with qcause := code, event := 0x0C07 } := by
  unfold Dev.blamed
  rw [portEvent_port, if_pos rfl, onPort_self]
  rfl

/-- A port that was not UP is quarantined with its cause and its events; its link stands. -/
theorem portQuarantine_event {code' : Nat} (h : (if code = 10 then (d.blamed q code).portEvent q 0x0C08
    else if code = 11 then (d.blamed q code).portEvent q 0x0C09 else d.blamed q code) = (d.blamed q code).portEvent q code')
    (hup : (d.port q).st ≠ .up) : PortActs d (d.portQuarantine q code) q ∧ ((d.portQuarantine q code).port q).st = .quarantine ∧
    ((d.portQuarantine q code).port q).qcause = code ∧ Raises (d.portQuarantine q code) code' ∧ (d.portQuarantine q code).links = d.links := by
  have heq : d.portQuarantine q code = ((d.blamed q code).portEvent q code').portLeave q .quarantine :=
    congrArg (fun y => Dev.portLeave y q .quarantine) h
  have hacts : PortActs d ((d.blamed q code).portEvent q code') q := (portActs_blamed d q code).trans (portActs_portEvent _ q _)
  have hport : ((d.blamed q code).portEvent q code').port q = { d.port q with qcause := code, event := code' } := by
    rw [portEvent_port, if_pos rfl, blamed_port]
  have hlinks : ((d.blamed q code).portEvent q code').links = d.links := rfl
  have hraise : Raises ((d.blamed q code).portEvent q code') code' := raises_portEvent _ q code'
  rw [heq]
  generalize (d.blamed q code).portEvent q code' = y at *
  obtain ⟨hleave, hraised, hlinks', -, -⟩ := portLeave_facts (d := y) (q := q) (by rw [hport]; exact hup) .quarantine
  have hacts' := portActs_portLeave y q .quarantine
  refine ⟨hacts.trans hacts', ?_, ?_, hacts'.raises hraise, hlinks'.trans hlinks⟩ <;> rw [hleave, hport] <;> rfl

end

section
variable {s : State} {q : PortId} {i : Ident} (hacts : Acts s) (hruns : s.dev.portRuns q.val = true)
include hacts hruns

omit hacts in
/-- What the port's state makes of an acceptable identity. -/
theorem identReceive_eq (hst : (s.dev.port q.val).st = .ident ∨ ((s.dev.port q.val).st = .retrain ∧ (s.dev.port q.val).pass = .ident)) :
    ∃ go : Dev → Dev, s.dev.silent.identReceive q.val i = s.dev.silent.identCheck q.val i go ∧
      ((s.dev.port q.val).st = .ident → go = fun d => d.portLeave q.val .credit) ∧
      ((s.dev.port q.val).st = .retrain → go = fun d => d.onPort q.val (fun x => { x with pass := .credit })) := by
  have hruns' : s.dev.silent.portRuns q.val = true := hruns
  unfold Dev.identReceive
  rw [hruns']
  rcases hst with h | ⟨h, hpass⟩
  · have h' : (s.dev.silent.port q.val).st = .ident := h
    rw [h']
    exact ⟨fun d => d.portLeave q.val .credit, rfl, fun _ => rfl, fun hr => nomatch h.symm.trans hr⟩
  · have h' : (s.dev.silent.port q.val).st = .retrain := h
    have hpass' : (s.dev.silent.port q.val).pass = .ident := hpass
    rw [h', hpass']
    exact ⟨fun d => d.onPort q.val (fun x => { x with pass := .credit }), rfl, fun hr => (nomatch h.symm.trans hr), fun _ => rfl⟩

theorem completes_identified (hst : (s.dev.port q.val).st = .ident ∨ ((s.dev.port q.val).st = .retrain ∧ (s.dev.port q.val).pass = .ident))
    (hown : i.dev ≠ s.dev.ownId) (hl : s.dev.portLink q.val < 24) (hfits : s.dev.peerFits q.val i) :
    Completes (.identReceive q i) s (fun d =>
      ((s.dev.port q.val).st = .ident → d.port q.val = { (s.dev.port q.val).told i with st := .credit, lost := none }) ∧
      ((s.dev.port q.val).st = .retrain → d.port q.val = { (s.dev.port q.val).told i with pass := .credit }) ∧ QuietPort s q.val d) := by
  obtain ⟨go, heq, hident, hretrain⟩ := identReceive_eq (i := i) hruns hst
  have htold := heq.trans (identCheck_fits (d := s.dev.silent) hown hl hfits go)
  have hact : PortActs s.dev.silent (s.dev.silent.told q.val i) q.val := portActs_onPort s.dev.silent q.val _
  have hport : (s.dev.silent.told q.val i).port q.val = (s.dev.port q.val).told i := onPort_self _
  rcases hst with h | ⟨h, -⟩
  · rw [hident h] at htold
    have hup : ((s.dev.silent.told q.val i).port q.val).st ≠ .up := by
      rw [hport]
      exact fun h' => nomatch h.symm.trans h'
    obtain ⟨hleave, hraised, hlinks, -, -⟩ := portLeave_facts hup .credit
    rw [hport] at hleave
    exact completes_port hacts (exec_identReceive q i s) htold (hact.trans (portActs_portLeave _ q.val .credit)) fun hrest =>
      ⟨fun _ => hleave.trans (left_credit _), fun hr => (nomatch h.symm.trans hr), hraised, hlinks, hrest⟩
  · rw [hretrain h] at htold
    refine completes_port hacts (exec_identReceive q i s) htold (hact.trans (portActs_onPort _ q.val _)) fun hrest =>
      ⟨fun hr => (nomatch h.symm.trans hr), fun _ => (onPort_self (d := s.dev.silent.told q.val i) _).trans ?_, rfl, rfl, hrest⟩
    rw [hport]

theorem completes_blamed {code code' : Nat}
    (hst : (s.dev.port q.val).st = .ident ∨ ((s.dev.port q.val).st = .retrain ∧ (s.dev.port q.val).pass = .ident))
    (hcheck : ∀ go, s.dev.silent.identCheck q.val i go = (s.dev.silent.told q.val i).violate q.val code)
    (hcode : 9 < code) (hevent : ∀ d : Dev, (if code = 10 then (d.blamed q.val code).portEvent q.val 0x0C08
      else if code = 11 then (d.blamed q.val code).portEvent q.val 0x0C09 else d.blamed q.val code) = (d.blamed q.val code).portEvent q.val code') :
    Completes (.identReceive q i) s (fun d => (d.port q.val).st = .quarantine ∧ (d.port q.val).qcause = code ∧ Raises d code' ∧
      d.links = s.dev.links ∧ (∀ r, r ≠ q.val → (d.port r).st = (s.dev.port r).st) ∧ d.mem = s.dev.mem ∧ d.cores = s.dev.cores) := by
  obtain ⟨go, heq, -, -⟩ := identReceive_eq (i := i) hruns hst
  let y : Dev := (s.dev.silent.told q.val i).setRegFld ⟨.dvoPortViol, [q.val]⟩ 43 40 code
  have hviolate : (s.dev.silent.told q.val i).violate q.val code = y.portQuarantine q.val code :=
    (if_neg (by omega)).trans (if_neg (by omega))
  have hact : PortActs s.dev.silent y q.val := (portActs_onPort s.dev.silent q.val _).trans (portActs_setReg _ q.val _ _)
  have hport : y.port q.val = (s.dev.port q.val).told i := onPort_self (d := s.dev.silent) (fun x => x.told i)
  have hup : (y.port q.val).st ≠ .up := by
    rw [hport]
    intro h'
    rcases hst with h | ⟨h, -⟩ <;> cases h.symm.trans h'
  obtain ⟨hact', hst', hcause, hraise, hlinks⟩ := portQuarantine_event y q.val code (hevent y) hup
  exact completes_port hacts (exec_identReceive q i s) ((heq.trans (hcheck go)).trans hviolate) (hact.trans hact') fun hrest =>
    ⟨hst', hcause, hraise, hlinks, hrest⟩

end

/-! ## Credits, and the end of a retrain (R417, R421, R431) -/

/-- The cells of a member come in. -/
theorem getD_addCells (f : Nat → Int) (m : FMap Int) (k n : Nat) :
    FMap.getD ((upTo n).foldl (fun (m : FMap Int) k => FMap.set m 0 k (FMap.getD m k 0 + f k)) m) k 0 =
      if k < n then FMap.getD m k 0 + f k else FMap.getD m k 0 := by
  induction n with
  | zero => rfl
  | succ n ih =>
    unfold upTo at ih ⊢
    rw [List.range_succ, List.foldl_append]
    change FMap.getD (FMap.set _ 0 n _) k 0 = _
    rw [FMap.getD_set]
    by_cases hk : n = k
    · subst hk
      rw [if_pos rfl, if_pos (by omega), ih, if_neg (by omega)]
    · rw [if_neg hk, ih]
      by_cases hlt : k < n
      · rw [if_pos hlt, if_pos (by omega)]
      · rw [if_neg hlt, if_neg (by omega)]

/-- The port in UP or STANDBY, its cells counted or as they were. -/
def Port.entered (x : Port) (up counted : Bool) : Port := { x with st := if up then .up else .standby, fails := 0, counted := counted }

/-- The link with the member's cells. -/
def Link.joined (k : Link) (x : Port) : Link := { k with
  avail := (upTo 8).foldl (fun (m : FMap Int) k => FMap.set m 0 k (FMap.getD m k 0 + (x.caps.getD k 0 : Nat))) k.avail
  cap := (upTo 8).foldl (fun (m : FMap Nat) k => FMap.set m 0 k (FMap.getD m k 0 + x.caps.getD k 0)) k.cap
  dead := false }

theorem joined_avail (x : Link) (y : Port) (k : Nat) :
    FMap.getD (x.joined y).avail k 0 = if k < 8 then FMap.getD x.avail k 0 + ((y.caps.getD k 0 : Nat) : Int) else FMap.getD x.avail k 0 := by
  have h := getD_addCells (fun k => ((y.caps.getD k 0 : Nat) : Int)) x.avail k 8
  unfold Link.joined
  dsimp only at h ⊢
  exact h

section
variable (d : Dev) (q : Nat)

theorem onPort_link (f : Port → Port) (l : Nat) : (d.onPort q f).link l = d.link l := rfl

theorem portEnter_counts (h : d.portLink q < 24 ∧ (d.port q).counted = false ∧ (d.port q).hold = false) :
    d.portEnter q true = ((d.onPort q (fun x => { x with st := .up, fails := 0 })).onPort q (fun x => { x with counted := true })).onLink
      (d.portLink q) (fun k => k.joined (d.port q)) := by
  obtain ⟨hl, hcounted, hhold⟩ := h
  refine if_pos ⟨rfl, hl, ?_, ?_⟩
  · rw [hcounted]
    rfl
  · rw [hhold]
    rfl

theorem portEnter_not (up : Bool) (h : ¬ (up = true ∧ d.portLink q < 24 ∧ (d.port q).counted = false ∧ (d.port q).hold = false)) :
    d.portEnter q up = d.onPort q (fun x => { x with st := if up then .up else .standby, fails := 0 }) := by
  refine if_neg fun hall => h ?_
  obtain ⟨hup, hl, hcounted, hhold⟩ := hall
  exact ⟨hup, hl, (Bool.not_eq_true' _).mp hcounted, (Bool.not_eq_true' _).mp hhold⟩

/-- The port has entered UP or STANDBY. -/
theorem portEnter_facts (up : Bool) : PortActs d (d.portEnter q up) q ∧ (∃ b, (d.portEnter q up).port q = (d.port q).entered up b) ∧
    (d.portEnter q up).regs = d.regs ∧ (d.portEnter q up).raised = d.raised ∧
    (∀ j, j ≠ d.portLink q → (d.portEnter q up).link j = d.link j) := by
  by_cases h : up = true ∧ d.portLink q < 24 ∧ (d.port q).counted = false ∧ (d.port q).hold = false
  · obtain ⟨rfl, hcounts⟩ := h
    let y : Dev := d.onPort q (fun x => { x with st := .up, fails := 0 })
    have hy : y.port q = { d.port q with st := .up, fails := 0 } := onPort_self _
    have hport : (y.onPort q (fun x => { x with counted := true })).port q = { y.port q with counted := true } := onPort_self _
    rw [portEnter_counts d q hcounts]
    refine ⟨((portActs_onPort d q _).trans (portActs_onPort _ q _)).trans (portActs_onLink _ q _ _), ⟨true, ?_⟩, rfl, rfl,
      fun j hj => (Dev.onLink_get _ _ _ _).trans (if_neg (Ne.symm hj))⟩
    rw [hy] at hport
    exact hport
  · rw [portEnter_not d q up h]
    refine ⟨portActs_onPort d q _, ⟨(d.port q).counted, onPort_self _⟩, rfl, rfl, fun _ _ => rfl⟩

theorem portEnter_standby : (d.portEnter q false).links = d.links := by
  rw [portEnter_not d q false fun h => nomatch h.1]
  rfl

theorem portEnter_avail (h : d.portLink q < 24 ∧ (d.port q).counted = false ∧ (d.port q).hold = false) {k : Nat} (hk : k < 8) :
    FMap.getD ((d.portEnter q true).link (d.portLink q)).avail k 0 =
      FMap.getD (d.link (d.portLink q)).avail k 0 + (((d.port q).caps.getD k 0 : Nat) : Int) := by
  rw [portEnter_counts d q h, Dev.onLink_get, if_pos rfl, onPort_link, onPort_link, joined_avail, if_pos hk]

end

section
variable {s : State} {q : PortId} {caps : List Nat} (hacts : Acts s) (hruns : s.dev.portRuns q.val = true)

/-- The port has taken its partner's cells. -/
def Dev.capped (d : Dev) (q : Nat) (caps : List Nat) : Dev := d.onPort q (fun x => { x with caps := caps })

theorem capped_port (d : Dev) (q : Nat) (caps : List Nat) : (d.capped q caps).port q = { d.port q with caps := caps } := onPort_self _

/-- The port whose member is held back, before it enters STANDBY. -/
theorem skewed_facts (d : Dev) (q : Nat) (caps : List Nat) :
    ((d.capped q caps).portEvent q 0x0C02).port q = { d.port q with caps := caps, event := 0x0C02 } ∧
    PortActs d ((d.capped q caps).portEvent q 0x0C02) q ∧ Raises ((d.capped q caps).portEvent q 0x0C02) 0x0C02 ∧
    ((d.capped q caps).portEvent q 0x0C02).regs = d.regs ∧ ((d.capped q caps).portEvent q 0x0C02).links = d.links := by
  refine ⟨?_, (portActs_onPort d q _).trans (portActs_portEvent _ q _), raises_portEvent _ q _, rfl, rfl⟩
  rw [portEvent_port, if_pos rfl, capped_port]

include hruns in
/-- The credit exchange of a port in CREDIT. -/
theorem creditExchange_eq (hst : (s.dev.port q.val).st = .credit) :
    (s.dev.portRole q.val = 1 → s.dev.skewed q.val = false →
      s.dev.silent.creditExchange q.val caps = (s.dev.silent.capped q.val caps).portEnter q.val true) ∧
    (s.dev.portRole q.val = 1 → s.dev.skewed q.val = true →
      s.dev.silent.creditExchange q.val caps = ((s.dev.silent.capped q.val caps).portEvent q.val 0x0C02).portEnter q.val false) ∧
    (s.dev.portRole q.val = 2 → s.dev.silent.creditExchange q.val caps = (s.dev.silent.capped q.val caps).portEnter q.val false) := by
  have hruns' : s.dev.silent.portRuns q.val = true := hruns
  have hst' : (s.dev.silent.port q.val).st = .credit := hst
  refine ⟨fun hrole hskew => ?_, fun hrole hskew => ?_, fun hrole => ?_⟩ <;>
    have hrole' : s.dev.silent.portRole q.val = _ := hrole <;> unfold Dev.creditExchange <;> rw [hruns', hst', hrole']
  · have hskew' : s.dev.silent.skewed q.val = false := hskew
    rw [hskew']
    rfl
  · have hskew' : s.dev.silent.skewed q.val = true := hskew
    rw [hskew']
    rfl
  · rfl

/-- What the exchange leaves in every case. -/
def CreditTaken (s : State) (q : Nat) (caps : List Nat) (d : Dev) : Prop :=
  (d.port q).fails = 0 ∧ (d.port q).caps = caps ∧ d.regs = s.dev.regs ∧ (∀ r, r ≠ q → (d.port r).st = (s.dev.port r).st) ∧
    d.mem = s.dev.mem ∧ d.cores = s.dev.cores

include hacts hruns

theorem completes_credited (hst : (s.dev.port q.val).st = .credit) (hrole : s.dev.portRole q.val = 1) (hskew : s.dev.skewed q.val = false) :
    Completes (.creditExchange q caps) s (fun d => (d.port q.val).st = .up ∧ CreditTaken s q.val caps d ∧
      (∀ j, j ≠ s.dev.portLink q.val → d.link j = s.dev.link j) ∧
      (s.dev.portLink q.val < 24 → (s.dev.port q.val).counted = false → (s.dev.port q.val).hold = false → ∀ k, k < 8 →
        FMap.getD (d.link (s.dev.portLink q.val)).avail k 0 =
          FMap.getD (s.dev.link (s.dev.portLink q.val)).avail k 0 + ((caps.getD k 0 : Nat) : Int))) := by
  have hport := capped_port s.dev.silent q.val caps
  obtain ⟨hact, ⟨b, hentered⟩, hregs, -, hlinks⟩ := portEnter_facts (s.dev.silent.capped q.val caps) q.val true
  have havail := portEnter_avail (s.dev.silent.capped q.val caps) q.val
  rw [hport] at hentered havail
  refine completes_port hacts (exec_creditExchange q caps s) ((creditExchange_eq hruns hst).1 hrole hskew)
    ((portActs_onPort s.dev.silent q.val _).trans hact) fun hrest =>
      ⟨congrArg Port.st hentered, ⟨congrArg Port.fails hentered, congrArg Port.caps hentered, hregs, hrest⟩, hlinks,
        fun hl hcounted hhold k hk => havail ⟨hl, hcounted, hhold⟩ hk⟩

theorem completes_skewed (hst : (s.dev.port q.val).st = .credit) (hrole : s.dev.portRole q.val = 1) (hskew : s.dev.skewed q.val = true) :
    Completes (.creditExchange q caps) s (fun d => (d.port q.val).st = .standby ∧ CreditTaken s q.val caps d ∧ Raises d 0x0C02 ∧
      d.links = s.dev.links) := by
  obtain ⟨hport, hy, hraise, hyregs, hylinks⟩ := skewed_facts s.dev.silent q.val caps
  have heq : s.dev.silent.creditExchange q.val caps = _ := (creditExchange_eq hruns hst).2.1 hrole hskew
  generalize (s.dev.silent.capped q.val caps).portEvent q.val 0x0C02 = y at *
  obtain ⟨hact, ⟨b, hentered⟩, hregs, -, -⟩ := portEnter_facts y q.val false
  have hlinks := portEnter_standby y q.val
  rw [hport] at hentered
  exact completes_port hacts (exec_creditExchange q caps s) heq (hy.trans hact) fun hrest =>
    ⟨congrArg Port.st hentered, ⟨congrArg Port.fails hentered, congrArg Port.caps hentered, hregs.trans hyregs, hrest⟩, hact.raises hraise, hlinks.trans hylinks⟩

theorem completes_spare (hst : (s.dev.port q.val).st = .credit) (hrole : s.dev.portRole q.val = 2) :
    Completes (.creditExchange q caps) s (fun d => (d.port q.val).st = .standby ∧ CreditTaken s q.val caps d ∧ d.raised = s.dev.raised ∧
      d.links = s.dev.links) := by
  have hport := capped_port s.dev.silent q.val caps
  obtain ⟨hact, ⟨b, hentered⟩, hregs, hraised, -⟩ := portEnter_facts (s.dev.silent.capped q.val caps) q.val false
  have hlinks := portEnter_standby (s.dev.silent.capped q.val caps) q.val
  rw [hport] at hentered
  refine completes_port hacts (exec_creditExchange q caps s) ((creditExchange_eq hruns hst).2.2 hrole)
    ((portActs_onPort s.dev.silent q.val _).trans hact) fun hrest =>
      ⟨congrArg Port.st hentered, ⟨congrArg Port.fails hentered, congrArg Port.caps hentered, hregs, hrest⟩, hraised, hlinks⟩

theorem completes_recredited (hst : (s.dev.port q.val).st = .retrain) (hpass : (s.dev.port q.val).pass = .credit) :
    Completes (.creditExchange q caps) s (fun d => d.port q.val = { s.dev.port q.val with pass := .done, caps := caps } ∧
      QuietPort s q.val d) := by
  have heq : s.dev.silent.creditExchange q.val caps = (s.dev.silent.capped q.val caps).onPort q.val (fun x => { x with pass := .done }) := by
    have hruns' : s.dev.silent.portRuns q.val = true := hruns
    have hst' : (s.dev.silent.port q.val).st = .retrain := hst
    have hpass' : (s.dev.silent.port q.val).pass = .credit := hpass
    unfold Dev.creditExchange
    rw [hruns', hst', hpass']
    rfl
  refine completes_port hacts (exec_creditExchange q caps s) heq ((portActs_onPort s.dev.silent q.val _).trans (portActs_onPort _ q.val _))
    fun hrest => ⟨(onPort_self (d := s.dev.silent.capped q.val caps) _).trans ?_, rfl, rfl, hrest⟩
  rw [capped_port]
  rfl

theorem completes_retrained (hst : (s.dev.port q.val).st = .retrain) :
    ((s.dev.port q.val).pass = .done → Completes (.portRetrainDone q) s (fun d =>
      (d.port q.val).st = (if (s.dev.port q.val).back = true then .up else .standby) ∧ (d.port q.val).fails = 0 ∧
      d.raised = s.dev.raised ∧ (∀ r, r ≠ q.val → (d.port r).st = (s.dev.port r).st) ∧ d.mem = s.dev.mem ∧ d.cores = s.dev.cores)) ∧
    ((s.dev.port q.val).pass ≠ .done → Completes (.portRetrainDone q) s (fun d => d = { s.dev with outs := [] })) := by
  have hstep : s.dev.silent.portRetrained q.val = if (s.dev.port q.val).pass = .done then
      s.dev.silent.portEnter q.val (s.dev.port q.val).back else s.dev.silent := portStep_at (d := s.dev.silent) hruns hst _
  refine ⟨fun hpass => ?_, fun hpass => ?_⟩
  · obtain ⟨hact, ⟨b, hentered⟩, -, hraised, -⟩ := portEnter_facts s.dev.silent q.val (s.dev.port q.val).back
    exact completes_port hacts (exec_portRetrainDone q s) (hstep.trans (if_pos hpass)) hact fun hrest =>
      ⟨congrArg Port.st hentered, congrArg Port.fails hentered, hraised, hrest⟩
  · exact completes_as hacts (exec_portRetrainDone q s) (hstep.trans (if_neg hpass)) rfl ⟨rfl, rfl⟩ rfl

end

/-! ## Retraining (R421, R422) -/

section
variable (d : Dev) (q : Nat)

/-- The port with its retrain noted. -/
def Dev.retrainNoted (d : Dev) (q : Nat) : Dev := (d.onPort q (fun x => { x with
  back := decide (x.st = .up), pass := .coeffs, retrains := satAdd 8 x.retrains 1, winRetrain := x.winRetrain + 1 })).portEvent q 0x0C03

theorem retrainNoted_port : (d.retrainNoted q).port q = { d.port q with
    back := decide ((d.port q).st = .up), pass := .coeffs, retrains := satAdd 8 (d.port q).retrains 1
    winRetrain := (d.port q).winRetrain + 1, event := 0x0C03 } := by
  unfold Dev.retrainNoted
  rw [portEvent_port, if_pos rfl, onPort_self]

theorem portActs_retrainNoted : PortActs d ((d.retrainNoted q).portLeave q .retrain) q ∧
    Raises ((d.retrainNoted q).portLeave q .retrain) 0x0C03 :=
  ⟨((portActs_onPort d q _).trans (portActs_portEvent _ q _)).trans (portActs_portLeave _ q _),
    (portActs_portLeave (d.retrainNoted q) q .retrain).raises (raises_portEvent _ q 0x0C03)⟩

/-- The port in RETRAIN. -/
theorem retrainNoted_left : ∃ e b, ((d.retrainNoted q).portLeave q .retrain).port q = { d.port q with
    st := .retrain, lost := none, back := decide ((d.port q).st = .up), pass := .coeffs, retrains := satAdd 8 (d.port q).retrains 1
    winRetrain := (d.port q).winRetrain + 1, event := e, counted := b } := by
  obtain ⟨e, b, hleave⟩ := (portLeave_moved (d.retrainNoted q) q .retrain).port q
  rw [portLeft_port, if_pos rfl, retrainNoted_port] at hleave
  refine ⟨e, b, hleave.trans ?_⟩
  simp [Port.left]

theorem portRetrain_again (h : (d.port q).winRetrain < 3) : d.portRetrain q = (d.retrainNoted q).portLeave q .retrain := by
  obtain ⟨e, b, hport⟩ := retrainNoted_left d q
  refine if_neg ?_
  change ¬ 4 ≤ (((d.retrainNoted q).portLeave q .retrain).port q).winRetrain
  rw [hport]
  change ¬ 4 ≤ (d.port q).winRetrain + 1
  omega

theorem portRetrain_fails (h : 3 ≤ (d.port q).winRetrain) : d.portRetrain q = ((d.retrainNoted q).portLeave q .retrain).portFail q := by
  obtain ⟨e, b, hport⟩ := retrainNoted_left d q
  refine if_pos ?_
  change 4 ≤ (((d.retrainNoted q).portLeave q .retrain).port q).winRetrain
  rw [hport]
  change 4 ≤ (d.port q).winRetrain + 1
  omega

end

/-- A command that retrains its port. -/
theorem completes_retrains {c : Instr} {s : State} {q : PortId} {g : Dev → Dev} (hacts : Acts s)
    (hexec : exec c s = run s (fun d => (g d).settle)) (heq : g s.dev.silent = s.dev.silent.portRetrain q.val) :
    ((s.dev.port q.val).winRetrain < 3 → Completes c s (fun d =>
      (d.port q.val).st = .retrain ∧ (d.port q.val).back = decide ((s.dev.port q.val).st = .up) ∧ (d.port q.val).pass = .coeffs ∧
      (d.port q.val).retrains = min ((s.dev.port q.val).retrains + 1) 255 ∧ Raises d 0x0C03 ∧
      (∀ r, r ≠ q.val → (d.port r).st = (s.dev.port r).st) ∧ d.mem = s.dev.mem ∧ d.cores = s.dev.cores)) ∧
    (3 ≤ (s.dev.port q.val).winRetrain → Completes c s (fun d => (d.port q.val).st = .failed ∧ Raises d 0x0C03 ∧ Raises d 0x0C04 ∧
      (∀ r, r ≠ q.val → (d.port r).st = (s.dev.port r).st) ∧ d.mem = s.dev.mem ∧ d.cores = s.dev.cores)) := by
  obtain ⟨hact, hraise⟩ := portActs_retrainNoted s.dev.silent q.val
  refine ⟨fun h => ?_, fun h => ?_⟩
  · obtain ⟨e, b, hport⟩ := retrainNoted_left s.dev.silent q.val
    exact completes_port hacts hexec (heq.trans (portRetrain_again s.dev.silent q.val h)) hact fun hrest =>
      ⟨congrArg Port.st hport, congrArg Port.back hport, congrArg Port.pass hport, congrArg Port.retrains hport, hraise, hrest⟩
  · obtain ⟨hfail, hraise'⟩ := portActs_portFail ((s.dev.silent.retrainNoted q.val).portLeave q.val .retrain) q.val
    obtain ⟨hst, -⟩ := portFail_port ((s.dev.silent.retrainNoted q.val).portLeave q.val .retrain) q.val
    exact completes_port hacts hexec (heq.trans (portRetrain_fails s.dev.silent q.val h)) (hact.trans hfail) fun hrest =>
      ⟨hst, hfail.raises hraise, hraise', hrest⟩

section
variable {s : State} {q : PortId}

theorem ctrlWrite_portCtrl (h : HostReaches s ⟨.dvoPortCtrl, [q.val]⟩) (v : Word) :
    s.dev.silent.ctrlWrite .host ⟨.dvoPortCtrl, [q.val]⟩ v = s.dev.silent.portCtrl q.val v := by
  have hrwt : accMask [.rwt] RK.dvoPortCtrl = 0 := by decide
  rw [ctrlWrite_reaches (HostReaches.reaches h) (.inr (rwtMask_none s.dev hrwt)) v]
  have hdo : ∀ (d : Dev) (w : Word), d.regDo .host 0 ⟨.dvoPortCtrl, [q.val]⟩ (BitVec.allOnes 64) w = d.portCtrl q.val (w &&& BitVec.allOnes 64) :=
    fun _ _ => rfl
  rw [hdo, BitVec.and_allOnes]

end

end Sys2Proof.Machine
end

section
/-! SUPPORT. Proof of the statement about port states and the tile mesh, its end (R421, R435, R437, R438, R447). -/
namespace Sys2Proof.Machine

open Safety

/-! ## Commands of the hosting software for a port (R421, R435, R447) -/

section
variable {d : Dev} {q : Nat}

theorem portCtrl_retrain (h : (d.port q).st = .up ∨ (d.port q).st = .standby) : d.portCtrl q 1 = d.portRetrain q := by
  have heq : d.portCtrl q 1 = match (d.port q).st with
      | .up | .standby => d.portRetrain q
      | _ => d := rfl
  rcases h with h | h <;> rw [heq, h]

theorem portCtrl_release : d.portCtrl q 2 = d.portRelease q := rfl

theorem portCtrl_forceDown : d.portCtrl q 4 = d.portForceDown q := rfl

theorem portLoss_retrains (hruns : d.portRuns q = true) (h : (d.port q).st = .up ∨ (d.port q).st = .standby) : d.portLoss q = d.portRetrain q := by
  have heq : d.portLoss q = if !d.portRuns q then d else match (d.port q).st with
      | .up | .standby => d.portRetrain q
      | _ => d := rfl
  rw [hruns, if_neg (by decide)] at heq
  rcases h with h | h <;> rw [heq, h]

theorem portRelease_eq (h : (d.port q).st = .quarantine ∨ (d.port q).st = .failed) :
    d.portRelease q = (d.onPort q (fun x => { x with fails := 0, qcause := 0 })).portLeave q .detect := by
  unfold Dev.portRelease
  rcases h with h | h <;> rw [h]

end

section
variable {s : State} {q : PortId} (h : HostReaches s ⟨.dvoPortCtrl, [q.val]⟩)
include h

theorem completes_released (hst : (s.dev.port q.val).st = .quarantine ∨ (s.dev.port q.val).st = .failed) :
    Completes (.dvoRelease q) s (fun d => (d.port q.val).st = .detect ∧ (d.port q.val).fails = 0 ∧ (d.port q.val).qcause = 0 ∧
      QuietPort s q.val d) := by
  obtain ⟨hacts, -⟩ := id h
  have hup : ((s.dev.silent.onPort q.val (fun x => { x with fails := 0, qcause := 0 })).port q.val).st ≠ .up := by
    rw [onPort_self]
    intro hx
    rcases hst with hst | hst <;> cases hst.symm.trans hx
  obtain ⟨hport, hraised, hlinks, -, -⟩ := portLeave_facts hup .detect
  rw [onPort_self] at hport
  have heq := ((ctrlWrite_portCtrl h 2).trans portCtrl_release).trans (portRelease_eq (d := s.dev.silent) hst)
  exact completes_port hacts (exec_dvoRelease q s) heq ((portActs_onPort s.dev.silent q.val _).trans (portActs_portLeave _ q.val .detect))
    fun hrest => ⟨congrArg Port.st hport, congrArg Port.fails hport, congrArg Port.qcause hport, hraised, hlinks, hrest⟩

theorem completes_forcedDown : Completes (.dvoForceDown q) s (fun d => (d.port q.val).st = .detect ∧
    (∀ r, r ≠ q.val → (d.port r).st = (s.dev.port r).st) ∧ d.mem = s.dev.mem ∧ d.cores = s.dev.cores) := by
  obtain ⟨hacts, -⟩ := id h
  have heq : s.dev.silent.ctrlWrite .host ⟨.dvoPortCtrl, [q.val]⟩ 4 = s.dev.silent.portLeave q.val .detect :=
    (ctrlWrite_portCtrl h 4).trans portCtrl_forceDown
  exact completes_port hacts (exec_dvoForceDown q s) heq (portActs_portLeave s.dev.silent q.val .detect) fun hrest =>
    ⟨(portLeave_st s.dev.silent q.val .detect q.val).trans (if_pos rfl), hrest⟩

end

/-! ## A router that fails (R437, R438) -/

/-- What stops that are cut off leave alone: all of their mesh but its cut stops, the other meshes, memory and cores; what has
failed or gone out stays so. -/
structure CutActs (t : Nat) (d d' : Dev) : Prop where
  mesh : ∃ cut, d'.mesh t = { d.mesh t with cut := cut }
  others : ∀ j, j ≠ t → d'.mesh j = d.mesh j
  frame : d'.mem = d.mem ∧ d'.cores = d.cores
  due : d'.pruneDue = d.pruneDue
  pins : d'.resetN = d.resetN ∧ d'.vin = d.vin
  raised : ∃ l, d'.raised = d.raised ++ l
  ports : ∀ p, (d.port p).st = .failed → (d'.port p).st = .failed
  failed : ∀ k, (FMap.find? (d.hbmTile t).failed k).isSome = true → (FMap.find? (d'.hbmTile t).failed k).isSome = true
  outs : ∀ o ∈ d.outs, o ∈ d'.outs

/-- The stop has been cut off and answered for. -/
def CutOff (t : Nat) (d : Dev) : MeshStop → Prop
  | .port p => (d.port p.val).st = .failed
  | .hbm ch => (FMap.find? (d.hbmTile t).failed ch.val).isSome = true
  | .cluster g => Out.sent 0x207 [t, 0, g.val] ∈ d.outs
  | .die k => Out.sent 0x207 [t, 1, k.val] ∈ d.outs

namespace CutActs

variable {t : Nat} {d d' d'' : Dev}

theorem refl (t : Nat) (d : Dev) : CutActs t d d :=
  ⟨⟨_, rfl⟩, fun _ _ => rfl, ⟨rfl, rfl⟩, rfl, ⟨rfl, rfl⟩, ⟨[], (List.append_nil _).symm⟩, fun _ h => h, fun _ h => h, fun _ h => h⟩

theorem trans (h : CutActs t d d') (h' : CutActs t d' d'') : CutActs t d d'' := by
  obtain ⟨l, hl⟩ := h.raised
  obtain ⟨l', hl'⟩ := h'.raised
  obtain ⟨cut, hcut⟩ := h.mesh
  obtain ⟨cut', hcut'⟩ := h'.mesh
  exact ⟨⟨cut', by rw [hcut', hcut]⟩, fun j hj => (h'.others j hj).trans (h.others j hj),
    ⟨h'.frame.1.trans h.frame.1, h'.frame.2.trans h.frame.2⟩, h'.due.trans h.due, ⟨h'.pins.1.trans h.pins.1, h'.pins.2.trans h.pins.2⟩,
    ⟨l ++ l', by rw [hl', hl, List.append_assoc]⟩, fun p hp => h'.ports p (h.ports p hp), fun k hk => h'.failed k (h.failed k hk),
    fun o ho => h'.outs o (h.outs o ho)⟩

theorem cutOff (h : CutActs t d d') : ∀ x : MeshStop, CutOff t d x → CutOff t d' x
  | .port p => h.ports p.val
  | .hbm ch => h.failed ch.val
  | .cluster _ => h.outs _
  | .die _ => h.outs _

/-- The other meshes and the stops stand, when only ports and reports move. -/
theorem ofPortsMoved (h : PortsMoved d d') (hp : ∀ p, (d.port p).st = .failed → (d'.port p).st = .failed) : CutActs t d d' := by
  have hrest := h.rest
  refine ⟨⟨(d.mesh t).cut, ?_⟩, fun j _ => ?_, ⟨?_, ?_⟩, ?_, ⟨?_, ?_⟩, h.raised, hp, fun k hk => ?_, fun o ho => ?_⟩
  · rw [hrest]
    rfl
  · rw [hrest]
    rfl
  · rw [hrest]
  · rw [hrest]
  · rw [hrest]
  · rw [hrest]
  · rw [hrest]
  · rw [hrest]
    exact hk
  · rw [hrest]
    exact ho

theorem ofReported (h : Reported d d') : CutActs t d d' := by
  have hrest := h.rest
  refine ⟨⟨(d.mesh t).cut, ?_⟩, fun j _ => ?_, ⟨?_, ?_⟩, ?_, ⟨?_, ?_⟩, h.raised, fun p hp => ?_, fun k hk => ?_, fun o ho => ?_⟩
  · rw [hrest]
    rfl
  · rw [hrest]
    rfl
  · rw [hrest]
  · rw [hrest]
  · rw [hrest]
  · rw [hrest]
  · rw [hrest]
  · rw [hrest]
    exact hp
  · rw [hrest]
    exact hk
  · rw [hrest]
    exact ho

end CutActs

section
variable (d : Dev) (t : Nat)

theorem cutActs_raise (code : Nat) (part : Option Nat) (unit : Nat) : CutActs t d (d.raise code part unit) :=
  ⟨⟨_, rfl⟩, fun _ _ => rfl, ⟨rfl, rfl⟩, rfl, ⟨rfl, rfl⟩, ⟨_, rfl⟩, fun _ h => h, fun _ h => h, fun _ h => h⟩

/-- The stop stands among those that are cut off. -/
def Dev.cutNoted (d : Dev) (t : Nat) (x : MeshStop) : Dev := d.onMesh t (fun m => { m with cut := m.cut ++ [x] })

theorem cutActs_cutNoted (x : MeshStop) : CutActs t d (d.cutNoted t x) :=
  ⟨⟨_, (Dev.onMesh_get d t t _).trans (if_pos rfl)⟩, fun j hj => (Dev.onMesh_get d t j _).trans (if_neg (Ne.symm hj)), ⟨rfl, rfl⟩, rfl,
    ⟨rfl, rfl⟩, ⟨[], (List.append_nil _).symm⟩, fun _ h => h, fun _ h => h, fun _ h => h⟩

theorem cutActs_portFail (q : Nat) : CutActs t d (d.portFail q) := by
  have hleave : CutActs t d (d.portLeave q .failed) := by
    refine CutActs.ofPortsMoved (portsMoved_portLeave d q .failed) fun p hp => ?_
    rw [portLeave_st]
    split
    · rfl
    · exact hp
  have hnoted : CutActs t (d.portLeave q .failed) (d.portNoted q) := by
    refine ⟨⟨_, rfl⟩, fun _ _ => rfl, ⟨rfl, rfl⟩, rfl, ⟨rfl, rfl⟩, ⟨[], (List.append_nil _).symm⟩, fun p hp => ?_, fun _ h => h, fun _ h => h⟩
    unfold Dev.portNoted
    rw [Dev.onPort_get]
    split
    case isTrue h =>
      subst h
      exact hp
    case isFalse => exact hp
  exact ((hleave.trans hnoted).trans (cutActs_raise _ t _ _ _)).trans (CutActs.ofReported (portFail_reported d q))

theorem cutActs_out (o : Out) : CutActs t d (d.out o) ∧ o ∈ (d.out o).outs :=
  ⟨⟨⟨_, rfl⟩, fun _ _ => rfl, ⟨rfl, rfl⟩, rfl, ⟨rfl, rfl⟩, ⟨[], (List.append_nil _).symm⟩, fun _ h => h, fun _ h => h,
    fun _ h => List.mem_append_left _ h⟩, List.mem_append_right _ (List.mem_singleton_self o)⟩

/-- The interface is to be mapped out. -/
def HbmTile.lose (h : HbmTile) (ch : Nat) (due : Due) : HbmTile :=
  if (FMap.find? h.failed ch).isSome then h else { h with failed := FMap.insert h.failed ch due }

theorem find?_lose (h : HbmTile) (ch : Nat) (due : Due) :
    (FMap.find? (h.lose ch due).failed ch).isSome = true ∧
      ∀ k, (FMap.find? h.failed k).isSome = true → (FMap.find? (h.lose ch due).failed k).isSome = true := by
  unfold HbmTile.lose
  split
  case isTrue hsome => exact ⟨hsome, fun _ h => h⟩
  case isFalse =>
    refine ⟨?_, fun k hk => ?_⟩ <;> dsimp only <;> rw [FMap.find?_insert]
    · rw [if_pos rfl]
      rfl
    · split
      · rfl
      · exact hk

theorem cutActs_lose (ch : Nat) (due : Due) : CutActs t d (d.onHbm t (fun h => h.lose ch due)) ∧
    (FMap.find? ((d.onHbm t (fun h => h.lose ch due)).hbmTile t).failed ch).isSome = true := by
  have hget : (d.onHbm t (fun h => h.lose ch due)).hbmTile t = (d.hbmTile t).lose ch due := (Dev.onHbm_get d t t _).trans (if_pos rfl)
  obtain ⟨hself, hkeep⟩ := find?_lose (d.hbmTile t) ch due
  refine ⟨⟨⟨_, rfl⟩, fun _ _ => rfl, ⟨rfl, rfl⟩, rfl, ⟨rfl, rfl⟩, ⟨[], (List.append_nil _).symm⟩, fun _ h => h, fun k hk => ?_,
    fun _ h => h⟩, ?_⟩
  · rw [hget]
    exact hkeep k hk
  · rw [hget]
    exact hself

/-- The stop is answered for. -/
theorem cutActs_stopCut : ∀ x : MeshStop, CutActs t d (d.stopCut t x) ∧ CutOff t (d.stopCut t x) x
  | .port q => ⟨(cutActs_cutNoted d t _).trans (cutActs_portFail _ t q.val), (portFail_port (d.cutNoted t (.port q)) q.val).1⟩
  | .hbm ch => by
    obtain ⟨hacts, hcut⟩ := cutActs_lose (d.cutNoted t (.hbm ch)) t ch.val ((d.cutNoted t (.hbm ch)).dueOf (d.tilePart t))
    exact ⟨(cutActs_cutNoted d t _).trans hacts, hcut⟩
  | .cluster g => by
    obtain ⟨hacts, hcut⟩ := cutActs_out (d.cutNoted t (.cluster g)) t (.sent 0x207 [t, 0, g.val])
    exact ⟨(cutActs_cutNoted d t _).trans hacts, hcut⟩
  | .die k => by
    obtain ⟨hacts, hcut⟩ := cutActs_out (d.cutNoted t (.die k)) t (.sent 0x207 [t, 1, k.val])
    exact ⟨(cutActs_cutNoted d t _).trans hacts, hcut⟩

/-- A port that is not the stop keeps its state. -/
theorem stopCut_port {p : PortId} : ∀ x : MeshStop, x ≠ .port p → ((d.stopCut t x).port p.val).st = (d.port p.val).st
  | .port q, h => (portActs_portFail (d.cutNoted t (.port q)) q.val).1.others p.val fun hp => h (congrArg MeshStop.port (Fin.ext hp.symm))
  | .hbm _, _ => rfl
  | .cluster _, _ => rfl
  | .die _, _ => rfl

/-- All of the stops are answered for, and no other port moves. -/
theorem stopsCut_facts (stops : List (MeshStop × Fin 8 × Fin 8)) : ∀ d : Dev,
    CutActs t d (stops.foldl (fun d x => d.stopCut t x.1) d) ∧
    (∀ x ∈ stops, CutOff t (stops.foldl (fun d x => d.stopCut t x.1) d) x.1) ∧
    ∀ p : PortId, (∀ x ∈ stops, x.1 ≠ .port p) → ((stops.foldl (fun d x => d.stopCut t x.1) d).port p.val).st = (d.port p.val).st := by
  induction stops with
  | nil => exact fun d => ⟨CutActs.refl t d, fun _ h => absurd h List.not_mem_nil, fun _ _ => rfl⟩
  | cons x stops ih =>
    intro d
    obtain ⟨hacts, hcut⟩ := cutActs_stopCut d t x.1
    obtain ⟨hacts', hall, hports⟩ := ih (d.stopCut t x.1)
    refine ⟨hacts.trans hacts', List.forall_mem_cons.2 ⟨hacts'.cutOff x.1 hcut, hall⟩, fun p hp => ?_⟩
    obtain ⟨hx, hstops⟩ := List.forall_mem_cons.1 hp
    exact (hports p hstops).trans (stopCut_port d t x.1 hx)

end

/-- The mesh with its router's failure recorded. -/
def Dev.routerNoted (d : Dev) (t col row : Nat) : Dev :=
  let spare := decide ((d.mesh t).shift = 8) && decide ((d.mesh t).shiftDue = .no)
  d.onMesh t (fun x => { x with
    failCol := col, failRow := row, fails := min 15 (x.fails + 1), detourDue := true, failed := x.failed ++ [(col, row)]
    shiftCol := if spare then col else x.shiftCol
    shiftDue := if spare then d.dueOf (d.tilePart t) else x.shiftDue })

/-- The failure is reported. -/
def Dev.routerReported (d : Dev) (t col row : Nat) : Dev :=
  (d.routerNoted t col row).faultDevice 0x0C0A t
    ((d.routerNoted t col row).ownedParts.filter (fun p => p = (d.routerNoted t col row).tilePart t)) [.router t]

theorem routerFail_eq (d : Dev) (t col row : Nat) (stops : List (MeshStop × Fin 8 × Fin 8)) : d.routerFail t col row stops =
    (stops.filter (fun x => ((d.routerReported t col row).mesh t).cutOff x.2.1.val x.2.2.val)).foldl (fun d x => d.stopCut t x.1)
      (d.routerReported t col row) := rfl

/-- What the recorded failure leaves. -/
structure RouterActs (d d' : Dev) (t col row : Nat) : Prop where
  mesh : (d'.mesh t).failCol = col ∧ (d'.mesh t).failRow = row ∧ (d'.mesh t).fails = min 15 ((d.mesh t).fails + 1) ∧
    (d'.mesh t).detourDue = true ∧ (d'.mesh t).shift = (d.mesh t).shift ∧ (d'.mesh t).failed = (d.mesh t).failed ++ [(col, row)]
  spare : (d.mesh t).shift = 8 ∧ (d.mesh t).shiftDue = .no → (d'.mesh t).shiftCol = col ∧ (d'.mesh t).shiftDue = d.dueOf (d.tilePart t)
  full : ¬ ((d.mesh t).shift = 8 ∧ (d.mesh t).shiftDue = .no) →
    (d'.mesh t).shiftCol = (d.mesh t).shiftCol ∧ (d'.mesh t).shiftDue = (d.mesh t).shiftDue
  others : ∀ j, j ≠ t → d'.mesh j = d.mesh j
  raises : Raises d' 0x0C0A
  ports : ∀ p, (d'.port p).st = (d.port p).st
  frame : d'.mem = d.mem ∧ d'.cores = d.cores
  due : d'.pruneDue = d.pruneDue
  pins : d'.resetN = d.resetN ∧ d'.vin = d.vin

theorem routerActs (d : Dev) (t col row : Nat) : RouterActs d (d.routerReported t col row) t col row := by
  have hreported : Reported ((d.routerNoted t col row).raise 0x0C0A none t) (d.routerReported t col row) :=
    reported_faultDevice (d.routerNoted t col row) 0x0C0A t _ [.router t]
  have hrest := hreported.rest
  have hmesh : ∀ j, (d.routerReported t col row).mesh j = (d.routerNoted t col row).mesh j := fun j => by
    rw [hrest]
    rfl
  have hself : (d.routerNoted t col row).mesh t = _ := (Dev.onMesh_get d t t _).trans (if_pos rfl)
  have hothers : ∀ j, j ≠ t → (d.routerNoted t col row).mesh j = d.mesh j := fun j hj =>
    (Dev.onMesh_get d t j _).trans (if_neg (Ne.symm hj))
  refine ⟨?_, fun h => ?_, fun h => ?_, fun j hj => (hmesh j).trans (hothers j hj), hreported.raises (raises_raise _ _ _ _), fun p => ?_,
    ⟨?_, ?_⟩, ?_, ⟨?_, ?_⟩⟩
  · rw [hmesh t, hself]
    exact ⟨rfl, rfl, rfl, rfl, rfl, rfl⟩
  · rw [hmesh t, hself]
    obtain ⟨hshift, hdue⟩ := h
    rw [hshift, hdue]
    exact ⟨rfl, rfl⟩
  · have hspare : (decide ((d.mesh t).shift = 8) && decide ((d.mesh t).shiftDue = .no)) = false :=
      Bool.eq_false_iff.2 fun hb => h (by simpa using hb)
    rw [hmesh t, hself, hspare]
    exact ⟨rfl, rfl⟩
  all_goals
    rw [hrest]
    rfl

/-- A router's failure, with the stops that it cuts off. -/
theorem completes_routerFail {s : State} (hacts : Acts s) (t : TileId) (col : Fin 9) (r : Fin 8) (stops : List (MeshStop × Fin 8 × Fin 8)) :
    Completes (.dvoRouterFail t col r stops) s (fun d => ∃ d1 cut, RouterActs s.dev.silent d1 t.val col.val r.val ∧
      d.mesh t.val = { d1.mesh t.val with cut := cut } ∧ (∀ j, j ≠ t.val → d.mesh j = s.dev.mesh j) ∧ Raises d 0x0C0A ∧
      (∀ x ∈ stops, (d.mesh t.val).cutOff x.2.1.val x.2.2.val = true → CutOff t.val d x.1) ∧
      (∀ p : PortId, (∀ x ∈ stops, x.1 = .port p → (d.mesh t.val).cutOff x.2.1.val x.2.2.val = false) →
        (d.port p.val).st = (s.dev.port p.val).st) ∧ d.mem = s.dev.mem ∧ d.cores = s.dev.cores) := by
  have hrouter := routerActs s.dev.silent t.val col.val r.val
  have heq := routerFail_eq s.dev.silent t.val col.val r.val stops
  generalize s.dev.silent.routerReported t.val col.val r.val = y at *
  obtain ⟨hcuts, hall, hports⟩ := stopsCut_facts t.val (stops.filter (fun x => (y.mesh t.val).cutOff x.2.1.val x.2.2.val)) y
  generalize (stops.filter (fun x => (y.mesh t.val).cutOff x.2.1.val x.2.2.val)).foldl (fun d x => d.stopCut t.val x.1) y = y' at *
  obtain ⟨cut, hmesh⟩ := hcuts.mesh
  have hoff : ∀ c r, (y'.mesh t.val).cutOff c r = (y.mesh t.val).cutOff c r := fun c r => by
    rw [hmesh]
    rfl
  obtain ⟨z, hz, hcode⟩ := hrouter.raises
  obtain ⟨l, hl⟩ := hcuts.raised
  refine completes_as hacts (exec_dvoRouterFail t col r stops s) heq (hcuts.due.trans hrouter.due)
    ⟨hcuts.pins.1.trans hrouter.pins.1, hcuts.pins.2.trans hrouter.pins.2⟩
    ⟨y, cut, hrouter, hmesh, fun j hj => (hcuts.others j hj).trans (hrouter.others j hj),
      ⟨z, by rw [hl]; exact List.mem_append_left l hz, hcode⟩, fun x hx hc => ?_, fun p hp => ?_, hcuts.frame.1.trans hrouter.frame.1,
      hcuts.frame.2.trans hrouter.frame.2⟩
  · rw [hoff] at hc
    exact hall x (List.mem_filter.2 ⟨hx, hc⟩)
  · refine (hports p fun x hx hport => ?_).trans (hrouter.ports p.val)
    obtain ⟨hmem, hc⟩ := List.mem_filter.1 hx
    have hfree := hp x hmem hport
    rw [hoff] at hfree
    exact absurd (hfree.symm.trans hc) (by decide)

/-- Settles O48: by the transition that each command makes of its port's state; what a transition leaves alone is one relation
for all of them (`PortActs`), and so is what a cut stop leaves alone (`CutActs`). -/
theorem portStates : Obligations.PortStates := by
  unfold Obligations.PortStates
  refine ⟨fun q s => ?_, fun t col r stops s hacts => ?_⟩
  · refine ⟨fun hacts hruns => ⟨completes_signal hacts hruns, completes_trained hacts hruns, completes_aligned hacts hruns, ?_,
      completes_realigned hacts hruns, fun i hst => ⟨fun hown hl hfits => ?_, fun hown hl hfits => ?_, fun hown => ?_⟩,
      fun caps hst => ⟨completes_credited hacts hruns hst, completes_skewed hacts hruns hst, completes_spare hacts hruns hst⟩,
      fun caps => completes_recredited hacts hruns, fun hst => (completes_retrained hacts hruns hst).1,
      fun hst => (completes_retrained hacts hruns hst).2⟩, ?_, fun h => ⟨completes_released h, completes_forcedDown h⟩⟩
    · exact List.forall_mem_cons.2 ⟨fun hst => completes_timeout (st := .train) hacts hruns hst (by decide) (exec_portTrainTimeout q s),
        List.forall_mem_cons.2 ⟨fun hst => completes_timeout (st := .retrain) hacts hruns hst (by decide) (exec_portRetrainTimeout q s),
          fun _ h => absurd h List.not_mem_nil⟩⟩
    · exact completes_identified hacts hruns hst hown hl hfits
    · exact completes_blamed hacts hruns hst (fun go => identCheck_strange (d := s.dev.silent) hown hl hfits go) (by decide) fun _ => rfl
    · exact completes_blamed hacts hruns hst (fun go => identCheck_own (d := s.dev.silent) hown go) (by decide) fun _ => rfl
    · refine List.forall_mem_cons.2 ⟨fun h hst => ?_, List.forall_mem_cons.2 ⟨fun h hst => ?_, fun _ h => absurd h List.not_mem_nil⟩⟩
      · obtain ⟨hacts, hruns⟩ := h
        exact completes_retrains hacts (exec_portLossOfLock q s) (portLoss_retrains (d := s.dev.silent) hruns hst)
      · obtain ⟨hacts, -⟩ := id h
        exact completes_retrains hacts (exec_dvoRetrain q s) ((ctrlWrite_portCtrl h 1).trans (portCtrl_retrain (d := s.dev.silent) hst))
  · obtain ⟨s', hexec, hpending, d1, cut, hrouter, hmesh, hothers, hraise, hcut, hports, hframe⟩ := completes_routerFail hacts t col r stops
    refine ⟨s', hexec, hpending, ?_⟩
    obtain ⟨hcol, hrow, hfails, hdetour, hshift, hfailed⟩ := hrouter.mesh
    dsimp only
    refine ⟨?_, ?_, ?_, ?_, ?_, ?_, fun h => ?_, fun h => ?_, hothers, hraise, fun x hx hc => ?_, hports, hframe⟩
    · rw [hmesh]
      exact hcol
    · rw [hmesh]
      exact hrow
    · rw [hmesh]
      exact hfails
    · rw [hmesh]
      exact hdetour
    · rw [hmesh]
      exact hshift
    · rw [hmesh]
      exact hfailed
    · rw [hmesh]
      exact hrouter.spare h
    · rw [hmesh]
      exact hrouter.full h
    · have hoff := hcut x hx hc
      obtain ⟨stop, c, r⟩ := x
      cases stop <;> exact hoff

end Sys2Proof.Machine
end

section
/-! SUPPORT. Proof of the statement about packets of a link (R417, R419, R420, R424 to R427). -/
namespace Sys2Proof.Machine

open Safety

/-! ## What leaves the packets of every link alone -/

/-- Memory, cores and ports stand, and of a link at most the count of its receiver's cells moves; outputs are added. -/
structure Wires (d d' : Dev) : Prop where
  link : ∀ j, ∃ u f, d'.link j = { d.link j with used := u, freed := f }
  frame : d'.mem = d.mem ∧ d'.cores = d.cores ∧ d'.ports = d.ports
  due : d'.pruneDue = d.pruneDue
  pins : d'.resetN = d.resetN ∧ d'.vin = d.vin
  outs : ∀ o ∈ d.outs, o ∈ d'.outs

namespace Wires

variable {d d' d'' : Dev}

theorem refl (d : Dev) : Wires d d := ⟨fun _ => ⟨_, _, rfl⟩, ⟨rfl, rfl, rfl⟩, rfl, ⟨rfl, rfl⟩, fun _ h => h⟩

theorem trans (h : Wires d d') (h' : Wires d' d'') : Wires d d'' := by
  obtain ⟨hmem, hcores, hports⟩ := h.frame
  obtain ⟨hmem', hcores', hports'⟩ := h'.frame
  refine ⟨fun j => ?_, ⟨hmem'.trans hmem, hcores'.trans hcores, hports'.trans hports⟩, h'.due.trans h.due,
    ⟨h'.pins.1.trans h.pins.1, h'.pins.2.trans h.pins.2⟩, fun o ho => h'.outs o (h.outs o ho)⟩
  obtain ⟨u, f, hl⟩ := h.link j
  obtain ⟨u', f', hl'⟩ := h'.link j
  exact ⟨u', f', by rw [hl', hl]⟩

end Wires

section
variable (d : Dev)

theorem wires_out (o : Out) : Wires d (d.out o) :=
  ⟨fun _ => ⟨_, _, rfl⟩, ⟨rfl, rfl, rfl⟩, rfl, ⟨rfl, rfl⟩, fun _ h => List.mem_append_left _ h⟩

theorem wires_cellsFree (l key n : Nat) : Wires d (d.cellsFree l key n) := by
  let y : Dev := d.onLink l (fun x => { x with
    used := FMap.set x.used 0 key (FMap.getD x.used key 0 - n)
    freed := FMap.set x.freed 0 key ((FMap.getD x.freed key 0 + n) % 2 ^ 32) })
  have hy : Wires d y := by
    refine ⟨fun j => ?_, ⟨rfl, rfl, rfl⟩, rfl, ⟨rfl, rfl⟩, fun _ h => h⟩
    by_cases h : l = j
    · subst h
      exact ⟨_, _, (Dev.onLink_get d l l _).trans (if_pos rfl)⟩
    · exact ⟨_, _, (Dev.onLink_get d l j _).trans (if_neg h)⟩
  unfold Dev.cellsFree
  dsimp only
  split
  · exact hy
  · exact hy.trans (wires_out y _)

theorem wires_originFree (x : QPkt) : Wires d (d.originFree x) := by
  unfold Dev.originFree
  split
  · exact wires_cellsFree d _ _ _
  · exact Wires.refl d

theorem wires_cvuPacket {q : Nat} (hq : q < 24) {dir : Nat} (hdir : dir ≠ 0) (vc : Nat) (payload : List Byte) :
    Wires d (d.cvuPacket q dir vc payload) := by
  have hheard := heard_cvuPacket d hq hdir vc payload
  have hrest := hheard.rest
  refine ⟨fun j => ⟨(d.link j).used, (d.link j).freed, ?_⟩, ⟨?_, ?_, ?_⟩, ?_, ⟨?_, ?_⟩, fun o ho => ?_⟩
  · rw [hrest]
    rfl
  · rw [hrest]
  · rw [hrest]
  · rw [hrest]
  · rw [hrest]
  · rw [hrest]
  · rw [hrest]
  · rw [outs_cvuPacket]
    exact ho

end

/-! ## Sending (R419, R425) -/

/-- The link with a packet of its retry storage sent again. -/
def Link.resent (x : Link) (q sq : Nat) : Link := { x with
  resend := x.resend.erase sq, unacked := x.unacked.map (fun w => if w.seq = sq then { w with port := q } else w) }

/-- The link with its next packet sent. -/
def Link.sentNext (x : Link) (q i : Nat) (e : QPkt) : Link := { x with
  txq := x.txq.eraseIdx i
  unacked := x.unacked ++ [{ seq := x.sendSeq, port := q, pkt := e.pkt }]
  sendSeq := (x.sendSeq + 1) % 65536
  sent := FMap.set x.sent 0 e.pkt.key ((FMap.getD x.sent e.pkt.key 0 + e.pkt.cells) % 2 ^ 32)
  avail := FMap.set x.avail 0 e.pkt.key (FMap.getD x.avail e.pkt.key 0 - (e.pkt.cells : Nat)) }

section
variable {d : Dev} {q l : Nat} (hcarry : d.carrying q = some l)

theorem replay_eq {sq : Nat} {u : SeqPkt} (h : (d.link l).unacked.find? (fun u => u.seq = sq) = some u) :
    d.replay q l sq = (d.onLink l (fun x => x.resent q sq)).out (.packet q sq u.pkt) := by
  unfold Dev.replay
  dsimp only
  rw [h]
  rfl

theorem transmitNext_eq {vc i : Nat} {e : QPkt} (hnext : d.nextOf l vc = some i) (he : (d.link l).txq[i]? = some e) :
    d.transmitNext q l vc = (((d.onLink l (fun x => x.sentNext q i e)).originFree e).cvuPacket q 1 vc e.pkt.payload).out
      (.packet q (d.link l).sendSeq e.pkt) := by
  unfold Dev.transmitNext
  dsimp only
  rw [hnext]
  dsimp only [Option.bind]
  rw [he]
  rfl

include hcarry

/-- A packet of the retry storage goes before every new one but those of VC0. -/
theorem packetTransmit_replays {vc sq : Nat} {rest : List Nat} {u : SeqPkt} (hresend : (d.link l).resend = sq :: rest)
    (hfind : (d.link l).unacked.find? (fun u => u.seq = sq) = some u)
    (hturn : u.pkt.vc % 4 = 0 ∨ (d.nextOf l 0 = none ∧ ∀ w ∈ (d.link l).unacked, w.seq ∈ (d.link l).resend → w.pkt.vc % 4 ≠ 0)) :
    d.packetTransmit q vc = d.replay q l sq := by
  unfold Dev.packetTransmit
  rw [hcarry]
  dsimp only
  rcases hturn with hzero | ⟨hnone, hother⟩
  · have hz : (d.link l).resend.find? (fun s => (d.link l).unacked.any (fun u => decide (u.seq = s) && decide (u.pkt.vc % 4 = 0))) = some sq := by
      rw [hresend]
      refine List.find?_cons_of_pos (List.any_eq_true.2 ⟨u, List.mem_of_find?_eq_some hfind, ?_⟩)
      have hseq := List.find?_some hfind
      simp only [decide_eq_true_eq] at hseq
      simp [hseq, hzero]
    rw [hz]
  · have hz : (d.link l).resend.find? (fun s => (d.link l).unacked.any (fun u => decide (u.seq = s) && decide (u.pkt.vc % 4 = 0))) = none := by
      refine List.find?_eq_none.2 fun s hs hany => ?_
      obtain ⟨w, hw, hbits⟩ := List.any_eq_true.1 hany
      simp only [Bool.and_eq_true, decide_eq_true_eq] at hbits
      exact hother w hw (hbits.1 ▸ hs) hbits.2
    rw [hz, hnone, hresend]
    rfl

/-- A new packet of VC0. -/
theorem packetTransmit_zero {i : Nat} (hresend : (d.link l).resend = []) (hnext : d.nextOf l 0 = some i) :
    d.packetTransmit q 0 = d.transmitNext q l 0 := by
  unfold Dev.packetTransmit
  rw [hcarry]
  dsimp only
  rw [hresend, hnext]
  rfl

/-- A new packet of the VC whose turn it is. -/
theorem packetTransmit_turn {vc : Nat} {a : Arb} (hresend : (d.link l).resend = []) (hnone : d.nextOf l 0 = none)
    (hturn : d.arbTurn q l = some (vc, a)) :
    d.packetTransmit q vc = (d.onPort q (fun x => { x with arb := a })).transmitNext q l vc := by
  unfold Dev.packetTransmit
  rw [hcarry]
  dsimp only
  rw [hresend, hnone]
  dsimp only [List.find?, Option.isSome]
  rw [if_neg (by decide), hturn]
  dsimp only
  rw [if_pos rfl]

end

/-- The round robin's place on a port is no part of what may be sent. -/
def Dev.withArb (d : Dev) (q : Nat) (a : Arb) : Dev := d.onPort q (fun x => { x with arb := a })

theorem upMembers_withArb (d : Dev) (q : Nat) (a : Arb) (l : Nat) : (d.withArb q a).upMembers l = d.upMembers l := by
  have hport : ∀ r, ((d.withArb q a).port r).carries = (d.port r).carries := fun r => by
    unfold Dev.withArb
    rw [Dev.onPort_get]
    split
    case isTrue h =>
      subst h
      rfl
    case isFalse => rfl
  unfold Dev.upMembers
  refine List.filter_congr fun r _ => ?_
  rw [hport r]
  rfl

theorem sendable_withArb (d : Dev) (q : Nat) (a : Arb) (l : Nat) (p : Packet) : (d.withArb q a).sendable l p = d.sendable l p := by
  unfold Dev.sendable
  rw [upMembers_withArb]
  rfl

theorem nextOf_withArb (d : Dev) (q : Nat) (a : Arb) (l vc : Nat) : (d.withArb q a).nextOf l vc = d.nextOf l vc := by
  have hlink : (d.withArb q a).link l = d.link l := rfl
  unfold Dev.nextOf
  rw [hlink]
  simp only [sendable_withArb]

theorem withArb_st (d : Dev) (q : Nat) (a : Arb) (r : Nat) : ((d.withArb q a).port r).st = (d.port r).st := by
  unfold Dev.withArb
  rw [Dev.onPort_get]
  split
  case isTrue h =>
    subst h
    rfl
  case isFalse => rfl

/-! The outputs that wait are no part of what may be sent. -/

theorem nextOf_silent (d : Dev) (l v : Nat) : d.silent.nextOf l v = d.nextOf l v := rfl

theorem arbReady_silent (d : Dev) (l : Nat) : d.silent.arbReady l = d.arbReady l := rfl

theorem arbSize_silent (d : Dev) (l v : Nat) : d.silent.arbSize l v = d.arbSize l v := rfl

theorem arbNext_silent (d : Dev) (l : Nat) (ready : List Nat) (n : Nat) : ∀ a, d.silent.arbNext l ready a n = d.arbNext l ready a n := by
  induction n with
  | zero => exact fun _ => rfl
  | succ n ih =>
    intro a
    unfold Dev.arbNext
    simp only [ih, arbSize_silent]
    rfl

theorem arbTurn_silent (d : Dev) (q l : Nat) : d.silent.arbTurn q l = d.arbTurn q l := by
  unfold Dev.arbTurn
  simp only [arbReady_silent, arbNext_silent]
  rfl

/-- A new packet has gone out on its port: the queue, the retry storage and the numbers of its link, and what stands. -/
structure SentNext (d y : Dev) (q l i : Nat) (e : QPkt) : Prop where
  link : ∃ u f, y.link l = { (d.link l).sentNext q i e with used := u, freed := f }
  frame : y.mem = d.mem ∧ y.cores = d.cores
  due : y.pruneDue = d.pruneDue
  pins : y.resetN = d.resetN ∧ y.vin = d.vin
  ports : ∀ r, (y.port r).st = (d.port r).st

section
variable {d : Dev} {q l vc i : Nat} {e : QPkt}

theorem transmitNext_facts (hq : q < 24) (hnext : d.nextOf l vc = some i) (he : (d.link l).txq[i]? = some e) :
    ∃ y, d.transmitNext q l vc = y.out (.packet q (d.link l).sendSeq e.pkt) ∧ SentNext d y q l i e := by
  have hwires : Wires (d.onLink l (fun x => x.sentNext q i e))
      (((d.onLink l (fun x => x.sentNext q i e)).originFree e).cvuPacket q 1 vc e.pkt.payload) :=
    (wires_originFree _ e).trans (wires_cvuPacket _ hq (by decide) vc e.pkt.payload)
  have heq := transmitNext_eq (q := q) hnext he
  generalize ((d.onLink l (fun x => x.sentNext q i e)).originFree e).cvuPacket q 1 vc e.pkt.payload = y at *
  obtain ⟨u, f, hlink⟩ := hwires.link l
  rw [Dev.onLink_get, if_pos rfl] at hlink
  obtain ⟨hmem, hcores, hports⟩ := hwires.frame
  refine ⟨y, heq, ⟨u, f, hlink⟩, ⟨hmem, hcores⟩, hwires.due, hwires.pins, fun r => ?_⟩
  unfold Dev.port
  rw [hports]
  rfl

theorem packetTransmit_sends (hq : q < 24) (hcarry : d.carrying q = some l) (hresend : (d.link l).resend = [])
    (hturn : vc = 0 ∨ (d.nextOf l 0 = none ∧ (d.arbTurn q l).map Prod.fst = some vc)) (hnext : d.nextOf l vc = some i)
    (he : (d.link l).txq[i]? = some e) :
    ∃ y, d.packetTransmit q vc = y.out (.packet q (d.link l).sendSeq e.pkt) ∧ SentNext d y q l i e := by
  rcases hturn with rfl | ⟨hnone, hturn⟩
  · rw [packetTransmit_zero hcarry hresend hnext]
    exact transmitNext_facts hq hnext he
  · obtain ⟨⟨v, a⟩, ha, hv⟩ := Option.map_eq_some_iff.1 hturn
    obtain rfl : v = vc := hv
    obtain ⟨y, heq, hsent⟩ := transmitNext_facts (d := d.withArb q a) hq ((nextOf_withArb d q a l v).trans hnext) he
    exact ⟨y, (packetTransmit_turn hcarry hresend hnone ha).trans heq, hsent.link, hsent.frame, hsent.due, hsent.pins,
      fun r => (hsent.ports r).trans (withArb_st d q a r)⟩

end

section
variable {s : State} {q : PortId} {l : Nat} {es : ReadErrs} (hacts : Acts s) (hcarry : s.dev.carrying q.val = some l)

include hacts hcarry

theorem completes_replayed {vc : Fin 4} {sq : Nat} {rest : List Nat} {u : SeqPkt} (hresend : (s.dev.link l).resend = sq :: rest)
    (hfind : (s.dev.link l).unacked.find? (fun u => u.seq = sq) = some u)
    (hturn : u.pkt.vc % 4 = 0 ∨
      (s.dev.nextOf l 0 = none ∧ ∀ w ∈ (s.dev.link l).unacked, w.seq ∈ (s.dev.link l).resend → w.pkt.vc % 4 ≠ 0)) :
    Completes (.packetTransmit (some q) vc es) s (fun d => d.outs = [.packet q.val sq u.pkt] ∧ (d.link l).resend = rest ∧
      (d.link l).txq = (s.dev.link l).txq ∧ (d.link l).sendSeq = (s.dev.link l).sendSeq ∧ (d.link l).avail = (s.dev.link l).avail ∧
      (∀ j, j ≠ l → d.link j = s.dev.link j) ∧ d.mem = s.dev.mem ∧ d.cores = s.dev.cores ∧ d.ports = s.dev.ports) := by
  have heq := (packetTransmit_replays (d := s.dev.silent) (vc := vc.val) hcarry hresend hfind hturn).trans (replay_eq hfind)
  have hlink : ∀ j, ((s.dev.silent.onLink l (fun x => x.resent q.val sq)).out (.packet q.val sq u.pkt)).link j =
      if l = j then (s.dev.link l).resent q.val sq else s.dev.link j :=
    fun j => Dev.onLink_get s.dev.silent l j (fun x => x.resent q.val sq)
  refine completes_as hacts (exec_packetTransmit (some q) vc es s) heq rfl ⟨rfl, rfl⟩ ⟨rfl, ?_, ?_, ?_, ?_, fun j hj => ?_, rfl, rfl, rfl⟩
  · rw [hlink l, if_pos rfl]
    change (s.dev.link l).resend.erase sq = rest
    rw [hresend]
    exact List.erase_cons_head sq rest
  · rw [hlink l, if_pos rfl]
    rfl
  · rw [hlink l, if_pos rfl]
    rfl
  · rw [hlink l, if_pos rfl]
    rfl
  · rw [hlink j, if_neg (Ne.symm hj)]

theorem completes_sentNext {vc : Fin 4} {i : Nat} {e : QPkt} (hresend : (s.dev.link l).resend = [])
    (hturn : vc = 0 ∨ (s.dev.nextOf l 0 = none ∧ (s.dev.arbTurn q.val l).map Prod.fst = some vc.val))
    (hnext : s.dev.nextOf l vc.val = some i) (he : (s.dev.link l).txq[i]? = some e) :
    Completes (.packetTransmit (some q) vc es) s (fun d => .packet q.val (s.dev.link l).sendSeq e.pkt ∈ d.outs ∧
      (d.link l).sendSeq = ((s.dev.link l).sendSeq + 1) % 65536 ∧ (d.link l).txq = (s.dev.link l).txq.eraseIdx i ∧
      (d.link l).unacked = (s.dev.link l).unacked ++ [{ seq := (s.dev.link l).sendSeq, port := q.val, pkt := e.pkt }] ∧
      FMap.getD (d.link l).avail e.pkt.key 0 = FMap.getD (s.dev.link l).avail e.pkt.key 0 - ((e.pkt.cells : Nat) : Int) ∧
      d.mem = s.dev.mem ∧ d.cores = s.dev.cores ∧ ∀ r, (d.port r).st = (s.dev.port r).st) := by
  have hturn' : vc.val = 0 ∨ (s.dev.silent.nextOf l 0 = none ∧ (s.dev.silent.arbTurn q.val l).map Prod.fst = some vc.val) := by
    rw [nextOf_silent, arbTurn_silent]
    exact hturn.imp_left (congrArg Fin.val)
  obtain ⟨y, heq, ⟨u, f, hlink⟩, ⟨hmem, hcores⟩, hdue, hpins, hports⟩ :=
    packetTransmit_sends (d := s.dev.silent) q.isLt hcarry hresend hturn' hnext he
  have hylink : (y.out (.packet q.val (s.dev.silent.link l).sendSeq e.pkt)).link l =
    { (s.dev.link l).sentNext q.val i e with used := u, freed := f } := hlink
  refine completes_as hacts (exec_packetTransmit (some q) vc es s) heq hdue hpins
    ⟨List.mem_append_right _ (List.mem_singleton_self _), ?_, ?_, ?_, ?_, hmem, hcores, hports⟩
  · rw [hylink]
    rfl
  · rw [hylink]
    rfl
  · rw [hylink]
    rfl
  · rw [hylink]
    exact FMap.getD_set_self _ _ _ _

end

/-! ## The deficit round robin (R425) -/

section
variable {d : Dev} {l : Nat}

/-- A class that has a packet to send has one of at most 528 bytes. -/
theorem arbSize_le (hlen : ∀ e ∈ (d.link l).txq, e.pkt.payload.length ≤ 512) (v : Nat) : d.arbSize l v ≤ 528 := by
  unfold Dev.arbSize
  split
  case h_1 e he =>
    obtain ⟨i, -, hi⟩ := Option.bind_eq_some_iff.1 he
    have := hlen e (List.mem_of_getElem? hi)
    omega
  case h_2 => omega

variable {ready : List Nat} (hsize : ∀ v, d.arbSize l v ≤ 528)
include hsize

omit hsize in
/-- One visit of the round. -/
theorem arbNext_succ (a : Arb) (n : Nat) : d.arbNext l ready a (n + 1) =
    if ready.contains a.turn then
      if d.arbSize l a.turn ≤ a.deficit.getD a.turn 0 + (if a.visited then 0 else d.arbWeight a.turn * (528 + Config.arbQuantum)) then
        some (a.turn, ⟨a.turn, true, a.deficit.set a.turn
          (a.deficit.getD a.turn 0 + (if a.visited then 0 else d.arbWeight a.turn * (528 + Config.arbQuantum)) - d.arbSize l a.turn)⟩)
      else d.arbNext l ready ⟨a.turn % 3 + 1, false, a.deficit.set a.turn
        (a.deficit.getD a.turn 0 + (if a.visited then 0 else d.arbWeight a.turn * (528 + Config.arbQuantum)))⟩ n
    else d.arbNext l ready ⟨a.turn % 3 + 1, false, a.deficit.set a.turn 0⟩ n := rfl

/-- A class that is visited anew sends what it has. -/
theorem arbNext_fresh {a : Arb} (hfresh : a.visited = false) (hready : ready.contains a.turn = true) (n : Nat) :
    ∃ b, d.arbNext l ready a (n + 1) = some (a.turn, b) := by
  have hweight : 528 ≤ d.arbWeight a.turn * (528 + Config.arbQuantum) :=
    Nat.le_trans (Nat.le_add_right 528 _) (Nat.le_mul_of_pos_left _ (Nat.lt_of_lt_of_le Nat.zero_lt_one (Nat.le_max_left 1 _)))
  have hvisit : (if a.visited then 0 else d.arbWeight a.turn * (528 + Config.arbQuantum)) = d.arbWeight a.turn * (528 + Config.arbQuantum) := by
    rw [hfresh]
    rfl
  rw [arbNext_succ, hvisit, if_pos hready, if_pos (Nat.le_trans (hsize a.turn) (Nat.le_trans hweight (Nat.le_add_left _ _)))]
  exact ⟨_, rfl⟩

omit hsize in
/-- A class that does not send gives its turn to the next. -/
theorem arbNext_or (a : Arb) (n : Nat) : (∃ b, d.arbNext l ready a (n + 1) = some (a.turn, b) ∧ ready.contains a.turn = true) ∨
    ∃ c : Arb, c.visited = false ∧ c.turn = a.turn % 3 + 1 ∧ d.arbNext l ready a (n + 1) = d.arbNext l ready c n := by
  rw [arbNext_succ]
  by_cases hready : ready.contains a.turn = true
  · rw [if_pos hready]
    by_cases hpays : d.arbSize l a.turn ≤
        a.deficit.getD a.turn 0 + (if a.visited then 0 else d.arbWeight a.turn * (528 + Config.arbQuantum))
    · rw [if_pos hpays]
      exact .inl ⟨_, rfl, hready⟩
    · rw [if_neg hpays]
      exact .inr ⟨_, rfl, rfl, rfl⟩
  · rw [if_neg hready]
    exact .inr ⟨_, rfl, rfl, rfl⟩

/-- Within the visits that are left one of the classes that have a packet sends. -/
theorem arbNext_sends {v : Nat} (hv : v ∈ ready) (hclass : v = 1 ∨ v = 2 ∨ v = 3) : ∀ n (a : Arb), a.visited = false →
    (a.turn = 1 ∨ a.turn = 2 ∨ a.turn = 3) → (v + 3 - a.turn) % 3 < n →
    ∃ w b, d.arbNext l ready a n = some (w, b) ∧ w ∈ ready := by
  intro n
  induction n with
  | zero => exact fun _ _ _ h => absurd h (Nat.not_lt_zero _)
  | succ n ih =>
    intro a hfresh hturn hdist
    by_cases hready : ready.contains a.turn = true
    · obtain ⟨b, hb⟩ := arbNext_fresh hsize hfresh hready n
      exact ⟨_, b, hb, List.contains_iff_mem.1 hready⟩
    · have hne : v ≠ a.turn := fun h => hready (List.contains_iff_mem.2 (h ▸ hv))
      rcases arbNext_or a n with ⟨b, -, hcontains⟩ | ⟨c, hc, hcturn, heq⟩
      · exact absurd hcontains hready
      · rw [heq]
        exact ih c hc (by omega) (by omega)

end

theorem arbTurn_sends {d : Dev} {q l : Nat} (hlen : ∀ e ∈ (d.link l).txq, e.pkt.payload.length ≤ 512) (hready : d.arbReady l ≠ []) :
    ∃ v a, d.arbTurn q l = some (v, a) ∧ v ∈ d.arbReady l := by
  have hsize := arbSize_le hlen
  have hclass : ∀ v ∈ d.arbReady l, v = 1 ∨ v = 2 ∨ v = 3 := fun v hv => by
    have := (List.mem_filter.1 hv).1
    simpa using this
  unfold Dev.arbTurn
  split
  case h_1 h => exact absurd h hready
  case h_2 v h =>
    rw [h]
    exact ⟨v, _, rfl, List.mem_singleton_self v⟩
  case h_3 =>
    obtain ⟨v, hv⟩ := List.exists_mem_of_ne_nil _ hready
    rcases arbNext_or (d.port q).arb 5 with ⟨b, hb, hcontains⟩ | ⟨c, hc, hcturn, heq⟩
    · exact ⟨_, b, hb, List.contains_iff_mem.1 hcontains⟩
    · rw [heq]
      exact arbNext_sends hsize hv (hclass v hv) 5 c hc (by omega) (by omega)

/-! ## Receiving (R417, R419) -/

/-- The link after a packet in its turn. -/
def Link.took (x : Link) (p : Packet) : Link := { x with
  rx := [], used := FMap.set x.used 0 p.key (FMap.getD x.used p.key 0 + p.cells), expect := (x.expect + 1) % 65536, ackDue := true }

theorem release_turn {x : Link} (hrx : x.rx = []) (q : Nat) (p : Packet) :
    Link.release { x with
      rx := x.rx ++ [{ seq := x.expect, port := q, pkt := p }]
      used := FMap.set x.used 0 p.key (FMap.getD x.used p.key 0 + p.cells) } 1 =
      ([{ seq := x.expect, port := q, pkt := p }], x.took p) := by
  unfold Link.release Link.release
  simp [hrx, Link.took]

section
variable {d : Dev} {q l seq : Nat} {p : Packet}

/-- No port waits for the number that its NAK named. -/
theorem ports_map_lost (hlost : ∀ e ∈ d.ports, e.2.lost = none) :
    d.ports.map (fun e => (e.1, if e.2.lost = some seq then { e.2 with lost := none } else e.2)) = d.ports := by
  refine (List.map_congr_left fun e he => ?_).trans (List.map_id _)
  rw [hlost e he, if_neg (Option.some_ne_none seq).symm]
  rfl

theorem port_lost (hlost : ∀ e ∈ d.ports, e.2.lost = none) : (d.port q).lost = none := by
  unfold Dev.port
  generalize d.ports = m at hlost
  induction m with
  | nil => rfl
  | cons e m ih =>
    obtain ⟨hhead, htail⟩ := List.forall_mem_cons.1 hlost
    unfold FMap.getD
    split
    · exact hhead
    · exact ih htail

/-- A copy, or a packet after a codeword that could not be corrected, is discarded. -/
theorem linkAccept_discards (h : 32768 ≤ (seq + 65536 - (d.link l).expect) % 65536 ∨ (∃ n, (d.port q).lost = some n ∧ seq ≠ n)) :
    d.linkAccept q l seq p = ([], d) := by
  unfold Dev.linkAccept
  dsimp only
  refine if_pos ?_
  rcases h with h | ⟨n, hn, hne⟩
  · exact .inr (.inl h)
  · refine .inl ?_
    rw [hn]
    exact decide_eq_true hne

/-- A packet in its turn is taken. -/
theorem linkAccept_takes (hseq : seq = (d.link l).expect) (hrx : (d.link l).rx = []) (hfits : d.rxFits l p = true)
    (hlost : ∀ e ∈ d.ports, e.2.lost = none) :
    d.linkAccept q l seq p = ([{ seq := seq, port := q, pkt := p }],
      (d.onLink l (fun x => x.took p)).cvuPacket q 2 (p.vc % 4) p.payload) := by
  subst hseq
  unfold Dev.linkAccept
  dsimp only
  rw [port_lost hlost, hrx, hfits, ports_map_lost hlost]
  rw [if_neg (by simp), if_neg (by decide)]
  have hrel := release_turn hrx q p
  rw [hrx] at hrel
  dsimp only [List.nil_append, List.length_cons, List.length_nil, Nat.zero_add] at hrel ⊢
  rw [hrel]
  rfl

end

end Sys2Proof.Machine
end

section
/-! SUPPORT. Proof of the statement about packets of a link, its end (R417, R419, R424, R426, R427). -/
namespace Sys2Proof.Machine

open Safety

/-! ## Packets for this device and for others (R424, R426, R427) -/

section
variable {d : Dev} {l : Nat} {es : ReadErrs}

theorem deliver_other {x : QPkt} (h : x.pkt.type ∉ [0x01, 0x02, 0x03, 0x04, 0x05, 0x10, 0x11]) :
    d.deliver x es = (d.originFree x).out (.delivered x.pkt) := by
  unfold Dev.deliver
  dsimp only
  split
  case h_8 => rfl
  all_goals
    next ht =>
      refine absurd ?_ h
      rw [ht]
      decide

theorem takeAll_own {u : SeqPkt} (hgone : u.gone = false) (hviol : u.pkt.violation = 0) (hdst : u.pkt.dst = d.ownId) :
    d.takeAll l [u] es = d.deliver { pkt := u.pkt, origin := some (l, u.pkt.key, u.pkt.cells), port := some u.port } es := by
  have htake : d.takePacket l u = (some { pkt := u.pkt, origin := some (l, u.pkt.key, u.pkt.cells), port := some u.port }, d) := by
    unfold Dev.takePacket
    dsimp only
    rw [hgone, if_neg (by decide), if_neg (not_not.2 hviol), if_pos hdst]
  unfold Dev.takeAll
  rw [List.foldl_cons, List.foldl_nil]
  dsimp only
  rw [htake]

theorem takeAll_forwards {u : SeqPkt} (hgone : u.gone = false) (hviol : u.pkt.violation = 0) (hdst : u.pkt.dst ≠ d.ownId) :
    d.takeAll l [u] es = d.enqueue { pkt := { u.pkt with hops := u.pkt.hops + 1 }, origin := some (l, u.pkt.key, u.pkt.cells), port := some u.port }
      (dirDim (d.linkDir l)) := by
  have htake : d.takePacket l u = (none, d.enqueue { pkt := { u.pkt with hops := u.pkt.hops + 1 }, origin := some (l, u.pkt.key, u.pkt.cells), port := some u.port }
      (dirDim (d.linkDir l))) := by
    unfold Dev.takePacket
    dsimp only
    rw [hgone, if_neg (by decide), if_neg (not_not.2 hviol), if_neg hdst]
  unfold Dev.takeAll
  rw [List.foldl_cons, List.foldl_nil]
  dsimp only
  rw [htake]

/-- A packet is queued at the end of one link, for its route. -/
theorem enqueue_at (d : Dev) (x : QPkt) (from_ : Option Nat) : ∃ j dl,
    d.enqueue x from_ = d.onLink j (fun k => { k with txq := k.txq ++ [{ x with pkt := { x.pkt with dl := dl } }] }) := by
  unfold Dev.enqueue
  split
  · exact ⟨24, x.pkt.dl, rfl⟩
  · exact ⟨_, _, rfl⟩
  · exact ⟨25, x.pkt.dl, rfl⟩

/-- What queueing a packet leaves. -/
theorem enqueue_facts (d : Dev) (x : QPkt) (from_ : Option Nat) :
    (∃ j dl, ({ x with pkt := { x.pkt with dl := dl } } : QPkt) ∈ ((d.enqueue x from_).link j).txq) ∧
    (∀ i, ∃ t, (d.enqueue x from_).link i = { d.link i with txq := t }) ∧
    d.enqueue x from_ = { d with links := (d.enqueue x from_).links } := by
  obtain ⟨j, dl, heq⟩ := enqueue_at d x from_
  rw [heq]
  refine ⟨⟨j, dl, ?_⟩, fun i => ?_, rfl⟩
  · rw [Dev.onLink_get, if_pos rfl]
    exact List.mem_append_right _ (List.mem_singleton_self _)
  · rw [Dev.onLink_get]
    split
    case isTrue h =>
      subst h
      exact ⟨_, rfl⟩
    case isFalse => exact ⟨_, rfl⟩

end

section
variable {d : Dev} {q l seq corr : Nat} {p : Packet} {es : ReadErrs}

/-- The corrected codewords of a packet are counted. -/
def Dev.corrected (d : Dev) (q corr : Nat) : Dev := if corr = 0 ∨ !d.portRuns q then d else d.count ⟨.dvoPortErr, [q]⟩ 31 0 corr

theorem packetReceive_carried (hcarry : d.carrying q = some l) (hown : p.portOwn = false) :
    d.packetReceive q seq p es corr =
      ((d.corrected q corr).linkAccept q l seq p).2.takeAll l ((d.corrected q corr).linkAccept q l seq p).1 es := by
  unfold Dev.packetReceive
  dsimp only
  rw [hown, if_neg (by decide), hcarry]
  rfl

theorem corrected_rest (d : Dev) (q corr : Nat) : d.corrected q corr = { d with regs := (d.corrected q corr).regs } := by
  unfold Dev.corrected
  split <;> rfl

theorem corrected_ownId (d : Dev) (hq : q < 24) (corr : Nat) : (d.corrected q corr).ownId = d.ownId := by
  have hne : Reg.addr ⟨.dvoPortErr, [q]⟩ ≠ Reg.addr ⟨.dvoCoord, []⟩ := by
    simp [Reg.addr, RK.row]
    omega
  unfold Dev.corrected
  split
  · rfl
  · unfold Dev.ownId Dev.regFld
    rw [reg_count_ne _ hne]

theorem upMembers_congr {d d' : Dev} (hports : d'.ports = d.ports) (hcfg : ∀ r, r < 24 → d'.reg ⟨.dvoPortCfg, [r]⟩ = d.reg ⟨.dvoPortCfg, [r]⟩)
    (l : Nat) : d'.upMembers l = d.upMembers l := by
  unfold Dev.upMembers
  refine List.filter_congr fun r hr => ?_
  unfold Dev.port Dev.portLink Dev.regFld
  rw [hports, hcfg r (List.mem_range.1 hr)]

theorem corrected_upMembers (d : Dev) (q corr l : Nat) : (d.corrected q corr).upMembers l = d.upMembers l := by
  refine upMembers_congr (d := d) (by rw [corrected_rest]) (fun r hr => ?_) l
  unfold Dev.corrected
  split
  · rfl
  · refine reg_count_ne _ ?_ _ _ _
    simp [Reg.addr, RK.row]
    omega

theorem corrected_rxFits (d : Dev) (q corr l : Nat) (p : Packet) : (d.corrected q corr).rxFits l p = d.rxFits l p := by
  have hlink : (d.corrected q corr).link l = d.link l := by
    unfold Dev.link
    rw [corrected_rest]
  unfold Dev.rxFits
  rw [corrected_upMembers d q, hlink]

/-- What the turn of a packet leaves: the link of its member waits for the next number. -/
structure Took (d y : Dev) (q l : Nat) (p : Packet) : Prop where
  link : ∃ u f, y.link l = { (d.link l).took p with used := u, freed := f }
  frame : y.mem = d.mem ∧ y.cores = d.cores ∧ y.ports = d.ports
  due : y.pruneDue = d.pruneDue
  pins : y.resetN = d.resetN ∧ y.vin = d.vin

/-- A packet in its turn comes to its unit or its route. -/
theorem packetReceive_takes (hq : q < 24) (hcarry : d.carrying q = some l) (hown : p.portOwn = false) (hseq : seq = (d.link l).expect)
    (hrx : (d.link l).rx = []) (hfits : d.rxFits l p = true) (hlost : ∀ e ∈ d.ports, e.2.lost = none) :
    ∃ y : Dev, d.packetReceive q seq p es corr = y.takeAll l [{ seq := seq, port := q, pkt := p }] es ∧ y.ownId = d.ownId ∧ Took d y q l p := by
  have hrest := corrected_rest d q corr
  have hownId := corrected_ownId d hq corr
  have hfits' := (corrected_rxFits d q corr l p).trans hfits
  have heq := packetReceive_carried (seq := seq) (corr := corr) (es := es) hcarry hown
  generalize d.corrected q corr = x at *
  have hlink : x.link l = d.link l := by
    rw [hrest]
    rfl
  have hlost' : ∀ e ∈ x.ports, e.2.lost = none := by
    rw [hrest]
    exact hlost
  rw [linkAccept_takes (hseq.trans (congrArg Link.expect hlink.symm)) ((congrArg Link.rx hlink).trans hrx) hfits' hlost'] at heq
  have hwires := wires_cvuPacket (x.onLink l (fun k => k.took p)) hq (dir := 2) (by decide) (p.vc % 4) p.payload
  have hownId' := (heard_cvuPacket (x.onLink l (fun k => k.took p)) hq (dir := 2) (by decide) (p.vc % 4) p.payload).ownId
  generalize (x.onLink l (fun k => k.took p)).cvuPacket q 2 (p.vc % 4) p.payload = y at *
  obtain ⟨u, f, hy⟩ := hwires.link l
  rw [Dev.onLink_get, if_pos rfl, hlink] at hy
  obtain ⟨hmem, hcores, hports⟩ := hwires.frame
  refine ⟨y, heq, hownId'.trans hownId, ⟨⟨u, f, hy⟩, ⟨hmem.trans ?_, hcores.trans ?_, hports.trans ?_⟩, hwires.due.trans ?_,
    ⟨hwires.pins.1.trans ?_, hwires.pins.2.trans ?_⟩⟩⟩ <;> rw [hrest] <;> rfl

end

section
variable {s : State} {q : PortId} {l seq corr : Nat} {pkt : Packet} {es : ReadErrs} (hacts : Acts s) (hcarry : s.dev.carrying q.val = some l)
  (hown : pkt.portOwn = false)
include hacts hcarry hown

/-- What a packet in its turn leaves. -/
def InTurn (s : State) (l : Nat) (d : Dev) : Prop :=
  (d.link l).expect = ((s.dev.link l).expect + 1) % 65536 ∧ (d.link l).ackDue = true ∧ (d.link l).rx = [] ∧ d.mem = s.dev.mem ∧
    d.cores = s.dev.cores ∧ d.ports = s.dev.ports

theorem completes_inTurn (hseq : seq = (s.dev.link l).expect) (hrx : (s.dev.link l).rx = []) (hfits : s.dev.rxFits l pkt = true)
    (hviol : pkt.violation = 0) (hlost : ∀ e ∈ s.dev.ports, e.2.lost = none) :
    (pkt.dst = s.dev.ownId → pkt.type ∉ [0x01, 0x02, 0x03, 0x04, 0x05, 0x10, 0x11] →
      Completes (.packetReceive q seq pkt es corr) s (fun d => .delivered pkt ∈ d.outs ∧ InTurn s l d)) ∧
    (pkt.dst ≠ s.dev.ownId → Completes (.packetReceive q seq pkt es corr) s (fun d =>
      (∃ j, ∃ y ∈ (d.link j).txq, y.pkt = { pkt with hops := pkt.hops + 1, dl := y.pkt.dl } ∧
        y.origin = some (l, pkt.key, pkt.cells)) ∧ InTurn s l d)) := by
  obtain ⟨y, heq, hownId, ⟨u, f, hlink⟩, ⟨hmem, hcores, hports⟩, hdue, hpins⟩ :=
    packetReceive_takes (d := s.dev.silent) (corr := corr) (es := es) q.isLt hcarry hown hseq hrx hfits hlost
  refine ⟨fun hdst htype => ?_, fun hdst => ?_⟩
  · rw [takeAll_own rfl hviol (hdst.trans hownId.symm), deliver_other (x := { pkt := pkt, origin := _, port := _ }) htype] at heq
    have hfree := wires_originFree y { pkt := pkt, origin := some (l, pkt.key, pkt.cells), port := some q.val }
    generalize y.originFree { pkt := pkt, origin := some (l, pkt.key, pkt.cells), port := some q.val } = z at *
    obtain ⟨u', f', hlink'⟩ := hfree.link l
    rw [hlink] at hlink'
    have hzlink : (z.out (.delivered pkt)).link l = { (s.dev.silent.link l).took pkt with used := u', freed := f' } := hlink'
    obtain ⟨hmem', hcores', hports'⟩ := hfree.frame
    refine completes_as hacts (exec_packetReceive q seq pkt es corr s) heq (hfree.due.trans hdue)
      ⟨hfree.pins.1.trans hpins.1, hfree.pins.2.trans hpins.2⟩
      ⟨List.mem_append_right _ (List.mem_singleton_self _), ?_, ?_, ?_, hmem'.trans hmem, hcores'.trans hcores, hports'.trans hports⟩ <;>
      rw [hzlink] <;> rfl
  · rw [takeAll_forwards rfl hviol (fun h => hdst (h.trans hownId))] at heq
    obtain ⟨⟨j, dl, hmemq⟩, hlinks, hrest⟩ := enqueue_facts y
      { pkt := { pkt with hops := pkt.hops + 1 }, origin := some (l, pkt.key, pkt.cells), port := some q.val } (dirDim (y.linkDir l))
    dsimp only at heq hmemq
    generalize y.enqueue { pkt := { pkt with hops := pkt.hops + 1 }, origin := some (l, pkt.key, pkt.cells), port := some q.val }
      (dirDim (y.linkDir l)) = z at *
    obtain ⟨t, hz⟩ := hlinks l
    rw [hlink] at hz
    refine completes_as hacts (exec_packetReceive q seq pkt es corr s) heq (Eq.trans ?_ hdue) ⟨Eq.trans ?_ hpins.1, Eq.trans ?_ hpins.2⟩
      ⟨⟨j, _, hmemq, rfl, rfl⟩, ?_, ?_, ?_, Eq.trans ?_ hmem, Eq.trans ?_ hcores, Eq.trans ?_ hports⟩
    case refine_4 =>
      rw [hz]
      rfl
    case refine_5 =>
      rw [hz]
      rfl
    case refine_6 =>
      rw [hz]
      rfl
    all_goals rw [hrest]

theorem completes_discarded (h : 32768 ≤ (seq + 65536 - (s.dev.link l).expect) % 65536 ∨
    (∃ n, (s.dev.port q.val).lost = some n ∧ seq ≠ n)) :
    Completes (.packetReceive q seq pkt es 0) s (fun d => d = { s.dev with outs := [] }) := by
  have hzero : s.dev.silent.corrected q.val 0 = s.dev.silent := if_pos (.inl rfl)
  have heq : s.dev.silent.packetReceive q.val seq pkt es 0 = s.dev.silent := by
    rw [packetReceive_carried (d := s.dev.silent) hcarry hown, hzero, linkAccept_discards (d := s.dev.silent) h]
    rfl
  exact completes_as hacts (exec_packetReceive q seq pkt es 0 s) heq rfl ⟨rfl, rfl⟩ rfl

end

/-- A packet of the device to itself passes through its mesh. -/
theorem completes_meshPacket {s : State} (hacts : Acts s) {vc : Fin 4} {es : ReadErrs} {y : QPkt} {rest : List QPkt}
    (htxq : (s.dev.link 24).txq = y :: rest) (hvc : y.pkt.vc % 4 = vc.val) (htype : y.pkt.type ∉ [0x01, 0x02, 0x03, 0x04, 0x05, 0x10, 0x11]) :
    Completes (.packetTransmit none vc es) s (fun d =>
      .delivered y.pkt ∈ d.outs ∧ (d.link 24).txq = rest ∧ d.mem = s.dev.mem ∧ d.cores = s.dev.cores ∧ d.ports = s.dev.ports) := by
  have htxq' : (s.dev.silent.link 24).txq = y :: rest := htxq
  have heq : s.dev.silent.meshTransmit vc.val es =
      (s.dev.silent.onLink 24 (fun k => { k with txq := k.txq.eraseIdx 0 })).deliver y es := by
    unfold Dev.meshTransmit
    dsimp only
    rw [htxq', List.findIdx?_cons, if_pos (decide_eq_true hvc)]
    rfl
  rw [deliver_other htype] at heq
  have hlink := Dev.onLink_get s.dev.silent 24 24 (fun k => { k with txq := k.txq.eraseIdx 0 })
  have hfree := wires_originFree (s.dev.silent.onLink 24 (fun k => { k with txq := k.txq.eraseIdx 0 })) y
  have hframe : (s.dev.silent.onLink 24 (fun k => { k with txq := k.txq.eraseIdx 0 })).mem = s.dev.mem ∧
    (s.dev.silent.onLink 24 (fun k => { k with txq := k.txq.eraseIdx 0 })).cores = s.dev.cores ∧
    (s.dev.silent.onLink 24 (fun k => { k with txq := k.txq.eraseIdx 0 })).ports = s.dev.ports := ⟨rfl, rfl, rfl⟩
  have hdue : (s.dev.silent.onLink 24 (fun k => { k with txq := k.txq.eraseIdx 0 })).pruneDue = s.dev.pruneDue := rfl
  have hpins : (s.dev.silent.onLink 24 (fun k => { k with txq := k.txq.eraseIdx 0 })).resetN = s.dev.resetN ∧
    (s.dev.silent.onLink 24 (fun k => { k with txq := k.txq.eraseIdx 0 })).vin = s.dev.vin := ⟨rfl, rfl⟩
  rw [if_pos rfl] at hlink
  generalize s.dev.silent.onLink 24 (fun k => { k with txq := k.txq.eraseIdx 0 }) = x at *
  generalize x.originFree y = z at *
  obtain ⟨u, f, hz⟩ := hfree.link 24
  have hzlink : (z.out (.delivered y.pkt)).link 24 = _ := hz
  obtain ⟨hmem, hcores, hports⟩ := hfree.frame
  obtain ⟨hmem', hcores', hports'⟩ := hframe
  refine completes_as hacts (exec_packetTransmit none vc es s) heq (hfree.due.trans hdue)
    ⟨hfree.pins.1.trans hpins.1, hfree.pins.2.trans hpins.2⟩
    ⟨List.mem_append_right _ (List.mem_singleton_self _), ?_, hmem.trans hmem', hcores.trans hcores', hports.trans hports'⟩
  rw [hzlink, hlink]
  change (s.dev.link 24).txq.eraseIdx 0 = rest
  rw [htxq]
  rfl

/-- Settles O49: a packet that a port sends is that of `replay` or of `transmitNext`; freed cells and a check-value unit leave the
packets of every link alone (`Wires`); the round robin by its visits (`arbNext_sends`). -/
theorem packets : Obligations.Packets := by
  unfold Obligations.Packets
  refine ⟨fun q l es s hacts hcarry => ⟨fun vc sq rest u hresend hfind hturn => completes_replayed hacts hcarry hresend hfind hturn,
    fun vc i e hresend hturn hnext he => completes_sentNext hacts hcarry hresend hturn hnext he, arbTurn_sends,
    fun seq pkt corr hown hseq hrx hfits hviol hlost => completes_inTurn hacts hcarry hown hseq hrx hfits hviol hlost,
    fun seq pkt hown h => completes_discarded hacts hcarry hown h⟩,
    fun vc es y rest s hacts htxq hvc htype => completes_meshPacket hacts htxq hvc htype⟩

end Sys2Proof.Machine
end

section
/-! SUPPORT. Proof of the statement about the words of a link (R419, R431, R432, R434). -/
namespace Sys2Proof.Machine

open Safety

/-! ## Violations of a partner (R434, R450) -/

section
variable (d : Dev) (q : Nat)

theorem mirrorLost_regs : d.mirrorLost.regs = d.regs := by
  have hrecv : ∀ (d : Dev) c, (d.recvDropped c).regs = d.regs := fun d c => by
    unfold Dev.recvDropped
    split
    · split <;> rfl
    · rfl
  have hsend : ∀ (d : Dev) c, (d.sendStopped c).regs = d.regs := fun d c => by
    unfold Dev.sendStopped
    split <;> rfl
  exact foldl_keeps Dev.regs (fun d c => (hsend _ c).trans (hrecv d c)) _ d

theorem linkLost_regs (l : Nat) : (d.linkLost l).regs = d.regs := by
  have hcount : ∀ (d : Dev) r, (if d.portLink r = l then d.onPort r (fun x => { x with counted := false }) else d).regs = d.regs :=
    fun d r => by split <;> rfl
  unfold Dev.linkLost
  dsimp only
  exact foldl_keeps Dev.regs hcount _ _

theorem memberDown_regs (carried : Bool) : (d.memberDown q carried).regs = d.regs := by
  unfold Dev.memberDown
  dsimp only
  split
  · rfl
  · split
    · exact (mirrorLost_regs _).trans (linkLost_regs _ _)
    · rfl

/-- A port that is not trained anew leaves its state with every register as it is. -/
theorem portLeave_regs {st : PortState} (h : ¬ (st = .lock ∨ st = .detect ∨ st = .off)) : (d.portLeave q st).regs = d.regs := by
  have hleft : (d.portLeft q st).regs = d.regs := by
    unfold Dev.portLeft
    dsimp only
    rw [if_neg h]
    rfl
  rw [portLeave_eq]
  split
  · exact (memberDown_regs _ q _).trans hleft
  · exact hleft

theorem portFail_reg {r : Reg} (h : Reg.addr ⟨.prtRecovery, []⟩ ≠ r.addr) : (d.portFail q).reg r = d.reg r :=
  ((portFail_reported d q).reg r h).trans (Dev.reg_congr (portLeave_regs d q (by decide)) r)

theorem portRetrain_reg {r : Reg} (h : Reg.addr ⟨.prtRecovery, []⟩ ≠ r.addr) : (d.portRetrain q).reg r = d.reg r := by
  have hleave : ((d.retrainNoted q).portLeave q .retrain).reg r = d.reg r :=
    Dev.reg_congr (portLeave_regs (d.retrainNoted q) q (by decide)) r
  by_cases hwin : (d.port q).winRetrain < 3
  · rw [portRetrain_again d q hwin]
    exact hleave
  · rw [portRetrain_fails d q (Nat.le_of_not_lt hwin)]
    exact (portFail_reg _ q h).trans hleave

theorem portActs_portRetrain : PortActs d (d.portRetrain q) q := by
  obtain ⟨hacts, -⟩ := portActs_retrainNoted d q
  by_cases hwin : (d.port q).winRetrain < 3
  · rw [portRetrain_again d q hwin]
    exact hacts
  · rw [portRetrain_fails d q (Nat.le_of_not_lt hwin)]
    exact hacts.trans (portActs_portFail _ q).1

/-- The violation is counted. -/
def Dev.violNoted (d : Dev) (q code : Nat) : Dev :=
  ((d.setRegFld ⟨.dvoPortViol, [q]⟩ 43 40 code).count ⟨.dvoPortViol, [q]⟩ 39 32 1).onPort q (fun x => { x with winViol := x.winViol + 1 })

variable {d q}

theorem violNoted_winViol (code : Nat) : ((d.violNoted q code).port q).winViol = (d.port q).winViol + 1 := by
  unfold Dev.violNoted
  rw [onPort_self]
  rfl

theorem portActs_violNoted (d : Dev) (q code : Nat) : PortActs d (d.violNoted q code) q :=
  ((portActs_setReg d q _ _).trans (portActs_setReg _ q _ _)).trans (portActs_onPort _ q _)

/-- A violation that is neither counted as a packet's nor leads to quarantine: the port retrains. -/
theorem violate_retrains {code : Nat} (hcode : code = 7 ∨ code = 8) (hwin : (d.port q).winViol < 3) :
    d.violate q code = ((d.violNoted q code).portEvent q 0x0C07).portRetrain q := by
  have hnine : code ≠ 9 := by omega
  have hnoted : ((d.setRegFld ⟨.dvoPortViol, [q]⟩ 43 40 code).count ⟨.dvoPortViol, [q]⟩ 39 32 1).onPort q
      (fun x => { x with winViol := x.winViol + 1, winCell := if code = 9 then x.winCell + 1 else x.winCell }) = d.violNoted q code := by
    simp only [if_neg hnine]
    rfl
  have hfew : ¬ 4 ≤ ((d.violNoted q code).port q).winViol := by
    rw [violNoted_winViol]
    omega
  unfold Dev.violate
  dsimp only
  rw [if_neg (by omega), if_pos (by omega), hnoted, if_neg hfew, if_neg (fun h => hnine h.1)]

theorem violNoted_code {code : Nat} (hcode : code < 16) : (d.violNoted q code).regFld ⟨.dvoPortViol, [q]⟩ 43 40 = code := by
  have hreg : (d.violNoted q code).reg ⟨.dvoPortViol, [q]⟩ =
      setFld 39 32 _ ((d.setRegFld ⟨.dvoPortViol, [q]⟩ 43 40 code).reg ⟨.dvoPortViol, [q]⟩) := reg_setRegFld_self _ _ _ _ _
  unfold Dev.regFld
  rw [hreg, fld_setFld_other _ _ (.inr (by decide)), reg_setRegFld_self, fld_setFld_self _ _ (by decide)]
  exact Nat.mod_eq_of_lt hcode

end

/-- A word that is a violation of the partner, below the third in a window. -/
theorem completes_violates {c : Instr} {s : State} {q : PortId} {g : Dev → Dev} {code : Nat} (hacts : Acts s) (hcode : code = 7 ∨ code = 8)
    (hexec : exec c s = run s (fun d => (g d).settle)) (heq : g s.dev.silent = s.dev.silent.violate q.val code) :
    Completes c s (fun d => (s.dev.port q.val).winViol < 3 →
      Raises d 0x0C07 ∧ d.regFld ⟨.dvoPortViol, [q.val]⟩ 43 40 = code ∧ d.mem = s.dev.mem ∧ d.cores = s.dev.cores) := by
  by_cases hwin : (s.dev.port q.val).winViol < 3
  · have hviolates := violate_retrains (d := s.dev.silent) hcode hwin
    have hacts' := portActs_violNoted s.dev.silent q.val code
    have hfield := violNoted_code (d := s.dev.silent) (q := q.val) (code := code) (by omega)
    have hretrain := portActs_portRetrain ((s.dev.silent.violNoted q.val code).portEvent q.val 0x0C07) q.val
    have hraise := hretrain.raises (raises_portEvent (s.dev.silent.violNoted q.val code) q.val 0x0C07)
    have hreg := portRetrain_reg ((s.dev.silent.violNoted q.val code).portEvent q.val 0x0C07) q.val
      (r := ⟨.dvoPortViol, [q.val]⟩) (by simp [Reg.addr, RK.row]; omega)
    exact completes_port hacts hexec (heq.trans hviolates) ((hacts'.trans (portActs_portEvent _ q.val _)).trans hretrain) fun hrest _ =>
      ⟨hraise, (congrArg (fld 43 40) hreg).trans hfield, hrest.2⟩
  · exact ⟨_, hexec.trans (run_live s _ hacts.1), rfl, fun h => absurd h hwin⟩

/-! ## The words of a link (R419, R431, R432) -/

/-- The link with the packets up to place i acknowledged. -/
def Link.acked (x : Link) (i : Nat) : Link := { x with
  unacked := x.unacked.drop (i + 1)
  resend := x.resend.filter (fun s => !((x.unacked.take (i + 1)).map (fun u => u.seq)).contains s) }

/-- The link with the packets from place i on to be sent again. -/
def Link.naked (x : Link) (i : Nat) : Link := { x with
  resend := (x.unacked.filter (fun u => x.resend.contains u.seq || (x.unacked.drop i).any (fun w => w.seq = u.seq))).map (fun u => u.seq) }

section
variable {s : State} {q : PortId} {l : Nat} (hacts : Acts s) (hcarry : s.dev.carrying q.val = some l)
include hacts hcarry

/-- What a word of a link leaves. -/
def LinkCalm (s : State) (l : Nat) (d : Dev) : Prop :=
  (∀ j, j ≠ l → d.link j = s.dev.link j) ∧ d.mem = s.dev.mem ∧ d.cores = s.dev.cores

theorem completes_ackReceive {seq i : Nat} (hseq : (s.dev.link l).unacked.findIdx? (fun u => u.seq = seq) = some i) :
    Completes (.linkAckReceive q seq) s (fun d => (d.link l).unacked = (s.dev.link l).unacked.drop (i + 1) ∧
      (d.link l).txq = (s.dev.link l).txq ∧ (d.link l).avail = (s.dev.link l).avail ∧
      (∀ n ∈ (d.link l).resend, n ∈ (s.dev.link l).resend ∧ ∀ u ∈ (s.dev.link l).unacked.take (i + 1), u.seq ≠ n) ∧
      d.raised = s.dev.raised ∧ d.ports = s.dev.ports ∧ LinkCalm s l d) := by
  have heq : s.dev.silent.ackReceive q.val seq = s.dev.silent.onLink l (fun x => x.acked i) := by
    have hcarry' : s.dev.silent.carrying q.val = some l := hcarry
    have hseq' : (s.dev.silent.link l).unacked.findIdx? (fun u => u.seq = seq) = some i := hseq
    unfold Dev.ackReceive
    rw [hcarry']
    dsimp only
    rw [hseq']
    rfl
  have hlink := fun j => Dev.onLink_get s.dev.silent l j (fun x => x.acked i)
  refine completes_as hacts (exec_linkAckReceive q seq s) heq rfl ⟨rfl, rfl⟩
    ⟨?_, ?_, ?_, fun n hn => ?_, rfl, rfl, fun j hj => (hlink j).trans (if_neg (Ne.symm hj)), rfl, rfl⟩
  · rw [hlink, if_pos rfl]
    rfl
  · rw [hlink, if_pos rfl]
    rfl
  · rw [hlink, if_pos rfl]
    rfl
  · rw [hlink, if_pos rfl] at hn
    obtain ⟨hmem, hgone⟩ := List.mem_filter.1 hn
    refine ⟨hmem, fun u hu hseq => ?_⟩
    rw [List.contains_iff_mem.2 (hseq ▸ List.mem_map_of_mem hu)] at hgone
    exact absurd hgone (by decide)

theorem completes_nakReceive {seq i : Nat} (hseq : (s.dev.link l).unacked.findIdx? (fun u => u.seq = seq) = some i) :
    Completes (.linkNakReceive q seq) s (fun d => (d.link l).unacked = (s.dev.link l).unacked ∧
      (∀ u ∈ (s.dev.link l).unacked.drop i, u.seq ∈ (d.link l).resend) ∧
      d.regFld ⟨.dvoPortErr, [q.val]⟩ 63 48 = min (s.dev.regFld ⟨.dvoPortErr, [q.val]⟩ 63 48 + 1) 65535 ∧
      d.raised = s.dev.raised ∧ d.ports = s.dev.ports ∧ LinkCalm s l d) := by
  have heq : s.dev.silent.nakReceive q.val seq = (s.dev.silent.onLink l (fun x => x.naked i)).count ⟨.dvoPortErr, [q.val]⟩ 63 48 1 := by
    have hcarry' : s.dev.silent.carrying q.val = some l := hcarry
    have hseq' : (s.dev.silent.link l).unacked.findIdx? (fun u => u.seq = seq) = some i := hseq
    unfold Dev.nakReceive
    rw [hcarry']
    dsimp only
    rw [hseq']
    rfl
  have hlink : ∀ j, ((s.dev.silent.onLink l (fun x => x.naked i)).count ⟨.dvoPortErr, [q.val]⟩ 63 48 1).link j =
      if l = j then (s.dev.silent.link l).naked i else s.dev.silent.link j :=
    fun j => Dev.onLink_get s.dev.silent l j (fun x => x.naked i)
  refine completes_as hacts (exec_linkNakReceive q seq s) heq rfl ⟨rfl, rfl⟩
    ⟨?_, fun u hu => ?_, regFld_count_self _ _ 1 (by decide), rfl, rfl, fun j hj => (hlink j).trans (if_neg (Ne.symm hj)), rfl, rfl⟩
  · rw [hlink, if_pos rfl]
    rfl
  · rw [hlink, if_pos rfl]
    refine List.mem_map_of_mem (List.mem_filter.2 ⟨List.mem_of_mem_drop hu, Bool.or_eq_true_iff.2 (.inr ?_)⟩)
    exact List.any_eq_true.2 ⟨u, hu, decide_eq_true rfl⟩

omit hacts in
/-- A number that the link does not know. -/
theorem completes_unknown {seq : Nat} (hseq : (s.dev.link l).unacked.findIdx? (fun u => u.seq = seq) = none) :
    s.dev.silent.ackReceive q.val seq = s.dev.silent.violate q.val 7 ∧ s.dev.silent.nakReceive q.val seq = s.dev.silent.violate q.val 7 := by
  have hcarry' : s.dev.silent.carrying q.val = some l := hcarry
  have hseq' : (s.dev.silent.link l).unacked.findIdx? (fun u => u.seq = seq) = none := hseq
  constructor
  · unfold Dev.ackReceive
    rw [hcarry']
    dsimp only
    rw [hseq']
  · unfold Dev.nakReceive
    rw [hcarry']
    dsimp only
    rw [hseq']

theorem completes_fecUncorr : Completes (.fecUncorrectable q) s (fun d => d.outs = [.sent 0x204 [l, (s.dev.link l).expect]] ∧
    d.regFld ⟨.dvoPortErr, [q.val]⟩ 47 32 = min (s.dev.regFld ⟨.dvoPortErr, [q.val]⟩ 47 32 + 1) 65535 ∧
    (d.port q.val).lost = some (s.dev.link l).expect ∧ d.links = s.dev.links ∧ d.mem = s.dev.mem ∧ d.cores = s.dev.cores) := by
  have heq : s.dev.silent.fecUncorr q.val = ((s.dev.silent.count ⟨.dvoPortErr, [q.val]⟩ 47 32 1).onPort q.val
      (fun x => { x with lost := some (s.dev.silent.link l).expect })).out (.sent 0x204 [l, (s.dev.silent.link l).expect]) := by
    have hcarry' : s.dev.silent.carrying q.val = some l := hcarry
    unfold Dev.fecUncorr
    rw [hcarry']
  have hport := onPort_self (d := s.dev.silent.count ⟨.dvoPortErr, [q.val]⟩ 47 32 1) (q := q.val)
    (fun x => { x with lost := some (s.dev.silent.link l).expect })
  exact completes_as hacts (exec_fecUncorrectable q s) heq rfl ⟨rfl, rfl⟩
    ⟨rfl, regFld_count_self s.dev.silent _ 1 (by decide), congrArg Port.lost hport, rfl, rfl, rfl⟩

theorem completes_credit (vc : Fin 4) (dl : Bool) (n : Nat) :
    (FMap.getD (s.dev.link l).avail (clsKey vc.val dl) 0 + ((n : Nat) : Int) ≤ ((FMap.getD (s.dev.link l).cap (clsKey vc.val dl) 0 : Nat) : Int) →
      Completes (.creditReturnReceive q vc dl n) s (fun d =>
        (∀ j, FMap.getD (d.link l).avail j 0 = if j = clsKey vc.val dl then FMap.getD (s.dev.link l).avail (clsKey vc.val dl) 0 + ((n : Nat) : Int)
          else FMap.getD (s.dev.link l).avail j 0) ∧ d.regs = s.dev.regs ∧ d.raised = s.dev.raised ∧ LinkCalm s l d)) ∧
    (((FMap.getD (s.dev.link l).cap (clsKey vc.val dl) 0 : Nat) : Int) < FMap.getD (s.dev.link l).avail (clsKey vc.val dl) 0 + ((n : Nat) : Int) →
      s.dev.silent.creditReturn q.val vc.val dl n = s.dev.silent.violate q.val 8) := by
  have hcarry' : s.dev.silent.carrying q.val = some l := hcarry
  refine ⟨fun h => ?_, fun h => ?_⟩
  · have heq : s.dev.silent.creditReturn q.val vc.val dl n = s.dev.silent.onLink l (fun x => { x with
        avail := FMap.set x.avail 0 (clsKey vc.val dl) (FMap.getD (s.dev.silent.link l).avail (clsKey vc.val dl) 0 + ((n : Nat) : Int)) }) := by
      unfold Dev.creditReturn
      rw [hcarry']
      exact if_neg (Int.not_lt.2 h)
    have hlink := fun j => Dev.onLink_get s.dev.silent l j (fun x => { x with
        avail := FMap.set x.avail 0 (clsKey vc.val dl) (FMap.getD (s.dev.silent.link l).avail (clsKey vc.val dl) 0 + ((n : Nat) : Int)) })
    refine completes_as hacts (exec_creditReturnReceive q vc dl n s) heq rfl ⟨rfl, rfl⟩
      ⟨fun j => ?_, rfl, rfl, fun j hj => (hlink j).trans (if_neg (Ne.symm hj)), rfl, rfl⟩
    rw [hlink, if_pos rfl]
    refine (FMap.getD_set _ _ _ _ _).trans ?_
    by_cases hj : j = clsKey vc.val dl
    · rw [if_pos hj, if_pos hj.symm]
      rfl
    · rw [if_neg hj, if_neg (Ne.symm hj)]
      rfl
  · unfold Dev.creditReturn
    rw [hcarry']
    exact if_pos h

end

/-- The link has acknowledged what came. -/
def Dev.acknowledged (d : Dev) (l : Nat) : Dev :=
  (d.onLink l (fun x => { x with ackDue := false })).out (.sent 0x203 [l, ((d.link l).expect + 65535) % 65536])

theorem ackSend_eq {d : Dev} {l : Nat} (hdue : (d.link l).ackDue = true) (hup : (d.upMembers l).any d.portRuns = true) :
    d.ackSend l = d.acknowledged l := if_pos ⟨hdue, hup⟩

theorem acknowledged_facts (d : Dev) (l : Nat) :
    (d.acknowledged l).outs = d.outs ++ [.sent 0x203 [l, ((d.link l).expect + 65535) % 65536]] ∧
    (d.acknowledged l).link l = { d.link l with ackDue := false } ∧ (∀ j, j ≠ l → (d.acknowledged l).link j = d.link j) ∧
    (d.acknowledged l).regs = d.regs ∧ (d.acknowledged l).mem = d.mem ∧ (d.acknowledged l).cores = d.cores ∧
    (d.acknowledged l).ports = d.ports ∧ (d.acknowledged l).pruneDue = d.pruneDue ∧
    (d.acknowledged l).resetN = d.resetN ∧ (d.acknowledged l).vin = d.vin := by
  have hlink := fun j => Dev.onLink_get d l j (fun x => { x with ackDue := false })
  exact ⟨rfl, (hlink l).trans (if_pos rfl), fun j hj => (hlink j).trans (if_neg (Ne.symm hj)), rfl, rfl, rfl, rfl, rfl, rfl, rfl⟩

/-- The receiver of a link acknowledges. -/
theorem completes_ackSend {s : State} (hacts : Acts s) (l : Fin 24) (hdue : (s.dev.link l.val).ackDue = true)
    (hup : (s.dev.upMembers l.val).any s.dev.portRuns = true) : Completes (.linkAckSend l) s (fun d =>
      d.outs = [.sent 0x203 [l.val, ((s.dev.link l.val).expect + 65535) % 65536]] ∧
      d.link l.val = { s.dev.link l.val with ackDue := false } ∧ (∀ j, j ≠ l.val → d.link j = s.dev.link j) ∧
      d.regs = s.dev.regs ∧ d.mem = s.dev.mem ∧ d.cores = s.dev.cores ∧ d.ports = s.dev.ports) := by
  have hup' : (s.dev.silent.upMembers l.val).any s.dev.silent.portRuns = true := by
    rw [upMembers_congr (d := s.dev) (d' := s.dev.silent) rfl (fun _ _ => rfl)]
    exact hup
  obtain ⟨houts, hself, hothers, hregs, hmem, hcores, hports, hdue', hpins⟩ := acknowledged_facts s.dev.silent l.val
  exact completes_as hacts (exec_linkAckSend l s) (ackSend_eq (d := s.dev.silent) hdue hup') hdue' hpins
    ⟨houts, hself, hothers, hregs, hmem, hcores, hports⟩

/-! ## The recount of an edge (R432) -/

/-- A key of the recount. -/
def Dev.recountKey (l : Nat) (freed caps : List Nat) (d : Dev) (k : Nat) : Dev :=
  (d.onLink l (fun x => { x with
    avail := FMap.set x.avail 0 k (recountAvail (caps.getD k 0) (FMap.getD (d.link l).sent k 0) (freed.getD k 0))
    cap := FMap.set x.cap 0 k (caps.getD k 0) })).count ⟨.dvoLinkStat, [l]⟩ 31 0
    (recountAvail (caps.getD k 0) (FMap.getD (d.link l).sent k 0) (freed.getD k 0) - FMap.getD (d.link l).avail k 0).natAbs

/-- The recount has set the keys below n and nothing but the link, its counter and the ports' counts. -/
structure Recounted (l : Nat) (freed caps : List Nat) (n : Nat) (d d' : Dev) : Prop where
  keys : ∀ k, k < n → FMap.getD (d'.link l).cap k 0 = caps.getD k 0 ∧
    FMap.getD (d'.link l).avail k 0 = recountAvail (caps.getD k 0) (FMap.getD (d.link l).sent k 0) (freed.getD k 0)
  sent : (d'.link l).sent = (d.link l).sent
  others : ∀ j, j ≠ l → d'.link j = d.link j
  rest : d' = { d with regs := d'.regs, links := d'.links, ports := d'.ports }

section
variable {d d' : Dev} {l n : Nat} {freed caps : List Nat}

theorem recounted_key (h : Recounted l freed caps n d d') : Recounted l freed caps (n + 1) d (Dev.recountKey l freed caps d' n) := by
  have hlink : ∀ j, (Dev.recountKey l freed caps d' n).link j = if l = j then { d'.link l with
      avail := FMap.set (d'.link l).avail 0 n (recountAvail (caps.getD n 0) (FMap.getD (d'.link l).sent n 0) (freed.getD n 0))
      cap := FMap.set (d'.link l).cap 0 n (caps.getD n 0) } else d'.link j := 
    fun j => Dev.onLink_get d' l j (fun x => { x with
      avail := FMap.set x.avail 0 n (recountAvail (caps.getD n 0) (FMap.getD (d'.link l).sent n 0) (freed.getD n 0))
      cap := FMap.set x.cap 0 n (caps.getD n 0) })
  refine ⟨fun k hk => ?_, ?_, fun j hj => ?_, ?_⟩
  · rw [hlink, if_pos rfl]
    dsimp only
    rw [FMap.getD_set, FMap.getD_set, h.sent]
    by_cases hkn : n = k
    · subst hkn
      rw [if_pos rfl, if_pos rfl]
      exact ⟨rfl, rfl⟩
    · rw [if_neg hkn, if_neg hkn]
      exact h.keys k (by omega)
  · rw [hlink, if_pos rfl]
    exact h.sent
  · rw [hlink, if_neg (Ne.symm hj)]
    exact h.others j hj
  · have hrest := h.rest
    have hkey : Dev.recountKey l freed caps d' n = { d' with
      regs := (Dev.recountKey l freed caps d' n).regs, links := (Dev.recountKey l freed caps d' n).links } := rfl
    rw [hkey, hrest]

theorem recounted_keys (d : Dev) (l : Nat) (freed caps : List Nat) : ∀ n,
    Recounted l freed caps n d ((upTo n).foldl (Dev.recountKey l freed caps) d) := by
  intro n
  induction n with
  | zero => exact ⟨fun _ h => absurd h (Nat.not_lt_zero _), rfl, fun _ _ => rfl, rfl⟩
  | succ n ih =>
    unfold upTo at ih ⊢
    rw [List.range_succ, List.foldl_append]
    exact recounted_key ih

/-- A port of the link that carries nothing is to count its cells anew. -/
def Dev.recountPort (l : Nat) (d : Dev) (r : Nat) : Dev :=
  if d.portLink r = l ∧ !(d.port r).carries then d.onPort r (fun x => { x with counted := false }) else d

theorem recounted_port (h : Recounted l freed caps n d d') (r : Nat) : Recounted l freed caps n d (Dev.recountPort l d' r) := by
  unfold Dev.recountPort
  split
  · refine ⟨h.keys, h.sent, h.others, ?_⟩
    have hport : d'.onPort r (fun x => { x with counted := false }) =
        { d' with ports := (d'.onPort r (fun x => { x with counted := false })).ports } := rfl
    rw [hport, h.rest]
  · exact h

theorem recounted_ports (rs : List Nat) : ∀ d', Recounted l freed caps n d d' →
    Recounted l freed caps n d (rs.foldl (Dev.recountPort l) d') := by
  induction rs with
  | nil => exact fun _ h => h
  | cons r rs ih => exact fun d' h => ih _ (recounted_port h r)

end

theorem completes_recount {s : State} {q : PortId} {l : Nat} (hacts : Acts s) (hcarry : s.dev.carrying q.val = some l) (freed caps : List Nat) :
    Completes (.recountReceive q freed caps) s (fun d => (∀ k, k < 8 → FMap.getD (d.link l).cap k 0 = caps.getD k 0 ∧
      FMap.getD (d.link l).avail k 0 = recountAvail (caps.getD k 0) (FMap.getD (s.dev.link l).sent k 0) (freed.getD k 0)) ∧
      d.raised = s.dev.raised ∧ LinkCalm s l d) := by
  have hkeys := recounted_keys s.dev.silent l freed caps 8
  have heq : s.dev.silent.recountReceive q.val freed caps = (upTo 24).foldl (Dev.recountPort l)
      ((upTo 8).foldl (Dev.recountKey l freed caps) s.dev.silent) := by
    have hcarry' : s.dev.silent.carrying q.val = some l := hcarry
    unfold Dev.recountReceive
    rw [hcarry']
    rfl
  obtain ⟨hall, hsent, hothers, hrest⟩ := recounted_ports (upTo 24) _ hkeys
  generalize (upTo 24).foldl (Dev.recountPort l) ((upTo 8).foldl (Dev.recountKey l freed caps) s.dev.silent) = y at *
  have hframe : y.pruneDue = s.dev.pruneDue ∧ (y.resetN = s.dev.resetN ∧ y.vin = s.dev.vin) ∧ y.raised = s.dev.raised ∧
      y.mem = s.dev.mem ∧ y.cores = s.dev.cores := by
    rw [hrest]
    exact ⟨rfl, ⟨rfl, rfl⟩, rfl, rfl, rfl⟩
  obtain ⟨hdue, hpins, hraised, hmem, hcores⟩ := hframe
  exact completes_as hacts (exec_recountReceive q freed caps s) heq hdue hpins ⟨hall, hraised, hothers, hmem, hcores⟩

/-- Settles O50: by the equation that each word makes of its link; a violation below the third in a window retrains its port
and keeps its code (`completes_violates`), and the recount key by key (`recounted_keys`). -/
theorem linkWords : Obligations.LinkWords := by
  unfold Obligations.LinkWords
  refine ⟨fun l s hacts hdue hup => completes_ackSend hacts l hdue hup, fun q l s hacts hcarry => ⟨fun seq i hseq =>
    ⟨completes_ackReceive hacts hcarry hseq, completes_nakReceive hacts hcarry hseq⟩, fun seq hseq => ?_, completes_fecUncorr hacts hcarry,
    fun vc dl n => ⟨(completes_credit hacts hcarry vc dl n).1, fun h => ?_⟩, completes_recount hacts hcarry⟩⟩
  · obtain ⟨hack, hnak⟩ := completes_unknown hcarry hseq
    exact ⟨completes_violates hacts (.inl rfl) (exec_linkAckReceive q seq s) hack,
      completes_violates hacts (.inl rfl) (exec_linkNakReceive q seq s) hnak⟩
  · exact completes_violates hacts (.inr rfl) (exec_creditReturnReceive q vc dl n s) ((completes_credit hacts hcarry vc dl n).2 h)

end Sys2Proof.Machine
end

section
/-! SUPPORT. Proof of the statement about check-value units and the counter generator (R513 to R517, R522, R527). -/
namespace Sys2Proof.Machine

open Safety

/-! ## Registers of a unit -/

theorem cvuNum_lt : ∀ u : CvuId, cvuNum u < 56
  | .cluster g u => by
    have hg := g.isLt
    have hu := u.isLt
    change 2 * g.val + u.val < 56
    omega
  | .port q => by
    have hq := q.isLt
    change 32 + q.val < 56
    omega

theorem cvuReg_cluster {n : Nat} (h : n < 32) (k p : RK) : cvuReg n k p = ⟨k, [n / 2, n % 2]⟩ := if_pos h

theorem cvuReg_port {n : Nat} (h : 32 ≤ n) (k p : RK) : cvuReg n k p = ⟨p, [n - 32]⟩ := if_neg (Nat.not_lt.2 h)

/-- STATE, POS, SEQ and INIT of a unit stand apart. -/
theorem cvuState_ne_pos (n : Nat) : (cvuReg n .cvuState .pcvuState).addr ≠ (cvuReg n .cvuPos .pcvuPos).addr := by
  unfold cvuReg
  split <;> simp [Reg.addr, RK.row]

section
variable {s : State} {ag : Agent} {u : CvuId}

theorem ctrlWrite_feedLen_cluster (hn : cvuNum u < 32) (h : Reaches s ag (cvuReg (cvuNum u) .cvuFeedLen .pcvuFeedLen))
    (len : Fin 1099511627776) : s.dev.silent.ctrlWrite ag (cvuReg (cvuNum u) .cvuFeedLen .pcvuFeedLen) (BitVec.ofNat 64 len.val) =
      s.dev.silent.cvuFeedStart ag (cvuNum u) len.val := by
  have hrwt : accMask [.rwt] RK.cvuFeedLen = 0 := by decide
  rw [cvuReg_cluster hn] at h ⊢
  rw [ctrlWrite_reaches h (.inr (rwtMask_none s.dev hrwt)) _]
  have hdo : ∀ (d : Dev) (w : Word), d.regDo ag 0 ⟨.cvuFeedLen, [cvuNum u / 2, cvuNum u % 2]⟩ (BitVec.allOnes 64) w =
    d.cvuFeedStart ag (2 * (cvuNum u / 2) + cvuNum u % 2) (fld 39 0 (w &&& BitVec.allOnes 64)) := fun _ _ => rfl
  have hlen : fld 39 0 (BitVec.ofNat 64 len.val &&& BitVec.allOnes 64) = len.val := by
    have := len.isLt
    rw [BitVec.and_allOnes]
    simp only [fld, bits, BitVec.toNat_ofNat]
    omega
  rw [hdo, hlen, Nat.div_add_mod]

theorem ctrlWrite_feedLen_port (hn : 32 ≤ cvuNum u) (h : Reaches s ag (cvuReg (cvuNum u) .cvuFeedLen .pcvuFeedLen)) (v : Word) :
    s.dev.silent.ctrlWrite ag (cvuReg (cvuNum u) .cvuFeedLen .pcvuFeedLen) v = s.dev.silent := by
  have hrwt : accMask [.rwt] RK.pcvuFeedLen = 0 := by decide
  rw [cvuReg_port hn] at h ⊢
  rw [ctrlWrite_reaches h (.inr (rwtMask_none s.dev hrwt)) _]
  rfl

theorem ctrlWrite_init (h : Reaches s ag (cvuReg (cvuNum u) .cvuCtrl .pcvuCtrl)) :
    s.dev.silent.ctrlWrite ag (cvuReg (cvuNum u) .cvuCtrl .pcvuCtrl) 1 = s.dev.silent.cvuInit (cvuNum u) := by
  by_cases hn : cvuNum u < 32
  · have hrwt : accMask [.rwt] RK.cvuCtrl = 0 := by decide
    rw [cvuReg_cluster hn] at h ⊢
    rw [ctrlWrite_reaches h (.inr (rwtMask_none s.dev hrwt)) _]
    have hdo : ∀ (d : Dev) (w : Word), d.regDo ag 0 ⟨.cvuCtrl, [cvuNum u / 2, cvuNum u % 2]⟩ (BitVec.allOnes 64) w =
      d.cvuCtrl (2 * (cvuNum u / 2) + cvuNum u % 2) (w &&& BitVec.allOnes 64) := fun _ _ => rfl
    rw [hdo, BitVec.and_allOnes, Nat.div_add_mod]
    rfl
  · have hrwt : accMask [.rwt] RK.pcvuCtrl = 0 := by decide
    rw [cvuReg_port (Nat.le_of_not_lt hn)] at h ⊢
    rw [ctrlWrite_reaches h (.inr (rwtMask_none s.dev hrwt)) _]
    have hdo : ∀ (d : Dev) (w : Word), d.regDo ag 0 ⟨.pcvuCtrl, [cvuNum u - 32]⟩ (BitVec.allOnes 64) w =
      d.cvuCtrl (32 + (cvuNum u - 32)) (w &&& BitVec.allOnes 64) := fun _ _ => rfl
    rw [hdo, BitVec.and_allOnes, Nat.add_sub_cancel' (Nat.le_of_not_lt hn)]
    rfl

end

/-! ## Feeds (R515 to R517) -/

section
variable (d : Dev) (n : Nat)

theorem onCvu_self (f : Cvu → Cvu) : (d.onCvu n f).cvu n = f (d.cvu n) := FMap.getD_set_self _ _ _ _

theorem onCvu_other (f : Cvu → Cvu) {j : Nat} (h : j ≠ n) : (d.onCvu n f).cvu j = d.cvu j := FMap.getD_set_ne _ _ _ _ _ _ (Ne.symm h)

/-- An event of a unit. -/
theorem cvuEvent_facts (code : Nat) : Raises (d.cvuEvent n code) code ∧ (d.cvuEvent n code).regs = d.regs ∧
    ((d.cvuEvent n code).cvu n).feeding = (d.cvu n).feeding ∧ (∀ j, j ≠ n → (d.cvuEvent n code).cvu j = d.cvu j) ∧
    (d.cvuEvent n code).mem = d.mem ∧ (d.cvuEvent n code).cores = d.cores :=
  ⟨raises_raise _ _ _ _, rfl, (congrArg Cvu.feeding (onCvu_self d n (fun x => { x with event := code }))).trans rfl,
    fun _ h => onCvu_other d n (fun x => { x with event := code }) h, rfl, rfl⟩

variable {d n}

theorem cvuFeedStart_refused {ag : Agent} {len code : Nat} (hn : n < 32)
    (h : (d.cvuBusy n = true ∧ code = 0x0D04) ∨ (d.cvuBusy n = false ∧ d.cvuBad n = true ∧ code = 0x0D01) ∨
      (d.cvuBusy n = false ∧ d.cvuBad n = false ∧
        d.sramWhole (d.clusterPart (n / 2)) (d.regFld (cvuReg n .cvuFeedAddr .pcvuFeedAddr) 47 0) len = false ∧ code = 0x0D02)) :
    d.cvuFeedStart ag n len = d.cvuEvent n code := by
  unfold Dev.cvuFeedStart
  dsimp only
  rw [if_neg (Nat.not_le.2 hn)]
  rcases h with ⟨hbusy, rfl⟩ | ⟨hbusy, hbad, rfl⟩ | ⟨hbusy, hbad, hwhole, rfl⟩
  · rw [if_pos hbusy]
  · rw [hbusy, if_neg (by decide), if_pos hbad]
  · rw [hbusy, hbad, hwhole]
    rfl

theorem cvuFeedStart_starts {ag : Agent} {len : Nat} (hn : n < 32) (hbusy : d.cvuBusy n = false) (hbad : d.cvuBad n = false)
    (hwhole : d.sramWhole (d.clusterPart (n / 2)) (d.regFld (cvuReg n .cvuFeedAddr .pcvuFeedAddr) 47 0) len = true) :
    d.cvuFeedStart ag n len = (d.cvuBegin n).onCvu n (fun x =>
      { x with feeding := true, left := len, addr := d.regFld (cvuReg n .cvuFeedAddr .pcvuFeedAddr) 47 0, owner := ag.owner }) := by
  unfold Dev.cvuFeedStart
  dsimp only
  rw [if_neg (Nat.not_le.2 hn), hbusy, hbad, hwhole]
  rfl

theorem cvuBegin_rest (d : Dev) (n : Nat) : d.cvuBegin n = { d with regs := (d.cvuBegin n).regs } := by
  unfold Dev.cvuBegin
  split <;> rfl

theorem cvuBusy_idle (h : d.cvuBusy n = false) : (d.cvu n).feeding = false := by
  unfold Dev.cvuBusy at h
  simp only [Bool.or_eq_false_iff] at h
  exact h.1.1

/-- Clean bytes are folded whole. -/
theorem beforePoison_clean (a : Nat) (bs : List Byte) : beforePoison a (clean bs) = bs := by
  have hnone : (clean bs).findIdx? (fun b => b.2) = none := by
    refine List.findIdx?_eq_none_iff.2 fun x hx => ?_
    obtain ⟨b, -, rfl⟩ := List.mem_map.1 hx
    rfl
  unfold beforePoison
  rw [hnone]
  exact plain_clean bs

/-- The unit after bytes that it has folded. -/
def Cvu.advanced (x : Cvu) (m : Nat) : Cvu := { x with left := x.left - m, addr := x.addr + m }

/-- A run over clean bytes folds them in order. -/
theorem cvuRun_clean (k : Nat) (hclean : Clean d (d.cvu n).addr (min k (d.cvu n).left)) :
    d.cvuRun n k = (false, (d.cvuBytes n (d.mem.getAll (d.cvu n).addr (min k (d.cvu n).left))).onCvu n
      (fun y => y.advanced (min k (d.cvu n).left))) := by
  have hread := sramRead_clean hclean
  have hlen : (d.mem.getAll (d.cvu n).addr (min k (d.cvu n).left)).length = min k (d.cvu n).left := length_getAll _ _ _
  unfold Dev.cvuRun
  dsimp only
  rw [hread]
  dsimp only
  rw [beforePoison_clean, hlen, decide_eq_false (Nat.lt_irrefl _)]
  rfl

/-- The bytes enter STATE in order, and POS counts them. -/
theorem cvuBytes_regs (d : Dev) (n : Nat) (bs : List Byte) :
    (d.cvuBytes n bs).reg (cvuReg n .cvuState .pcvuState) = BitVec.ofNat 64 (crcBytes (d.cvuSetting n) (d.cvuState n)
      (foldStream (fld 11 10 (d.cvuCfgWord n)) (d.reg (cvuReg n .cvuFoldBase .pcvuFoldBase)).toNat
        (d.reg (cvuReg n .cvuPos .pcvuPos)).toNat bs)) ∧
    (d.cvuBytes n bs).reg (cvuReg n .cvuPos .pcvuPos) = BitVec.ofNat 64 ((d.reg (cvuReg n .cvuPos .pcvuPos)).toNat + bs.length) := by
  unfold Dev.cvuBytes
  dsimp only
  refine ⟨?_, Dev.setReg_self _ _ _⟩
  rw [Dev.setReg_ne _ _ _ _ (cvuState_ne_pos n).symm, Dev.setReg_self]

/-- The feed has folded clean bytes and released its unit. -/
def Dev.cvuFolded (d : Dev) (n m : Nat) : Dev :=
  ((d.cvuBytes n (d.mem.getAll (d.cvu n).addr m)).onCvu n (fun y => y.advanced m)).cvuFree n

theorem cvuFolded_facts (d : Dev) (n m : Nat) :
    (d.cvuFolded n m).reg (cvuReg n .cvuState .pcvuState) = BitVec.ofNat 64 (crcBytes (d.cvuSetting n) (d.cvuState n)
      (foldStream (fld 11 10 (d.cvuCfgWord n)) (d.reg (cvuReg n .cvuFoldBase .pcvuFoldBase)).toNat
        (d.reg (cvuReg n .cvuPos .pcvuPos)).toNat (d.mem.getAll (d.cvu n).addr m))) ∧
    (d.cvuFolded n m).reg (cvuReg n .cvuPos .pcvuPos) = BitVec.ofNat 64 ((d.reg (cvuReg n .cvuPos .pcvuPos)).toNat + m) ∧
    ((d.cvuFolded n m).cvu n).feeding = false ∧ ((d.cvuFolded n m).cvu n).left = 0 ∧ (d.cvuFolded n m).raised = d.raised ∧
    (d.cvuFolded n m).mem = d.mem ∧ (d.cvuFolded n m).cores = d.cores ∧ (∀ j, j ≠ n → (d.cvuFolded n m).cvu j = d.cvu j) ∧
    (d.cvuFolded n m).pruneDue = d.pruneDue ∧ (d.cvuFolded n m).resetN = d.resetN ∧ (d.cvuFolded n m).vin = d.vin := by
  obtain ⟨hstate, hpos⟩ := cvuBytes_regs d n (d.mem.getAll (d.cvu n).addr m)
  rw [length_getAll] at hpos
  let y : Dev := (d.cvuBytes n (d.mem.getAll (d.cvu n).addr m)).onCvu n (fun y => y.advanced m)
  have hfree : (d.cvuFolded n m).cvu n = { y.cvu n with feeding := false, byDma := false, left := 0, addr := 0, owner := 0x1FF } :=
    onCvu_self y n _
  refine ⟨hstate, hpos, ?_, ?_, rfl, rfl, rfl, fun j hj => ?_, rfl, rfl, rfl⟩
  · rw [hfree]
  · rw [hfree]
  · exact (onCvu_other y n _ hj).trans (onCvu_other (d.cvuBytes n _) n _ hj)

theorem cvuAbort_clean {steps : Nat} (hfeeding : (d.cvu n).feeding = true) (hclean : Clean d (d.cvu n).addr (min (256 * steps) (d.cvu n).left)) :
    d.cvuAbort n steps = d.cvuFolded n (min (256 * steps) (d.cvu n).left) := by
  unfold Dev.cvuAbort
  rw [if_pos hfeeding, cvuRun_clean _ hclean]
  rfl

theorem cvuFeedDone_clean (hfeeding : (d.cvu n).feeding = true) (hclean : Clean d (d.cvu n).addr (d.cvu n).left) :
    d.cvuFeedDone n = d.cvuFolded n (d.cvu n).left := by
  have hrun := cvuRun_clean (d := d) (n := n) (d.cvu n).left (by rwa [Nat.min_self])
  rw [Nat.min_self] at hrun
  unfold Dev.cvuFeedDone
  rw [if_pos hfeeding, hrun]
  rfl

end

/-! ## The commands of a unit -/

/-- What a command of a unit leaves alone. -/
def CvuCalm (s : State) (n : Nat) (d : Dev) : Prop := d.mem = s.dev.mem ∧ d.cores = s.dev.cores ∧ ∀ j, j ≠ n → d.cvu j = s.dev.cvu j

/-- What m bytes of a feed that ends have made of its unit. -/
def CvuFolds (s : State) (n m : Nat) (d : Dev) : Prop :=
  d.reg (cvuReg n .cvuState .pcvuState) = BitVec.ofNat 64 (crcBytes (s.dev.cvuSetting n) (s.dev.cvuState n)
    (foldStream (fld 11 10 (s.dev.cvuCfgWord n)) (s.dev.reg (cvuReg n .cvuFoldBase .pcvuFoldBase)).toNat
      (s.dev.reg (cvuReg n .cvuPos .pcvuPos)).toNat (s.dev.mem.getAll (s.dev.cvu n).addr m))) ∧
  d.reg (cvuReg n .cvuPos .pcvuPos) = BitVec.ofNat 64 ((s.dev.reg (cvuReg n .cvuPos .pcvuPos)).toNat + m) ∧
  (d.cvu n).feeding = false ∧ (d.cvu n).left = 0 ∧ d.raised = s.dev.raised ∧ CvuCalm s n d

section
variable {s : State} {ag : Agent} {u : CvuId}

theorem completes_folds {c : Instr} {g : Dev → Dev} {m : Nat} (hacts : Acts s) (hexec : exec c s = run s (fun d => (g d).settle))
    (heq : g s.dev.silent = s.dev.silent.cvuFolded (cvuNum u) m) : Completes c s (CvuFolds s (cvuNum u) m) := by
  obtain ⟨hstate, hpos, hfeeding, hleft, hraised, hmem, hcores, hothers, hdue, hpins⟩ := cvuFolded_facts s.dev.silent (cvuNum u) m
  exact completes_as hacts hexec heq hdue hpins ⟨hstate, hpos, hfeeding, hleft, hraised, hmem, hcores, hothers⟩

theorem completes_cvuEvent {c : Instr} {g : Dev → Dev} {code : Nat} (hacts : Acts s) (hexec : exec c s = run s (fun d => (g d).settle))
    (heq : g s.dev.silent = s.dev.silent.cvuEvent (cvuNum u) code) :
    Completes c s (fun d => Raises d code ∧ (d.cvu (cvuNum u)).feeding = (s.dev.cvu (cvuNum u)).feeding ∧ d.regs = s.dev.regs ∧
      CvuCalm s (cvuNum u) d) := by
  obtain ⟨hraise, hregs, hfeeding, hothers, hmem, hcores⟩ := cvuEvent_facts s.dev.silent (cvuNum u) code
  exact completes_as hacts hexec heq rfl ⟨rfl, rfl⟩ ⟨hraise, hfeeding, hregs, hmem, hcores, hothers⟩

theorem completes_feedStarts (hn : cvuNum u < 32) (len : Fin 1099511627776) (h : Reaches s ag (cvuReg (cvuNum u) .cvuFeedLen .pcvuFeedLen))
    (hbusy : s.dev.cvuBusy (cvuNum u) = false) (hbad : s.dev.cvuBad (cvuNum u) = false)
    (hwhole : s.dev.sramWhole (s.dev.clusterPart (cvuNum u / 2)) (s.dev.regFld (cvuReg (cvuNum u) .cvuFeedAddr .pcvuFeedAddr) 47 0) len.val = true) :
    Completes (.cvuFeedStart ag u len) s (fun d => d.cvu (cvuNum u) = { s.dev.cvu (cvuNum u) with
      feeding := true, left := len.val, addr := s.dev.regFld (cvuReg (cvuNum u) .cvuFeedAddr .pcvuFeedAddr) 47 0, owner := ag.owner } ∧
      d.raised = s.dev.raised ∧ CvuCalm s (cvuNum u) d) := by
  obtain ⟨hacts, -⟩ := id h
  have heq := (ctrlWrite_feedLen_cluster hn h len).trans (cvuFeedStart_starts (d := s.dev.silent) (ag := ag) hn hbusy hbad hwhole)
  have hrest := cvuBegin_rest s.dev.silent (cvuNum u)
  generalize s.dev.silent.cvuBegin (cvuNum u) = y at *
  have hy : ∀ j, y.cvu j = s.dev.cvu j := fun j => by
    rw [hrest]
    rfl
  refine completes_as hacts (exec_cvuFeedStart ag u len s) heq (Eq.trans (b := y.pruneDue) rfl (by rw [hrest]; rfl))
    ⟨Eq.trans (b := y.resetN) rfl (by rw [hrest]; rfl), Eq.trans (b := y.vin) rfl (by rw [hrest]; rfl)⟩
    ⟨?_, Eq.trans (b := y.raised) rfl (by rw [hrest]; rfl), Eq.trans (b := y.mem) rfl (by rw [hrest]; rfl),
      Eq.trans (b := y.cores) rfl (by rw [hrest]; rfl), fun j hj => (onCvu_other y _ _ hj).trans (hy j)⟩
  refine (onCvu_self y _ _).trans ?_
  rw [hy]
  rfl

theorem completes_feedRefused {code : Nat} (hn : cvuNum u < 32) (len : Fin 1099511627776) (h : Reaches s ag (cvuReg (cvuNum u) .cvuFeedLen .pcvuFeedLen))
    (hrefused : s.dev.silent.cvuFeedStart ag (cvuNum u) len.val = s.dev.silent.cvuEvent (cvuNum u) code) :
    Completes (.cvuFeedStart ag u len) s (fun d => Raises d code ∧ (d.cvu (cvuNum u)).feeding = (s.dev.cvu (cvuNum u)).feeding ∧
      d.regs = s.dev.regs ∧ CvuCalm s (cvuNum u) d) := by
  obtain ⟨hacts, -⟩ := id h
  exact completes_cvuEvent hacts (exec_cvuFeedStart ag u len s) ((ctrlWrite_feedLen_cluster hn h len).trans hrefused)

theorem completes_feedDone (hacts : Acts s) (hon : s.dev.tileOn (cvuNum u / 2 / 4) = true) (hfeeding : (s.dev.cvu (cvuNum u)).feeding = true)
    (hclean : Clean s.dev (s.dev.cvu (cvuNum u)).addr (s.dev.cvu (cvuNum u)).left) :
    Completes (.cvuFeedDone u) s (CvuFolds s (cvuNum u) (s.dev.cvu (cvuNum u)).left) :=
  completes_folds hacts (exec_cvuFeedDone u s)
    ((if_pos (c := s.dev.silent.tileOn (cvuNum u / 2 / 4) = true) hon).trans
      (cvuFeedDone_clean (d := s.dev.silent) hfeeding (clean_silent hclean)))

theorem completes_cvuAbort (steps : Nat) (h : Reaches s ag (cvuReg (cvuNum u) .cvuCtrl .pcvuCtrl))
    (hfeeding : (s.dev.cvu (cvuNum u)).feeding = true)
    (hclean : Clean s.dev (s.dev.cvu (cvuNum u)).addr (min (256 * steps) (s.dev.cvu (cvuNum u)).left)) :
    Completes (.cvuAbort ag u steps) s (CvuFolds s (cvuNum u) (min (256 * steps) (s.dev.cvu (cvuNum u)).left)) := by
  obtain ⟨hacts, -, -, -, -, hbehind⟩ := id h
  have hfree : s.dev.silent.behind ag = false := hbehind rfl
  have heq : s.dev.silent.cvuAbortWrite ag (cvuNum u) steps = s.dev.silent.cvuAbort (cvuNum u) steps := by
    unfold Dev.cvuAbortWrite
    dsimp only
    rw [busDo_reaches h, hfree]
    rfl
  exact completes_folds hacts (exec_cvuAbort ag u steps s) (heq.trans (cvuAbort_clean (d := s.dev.silent) hfeeding (clean_silent hclean)))

theorem completes_cvuInit (h : Reaches s ag (cvuReg (cvuNum u) .cvuCtrl .pcvuCtrl)) (hbusy : s.dev.cvuBusy (cvuNum u) = false) :
    Completes (.cvuInit ag u) s (fun d =>
      d.reg (cvuReg (cvuNum u) .cvuState .pcvuState) = s.dev.cvuMask (cvuNum u) (s.dev.reg (cvuReg (cvuNum u) .cvuInit .pcvuInit)) ∧
      d.reg (cvuReg (cvuNum u) .cvuPos .pcvuPos) = 0 ∧ d.raised = s.dev.raised ∧ d.cvus = s.dev.cvus ∧ CvuCalm s (cvuNum u) d) := by
  obtain ⟨hacts, -⟩ := id h
  have hbusy' : s.dev.silent.cvuBusy (cvuNum u) = false := hbusy
  have heq : s.dev.silent.ctrlWrite ag (cvuReg (cvuNum u) .cvuCtrl .pcvuCtrl) 1 =
      (s.dev.silent.setReg (cvuReg (cvuNum u) .cvuState .pcvuState)
        (s.dev.cvuMask (cvuNum u) (s.dev.reg (cvuReg (cvuNum u) .cvuInit .pcvuInit)))).setReg (cvuReg (cvuNum u) .cvuPos .pcvuPos) 0 := by
    rw [ctrlWrite_init h]
    unfold Dev.cvuInit
    rw [hbusy']
    rfl
  refine completes_as hacts (exec_cvuInit ag u s) heq rfl ⟨rfl, rfl⟩ ⟨?_, Dev.setReg_self _ _ _, rfl, rfl, rfl, rfl, fun _ _ => rfl⟩
  rw [Dev.setReg_ne _ _ _ _ (cvuState_ne_pos _).symm, Dev.setReg_self]

theorem completes_cvuInitBusy (h : Reaches s ag (cvuReg (cvuNum u) .cvuCtrl .pcvuCtrl)) (hbusy : s.dev.cvuBusy (cvuNum u) = true) :
    Completes (.cvuInit ag u) s (fun d => Raises d 0x0D04 ∧ (d.cvu (cvuNum u)).feeding = (s.dev.cvu (cvuNum u)).feeding ∧ d.regs = s.dev.regs ∧
      CvuCalm s (cvuNum u) d) := by
  obtain ⟨hacts, -⟩ := id h
  exact completes_cvuEvent hacts (exec_cvuInit ag u s) ((ctrlWrite_init h).trans (if_pos (c := s.dev.silent.cvuBusy (cvuNum u) = true) hbusy))

end

/-! ## The Hub's counter generator (R527) -/

/-- The output of the generator stands in its registers. -/
def Dev.cgShown (d : Dev) (v : Word) (o : Nat) : Dev :=
  ((d.setReg ⟨.cgCtr1, []⟩ v).setReg ⟨.cgOut0, []⟩ (BitVec.ofNat 64 o)).setReg ⟨.cgOut1, []⟩ (BitVec.ofNat 64 (o / 2 ^ 64))

theorem cgShown_regs (d : Dev) (v : Word) (o : Nat) : (d.cgShown v o).reg ⟨.cgCtr1, []⟩ = v ∧
    (d.cgShown v o).reg ⟨.cgOut0, []⟩ = BitVec.ofNat 64 o ∧ (d.cgShown v o).reg ⟨.cgOut1, []⟩ = BitVec.ofNat 64 (o / 2 ^ 64) := by
  have h1 : Reg.addr ⟨.cgOut1, []⟩ ≠ Reg.addr ⟨.cgCtr1, []⟩ := by decide
  have h2 : Reg.addr ⟨.cgOut0, []⟩ ≠ Reg.addr ⟨.cgCtr1, []⟩ := by decide
  have h3 : Reg.addr ⟨.cgOut1, []⟩ ≠ Reg.addr ⟨.cgOut0, []⟩ := by decide
  unfold Dev.cgShown
  refine ⟨?_, ?_, Dev.setReg_self _ _ _⟩
  · rw [Dev.setReg_ne _ _ _ _ h1, Dev.setReg_ne _ _ _ _ h2, Dev.setReg_self]
  · rw [Dev.setReg_ne _ _ _ _ h3, Dev.setReg_self]

theorem cgWrite_eq (d : Dev) (v : Word) : d.cgWrite v =
    d.cgShown v (cgEval ((d.reg ⟨.cgCtr0, []⟩).toNat + v.toNat * 2 ^ 64) (d.reg ⟨.cgKey, []⟩).toNat) := by
  unfold Dev.cgWrite Dev.cgShown
  dsimp only
  rw [Nat.shiftLeft_eq, Nat.shiftRight_eq_div_pow]

theorem mix_all (old v : Word) : mix old (BitVec.allOnes 64) v = v := by
  unfold mix
  rw [BitVec.not_allOnes, BitVec.and_zero, BitVec.zero_or, BitVec.and_allOnes]

theorem completes_shown {s : State} {v : Word} {o : Nat} (hacts : Acts s)
    (heq : s.dev.silent.ctrlWrite .host ⟨.cgCtr1, []⟩ v = s.dev.silent.cgShown v o) : Completes (.cgEvaluate v) s (fun d =>
      d.reg ⟨.cgCtr1, []⟩ = v ∧ d.reg ⟨.cgOut0, []⟩ = BitVec.ofNat 64 o ∧
      d.reg ⟨.cgOut1, []⟩ = BitVec.ofNat 64 (o / 2 ^ 64) ∧ d.raised = s.dev.raised ∧ Calm s.dev d) := by
  obtain ⟨hctr, hout0, hout1⟩ := cgShown_regs s.dev.silent v o
  exact completes_as hacts (exec_cgEvaluate v s) heq rfl ⟨rfl, rfl⟩ ⟨hctr, hout0, hout1, rfl, rfl, rfl, rfl, rfl, rfl, rfl, rfl, rfl, rfl⟩

theorem ctrlWrite_cgCtr1 {s : State} (v : Word) (h : HostReaches s ⟨.cgCtr1, []⟩) :
    s.dev.silent.ctrlWrite .host ⟨.cgCtr1, []⟩ v = s.dev.silent.cgWrite v := by
  have hrwt : accMask [.rwt] RK.cgCtr1 = 0 := by decide
  have hdo : ∀ (d : Dev) (w : Word), d.regDo .host 0 ⟨.cgCtr1, []⟩ (BitVec.allOnes 64) w =
    d.cgWrite (mix (d.reg ⟨.cgCtr1, []⟩) (BitVec.allOnes 64) w) := fun _ _ => rfl
  rw [ctrlWrite_reaches (HostReaches.reaches h) (.inr (rwtMask_none s.dev hrwt)) v, hdo, mix_all]

/-- Settles O54: a feed over clean bytes folds them whole (`cvuRun_clean`), and what is refused is one event of its unit. -/
theorem checkValues : Obligations.CheckValues := by
  unfold Obligations.CheckValues
  refine fun s => ⟨fun ag u => ⟨fun len h => ⟨fun hn hbusy hbad hok => completes_feedStarts hn len h hbusy hbad hok,
    fun hn hbusy hbad hok => ?_, fun hn hbusy hbad => ?_, fun hn hbusy => ?_, fun hn => ?_⟩,
    completes_feedDone, completes_cvuAbort, completes_cvuInit, fun h hbusy => ?_⟩, fun v h => ?_⟩
  · obtain ⟨t, hexec, hpending, hraise, hfeeding, hregs, hcalm⟩ := completes_feedRefused hn len h
      (cvuFeedStart_refused (d := s.dev.silent) hn (.inr (.inr ⟨hbusy, hbad, Bool.eq_false_iff.2 hok, rfl⟩)))
    exact ⟨t, hexec, hpending, hraise, hfeeding.trans (cvuBusy_idle hbusy), hregs, hcalm⟩
  · obtain ⟨t, hexec, hpending, hraise, hfeeding, hregs, hcalm⟩ := completes_feedRefused hn len h
      (cvuFeedStart_refused (d := s.dev.silent) hn (.inr (.inl ⟨hbusy, hbad, rfl⟩)))
    exact ⟨t, hexec, hpending, hraise, hfeeding.trans (cvuBusy_idle hbusy), hregs, hcalm⟩
  · obtain ⟨t, hexec, hpending, hraise, -, hregs, hcalm⟩ := completes_feedRefused hn len h
      (cvuFeedStart_refused (d := s.dev.silent) hn (.inl ⟨hbusy, rfl⟩))
    exact ⟨t, hexec, hpending, hraise, hregs, hcalm⟩
  · obtain ⟨hacts, -⟩ := id h
    exact completes_as hacts (exec_cvuFeedStart ag u len s) (ctrlWrite_feedLen_port hn h _) rfl ⟨rfl, rfl⟩ rfl
  · obtain ⟨t, hexec, hpending, hraise, -, hregs, hcalm⟩ := completes_cvuInitBusy h hbusy
    exact ⟨t, hexec, hpending, hraise, hregs, hcalm⟩
  · obtain ⟨hacts, -⟩ := id h
    exact completes_shown hacts ((ctrlWrite_cgCtr1 v h).trans (cgWrite_eq s.dev.silent v))

end Sys2Proof.Machine
end

section
/-! SUPPORT. What reads of SRAM, ended feeds and aborted transfers leave alone beside `Sparing`: the bytes, the cores and the prunes. -/
namespace Sys2Proof.Machine

open Safety

/-! ## Reads of words (R289, R290, R302) -/

/-- A read changes registers, records of faults and the states of banks; bytes, cores and prunes stand. -/
structure WordRead (d d' : Dev) : Prop where
  rest : d' = { d with
    regs := d'.regs, parts := d'.parts, faults := d'.faults, raised := d'.raised, srams := d'.srams, fresh := d'.fresh
    pruneDue := d'.pruneDue, mem := { d.mem with wback := d'.mem.wback } }
  part : ∀ p, ∃ b m, d'.part p = { d.part p with before := b, beforeMem := m }

namespace WordRead

variable {d d' d'' : Dev}

theorem refl (d : Dev) : WordRead d d := ⟨rfl, fun _ => ⟨_, _, rfl⟩⟩

theorem trans (h : WordRead d d') (h' : WordRead d' d'') : WordRead d d'' := by
  refine ⟨h'.rest.trans ?_, fun p => ?_⟩
  · rw [h.rest]
  · obtain ⟨b, m, hp⟩ := h.part p
    obtain ⟨b', m', hp'⟩ := h'.part p
    exact ⟨b', m', by rw [hp', hp]⟩

theorem foldl {α : Type} {f : Dev → α → Dev} {l : List α} (hf : ∀ d x, WordRead d (f d x)) : ∀ d, WordRead d (l.foldl f d) := by
  induction l with
  | nil => exact fun d => refl d
  | cons x l ih => exact fun d => (hf d x).trans (ih (f d x))

theorem ite {x y : Dev} {c : Prop} [Decidable c] (hx : WordRead d x) (hy : WordRead d y) : WordRead d (if c then x else y) := by
  split
  · exact hx
  · exact hy

/-- What a read leaves. -/
theorem frame (h : WordRead d d') : d'.cores = d.cores ∧ d'.prunes = d.prunes ∧ d'.phys = d.phys ∧ d'.mem.bytes = d.mem.bytes ∧
    d'.mem.poison = d.mem.poison ∧ d'.mem.err = d.mem.err ∧ d'.resetN = d.resetN ∧ d'.vin = d.vin := by
  have hrest := h.rest
  and_intros <;> rw [hrest]

end WordRead

section
variable (d : Dev)

theorem wordRead_reported {d' : Dev} (h : Reported d d') : WordRead d d' := by
  refine ⟨h.rest.trans ?_, h.part⟩
  rw [h.rest]

theorem wordRead_setReg (r : Reg) (v : Word) : WordRead d (d.setReg r v) := ⟨rfl, fun _ => ⟨_, _, rfl⟩⟩

theorem wordRead_onSram (u : Nat) (f : Sram → Sram) : WordRead d (d.onSram u f) := ⟨rfl, fun _ => ⟨_, _, rfl⟩⟩

theorem wordRead_tick : WordRead d d.tick := ⟨rfl, fun _ => ⟨_, _, rfl⟩⟩

theorem wordRead_raise (code : Nat) (part : Option Nat) (unit : Nat) : WordRead d (d.raise code part unit) := ⟨rfl, fun _ => ⟨_, _, rfl⟩⟩

theorem wordRead_duePrune (c code : Nat) : WordRead d (d.duePrune c code) :=
  WordRead.ite (WordRead.refl d) ⟨rfl, fun _ => ⟨_, _, rfl⟩⟩

theorem wordRead_faultIn (code p unit : Nat) (rs : List Remedy) : WordRead d (d.faultIn code p unit rs) :=
  (wordRead_raise d _ _ _).trans (wordRead_reported _ (reported_faultPart _ _ _ _))

theorem wordRead_bankFail (u b code : Nat) (joined : Bool) : WordRead d (d.bankFail u b code joined) := by
  unfold Dev.bankFail
  dsimp only
  have hevent : ∀ f ev p q unit rs, WordRead d (if joined = true then (d.onSram u f).raise ev p unit
      else (d.onSram u f).faultIn ev q unit rs) := fun f ev p q unit rs =>
    (wordRead_onSram d u f).trans (WordRead.ite (wordRead_raise _ ev p unit) (wordRead_faultIn _ ev q unit rs))
  exact WordRead.ite (WordRead.refl d) (WordRead.ite ((hevent _ _ _ _ _ _).trans (wordRead_duePrune _ _ _)) (hevent _ _ _ _ _ _))

theorem wordRead_eccRecord (u b row word : Nat) (ue : Bool) : WordRead d (d.eccRecord u b row word ue) := by
  have hcount : ∀ r, WordRead d (if ue = true then d.count r 31 16 1 else d.count r 15 0 1) := fun r =>
    WordRead.ite (wordRead_setReg d _ _) (wordRead_setReg d _ _)
  unfold Dev.eccRecord
  dsimp only
  exact WordRead.ite
    (((((hcount _).trans (wordRead_setReg _ _ _)).trans (wordRead_setReg _ _ _)).trans (wordRead_setReg _ _ _)).trans (wordRead_setReg _ _ _))
    (((((hcount _).trans (wordRead_setReg _ _ _)).trans (wordRead_setReg _ _ _)).trans (wordRead_setReg _ _ _)).trans (wordRead_setReg _ _ _))

theorem wordRead_eccCorr (u b row word : Nat) : WordRead d (d.eccCorr u b row word) := by
  have hrecord : WordRead d ((((d.eccRecord u b row word false).raise (if isSpd u then 0x0601 else 0x0701) (some (d.sramPart u))
      (if isSpd u then u else u - 1000)).onSram u (fun x => x.onBank b (fun k => { k with ce := k.ce + 1 })))) :=
    ((wordRead_eccRecord d u b row word false).trans (wordRead_raise _ _ _ _)).trans (wordRead_onSram _ _ _)
  exact WordRead.ite (hrecord.trans (wordRead_bankFail _ _ _ _ _)) hrecord

theorem wordRead_eccUncorr (u b row word : Nat) : WordRead d (d.eccUncorr u b row word) :=
  ((wordRead_eccRecord d u b row word true).trans (wordRead_faultIn _ _ _ _ _)).trans (wordRead_bankFail _ _ _ _ _)

theorem wordRead_wback (l : List Nat) : WordRead d { d with mem := { d.mem with wback := l } } := ⟨rfl, fun _ => ⟨_, _, rfl⟩⟩

theorem wordRead_readWord (w : Nat) (scrub : Bool) : WordRead d (d.readWord w scrub).2 := by
  unfold Dev.readWord
  split
  · exact WordRead.refl d
  · next u o _ =>
    dsimp only
    have huncorr : ∀ x : Dev, WordRead x (if (scrub && (x.sram u).bankDue (d.bankRow u o).1) = true then x
        else x.eccUncorr u (d.bankRow u o).1 (d.bankRow u o).2 (w % 8)) := fun x =>
      WordRead.ite (WordRead.refl x) (wordRead_eccUncorr x _ _ _ _)
    split
    · split
      · exact WordRead.refl d
      · split
        · exact WordRead.ite ((wordRead_tick d).trans (huncorr _)) (wordRead_tick d)
        · exact huncorr d
    · split
      · exact WordRead.refl d
      · split
        · exact (wordRead_eccCorr d _ _ _ _).trans (wordRead_wback _ _)
        · exact huncorr d

theorem readWords_cores (n : Nat) : ∀ (d : Dev) (w : Nat), (d.readWords w n).2.cores = d.cores := by
  induction n with
  | zero => exact fun _ _ => rfl
  | succ n ih => exact fun d w => (ih _ _).trans (wordRead_readWord d w false).frame.1

/-! ## Cores beside accesses to SRAM, feeds and transfers -/

theorem sramRead_cores (a n : Nat) : (d.sramRead a n).2.cores = d.cores := by
  unfold Dev.sramRead
  dsimp only
  split
  · rfl
  · split
    · exact readWords_cores _ d _
    · rfl

theorem storeWord_cores (w : Nat) (bs : List (Nat × Byte)) (poison : Bool) : (d.storeWord w bs poison).cores = d.cores := by
  have hinject : (d.injectMask w).2.cores = d.cores := by
    unfold Dev.injectMask
    split
    · rfl
    · dsimp only
      rw [apply_ite Prod.snd, apply_ite Dev.cores]
      exact ite_self _
  exact hinject

theorem writeWord_cores (w : Nat) (bs : List (Nat × Byte × Bool)) : (d.writeWord w bs).cores = d.cores := by
  unfold Dev.writeWord
  dsimp only
  split
  · exact storeWord_cores d _ _ _
  · exact (storeWord_cores _ _ _ _).trans (wordRead_readWord d w false).frame.1

theorem sramWrite_cores (a : Nat) (bs : List PByte) : (d.sramWrite a bs).2.cores = d.cores := by
  unfold Dev.sramWrite
  dsimp only
  split
  · rfl
  · split
    · exact foldl_keeps Dev.cores (fun d i => writeWord_cores d _ _) _ d
    · rfl

theorem cvuRun_cores (n k : Nat) : (d.cvuRun n k).2.cores = d.cores := by
  unfold Dev.cvuRun
  dsimp only
  split <;> exact sramRead_cores d _ _

theorem cvuAbort_cores (n k : Nat) : (d.cvuAbort n k).cores = d.cores := by
  have hrun := cvuRun_cores d n (256 * k)
  unfold Dev.cvuAbort
  dsimp only
  generalize d.cvuRun n (256 * k) = r at *
  split
  · split
    · exact hrun
    · exact hrun
  · rfl

theorem cvuStop_cores (n : Nat) : (d.cvuStop n).cores = d.cores := by
  unfold Dev.cvuStop
  split
  · exact cvuAbort_cores d.tick n _
  · rfl

theorem cvuPrune_cores (c : Nat) : (d.cvuPrune c).cores = d.cores := by
  have hstop : ∀ (d : Dev) n, (if (d.cvu n).owner = c then d.cvuStop n else d).cores = d.cores := fun d n => by
    split
    · exact cvuStop_cores d n
    · rfl
  exact foldl_keeps Dev.cores hstop _ d

theorem dmaStop_cores (g ch idx code : Nat) (rest : List DmaDesc) : (d.dmaStop g ch idx code rest).cores = d.cores := by
  have hcancel : ∀ (d : Dev) prune, (d.dmaCancel g ch prune rest).cores = d.cores := fun d prune => by
    refine foldl_keeps Dev.cores (fun d x => ?_) rest d
    dsimp only
    split <;> exact sramWrite_cores d _ _
  unfold Dev.dmaStop
  dsimp only
  split <;> exact hcancel d _

theorem dmaAbortBy_cores (g ch : Nat) (cause : AbortCause) (k : Nat) : (d.dmaAbortBy g ch cause k).cores = d.cores := by
  unfold Dev.dmaAbortBy
  dsimp only
  split
  · rfl
  · exact dmaStop_cores _ g ch _ _ _
  · rfl
  · split <;> rfl

theorem dmaPrune_cores (c : Nat) : (d.dmaPrune c).cores = d.cores := by
  refine foldl_keeps Dev.cores (fun d g => foldl_keeps Dev.cores (fun d ch => ?_) _ d) _ d
  dsimp only
  split
  · exact dmaAbortBy_cores d g ch _ _
  · rfl

end

end Sys2Proof.Machine
end

section
/-! SUPPORT. Proof of the statement about prunes (R535, R537, R546). -/
namespace Sys2Proof.Machine

open Safety

/-! ## The prune that acts (R535) -/

section
variable (d : Dev) (c : Nat)

/-- The core with its program stopped for a prune. -/
def Dev.pruneStopped (d : Dev) (c : Nat) : Dev := (((d.genDrop c).enginesStop c).perfClear c).onSq c Sq.prunedState

theorem perfClear_cores : (d.perfClear c).cores = d.cores := by
  have hreset : ∀ (ks : List RK) (d : Dev), (d.regsReset ks [c]).cores = d.cores := fun ks d =>
    foldl_keeps Dev.cores (f := fun (d : Dev) k => d.regReset ⟨k, [c]⟩) (fun _ _ => rfl) ks d
  exact (hreset _ _).trans (hreset _ d)

theorem pruneStopped_core : ((d.pruneStopped c).core c).sq.st = .halted ∧ ((d.pruneStopped c).core c).sq.pruned = true ∧
    ∀ j, j ≠ c → (d.pruneStopped c).core j = d.core j := by
  have hperf : ∀ j, (((d.genDrop c).enginesStop c).perfClear c).core j = ((d.genDrop c).enginesStop c).core j := fun j => by
    unfold Dev.core
    rw [perfClear_cores]
  unfold Dev.pruneStopped
  refine ⟨?_, ?_, fun j hj => ?_⟩
  · rw [Dev.onSq_get, if_pos rfl]
    rfl
  · rw [Dev.onSq_get, if_pos rfl]
    rfl
  · rw [Dev.onSq_get, if_neg (Ne.symm hj), hperf]
    unfold Dev.enginesStop
    rw [Dev.onSq_get, if_neg (Ne.symm hj), Dev.onCore_get, if_neg (Ne.symm hj)]
    rfl

variable {d c}

/-- What the core holds is released, poisoned or aborted. -/
def Dev.pruneFreed (d : Dev) (c : Nat) : Dev :=
  let d2 := ((d.pruneStopped c).releaseReqs c).cvuPrune c
  ((d2.sems.filter (fun e => e.2.owner = c)).foldl
    (fun (d : Dev) e => d.semSend { id := 0, who := .hub, kind := .poison, sem := e.1 }) d2).dmaPrune c

theorem pruneFreed_cores (d : Dev) (c : Nat) : (d.pruneFreed c).cores = (d.pruneStopped c).cores := by
  have hsends : ∀ (l : List (Nat × Sem)) (d : Dev), (l.foldl (fun (d : Dev) e =>
      d.semSend { id := 0, who := .hub, kind := .poison, sem := e.1 }) d).cores = d.cores := fun l d =>
    foldl_keeps Dev.cores (f := fun (d : Dev) (e : Nat × Sem) => d.semSend { id := 0, who := .hub, kind := .poison, sem := e.1 })
      (fun _ _ => rfl) l d
  exact (dmaPrune_cores _ c).trans ((hsends _ _).trans (cvuPrune_cores _ c))

theorem pruneAct_eq {code k : Nat} (hphys : d.physOf c = some k) (hnew : d.pruning c = false) :
    d.pruneAct c code = { (d.pruneFreed c).bankToCore c k with
      prunes := (d.pruneFreed c).prunes ++ [{ core := c, phys := k, code := code, tempo := d.tempo }] } := by
  unfold Dev.pruneAct
  rw [hphys]
  dsimp only
  rw [hnew, if_neg (by decide)]
  rfl

/-- A core that stops to be pruned: its prune is noted, the other cores are as they were. -/
theorem pruneAct_facts {code k : Nat} (hphys : d.physOf c = some k) (hnew : d.pruning c = false) :
    (d.pruneAct c code).cores = (d.pruneStopped c).cores ∧
    ∃ y ∈ (d.pruneAct c code).prunes, y.core = c ∧ y.phys = k ∧ y.code = code ∧ y.tempo = d.tempo ∧ y.done = false := by
  rw [pruneAct_eq hphys hnew]
  have hcores := pruneFreed_cores d c
  generalize d.pruneFreed c = x at *
  exact ⟨hcores, { core := c, phys := k, code := code, tempo := d.tempo }, List.mem_append_right _ (List.mem_singleton_self _),
    rfl, rfl, rfl, rfl, rfl⟩

/-- The one prune that is due acts when the command ends. -/
theorem settle_prunes {code k : Nat} (hdue : d.pruneDue = [(c, code)]) (hphys : d.physOf c = some k) (hnew : d.pruning c = false) :
    (d.settle.core c).sq.st = .halted ∧ (d.settle.core c).sq.pruned = true ∧
    (∃ y ∈ d.settle.prunes, y.core = c ∧ y.phys = k ∧ y.code = code ∧ y.tempo = d.tempo ∧ y.done = false) ∧
    d.settle.phys = d.phys ∧ ∀ j, j ≠ c → d.settle.core j = d.core j := by
  have hacts := pruneAct_facts (d := { d with pruneDue := [] }) (c := c) (code := code) (k := k) hphys hnew
  obtain ⟨hcores, hprunes⟩ := hacts
  obtain ⟨hst, hpruned, hothers⟩ := pruneStopped_core { d with pruneDue := [] } c
  have hsettle : d.settle.cores = (({ d with pruneDue := [] } : Dev).pruneAct c code).cores ∧
      d.settle.prunes = (({ d with pruneDue := [] } : Dev).pruneAct c code).prunes := by
    unfold Dev.settle
    rw [hdue]
    exact ⟨rfl, rfl⟩
  have hcore : ∀ j, d.settle.core j = (({ d with pruneDue := [] } : Dev).pruneStopped c).core j := fun j => by
    unfold Dev.core
    rw [hsettle.1, hcores]
  refine ⟨?_, ?_, ?_, rfl, fun j hj => ?_⟩
  · rw [hcore]
    exact hst
  · rw [hcore]
    exact hpruned
  · rw [hsettle.2]
    exact hprunes
  · rw [hcore]
    exact hothers j hj

end

/-! ## The prune of the hosting software (R546) -/

/-- The low nine bits of PRT_PRUNE take what is written. -/
theorem fld_prtPrune (old : Word) {c : Nat} (hc : c < 512) :
    fld 8 0 (plainBits ⟨.prtPrune, []⟩ (BitVec.allOnes 64) (BitVec.ofNat 64 (2 ^ 15 + c)) old) = c := by
  have hrw : accMask [.rw] RK.prtPrune = 0x1FF := by decide
  have hw1c : accMask [.w1c] RK.prtPrune = 0 := by decide
  have hones : ∀ k, k < 9 → (0x1FF : Word).getLsbD k = true := by decide
  have hbits : plainBits ⟨.prtPrune, []⟩ (BitVec.allOnes 64) (BitVec.ofNat 64 (2 ^ 15 + c)) old =
      mix old 0x1FF (BitVec.ofNat 64 (2 ^ 15 + c)) := by
    unfold plainBits
    dsimp only
    rw [hrw, hw1c, and_none, and_notNone, BitVec.allOnes_and]
  rw [hbits]
  refine Nat.eq_of_testBit_eq fun k => ?_
  rw [fld_testBit]
  by_cases hk : k < 9
  · have hin : (2 ^ 15 + c).testBit k = c.testBit k := by
      rw [Nat.testBit_two_pow_add_gt (by omega)]
    unfold mix
    rw [Nat.zero_add, BitVec.getLsbD_or, BitVec.getLsbD_and, BitVec.getLsbD_and, BitVec.getLsbD_not, hones k hk, BitVec.getLsbD_ofNat, hin]
    have h64 : k < 64 := by omega
    simp [h64, hk]
  · have hlt : c < 2 ^ k := Nat.lt_of_lt_of_le hc (Nat.pow_le_pow_right (n := 2) (by decide) (Nat.le_of_not_lt hk))
    rw [Nat.testBit_lt_two_pow hlt]
    simp [hk]

/-- GO of PRT_PRUNE names its core. -/
theorem ctrlWrite_prtPrune {s : State} (c : CoreId) (h : HostReaches s ⟨.prtPrune, []⟩) :
    ∃ d' : Dev, s.dev.silent.ctrlWrite .host ⟨.prtPrune, []⟩ (BitVec.ofNat 64 (2 ^ 15 + c.val)) = d'.hostPrune c.val ∧
      d' = { s.dev.silent with regs := d'.regs } := by
  have hc := c.isLt
  have hrwt : accMask [.rwt] RK.prtPrune = 0 := by decide
  have hrwl : BitVec.allOnes 64 &&& accMask [.rwl] RK.prtPrune = 0 := by decide
  have hbit : bit 15 (BitVec.ofNat 64 (2 ^ 15 + c.val) &&& BitVec.allOnes 64) = true := by
    rw [BitVec.and_allOnes]
    unfold bit
    rw [BitVec.getLsbD_ofNat, Nat.testBit_two_pow_add_eq, Nat.testBit_lt_two_pow (by omega)]
    rfl
  obtain ⟨d', honly, hplain⟩ := plainWrite_bits (rwtMask_none s.dev.silent (r := ⟨.prtPrune, []⟩) hrwt) (BitVec.allOnes 64) (BitVec.ofNat 64 (2 ^ 15 + c.val))
    Agent.host.owner
  rw [if_pos hrwl] at hplain
  have hfld : d'.regFld ⟨.prtPrune, []⟩ 8 0 = c.val := by
    unfold Dev.regFld
    rw [honly.self]
    exact fld_prtPrune _ (by omega)
  refine ⟨d', ?_, honly.rest⟩
  rw [ctrlWrite_reaches (HostReaches.reaches h) (.inr (rwtMask_none s.dev hrwt)) _]
  have hdo : ∀ (d : Dev) (w : Word), d.regDo .host 0 ⟨.prtPrune, []⟩ (BitVec.allOnes 64) w =
    if bit 15 (w &&& BitVec.allOnes 64) then (d.plainWrite ⟨.prtPrune, []⟩ (BitVec.allOnes 64) w Agent.host.owner).hostPrune
      ((d.plainWrite ⟨.prtPrune, []⟩ (BitVec.allOnes 64) w Agent.host.owner).regFld ⟨.prtPrune, []⟩ 8 0)
    else d.plainWrite ⟨.prtPrune, []⟩ (BitVec.allOnes 64) w Agent.host.owner := fun _ _ => rfl
  rw [hdo, if_pos hbit, hplain, hfld]

theorem physOf_congr {d d' : Dev} (h : d'.phys = d.phys) (c : Nat) : d'.physOf c = d.physOf c := by
  unfold Dev.physOf Dev.physCore
  rw [h]

theorem pruning_congr {d d' : Dev} (h : d'.phys = d.phys) (hp : d'.prunes = d.prunes) (c : Nat) : d'.pruning c = d.pruning c := by
  unfold Dev.pruning
  rw [hp, physOf_congr h]

/-- The prune of a core in service is reported, and due. -/
theorem hostPrune_reports {d : Dev} {c k : Nat} (hc : c < 384) (hphys : d.physOf c = some k) (hst : (d.physCore k).st ≠ .pruned)
    (hnew : d.pruning c = false) (hdue : d.pruneDue = []) : ∃ y : Dev, d.hostPrune c = y ∧ y.pruneDue = [(c, 0)] ∧
      y = { d with regs := y.regs, parts := y.parts, faults := y.faults, raised := y.raised, pruneDue := y.pruneDue } := by
  have hreported := reported_faultPart d 0 (d.corePart c) [.core k]
  have heq : d.hostPrune c = (d.faultPart 0 (d.corePart c) [.core k]).duePrune c 0 := by
    unfold Dev.hostPrune
    rw [hphys]
    refine if_neg ?_
    rw [hnew]
    simp only [Bool.false_eq_true, or_false]
    exact not_or.2 ⟨Nat.not_le.2 hc, hst⟩
  have hrest := hreported.rest
  generalize d.faultPart 0 (d.corePart c) [.core k] = x at *
  have hdue' : x.pruneDue = [] := by
    rw [hrest]
    exact hdue
  have hadd : x.duePrune c 0 = { x with pruneDue := [(c, 0)] } := by
    unfold Dev.duePrune
    rw [hdue']
    rfl
  refine ⟨{ x with pruneDue := [(c, 0)] }, heq.trans hadd, rfl, ?_⟩
  rw [hrest]

theorem completes_hostPrune {s : State} (c : CoreId) {k : Nat} (h : HostReaches s ⟨.prtPrune, []⟩) (hphys : s.dev.physOf c.val = some k)
    (hst : (s.dev.physCore k).st ≠ .pruned) (hnew : s.dev.pruning c.val = false) :
    Completes (.prtPruneGo c) s (fun d =>
      (d.core c.val).sq.st = .halted ∧ (d.core c.val).sq.pruned = true ∧
      (∃ y ∈ d.prunes, y.core = c.val ∧ y.phys = k ∧ y.code = 0 ∧ y.tempo = s.dev.tempo ∧ y.done = false) ∧
      d.phys = s.dev.phys ∧ ∀ j, j ≠ c.val → d.core j = s.dev.core j) := by
  obtain ⟨hacts, -⟩ := id h
  obtain ⟨d', hgo, hrest⟩ := ctrlWrite_prtPrune c h
  have hstand : d'.phys = s.dev.phys ∧ d'.prunes = s.dev.prunes ∧ d'.cores = s.dev.cores ∧ d'.pruneDue = [] ∧ d'.tempo = s.dev.tempo := by
    rw [hrest]
    exact ⟨rfl, rfl, rfl, hacts.2, rfl⟩
  obtain ⟨hph, hpr, hco, hdue, htempo⟩ := hstand
  have hphys' := (physOf_congr hph c.val).trans hphys
  have hnew' := (pruning_congr hph hpr c.val).trans hnew
  have hst' : (d'.physCore k).st ≠ .pruned := by
    unfold Dev.physCore
    rw [hph]
    exact hst
  obtain ⟨y, hy, hduey, hreported⟩ := hostPrune_reports c.isLt hphys' hst' hnew' hdue
  have hstand' : y.phys = d'.phys ∧ y.prunes = d'.prunes ∧ y.cores = d'.cores ∧ y.tempo = d'.tempo := by
    rw [hreported]
    exact ⟨rfl, rfl, rfl, rfl⟩
  obtain ⟨hph', hpr', hco', htempo'⟩ := hstand'
  obtain ⟨hhalt, hpruned, ⟨z, hz, hcore, hzphys, hcode, hztempo, hdone⟩, hsphys, hothers⟩ := settle_prunes (code := 0) (k := k) hduey
    ((physOf_congr hph' c.val).trans hphys') ((pruning_congr hph' hpr' c.val).trans hnew')
  refine ⟨_, (exec_prtPruneGo c s).trans (run_live s _ hacts.1), rfl, ?_⟩
  rw [hgo, hy]
  refine ⟨hhalt, hpruned, ⟨z, hz, hcore, hzphys, hcode, hztempo.trans (htempo'.trans htempo), hdone⟩, hsphys.trans (hph'.trans hph), fun j hj => ?_⟩
  refine (hothers j hj).trans ?_
  unfold Dev.core
  rw [hco', hco]

end Sys2Proof.Machine
end

section
/-! SUPPORT. Proof of the statement about prunes, its end: the prune that completes, and zero-fills (R319, R535 to R537). -/
namespace Sys2Proof.Machine

open Safety

/-! ## The check pass of a pruned core's scratchpad (R289, R302, R540) -/

/-- Every register that an error or an abort touches is PRT_RECOVERY or stands above the Hub's and the partitions' registers. -/
theorem touched_high {x : Reg} (hx : Touched x) : x = ⟨.prtRecovery, []⟩ ∨ 0xF0010000000 ≤ x.addr := by
  cases hx with
  | recovery => exact .inl rfl
  | sram u k hk =>
    simp only [List.mem_cons, List.not_mem_nil, or_false] at hk
    rcases hk with rfl | rfl | rfl | rfl <;> simp [Reg.addr, RK.row] <;> omega
  | cvu n k hk =>
    simp only [List.mem_cons, List.not_mem_nil, or_false] at hk
    rcases hk with rfl | rfl <;> simp [Reg.addr, RK.row] <;> omega
  | dma g ch hch k hk =>
    simp only [List.mem_cons, List.not_mem_nil, or_false] at hk
    rcases hk with rfl | rfl | rfl <;> simp [Reg.addr, RK.row] <;> omega
  | perf c k hk =>
    simp only [List.mem_cons, List.not_mem_nil, or_false] at hk
    rcases hk with rfl | rfl | rfl | rfl | rfl | rfl | rfl | rfl | rfl | rfl | rfl | rfl | rfl <;>
      simp [Reg.addr, RK.row] <;> omega

theorem spared_shape : Spared ⟨.prtShape, []⟩ := by
  have haddr : Reg.addr ⟨.prtShape, []⟩ < 0xF0010000000 := by decide
  have hne : Reg.addr ⟨.prtRecovery, []⟩ ≠ Reg.addr ⟨.prtShape, []⟩ := by decide
  intro x hx h
  rcases touched_high hx with rfl | hhigh
  · exact hne h
  · omega

theorem corePart_congr {d d' : Dev} (h : d'.reg ⟨.prtShape, []⟩ = d.reg ⟨.prtShape, []⟩) (c : Nat) : d'.corePart c = d.corePart c := by
  unfold Dev.corePart Dev.tilePart Dev.shape Dev.regFld
  rw [h]

/-- What the check pass leaves. -/
structure Checked (d d' : Dev) : Prop where
  frame : d'.cores = d.cores ∧ d'.prunes = d.prunes ∧ d'.phys = d.phys ∧ d'.mem.bytes = d.mem.bytes ∧ d'.mem.poison = d.mem.poison ∧
    d'.mem.err = d.mem.err ∧ d'.resetN = d.resetN ∧ d'.vin = d.vin
  due : d'.pruneDue = d.pruneDue
  part : ∀ p, (d'.part p).st = (d.part p).st
  corePart : ∀ c, d'.corePart c = d.corePart c

theorem checkPass_facts (d : Dev) (c k : Nat) : Checked d (d.checkPass c k) := by
  unfold Dev.checkPass
  dsimp only
  have hread := WordRead.foldl (f := fun (d : Dev) (e : Nat × BitVec 80) => (d.readWord e.1 true).2) (fun d e => wordRead_readWord d e.1 true)
    (l := d.mem.err.filter (fun e => decide (spdBase c ≤ 8 * e.1) && decide (8 * e.1 < spdBase c + spdBytes))) d
  have hspare := Sparing.foldl (f := fun (d : Dev) (e : Nat × BitVec 80) => (d.readWord e.1 true).2) (fun d e _ => sparing_readWord d e.1 true)
    (l := d.mem.err.filter (fun e => decide (spdBase c ≤ 8 * e.1) && decide (8 * e.1 < spdBase c + spdBytes))) d
  generalize (d.mem.err.filter (fun e => decide (spdBase c ≤ 8 * e.1) && decide (8 * e.1 < spdBase c + spdBytes))).foldl
    (fun (d : Dev) e => (d.readWord e.1 true).2) d = x at *
  refine ⟨hread.frame, rfl, fun p => ?_, fun c => corePart_congr (hspare.reg _ spared_shape) c⟩
  obtain ⟨b, m, hp⟩ := hread.part p
  have hst := congrArg Part.st hp
  exact hst

/-! ## The prune that completes -/

/-- The physical core as it is pruned. -/
def PhysCore.prunedBy (x : PhysCore) (pr : Prune) (s : Sram) : PhysCore := { x with
  st := .pruned, cause := pr.code, prunes := satAdd 8 x.prunes 1
  sram := { s with banks := banksOf (s.banks.map (fun e => (e.1, { ce := e.2.ce }))) } }

/-- A pruned core's banks pass through OFF. -/
def Sram.pruned (x : Sram) : Sram := { x with
  banks := banksOf ((upTo 32).map (fun b => (b, { st := .off, req := (x.bank b).req, owner := (x.bank b).owner })))
  due := [] }

/-- The record of a prune's fault. -/
def Prune.fault (pr : Prune) (c : Nat) : Word := put 8 0 c ||| put 31 16 pr.code ||| put 63 32 (low 32 pr.tempo)

/-- The banks and the record of the fault of a pruned core. -/
def Dev.pruneRecorded (d : Dev) (c : Nat) (pr : Prune) (p : Nat) : Dev := (d.onSram c Sram.pruned).setReg ⟨.prtFault, [p]⟩ (pr.fault c)

/-- The prune is done. -/
def Dev.pruneEnded (d : Dev) (c : Nat) (pr : Prune) : Dev := (d.onPrune pr.phys (fun x => { x with done := true })).prtCore 0x0F20 c

/-- The prune has been taken: its physical core, its column test, its banks, its records and its event. -/
def Dev.pruneTaken (d : Dev) (c : Nat) (pr : Prune) (p : Nat) : Dev :=
  ((((d.onPhys pr.phys (fun x => x.prunedBy pr (d.sram c))).onColumn pr.phys (setFld 6 6 1)).pruneRecorded c pr p).ftePerfClear c).pruneEnded c pr

theorem pruneComplete_eq {d : Dev} {c : Nat} {pr : Prune}
    (hfind : d.prunes.find? (fun (x : Prune) => decide (x.core = c) && !x.done && decide (some x.phys = d.physOf c)) = some pr)
    (hdma : d.dmaAbortingOf c = false) (hreqs : (d.core c).fte.reqs = []) :
    d.pruneComplete c = ((d.checkPass c pr.phys).pruneTaken c pr (d.corePart c)).chooseSpare c pr.phys := by
  unfold Dev.pruneComplete
  rw [hfind]
  dsimp only
  rw [hdma, hreqs]
  rfl

/-- What a prune that has been taken leaves of the device. -/
structure Taken (d y : Dev) (c k : Nat) (pr : Prune) : Prop where
  phys : y.phys = (d.onPhys k (fun x => x.prunedBy pr (d.sram c))).phys
  column : (y.reg ⟨.meColumn, [24 * (k / 28) + (d.physCore k).logical]⟩).getLsbD 6 = true
  shape : y.reg ⟨.prtShape, []⟩ = d.reg ⟨.prtShape, []⟩
  prunes : y.prunes = d.prunes.map (fun x => if x.phys = k then { x with done := true } else x)
  raises : Raises y 0x0F20
  frame : y.cores = d.cores ∧ y.mem = d.mem ∧ y.parts = d.parts ∧ y.pruneDue = d.pruneDue ∧ y.resetN = d.resetN ∧ y.vin = d.vin

section
variable {d : Dev} {c p : Nat} {pr : Prune}

theorem ftePerfClear_rest (d : Dev) (c : Nat) : d.ftePerfClear c = { d with regs := (d.ftePerfClear c).regs } := rfl

theorem ftePerfClear_reg (d : Dev) (c : Nat) {r : Reg} (h : ∀ k ∈ [RK.ftePerfDeliv, .ftePerfLoss, .ftePerfLead, .ftePerfWait], Reg.addr ⟨k, [c]⟩ ≠ r.addr) :
    (d.ftePerfClear c).reg r = d.reg r := by
  have hreset : ∀ (ks : List RK) (d : Dev), (∀ k ∈ ks, Reg.addr ⟨k, [c]⟩ ≠ r.addr) → (d.regsReset ks [c]).reg r = d.reg r := by
    intro ks
    induction ks with
    | nil => exact fun _ _ => rfl
    | cons k ks ih =>
      intro d h
      obtain ⟨hk, hks⟩ := List.forall_mem_cons.1 h
      exact (ih _ hks).trans (Dev.setReg_ne _ _ _ _ hk)
  exact hreset _ d h

theorem addr_meColumn (i : Nat) : Reg.addr ⟨.meColumn, [i]⟩ = 0xF0010000020 + 0x10000 * i := by simp [Reg.addr, RK.row]

theorem addr_prtFault (p : Nat) : Reg.addr ⟨.prtFault, [p]⟩ = 0xF0000501300 + 0x1000 * p := by simp [Reg.addr, RK.row]

/-- Every counter of a fetch engine stands above the first of a core's registers. -/
theorem addr_ftePerf (c : Nat) : ∀ k ∈ [RK.ftePerfDeliv, .ftePerfLoss, .ftePerfLead, .ftePerfWait],
    0xF0010000300 + 0x10000 * c ≤ Reg.addr ⟨k, [c]⟩ ∧ Reg.addr ⟨k, [c]⟩ < 0xF0010000400 + 0x10000 * c := by
  intro k hk
  simp only [List.mem_cons, List.not_mem_nil, or_false] at hk
  rcases hk with rfl | rfl | rfl | rfl <;> simp [Reg.addr, RK.row]

/-- The pruned core's column test begins in the register of the logical core that it serves. -/
theorem onColumn_serving {x : Dev} {k : Nat} (h : (x.physCore k).logical < 24) (f : Word → Word) :
    x.onColumn k f = x.setReg ⟨.meColumn, [24 * (k / 28) + (x.physCore k).logical]⟩
      (f (x.reg ⟨.meColumn, [24 * (k / 28) + (x.physCore k).logical]⟩)) := if_pos h

/-- What stands while a prune is recorded. -/
structure PruneFrame (d y : Dev) : Prop where
  frame : y.cores = d.cores ∧ y.mem = d.mem ∧ y.parts = d.parts
  due : y.pruneDue = d.pruneDue
  pins : y.resetN = d.resetN ∧ y.vin = d.vin

theorem PruneFrame.trans {d d' d'' : Dev} (h : PruneFrame d d') (h' : PruneFrame d' d'') : PruneFrame d d'' := by
  obtain ⟨⟨h1, h2, h3⟩, h4, h5, h6⟩ := h
  obtain ⟨⟨h1', h2', h3'⟩, h4', h5', h6'⟩ := h'
  exact ⟨⟨h1'.trans h1, h2'.trans h2, h3'.trans h3⟩, h4'.trans h4, h5'.trans h5, h6'.trans h6⟩

theorem pruneFrame_regs (d : Dev) {y : Dev} (h : y = { d with regs := y.regs }) : PruneFrame d y ∧ y.phys = d.phys ∧ y.prunes = d.prunes := by
  rw [h]
  exact ⟨⟨⟨rfl, rfl, rfl⟩, rfl, rfl, rfl⟩, rfl, rfl⟩

theorem pruneFrame_onSram (d : Dev) (c : Nat) (f : Sram → Sram) : PruneFrame d (d.onSram c f) ∧
    (d.onSram c f).phys = d.phys ∧ (d.onSram c f).prunes = d.prunes ∧ (d.onSram c f).regs = d.regs :=
  ⟨⟨⟨rfl, rfl, rfl⟩, rfl, rfl, rfl⟩, rfl, rfl, rfl⟩

theorem pruneFrame_recorded (d : Dev) (c : Nat) (pr : Prune) (p : Nat) : PruneFrame d (d.pruneRecorded c pr p) ∧
    (d.pruneRecorded c pr p).phys = d.phys ∧ (d.pruneRecorded c pr p).prunes = d.prunes ∧
    ∀ r : Reg, Reg.addr ⟨.prtFault, [p]⟩ ≠ r.addr → (d.pruneRecorded c pr p).reg r = d.reg r := by
  unfold Dev.pruneRecorded
  obtain ⟨hframe, hphys, hprunes, hregs⟩ := pruneFrame_onSram d c Sram.pruned
  generalize d.onSram c Sram.pruned = x at *
  obtain ⟨hframe', hphys', hprunes'⟩ := pruneFrame_regs x (y := x.setReg ⟨.prtFault, [p]⟩ (pr.fault c)) rfl
  exact ⟨hframe.trans hframe', hphys'.trans hphys, hprunes'.trans hprunes, fun r hr =>
    (Dev.setReg_ne x _ r _ hr).trans (Dev.reg_congr hregs r)⟩

theorem pruneFrame_onPhys (d : Dev) (k : Nat) (f : PhysCore → PhysCore) : PruneFrame d (d.onPhys k f) ∧ (d.onPhys k f).prunes = d.prunes :=
  ⟨⟨⟨rfl, rfl, rfl⟩, rfl, rfl, rfl⟩, rfl⟩

theorem pruneFrame_ended (d : Dev) (c : Nat) (pr : Prune) : PruneFrame d (d.pruneEnded c pr) ∧ (d.pruneEnded c pr).phys = d.phys ∧
    (d.pruneEnded c pr).prunes = d.prunes.map (fun x => if x.phys = pr.phys then { x with done := true } else x) ∧
    Raises (d.pruneEnded c pr) 0x0F20 ∧ (d.pruneEnded c pr).regs = d.regs :=
  ⟨⟨⟨rfl, rfl, rfl⟩, rfl, rfl, rfl⟩, rfl, rfl, ⟨_, List.mem_append_right _ (List.mem_singleton_self _), rfl⟩, rfl⟩

theorem prune_taken (hlogical : (d.physCore pr.phys).logical < 24) (hp : p < 4) : Taken d (d.pruneTaken c pr p) c pr.phys pr := by
  have hyphys : (d.onPhys pr.phys (fun x => x.prunedBy pr (d.sram c))).physCore pr.phys = (d.physCore pr.phys).prunedBy pr (d.sram c) :=
    FMap.getD_set_self _ _ _ _
  have hylogical : ((d.onPhys pr.phys (fun x => x.prunedBy pr (d.sram c))).physCore pr.phys).logical = (d.physCore pr.phys).logical :=
    by rw [hyphys]; rfl
  obtain ⟨hframe1, hprunes1⟩ := pruneFrame_onPhys d pr.phys (fun x => x.prunedBy pr (d.sram c))
  have hreg1 : ∀ r, (d.onPhys pr.phys (fun x => x.prunedBy pr (d.sram c))).reg r = d.reg r := fun _ => rfl
  have hcolumn := onColumn_serving (x := d.onPhys pr.phys (fun x => x.prunedBy pr (d.sram c))) (by rw [hylogical]; exact hlogical) (setFld 6 6 1)
  rw [hylogical] at hcolumn
  unfold Dev.pruneTaken
  rw [hcolumn]
  generalize hx1 : d.onPhys pr.phys (fun x => x.prunedBy pr (d.sram c)) = x1 at *
  have hreg2 : ∀ r : Reg, Reg.addr ⟨.meColumn, [24 * (pr.phys / 28) + (d.physCore pr.phys).logical]⟩ ≠ r.addr → _ := fun r hr =>
    Dev.setReg_ne x1 _ r (setFld 6 6 1 (x1.reg ⟨.meColumn, [24 * (pr.phys / 28) + (d.physCore pr.phys).logical]⟩)) hr
  have hself2 := Dev.setReg_self x1 ⟨.meColumn, [24 * (pr.phys / 28) + (d.physCore pr.phys).logical]⟩
    (setFld 6 6 1 (x1.reg ⟨.meColumn, [24 * (pr.phys / 28) + (d.physCore pr.phys).logical]⟩))
  obtain ⟨hframe2, hphys2, hprunes2⟩ := pruneFrame_regs x1 (y := x1.setReg ⟨.meColumn, [24 * (pr.phys / 28) + (d.physCore pr.phys).logical]⟩
    (setFld 6 6 1 (x1.reg ⟨.meColumn, [24 * (pr.phys / 28) + (d.physCore pr.phys).logical]⟩))) rfl
  generalize x1.setReg ⟨.meColumn, [24 * (pr.phys / 28) + (d.physCore pr.phys).logical]⟩
    (setFld 6 6 1 (x1.reg ⟨.meColumn, [24 * (pr.phys / 28) + (d.physCore pr.phys).logical]⟩)) = x2 at *
  obtain ⟨hframe3, hphys3, hprunes3, hreg3⟩ := pruneFrame_recorded x2 c pr p
  generalize x2.pruneRecorded c pr p = x3 at *
  obtain ⟨hframe4, hphys4, hprunes4⟩ := pruneFrame_regs x3 (ftePerfClear_rest x3 c)
  have hreg4 := fun r h => ftePerfClear_reg x3 c (r := r) h
  generalize x3.ftePerfClear c = x4 at *
  obtain ⟨hframe5, hphys5, hprunes5, hraises, hregs5⟩ := pruneFrame_ended x4 c pr
  have hreg5 := fun r => Dev.reg_congr hregs5 r
  generalize x4.pruneEnded c pr = x5 at *
  obtain ⟨⟨hcores, hmem, hparts⟩, hdue, hpins⟩ := (((hframe1.trans hframe2).trans hframe3).trans hframe4).trans hframe5
  have hshape : Reg.addr ⟨.prtShape, []⟩ = 0xF0000500000 := by decide
  have hmeColumn := addr_meColumn (24 * (pr.phys / 28) + (d.physCore pr.phys).logical)
  have hprtFault := addr_prtFault p
  have hftePerf := addr_ftePerf c
  refine ⟨?_, ?_, ?_, ?_, hraises, hcores, hmem, hparts, hdue, hpins⟩
  · rw [hphys5, hphys4, hphys3, hphys2, hx1]
  · rw [hreg5, hreg4 _ (fun k hk => by have := hftePerf k hk; omega), hreg3 _ (by omega), hself2, setFld_getLsbD,
      if_pos ⟨by decide, by decide, by decide⟩]
    rfl
  · rw [hreg5, hreg4 _ (fun k hk => by have := hftePerf k hk; omega), hreg3 _ (by omega), hreg2 _ (by omega), hreg1]
  · rw [hprunes5, hprunes4, hprunes3, hprunes2, hprunes1]

end

/-! ## The choice of a spare (R537, R542) -/

section
variable {d : Dev} {c k : Nat}

/-- Prunes, registers and cores beside the choice of a spare. -/
theorem chooseSpare_facts (d : Dev) (c k : Nat) (hk : (d.physCore k).st = .pruned) :
    (d.chooseSpare c k).physCore k = d.physCore k ∧ (d.chooseSpare c k).regs = d.regs ∧ (d.chooseSpare c k).raised = d.raised ∧
    (d.chooseSpare c k).cores = d.cores ∧ (d.chooseSpare c k).mem = d.mem ∧ (d.chooseSpare c k).pruneDue = d.pruneDue ∧
    (d.chooseSpare c k).resetN = d.resetN ∧ (d.chooseSpare c k).vin = d.vin := by
  unfold Dev.chooseSpare
  split
  case h_4 =>
    split
    case h_1 x hx =>
      have hspare := List.find?_some hx
      simp only [Bool.and_eq_true, decide_eq_true_eq] at hspare
      refine ⟨?_, rfl, rfl, rfl, rfl, rfl, rfl, rfl⟩
      have hne : x ≠ k := fun h => by
        rw [h, hk] at hspare
        exact nomatch hspare.1
      exact FMap.getD_set_ne _ _ _ _ _ _ hne
    case h_2 => exact ⟨rfl, rfl, rfl, rfl, rfl, rfl, rfl, rfl⟩
  all_goals exact ⟨rfl, rfl, rfl, rfl, rfl, rfl, rfl, rfl⟩

/-- In a running partition the lowest spare is chosen, or the core is to be mapped out. -/
theorem chooseSpare_running (hrun : (d.part (d.corePart c)).st = .running) :
    (∀ j, d.spareOf (clusterOf c) = some j → ((d.chooseSpare c k).physCore j).fill = 1 ∧ ((d.chooseSpare c k).physCore j).forCore = some c) ∧
    (d.spareOf (clusterOf c) = none →
      (d.chooseSpare c k).prunes = d.prunes.map (fun x => if x.phys = k then { x with mapout := true } else x)) := by
  refine ⟨fun j hj => ?_, fun hnone => ?_⟩
  · have heq : d.chooseSpare c k = (d.onPhys j (fun x => { x with fill := 1, forCore := some c })).onPrune k (fun x => { x with by_ := some j }) := by
      unfold Dev.chooseSpare
      rw [hrun]
      dsimp only
      rw [hj]
    have hself : (d.chooseSpare c k).physCore j = { d.physCore j with fill := 1, forCore := some c } := by
      rw [heq]
      exact FMap.getD_set_self _ _ _ _
    rw [hself]
    exact ⟨rfl, rfl⟩
  · unfold Dev.chooseSpare
    rw [hrun]
    dsimp only
    rw [hnone]
    rfl

end

/-- A core that serves a logical core is no spare. -/
theorem physOf_serves {d : Dev} {c k : Nat} (h : d.physOf c = some k) : (d.physCore k).logical = c % 24 ∧ (d.physCore k).st ≠ .spare := by
  unfold Dev.physOf at h
  obtain ⟨j, -, hj⟩ := List.exists_of_findSome?_eq_some h
  dsimp only at hj
  split at hj
  case isTrue hx =>
    obtain rfl := Option.some.inj hj
    refine ⟨hx.1, fun hs => ?_⟩
    rw [hs] at hx
    simp at hx
  case isFalse => exact nomatch hj

/-- A core that is pruned leaves the spares of its cluster as they were. -/
theorem spareOf_congr {d d' : Dev} {k : Nat} (hk : (d.physCore k).st ≠ .spare) (hk' : (d'.physCore k).st ≠ .spare)
    (h : ∀ j, j ≠ k → d'.physCore j = d.physCore j) (g : Nat) : d'.spareOf g = d.spareOf g := by
  have hsame : (fun i => decide ((d'.physCore i).st = .spare) && decide ((d'.physCore i).fill = 0)) =
      (fun i => decide ((d.physCore i).st = .spare) && decide ((d.physCore i).fill = 0)) := funext fun i => by
    by_cases hi : i = k
    · subst hi
      rw [decide_eq_false hk, decide_eq_false hk']
      rfl
    · rw [h i hi]
  unfold Dev.spareOf
  rw [hsame]

theorem completes_pruneComplete {s : State} (hacts : Acts s) (c : CoreId) (x : Prune)
    (hfind : s.dev.prunes.find? (fun (x : Prune) => decide (x.core = c.val) && !x.done && decide (some x.phys = s.dev.physOf c.val)) = some x)
    (hdma : s.dev.dmaAbortingOf c.val = false) (hreqs : (s.dev.core c.val).fte.reqs = []) :
    Completes (.pruneComplete c) s (fun d =>
      (d.physCore x.phys).st = .pruned ∧ (d.physCore x.phys).cause = x.code ∧
      (d.physCore x.phys).prunes = min ((s.dev.physCore x.phys).prunes + 1) 255 ∧
      (d.columnOf x.phys).getLsbD 6 = true ∧ Raises d 0x0F20 ∧
      (∀ k, (s.dev.part (s.dev.corePart c.val)).st = .running → s.dev.spareOf (clusterOf c.val) = some k →
        (d.physCore k).fill = 1 ∧ (d.physCore k).forCore = some c.val) ∧
      ((s.dev.part (s.dev.corePart c.val)).st = .running → s.dev.spareOf (clusterOf c.val) = none →
        ∃ y ∈ d.prunes, y.phys = x.phys ∧ y.mapout = true) ∧
      d.cores = s.dev.cores ∧ d.mem.bytes = s.dev.mem.bytes ∧ d.mem.poison = s.dev.mem.poison ∧ d.mem.err = s.dev.mem.err) := by
  have hmem := List.mem_of_find?_eq_some hfind
  have hx := List.find?_some hfind
  simp only [Bool.and_eq_true, decide_eq_true_eq] at hx
  obtain ⟨hlogical, hnospare⟩ := physOf_serves hx.2.symm
  have hlt : (s.dev.physCore x.phys).logical < 24 := hlogical ▸ Nat.mod_lt _ (by decide)
  have hp : s.dev.corePart c.val < 4 := tilePart_lt s.dev (by
    have := c.isLt
    unfold tileOf
    omega)
  have heq := pruneComplete_eq (d := s.dev.silent) hfind hdma hreqs
  have hcheck := checkPass_facts s.dev.silent c.val x.phys
  obtain ⟨hcores, hprunes, hphys, hbytes, hpoison, herr, hreset, hvin⟩ := hcheck.frame
  have hcheckDue := hcheck.due
  have hcheckPart := hcheck.part
  have hcheckCore := hcheck.corePart
  clear hcheck
  generalize s.dev.silent.checkPass c.val x.phys = y0 at *
  have hy0 : ∀ j, y0.physCore j = s.dev.physCore j := fun j => by
    unfold Dev.physCore
    rw [hphys]
    rfl
  have htaken : Taken y0 (y0.pruneTaken c.val x (s.dev.corePart c.val)) c.val x.phys x := prune_taken (by rw [hy0]; exact hlt) hp
  have heq' : s.dev.silent.pruneComplete c.val = (y0.pruneTaken c.val x (s.dev.corePart c.val)).chooseSpare c.val x.phys := heq
  clear heq
  generalize y0.pruneTaken c.val x (s.dev.corePart c.val) = y1 at *
  have hy1self : y1.physCore x.phys = (s.dev.physCore x.phys).prunedBy x (y0.sram c.val) := by
    unfold Dev.physCore
    rw [htaken.phys]
    refine (FMap.getD_set_self _ _ _ _).trans ?_
    exact congrArg (fun z => PhysCore.prunedBy z x (y0.sram c.val)) (hy0 x.phys)
  have hy1other : ∀ j, j ≠ x.phys → y1.physCore j = s.dev.physCore j := fun j hj => by
    unfold Dev.physCore
    rw [htaken.phys]
    exact (FMap.getD_set_ne _ _ _ _ _ _ (Ne.symm hj)).trans (hy0 j)
  have hy1st : (y1.physCore x.phys).st = .pruned := congrArg PhysCore.st hy1self
  obtain ⟨hpcore, hpregs, hpraised, hpcores, hpmem, hpdue, hpreset, hpvin⟩ := chooseSpare_facts y1 c.val x.phys hy1st
  obtain ⟨ht1, ht2, ht3, ht4, ht5, ht6⟩ := htaken.frame
  have hcorePart : y1.corePart c.val = s.dev.corePart c.val := (corePart_congr htaken.shape c.val).trans (hcheckCore c.val)
  have hst : (y1.part (y1.corePart c.val)).st = (s.dev.part (s.dev.corePart c.val)).st := by
    rw [hcorePart]
    have hpart : y1.part (s.dev.corePart c.val) = y0.part (s.dev.corePart c.val) := by
      unfold Dev.part
      rw [ht3]
    rw [hpart]
    exact hcheckPart _
  have hspare : y1.spareOf (clusterOf c.val) = s.dev.spareOf (clusterOf c.val) :=
    spareOf_congr hnospare (by rw [hy1st]; decide) hy1other _
  refine completes_as hacts (exec_pruneComplete c s) heq' (hpdue.trans (ht4.trans hcheckDue)) ⟨hpreset.trans (ht5.trans hreset), hpvin.trans (ht6.trans hvin)⟩
    ⟨?_, ?_, ?_, ?_, ?_, fun k hrun hk => ?_, fun hrun hnone => ?_, hpcores.trans (ht1.trans hcores), ?_, ?_, ?_⟩
  · rw [hpcore, hy1self]
    rfl
  · rw [hpcore, hy1self]
    rfl
  · rw [hpcore, hy1self]
    rfl
  · have hlogical1 : (y0.physCore x.phys).logical = (s.dev.physCore x.phys).logical := congrArg PhysCore.logical (hy0 x.phys)
    have hserves : ((y1.chooseSpare c.val x.phys).physCore x.phys).logical = (s.dev.physCore x.phys).logical := by
      rw [hpcore, hy1self]
      rfl
    have hcol := htaken.column
    rw [hlogical1] at hcol
    unfold Dev.columnOf
    dsimp only
    rw [hserves, if_pos hlt, Dev.reg_congr hpregs]
    exact hcol
  · obtain ⟨e, he, hcode⟩ := htaken.raises
    exact ⟨e, by rw [hpraised]; exact he, hcode⟩
  · exact (chooseSpare_running (hst.trans hrun)).1 k (hspare.trans hk)
  · rw [(chooseSpare_running (hst.trans hrun)).2 (hspare.trans hnone), htaken.prunes, hprunes]
    refine ⟨{ { x with done := true } with mapout := true }, List.mem_map.2 ⟨{ x with done := true }, List.mem_map.2 ⟨x, hmem, ?_⟩, ?_⟩, rfl, rfl⟩
    · exact if_pos rfl
    · exact if_pos rfl
  · rw [hpmem, ht2]
    exact hbytes
  · rw [hpmem, ht2]
    exact hpoison
  · rw [hpmem, ht2]
    exact herr

/-! ## Zero-fills -/

theorem completes_spareZeroFillDone {s : State} (hacts : Acts s) (k : Fin 448) (hfill : (s.dev.physCore k.val).fill = 1) :
    Completes (.spareZeroFillDone k) s (fun d =>
      d.physCore k.val = { s.dev.physCore k.val with fill := 2 } ∧ (∀ j, j ≠ k.val → d.physCore j = s.dev.physCore j) ∧
      d.prunes = s.dev.prunes ∧ d.regs = s.dev.regs ∧ d.raised = s.dev.raised ∧ Calm s.dev d) := by
  have heq : s.dev.silent.zeroFillDone k.val = s.dev.silent.onPhys k.val (fun x => { x with fill := 2 }) := if_pos hfill
  refine completes_as hacts (exec_spareZeroFillDone k s) heq rfl ⟨rfl, rfl⟩
    ⟨FMap.getD_set_self _ _ _ _, fun j hj => FMap.getD_set_ne _ _ _ _ _ _ (Ne.symm hj), rfl, rfl, rfl, rfl, rfl, rfl, rfl, rfl, rfl, rfl, rfl, rfl⟩

/-- Settles O53: a prune of the hosting software is due at once and acts when the command ends; the completion of a prune changes the
core's unit, its registers and its spare, while its check pass only reads; a zero-fill ends at its core. -/
theorem prunes : Obligations.Prunes := by
  refine ⟨fun c k s h hphys hst hnew => completes_hostPrune c h hphys hst hnew, fun c x s hacts hfind hdma hreqs =>
    completes_pruneComplete hacts c x hfind hdma hreqs, fun k s hacts hfill => completes_spareZeroFillDone hacts k hfill⟩

end Sys2Proof.Machine
end

section
/-! SUPPORT. Proof of the statement about the slow tier: windows, mirrors, packages (R374, R377, R380, R398 to R405). -/
namespace Sys2Proof.Machine

open Safety

/-! ## The bytes of a slot (R379) -/

/-- A byte of a lane whose byte was stored. -/
theorem laneByte_get (v : Lane) {k j : Nat} (hj : j < 4) (b : Byte) :
    (BitVec.ofNat 8 ((laneByte v k b).toNat >>> (8 * j)) : Byte) = if k = j then b else BitVec.ofNat 8 (v.toNat >>> (8 * j)) := by
  refine BitVec.eq_of_getLsbD_eq fun i hi => ?_
  have h255 : ∀ m, (0xFF : Nat).testBit m = decide (m < 8) := fun m => Nat.testBit_two_pow_sub_one 8 m
  have hbits : (laneByte v k b).getLsbD (8 * j + i) =
      ((v.getLsbD (8 * j + i) && !(decide (8 * k ≤ 8 * j + i) && decide (8 * j + i - 8 * k < 8))) ||
        (decide (8 * k ≤ 8 * j + i) && b.getLsbD (8 * j + i - 8 * k))) := by
    have h32 : 8 * j + i < 32 := by omega
    unfold laneByte
    simp only [BitVec.getLsbD_or, BitVec.getLsbD_and, BitVec.getLsbD_not, BitVec.getLsbD_ofNat, Nat.testBit_shiftLeft, h255, h32,
      decide_true, Bool.true_and, BitVec.testBit_toNat, ge_iff_le]
  have hget : ∀ w : Lane, (BitVec.ofNat 8 (w.toNat >>> (8 * j)) : Byte).getLsbD i = w.getLsbD (8 * j + i) := fun w => by
    rw [BitVec.getLsbD_ofNat, Nat.testBit_shiftRight, decide_eq_true hi, Bool.true_and, BitVec.testBit_toNat]
  rw [hget, hbits]
  by_cases hkj : k = j
  · subst hkj
    rw [if_pos rfl]
    have hle : 8 * k ≤ 8 * k + i := Nat.le_add_right _ _
    have hsub : 8 * k + i - 8 * k = i := Nat.add_sub_cancel_left _ _
    rw [hsub, decide_eq_true hle, decide_eq_true hi]
    simp
  · rw [if_neg hkj, hget]
    by_cases hle : 8 * k ≤ 8 * j + i
    · have hout : ¬ 8 * j + i - 8 * k < 8 := by omega
      have hzero : b.getLsbD (8 * j + i - 8 * k) = false := BitVec.getLsbD_of_ge _ _ (Nat.le_of_not_lt hout)
      rw [decide_eq_true hle, decide_eq_false hout, hzero]
      simp
    · rw [decide_eq_false hle]
      simp

/-- A plane offset is a byte of a lane. -/
theorem planeAt_byte (q off : Nat) : (planeAt q off).2.1 < 4 := by
  unfold planeAt
  split_ifs <;> dsimp only <;> omega

/-- Two plane offsets with one lane and byte are one. -/
theorem planeAt_inj {q off off' : Nat} (h : planeAt q off = planeAt q off') : off = off' := by
  unfold planeAt at h
  split_ifs at h <;> simp only [Prod.mk.injEq] at h <;> omega

/-- The plane of an offset is one of the two maps. -/
theorem planeAt_plane (q off : Nat) : (planeAt q off).2.2 = 0 ∨ (planeAt q off).2.2 = 1 := by
  unfold planeAt
  split_ifs <;> simp

theorem byte_setByte (x : NeaSlot) (q off off' : Nat) (b : Byte) :
    (x.setByte q off b).byte q off' = if off = off' then b else x.byte q off' := by
  have hb' := planeAt_byte q off'
  have hinj := fun h => planeAt_inj (q := q) (off := off) (off' := off') h
  have hp := planeAt_plane q off
  have hp' := planeAt_plane q off'
  have heq : off = off' → planeAt q off = planeAt q off' := fun h => congrArg _ h
  unfold NeaSlot.setByte NeaSlot.byte
  dsimp only
  generalize planeAt q off = u at *
  generalize planeAt q off' = w at *
  obtain ⟨i, k, p⟩ := u
  obtain ⟨j, l, r⟩ := w
  dsimp only at *
  have hiff : off = off' ↔ i = j ∧ k = l ∧ p = r := by
    refine ⟨fun h => ?_, fun ⟨h1, h2, h3⟩ => hinj (by rw [h1, h2, h3])⟩
    have := heq h
    simp only [Prod.mk.injEq] at this
    exact this
  have hlane : ∀ m : FMap Lane, (BitVec.ofNat 8 ((if i = j then laneByte (FMap.getD m i 0) k b else FMap.getD m j 0).toNat >>> (8 * l)) : Byte) =
      if i = j ∧ k = l then b else BitVec.ofNat 8 ((FMap.getD m j 0).toNat >>> (8 * l)) := fun m => by
    by_cases hij : i = j
    · subst hij
      rw [if_pos rfl, laneByte_get _ hb']
      simp
    · rw [if_neg hij, if_neg (fun h => hij h.1)]
  rcases hp with rfl | rfl <;> rcases hp' with rfl | rfl
  · simpa [hiff] using hlane _
  · simp [hiff]
  · simp [hiff]
  · simpa [hiff] using hlane _

theorem byte_setBytes_out (q : Nat) {off' : Nat} : ∀ (bs : List Byte) (x : NeaSlot) (off : Nat), off' < off →
    (x.setBytes q off bs).byte q off' = x.byte q off' := by
  intro bs
  induction bs with
  | nil => exact fun _ _ _ => rfl
  | cons b bs ih =>
    intro x off h
    refine (ih _ _ (by omega)).trans ?_
    rw [byte_setByte, if_neg (by omega)]

theorem byte_setBytes (q : Nat) : ∀ (bs : List Byte) (x : NeaSlot) (off i : Nat), i < bs.length →
    (x.setBytes q off bs).byte q (off + i) = bs.getD i 0 := by
  intro bs
  induction bs with
  | nil => exact fun _ _ _ h => nomatch h
  | cons b bs ih =>
    intro x off i h
    have hstep : (x.setBytes q off (b :: bs)) = (x.setByte q off b).setBytes q (off + 1) bs := rfl
    rw [hstep]
    cases i with
    | zero =>
      refine (byte_setBytes_out q bs (x.setByte q off b) (off + 1) (Nat.lt_succ_self off)).trans ?_
      rw [byte_setByte, if_pos rfl]
      rfl
    | succ i =>
      rw [show off + (i + 1) = off + 1 + i by omega, ih _ _ i (by simpa using h)]
      rfl

/-! ## Windows (R380) -/

section
variable (d : Dev)

/-- A unit that is read without errors leaves the device. -/
theorem slowUnits_clean (who : Option Nat) : ∀ (n u i : Nat), d.slowUnits who u i [] n = d := by
  have hread : ∀ c k unit, (d.unitRead c k unit .clean).2 = d := fun c k unit => by
    have hmatches : ((d.ctx c).slot k).matches (d.ctx c).q unit .clean = true := rfl
    unfold Dev.unitRead
    cases hq : d.pkgOf (d.slowPlace c k (4096 * unit)).1 with
    | none =>
      dsimp only
      rw [hmatches]
      rfl
    | some q =>
      dsimp only
      rw [hmatches]
      rfl
  intro n
  induction n with
  | zero => exact fun _ _ => rfl
  | succ n ih =>
    intro u i
    unfold Dev.slowUnits
    dsimp only
    cases h : d.slowAt who (4096 * u) with
    | none => exact ih _ _
    | some p =>
      dsimp only
      rw [show ReadErrs.at [] i = .clean from rfl, hread]
      exact ih _ _

theorem slowRead_clean (who : Option Nat) (a n : Nat) :
    d.slowRead who a n [] = ((upTo n).map (fun i => (d.slowAt who (a + i)).map d.slowByte), d) := by
  unfold Dev.slowRead
  dsimp only
  rw [slowUnits_clean]

end

/-- A list of places, each of them mapped and none of them lost, gives its bytes. -/
theorem slowBytes_found {d : Dev} {f : Nat → Option (Nat × Nat × Nat)} : ∀ l : List Nat,
    (∀ i ∈ l, ∃ p, f i = some p ∧ d.unitLost p.1 p.2.1 (p.2.2 / 4096) = false) →
    (l.map (fun i => (f i).map d.slowByte)).all Option.isSome = true ∧
    anyPoison ((l.map (fun i => (f i).map d.slowByte)).filterMap id) = false ∧
    plain ((l.map (fun i => (f i).map d.slowByte)).filterMap id) = l.filterMap (fun i => (f i).map (fun p => (d.slowByte p).1)) := by
  intro l
  induction l with
  | nil => exact fun _ => ⟨rfl, rfl, rfl⟩
  | cons i l ih =>
    intro h
    obtain ⟨⟨p, hp, hlost⟩, hl⟩ := List.forall_mem_cons.1 h
    obtain ⟨hall, hpoison, hplain⟩ := ih hl
    have hbyte : (d.slowByte p).2 = false := hlost
    refine ⟨?_, ?_, ?_⟩
    · rw [List.map_cons, List.all_cons, hp, hall]
      rfl
    · rw [List.map_cons, hp]
      exact (congrArg (fun b => b || _) hbyte).trans hpoison
    · rw [List.map_cons, hp]
      refine Eq.trans ?_ (List.filterMap_cons_some (by rw [hp]; rfl)).symm
      exact congrArg (List.cons _) hplain

theorem mem_upTo {i n : Nat} : i ∈ upTo n ↔ i < n := by
  unfold upTo
  exact List.mem_range

section
variable {s : State} (w : Option PartId) (a : Nat) (es : ReadErrs)

theorem completes_windowRead (hacts : Acts s) (hlost : s.dev.lost 32 = false) (n : Nat)
    (h : ∀ i, i < n → ∃ p, s.dev.slowAt (w.map Fin.val) (a + i) = some p ∧ s.dev.unitLost p.1 p.2.1 (p.2.2 / 4096) = false) :
    Completes (.slowWindowAccess w a n none []) s (fun d =>
      d = { s.dev with outs := [.bytes ((upTo n).filterMap (fun i =>
        (s.dev.slowAt (w.map Fin.val) (a + i)).map (fun p => (s.dev.slowByte p).1)))] }) := by
  obtain ⟨hall, hpoison, hplain⟩ := slowBytes_found (d := s.dev.silent) (f := fun i => s.dev.silent.slowAt (w.map Fin.val) (a + i))
    (upTo n) (fun i hi => h i (mem_upTo.1 hi))
  have heq : s.dev.silent.slowAccess (w.map Fin.val) a n none [] = s.dev.silent.out (.bytes ((upTo n).filterMap (fun i =>
      (s.dev.silent.slowAt (w.map Fin.val) (a + i)).map (fun p => (s.dev.silent.slowByte p).1)))) := by
    unfold Dev.slowAccess
    rw [if_neg (by rw [show s.dev.silent.lost 32 = s.dev.lost 32 from rfl, hlost]; decide)]
    dsimp only
    rw [slowRead_clean, if_pos hall, hpoison, if_neg (by decide), hplain]
  exact completes_as hacts (exec_slowWindowAccess w a n none [] s) heq rfl ⟨rfl, rfl⟩ rfl

theorem completes_busError {cmd : Instr} {f : Dev → Dev} (hacts : Acts s) (hexec : exec cmd s = run s (fun d => (f d).settle))
    (heq : f s.dev.silent = s.dev.silent.out .busError) : Completes cmd s (fun d => d = { s.dev with outs := [.busError] }) :=
  completes_as hacts hexec heq rfl ⟨rfl, rfl⟩ rfl

theorem completes_windowUnmapped (hacts : Acts s) (hlost : s.dev.lost 32 = false) {n i : Nat} (hi : i < n)
    (h : s.dev.slowAt (w.map Fin.val) (a + i) = none) :
    Completes (.slowWindowAccess w a n none []) s (fun d => d = { s.dev with outs := [.busError] }) := by
  refine completes_busError hacts (exec_slowWindowAccess w a n none [] s) ?_
  have hnone : ¬ ((upTo n).map (fun i => (s.dev.silent.slowAt (w.map Fin.val) (a + i)).map s.dev.silent.slowByte)).all Option.isSome = true := by
    intro hall
    have hin := List.all_eq_true.1 hall _ (List.mem_map_of_mem (mem_upTo.2 hi))
    rw [show s.dev.silent.slowAt (w.map Fin.val) (a + i) = s.dev.slowAt (w.map Fin.val) (a + i) from rfl, h] at hin
    exact nomatch hin
  unfold Dev.slowAccess
  rw [if_neg (by rw [show s.dev.silent.lost 32 = s.dev.lost 32 from rfl, hlost]; decide)]
  dsimp only
  rw [slowRead_clean, if_neg hnone]

theorem completes_windowMisaligned (hacts : Acts s) (hlost : s.dev.lost 32 = false) (bs : List Byte) (n : Nat)
    (h : a % 4096 ≠ 0 ∨ bs.length % 4096 ≠ 0 ∨ bs = []) :
    Completes (.slowWindowAccess w a n (some bs) es) s (fun d => d = { s.dev with outs := [.busError] }) := by
  refine completes_busError hacts (exec_slowWindowAccess w a n (some bs) es s) ?_
  have hno : ¬ (a % 4096 = 0 ∧ bs.length % 4096 = 0 ∧ 0 < bs.length) := by
    rintro ⟨ha, hlen, hpos⟩
    rcases h with h | h | rfl
    · exact h ha
    · exact h hlen
    · exact nomatch hpos
  have hwrite : s.dev.silent.slowWrite (w.map Fin.val) a bs = (false, s.dev.silent) := if_neg hno
  unfold Dev.slowAccess
  rw [if_neg (by rw [show s.dev.silent.lost 32 = s.dev.lost 32 from rfl, hlost]; decide)]
  dsimp only
  rw [hwrite]
  rfl

/-- The context's slot with bytes stored, and the units that were stored no longer lost. -/
def NeaCtx.stored (x : NeaCtx) (k off : Nat) (bs : List Byte) : NeaCtx := { x.onSlot k (fun s => s.setBytes x.q off bs) with
  lost := x.lost.filter (fun l => !(decide (l.slot = k) &&
    (match l.unit with
     | some u => decide (off / 4096 ≤ u) && decide (u < off / 4096 + bs.length / 4096)
     | none => false))) }

theorem stored_slot (x : NeaCtx) (k off : Nat) (bs : List Byte) : (x.stored k off bs).slot k = (x.slot k).setBytes x.q off bs ∧
    ∀ j, j ≠ k → (x.stored k off bs).slot j = x.slot j :=
  ⟨FMap.getD_set_self _ _ _ _, fun _ hj => FMap.getD_set_ne _ _ _ _ _ _ (Ne.symm hj)⟩

theorem completes_windowWrite (hacts : Acts s) (hlost : s.dev.lost 32 = false) (bs : List Byte) (n : Nat) {p e : Nat × Nat × Nat}
    (ha : a % 4096 = 0) (hlen : bs.length % 4096 = 0) (hne : bs ≠ []) (hp : s.dev.slowAt (w.map Fin.val) a = some p)
    (he : s.dev.slowAt (w.map Fin.val) (a + bs.length - 1) = some e) (hpe : p.1 = e.1)
    (himport : 0x1000000000 ≤ (a - 0x10000000000) % 0x2000000000) :
    Completes (.slowWindowAccess w a n (some bs) es) s (fun d =>
      (∀ i, i < bs.length → ((d.ctx p.1).slot p.2.1).byte (s.dev.ctx p.1).q (p.2.2 + i) = bs.getD i 0) ∧
      (∀ j, j ≠ p.2.1 → (d.ctx p.1).slot j = (s.dev.ctx p.1).slot j) ∧ (∀ j, j ≠ p.1 → d.ctx j = s.dev.ctx j) ∧
      d.outs = [] ∧ d.mem = s.dev.mem ∧ d.regs = s.dev.regs ∧ d.cores = s.dev.cores) := by
  have hwrite : s.dev.silent.slowWrite (w.map Fin.val) a bs = (true, s.dev.silent.onCtx p.1 (fun x => x.stored p.2.1 p.2.2 bs)) := by
    unfold Dev.slowWrite
    dsimp only
    rw [if_pos ⟨ha, hlen, List.length_pos_iff.2 hne⟩, show s.dev.silent.slowAt (w.map Fin.val) a = some p from hp,
      show s.dev.silent.slowAt (w.map Fin.val) (a + bs.length - 1) = some e from he]
    dsimp only
    rw [if_pos ⟨himport, hpe⟩]
    rfl
  have heq : s.dev.silent.slowAccess (w.map Fin.val) a n (some bs) es = s.dev.silent.onCtx p.1 (fun x => x.stored p.2.1 p.2.2 bs) := by
    unfold Dev.slowAccess
    rw [if_neg (by rw [show s.dev.silent.lost 32 = s.dev.lost 32 from rfl, hlost]; decide)]
    dsimp only
    rw [hwrite]
    rfl
  have hself : (s.dev.silent.onCtx p.1 (fun x => x.stored p.2.1 p.2.2 bs)).ctx p.1 = (s.dev.ctx p.1).stored p.2.1 p.2.2 bs :=
    FMap.getD_set_self _ _ _ _
  obtain ⟨hslot, hslots⟩ := stored_slot (s.dev.ctx p.1) p.2.1 p.2.2 bs
  refine completes_as hacts (exec_slowWindowAccess w a n (some bs) es s) heq rfl ⟨rfl, rfl⟩
    ⟨fun i hi => ?_, fun j hj => ?_, fun _ hj => FMap.getD_set_ne _ _ _ _ _ _ (Ne.symm hj), rfl, rfl, rfl, rfl⟩
  · rw [hself, hslot]
    exact byte_setBytes _ bs _ _ i hi
  · rw [hself]
    exact hslots j hj

end

/-! ## Mirrors (R398, R399) -/

section
variable {s : State} {m : MirrorPkt} {cur : MirrorCopy}

/-- What a packet with a unit is joined to, and how. -/
theorem mirrorReceive_eq (d : Dev) (hcur : ((FMap.getD d.mirrors m.ctx.val {}).recv = some cur ∧ cur.dev = m.dev ∧ cur.ring = m.ring ∧ cur.bad = false) ∨
      ((FMap.getD d.mirrors m.ctx.val {}).recv = none ∧ cur = ⟨m.dev, m.ring, m.total, [], false⟩))
    (hact : m.act = .unit) (hfits : m.total * 4096 ≤ d.regionBytes / 2) (hunit : m.unit < m.total) :
    d.mirrorReceive m = if crc32c (m.bytes.map BitVec.toNat) = m.check then
        { d with mirrors := FMap.set d.mirrors {} m.ctx.val { FMap.getD d.mirrors m.ctx.val {} with
          recv := some { cur with units := FMap.insert cur.units m.unit m.bytes } } }
      else d.mirrorDrop m.ctx.val m.dev m.ring { FMap.getD d.mirrors m.ctx.val {} with recv := some { cur with units := [], bad := true } } := by
  unfold Dev.mirrorReceive
  dsimp only
  rw [hact]
  dsimp only
  rw [if_neg (Nat.not_le.2 hunit), if_neg (Nat.not_lt.2 hfits)]
  rcases hcur with ⟨hrecv, hdev, hring, hbad⟩ | ⟨hrecv, rfl⟩
  · rw [hrecv]
    dsimp only
    have hsame : (if cur.dev = m.dev ∧ cur.ring = m.ring then cur else ⟨m.dev, m.ring, m.total, [], false⟩ : MirrorCopy) = cur :=
      if_pos ⟨hdev, hring⟩
    simp only [hsame]
    rw [hbad]
    rfl
  · rw [hrecv]
    rfl

theorem completes_mirrorUnit (hacts : Acts s)
    (hcur : ((FMap.getD s.dev.mirrors m.ctx.val {}).recv = some cur ∧ cur.dev = m.dev ∧ cur.ring = m.ring ∧ cur.bad = false) ∨
      ((FMap.getD s.dev.mirrors m.ctx.val {}).recv = none ∧ cur = ⟨m.dev, m.ring, m.total, [], false⟩))
    (hact : m.act = .unit) (hfits : m.total * 4096 ≤ s.dev.regionBytes / 2) (hunit : m.unit < m.total) :
    (crc32c (m.bytes.map BitVec.toNat) = m.check → Completes (.mirrorReceive m) s (fun d =>
      (FMap.getD d.mirrors m.ctx.val {}).recv = some { cur with units := FMap.insert cur.units m.unit m.bytes } ∧
      (FMap.getD d.mirrors m.ctx.val {}).held = (FMap.getD s.dev.mirrors m.ctx.val {}).held ∧
      d.nea = s.dev.nea ∧ d.raised = s.dev.raised ∧ Calm s.dev d)) ∧
    (crc32c (m.bytes.map BitVec.toNat) ≠ m.check → Completes (.mirrorReceive m) s (fun d =>
      (FMap.getD d.mirrors m.ctx.val {}).recv = some { cur with units := [], bad := true } ∧
      (FMap.getD d.mirrors m.ctx.val {}).held = (FMap.getD s.dev.mirrors m.ctx.val {}).held ∧ d.nea = s.dev.nea ∧
      Raises d 0x0B0C ∧ Calm s.dev d)) := by
  have heq := mirrorReceive_eq (d := s.dev.silent) hcur hact hfits hunit
  refine ⟨fun hcheck => ?_, fun hcheck => ?_⟩
  · rw [if_pos hcheck] at heq
    refine completes_as hacts (exec_mirrorReceive m s) heq rfl ⟨rfl, rfl⟩ ⟨?_, ?_, rfl, rfl, rfl, rfl, rfl, rfl, rfl, rfl, rfl, rfl, rfl⟩
    · exact congrArg MirrorRegion.recv (FMap.getD_set_self _ _ _ _)
    · exact (congrArg MirrorRegion.held (FMap.getD_set_self _ _ _ _)).trans rfl
  · rw [if_neg hcheck] at heq
    refine completes_as hacts (exec_mirrorReceive m s) heq rfl ⟨rfl, rfl⟩
      ⟨?_, ?_, rfl, raises_raise _ _ _ _, rfl, rfl, rfl, rfl, rfl, rfl, rfl, rfl, rfl⟩
    · exact congrArg MirrorRegion.recv (FMap.getD_set_self _ _ _ _)
    · exact (congrArg MirrorRegion.held (FMap.getD_set_self _ _ _ _)).trans rfl

end

section
variable {s : State}

/-- An event of a context. -/
theorem neaEvent_facts (d : Dev) (c code : Nat) : (d.neaEvent c code).ctx c = { d.ctx c with event := code } ∧
    (∀ j, j ≠ c → (d.neaEvent c code).ctx j = d.ctx j) ∧ Calm d (d.neaEvent c code) ∧ Raises (d.neaEvent c code) code ∧
    (d.neaEvent c code).pruneDue = d.pruneDue ∧ (d.neaEvent c code).resetN = d.resetN ∧ (d.neaEvent c code).vin = d.vin :=
  ⟨FMap.getD_set_self _ _ _ _, fun _ hj => FMap.getD_set_ne _ _ _ _ _ _ (Ne.symm hj), ⟨rfl, rfl, rfl, rfl, rfl, rfl, rfl, rfl, rfl⟩,
    raises_raise _ _ _ _, rfl, rfl, rfl⟩

theorem completes_mirrorAck (hacts : Acts s) (c : CtxId) {ring : Nat} (hsend : (s.dev.ctx c.val).sending = some ring) (ok : Bool) :
    Completes (.mirrorAckReceive c ring ok) s (fun d =>
      (d.ctx c.val).sending = none ∧ (d.ctx c.val).mirror = (if ok then ring else (s.dev.ctx c.val).mirror) ∧
      Raises d (if ok then 0x0B0A else 0x0B0C) ∧ Calm s.dev d) := by
  have heq : s.dev.silent.mirrorAck c.val ring ok = (s.dev.silent.onCtx c.val (fun x => { x with
      sending := none, mirror := if ok then ring else x.mirror })).neaEvent c.val (if ok then 0x0B0A else 0x0B0C) := if_pos hsend
  obtain ⟨hctx, -, hcalm, hraises, hdue, hpins⟩ := neaEvent_facts (s.dev.silent.onCtx c.val (fun x => { x with
      sending := none, mirror := if ok then ring else x.mirror })) c.val (if ok then 0x0B0A else 0x0B0C)
  have hset : (s.dev.silent.onCtx c.val (fun x => { x with sending := none, mirror := if ok then ring else x.mirror })).ctx c.val =
      { s.dev.ctx c.val with sending := none, mirror := if ok then ring else (s.dev.ctx c.val).mirror } := FMap.getD_set_self _ _ _ _
  rw [hset] at hctx
  generalize (s.dev.silent.onCtx c.val (fun x => { x with sending := none, mirror := if ok then ring else x.mirror })).neaEvent c.val
    (if ok then 0x0B0A else 0x0B0C) = y at *
  refine completes_as hacts (exec_mirrorAckReceive c ring ok s) heq hdue hpins ⟨?_, ?_, hraises, hcalm⟩
  · rw [hctx]
  · rw [hctx]

end

/-! ## Packages (R374, R401, R402, R405) -/

section
variable (d : Dev) (k : Nat)

theorem onPkg_self (f : NeaPkg → NeaPkg) : (d.onPkg k f).pkg k = f (d.pkg k) := FMap.getD_set_self _ _ _ _

theorem onPkg_other (f : NeaPkg → NeaPkg) {j : Nat} (h : j ≠ k) : (d.onPkg k f).pkg j = d.pkg j :=
  FMap.getD_set_ne _ _ _ _ _ _ (Ne.symm h)

end

section
variable {s : State}

theorem completes_slowTierRefresh (hacts : Acts s) (k : Fin 10) (temp : Int) : Completes (.slowTierRefresh k temp) s (fun d =>
    d.pkg k.val = { s.dev.pkg k.val with temp := temp } ∧ (∀ j, j ≠ k.val → d.pkg j = s.dev.pkg j) ∧ d.regs = s.dev.regs ∧
    d.nea = s.dev.nea ∧ d.raised = s.dev.raised ∧ Calm s.dev d) :=
  completes_as (d := s.dev.silent.onPkg k.val (fun x => { x with temp := temp })) hacts (exec_slowTierRefresh k temp s) rfl rfl ⟨rfl, rfl⟩
    ⟨FMap.getD_set_self _ _ _ _, fun _ hj => FMap.getD_set_ne _ _ _ _ _ _ (Ne.symm hj), rfl, rfl, rfl, rfl, rfl, rfl, rfl, rfl, rfl, rfl, rfl, rfl⟩

theorem completes_neaPkgCopyDone (hacts : Acts s) {t : Nat} (hlost : s.dev.lost 32 = false)
    (ht : (upTo 10).find? (fun j => (s.dev.pkg j).st = .target ∧ (s.dev.pkg j).copied = .no) = some t) :
    Completes .neaPkgCopyDone s (fun d =>
      d.pkg t = { s.dev.pkg t with copied := .reported } ∧ (∀ j, j ≠ t → d.pkg j = s.dev.pkg j) ∧ d.raised = s.dev.raised ∧
      Calm s.dev d) := by
  have hfind : (upTo 10).find? (fun j => !s.dev.silent.lost 32 ∧ (s.dev.silent.pkg j).st = .target ∧ (s.dev.silent.pkg j).copied = .no) = some t := by
    rw [← ht]
    congr 1
    funext j
    rw [show s.dev.silent.lost 32 = s.dev.lost 32 from rfl, hlost]
    simp only [Bool.not_false, true_and]
    rfl
  have heq : s.dev.silent.pkgCopyDone = s.dev.silent.onPkg t (fun x => { x with copied := .reported }) := by
    unfold Dev.pkgCopyDone
    rw [hfind]
  exact completes_as hacts (exec_neaPkgCopyDone s) heq rfl ⟨rfl, rfl⟩
    ⟨FMap.getD_set_self _ _ _ _, fun _ hj => FMap.getD_set_ne _ _ _ _ _ _ (Ne.symm hj), rfl, rfl, rfl, rfl, rfl, rfl, rfl, rfl, rfl, rfl⟩

/-- What the end of a rebuild leaves. -/
theorem rebuilt_facts (d : Dev) (t : Nat) : (((d.onPkg t (fun x => { x with rebuild := false })).raise 0x0B04 none t).remedyDone (.pkg t)).pkg t =
      { d.pkg t with rebuild := false } ∧
    (∀ j, j ≠ t → (((d.onPkg t (fun x => { x with rebuild := false })).raise 0x0B04 none t).remedyDone (.pkg t)).pkg j = d.pkg j) ∧
    Calm d (((d.onPkg t (fun x => { x with rebuild := false })).raise 0x0B04 none t).remedyDone (.pkg t)) ∧
    Raises (((d.onPkg t (fun x => { x with rebuild := false })).raise 0x0B04 none t).remedyDone (.pkg t)) 0x0B04 ∧
    (((d.onPkg t (fun x => { x with rebuild := false })).raise 0x0B04 none t).remedyDone (.pkg t)).pruneDue = d.pruneDue ∧
    (((d.onPkg t (fun x => { x with rebuild := false })).raise 0x0B04 none t).remedyDone (.pkg t)).resetN = d.resetN ∧
    (((d.onPkg t (fun x => { x with rebuild := false })).raise 0x0B04 none t).remedyDone (.pkg t)).vin = d.vin :=
  ⟨FMap.getD_set_self _ _ _ _, fun _ hj => FMap.getD_set_ne _ _ _ _ _ _ (Ne.symm hj), ⟨rfl, rfl, rfl, rfl, rfl, rfl, rfl, rfl, rfl⟩,
    raises_raise _ _ _ _, rfl, rfl, rfl⟩

theorem completes_neaRebuildDone (hacts : Acts s) {t : Nat} (hlost : s.dev.lost 32 = false)
    (ht : (upTo 10).find? (fun j => (s.dev.pkg j).rebuild) = some t) :
    Completes .neaRebuildDone s (fun d =>
      d.pkg t = { s.dev.pkg t with rebuild := false } ∧ (∀ j, j ≠ t → d.pkg j = s.dev.pkg j) ∧ Raises d 0x0B04 ∧ Calm s.dev d) := by
  have hfind : (upTo 10).find? (fun j => !s.dev.silent.lost 32 && (s.dev.silent.pkg j).rebuild) = some t := by
    rw [← ht]
    congr 1
    funext j
    rw [show s.dev.silent.lost 32 = s.dev.lost 32 from rfl, hlost]
    rfl
  have heq : s.dev.silent.pkgRebuildDone =
      ((s.dev.silent.onPkg t (fun x => { x with rebuild := false })).raise 0x0B04 none t).remedyDone (.pkg t) := by
    unfold Dev.pkgRebuildDone
    rw [hfind]
  obtain ⟨hself, hother, hcalm, hraises, hdue, hpins⟩ := rebuilt_facts s.dev.silent t
  generalize ((s.dev.silent.onPkg t (fun x => { x with rebuild := false })).raise 0x0B04 none t).remedyDone (.pkg t) = y at *
  exact completes_as hacts (exec_neaRebuildDone s) heq hdue hpins ⟨hself, hother, hraises, hcalm⟩

end

/-! ## A package that fails (R375, R401, R402) -/

/-- Only the contexts change, and events are raised. -/
structure OnlyContexts (d d' : Dev) : Prop where
  rest : d' = { d with nea := d'.nea, raised := d'.raised }
  raised : ∃ l, d'.raised = d.raised ++ l

namespace OnlyContexts

variable {d d' d'' : Dev}

theorem refl (d : Dev) : OnlyContexts d d := ⟨rfl, [], (List.append_nil _).symm⟩

theorem trans (h : OnlyContexts d d') (h' : OnlyContexts d' d'') : OnlyContexts d d'' := by
  obtain ⟨hrest, l, hl⟩ := h
  obtain ⟨hrest', l', hl'⟩ := h'
  exact ⟨hrest'.trans (by rw [hrest]), l ++ l', by rw [hl', hl, List.append_assoc]⟩

theorem foldl {α : Type} {f : Dev → α → Dev} {l : List α} (hf : ∀ d x, OnlyContexts d (f d x)) : ∀ d, OnlyContexts d (l.foldl f d) := by
  induction l with
  | nil => exact fun d => refl d
  | cons x l ih => exact fun d => (hf d x).trans (ih (f d x))

theorem raises (h : OnlyContexts d d') {code : Nat} (hr : Raises d code) : Raises d' code := by
  obtain ⟨x, hx, hcode⟩ := hr
  obtain ⟨l, hl⟩ := h.raised
  exact ⟨x, by rw [hl]; exact List.mem_append_left l hx, hcode⟩

theorem frame (h : OnlyContexts d d') : d'.pkgs = d.pkgs ∧ d'.slowK = d.slowK ∧ d'.mirrors = d.mirrors ∧ d'.mem = d.mem ∧ d'.cores = d.cores ∧
    d'.pruneDue = d.pruneDue ∧ d'.resetN = d.resetN ∧ d'.vin = d.vin := by
  have hrest := h.rest
  and_intros <;> rw [hrest]

end OnlyContexts

section
variable (d : Dev)

theorem onlyContexts_onCtx (c : Nat) (f : NeaCtx → NeaCtx) : OnlyContexts d (d.onCtx c f) := ⟨rfl, [], (List.append_nil _).symm⟩

theorem onlyContexts_neaEvent (c code : Nat) : OnlyContexts d (d.neaEvent c code) := ⟨rfl, _, rfl⟩

/-- The context's units on a package that is gone are lost, unless it has none or is in fall-back mode. -/
def Dev.slotsLost (d : Dev) (l c : Nat) : Dev :=
  if (d.ctx c).q = 0 ∨ d.ctxFb c then d
  else d.onCtx c (fun z => { z with
    lost := z.lost ++ ((upTo 3).filter (fun s => (z.slot s).st ≠ .free)).map (fun s => ({ slot := s, unit := none, pkg := l } : NeaLost)) })

theorem onlyContexts_slotsLost (l c : Nat) : OnlyContexts d (d.slotsLost l c) := by
  unfold Dev.slotsLost
  split
  · exact OnlyContexts.refl d
  · exact onlyContexts_onCtx d c _

theorem onlyContexts_neaLoseAll : OnlyContexts { d with mirrors := [] } d.neaLoseAll := by
  unfold Dev.neaLoseAll
  refine OnlyContexts.foldl (fun d c => ?_) _
  split
  · exact OnlyContexts.refl d
  · split
    · exact (onlyContexts_onCtx d c _).trans (onlyContexts_neaEvent _ c _)
    · exact onlyContexts_onCtx d c _

/-- The package that no longer answers, off its logical number. -/
def Dev.pkgGone (d : Dev) (k : Nat) : Dev :=
  (d.onPkg k (fun x => { x with st := .failed, logical := 0xF, copied := .no })).remedyDone (.pkg k)

/-- Its spare takes its logical number. -/
def Dev.pkgTaken (d : Dev) (k t l : Nat) (ps : List Nat) : Dev :=
  (d.onPkg t (fun y => { y with st := .service, logical := l, rebuild := true, copied := .no })).faultDevice 0x0B03 k ps [.pkg t]

/-- The packages with a logical number. -/
def Dev.pkgsLeft (d : Dev) : List Nat := (upTo 10).filter (fun j => (d.pkg j).logical ≠ 0xF)

/-- The packages left take the logical numbers from 0 on. -/
def Dev.pkgsNumbered (d : Dev) : Dev :=
  (d.pkgsLeft.zip (upTo d.pkgsLeft.length)).foldl (fun (d : Dev) e => d.onPkg e.1 (fun x => { x with logical := e.2 }))
    { d with slowK := d.pkgsLeft.length }

theorem pkgFail_eq {k : Nat} (hst : (d.pkg k).st = .service ∨ (d.pkg k).st = .failing) (hlogical : (d.pkg k).logical ≠ 0xF) :
    d.pkgFail k = match ((upTo 10).find? (fun j => (d.pkg j).st = .target ∧ (d.pkg j).src = k)).orElse (fun _ => (d.pkgGone k).pkgSpares.head?) with
      | some t => (upTo 8).foldl (fun (x : Dev) c => x.slotsLost (d.pkg k).logical c) ((d.pkgGone k).pkgTaken k t (d.pkg k).logical d.slowParts)
      | none => (((d.pkgGone k).faultDevice 0x0B03 k d.slowParts []).pkgsNumbered).neaLoseAll.raise 0x0B05 none k := by
  have hfailed : ¬ (d.pkg k).st = .failed := by
    rcases hst with h | h <;> rw [h] <;> decide
  unfold Dev.pkgFail
  dsimp only
  rw [if_neg hfailed, if_neg hlogical]
  rfl

theorem pkgGone_facts (k : Nat) : (d.pkgGone k).pkg k = { d.pkg k with st := .failed, logical := 0xF, copied := .no } ∧
    (∀ j, j ≠ k → (d.pkgGone k).pkg j = d.pkg j) ∧ (d.pkgGone k).slowK = d.slowK ∧ (d.pkgGone k).mem = d.mem ∧
    (d.pkgGone k).cores = d.cores ∧ (d.pkgGone k).pruneDue = d.pruneDue ∧ (d.pkgGone k).resetN = d.resetN ∧ (d.pkgGone k).vin = d.vin :=
  ⟨onPkg_self d k (fun x => { x with st := .failed, logical := 0xF, copied := .no }),
    fun _ hj => onPkg_other d k (fun x => { x with st := .failed, logical := 0xF, copied := .no }) hj, rfl, rfl, rfl, rfl, rfl, rfl⟩

/-- The package that is gone was no spare: the spares stand. -/
theorem pkgSpares_pkgGone {k : Nat} (hst : (d.pkg k).st = .service ∨ (d.pkg k).st = .failing) : (d.pkgGone k).pkgSpares = d.pkgSpares := by
  obtain ⟨hself, hother, -⟩ := pkgGone_facts d k
  have hspare : ¬ (d.pkg k).st = .spare := by
    rcases hst with h | h <;> rw [h] <;> decide
  unfold Dev.pkgSpares
  refine List.filter_congr fun j _ => ?_
  by_cases hj : j = k
  · subst hj
    rw [hself]
    exact (decide_eq_false (fun h => nomatch h.1)).trans (decide_eq_false (fun h => hspare h.1)).symm
  · rw [hother j hj]

theorem pkgs_fold (l : List (Nat × Nat)) {k : Nat} (h : ∀ e ∈ l, e.1 ≠ k) : ∀ d : Dev,
    (l.foldl (fun (d : Dev) e => d.onPkg e.1 (fun x => { x with logical := e.2 })) d).pkg k = d.pkg k := by
  induction l with
  | nil => exact fun _ => rfl
  | cons e l ih =>
    obtain ⟨he, hl⟩ := List.forall_mem_cons.1 h
    exact fun d => (ih hl _).trans (onPkg_other d e.1 _ (Ne.symm he))

theorem pkgs_fold_rest (l : List (Nat × Nat)) (d : Dev) :
    l.foldl (fun (d : Dev) e => d.onPkg e.1 (fun x => { x with logical := e.2 })) d = { d with
      pkgs := (l.foldl (fun (d : Dev) e => d.onPkg e.1 (fun x => { x with logical := e.2 })) d).pkgs } := by
  induction l generalizing d with
  | nil => rfl
  | cons e l ih => exact (ih (d.onPkg e.1 _)).trans rfl

theorem pkgsNumbered_facts {k : Nat} (hk : (d.pkg k).logical = 0xF) : d.pkgsNumbered.pkg k = d.pkg k ∧ d.pkgsNumbered.slowK = d.pkgsLeft.length ∧
    d.pkgsNumbered.mem = d.mem ∧ d.pkgsNumbered.cores = d.cores ∧ d.pkgsNumbered.raised = d.raised ∧
    d.pkgsNumbered.pruneDue = d.pruneDue ∧ d.pkgsNumbered.resetN = d.resetN ∧ d.pkgsNumbered.vin = d.vin := by
  have hnot : ∀ e ∈ d.pkgsLeft.zip (upTo d.pkgsLeft.length), e.1 ≠ k := fun e he hek => by
    have hin : e.1 ∈ d.pkgsLeft := (List.of_mem_zip he).1
    have hleft := (List.mem_filter.1 hin).2
    rw [hek] at hleft
    exact of_decide_eq_true hleft hk
  have hrest := pkgs_fold_rest (d.pkgsLeft.zip (upTo d.pkgsLeft.length)) { d with slowK := d.pkgsLeft.length }
  unfold Dev.pkgsNumbered
  refine ⟨pkgs_fold _ hnot _, ?_⟩
  rw [hrest]
  exact ⟨rfl, rfl, rfl, rfl, rfl, rfl, rfl⟩

end

section

theorem pkg_congr {d d' : Dev} (h : d'.pkgs = d.pkgs) (j : Nat) : d'.pkg j = d.pkg j := by
  unfold Dev.pkg
  rw [h]

/-- What the report of a package's failure leaves. -/
theorem pkgFault_facts (d : Dev) (k : Nat) (ps : List Nat) (rs : List Remedy) : (d.faultDevice 0x0B03 k ps rs).pkgs = d.pkgs ∧
    (d.faultDevice 0x0B03 k ps rs).slowK = d.slowK ∧ (d.faultDevice 0x0B03 k ps rs).mem = d.mem ∧
    (d.faultDevice 0x0B03 k ps rs).cores = d.cores ∧ Raises (d.faultDevice 0x0B03 k ps rs) 0x0B03 ∧
    (d.faultDevice 0x0B03 k ps rs).pruneDue = d.pruneDue ∧ (d.faultDevice 0x0B03 k ps rs).resetN = d.resetN ∧
    (d.faultDevice 0x0B03 k ps rs).vin = d.vin := by
  have hreported := reported_faultDevice d 0x0B03 k ps rs
  have hrest := hreported.rest
  have hraises := hreported.raises (raises_raise d 0x0B03 none k)
  generalize d.faultDevice 0x0B03 k ps rs = x at *
  refine ⟨?_, ?_, ?_, ?_, hraises, ?_, ?_, ?_⟩ <;> rw [hrest] <;> rfl

/-- What the spare that takes a number leaves. -/
theorem pkgTaken_facts (d : Dev) (k t l : Nat) (ps : List Nat) : (d.pkgTaken k t l ps).pkg t =
      { d.pkg t with st := .service, logical := l, rebuild := true, copied := .no } ∧
    (∀ j, j ≠ t → (d.pkgTaken k t l ps).pkg j = d.pkg j) ∧ (d.pkgTaken k t l ps).slowK = d.slowK ∧ (d.pkgTaken k t l ps).mem = d.mem ∧
    (d.pkgTaken k t l ps).cores = d.cores ∧ Raises (d.pkgTaken k t l ps) 0x0B03 ∧ (d.pkgTaken k t l ps).pruneDue = d.pruneDue ∧
    (d.pkgTaken k t l ps).resetN = d.resetN ∧ (d.pkgTaken k t l ps).vin = d.vin := by
  unfold Dev.pkgTaken
  obtain ⟨hpkgs, hk, hmem, hcores, hraises, hdue, hreset, hvin⟩ :=
    pkgFault_facts (d.onPkg t (fun y => { y with st := .service, logical := l, rebuild := true, copied := .no })) k ps [.pkg t]
  generalize (d.onPkg t (fun y => { y with st := .service, logical := l, rebuild := true, copied := .no })).faultDevice 0x0B03 k ps [.pkg t] = x at *
  refine ⟨?_, fun j hj => ?_, hk, hmem, hcores, hraises, hdue, hreset, hvin⟩
  · rw [pkg_congr hpkgs, onPkg_self]
  · rw [pkg_congr hpkgs, onPkg_other _ _ _ hj]

variable {s : State} (k : Fin 10)

theorem completes_neaPkgFail_spare (hacts : Acts s) {t : Nat} (hst : (s.dev.pkg k.val).st = .service ∨ (s.dev.pkg k.val).st = .failing)
    (hlogical : (s.dev.pkg k.val).logical ≠ 0xF)
    (ht : ((upTo 10).find? (fun j => (s.dev.pkg j).st = .target ∧ (s.dev.pkg j).src = k.val)).orElse (fun _ => s.dev.pkgSpares.head?) = some t) :
    Completes (.neaPkgFail k) s (fun d =>
      (d.pkg k.val).st = .failed ∧ (d.pkg k.val).logical = 0xF ∧ (d.pkg t).st = .service ∧
      (d.pkg t).logical = (s.dev.pkg k.val).logical ∧ (d.pkg t).rebuild = true ∧ d.slowK = s.dev.slowK ∧ Raises d 0x0B03 ∧
      d.mem = s.dev.mem ∧ d.cores = s.dev.cores) := by
  have hne : k.val ≠ t := by
    rintro rfl
    cases htarget : (upTo 10).find? (fun j => (s.dev.pkg j).st = .target ∧ (s.dev.pkg j).src = k.val) with
    | some j =>
      rw [htarget] at ht
      obtain rfl := Option.some.inj ht
      have hin := List.find?_some htarget
      have htgt := (of_decide_eq_true hin).1
      rcases hst with h | h <;> rw [h] at htgt <;> exact nomatch htgt
    | none =>
      rw [htarget] at ht
      have hin := (List.mem_filter.1 (List.mem_of_mem_head? ht)).2
      have hspare := (of_decide_eq_true hin).1
      rcases hst with h | h <;> rw [h] at hspare <;> exact nomatch hspare
  have heq := pkgFail_eq s.dev.silent hst hlogical
  have hspares : (s.dev.silent.pkgGone k.val).pkgSpares = s.dev.pkgSpares := pkgSpares_pkgGone s.dev.silent hst
  rw [hspares, show ((upTo 10).find? (fun j => (s.dev.silent.pkg j).st = .target ∧ (s.dev.silent.pkg j).src = k.val)).orElse
    (fun _ => s.dev.pkgSpares.head?) = some t from ht] at heq
  dsimp only at heq
  obtain ⟨hgone, -, hk1, hmem1, hcores1, hdue1, hreset1, hvin1⟩ := pkgGone_facts s.dev.silent k.val
  generalize s.dev.silent.pkgGone k.val = x1 at *
  obtain ⟨htaken, htakenOther, hk2, hmem2, hcores2, hraises2, hdue2, hreset2, hvin2⟩ :=
    pkgTaken_facts x1 k.val t (s.dev.silent.pkg k.val).logical s.dev.silent.slowParts
  generalize x1.pkgTaken k.val t (s.dev.silent.pkg k.val).logical s.dev.silent.slowParts = x2 at *
  have hlost := OnlyContexts.foldl (f := fun (x : Dev) c => x.slotsLost (s.dev.silent.pkg k.val).logical c) (l := upTo 8)
    (fun d c => onlyContexts_slotsLost d (s.dev.silent.pkg k.val).logical c) x2
  generalize (upTo 8).foldl (fun (x : Dev) c => x.slotsLost (s.dev.silent.pkg k.val).logical c) x2 = x3 at *
  obtain ⟨hpkgs, hk3, -, hmem3, hcores3, hdue3, hreset3, hvin3⟩ := hlost.frame
  have hself : x3.pkg k.val = { s.dev.silent.pkg k.val with st := .failed, logical := 0xF, copied := .no } :=
    (pkg_congr hpkgs _).trans ((htakenOther _ hne).trans hgone)
  have hspare := (pkg_congr hpkgs t).trans htaken
  refine completes_as hacts (exec_neaPkgFail k s) heq (hdue3.trans (hdue2.trans hdue1))
    ⟨hreset3.trans (hreset2.trans hreset1), hvin3.trans (hvin2.trans hvin1)⟩
    ⟨?_, ?_, ?_, ?_, ?_, hk3.trans (hk2.trans hk1), hlost.raises hraises2, hmem3.trans (hmem2.trans hmem1), hcores3.trans (hcores2.trans hcores1)⟩
  · rw [hself]
  · rw [hself]
  · rw [hspare]
  · rw [hspare]
    rfl
  · rw [hspare]

/-- The packages left have the logical numbers of those that stand beside the one that is gone. -/
theorem pkgsLeft_pkgGone {d d' : Dev} {k : Nat} (hk : (d'.pkg k).logical = 0xF) (h : ∀ j, j ≠ k → d'.pkg j = d.pkg j) :
    d'.pkgsLeft = (upTo 10).filter (fun j => j ≠ k ∧ (d.pkg j).logical ≠ 0xF) := by
  refine List.filter_congr fun j _ => ?_
  by_cases hj : j = k
  · subst hj
    exact (decide_eq_false (fun hne => hne hk)).trans (decide_eq_false (fun hne => hne.1 rfl)).symm
  · rw [h j hj]
    exact decide_eq_decide.2 ⟨fun hl => ⟨hj, hl⟩, fun hl => hl.2⟩

theorem completes_neaPkgFail_shrinks (hacts : Acts s) (hst : (s.dev.pkg k.val).st = .service ∨ (s.dev.pkg k.val).st = .failing)
    (hlogical : (s.dev.pkg k.val).logical ≠ 0xF)
    (htarget : (upTo 10).find? (fun j => (s.dev.pkg j).st = .target ∧ (s.dev.pkg j).src = k.val) = none) (hnone : s.dev.pkgSpares = []) :
    Completes (.neaPkgFail k) s (fun d =>
      (d.pkg k.val).st = .failed ∧ Raises d 0x0B03 ∧ Raises d 0x0B05 ∧ d.mirrors = [] ∧
      d.slowK = ((upTo 10).filter (fun j => j ≠ k.val ∧ (s.dev.pkg j).logical ≠ 0xF)).length ∧ d.mem = s.dev.mem ∧
      d.cores = s.dev.cores) := by
  have heq := pkgFail_eq s.dev.silent hst hlogical
  have hspares : (s.dev.silent.pkgGone k.val).pkgSpares = s.dev.pkgSpares := pkgSpares_pkgGone s.dev.silent hst
  rw [hspares, hnone, show (upTo 10).find? (fun j => (s.dev.silent.pkg j).st = .target ∧ (s.dev.silent.pkg j).src = k.val) = none from htarget] at heq
  dsimp only [Option.orElse_eq_orElse, Option.orElse, List.head?] at heq
  obtain ⟨hgone, hgoneOther, hk1, hmem1, hcores1, hdue1, hreset1, hvin1⟩ := pkgGone_facts s.dev.silent k.val
  generalize s.dev.silent.pkgGone k.val = x1 at *
  obtain ⟨hpkgs2, hk2, hmem2, hcores2, hraises2, hdue2, hreset2, hvin2⟩ := pkgFault_facts x1 k.val s.dev.silent.slowParts []
  generalize x1.faultDevice 0x0B03 k.val s.dev.silent.slowParts [] = x2 at *
  have hlogical2 : (x2.pkg k.val).logical = 0xF := by rw [pkg_congr hpkgs2, hgone]
  have hleft : x2.pkgsLeft = (upTo 10).filter (fun j => j ≠ k.val ∧ (s.dev.pkg j).logical ≠ 0xF) :=
    pkgsLeft_pkgGone (d := s.dev.silent) hlogical2 (fun j hj => (pkg_congr hpkgs2 j).trans (hgoneOther j hj))
  obtain ⟨hpkg3, hk3, hmem3, hcores3, hraised3, hdue3, hreset3, hvin3⟩ := pkgsNumbered_facts x2 hlogical2
  generalize x2.pkgsNumbered = x3 at *
  have hloses := onlyContexts_neaLoseAll x3
  obtain ⟨hpkgs4, hk4, hmirrors, hmem4, hcores4, hdue4, hreset4, hvin4⟩ := hloses.frame
  have hraises4 : Raises x3.neaLoseAll 0x0B03 := hloses.raises (by
    obtain ⟨e, he, hcode⟩ := hraises2
    exact ⟨e, by rw [show ({ x3 with mirrors := [] } : Dev).raised = x2.raised from hraised3]; exact he, hcode⟩)
  generalize x3.neaLoseAll = x4 at *
  have hst4 : (x4.pkg k.val).st = .failed := by
    rw [pkg_congr hpkgs4]
    refine (congrArg NeaPkg.st hpkg3).trans ?_
    rw [pkg_congr hpkgs2, hgone]
  obtain ⟨e, he, hcode⟩ := hraises4
  exact completes_as hacts (exec_neaPkgFail k s) heq (hdue4.trans (hdue3.trans (hdue2.trans hdue1)))
    ⟨hreset4.trans (hreset3.trans (hreset2.trans hreset1)), hvin4.trans (hvin3.trans (hvin2.trans hvin1))⟩
    ⟨hst4, ⟨e, List.mem_append_left _ he, hcode⟩, raises_raise _ _ _ _, hmirrors, hk4.trans (hk3.trans (congrArg List.length hleft)),
      hmem4.trans (hmem3.trans (hmem2.trans hmem1)), hcores4.trans (hcores3.trans (hcores2.trans hcores1))⟩

end

/-- Settles O60: a window gives the bytes that its slot holds, a unit that lands is read back byte for byte, a packet joins or spoils
its copy, and a package that fails leaves its number to its spare or the tier to those left. -/
theorem slowTier : Obligations.SlowTier := by
  intro s hacts
  refine ⟨fun w a es hlost => ⟨fun n h => completes_windowRead w a hacts hlost n h, fun n i hi h => completes_windowUnmapped w a hacts hlost hi h,
    fun bs n h => completes_windowMisaligned w a es hacts hlost bs n h,
    fun bs n p e ha hlen hne hp he hpe himport => completes_windowWrite w a es hacts hlost bs n ha hlen hne hp he hpe himport⟩,
    fun m cur hcur hact hfits hunit => completes_mirrorUnit hacts hcur hact hfits hunit,
    fun c ring hsend => ⟨completes_mirrorAck hacts c hsend true, completes_mirrorAck hacts c hsend false⟩,
    fun k => ⟨fun temp => completes_slowTierRefresh hacts k temp, fun t hst hlogical ht => completes_neaPkgFail_spare k hacts hst hlogical ht,
      fun hst hlogical htarget hnone => completes_neaPkgFail_shrinks k hacts hst hlogical htarget hnone⟩,
    fun t hlost ht => completes_neaPkgCopyDone hacts hlost ht, fun t hlost ht => completes_neaRebuildDone hacts hlost ht⟩

end Sys2Proof.Machine
end

section
/-! SUPPORT. Proof of the statement about partitions: loads that start or wait, notices, and the end of a revocation (R489, R490, R495, R499). -/
namespace Sys2Proof.Machine

open Safety

/-! ## Map-outs and stand-ins at a load (R365, R544) -/

/-- Partitions, the shape and the pins stand, and no prune is due. -/
structure MappedOut (d d' : Dev) : Prop where
  parts : d'.parts = d.parts
  shape : d'.reg ⟨.prtShape, []⟩ = d.reg ⟨.prtShape, []⟩
  due : d'.pruneDue = d.pruneDue
  pins : d'.resetN = d.resetN ∧ d'.vin = d.vin

namespace MappedOut

variable {d d' d'' : Dev}

theorem refl (d : Dev) : MappedOut d d := ⟨rfl, rfl, rfl, rfl, rfl⟩

theorem trans (h : MappedOut d d') (h' : MappedOut d' d'') : MappedOut d d'' :=
  ⟨h'.parts.trans h.parts, h'.shape.trans h.shape, h'.due.trans h.due, h'.pins.1.trans h.pins.1, h'.pins.2.trans h.pins.2⟩

theorem foldl {α : Type} {f : Dev → α → Dev} {l : List α} (hf : ∀ d, ∀ x ∈ l, MappedOut d (f d x)) : ∀ d, MappedOut d (l.foldl f d) := by
  induction l with
  | nil => exact fun d => refl d
  | cons x l ih =>
    obtain ⟨hx, hl⟩ := List.forall_mem_cons.1 (fun x hx d => hf d x hx)
    exact fun d => (hx d).trans (ih (fun d x h => hl x h d) (f d x))

theorem part (h : MappedOut d d') (p : Nat) : d'.part p = d.part p := by
  unfold Dev.part
  rw [h.parts]

theorem corePart (h : MappedOut d d') (c : Nat) : d'.corePart c = d.corePart c := corePart_congr h.shape c

end MappedOut

section
variable (d : Dev)

theorem mappedOut_onHbm (t : Nat) (f : HbmTile → HbmTile) : MappedOut d (d.onHbm t f) := ⟨rfl, rfl, rfl, rfl, rfl⟩

theorem mappedOut_hbmLose (t : Nat) : MappedOut d (d.hbmLose t) := ⟨rfl, rfl, rfl, rfl, rfl⟩

theorem mappedOut_raiseAs (cls : EvClass) (code : Nat) (part : Option Nat) (unit detail : Nat) :
    MappedOut d (d.raiseAs cls code part unit detail) := ⟨rfl, rfl, rfl, rfl, rfl⟩

theorem mappedOut_remedyDone (r : Remedy) : MappedOut d (d.remedyDone r) := ⟨rfl, rfl, rfl, rfl, rfl⟩

theorem mappedOut_hbmMapOut (t q : Nat) (cls : EvClass) : MappedOut d (d.hbmMapOut t q cls) := by
  unfold Dev.hbmMapOut
  dsimp only
  exact (((mappedOut_onHbm d t _).trans (mappedOut_hbmLose _ t)).trans (mappedOut_raiseAs _ _ _ _ _ _)).trans
    (MappedOut.foldl (fun d key _ => mappedOut_remedyDone d (.row t key)) _)

theorem mappedOut_hbmLoadMapOut (t : Nat) : MappedOut d (d.hbmLoadMapOut t) :=
  MappedOut.foldl (fun d q _ => mappedOut_hbmMapOut d t q .spare) d

theorem mappedOut_onPhys (k : Nat) (f : PhysCore → PhysCore) : MappedOut d (d.onPhys k f) := ⟨rfl, rfl, rfl, rfl, rfl⟩

theorem mappedOut_onPrune (k : Nat) (f : Prune → Prune) : MappedOut d (d.onPrune k f) := ⟨rfl, rfl, rfl, rfl, rfl⟩

theorem mappedOut_onSram (u : Nat) (f : Sram → Sram) : MappedOut d (d.onSram u f) := ⟨rfl, rfl, rfl, rfl, rfl⟩

theorem mappedOut_zeroSram (a b : Nat) : MappedOut d (d.zeroSram a b) := ⟨rfl, rfl, rfl, rfl, rfl⟩

theorem mappedOut_setReg {r : Reg} (hr : Reg.addr r ≠ Reg.addr ⟨.prtShape, []⟩) (v : Word) : MappedOut d (d.setReg r v) :=
  ⟨rfl, Dev.setReg_ne d _ _ v hr, rfl, rfl, rfl⟩

theorem mappedOut_swapIn (k c : Nat) : MappedOut d (d.swapIn k c) := by
  have hcolumn : Reg.addr ⟨.meColumn, [c]⟩ ≠ Reg.addr ⟨.prtShape, []⟩ := by
    simp [Reg.addr, RK.row]
    omega
  have hold : MappedOut d (match d.physOf c with
      | some o => d.onPhys o (fun y => { y with logical := 0x1F, column := d.columnOf o })
      | none => d) := by
    split
    · exact mappedOut_onPhys d _ _
    · exact MappedOut.refl d
  unfold Dev.swapIn
  dsimp only
  exact (((hold.trans (mappedOut_onPhys _ k _)).trans (mappedOut_onSram _ c _)).trans (mappedOut_zeroSram _ _ _)).trans
    (mappedOut_setReg _ hcolumn _)

/-- A map-out in a partition that runs no program stops nothing. -/
theorem mappedOut_mapoutCore {pr : Prune} (hst : (d.part (d.corePart pr.core)).st = .free) : MappedOut d (d.mapoutCore pr) := by
  have hstop : d.stopPart (d.corePart pr.core) = d := by
    unfold Dev.stopPart
    rw [hst]
  unfold Dev.mapoutCore
  dsimp only
  rw [hstop]
  exact ((mappedOut_onPhys d _ _).trans (mappedOut_onPrune _ _ _)).trans ((mappedOut_raiseAs _ _ _ _ _ _).trans (mappedOut_remedyDone _ _))

theorem mem_partCores {p c : Nat} : c ∈ d.partCores p ↔ c < 384 ∧ d.corePart c = p := by
  unfold Dev.partCores
  rw [List.mem_filter, mem_upTo, decide_eq_true_iff]

theorem mappedOut_standInLoad {p : Nat} (hst : (d.part p).st = .free) : MappedOut d (d.standInLoad p) := by
  have hall : ∀ (l : List Nat) (d : Dev), (∀ c ∈ l, d.corePart c = p) → (d.part p).st = .free → MappedOut d (l.foldl (fun (d : Dev) c =>
      match d.prunes.find? (fun (x : Prune) => decide (x.core = c) && x.done && decide (some x.phys = d.physOf c)) with
      | none => d
      | some pr =>
        match d.spareOf (clusterOf c) with
        | some s => ((d.swapIn s c).onPrune pr.phys (fun x => { x with by_ := some s, standing := true })).prtCore 0x0F21 c
        | none => d.mapoutCore pr) d) := by
    intro l
    induction l with
    | nil => exact fun d _ _ => MappedOut.refl d
    | cons c l ih =>
      intro d hl hst
      obtain ⟨hc, hl⟩ := List.forall_mem_cons.1 hl
      rw [List.foldl_cons]
      have hstep : MappedOut d (match d.prunes.find? (fun (x : Prune) => decide (x.core = c) && x.done && decide (some x.phys = d.physOf c)) with
          | none => d
          | some pr =>
            match d.spareOf (clusterOf c) with
            | some s => ((d.swapIn s c).onPrune pr.phys (fun x => { x with by_ := some s, standing := true })).prtCore 0x0F21 c
            | none => d.mapoutCore pr) := by
        cases hfind : d.prunes.find? (fun (x : Prune) => decide (x.core = c) && x.done && decide (some x.phys = d.physOf c)) with
        | none => exact MappedOut.refl d
        | some pr =>
          cases hspare : d.spareOf (clusterOf c) with
          | some s => exact ((mappedOut_swapIn d s c).trans (mappedOut_onPrune _ _ _)).trans (mappedOut_raiseAs _ _ _ _ _ _)
          | none =>
            have hcore := List.find?_some hfind
            simp only [Bool.and_eq_true, decide_eq_true_eq] at hcore
            exact mappedOut_mapoutCore d (by rw [hcore.1.1, hc]; exact hst)
      exact hstep.trans (ih _ (fun c' h' => (hstep.corePart c').trans (hl c' h')) (by rw [hstep.part]; exact hst))
  exact hall _ d (fun c hc => ((mem_partCores d).1 hc).2) hst

end

/-! ## PRT_LOAD (R489, R490) -/

/-- The device as the checks of a load find it: after the map-outs, and after the replacements. -/
def Dev.loadMapOut (d : Dev) (p : Nat) : Dev := (d.partTiles p).foldl (fun (d : Dev) t => d.hbmLoadMapOut t) d

section
variable {d : Dev} {p : Nat} {img : Option Image}

/-- Without an image no load is accepted. -/
theorem loadReason_none (d : Dev) (p : Nat) : d.loadReason p none ≠ 0 := by
  have heq : d.loadReason p none =
      if ¬d.synced ∨ d.sec.stage < 7 ∨ ¬(d.partTiles p).all (fun t => decide ((d.ptile t).st = .run)) then 1 else 2 := rfl
  rw [heq]
  split <;> decide

/-- The tiles' targets of a program that loads. -/
def Dev.targetsLoad (d : Dev) (p : Nat) (x : Image) : Dev :=
  (d.partTiles p).foldl (fun d t => d.setRegFld ⟨.pwrTile, [t]⟩ 2 0 ((oppOf x.mhz).getD 0)) d

theorem targetsLoad_rest (d : Dev) (p : Nat) (x : Image) : d.targetsLoad p x = { d with regs := (d.targetsLoad p x).regs } := by
  have hall : ∀ (l : List Nat) (d : Dev), l.foldl (fun d t => d.setRegFld ⟨.pwrTile, [t]⟩ 2 0 ((oppOf x.mhz).getD 0)) d =
      { d with regs := (l.foldl (fun d t => d.setRegFld ⟨.pwrTile, [t]⟩ 2 0 ((oppOf x.mhz).getD 0)) d).regs } := by
    intro l
    induction l with
    | nil => exact fun _ => rfl
    | cons t l ih => exact fun d => (ih (d.setRegFld ⟨.pwrTile, [t]⟩ 2 0 ((oppOf x.mhz).getD 0))).trans rfl
  exact hall _ d

theorem loadStart_accepts {x : Image} (h : ((d.loadMapOut p).standInLoad p).loadReason p (some x) = 0) :
    d.loadStart p (some x) =
      (((d.loadMapOut p).standInLoad p).onPart p (fun y => { y with st := .loading, loading := some x })).targetsLoad p x := by
  unfold Dev.loadStart
  dsimp only
  change (match ((d.loadMapOut p).standInLoad p).loadReason p (some x), some x with | 0, some x => _ | _, _ => _) = _
  rw [h]
  rfl

theorem loadStart_refuses (h : ((d.loadMapOut p).standInLoad p).loadReason p img ≠ 0) :
    d.loadStart p img = ((d.loadMapOut p).onPart p (fun y => { y with
      st := .free, loading := none, reason := ((d.loadMapOut p).standInLoad p).loadReason p img, held := none })).raise 0x0F02 (some p) p := by
  unfold Dev.loadStart
  dsimp only
  split
  · next x hwhy => exact absurd hwhy h
  · rfl

end

section
variable {s : State} {p : PartId}

/-- A register of a partition that the shape has. -/
theorem shapeParts_of_reaches (h : HostReaches s ⟨.prtCtrl, [p.val]⟩) : ¬ shapeParts s.dev.shape ≤ p.val := by
  obtain ⟨-, -, -, habsent⟩ := h
  exact of_decide_eq_false habsent

/-- What a load of the hosting software runs. -/
theorem prtLoad_reaches (h : HostReaches s ⟨.prtCtrl, [p.val]⟩) (hscrub : s.dev.sec.scrub = none) (img : Option Image) :
    s.dev.silent.busDo .host ⟨.prtCtrl, [p.val]⟩ true (fun d => d.prtLoad p.val img) = match (s.dev.part p.val).st with
      | .free => s.dev.silent.loadStart p.val img
      | .noticed | .revoking => s.dev.silent.onPart p.val (fun x => { x with loadPending := true, pending := img })
      | _ => s.dev.silent := by
  rw [busDo_reaches (HostReaches.reaches h)]
  have hgo : ¬ (shapeParts s.dev.silent.shape ≤ p.val ∨ s.dev.silent.sec.scrub.isSome = true) := by
    rw [not_or]
    refine ⟨shapeParts_of_reaches h, ?_⟩
    rw [show s.dev.silent.sec = s.dev.sec from rfl, hscrub]
    decide
  unfold Dev.prtLoad
  rw [if_neg hgo]
  rfl

theorem completes_prtLoad_free (h : HostReaches s ⟨.prtCtrl, [p.val]⟩) (hscrub : s.dev.sec.scrub = none) (img : Option Image)
    (hst : (s.dev.part p.val).st = .free) :
    ((((s.dev.silent.loadMapOut p.val).standInLoad p.val).loadReason p.val img = 0 → Completes (.prtLoad p img) s (fun d =>
      (d.part p.val).st = .loading ∧ (d.part p.val).loading = img ∧ (d.part p.val).reason = (s.dev.part p.val).reason ∧
      d.mem = ((s.dev.silent.loadMapOut p.val).standInLoad p.val).mem)) ∧
    (((s.dev.silent.loadMapOut p.val).standInLoad p.val).loadReason p.val img ≠ 0 → Completes (.prtLoad p img) s (fun d =>
      (d.part p.val).st = .free ∧ (d.part p.val).reason = ((s.dev.silent.loadMapOut p.val).standInLoad p.val).loadReason p.val img ∧
      Raises d 0x0F02 ∧ d.mem = (s.dev.silent.loadMapOut p.val).mem))) := by
  obtain ⟨hacts, -⟩ := id h
  have hgo := prtLoad_reaches h hscrub img
  rw [hst] at hgo
  have hmap : MappedOut s.dev.silent (s.dev.silent.loadMapOut p.val) :=
    MappedOut.foldl (fun d t _ => mappedOut_hbmLoadMapOut d t) _
  have hstand := mappedOut_standInLoad (s.dev.silent.loadMapOut p.val) (p := p.val) (by rw [hmap.part]; exact hst)
  have hboth := hmap.trans hstand
  refine ⟨fun hwhy => ?_, fun hwhy => ?_⟩
  · cases img with
    | none => exact absurd hwhy (loadReason_none _ _)
    | some x =>
      have heq := hgo.trans (loadStart_accepts hwhy)
      clear hgo hwhy hstand hmap
      generalize (s.dev.silent.loadMapOut p.val).standInLoad p.val = y at *
      have hself : (y.onPart p.val (fun y => { y with st := .loading, loading := some x })).part p.val =
          { y.part p.val with st := .loading, loading := some x } := by rw [Dev.onPart_get, if_pos rfl]
      have hrest := targetsLoad_rest (y.onPart p.val (fun y => { y with st := .loading, loading := some x })) p.val x
      rw [hrest] at heq
      refine completes_as hacts (exec_prtLoad p (some x) s) heq hboth.due hboth.pins ⟨?_, ?_, ?_, rfl⟩
      · exact congrArg Part.st hself
      · exact congrArg Part.loading hself
      · have hreason := congrArg Part.reason (hboth.part p.val)
        exact (congrArg Part.reason hself).trans hreason
  · have heq := hgo.trans (loadStart_refuses hwhy)
    generalize ((s.dev.silent.loadMapOut p.val).standInLoad p.val).loadReason p.val img = why at *
    clear hgo hstand hboth
    generalize s.dev.silent.loadMapOut p.val = y at *
    have hself : (y.onPart p.val (fun y => { y with st := .free, loading := none, reason := why, held := none })).part p.val =
        { y.part p.val with st := .free, loading := none, reason := why, held := none } := by rw [Dev.onPart_get, if_pos rfl]
    refine completes_as hacts (exec_prtLoad p img s) heq hmap.due hmap.pins ⟨?_, ?_, raises_raise _ _ _ _, rfl⟩
    · exact congrArg Part.st hself
    · exact congrArg Part.reason hself

/-- A change of a partition, of a load that waits or of a notice. -/
theorem completes_onPart {cmd : Instr} {f : Dev → Dev} (hacts : Acts s) (hexec : exec cmd s = run s (fun d => (f d).settle)) (g : Part → Part)
    (heq : f s.dev.silent = s.dev.silent.onPart p.val g) : Completes cmd s (fun d =>
      d.part p.val = g (s.dev.part p.val) ∧ (∀ j, j ≠ p.val → d.part j = s.dev.part j) ∧ d.mem = s.dev.mem ∧ d.cores = s.dev.cores) := by
  refine completes_as hacts hexec heq rfl ⟨rfl, rfl⟩ ⟨?_, fun j hj => ?_, rfl, rfl⟩
  · rw [Dev.onPart_get, if_pos rfl]
    rfl
  · rw [Dev.onPart_get, if_neg (Ne.symm hj)]
    rfl

theorem completes_prtLoad_waits (h : HostReaches s ⟨.prtCtrl, [p.val]⟩) (hscrub : s.dev.sec.scrub = none) (img : Option Image)
    (hst : (s.dev.part p.val).st = .noticed ∨ (s.dev.part p.val).st = .revoking) : Completes (.prtLoad p img) s (fun d =>
      d.part p.val = { s.dev.part p.val with loadPending := true, pending := img } ∧ (∀ j, j ≠ p.val → d.part j = s.dev.part j) ∧
      d.mem = s.dev.mem ∧ d.cores = s.dev.cores) := by
  have hgo := prtLoad_reaches h hscrub img
  refine completes_onPart h.1 (exec_prtLoad p img s) (fun x => { x with loadPending := true, pending := img }) ?_
  rcases hst with hst | hst <;> rw [hst] at hgo <;> exact hgo

/-! ## PRT_KILL, PRT_CASTLE (R495) -/

/-- What a write of KILL or CASTLE runs. -/
theorem ctrlWrite_notice (h : HostReaches s ⟨.prtCtrl, [p.val]⟩) :
    s.dev.silent.ctrlWrite .host ⟨.prtCtrl, [p.val]⟩ 2 = s.dev.silent.castle p.val 0 true ∧
    s.dev.silent.ctrlWrite .host ⟨.prtCtrl, [p.val]⟩ 4 =
      s.dev.silent.castle p.val (s.dev.reg ⟨.prtCastleAt, [p.val]⟩).toNat false := by
  have hrwt : accMask [.rwt] RK.prtCtrl = 0 := by decide
  have hdo : ∀ (d : Dev) (w : Word), d.regDo .host 0 ⟨.prtCtrl, [p.val]⟩ (BitVec.allOnes 64) w = d.prtCtrl p.val (w &&& BitVec.allOnes 64) :=
    fun _ _ => rfl
  have hbits : bit 0 (2 : Word) = false ∧ bit 1 (2 : Word) = true ∧ bit 2 (2 : Word) = false ∧ bit 0 (4 : Word) = false ∧
      bit 1 (4 : Word) = false ∧ bit 2 (4 : Word) = true := by decide
  obtain ⟨h20, h21, h22, h40, h41, h42⟩ := hbits
  refine ⟨?_, ?_⟩
  · rw [ctrlWrite_reaches (HostReaches.reaches h) (.inr (rwtMask_none s.dev (r := ⟨.prtCtrl, [p.val]⟩) hrwt)) _, hdo, BitVec.and_allOnes]
    unfold Dev.prtCtrl
    dsimp only
    rw [h20, h21, h22]
    rfl
  · rw [ctrlWrite_reaches (HostReaches.reaches h) (.inr (rwtMask_none s.dev (r := ⟨.prtCtrl, [p.val]⟩) hrwt)) _, hdo, BitVec.and_allOnes]
    unfold Dev.prtCtrl
    dsimp only
    rw [h40, h41, h42]
    rfl

/-- A notice that is taken. -/
theorem castle_takes (h : HostReaches s ⟨.prtCtrl, [p.val]⟩) (hscrub : s.dev.sec.scrub = none) (at_ : Nat) (killed : Bool) :
    ((s.dev.part p.val).st = .running ∨ (s.dev.part p.val).st = .ended ∨ (s.dev.part p.val).st = .halted →
      s.dev.silent.castle p.val at_ killed = s.dev.silent.onPart p.val (fun x => { x with st := .noticed, notice := some ⟨at_, killed, false⟩ })) ∧
    ((s.dev.part p.val).st = .loading → (s.dev.part p.val).held = none → ∃ g : Part → Part,
      s.dev.silent.castle p.val at_ killed = s.dev.silent.onPart p.val g ∧
      g (s.dev.part p.val) = { s.dev.part p.val with held := some ⟨at_, killed, false⟩ }) := by
  have hgo : ¬ (shapeParts s.dev.silent.shape ≤ p.val ∨ s.dev.silent.sec.scrub.isSome = true) := by
    rw [not_or]
    refine ⟨shapeParts_of_reaches h, ?_⟩
    rw [show s.dev.silent.sec = s.dev.sec from rfl, hscrub]
    decide
  have hpart : s.dev.silent.part p.val = s.dev.part p.val := rfl
  unfold Dev.castle
  dsimp only
  rw [if_neg hgo, hpart]
  refine ⟨fun hst => ?_, fun hst hheld => ?_⟩
  · rcases hst with hst | hst | hst <;> rw [hst]
  · rw [hst]
    refine ⟨_, rfl, ?_⟩
    rw [hheld, hst]

theorem completes_notice {cmd : Instr} {f : Dev → Dev} (h : HostReaches s ⟨.prtCtrl, [p.val]⟩) (hscrub : s.dev.sec.scrub = none)
    (hexec : exec cmd s = run s (fun d => (f d).settle)) {e : Notice} (hsealed : e.sealed = false)
    (heq : f s.dev.silent = s.dev.silent.castle p.val e.at_ e.killed) :
    ((s.dev.part p.val).st = .running ∨ (s.dev.part p.val).st = .ended ∨ (s.dev.part p.val).st = .halted → Completes cmd s (fun d =>
      d.part p.val = { s.dev.part p.val with st := .noticed, notice := some e } ∧ (∀ j, j ≠ p.val → d.part j = s.dev.part j) ∧
      d.mem = s.dev.mem ∧ d.cores = s.dev.cores)) ∧
    ((s.dev.part p.val).st = .loading → (s.dev.part p.val).held = none → Completes cmd s (fun d =>
      d.part p.val = { s.dev.part p.val with held := some e } ∧ (∀ j, j ≠ p.val → d.part j = s.dev.part j) ∧
      d.mem = s.dev.mem ∧ d.cores = s.dev.cores)) := by
  obtain ⟨hruns, hloads⟩ := castle_takes h hscrub e.at_ e.killed
  have he : (⟨e.at_, e.killed, false⟩ : Notice) = e := by
    rw [← hsealed]
  rw [he] at hruns hloads
  refine ⟨fun hst => completes_onPart h.1 hexec _ (heq.trans (hruns hst)), fun hst hheld => ?_⟩
  obtain ⟨g, hg, hself⟩ := hloads hst hheld
  have hdone := completes_onPart h.1 hexec g (heq.trans hg)
  rw [hself] at hdone
  exact hdone

/-! ## REVOCATION_COMPLETE (R499, R508) -/

/-- The handover registers. -/
def Dev.handedOver (d : Dev) (p : Nat) (x : Part) : Dev :=
  (d.setReg ⟨.prtHandover, [p]⟩ (put 31 0 x.edge ||| putBit 32 x.killed ||| put 63 48 (min x.aborts 0xFFFF))).setReg
    ⟨.prtHandoverRing, [p]⟩ (BitVec.ofNat 64 (x.ring.getD (2 ^ 64 - 1)))

/-- Targets and counters of a partition that was revoked. -/
def Dev.revokedRegs (d : Dev) (p : Nat) : Dev :=
  (d.partTiles p).foldl (fun (d : Dev) t => d.setRegFld ⟨.pwrTile, [t]⟩ 2 0 0)
    ((d.partCores p).foldl (fun (d : Dev) c => d.ftePerfClear c) d)

/-- Only registers above an address bound change. -/
structure HighRegs (b : Nat) (d d' : Dev) : Prop where
  rest : d' = { d with regs := d'.regs }
  reg : ∀ r : Reg, r.addr < b → d'.reg r = d.reg r

theorem HighRegs.refl (b : Nat) (d : Dev) : HighRegs b d d := ⟨rfl, fun _ _ => rfl⟩

theorem HighRegs.trans {b : Nat} {d d' d'' : Dev} (h : HighRegs b d d') (h' : HighRegs b d' d'') : HighRegs b d d'' := by
  obtain ⟨hrest, hreg⟩ := h
  obtain ⟨hrest', hreg'⟩ := h'
  exact ⟨hrest'.trans (by rw [hrest]), fun r hr => (hreg' r hr).trans (hreg r hr)⟩

theorem HighRegs.foldl {b : Nat} {α : Type} {f : Dev → α → Dev} (hf : ∀ d x, HighRegs b d (f d x)) (l : List α) :
    ∀ d, HighRegs b d (l.foldl f d) := by
  induction l with
  | nil => exact fun d => HighRegs.refl b d
  | cons x l ih => exact fun d => (hf d x).trans (ih (f d x))

theorem highRegs_setReg {b : Nat} (d : Dev) {x : Reg} (hx : b ≤ x.addr) (v : Word) : HighRegs b d (d.setReg x v) :=
  ⟨rfl, fun _ hr => Dev.setReg_ne _ _ _ _ (by omega)⟩

theorem highRegs_revokedRegs (d : Dev) (p : Nat) : HighRegs 0xF0000800000 d (d.revokedRegs p) := by
  have htile : ∀ (d : Dev) (t : Nat), HighRegs 0xF0000800000 d (d.setRegFld ⟨.pwrTile, [t]⟩ 2 0 0) := fun d t =>
    highRegs_setReg d (by simp [Reg.addr, RK.row]; omega) _
  have hperf : ∀ (d : Dev) (c : Nat), HighRegs 0xF0000800000 d (d.ftePerfClear c) := fun d c =>
    ⟨ftePerfClear_rest d c, fun r hr => ftePerfClear_reg d c (fun k hk => by
      have := (addr_ftePerf c k hk).1
      omega)⟩
  exact (HighRegs.foldl hperf (d.partCores p) d).trans (HighRegs.foldl htile _ _)

/-- The fields of PRT_HANDOVER. -/
theorem handover_fields (e a : Nat) (killed : Bool) :
    fld 31 0 (put 31 0 e ||| putBit 32 killed ||| put 63 48 (min a 0xFFFF)) = e % 2 ^ 32 ∧
    (put 31 0 e ||| putBit 32 killed ||| put 63 48 (min a 0xFFFF)).getLsbD 32 = killed ∧
    fld 63 48 (put 31 0 e ||| putBit 32 killed ||| put 63 48 (min a 0xFFFF)) = min a 0xFFFF := by
  have hmin : min a 0xFFFF < 2 ^ 16 := Nat.lt_of_le_of_lt (Nat.min_le_right _ _) (by decide)
  unfold putBit
  generalize min a 0xFFFF = m at *
  refine ⟨?_, ?_, ?_⟩
  · rw [fld_or, fld_or, fld_put_self _ (by decide), fld_put_other _ (.inl (by decide)), fld_put_other _ (.inl (by decide)), Nat.or_zero,
      Nat.or_zero]
  · rw [BitVec.getLsbD_or, BitVec.getLsbD_or, put_getLsbD, put_getLsbD, put_getLsbD]
    cases killed <;> simp
  · rw [fld_or, fld_or, fld_put_other _ (.inr (by decide)), fld_put_other _ (.inr (by decide)), fld_put_self _ (by decide), Nat.zero_or,
      Nat.zero_or, Nat.mod_eq_of_lt hmin]

/-- The partition that was revoked is free. -/
def Part.freed (y : Part) : Part := { y with
  st := .free, job := 0, image := [], tenant := [], pages := [], loadPending := false, pending := none }

theorem completes_revocationComplete (hacts : Acts s) (hst : (s.dev.part p.val).st = .revoking) (hrevoked : s.dev.revoked p.val = true)
    (hpending : (s.dev.part p.val).loadPending = false) :
    Completes (.revocationComplete p) s (fun d =>
      (d.part p.val).st = .free ∧ (d.part p.val).job = 0 ∧ (∀ j, j ≠ p.val → d.part j = s.dev.part j) ∧ Raises d 0x0F04 ∧
      d.regFld ⟨.prtHandover, [p.val]⟩ 31 0 = (s.dev.part p.val).edge % 2 ^ 32 ∧
      (d.reg ⟨.prtHandover, [p.val]⟩).getLsbD 32 = (s.dev.part p.val).killed ∧
      d.regFld ⟨.prtHandover, [p.val]⟩ 63 48 = min (s.dev.part p.val).aborts 0xFFFF ∧
      d.reg ⟨.prtHandoverRing, [p.val]⟩ = BitVec.ofNat 64 ((s.dev.part p.val).ring.getD (2 ^ 64 - 1)) ∧ d.mem = s.dev.mem ∧
      d.cores = s.dev.cores) := by
  have heq : s.dev.silent.revocationComplete p.val = (((s.dev.silent.handedOver p.val (s.dev.part p.val)).revokedRegs p.val).onPart p.val Part.freed).raise 0x0F04 (some p.val) p.val := by
    unfold Dev.revocationComplete
    dsimp only
    rw [if_pos ⟨hst, hrevoked⟩, if_neg (by rw [show (s.dev.silent.part p.val).loadPending = (s.dev.part p.val).loadPending from rfl, hpending]; decide)]
    rfl
  have hhand : (s.dev.silent.handedOver p.val (s.dev.part p.val)).reg ⟨.prtHandover, [p.val]⟩ =
      (put 31 0 (s.dev.part p.val).edge ||| putBit 32 (s.dev.part p.val).killed ||| put 63 48 (min (s.dev.part p.val).aborts 0xFFFF)) :=
    (Dev.setReg_ne _ _ _ _ (by simp [Reg.addr, RK.row])).trans (Dev.setReg_self _ _ _)
  have hring : (s.dev.silent.handedOver p.val (s.dev.part p.val)).reg ⟨.prtHandoverRing, [p.val]⟩ =
      BitVec.ofNat 64 ((s.dev.part p.val).ring.getD (2 ^ 64 - 1)) := Dev.setReg_self _ _ _
  have hrest0 : HighRegs 0 s.dev.silent (s.dev.silent.handedOver p.val (s.dev.part p.val)) :=
    (highRegs_setReg s.dev.silent (Nat.zero_le _) _).trans (highRegs_setReg _ (Nat.zero_le _) _)
  have hstand := highRegs_revokedRegs (s.dev.silent.handedOver p.val (s.dev.part p.val)) p.val
  generalize s.dev.silent.handedOver p.val (s.dev.part p.val) = y0 at *
  have hreg1 : (y0.revokedRegs p.val).reg ⟨.prtHandover, [p.val]⟩ = y0.reg ⟨.prtHandover, [p.val]⟩ := hstand.reg _ (by
    have := p.isLt
    simp [Reg.addr, RK.row]
    omega)
  have hreg2 : (y0.revokedRegs p.val).reg ⟨.prtHandoverRing, [p.val]⟩ = y0.reg ⟨.prtHandoverRing, [p.val]⟩ := hstand.reg _ (by
    have := p.isLt
    simp [Reg.addr, RK.row]
    omega)
  have hrest := hstand.rest.trans (by rw [hrest0.rest] : { y0 with regs := (y0.revokedRegs p.val).regs } =
    { s.dev.silent with regs := (y0.revokedRegs p.val).regs })
  generalize y0.revokedRegs p.val = y1 at *
  have hframe : y1.parts = s.dev.parts ∧ y1.mem = s.dev.mem ∧ y1.cores = s.dev.cores ∧ y1.pruneDue = s.dev.pruneDue ∧
      y1.resetN = s.dev.resetN ∧ y1.vin = s.dev.vin := by
    rw [hrest]
    exact ⟨rfl, rfl, rfl, rfl, rfl, rfl⟩
  obtain ⟨hparts, hmem, hcores, hdue, hpins⟩ := hframe
  obtain ⟨hfld1, hfld2, hfld3⟩ := handover_fields (s.dev.part p.val).edge (s.dev.part p.val).aborts (s.dev.part p.val).killed
  have hword := hreg1.trans hhand
  refine completes_as hacts (exec_revocationComplete p s) heq hdue hpins
    ⟨?_, ?_, fun j hj => ?_, raises_raise _ _ _ _, (congrArg (fld 31 0) hword).trans hfld1, (congrArg (fun w => BitVec.getLsbD w 32) hword).trans hfld2,
      (congrArg (fld 63 48) hword).trans hfld3, hreg2.trans hring, hmem, hcores⟩
  · exact congrArg Part.st ((Dev.onPart_get y1 p.val p.val Part.freed).trans (if_pos rfl))
  · exact congrArg Part.job ((Dev.onPart_get y1 p.val p.val Part.freed).trans (if_pos rfl))
  · refine ((Dev.onPart_get y1 p.val j Part.freed).trans (if_neg (Ne.symm hj))).trans ?_
    unfold Dev.part
    rw [hparts]

end

end Sys2Proof.Machine
end

section
/-! SUPPORT. Proof of the statement about partitions, its end: the completion of a load (R491). -/
namespace Sys2Proof.Machine

open Safety

/-! ## What the steps of a load leave alone -/

/-- The steps of partition p's load after its cores' code and its budget: what they leave of partitions, memory, the low registers,
the physical cores and the sequencers. -/
structure Loading (p : Nat) (d d' : Dev) : Prop where
  reg : ∀ r : Reg, r.addr ≤ 0xF0000500000 → d'.reg r = d.reg r
  parts : ∀ j, j ≠ p → d'.part j = d.part j
  part : ∃ x, d'.part p = { d.part p with resumed := x }
  frame : d'.mem = d.mem ∧ d'.pruneDue = d.pruneDue ∧ d'.resetN = d.resetN ∧ d'.vin = d.vin
  serves : ∀ k, (d'.physCore k).logical = (d.physCore k).logical ∧ (d'.physCore k).st = (d.physCore k).st
  core : ∀ j, d.corePart j ≠ p → d'.core j = d.core j
  sq : ∀ j, ∃ h : BitVec 3, (d'.core j).sq = { (d.core j).sq with engHalt := (d.core j).sq.engHalt &&& h }

theorem addr_prtShape_le : Reg.addr ⟨.prtShape, []⟩ ≤ 0xF0000500000 := by decide

namespace Loading

variable {p : Nat} {d d' d'' : Dev}

theorem shape (h : Loading p d d') : d'.reg ⟨.prtShape, []⟩ = d.reg ⟨.prtShape, []⟩ := h.reg _ addr_prtShape_le

theorem corePart (h : Loading p d d') (c : Nat) : d'.corePart c = d.corePart c := corePart_congr h.shape c

/-- A step that leaves all of these fields. -/
theorem still (hregs : ∀ r : Reg, r.addr ≤ 0xF0000500000 → d'.reg r = d.reg r) (hparts : d'.parts = d.parts) (hcores : d'.cores = d.cores)
    (hphys : d'.phys = d.phys) (hframe : d'.mem = d.mem ∧ d'.pruneDue = d.pruneDue ∧ d'.resetN = d.resetN ∧ d'.vin = d.vin) :
    Loading p d d' := by
  have hpart : ∀ j, d'.part j = d.part j := fun j => by
    unfold Dev.part
    rw [hparts]
  have hcore : ∀ j, d'.core j = d.core j := fun j => by
    unfold Dev.core
    rw [hcores]
  have hserves : ∀ k, d'.physCore k = d.physCore k := fun k => by
    unfold Dev.physCore
    rw [hphys]
  exact ⟨hregs, fun j _ => hpart j, ⟨(d.part p).resumed, hpart p⟩, hframe, fun k => ⟨by rw [hserves], by rw [hserves]⟩, fun j _ => hcore j,
    fun j => ⟨BitVec.allOnes 3, by rw [hcore, BitVec.and_allOnes]⟩⟩

theorem refl (p : Nat) (d : Dev) : Loading p d d := still (fun _ _ => rfl) rfl rfl rfl ⟨rfl, rfl, rfl, rfl⟩

theorem trans (h : Loading p d d') (h' : Loading p d' d'') : Loading p d d'' := by
  obtain ⟨x, hx⟩ := h.part
  obtain ⟨x', hx'⟩ := h'.part
  obtain ⟨hmem, hdue, hreset, hvin⟩ := h.frame
  obtain ⟨hmem', hdue', hreset', hvin'⟩ := h'.frame
  refine ⟨fun r hr => (h'.reg r hr).trans (h.reg r hr), fun j hj => (h'.parts j hj).trans (h.parts j hj), ⟨x', by rw [hx', hx]⟩,
    ⟨hmem'.trans hmem, hdue'.trans hdue, hreset'.trans hreset, hvin'.trans hvin⟩,
    fun k => ⟨(h'.serves k).1.trans (h.serves k).1, (h'.serves k).2.trans (h.serves k).2⟩,
    fun j hj => (h'.core j (by rw [h.corePart]; exact hj)).trans (h.core j hj), fun j => ?_⟩
  obtain ⟨m, hm⟩ := h.sq j
  obtain ⟨m', hm'⟩ := h'.sq j
  exact ⟨m &&& m', by rw [hm', hm, BitVec.and_assoc]⟩

theorem foldl {α : Type} {f : Dev → α → Dev} {l : List α} (hf : ∀ d, ∀ x ∈ l, Loading p d (f d x)) : ∀ d, Loading p d (l.foldl f d) := by
  induction l with
  | nil => exact fun d => refl p d
  | cons x l ih =>
    obtain ⟨hx, hl⟩ := List.forall_mem_cons.1 (fun x hx d => hf d x hx)
    exact fun d => (hx d).trans (ih (fun d x h => hl x h d) (f d x))

end Loading

/-- A register stands no lower than its kind's first one. -/
theorem base_le_addr (k : RK) (ix : List Nat) : k.row.base ≤ Reg.addr ⟨k, ix⟩ := Nat.le_add_right _ _

section
variable {p : Nat} (d : Dev)

theorem loading_setReg (k : RK) (ix : List Nat) (v : Word) (hk : 0xF0000500000 < k.row.base) : Loading p d (d.setReg ⟨k, ix⟩ v) := by
  have hle := base_le_addr k ix
  exact Loading.still (fun r hr => Dev.setReg_ne _ _ _ _ (by omega)) rfl rfl rfl ⟨rfl, rfl, rfl, rfl⟩

theorem loading_raise (code : Nat) (part : Option Nat) (unit : Nat) : Loading p d (d.raise code part unit) :=
  Loading.still (fun _ _ => rfl) rfl rfl rfl ⟨rfl, rfl, rfl, rfl⟩

theorem loading_setGen (x : GenTable) : Loading p d (d.setGen p x) := Loading.still (fun _ _ => rfl) rfl rfl rfl ⟨rfl, rfl, rfl, rfl⟩

theorem loading_onRed (f : RedPart → RedPart) : Loading p d (d.onRed p f) := Loading.still (fun _ _ => rfl) rfl rfl rfl ⟨rfl, rfl, rfl, rfl⟩

theorem loading_onCtx (c : Nat) (f : NeaCtx → NeaCtx) : Loading p d (d.onCtx c f) :=
  Loading.still (fun _ _ => rfl) rfl rfl rfl ⟨rfl, rfl, rfl, rfl⟩

theorem loading_onHbm (t : Nat) (f : HbmTile → HbmTile) : Loading p d (d.onHbm t f) :=
  Loading.still (fun _ _ => rfl) rfl rfl rfl ⟨rfl, rfl, rfl, rfl⟩

theorem loading_setSem (k : Nat) (x : Sem) : Loading p d (d.setSem k x) := Loading.still (fun _ _ => rfl) rfl rfl rfl ⟨rfl, rfl, rfl, rfl⟩

theorem loading_semsLoad (l : List (Nat × Nat × Option Nat)) : Loading p d (d.semsLoad l) :=
  Loading.foldl (f := fun (d : Dev) (s : Nat × Nat × Option Nat) => d.setSem s.1 { value := s.2.1, owner := s.2.2.getD 0x1FF, declared := s.2.2.isSome })
    (fun d s _ => loading_setSem d s.1 _) d

theorem loading_resumed (b : Bool) : Loading p d (d.onPart p (fun y => { y with resumed := b })) := by
  have hself : (d.onPart p (fun y => { y with resumed := b })).part p = { d.part p with resumed := b } := by
    rw [Dev.onPart_get, if_pos rfl]
  have hother : ∀ j, j ≠ p → (d.onPart p (fun y => { y with resumed := b })).part j = d.part j := fun j hj => by
    rw [Dev.onPart_get, if_neg (Ne.symm hj)]
  exact ⟨fun _ _ => rfl, hother, ⟨b, hself⟩, ⟨rfl, rfl, rfl, rfl⟩, fun _ => ⟨rfl, rfl⟩, fun _ _ => rfl,
    fun j => ⟨BitVec.allOnes 3, by rw [BitVec.and_allOnes]; rfl⟩⟩

theorem loading_hubRingsLoad (l : List ImgRing) : Loading p d (d.hubRingsLoad p l) := by
  unfold Dev.hubRingsLoad
  dsimp only
  refine (Loading.foldl (fun d r _ => ?_) d).trans (Loading.foldl (fun d x _ => ?_) _)
  · exact (loading_setReg d .hubRingBase _ _ (by decide)).trans (loading_setReg _ .hubRingCfg _ _ (by decide))
  · exact (loading_setReg d .hubRingBase _ _ (by decide)).trans (loading_setReg _ .hubRingCfg _ _ (by decide))

theorem loading_redTableLoad (e : Nat) (r : ImgRed) : Loading p d (d.redTableLoad p e r) := by
  unfold Dev.redTableLoad Dev.redLoad
  dsimp only
  exact (((((loading_setReg d .dvoRedFirst _ _ (by decide)).trans (loading_setReg _ .dvoRedPeriod _ _ (by decide))).trans
    (loading_setReg _ .dvoRedKey _ _ (by decide))).trans (loading_setReg _ .dvoRedRing0 _ _ (by decide))).trans
    (loading_setReg _ .dvoRedScale _ _ (by decide))).trans (loading_onRed _ _)

/-- The context is bound to the partition and takes its area. -/
def Dev.ctxTaken (d : Dev) (p c job : Nat) (n : ImgNea) : Dev :=
  let d1 := d.setReg ⟨.neaCtxCtrl, [c]⟩ (put 1 0 p ||| putBit 2 true ||| putBit 3 n.fbMode)
  if decide ((d.ctx c).st = .suspended) then d1.onCtx c (fun x => { x with st := .active, latch := .edge })
  else
    let b := if n.fbMode then 0 else (d.placeArea (areaGib n.params)).getD 0
    d1.onCtx c (fun x => { st := .active, q := n.params, base := b, job := job, latch := .edge, event := x.event, flags := x.flags })

/-- The context's registers. -/
def Dev.ctxParams (d : Dev) (c : Nat) (n : ImgNea) : Dev :=
  ((((d.setReg ⟨.neaCtxArea, [c]⟩ (BitVec.ofNat 64 (d.ctx c).q)).setReg ⟨.neaCtxCommit, [c]⟩ (BitVec.ofNat 64 n.commit)).setReg
    ⟨.neaCtxPeriod, [c]⟩ (BitVec.ofNat 64 n.period)).setReg ⟨.neaCtxSeed, [c]⟩ n.seed).setReg ⟨.neaCtxFb, [c]⟩ (BitVec.ofNat 64 n.fbAddr)

/-- The registers of one of its groups at their reset values. -/
def Dev.grpReset (d : Dev) (c g : Nat) : Dev :=
  ([.neaGrpCfg, .neaGrpHyp1, .neaGrpHyp2, .neaGrpHyp3, .neaGrpStat] : List RK).foldl (fun (d : Dev) k => d.regReset ⟨k, [c, g]⟩) d

/-- The registers of a group that the image declares. -/
def Dev.grpLoad (d : Dev) (c : Nat) (g : Nat × Word × Word × Word × Word) : Dev :=
  (((d.setReg ⟨.neaGrpCfg, [c, g.1]⟩ g.2.1).setReg ⟨.neaGrpHyp1, [c, g.1]⟩ g.2.2.1).setReg ⟨.neaGrpHyp2, [c, g.1]⟩ g.2.2.2.1).setReg
    ⟨.neaGrpHyp3, [c, g.1]⟩ g.2.2.2.2

theorem ctxBind_dev (job : Nat) (n : ImgNea) : (d.ctxBind p job n).2 = match d.ctxFor job n with
    | none => d
    | some c => n.kernels.foldl (fun (d : Dev) k => d.setReg ⟨.neaKernel, [c, k.1]⟩ k.2) (n.groups.foldl (fun (d : Dev) g => d.grpLoad c g)
        ((upTo 256).foldl (fun (d : Dev) g => d.grpReset c g) ((d.ctxTaken p c job n).ctxParams c n))) := by
  unfold Dev.ctxBind
  cases d.ctxFor job n with
  | none => rfl
  | some c => rfl

theorem loading_ctxTaken (c job : Nat) (n : ImgNea) : Loading p d (d.ctxTaken p c job n) := by
  unfold Dev.ctxTaken
  dsimp only
  split
  · exact (loading_setReg d .neaCtxCtrl _ _ (by decide)).trans (loading_onCtx _ c _)
  · exact (loading_setReg d .neaCtxCtrl _ _ (by decide)).trans (loading_onCtx _ c _)

theorem loading_ctxParams (c : Nat) (n : ImgNea) : Loading p d (d.ctxParams c n) :=
  ((((loading_setReg d .neaCtxArea _ _ (by decide)).trans (loading_setReg _ .neaCtxCommit _ _ (by decide))).trans
    (loading_setReg _ .neaCtxPeriod _ _ (by decide))).trans (loading_setReg _ .neaCtxSeed _ _ (by decide))).trans
    (loading_setReg _ .neaCtxFb _ _ (by decide))

theorem loading_grpReset (c g : Nat) : Loading p d (d.grpReset c g) := by
  have hhigh : ∀ k ∈ ([.neaGrpCfg, .neaGrpHyp1, .neaGrpHyp2, .neaGrpHyp3, .neaGrpStat] : List RK), 0xF0000500000 < k.row.base := by decide
  exact Loading.foldl (f := fun (d : Dev) (k : RK) => d.regReset ⟨k, [c, g]⟩) (fun d k hk => loading_setReg d k [c, g] _ (hhigh k hk)) d

theorem loading_grpLoad (c : Nat) (g : Nat × Word × Word × Word × Word) : Loading p d (d.grpLoad c g) :=
  (((loading_setReg d .neaGrpCfg _ _ (by decide)).trans (loading_setReg _ .neaGrpHyp1 _ _ (by decide))).trans
    (loading_setReg _ .neaGrpHyp2 _ _ (by decide))).trans (loading_setReg _ .neaGrpHyp3 _ _ (by decide))

theorem loading_ctxBind (job : Nat) (n : ImgNea) : Loading p d (d.ctxBind p job n).2 := by
  rw [ctxBind_dev]
  cases d.ctxFor job n with
  | none => exact Loading.refl p d
  | some c =>
    exact (((loading_ctxTaken d c job n).trans (loading_ctxParams _ c n)).trans
      (Loading.foldl (f := fun (d : Dev) (g : Nat) => d.grpReset c g) (fun d g _ => loading_grpReset d c g) _)).trans
      ((Loading.foldl (f := fun (d : Dev) g => d.grpLoad c g) (fun d g _ => loading_grpLoad d c g) _).trans
        (Loading.foldl (f := fun (d : Dev) (k : Nat × Word) => d.setReg ⟨.neaKernel, [c, k.1]⟩ k.2)
          (fun d k _ => loading_setReg d .neaKernel _ _ (by decide)) _))

/-! ## Clock enables (R570) -/

theorem clkReg_high (core : Bool) (i : Nat) : ∃ k ix, clkReg core i = ⟨k, ix⟩ ∧ 0xF0000500000 < k.row.base := by
  cases core
  · exact ⟨.clkEnCluster, [i], rfl, by decide⟩
  · exact ⟨.clkEnCore, [i], rfl, by decide⟩

theorem loading_clkReg (core : Bool) (i : Nat) (v : Word) : Loading p d (d.setReg (clkReg core i) v) := by
  obtain ⟨k, ix, hr, hk⟩ := clkReg_high core i
  rw [hr]
  exact loading_setReg d k ix v hk

/-- An engine of a core of partition p stops: its sequencer keeps all but the mark of the engine's halt. -/
theorem loading_blockStop {i k : Nat} (hi : d.corePart i = p) : Loading p d (d.blockStop true i k) := by
  have hon : ∀ f : Core → Core, (∀ x : Core, ∃ h : BitVec 3, (f x).sq = { x.sq with engHalt := x.sq.engHalt &&& h }) →
      ∀ d' : Dev, d'.corePart i = p → Loading p d' (d'.onCore i f) := fun f hf d' hi' => by
    have hcore : ∀ j, d'.corePart j ≠ p → (d'.onCore i f).core j = d'.core j := fun j hj => by
      rw [Dev.onCore_get, if_neg (fun h => hj (by rw [← h]; exact hi'))]
    refine ⟨fun _ _ => rfl, fun _ _ => rfl, ⟨_, rfl⟩, ⟨rfl, rfl, rfl, rfl⟩, fun _ => ⟨rfl, rfl⟩, hcore, fun j => ?_⟩
    rw [Dev.onCore_get]
    split
    · next h => subst h; exact hf _
    · exact ⟨BitVec.allOnes 3, by rw [BitVec.and_allOnes]⟩
  have hkeep : ∀ x : Core, ∃ h : BitVec 3, x.sq = { x.sq with engHalt := x.sq.engHalt &&& h } := fun x =>
    ⟨BitVec.allOnes 3, by rw [BitVec.and_allOnes]⟩
  have hstop : Loading p d (match k with
      | 1 => d.onMe i Me.stopped
      | 2 => d.onVe i Ve.stopped
      | _ => d.onFte i Fte.stopped) := by
    split
    · exact hon (fun x => { x with me := Me.stopped x.me }) hkeep d hi
    · exact hon (fun x => { x with ve := Ve.stopped x.ve }) hkeep d hi
    · exact hon (fun x => { x with fte := Fte.stopped x.fte }) hkeep d hi
  have hreqs : ∀ (x : Dev) (a : List SemReq) (b : List SemDone), Loading p x { x with semReqs := a, semDone := b } := fun _ _ _ =>
    Loading.still (fun _ _ => rfl) rfl rfl rfl ⟨rfl, rfl, rfl, rfl⟩
  unfold Dev.blockStop
  rw [if_pos rfl]
  dsimp only
  refine (hstop.trans (hreqs _ _ _)).trans (hon (fun x => { x with sq := { x.sq with engHalt := x.sq.engHalt &&& ~~~(BitVec.ofNat 3 (2 ^ (k - 1))) } })
    (fun x => ⟨_, rfl⟩) _ ?_)
  exact ((hstop.trans (hreqs _ _ _)).corePart i).trans hi

theorem loading_clkMove {core : Bool} {i k : Nat} (h : core = true ∧ d.corePart i = p ∨ d.regFld (clkReg core i) (k - 1) (k - 1) ≠ 0) :
    Loading p d (d.clkMove core i k) := by
  unfold Dev.clkMove
  dsimp only
  have hpend := loading_clkReg (p := p) d core i (setFld (15 + k) (15 + k) 0 (d.reg (clkReg core i)))
  split
  · exact hpend.trans (loading_clkReg _ core i _)
  · next hen =>
    rcases h with ⟨rfl, hi⟩ | h
    · exact (hpend.trans (loading_blockStop _ ((hpend.corePart i).trans hi))).trans (loading_clkReg _ true i _)
    · exact absurd hen h
  · exact hpend

/-- A written enable: of a core of partition p, or to 1. -/
theorem loading_clkEnable {core : Bool} {i k v : Nat} (hk : k - 1 < 64) (hv : core = true ∧ d.corePart i = p ∨ v = 1) :
    Loading p d (d.clkEnable core i k v) := by
  have hset := loading_clkReg (p := p) d core i (setFld (k - 1) (k - 1) v (d.reg (clkReg core i)))
  have hen : v = 1 → (d.setRegFld (clkReg core i) (k - 1) (k - 1) v).regFld (clkReg core i) (k - 1) (k - 1) ≠ 0 := fun h => by
    have hself : (d.setRegFld (clkReg core i) (k - 1) (k - 1) v).regFld (clkReg core i) (k - 1) (k - 1) = v % 2 ^ (k - 1 + 1 - (k - 1)) :=
      (regFld_setReg_self _ _ _ _ _).trans (fld_setFld_self v _ hk)
    rw [hself, Nat.add_sub_cancel_left, h]
    decide
  have hmove := loading_clkMove (p := p) (d.setRegFld (clkReg core i) (k - 1) (k - 1) v) (core := core) (i := i) (k := k)
    (hv.imp (fun h => ⟨h.1, (hset.corePart i).trans h.2⟩) hen)
  unfold Dev.clkEnable
  dsimp only
  split
  · exact Loading.refl p d
  · split
    · exact (hset.trans (loading_clkReg _ core i _)).trans (loading_raise _ _ _ _)
    · exact (hset.trans (loading_clkReg _ core i _)).trans (loading_raise _ _ _ _)
    · exact hset.trans hmove
    · exact hset.trans hmove
    · exact hset.trans (loading_clkReg _ core i _)

/-- The enables of a core of partition p. -/
theorem loading_clkWrite_core {i : Nat} (v : Nat) (hi : d.corePart i = p) : Loading p d (d.clkWrite true i v) := by
  have h1 := loading_clkEnable (p := p) d (core := true) (i := i) (k := 1) (v := bits 0 0 v) (by decide) (.inl ⟨rfl, hi⟩)
  have h2 := loading_clkEnable (p := p) (d.clkEnable true i 1 (bits 0 0 v)) (core := true) (i := i) (k := 2) (v := bits 1 1 v) (by decide)
    (.inl ⟨rfl, (h1.corePart i).trans hi⟩)
  have h3 := loading_clkEnable (p := p) ((d.clkEnable true i 1 (bits 0 0 v)).clkEnable true i 2 (bits 1 1 v)) (core := true) (i := i) (k := 3)
    (v := bits 2 2 v) (by decide) (.inl ⟨rfl, ((h1.trans h2).corePart i).trans hi⟩)
  exact (h1.trans h2).trans h3

/-- Every enable of a cluster is set. -/
theorem loading_clkWrite_cluster (g : Nat) : Loading p d (d.clkWrite false g 7) := by
  have hone : bits 0 0 7 = 1 ∧ bits 1 1 7 = 1 ∧ bits 2 2 7 = 1 := by decide
  obtain ⟨h0, h1, h2⟩ := hone
  exact ((loading_clkEnable d (k := 1) (by decide) (.inr h0)).trans (loading_clkEnable _ (k := 2) (by decide) (.inr h1))).trans
    (loading_clkEnable _ (k := 3) (by decide) (.inr h2))

/-- A step for each of some cores of partition p. -/
theorem Loading.foldl_cores {f : Dev → Nat → Dev} (hf : ∀ (d : Dev) (c : Nat), d.corePart c = p → Loading p d (f d c)) (l : List Nat) :
    ∀ d : Dev, (∀ c ∈ l, d.corePart c = p) → Loading p d (l.foldl f d) := by
  induction l with
  | nil => exact fun d _ => Loading.refl p d
  | cons c l ih =>
    intro d hl
    obtain ⟨hc, hl⟩ := List.forall_mem_cons.1 hl
    have hstep := hf d c hc
    exact hstep.trans (ih _ (fun c' h' => (hstep.corePart c').trans (hl c' h')))

theorem loading_enablesLoad (x : Image) : Loading p d (d.enablesLoad p x) := by
  unfold Dev.enablesLoad
  exact (Loading.foldl_cores (fun d c hc => loading_clkWrite_core d _ hc) _ d (fun c hc => ((mem_partCores d).1 hc).2)).trans
    (Loading.foldl (f := fun (d : Dev) g => d.clkWrite false g 7) (fun d g _ => loading_clkWrite_cluster d g) _)

/-! ## What was due at the partition's boundaries (R541) -/

/-- A map of the values: the value at a key. -/
theorem getD_mapValues {α β : Type} (q : α → β) (g : Nat × α → Nat × α) (hkey : ∀ e, (g e).1 = e.1) (hval : ∀ e, q (g e).2 = q e.2)
    (m : FMap α) (k : Nat) (a : α) : q (FMap.getD (m.map g) k a) = q (FMap.getD m k a) := by
  induction m with
  | nil => rfl
  | cons e m ih =>
    obtain ⟨j, v⟩ := e
    have hstep : ∀ (u : Nat × α) (r : FMap α), FMap.getD (u :: r) k a = if u.1 = k then u.2 else FMap.getD r k a := fun _ _ => rfl
    rw [List.map_cons, hstep, hstep, hkey]
    split
    · exact hval _
    · exact ih

theorem loading_dueRelease : Loading p d (d.dueRelease p) := by
  have hserves : ∀ k, (FMap.getD (d.phys.map (fun e => if d.tilePart (e.1 / 112) = p then
      (e.1, { e.2 with columnDue := e.2.columnDue.release, sram := { e.2.sram with due := e.2.sram.due.map (fun y => (y.1, y.2.release)) } })
      else e)) k (PhysCore.init k)).logical = (d.physCore k).logical ∧
      (FMap.getD (d.phys.map (fun e => if d.tilePart (e.1 / 112) = p then
      (e.1, { e.2 with columnDue := e.2.columnDue.release, sram := { e.2.sram with due := e.2.sram.due.map (fun y => (y.1, y.2.release)) } })
      else e)) k (PhysCore.init k)).st = (d.physCore k).st := fun k => by
    refine ⟨getD_mapValues PhysCore.logical _ (fun e => ?_) (fun e => ?_) _ _ _, getD_mapValues PhysCore.st _ (fun e => ?_) (fun e => ?_) _ _ _⟩
    all_goals split <;> rfl
  unfold Dev.dueRelease
  dsimp only
  refine Loading.trans ?_ (Loading.foldl (fun d t _ => loading_onHbm d t _) _)
  exact ⟨fun _ _ => rfl, fun _ _ => rfl, ⟨(d.part p).resumed, rfl⟩, ⟨rfl, rfl, rfl, rfl⟩, hserves, fun _ _ => rfl,
    fun j => ⟨BitVec.allOnes 3, by rw [BitVec.and_allOnes]; rfl⟩⟩

/-! ## The cores' code (R213) -/

/-- The code of partition p's cores. -/
def Dev.coresLoad (d : Dev) (p e : Nat) (x : Image) : Dev :=
  (d.partCores p).foldl (fun (d : Dev) c => if d.inService c then d.coreLoad x c e else d) d

/-- A core as it starts, with the code of an image. -/
def Core.startsAt (y : Core) (k : ImgCore) (e : Nat) : Sq :=
  { Sq.start (codeStore k.code) k.code.length k.entry k.restart e with issue := y.sq.issue }

theorem coreLoad_rest (x : Image) (c e : Nat) : d.coreLoad x c e = { d with cores := (d.coreLoad x c e).cores } := rfl

theorem coreLoad_core (x : Image) (c e j : Nat) : (j ≠ c → (d.coreLoad x c e).core j = d.core j) ∧
    (∀ k, x.cores.find? (fun (y : ImgCore) => y.core = c) = some k → ((d.coreLoad x c e).core c).sq = (d.core c).startsAt k e) := by
  unfold Dev.coreLoad
  dsimp only
  refine ⟨fun hj => ?_, fun k hk => ?_⟩
  · rw [Dev.onCore_get, if_neg (Ne.symm hj)]
  · rw [Dev.onCore_get, if_pos rfl, hk]
    rfl

/-- Code is loaded: only the cores change. -/
theorem coresLoad_rest (p e : Nat) (x : Image) : d.coresLoad p e x = { d with cores := (d.coresLoad p e x).cores } := by
  have hall : ∀ (l : List Nat) (d : Dev), l.foldl (fun (d : Dev) c => if d.inService c then d.coreLoad x c e else d) d =
      { d with cores := (l.foldl (fun (d : Dev) c => if d.inService c then d.coreLoad x c e else d) d).cores } := by
    intro l
    induction l with
    | nil => exact fun _ => rfl
    | cons c l ih =>
      intro d
      rw [List.foldl_cons]
      refine (ih _).trans ?_
      split
      · rw [coreLoad_rest d]
      · rfl
  exact hall _ d

theorem inService_cores (m : FMap Core) (c : Nat) : ({ d with cores := m } : Dev).inService c = d.inService c := rfl

/-- A core of the partition that is in service starts; a core of another one stands. -/
theorem coresLoad_core (p e : Nat) (x : Image) (j : Nat) : (d.corePart j ≠ p → (d.coresLoad p e x).core j = d.core j) ∧
    (∀ k, j < 384 → d.corePart j = p → d.inService j = true → x.cores.find? (fun (y : ImgCore) => y.core = j) = some k →
      ((d.coresLoad p e x).core j).sq = (d.core j).startsAt k e) := by
  have hother : ∀ (l : List Nat) (d : Dev), j ∉ l →
      (l.foldl (fun (d : Dev) c => if d.inService c then d.coreLoad x c e else d) d).core j = d.core j := by
    intro l
    induction l with
    | nil => exact fun _ _ => rfl
    | cons c l ih =>
      intro d hj
      have hc : j ≠ c := fun h => hj (List.mem_cons.2 (.inl h))
      refine (ih _ (fun h => hj (List.mem_cons.2 (.inr h)))).trans ?_
      dsimp only
      split
      · exact (coreLoad_core d x c e j).1 hc
      · rfl
  have hself : ∀ (k : ImgCore), x.cores.find? (fun (y : ImgCore) => y.core = j) = some k → ∀ (l : List Nat) (d : Dev), j ∈ l → d.inService j = true →
      ((l.foldl (fun (d : Dev) c => if d.inService c then d.coreLoad x c e else d) d).core j).sq = (d.core j).startsAt k e := by
    intro k hk l
    induction l with
    | nil => exact fun _ h => nomatch h
    | cons c l ih =>
      intro d hj hserv
      rw [List.foldl_cons]
      have hserv' : (if d.inService c then d.coreLoad x c e else d).inService j = true := by
        split
        · rw [coreLoad_rest d, inService_cores]
          exact hserv
        · exact hserv
      by_cases hl : j ∈ l
      · refine (ih _ hl hserv').trans ?_
        split
        · by_cases hjc : j = c
          · subst hjc
            unfold Core.startsAt
            rw [(coreLoad_core d x j e j).2 k hk]
            rfl
          · rw [(coreLoad_core d x c e j).1 hjc]
        · rfl
      · have hjc : j = c := (List.mem_cons.1 hj).resolve_right hl
        subst hjc
        rw [hother l _ hl, if_pos hserv]
        exact (coreLoad_core d x j e j).2 k hk
  refine ⟨fun hj => hother _ d (fun h => hj ((mem_partCores d).1 h).2), fun k hj hpart hserv hk =>
    hself k hk _ d ((mem_partCores d).2 ⟨hj, hpart⟩) hserv⟩

/-! ## The budget (R74) -/

/-- The budgets and the deadline monitor of a program. -/
def Dev.budgetLoad (d : Dev) (p : Nat) (x : Image) : Dev :=
  ((((d.setReg ⟨.tmpBudget, [p]⟩ (put 31 0 x.budget ||| put 42 32 x.period ||| put 55 44 x.mhz)).setReg ⟨.tmpBudgetFb, [p]⟩
    (put 31 0 (match x.serving, x.fb with
      | true, some f => f.1
      | _, _ => 0) ||| put 63 32 x.tempos)).setRegFld ⟨.tmpDmCtrl, [p]⟩ 10 10 (if x.serving then 1 else 0)).setRegFld
    ⟨.tmpDmCtrl, [p]⟩ 9 8 0).setReg ⟨.tmpDmStatus, [p]⟩ (BitVec.ofNat 64 0)

/-- The period field of a declared budget. -/
theorem budget_period (b m t : Nat) : fld 42 32 (put 31 0 b ||| put 42 32 m ||| put 55 44 t) = m % 2 ^ 11 := by
  rw [fld_or, fld_or, fld_put_other _ (.inr (by decide)), fld_put_self _ (by decide), fld_put_other _ (.inl (by decide)), Nat.zero_or, Nat.or_zero]

theorem budgetLoad_facts {p : Nat} (hp : p < 4) (x : Image) : d.budgetLoad p x = { d with regs := (d.budgetLoad p x).regs } ∧
    (d.budgetLoad p x).regFld ⟨.tmpBudget, [p]⟩ 42 32 = x.period % 2 ^ 11 ∧
    (d.budgetLoad p x).reg ⟨.tmpPeriod, []⟩ = d.reg ⟨.tmpPeriod, []⟩ ∧ (d.budgetLoad p x).reg ⟨.prtShape, []⟩ = d.reg ⟨.prtShape, []⟩ := by
  have hbudget : Reg.addr ⟨.tmpBudget, [p]⟩ = 0xF0000100310 + 0x20 * p := by simp [Reg.addr, RK.row]
  have hbudgetFb : Reg.addr ⟨.tmpBudgetFb, [p]⟩ = 0xF0000100318 + 0x20 * p := by simp [Reg.addr, RK.row]
  have hctrl : Reg.addr ⟨.tmpDmCtrl, [p]⟩ = 0xF0000100300 + 0x20 * p := by simp [Reg.addr, RK.row]
  have hstatus : Reg.addr ⟨.tmpDmStatus, [p]⟩ = 0xF0000100308 + 0x20 * p := by simp [Reg.addr, RK.row]
  have hperiod : Reg.addr ⟨.tmpPeriod, []⟩ = 0xF0000100010 := by decide
  have hshape : Reg.addr ⟨.prtShape, []⟩ = 0xF0000500000 := by decide
  have hother : ∀ (r : Reg) (b f c1 c2 t : Word) (d : Dev), Reg.addr ⟨.tmpBudgetFb, [p]⟩ ≠ r.addr → Reg.addr ⟨.tmpDmCtrl, [p]⟩ ≠ r.addr →
      Reg.addr ⟨.tmpDmStatus, [p]⟩ ≠ r.addr →
      (((((d.setReg ⟨.tmpBudget, [p]⟩ b).setReg ⟨.tmpBudgetFb, [p]⟩ f).setReg ⟨.tmpDmCtrl, [p]⟩ c1).setReg ⟨.tmpDmCtrl, [p]⟩ c2).setReg
        ⟨.tmpDmStatus, [p]⟩ t).reg r = (d.setReg ⟨.tmpBudget, [p]⟩ b).reg r := fun r b f c1 c2 t d h1 h2 h3 =>
    ((((Dev.setReg_ne _ _ _ _ h3).trans (Dev.setReg_ne _ _ _ _ h2)).trans (Dev.setReg_ne _ _ _ _ h2)).trans (Dev.setReg_ne _ _ _ _ h1))
  refine ⟨rfl, ?_, ?_, ?_⟩
  · refine Eq.trans (congrArg (fld 42 32) ?_) (budget_period x.budget x.period x.mhz)
    exact (hother ⟨.tmpBudget, [p]⟩ _ _ _ _ _ d (by omega) (by omega) (by omega)).trans (Dev.setReg_self _ _ _)
  · exact (hother ⟨.tmpPeriod, []⟩ _ _ _ _ _ d (by omega) (by omega) (by omega)).trans (Dev.setReg_ne _ _ _ _ (by omega))
  · exact (hother ⟨.prtShape, []⟩ _ _ _ _ _ d (by omega) (by omega) (by omega)).trans (Dev.setReg_ne _ _ _ _ (by omega))

end

/-! ## The load as a whole (R491) -/

/-- The partition as a load writes it. -/
def Part.loadedBy (y : Part) (x : Image) (pages : List (Nat × Nat × Nat)) : Part :=
  { y with epoch := (y.epoch + 1) % 2 ^ 32, job := x.job, tenant := x.tenant, loading := none, pages := pages }

/-- The generation slots of a program. -/
def Dev.gensLoad (d : Dev) (p : Nat) (x : Image) : Dev :=
  d.setGen p (((upTo x.stages.length).zip x.stages).foldl (fun (t : GenTable) s =>
    (t.onSlot s.1 0 (fun y => { y with page := s.2.1.1, pages := s.2.1.2 })).onSlot s.1 1 (fun y => { y with page := s.2.2.1, pages := s.2.2.2 }))
    { stages := x.stages.length, events := (d.gen p).events })

/-- The reduction table of a program that has one. -/
def Dev.redsLoad (d : Dev) (p e : Nat) (x : Image) : Dev :=
  match x.red with
  | some r => d.redTableLoad p e r
  | none => d

/-- The context of a program that trains, and the ring that it resumes from. -/
def Dev.neaLoad (d : Dev) (p : Nat) (x : Image) : Option Nat × Dev :=
  match x.nea with
  | some n => d.ctxBind p x.job n
  | none => (none, d)

/-- The record of the ring that a program resumes from. -/
def Dev.resumeLoad (d : Dev) (p : Nat) (b : Option Nat) : Dev :=
  (d.setReg ⟨.prtResume, [p]⟩ (BitVec.ofNat 64 (b.getD (2 ^ 64 - 1)))).onPart p (fun y => { y with resumed := b.isSome })

/-- Tables, semaphores, the context, the enables and the rings of a program. -/
def Dev.unitsLoad (d : Dev) (p e : Nat) (x : Image) : Dev :=
  let d7 := (((d.gensLoad p x).redsLoad p e x).setRegFld ⟨.dvoRedStatus, [p]⟩ 31 16 0).semsLoad x.sems
  ((((d7.neaLoad p x).2.resumeLoad p (d7.neaLoad p x).1).enablesLoad p x).hubRingsLoad p x.rings).dueRelease p

theorem loadWrite_eq (d : Dev) (p e : Nat) (x : Image) : d.loadWrite p e x =
    (((d.onPart p (fun y => y.loadedBy x (d.loaderPages x.hbm))).coresLoad p e x).budgetLoad p x).unitsLoad p e x := rfl

theorem loading_unitsLoad (d : Dev) (p e : Nat) (x : Image) : Loading p d (d.unitsLoad p e x) := by
  have hred : ∀ d : Dev, Loading p d (d.redsLoad p e x) := fun d => by
    unfold Dev.redsLoad
    split
    · exact loading_redTableLoad d e _
    · exact Loading.refl p d
  have hnea : ∀ d : Dev, Loading p d (d.neaLoad p x).2 := fun d => by
    unfold Dev.neaLoad
    split
    · exact loading_ctxBind d _ _
    · exact Loading.refl p d
  have hresume : ∀ (d : Dev) b, Loading p d (d.resumeLoad p b) := fun d b =>
    (loading_setReg d .prtResume _ _ (by decide)).trans (loading_resumed _ _)
  unfold Dev.unitsLoad
  dsimp only
  have h7 := (((loading_setGen (p := p) d _).trans (hred _)).trans (loading_setReg ((d.gensLoad p x).redsLoad p e x) .dvoRedStatus [p] (setFld 31 16 0
    (((d.gensLoad p x).redsLoad p e x).reg ⟨.dvoRedStatus, [p]⟩)) (by decide))).trans (loading_semsLoad _ x.sems)
  exact (((((h7.trans (hnea _)).trans (hresume _ _)).trans (loading_enablesLoad _ x)).trans (loading_hubRingsLoad _ x.rings)).trans (loading_dueRelease _))

/-- What the writes of a load leave. -/
structure Written (d y : Dev) (p e : Nat) (x : Image) : Prop where
  part : ∃ r pg, y.part p = { (d.part p).loadedBy x pg with resumed := r }
  parts : ∀ j, j ≠ p → y.part j = d.part j
  budget : y.regFld ⟨.tmpBudget, [p]⟩ 42 32 = x.period % 2 ^ 11
  period : y.period = d.period
  shape : y.reg ⟨.prtShape, []⟩ = d.reg ⟨.prtShape, []⟩
  serves : ∀ c, y.inService c = d.inService c
  core : ∀ j, d.corePart j ≠ p → y.core j = d.core j
  sq : ∀ c k, c < 384 → d.corePart c = p → d.inService c = true → x.cores.find? (fun (z : ImgCore) => z.core = c) = some k →
    (y.core c).sq = (d.core c).startsAt k e
  frame : y.mem = d.mem ∧ y.pruneDue = d.pruneDue ∧ y.resetN = d.resetN ∧ y.vin = d.vin

/-- A physical core serves by its logical number and its state. -/
theorem inService_congr {d d' : Dev} (h : ∀ k, (d'.physCore k).logical = (d.physCore k).logical ∧ (d'.physCore k).st = (d.physCore k).st) (c : Nat) :
    d'.inService c = d.inService c := by
  have hsame : d'.physOf c = d.physOf c := by
    unfold Dev.physOf
    congr 1
    funext k
    dsimp only
    rw [(h _).1, (h _).2]
  unfold Dev.inService
  rw [hsame]

theorem startsAt_engHalt (y : Core) (k : ImgCore) (e : Nat) (h : BitVec 3) :
    { y.startsAt k e with engHalt := (y.startsAt k e).engHalt &&& h } = y.startsAt k e := by
  have hzero : (y.startsAt k e).engHalt &&& h = (y.startsAt k e).engHalt := BitVec.zero_and
  rw [hzero]

theorem loadWrite_facts (d : Dev) {p : Nat} (hp : p < 4) (e : Nat) (x : Image) : Written d (d.loadWrite p e x) p e x := by
  rw [loadWrite_eq]
  have hpart1 : (d.onPart p (fun y => y.loadedBy x (d.loaderPages x.hbm))).part p = (d.part p).loadedBy x (d.loaderPages x.hbm) := by
    rw [Dev.onPart_get, if_pos rfl]
  have hparts1 : ∀ j, j ≠ p → (d.onPart p (fun y => y.loadedBy x (d.loaderPages x.hbm))).part j = d.part j := fun j hj => by
    rw [Dev.onPart_get, if_neg (Ne.symm hj)]
  have hrest1 : d.onPart p (fun y => y.loadedBy x (d.loaderPages x.hbm)) = { d with
    parts := (d.onPart p (fun y => y.loadedBy x (d.loaderPages x.hbm))).parts } := rfl
  generalize d.onPart p (fun y => y.loadedBy x (d.loaderPages x.hbm)) = y1 at *
  have hrest2 := coresLoad_rest y1 p e x
  have hcore2 := coresLoad_core y1 p e x
  generalize y1.coresLoad p e x = y2 at *
  obtain ⟨hrest3, hbudget3, hperiod3, hshape3⟩ := budgetLoad_facts y2 hp x
  generalize y2.budgetLoad p x = y3 at *
  have hload := loading_unitsLoad y3 p e x
  generalize y3.unitsLoad p e x = y at *
  have hstand1 : y1.cores = d.cores ∧ y1.phys = d.phys ∧ y1.regs = d.regs ∧ y1.mem = d.mem ∧ y1.pruneDue = d.pruneDue ∧
      y1.resetN = d.resetN ∧ y1.vin = d.vin := by
    rw [hrest1]
    exact ⟨rfl, rfl, rfl, rfl, rfl, rfl, rfl⟩
  have hstand2 : y2.parts = y1.parts ∧ y2.phys = y1.phys ∧ y2.regs = y1.regs ∧ y2.mem = y1.mem ∧ y2.pruneDue = y1.pruneDue ∧
      y2.resetN = y1.resetN ∧ y2.vin = y1.vin := by
    rw [hrest2]
    exact ⟨rfl, rfl, rfl, rfl, rfl, rfl, rfl⟩
  have hstand3 : y3.parts = y2.parts ∧ y3.phys = y2.phys ∧ y3.cores = y2.cores ∧ y3.mem = y2.mem ∧ y3.pruneDue = y2.pruneDue ∧
      y3.resetN = y2.resetN ∧ y3.vin = y2.vin := by
    rw [hrest3]
    exact ⟨rfl, rfl, rfl, rfl, rfl, rfl, rfl⟩
  clear hrest1 hrest2 hrest3
  obtain ⟨hcores1, hphys1, hregs1, hmem1, hdue1, hreset1, hvin1⟩ := hstand1
  obtain ⟨hparts2, hphys2, hregs2, hmem2, hdue2, hreset2, hvin2⟩ := hstand2
  obtain ⟨hpartsRegs3, hphys3, hcores3, hmem3, hdue3, hreset3, hvin3⟩ := hstand3
  obtain ⟨hmem, hdue, hreset, hvin⟩ := hload.frame
  have hpart3 : ∀ j, y3.part j = y1.part j := fun j => by
    unfold Dev.part
    rw [hpartsRegs3, hparts2]
  have hcore3 : ∀ j, y3.core j = y2.core j := fun j => by
    unfold Dev.core
    rw [hcores3]
  have hcore1 : ∀ j, y1.core j = d.core j := fun j => by
    unfold Dev.core
    rw [hcores1]
  have hshape1 : ∀ j, y1.corePart j = d.corePart j := corePart_congr (Dev.reg_congr hregs1 _)
  have hshapeY3 : y3.reg ⟨.prtShape, []⟩ = d.reg ⟨.prtShape, []⟩ := hshape3.trans ((Dev.reg_congr hregs2 _).trans (Dev.reg_congr hregs1 _))
  have hserves1 : ∀ c, y1.inService c = d.inService c := inService_congr (fun k => by
    unfold Dev.physCore
    rw [hphys1]
    exact ⟨rfl, rfl⟩)
  refine ⟨?_, fun j hj => (hload.parts j hj).trans ((hpart3 j).trans (hparts1 j hj)), ?_, ?_, hload.shape.trans hshapeY3, ?_, fun j hj => ?_,
    fun c k hc hcp hserv hk => ?_, hmem.trans (hmem3.trans (hmem2.trans hmem1)), hdue.trans (hdue3.trans (hdue2.trans hdue1)),
    hreset.trans (hreset3.trans (hreset2.trans hreset1)), hvin.trans (hvin3.trans (hvin2.trans hvin1))⟩
  · obtain ⟨r, hr⟩ := hload.part
    exact ⟨r, _, by rw [hr, hpart3, hpart1]⟩
  · refine Eq.trans ?_ hbudget3
    exact congrArg (fld 42 32) (hload.reg _ (by
      simp [Reg.addr, RK.row]
      omega))
  · refine congrArg (fld 10 0) ?_
    exact (hload.reg ⟨.tmpPeriod, []⟩ (by decide)).trans (hperiod3.trans ((Dev.reg_congr hregs2 _).trans (Dev.reg_congr hregs1 _)))
  · refine inService_congr (fun k => ?_)
    have hphys : y3.physCore k = d.physCore k := by
      unfold Dev.physCore
      rw [hphys3, hphys2, hphys1]
    rw [← hphys]
    exact hload.serves k
  · rw [hload.core j (by rw [corePart_congr hshapeY3]; exact hj), hcore3, (hcore2 j).1 (by rw [hshape1]; exact hj), hcore1]
  · obtain ⟨h, hsq⟩ := hload.sq c
    rw [hsq, hcore3, (hcore2 c).2 k hc ((hshape1 c).trans hcp) ((hserves1 c).trans hserv) hk, hcore1]
    exact startsAt_engHalt _ _ _ _

/-! ## LOAD_COMPLETE -/

/-- The partition runs its program, of which the image is measured. -/
def Part.started (y : Part) (image : List Byte) : Part := { y with st := .running, image := image, notice := none }

/-- A notice that came while the program loaded is taken. -/
def Dev.heldNotice (d : Dev) (p : Nat) : Dev :=
  match (d.part p).held with
  | some n => (d.onPart p (fun y => { y with held := none })).castle p n.at_ n.killed
  | none => d

/-- The program as it runs, if its period is in force and it has not ended. -/
def Dev.programStarts (d : Dev) (p : Nat) (img : Image) (image : List Byte) : Dev :=
  ((d.loadWrite p d.nextEdge img).onPart p (fun y => y.started image)).raise 0x0F01 (some p) p

theorem loadComplete_eq {d : Dev} {p : Nat} {img : Image} (hst : (d.part p).st = .loading) (hload : (d.part p).loading = some img) :
    d.loadComplete p = (((d.programStarts p img (shake256 (d.mem.getAll (d.regFld ⟨.prtLoad, [p]⟩ 47 0)
      (d.regFld ⟨.prtLoadLen, [p]⟩ 31 0)))).periodCheck p).programEnd p).heldNotice p := by
  unfold Dev.loadComplete
  rw [hst, hload]
  rfl

section
variable {y : Dev} {p : Nat}

/-- A program with the period in force is not stopped. -/
theorem periodCheck_inForce (h : y.regFld ⟨.tmpBudget, [p]⟩ 42 32 = y.period) : y.periodCheck p = y := by
  unfold Dev.periodCheck
  split
  · exact if_neg (fun hne => hne h)
  · exact if_neg (fun hne => hne h)
  · rfl

/-- A program with a core that is not done has not ended. -/
theorem programEnd_goesOn {c : Nat} (hc : c ∈ y.partCores p) (hst : (y.core c).sq.st ≠ .done) (hserv : y.inService c = true) :
    y.programEnd p = y := by
  refine if_neg (fun h => ?_)
  have hall := List.all_eq_true.1 h.2 c hc
  rw [hserv, decide_eq_false hst] at hall
  exact nomatch hall

theorem heldNotice_none (h : (y.part p).held = none) : y.heldNotice p = y := by
  unfold Dev.heldNotice
  rw [h]

end

theorem completes_loadComplete {s : State} (p : PartId) (hacts : Acts s) {img : Image} {c : Nat} {k : ImgCore}
    (hst : (s.dev.part p.val).st = .loading) (hload : (s.dev.part p.val).loading = some img) (hheld : (s.dev.part p.val).held = none)
    (hperiod : img.period = s.dev.period) (hc : c < 384) (hcp : s.dev.corePart c = p.val) (hserv : s.dev.inService c = true)
    (hk : img.cores.find? (fun (y : ImgCore) => y.core = c) = some k) (hcode : k.code ≠ []) :
    Completes (.loadComplete p) s (fun d =>
      (d.part p.val).st = .running ∧ (d.part p.val).epoch = ((s.dev.part p.val).epoch + 1) % 2 ^ 32 ∧ (d.part p.val).job = img.job ∧
      (d.core c).sq = { Sq.start (codeStore k.code) k.code.length k.entry k.restart s.dev.nextEdge with
        issue := (s.dev.core c).sq.issue } ∧
      (∀ j, s.dev.corePart j ≠ p.val → d.core j = s.dev.core j) ∧ (∀ j, j ≠ p.val → d.part j = s.dev.part j) ∧
      Raises d 0x0F01 ∧ d.mem = s.dev.mem) := by
  have heq := loadComplete_eq (d := s.dev.silent) hst hload
  generalize shake256 (s.dev.silent.mem.getAll (s.dev.silent.regFld ⟨.prtLoad, [p.val]⟩ 47 0) (s.dev.silent.regFld ⟨.prtLoadLen, [p.val]⟩ 31 0)) =
    image at *
  have hwritten := loadWrite_facts s.dev.silent p.isLt s.dev.silent.nextEdge img
  have hstarts : s.dev.silent.programStarts p.val img image =
      ((s.dev.silent.loadWrite p.val s.dev.silent.nextEdge img).onPart p.val (fun y => y.started image)).raise 0x0F01 (some p.val) p.val := rfl
  rw [hstarts] at heq
  clear hstarts
  generalize s.dev.silent.loadWrite p.val s.dev.silent.nextEdge img = y at *
  obtain ⟨r, pg, hpart⟩ := hwritten.part
  have hself : ((y.onPart p.val (fun y => y.started image)).raise 0x0F01 (some p.val) p.val).part p.val = (y.part p.val).started image :=
    (Dev.onPart_get y p.val p.val (fun y => y.started image)).trans (if_pos rfl)
  have hothers : ∀ j, j ≠ p.val → ((y.onPart p.val (fun y => y.started image)).raise 0x0F01 (some p.val) p.val).part j = y.part j := fun j hj =>
    (Dev.onPart_get y p.val j (fun y => y.started image)).trans (if_neg (Ne.symm hj))
  rw [hpart] at hself
  have hregs : ((y.onPart p.val (fun y => y.started image)).raise 0x0F01 (some p.val) p.val).regs = y.regs ∧
      (∀ j, ((y.onPart p.val (fun y => y.started image)).raise 0x0F01 (some p.val) p.val).core j = y.core j) ∧
      (∀ j, ((y.onPart p.val (fun y => y.started image)).raise 0x0F01 (some p.val) p.val).inService j = y.inService j) ∧
      Raises ((y.onPart p.val (fun y => y.started image)).raise 0x0F01 (some p.val) p.val) 0x0F01 ∧
      ((y.onPart p.val (fun y => y.started image)).raise 0x0F01 (some p.val) p.val).mem = y.mem ∧
      ((y.onPart p.val (fun y => y.started image)).raise 0x0F01 (some p.val) p.val).pruneDue = y.pruneDue ∧
      ((y.onPart p.val (fun y => y.started image)).raise 0x0F01 (some p.val) p.val).resetN = y.resetN ∧
      ((y.onPart p.val (fun y => y.started image)).raise 0x0F01 (some p.val) p.val).vin = y.vin :=
    ⟨rfl, fun _ => rfl, fun _ => rfl, raises_raise _ _ _ _, rfl, rfl, rfl, rfl⟩
  generalize (y.onPart p.val (fun y => y.started image)).raise 0x0F01 (some p.val) p.val = z at *
  obtain ⟨hregs, hcores, hservs, hraises, hmem, hdue, hreset, hvin⟩ := hregs
  have hsq : (z.core c).sq = (s.dev.core c).startsAt k s.dev.nextEdge := by
    rw [hcores]
    exact hwritten.sq c k hc hcp hserv hk
  have hinForce : z.regFld ⟨.tmpBudget, [p.val]⟩ 42 32 = z.period := by
    have hbudget : z.regFld ⟨.tmpBudget, [p.val]⟩ 42 32 = img.period % 2 ^ 11 := (congrArg (fld 42 32) (Dev.reg_congr hregs _)).trans hwritten.budget
    have hper : z.period = s.dev.period := (congrArg (fld 10 0) (Dev.reg_congr hregs _)).trans hwritten.period
    have hlt : s.dev.period < 2 ^ 11 := fld_lt _ _ _
    rw [hbudget, hper, hperiod, Nat.mod_eq_of_lt hlt]
  have hmemCores : c ∈ z.partCores p.val := (mem_partCores z).2 ⟨hc, (corePart_congr ((Dev.reg_congr hregs _).trans hwritten.shape) c).trans hcp⟩
  have hstall : (z.core c).sq.st ≠ .done := by
    rw [hsq]
    have hlen : k.code.length ≠ 0 := fun h => hcode (List.length_eq_zero_iff.1 h)
    have hst : ((s.dev.core c).startsAt k s.dev.nextEdge).st = .stall := if_neg hlen
    rw [hst]
    decide
  rw [periodCheck_inForce hinForce, programEnd_goesOn hmemCores hstall ((hservs c).trans ((hwritten.serves c).trans hserv)),
    heldNotice_none (by rw [hself]; exact hheld)] at heq
  obtain ⟨hmem', hdue', hreset', hvin'⟩ := hwritten.frame
  refine completes_as hacts (exec_loadComplete p s) heq (hdue.trans hdue') ⟨hreset.trans hreset', hvin.trans hvin'⟩
    ⟨?_, ?_, ?_, hsq, fun j hj => (hcores j).trans (hwritten.core j hj), fun j hj => (hothers j hj).trans (hwritten.parts j hj), hraises, hmem.trans hmem'⟩
  · rw [hself]
    rfl
  · rw [hself]
    rfl
  · rw [hself]
    rfl

/-- Settles O52: a load is checked after its map-outs, a notice is kept, a revocation that has ended hands over, and of the writes that
complete a load none touches the budget, the sequencers or another partition's cores (`Loading`). -/
theorem partitions : Obligations.Partitions := by
  intro p s
  refine ⟨fun h hscrub => ⟨fun img hst => completes_prtLoad_free h hscrub img hst, fun img hst => completes_prtLoad_waits h hscrub img hst, ?_⟩,
    fun hacts hst hrevoked hpending => completes_revocationComplete hacts hst hrevoked hpending,
    fun img c k hacts hst hload hheld hperiod _ _ hc hcp hserv hk hcode =>
      completes_loadComplete p hacts hst hload hheld hperiod hc hcp hserv hk hcode⟩
  obtain ⟨hkill, hcastle⟩ := ctrlWrite_notice h
  exact List.forall_mem_cons.2 ⟨completes_notice h hscrub (exec_prtKill p s) rfl hkill,
    List.forall_mem_cons.2 ⟨completes_notice h hscrub (exec_prtCastle p s) rfl hcastle, fun _ h => nomatch h⟩⟩

end Sys2Proof.Machine
end

section
/-! SUPPORT. Refutation of the statement about Neano's contexts: a word kept in the register map that equals a reset value (R406). -/
namespace Sys2Proof.Machine

open Safety

/-- The register of TMP_DM_CTRL past its 4 that stands at the address of context 0's NEA_CTX_CTRL: it resets to another word. -/
def ctxCtrlAlias : Reg := ⟨.tmpDmCtrl, [0x13F87E8]⟩

/-- A device with a halted context, whose register map lists NEA_CTX_CTRL of context 0 with the word that an unlisted one holds. -/
def ctxListed : State :=
  { State.reset with dev := { vin := true, resetN := true, regs := [(0xF0028010000, 0)], nea := [(0, { st := .halted })] } }

theorem acts_ctxListed : Acts ctxListed := ⟨rfl, rfl⟩

theorem reaches_ctxListed : HostReaches ctxListed ⟨.neaCtxCtrl, [0]⟩ := ⟨acts_ctxListed, rfl, rfl, rfl⟩

theorem addr_ctxCtrlAlias : ctxCtrlAlias.addr = Reg.addr ⟨.neaCtxCtrl, [0]⟩ ∧ Reg.addr ⟨.neaCtxCtrl, [0]⟩ = 0xF0028010000 := by decide

/-- Before the command the register at that address reads the word that is listed. -/
theorem reg_ctxListed : ctxListed.dev.reg ctxCtrlAlias = 0 := by
  decide

/-- RESUME writes the fields as they are; the map no longer lists them. -/
theorem resume_ctxListed : (ctxListed.dev.silent.ctxCommand 0 6).regs = [] := by
  decide

theorem completes_ctxListed : Completes (.neaResume 0) ctxListed (fun d => d.reg ctxCtrlAlias = 0x11) := by
  obtain ⟨hreset, hvin, hdue⟩ : (ctxListed.dev.silent.ctxCommand 0 6).resetN = ctxListed.dev.resetN ∧
      (ctxListed.dev.silent.ctxCommand 0 6).vin = ctxListed.dev.vin ∧
      (ctxListed.dev.silent.ctxCommand 0 6).pruneDue = ctxListed.dev.pruneDue := by decide
  refine completes_as acts_ctxListed (exec_neaResume 0 ctxListed) rfl hdue ⟨hreset, hvin⟩ ?_
  have hreg : (ctxListed.dev.silent.ctxCommand 0 6).reg ctxCtrlAlias = ctxCtrlAlias.resetVal := by
    unfold Dev.reg
    rw [resume_ctxListed]
    rfl
  exact hreg.trans (by decide)

/-- Refutes O59: RESUME writes the fields of NEA_CTX_CTRL as they stand, and a register map that listed the word of an unlisted one
lists it no more: the register of TMP_DM_CTRL at that address, whose index is past the 4 partitions, reads its own reset value instead
of 0, while the statement keeps every register as it was. -/
theorem not_neanoContexts : ¬ Obligations.NeanoContexts := by
  unfold Obligations.NeanoContexts
  intro h
  obtain ⟨-, -, hcommands, -⟩ := h 0 ctxListed
  obtain ⟨-, -, -, hresume, -⟩ := hcommands reaches_ctxListed
  obtain ⟨d, hword, -, -, -, -, hregs⟩ := completes_agree completes_ctxListed (hresume rfl)
  rw [hregs ctxCtrlAlias, reg_ctxListed] at hword
  exact absurd hword (by decide)

end Sys2Proof.Machine
end
